-- ==== Sys2Proof/Word.lean ====
section
/-! DEFINITION. The word types of the module and the status codes every operation ends with. -/

namespace Sys2Proof

/-- A register is 64 bits wide (R9). -/
abbrev Word := BitVec 64

/-- The smallest addressable unit of device memory, of the working store and of every frame. -/
abbrev Byte := BitVec 8

/-- The status codes of R439. -/
inductive Status where
  | ok | superseded | length | access | nopage | deadline | late | poison | peerLost | bound
  | saturated | unsealed | absent | replayMismatch | admission | stop | maxlen | expired | fault
  deriving DecidableEq, Repr

end Sys2Proof
end

