-- ==== Sys2Proof/Syntax.lean ====
section
/-! DEFINITION. The commands of the module: one constructor per row of the operation table, with the operands the command
carries from outside. A register write names the domain that sends it; a message, a frame or a transaction carries its bytes. -/

namespace Sys2Proof

/-- Where a frame or a beacon comes in. -/
inductive Source where
  | link (l : Fin 96)
  | port (i : Fin 4)
  deriving DecidableEq, Repr

/-- What reading the program-memory word at PC met (R91). -/
inductive PmRead where
  | clean | single | double
  deriving DecidableEq, Repr

/-- What a read of a bulk sector met: the symbols in error, and the sector that answered where it is not the one asked for (R287). -/
structure ReadErrors where
  flips : List (Nat × Byte) := []
  wrong : Option Nat := none
  deriving DecidableEq, Repr

/-- A command. `dom` is the domain that makes a register access, `p` a partition, `k` a slice, `a` an array, `e` a transfer engine,
`l` a peer link, `i` a port, `t` a stack, `ch` a channel. -/
inductive Instr where
  /-- REG_WRITE (R437): A register write with no behaviour of its own stores its value after the checks of its page. -/
  | regWrite (dom : Fin 4) (addr : Nat) (v : Word)
  /-- EVT_STAT_CLEAR (R431): A W1C write clears event bits, and a hardware raise in the same cycle wins. -/
  | evtStatClear (dom : Fin 4) (page : Nat) (v : Word)
  /-- EVT_COUNTER_CLEAR (R431): A write to EVT_CNT_CLR zeroes the named occurrence counters. -/
  | evtCounterClear (dom : Fin 4) (page : Nat) (v : Word)
  /-- HARDEN_SCRUB (R434): Every 1 µs the three copies of each RWH register are compared and a single differing copy is
  rewritten. -/
  | hardenScrub (upsets : List (Nat × Nat × Word))
  /-- BEACON_RECEIVE (R44): An accepted time beacon is corrected for link delay, the offset is slewed or stepped, and the time
  state is updated. -/
  | beaconReceive (src : Source) (frame : List Byte)
  /-- BEACON_MISS (R512): With no accepted beacon for 6,000 ticks, and for each further 4,000, one more miss is counted. -/
  | beaconMiss
  /-- HOLDOVER_EXPIRE (R43): When HOLDOVER_LIMIT passes in HOLDOVER, the module enters UNLOCKED. -/
  | holdoverExpire
  /-- CAD_TIME_CTRL_WRITE (R513): A write of ROLE moves the module between NONE, HEAD and FOLLOWER and changes the beacon
  source. -/
  | cadTimeCtrlWrite (dom : Fin 4) (v : Word)
  /-- UPSTREAM_CHANGE (R41): Within 10 µs of losing the upstream link, firmware chooses a new upstream link on a shortest path. -/
  | upstreamChange (head : Fin 64)
  /-- SLOT_ENABLE (R46): Setting PS_CFG.ENABLE, allowed only while time is LOCKED, puts the cadence slot in WAITING, and an
  ELASTIC member sends its ready report. -/
  | slotEnable (dom : Fin 4) (p : Fin 16) (v : Word)
  /-- SLOT_DISABLE (R72): Clearing PS_CFG.ENABLE drops latched marks, and the slot goes to DISABLED after the running step
  completes. -/
  | slotDisable (dom : Fin 4) (p : Fin 16) (v : Word)
  /-- MARK_SEND (R52): A FIXED leader reads the next plan entry and, once its time and the lag limit allow, sends the mark. -/
  | markSend (p : Fin 16)
  /-- PLAN_EMPTY (R52): CT passes the last mark plus its span while the plan ring is empty. -/
  | planEmpty (p : Fin 16)
  /-- MARK_RECEIVE (R48): A step mark arriving on a link is checked, acknowledged, forwarded and accepted or discarded. -/
  | markReceive (l : Fin 96) (frame : List Byte)
  /-- ACK_RECEIVE (R390): An ACK control frame stops the re-sending of the MARK or DONE frame it acknowledges. -/
  | ackReceive (l : Fin 96) (frame : List Byte)
  /-- FRAME_RESEND (R390): A MARK or DONE frame not acknowledged within 200 ns is sent again, and after eight re-sends on
  another link of the bundle. -/
  | frameResend
  /-- MARK_EFFECT (R49): The member's CT reaches MARK_CT and the mark takes effect, or is latched if a step is still running. -/
  | markEffect (p : Fin 16)
  /-- STEP_START (R51): Once the mark has taken effect and the prior step is complete, leftover entries fire, any bank swap
  applies, the cursor resets and STEP is set. -/
  | stepStart (p : Fin 16)
  /-- BOUND_APPLY_TIMEOUT (R488): With no cadence slot enabled, a pending bound change of a module-wide loop applies 1 ms after
  the write. -/
  | boundApplyTimeout
  /-- STEP_DONE (R51): When the step-done counter reaches DONE_TARGET, the target is taken, the step completes and a done report
  goes to the leader. -/
  | stepDone (p : Fin 16)
  /-- DONE_REPORT_RECEIVE (R54): The leader receives a member's DONE frame and updates the step each member has completed. -/
  | doneReportReceive (l : Fin 96) (dst : Fin 64) (flood : Bool) (frame : List Byte)
  /-- MARK_TIMEOUT (R55): A member sees no mark for MARK_TIMEOUT ticks after MARK_CT + SPAN and keeps waiting. -/
  | markTimeout (p : Fin 16)
  /-- STEP_LIMIT (R64): A step still running STEP_LIMIT ticks after its start is reported, but not ended. -/
  | stepLimit (p : Fin 16)
  /-- IDLE_WINDOW_CLOSE (R65): The implicit idle window closes at MARK_CT + SPAN − IDLE_GUARD, aborting screening. -/
  | idleWindowClose (p : Fin 16)
  /-- START_PROG (R57): A schedule entry posts a program start to each sequencer it names. -/
  | startProg (p : Fin 16)
  /-- SCHED_CURSOR_RESUME (R60): A start queue accepts the held start and the cursor moves on. -/
  | schedCursorResume (p : Fin 16)
  /-- START_STREAM (R57): A schedule entry arms a transfer queue slot with a descriptor. -/
  | startStream (p : Fin 16)
  /-- SCHED_SIGNAL (R57): A schedule entry signals a partition-relative counter. -/
  | schedSignal (p : Fin 16)
  /-- POLL_RING (R416): A schedule entry reads the domain's submission-ring tail and applies the new commands. -/
  | pollRing (p : Fin 16)
  /-- IDLE_WINDOW (R65): A schedule entry opens an idle window on the named slices. -/
  | idleWindow (p : Fin 16)
  /-- SCHED_ENTRY_COMMIT (R62): A write to DOM_SCHED_HI checks the staged entry and commits it to the inactive bank. -/
  | schedEntryCommit (dom : Fin 4) (d : Fin 4) (v : Word)
  /-- SCHED_LOAD (R62): DOM_LOAD_CTRL.GO checks the range and every entry, and then loads entries from device memory or writes
  nothing. -/
  | schedLoad (dom : Fin 4) (d : Fin 4) (v : Word)
  /-- SCHED_SWAP_WRITE (R61): Writing PS_SCHED.SWAP schedules a bank swap for the next step start. -/
  | schedSwapWrite (dom : Fin 4) (p : Fin 16) (v : Word)
  /-- COUNTER_SET (R71): A write to DOM_CTR_VAL sets a counter in the domain's range. -/
  | counterSet (dom : Fin 4) (d : Fin 4) (v : Word)
  /-- NOP (R84): The CTRL instruction NOP issues and does nothing. -/
  | nop (k : Fin 16) (read : PmRead)
  /-- END (R95): The program ends and the next start may be dequeued. -/
  | endProg (k : Fin 16) (read : PmRead)
  /-- JUMP (R84): Issue continues at the target index. -/
  | jump (k : Fin 16) (read : PmRead)
  /-- BRANCH (R87): A source register is compared with the immediate and issue continues at the target if the condition holds. -/
  | branch (k : Fin 16) (read : PmRead)
  /-- LOOP (R84): An index register is decremented and issue loops while it is nonzero. -/
  | loop (k : Fin 16) (read : PmRead)
  /-- SETIX (R84): An index register is set to the immediate. -/
  | setix (k : Fin 16) (read : PmRead)
  /-- ADDIX (R84): The immediate is added to an index register modulo 2^64. -/
  | addix (k : Fin 16) (read : PmRead)
  /-- WAIT (R88): A wait on a counter holds the sequencer, or with SCOPE = 1 is placed in the named engine queue. -/
  | wait (k : Fin 16) (read : PmRead)
  /-- WAIT_TAKE (R67): As WAIT, and the value is then taken from the counter in the same cycle. -/
  | waitTake (k : Fin 16) (read : PmRead)
  /-- SEQ_WAIT_RESUME (R88): A held wait passes once its counter reaches the value, and its sequencer or engine continues. -/
  | seqWaitResume (k : Fin 16) (engine : Option (Fin 9))
  /-- SIGNAL (R67): A counter is signalled at issue, saturating at 0xFFFF_FFFF. -/
  | signal (k : Fin 16) (read : PmRead)
  /-- SETCTR (R84): A counter is set at issue. -/
  | setctr (k : Fin 16) (read : PmRead)
  /-- START (R94): A program start is posted to a slice of the partition, holding the sequencer while the target queue is full. -/
  | start (k : Fin 16) (read : PmRead)
  /-- START_HOLD_RELEASE (R94): An entry frees in the target start queue and the held START proceeds. -/
  | startHoldRelease (k : Fin 16)
  /-- START_STALL (R94): A START held for more than 4,096 arithmetic cycles is reported. -/
  | startStall (k : Fin 16)
  /-- RELEASE (R83): Tiles of a stream buffer region are returned to the producer's credits. -/
  | release (k : Fin 16) (read : PmRead)
  /-- FENCE (R84): The sequencer waits until every named queue is empty and its operations complete. -/
  | fence (k : Fin 16) (read : PmRead)
  /-- FENCE_RESUME (R84): The fenced queues have emptied and issue continues. -/
  | fenceResume (k : Fin 16)
  /-- MOVS (R90): A summary register is copied into an index register. -/
  | movs (k : Fin 16) (read : PmRead)
  /-- ISSUE_RESUME (R96): A full engine queue gains an entry and the instruction that was held issues. -/
  | issueResume (k : Fin 16)
  /-- PROGRAM_START (R93): An idle sequencer dequeues a start and begins issuing with IX0 set to the argument. -/
  | programStart (k : Fin 16)
  /-- SEQ_START_WRITE (R94): A write to SEQ_START queues a program start, or completes with ACCESS if it cannot. -/
  | seqStartWrite (dom : Fin 4) (k : Fin 16) (v : Word)
  /-- PM_LOAD (R92): SEQ_PM_CTRL.GO requests a program-memory load and stops further dequeuing of starts. -/
  | pmLoad (dom : Fin 4) (k : Fin 16) (v : Word)
  /-- PM_LOAD_START (R92): Once no instruction of the slice can issue, the pending load begins. -/
  | pmLoadStart (k : Fin 16)
  /-- PM_LOAD_DONE (R92): The program-memory load ends with its status and the held starts may run. -/
  | pmLoadDone (k : Fin 16)
  /-- SEQ_ABORT (R99): Issue stops, unstarted queue entries are discarded, halted queues are cleared and the start queue is
  emptied. -/
  | seqAbort (dom : Fin 4) (k : Fin 16) (v : Word)
  /-- ABORT_COMPLETE (R99): The operations already started complete and the sequencer goes from ABORTING to IDLE. -/
  | abortComplete (k : Fin 16)
  /-- ENGINE_OP_COMPLETE (R89): An engine operation completes and signals its counter when its results are visible, in queue
  order. -/
  | engineOpComplete (k : Fin 16) (q : Fin 9)
  /-- STREAM_REGION_CONFIG (R82): A write to WS_SB_CFG is checked and then enables, changes or disables a stream buffer region. -/
  | streamRegionConfig (dom : Fin 4) (k : Fin 16) (v : Word)
  /-- MMA (R102): An output tile is accumulated from activation rows and streamed weight tiles into a group. -/
  | mma (k : Fin 16) (read : PmRead)
  /-- ARRAY_FILL_RESUME (R107): The region fill count covers the next weight tile and the waiting MMA continues. -/
  | arrayFillResume (k : Fin 16) (a : Fin 4)
  /-- STARVE_LONG (R125): One fill wait of an array exceeds 65,536 cycles. -/
  | starveLong (k : Fin 16) (a : Fin 4)
  /-- LOAD (R135): A group is opened with an exact copy of a source tile and status word. -/
  | load (k : Fin 16) (read : PmRead)
  /-- DRAIN (R123): A group is closed and its rows pass through the Blend chain and quantisation profile into the working store
  or the Pepper units. -/
  | drain (k : Fin 16) (read : PmRead)
  /-- DRAIN_BUFFER_RESUME (R124): The drain buffer frees a slot and the waiting DRAIN proceeds. -/
  | drainBufferResume (k : Fin 16) (a : Fin 4)
  /-- OPEN_WAIT_RESUME (R115): An earlier DRAIN has read the tile, and the operation waiting to open it proceeds. -/
  | openWaitResume (k : Fin 16) (a : Fin 4)
  /-- DATTN (R120): Dense attention for one head runs scores, masking, online softmax and the value sum in one instruction. -/
  | dattn (k : Fin 16) (read : PmRead)
  /-- CONFIG (R113): The array queue's format state is set for later MMAs. -/
  | config (k : Fin 16) (read : PmRead)
  /-- ARR_CLOSE_ALL (R114): ARR_CTRL.CLOSE_ALL closes every group the array owns without draining. -/
  | arrCloseAll (dom : Fin 4) (k : Fin 16) (a : Fin 4)
  /-- VLOAD (R151): Operand panels are copied into tile registers. -/
  | vload (k : Fin 16) (read : PmRead)
  /-- VSTORE (R152): Tile registers are converted and copied to memory. -/
  | vstore (k : Fin 16) (read : PmRead)
  /-- CLOVE (R157): A per-element Clove program runs over its operands. -/
  | clove (k : Fin 16) (read : PmRead)
  /-- REDUCE (R159): Rows or columns are reduced in a fixed tree order. -/
  | reduce (k : Fin 16) (read : PmRead)
  /-- TOPK (R160): The top k columns of each row are selected with their indices. -/
  | topk (k : Fin 16) (read : PmRead)
  /-- COMPRESS (R161): Active rows are gathered into dense runs grouped by key. -/
  | compress (k : Fin 16) (read : PmRead)
  /-- EXPAND (R162): Compressed rows are copied or weighted-added back to their destination rows. -/
  | expand (k : Fin 16) (read : PmRead)
  /-- COMBINE (R163): The parts of a parallel split are added in ascending order. -/
  | combine (k : Fin 16) (read : PmRead)
  /-- PLOAD (R154): Clove instructions are copied into the program store. -/
  | pload (k : Fin 16) (read : PmRead)
  /-- BSET (R165): A Blend chain record is loaded, checked and committed. -/
  | bset (k : Fin 16) (read : PmRead)
  /-- BLEND_COMMIT (R165): A write to VEC_BCH_HDR checks and commits the staged chain and resets its cursors. -/
  | blendCommit (dom : Fin 4) (k : Fin 16) (v : Word)
  /-- QRUN (R191): A profile is applied to an operand, or reversed with DEQ. -/
  | qrun (k : Fin 16) (read : PmRead)
  /-- QHAD (R192): A Hadamard rotation of size 2^k is applied to an operand. -/
  | qhad (k : Fin 16) (read : PmRead)
  /-- QSTEP (R186): A slot with ADV = 1 is advanced, optionally pushing an external value. -/
  | qstep (k : Fin 16) (read : PmRead)
  /-- QLOAD (R515): Profile records are read and checked, and then committed all together or not at all. -/
  | qload (k : Fin 16) (read : PmRead)
  /-- PROFILE_COMMIT (R183): A write to QNT_PROF0 checks and commits the staged profile and resets its cursors. -/
  | profileCommit (dom : Fin 4) (k : Fin 16) (v : Word)
  /-- QNT_SLOT_HIST_WRITE (R184): A write to QNT_SLOT_HIST replaces or appends a history entry. -/
  | qntSlotHistWrite (dom : Fin 4) (k : Fin 16) (v : Word)
  /-- TRAP_SATURATE (R188): A held drain is resolved by converting with saturation. -/
  | trapSaturate (dom : Fin 4) (k : Fin 16) (a : Fin 4)
  /-- TRAP_RESCALE (R188): A held drain is resolved by re-deriving the scale from the tile. -/
  | trapRescale (dom : Fin 4) (k : Fin 16) (a : Fin 4)
  /-- TRAP_RETRY (R188): A held drain is converted with the supplied σ and marked RETRIED. -/
  | trapRetry (dom : Fin 4) (k : Fin 16) (a : Fin 4) (sigma : BitVec 32)
  /-- TRAP_FAIL (R188): A held drain completes with SATURATED, signals nothing and halts its queue. -/
  | trapFail (dom : Fin 4) (k : Fin 16) (a : Fin 4)
  /-- TRAP_TIMEOUT (R188): A trap not resolved within QNT_TRAP_LIMIT resolves as FAIL. -/
  | trapTimeout (k : Fin 16) (a : Fin 4)
  /-- ADEC (R209): Decode attention runs for each sequence and head of a batch over its admissible cached keys. -/
  | adec (k : Fin 16) (read : PmRead)
  /-- APPEND (R201): New key/value records are quantised and written to the tail area and to their page slots. -/
  | append (k : Fin 16) (read : PmRead)
  /-- AMERGE (R213): The parts of a parallel attention split are merged in ascending order. -/
  | amerge (k : Fin 16) (read : PmRead)
  /-- AGATHER (R216): Cached keys and values are gathered into DATTN panel layouts. -/
  | agather (k : Fin 16) (read : PmRead)
  /-- XLOAD (R196): Bytes are copied from the working store into the expansion store. -/
  | xload (k : Fin 16) (read : PmRead)
  /-- ACONFIG (R198): Cache-stream configuration slots are loaded, all together or not at all. -/
  | aconfig (k : Fin 16) (read : PmRead)
  /-- ARM (R220): An XFER instruction arms a queue slot with a descriptor in the working store. -/
  | arm (k : Fin 16) (read : PmRead)
  /-- ARMD (R220): An XFER instruction arms a queue slot with a descriptor in device memory. -/
  | armd (k : Fin 16) (read : PmRead)
  /-- STOP (R228): An XFER instruction stops a slot after its issued blocks complete. -/
  | stop (k : Fin 16) (read : PmRead)
  /-- XE_ARM_WRITE (R220): A write to XE_ARM arms the selected slot from device memory. -/
  | xeArmWrite (dom : Fin 4) (e : Fin 40) (v : Word)
  /-- XE_STOP_WRITE (R228): A write to XE_ARM with STOP stops the selected slot. -/
  | xeStopWrite (dom : Fin 4) (e : Fin 40) (v : Word)
  /-- TRANSFER_ISSUE (R224): A slot with credits, completion slots and pacing room issues its next transfer. -/
  | transferIssue (e : Fin 40) (slot : Fin 64)
  /-- TRANSFER_COMPLETE (R225): A transfer completes, tiles are made visible in order, and blocks and generations complete with
  their signals and records. -/
  | transferComplete (e : Fin 40) (slot : Fin 64) (n : Nat)
  /-- STACK_READ_DONE (R257): A stack sector read is decoded as clean, corrected or uncorrectable. -/
  | stackReadDone (addr : Nat) (flips : List (Nat × Byte))
  /-- CMD_PARITY_ALERT (R259): A stack raises its alert line, and the controller settles, precharges and replays the commands
  from its history. -/
  | cmdParityAlert (t : Fin 12) (ch : Fin 128)
  /-- REFRESH_DUE (R261): A bank's refresh interval passes and its refresh debt grows or a refresh is performed. -/
  | refreshDue (t : Fin 12) (ch : Fin 128) (bank : Fin 32) (n : Fin 17)
  /-- SCRUB_READ (R260): Patrol scrub reads the next sector of a channel. -/
  | scrubRead (t : Fin 12) (ch : Fin 128)
  /-- THERMAL_REPORT (R262): A stack temperature report is compared with the thermal thresholds. -/
  | thermalReport (t : Fin 12) (temp : Int) (inner : Nat)
  /-- THERMAL_REPORT_MISS (R264): A stack that misses 8 consecutive reports is treated as at 105 °C. -/
  | thermalReportMiss (t : Fin 12)
  /-- WINDOW_COMMIT (R244): A write of STK_SPR_CFG with EN = 1 checks and commits a spreading window. -/
  | windowCommit (dom : Fin 4) (v : Word)
  /-- WINDOW_DISABLE (R245): A write that only clears EN disables a spreading window for transfers issued afterwards. -/
  | windowDisable (dom : Fin 4)
  /-- ROWSEQ_GO (R276): ROWQ_CTRL.GO starts a row-operation sequence, checking each entry before any of its rows start. -/
  | rowseqGo (dom : Fin 4) (d : Fin 4) (rq : Fin 4) (v : Word)
  /-- ROWSEQ_ABORT (R277): ROWQ_CTRL.ABORT dispatches nothing further and ends the sequence with SUPERSEDED. -/
  | rowseqAbort (dom : Fin 4) (d : Fin 4) (rq : Fin 4)
  /-- ROW_INIT (R269): A row is filled with a pattern sector and sealed. -/
  | rowInit (d : Fin 4) (rq : Fin 4)
  /-- ROW_COPY (R269): A row is copied within the bank or the channel and keeps its source's seal state. -/
  | rowCopy (d : Fin 4) (rq : Fin 4)
  /-- ROW_AND (R269): Two rows are ANDed into a stale destination. -/
  | rowAnd (d : Fin 4) (rq : Fin 4)
  /-- ROW_OR (R269): Two rows are ORed into a stale destination. -/
  | rowOr (d : Fin 4) (rq : Fin 4)
  /-- ROW_XOR (R269): Two rows are XORed, and the result stays sealed if both sources are. -/
  | rowXor (d : Fin 4) (rq : Fin 4)
  /-- ROW_NOT (R269): A row is inverted into a stale destination. -/
  | rowNot (d : Fin 4) (rq : Fin 4)
  /-- RESEAL (R274): A stale row's check bytes are recomputed and the row is sealed. -/
  | reseal (d : Fin 4) (rq : Fin 4)
  /-- ROW_OP_COMPLETE (R277): A row operation ends, and the sequence advances, or completes and signals, or fails. -/
  | rowOpComplete (d : Fin 4) (rq : Fin 4)
  /-- BULK_READ_DONE (R287): A bulk sector read is decoded with its address-folded check bytes. -/
  | bulkReadDone (addr : Nat) (errors : ReadErrors)
  /-- BULK_SCRUB_READ (R287): Bulk patrol scrub reads the next sector. -/
  | bulkScrubRead
  /-- MR4_POLL (R289): Every 16 µs MR4 of each package is read and the refresh rate is adjusted. -/
  | mr4Poll (pkg : Fin 16) (report : Option (Fin 8 × Bool))
  /-- PLACEMENT_EPOCH (R293): Each epoch the placement loop swaps hot bulk units with cold stack units and halves every count. -/
  | placementEpoch
  /-- SWAP_PIECE_DONE (R295): A 64 KiB piece of a swap is exchanged, the cursor advances and held accesses go on. -/
  | swapPieceDone
  /-- PIN_WRITE (R297): A write of PIN in PLD_UNIT pins a unit, queueing a swap if needed. -/
  | pinWrite (dom : Fin 4) (d : Fin 4) (v : Word)
  /-- SPILL_COPY_DONE (R298): A page copy to or from the bulk pool completes and waits for its switch at stage 0. -/
  | spillCopyDone
  /-- RETENTION_SWEEP (R302): Every 1 ms retained entries whose expiry CT has passed are freed. -/
  | retentionSweep
  /-- SUBMIT (R310): A FREE entry is filled from the command, checked and made QUEUED. -/
  | submit (d : Fin 4) (cmd : List Byte)
  /-- CANCEL (R311): A request is ended with SUPERSEDED, at once or at its batch's commit. -/
  | cancel (d : Fin 4) (cmd : List Byte)
  /-- RESUME (R315): A RETAINED request gains added tokens and returns to QUEUED. -/
  | resume (d : Fin 4) (cmd : List Byte)
  /-- REQUEST_RELEASE (R312): A RETAINED or FAILED entry frees its pages or husk slot and becomes FREE. -/
  | requestRelease (d : Fin 4) (cmd : List Byte)
  /-- PFX_CREATE (R331): A prefix handle is made to hold a request's first n pages. -/
  | pfxCreate (d : Fin 4) (cmd : List Byte)
  /-- PFX_DROP (R331): A prefix handle's holder counts are lowered and the handle is freed. -/
  | pfxDrop (d : Fin 4) (cmd : List Byte)
  /-- CMD_NOP (R309): A NOP command completes with a CMD_DONE record. -/
  | cmdNop (d : Fin 4) (cmd : List Byte)
  /-- SQ_POLL_TIMER (R416): Every 2 µs while no slot of the domain runs, the submission-ring tail is read and commands applied. -/
  | sqPollTimer (d : Fin 4)
  /-- SQ_ENABLE (R416): Setting DQ_SQ_CTRL.EN checks the ring and restarts polling from the head. -/
  | sqEnable (dom : Fin 4) (d : Fin 4) (v : Word)
  /-- STAGE0 (R314): After the previous commit the serving unit switches copies, ends late entries, applies husk jobs, forms the
  batch, writes the batch area and signals READY. -/
  | stage0 (p : Fin 16)
  /-- PEPPER_MERGE (R341): When every sample row is complete, candidates are merged, penalised, sampled and drafts verified, and
  the result table is written and signalled. -/
  | pepperMerge (p : Fin 16)
  /-- VERDICT_WRITE (R450): On the FIN counter the integrity unit closes open sets, writes the verdict area and signals VCTR. -/
  | verdictWrite (p : Fin 16)
  /-- COMMIT (R329): In stage 9 the commit gate decides and each batch entry's results, stops and records are applied. -/
  | commit (p : Fin 16)
  /-- TOKEN_RECORD_WRITE (R356): A buffered token record is written to the token ring when it has room, with the producer count. -/
  | tokenRecordWrite (p : Fin 16)
  /-- EVENT_RECORD_WRITE (R417): An event record is written to the domain's event ring when it has room, with the producer
  count. -/
  | eventRecordWrite (d : Fin 4)
  /-- PARTITION_CONFIG (R364): CONFIG moves a FREE partition to CONFIG. -/
  | partitionConfig (dom : Fin 4) (p : Fin 16)
  /-- ACTIVATE (R364): The activation checks are made and the partition becomes ACTIVE or stays in CONFIG with a cause. -/
  | activate (dom : Fin 4) (p : Fin 16)
  /-- QUIESCE (R370): QUIESCE stops submissions, disables the slot and begins bringing the partition to rest. -/
  | quiesce (dom : Fin 4) (p : Fin 16)
  /-- QUIESCE_COMPLETE (R370): With its step committed, its work done and its records written, the partition becomes QUIESCED. -/
  | quiesceComplete (p : Fin 16)
  /-- QUIESCE_TIMEOUT (R371): A step that has not committed within DM_QLIMIT is abandoned and quiescing continues. -/
  | quiesceTimeout (p : Fin 16)
  /-- WEDGE_TIMEOUT (R373): Records still owed DM_QLIMIT after the work ended make the domain WEDGED. -/
  | wedgeTimeout (p : Fin 16)
  /-- PARTITION_RESUME (R370): RESUME re-enables the slot and returns a QUIESCED partition to ACTIVE. -/
  | partitionResume (dom : Fin 4) (p : Fin 16)
  /-- PARTITION_RELEASE (R372): RELEASE frees entries, resets slices and ranges, and starts scrubbing the partition's units. -/
  | partitionRelease (dom : Fin 4) (p : Fin 16)
  /-- RELEASE_SCRUB_DONE (R372): PT_SCRUB reaches 0 and the partition becomes FREE. -/
  | releaseScrubDone (p : Fin 16)
  /-- PT_SLICES_WRITE (R365): A write to PT_SLICES assigns slices, or adds one to an ACTIVE STANDARD partition at its next step. -/
  | ptSlicesWrite (dom : Fin 4) (p : Fin 16) (v : Word)
  /-- REGION_COMMIT (R367): A write to RG_CFG checks and commits a region change with its staged range. -/
  | regionCommit (dom : Fin 4) (v : Word)
  /-- DOMAIN_ATTACH (R374): Setting DM_CFG.EN attaches a domain and clears its events. -/
  | domainAttach (dom : Fin 4) (d : Fin 4)
  /-- DOMAIN_DETACH (R374): Clearing DM_CFG.EN detaches a domain, disabling its rings and discarding its event records. -/
  | domainDetach (dom : Fin 4) (d : Fin 4)
  /-- LINK_ENABLE (R381): Setting LNK_CTRL.EN starts link training. -/
  | linkEnable (dom : Fin 4) (l : Fin 96) (v : Word)
  /-- LINK_DISABLE (R381): Clearing LNK_CTRL.EN turns the link OFF. -/
  | linkDisable (dom : Fin 4) (l : Fin 96) (v : Word)
  /-- LINK_RETRAIN (R381): Writing RETRAIN restarts training from any state. -/
  | linkRetrain (dom : Fin 4) (l : Fin 96) (v : Word)
  /-- LINK_TRAIN_DONE (R381): FEC lock, IDENT and delay measurement complete and the link goes UP. -/
  | linkTrainDone (l : Fin 96)
  /-- TRAIN_FAIL (R381): Training that exceeds TRAIN_MS leaves the link FAILED. -/
  | trainFail (l : Fin 96)
  /-- LINK_DOWN (R379): No decode or valid flit for 2 µs, or a replay limit, puts the link DOWN and moves its queued messages. -/
  | linkDown (l : Fin 96)
  /-- AUTO_RETRAIN (R381): 1 ms after DOWN with AUTO_RETRAIN the link starts training. -/
  | autoRetrain (l : Fin 96)
  /-- FLIT_RECEIVE (R378): A flit is accepted in sequence or discarded, and credits and acknowledgements are taken from it. -/
  | flitReceive (l : Fin 96) (flit : List Byte) (decoded : Bool) (fixed : Nat)
  /-- IDENT_RECEIVE (R380): A peer's or node's IDENT is checked against the cluster id and the wiring rule. -/
  | identReceive (src : Source) (frame : List Byte)
  /-- PING_RECEIVE (R407): A PING is answered with a PONG carrying the stamps. -/
  | pingReceive (src : Source) (frame : List Byte)
  /-- PONG_RECEIVE (R407): A PONG yields a round trip and updates the one-way delay. -/
  | pongReceive (src : Source) (frame : List Byte)
  /-- LIVE_SEND (R391): Every 10 µs a joined module floods a LIVE frame. -/
  | liveSend
  /-- LIVE_RECEIVE (R391): A LIVE frame refreshes a peer's live bit, or a new epoch declares it lost. -/
  | liveReceive (l : Fin 96) (frame : List Byte)
  /-- PEER_LOST (R391): With no LIVE for 50 µs, a peer is lost and everything naming it completes with PEER_LOST. -/
  | peerLost (id : Fin 64)
  /-- MESSAGE_FORWARD (R385): A message for another module is routed on to the least-loaded UP link of its bundle. -/
  | messageForward (l : Fin 96) (sub : Fin 2) (msg : List Byte)
  /-- REMOTE_WRITE (R392): A WRITE message is checked and applied, and a response returned. -/
  | remoteWrite (l : Fin 96) (msg : List Byte)
  /-- REMOTE_READ (R392): A READ message is checked and served with data. -/
  | remoteRead (l : Fin 96) (msg : List Byte)
  /-- REMOTE_SIGNAL (R71): A SIGNAL message signals a counter if the group and index permit. -/
  | remoteSignal (l : Fin 96) (msg : List Byte)
  /-- REMOTE_RESP (R393): A RESP message completes the originating transfer. -/
  | remoteResp (l : Fin 96) (msg : List Byte)
  /-- MESSAGE_RESEND (R393): A request unanswered after 20 µs is resent once with the same tag. -/
  | messageResend
  /-- TRANSACTION_TIMEOUT (R33): A request unanswered after 100 µs completes with PEER_LOST. -/
  | transactionTimeout
  /-- RELAY_RECEIVE (R394): A RELAY message is applied as if it had come from its domain's port, in sequence order. -/
  | relayReceive (l : Fin 96) (msg : List Byte)
  /-- RELAY_RESP_RECEIVE (R422): A RELAY_RESP becomes an RSP to the node with the original tag. -/
  | relayRespReceive (l : Fin 96) (msg : List Byte)
  /-- RANK_GROUP_COMMIT (R395): FAB_GCFG.EN checks and commits a rank group and finds the module's rank. -/
  | rankGroupCommit (dom : Fin 4) (v : Word)
  /-- CQ_ARM (R396): CQ_CTRL.GO arms a collective queue with its entry list. -/
  | cqArm (dom : Fin 4) (cq : Fin 64) (v : Word)
  /-- CQ_RESET (R402): CQ_CTRL.RESET empties a halted or idle collective queue. -/
  | cqReset (dom : Fin 4) (cq : Fin 64)
  /-- ALL_REDUCE (R399): An entry starts that scatters pieces, combines them in rank order and gathers the result. -/
  | allReduce (cq : Fin 64)
  /-- REDUCE_SCATTER (R399): An entry starts that combines each rank's piece only. -/
  | reduceScatter (cq : Fin 64)
  /-- ALL_GATHER (R399): An entry starts that gathers every rank's buffer. -/
  | allGather (cq : Fin 64)
  /-- ALL_TO_ALL (R396): An entry starts that sends each rank its part of the send table. -/
  | allToAll (cq : Fin 64)
  /-- SEND (R396): An entry starts that sends a buffer to a peer rank's RECV. -/
  | send (cq : Fin 64)
  /-- RECV (R396): An entry starts that receives a peer rank's SEND. -/
  | recv (cq : Fin 64)
  /-- RSIGNAL (R396): An entry starts that signals a counter at a peer rank. -/
  | rsignal (cq : Fin 64)
  /-- BARRIER (R396): An entry starts that completes when every rank has started its BARRIER. -/
  | barrier (cq : Fin 64)
  /-- READY_RECEIVE (R398): A READY frame lets contributions to the posted buffers be sent. -/
  | readyReceive (l : Fin 96) (dst : Fin 64) (frame : List Byte)
  /-- COLL_ABORT_RECEIVE (R402): An ABORT frame completes the matching entry with SUPERSEDED. -/
  | collAbortReceive (l : Fin 96) (dst : Fin 64) (frame : List Byte)
  /-- CONTRIB_RECEIVE (R401): A CONTRIB message is checked by CRC-64 and counted as arrived or asked to be resent. -/
  | contribReceive (l : Fin 96) (msg : List Byte)
  /-- COLL_COMBINE (R400): At the next vector-engine boundary the pieces are combined in ascending rank order. -/
  | collCombine (cq : Fin 64)
  /-- COLL_ENTRY_COMPLETE (R396): A collective entry completes and signals DONECTR after the entries before it. -/
  | collEntryComplete (cq : Fin 64)
  /-- PORT_ENABLE (R406): Setting DLK_CTRL.EN starts port bring-up. -/
  | portEnable (dom : Fin 4) (i : Fin 4) (v : Word)
  /-- PORT_DISABLE (R406): Clearing DLK_CTRL.EN turns the port OFF. -/
  | portDisable (dom : Fin 4) (i : Fin 4) (v : Word)
  /-- PORT_RETRAIN (R408): Writing RETRAIN restarts port training. -/
  | portRetrain (dom : Fin 4) (i : Fin 4) (v : Word)
  /-- PORT_TRAIN_DONE (R407): Lock, IDENT and delay measurement complete and the port goes UP. -/
  | portTrainDone (i : Fin 4)
  /-- PORT_TRAIN_FAIL (R407): Training exceeding TRAIN_MS, or a wrong version, leaves the port FAILED. -/
  | portTrainFail (i : Fin 4)
  /-- PORT_DOWN (R408): Lost decode, 50 µs without a valid frame, or a replay limit puts the port DOWN. -/
  | portDown (i : Fin 4) (lock : Bool)
  /-- PORT_PING_SEND (R407): Every 1 ms an UP port sends a PING. -/
  | portPingSend (i : Fin 4)
  /-- PORT_FRAME_RECEIVE (R409): A Dorondlink frame is accepted in sequence or replayed, and its credits are taken. -/
  | portFrameReceive (i : Fin 4) (frame : List Byte) (decoded : Bool) (fixed : Nat)
  /-- REG_RD (R411): A node register read is checked against the domain's view and answered. -/
  | regRd (i : Fin 4) (req : List Byte)
  /-- REG_WR (R411): A node register write is checked and applied as a register access. -/
  | regWr (i : Fin 4) (req : List Byte)
  /-- MEM_RD (R411): A memory read is checked against the domain's regions and answered with data. -/
  | memRd (i : Fin 4) (req : List Byte)
  /-- MEM_WR (R411): A memory write is checked and applied in arrival order, or relayed when DST is another module. -/
  | memWr (i : Fin 4) (req : List Byte)
  /-- PLAN_WR (R421): Plan entries are written to a FIXED leader's plan ring and its tail advanced. -/
  | planWr (i : Fin 4) (req : List Byte)
  /-- RSP_RECEIVE (R411): A node RSP completes the module's own request with its tag. -/
  | rspReceive (i : Fin 4) (req : List Byte)
  /-- LOG_READ (R442): Error records addressed to the domain are copied into the mailbox buffer. -/
  | logRead (d : Fin 4)
  /-- ATTEST (R481): A signed attestation report over the nonce is written. -/
  | attest (d : Fin 4)
  /-- CERT_READ (R482): A certificate or record selected by ARG0 is written. -/
  | certRead (d : Fin 4)
  /-- FW_STAGE (R479): A chunk of a firmware image is written into the slot that did not boot. -/
  | fwStage (d : Fin 4)
  /-- RECORD_STAGE (R479): With ARG0[31] set, a new configuration record is checked and staged. -/
  | recordStage (d : Fin 4)
  /-- FW_ACTIVATE (R480): The staged slot is verified and the directory is made to name it for the next reset. -/
  | fwActivate (d : Fin 4)
  /-- RESET (R466): The steward's mailbox command resets the module. -/
  | mbReset (d : Fin 4)
  /-- MB_DONE (R442): A mailbox command ends with its status and result. -/
  | mbDone (d : Fin 4)
  /-- MB_TIMEOUT (R442): A mailbox command not done within 1 s ends with FAULT. -/
  | mbTimeout (d : Fin 4)
  /-- MACE_IMAGE_LOAD (R459): IG_MACE_CTRL.LOAD verifies and accepts a new Mace image. -/
  | maceImageLoad (dom : Fin 4)
  /-- MACE_TEST_START (R458): A known-answer test that fits the idle time starts on a slice. -/
  | maceTestStart (k : Fin 16) (cls : Fin 8) (cycles : Nat)
  /-- MACE_TEST_DONE (R457): A test's result hash is compared, and suspect slices are classified. -/
  | maceTestDone (k : Fin 16) (results : List Byte) (expected : List Byte) (last : Bool)
  /-- REPAIR_DONE (R460): A damaged piece is re-fetched from a source, written back and the failed slots re-armed. -/
  | repairDone (n : Nat) (answers : List (Option (List Byte)))
  /-- REPAIR_WAIT (R461): A repair not done within WAIT_US is reported as WAITING. -/
  | repairWait (n : Nat)
  /-- DIGEST_UNIT_DONE (R462): A unit's background digest is written and compared with its reference. -/
  | digestUnitDone (r : Fin 64)
  /-- RESET_N_LOW (R501): RESET_N held low for eight samples resets the module. -/
  | resetNLow
  /-- RESET_RELEASE (R475): The internal reset is released, SLOT_ID is sampled and the ROM chooses, verifies and starts the
  firmware. -/
  | resetRelease (straps : Fin 64) (hangs : Bool)
  /-- ROM_BOOT_TIMEOUT (R467): The Anise cores are not started within 200 ms and the boot stops in ROM FAULT. -/
  | romBootTimeout
  /-- BOOT_STEP_DONE (R476): A timed boot step completes and the next begins. -/
  | bootStepDone (lanes : List (Fin 12 × Fin 128 × List Nat)) (bulkBad : Option Nat) (slices : BitVec 16)
  /-- BOOT_STEP_TIMEOUT (R476): A boot step exceeds its limit and the module stops in firmware FAULT. -/
  | bootStepTimeout
  /-- WATCHDOG_EXPIRE (R466): AN_BEAT not advancing for 10 ms while armed resets the module. -/
  | watchdogExpire
  /-- POWER_UP (R501): The input enters 40–60 V, the rails come up and PWR_GOOD goes high. -/
  | powerUp
  /-- INPUT_FAULT (R499): Input below 38 V for 100 µs or above 62 V drops PWR_GOOD, resets and turns the rails off. -/
  | inputFault
  /-- REFCLK_LOSS (R504): Loss of REFCLK for 2 µs or of its loop lock is fatal. -/
  | refclkLoss
  /-- POWER_SAMPLE (R491): Every 1 µs input power is sampled and the fast path checked. -/
  | powerSample (watts : Nat) (vin : Nat)
  /-- EMERG_HOLD_END (R491): After 100 µs the fast path releases and the normal loop resumes. -/
  | emergHoldEnd
  /-- LOOP_EVALUATE (R490): Every 50 µs the power-cap and die thermal loops adjust PSTEP, PLEVEL and TSTEP. -/
  | loopEvaluate
  /-- CLOCK_STEP_CHANGE (R486): The step in force changes, ramping the supply and switching the clock within 2 µs. -/
  | clockStepChange
  /-- DIE_SENSOR_REPORT (R492): A die sensor reports and the critical and fatal thresholds are checked. -/
  | dieSensorReport (sensor : Fin 24) (temp : Int)
  /-- DIE_SENSOR_MISS (R492): A sensor that misses 8 consecutive reports is fatal. -/
  | dieSensorMiss (sensor : Fin 24)
  /-- MOD_STATE (R505): SMBus read of the module state, reset cause and fault status. -/
  | modState (pec : Bool)
  /-- MOD_SERIAL (R505): SMBus block read of the module serial. -/
  | modSerial (pec : Bool)
  /-- INPUT_V (R505): SMBus read of the input voltage. -/
  | inputV (pec : Bool)
  /-- INPUT_P (R505): SMBus read of the mean input power. -/
  | inputP (pec : Bool)
  /-- TEMP_DIE (R505): SMBus read of the hottest die report. -/
  | tempDie (pec : Bool)
  /-- TEMP_COOL (R505): SMBus read of the coolant outlet temperature. -/
  | tempCool (pec : Bool) (reading : Option Int)
  /-- SLOT (R505): SMBus read of the sampled SLOT_ID. -/
  | smbSlot (pec : Bool)
  /-- FLASH_ADDR (R505): SMBus write of the flash byte address. -/
  | flashAddr (pec : Bool) (addr : BitVec 32)
  /-- FLASH_DATA_READ (R506): SMBus read of 32 flash bytes, advancing the address. -/
  | flashDataRead (pec : Bool)
  /-- FLASH_DATA_WRITE (R506): SMBus write of 32 flash bytes within the image area while in reset. -/
  | flashDataWrite (pec : Bool) (data : List Byte)
  /-- FLASH_ERASE (R506): SMBus erase of a 64 KiB sector within the image area while in reset. -/
  | flashErase (pec : Bool) (value : Byte)
  /-- FLASH_STAT (R505): SMBus read of the flash busy and failure bits. -/
  | flashStat (pec : Bool)
  /-- FLASH_OP_DONE (R506): A flash write or erase finishes and busy clears. -/
  | flashOpDone (fails : Bool)
  /-- PORT_AUTO_RETRAIN (R408): With AUTO_RETRAIN set, a Dorondlink port starts training again 1 ms after going DOWN. -/
  | portAutoRetrain (i : Fin 4)
  /-- BULK_TRAINING_LOST (R289): A bulk channel loses its training state, and the bulk tier is declared failed under R290. -/
  | bulkTrainingLost (ch : Fin 128)
  deriving DecidableEq, Repr

end Sys2Proof
end

