-- ==== Sys2Proof/Decode.lean ====
section
/-! DEFINITION. The command a word of the operation table spells. The table gives its rows no bits: commands are events of the
module, not words, so no word spells one. The 128-bit words the module's own sequencers read are decoded in Machine/SeqCode.lean. -/

namespace Sys2Proof

/-- The command spelled by the low `nbits` bits of `w` as the operation table numbers bits: none, as no row has bits. -/
def decodeTableWord (nbits w : Nat) : Option Instr :=
  match nbits, w with
  | _, _ => none

end Sys2Proof
end

