-- ==== Sys2Proof/Config.lean ====
section
/-! DEFINITION. What the spec leaves open, or takes from standards and secrets outside it: constants with no body, so that
nothing can be proved of their values. -/

namespace Sys2Proof.Config

/-- Free values, one for each index: what an undefined result holds (log entry 4). -/
opaque freeWord : Nat → Word

/-- Ed448 verification of RFC 8032 (R470): public key, the 64 bytes signed, signature (log entry 9). -/
opaque ed448Verify : List Byte → List Byte → List Byte → Bool

/-- The device key's signature over 64 bytes (R470, R471): helper data, bytes signed (log entry 9). -/
opaque deviceSign : List Byte → List Byte → List Byte

/-- The public device key that the PUF and the helper data give, none when extraction fails (R471, log entry 9). -/
opaque devicePub : List Byte → Option (List Byte)

/-- The keys and certificates of the chain area, none when it does not hold under the root key (R470, R472, log entry 9):
record key, firmware key. -/
opaque chainKeys : List Byte → Option (List Byte × List Byte)

/-- The certificates of the chain area: device, device CA, record key and firmware key together (R482, log entry 9). -/
opaque chainCerts : List Byte → List Byte × List Byte × List Byte

/-- The per-die trim of the core supply in mV, held to ±15 where it is used (R485, log entry 10). -/
opaque coreTrim : Int

/-- Whether MIN and MAX of +0 and −0 give the first source (log entry 13). -/
opaque zeroPick : Bool

/-- QROUND to a reserved format code (log entry 14). -/
opaque freeQround : Nat → Nat → Word

/-- Which of the FP32 values within the stated distance a lane function gives: function, input bits (R155, log entry 15). -/
opaque ulpPick : Nat → Nat → Nat

/-- A second-level scale whose power of two no FP32 number holds, by the magnitude it was to cover (R176, log entry 16). -/
opaque freeScale : Nat → Nat

/-- `SV_TBUDGET` of a partition in ticks: the spec names it and gives it no address and no value (R318, log entry 25). -/
opaque svTbudget : Nat → Nat

end Sys2Proof.Config
end

