-- ==== Sys2Proof/Machine/Bits.lean ====
section
/-! DEFINITION. Bit fields, byte order and the cyclic codes of the module, shared by every block. -/

namespace Sys2Proof.Machine

/-- The numeric value of a status code (R439). -/
def statusCode : Status → Nat
  | .ok => 0x00 | .superseded => 0x01 | .length => 0x02 | .access => 0x03 | .nopage => 0x04
  | .deadline => 0x05 | .late => 0x06 | .poison => 0x07 | .peerLost => 0x08 | .bound => 0x09
  | .saturated => 0x0A | .unsealed => 0x0B | .absent => 0x0C | .replayMismatch => 0x0D
  | .admission => 0x0E | .stop => 0x0F | .maxlen => 0x10 | .expired => 0x11 | .fault => 0x12

/-- The status a code stands for; an unrecognised code is a failure, read as FAULT (R439). -/
def statusOfCode (n : Nat) : Status :=
  match n with
  | 0x00 => .ok | 0x01 => .superseded | 0x02 => .length | 0x03 => .access | 0x04 => .nopage
  | 0x05 => .deadline | 0x06 => .late | 0x07 => .poison | 0x08 => .peerLost | 0x09 => .bound
  | 0x0A => .saturated | 0x0B => .unsealed | 0x0C => .absent | 0x0D => .replayMismatch
  | 0x0E => .admission | 0x0F => .stop | 0x10 => .maxlen | 0x11 => .expired | _ => .fault

/-- The `n` bits of `w` from bit `lo` up, as a number. -/
def bits (w : Word) (lo n : Nat) : Nat := w.toNat / 2 ^ lo % 2 ^ n

/-- Bit `i` of `w`. -/
def bit (w : Word) (i : Nat) : Bool := w.toNat / 2 ^ i % 2 == 1

/-- Bits of a natural number, for fields wider than a register. -/
def nbits (w lo n : Nat) : Nat := w / 2 ^ lo % 2 ^ n

/-- `w` with the `n` bits from `lo` up replaced by `v`. -/
def setBits (w : Word) (lo n v : Nat) : Word :=
  BitVec.ofNat 64 (w.toNat - bits w lo n * 2 ^ lo + v % 2 ^ n * 2 ^ lo)

/-- A word of the fields given as (value, lowest bit) pairs. -/
def pack (fs : List (Nat × Nat)) : Word :=
  BitVec.ofNat 64 (fs.foldl (fun a f => a + f.1 * 2 ^ f.2) 0)

/-- The word holding a number, modulo 2^64. -/
def word (n : Nat) : Word := BitVec.ofNat 64 n

/-- A number held at most to its field limit: counters that saturate. -/
def sat (limit n : Nat) : Nat := min n limit

/-- The limit of a 64-bit saturating counter. -/
def maxWord : Nat := 2 ^ 64 - 1

/-- 1 for true, 0 for false. -/
def b2n (b : Bool) : Nat := if b then 1 else 0

/-- The signed value of the low `n` bits of `v`. -/
def signed (n v : Nat) : Int :=
  let m := v % 2 ^ n
  if m < 2 ^ (n - 1) then (m : Int) else (m : Int) - (2 ^ n : Nat)

/-- The low `n` bits of the two's complement of `i`. -/
def unsigned (n : Nat) (i : Int) : Nat := (i % ((2 ^ n : Nat) : Int)).toNat

/-- `n` held between the bounds `lo` and `hi`. -/
def clampInt (lo hi n : Int) : Int := max lo (min hi n)

/-- `n` divided by `d`, rounded up. -/
def ceilDiv (n d : Nat) : Nat := (d - 1 + n) / d

/-- The little-endian value of a byte string (Bits, bytes and registers). -/
def leNat : List Byte → Nat
  | [] => 0
  | b :: bs => b.toNat + 256 * leNat bs

/-- The `n` little-endian bytes of `v`. -/
def toLe : Nat → Nat → List Byte
  | 0, _ => []
  | n + 1, v => BitVec.ofNat 8 (v % 256) :: toLe n (v / 256)

/-- The field of `n` bytes at offset `o` of a record. -/
def field (bs : List Byte) (o n : Nat) : Nat := leNat ((bs.drop o).take n)

/-- `n` zero bytes. -/
def zeros (n : Nat) : List Byte := List.replicate n 0

/-- The bit of a byte string, most significant bit of each byte first. -/
def bitsMsb (bs : List Byte) : List Bool :=
  bs.flatMap fun b => (List.range 8).map fun i => b.toNat / 2 ^ (7 - i) % 2 == 1

/-- CRC-64, ECMA-182: polynomial 0x42F0_E1EB_A9EA_3693, initial value zero, no reflection, no final
XOR (R389). -/
def crc64From (init : BitVec 64) (bs : List Byte) : BitVec 64 :=
  (bitsMsb bs).foldl (fun c d =>
    if (c.getLsbD 63) != d then (c <<< 1) ^^^ 0x42F0E1EBA9EA3693#64 else c <<< 1) init

/-- CRC-64 of a byte string (R389). -/
def crc64 (bs : List Byte) : BitVec 64 := crc64From 0 bs

/-- One bit of the reflected CRC-32C. -/
def crc32cBit (c : BitVec 32) : BitVec 32 :=
  if c.getLsbD 0 then (c >>> 1) ^^^ 0x82F63B78#32 else c >>> 1

/-- CRC-32C, reflected, initial value and final XOR all ones (R377). -/
def crc32c (bs : List Byte) : BitVec 32 :=
  let c := bs.foldl (fun c b =>
    (List.range 8).foldl (fun c _ => crc32cBit c) (c ^^^ b.zeroExtend 32)) 0xFFFFFFFF#32
  c ^^^ 0xFFFFFFFF#32

/-- Whether `n` is a multiple of `d`. -/
def aligned (n d : Nat) : Bool := n % d == 0

/-- The numbers below `n` whose bit is set in the mask. -/
def maskList (n mask : Nat) : List Nat := (List.range n).filter fun i => mask / 2 ^ i % 2 == 1

/-- The mask with the bits of a list set. -/
def maskOf (l : List Nat) : Nat := (l.eraseDups).foldl (fun a i => a + 2 ^ i) 0

/-- How many bits of the mask below `n` are set. -/
def popcount (n mask : Nat) : Nat := (maskList n mask).length

/-- The least `k` with `n ≤ 2^k`. -/
def clog2 (n : Nat) : Nat := if n ≤ 1 then 0 else Nat.log2 (n - 1) + 1

end Sys2Proof.Machine
end

