-- ==== Sys2Proof/Machine/Keccak.lean ====
section
/-! DEFINITION. SHAKE256 of FIPS 202, which signatures, key digests, image digests and prefix chains use (R470). -/

namespace Sys2Proof.Machine

/-- One lane of a Keccak state: lane `x + 5y`. -/
def kLane (a : List (BitVec 64)) (x y : Nat) : BitVec 64 := a.getD (x % 5 + 5 * (y % 5)) 0

/-- A state from its lanes. -/
def kMake (f : Nat → Nat → BitVec 64) : List (BitVec 64) :=
  (List.range 25).map fun i => f (i % 5) (i / 5)

/-- Rotation offsets, lane `x + 5y`: the lane met after `t` moves from (1, 0) to (y, 2x + 3y) turns by the `t + 1`st triangular number. -/
def kRot : List Nat :=
  ((List.range 24).foldl
    (fun (acc : List Nat × Nat × Nat) t =>
      (acc.1.set (acc.2.1 + 5 * acc.2.2) ((t + 1) * (t + 2) / 2 % 64), acc.2.2, (2 * acc.2.1 + 3 * acc.2.2) % 5))
    (List.replicate 25 0, 1, 0)).1

/-- The register of the round-constant generator after `n` clocks: x^8 + x^6 + x^5 + x^4 + 1. -/
def kLfsr (n : Nat) : Nat :=
  n.repeat (fun r => if 128 ≤ r then (2 * r).xor 0x171 else 2 * r) 1

/-- Round constants: bit 2^j - 1 of round `i` is what the generator puts out at clock 7i + j. -/
def kRc : List (BitVec 64) :=
  (List.range 24).map fun i =>
    BitVec.ofNat 64 (((List.range 7).map fun j => kLfsr (7 * i + j) % 2 * 2 ^ (2 ^ j - 1)).foldl (· + ·) 0)

/-- One round of Keccak-f[1600]. -/
def kRound (a : List (BitVec 64)) (rc : BitVec 64) : List (BitVec 64) :=
  let c := (List.range 5).map fun x =>
    kLane a x 0 ^^^ kLane a x 1 ^^^ kLane a x 2 ^^^ kLane a x 3 ^^^ kLane a x 4
  let d := (List.range 5).map fun x =>
    c.getD ((x + 4) % 5) 0 ^^^ (c.getD ((x + 1) % 5) 0).rotateLeft 1
  let t := kMake fun x y => kLane a x y ^^^ d.getD x 0
  -- lane (x, y) moves to (y, 2x + 3y): the lane now at (u, v) came from x = u + 3v, y = u
  let b := kMake fun u v =>
    let x := (u + 3 * v) % 5
    (kLane t x u).rotateLeft (kRot.getD (x + 5 * u) 0)
  let e := kMake fun x y => kLane b x y ^^^ (~~~(kLane b (x + 1) y) &&& kLane b (x + 2) y)
  match e with
  | l :: ls => (l ^^^ rc) :: ls
  | [] => []

/-- Keccak-f[1600]. -/
def kPerm (a : List (BitVec 64)) : List (BitVec 64) := kRc.foldl kRound a

/-- A block of 136 bytes XORed into a state. -/
def kAbsorb (a : List (BitVec 64)) (blk : List Byte) : List (BitVec 64) :=
  (List.range 25).map fun i =>
    a.getD i 0 ^^^ (if i < 17 then BitVec.ofNat 64 (field blk (8 * i) 8) else 0)

/-- The blocks of a message padded for SHAKE256. -/
def kBlocks (m : List Byte) : List (List Byte) :=
  let n := m.length / 136 + 1
  let pad := n * 136 - m.length
  let p := if pad = 1 then m ++ [0x9F] else m ++ (0x1F :: zeros (pad - 2)) ++ [0x80]
  (List.range n).map fun i => (p.drop (136 * i)).take 136

/-- The first `n` bytes of SHAKE256 of a byte string. -/
def shake256 (m : List Byte) (n : Nat) : List Byte :=
  let st := (kBlocks m).foldl (fun a b => kPerm (kAbsorb a b)) (List.replicate 25 0)
  let out := (List.range ((n + 135) / 136)).foldl
    (fun (p : List Byte × List (BitVec 64)) _ =>
      (p.1 ++ (p.2.take 17).flatMap (fun l => toLe 8 l.toNat), kPerm p.2)) ([], st)
  out.1.take n

/-- A key digest (R470). -/
def keyDigest (pub : List Byte) : List Byte := shake256 pub 32

/-- The signature in bytes 128–241 of a signed block of 256 bytes holds over its bytes 0–127 (R470). -/
def signedBlock (key blk : List Byte) : Bool :=
  Config.ed448Verify key (shake256 (blk.take 128) 64) ((blk.drop 128).take 114)

end Sys2Proof.Machine
end

