-- ==== Sys2Proof/Machine/Mem.lean ====
section
/-! DEFINITION. The byte memories of the module in one canonical list: device tiers, their check bytes, the working
stores, accumulators, local stores and the boot flash. Addresses rise strictly and no entry equals what an unlisted
address reads as. -/

namespace Sys2Proof.Machine

/-- The memories, each with its own range of keys. -/
inductive Space where
  /-- Stack tier: data byte of a channel. -/
  | stack
  /-- Stack tier: stored check byte XOR the check byte its data calls for. -/
  | stackChk
  /-- Bulk tier: data byte, at its raw offset: channel × 2^34 + byte of the channel. -/
  | bulk
  /-- Bulk tier: stored check byte, at its raw offset, XOR the one its data and its address call for. -/
  | bulkChk
  /-- Working store of a slice: slice × 2^24 + offset. -/
  | ws
  /-- Accumulator memory of a slice: slice × 2^21 + offset. -/
  | acc
  /-- Vector tile registers: slice × 2^17 + byte. -/
  | tile
  /-- Attention expansion store: slice × 2^19 + byte. -/
  | xstore
  /-- Boot flash. -/
  | flash
  deriving DecidableEq, Repr

/-- First key of a memory. -/
def Space.base : Space → Nat
  | .stack => 0 | .stackChk => 2 ^ 60 | .bulk => 2 * 2 ^ 60 | .bulkChk => 3 * 2 ^ 60
  | .ws => 4 * 2 ^ 60 | .acc => 5 * 2 ^ 60 | .tile => 6 * 2 ^ 60 | .xstore => 7 * 2 ^ 60
  | .flash => 8 * 2 ^ 60

/-- The key of byte `o` of a memory. -/
def Space.key (sp : Space) (o : Nat) : Nat := sp.base + o

/-- What an unlisted address reads as: erased flash reads all ones (PRESUMED, log entry 3), every other memory zero,
as boot leaves it (R476, R306; log entry 2). -/
def memDefault (k : Nat) : Byte := if 8 * 2 ^ 60 ≤ k then 0xFF else 0

namespace Mem

/-- The byte at a key. -/
def get (k : Nat) : List Host.Cell → Byte
  | [] => memDefault k
  | (j, v) :: l => if j = k then v else get k l

/-- The list with the byte at `k` set, kept in canonical form. -/
def put (k : Nat) (v : Byte) : List Host.Cell → List Host.Cell
  | [] => if v = memDefault k then [] else [(k, v)]
  | (j, w) :: l =>
    if k < j then (if v = memDefault k then (j, w) :: l else (k, v) :: (j, w) :: l)
    else if k = j then (if v = memDefault k then l else (k, v) :: l)
    else (j, w) :: put k v l

/-- The `n` bytes from `k` up. -/
def getN (k n : Nat) (m : List Host.Cell) : List Byte := (List.range n).map fun i => get (k + i) m

/-- The bytes of a list stored from `k` up. -/
def putN (k : Nat) : List Byte → List Host.Cell → List Host.Cell
  | [], m => m
  | b :: bs, m => putN (k + 1) bs (put k b m)

/-- Every byte of `[k, k + n)` at what an unlisted address reads as. -/
def clear (k n : Nat) (m : List Host.Cell) : List Host.Cell :=
  m.filter fun c => c.1 < k || k + n ≤ c.1

/-- The bytes of `[src, src + n)` copied to `[dst, dst + n)`; both ranges lie in memories with one default. -/
def copy (src dst n : Nat) (m : List Host.Cell) : List Host.Cell :=
  (m.filter fun c => src ≤ c.1 && c.1 < src + n).foldl
    (fun acc c => put (dst + (c.1 - src)) c.2 acc) (clear dst n m)

/-- The canonical form: rising addresses, no entry at its default. -/
def wf : List Host.Cell → Bool
  | [] => true
  | [c] => c.2 != memDefault c.1
  | c :: d :: l => c.2 != memDefault c.1 && decide (c.1 < d.1) && wf (d :: l)

end Mem

end Sys2Proof.Machine
end

