-- ==== Sys2Proof/Machine/Pages.lean ====
section
/-! DEFINITION. Where each register page stands (R426) and the offsets of the common layout (R428). -/

namespace Sys2Proof.Machine

namespace Pg
/-- Global identity page. -/
def gid : Nat := 0x0000_0000
/-- Cadence unit page. -/
def cad : Nat := 0x0001_0000
/-- Cadence slot window of partition `p` (not a page). -/
def slot (p : Nat) : Nat := 0x0001_8000 + 0x800 * p
/-- Page of Dorondlink port `i`. -/
def port (i : Nat) : Nat := 0x0002_0000 + 0x1000 * i
/-- Dorondlink domain page of domain `d`. -/
def dq (d : Nat) : Nat := 0x0002_4000 + 0x1000 * d
/-- Anise common page. -/
def anise : Nat := 0x0003_0000
/-- Mailbox page of domain `d`. -/
def mb (d : Nat) : Nat := 0x0003_1000 + 0x1000 * d
/-- First page of slice `k`. -/
def slice (k : Nat) : Nat := 0x0010_0000 + 0x0001_0000 * k
/-- Matrix array `a` of slice `k`. -/
def arr (k a : Nat) : Nat := slice k + 0x1000 * a
/-- Vector engine. -/
def vec (k : Nat) : Nat := slice k + 0x4000
/-- Attention engine. -/
def att (k : Nat) : Nat := slice k + 0x5000
/-- Quantisation unit. -/
def qnt (k : Nat) : Nat := slice k + 0x6000
/-- Working store (also the accumulator status window). -/
def ws (k : Nat) : Nat := slice k + 0x9000
/-- Sequencer. -/
def seq (k : Nat) : Nat := slice k + 0xA000
/-- Transfer engine `e`: 0–31 per slice (slice × 2 + 0 weight, + 1 cache/activation), 32–39 global. -/
def xe (e : Nat) : Nat :=
  if e < 32 then slice (e / 2) + 0x7000 + 0x1000 * (e % 2) else 0x0031_0000 + 0x1000 * (e - 32)
/-- Tolvy stack `t`. -/
def stk (t : Nat) : Nat := 0x0020_0000 + 0x0001_0000 * t
/-- Row-operation unit. -/
def row : Nat := 0x002E_0000
/-- Stack-tier common page. -/
def stkCommon : Nat := 0x002F_0000
/-- Bulk tier and placement. -/
def bulk : Nat := 0x0030_0000
/-- Serving unit and Pepper sampler. -/
def sv : Nat := 0x0040_0000
/-- Peer link `l`. -/
def lnk (l : Nat) : Nat := 0x0050_0000 + 0x1000 * l
/-- Fabric common page. -/
def fab : Nat := 0x005F_0000
/-- Integrity unit. -/
def ig : Nat := 0x0060_0000
/-- Security unit and region table. -/
def sec : Nat := 0x0070_0000
/-- Partition page. -/
def pt (p : Nat) : Nat := 0x0074_0000 + 0x1000 * p
/-- Domain page. -/
def dm (d : Nat) : Nat := 0x0075_0000 + 0x1000 * d
/-- Power and thermal. -/
def pwr : Nat := 0x0078_0000
end Pg

/-! Offsets of the common page layout (R428). -/
namespace Off
def blkId : Nat := 0x000
def blkCap : Nat := 0x008
def blkCtrl : Nat := 0x010
def blkStat : Nat := 0x018
def evtStat : Nat := 0x020
def evtMask : Nat := 0x028
def evtCntClr : Nat := 0x030
def evtCnt : Nat := 0x040
def owner : Nat := 0x0C0
def harden : Nat := 0x0C8
end Off

/-- What kind of page an address lies in, with its instance (R426). -/
inductive PageKind where
  | gid | cad | slotWin (p : Nat) | port (i : Nat) | dq (d : Nat) | anise | mb (d : Nat)
  | arr (k a : Nat) | vec (k : Nat) | att (k : Nat) | qnt (k : Nat) | xe (e : Nat) | ws (k : Nat)
  | seq (k : Nat) | stk (t : Nat) | row | stkCommon | bulk | sv | lnk (l : Nat) | fab | ig | sec
  | pt (p : Nat) | dm (d : Nat) | pwr | unmapped
  deriving DecidableEq, Repr

/-- The page an address of the map lies in; every other address of the map is an absent page (R426). -/
def pageOf (addr : Nat) : PageKind :=
  let pg := addr / 0x1000
  if addr < 0x1000 then .gid
  else if pg = 0x10 then .cad
  else if 0x18 ≤ pg ∧ pg < 0x20 then .slotWin ((addr - 0x18000) / 0x800)
  else if 0x20 ≤ pg ∧ pg < 0x24 then .port (pg - 0x20)
  else if 0x24 ≤ pg ∧ pg < 0x28 then .dq (pg - 0x24)
  else if pg = 0x30 then .anise
  else if 0x31 ≤ pg ∧ pg < 0x35 then .mb (pg - 0x31)
  else if 0x100 ≤ pg ∧ pg < 0x200 then
    let k := (pg - 0x100) / 16
    match pg % 16 with
    | 0 => .arr k 0 | 1 => .arr k 1 | 2 => .arr k 2 | 3 => .arr k 3
    | 4 => .vec k | 5 => .att k | 6 => .qnt k | 7 => .xe (2 * k) | 8 => .xe (2 * k + 1)
    | 9 => .ws k | 10 => .seq k | _ => .unmapped
  else if 0x200 ≤ pg ∧ pg < 0x2C0 then (if pg % 16 = 0 then .stk ((pg - 0x200) / 16) else .unmapped)
  else if pg = 0x2E0 then .row
  else if pg = 0x2F0 then .stkCommon
  else if pg = 0x300 then .bulk
  else if 0x310 ≤ pg ∧ pg < 0x318 then .xe (32 + (pg - 0x310))
  else if pg = 0x400 then .sv
  else if 0x500 ≤ pg ∧ pg < 0x560 then .lnk (pg - 0x500)
  else if pg = 0x5F0 then .fab
  else if pg = 0x600 then .ig
  else if pg = 0x700 then .sec
  else if 0x740 ≤ pg ∧ pg < 0x750 then .pt (pg - 0x740)
  else if 0x750 ≤ pg ∧ pg < 0x754 then .dm (pg - 0x750)
  else if pg = 0x780 then .pwr
  else .unmapped

/-- Block type and instance of a page, as `BLK_ID` reports them (R426). -/
def blockType : PageKind → Nat × Nat
  | .gid => (0x0001, 0) | .cad => (0x0002, 0) | .slotWin _ => (0, 0) | .port i => (0x0003, i)
  | .dq d => (0x0004, d) | .anise => (0x0005, 0) | .mb d => (0x0006, d)
  | .arr k a => (0x0010, 4 * k + a) | .vec k => (0x0011, k) | .att k => (0x0012, k)
  | .qnt k => (0x0013, k)
  | .xe e => if e < 32 then (if e % 2 = 0 then (0x0014, e / 2) else (0x0015, e / 2)) else (0x0024, e - 32)
  | .ws k => (0x0016, k) | .seq k => (0x0017, k) | .stk t => (0x0020, t) | .row => (0x0021, 0)
  | .stkCommon => (0x0022, 0) | .bulk => (0x0023, 0) | .sv => (0x0030, 0) | .lnk l => (0x0040, l)
  | .fab => (0x0041, 0) | .ig => (0x0050, 0) | .sec => (0x0060, 0) | .pt p => (0x0061, p)
  | .dm d => (0x0062, d) | .pwr => (0x0070, 0) | .unmapped => (0, 0)

/-- The register key of a register of a selected object: the address with the selected number above it. -/
def keyAt (addr i : Nat) : Nat := addr + 2 ^ 32 * i

/-- The value a register holds after reset. Registers for which the spec gives no reset value hold zero
(DESIGN CHOICE, log entry 1). -/
def resetVal (key : Nat) : Word :=
  let a := key % 2 ^ 32
  let o := a % 0x1000
  match pageOf a with
  | .cad => if o = 0x108 then pack [(1, 4), (2000, 16), (8, 32)] else 0
  | .slotWin p =>
    let o := a - Pg.slot p
    if o = 0x008 then word 8000000
    else if o = 0x010 then pack [(4000, 0), (4000, 16), (2, 32), (5, 40)]
    else if o = 0x018 then pack [(1, 32)]
    else 0
  | .qnt _ => if o = 0x110 then 9 else if o = 0x150 then pack [(16, 0), (0x3F800000, 32)] else 0
  | .xe _ => if o = 0x130 then pack [(63, 17)] else 0
  | .stkCommon =>
    if o = 0x118 then pack [(4, 0), (24, 8)] else if o = 0x120 then pack [(15, 4)] else 0
  | .bulk =>
    if o = 0x128 then word 24 else if o = 0x130 then pack [(1000, 0), (64, 16), (16, 32)] else 0
  | .sv =>
    if 0x180 ≤ o ∧ o < 0x1C0 then
      pack [(1, 0), (1, 8), (1, 16), (1, 24), (1, 32), (1, 40), (1, 48), (1, 56)]
    else 0
  | .dm d => if o = 0x110 then word 20000 else if o = 0x100 ∧ d = 0 then 1 else 0
  | .lnk _ => if o = 0x100 then pack [(1, 1), (50, 16), (1000, 32)] else 0
  | .fab => if o = 0x100 then pack [(1, 0), (1, 3), (1, 6), (1, 10)] else 0
  | .port i => if o = 0x100 then pack [(1, 1), (if i = 0 then 1 else 0, 6), (50, 16)] else 0
  | .dq _ => if o = 0x108 then pack [(4, 1)] else 0
  | .ig => if o = 0x108 then pack [(100, 0), (8, 16), (4, 20), (1, 24)] else
      if 0x400 ≤ o ∧ o < 0x800 ∧ o % 0x40 = 0 then pack [(3, 3)] else 0
  | .pwr => if o = 0x100 then pack [(16, 8)] else if o = 0x108 then word 1500
      else if o = 0x110 then word 95 else 0
  | _ => 0

end Sys2Proof.Machine
end

