-- ==== Sys2Proof/Machine/Tab.lean ====
section
/-! DEFINITION. Sparse tables and the module's byte memories, both as plain lists in rising key order. -/

namespace Sys2Proof.Machine

/-- A sparse table: the entries that have been written, by rising number. -/
structure Tab (α : Type) where
  items : List (Nat × α) := []
  deriving DecidableEq, Repr

/-- The entry of `k` in a list of entries, or `d`. -/
def lookupD {α : Type} (d : α) (k : Nat) : List (Nat × α) → α
  | [] => d
  | (j, v) :: l => if j = k then v else lookupD d k l

/-- The list with `k` holding `v`, in rising order of keys. -/
def insertKey {α : Type} (k : Nat) (v : α) : List (Nat × α) → List (Nat × α)
  | [] => [(k, v)]
  | (j, w) :: l =>
    if k < j then (k, v) :: (j, w) :: l
    else if k = j then (k, v) :: l
    else (j, w) :: insertKey k v l

/-- The entry numbered `k`; an entry never written reads `d`. -/
def Tab.get {α : Type} (t : Tab α) (d : α) (k : Nat) : α := lookupD d k t.items

/-- The table with entry `k` set. -/
def Tab.put {α : Type} (t : Tab α) (k : Nat) (v : α) : Tab α := ⟨insertKey k v t.items⟩

/-- The table without entry `k`. -/
def Tab.drop {α : Type} (t : Tab α) (k : Nat) : Tab α := ⟨t.items.filter fun e => e.1 != k⟩

/-- The table without the entries whose number `p` picks. -/
def Tab.dropAll {α : Type} (t : Tab α) (p : Nat → Bool) : Tab α := ⟨t.items.filter fun e => !p e.1⟩

/-- Every entry of the table changed alike. -/
def Tab.mapVals {α β : Type} (t : Tab α) (f : α → β) : Tab β := ⟨t.items.map fun e => (e.1, f e.2)⟩

/-- The numbers of the entries `p` picks. -/
def Tab.keysWhere {α : Type} (t : Tab α) (p : Nat → α → Bool) : List Nat :=
  (t.items.filter fun e => p e.1 e.2).map fun e => e.1

end Sys2Proof.Machine
end

