-- ==== Sys2Proof/Machine/State.lean ====
section
/-! DEFINITION. The state of one Uluan module: every register, table, queue, buffer, counter and mode the spec
names, as plain data, with the queue of waiting commands; the reasons a step can stop; the state at reset. -/

namespace Sys2Proof.Machine

/-- The module stops with a fault. No meaning of this model raises one: the spec ends every command it describes in a
status, an event or a state of the module, never in a stop of the whole machine. Safe. -/
inductive Fault where
  /-- Raised by no command: kept so that the type is a closed list with a name. Safe. -/
  | unreachable
  deriving DecidableEq, Repr

/-- The command has no meaning. -/
inductive Refusal where
  /-- Answered by an arm of `exec` whose command is not modelled yet. Safe: nothing is claimed of it. -/
  | notModelled (mnemonic : String)
  /-- Answered by `exec` arms for an operand list that no sender of the spec can form (a frame that is not of its
  fixed length). Safe: nothing is claimed of it. -/
  | illFormed (why : String)
  deriving DecidableEq, Repr

/-! ### Registers -/

/-- The three stored copies of a register (R11, R434). A register without hardening is written and voted alike. -/
structure HReg where
  a : Word
  b : Word
  c : Word
  deriving DecidableEq, Repr

/-! ### Module identity, boot and supply (ch. 18, 20, 22) -/

/-- What the verified configuration record and the booted image say of the module (R473, R474). -/
structure Ident where
  recVersion : Nat := 0
  serial : Nat := 0
  lot : Nat := 0
  wafer : Nat := 0
  dieX : Nat := 0
  dieY : Nat := 0
  tolvys : Nat := 0
  links : Nat := 0
  bulk : Bool := false
  minSvn : Nat := 0
  minMace : Nat := 0
  devkeyDig : List Byte := []
  record : List Byte := []
  recCopy : Nat := 0
  fwMajor : Nat := 0
  fwMinor : Nat := 0
  svn : Nat := 0
  bodyDig : List Byte := []
  slotB : Bool := false
  fallback : Bool := false
  pending : Bool := false
  keyOk : Bool := false
  bootWcount : Nat := 0
  deriving DecidableEq, Repr

/-- How far the module has come since power was applied (R466, R476, R477, R501). -/
inductive BootPhase where
  | unpowered | held | rom | cores | powered | stkTrained | stkReady | bulkTrained | maceDone
  | bulkZeroed | ready | romFault | fwFault
  deriving DecidableEq, Repr

/-- Supply, reset and boot state (R466–R468, R501–R506). -/
structure BootState where
  phase : BootPhase := .held
  fault : Status := .ok
  cause : Nat := 0
  wcount : Nat := 0
  bootUs : Nat := 0
  pwrGood : Bool := true
  resetLow : Bool := false
  faultN : Bool := false
  slotId : Nat := 0
  armed : Bool := false
  beat : Nat := 0
  beatClk : Nat := 0
  cores : Nat := 0
  haltedCores : Nat := 0
  flashAddr : Nat := 0
  flashBusy : Bool := false
  flashFail : Bool := false
  /-- A fatal condition has stopped memory traffic (R35). -/
  memStop : Bool := false
  /-- Bytes a busy flash operation is to leave: (address, bytes). -/
  flashOp : Option (Nat × List Byte) := none
  deriving DecidableEq, Repr

/-- The power, clock and die-temperature loops (ch. 21). -/
structure PowerState where
  step : Nat := 16
  target : Nat := 16
  pstep : Nat := 16
  tstep : Nat := 16
  plevel : Nat := 0
  override : Bool := false
  emergUntil : Option Nat := none
  samples : List Nat := []
  vin : Option Nat := none
  headroom : Nat := 0
  evalIx : Nat := 0
  energyUj : Nat := 0
  /-- Last report of each die sensor, signed 1/16 °C. -/
  temps : Tab Int := {}
  missed : Tab Nat := {}
  crit : Bool := false
  coolant : Option Int := none
  /-- The power cap, and the critical temperature, hold their limit below `FLOOR` (R489). -/
  pOver : Bool := false
  tOver : Bool := false
  boundClk : Tab Nat := {}
  deriving DecidableEq, Repr

/-! ### Cluster time and cadence (ch. 2) -/

/-- Time states (R43). -/
inductive TimeMode where
  | free | acquire | locked | holdover | unlocked
  deriving DecidableEq, Repr

/-- Cluster time and its discipline (R40–R46, R512, R513). -/
structure TimeState where
  ct : Nat := 0
  running : Bool := false
  mode : TimeMode := .free
  everLocked : Bool := false
  /-- A beacon has been accepted since ACQUIRE was entered. -/
  gotFirst : Bool := false
  /-- Consecutive counting beacons within ±16 ticks. -/
  run : Nat := 0
  missed : Nat := 0
  /-- Tick of the last accepted beacon, or of the write that set the role. -/
  beaconClk : Nat := 0
  offset : Int := 0
  /-- Ticks still to remove by slewing: positive when CT is ahead. -/
  slew : Int := 0
  holdClk : Nat := 0
  hops : Nat := 0
  upstream : Nat := 127
  deriving DecidableEq, Repr

/-- A step mark (R48). -/
structure Mark where
  step : Nat
  group : Nat
  elastic : Bool
  held : Bool
  halt : Bool
  markCt : Nat
  span : Nat
  leader : Nat
  deriving DecidableEq, Repr

/-- States of a cadence slot (`PS_STEP.STATE`). -/
inductive SlotMode where
  | disabled | waiting | running | idle | halted
  deriving DecidableEq, Repr

/-- One cadence slot beside its configuration registers (R47–R66). -/
structure Slot where
  mode : SlotMode := .disabled
  /-- A step is in progress; a HALTED slot may still have one (R55). -/
  busy : Bool := false
  step : Nat := 0
  /-- Accepted marks not yet started, oldest first, each with whether it has taken effect. -/
  marks : List (Mark × Bool) := []
  /-- The mark of the current or last step. -/
  cur : Option Mark := none
  /-- STEP of the last accepted mark since enable. -/
  prevStep : Option Nat := none
  lastMark : Option Mark := none
  startCt : Nat := 0
  /-- Bank active when the current step started. -/
  stepBank : Bool := false
  bank : Bool := false
  swap : Bool := false
  cursor : Nat := 0
  /-- PHASE of the last entry fired in this step, and the CT at which the cursor last fired one (R58). -/
  lastPhase : Nat := 0
  firedCt : Option Nat := none
  /-- Slices whose full start queue holds the cursor (R60), with the instruction index and argument. -/
  held : Option (List Nat × Nat × Nat) := none
  haltCause : Nat := 0
  lastDur : Nat := 0
  lastLate : Nat := 0
  maxOver : Nat := 0
  maxLate : Nat := 0
  planHead : Nat := 0
  planLast : Option Nat := none
  planFirst : Option Nat := none
  planEmptyAt : Option Nat := none
  planHeld : Bool := false
  /-- Lowest-first: last completed step of each member SLOT_ID, as the leader knows it. -/
  done : Tab Nat := {}
  /-- Members whose ready report has arrived (R54). -/
  ready : List Nat := []
  tAll : Nat := 0
  sentMark : Option Mark := none
  idleOpen : Bool := false
  stepLimited : Bool := false
  markTimedOut : Bool := false
  /-- ENABLE was cleared while a step runs: the slot goes to DISABLED when it ends. -/
  closing : Bool := false
  deriving DecidableEq, Repr

/-! ### Records and outward traffic (ch. 17, 19) -/

/-- An event record waiting for, or copied to, a domain's event ring (R417). -/
structure EventRec where
  kind : Nat := 0
  bit : Nat := 0
  count : Nat := 0
  page : Nat := 0
  ct : Nat := 0
  arg : Nat := 0
  logix : Nat := 0xFFFFFFFF
  status : Nat := 0
  part : Option Nat := none
  deriving DecidableEq, Repr

/-- An error record (R463). -/
structure ErrRec where
  type : Nat := 0
  cls : Nat := 0
  inst : Nat := 0
  sev : Nat := 0
  part : Option Nat := none
  status : Nat := 0
  ct : Nat := 0
  temp : Nat := 0
  supply : Nat := 0
  opc : Nat := 0
  addr : Nat := 0
  syn : Nat := 0
  aux : Nat := 0
  step : Nat := 0
  req : Nat := 0xFFFF
  deriving DecidableEq, Repr

/-- One record of the on-module log with the domains it is addressed to and its index in each one's count. -/
structure LogEntry where
  err : ErrRec
  dests : List (Nat × Nat)
  deriving DecidableEq, Repr

/-- What the module sends outward, in order: the record of the traffic its commands cause. -/
inductive Out where
  /-- A control frame on a link: CTYPE, destination, FLOOD, body of 24 bytes without its CRC (R389). -/
  | ctrl (link ctype dst : Nat) (flood : Bool) (body : List Byte)
  /-- A fabric message on a link: header fields and data (ch. 16). -/
  | msg (link : Nat) (dst src kind group tag arg : Nat) (data : List Byte)
  /-- A Dorondlink response on a port: tag, status, data. -/
  | rsp (port tag : Nat) (status : Status) (data : List Byte)
  /-- A write into a domain's node memory: domain, address, bytes. -/
  | nodeWr (dom addr : Nat) (data : List Byte)
  /-- A read of a domain's node memory asked for: domain, tag, address, length. -/
  | nodeRd (dom tag addr len : Nat)
  /-- A flit sent again on a link (R378). -/
  | flit (link : Nat) (bytes : List Byte)
  /-- A Dorondlink frame sent again on a port (R409). -/
  | frame (port : Nat) (bytes : List Byte)
  /-- A Dorondlink link message (PING, PONG, IDENT) on a port: kind and body. -/
  | portMsg (port kind : Nat) (body : List Byte)
  /-- A request for replay on a link or port (NAK). -/
  | nak (port : Bool) (num : Nat) (seq : Nat)
  /-- An SMBus answer: acknowledged or not, with its bytes. -/
  | smb (ack : Bool) (data : List Byte)
  deriving DecidableEq, Repr

/-! ### Partitions and domains (ch. 15) -/

/-- Partition states (R362). -/
inductive PartMode where
  | free | config | active | quiescing | quiesced | releasing
  deriving DecidableEq, Repr

/-- One partition beside its registers (R362–R372). -/
structure Part where
  mode : PartMode := .free
  cause : Nat := 0
  changeCt : Nat := 0
  /-- Migration units still to scrub (`PT_SCRUB`), of this partition's former regions. -/
  scrub : List Nat := []
  /-- Slices written to `PT_SLICES` that join at the next step start (R365). -/
  joining : Nat := 0
  /-- First units of the regions added to the partition while it was ACTIVE, not usable before its next stage 0 (R367). -/
  fresh : List Nat := []
  /-- Tick of the QUIESCE write, and of the end of the partition's work (R371). -/
  qClk : Nat := 0
  workClk : Option Nat := none
  /-- The cadence slot was enabled when the quiesce began, and the partition's work has been stopped (R370). -/
  slotOn : Bool := false
  stopped : Bool := false
  /-- r of the present batch (R448), and whether the next step replays it. -/
  run : Nat := 0
  replay : Bool := false
  deriving DecidableEq, Repr

/-- The wedged mark of a domain (R373); attachment is `DM_CFG.EN`. -/
structure Dom where
  wedged : Bool := false
  deriving DecidableEq, Repr

/-! ### Sequencers and stream buffer regions (ch. 3) -/

/-- A stream buffer region (R81–R83). Tile counts run from the enable. -/
structure Region where
  en : Bool := false
  producer : Nat := 0
  base : Nat := 0
  tiles : Nat := 0
  /-- Tiles made visible since enable. -/
  filled : Nat := 0
  /-- Tiles released since enable. -/
  released : Nat := 0
  /-- Tiles whose credit a transfer has taken since enable. -/
  taken : Nat := 0
  /-- Ticks of the enable and of the last releases, newest first, at most nine (R232). -/
  relClks : List Nat := []
  /-- Tags of walk tiles not yet consumed: sequence, page-list entry, tile (R236). -/
  tags : List (Nat × Nat × Nat) := []
  deriving DecidableEq, Repr

/-- Where an entry of an engine queue stands. -/
inductive OpPhase where
  /-- Not started. -/
  | queued
  /-- A scoped wait at the head whose counter has not passed (R88). -/
  | waiting
  /-- An MMA or DATTN waiting for a weight fill (R107), with the tick the wait began. -/
  | starved (since : Nat)
  /-- An operation waiting to open or load a tile an earlier DRAIN has not read (R115). -/
  | openWait
  /-- A DRAIN waiting for a slot of the drain buffer (R124). -/
  | bufferWait
  /-- A DRAIN in the drain buffer behind a held one (R188). -/
  | buffered
  /-- A DRAIN held by a quantisation trap (R188), with the tick it began. -/
  | trapped (since : Nat)
  /-- Started; its effect is made, its completion is still to come, with the status it will end with. -/
  | running (st : Status)
  deriving DecidableEq, Repr

/-- How far an MMA has come through its reduction (R107, R108). -/
structure MmaRun where
  /-- Next k. -/
  k : Nat := 0
  /-- First weight tile and first scale tile of the operation, as tiles since the regions' enable. -/
  wBase : Nat := 0
  sBase : Nat := 0
  /-- Narrow partials of the open chunk, row after row: FP32 patterns (exact, R126), or INT32 patterns. -/
  partials : List Nat := []
  /-- The present fill wait has been reported (R125). -/
  long : Bool := false
  /-- Stream buffer regions it reads (R109). -/
  regs : List Nat := []
  deriving DecidableEq, Repr

/-- The scale data a drain reads from outside its profile with its first row: the history value and `INIT_SCALE` of its slot, and σ
and z of the entries of its channel table (R180, R182, R184, R186, R188). -/
structure QSrc where
  hist : Option Nat := none
  init : Nat := 0
  table : List (Nat × Nat) := []
  deriving DecidableEq, Repr

/-- A drain as it stood when its first row was read: rows, status flags, profile words and cursor (R167, R180). -/
structure DrainRun where
  rows : List (List Nat) := []
  src : QSrc := {}
  sat : Bool := false
  nan : Bool := false
  bound : Bool := false
  int : Bool := false
  attn : Bool := false
  prof : List Word := []
  profIx : Nat := 0
  cursor : Nat := 0
  dst : Nat := 0
  deriving DecidableEq, Repr

/-- How far an attention operation has come through the pages it walks (R197, R208, R235, R236). -/
structure WalkRun where
  /-- The descriptor, the configuration record and the pattern registers, read once when the operation started (R197). -/
  desc : List Byte := []
  cfg : List Byte := []
  pats : List Word := []
  /-- The sequence in process, its entry once its checks have passed, and its global positions. -/
  ix : Nat := 0
  ent : Option (List Byte) := none
  globs : List Nat := []
  /-- Pages of the sequence still to be read, the first being read: of the anchor list, and the entry. -/
  todo : List (Bool × Nat) := []
  /-- Address of the frame being read, and its bytes so far. -/
  addr : Option Nat := none
  buf : List Byte := []
  /-- Pages read: of the anchor list, entry, bytes. -/
  pages : List (Bool × Nat × List Byte) := []
  deriving DecidableEq, Repr

/-- One entry of an engine queue (R84–R89, R96). -/
structure QEntry where
  /-- The instruction, its primary address with the index register added (R85). -/
  op : Nat
  phase : OpPhase := .queued
  /-- Number of the operation in its queue since reset. -/
  ordinal : Nat := 0
  /-- CRC-64 of the output the operation wrote, for paired slices (R453). -/
  crc : Option Nat := none
  mma : Option MmaRun := none
  drain : Option DrainRun := none
  /-- A DRAIN has read its tile, so the tile may be opened again (R115). -/
  tileRead : Bool := false
  /-- Summary register and value written when the operation completes (R90). -/
  sum : Option (Nat × Nat) := none
  /-- Slot of the cache/activation engine that an attention operation holds in WALK (R235). -/
  walk : Option Nat := none
  /-- The walk of an operation that reads pages (R235). -/
  pages : Option WalkRun := none
  deriving DecidableEq, Repr

/-- What holds a sequencer (R88, R94, R96, R84 FENCE). -/
inductive SeqWait where
  | counter (ctr value : Nat) (take : Bool)
  | fence (mask : Nat)
  /-- A full queue, with the tick the hold began (R96). -/
  | queueFull (q since : Nat)
  /-- A START into a full start queue: slice, index, argument, tick the hold began, START_STALL raised. -/
  | startFull (slice idx arg since : Nat) (stalled : Bool)
  deriving DecidableEq, Repr

/-- Sequencer states (`SEQ_STAT.STATE`). -/
inductive SeqMode where
  | idle | running | waiting | faulted | aborting | loading
  deriving DecidableEq, Repr

/-- A program-memory load requested by `SEQ_PM_CTRL.GO` (R92). -/
structure PmLoad where
  addr : Nat
  first : Nat
  count : Nat
  started : Bool := false
  fromFault : Bool := false
  deriving DecidableEq, Repr

/-- One sequencer (R84–R101). -/
structure Seq where
  mode : SeqMode := .idle
  pc : Nat := 0
  fault : Nat := 0
  hold : Bool := false
  wait : Option SeqWait := none
  starts : List (Nat × Nat) := []
  /-- Program memory: 128-bit instructions. -/
  pm : Tab Nat := {}
  /-- Program-memory words with an uncorrectable error (R91). -/
  pmErr : List Nat := []
  load : Option PmLoad := none
  ix : Tab Nat := {}
  sum : Tab Nat := {}
  queues : Tab (List QEntry) := {}
  /-- Halted queues in the order they halted, with their status (R97). -/
  halts : List (Nat × Status) := []
  /-- Operations received by each queue since reset, or since the slice was last paired. -/
  issued : Tab Nat := {}
  /-- Programs started, and instructions issued of the present one, by which a twin follows its primary (R453). -/
  progs : Nat := 0
  steps : Nat := 0
  /-- CRC-64 of the outputs of the operation being run (R453). -/
  outAcc : Option Nat := none
  /-- Outputs completed whose counterpart's are still to come: queue, ordinal, CRC-64 (R453). -/
  outs : List (Nat × Nat × Nat) := []
  deriving DecidableEq, Repr

/-! ### Arrays, vector, quantisation and attention engines (ch. 4–8) -/

/-- The status word of an accumulator tile (R134), with whether a promotion or a load has counted as its first chunk. -/
structure TileStat where
  chunks : Nat := 0
  first : Bool := false
  sat : Bool := false
  nan : Bool := false
  bound : Bool := false
  int : Bool := false
  attn : Bool := false
  isOpen : Bool := false
  owner : Nat := 0
  /-- Statistics tile of a DATTN, the one tile whose rows the statistics check reads (R121, R446). -/
  stats : Bool := false
  deriving DecidableEq, Repr

/-- The format state of an array queue (R113). -/
structure ArrFmt where
  afmt : Nat := 0
  wfmt : Nat := 0
  sk : Nat := 0
  sreg : Nat := 0
  deriving DecidableEq, Repr

/-- A delayed-scaling slot (R184): FP32 patterns, newest first. -/
structure QSlot where
  hist : List Nat := []
  cur : Nat := 0
  folded : Bool := false
  /-- HIST_EMPTY has been raised since the history was last empty. -/
  warned : Bool := false
  deriving DecidableEq, Repr

/-! ### Peer links and liveness (ch. 16) -/

/-- Link states (R381). -/
inductive LinkMode where
  | off | training | up | down | miswired | failed
  deriving DecidableEq, Repr

/-- A message queued on a link and not begun (R379, R388). -/
structure QMsg where
  /-- 0 REQ, 1 RSP, 2 COLL. -/
  vc : Nat
  /-- Sub-lane: 0 A, 1 B (R384). -/
  sub : Nat := 0
  /-- In transit through this module. -/
  fwd : Bool := false
  relay : Bool := false
  /-- Partition whose link share it counts against (R368, R388). -/
  part : Option Nat := none
  /-- Flit slots the link had used when it was queued. -/
  since : Nat := 0
  bytes : List Byte := []
  deriving DecidableEq, Repr

/-- One peer link (R377–R388). -/
structure Link where
  mode : LinkMode := .off
  cause : Nat := 0
  trainClk : Nat := 0
  downClk : Nat := 0
  peerValid : Bool := false
  peerSlot : Nat := 0
  peerLink : Nat := 0
  peerEpoch : Nat := 0
  delay : Nat := 0
  /-- Smallest round trip of this training, with the exchanges made. -/
  rtt : Option Nat := none
  pings : Nat := 0
  /-- CT at which the PING now out was sent. -/
  pingCt : Nat := 0
  /-- SEQ of the next flit to send, and of the next expected. -/
  txSeq : Nat := 0
  rxSeq : Nat := 0
  /-- Flits sent and not acknowledged, oldest first, with how often each was replayed. -/
  replay : List (Nat × List Byte × Nat) := []
  naked : Bool := false
  goodClk : Nat := 0
  /-- Credits held: REQ A, REQ B, RSP A, RSP B, COLL A, COLL B. -/
  credits : List Nat := [64, 64, 64, 64, 128, 128]
  /-- Messages queued and not begun, oldest first. -/
  queue : List QMsg := []
  /-- Flits freed since the last return, by the order of `credits`. -/
  freed : List Nat := [0, 0, 0, 0, 0, 0]
  /-- Payload bytes of a message partly received, by channel. -/
  partials : Tab (List Byte) := {}
  /-- Flit slots used for messages so far, the deficit of each partition in 1/256 slot, and the CTRL flits sent (R388, R389). -/
  slots : Nat := 0
  deficit : Tab Int := {}
  ctrlFlits : Nat := 0
  /-- Control frames that failed their CRC here (R48; the spec names no register for it, log entry 6). -/
  frameErrs : Nat := 0
  /-- Corrected symbols in the present millisecond, and its number. -/
  fecSyms : Nat := 0
  fecMs : Nat := 0
  deriving DecidableEq, Repr

/-- A MARK or DONE frame sent and not yet acknowledged on its link (R390). -/
structure Unacked where
  link : Nat
  ctype : Nat
  dst : Nat
  flood : Bool
  group : Nat
  step : Nat
  origin : Nat
  body : List Byte
  sentClk : Nat
  resends : Nat := 0
  /-- Links of the bundle already tried. -/
  tried : List Nat := []
  deriving DecidableEq, Repr

/-- What is known of a peer module (R391). -/
structure Peer where
  live : Bool := false
  lost : Bool := false
  epoch : Option Nat := none
  lastClk : Nat := 0
  seq : Option Nat := none
  deriving DecidableEq, Repr

/-- What an outstanding message of this module serves. -/
inductive ReqUse where
  /-- A transfer: engine, slot, generation, block, offset. -/
  | xfer (e slot gen blk off : Nat)
  /-- A contribution or signal of an entry of a collective queue, to a rank: phase, offset, how often it was asked for again. -/
  | coll (q ent rank phase off tries : Nat)
  /-- A relayed request: port, TAG, whether an RSP is owed. -/
  | relay (port tag : Nat) (answer : Bool)
  /-- A record on its way to a domain by its relay module: nothing waits on it. -/
  | record (dom : Nat)
  /-- A read of node memory made here for another module (R423): that module, its TAG and `GROUP`. -/
  | carry (src tag group : Nat)
  deriving DecidableEq, Repr

/-- A message of this module that awaits its response (R392, R393). -/
structure Req where
  tag : Nat
  dst : Nat
  kind : Nat
  group : Nat
  arg : Nat
  data : List Byte
  len : Nat
  part : Nat := 0
  sentClk : Nat
  resent : Bool := false
  use : ReqUse
  deriving DecidableEq, Repr

/-- Relayed transactions of one origin and domain (R394): the next sequence number, and those held out of order, each the message
as it arrived. -/
structure RelayIn where
  next : Nat := 0
  held : List (Nat × List Byte) := []
  deriving DecidableEq, Repr

/-- A rank group as committed (R395). -/
structure RankGroup where
  en : Bool := false
  part : Nat := 0
  members : List Nat := []
  digest : Nat := 0
  rank : Nat := 0
  /-- Next number of a collective entry of the group (R398). -/
  seq : Nat := 0
  /-- Next number of SEND, RECV and RSIGNAL: OP × 64 + peer rank. -/
  ptp : Tab Nat := {}
  deriving DecidableEq, Repr

/-- A READY frame held: group, point-to-point, rank, number, OP, LEN, digest (R398). -/
structure ReadyRec where
  group : Nat
  ptp : Bool
  rank : Nat
  seq : Nat
  op : Nat
  len : Nat
  digest : Nat
  deriving DecidableEq, Repr

/-- A collective entry under way (R396–R402). -/
structure CollEnt where
  /-- Number of the entry among those its queue has started, and its index in the list. -/
  ix : Nat
  idx : Nat := 0
  ent : List Byte
  part : Nat := 0
  rg : Nat := 0
  op : Nat := 0
  seq : Nat := 0
  /-- Ranks whose READY for the matching entry has arrived. -/
  ready : List Nat := []
  /-- Pieces handed over: (phase, rank). -/
  sent : List (Nat × Nat) := []
  /-- Contributions of this entry still unanswered. -/
  unanswered : Nat := 0
  /-- Bytes arrived: (phase, rank) with total length and the offsets counted with their lengths. -/
  got : List ((Nat × Nat) × Nat × List (Nat × Nat)) := []
  /-- Failed contributions by (phase, rank). -/
  bad : List (Nat × Nat) := []
  combined : Bool := false
  /-- Ended, with its status; an ended entry waits for the signals of those before it. -/
  fin : Option Status := none
  deriving DecidableEq, Repr

/-- States of a collective queue (`CQ_STAT.STATE`). -/
inductive CqMode where
  | idle | running | waitStep | halted
  deriving DecidableEq, Repr

/-- A collective queue (R396, R402). -/
structure CollQ where
  mode : CqMode := .idle
  ents : List (List Byte) := []
  depth : Nat := 1
  again : Bool := false
  next : Nat := 0
  started : Nat := 0
  inflight : List CollEnt := []
  failEnt : Nat := 0xFFF
  status : Nat := 0
  deriving DecidableEq, Repr

/-- Fabric state beside links, groups and queues. -/
structure Fabric where
  groups : Tab RankGroup := {}
  colls : Tab CollQ := {}
  readys : List ReadyRec := []
  reqs : List Req := []
  nextTag : Nat := 0
  /-- Messages answered: (source, TAG, status), newest first, 512 of each source (R393). -/
  answered : List (Nat × Nat × Nat) := []
  /-- Next relay sequence number: target × 8 + `GROUP` (R422). -/
  relayOut : Tab Nat := {}
  /-- Relayed transactions by origin × 8 + `GROUP`. -/
  relayIn : Tab RelayIn := {}
  /-- Relayed requests that found 256 of their port outstanding, oldest first: (port, transaction bytes). -/
  relayWait : List (Nat × List Byte) := []
  epoch : Nat := 0
  liveSeq : Nat := 0
  peers : Tab Peer := {}
  unacked : List Unacked := []
  /-- MARK and DONE frames accepted: CTYPE, group, step, origin, and bytes 0–23 of the frame. -/
  seen : List (Nat × Nat × Nat × Nat × List Byte) := []
  degraded : Bool := false
  deriving DecidableEq, Repr

/-! ### Dorondlink ports (ch. 17) -/

/-- Port states (`DLK_STAT.STATE`). -/
inductive PortMode where
  | off | training | up | down | failed
  deriving DecidableEq, Repr

/-- A transaction waiting for credits on a port (R409, R410). -/
structure PMsg where
  /-- 0 REQ, 1 RSP. -/
  vc : Nat
  bytes : List Byte
  what : Out
  deriving DecidableEq, Repr

/-- One Dorondlink port (R406–R410). -/
structure Port where
  mode : PortMode := .off
  cause : Nat := 0
  delay : Nat := 0
  nodeId : Nat := 0
  identOk : Bool := false
  trainClk : Nat := 0
  downClk : Nat := 0
  pingClk : Nat := 0
  /-- One-way delays measured, newest first, at most 16 (R407). -/
  delays : List Nat := []
  txSeq : Nat := 0
  rxSeq : Nat := 0
  /-- Frames sent and not acknowledged: SEQ, virtual channel, payload, replays. -/
  replay : List (Nat × Nat × List Byte × Nat) := []
  /-- Transactions sent and not wholly acknowledged, with the SEQ of their last frame. -/
  sent : List (Nat × PMsg) := []
  naked : Bool := false
  goodClk : Nat := 0
  reqCred : Nat := 0
  rspCred : Nat := 0
  /-- Credits to return to the node. -/
  reqFreed : Nat := 0
  rspFreed : Nat := 0
  /-- Transactions waiting for credits, oldest first. -/
  queue : List PMsg := []
  /-- Bytes of the node's REQ and RSP streams not yet making a whole transaction. -/
  reqIn : List Byte := []
  rspIn : List Byte := []
  deriving DecidableEq, Repr

/-- A MEM_RD sent to a domain's node and not yet answered. -/
structure NodeReq where
  tag : Nat
  port : Nat
  sentClk : Nat
  use : ReqUse
  deriving DecidableEq, Repr

/-! ### Memory tiers, row operations and placement (ch. 10–12) -/

/-- States of a stack or of the bulk tier (`STK_STAT.STATE`, `BLK_TSTAT.STATE`). -/
inductive TierMode where
  | off | training | ready | failed
  deriving DecidableEq, Repr

/-- Spare lanes of a channel (R265). -/
structure Spares where
  count : Nat := 0
  a : Nat := 63
  b : Nat := 63
  deriving DecidableEq, Repr

/-- One Tolvy stack (R253–R266). -/
structure Stack where
  mode : TierMode := .off
  level : Nat := 0
  hot : Bool := false
  temp : Int := 0
  failChan : Nat := 0
  failCause : Nat := 0
  missed : Nat := 0
  spares : Tab Spares := {}
  /-- Ticks of the reads of a channel in which a lane had symbol errors: channel × 32 + lane. -/
  laneErrs : Tab (List Nat) := {}
  /-- Consecutive uncorrectable reads of a channel. -/
  ueRun : Tab Nat := {}
  /-- Tick of a channel's last parity alert. -/
  alertClk : Tab Nat := {}
  /-- Refreshes a bank owes (negative: held in advance): channel × 32 + bank. -/
  debt : Tab Int := {}
  /-- Tick at which a bank's next refresh interval passes. -/
  dueClk : Tab Nat := {}
  /-- Next sector of each channel's scrub. -/
  scrub : Tab Nat := {}
  /-- Queue occupancy of each channel. -/
  rdq : Tab Nat := {}
  wrq : Tab Nat := {}
  deriving DecidableEq, Repr

/-- The stale window of a bank (R275): first row, and one bit for each of its 64 rows. -/
structure StaleWin where
  base : Nat := 0
  bits : Nat := 0
  deriving DecidableEq, Repr

/-- A spreading window as committed (R243–R245). -/
structure Window where
  en : Bool := false
  single : Bool := false
  gran : Nat := 0
  hash : Bool := false
  stack : Nat := 0
  cbase : Nat := 0
  b : Nat := 0
  z : Nat := 0
  deriving DecidableEq, Repr

/-- Phases of a row-operation slot (`ROWQ_STAT.STATE`). -/
inductive RowMode where
  | idle | running | stopping
  deriving DecidableEq, Repr

/-- One row operation dispatched to a channel and not yet complete, with the entry it belongs to. -/
structure RowOp where
  ent : Nat
  row : Nat
  chan : Nat
  bytes : List Byte
  deriving DecidableEq, Repr

/-- A row-operation sequence slot (R276, R277). -/
structure RowSlot where
  mode : RowMode := .idle
  cause : Nat := 0
  status : Nat := 0
  doneEnts : Nat := 0
  failEnt : Nat := 0xFFFFFF
  list : Nat := 0
  count : Nat := 0
  part : Nat := 0
  sig : Option Nat := none
  /-- Entry and row to dispatch next. -/
  ent : Nat := 0
  row : Nat := 0
  /-- The checked entry whose rows are being dispatched; none where the next entry has not been read. -/
  entry : List Byte := []
  /-- Operations dispatched whose completion is still to come. -/
  inflight : List RowOp := []
  /-- The failure that ends the sequence once its dispatched operations complete. -/
  failing : Option (Status × Nat) := none
  deriving DecidableEq, Repr

/-- A placement table entry where it differs from reset (R291, R292). -/
structure Placed where
  bulk : Bool
  frame : Nat
  pin : Nat := 0
  poison : Bool := false
  count : Nat := 0
  deriving DecidableEq, Repr

/-- A swap of a bulk unit with a stack unit: pieces moved so far (R295). -/
structure Swap where
  hot : Nat
  cold : Nat
  cursor : Nat := 0
  /-- A queued swap of a pin, which runs ahead of the loop's own (R297). -/
  pinned : Bool := false
  deriving DecidableEq, Repr

/-- A page copy between the stack pool and the bulk pool (R298, R299): partition, request and page-list index, whether it returns
a page, page numbers from and to, the stalled request that has first claim on the page it frees (R324), and whether it has
completed, or was abandoned. -/
structure PageCopy where
  part : Nat
  req : Nat
  index : Nat
  back : Bool
  src : Nat
  dst : Nat
  claim : Option Nat := none
  finished : Bool := false
  bad : Bool := false
  deriving DecidableEq, Repr

/-- The bulk tier and placement beside their registers. -/
structure Bulk where
  mode : TierMode := .off
  failChan : Nat := 0
  failCause : Nat := 0
  /-- Refresh rate code MR4 of each package last asked for (R289). -/
  rates : Tab Nat := {}
  missed : Tab Nat := {}
  ueRun : Tab Nat := {}
  scrub : Nat := 0
  table : Tab Placed := {}
  swaps : List Swap := []
  /-- Bounds still in force for a partition whose written bounds wait for a step boundary (R294, R488). -/
  oldBound : Tab Word := {}
  copies : List PageCopy := []
  deriving DecidableEq, Repr

/-! ### Transfer engines (ch. 9) -/

/-- States of a queue slot (`XQ_STAT.STATE`). -/
inductive XMode where
  | idle | active | walk | stopping
  deriving DecidableEq, Repr

/-- A transfer outstanding, or completed and waiting for the tiles or blocks before it. -/
structure Xfer where
  /-- Generation and block it belongs to. -/
  gen : Nat
  blk : Nat
  /-- The block's entry, as read and checked. -/
  ent : List Byte := []
  /-- Offset in the block's packed bytes, and length. -/
  off : Nat
  len : Nat
  /-- Region tile reserved: its sequence number in each masked slice. -/
  tiles : List (Nat × Nat) := []
  /-- Deadline as a tick, for a DEADLINE transfer into a region (R232). -/
  due : Option Nat := none
  /-- The spreading windows at its issue, under which it completes (R245). -/
  maps : Tab Window := {}
  /-- Bytes of a remote source received so far. -/
  buf : List Byte := []
  /-- Its request is with another module or the node, and its response completes it. -/
  remote : Bool := false
  fin : Bool := false
  deriving DecidableEq, Repr

/-- A generation under way (R219, R227, R231). -/
structure Gen where
  gen : Nat
  part : Nat
  desc : List Byte
  /-- First entries of the block list, read ahead (R231). -/
  pre : List Byte := []
  /-- Block to issue next, its entry once checked, bytes of it issued. -/
  blk : Nat := 0
  ent : Option (List Byte) := none
  off : Nat := 0
  /-- The chained descriptor has been read, whatever came of it. -/
  chained : Bool := false
  /-- First region tile of each block begun: block, (slice, sequence number) (R230). -/
  starts : List (Nat × List (Nat × Nat)) := []
  /-- Blocks, tiles and bytes completed. -/
  blocks : Nat := 0
  tiles : Nat := 0
  bytes : Nat := 0
  /-- Superseded or stopped: only blocks below this one still run. -/
  limit : Option Nat := none
  /-- Armed by chaining (R231). -/
  isChain : Bool := false
  /-- Failing status and block. -/
  fail : Option (Status × Nat) := none
  deriving DecidableEq, Repr

/-- A queue slot of a transfer engine (R219–R240). -/
structure XSlot where
  mode : XMode := .idle
  gen : Nat := 0
  /-- Generations under way, oldest first: the current one, then one that chains or supersedes. -/
  gens : List Gen := []
  /-- A chained descriptor read and held, with the entries of its list read ahead (R231). -/
  held : Option (List Byte × List Byte) := none
  /-- Region of a walk. -/
  kreg : Nat := 0
  xfers : List Xfer := []
  last : Word := 0
  /-- First target region of the last generation that ended: slice and region (`XQ_POS`). -/
  lastTarget : Option (Nat × Nat) := none
  /-- Its partition has been released: it goes to its reset values once its begun blocks have completed (R240). -/
  released : Bool := false
  deriving DecidableEq, Repr

/-! ### Serving unit and Pepper sampler (ch. 13, 14) -/

/-- States of a request-table entry (R307). -/
inductive ReqMode where
  | free | queued | prefill | decode | stalled | parked | retained | done | failed
  deriving DecidableEq, Repr

/-- A request-table entry (R307), with what the serving unit keeps of it beside. -/
structure ReqEntry where
  mode : ReqMode := .free
  recomp : Bool := false
  lateSeen : Bool := false
  emitted : Bool := false
  status : Nat := 0
  incarn : Nat := 0
  /-- 0 none, 1 SPILL, 2 NOPAGE. -/
  stall : Nat := 0
  huskPend : Bool := false
  len : Nat := 0
  ntok : Nat := 0
  priv : Nat := 0
  lastCt : Nat := 0
  expiry : Nat := 0
  hoff : Nat := 0
  /-- Bytes 48–127, as the command gave them. -/
  params : List Byte := []
  /-- Page-list entries in use, as written at `PLIST`. -/
  pages : List Nat := []
  /-- Place among the submissions (R320). -/
  order : Nat := 0
  /-- A CANCEL waits for stage 9 (R311). -/
  cancel : Bool := false
  /-- Husk slot held, and whether a RESTORE job is still to run (R335, R336). -/
  husk : Option Nat := none
  restore : Bool := false
  /-- Count table: token ids with their counts, in the order they came (R344). -/
  counts : List (Nat × Nat) := []
  /-- LOOKUP drafts proposed in the last stage 9 (R349). -/
  lookup : List Nat := []
  deriving DecidableEq, Repr

/-- A sequence entry of a batch: a decode entry or a prompt chunk (R316, R320). -/
structure BItem where
  req : Nat
  chunk : Bool
  /-- First position of its rows, and how many they are. -/
  first : Nat
  n : Nat
  drafts : List Nat := []
  /-- Its last rows are sampled: all of a decode entry, the last of a chunk that reaches its target. -/
  sample : Bool := false
  /-- The 64 bytes of its sampler block, as stage 0 read them. -/
  samp : List Byte := []
  /-- It ends FAILED in stage 9 with this status (R346). -/
  bad : Option Status := none
  deriving DecidableEq, Repr

/-- A husk or restore job of a batch (R316, R335, R336): kind 1 HUSK, 2 RESTORE. -/
structure HuskJob where
  req : Nat
  kind : Nat
  hpos : Nat := 0
  addr : Nat
  seqIx : Nat := 0
  status : Nat := 0xFF
  deriving DecidableEq, Repr

/-- A formed batch (R316): its entries and jobs, T̂, and the batch area as written. -/
structure StepBatch where
  step : Nat := 0
  items : List BItem := []
  jobs : List HuskJob := []
  that : Int := 0
  area : List (Nat × List Byte) := []
  deriving DecidableEq, Repr

/-- An entry of the prefix table: hash, page, tokens, when it was last hit (R332, R333). -/
structure PfxEnt where
  hash : List Byte
  page : Nat
  toks : List Nat
  hit : Nat
  deriving DecidableEq, Repr

/-- A prefix handle: its pages and chain value (R331). -/
structure PfxHandle where
  pages : List Nat
  chain : List Byte
  deriving DecidableEq, Repr

/-- The serving state of a partition (R314–R336). -/
structure SvPart where
  /-- Holder counts of stack-pool and bulk-pool pages (R322). -/
  held : Tab Nat := {}
  heldBulk : Tab Nat := {}
  table : List PfxEnt := []
  hits : Nat := 0
  handles : Tab PfxHandle := {}
  /-- Husk slots given out. -/
  husks : List Nat := []
  deficit : Tab Nat := {}
  ptr : Nat := 0
  corr : Int := 0
  /-- `SV_STMB` as it stood before a write that excludes CORR (R488). -/
  oldStmb : Option Word := none
  /-- Stage 0 is due; stage 9 is due; the next entry of a stage 9 under way. -/
  stage0 : Bool := false
  stage9 : Bool := false
  commit : Option Nat := none
  batch : Option StepBatch := none
  /-- Jobs of the last committed batch, still to be applied, with the CT of that commit (R335). -/
  jobsDone : List HuskJob := []
  jobCt : Nat := 0
  /-- Token records in the output buffer, and those stage 9 still holds (R419). -/
  buf : List (List Byte) := []
  owed : List (List Byte) := []
  tprod : Nat := 0
  /-- `PEP_PCFG`, `PEP_RES` and `PEP_DTAB` as taken at the last stage 0. -/
  pepCfg : Word := 0
  pepRes : Word := 0
  pepDtab : Word := 0
  deriving DecidableEq, Repr

/-- The sampler's result for a sequence-table entry (R354). -/
structure PepRes where
  toks : List Nat := []
  j : Nat := 0
  d : Nat := 0
  status : Nat := 0
  logp : Nat := 0
  deriving DecidableEq, Repr

/-- The sampler's state for a partition's step (R339–R342). -/
structure PepPart where
  /-- Columns received of each sample row, and the sum of their panels. -/
  count : Tab Nat := {}
  sum : Tab Nat := {}
  faulty : List Nat := []
  /-- Best candidates of each row and unit, best first: (FP32 pattern, id); row × 16 + slice. -/
  cands : Tab (List (Nat × Nat)) := {}
  merged : Bool := false
  results : List PepRes := []
  deriving DecidableEq, Repr

/-! ### Integrity (ch. 19) -/

/-- An open column-sum set of a check entry (R447): rows M, tiles still to come, exact row sums, rows that met a NaN. -/
structure CsSet where
  m : Nat
  left : Nat
  sums : List Int
  nans : List Bool
  deriving DecidableEq, Repr

/-- Integrity state of a partition (R448–R452). -/
structure IgPart where
  /-- Suspects of the present run. -/
  suspects : Nat := 0
  /-- Digest values of the present run, of the run before it, and as `IG_RUN` shows the last (R451). -/
  dig : Tab Nat := {}
  prev : Option (Tab Nat) := none
  last : Tab Nat := {}
  /-- Digest values that differed in the last verdict. -/
  differ : List Nat := []
  /-- Operations of each engine so far in the step: slice index × 8 + engine. -/
  ords : Tab Nat := {}
  withheld : Nat := 0
  /-- Quantisation slots at the start of run 0: slice index × 16 + slot (R448). -/
  snap : Tab QSlot := {}
  /-- Their configurations then. -/
  snapCfg : Tab Word := {}
  /-- Raises of each per-partition bit by this partition, as its own view counts them (R464). -/
  raises : Tab Nat := {}
  deriving DecidableEq, Repr

/-- Screening state of a slice (R454, R455, R458). -/
structure Screen where
  cursor : Nat := 0
  /-- Test under way, and the tick by which it ends. -/
  testing : Option (Nat × Nat) := none
  /-- Classification passes still to run over the tests of the classes (bit mask). -/
  passes : Nat := 0
  classes : Nat := 0
  failed : Bool := false
  /-- Ticks of transient results within the last 24 h. -/
  transients : List Nat := []
  /-- CT of the last complete pass. -/
  lastPass : Nat := 0
  /-- Version of the content it runs. -/
  version : Nat := 0
  deriving DecidableEq, Repr

/-- A stream slot that a damaged piece failed: engine, slot, partition, descriptor, failing block (R460). -/
structure FailedSlot where
  e : Nat
  q : Nat
  part : Nat
  desc : List Byte
  blk : Nat
  deriving DecidableEq, Repr

/-- A damaged piece of a region under repair, in order of detection (R460, R461): device address of the 2 KiB piece, tick, region,
whether WAITING has been told, the slots to re-arm. -/
structure Repair where
  addr : Nat
  clk : Nat
  region : Nat
  waiting : Bool := false
  slots : List FailedSlot := []
  deriving DecidableEq, Repr

/-- The Mace content in force (R459): its version and the first 32 bytes of SHAKE256 over it. -/
structure MaceState where
  version : Nat := 0
  digest : List Byte := []
  deriving DecidableEq, Repr

/-- The background digests (R462): next unit of each region, CT of the last clean digest of a unit (region × 2^21 + unit), and the
units that differed once and are repaired and hashed again. -/
structure DigestState where
  next : Tab Nat := {}
  clean : Tab Nat := {}
  recheck : List (Nat × Nat) := []
  deriving DecidableEq, Repr

/-- States of a mailbox (`MB_STAT.STATE`). -/
inductive MbMode where
  | idle | busy | done
  deriving DecidableEq, Repr

/-- A mailbox beside its registers (R441–R443): the command under way or last done, and what it will end with. -/
structure Mbox where
  mode : MbMode := .idle
  opcode : Nat := 0
  tag : Nat := 0
  status : Status := .ok
  count : Nat := 0
  arg : Nat := 0
  goClk : Nat := 0
  /-- Buffer bytes the command writes: address and bytes. -/
  out : Option (Nat × List Byte) := none
  /-- The domain was detached while the command ran (R443). -/
  closing : Bool := false
  deriving DecidableEq, Repr

/-! ### The whole state -/

/-- The state of the module. -/
structure State where
  /-- Ticks of 250 ps since the release of reset. -/
  clk : Nat := 0
  /-- Registers by key (address, or address with the selected number above it); unlisted ones hold their reset value. -/
  regs : Tab HReg := {}
  /-- Staged words by domain and key (R438). -/
  staged : Tab Word := {}
  /-- Device memory, working stores, accumulators and local stores: bytes by memory key. -/
  mem : List Host.Cell := []
  /-- Last occurrence of each periodic event, by timer number. -/
  timers : Tab Nat := {}
  ident : Ident := {}
  boot : BootState := {}
  power : PowerState := {}
  time : TimeState := {}
  slots : Tab Slot := {}
  /-- Schedule control and argument words: bank × 16,384 + entry. -/
  schedLo : Tab Word := {}
  schedHi : Tab Word := {}
  /-- Sync counters (R67). -/
  ctrs : Tab Nat := {}
  parts : Tab Part := {}
  doms : Tab Dom := {}
  seqs : Tab Seq := {}
  /-- Stream buffer regions: slice × 16 + region. -/
  regions : Tab Region := {}
  /-- Absolute tick until which an explicit idle window holds on a slice (R65). -/
  idleUntil : Tab Nat := {}
  /-- Undelivered event records of each domain, oldest first (R418). -/
  evq : Tab (List EventRec) := {}
  /-- Event records lost and not yet reported by a LOST record. -/
  evLost : Tab Nat := {}
  log : List LogEntry := []
  logNext : Tab Nat := {}
  /-- Everything sent outward, oldest first (the model's own record). -/
  out : List Out := []
  tolvys : Tab Stack := {}
  /-- Stale windows: fitted channel number × 32 + bank. -/
  stale : Tab StaleWin := {}
  windows : Tab Window := {}
  /-- WF, which boot firmware enables (R246). -/
  wfOn : Bool := false
  /-- Row-operation slots: domain × 4 + slot. -/
  rowSlots : Tab RowSlot := {}
  bulk : Bulk := {}
  repairs : List Repair := []
  igs : Tab IgPart := {}
  /-- Open column-sum sets: slice × 32 + entry. -/
  csSets : Tab (Option CsSet) := {}
  screens : Tab Screen := {}
  mace : MaceState := {}
  digests : DigestState := {}
  mboxes : Tab Mbox := {}
  /-- Slices retired (R456), and slices suspect (R454), as absolute masks. -/
  retired : Nat := 0
  suspect : Nat := 0
  /-- Accumulator tile status: slice × 512 + tile. -/
  tiles : Tab TileStat := {}
  /-- Format state of each array: slice × 4 + array. -/
  arrFmt : Tab ArrFmt := {}
  /-- Type tags of the tile registers, true for INT32: slice × 32 + register (R151). -/
  tileTag : Tab Bool := {}
  /-- Function and status of the last failed operation of each queue: slice × 16 + queue. -/
  engFail : Tab (Nat × Nat) := {}
  /-- Clove program store: slice × 2,048 + index. -/
  clove : Tab Nat := {}
  /-- Blend chain cursors: (slice × 16 + chain) × 4 + array. -/
  chainCur : Tab Nat := {}
  /-- Profile cursors: (slice × 32 + profile) × 4 + array. -/
  profCur : Tab Nat := {}
  /-- Delayed-scaling slots: slice × 16 + slot. -/
  qslots : Tab QSlot := {}
  /-- Cache-stream configuration slots: slice × 8 + slot. -/
  attCfg : Tab (List Byte) := {}
  /-- Last sequence with a sequence-level fault, by slice (`ATT_STAT.SEQ`). -/
  attSeq : Tab Nat := {}
  /-- Queue slots of the transfer engines: engine × 64 + slot. -/
  xslots : Tab XSlot := {}
  links : Tab Link := {}
  ports : Tab Port := {}
  /-- MEM_RDs of this module that await the node's RSP, and their next TAG. -/
  nodeReqs : List NodeReq := []
  nodeTag : Nat := 0
  fabric : Fabric := {}
  /-- Request table, by entry (R307). -/
  reqs : Tab ReqEntry := {}
  /-- Submissions so far, and commands applied since reset, by domain. -/
  submitted : Nat := 0
  commands : Tab Nat := {}
  svs : Tab SvPart := {}
  peps : Tab PepPart := {}
  /-- Logit map cursors (R339): slice × 4 + array. -/
  pepCur : Tab Nat := {}
  /-- Tick of the last read of a page frame by an attention walk: device address ÷ 2,048 (R298). -/
  pageSeen : Tab Nat := {}
  /-- Sequence-level faults of the step: slice, request index, status (R215). -/
  seqBad : List (Nat × Nat × Status) := []
  /-- Status the last register write, access or command completed with (the model's own field). -/
  done : Status := .ok
  /-- Value the last register read returned (the model's own field). -/
  rdata : Word := 0
  /-- Index of the next free value (the model's own field). -/
  free : Nat := 0
  /-- Commands waiting, oldest first. -/
  pending : List Instr := []
  deriving DecidableEq, Repr

/-- The module right after a full reset: registers at their reset values, nothing brought up, queue empty. -/
def State.reset : State := {}

end Sys2Proof.Machine
end

