-- ==== Sys2Proof/Machine/Ops.lean ====
section
/-! DEFINITION. The operations every block shares: registers and their three copies, ownership, time, memory by key,
free values, the raising of events and the writing of records. -/

namespace Sys2Proof.Machine

/-! ### Registers -/

/-- The majority of three copies; with none, copy 0 (R11, R436). -/
def vote (h : HReg) : Word := if h.a = h.b ∨ h.a = h.c then h.a else if h.b = h.c then h.b else h.a

/-- The three copies of a register. -/
def State.hreg (s : State) (k : Nat) : HReg :=
  s.regs.get ⟨resetVal k, resetVal k, resetVal k⟩ k

/-- The value of a register. -/
def State.reg (s : State) (k : Nat) : Word := vote (s.hreg k)

/-- All three copies of a register written (R435). -/
def State.setReg (s : State) (k : Nat) (v : Word) : State := { s with regs := s.regs.put k ⟨v, v, v⟩ }

/-- The `n` bits of a register from bit `lo`. -/
def State.fld (s : State) (k lo n : Nat) : Nat := bits (s.reg k) lo n

/-- A field of a register set. -/
def State.setFld (s : State) (k lo n v : Nat) : State := s.setReg k (setBits (s.reg k) lo n v)

/-- A counter register raised by `n`, saturating at 2^64 − 1. -/
def State.bump (s : State) (k n : Nat) : State :=
  if n = 0 then s else s.setReg k (word (sat maxWord ((s.reg k).toNat + n)))

/-- The register back at its reset value. -/
def State.clearReg (s : State) (k : Nat) : State := { s with regs := s.regs.drop k }

/-- Every register whose key `p` picks back at its reset value. -/
def State.clearRegs (s : State) (p : Nat → Bool) : State := { s with regs := s.regs.dropAll p }

/-- The word a domain has staged for a register; with nothing staged, the committed value (R438). -/
def State.stagedOf (s : State) (dom k : Nat) : Word := s.staged.get (s.reg k) (2 ^ 56 * dom + k)

/-- A word staged by a domain (R438). -/
def State.stage (s : State) (dom k : Nat) (v : Word) : State :=
  { s with staged := s.staged.put (2 ^ 56 * dom + k) v }

/-- The command or access ends with a status. -/
def State.ends (s : State) (st : Status) : State := { s with done := st }

/-- Something is sent outward. -/
def State.emit (s : State) (o : Out) : State := { s with out := s.out ++ [o] }

/-! ### Free values -/

/-- The next free value: nothing constrains it. -/
def State.freeVal (s : State) : Word := Config.freeWord s.free

/-- The free value has been used. -/
def State.useFree (s : State) : State := { s with free := s.free + 1 }

/-! ### Memory -/

/-- The `n` bytes of a memory from offset `o`. -/
def State.rdMem (s : State) (sp : Space) (o n : Nat) : List Byte := Mem.getN (sp.key o) n s.mem

/-- Bytes stored in a memory from offset `o`. -/
def State.wrMem (s : State) (sp : Space) (o : Nat) (bs : List Byte) : State :=
  { s with mem := Mem.putN (sp.key o) bs s.mem }

/-- Bytes of a memory back at their default. -/
def State.clrMem (s : State) (sp : Space) (o n : Nat) : State :=
  { s with mem := Mem.clear (sp.key o) n s.mem }

/-! ### Time -/

/-- CT as a 64-bit count. -/
def State.ct (s : State) : Nat := s.time.ct

/-- Where `n` ticks take CT: one per tick, but one increment in every 256 skipped or doubled while an offset is slewed
out (R40, R44). -/
def slewAdvance (clk n : Nat) (t : TimeState) : TimeState :=
  if !t.running then t else
  let slots := (clk + n) / 256 - clk / 256
  let k := min slots t.slew.natAbs
  if 0 ≤ t.slew then { t with ct := t.ct + n - k, slew := t.slew - k }
  else { t with ct := t.ct + n + k, slew := t.slew + k }

/-- `n` ticks of 250 ps pass. -/
def State.advance (s : State) (n : Nat) : State :=
  { s with clk := s.clk + n, time := slewAdvance s.clk n s.time }

/-- Time passes up to a tick, unless it has come already. -/
def State.waitClk (s : State) (due : Nat) : State := s.advance (due - s.clk)

/-- One round of waiting for CT to reach a value: no further than the increments slewing doubles allow. An increment that would pass
the value is not the doubled one (R40; DESIGN CHOICE, log entry 55). -/
def State.stepCt (s : State) (c : Nat) : State :=
  let left := c - s.time.ct
  if left = 0 ∨ !s.time.running then s
  else if 0 ≤ s.time.slew then s.advance left
  else if left = 1 then { s with clk := s.clk + 1, time := { s.time with ct := c } }
  else s.advance (max 1 ((left - 1) * 256 / 257))

/-- Time passes until CT has reached a value, and no further. -/
def State.waitCt (s : State) (c : Nat) : State := (List.range 14).foldl (fun s _ => s.stepCt c) s

/-- A periodic event with timer `i`: time passes until its period has run since the last one. -/
def State.periodic (s : State) (i period : Nat) : State :=
  let s := s.waitClk (s.timers.get 0 i + period)
  { s with timers := s.timers.put i s.clk }

/-- Ticks in one microsecond. -/
def usTicks : Nat := 4000

/-! ### Modes of the module -/

/-- READY (R476). -/
def State.isReady (s : State) : Bool := s.boot.phase == .ready

/-- Engines run only in READY (R477). -/
def State.enginesRun (s : State) : Bool := s.isReady

/-- `GID_STATE.STATE`: 0 BOOT, 1 TRAIN, 2 READY, 3 FAULT. -/
def State.gidState (s : State) : Nat :=
  match s.boot.phase with
  | .unpowered | .held | .rom | .cores => 0
  | .powered | .stkTrained | .stkReady | .bulkTrained | .maceDone | .bulkZeroed => 1
  | .ready => 2
  | .romFault | .fwFault => 3

/-! ### Units and ownership -/

/-- A stack is fitted (R1, R3). -/
def State.stackFitted (s : State) (t : Nat) : Bool := nbits s.ident.tolvys t 1 == 1

/-- How many stacks are fitted. -/
def State.nStacks (s : State) : Nat := popcount 12 s.ident.tolvys

/-- A link is fitted: always LNK00 upwards (R440). -/
def State.linkFitted (s : State) (l : Nat) : Bool := decide (l < s.ident.links)

/-- Stack-tier extent in migration units of 2 MiB (80 GiB a stack). -/
def State.stackUnits (s : State) : Nat := 40960 * s.nStacks

/-- Bulk-tier extent in migration units: 1,792 GiB where it is fitted. -/
def State.bulkUnits (s : State) : Nat := if s.ident.bulk then 917504 else 0

/-- Migration units of the unified range (R440). -/
def State.units (s : State) : Nat := s.stackUnits + s.bulkUnits

/-- The page belongs to a unit that is fitted; an absent unit's page reads zero (R1, R5). -/
def State.pageFitted (s : State) : PageKind → Bool
  | .stk t => s.stackFitted t
  | .lnk l => s.linkFitted l
  | .bulk => s.ident.bulk
  | .unmapped => false
  | _ => true

/-- A partition's state. -/
def State.part (s : State) (p : Nat) : Part := s.parts.get {} p

/-- A partition's state changed. -/
def State.modPart (s : State) (p : Nat) (f : Part → Part) : State :=
  { s with parts := s.parts.put p (f (s.part p)) }

/-- The domain that owns a partition (R362). -/
def State.ownerOf (s : State) (p : Nat) : Nat := s.fld (Pg.pt p + Off.owner) 0 2

/-- The absolute slice mask of a partition, without slices still to join (R365). -/
def State.sliceMask (s : State) (p : Nat) : Nat :=
  let m := s.fld (Pg.pt p + 0x110) 0 16
  m - (m &&& (s.part p).joining)

/-- The slices of a partition, ascending (R75). -/
def State.slicesOf (s : State) (p : Nat) : List Nat := maskList 16 (s.sliceMask p)

/-- Integrity mode of a partition: 0 STANDARD, 1 VERIFIED, 2 PAIRED (R444). -/
def State.igMode (s : State) (p : Nat) : Nat := s.fld (Pg.ig + 0x400 + 0x40 * p) 0 2

/-- The twin slices of a partition, ascending (R445). -/
def State.twinsOf (s : State) (p : Nat) : List Nat :=
  maskList 16 (s.fld (Pg.ig + 0x408 + 0x40 * p) 0 16)

/-- The partition that holds a slice, as primary or twin: a FREE or CONFIG partition holds none yet. -/
def State.partOfSlice (s : State) (k : Nat) : Option Nat :=
  (List.range 16).find? fun p =>
    (s.part p).mode != .free && (s.part p).mode != .config
      && ((s.slicesOf p).contains k || (s.twinsOf p).contains k)

/-- The slices the present run of a partition is placed on: the twins in a VERIFIED run of odd r (R448). -/
def State.runSlices (s : State) (p : Nat) : List Nat :=
  if s.igMode p = 1 ∧ (s.part p).run % 2 = 1 then s.twinsOf p else s.slicesOf p

/-- The absolute slice of a partition-relative index (R75, R448). -/
def State.absSlice (s : State) (p i : Nat) : Option Nat := (s.runSlices p)[i]?

/-- The slices a slice's own addresses resolve to: a twin's to the twin set. -/
def State.peersOf (s : State) (p k : Nat) : List Nat :=
  if (s.twinsOf p).contains k then s.twinsOf p else s.slicesOf p

/-- Partition-relative index of a slice among those its addresses resolve to. -/
def State.relSlice (s : State) (p k : Nat) : Nat := (s.peersOf p k).idxOf k

/-- The twin of a primary slice of a PAIRED partition. -/
def State.pairedTwin (s : State) (k : Nat) : Option Nat :=
  match s.partOfSlice k with
  | some p => if s.igMode p = 2 ∧ (s.slicesOf p).contains k then (s.twinsOf p)[(s.slicesOf p).idxOf k]? else none
  | none => none

/-- The primary of a twin slice of a PAIRED partition. -/
def State.pairedPrimary (s : State) (k : Nat) : Option Nat :=
  match s.partOfSlice k with
  | some p => if s.igMode p = 2 ∧ (s.twinsOf p).contains k then (s.slicesOf p)[(s.twinsOf p).idxOf k]? else none
  | none => none

/-- The partition a page belongs to, where it belongs to one. -/
def State.pagePart (s : State) : PageKind → Option Nat
  | .arr k _ | .vec k | .att k | .qnt k | .ws k | .seq k => s.partOfSlice k
  | .xe e => if e < 32 then s.partOfSlice (e / 2) else none
  | .slotWin p => some p
  | .pt p => some p
  | _ => none

/-- The domain that gets a page's event records: its owner, on module-wide pages the steward (R433); a mailbox page and a domain page serve
one domain, which gets theirs (DEDUCED, log entry 104). -/
def State.pageOwner (s : State) (page : Nat) : Nat :=
  match pageOf page with
  | .dm d => d
  | .mb d => d
  | k => match s.pagePart k with
    | some p => s.ownerOf p
    | none => 0

/-! ### Error records and events -/

/-- An error record written to the log, addressed to the steward and to the domains named (R463). A FATAL record asserts
FAULT_N (R503). Answers each addressee's index too. -/
def State.logErr (s : State) (e : ErrRec) (dests : List Nat) : State :=
  let doms := (0 :: dests).eraseDups
  let e := { e with ct := s.ct, temp := bits s.freeVal 0 16, supply := bits s.freeVal 16 16 }
  let s := s.useFree
  let entry : LogEntry := ⟨e, doms.map fun d => (d, s.logNext.get 0 d)⟩
  let log := s.log ++ [entry]
  { s with
    log := log.drop (log.length - 262144)
    logNext := doms.foldl (fun t d => t.put d (t.get 0 d + 1)) s.logNext
    boot := if e.sev = 4 then { s.boot with faultN := true } else s.boot }

/-- The index the last error record got in a domain's count. -/
def State.lastLogIx (s : State) (d : Nat) : Nat := s.logNext.get 0 d - 1

/-- Bit `b` of an event page set and counted (R431). -/
def State.countEvent (s : State) (page b : Nat) : State :=
  let ck := page + Off.evtCnt + 8 * (b / 4)
  let c := s.fld ck (16 * (b % 4)) 16
  (s.setFld (page + Off.evtStat) b 1 1).setFld ck (16 * (b % 4)) 16 (sat 0xFFFF (c + 1))

/-- The occurrence counter of an event. -/
def State.eventCount (s : State) (page b : Nat) : Nat :=
  s.fld (page + Off.evtCnt + 8 * (b / 4)) (16 * (b % 4)) 16

/-- A record placed in a domain's log area, or counted lost when the area holds 65,536 (R418). The 0-to-1 change of
EVENTS_LOST is itself recorded to no full area. -/
def State.pushEvent (s : State) (d : Nat) (r : EventRec) : State :=
  let q := s.evq.get [] d
  if q.length < 65536 then
    let lost := s.evLost.get 0 d
    let q := if lost = 0 then q else
      q ++ [{ kind := 2, page := Pg.dq d, ct := s.ct, arg := lost }]
    { s with evq := s.evq.put d (q ++ [r]), evLost := s.evLost.put d 0 }
  else
    let s := { s with evLost := s.evLost.put d (s.evLost.get 0 d + 1) }
    let s := s.bump (Pg.dq d + 0x140) 1
    s.countEvent (Pg.dq d) 1

/-- What a raise says beyond its page and bit. -/
structure Raise where
  /-- `ARG` of the event record, where a rule states it; else it is a free value (R417, log entry 4). -/
  arg : Option Nat := none
  status : Status := .ok
  part : Option Nat := none
  /-- Recipients of the event record; `none` is the page's owner (R433). -/
  dests : Option (List Nat) := none
  /-- A record is written only when the bit changes from 0 to 1. -/
  onChange : Bool := false
  /-- A partition whose owner sees only its own raises of the bit: the count its record carries (R464). -/
  own : Option Nat := none
  /-- The error record that goes with it, with the domains it is addressed to beside the steward. -/
  err : Option (ErrRec × List Nat) := none

/-- An event raised: the bit set, its counter raised, an error record where the event has one, and an event record to each
recipient unless the bit is masked (R431–R433). -/
def State.raise (s : State) (page b : Nat) (r : Raise := {}) : State :=
  let was := bit (s.reg (page + Off.evtStat)) b
  let masked := bit (s.reg (page + Off.evtMask)) b
  let s := s.countEvent page b
  let s := match r.err with
    | some (e, dests) =>
      let bt := blockType (pageOf page)
      s.logErr { e with
        type := if e.type = 0 then 0x100 + b else e.type, cls := bt.1, inst := bt.2
        part := if e.part.isSome then e.part else r.part
        status := statusCode r.status } dests
    | none => s
  if masked || (r.onChange && was) then s
  else
    let arg := r.arg.getD (Config.freeWord s.free).toNat
    let s := if r.arg.isSome then s else s.useFree
    ((r.dests.getD [s.pageOwner page]).eraseDups).foldl (fun s d =>
      s.pushEvent d
        { bit := b, count := if d = 0 then s.eventCount page b else r.own.getD (s.eventCount page b), page := page, ct := s.ct
          arg := arg
          logix := match r.err with
            | some (_, dests) => if (0 :: dests).contains d then s.lastLogIx d else 0xFFFFFFFF
            | none => 0xFFFFFFFF
          status := statusCode r.status, part := r.part }) s

/-- A slot event of cadence slot `p` (R73): PS_EVT has the counters of R431 and no mask; every raise is recorded to the
partition's owner. -/
def State.raiseSlot (s : State) (p b : Nat) (arg : Nat) : State :=
  let pg := Pg.slot p
  let ck := pg + 0x080 + 8 * (b / 4)
  let c := sat 0xFFFF (s.fld ck (16 * (b % 4)) 16 + 1)
  let s := (s.setFld (pg + 0x078) b 1 1).setFld ck (16 * (b % 4)) 16 c
  s.pushEvent (s.ownerOf p) { bit := b, count := c, page := pg, ct := s.ct, arg := arg, part := some p }

/-! ### Sync counters (R67–R71) -/

/-- The value of a counter. -/
def State.ctr (s : State) (i : Nat) : Nat := s.ctrs.get 0 i

/-- A counter set. -/
def State.setCtr (s : State) (i v : Nat) : State := { s with ctrs := s.ctrs.put i v }

/-- The absolute counter of a partition-relative index, where the index lies in the partition's range (R70). -/
def State.absCtr (s : State) (p i : Nat) : Option Nat :=
  if i < s.fld (Pg.slot p + 0x030) 16 16 then some (s.fld (Pg.slot p + 0x030) 0 15 + i) else none

/-- SIGNAL n of a partition's counter: saturates, and a signal past the limit raises CTR_OVERFLOW (R67, R69). R69 has the event name
the counter, R73 gives its record the ARG of every slot event but OVERRUN: the record carries R73's (DESIGN CHOICE, log entry 89). -/
def State.signal (s : State) (p i n : Nat) : State :=
  match s.absCtr p i with
  | none => s
  | some c =>
    let v := s.ctr c + n
    let s := s.setCtr c (min v 0xFFFFFFFF)
    if 0xFFFFFFFF < v then s.raiseSlot p 11 ((s.slots.get {} p).step % 2 ^ 48) else s

/-- Whether a WAIT n on an absolute counter passes (R67). -/
def State.ctrPasses (s : State) (c n : Nat) : Bool := decide (n ≤ s.ctr c)

/-- The n of a passed WAIT_TAKE taken (R67). -/
def State.takeCtr (s : State) (c n : Nat) : State := s.setCtr c (s.ctr c - n)

/-! ### Accessors of tables -/

/-- A cadence slot. -/
def State.slot (s : State) (p : Nat) : Slot := s.slots.get {} p

/-- A cadence slot changed. -/
def State.modSlot (s : State) (p : Nat) (f : Slot → Slot) : State :=
  { s with slots := s.slots.put p (f (s.slot p)) }

/-- A sequencer. -/
def State.seq (s : State) (k : Nat) : Seq := s.seqs.get {} k

/-- A sequencer changed. -/
def State.modSeq (s : State) (k : Nat) (f : Seq → Seq) : State :=
  { s with seqs := s.seqs.put k (f (s.seq k)) }

/-- A stream buffer region of a slice. -/
def State.region (s : State) (k r : Nat) : Region := s.regions.get {} (16 * k + r)

/-- A stream buffer region changed. -/
def State.modRegion (s : State) (k r : Nat) (f : Region → Region) : State :=
  { s with regions := s.regions.put (16 * k + r) (f (s.region k r)) }

/-- Power loop state changed. -/
def State.modPower (s : State) (f : PowerState → PowerState) : State := { s with power := f s.power }

/-- Boot state changed. -/
def State.modBoot (s : State) (f : BootState → BootState) : State := { s with boot := f s.boot }

/-- Time state changed. -/
def State.modTime (s : State) (f : TimeState → TimeState) : State := { s with time := f s.time }

/-- A domain is attached (R374); D0 always is. -/
def State.attached (s : State) (d : Nat) : Bool := d == 0 || bit (s.reg (Pg.dm d + 0x100)) 0

/-- A domain is wedged (R373). -/
def State.wedged (s : State) (d : Nat) : Bool := (s.doms.get {} d).wedged

end Sys2Proof.Machine
end

