-- ==== Sys2Proof/Machine/Links.lean ====
section
/-! DEFINITION. The shape of the cluster, the bundles of links, routing, and the sending of control frames
(R382–R385, R389, R390). -/

namespace Sys2Proof.Machine

/-- A link's state. -/
def State.link (s : State) (l : Nat) : Link := s.links.get {} l

/-- A link's state changed. -/
def State.modLink (s : State) (l : Nat) (f : Link → Link) : State :=
  { s with links := s.links.put l (f (s.link l)) }

/-- Fabric state changed. -/
def State.modFabric (s : State) (f : Fabric → Fabric) : State := { s with fabric := f s.fabric }

/-- The sizes of the cluster (`FAB_CFG`). -/
def State.dims (s : State) : Nat × Nat × Nat :=
  (s.fld (Pg.fab + 0x100) 0 3, s.fld (Pg.fab + 0x100) 3 3, s.fld (Pg.fab + 0x100) 6 3)

/-- How many modules the shape holds. -/
def State.clusterSize (s : State) : Nat := let d := s.dims; d.1 * d.2.1 * d.2.2

/-- The module joins when its SLOT_ID is below the size of the shape (R382). -/
def State.joined (s : State) : Bool := decide (s.boot.slotId < s.clusterSize)

/-- Coordinates of a SLOT_ID (R382). -/
def State.coords (s : State) (id : Nat) : Nat × Nat × Nat :=
  let d := s.dims
  (id % d.1, id / d.1 % d.2.1, id / (d.1 * d.2.1))

/-- The SLOT_ID at coordinates. -/
def State.slotAt (s : State) (c : Nat × Nat × Nat) : Nat :=
  let d := s.dims
  c.1 + d.1 * (c.2.1 + d.2.1 * c.2.2)

/-- How many bundles the links form (R383). -/
def State.nBundles (s : State) : Nat := if bit (s.reg (Pg.fab + 0x100)) 9 then 6 else 4

/-- Links in a bundle: W (R383). -/
def State.bundleW (s : State) : Nat := s.ident.links / s.nBundles

/-- The bundle a link belongs to; links beyond the last stay unused (R383). -/
def State.bundleOf (s : State) (l : Nat) : Option Nat :=
  if s.bundleW = 0 then none
  else if l / s.bundleW < s.nBundles then some (l / s.bundleW) else none

/-- The size of the dimension a bundle runs in. -/
def State.bundleDim (s : State) (b : Nat) : Nat :=
  let d := s.dims
  if b / 2 = 0 then d.1 else if b / 2 = 1 then d.2.1 else d.2.2

/-- The links of a bundle that are UP. -/
def State.upLinks (s : State) (b : Nat) : List Nat :=
  ((List.range s.bundleW).map fun i => b * s.bundleW + i).filter fun l => (s.link l).mode == .up

/-- Flits queued on a link: a message of n bytes fills 240-byte payloads. -/
def Link.queued (l : Link) : Nat := (l.queue.map fun m => (m.bytes.length + 239) / 240).foldl (· + ·) 0

/-- The UP link of a bundle with the fewest flits queued, a tie to the lower number (R385). -/
def State.pickLink (s : State) (b : Nat) (avoid : List Nat := []) : Option Nat :=
  ((s.upLinks b).filter fun l => !avoid.contains l).foldl
    (fun best l => match best with
      | none => some l
      | some m => if (s.link l).queued < (s.link m).queued then some l else some m) none

/-- The neighbour of a module in the direction of a bundle (R383). -/
def State.neighbour (s : State) (id b : Nat) : Nat :=
  let d := s.dims
  let c := s.coords id
  let move (n size : Nat) := if b % 2 = 0 then (n + 1) % size else (n + size - 1) % size
  if b / 2 = 0 then s.slotAt (move c.1 d.1, c.2.1, c.2.2)
  else if b / 2 = 1 then s.slotAt (c.1, move c.2.1 d.2.1, c.2.2)
  else s.slotAt (c.1, c.2.1, move c.2.2 d.2.2)

/-- The bundle in dimension order towards a module: the shorter way round, a tie to the positive direction (R384). -/
def State.routeBundle (s : State) (dst : Nat) : Option Nat :=
  let d := s.dims
  let a := s.coords s.boot.slotId
  let b := s.coords dst
  let dir (dim from' to' size : Nat) : Option Nat :=
    if from' = to' then none
    else
      let up := (to' + size - from') % size
      some (2 * dim + if up ≤ size - up then 0 else 1)
  match dir 0 a.1 b.1 d.1 with
  | some x => some x
  | none => match dir 1 a.2.1 b.2.1 d.2.1 with
    | some y => some y
    | none => dir 2 a.2.2 b.2.2 d.2.2

/-- The way a message goes on: one that came the other way round its dimension, by the bundle of the shorter way, keeps its direction. -/
def onward (came : Option Nat) (b : Nat) : Nat := if came = some b then b ^^^ 1 else b

/-- The link a message for another module takes: a link of its bundle, else of the other way round the same dimension,
whose first use raises ROUTE_DEGRADED (R385). `came` is the bundle it came here by (DEDUCED, log entry 105). -/
def State.routeLink (s : State) (dst : Nat) (came : Option Nat := none) : State × Option Nat :=
  match (s.routeBundle dst).map (onward came) with
  | none => (s, none)
  | some b =>
    match s.pickLink b with
    | some l => (s, some l)
    | none =>
      match s.pickLink (b ^^^ 1) with
      | some l =>
        if s.fabric.degraded then (s, some l)
        else ((s.modFabric fun f => { f with degraded := true }).raise Pg.fab 4 { onChange := true }, some l)
      | none => (s, none)

/-- CTYPE values (R389). -/
inductive CType where
  | mark | done | beacon | live | ident | ping | pong | ready | abort | ack
  deriving DecidableEq, Repr

/-- The code of a control frame type (R389). -/
def CType.code : CType → Nat
  | .mark => 1 | .done => 2 | .beacon => 3 | .live => 4 | .ident => 5 | .ping => 6 | .pong => 7
  | .ready => 8 | .abort => 9 | .ack => 10

/-- A control frame sent on one link, its CRC appended, in a CTRL flit of its own (R389; how many frames share a flit is open: DESIGN
CHOICE, log entry 101). -/
def State.sendFrame (s : State) (l : Nat) (t : CType) (dst : Nat) (flood : Bool) (body : List Byte) :
    State :=
  (s.modLink l fun k => { k with ctrlFlits := k.ctrlFlits + 1 }).emit (.ctrl l t.code dst flood (body ++ toLe 8 (crc64 body).toNat))

/-- MARK and DONE frames wait for an ACK on the link they were sent on (R390). -/
def State.sendAcked (s : State) (l : Nat) (t : CType) (dst : Nat) (flood : Bool)
    (group step origin : Nat) (body : List Byte) (tried : List Nat := []) : State :=
  (s.sendFrame l t dst flood body).modFabric fun f =>
    { f with unacked := f.unacked ++ [{ link := l, ctype := t.code, dst := dst, flood := flood
                                        group := group, step := step, origin := origin, body := body
                                        sentClk := s.clk, tried := tried ++ [l] }] }

/-- The links a flooded frame leaves on: one UP link of every bundle but the one it came by (R389). -/
def State.floodLinks (s : State) (fromLink : Option Nat) : List Nat :=
  let skip := fromLink.bind s.bundleOf
  ((List.range s.nBundles).filter fun b => s.bundleDim b > 1 && some b != skip).filterMap
    fun b => s.pickLink b

/-- A frame flooded with acknowledgement: MARK. -/
def State.floodAcked (s : State) (fromLink : Option Nat) (t : CType) (group step origin : Nat)
    (body : List Byte) : State :=
  (s.floodLinks fromLink).foldl (fun s l => s.sendAcked l t 0 true group step origin body) s

/-- A frame flooded without acknowledgement: LIVE. -/
def State.floodFrame (s : State) (fromLink : Option Nat) (t : CType) (body : List Byte) : State :=
  (s.floodLinks fromLink).foldl (fun s l => s.sendFrame l t 0 true body) s

/-- A frame routed to a module; with no link of its way UP it is lost at this hop (R390). -/
def State.routeFrame (s : State) (t : CType) (dst : Nat) (body : List Byte) (came : Option Nat := none) : State :=
  match s.routeLink dst came with
  | (s, some l) => s.sendFrame l t dst false body
  | (s, none) => s

end Sys2Proof.Machine
end

