-- ==== Sys2Proof/Machine/Time.lean ====
section
/-! DEFINITION. Cluster time: beacons, misses, holdover and the choice of source (R40–R46, R512, R513). -/

namespace Sys2Proof.Machine

/-- `CAD_TIME_STAT.STATE` (R43). -/
def TimeMode.code : TimeMode → Nat
  | .free => 0 | .acquire => 1 | .locked => 2 | .holdover => 3 | .unlocked => 4

/-- The register that holds the time role. -/
def timeCtrl : Nat := Pg.cad + 0x108

/-- `ROLE`: 0 NONE, 1 HEAD, 2 FOLLOWER. -/
def State.role (s : State) : Nat := s.fld timeCtrl 0 2

/-- Missed beacons that end LOCKED: values below 2 are treated as 2. -/
def State.beaconTimeout (s : State) : Nat := max 2 (s.fld timeCtrl 32 8)

/-- Ticks of holdover: 0 µs is treated as 1. -/
def State.holdoverTicks (s : State) : Nat := usTicks * max 1 (s.fld timeCtrl 16 16)

/-- The upstream link in force: chosen by firmware under `AUTO_UPSTREAM`, else the one named. -/
def State.upstreamLink (s : State) : Nat :=
  if bit (s.reg timeCtrl) 4 then s.time.upstream else s.fld timeCtrl 8 7

/-- A cadence slot is enabled. -/
def State.slotEnabled (s : State) (p : Nat) : Bool := bit (s.reg (Pg.slot p)) 0

/-- Time events go to the steward and to every domain with an enabled slot. -/
def State.timeDoms (s : State) : List Nat :=
  0 :: ((List.range 16).filter s.slotEnabled).map s.ownerOf

/-- A time event of the cadence page: 0 TIME_LOCKED, 1 TIME_HOLDOVER, 2 TIME_UNLOCKED, 3 TIME_STEP, 4 UPSTREAM_CHANGE. -/
def State.raiseTime (s : State) (b : Nat) : State := s.raise Pg.cad b { dests := some s.timeDoms }

/-- Entering a time state raises its event (R43). -/
def State.enterTime (s : State) (m : TimeMode) : State :=
  let s := s.modTime fun t =>
    { t with mode := m, run := 0, everLocked := t.everLocked || m == .locked
             holdClk := if m = .holdover then s.clk else t.holdClk }
  match m with
  | .locked => s.raiseTime 0
  | .holdover => s.raiseTime 1
  | .unlocked => s.raiseTime 2
  | _ => s

/-- A beacon is accepted only from the source in force (R512, R420). -/
def State.beaconSource (s : State) : Source → Bool
  | .port i =>
    s.role == 1 && s.fld timeCtrl 2 2 == i.val && (s.ports.get {} i.val).mode == .up
      && bit (s.reg (Pg.port i.val + 0x100)) 6 && s.fld (Pg.port i.val + 0x100) 4 2 == 0
  | .link l => s.role == 2 && s.upstreamLink == l.val && (s.link l.val).mode == .up

/-- The one-way delay a beacon is corrected by (R42, R390, R407). -/
def State.sourceDelay (s : State) : Source → Nat
  | .port i => (s.ports.get {} i.val).delay
  | .link l => (s.link l.val).delay

/-- The offset of a beacon: local CT minus master CT. -/
def State.beaconOffset (s : State) (src : Source) (ct : Nat) : Int :=
  (s.ct : Int) - ((ct + s.sourceDelay src : Nat) : Int)

/-- CT corrected by a measured offset (R44): set outright by the first beacon before the first LOCKED, stepped forward when
more than 4,096 ticks behind, otherwise slewed; never stepped backward. -/
def State.correctCt (s : State) (off : Int) : State :=
  if s.time.mode = .acquire ∧ !s.time.everLocked ∧ !s.time.gotFirst then
    s.modTime fun t => { t with ct := ((t.ct : Int) - off).toNat, slew := 0 }
  else if off < -4096 then
    (s.modTime fun t => { t with ct := ((t.ct : Int) - off).toNat, slew := 0 }).raiseTime 3
  else s.modTime fun t => { t with slew := off }

/-- The time state after a beacon that reports state `st` (R43, R45). -/
def State.beaconState (s : State) (off : Int) (st : Nat) : State :=
  match s.time.mode with
  | .free => s
  | .acquire | .unlocked =>
    if st = 2 ∧ off.natAbs ≤ 16 then
      if s.time.run + 1 = 16 then s.enterTime .locked
      else s.modTime fun t => { t with run := t.run + 1 }
    else s.modTime fun t => { t with run := 0 }
  | .locked =>
    if st = 2 then s else if st = 3 then s.enterTime .holdover else s.enterTime .unlocked
  | .holdover =>
    if st = 2 then s.enterTime .locked else if st = 3 then s else s.enterTime .unlocked

/-- The module's own beacon, sent on every UP link but the upstream one (R41, R390). -/
def State.forwardBeacon (s : State) (skip : Option Nat) : State :=
  ((List.range 96).filter fun l => (s.link l).mode == .up && some l != skip).foldl
    (fun s l => s.sendFrame l .beacon 0 false
      (toLe 8 s.ct ++ toLe 1 s.time.mode.code ++ toLe 1 s.time.hops ++ zeros 14)) s

/-- The body of a beacon where its frame is sound: a link frame carries its own CRC-64, a port's has passed its frame's. -/
def beaconBody (src : Source) (frame : List Byte) : Option (Nat × Nat × Nat) :=
  let sound := match src with
    | .port _ => true
    | .link _ => (crc64 (frame.take 24)).toNat == field frame 24 8
  if sound then some (field frame 0 8, field frame 8 1, field frame 9 1) else none

/-- BEACON_RECEIVE: an accepted beacon corrects CT and moves the time state; a port's other beacons are counted. -/
def State.beaconReceive (s : State) (src : Source) (frame : List Byte) : State :=
  match beaconBody src frame with
  | none => s
  | some (ct, st, hops) =>
    if !s.beaconSource src || s.time.mode == .free then
      match src with
      | .port i => s.bump (Pg.port i.val + 0x140) 1
      | .link _ => s
    else
      let off := s.beaconOffset src ct
      let s := s.modTime fun t =>
        { t with missed := 0, beaconClk := s.clk, offset := clampInt (-32767) 32767 off
                 hops := (hops + 1) % 128 }
      let s := s.correctCt off
      let s := s.modTime fun t => { t with gotFirst := true }
      let s := s.beaconState off st
      s.forwardBeacon (match src with | .link l => some l.val | .port _ => none)

/-- The tick at which the next beacon counts as missed (R512). -/
def TimeState.missDue (t : TimeState) : Nat := t.beaconClk + 6000 + 4000 * t.missed

/-- BEACON_MISS: one more miss is counted; in FREE nothing is. -/
def State.beaconMiss (s : State) : State :=
  if s.time.mode = .free then s else
  let s := s.waitClk s.time.missDue
  let s := s.modTime fun t => { t with missed := sat 65535 (t.missed + 1) }
  match s.time.mode with
  | .locked => if s.beaconTimeout ≤ s.time.missed then s.enterTime .holdover else s
  | .acquire | .unlocked => s.modTime fun t => { t with run := 0 }
  | _ => s

/-- HOLDOVER_EXPIRE: the limit passes in HOLDOVER. -/
def State.holdoverExpire (s : State) : State :=
  if s.time.mode = .holdover then
    (s.waitClk (s.time.holdClk + s.holdoverTicks)).enterTime .unlocked
  else s

/-- A LOCKED module whose misses already reach a lowered `BEACON_TIMEOUT` enters HOLDOVER with the write (R512; DEDUCED, log entry
52). -/
def State.timeoutLowered (s : State) : State :=
  if s.time.mode = .locked ∧ s.beaconTimeout ≤ s.time.missed then s.enterTime .holdover else s

/-- A write of `CAD_TIME_CTRL` (R43, R513): a reserved role is ignored. -/
def State.timeCtrlWrite (s : State) (v : Word) : State :=
  let new := bits v 0 2
  let old := s.role
  if new = 3 then s.ends .access
  else
    let s := (s.setReg timeCtrl (v &&& 0x000000FFFFFF7F1F#64)).ends .ok
    if new = old then s.timeoutLowered
    else if new = 0 then
      s.modTime fun t => { t with mode := .free, run := 0, missed := 0, slew := 0, upstream := 127 }
    else if old = 0 then
      s.modTime fun t => { t with mode := .acquire, run := 0, missed := 0, beaconClk := s.clk
                                  gotFirst := false, upstream := 127 }
    else (s.modTime fun t => { t with upstream := 127 }).raiseTime 4

/-- The bundles that lie on a shortest path to a module. -/
def State.towards (s : State) (dst : Nat) : List Nat :=
  let d := s.dims
  let a := s.coords s.boot.slotId
  let b := s.coords dst
  let dir (dim x y size : Nat) : List Nat :=
    if x = y then []
    else
      let up := (y + size - x) % size
      if up < size - up then [2 * dim] else if size - up < up then [2 * dim + 1]
      else [2 * dim, 2 * dim + 1]
  dir 0 a.1 b.1 d.1 ++ dir 1 a.2.1 b.2.1 d.2.1 ++ dir 2 a.2.2 b.2.2 d.2.2

/-- UPSTREAM_CHANGE: a follower's firmware takes the lowest-numbered UP link on a shortest path to the head (R41). -/
def State.upstreamChange (s : State) (head : Nat) : State :=
  if s.role = 2 ∧ bit (s.reg timeCtrl) 4 then
    match ((s.towards head).flatMap s.upLinks).min? with
    | some l =>
      if l = s.time.upstream then s
      else (s.modTime fun t => { t with upstream := l }).raiseTime 4
    | none => s
  else s

/-- `CAD_TIME_STAT` (R43). -/
def State.timeStat (s : State) : Word :=
  pack [(s.time.mode.code, 0), (unsigned 16 s.time.offset, 16), (sat 65535 s.time.missed, 32)
      , (s.time.hops, 48), (if s.role = 2 then s.upstreamLink else 127, 56)]

end Sys2Proof.Machine
end

