-- ==== Sys2Proof/Machine/CadOps.lean ====
section
/-! DEFINITION. Cadence slots: configuration fields, marks, done reports, halting and the arithmetic of phase
(R47–R56, R63–R65). -/

namespace Sys2Proof.Machine

/-- `LEADER` of a slot. -/
def State.slotLeader (s : State) (p : Nat) : Bool := bit (s.reg (Pg.slot p)) 1
/-- `MODE` of a slot: true for ELASTIC. -/
def State.slotElastic (s : State) (p : Nat) : Bool := bit (s.reg (Pg.slot p)) 2
/-- `GROUP` of a slot. -/
def State.slotGroup (s : State) (p : Nat) : Nat := s.fld (Pg.slot p) 8 8
/-- `SPAN` of a slot. -/
def State.slotSpan (s : State) (p : Nat) : Nat := s.fld (Pg.slot p + 0x008) 0 32
/-- `LEAD`: values below 4,000 are treated as 4,000. -/
def State.slotLead (s : State) (p : Nat) : Nat := max 4000 (s.fld (Pg.slot p + 0x010) 0 16)
/-- `GUARD` of a slot. -/
def State.slotGuard (s : State) (p : Nat) : Nat := s.fld (Pg.slot p + 0x010) 16 16
/-- `LAG_LIMIT`: values outside 1–4 are treated as 4. -/
def State.lagLimit (s : State) (p : Nat) : Nat :=
  let n := s.fld (Pg.slot p + 0x010) 32 3
  if 1 ≤ n ∧ n ≤ 4 then n else 4
/-- `IDLE_GUARD` in ticks. -/
def State.idleGuard (s : State) (p : Nat) : Nat := usTicks * s.fld (Pg.slot p + 0x010) 40 8
/-- `PS_MEMBERS` as a list of SLOT_IDs. -/
def State.members (s : State) (p : Nat) : List Nat := maskList 64 (s.reg (Pg.slot p + 0x038)).toNat
/-- The slots of this module that carry a group and are enabled (R47). -/
def State.groupSlots (s : State) (g : Nat) : List Nat :=
  (List.range 16).filter fun p => s.slotEnabled p && s.slotGroup p == g

/-- `PS_STEP.STATE`: a step in progress reads RUNNING unless the slot is HALTED. -/
def Slot.stateCode (sl : Slot) : Nat :=
  match sl.mode with
  | .halted => 4
  | m => if sl.busy then 2 else match m with | .disabled => 0 | .waiting => 1 | .running => 2 | _ => 3

/-- Marks that have taken effect and wait for the running step (`LATCHED`, R63). -/
def Slot.latched (sl : Slot) : Nat :=
  if sl.busy then (sl.marks.filter fun m => m.2).length else 0

/-- The argument of every slot event but OVERRUN (R73). -/
def State.slotArg (s : State) (p : Nat) : Nat := (s.slot p).step % 2 ^ 48

/-- A slot event with the common argument (R73). -/
def State.slotEvent (s : State) (p b : Nat) : State := s.raiseSlot p b (s.slotArg p)

/-! ### Marks -/

/-- Bytes 0–23 of a step mark (R48). -/
def Mark.body (m : Mark) : List Byte :=
  toLe 6 m.step ++ toLe 1 m.group ++ toLe 1 (b2n m.elastic + 2 * b2n m.held + 4 * b2n m.halt)
    ++ toLe 8 m.markCt ++ toLe 4 m.span ++ toLe 1 (m.leader % 64) ++ zeros 3

/-- A step mark read from its frame (R48). -/
def Mark.ofFrame (f : List Byte) : Mark :=
  let fl := field f 7 1
  { step := field f 0 6, group := field f 6 1, elastic := fl % 2 == 1, held := fl / 2 % 2 == 1
    halt := fl / 4 % 2 == 1, markCt := field f 8 8, span := field f 16 4, leader := field f 20 1 % 64 }

/-- A frame's CRC-64 over bytes 0–23 stands in bytes 24–31 (R389). -/
def frameSound (f : List Byte) : Bool := (crc64 (f.take 24)).toNat == field f 24 8

/-! ### Phase (R56) -/

/-- The phase of a mark's step at CT `t`, on the 4-tick grid (R56). -/
def phaseAt (m : Mark) (t : Nat) : Nat :=
  let t := t / 4 * 4
  min 65535 (65536 * (t - m.markCt) / m.span)

/-- The CT at which an entry at phase `ph` is due (R56). -/
def dueCt (m : Mark) (ph : Nat) : Nat := m.markCt + ceilDiv (ph * m.span) 65536

/-! ### Schedule entries (R57, R58) -/

/-- Fields of a control word. -/
def entPhase (c : Word) : Nat := bits c 0 16
def entAction (c : Word) : Nat := bits c 16 4

/-- An entry fires in a step (R57). -/
def entLive (c : Word) (step : Nat) : Bool :=
  bit c 63 && step % 2 ^ bits c 24 4 == bits c 32 15 % 2 ^ bits c 24 4

/-- An entry of a bank. -/
def State.entryAt (s : State) (bank : Bool) (i : Nat) : Word × Word :=
  (s.schedLo.get 0 (b2n bank * 16384 + i), s.schedHi.get 0 (b2n bank * 16384 + i))

/-- Number of entries of a partition's range, and the first. -/
def State.schedCount (s : State) (p : Nat) : Nat := s.fld (Pg.slot p + 0x028) 16 15
def State.schedBase (s : State) (p : Nat) : Nat := s.fld (Pg.slot p + 0x028) 0 14

/-- The first entry from position `i` that fires in a step and whose action `want` takes, past entries that are disabled or excluded
by their period, with its position (R58). -/
def State.schedNext (s : State) (p step : Nat) (bank : Bool) (want : Nat → Bool) : Nat → Nat → Option (Nat × (Word × Word))
  | 0, _ => none
  | fuel + 1, i =>
    if s.schedCount p ≤ i then none
    else
      let e := s.entryAt bank (s.schedBase p + i)
      if entLive e.1 step && want (entAction e.1) then some (i, e) else s.schedNext p step bank want fuel (i + 1)

/-- The entry the cursor of a slot fires next, a NOP too. -/
def State.cursorEntry (s : State) (p : Nat) : Option (Nat × (Word × Word)) :=
  let sl := s.slot p
  s.schedNext p sl.step sl.stepBank (fun _ => true) (s.schedCount p + 1) sl.cursor

/-- The action of the next entry that is no NOP. -/
def State.cursorAction (s : State) (p : Nat) : Option Nat :=
  let sl := s.slot p
  (s.schedNext p sl.step sl.stepBank (fun a => a != 0) (s.schedCount p + 1) sl.cursor).map fun e => entAction e.2.1

/-- The CT at which the cursor fires an entry: its step has started, its phase has come on the 4-tick grid, and a fabric cycle has passed
since the entry before (R56, R58). -/
def Slot.fireCt (sl : Slot) (m : Mark) (e : Word × Word) : Nat :=
  max (max ((dueCt m (entPhase e.1) + 3) / 4 * 4) sl.startCt) (match sl.firedCt with | some c => c + 2 | none => 0)

/-- The cursor of a slot may fire: a step has begun, no start is held, and the slot is neither disabled nor halted (R55, R60). -/
def State.cursorRuns (s : State) (p : Nat) : Bool :=
  let sl := s.slot p
  sl.cur.isSome && sl.held.isNone && sl.mode != .halted && sl.mode != .disabled && s.enginesRun

/-- The cursor fires the entry at position `i` at CT `t`: one out of order is reported, and its lateness enters `PS_SLIP` (R58, R64). -/
def State.entryReached (s : State) (p i : Nat) (m : Mark) (e : Word × Word) (t : Nat) : State :=
  let s := if entPhase e.1 < (s.slot p).lastPhase then s.slotEvent p 8 else s
  s.modSlot p fun sl =>
    { sl with lastPhase := entPhase e.1, firedCt := some t, cursor := i
              maxLate := sat 0xFFFFFFFF (max sl.maxLate (t - dueCt m (entPhase e.1))) }

/-- The NOP entries that stand before the cursor and whose time has come fire, at the CT it came (R58, R64). -/
def State.passNops (s : State) (p : Nat) : Nat → State
  | 0 => s
  | fuel + 1 =>
    match (s.slot p).cur, s.cursorEntry p with
    | some m, some (i, e) =>
      let t := (s.slot p).fireCt m e
      if !s.cursorRuns p ∨ entAction e.1 ≠ 0 ∨ s.ct < t then s
      else ((s.entryReached p i m e t).modSlot p fun sl => { sl with cursor := i + 1 }).passNops p fuel
    | _, _ => s

/-! ### Idle windows and halting -/

/-- A window of screening closes on a slice: a test under way is discarded (R66, R458). -/
def State.maceAbort (s : State) (k : Nat) : State :=
  { s with screens := s.screens.put k { s.screens.get {} k with testing := none } }

/-- The implicit idle window of a slot closes: screening on its slices is aborted, unless an explicit window still holds (R65, R66). -/
def State.closeIdle (s : State) (p : Nat) : State :=
  if (s.slot p).idleOpen then
    let s := s.modSlot p fun sl => { sl with idleOpen := false }
    (s.slicesOf p ++ s.twinsOf p).foldl (fun s k => if s.clk < s.idleUntil.get 0 k then s else s.maceAbort k) s
  else s

/-- A slot goes to HALTED: its marks are dropped, the cause is recorded, GROUP_HALT is raised (R55). -/
def State.haltSlot (s : State) (p cause : Nat) : State :=
  if (s.slot p).mode = .halted ∨ !s.slotEnabled p then s
  else (((s.passNops p (s.schedCount p + 1)).closeIdle p).modSlot p fun sl =>
    { sl with mode := .halted, marks := [], haltCause := cause, held := none }).slotEvent p 13

/-- A mark takes effect at a slot at once when it comes after its MARK_CT, with LATE_MARK (R49). -/
def State.placeMark (s : State) (p : Nat) (m : Mark) : State :=
  let late := decide (m.markCt < s.ct)
  let s := (s.closeIdle p).modSlot p fun sl =>
    { sl with marks := sl.marks ++ [(m, late)], prevStep := some m.step, lastMark := some m, markTimedOut := false }
  if late then s.slotEvent p 1 else s

/-- A slot receives a mark: a HALT mark halts it, a mark out of sequence halts it with MARK_SEQ, any other is accepted
(R50, R55). -/
def State.acceptMark (s : State) (p : Nat) (m : Mark) : State :=
  if (s.slot p).mode = .halted then s
  else if m.halt then s.haltSlot p 4
  else match (s.slot p).prevStep with
    | some n =>
      if m.step = (n + 1) % 2 ^ 48 then s.placeMark p m
      else (s.slotEvent p 2).haltSlot p 1
    | none => s.placeMark p m

/-- The leader sends a mark to its members and takes it itself. -/
def State.issueMark (s : State) (p : Nat) (m : Mark) : State :=
  let s := s.modFabric fun f =>
    { f with seen := f.seen ++ [(CType.mark.code, m.group, m.step, m.leader, m.body)] }
  let s := s.floodAcked none .mark m.group m.step m.leader m.body
  let s := if m.halt then s else s.modSlot p fun sl => { sl with sentMark := some m }
  if m.halt then s else s.acceptMark p m

/-- A HALT mark, with the STEP after the last mark's, so that no receiver takes it for a duplicate (DESIGN CHOICE, log
entry 7). -/
def State.haltMark (s : State) (p : Nat) : Mark :=
  { step := ((s.slot p).prevStep.getD (s.slot p).step + 1) % 2 ^ 48, group := s.slotGroup p
    elastic := s.slotElastic p, held := false, halt := true, markCt := s.ct % 2 ^ 64
    span := s.slotSpan p, leader := s.boot.slotId }

/-- A leader that stops for a cause sends a HALT mark to its members and goes to HALTED (R52, R55). -/
def State.leaderHalt (s : State) (p cause : Nat) : State :=
  (s.issueMark p (s.haltMark p)).haltSlot p cause

/-- An ACK for a MARK or DONE frame, on the link it came by (R390). -/
def State.ackFrame (s : State) (l : Nat) (t : CType) (group step origin : Nat) : State :=
  s.sendFrame l .ack 0 false
    (toLe 1 t.code ++ toLe 1 group ++ toLe 6 step ++ toLe 1 origin ++ zeros 15)

/-- A copy of a frame already accepted here: the CTYPE, group, step and origin are one it has accepted, in a frame of the same bytes;
a group enabled anew sends new frames under old numbers (R50, R54, R390; DEDUCED, log entry 88). -/
def State.frameSeen (s : State) (t : CType) (group step origin : Nat) (f : List Byte) : Bool :=
  s.fabric.seen.contains (t.code, group, step, origin, f.take 24)

/-- A frame remembered as accepted. -/
def State.markSeen (s : State) (t : CType) (group step origin : Nat) (f : List Byte) : State :=
  s.modFabric fun fb => { fb with seen := fb.seen ++ [(t.code, group, step, origin, f.take 24)] }

/-- MARK_RECEIVE: checked, acknowledged, forwarded, and accepted or discarded (R48–R50, R389, R390). -/
def State.markReceive (s : State) (l : Nat) (f : List Byte) : State :=
  if (s.link l).mode != .up then s
  else if !frameSound f then s.modLink l fun k => { k with frameErrs := k.frameErrs + 1 }
  else
    let m := Mark.ofFrame f
    let s := s.ackFrame l .mark m.group m.step m.leader
    if s.frameSeen .mark m.group m.step m.leader f then s
    else
      let s := s.markSeen .mark m.group m.step m.leader f
      let s := s.floodAcked (some l) .mark m.group m.step m.leader (f.take 24)
      (s.groupSlots m.group).foldl (fun s p => s.acceptMark p m) s

/-- MARK_EFFECT: CT reaches MARK_CT of the oldest mark not yet in effect; behind a running step it is latched
(R49, R63). -/
def State.markEffect (s : State) (p : Nat) : State :=
  match (s.slot p).marks.find? fun m => !m.2 with
  | none => s
  | some m =>
    let s := s.waitCt m.1.markCt
    s.modSlot p fun sl =>
      { sl with marks := (sl.marks.takeWhile fun x => x.2) ++ [(m.1, true)]
                  ++ (sl.marks.dropWhile fun x => x.2).drop 1 }

/-! ### Done reports and ELASTIC marks -/

/-- Bytes 0–23 of a DONE frame (R390). -/
def doneBody (step group member excess ct : Nat) (ready : Bool) : List Byte :=
  toLe 6 step ++ toLe 1 group ++ toLe 1 (member % 64 + 64 * b2n ready) ++ toLe 4 excess ++ zeros 4
    ++ toLe 8 ct

/-- Every member has reported for the leader's last mark, or reported ready before its first (R54). -/
def State.allReported (s : State) (p : Nat) : Bool :=
  let sl := s.slot p
  (s.members p).all fun m =>
    match sl.sentMark with
    | some k => sl.done.get (2 ^ 48) m == k.step
    | none => sl.ready.contains m

/-- An ELASTIC leader that holds every report issues the next mark (R54). -/
def State.elasticIssue (s : State) (p : Nat) : State :=
  let sl := s.slot p
  if s.slotEnabled p && s.slotLeader p && s.slotElastic p && sl.mode != .halted
      && !(s.members p).isEmpty && s.allReported p then
    let gap := max (s.slotGuard p) (s.slotLead p)
    let ct := match sl.sentMark with
      | some k => max (sl.tAll + gap) (k.markCt + s.fld (Pg.slot p + 0x008) 32 32)
      | none => sl.tAll + gap
    let step := match sl.sentMark with | some k => k.step | none => sl.step
    s.issueMark p { step := (step + 1) % 2 ^ 48, group := s.slotGroup p, elastic := true, held := false
                    halt := false, markCt := ct, span := s.slotSpan p, leader := s.boot.slotId }
  else s

/-- The leader's slot takes a member's report (R53, R54). -/
def State.takeReport (s : State) (p member step : Nat) (ready : Bool) : State :=
  let s := s.modSlot p fun sl =>
    if ready then { sl with ready := (member :: sl.ready).eraseDups, tAll := s.ct }
    else { sl with done := sl.done.put member step, tAll := s.ct }
  s.elasticIssue p

/-- A done or ready report sent to the leader: to this module's own slot where it leads, to the LEADER of the last mark, or
flooded while no mark has named one (DESIGN CHOICE, log entry 8). -/
def State.sendReport (s : State) (p step excess : Nat) (ready : Bool) : State :=
  let me := s.boot.slotId
  let g := s.slotGroup p
  if s.slotLeader p then s.takeReport p me step ready
  else
    let body := doneBody step g me excess s.ct ready
    match (s.slot p).lastMark with
    | some m => match s.routeLink m.leader with
      | (s, some l) => s.sendAcked l .done m.leader false g step me body
      | (s, none) => s
    | none => s.floodAcked none .done g step me body

/-- DONE_REPORT_RECEIVE: acknowledged; taken by the leader's slot, or passed on towards the leader (R54, R390). -/
def State.doneReceive (s : State) (l : Nat) (dst : Nat) (flood : Bool) (f : List Byte) : State :=
  if (s.link l).mode != .up then s
  else if !frameSound f then s.modLink l fun k => { k with frameErrs := k.frameErrs + 1 }
  else
    let step := field f 0 6
    let group := field f 6 1
    let member := field f 7 1 % 64
    let ready := field f 7 1 / 64 % 2 == 1
    let s := s.ackFrame l .done group step member
    if s.frameSeen .done group step member f then s
    else
      let s := s.markSeen .done group step member f
      let here := (List.range 16).filter fun p => s.slotLeader p && s.slotGroup p == group
      if here.isEmpty || (!flood && dst != s.boot.slotId) then
        if flood then s.floodAcked (some l) .done group step member (f.take 24)
        else match s.routeLink dst (s.bundleOf l) with
          | (s, some k) => s.sendAcked k .done dst false group step member (f.take 24)
          | (s, none) => s
      else here.foldl (fun s p => s.takeReport p member step ready) s

/-! ### Acknowledgement and re-sending -/

/-- ACK_RECEIVE: stops the re-sending of the frame it names on its link (R390). -/
def State.ackReceive (s : State) (l : Nat) (f : List Byte) : State :=
  if (s.link l).mode != .up || !frameSound f then s
  else
    s.modFabric fun fb =>
      { fb with unacked := fb.unacked.filter fun u =>
          !(u.link == l && u.ctype == field f 0 1 && u.group == field f 1 1
            && u.step == field f 2 6 && u.origin == field f 8 1 % 64) }

/-- FRAME_RESEND: the oldest unacknowledged frame is sent again once 200 ns have passed, eight times; then on another UP
link of the bundle; a frame no link accepts is lost at this hop (R390). -/
def State.frameResend (s : State) : State :=
  match s.fabric.unacked with
  | [] => s
  | u :: rest =>
    let s := s.waitClk (u.sentClk + 800)
    let t : CType := if u.ctype = 1 then .mark else .done
    if u.resends < 8 then
      (s.sendFrame u.link t u.dst u.flood u.body).modFabric fun f =>
        { f with unacked := rest ++ [{ u with resends := u.resends + 1, sentClk := s.clk }] }
    else
      let s := s.modFabric fun f => { f with unacked := rest }
      match (s.bundleOf u.link).bind fun b => s.pickLink b u.tried with
      | some l => s.sendAcked l t u.dst u.flood u.group u.step u.origin u.body u.tried
      | none => s

/-! ### What a slot shows, and its limits -/

/-- The phase of a slot's step at the present CT; 0 before any step (R56). -/
def State.slotPhase (s : State) (p : Nat) : Nat :=
  match (s.slot p).cur with
  | some m => phaseAt m s.ct
  | none => 0

/-- The cursor a slot shows: entries that are disabled or excluded are passed without delay, a NOP once its time has come (R58). -/
def State.cursorShown (s : State) (p : Nat) : Nat :=
  let t := s.passNops p (s.schedCount p + 1)
  if !t.cursorRuns p then (t.slot p).cursor
  else match t.cursorEntry p with
    | some (i, _) => i
    | none => s.schedCount p

/-- The largest entry lateness a slot shows, NOPs whose time has come among them (R64). -/
def State.lateShown (s : State) (p : Nat) : Nat := ((s.passNops p (s.schedCount p + 1)).slot p).maxLate

/-- `MARK_TIMEOUT` ticks of a slot: 0 is four spans. -/
def State.markTimeoutTicks (s : State) (p : Nat) : Nat :=
  let n := s.fld (Pg.slot p + 0x020) 32 32
  if n = 0 then 4 * s.slotSpan p else n

/-- MARK_TIMEOUT: no mark for that long after the end of the last mark's span (R55). -/
def State.markTimeout (s : State) (p : Nat) : State :=
  let sl := s.slot p
  match sl.lastMark with
  | some m =>
    if s.slotEnabled p && sl.mode != .halted && !sl.markTimedOut then
      let s := s.waitCt (m.markCt + m.span + s.markTimeoutTicks p)
      (s.modSlot p fun sl => { sl with markTimedOut := true }).slotEvent p 3
    else s
  | none => s

/-- STEP_LIMIT: a step still running that long after its start is reported, not ended (R33, R64). -/
def State.stepLimit (s : State) (p : Nat) : State :=
  let sl := s.slot p
  let n := s.fld (Pg.slot p + 0x020) 0 32
  if sl.busy && n != 0 && !sl.stepLimited then
    let s := s.waitCt (sl.startCt + n)
    (s.modSlot p fun sl => { sl with stepLimited := true }).slotEvent p 12
  else s

/-! ### Enable and disable -/

/-- A write of `PS_CFG` (R46, R72): enabling needs LOCKED time; LEADER, MODE and GROUP change only while disabled;
clearing ENABLE drops latched marks and lets a running step complete. The entries of its last step that have not fired stay, and fire
at the first step start after the slot is enabled again (R59; DESIGN CHOICE, log entry 89). -/
def State.slotCfgWrite (s : State) (p : Nat) (v : Word) : State :=
  let old := s.reg (Pg.slot p)
  let v := v &&& 0xFF07#64
  let on := bit old 0
  if on && (bits old 1 2 != bits v 1 2 || bits old 8 8 != bits v 8 8) then s.ends .access
  else if !on && bit v 0 then
    if s.time.mode != .locked then s.ends .access
    else
      let s := (s.setReg (Pg.slot p) v).modSlot p fun sl =>
        { sl with mode := if sl.busy then .running else .waiting, marks := [], prevStep := none
                  lastMark := none, haltCause := 0, planHead := 0, planLast := none, planFirst := none
                  planEmptyAt := none, planHeld := false, sentMark := none, closing := false
                  done := {}, markTimedOut := false }
      (if bit v 2 then s.sendReport p 0 0 true else s).ends .ok
  else if on && !bit v 0 then
    ((((s.passNops p (s.schedCount p + 1)).setReg (Pg.slot p) v).closeIdle p).modSlot p fun sl =>
      { sl with marks := [], ready := [], held := if sl.busy then sl.held else none
                mode := if sl.busy && sl.mode != .halted then sl.mode else .disabled
                closing := sl.busy }).ends .ok
  else (s.setReg (Pg.slot p) v).ends .ok

end Sys2Proof.Machine
end

