-- ==== Sys2Proof/Machine/Msg.lean ====
section
/-! DEFINITION. Fabric messages: header, sub-lane, the queues and credits of a link, flits and replay, requests and their tags
(R377, R378, R384–R388, R392, R393). -/

namespace Sys2Proof.Machine

/-- A message: its header fields and everything after the header (Table Message header). -/
structure Msg where
  dst : Nat
  src : Nat
  kind : Nat
  group : Nat
  tag : Nat
  len : Nat
  arg : Nat
  data : List Byte
  deriving DecidableEq, Repr

namespace MKind
def write : Nat := 0
def read : Nat := 1
def signal : Nat := 2
def resp : Nat := 3
def contrib : Nat := 4
def relay : Nat := 5
def relayResp : Nat := 6
end MKind

/-- A message read from its bytes. -/
def Msg.ofBytes (b : List Byte) : Msg :=
  { dst := field b 0 1 % 64, src := field b 1 1 % 64, kind := field b 2 1 % 16, group := field b 3 1, tag := field b 4 2
    len := field b 6 2 % 8192, arg := field b 8 8, data := b.drop 16 }

/-- The bytes of a message. -/
def Msg.bytes (m : Msg) : List Byte :=
  toLe 1 (m.dst % 64) ++ toLe 1 (m.src % 64) ++ toLe 1 (m.kind % 16) ++ toLe 1 m.group ++ toLe 2 m.tag
    ++ toLe 2 (m.len % 8192) ++ toLe 8 m.arg ++ m.data

/-- The virtual channel of a kind: 0 REQ, 1 RSP, 2 COLL (R387). -/
def kindVc (kind : Nat) : Nat :=
  if kind = MKind.resp ∨ kind = MKind.relayResp then 1 else if kind = MKind.contrib then 2 else 0

/-- Flits that carry `n` message bytes. -/
def flitsOf (n : Nat) : Nat := ceilDiv n 240

/-- The hop from this module in the direction of a bundle crosses the wrap of its dimension (R384). -/
def State.wraps (s : State) (b : Nat) : Bool :=
  let c := s.coords s.boot.slotId
  let at' := if b / 2 = 0 then c.1 else if b / 2 = 1 then c.2.1 else c.2.2
  if b % 2 = 0 then at' + 1 == s.bundleDim b else at' == 0

/-- The sub-lane a message leaves on: it starts and turns on A, and moves to B where it crosses a wrap link (R384). `from'` is the
bundle it came by with its sub-lane there, for a message in transit. -/
def State.subLane (s : State) (b : Nat) (from' : Option (Nat × Nat)) : Nat :=
  if s.wraps b then 1
  else match from' with
    | some (c, sub) => if c / 2 = b / 2 then sub else 0
    | none => 0

/-- Payload of a message cut into flits: byte 0 and 240 payload bytes of each (Table Flit). -/
def flitBodies (m : QMsg) : List (List Byte) :=
  let n := flitsOf m.bytes.length
  (List.range n).map fun i =>
    let p := (m.bytes.drop (240 * i)).take 240
    toLe 1 (m.vc + 2 + 8 * m.sub + 16 * b2n (i == 0) + 32 * b2n (i + 1 == n)) ++ p ++ zeros (240 - p.length)

/-- A whole flit: its header, payload, numbers and CRC-32C (R377). -/
def Link.flit (k : Link) (seq : Nat) (body : List Byte) : List Byte :=
  let b := body.take 1 ++ toLe 1 (b2n k.naked) ++ k.freed.flatMap (fun n => toLe 1 n) ++ body.drop 1 ++ toLe 2 seq
    ++ toLe 2 ((k.rxSeq + 4095) % 4096)
  b ++ toLe 4 (crc32c b).toNat

/-- Credit pool of a message. -/
def QMsg.pool (m : QMsg) : Nat := 2 * m.vc + m.sub

/-- A message may begin on a link: credits for its flits, and room in the replay buffer. -/
def Link.canSend (k : Link) (m : QMsg) : Bool :=
  decide (flitsOf m.bytes.length ≤ k.credits.getD m.pool 0)
    && decide (k.replay.length + flitsOf m.bytes.length ≤ 512)

/-- A request or contribution of this module's own. -/
def QMsg.isLocal (m : QMsg) : Bool := m.vc != 1 && !m.fwd && !m.relay

/-- The partition among local messages whose turn it is: the greatest deficit, a tie to the lower number; traffic of no partition comes
last (R368, R388; the round robin's bookkeeping is a DESIGN CHOICE, log entry 101). -/
def Link.turn (k : Link) (ms : List QMsg) : Option Nat :=
  (ms.filterMap (·.part)).foldl (fun b p => match b with
    | none => some p
    | some q =>
      let x := k.deficit.get 0 p
      let y := k.deficit.get 0 q
      if y < x ∨ (x = y ∧ p < q) then some p else some q) none

/-- The message a link begins next, in the order of R388: responses, transit, relayed traffic that has waited 1,024 slots, local traffic by
share with contributions before requests, other relayed traffic; the oldest within each. -/
def Link.pick (k : Link) : Option QMsg :=
  let ok := k.queue.filter k.canSend
  let mine := ok.filter QMsg.isLocal
  let turn := k.turn mine
  let own := mine.filter fun m => m.part == turn
  [ok.find? fun m => m.vc == 1, ok.find? (·.fwd), ok.find? fun m => m.relay && decide (1024 ≤ k.slots - m.since)
    , own.find? fun m => m.vc == 2, own.find? fun _ => true, ok.find? (·.relay)].findSome? id

/-- Deficits after `n` flits of a message: every partition with local traffic waiting is given its share, the sender and the partition a
response is owed to pay; a credit lapses with its partition's last waiting message (R388; DESIGN CHOICE, log entry 101). -/
def Link.charged (k : Link) (share : Nat → Nat) (m : QMsg) (n : Nat) : Tab Int :=
  let waiting := (k.queue.filter QMsg.isLocal).filterMap (·.part)
  let given := (List.range 16).foldl (fun (t : Tab Int) p =>
    if waiting.contains p then t.put p (t.get 0 p + (share p * n : Nat)) else if 0 < t.get 0 p then t.drop p else t) k.deficit
  match m.part with
  | some p => if m.fwd then given else given.put p (given.get 0 p - (256 * n : Nat))
  | none => given

/-- One message sent on a link: credits taken, its flits numbered and held for replay (R378, R387). -/
def State.sendOn (s : State) (l : Nat) (m : QMsg) : State :=
  let bodies := flitBodies m
  let s := s.modLink l fun k =>
    { k with queue := k.queue.erase m
             credits := k.credits.set m.pool (k.credits.getD m.pool 0 - bodies.length)
             slots := k.slots + bodies.length
             deficit := k.charged (fun p => s.fld (Pg.pt p + 0x118) 0 9) m bodies.length
             replay := k.replay ++ (List.range bodies.length).map fun i => ((k.txSeq + i) % 4096, bodies.getD i [], 0)
             txSeq := (k.txSeq + bodies.length) % 4096, freed := [0, 0, 0, 0, 0, 0] }
  let h := Msg.ofBytes m.bytes
  let s := s.bump (Pg.lnk l + 0x130) bodies.length
  s.emit (.msg l h.dst h.src h.kind h.group h.tag h.arg h.data)

/-- Messages begun while credits last, `fuel` at most. -/
def State.drainLink (s : State) (l : Nat) : Nat → State
  | 0 => s
  | fuel + 1 =>
    if (s.link l).mode != .up then s
    else match (s.link l).pick with
      | some m => (s.sendOn l m).drainLink l fuel
      | none => s

/-- A message queued on a link and begun when it can. -/
def State.queueOn (s : State) (l : Nat) (m : QMsg) : State :=
  let s := s.modLink l fun k => { k with queue := k.queue ++ [{ m with since := k.slots }] }
  s.drainLink l (s.link l).queue.length

/-- A message of this module sent towards its destination; false where no link of its way is UP (R385). -/
def State.sendMsg (s : State) (m : Msg) (relay : Bool := false) : State × Bool :=
  match s.routeLink m.dst with
  | (s, some l) =>
    let b := (s.bundleOf l).getD 0
    (s.queueOn l { vc := kindVc m.kind, sub := s.subLane b none, relay := relay
                   part := if relay then none else (s.groupSlots m.group)[0]?, bytes := m.bytes }, true)
  | (s, none) => (s, false)

/-- A response to a message: its source, TAG and a status (R392). -/
def State.respond (s : State) (m : Msg) (st : Status) (data : List Byte := []) : State :=
  (s.sendMsg { dst := m.src, src := s.boot.slotId, kind := if m.kind = MKind.relay then MKind.relayResp else MKind.resp
               group := m.group, tag := m.tag, len := data.length, arg := statusCode st, data := data }).1

/-- A message of this module that awaits a response: given a TAG, held, and sent (R393). A message for which no link is UP is
answered `none`: it completes with PEER_LOST. -/
def State.originate (s : State) (dst kind group arg : Nat) (data : List Byte) (len part : Nat) (use : ReqUse) : State × Option Nat :=
  let tag := s.fabric.nextTag
  let m : Msg := { dst := dst, src := s.boot.slotId, kind := kind, group := group, tag := tag, len := len, arg := arg
                   data := data }
  match s.sendMsg m (kind == MKind.relay) with
  | (s, true) =>
    (s.modFabric fun f =>
      { f with nextTag := (f.nextTag + 1) % 65536
               reqs := f.reqs ++ [{ tag := tag, dst := dst, kind := kind, group := group, arg := arg, data := data, len := len, part := part
                                    sentClk := s.clk, use := use }] }, some tag)
  | (s, false) => (s, none)

/-- A request no longer outstanding. -/
def State.dropReq (s : State) (tag : Nat) : State :=
  s.modFabric fun f => { f with reqs := f.reqs.filter fun r => r.tag != tag }

/-- The status a message from a source was answered with, where it is one of the last 512 of that source (R393). -/
def State.answeredAs (s : State) (src tag : Nat) : Option Nat :=
  (s.fabric.answered.find? fun a => a.1 == src && a.2.1 == tag).map fun a => a.2.2

/-- An answer remembered (R393). -/
def State.noteAnswer (s : State) (src tag status : Nat) : State :=
  s.modFabric fun f =>
    let mine := ((src, tag, status) :: f.answered.filter fun a => a.1 == src && a.2.1 != tag).take 512
    { f with answered := mine ++ f.answered.filter fun a => a.1 != src }

/-- A peer is lost (R391). -/
def State.peerIsLost (s : State) (id : Nat) : Bool := (s.fabric.peers.get {} id).lost

/-- The partition of the enabled cadence slot that carries a group (R392). -/
def State.groupPart (s : State) (g : Nat) : Option Nat := (s.groupSlots g)[0]?

end Sys2Proof.Machine
end

