-- ==== Sys2Proof/Machine/Ports.lean ====
section
/-! DEFINITION. The sending side of the Dorondlink ports: the start of training, frames, credits, replay, and the module's own writes and reads of node
memory, by its own port or a relay (R406–R410, R414, R415, R422, R423). -/

namespace Sys2Proof.Machine

/-- A port's state. -/
def State.port (s : State) (i : Nat) : Port := s.ports.get {} i

/-- A port's state changed. -/
def State.modPort (s : State) (i : Nat) (f : Port → Port) : State := { s with ports := s.ports.put i (f (s.port i)) }

/-- The domain a port is bound to (R406). -/
def State.portDomain (s : State) (i : Nat) : Option Nat :=
  let c := s.reg (Pg.port i + 0x100)
  if bit c 6 then some (bits c 4 2) else none

/-- The lowest-numbered UP port bound to a domain (R415, R423). -/
def State.portFor (s : State) (d : Nat) : Option Nat :=
  (List.range 4).find? fun i => (s.port i).mode == .up && s.portDomain i == some d

/-- A transaction header (Table Transaction header). -/
def trHeader (op dst tag len status ack addr : Nat) : List Byte :=
  toLe 1 op ++ toLe 1 (dst % 64) ++ toLe 2 tag ++ toLe 2 (len % 8192) ++ toLe 1 status ++ toLe 1 ack ++ toLe 8 addr

/-- Frames a transaction of `n` bytes takes: each begins a frame and a PAD ends its last (R409). -/
def framesOf (n : Nat) : Nat := ceilDiv n 492

/-- A whole frame with its CRC-32C (Table Frame). -/
def Port.frame (p : Port) (seq vc : Nat) (payload : List Byte) : List Byte :=
  let b := toLe 1 (1 + 4 * b2n p.naked) ++ toLe 1 vc ++ toLe 2 p.reqFreed ++ toLe 2 p.rspFreed ++ toLe 2 seq
    ++ toLe 2 ((65535 + p.rxSeq) % 65536) ++ zeros 6 ++ payload ++ zeros (492 - payload.length)
  b ++ toLe 4 (crc32c b).toNat

/-- A transaction may be sent: credits of its channel, and room among the 4,096 frames held for replay (R409). -/
def Port.canSend (p : Port) (m : PMsg) : Bool :=
  decide (framesOf m.bytes.length ≤ (if m.vc = 1 then p.rspCred else p.reqCred))
    && decide (p.replay.length + framesOf m.bytes.length ≤ 4096)

/-- A transaction sent. -/
def State.sendFrames (s : State) (i : Nat) (m : PMsg) : State :=
  let n := framesOf m.bytes.length
  (s.modPort i fun p =>
    { p with queue := p.queue.erase m
             reqCred := if m.vc = 1 then p.reqCred else p.reqCred - n
             rspCred := if m.vc = 1 then p.rspCred - n else p.rspCred
             replay := p.replay ++ (List.range n).map fun j =>
               ((p.txSeq + j) % 65536, m.vc, (m.bytes.drop (492 * j)).take 492, 0)
             sent := p.sent ++ [((p.txSeq + n - 1) % 65536, m)]
             txSeq := (p.txSeq + n) % 65536, reqFreed := 0, rspFreed := 0 }).emit m.what

/-- Waiting transactions sent while credits last: each channel in its order, responses first (R410). -/
def State.drainPort (s : State) (i : Nat) : Nat → State
  | 0 => s
  | fuel + 1 =>
    let p := s.port i
    let first (vc : Nat) := (p.queue.find? fun m => m.vc == vc).filter p.canSend
    if p.mode != .up then s
    else match (first 1).or (first 0) with
      | some m => (s.sendFrames i m).drainPort i fuel
      | none => s

/-- A transaction handed to a port. -/
def State.portSend (s : State) (i : Nat) (m : PMsg) : State :=
  let s := s.modPort i fun p => { p with queue := p.queue ++ [m] }
  s.drainPort i (s.port i).queue.length

/-- An RSP to the node (R411). -/
def State.sendRsp (s : State) (i tag : Nat) (st : Status) (data : List Byte := []) : State :=
  s.portSend i { vc := 1, bytes := trHeader 0x06 s.boot.slotId tag data.length (statusCode st) 0 0 ++ data
                 what := .rsp i tag st data }

/-- A relay message's ARG: address, operation, sequence number (R422). -/
def relayArg (addr op seq : Nat) : Nat := addr % 2 ^ 52 + 2 ^ 52 * (op % 16) + 2 ^ 56 * (seq % 256)

/-- Traffic for a domain's node that goes by another module: the domain with bit 2 set in `GROUP`, which tells it from a relayed
request (DESIGN CHOICE, log entry 17). -/
def nodeBound (d : Nat) : Nat := d + 4

/-- The relay module of a domain, where `DQ_RELAY` names a live one (R423). -/
def State.relayOf (s : State) (d : Nat) : Option Nat :=
  let r := s.reg (Pg.dq d + 0x138)
  if bit r 8 && !s.peerIsLost (bits r 0 6) then some (bits r 0 6) else none

/-- A RELAY message to a target, numbered for its target and domain (R422). -/
def State.sendRelay (s : State) (dst group op addr : Nat) (data : List Byte) (use : ReqUse) : State × Option Nat :=
  let key := dst * 8 + group
  let seq := s.fabric.relayOut.get 0 key
  match s.originate dst MKind.relay group (relayArg addr op seq) data data.length 0 use with
  | (s, some t) => (s.modFabric fun f => { f with relayOut := f.relayOut.put key ((seq + 1) % 256) }, some t)
  | (s, none) => (s, none)

/-- A write into a domain's node memory; false where the domain has neither an UP port nor a relay (R414, R415, R423). -/
def State.nodeWrite (s : State) (d addr : Nat) (data : List Byte) (use : ReqUse) : State × Bool :=
  match s.portFor d with
  | some i =>
    (s.portSend i { vc := 0, bytes := trHeader 0x04 s.boot.slotId 0 data.length 0 0 addr ++ data
                    what := .nodeWr d addr data }, true)
  | none => match s.relayOf d with
    | some r => match s.sendRelay r (nodeBound d) 0x04 addr data use with
      | (s, t) => (s, t.isSome)
    | none => (s, false)

/-- A read of a domain's node memory sent; false as for a write. -/
def State.nodeRead (s : State) (d addr len : Nat) (use : ReqUse) : State × Bool :=
  match s.portFor d with
  | some i =>
    let tag := s.nodeTag
    let s := { s with nodeTag := (tag + 1) % 65536
                      nodeReqs := s.nodeReqs ++ [(⟨tag, i, s.clk, use⟩ : NodeReq)] }
    (s.portSend i { vc := 0, bytes := trHeader 0x03 s.boot.slotId tag len 0 0 addr
                    what := .nodeRd d tag addr len }, true)
  | none => match s.relayOf d with
    | some r => match s.sendRelay r (nodeBound d) 0x03 addr (toLe 8 len) use with
      | (s, t) => (s, t.isSome)
    | none => (s, false)

/-! ### Bring-up (R406, R407) -/

/-- The module's IDENT on a port (R407). -/
def State.portIdent (s : State) (i : Nat) : State :=
  s.emit (.portMsg i 1 (toLe 2 (s.fld (Pg.fab + 0x100) 16 16) ++ toLe 1 s.boot.slotId ++ toLe 1 i ++ toLe 4 s.fabric.epoch))

/-- Training begins: numbers and credits start anew, IDENT goes out. -/
def State.portTrain (s : State) (i : Nat) : State :=
  (s.modPort i fun p =>
    { p with mode := .training, cause := 0, identOk := false, trainClk := s.clk, delays := [], txSeq := 0, rxSeq := 0, replay := []
             sent := [], naked := false, reqCred := 0, rspCred := 0, reqFreed := 2048, rspFreed := 2048, reqIn := []
             rspIn := [] }).portIdent i

end Sys2Proof.Machine
end

