-- ==== Sys2Proof/Machine/Reset.lean ====
section
/-! DEFINITION. Full module reset, the mask ROM, the two FAULT states and the FAULT_N pin
(R466–R477, R501–R504). -/

namespace Sys2Proof.Machine

/-- A full module reset: only the boot flash, the reset-cause latch and the model's own record survive; the queue of
commands is the sender's (R466, R468). -/
def State.moduleReset (s : State) (cause wcount : Nat) : State :=
  { State.reset with
    mem := s.mem.filter fun c => 8 * 2 ^ 60 ≤ c.1
    boot := { phase := .held, cause := cause, wcount := wcount, pwrGood := s.boot.pwrGood
              resetLow := s.boot.resetLow, flashAddr := s.boot.flashAddr
              flashBusy := s.boot.flashBusy, flashFail := s.boot.flashFail, flashOp := s.boot.flashOp }
    out := s.out, free := s.free, pending := s.pending }

/-- A module in ROM FAULT: no verified firmware runs, DLK0 is UP and bound to D0, FAULT_N is asserted (R477). -/
def State.romFault (s : State) (st : Status) : State :=
  (({ s with
      boot := { s.boot with phase := .romFault, fault := st, faultN := true
                            bootUs := s.clk / usTicks, armed := false } }).portTrain 0).modPort 0 fun p => { p with mode := .up }

/-- Every peer link OFF (R477). -/
def State.linksOff (s : State) : State :=
  (List.range 96).foldl (fun s l =>
    if (s.link l).mode = .off then s else s.modLink l fun k => { k with mode := .off }) s

/-- The module enters firmware FAULT: FAULT_N asserted, every peer link OFF, no engine runs (R477). -/
def State.fwFault (s : State) (st : Status) : State :=
  if s.boot.phase = .fwFault ∨ s.boot.phase = .romFault then s
  else
    (s.modBoot fun b => { b with phase := .fwFault, fault := st, faultN := true
                                 bootUs := if b.phase = .ready then b.bootUs else s.clk / usTicks }).linksOff

/-- A fatal condition: memory traffic stops, and the module goes to firmware FAULT (R35, R477, R492, R504). -/
def State.fatal (s : State) : State := (s.modBoot fun b => { b with memStop := true }).fwFault .fault

/-! ### The mask ROM -/

/-- `n` bytes of the boot flash. -/
def State.flash (s : State) (o n : Nat) : List Byte := s.rdMem .flash o n

/-- Offset of an image slot: false A, true B (R469). -/
def imageBase (b : Bool) : Nat := if b then 0x1900000 else 0x0100000

/-- Offset of a configuration record copy (R469). -/
def recordBase (c : Nat) : Nat := 0x3100000 + 0x10000 * c

/-- A directory copy holds when its CRC-64 does: (SEQ, active slot) (R469). -/
def State.dirCopy (s : State) (c : Nat) : Option (Nat × Bool) :=
  let d := s.flash (0x1000 * c) 16
  if (crc64 (d.take 8)).toNat = field d 8 8 then some (field d 0 4, field d 4 1 == 1) else none

/-- The active slot: the copy that holds with the higher SEQ, slot A if neither does (R469). -/
def State.activeSlot (s : State) : Bool :=
  match s.dirCopy 0, s.dirCopy 1 with
  | some a, some b => if b.1 < a.1 then a.2 else b.2
  | some a, none => a.2
  | none, some b => b.2
  | none, none => false

/-- An image slot may boot (R474): `minSvn` and `minMace` come from the record. -/
def State.imageOk (s : State) (slotB : Bool) (fwKey : List Byte) (minSvn minMace : Nat) : Bool :=
  let h := s.flash (imageBase slotB) 256
  let len := field h 12 4
  let fwLen := field h 16 4
  field h 0 2 == 1 && signedBlock fwKey h && decide (minSvn ≤ field h 6 2)
    && decide (minMace ≤ field h 8 4) && decide (len ≤ 24 * 2 ^ 20 - 256) && decide (fwLen ≤ len)
    && decide (len - fwLen ≤ 16 * 2 ^ 20)
    && (h.drop 64).take 64 == shake256 (s.flash (imageBase slotB + 256) len) 64

/-- The configuration record copy in force: the one whose signature holds with the higher VERSION (R473). -/
def State.recordCopy (s : State) (key : List Byte) : Option Nat :=
  let ok (c : Nat) := signedBlock key (s.flash (recordBase c) 256)
  let v (c : Nat) := field (s.flash (recordBase c) 256) 2 2
  if ok 0 && ok 1 then some (if v 0 < v 1 then 1 else 0)
  else if ok 0 then some 0 else if ok 1 then some 1 else none

/-- The fitting is one of the three variants: (STACKS, LINKS, BULK) (R473, Table Uluan variants). -/
def fittingOk (tolvys links bulk : Nat) : Bool :=
  (tolvys, links, bulk) == (0x0FFF, 96, 1) || (tolvys, links, bulk) == (0x0FFF, 96, 0)
    || (tolvys, links, bulk) == (0x03CF, 64, 1)

/-- The identity a record gives (R473). -/
def identOf (r : List Byte) (copy : Nat) : Ident :=
  { recVersion := field r 2 2, serial := field r 8 8, lot := field r 16 4, wafer := field r 20 1
    dieX := field r 21 1, dieY := field r 22 1, tolvys := field r 24 2 % 4096, links := field r 26 1
    bulk := field r 27 1 % 2 == 1, minSvn := field r 32 2, minMace := field r 34 4
    devkeyDig := (r.drop 64).take 32, record := r, recCopy := copy }

/-- The image a slot holds, added to the identity (R474). -/
def State.withImage (s : State) (i : Ident) (slotB fallback : Bool) : Ident :=
  let h := s.flash (imageBase slotB) 256
  { i with fwMajor := field h 2 2, fwMinor := field h 4 2, svn := field h 6 2
           bodyDig := (h.drop 64).take 64, slotB := slotB, fallback := fallback }

/-- The Mace content of an image: what follows its firmware part (R474). -/
def State.imageMace (s : State) (slotB : Bool) : MaceState :=
  let h := s.flash (imageBase slotB) 256
  { version := field h 8 4
    digest := shake256 (s.flash (imageBase slotB + 256 + field h 16 4) (field h 12 4 - field h 16 4)) 32 }

/-- The mask ROM's work: key, record, image, and the start of the Anise cores on it (R471–R475). The first failed check stops
the boot in ROM FAULT. -/
def State.romBoot (s : State) : State :=
  let s := { s with ident := { s.ident with bootWcount := s.boot.wcount } }
  match Config.chainKeys (s.flash 0x3120000 0x10000), Config.devicePub (s.flash 0x3130000 0x10000) with
  | some (recKey, fwKey), some pub =>
    match s.recordCopy recKey with
    | none => s.romFault .fault
    | some c =>
      let r := s.flash (recordBase c) 256
      let i := { identOf r c with keyOk := true, bootWcount := s.boot.wcount }
      if field r 0 2 != 1 || i.devkeyDig != keyDigest pub
          || !fittingOk (field r 24 2) (field r 26 1) (field r 27 1) then
        ({ s with ident := { s.ident with keyOk := i.devkeyDig == keyDigest pub } }).romFault .fault
      else if 3 ≤ s.boot.wcount then { s with ident := i }.romFault .fault
      else
        let first := if s.boot.wcount = 2 then !s.activeSlot else s.activeSlot
        let good (b : Bool) := s.imageOk b fwKey i.minSvn i.minMace
        if !good first && !good (!first) then { s with ident := i }.romFault .fault
        else
          let slotB := if good first then first else !first
          let s := { s with ident := s.withImage i slotB (slotB != s.activeSlot), mace := s.imageMace slotB }
          let s := s.modBoot fun b => { b with phase := .cores, armed := true, beatClk := s.clk, cores := 0xFF }
          let s := s.setFld (Pg.port 0 + 0x100) 0 1 1
          s.portTrain 0
  | _, _ => s.romFault .fault

/-- RESET_RELEASE: boot time 0, SLOT_ID sampled, an epoch drawn, CT starts at 0, and the ROM runs to its end unless it hangs
(R475, R501, R502). -/
def State.resetRelease (s : State) (straps : Nat) (hangs : Bool) : State :=
  if s.boot.phase = .held ∧ s.boot.pwrGood then
    let s := { s with clk := 0
                      boot := { s.boot with phase := .rom, resetLow := false, slotId := straps
                                            faultN := false }
                      time := { running := true } }
    let s := (s.modFabric fun f => { f with epoch := s.freeVal.toNat % 2 ^ 32 }).useFree
    if hangs then s else s.romBoot
  else s

/-- ROM_BOOT_TIMEOUT: the cores are not started within 200 ms of the release (R467). -/
def State.romTimeout (s : State) : State :=
  if s.boot.phase = .rom then (s.waitClk (200000 * usTicks)).romFault .fault else s

/-- RESET_N_LOW: eight low samples, 250 ns apart, are recognised as a reset while the module runs; the pin then holds the module (R501). -/
def State.resetPin (s : State) : State :=
  if s.boot.pwrGood ∧ s.boot.phase ≠ .held then
    ((s.advance 8000).modBoot fun b => { b with resetLow := true }).moduleReset 1 s.boot.wcount
  else s.modBoot fun b => { b with resetLow := true }

/-- WATCHDOG_EXPIRE: `AN_BEAT` has not advanced for 10 ms while the watchdog is armed (R466–R468). -/
def State.watchdog (s : State) : State :=
  if s.boot.armed then
    let s := s.waitClk (s.boot.beatClk + 10000 * usTicks)
    s.moduleReset 3 (min 3 (s.boot.wcount + 1))
  else s

/-- POWER_UP: the input is in 40–60 V, the rails are good, PWR_GOOD goes high; the latch is cleared (R468, R501). -/
def State.powerUp (s : State) : State :=
  if s.boot.phase = .unpowered then
    (s.modBoot fun b => { b with pwrGood := true, phase := .held }).moduleReset 0 0
  else s

/-- INPUT_FAULT: input out of range drops PWR_GOOD, resets the module and turns its rails off (R499). -/
def State.inputFault (s : State) : State :=
  let s := (s.modBoot fun b => { b with pwrGood := false }).moduleReset 0 0
  s.modBoot fun b =>
    { b with phase := .unpowered, pwrGood := false, flashBusy := false, flashOp := none, flashAddr := 0, flashFail := false }

end Sys2Proof.Machine
end

