-- ==== Sys2Proof/Machine/Smbus.lean ====
section
/-! DEFINITION. Board management over SMBus, served whenever PWR_GOOD is high (R505, R506). -/

namespace Sys2Proof.Machine

/-- A transaction is answered when PWR_GOOD is high and its PEC passes; otherwise it is NACKed with no effect (R505). -/
def State.smbAnswer (s : State) (pec : Bool) (data : List Byte) : State :=
  if s.boot.pwrGood && pec then s.emit (.smb true data) else s.emit (.smb false [])

/-- A transaction refused. -/
def State.smbNack (s : State) : State := s.emit (.smb false [])

/-- MOD_STATE: state, reset cause, RESET_N held, fault status (R505). -/
def State.modState (s : State) (pec : Bool) : State :=
  s.smbAnswer pec (toLe 2 (s.gidState + 8 * s.boot.cause + 128 * b2n s.boot.resetLow
    + 256 * statusCode s.boot.fault))

/-- MOD_SERIAL. -/
def State.modSerial (s : State) (pec : Bool) : State := s.smbAnswer pec (toLe 8 s.ident.serial)

/-- The mean of the last `n` power samples, of those taken if fewer. -/
def PowerState.mean (p : PowerState) (n : Nat) : Nat :=
  let l := p.samples.take n
  if l.isEmpty then 0 else l.foldl (· + ·) 0 / l.length

/-- INPUT_V: a reading not yet taken reads 0x8000 (R505). -/
def State.inputV (s : State) (pec : Bool) : State :=
  s.smbAnswer pec (toLe 2 (s.power.vin.getD 0x8000))

/-- INPUT_P: P50. -/
def State.inputP (s : State) (pec : Bool) : State :=
  s.smbAnswer pec (toLe 2 (if s.power.samples.isEmpty then 0x8000 else s.power.mean 50))

/-- The hottest die report with its sensor, the lowest-numbered of equals. -/
def PowerState.hottest (p : PowerState) : Option (Int × Nat) :=
  p.temps.items.foldl (fun b e => match b with
    | none => some (e.2, e.1)
    | some (t, i) => if t < e.2 then some (e.2, e.1) else some (t, i)) none

/-- TEMP_DIE. -/
def State.tempDie (s : State) (pec : Bool) : State :=
  s.smbAnswer pec (toLe 2 (match s.power.hottest with | some (t, _) => unsigned 16 t | none => 0x8000))

/-- TEMP_COOL, with what the outlet's sensor has newly measured. -/
def State.tempCool (s : State) (pec : Bool) (reading : Option Int) : State :=
  let s := match reading with
    | some t => s.modPower fun p => { p with coolant := some t }
    | none => s
  s.smbAnswer pec (toLe 2 (match s.power.coolant with | some t => unsigned 16 t | none => 0x8000))

/-- SLOT: SLOT_ID as sampled. -/
def State.smbSlot (s : State) (pec : Bool) : State := s.smbAnswer pec (toLe 1 s.boot.slotId)

/-- Flash commands are accepted only while RESET_N is held low (R505). -/
def State.flashOpen (s : State) (pec : Bool) : Bool := s.boot.pwrGood && pec && s.boot.resetLow

/-- FLASH_ADDR: the flash byte address, 32-byte aligned. -/
def State.flashAddrWrite (s : State) (pec : Bool) (addr : Nat) : State :=
  if s.flashOpen pec && aligned addr 32 then
    (s.modBoot fun b => { b with flashAddr := addr }).emit (.smb true [])
  else s.smbNack

/-- FLASH_DATA read: 32 bytes, and the address advances; reads are accepted at any address but while busy (R506). -/
def State.flashRead (s : State) (pec : Bool) : State :=
  if s.flashOpen pec && !s.boot.flashBusy then
    let a := s.boot.flashAddr
    let d := s.flash a 32
    (s.modBoot fun b => { b with flashAddr := a + 32 }).emit (.smb true d)
  else s.smbNack

/-- The area the board may write: slot directory and image slots (R506). -/
def flashWritable (a : Nat) : Bool := decide (a < 0x3100000)

/-- FLASH_DATA write: busy until FLASH_OP_DONE; the address advances (R506). -/
def State.flashWrite (s : State) (pec : Bool) (data : List Byte) : State :=
  let a := s.boot.flashAddr
  if s.flashOpen pec && !s.boot.flashBusy && flashWritable a then
    (s.modBoot fun b => { b with flashBusy := true, flashOp := some (a, data), flashAddr := a + 32 }).emit
      (.smb true [])
  else s.smbNack

/-- FLASH_ERASE: the value 0x5A erases the 64 KiB sector holding the address (R505, R506). -/
def State.flashErase (s : State) (pec : Bool) (value : Byte) : State :=
  let a := s.boot.flashAddr
  if s.flashOpen pec && !s.boot.flashBusy && flashWritable a && value == 0x5A then
    (s.modBoot fun b => { b with flashBusy := true, flashOp := some (a / 0x10000 * 0x10000, []) }).emit
      (.smb true [])
  else s.smbNack

/-- FLASH_STAT: busy, and whether the last write or erase failed; one of the flash commands, so only while RESET_N is held low
(R505). -/
def State.flashStat (s : State) (pec : Bool) : State :=
  if s.flashOpen pec then s.emit (.smb true (toLe 1 (b2n s.boot.flashBusy + 2 * b2n s.boot.flashFail))) else s.smbNack

/-- FLASH_OP_DONE: the write or erase ends; one that fails leaves the flash as it was (R506; what a failed one leaves is the
model's choice, log entry 11). A write stores its bytes, an erase leaves ones. -/
def State.flashDone (s : State) (fails : Bool) : State :=
  match s.boot.flashOp with
  | none => s
  | some (a, data) =>
    let s := s.modBoot fun b => { b with flashBusy := false, flashOp := none, flashFail := fails }
    if fails then s
    else if data.isEmpty then s.clrMem .flash a 0x10000
    else s.wrMem .flash a data

end Sys2Proof.Machine
end

