-- ==== Sys2Proof/Machine/Power.lean ====
section
/-! DEFINITION. The power cap, the die-temperature loop and the clock step (ch. 21). -/

namespace Sys2Proof.Machine

/-- `PWR_CLK_CTRL`. -/
def clkCtrl : Nat := Pg.pwr + 0x100
/-- Lowest clock step. -/
def State.clkFloor (s : State) : Nat := s.fld clkCtrl 0 5
/-- Highest clock step. -/
def State.clkCeil (s : State) : Nat := s.fld clkCtrl 8 5
/-- The clock is held at its floor. -/
def State.clkPin (s : State) : Bool := bit (s.reg clkCtrl) 16
/-- The cap C in W: above 1,500 as 1,500, below 900 as 900. -/
def State.powerCap (s : State) : Nat := max 900 (min 1500 (s.fld (Pg.pwr + 0x108) 0 11))
/-- `HOT` in 1/16 °C. -/
def State.hotLimit (s : State) : Int := ((s.fld (Pg.pwr + 0x110) 0 7 * 16 : Nat) : Int)

/-- Adaptive loops whose bounds can exclude their value (R488): 0 the clock, 16 + t the throttle of stack t, 32 + p the placement of
partition p. -/
def State.boundPending (s : State) (i : Nat) : Bool := s.power.boundClk.items.any fun e => e.1 == i

/-- A power event; bits 0, 3 and 4 are recorded every time, the others on their 0-to-1 change (R494). -/
def State.raisePower (s : State) (b : Nat) : State :=
  s.raise Pg.pwr b
    { onChange := b == 1 || b == 2 || b == 5
      err := if b = 4 then some ({ sev := 4 }, []) else none }

/-- The loops run from the release of reset (R495). -/
def State.loopsRun (s : State) : Bool := s.boot.pwrGood && s.boot.phase != .held && s.boot.phase != .unpowered

/-- The limit that overrides the bounds, where one holds the clock below FLOOR (R489). -/
def State.overStep (s : State) : Option Nat :=
  let w := s.power
  let held (on : Bool) (n : Nat) : Option Nat := if on && decide (n < s.clkFloor) then some n else none
  match held w.pOver w.pstep, held w.tOver w.tstep with
  | some a, some b => some (min a b)
  | a, b => a.or b

/-- The step the limits call for (R493): below FLOOR only while a limit that overrides the bounds holds it there. -/
def State.wantStep (s : State) : Nat :=
  let lim := min s.power.pstep s.power.tstep
  match s.overStep with
  | some n => if s.boundPending 0 then min s.power.step n else n
  | none =>
    if s.boundPending 0 then min s.power.step lim
    else if s.clkPin then s.clkFloor
    else max s.clkFloor (min lim s.clkCeil)

/-- The new target step, and the events of being held out of bounds and of being limited (R489, R494). -/
def State.settle (s : State) : State :=
  let wasOver := s.power.override
  let s := s.modPower fun p =>
    { p with pOver := p.pOver && decide (p.pstep < s.clkFloor), tOver := p.tOver && decide (p.tstep < s.clkFloor) }
  let holds := s.overStep.isSome
  let s := s.modPower fun p => { p with target := s.wantStep, override := holds }
  if holds && !wasOver then s.raisePower 1 else s

/-- PSTEP is below CEIL, or stack slots are withheld. -/
def State.capLimited (s : State) : Bool := decide (s.power.pstep < s.clkCeil) || decide (0 < s.power.plevel)

/-- CAP_LIMITED when limiting begins. -/
def State.capEvent (s : State) (was : Bool) : State := if s.capLimited && !was then s.raisePower 5 else s

/-- POWER_SAMPLE: every 1 µs a sample is taken, energy and times counted, and the fast path checked (R491). -/
def State.powerSample (s : State) (watts vin : Nat) : State :=
  if !s.loopsRun then s else
  let s := s.periodic 1 usTicks
  let s := s.modPower fun p =>
    { p with samples := (watts :: p.samples).take 1000, vin := some vin, energyUj := p.energyUj + watts }
  let s := s.bump (Pg.pwr + 0x138) (b2n s.capLimited)
  let s := s.bump (Pg.pwr + 0x140) (b2n (decide (s.power.tstep < s.clkCeil)))
  let s := s.bump (Pg.pwr + 0x148) (b2n s.power.override)
  if (1800 < watts || s.powerCap + 150 < s.power.mean 50) && s.power.emergUntil.isNone then
    let was := s.capLimited
    let s := s.modPower fun p =>
      { p with pstep := 0, plevel := 8, pOver := true, headroom := 0, emergUntil := some (s.clk + 100 * usTicks) }
    ((s.raisePower 0).capEvent was).settle
  else s

/-- EMERG_HOLD_END: after 100 µs the fast path lets go (R491). -/
def State.emergEnd (s : State) : State :=
  match s.power.emergUntil with
  | some t => (s.waitClk t).modPower fun p => { p with emergUntil := none }
  | none => s

/-- The power-cap loop at one evaluation (R490). -/
def State.capLoop (s : State) : State :=
  let p50 := s.power.mean 50
  let c := s.powerCap
  let m := c / 50
  let was := s.capLimited
  let head := if p50 + 3 * m < c then s.power.headroom + 1 else 0
  let s := s.modPower fun p => { p with headroom := head }
  let s :=
    if c - m < p50 then
      if s.clkFloor < s.power.pstep then s.modPower fun p => { p with pstep := p.pstep - 1 }
      else if s.power.plevel < 8 then s.modPower fun p => { p with plevel := p.plevel + 1 }
      else s.modPower fun p => { p with pstep := p.pstep - 1, pOver := true }
    else if 20 ≤ head then
      if s.power.pstep < s.clkFloor then s.modPower fun p => { p with pstep := p.pstep + 1 }
      else if 0 < s.power.plevel then s.modPower fun p => { p with plevel := p.plevel - 1 }
      else if s.power.pstep < s.clkCeil then s.modPower fun p => { p with pstep := p.pstep + 1 }
      else s
    else s
  s.capEvent was

/-- The die thermal loop at one evaluation (R492). -/
def State.dieLoop (s : State) : State :=
  match s.power.hottest with
  | none => s
  | some (t, _) =>
    let s := if s.power.crit && decide (t < 103 * 16) then s.modPower fun p => { p with crit := false } else s
    if s.hotLimit ≤ t then
      let s := if s.clkFloor < s.power.tstep then s.modPower fun p => { p with tstep := p.tstep - 1 } else s
      s.raisePower 2
    else if t < s.hotLimit - 32 ∧ !s.power.crit ∧ s.power.tstep < s.clkCeil then
      s.modPower fun p => { p with tstep := p.tstep + 1 }
    else s

/-- LOOP_EVALUATE: both loops at the next CT multiple of 200,000 ticks (R490, R492). -/
def State.loopEvaluate (s : State) : State :=
  if !s.loopsRun || !s.time.running then s else
  let ix := max (s.power.evalIx + 1) (ceilDiv s.ct 200000)
  let s := s.waitCt (200000 * ix)
  let s := s.modPower fun p => { p with evalIx := ix }
  let s := if s.power.emergUntil.isSome then s else s.capLoop
  s.dieLoop.settle

/-- The trim of the core supply in mV (R485). -/
def coreTrimMv : Int := clampInt (-15) 15 Config.coreTrim

/-- The core supply at a step, in whole mV: the spec states no rounding of the half (R485; DESIGN CHOICE, log entry 102). -/
def vcore (n : Nat) : Nat := (((6500 + 125 * n : Nat) : Int) / 10 + coreTrimMv).toNat

/-- CLOCK_STEP_CHANGE: the step in force moves one step towards what the limits call for; one step takes 2 µs (R486). -/
def State.clockChange (s : State) : State :=
  let p := s.power
  if p.step < p.target then (s.advance (2 * usTicks)).modPower fun p => { p with step := p.step + 1 }
  else if p.target < p.step then (s.advance (2 * usTicks)).modPower fun p => { p with step := p.step - 1 }
  else s

/-- A die past its fatal limit, or a lost sensor, stops the module (R492). -/
def State.dieFatal (s : State) : State := (s.raisePower 4).fatal

/-- DIE_SENSOR_REPORT: one sensor's report against the critical and fatal limits (R492). -/
def State.dieReport (s : State) (sensor : Nat) (t : Int) : State :=
  if !s.loopsRun then s else
  let s := s.modPower fun p => { p with temps := p.temps.put sensor t, missed := p.missed.put sensor 0 }
  if 115 * 16 ≤ t then s.dieFatal
  else if 105 * 16 ≤ t then
    ((s.modPower fun p => { p with tstep := 0, crit := true, tOver := true }).raisePower 3).settle
  else s

/-- DIE_SENSOR_MISS: the eighth report missed in a row is fatal (R492). -/
def State.dieMiss (s : State) (sensor : Nat) : State :=
  if !s.loopsRun then s else
  let n := s.power.missed.get 0 sensor + 1
  let s := s.modPower fun p => { p with missed := p.missed.put sensor n }
  if 8 ≤ n then s.dieFatal else s

/-- A write of `PWR_CLK_CTRL` (R487, R488): bounds out of range or crossed are ignored with ACCESS; bounds that exclude the
present step leave it until the next step boundary. -/
def State.clkCtrlWrite (s : State) (v : Word) : State :=
  let fl := bits v 0 5
  let ce := bits v 8 5
  if 16 < fl || 16 < ce || ce < fl then s.ends .access
  else
    let s := (s.setReg clkCtrl (v &&& 0x11F1F#64)).ends .ok
    let ok := fl ≤ s.power.step ∧ s.power.step ≤ ce ∧ (bit v 16 → s.power.step = fl)
    if ok then (s.modPower fun p => { p with boundClk := p.boundClk.drop 0 }).settle
    else s.modPower fun p => { p with boundClk := p.boundClk.put 0 s.clk }

/-- `PWR_STAT`. -/
def State.pwrStat (s : State) : Word :=
  let p := s.power
  pack [(p.step, 0), (p.pstep, 8), (p.tstep, 16), (p.plevel, 24), (b2n p.override, 28)
      , (b2n p.emergUntil.isSome, 29), (vcore p.step, 32)]

/-- `PWR_INPUT`. -/
def State.pwrInput (s : State) : Word :=
  let p := s.power
  pack [(p.samples.headD 0, 0), (p.mean 50, 16), (p.mean 1000, 32), (p.vin.getD 0, 48)]

/-- `PWR_TEMP`. -/
def State.pwrTemp (s : State) : Word :=
  match s.power.hottest with
  | some (t, i) => pack [(unsigned 16 t, 0), (i, 16)]
  | none => 0

/-- `PWR_ENERGY` in mJ. -/
def State.pwrEnergy (s : State) : Word := word (sat maxWord (s.power.energyUj / 1000))

/-- REFCLK_LOSS: fatal; every peer link and port stops, firmware FAULT, a FATAL record (R504). -/
def State.refclkLoss (s : State) : State :=
  if !s.loopsRun then s else
  let s := s.logErr { type := 0x0100, cls := 0x0060, sev := 4, status := statusCode .fault } []
  let s := { s with ports := s.ports.mapVals fun q =>
    if q.mode = PortMode.training ∨ q.mode = PortMode.up then { q with mode := .down, downClk := s.clk } else q }
  (s.modTime fun t => { t with running := false }).fatal

end Sys2Proof.Machine
end

