-- ==== Sys2Proof/Machine/Rs.lean ====
section
/-! DEFINITION. The outer code of the memory tiers: RS(72,64) over GF(2^8) with the polynomial 0x11D (R254), and its
decoder of bounded radius (R256, R287). -/

namespace Sys2Proof.Machine

/-- A field element times α. -/
def gfX (a : Byte) : Byte := if a.getLsbD 7 then (a <<< 1) ^^^ 0x1D else a <<< 1

/-- Product in GF(2^8): the bits of `b` from the most significant down. -/
def gfMul (a b : Byte) : Byte :=
  (List.range 8).foldl (fun r i => let r := gfX r; if b.getLsbD (7 - i) then r ^^^ a else r) 0

/-- A power in GF(2^8). -/
def gfPow (a : Byte) : Nat → Byte
  | 0 => 1
  | n + 1 => gfMul a (gfPow a n)

/-- α^n. -/
def gfAlpha (n : Nat) : Byte := (List.range (n % 255)).foldl (fun r _ => gfX r) 1

/-- The inverse of a nonzero element: its 254th power. -/
def gfInv (a : Byte) : Byte :=
  let a2 := gfMul a a
  let a4 := gfMul a2 a2
  let a8 := gfMul a4 a4
  let a16 := gfMul a8 a8
  let a32 := gfMul a16 a16
  let a64 := gfMul a32 a32
  let a128 := gfMul a64 a64
  gfMul a2 (gfMul a4 (gfMul a8 (gfMul a16 (gfMul a32 (gfMul a64 a128)))))

/-- A polynomial, lowest coefficient first, at a point. -/
def gfEval (p : List Byte) (x : Byte) : Byte := p.foldr (fun c acc => gfMul acc x ^^^ c) 0

/-- The generator g(x) = (x − α^0)…(x − α^7), lowest coefficient first, without its leading one (R254). -/
def rsGen : List Byte :=
  ((List.range 8).foldl (fun (g : List Byte) i =>
    let a := gfAlpha i
    (List.range (g.length + 1)).map fun j =>
      (if j = 0 then 0 else g.getD (j - 1) 0) ^^^ gfMul a (g.getD j 0)) [1]).take 8

/-- The check bytes p_0 to p_7 of 64 data bytes: the remainder of d(x)·x^8 by g(x), highest coefficient first (R254). -/
def rsCheck (d : List Byte) : List Byte :=
  let g := rsGen
  -- the remainder, lowest coefficient first
  let r := d.foldl (fun (r : List Byte) b =>
    let f := b ^^^ r.getD 7 0
    (List.range 8).map fun j => (if j = 0 then 0 else r.getD (j - 1) 0) ^^^ gfMul f (g.getD j 0))
    (List.replicate 8 0)
  r.reverse

/-- Bytes XORed. -/
def xorBytes (a b : List Byte) : List Byte := List.zipWith (· ^^^ ·) a b

/-- The syndromes S_0 to S_7 of an error in the check bytes alone: what a stored sector's syndromes are, since the code is
linear. Check byte p_k is the coefficient of x^(7−k). -/
def rsSyndromes (chkErr : List Byte) : List Byte :=
  (List.range 8).map fun i => gfEval chkErr.reverse (gfAlpha i)

/-- One round of Berlekamp–Massey: (locator, previous locator, length, gap, previous discrepancy). -/
def bmStep (syn : List Byte) (st : List Byte × List Byte × Nat × Nat × Byte) (n : Nat) :
    List Byte × List Byte × Nat × Nat × Byte :=
  let (c, b, l, m, bb) := st
  let d := (List.range l).foldl (fun d i => d ^^^ gfMul (c.getD (i + 1) 0) (syn.getD (n - (i + 1)) 0))
    (syn.getD n 0)
  if d = 0 then (c, b, l, m + 1, bb)
  else
    let k := gfMul d (gfInv bb)
    let c' := (List.range 9).map fun j =>
      c.getD j 0 ^^^ (if j < m then 0 else gfMul k (b.getD (j - m) 0))
    if 2 * l ≤ n then (c', c, n + 1 - l, 1, d) else (c', b, l, m + 1, bb)

/-- The error locator of eight syndromes with its degree. -/
def rsLocator (syn : List Byte) : List Byte × Nat :=
  let r := (List.range 8).foldl (bmStep syn) ([1], [1], 0, 1, 1)
  (r.1, r.2.2.1)

/-- Positions j (coefficient of x^j, 0–71) at which the locator has a root. -/
def rsRoots (loc : List Byte) : List Nat :=
  (List.range 72).filter fun j => gfEval loc (gfAlpha (255 - j)) == 0

/-- The value of the error at position j (Forney, first root α^0). -/
def rsValue (syn loc : List Byte) (l j : Nat) : Byte :=
  let omega := (List.range l).map fun i =>
    (List.range (i + 1)).foldl (fun a t => a ^^^ gfMul (syn.getD t 0) (loc.getD (i - t) 0)) 0
  let x := gfAlpha j
  let xi := gfAlpha (255 - j)
  let deriv := (List.range 9).foldl (fun a i =>
    if i % 2 = 1 then a ^^^ gfMul (loc.getD i 0) (gfPow xi (i - 1)) else a) 0
  gfMul x (gfMul (gfEval omega xi) (gfInv deriv))

/-- The decoder with radius `tc`: the errors (position, value) of the one codeword within `tc` symbols, `none` when there is
none (R256). -/
def rsDecode (tc : Nat) (chkErr : List Byte) : Option (List (Nat × Byte)) :=
  let syn := rsSyndromes chkErr
  if syn.all (· == 0) then some []
  else
    let (loc, l) := rsLocator syn
    let roots := rsRoots loc
    if tc < l || roots.length != l then none
    else
      let errs := roots.map fun j => (j, rsValue syn loc l j)
      let back := (List.range 8).map fun i =>
        errs.foldl (fun a e => a ^^^ gfMul e.2 (gfAlpha (i * e.1))) 0
      if back == syn && errs.all (fun e => e.2 != 0) then some errs else none

/-- Data bytes with the errors of a decoding taken out: data byte j is the coefficient of x^(71−j). -/
def rsFix (d : List Byte) (errs : List (Nat × Byte)) : List Byte :=
  (List.range 64).map fun j =>
    errs.foldl (fun b e => if e.1 = 71 - j then b ^^^ e.2 else b) (d.getD j 0)

/-- What a set of flipped symbols does to a stored sector: flips at symbol positions 0–63 (data) and 64–71 (check). Answers
the new data and the new difference between stored and computed check bytes. -/
def rsFlip (d chkErr : List Byte) (flips : List (Nat × Byte)) : List Byte × List Byte :=
  let d' := (List.range 64).map fun j =>
    flips.foldl (fun b f => if f.1 = j then b ^^^ f.2 else b) (d.getD j 0)
  let stored := (List.range 8).map fun k =>
    flips.foldl (fun b f => if f.1 = 64 + k then b ^^^ f.2 else b)
      (chkErr.getD k 0 ^^^ (rsCheck d).getD k 0)
  (d', xorBytes stored (rsCheck d'))

end Sys2Proof.Machine
end

