-- ==== Sys2Proof/Machine/DevMem.lean ====
section
/-! DEFINITION. Device memory: regions, placement, spreading windows, sector reads and writes with their error codes, stale
rows (R7, R241–R246, R253–R258, R271–R275, R285–R297, R366). -/

namespace Sys2Proof.Machine

/-! ### Regions (R366) -/

/-- A memory region as committed. -/
structure RegionCfg where
  base : Nat
  count : Nat
  mode : Nat
  part : Nat
  share : Nat
  poison : Bool

/-- Region `r` of the region table. -/
def State.memRegion (s : State) (r : Nat) : RegionCfg :=
  let rng := s.reg (keyAt (Pg.sec + 0x808) r)
  let cfg := s.reg (keyAt (Pg.sec + 0x810) r)
  { base := bits rng 0 21, count := bits rng 32 21, mode := bits cfg 0 2, part := bits cfg 4 4
    share := bits cfg 16 16, poison := bit cfg 32 }

/-- The region that holds a unit, with its index. -/
def State.regionOfUnit (s : State) (u : Nat) : Option (Nat × RegionCfg) :=
  ((List.range 64).map fun r => (r, s.memRegion r)).find? fun r =>
    r.2.mode != 0 && decide (r.2.base ≤ u) && decide (u < r.2.base + r.2.count)

/-- Bytes in a migration unit. -/
def unitBytes : Nat := 2 * 2 ^ 20

/-- End of the unified range (R7). -/
def State.devEnd (s : State) : Nat := unitBytes * s.units

/-- Who makes an access. -/
inductive Accessor where
  /-- A transfer, sequence or unit of a partition; `ctl` for slots of the control-port engines (R366). -/
  | part (p : Nat) (ctl : Bool)
  /-- A domain's own remote access or mailbox. -/
  | dom (d : Nat)
  deriving DecidableEq, Repr

/-- A region may be read by an accessor; the steward reads every region, and a region just added to an ACTIVE partition is not usable
yet (R366, R367, R413). -/
def State.regionReads (s : State) (r : RegionCfg) : Accessor → Bool
  | .part p _ =>
    (r.mode == 1 && r.part == p && !(s.part p).fresh.contains r.base) || (r.mode == 3 && nbits r.share p 1 == 1)
      || (r.mode == 2 && s.ownerOf p == 0)
  | .dom d =>
    (r.mode == 1 && (d == 0 || s.ownerOf r.part == d)) || (r.mode == 2 && d == 0)
      || (r.mode == 3 && (d == 0 || (maskList 16 r.share).any fun p => s.ownerOf p == d))

/-- A region may be written by an accessor (R366, R367). -/
def State.regionWrites (s : State) (r : RegionCfg) : Accessor → Bool
  | .part p ctl => (r.mode == 1 && r.part == p && !(s.part p).fresh.contains r.base) || (r.mode == 2 && ctl && s.ownerOf p == 0)
  | .dom d => (r.mode == 1 && s.ownerOf r.part == d) || (r.mode == 2 && d == 0)

/-- The check of a device access (R7, R117, R366): the start is an address check, the extent a length check. -/
def State.devCheck (s : State) (who : Accessor) (addr n : Nat) (write : Bool) : Status :=
  if s.devEnd ≤ addr then .access
  else match s.regionOfUnit (addr / unitBytes) with
    | none => .access
    | some (_, r) =>
      if !(if write then s.regionWrites r who else s.regionReads r who) then .access
      else if unitBytes * (r.base + r.count) < addr + n ∨ s.devEnd < addr + n then .length
      else .ok

/-! ### Placement (R291, R295) -/

/-- Where a unit stands at reset (R291). -/
def State.placeDefault (s : State) (u : Nat) : Placed :=
  if u < s.stackUnits then { bulk := false, frame := u } else { bulk := true, frame := u - s.stackUnits }

/-- The placement entry of a unit. -/
def State.placed (s : State) (u : Nat) : Placed := s.bulk.table.get (s.placeDefault u) u

/-- A placement entry changed. -/
def State.modPlaced (s : State) (u : Nat) (f : Placed → Placed) : State :=
  { s with bulk := { s.bulk with table := s.bulk.table.put u (f (s.placed u)) } }

/-- Firmware's frames: the last N × 64 KiB of the stack tier (R246, R291). -/
def State.fwFrames (s : State) : Nat := s.nStacks * 4

/-- A firmware unit (R291). -/
def State.unitReserved (s : State) (u : Nat) : Bool :=
  decide (s.stackUnits - s.fwFrames ≤ u) && decide (u < s.stackUnits)

/-- A swap of this unit is in progress (`MOVING`). -/
def State.unitMoving (s : State) (u : Nat) : Bool :=
  s.bulk.swaps.any fun w => w.hot == u || w.cold == u

/-- The frame a byte of a unit lies in: a piece below a swap's cursor lies in the partner's frame (R295). -/
def State.frameOf (s : State) (addr : Nat) : Placed :=
  let u := addr / unitBytes
  let piece := addr % unitBytes / 65536
  match s.bulk.swaps.find? fun w => w.hot == u || w.cold == u with
  | some w =>
    if piece < w.cursor then
      let other := s.placed (if w.hot = u then w.cold else w.hot)
      { s.placed u with bulk := other.bulk, frame := other.frame }
    else s.placed u
  | none => s.placed u

/-! ### Spreading (R241–R246) -/

/-- The fitted stacks in ascending order (R242). -/
def State.fitted (s : State) : List Nat := maskList 12 s.ident.tolvys

/-- Fitted channels N. -/
def State.nChannels (s : State) : Nat := 128 * s.nStacks

/-- The channel of a fitted-channel index, as stack × 128 + channel (R242). -/
def State.channelOf (s : State) (i : Nat) : Nat :=
  (s.fitted.getD (i % s.nStacks) 0) * 128 + i / s.nStacks

/-- The firmware window WF (R246): base and size in bytes of the tier. -/
def State.wf (s : State) : Window :=
  { en := s.wfOn, gran := 0, hash := true, cbase := 10239, b := s.stackUnits - s.fwFrames
    z := s.fwFrames }

/-- Granularity in bytes. -/
def Window.g (w : Window) : Nat :=
  match w.gran with | 0 => 2048 | 1 => 4096 | 2 => 8192 | _ => 65536

/-- The enabled window a tier address lies in: W0–W15, or WF. -/
def State.windowOf (s : State) (t : Nat) : Option Window :=
  (((List.range 16).map fun i => s.windows.get {} i) ++ [s.wf]).find? fun w =>
    w.en && decide (unitBytes * w.b ≤ t) && decide (t < unitBytes * (w.b + w.z))

/-- A place in the stack tier: channel (stack × 128 + channel), channel-local address, bank hash. -/
structure StackLoc where
  chan : Nat
  c : Nat
  hash : Bool
  deriving DecidableEq, Repr

/-- The mapping of a tier address in a window (R243). -/
def State.spread (s : State) (w : Window) (t : Nat) : StackLoc :=
  let o := t - unitBytes * w.b
  let n := if w.single then 128 else s.nChannels
  let u := o / w.g
  let v := u / n
  let i := if w.hash then (u + v * 389) % n else u % n
  { chan := if w.single then w.stack * 128 + i else s.channelOf i
    c := 65536 * w.cbase + v * w.g + o % w.g, hash := w.hash }

/-- Bank of a channel-local address, group × 4 + bank, after the hash (R241). -/
def StackLoc.bank (l : StackLoc) : Nat :=
  let row := l.c / 32768
  let g := l.c / 1024 % 8
  let b := l.c / 8192 % 4
  if l.hash then (g ^^^ (row % 8)) * 4 + (b ^^^ (row / 8 % 4)) else g * 4 + b

/-- Row of a channel-local address within its bank (R241). -/
def StackLoc.row (l : StackLoc) : Nat := l.c / 32768

/-- Bytes in a channel. -/
def chanBytes : Nat := 671088640

/-- The place within its channel of a channel-local address: row, bank, group and byte, after the hash (R241). -/
def StackLoc.phys (l : StackLoc) : Nat :=
  l.c / 32768 * 32768 + l.bank % 4 * 8192 + l.bank / 4 * 1024 + l.c % 1024

/-- Data offset of a place in the stack space. -/
def StackLoc.off (l : StackLoc) : Nat := l.chan * chanBytes + l.phys

/-- Where a device address lies. -/
inductive DevLoc where
  | stack (l : StackLoc)
  | bulk (b : Nat)
  /-- A tier address in no enabled window (R243). -/
  | nowhere
  deriving DecidableEq, Repr

/-- The translation of a device address: placement, then spreading (R243, R292). -/
def State.locate (s : State) (addr : Nat) : DevLoc :=
  let p := s.frameOf addr
  let t := unitBytes * p.frame + addr % unitBytes
  if p.bulk then .bulk t
  else match s.windowOf t with
    | some w => .stack (s.spread w t)
    | none => .nowhere

/-! ### Stale rows (R271–R275) -/

/-- Key of a bank's stale window. -/
def StackLoc.bankKey (l : StackLoc) : Nat := l.chan * 32 + l.bank

/-- The row at a place is stale. -/
def State.isStale (s : State) (l : StackLoc) : Bool :=
  let w := s.stale.get {} l.bankKey
  decide (w.base ≤ l.row) && decide (l.row < w.base + 64) && nbits w.bits (l.row - w.base) 1 == 1

/-- The row made stale, where its bank's window allows it (R275). -/
def State.makeStale (s : State) (l : StackLoc) : Option State :=
  let w := s.stale.get {} l.bankKey
  let base := if w.bits = 0 then l.row / 64 * 64 else w.base
  if base ≤ l.row ∧ l.row < base + 64 then
    some { s with
      stale := s.stale.put l.bankKey { base := base, bits := w.bits ||| 2 ^ (l.row - base) } }
  else none

/-- The row sealed (R271). -/
def State.seal (s : State) (l : StackLoc) : State :=
  if s.isStale l then
    let w := s.stale.get {} l.bankKey
    { s with stale := s.stale.put l.bankKey { w with bits := w.bits - 2 ^ (l.row - w.base) } }
  else s

/-- Rows now stale over all banks (`ROW_STALE`). -/
def State.staleRows (s : State) : Nat :=
  s.stale.items.foldl (fun n e => n + popcount 64 e.2.bits) 0

/-! ### Sectors (R254–R258, R286, R287) -/

/-- A stack's state. -/
def State.stack (s : State) (t : Nat) : Stack := s.tolvys.get {} t

/-- A stack's state changed. -/
def State.modStack (s : State) (t : Nat) (f : Stack → Stack) : State :=
  { s with tolvys := s.tolvys.put t (f (s.stack t)) }

/-- Bulk-tier state changed. -/
def State.modBulk (s : State) (f : Bulk → Bulk) : State := { s with bulk := f s.bulk }

/-- Symbol errors corrected in the stack tier: `TC`. -/
def State.tc (s : State) : Nat := s.fld (Pg.stkCommon + 0x118) 0 3

/-- The partitions whose regions hold a device address. -/
def State.holderParts (s : State) (addr : Nat) : List Nat :=
  match s.regionOfUnit (addr / unitBytes) with
  | some (_, r) =>
    if r.mode = 1 then [r.part]
    else if r.mode = 3 then maskList 16 r.share
    else []
  | none => []

/-- The domains of the partitions whose regions hold a device address. -/
def State.holders (s : State) (addr : Nat) : List Nat := (s.holderParts addr).map s.ownerOf

/-- A row-operation event on a row that no sequence owns: recorded for each partition whose region holds the row, on the bit's 0-to-1
change; to the steward where none does (R282). -/
def State.rowEvent (s : State) (b addr : Nat) (st : Status) : State :=
  let was := bit (s.reg (Pg.row + Off.evtStat)) b
  let masked := bit (s.reg (Pg.row + Off.evtMask)) b
  match s.holderParts addr with
  | [] => s.raise Pg.row b { dests := some [0], onChange := true, status := st }
  | p :: rest =>
    let s := s.raise Pg.row b { dests := some [s.ownerOf p], part := some p, onChange := true, status := st }
    if was || masked then s
    else rest.foldl (fun s p =>
      s.useFree.pushEvent (s.ownerOf p)
        { bit := b, count := s.eventCount Pg.row b, page := Pg.row, ct := s.ct, arg := (Config.freeWord s.free).toNat
          logix := 0xFFFFFFFF, status := statusCode st, part := some p }) s

/-! ### Failed channels (R35, R262, R266) -/

/-- A stack leaves the tier: FAILED with its cause, the event with a FATAL record, and the module stopped. -/
def State.stackFail (s : State) (t chan cause ev : Nat) : State :=
  let s := s.modStack t fun st =>
    { st with mode := .failed, failChan := chan, failCause := cause }
  let s := s.setFld (Pg.stk t + Off.blkStat) 0 2 3
  let s := s.raise (Pg.stk t) ev
    { dests := some [0], status := .fault, err := some ({ sev := 4, aux := cause }, []) }
  s.fatal

/-- The lanes of a set of symbols: data byte j on lane j div 4, check byte k, symbol 64 + k, on lane 16 + k div 4 (R255). -/
def symLanes (syms : List Nat) : List Nat := (syms.map (· / 4)).eraseDups

/-- Lanes with symbol errors in a read of a channel: a lane with them in 8 reads within 1 µs fails the channel (R266). -/
def State.noteLanes (s : State) (l : StackLoc) (lanes : List Nat) : State :=
  let t := l.chan / 128
  let ch := l.chan % 128
  let s := s.modStack t fun st => { st with
    laneErrs := lanes.foldl (fun (m : Tab (List Nat)) ln =>
      m.put (32 * ch + ln) (s.clk :: (m.get [] (32 * ch + ln)).filter fun c => decide (s.clk ≤ c + usTicks))) st.laneErrs }
  if (s.stack t).mode == .ready && lanes.any fun ln => decide (8 ≤ ((s.stack t).laneErrs.get [] (32 * ch + ln)).length) then
    s.stackFail t ch 2 6
  else s

/-- The count of consecutive uncorrectable reads of a channel after a read; the eighth fails the channel (R266). -/
def State.noteUe (s : State) (l : StackLoc) (ue : Bool) : State :=
  let t := l.chan / 128
  let ch := l.chan % 128
  let s := s.modStack t fun k => { k with ueRun := k.ueRun.put ch (if ue then k.ueRun.get 0 ch + 1 else 0) }
  if (s.stack t).mode == .ready && decide (8 ≤ (s.stack t).ueRun.get 0 ch) then s.stackFail t ch 4 7 else s

/-! ### Tier addresses -/

/-- The address, within its 32 KiB of rows, that a window with or without the hash gives to a place in a channel (R241). -/
def localOf (hash : Bool) (p : Nat) : Nat := if hash then StackLoc.phys { chan := 0, c := p, hash := true } else p

/-- The tier address that maps to a place in a channel, in some enabled window (R244: at most one). -/
def State.tierAddr (s : State) (chan p : Nat) : Option Nat :=
  (((List.range 16).map fun i => s.windows.get {} i) ++ [s.wf]).findSome? fun w =>
    let c := localOf w.hash p
    if !w.en || decide (c < 65536 * w.cbase) then none
    else
      let n := if w.single then 128 else s.nChannels
      let o := c - 65536 * w.cbase
      let v := o / w.g
      let pos := if w.single then (if chan / 128 = w.stack then some (chan % 128) else none)
        else (s.fitted.findIdx? (· == chan / 128)).map fun f => (chan % 128) * s.nStacks + f
      pos.bind fun i =>
        let u0 := if w.hash then (i + n * 389 - v * 389 % n) % n else i
        let t := unitBytes * w.b + (v * n + u0) * w.g + o % w.g
        if t < unitBytes * (w.b + w.z) then some t else none

/-- A corrected stack sector is counted and written back (R257). -/
def State.stackFix (s : State) (l : StackLoc) (d : List Byte) : State :=
  let t := l.chan / 128
  let s := s.bump (Pg.stk t + 0x120) 1
  let s := s.raise (Pg.stk t) 8 { dests := some [0], onChange := true }
  (s.wrMem .stack l.off d).clrMem .stackChk (l.off / 8) 8

/-- The error record of an uncorrectable stack sector: device address and channel, and in `AUX` the tier address in bits 39:0 and the
sector within the channel in bits 63:40 (R257; their places in `AUX` DESIGN CHOICE, log entry 97). -/
def State.stackUeErr (s : State) (l : StackLoc) (addr : Nat) (chk : List Byte) : ErrRec :=
  { sev := 3, addr := addr + 2 ^ 52 * (l.chan % 128), syn := leNat (rsSyndromes chk)
    aux := (s.tierAddr l.chan l.phys).getD 0 + 2 ^ 40 * (l.phys / 64) }

/-- An uncorrectable demand read of the stack tier: counted, recorded to the steward and to the holders (R257,
R267). -/
def State.stackUe (s : State) (l : StackLoc) (addr : Nat) (chk : List Byte) (bitN : Nat) : State :=
  let t := l.chan / 128
  let doms := s.holders addr
  let s := s.bump (Pg.stk t + 0x128) 1
  s.raise (Pg.stk t) bitN
    { dests := some (0 :: doms), status := .poison
      err := some (s.stackUeErr l addr chk, doms) }

/-- One sector of the stack tier read: stale rows as stored with UNSEALED, of which the first after a clear raises UNSEALED_READ; clean,
corrected, or POISON. Every read that is decoded counts towards a failed channel (R257, R266, R273). -/
def State.readStack (s : State) (l : StackLoc) (addr : Nat) : State × List Byte × Status :=
  let d := s.rdMem .stack l.off 64
  let e := s.rdMem .stackChk (l.off / 8) 8
  let s := s.bump (Pg.stk (l.chan / 128) + 0x138) 64
  if s.isStale l then
    (if bit (s.reg (Pg.row + Off.evtStat)) 2 then s else s.rowEvent 2 addr .unsealed, d, .unsealed)
  else match rsDecode s.tc e with
    | some [] => (s.noteUe l false, d, .ok)
    | some errs =>
      let d' := rsFix d errs
      (((s.stackFix l d').noteUe l false).noteLanes l (symLanes (errs.map fun e => 71 - e.1)), d', .ok)
    | none => ((s.stackUe l addr e 0).noteUe l true, d, .poison)

/-! ### The bulk tier (R285–R290) -/

/-- Bulk channel index of a bulk address: its 2 KiB stripe, rotated by 37 for each row of 128 stripes (R285). -/
def bulkChannel (b : Nat) : Nat := let j := b / 2048; (j + j / 128 * 37) % 128

/-- Package and channel of a bulk channel index (R285). -/
def bulkPackage (ch : Nat) : Nat × Nat := (ch % 16, ch / 16)

/-- Channel-local data sector of a bulk address (R285). -/
def bulkSector (b : Nat) : Nat := b / 2048 / 128 * 32 + b % 2048 / 64

/-- Raw offset of a sector's data: 28 sectors to a raw block of 2 KiB (R286). -/
def bulkData (b : Nat) : Nat := bulkChannel b * 2 ^ 34 + bulkSector b / 28 * 2048 + 64 * (bulkSector b % 28)

/-- Raw offset of a sector's 8 check bytes, in the same block (R286). -/
def bulkCheck (b : Nat) : Nat := bulkChannel b * 2 ^ 34 + bulkSector b / 28 * 2048 + 1792 + 8 * (bulkSector b % 28)

/-- The address term of a sector's check bytes: those of a word that holds b div 64 (R286). -/
def bulkFold (b : Nat) : List Byte := rsCheck (toLe 6 (b / 64) ++ zeros 58)

/-- The check bytes of a sector as they stand in its raw block: those of the data XOR the address term, XOR what has gone wrong with them
(R286). -/
def State.bulkStored (s : State) (b : Nat) : List Byte :=
  xorBytes (s.rdMem .bulkChk (bulkCheck b) 8) (xorBytes (rsCheck (s.rdMem .bulk (bulkData b) 64)) (bulkFold b))

/-- A bulk sector written with its check bytes. -/
def State.putBulk (s : State) (b : Nat) (d : List Byte) : State :=
  (s.wrMem .bulk (bulkData b) d).clrMem .bulkChk (bulkCheck b) 8

/-- The bulk tier fails: units whose swap is in progress are lost, the swaps end, and the loop stops (R290). Units placed in the tier read
as lost from then on. -/
def State.bulkFail (s : State) (chan cause : Nat) : State :=
  if s.bulk.mode = .failed then s
  else
    let moving := s.bulk.swaps.flatMap fun w => [w.hot, w.cold]
    let s := moving.foldl (fun s u => s.modPlaced u fun p => { p with poison := true }) s
    let s := s.modBulk fun b => { b with mode := .failed, failChan := chan, failCause := cause, swaps := [] }
    let s := s.setFld (Pg.bulk + Off.blkStat) 0 2 3
    s.raise Pg.bulk 2 { dests := some [0], status := .fault, err := some ({ sev := 3, aux := cause }, []) }

/-- The count of consecutive uncorrectable reads of a bulk channel after a read; the eighth fails the tier (R289). -/
def State.noteBulkUe (s : State) (b : Nat) (ue : Bool) : State :=
  let ch := bulkChannel b
  let s := s.modBulk fun k => { k with ueRun := k.ueRun.put ch (if ue then k.ueRun.get 0 ch + 1 else 0) }
  if 8 ≤ s.bulk.ueRun.get 0 ch then s.bulkFail ch 4 else s

/-- A corrected bulk sector is counted and written back (R287). -/
def State.bulkFix (s : State) (b : Nat) (d : List Byte) : State :=
  let s := (s.bump (Pg.bulk + 0x108) 1).raise Pg.bulk 6 { dests := some [0], onChange := true }
  s.putBulk b d

/-- An uncorrectable bulk sector (R287, R305). -/
def State.bulkUe (s : State) (b addr : Nat) (chk : List Byte) (bitN : Nat) : State :=
  let doms := s.holders addr
  let s := s.bump (Pg.bulk + 0x110) 1
  s.raise Pg.bulk bitN
    { dests := some (0 :: doms), status := .poison
      err := some ({ sev := 3, addr := addr, syn := leNat (rsSyndromes chk), aux := b }, doms) }

/-- One sector of the bulk tier read, delivered from bulk address `src`, which is `b` unless the command lanes have erred: the decoder
expects the check bytes of `b`. Up to 2 symbols are corrected; every read of a failed tier is POISON, and before READY none reaches the tier
(R286, R287, R290, R306). -/
def State.readBulkFrom (s : State) (b src addr : Nat) : State × List Byte × Status :=
  let d := s.rdMem .bulk (bulkData src) 64
  if s.bulk.mode = .failed then (s, zeros 64, .poison)
  else if s.bulk.mode ≠ .ready then (s, zeros 64, .access)
  else
    let e := s.rdMem .bulkChk (bulkCheck src) 8
    let e := if src = b then e else xorBytes e (xorBytes (bulkFold src) (bulkFold b))
    let s := s.bump (Pg.bulk + 0x118) 64
    match rsDecode 2 e with
    | some [] => (s.noteBulkUe b false, d, .ok)
    | some errs => let d' := rsFix d errs; ((s.bulkFix b d').noteBulkUe b false, d', .ok)
    | none => ((s.bulkUe b addr e 0).noteBulkUe b true, d, .poison)

/-- One sector of the bulk tier read from its own address. -/
def State.readBulk (s : State) (b addr : Nat) : State × List Byte × Status := s.readBulkFrom b b addr

/-- The region that holds a unit is marked lost (R369, R439). -/
def State.regionPoison (s : State) (u : Nat) : Bool :=
  match s.regionOfUnit u with
  | some (_, r) => r.poison
  | none => false

/-- One sector at a device address, aligned to 64 bytes. A unit or a region marked POISON reads as lost (R439); after a fatal condition
nothing is read (R35). -/
def State.readSector (s : State) (addr : Nat) : State × List Byte × Status :=
  if s.boot.memStop then (s, zeros 64, .fault)
  else if (s.placed (addr / unitBytes)).poison || s.regionPoison (addr / unitBytes) then (s, zeros 64, .poison)
  else match s.locate addr with
    | .nowhere => (s, zeros 64, .access)
    | .bulk b => s.readBulk b addr
    | .stack l => s.readStack l addr

/-- The status that stands of two: the first that is not OK. -/
def firstFail (a b : Status) : Status := if a = .ok then b else a

/-- `n` bytes of device memory from `addr`, with the first failing status (R257). -/
def State.devRead (s : State) (addr n : Nat) : State × List Byte × Status :=
  let first := addr / 64
  let last := (addr + n + 63) / 64
  let r := (List.range (last - first)).foldl
    (fun (acc : State × List Byte × Status) i =>
      let q := acc.1.readSector ((first + i) * 64)
      (q.1, acc.2.1 ++ q.2.1, firstFail acc.2.2 q.2.2)) (s, [], .ok)
  (r.1, (r.2.1.drop (addr % 64)).take n, r.2.2)

/-- A full sector written at a device address: correct check bytes; a stale row stays stale (R257, R271). After a fatal condition
nothing is written (R35). -/
def State.writeSector (s : State) (addr : Nat) (d : List Byte) : State × Status :=
  if s.boot.memStop then (s, .fault)
  else match s.locate addr with
  | .nowhere => (s, .access)
  | .bulk b =>
    if s.bulk.mode = .failed then (s, .fault)
    else if s.bulk.mode ≠ .ready then (s, .access)
    else ((s.bump (Pg.bulk + 0x120) 64).putBulk b d, .ok)
  | .stack l =>
    (((s.bump (Pg.stk (l.chan / 128) + 0x140) 64).wrMem .stack l.off d).clrMem .stackChk (l.off / 8) 8, .ok)

/-- Bytes of one sector from offset `o` in it replaced. Part of a sector is merged into what a read of it gives; where that read
is not sound the sector is left as it was (DESIGN CHOICE, log entry 12). -/
def State.mergeSector (s : State) (addr o : Nat) (bs : List Byte) : State × Status :=
  if o = 0 ∧ bs.length = 64 then s.writeSector addr bs
  else
    let r := s.readSector addr
    if r.2.2 = .ok ∨ r.2.2 = .unsealed then
      r.1.writeSector addr (r.2.1.take o ++ bs ++ r.2.1.drop (o + bs.length))
    else (r.1, r.2.2)

/-- Bytes written to device memory from `addr`, sector by sector, with the first failing status. -/
def State.devWrite (s : State) (addr : Nat) (bs : List Byte) : State × Status :=
  let first := addr / 64
  let last := (addr + bs.length + 63) / 64
  (List.range (last - first)).foldl
    (fun (acc : State × Status) i =>
      let sec := (first + i) * 64
      let lo := max sec addr
      let hi := min (sec + 64) (addr + bs.length)
      let q := acc.1.mergeSector sec (lo - sec) ((bs.drop (lo - addr)).take (hi - lo))
      (q.1, firstFail acc.2 q.2)) (s, .ok)

/-- A device write whose status nobody takes. -/
def State.devPut (s : State) (addr : Nat) (bs : List Byte) : State := (s.devWrite addr bs).1

/-- What a device read gives, its side effects left aside: for the checks that only look. -/
def State.devPeek (s : State) (addr n : Nat) : List Byte := (s.devRead addr n).2.1

/-- A unit written with zeros and its check bytes, every row of it sealed (R271, R372). -/
def State.zeroUnit (s : State) (u : Nat) : State :=
  (List.range (unitBytes / 1024)).foldl (fun s i =>
    let addr := unitBytes * u + 1024 * i
    match s.locate addr with
    | .stack l => ((s.clrMem .stack l.off 1024).clrMem .stackChk (l.off / 8) 128).seal l
    | .bulk b => (List.range 16).foldl (fun s j => s.putBulk (b + 64 * j) (zeros 64)) s
    | .nowhere => s) s

/-- A transfer, row operation or walk translates an address through the placement table. The spec gives the translation cache no size: a
free value says whether it misses (R292; log entry 98). -/
def State.translate (s : State) : State :=
  if s.ident.bulk then (s.bump (Pg.bulk + 0x148) (bits s.freeVal 0 1)).useFree else s

/-- One CRIT or DEADLINE transfer translated, and counted against its unit (R292). -/
def State.countAccess (s : State) (addr : Nat) : State :=
  s.translate.modPlaced (addr / unitBytes) fun p => { p with count := sat 0xFFFF (p.count + 1) }

end Sys2Proof.Machine
end

