-- ==== Sys2Proof/Machine/Num.lean ====
section
/-! DEFINITION. Number formats and their exact arithmetic: element and scale formats, rounding to nearest even with
saturation, and the lane functions whose last bit the spec leaves open (R126–R133, R148–R155, R170–R173). -/

namespace Sys2Proof.Machine

/-- A value read from a number format: NaN, an infinity, or `±m × 2^e` exactly. -/
inductive FV where
  | nan
  | inf (neg : Bool)
  | fin (neg : Bool) (m : Nat) (e : Int)
  deriving DecidableEq, Repr

/-- A floating-point format: fraction bits, exponent bits, bias, largest finite code, code written for a NaN, and whether
the code after the largest finite one is an infinity (R170, R171). -/
structure Fmt where
  mb : Nat
  eb : Nat
  bias : Nat
  top : Nat
  nan : Nat
  inf : Bool
  deriving DecidableEq, Repr

namespace Fmt
def e4m3 : Fmt := ⟨3, 4, 7, 0x7E, 0x7F, false⟩
def e5m2 : Fmt := ⟨2, 5, 15, 0x7B, 0x7E, true⟩
def e3m2 : Fmt := ⟨2, 3, 3, 0x1F, 0, false⟩
def e2m3 : Fmt := ⟨3, 2, 1, 0x1F, 0, false⟩
def e2m1 : Fmt := ⟨1, 2, 1, 0x07, 0, false⟩
def bf16 : Fmt := ⟨7, 8, 127, 0x7F7F, 0x7FC0, true⟩
def fp16 : Fmt := ⟨10, 5, 15, 0x7BFF, 0x7E00, true⟩
def fp32 : Fmt := ⟨23, 8, 127, 0x7F7FFFFF, 0x7FC00000, true⟩
/-- The narrow partial of R126. -/
def na24 : Fmt := ⟨15, 8, 127, 0x7F7FFF, 0x7FC000, false⟩
end Fmt

/-- The floating-point format of an element code, none for the integer codes (R113, R151). -/
def floatFmt (code : Nat) : Option Fmt :=
  match code with
  | 0 => some .e4m3 | 1 => some .e5m2 | 2 => some .e3m2 | 3 => some .e2m3 | 4 => some .e2m1
  | 7 => some .bf16 | 8 => some .fp16 | 9 => some .fp32 | _ => none

/-- Bits of an element of a format code. -/
def elemBits (code : Nat) : Nat :=
  match code with
  | 0 => 8 | 1 => 8 | 2 => 6 | 3 => 6 | 4 => 4 | 5 => 8 | 6 => 4 | 7 => 16 | 8 => 16 | 9 => 32 | 10 => 32
  | 11 => 8 | 12 => 4 | _ => 32

/-- Whether a code is one of the integer formats INT8, INT4, INT32. -/
def isIntFmt (code : Nat) : Bool := code == 5 || code == 6 || code == 10

/-- Bytes of 32 elements of a format. -/
def rowBytes (code : Nat) : Nat := 4 * elemBits code

/-- Value of a code of a floating-point format (R170, R171). -/
def Fmt.decode (f : Fmt) (code : Nat) : FV :=
  let neg := nbits code (f.mb + f.eb) 1 == 1
  let mag := code % 2 ^ (f.mb + f.eb)
  if f.top < mag then (if f.inf && mag == f.top + 1 then .inf neg else .nan)
  else
    let ex := mag / 2 ^ f.mb
    let fr := mag % 2 ^ f.mb
    if ex = 0 then .fin neg fr (1 - (f.bias : Int) - f.mb)
    else .fin neg (2 ^ f.mb + fr) ((ex : Int) - f.bias - f.mb)

/-- Exponent of the last place that a value `m × 2^e` keeps in a format. -/
def Fmt.lastPlace (f : Fmt) (m : Nat) (e : Int) : Int :=
  max (e + (Nat.log2 m : Nat) - f.mb) (1 - (f.bias : Int) - f.mb)

/-- Magnitude code of `m × 2^e` rounded to nearest, ties to even, before saturation: a code above `top` has overflowed. -/
def Fmt.round (f : Fmt) (m : Nat) (e : Int) : Nat :=
  if m = 0 then 0
  else
    let qmin : Int := 1 - (f.bias : Int) - f.mb
    let q := f.lastPlace m e
    let base := (q - qmin).toNat * 2 ^ f.mb
    if q ≤ e then base + m * 2 ^ (e - q).toNat
    else
      let sh := (q - e).toNat
      let d := m / 2 ^ sh
      let r := m % 2 ^ sh
      let half := 2 ^ (sh - 1)
      base + d + (if half < r ∨ (r = half ∧ d % 2 = 1) then 1 else 0)

/-- Magnitude code of `m × 2^e` rounded towards zero. -/
def Fmt.trunc (f : Fmt) (m : Nat) (e : Int) : Nat :=
  if m = 0 then 0
  else
    let qmin : Int := 1 - (f.bias : Int) - f.mb
    let q := f.lastPlace m e
    let base := (q - qmin).toNat * 2 ^ f.mb
    if q ≤ e then base + m * 2 ^ (e - q).toNat else base + m / 2 ^ (q - e).toNat

/-- A sign and a magnitude code put together. -/
def Fmt.signed (f : Fmt) (neg : Bool) (mag : Nat) : Nat := b2n neg * 2 ^ (f.mb + f.eb) + mag

/-- A value converted into a format, with whether it saturated (R148, R152). -/
def Fmt.encode (f : Fmt) : FV → Nat × Bool
  | .nan => (f.nan, false)
  | .inf n => (f.signed n f.top, true)
  | .fin n m e =>
    let c := f.round m e
    if f.top < c then (f.signed n f.top, true) else (f.signed n c, false)

namespace FV

/-- A whole number as a value. -/
def ofInt (i : Int) : FV := .fin (decide (i < 0)) i.natAbs 0

/-- +0. -/
def zero : FV := .fin false 0 0

def isNan : FV → Bool
  | .nan => true
  | _ => false

/-- Whether a value is a finite zero. -/
def isZero : FV → Bool
  | .fin _ m _ => m == 0
  | _ => false

/-- The sign changed. -/
def neg : FV → FV
  | .nan => .nan
  | .inf n => .inf (!n)
  | .fin n m e => .fin (!n) m e

/-- The magnitude. -/
def abs : FV → FV
  | .nan => .nan
  | .inf _ => .inf false
  | .fin _ m e => .fin false m e

/-- The exact product; an infinity times zero is NaN. -/
def mul : FV → FV → FV
  | .nan, _ => .nan
  | _, .nan => .nan
  | .inf a, .inf b => .inf (a != b)
  | .inf a, .fin b m _ => if m = 0 then .nan else .inf (a != b)
  | .fin a m _, .inf b => if m = 0 then .nan else .inf (a != b)
  | .fin a m e, .fin b n k => .fin (a != b) (m * n) (e + k)

/-- A signed whole number of units of `2^e`. -/
def scaled (neg : Bool) (m : Nat) (sh : Nat) : Int :=
  let v : Int := (m * 2 ^ sh : Nat)
  if neg then -v else v

/-- The exact sum: a zero sum is +0, except that of two negative zeros (R133). -/
def add : FV → FV → FV
  | .nan, _ => .nan
  | _, .nan => .nan
  | .inf a, .inf b => if a = b then .inf a else .nan
  | .inf a, _ => .inf a
  | _, .inf b => .inf b
  | .fin a m e, .fin b n k =>
    let q := min e k
    let x := scaled a m (e - q).toNat + scaled b n (k - q).toNat
    if x = 0 then .fin (a && b) 0 q else .fin (decide (x < 0)) x.natAbs q

/-- Comparison of two values that are not NaN: `some true` when the first is less. -/
def lt (a b : FV) : Bool :=
  match a, b with
  | .nan, _ => false
  | _, .nan => false
  | .inf x, .inf y => x && !y
  | .inf x, _ => x
  | _, .inf y => !y
  | .fin x m e, .fin y n k =>
    let q := min e k
    decide (scaled x m (e - q).toNat < scaled y n (k - q).toNat)

/-- Equality of values: two zeros are equal, NaN equals nothing. -/
def eq (a b : FV) : Bool := !a.isNan && !b.isNan && !a.lt b && !b.lt a

/-- The quotient of finite values to 64 bits more than any format keeps, with a sticky last bit; the divisor is not zero. -/
def div : FV → FV → FV
  | .fin a m e, .fin b n k =>
    if n = 0 then .nan
    else
      let sh := 600 + Nat.log2 n
      let q := m * 2 ^ sh / n
      let r := m * 2 ^ sh % n
      .fin (a != b) (2 * q + (if r = 0 then 0 else 1)) (e - k - sh - 1)
  | _, _ => .nan

end FV

/-- The whole square root, found bit by bit. -/
def isqrt (n : Nat) : Nat :=
  ((List.range (Nat.log2 n / 2 + 1)).reverse).foldl
    (fun r i => if (r + 2 ^ i) * (r + 2 ^ i) ≤ n then r + 2 ^ i else r) 0

/-- The square root of a finite value that is not negative, with a sticky last bit. -/
def FV.sqrt : FV → FV
  | .fin a m e =>
    if m = 0 then .fin a 0 0
    else
      let e' := if e % 2 = 0 then e - 200 else e - 201
      let m' := m * 2 ^ (e - e').toNat
      let r := isqrt m'
      .fin false (2 * r + (if r * r = m' then 0 else 1)) (e' / 2 - 1)
  | v => v

/-! ### Elements in memory -/

/-- Element `i` of the packed elements of a row: sub-byte elements run from the low bits up (R105). -/
def packedElem (code : Nat) (row : List Byte) (i : Nat) : Nat :=
  let w := elemBits code
  let first := i * w / 8
  nbits (leNat ((row.drop first).take 4)) (i * w % 8) w % 2 ^ w

/-- Elements packed into bytes, low bits first (R105). -/
def packElems (code : Nat) (es : List Nat) : List Byte :=
  let w := elemBits code
  toLe (es.length * w / 8)
    ((es.foldr (fun e acc => e % 2 ^ w + 2 ^ w * acc) 0))

/-- The exact value of an element of a code: floating-point formats, and integers as whole numbers. -/
def elemValue (code v : Nat) : FV :=
  match floatFmt code with
  | some f => f.decode v
  | none => .ofInt (Sys2Proof.Machine.signed (elemBits code) v)

/-! ### Scale formats (R173) -/

/-- A UE5M3 block scale: 0x00 is zero, 0xFF no number. -/
def ue5m3 (b : Nat) : FV :=
  if b = 0xFF then .nan
  else
    let e := b / 8
    let f := b % 8
    if e = 0 then .fin false f (-17) else .fin false (8 + f) ((e : Int) - 18)

/-- An E8M0 scale. -/
def e8m0 (x : Nat) : FV := if x = 0xFF then .nan else .fin false 1 ((x : Int) - 127)

/-- A second-level scale: sign and exponent only (R111). -/
def secondLevel (w : Nat) : FV :=
  let ex := nbits w 23 8
  let neg := nbits w 31 1 == 1
  if ex = 0 then .fin neg 0 0 else if ex = 255 then .nan else .fin neg 1 ((ex : Int) - 127)

/-! ### Lane arithmetic (R148) -/

/-- The canonical NaN. -/
def nan32 : Nat := 0x7FC00000
/-- The largest finite FP32 magnitude. -/
def max32 : Nat := 0x7F7FFFFF
/-- A finite FP32 pattern. -/
def finite32 (x : Nat) : Bool := decide (x % 2 ^ 31 < 0x7F800000)
/-- A 32-bit pattern is an FP32 NaN. -/
def isNan32 (x : Nat) : Bool := decide (0x7F800000 < x % 2 ^ 31)
/-- A 32-bit pattern is ±0. -/
def isZero32 (x : Nat) : Bool := x % 2 ^ 31 == 0
/-- Value of an FP32 pattern. -/
def f32 (x : Nat) : FV := Fmt.fp32.decode x

/-- Value of an FP32 pattern as lanes read it: infinities saturated. -/
def laneVal (x : Nat) : FV :=
  match f32 x with
  | .inf n => .fin n (2 ^ 24 - 1) 104
  | v => v

/-- A pattern as a float operation takes it: an infinity is the saturated value (R148). -/
def lanePat (x : Nat) : Nat := if x % 2 ^ 31 = 0x7F800000 then x - 1 else x

/-- A lane result: its bits, and whether it saturated. -/
abbrev Lane := Nat × Bool

/-- An exact value rounded to a lane result. -/
def toLane (v : FV) : Lane := Fmt.fp32.encode v

def fAdd (a b : Nat) : Lane := toLane ((laneVal a).add (laneVal b))
def fSub (a b : Nat) : Lane := toLane ((laneVal a).add (laneVal b).neg)
def fMul (a b : Nat) : Lane := toLane ((laneVal a).mul (laneVal b))
def fFma (a b c : Nat) : Lane := toLane (((laneVal a).mul (laneVal b)).add (laneVal c))

/-- A division whose divisor is ±0 yields +0 (R148). -/
def fDiv (a b : Nat) : Lane :=
  if isNan32 b || isNan32 a && !isZero32 b then (nan32, false)
  else if isZero32 b then (0, false)
  else toLane ((laneVal a).div (laneVal b))

/-- The square root; of a negative number NaN. -/
def fSqrt (a : Nat) : Lane :=
  match laneVal a with
  | .fin true (_ + 1) _ => (nan32, false)
  | v => toLane v.sqrt

/-- Which zero MIN or MAX of +0 and −0 gives is not stated (log entry 13). -/
def zeroTie (a b : Nat) : Nat := if Config.zeroPick then a else b

/-- MIN: NaN if either source is NaN. -/
def fMin (a b : Nat) : Nat :=
  if isNan32 a || isNan32 b then nan32
  else if isZero32 a && isZero32 b then zeroTie a b
  else lanePat (if (laneVal b).lt (laneVal a) then b else a)

/-- MAX: NaN if either source is NaN. -/
def fMax (a b : Nat) : Nat :=
  if isNan32 a || isNan32 b then nan32
  else if isZero32 a && isZero32 b then zeroTie a b
  else lanePat (if (laneVal a).lt (laneVal b) then b else a)

/-- An integer held to the range of `n` bits, with whether it was cut. -/
def satInt (n : Nat) (i : Int) : Int × Bool :=
  let lo : Int := -((2 ^ (n - 1) : Nat) : Int)
  let hi : Int := ((2 ^ (n - 1) : Nat) : Int) - 1
  (clampInt lo hi i, decide (i < lo) || decide (hi < i))

/-- A finite value rounded to the nearest whole number, ties to even. -/
def roundInt : FV → Int
  | .fin n m e =>
    let mag : Int :=
      if 0 ≤ e then (m * 2 ^ e.toNat : Nat)
      else
        let sh := (-e).toNat
        let d := m / 2 ^ sh
        let r := m % 2 ^ sh
        let half := 2 ^ (sh - 1)
        (d + (if half < r ∨ (r = half ∧ d % 2 = 1) then 1 else 0) : Nat)
    if n then -mag else mag
  | .inf n => if n then -(2 ^ 130) else 2 ^ 130
  | .nan => 0

/-- The largest whole number not above a finite value. -/
def floorInt : FV → Int
  | .fin n m e =>
    let x : Int := if n then -(m : Int) else m
    if 0 ≤ e then x * 2 ^ e.toNat else x / (2 ^ (-e).toNat : Int)
  | _ => 0

/-- FP32 to a whole number of `n` bits: nearest even, saturating; NaN gives 0 (R152). -/
def fToInt (n a : Nat) : Nat × Bool :=
  if isNan32 a then (0, false)
  else
    let r := satInt n (roundInt (laneVal a))
    (unsigned n r.1, r.2)

/-- INT32 pattern to FP32, nearest even. -/
def iToF (a : Nat) : Nat := (toLane (FV.ofInt (signed 32 a))).1

/-- A lane value of type FP32 (false) or INT32 (true) converted to an element of a format code, with saturation
(R152). -/
def storeConv (code : Nat) (int : Bool) (x : Nat) : Nat × Bool :=
  match floatFmt code with
  | some f =>
    if int then f.encode (FV.ofInt (signed 32 x))
    else if code = 9 then ((if isNan32 x then nan32 else lanePat x), false)
    else f.encode (laneVal x)
  | none =>
    if int then
      let r := satInt (elemBits code) (signed 32 x)
      (unsigned (elemBits code) r.1, r.2)
    else fToInt (elemBits code) x

/-- An element read as a lane value, with its type and whether an infinity was saturated (R151). -/
def loadConv (code v : Nat) : Nat × Bool × Bool :=
  match floatFmt code with
  | some f =>
    let r := Fmt.fp32.encode (f.decode v)
    (r.1, false, r.2)
  | none => (unsigned 32 (signed (elemBits code) v), true, false)

/-- The rounding of A to a format and back (QROUND); a reserved format code has no stated result (log entry 14). -/
def qRound (a code : Nat) : Lane :=
  if 11 ≤ code then ((Config.freeQround a code).toNat % 2 ^ 32, false)
  else
    let r := storeConv code false a
    if isIntFmt code then (iToF (unsigned 32 (signed (elemBits code) r.1)), r.2)
    else ((loadConv code r.1).1, r.2)

/-! ### Functions within one or two ulp (R120, R155)

Each module computes these by a fixed procedure the spec does not give: the result is one of the FP32 values within the stated
distance of the exact one, and which one is open (`Config.ulpPick`, log entry 15). Exact values are found in fixed point. -/

/-- Fraction bits of the fixed point. -/
def fixBits : Nat := 420

/-- One in fixed point. -/
def fixOne : Int := (2 ^ fixBits : Nat)

/-- A finite value in fixed point. -/
def toFix : FV → Int
  | .fin n m e =>
    let k := e + fixBits
    let v : Int := if 0 ≤ k then (m * 2 ^ k.toNat : Nat) else (m / 2 ^ (-k).toNat : Nat)
    if n then -v else v
  | _ => 0

/-- The product of two fixed-point numbers. -/
def fixMul (a b : Int) : Int := a * b / fixOne

/-- The exponential of a fixed-point number. -/
def fixExp (x : Int) : Int :=
  let r := x / 65536
  let series := (List.range 60).foldl
    (fun (acc : Int × Int) (i : Nat) => (acc.1 + acc.2, fixMul acc.2 r / ((i : Int) + 1))) (0, fixOne)
  (List.range 16).foldl (fun v _ => fixMul v v) series.1

/-- `2 atanh t` in fixed point. -/
def fixAtanh2 (t : Int) : Int :=
  let t2 := fixMul t t
  2 * ((List.range 150).foldl
    (fun (acc : Int × Int) (i : Nat) => (acc.1 + acc.2 / (2 * (i : Int) + 1), fixMul acc.2 t2)) (0, t)).1

/-- The natural logarithm of a positive value in fixed point. -/
def fixLog (m : Nat) (e : Int) : Int :=
  let l := Nat.log2 m
  let y : Int := toFix (.fin false m (-(l : Int)))
  let t := (y - fixOne) * fixOne / (y + fixOne)
  fixAtanh2 t + (e + l) * fixAtanh2 (fixOne / 3)

/-- 1/(1 + e^−x) in fixed point, the argument held to ±290. -/
def fixSigmoid (x : Int) : Int :=
  let x := clampInt (-290 * fixOne) (290 * fixOne) x
  fixOne * fixOne / (fixOne + fixExp (-x))

/-- An FP32 value within `n` ulp of a fixed-point magnitude: the neighbour picked is open. -/
def withinUlp (fn n a : Nat) (neg : Bool) (m : Nat) (e : Int) (exact : Bool) : Lane :=
  let lo := Fmt.fp32.trunc m e
  let below := n - 1 + b2n exact
  let count := below + n + 1
  let c := lo + Config.ulpPick fn a % count - below
  if max32 < c then (Fmt.fp32.signed neg max32, true) else (Fmt.fp32.signed neg c, false)

/-- e^A, within 1 ulp; of the most negative number it is zero (R160). -/
def fExp (a : Nat) : Lane :=
  if isNan32 a then (nan32, false)
  else if lanePat a = 0xFF7FFFFF then (0, false)
  else
    let x := toFix (laneVal a)
    if 200 * fixOne < x then (max32, true)
    else withinUlp 0 1 a false (fixExp (max x (-250 * fixOne))).toNat (-fixBits) (isZero32 a)

/-- ln A, within 1 ulp. -/
def fLog (a : Nat) : Lane :=
  if isNan32 a then (nan32, false)
  else match laneVal a with
    | .fin _ 0 _ => (0xFF7FFFFF, true)
    | .fin true _ _ => (nan32, false)
    | .fin false m e =>
      let y := fixLog m e
      withinUlp 1 1 a (decide (y < 0)) y.natAbs (-fixBits) (a == 0x3F800000)
    | _ => (nan32, false)

/-- 1/√A, within 1 ulp. -/
def fRsqrt (a : Nat) : Lane :=
  if isNan32 a then (nan32, false)
  else match laneVal a with
    | .fin _ 0 _ => (max32, true)
    | .fin true _ _ => (nan32, false)
    | v =>
      match (FV.fin false 1 0).div v.sqrt with
      | .fin _ m e => withinUlp 2 1 a false m e (m % 2 == 0)
      | _ => (nan32, false)

/-- A function within 2 ulp given by its exact fixed-point value. -/
def twoUlp (fn a : Nat) (v : Int) : Lane :=
  withinUlp fn 2 a (nbits a 31 1 == 1 && decide (v ≤ 0)) v.natAbs (-fixBits) (isZero32 a)

/-- tanh A, within 2 ulp. -/
def fTanh (a : Nat) : Lane :=
  if isNan32 a then (nan32, false)
  else
    let x := clampInt (-140 * fixOne) (140 * fixOne) (toFix (laneVal a))
    let y := fixExp (2 * x)
    twoUlp 3 a ((y - fixOne) * fixOne / (y + fixOne))

/-- 1/(1 + e^−A), within 2 ulp. -/
def fSigmoid (a : Nat) : Lane :=
  if isNan32 a then (nan32, false)
  else withinUlp 4 2 a false (fixSigmoid (toFix (laneVal a))).toNat (-fixBits) (isZero32 a)

/-- A · sigmoid(A), within 2 ulp. -/
def fSilu (a : Nat) : Lane :=
  if isNan32 a then (nan32, false)
  else
    let x := max (-290 * fixOne) (toFix (laneVal a))
    twoUlp 5 a (fixMul x (fixSigmoid x))

/-- √(2/π) in fixed point. -/
def rootTwoOverPi : Int :=
  79788456080286535587989211986876373695171726232986931533185166 * fixOne / 10 ^ 62

/-- GELU in its tanh form, within 2 ulp: `x · sigmoid(2 √(2/π) (x + 0.044715 x³))`. -/
def fGelu (a : Nat) : Lane :=
  if isNan32 a then (nan32, false)
  else
    let x := toFix (laneVal a)
    let c := clampInt (-1000 * fixOne) (1000 * fixOne) x
    let u := fixMul (2 * rootTwoOverPi) (c + fixMul (fixMul c c) c * 44715 / 1000000)
    twoUlp 6 a (fixMul (max (-290 * fixOne) x) (fixSigmoid u))

end Sys2Proof.Machine
end

