-- ==== Sys2Proof/Machine/Eng.lean ====
section
/-! DEFINITION. What the engines of a slice share: engine addresses, tiles and their status words, stream buffer regions,
pages of events, and the sequencer fault a release can raise (R74–R83, R97, R98, R134–R138). -/

namespace Sys2Proof.Machine

/-! ### Engine addresses (R74–R76) -/

/-- A place in on-die storage: accumulator memory or working store of an absolute slice. -/
structure EA where
  acc : Bool
  slice : Nat
  off : Nat
  deriving DecidableEq, Repr

/-- An engine address resolved over a list of slices: reserved spaces and bits, and slices the partition does not have, are
ACCESS (R74, R75). -/
def resolveEA (slices : List Nat) (a : Nat) : Option EA :=
  if 2 ≤ a / 2 ^ 28 then none
  else match slices[a / 2 ^ 24 % 16]? with
    | some k => some { acc := a / 2 ^ 28 == 1, slice := k, off := a % 2 ^ 24 }
    | none => none

/-- An engine address as an engine of slice `k` names it. -/
def State.ea (s : State) (k a : Nat) : Option EA :=
  match s.partOfSlice k with
  | some p => resolveEA (s.peersOf p k) a
  | none => none

/-- An engine address that an operation accesses: 32-byte aligned, or ACCESS (R78). -/
def State.ea32 (s : State) (k a : Nat) : Option EA :=
  (s.ea k a).bind fun e => if aligned e.off 32 then some e else none

/-- An engine address as a unit working for partition `p` names it. -/
def State.eaPart (s : State) (p a : Nat) : Option EA := resolveEA (s.runSlices p) a

/-- Whether `n` bytes from a place end inside its space (R76, R117). -/
def EA.fits (e : EA) (n : Nat) : Bool :=
  if e.acc then decide (e.off < 2 ^ 21) && decide (e.off + n ≤ 2 ^ 21) else decide (e.off + n ≤ 2 ^ 24)

/-- Memory key of a place. -/
def EA.space (e : EA) : Space := if e.acc then .acc else .ws

/-- Offset of a place in its memory. -/
def EA.pos (e : EA) : Nat := if e.acc then 2 ^ 21 * e.slice + e.off else 2 ^ 24 * e.slice + e.off

/-- The place `n` bytes further. -/
def EA.plus (e : EA) (n : Nat) : EA := { e with off := e.off + n }

/-- `n` bytes from a place. -/
def State.eaRead (s : State) (e : EA) (n : Nat) : List Byte := s.rdMem e.space e.pos n

/-- A number of `n` bytes at a place. -/
def State.eaNat (s : State) (e : EA) (n : Nat) : Nat := leNat (s.eaRead e n)

/-! ### Tiles (R134–R138) -/

/-- Key of a tile. -/
def tileKey (k t : Nat) : Nat := k * 512 + t

/-- Status of a tile. -/
def State.tileOf (s : State) (k t : Nat) : TileStat := s.tiles.get {} (tileKey k t)

/-- Status of a tile changed. -/
def State.modTile (s : State) (k t : Nat) (f : TileStat → TileStat) : State :=
  { s with tiles := s.tiles.put (tileKey k t) (f (s.tileOf k t)) }

/-- The tiles `n` bytes from a place cover. -/
def EA.tiles (e : EA) (n : Nat) : List Nat :=
  (List.range ((e.off + n + 4095) / 4096 - e.off / 4096)).map fun i => e.off / 4096 + i

/-- A write may land: no tile it covers is an open group (R137). -/
def State.eaWritable (s : State) (e : EA) (n : Nat) : Bool :=
  !e.acc || n == 0 || (e.tiles n).all fun t => !(s.tileOf e.slice t).isOpen

/-- Bytes stored at one place; a closed tile's status word is cleared, and a write that meets an open group changes nothing
(R137). -/
def State.eaPut (s : State) (e : EA) (bs : List Byte) : State :=
  if !s.eaWritable e bs.length then s
  else
    let s := s.wrMem e.space e.pos bs
    if e.acc ∧ bs ≠ [] then
      (e.tiles bs.length).foldl (fun s t => { s with tiles := s.tiles.drop (tileKey e.slice t) }) s
    else s

/-- Bytes written from outside a pair reach both of its slices (R453). -/
def State.eaPutBoth (s : State) (e : EA) (bs : List Byte) : State :=
  let s := s.eaPut e bs
  match s.pairedTwin e.slice with
  | some t => s.eaPut { e with slice := t } bs
  | none => s

/-- Bytes that a slice of a pair puts out join the CRC-64 by which the pair is compared (R453). -/
def State.noteOut (s : State) (k : Nat) (bs : List Byte) : State :=
  if (s.pairedTwin k).isSome || (s.pairedPrimary k).isSome then
    s.modSeq k fun q => { q with outAcc := some (crc64From (BitVec.ofNat 64 (q.outAcc.getD 0)) bs).toNat }
  else s

/-- A write by an engine of slice `k`: what it writes to another slice's store leaves the pair from the primary only, and reaches
both slices of the other pair (R453). -/
def State.eaWrite (s : State) (k : Nat) (e : EA) (bs : List Byte) : State :=
  if e.slice = k then s.eaPut e bs
  else if (s.pairedPrimary k).isSome then s.noteOut k bs
  else (s.noteOut k bs).eaPutBoth e bs

/-! ### Operands in k-group layout (R104) -/

/-- The value pattern of element (row, column) of an operand of `m` rows at a place. -/
def State.kElem (s : State) (e : EA) (m code row col : Nat) : Nat :=
  packedElem code (s.eaRead (e.plus ((col / 32 * m + row) * rowBytes code)) (rowBytes code)) (col % 32)

/-- The 32 elements of a row of a panel. -/
def State.kRow (s : State) (e : EA) (m code row panel : Nat) : List Nat :=
  let b := s.eaRead (e.plus ((panel * m + row) * rowBytes code)) (rowBytes code)
  (List.range 32).map (packedElem code b)

/-! ### Stream buffer regions (R81–R83) -/

/-- Offset of a tile of a region in the working store. -/
def Region.tileOff (r : Region) (t : Nat) : Nat := r.base * 4096 + t % r.tiles * 2048

/-- Credits of a region: free tiles not yet taken by a transfer. -/
def Region.credits (r : Region) : Nat := r.tiles - (r.taken - r.released)

/-- The sequencer faults: issue stops, the index and cause are recorded, an error record is written (R98). A fault that an engine
operation's auto-release raises records the index the sequencer stands at (DESIGN CHOICE, log entry 90). -/
def State.seqFault (s : State) (k cause : Nat) : State :=
  let p := s.partOfSlice k
  let sq := s.seq k
  let s := s.modSeq k fun q => { q with mode := .faulted, fault := cause, wait := none }
  s.raise (Pg.seq k) (cause - 1)
    { part := p, status := if cause = 5 then .poison else .access
      err := some ({ sev := 3, opc := sq.pc * 256, addr := sq.pc, aux := cause }
                  , match p with | some p => [s.ownerOf p] | none => []) }

/-- Tiles released to the producer's credits; more than are filled is the fault SEQ_RELEASE and releases nothing, and a count of 0 does
nothing (R83). -/
def State.releaseTiles (s : State) (k r n : Nat) : State :=
  let g := s.region k r
  if n = 0 then s
  else if g.filled < g.released + n then s.seqFault k 4
  else s.modRegion k r fun g =>
    { g with released := g.released + n
             relClks := ((List.replicate n s.clk) ++ g.relClks).take 9 }

/-- More pieces than any walk, and more transfers than any block, has: 16,384 sequences of 2^19 pages of 65,535 tiles. -/
def walkFuel : Nat := 2 ^ 60

/-! ### Queue slots of transfer engines -/

/-- A queue slot. -/
def State.xslot (s : State) (e q : Nat) : XSlot := s.xslots.get {} (64 * e + q)

/-- A queue slot changed. -/
def State.modXslot (s : State) (e q : Nat) (f : XSlot → XSlot) : State :=
  { s with xslots := s.xslots.put (64 * e + q) (f (s.xslot e q)) }

/-- Register of a slot's `XQ_CFG`. -/
def xqCfg (e q : Nat) : Nat := keyAt (Pg.xe e + 0x130) q

/-! ### Engine pages -/

/-- Clock of the arithmetic units in MHz at the step in force (R485). -/
def State.arithMhz (s : State) : Nat := 2000 + 125 * s.power.step

/-- Ticks that `n` arithmetic cycles take. -/
def State.cycTicks (s : State) (n : Nat) : Nat := ceilDiv (n * 4000) s.arithMhz

/-- Arithmetic cycles in `n` ticks. -/
def State.ticksCyc (s : State) (n : Nat) : Nat := n * s.arithMhz / 4000

/-- An engine event of a slice, recorded for the partition. -/
def State.engEvent (s : State) (k page b : Nat) (st : Status) (onChange : Bool := false) : State :=
  s.raise page b { part := s.partOfSlice k, status := st, onChange := onChange }

/-- The owner of a slice's partition, as an addressee of error records. -/
def State.ownerOfSlice (s : State) (k : Nat) : List Nat :=
  match s.partOfSlice k with
  | some p => [s.ownerOf p]
  | none => []

/-- What a stage of an engine operation answers: the state, and the status it ends with. -/
abbrev OpOut := State × Status

/-- Lane side effects of an operation: saturations, output elements that met a NaN, divisions by zero, and whether a NaN was read or
produced that no output element counts. -/
structure LaneAcc where
  sat : Nat := 0
  nan : Nat := 0
  divz : Nat := 0
  met : Bool := false
  deriving DecidableEq, Repr

/-- The vector engine's counters and seen events raised by an operation or a chain (R148, R168, R514). -/
def State.vecCount (s : State) (k : Nat) (a : LaneAcc) : State :=
  let pg := Pg.vec k
  let s := ((s.bump (pg + 0x110) a.sat).bump (pg + 0x118) a.nan).bump (pg + 0x120) a.divz
  let s := if 0 < a.sat then s.engEvent k pg 3 .ok true else s
  if 0 < a.nan ∨ a.met then s.engEvent k pg 4 .ok true else s

/-- `n` bytes nothing constrains: an undefined result in memory. -/
def State.freeBytes (s : State) (n : Nat) : State × List Byte :=
  ({ s with free := s.free + n }, (List.range n).map fun i => BitVec.ofNat 8 (Config.freeWord (s.free + i)).toNat)

/-- A failed operation of a queue: its function and status are kept for the engine's status register (`engFail`). -/
def State.noteFail (s : State) (k q func : Nat) (st : Status) : State :=
  { s with engFail := s.engFail.put (16 * k + q) (func, statusCode st) }

/-- Accumulations of two parts added. -/
def LaneAcc.plus (a b : LaneAcc) : LaneAcc :=
  { sat := a.sat + b.sat, nan := a.nan + b.nan, divz := a.divz + b.divz, met := a.met || b.met }

/-- Integrity state of a partition. -/
def State.ig (s : State) (p : Nat) : IgPart := s.igs.get {} p

/-- Integrity state of a partition changed. -/
def State.modIg (s : State) (p : Nat) (f : IgPart → IgPart) : State := { s with igs := s.igs.put p (f (s.ig p)) }

/-- A digest value of the run takes an output in (R451). -/
def State.digestAdd (s : State) (p i : Nat) (tag bs : List Byte) : State :=
  s.modIg p fun g => { g with dig := g.dig.put i ((g.dig.get 0 i) ^^^ (crc64 (tag ++ bs)).toNat) }

/-- An output of a slice joins the digest of its partition's run; the tag is slice index, engine and ordinal within the step, in
this order (DESIGN CHOICE, log entry 30). In a pair only the primary's outputs count. -/
def State.digestOut (s : State) (k queue ordinal : Nat) (bs : List Byte) : State :=
  match s.partOfSlice k with
  | none => s
  | some p =>
    let s := s.noteOut k bs
    if (s.pairedPrimary k).isSome then s
    else
      let i := s.relSlice p k
      let eng := if queue < 4 then queue else 4
      s.digestAdd p i (toLe 1 i ++ toLe 1 eng ++ toLe 6 (ordinal - (s.ig p).ords.get 0 (16 * k + queue))) bs

/-- Two byte ranges of one store meet. -/
def EA.meets (a : EA) (n : Nat) (b : EA) (m : Nat) : Bool :=
  a.acc == b.acc && a.slice == b.slice && decide (a.off < b.off + m) && decide (b.off < a.off + n)

end Sys2Proof.Machine
end

