-- ==== Sys2Proof/Machine/SeqCode.lean ====
section
/-! DEFINITION. The 128-bit instruction words of the slice sequencer: the operations of every class, their field layouts,
decoding and encoding (R84–R87, and the function tables of ch. 3, 4, 6–9). -/

namespace Sys2Proof.Machine

/-- Every operation a program can name, class by class. -/
inductive SOp where
  | nop | fin | jump | branch | loop | setix | addix | wait | waitTake | signal | setctr | start
  | release | fence | movs
  | mma | load | drain | dattn | config
  | vload | vstore | clove | reduce | topk | compress | expand | combine | pload | bset
  | adec | append | amerge | agather | xload | aconfig
  | arm | armd | stop
  | qrun | qhad | qstep | qload
  deriving DecidableEq, Repr

/-- CLASS × 32 + FUNC of an operation: the low byte of its word (R84). -/
def SOp.code : SOp → Nat
  | .nop => 0x00 | .fin => 0x01 | .jump => 0x02 | .branch => 0x03 | .loop => 0x04 | .setix => 0x05
  | .addix => 0x06 | .wait => 0x07 | .waitTake => 0x08 | .signal => 0x09 | .setctr => 0x0A
  | .start => 0x0B | .release => 0x0C | .fence => 0x0D | .movs => 0x0E
  | .mma => 0x20 | .load => 0x21 | .drain => 0x22 | .dattn => 0x23 | .config => 0x24
  | .vload => 0x40 | .vstore => 0x41 | .clove => 0x42 | .reduce => 0x43 | .topk => 0x44
  | .compress => 0x45 | .expand => 0x46 | .combine => 0x47 | .pload => 0x48 | .bset => 0x49
  | .adec => 0x60 | .append => 0x61 | .amerge => 0x62 | .agather => 0x63 | .xload => 0x64
  | .aconfig => 0x65
  | .arm => 0x80 | .armd => 0x81 | .stop => 0x82
  | .qrun => 0xA0 | .qhad => 0xA1 | .qstep => 0xA2 | .qload => 0xA3

/-- Every operation, by ascending code. -/
def SOp.all : List SOp :=
  [.nop, .fin, .jump, .branch, .loop, .setix, .addix, .wait, .waitTake, .signal, .setctr, .start,
   .release, .fence, .movs, .mma, .load, .drain, .dattn, .config, .vload, .vstore, .clove, .reduce]
  ++ [.topk, .compress, .expand, .combine, .pload, .bset, .adec, .append, .amerge, .agather, .xload,
   .aconfig, .arm, .armd, .stop, .qrun, .qhad, .qstep, .qload]

/-- The operation of a code, none where the class or function is reserved. -/
def SOp.ofCode (c : Nat) : Option SOp := SOp.all.find? fun o => o.code == c

/-- The engine class of an operation; 0 is CTRL. -/
def SOp.cls (o : SOp) : Nat := o.code / 32

/-- The payload of an operation from bit 32 up: widths, with whether the bits are a field or reserved as zero. The bits above
the last are reserved too. -/
def SOp.layout : SOp → List (Nat × Bool)
  | .nop => [] | .fin => []
  | .jump => [(14, true)]
  | .branch => [(14, true), (2, false), (4, true), (5, true), (7, false), (64, true)]
  | .loop => [(14, true), (2, false), (3, true)]
  | .setix => [(16, false), (3, true), (13, false), (64, true)]
  | .addix => [(16, false), (3, true), (13, false), (64, true)]
  | .wait => [(15, true), (1, true), (4, true), (12, false), (32, true)]
  | .waitTake => [(15, true), (1, true), (4, true), (12, false), (32, true)]
  | .signal => [(15, true), (17, false), (16, true)]
  | .setctr => [(15, true), (17, false), (32, true)]
  | .start => [(4, true), (12, false), (14, true), (34, false), (32, true)]
  | .release => [(4, true), (12, false), (14, true)]
  | .fence => [(9, true)]
  | .movs => [(16, false), (3, true), (5, false), (4, true)]
  | .mma => [(32, true), (9, true), (20, true), (5, true), (2, true), (1, true), (1, true), (4, true)
            , (13, true), (6, true)]
  | .load => [(32, true), (9, true), (5, true)]
  | .drain => [(32, true), (9, true), (5, true), (1, true), (4, true), (5, true), (1, true)]
  | .dattn => [(32, true)]
  | .config => [(32, true), (4, true), (4, true), (2, true), (4, true)]
  | .vload => [(32, true), (5, true), (5, true), (5, true), (4, true)]
  | .vstore => [(32, true), (5, true), (5, true), (5, true), (4, true)]
  | .clove => [(32, true), (11, true), (6, true)]
  | .reduce => [(32, true)] | .topk => [(32, true)] | .compress => [(32, true)]
  | .expand => [(32, true)] | .combine => [(32, true)]
  | .pload => [(32, true), (11, true), (12, true)]
  | .bset => [(32, true), (4, true)]
  | .adec => [(32, true)] | .append => [(32, true)] | .amerge => [(32, true)]
  | .agather => [(32, true)]
  | .xload => [(32, true), (19, true), (20, true)]
  | .aconfig => [(32, true), (3, true), (4, true)]
  | .arm => [(32, true), (6, true)]
  | .armd => [(32, true), (6, true), (10, false), (48, true)]
  | .stop => [(32, true), (6, true)]
  | .qrun => [(32, true), (32, true), (5, true), (5, true), (12, true), (1, true), (4, true)]
  | .qhad => [(32, true)]
  | .qstep => [(32, true), (4, true), (1, true)]
  | .qload => [(32, true), (5, true), (6, true)]

/-- Bits laid end to end from the low end, each value cut to its width. -/
def packFields : List (Nat × Bool) → List Nat → Nat
  | [], _ => 0
  | (w, _) :: l, [] => 2 ^ w * packFields l []
  | (w, true) :: l, v :: vs => v % 2 ^ w + 2 ^ w * packFields l vs
  | (w, false) :: l, vs => 2 ^ w * packFields l vs

/-- The fields of a payload; none where a reserved bit is set. -/
def unpackFields : List (Nat × Bool) → Nat → Option (List Nat)
  | [], n => if n = 0 then some [] else none
  | (w, true) :: l, n => (unpackFields l (n / 2 ^ w)).map fun vs => n % 2 ^ w :: vs
  | (w, false) :: l, n => if n % 2 ^ w = 0 then unpackFields l (n / 2 ^ w) else none

/-- An instruction: its header fields and its payload fields in the order of `SOp.layout`. In the engine classes the first
payload field is the primary engine address (R85). -/
structure SInstr where
  op : SOp
  queue : Nat := 0
  sigEn : Nat := 0
  sigCtr : Nat := 0
  ix : Nat := 0
  ixEn : Nat := 0
  args : List Nat := []
  deriving DecidableEq, Repr

/-- The 128-bit word of an instruction (R84). -/
def SInstr.encode (i : SInstr) : Nat :=
  i.op.code + 2 ^ 8 * (i.queue % 2 ^ 4) + 2 ^ 12 * (i.sigEn % 2) + 2 ^ 13 * (i.sigCtr % 2 ^ 15)
    + 2 ^ 28 * (i.ix % 2 ^ 3) + 2 ^ 31 * (i.ixEn % 2) + 2 ^ 32 * packFields i.op.layout i.args

/-- A class may name a queue (R86): arrays 0–3, and one kind of queue for each other class. -/
def queueOk (cls q : Nat) : Bool :=
  match cls with
  | 0 => q == 0
  | 1 => decide (q < 4)
  | 2 => q == 4
  | 3 => q == 5
  | 4 => q == 7 || q == 8
  | 5 => q == 6
  | _ => false

/-- Argument `i` of an instruction. -/
def SInstr.arg (i : SInstr) (n : Nat) : Nat := i.args.getD n 0

/-- The rules of R86, R87, R88, R112 and R219 on fields that are not reserved bits of the layout. -/
def SInstr.legal (i : SInstr) : Bool :=
  queueOk i.op.cls i.queue
    && (i.op.cls != 0 || (i.sigEn == 0 && i.sigCtr == 0 && i.ixEn == 0))
    && (match i.op with
      | .branch => decide (i.arg 1 < 8) && decide (i.arg 2 < 24)
      | .wait => i.arg 1 == 0 || decide (i.arg 2 < 9)
      | .waitTake => i.arg 1 == 0 || decide (i.arg 2 < 9)
      | .config => i.arg 0 == 0 && i.ixEn == 0
      | .armd => i.arg 0 == 0 && i.ixEn == 0
      | .stop => i.arg 0 == 0 && i.ixEn == 0
      | .qstep => i.arg 2 == 1 || i.arg 0 == 0
      | _ => true)

/-- The instruction a word holds; none where it is illegal (R86). -/
def SInstr.decode (w : Nat) : Option SInstr :=
  match SOp.ofCode (w % 2 ^ 8) with
  | none => none
  | some op =>
    match unpackFields op.layout (w / 2 ^ 32) with
    | none => none
    | some args =>
      let i : SInstr := { op := op, queue := nbits w 8 4, sigEn := nbits w 12 1, sigCtr := nbits w 13 15
                          ix := nbits w 28 3, ixEn := nbits w 31 1, args := args }
      if i.legal then some i else none

/-- Fields within their widths, as many as the layout names. -/
def fitsLayout : List (Nat × Bool) → List Nat → Bool
  | [], vs => vs.isEmpty
  | (w, true) :: l, v :: vs => decide (v < 2 ^ w) && fitsLayout l vs
  | (_, true) :: _, [] => false
  | (_, false) :: l, vs => fitsLayout l vs

/-- A well-formed instruction: every field within its width and the rules of R86 kept. -/
def SInstr.wf (i : SInstr) : Bool :=
  decide (i.queue < 2 ^ 4) && decide (i.sigEn < 2) && decide (i.sigCtr < 2 ^ 15) && decide (i.ix < 2 ^ 3)
    && decide (i.ixEn < 2) && fitsLayout i.op.layout i.args && i.legal

/-- Entries an engine queue holds (R86). -/
def queueDepth (q : Nat) : Nat := if q < 5 then 32 else 16

/-- The array, vector, attention, quantisation and transfer queues of the nine (R86). -/
def nQueues : Nat := 9

end Sys2Proof.Machine
end

