-- ==== Sys2Proof/Machine/Matrix.lean ====
section
/-! DEFINITION. The matrix arrays: narrow accumulation and promotion, MMA with its fill waits and releases, LOAD, CONFIG and
dense attention (R102–R122, R126–R145). -/

namespace Sys2Proof.Machine

/-! ### Accumulation (R126–R133) -/

/-- A product taken into a floating-point sum: an infinite one counts as the largest NA24 value and saturates (R133). -/
def prodIn : FV → FV × Bool
  | .inf n => (.fin n (2 ^ 16 - 1) 112, true)
  | v => (v, false)

/-- A product added to a narrow partial, held as the FP32 pattern of its NA24 value (R126, R129, R132). -/
def naAdd (part : Nat) (prod : FV) : Nat × Bool :=
  let p := prodIn prod
  match (f32 part).add p.1 with
  | .fin n m e =>
    let c := Fmt.na24.round m e
    if Fmt.na24.top < c then (2 ^ 31 * b2n n + Fmt.na24.top * 256, true)
    else (2 ^ 31 * b2n n + c * 256, p.2)
  | _ => (nan32, p.2)

/-- A partial promoted into an FP32 tile element, after its second-level scale: the element, and whether it saturated or the
promoted value was NaN (R111, R129, R132, R133). -/
def promoteF (elem part : Nat) (g : Option FV) : Nat × Bool × Bool :=
  let x : Lane := match g with
    | none => (part, false)
    | some g => Fmt.fp32.encode ((f32 part).mul g)
  if isNan32 x.1 || isNan32 elem then (nan32, x.2, isNan32 x.1)
  else
    let r := Fmt.fp32.encode ((f32 elem).add (f32 x.1))
    (r.1, x.2 || r.2, false)

/-- An INT24 partial promoted into an INT32 element (R131). -/
def promoteI (elem part : Nat) : Nat × Bool :=
  let r := satInt 32 (signed 32 elem + signed 32 part)
  (unsigned 32 r.1, r.2)

/-- A running sum of products: tile element, partial of the open chunk, products in it, flags. -/
structure Dot where
  elem : Nat := 0
  part : Nat := 0
  n : Nat := 0
  sat : Bool := false
  nan : Bool := false

/-- The open chunk promoted. -/
def Dot.close (d : Dot) : Dot :=
  if d.n = 0 then d
  else
    let r := promoteF d.elem d.part none
    { elem := r.1, part := 0, n := 0, sat := d.sat || r.2.1, nan := d.nan || r.2.2 }

/-- One product added; a full chunk of 128 is promoted (R102). -/
def Dot.step (d : Dot) (p : FV) : Dot :=
  let r := naAdd d.part p
  let d := { d with part := r.1, n := d.n + 1, sat := d.sat || r.2 }
  if d.n = 128 then d.close else d

/-- A sum of products from a starting element, as an MMA forms it (R102, R129). -/
def dotFrom (elem : Nat) (ps : List FV) : Dot := (ps.foldl Dot.step { elem := elem }).close

/-- A promotion counted in a tile's status word: CHUNKS, BOUND and the flags (R134, R140). -/
def TileStat.promoted (t : TileStat) (sat nan : Bool) : TileStat :=
  let t := { t with sat := t.sat || sat, nan := t.nan || nan }
  if !t.first then { t with first := true }
  else if t.chunks < 16383 then { t with chunks := t.chunks + 1 }
  else { t with bound := true }

/-! ### Formats of an array queue -/

/-- Format state of an array. -/
def State.arrState (s : State) (k a : Nat) : ArrFmt := s.arrFmt.get {} (4 * k + a)

/-- The combination accumulates in integers (R113, R128). -/
def ArrFmt.int (f : ArrFmt) : Bool := f.afmt == 5

/-- The legal combinations of R113. -/
def ArrFmt.legal (f : ArrFmt) : Bool :=
  (f.afmt < 2 && f.wfmt < 5 && f.sk < 3) || (f.afmt < 2 && f.wfmt == 5 && f.sk == 2)
    || (f.afmt == 5 && (f.wfmt == 5 || f.wfmt == 6) && f.sk == 0)
    || (f.afmt == 7 && f.wfmt == 7 && f.sk == 0) || (f.afmt == 8 && f.wfmt == 8 && f.sk == 0)

/-- Weight k-rows in a tile (R105). -/
def kRows (wfmt : Nat) : Nat := if elemBits wfmt = 16 then 32 else if elemBits wfmt = 4 then 128 else 64

/-- Scale records in a tile, and bytes in one (R110). -/
def recsPerTile (sk : Nat) : Nat := if sk = 1 then 7 else 16
def recBytes (sk : Nat) : Nat := if sk = 1 then 288 else 128

/-- The block scale of a record for element k and column n (R110, R173). -/
def blockScale (sk : Nat) (rec : List Byte) (k n : Nat) : FV :=
  let at' (o : Nat) := field rec o 1
  if sk = 1 then ue5m3 (at' (32 + 32 * (k % 128 / 16) + n)) else e8m0 (at' (32 * (k % 128 / 32) + n))

/-- A weight element with its block scale: a zero scale makes the element zero (R111, R173, R174). -/
def scaledWeight (wfmt sk v : Nat) (sc : FV) : FV :=
  let w := elemValue wfmt v
  if sk = 0 then w
  else if sc.isZero then .zero
  else (if wfmt = 5 then w.mul (.fin false 1 (-6)) else w).mul sc

/-! ### Waits on tiles being drained (R115) -/

/-- An earlier DRAIN of the slice has been taken and has not read the tile yet. -/
def State.tileBeingRead (s : State) (k t : Nat) : Bool :=
  (List.range 4).any fun q => ((s.seq k).queues.get [] q).any fun e =>
    !e.tileRead && (match e.phase with
      | .running _ => true
      | .trapped _ => true
      | .buffered => true
      | _ => false)
    && (match SInstr.decode e.op with
      | some i => i.op == .drain && i.arg 1 == t
      | none => false)

/-- An array operation fails its checks: the event, and the status it will complete with (R117, R125). -/
def State.arrFail (s : State) (k a : Nat) (e : QEntry) (st : Status) : State × QEntry :=
  (s.engEvent k (Pg.arr k a) (if st = .length then 1 else 0) st, { e with phase := .running st })

/-- Arithmetic cycles of an MMA (Table Compute cycles, R118). -/
def mmaCycles (f : ArrFmt) (m kk mode : Nat) : Nat :=
  let thin := mode == 2 || (mode == 0 && m ≤ 8)
  let c := if elemBits f.afmt = 16 then (if thin then 2 * m * ceilDiv kk 32 else 2 * kk)
    else if elemBits f.wfmt = 4 then (if thin then m * ceilDiv kk 64 else ceilDiv kk 2)
    else if thin then m * ceilDiv kk 32 else kk
  max c 4

/-! ### MMA -/

/-- The fields of an MMA. -/
structure MmaOp where
  addr : Nat
  acc : Nat
  kk : Nat
  m : Nat
  mode : Nat
  zero : Bool
  arel : Bool
  wreg : Nat
  woff : Nat
  soff : Nat

/-- The fields of an MMA instruction. -/
def SInstr.mma (i : SInstr) : MmaOp :=
  { addr := i.arg 0, acc := i.arg 1, kk := i.arg 2, m := i.arg 3 + 1, mode := i.arg 4, zero := i.arg 5 == 1
    arel := i.arg 6 == 1, wreg := i.arg 7, woff := i.arg 8, soff := i.arg 9 }

/-- Bytes from the activation address to the last byte read (R104, R117). -/
def MmaOp.aExtent (o : MmaOp) (f : ArrFmt) : Nat :=
  let s := elemBits f.afmt / 8
  (((o.kk - 1) / 32) * o.m + (o.m - 1)) * 32 * s + ((o.kk - 1) % 32 + 1) * s

/-- The checks of an MMA in the order of R117 (R103, R104, R106, R108, R110, R114, R128). -/
def State.mmaCheck (s : State) (k a : Nat) (o : MmaOp) : Status :=
  let f := s.arrState k a
  let t := s.tileOf k o.acc
  let w := s.region k o.wreg
  let g := s.region k f.sreg
  match s.ea k o.addr with
  | none => .access
  | some e =>
    if e.acc || !aligned e.off 32 || o.mode == 3 || !w.en || (f.sk != 0 && !g.en) then .access
    else if o.zero && t.isOpen then .access
    else if !o.zero && (!t.isOpen || t.owner != a || t.int != f.int) then .access
    else if o.arel && (o.woff != 0 || o.soff != 0) then .access
    else if o.kk = 0 ∨ (o.mode = 2 ∧ 8 < o.m) then .length
    else if !e.fits (o.aExtent f) then .length
    else if !o.arel && decide (w.tiles < o.woff + ceilDiv o.kk (kRows f.wfmt)) then .length
    else if !o.arel && f.sk != 0
        && decide (g.tiles < ceilDiv (o.soff + ceilDiv o.kk 128) (recsPerTile f.sk)) then .length
    else .ok

/-- The tiles of element k of the reduction are filled: weights, and the scale record (R107). -/
def State.mmaCovered (s : State) (k : Nat) (f : ArrFmt) (o : MmaOp) (r : MmaRun) (i : Nat) : Bool :=
  decide (r.wBase + o.woff + i / kRows f.wfmt < (s.region k o.wreg).filled)
    && (f.sk == 0 || decide (r.sBase + (o.soff + i / 128) / recsPerTile f.sk < (s.region k f.sreg).filled))

/-- The scale record of element k, empty where the weights carry none. -/
def State.mmaRecord (s : State) (k : Nat) (f : ArrFmt) (o : MmaOp) (r : MmaRun) (i : Nat) : List Byte :=
  if f.sk = 0 then []
  else
    let j := o.soff + i / 128
    s.rdMem .ws (2 ^ 24 * k + (s.region k f.sreg).tileOff (r.sBase + j / recsPerTile f.sk)
      + j % recsPerTile f.sk * recBytes f.sk) (recBytes f.sk)

/-- The products of element k, row after row: 32 columns each, exact (R102). -/
def State.mmaProducts (s : State) (k : Nat) (f : ArrFmt) (o : MmaOp) (r : MmaRun) (e : EA) (i : Nat) : List FV :=
  let wrow := s.rdMem .ws (2 ^ 24 * k + (s.region k o.wreg).tileOff (r.wBase + o.woff + i / kRows f.wfmt)
    + i % kRows f.wfmt * rowBytes f.wfmt) (rowBytes f.wfmt)
  let rec' := s.mmaRecord k f o r i
  let ws := (List.range 32).map fun n =>
    scaledWeight f.wfmt f.sk (packedElem f.wfmt wrow n) (if f.sk = 0 then .zero else blockScale f.sk rec' i n)
  (List.range o.m).flatMap fun row =>
    let av := elemValue f.afmt (s.kElem e o.m f.afmt row i)
    ws.map fun w => av.mul w

/-- The 32-bit elements of rows 0 to m − 1 of a tile. -/
def State.tileElems (s : State) (k t m : Nat) : List Nat :=
  (List.range (32 * m)).map fun i => leNat (s.rdMem .acc (2 ^ 21 * k + t * 4096 + 4 * i) 4)

/-- The elements of rows 0 to m − 1 of a tile written by its array. -/
def State.putTileElems (s : State) (k t : Nat) (vs : List Nat) : State :=
  s.wrMem .acc (2 ^ 21 * k + t * 4096) (vs.flatMap fun v => toLe 4 v)

/-- The partials of a chunk promoted into a tile, its status word updated, a promotion past BOUND counted (R129–R134, R140). -/
def State.promoteTile (s : State) (k t m : Nat) (int : Bool) (parts : List Nat) (gs : List (Option FV))
    (sat : Bool) : State :=
  let old := s.tileElems k t m
  let rs := (List.range (32 * m)).map fun i =>
    if int then
      let r := promoteI (old.getD i 0) (parts.getD i 0)
      (r.1, r.2, false)
    else promoteF (old.getD i 0) (parts.getD i 0) (gs.getD (i % 32) none)
  let was := (s.tileOf k t).bound
  let s := (s.putTileElems k t (rs.map fun r => r.1)).modTile k t fun st =>
    st.promoted (sat || rs.any fun r => r.2.1) (rs.any fun r => r.2.2)
  if was then s.bump (Pg.ws k + 0x210) 1 else s

/-- One element of the reduction: its products added, and at the end of a chunk the promotion, at the last row of a tile the
release (R102, R107, R108, R111, R130). -/
def State.mmaElem (s : State) (k : Nat) (f : ArrFmt) (o : MmaOp) (e : EA) (r : MmaRun) : State × MmaRun :=
  let i := r.k
  let ps := s.mmaProducts k f o r e i
  let adds : List (Nat × Bool) := (List.range ps.length).map fun j =>
    let p := ps.getD j .zero
    let x := r.partials.getD j 0
    if f.int then (unsigned 32 (signed 32 x + roundInt p), false) else naAdd x p
  let parts := adds.map fun x => x.1
  let sat := adds.any fun x => x.2
  let chunkEnd := (i + 1) % 128 == 0 || i + 1 == o.kk
  let s := if sat then s.modTile k o.acc fun t => { t with sat := true } else s
  let s := if chunkEnd then
      let g : Option FV := if f.sk = 1 then some (secondLevel (field (s.mmaRecord k f o r i) 0 4)) else none
      s.promoteTile k o.acc o.m f.int parts (List.replicate 32 g) false
    else s
  let s := if o.arel && ((i + 1) % kRows f.wfmt == 0 || i + 1 == o.kk) then s.releaseTiles k o.wreg 1 else s
  let recEnd := chunkEnd && ((i / 128 + 1) % recsPerTile f.sk == 0 || i + 1 == o.kk)
  let s := if o.arel && f.sk != 0 && recEnd then s.releaseTiles k f.sreg 1 else s
  (s, { r with k := i + 1, partials := if chunkEnd then [] else parts })

/-- An MMA runs as far as its tiles are filled; it waits for the next tile, or has made its effect (R107, R118). -/
def State.mmaRun (s : State) (k a : Nat) (q : QEntry) (o : MmaOp) (r : MmaRun) : State × QEntry :=
  let f := s.arrState k a
  match s.ea k o.addr with
  | none => s.arrFail k a q .access
  | some e =>
    let go := ((List.range (o.kk - r.k)).takeWhile fun j => s.mmaCovered k f o r (r.k + j)).length
    let res := (List.range go).foldl (fun (x : State × MmaRun) _ => x.1.mmaElem k f o e x.2) (s, r)
    let s := res.1.bump (Pg.arr k a + 0x128) (go * o.m * 32)
    if res.2.k < o.kk then (s, { q with phase := .starved s.clk, mma := some res.2 })
    else (s.bump (Pg.arr k a + 0x118) (mmaCycles f o.m o.kk o.mode)
        , { q with phase := .running .ok, mma := some res.2 })

/-- MMA: checked, its group opened where ZERO is set, and run (R102–R118). -/
def State.startMma (s : State) (k a : Nat) (q : QEntry) (i : SInstr) : State × QEntry :=
  let o := i.mma
  let st := s.mmaCheck k a o
  if st ≠ .ok then s.arrFail k a q st
  else if o.zero && s.tileBeingRead k o.acc then (s, { q with phase := .openWait })
  else
    let f := s.arrState k a
    let s := if o.zero then
        ((s.clrMem .acc (2 ^ 21 * k + o.acc * 4096) 4096).modTile k o.acc fun _ =>
          { isOpen := true, owner := a, int := f.int })
      else s
    s.mmaRun k a q o
      { wBase := (s.region k o.wreg).released, sBase := (s.region k f.sreg).released
        regs := o.wreg :: (if f.sk = 0 then [] else [f.sreg]) }

/-- The region fill covers the next tile and a waiting MMA continues; the cycles it waited are counted (R107). -/
def State.resumeMma (s : State) (k a : Nat) (q : QEntry) (i : SInstr) : State × QEntry :=
  match q.phase, q.mma with
  | .starved since, some r =>
    if s.mmaCovered k (s.arrState k a) i.mma r r.k then
      (s.bump (Pg.arr k a + 0x120) (s.ticksCyc (s.clk - since))).mmaRun k a q i.mma { r with long := false }
    else (s, q)
  | _, _ => (s, q)

/-! ### LOAD and CONFIG -/

/-- An element loaded from the working store into a floating-point group (R135). -/
def loadElem (x : Nat) : Nat × Bool × Bool :=
  match f32 x with
  | .nan => (nan32, false, true)
  | .inf n => (Fmt.fp32.signed n max32, true, false)
  | _ => (x, false, false)

/-- LOAD: a group opened with an exact copy of a source tile and its status word (R114, R134–R136). -/
def State.startLoad (s : State) (k a : Nat) (q : QEntry) (i : SInstr) : State × QEntry :=
  let t := i.arg 1
  let m := i.arg 2 + 1
  match s.ea k (i.arg 0) with
  | none => s.arrFail k a q .access
  | some e =>
    if !aligned e.off 32 || (s.tileOf k t).isOpen then s.arrFail k a q .access
    else if !e.fits (128 * m) then s.arrFail k a q .length
    else if s.tileBeingRead k t then (s, { q with phase := .openWait })
    else
      let int := (s.arrState k a).int
      let src := (List.range (32 * m)).map fun j => leNat (s.eaRead (e.plus (4 * j)) 4)
      let clear (s : State) := s.clrMem .acc (2 ^ 21 * k + t * 4096) 4096
      if e.acc then
        let t0 := s.tileOf e.slice (e.off / 4096)
        let t1 := if (e.off + 128 * m - 1) / 4096 = e.off / 4096 then {}
          else s.tileOf e.slice (e.off / 4096 + 1)
        let st : TileStat :=
          { chunks := t0.chunks, first := true, sat := t0.sat || t1.sat, nan := t0.nan || t1.nan
            bound := t0.bound || t1.bound, attn := t0.attn || t1.attn, int := int, isOpen := true, owner := a, stats := t0.stats }
        (((clear s).putTileElems k t src).modTile k t fun _ => st, { q with phase := .running .ok })
      else
        let ld := src.map fun x => if int then (x, false, false) else loadElem x
        let st : TileStat :=
          { first := true, sat := ld.any fun x => x.2.1, nan := ld.any fun x => x.2.2
            int := int, isOpen := true, owner := a }
        (((clear s).putTileElems k t (ld.map fun x => x.1)).modTile k t fun _ => st
          , { q with phase := .running .ok })

/-- CONFIG: the queue's format state set, or left on a combination outside R113. -/
def State.startConfig (s : State) (k a : Nat) (q : QEntry) (i : SInstr) : State × QEntry :=
  let f : ArrFmt := { afmt := i.arg 1, wfmt := i.arg 2, sk := i.arg 3, sreg := i.arg 4 }
  if !f.legal then s.arrFail k a q .access
  else ({ s with arrFmt := s.arrFmt.put (4 * k + a) f }, { q with phase := .running .ok })

/-! ### Dense attention (R119–R122) -/

/-- The online softmax state of a row: m, l and the output row, FP32 patterns; −∞ is the FP32 infinity. -/
structure AttRow where
  m : Nat := 0xFF800000
  l : Nat := 0
  o : List Nat := []
  /-- Saturations by tile, the statistics tile last, and NaN promotions by output tile. -/
  sat : List Bool := []
  nan : List Bool := []

/-- −∞. -/
def negInf : Nat := 0xFF800000

/-- MAX of R120 over values that may be −∞. -/
def attMax (a b : Nat) : Nat :=
  if a = negInf then b else if b = negInf then a else fMax a b

/-- e^(x − m) of R120, 0 where x is −∞. -/
def attExp (x m : Nat) : Nat := if x = negInf then 0 else (fExp (fSub x m).1).1

/-- One block of the online softmax for one row: scores (−∞ where not admissible), the rounding of p, and the block's values,
key after key (R120). A saturation or a NaN promotion is the tile's whose addition met it; one in forming the scores, which stand in no
tile, counts for every tile of the operation (R132, R133; DESIGN CHOICE, log entry 91). -/
def AttRow.block (r : AttRow) (sc : List Nat) (scSat : Bool) (cvt : Nat → Nat × FV) (vs : List (List FV)) : AttRow :=
  let mb := sc.foldl attMax r.m
  let ps := sc.map fun x => cvt (attExp x mb)
  let a := if r.m = mb then 0x3F800000 else attExp r.m mb
  let l := ps.foldl (fun (l : Nat × Bool) p => let x := fAdd l.1 p.1; (x.1, l.2 || x.2)) (fMul r.l a)
  let cols := (List.range r.o.length).map fun c =>
    let o0 := fMul (r.o.getD c 0) a
    let d := dotFrom o0.1 ((List.range ps.length).map fun j =>
      ((ps.getD j (0, .zero)).2).mul ((vs.getD j []).getD c .zero))
    { d with sat := d.sat || o0.2 }
  let tile (f : Dot → Bool) (t : Nat) := ((cols.drop (32 * t)).take 32).any f
  let g := r.o.length / 32
  { m := mb, l := l.1, o := cols.map fun d => d.elem
    sat := (List.range (g + 1)).map fun t => r.sat.getD t false || scSat || (if t = g then l.2 else tile (·.sat) t)
    nan := (List.range g).map fun t => r.nan.getD t false || tile (·.nan) t }

/-- p rounded to a format: its value back in FP32, and exactly (R120). -/
def attCvt (code x : Nat) : Nat × FV :=
  let e := storeConv code false x
  ((loadConv code e.1).1, elemValue code e.1)

/-- The fields of a dense attention descriptor (R119). -/
structure DattnOp where
  q : Nat
  kt : Nat
  v : Nat
  acc : Nat
  m : Nat
  d : Nat
  nk : Nat
  qpos : Nat
  kpos : Nat
  win : Nat
  scale : Nat
  mask : Nat
  cont : Bool
  fmt : Nat
  clean : Bool

/-- A dense attention descriptor read from its 64 bytes. Bits its table leaves unnamed must be zero, or DATTN ends with ACCESS (DESIGN
CHOICE, log entry 91). -/
def DattnOp.ofBytes (b : List Byte) : DattnOp :=
  let f := field b 36 1
  { q := field b 0 4, kt := field b 4 4, v := field b 8 4, acc := field b 12 2 % 512, m := field b 14 1 % 32 + 1
    d := 32 * (field b 15 1 % 32 + 1), nk := field b 16 3, qpos := field b 20 3, kpos := field b 24 3
    win := field b 28 3, scale := field b 32 4, mask := f % 4, cont := f / 4 % 2 == 1
    fmt := if f / 8 % 2 = 1 then 7 else 0
    clean := field b 12 2 < 512 && field b 14 1 < 32 && field b 15 1 < 32 && field b 19 1 == 0
      && field b 23 1 == 0 && field b 27 1 == 0 && field b 31 1 == 0 && f < 16 && field b 37 27 == 0 }

/-- Key j is admissible for row r; a window of 0 is unlimited (R119). -/
def DattnOp.admits (o : DattnOp) (r j : Nat) : Bool :=
  let kp := o.kpos + j
  let qp := o.qpos + r
  decide (j < o.nk) && (o.mask == 0 || (decide (kp ≤ qp) && (o.mask == 1 || o.win == 0 || decide (qp < kp + o.win))))

/-- The checks of DATTN in the order of R117 (R120, R122). Keys and values, as the queries, lie in the working store (DESIGN CHOICE, log
entry 91). -/
def State.dattnCheck (s : State) (k a : Nat) (o : DattnOp) : Status :=
  let g := o.d / 32
  let nb := ceilDiv o.nk 32
  let es := elemBits o.fmt / 8
  let tiles := (((List.range (g + 1)).map fun i => o.acc + i).filter fun t => decide (t < 512)).map fun t => s.tileOf k t
  match s.ea k o.q, s.ea k o.kt, s.ea k o.v with
  | some q, some kt, some v =>
    if !o.clean || o.mask == 3 || q.acc || kt.acc || v.acc
        || !aligned q.off 32 || !aligned kt.off 32 || !aligned v.off 32 then .access
    else if (if o.cont then tiles.any fun t => !t.isOpen || t.owner != a
        else tiles.any fun t => t.isOpen) then .access
    else if 511 < o.acc + g ∨ 4194304 < o.kpos + o.nk then .length
    else if !q.fits (o.m * o.d * es) || !kt.fits (nb * 32 * o.d * es) || !v.fits (nb * 32 * o.d * es) then .length
    else .ok
  | _, _, _ => .access

/-- The rows as DATTN finds them: zero, or from the open tiles (R120). -/
def State.dattnRows (s : State) (k : Nat) (o : DattnOp) : List AttRow :=
  let g := o.d / 32
  (List.range o.m).map fun r =>
    if o.cont then
      let at' (t c : Nat) := leNat (s.rdMem .acc (2 ^ 21 * k + (o.acc + t) * 4096 + 128 * r + 4 * c) 4)
      { m := at' g 0, l := at' g 1, o := (List.range o.d).map fun c => at' (c / 32) (c % 32) }
    else { o := List.replicate o.d 0 }

/-- One block of 32 keys for every row (R120). -/
def State.dattnBlock (s : State) (o : DattnOp) (q kt v : EA) (rows : List AttRow) (b : Nat) : List AttRow :=
  let rb := rowBytes o.fmt
  let key (d j : Nat) := elemValue o.fmt (packedElem o.fmt (s.eaRead (kt.plus (b * o.d * rb + d * rb)) rb) j)
  let keys := (List.range 32).map fun j => (List.range o.d).map fun d => key d j
  let vals := (List.range 32).map fun j => (List.range (o.d / 32)).flatMap fun g =>
    let row := s.eaRead (v.plus ((b * (o.d / 32) + g) * 32 * rb + j * rb)) rb
    (List.range 32).map fun c => elemValue o.fmt (packedElem o.fmt row c)
  (List.range rows.length).map fun r =>
    let row := rows.getD r {}
    let qv := (List.range o.d).map fun d => elemValue o.fmt (s.kElem q o.m o.fmt r d)
    let ds := (List.range 32).map fun j =>
      if o.admits r (32 * b + j) then
        let x := dotFrom 0 ((List.range o.d).map fun d => (qv.getD d .zero).mul ((keys.getD j []).getD d .zero))
        let y := fMul x.elem o.scale
        (y.1, x.sat || y.2)
      else (negInf, false)
    row.block (ds.map fun x => x.1) (ds.any fun x => x.2) (attCvt o.fmt) vals

/-- The rows stored: output tiles, statistics tile, status words (R120, R121, R141). Rows from M on of an output tile that goes on keep
their values. A group that opens takes the numeric mode of the queue's CONFIG state (R128). -/
def State.dattnStore (s : State) (k a : Nat) (o : DattnOp) (rows : List AttRow) : State :=
  let g := o.d / 32
  let int := (s.arrState k a).int
  let s := (List.range (g + 1)).foldl (fun s t =>
    let s := if o.cont && t != g then s else s.clrMem .acc (2 ^ 21 * k + (o.acc + t) * 4096) 4096
    s.putTileElems k (o.acc + t) (rows.flatMap fun r =>
      if t = g then [r.m, r.l] ++ List.replicate 30 0 else (r.o.drop (32 * t)).take 32)) s
  (List.range (g + 1)).foldl (fun s t =>
    s.modTile k (o.acc + t) fun st =>
      { sat := (o.cont && st.sat) || rows.any fun r => r.sat.getD t false
        nan := (o.cont && st.nan) || rows.any fun r => r.nan.getD t false
        int := if o.cont then st.int else int, attn := true, isOpen := true, owner := a, stats := t == g }) s

/-- DATTN: dense attention of one head over a run of keys; each row without an admissible key is counted and reported (R119–R122, R141). -/
def State.startDattn (s : State) (k a : Nat) (qe : QEntry) (i : SInstr) : State × QEntry :=
  match s.ea k (i.arg 0) with
  | none => s.arrFail k a qe .access
  | some de =>
    if !aligned de.off 64 then s.arrFail k a qe .access
    else if !de.fits 64 then s.arrFail k a qe .length
    else
      let o := DattnOp.ofBytes (s.eaRead de 64)
      if o.nk = 0 then (s, { qe with phase := .running .ok })
      else
        let st := s.dattnCheck k a o
        if st ≠ .ok then s.arrFail k a qe st
        else if !o.cont && (List.range (o.d / 32 + 1)).any fun t => s.tileBeingRead k (o.acc + t) then
          (s, { qe with phase := .openWait })
        else match s.ea k o.q, s.ea k o.kt, s.ea k o.v with
          | some q, some kt, some v =>
            let blocks := (List.range (ceilDiv o.nk 32)).filter fun b =>
              (List.range o.m).any fun r => (List.range 32).any fun j => o.admits r (32 * b + j)
            let rows := blocks.foldl (s.dattnBlock o q kt v) (s.dattnRows k o)
            let empty := (rows.filter fun r => isZero32 r.l).length
            let s := s.dattnStore k a o rows
            let per := (if o.fmt = 7 then 4 else 2) * o.d + 16
            let s := s.bump (Pg.arr k a + 0x118) (blocks.length * per + 40)
            let s := s.bump (Pg.arr k a + 0x128) (blocks.length * o.m * 64 * o.d)
            let s := s.bump (Pg.arr k a + 0x130) empty
            ((List.range empty).foldl (fun s _ => s.engEvent k (Pg.arr k a) 2 .ok) s, { qe with phase := .running .ok })
          | _, _, _ => s.arrFail k a qe .access

/-- Every group an array owns closed without draining (`ARR_CTRL.CLOSE_ALL`). -/
def State.closeAll (s : State) (k a : Nat) : State :=
  { s with tiles := ⟨s.tiles.items.map fun e =>
      if e.1 / 512 = k ∧ e.2.isOpen ∧ e.2.owner = a then (e.1, { e.2 with isOpen := false, owner := 0 }) else e⟩ }

/-- Groups an array owns. -/
def State.openGroups (s : State) (k a : Nat) : Nat :=
  (s.tiles.items.filter fun e => e.1 / 512 == k && e.2.isOpen && e.2.owner == a).length

end Sys2Proof.Machine
end

