-- ==== Sys2Proof/Machine/Lane.lean ====
section
/-! DEFINITION. Clove programs and Blend chains: the per-element operations of the vector engine (R148, R154–R157,
R165–R167, R514). -/

namespace Sys2Proof.Machine

/-- A lane value with whether its computation has met a NaN (R514). -/
structure CVal where
  v : Nat := 0
  t : Bool := false
  deriving DecidableEq, Repr

/-- A float result with its side effects: NaN met, saturations, divisions by zero. -/
structure LaneOut where
  v : Nat
  nan : Bool := false
  sat : Nat := 0
  divz : Nat := 0

/-- A float result of sources `src`. -/
def floatOut (src : List Nat) (r : Lane) : LaneOut :=
  { v := r.1, nan := isNan32 r.1 || src.any isNan32, sat := b2n r.2 }

/-- An integer result held to INT32. -/
def intOut (i : Int) : LaneOut :=
  let r := satInt 32 i
  { v := unsigned 32 r.1, sat := b2n r.2 }

/-- 1.0 or 0.0. -/
def truth (b : Bool) : Nat := if b then 0x3F800000 else 0

/-- A whole number as an FP32 value, its sign of zero kept from the source (IEEE 754). -/
def wholeF (a : Nat) (i : Int) : Nat :=
  let r := (toLane (FV.ofInt i)).1
  if i = 0 then r + 2 ^ 31 * nbits a 31 1 else r

/-- The functions a Blend stage selects by SUB (R165): identity, ReLU, SiLU, GELU, SIGMOID, TANH, EXP. -/
def actFn (sub x : Nat) : Lane :=
  match sub with
  | 1 => (fMax x 0, false)
  | 2 => fSilu x
  | 3 => fGelu x
  | 4 => fSigmoid x
  | 5 => fTanh x
  | 6 => fExp x
  | _ => (x, false)

/-- How many sources an operation reads; none where the code is reserved (R154). -/
def cloveArity (op : Nat) : Option Nat :=
  match op with
  | 0x00 => some 0
  | 0x04 => some 3 | 0x0A => some 3
  | 0x08 => some 1 | 0x09 => some 1
  | 0x0E => some 1 | 0x0F => some 1 | 0x10 => some 1 | 0x11 => some 1 | 0x12 => some 1 | 0x13 => some 1
  | 0x14 => some 1 | 0x15 => some 1 | 0x16 => some 1 | 0x17 => some 1 | 0x18 => some 1
  | 0x1A => some 1 | 0x1B => some 1 | 0x27 => some 1 | 0x30 => some 1
  | _ => if op ≤ 0x26 then some 2 else none

/-- The result of an operation on its source patterns (Table Clove operations). -/
def cloveOp (op a b c : Nat) : LaneOut :=
  let va := laneVal a
  let vb := laneVal b
  match op with
  | 0x01 => floatOut [a, b] (fAdd a b)
  | 0x02 => floatOut [a, b] (fSub a b)
  | 0x03 => floatOut [a, b] (fMul a b)
  | 0x04 => floatOut [a, b, c] (fFma a b c)
  | 0x05 => { floatOut [a, b] (fDiv a b) with divz := b2n (isZero32 b) }
  | 0x06 => floatOut [a, b] (fMin a b, false)
  | 0x07 => floatOut [a, b] (fMax a b, false)
  | 0x08 => floatOut [a] (if isNan32 a then nan32 else lanePat a % 2 ^ 31, false)
  | 0x09 => floatOut [a] (if isNan32 a then nan32 else lanePat a ^^^ 2 ^ 31, false)
  | 0x0A => { v := if isZero32 c then b else a }
  | 0x0B => { v := truth (va.lt vb), nan := isNan32 a || isNan32 b }
  | 0x0C => { v := truth (va.lt vb || va.eq vb), nan := isNan32 a || isNan32 b }
  | 0x0D => { v := truth (va.eq vb), nan := isNan32 a || isNan32 b }
  | 0x0E => floatOut [a] (fExp a)
  | 0x0F => floatOut [a] (fLog a)
  | 0x10 => floatOut [a] (fRsqrt a)
  | 0x11 => floatOut [a] (fSqrt a)
  | 0x12 => { floatOut [a] (fDiv 0x3F800000 a) with divz := b2n (isZero32 a) }
  | 0x13 => floatOut [a] (fTanh a)
  | 0x14 => floatOut [a] (fSigmoid a)
  | 0x15 => floatOut [a] (fSilu a)
  | 0x16 => floatOut [a] (fGelu a)
  | 0x17 => floatOut [a] (if isNan32 a then nan32 else wholeF a (floorInt va), false)
  | 0x18 => floatOut [a] (if isNan32 a then nan32 else wholeF a (roundInt va), false)
  | 0x19 => floatOut [a] (qRound a (b % 16))
  | 0x1A => { v := iToF a }
  | 0x1B => let r := fToInt 32 a; { v := r.1, nan := isNan32 a, sat := b2n r.2 }
  | 0x1C => intOut (signed 32 a + signed 32 b)
  | 0x1D => intOut (signed 32 a - signed 32 b)
  | 0x1E => intOut (signed 32 a * signed 32 b)
  | 0x1F => { v := if signed 32 b < signed 32 a then b else a }
  | 0x20 => { v := if signed 32 a < signed 32 b then b else a }
  | 0x21 => { v := a &&& b }
  | 0x22 => { v := a ||| b }
  | 0x23 => { v := a ^^^ b }
  | 0x24 => { v := a * 2 ^ (b % 32) % 2 ^ 32 }
  | 0x25 => { v := a / 2 ^ (b % 32) }
  | 0x26 => { v := unsigned 32 (signed 32 a / 2 ^ (b % 32)) }
  | _ => { v := a }

/-- What one element of a Clove program sees: its inputs, vectors, constants and position. -/
structure CloveEnv where
  ins : List CVal := []
  rowv : CVal := {}
  colv : CVal := {}
  ks : List Nat := []
  row : Nat := 0
  col : Nat := 0

/-- The element in work: temporaries, the two outputs with their lane types, and side effects. -/
structure CloveRun where
  ts : List CVal := List.replicate 16 {}
  out0 : CVal × Bool := ({}, false)
  out1 : CVal × Bool := ({}, false)
  acc : LaneAcc := {}
  met : Bool := false

/-- A source of an instruction (Table Clove source codes). -/
def CloveRun.src (r : CloveRun) (e : CloveEnv) (c : Nat) : CVal :=
  if c < 16 then r.ts.getD c {}
  else if c < 20 then e.ins.getD (c - 16) {}
  else if c = 20 then e.rowv
  else if c = 21 then e.colv
  else if c < 30 then { v := e.ks.getD (c - 22) 0 }
  else if c = 30 then { v := (toLane (FV.ofInt e.row)).1 }
  else { v := (toLane (FV.ofInt e.col)).1 }

/-- One instruction of a program on one element (R154, R157). -/
def CloveRun.step (e : CloveEnv) (r : CloveRun) (w : Nat) : CloveRun :=
  let op := nbits w 0 6
  let a := r.src e (nbits w 10 5)
  let b := r.src e (nbits w 15 5)
  let c := r.src e (nbits w 20 5)
  let n := (cloveArity op).getD 0
  if op = 0 then r
  else if op = 0x30 then
    let o := (a, nbits w 7 1 == 1)
    let r := { r with met := r.met || a.t }
    if nbits w 6 1 = 0 then { r with out0 := o } else { r with out1 := o }
  else
    let x := cloveOp op a.v b.v c.v
    let taint := x.nan || a.t || (2 ≤ n && b.t) || (3 ≤ n && c.t)
    { r with
      ts := r.ts.set (nbits w 6 4) { v := x.v, t := taint }
      acc := { r.acc with sat := r.acc.sat + x.sat, divz := r.acc.divz + x.divz }
      met := r.met || taint }

/-- An instruction passes the checks of R154 for the operands a descriptor enables. -/
def cloveLegal (w nin nout : Nat) (rowv colv : Bool) : Bool :=
  let op := nbits w 0 6
  let srcOk (c : Nat) := c < 16 || (16 ≤ c && c < 16 + nin) || (c == 20 && rowv) || (c == 21 && colv) || 22 ≤ c
  match cloveArity op with
  | none => false
  | some n =>
    nbits w 25 7 == 0
      && (op != 0x30 || (nbits w 8 2 == 0 && nbits w 6 1 < nout))
      && (List.range n).all fun i => srcOk (nbits w (10 + 5 * i) 5)

/-! ### Blend chains (R165–R167) -/

/-- Register of word `i` of a committed chain: 0 the header, 1–8 the stages. -/
def chainKey (k c i : Nat) : Nat := keyAt (Pg.vec k + 0x130 + 8 * i) c

/-- A stage word of a chain. -/
structure BStage where
  type : Nat
  sub : Nat
  col : Nat
  step : Bool
  ofmt : Nat
  opnd : Nat

/-- The fields of a stage word. -/
def BStage.ofWord (w : Word) : BStage :=
  { type := bits w 0 4, sub := bits w 4 4, col := bits w 8 5, step := bit w 13, ofmt := bits w 14 4
    opnd := bits w 32 32 }

/-- The stage reads an operand at an engine address. -/
def BStage.hasAddr (b : BStage) : Bool := decide (3 ≤ b.type) && decide (b.type ≤ 8)

/-- The committed chain: stages applied, and WRAP. -/
def State.chain (s : State) (k c : Nat) : List BStage × Nat :=
  let h := s.reg (chainKey k c 0)
  ((List.range (bits h 0 4)).map fun i => BStage.ofWord (s.reg (chainKey k c (i + 1))), bits h 8 12)

/-- The checks of a chain record when it is committed (R165); its reserved bits are ignored (R10). -/
def State.chainRecordOk (s : State) (k : Nat) (ws : List Word) : Bool :=
  decide (bits (ws.getD 0 0) 0 4 ≤ 8)
    && (List.range 8).all fun i =>
      let b := BStage.ofWord (ws.getD (i + 1) 0)
      b.type ≤ 10 && ((b.type != 9 && b.type != 8) || b.sub < 7)
        && (!b.hasAddr || ((b.ofmt == 7 || b.ofmt == 8 || b.ofmt == 9) && (s.ea k b.opnd).isSome))

/-- Bits of word `i` of a chain that are no reserved ones. -/
def chainMask (i : Nat) : Word := if i = 0 then 0xFFF0F#64 else 0xFFFFFFFF0003FFFF#64

/-- A chain committed: its words stored, its four cursors at 0 (R165, R167). -/
def State.commitChain (s : State) (k c : Nat) (ws : List Word) : State :=
  let s := (List.range 9).foldl (fun s i => s.setReg (chainKey k c i) (ws.getD i 0 &&& chainMask i)) s
  { s with chainCur := s.chainCur.dropAll fun j => j / 4 == 16 * k + c }

/-- Where a stage's operand starts for a cursor, and the bytes it spans, for a tile of m rows (R165). -/
def State.stageOperand (s : State) (k m cur : Nat) (b : BStage) : Option (EA × Nat) :=
  (s.ea k b.opnd).map fun e =>
    let es := elemBits b.ofmt / 8
    let cur := if b.step then cur else 0
    if b.type ≤ 4 then (e.plus (cur * 32 * es), 32 * es)
    else if b.type ≤ 6 then (if e.acc then (e, 128 * (m - 1) + 4 * b.col + 4) else (e, m * es))
    else (e.plus (cur * m * 32 * es), m * 32 * es)

/-- The checks of a chain's operands when a drain meets it: an address, 32-byte aligned as every engine access, then an extent with
BLEND_FAULT (R78, R117, R167). -/
def State.chainCheck (s : State) (k c m cur : Nat) : Status :=
  let ops := ((s.chain k c).1.filter BStage.hasAddr).map fun b => s.stageOperand k m cur b
  if ops.any fun o => match o with | none => true | some (e, _) => !aligned e.off 32 then .access
  else if ops.any fun o => match o with | some (e, n) => !e.fits n | none => false then .length
  else .ok

/-- The operand value of a stage at row r and column c, read under R151, with whether an infinity was saturated. -/
def State.stageVal (s : State) (k m cur : Nat) (b : BStage) (r c : Nat) : Nat × Bool :=
  match s.stageOperand k m cur b with
  | none => (0, false)
  | some (e, _) =>
    let es := elemBits b.ofmt / 8
    let raw :=
      if b.type ≤ 4 then s.eaNat (e.plus (c * es)) es
      else if b.type ≤ 6 then
        s.eaNat (e.plus (if e.acc then 128 * r + 4 * b.col else r * es)) es
      else s.eaNat (e.plus ((32 * r + c) * es)) es
    let x := loadConv b.ofmt raw
    (x.1, x.2.2)

/-- One stage on one element (R165, R166). -/
def stageApply (b : BStage) (x v : Nat) : List LaneOut :=
  let bin (op a c : Nat) := [cloveOp op a c 0]
  match b.type with
  | 1 => bin 0x03 x b.opnd
  | 2 => bin 0x01 x b.opnd
  | 3 => bin 0x01 x v
  | 4 => bin 0x03 x v
  | 5 => bin 0x03 x v
  | 6 => bin 0x05 x v
  | 7 => bin 0x01 x v
  | 8 =>
    let f := floatOut [v] (actFn b.sub v)
    [f, cloveOp 0x03 x f.v 0]
  | 9 => [floatOut [x] (actFn b.sub x)]
  | 10 =>
    let hi := b.opnd % 2 ^ 31
    let lo := hi + 2 ^ 31
    let m := fMax x lo
    [floatOut [x, lo] (m, false), floatOut [m, hi] (fMin m hi, false)]
  | _ => [{ v := x }]

/-- A chain on one element: its value, and side effects; an element that enters as NaN has met one (R166, R514). -/
def State.chainElem (s : State) (k m cur : Nat) (bs : List BStage) (r c x : Nat) : Nat × LaneAcc :=
  bs.foldl (fun (acc : Nat × LaneAcc) b =>
    let v := if b.hasAddr then s.stageVal k m cur b r c else (0, false)
    let outs := stageApply b acc.1 v.1
    ((outs.getLastD { v := acc.1 }).v
      , { sat := acc.2.sat + b2n v.2 + (outs.map (·.sat)).foldl (· + ·) 0
          nan := if isNan32 v.1 || outs.any (·.nan) then 1 else acc.2.nan
          divz := acc.2.divz + (outs.map (·.divz)).foldl (· + ·) 0 })) (x, { nan := b2n (isNan32 x) })

/-- A chain over the rows of a tile, an integer tile first converted; the cursor of the array moves on (R166, R167). -/
def State.applyChain (s : State) (k a c : Nat) (int : Bool) (rows : List (List Nat)) :
    State × List (List Nat) × LaneAcc :=
  let ch := s.chain k c
  let ck := (16 * k + c) * 4 + a
  let cur := s.chainCur.get 0 ck
  let m := rows.length
  let res := (List.range m).map fun r => (List.range 32).map fun col =>
    let x := (rows.getD r []).getD col 0
    if int && ch.1.isEmpty then (x, {}) else s.chainElem k m cur ch.1 r col (if int then iToF x else x)
  let acc := res.flatten.foldl (fun (t : LaneAcc) e => t.plus e.2) {}
  let next := if ch.2 = 0 then min 4095 (cur + 1) else if cur + 1 = ch.2 then 0 else min 4095 (cur + 1)
  (({ s with chainCur := s.chainCur.put ck next }).vecCount k acc, res.map fun r => r.map (·.1), acc)

end Sys2Proof.Machine
end

