-- ==== Sys2Proof/Machine/Vector.lean ====
section
/-! DEFINITION. The vector engine's operations: VLOAD, VSTORE, CLOVE, REDUCE, TOPK, COMPRESS, EXPAND, COMBINE, PLOAD and BSET,
with the chain commits of its register page (R147–R169). -/

namespace Sys2Proof.Machine

/-! ### Ends of an operation -/

/-- An operation fails its checks: the event, the record of function and status, and nothing else (R150, R168). -/
def State.vecFail (s : State) (k : Nat) (q : QEntry) (func : Nat) (st : Status) : State × QEntry :=
  ((s.noteFail k 4 func st).engEvent k (Pg.vec k) (if st = .length then 1 else 0) st
    , { q with phase := .running st })

/-- An operation has made its effect: cycles counted, side effects counted, its summary held for its completion (R164). -/
def State.vecDone (s : State) (k : Nat) (q : QEntry) (cycles : Nat) (acc : LaneAcc)
    (sum : Option (Nat × Nat) := none) : State × QEntry :=
  ((s.bump (Pg.vec k + 0x108) cycles).vecCount k acc, { q with phase := .running .ok, sum := sum })

/-- The summary of a `SUMW` byte: register and value with bits 32 and 33 (R164). -/
def summary (sumw low high : Nat) (nan sat : Bool) : Option (Nat × Nat) :=
  if sumw / 16 % 2 = 0 then none
  else some (sumw % 16, low % 2 ^ 32 + 2 ^ 32 * b2n nan + 2 ^ 33 * b2n sat + 2 ^ 34 * high)

/-- A summary byte with its reserved bits zero. -/
def sumwOk (b : Nat) : Bool := decide (b < 32) && (decide (16 ≤ b) || b == 0)

/-! ### Operands (R151–R153) -/

/-- A value as an operation reads it: lane bits, whether an infinity was saturated, whether it is NaN. -/
structure RdVal where
  v : Nat := 0
  sat : Bool := false
  nan : Bool := false
  deriving DecidableEq, Repr

/-- An element pattern read under R151. -/
def rdVal (code raw : Nat) : RdVal :=
  let r := loadConv code raw
  { v := r.1, sat := r.2.2, nan := !isIntFmt code && isNan32 r.1 }

/-- Element (row, column) of an operand of m rows in k-group layout. -/
def State.rdElem (s : State) (e : EA) (m code r c : Nat) : RdVal := rdVal code (s.kElem e m code r c)

/-- A format code of R151 that is not reserved. -/
def fmtOk (code : Nat) : Bool := decide (code < 11)

/-- The pitch of a panel is a multiple of 32 bytes (R153). -/
def pitchOk (code m : Nat) : Bool := aligned (m * rowBytes code) 32

/-- Offset of value i of a tile register. -/
def tileReg (k n i : Nat) : Nat := 2 ^ 17 * k + n * 4096 + 4 * i

/-- The 32-bit value at row r, column c of a tile register. -/
def State.regVal (s : State) (k n r c : Nat) : Nat := leNat (s.rdMem .tile (tileReg k n (32 * r + c)) 4)

/-- A tile register written: rows of 32 values, the rest zero, and its type tag. -/
def State.putReg (s : State) (k n : Nat) (rows : List (List Nat)) (int : Bool) : State :=
  let bs := rows.flatMap fun r => r.flatMap fun v => toLe 4 v
  let s := (s.clrMem .tile (tileReg k n 0) 4096).wrMem .tile (tileReg k n 0) bs
  { s with tileTag := s.tileTag.put (32 * k + n) int }

/-- The bytes of an operand of m rows and `np` panels whose elements `f row column` gives. -/
def kBytes (code m np : Nat) (f : Nat → Nat → Nat) : List Byte :=
  (List.range np).flatMap fun p => (List.range m).flatMap fun r =>
    packElems code ((List.range 32).map fun c => f r (32 * p + c))

/-! ### VLOAD and VSTORE -/

/-- Cycles of a copy between memory and tile registers. -/
def copyCycles (m n : Nat) : Nat := ceilDiv (32 * m * n) 256 + 16

/-- VLOAD: operand panels into tile registers (R151, R153). -/
def State.startVload (s : State) (k : Nat) (q : QEntry) (i : SInstr) : State × QEntry :=
  let first := i.arg 1
  let n := i.arg 2 + 1
  let m := i.arg 3 + 1
  let code := i.arg 4
  match s.ea32 k (i.arg 0) with
  | none => s.vecFail k q 0 .access
  | some e =>
    if !fmtOk code || !pitchOk code m then s.vecFail k q 0 .access
    else if 32 < first + n ∨ !e.fits (n * m * rowBytes code) then s.vecFail k q 0 .length
    else
      let vals := (List.range n).map fun p => (List.range m).map fun r =>
        (List.range 32).map fun c => s.rdElem e m code r (32 * p + c)
      let all := vals.flatten.flatten
      let t := (List.range n).foldl (fun t p =>
        t.putReg k (first + p) ((vals.getD p []).map fun r => r.map (·.v)) (isIntFmt code)) s
      t.vecDone k q (copyCycles m n)
        { sat := (all.filter (·.sat)).length, nan := (all.filter (·.nan)).length }

/-- VSTORE: tile registers converted and copied to memory (R152, R153). -/
def State.startVstore (s : State) (k : Nat) (q : QEntry) (i : SInstr) : State × QEntry :=
  let first := i.arg 1
  let n := i.arg 2 + 1
  let m := i.arg 3 + 1
  let code := i.arg 4
  match s.ea32 k (i.arg 0) with
  | none => s.vecFail k q 1 .access
  | some e =>
    if !fmtOk code || !pitchOk code m || !s.eaWritable e (n * m * rowBytes code) then s.vecFail k q 1 .access
    else if 32 < first + n ∨ !e.fits (n * m * rowBytes code) then s.vecFail k q 1 .length
    else
      let int (p : Nat) := s.tileTag.get false (32 * k + first + p)
      let conv (r c : Nat) := storeConv code (int (c / 32)) (s.regVal k (first + c / 32) r (c % 32))
      let cells := (List.range (32 * n)).flatMap fun c => (List.range m).map fun r =>
        ((conv r c).2, !int (c / 32) && isNan32 (s.regVal k (first + c / 32) r (c % 32)))
      (s.eaWrite k e (kBytes code m n fun r c => (conv r c).1)).vecDone k q (copyCycles m n)
        { sat := (cells.filter (·.1)).length, nan := (cells.filter (·.2)).length }

/-! ### CLOVE (R154–R158) -/

/-- An operand of a CLOVE: enabled, in tile registers or memory, with its format. -/
structure CloveArg where
  on : Bool
  reg : Bool
  sel : Nat
  addr : Nat
  fmt : Nat

/-- A Clove descriptor (Table Clove descriptor). -/
structure CloveDesc where
  args : List CloveArg
  ks : List Nat
  m : Nat
  nin : Nat
  nout : Nat
  np : Nat
  rowStep : Bool
  sumw : Nat
  clean : Bool

/-- A descriptor read from its 128 bytes: operands in the order IN0–IN3, OUT0, OUT1, ROWV, COLV. -/
def CloveDesc.ofBytes (b : List Byte) : CloveDesc :=
  let nio := field b 77 1
  let nin := nio % 8
  let nout := nio / 16 % 4
  let fl := field b 80 1
  let on (i : Nat) : Bool :=
    if i < 4 then decide (i < nin) else if i < 6 then decide (i - 4 < nout) else nbits fl (i - 5) 1 == 1
  { args := (List.range 8).map fun i =>
      let sel := field b (64 + i) 1
      { on := on i, reg := nbits sel 5 1 == 1, sel := sel % 32, addr := field b (4 * i) 4
        fmt := nbits (field b 72 4) (4 * i) 4 }
    ks := (List.range 8).map fun i => field b (32 + 4 * i) 4
    m := field b 76 1 % 32 + 1, nin := nin, nout := nout, np := field b 78 2, rowStep := fl % 2 == 1
    sumw := field b 81 1
    clean := decide (nin ≤ 4) && decide (nout ≤ 2) && nbits nio 3 1 == 0 && nbits nio 6 2 == 0
      && decide (field b 76 1 < 32) && decide (field b 78 2 < 4096) && decide (fl < 8) && sumwOk (field b 81 1)
      && field b 82 46 == 0 && (List.range 8).all fun i => decide (field b (64 + i) 1 < 64) }

/-- Argument `i` of a descriptor. -/
def CloveDesc.argAt (d : CloveDesc) (i : Nat) : CloveArg := d.args.getD i ⟨false, false, 0, 0, 0⟩

/-- Bytes a memory argument spans (R153, R156). -/
def CloveDesc.extent (d : CloveDesc) (i : Nat) (e : EA) : Nat :=
  let a := d.argAt i
  if i < 6 then d.np * d.m * rowBytes a.fmt
  else if i = 6 then (if d.rowStep then d.np else 1) * rowBytes a.fmt
  else if e.acc then 128 * (d.m - 1) + 4 * a.sel + 4
  else d.m * elemBits a.fmt / 8

/-- The memory arguments in use, with their places. -/
def State.cloveMem (s : State) (k : Nat) (d : CloveDesc) : List (Nat × Option EA) :=
  ((List.range 8).filter fun i => (d.argAt i).on && !(d.argAt i).reg).map fun i => (i, s.ea32 k (d.argAt i).addr)

/-- Element `r` of a column vector: in accumulator space at column SEL of row r; in the working store elements of less than a byte are
packed as in R105 (R156). -/
def State.colElem (s : State) (e : EA) (a : CloveArg) (r : Nat) : Nat :=
  if e.acc then packedElem a.fmt (s.eaRead (e.plus (128 * r + 4 * a.sel)) 4) 0
  else
    let w := elemBits a.fmt
    nbits (s.eaNat (e.plus (r * w / 8)) 5) (r * w % 8) w

/-- The checks of a CLOVE (R150, R153–R156). -/
def State.cloveCheck (s : State) (k : Nat) (d : CloveDesc) (start len : Nat) : Status :=
  let mems := s.cloveMem k d
  let badMem (x : Nat × Option EA) : Bool := match x.2 with
    | none => true
    | some e => !fmtOk (d.argAt x.1).fmt || (x.1 < 6 && !pitchOk (d.argAt x.1).fmt d.m)
        || ((x.1 == 4 || x.1 == 5) && !s.eaWritable e (d.extent x.1 e))
  let prog := ((List.range len).filter fun j => decide (start + j < 2048)).map fun j => s.clove.get 0 (2048 * k + start + j)
  let long (x : Nat × Option EA) : Bool := match x.2 with
    | none => false
    | some e => !e.fits (d.extent x.1 e)
  if !d.clean || mems.any badMem
      || !prog.all fun w => cloveLegal w d.nin d.nout (d.argAt 6).on (d.argAt 7).on then .access
  else if 2048 < start + len then .length
  else if (List.range 8).any fun i => (d.argAt i).on && (d.argAt i).reg && decide (32 < (d.argAt i).sel + d.np) then .length
  else if mems.any long then .length
  else .ok

/-- The value of an element of an argument: inputs at row and column, ROWV by column, COLV by row (R156). -/
def State.cloveIn (s : State) (k : Nat) (d : CloveDesc) (i r c : Nat) : RdVal :=
  let a := d.argAt i
  let col := if i = 6 && !d.rowStep then c % 32 else c
  let regRead (n r c : Nat) : RdVal :=
    let v := s.regVal k (n % 32) r c
    { v := v, nan := !s.tileTag.get false (32 * k + n % 32) && isNan32 v }
  if !a.on then {}
  else if a.reg then
    (if i = 6 then regRead (a.sel + col / 32) 0 (col % 32)
     else if i = 7 then regRead a.sel r 0
     else regRead (a.sel + c / 32) r (c % 32))
  else match s.ea32 k a.addr with
    | none => {}
    | some e =>
      if i = 6 then rdVal a.fmt (packedElem a.fmt (s.eaRead (e.plus (col / 32 * rowBytes a.fmt)) (rowBytes a.fmt)) (col % 32))
      else if i = 7 then rdVal a.fmt (s.colElem e a r)
      else s.rdElem e d.m a.fmt r c

/-- One element of a CLOVE with the reads that saturated. -/
def State.cloveElem (s : State) (k : Nat) (d : CloveDesc) (prog : List Nat) (r c : Nat) : CloveRun :=
  let rd := (List.range 8).map fun i => if i = 4 || i = 5 then {} else s.cloveIn k d i r c
  let cv (i : Nat) : CVal := let x := rd.getD i {}; { v := x.v, t := x.nan }
  let env : CloveEnv :=
    { ins := (List.range 4).map cv, rowv := cv 6, colv := cv 7, ks := d.ks, row := r, col := c }
  let run := prog.foldl (CloveRun.step env) {}
  { run with acc := { run.acc with sat := run.acc.sat + (rd.filter (·.sat)).length } }

/-- Working-store lines of a row of 32 elements that the arguments touch. -/
def State.cloveLines (s : State) (k : Nat) (d : CloveDesc) (row : Nat) : List (Nat × Nat) :=
  let p := row / d.m
  let r := row % d.m
  (s.cloveMem k d).flatMap fun x => match x.2 with
    | none => []
    | some e =>
      let rb := rowBytes (d.argAt x.1).fmt
      let es := elemBits (d.argAt x.1).fmt / 8
      if e.acc then []
      else
        let o := if x.1 < 6 then (e.off + row * rb, rb)
          else if x.1 = 6 then (e.off + (if d.rowStep then p else 0) * rb, rb)
          else (e.off + r * es, max es 1)
        (List.range ((o.1 + o.2 + 127) / 128 - o.1 / 128)).map fun j => (e.slice, o.1 / 128 + j)

/-- Cycles of a CLOVE (R158): passes of 256 elements, each bounded by its instructions and its lines. -/
def State.cloveCycles (s : State) (k : Nat) (d : CloveDesc) (len : Nat) : Nat :=
  let rows := d.m * d.np
  32 + ((List.range (ceilDiv rows 8)).map fun b =>
    let lines := ((List.range (min 8 (rows - 8 * b))).flatMap fun j => s.cloveLines k d (8 * b + j)).eraseDups
    max len (ceilDiv lines.length 16)).foldl (· + ·) 0

/-- An output lies over an input in another arrangement, or over the other output: its values are undefined (R157). -/
def State.cloveClash (s : State) (k : Nat) (d : CloveDesc) (o : Nat) : Bool :=
  let a := d.argAt o
  (List.range 8).any fun i =>
    let b := d.argAt i
    i != o && b.on && (if a.reg != b.reg then false
      else if a.reg then
        let nb := if i = 7 || (i = 6 && !d.rowStep) then 1 else d.np
        decide (a.sel < b.sel + nb) && decide (b.sel < a.sel + d.np) && !(i < 4 && a.sel == b.sel)
      else match s.ea32 k a.addr, s.ea32 k b.addr with
        | some x, some y =>
          x.meets (d.extent o x) y (d.extent i y) && !(i < 4 && x == y && a.fmt == b.fmt)
        | _, _ => false)

/-- An output stored: converted under R152, or free bytes where it is undefined. -/
def State.cloveStore (s0 s : State) (k : Nat) (d : CloveDesc) (o : Nat) (vals : Nat → Nat → Nat × Bool) : State :=
  let a := d.argAt o
  if !a.on then s
  else
    let clash := s0.cloveClash k d o
    if a.reg then
      (List.range d.np).foldl (fun s p =>
        let rows := (List.range d.m).map fun r => (List.range 32).map fun c => (vals r (32 * p + c)).1
        let n := a.sel + p
        if clash then
          let f := s.freeBytes (128 * d.m)
          { f.1.wrMem .tile (tileReg k n 0) f.2 with tileTag := f.1.tileTag.put (32 * k + n) (vals 0 0).2 }
        else
          let bs := rows.flatMap fun r => r.flatMap fun v => toLe 4 v
          { s.wrMem .tile (tileReg k n 0) bs with tileTag := s.tileTag.put (32 * k + n) (vals 0 0).2 }) s
    else match s0.ea32 k a.addr with
      | none => s
      | some e =>
        if clash then let f := s.freeBytes (d.np * d.m * rowBytes a.fmt); f.1.eaWrite k e f.2
        else s.eaWrite k e (kBytes a.fmt d.m d.np fun r c => (storeConv a.fmt (vals r c).2 (vals r c).1).1)

/-- CLOVE: the program over every element, then its outputs, counts and summary (R154–R158, R164, R514). -/
def State.runClove (s : State) (k : Nat) (q : QEntry) (d : CloveDesc) (start len : Nat) : State × QEntry :=
  let prog := (List.range len).map fun j => s.clove.get 0 (2048 * k + start + j)
  let cols := 32 * d.np
  let runs := (List.range d.m).map fun r => (List.range cols).map fun c => s.cloveElem k d prog r c
  let at' (r c : Nat) : CloveRun := (runs.getD r []).getD c {}
  let out (o r c : Nat) : Nat × Bool :=
    let x := if o = 4 then (at' r c).out0 else (at' r c).out1
    (x.1.v, x.2)
  let all := runs.flatten
  let outAcc (o : Nat) : LaneAcc :=
    let a := d.argAt o
    if !a.on then {}
    else all.foldl (fun acc (x : CloveRun) =>
      let y := if o = 4 then x.out0 else x.out1
      let conv := !a.reg && (storeConv a.fmt y.2 y.1.v).2
      { acc with sat := acc.sat + b2n conv, nan := acc.nan + b2n (y.1.t || (!y.2 && isNan32 y.1.v)) }) {}
  let acc := ((all.foldl (fun (t : LaneAcc) x => t.plus x.acc) {}).plus (outAcc 4)).plus (outAcc 5)
  let nan := all.any fun x => x.met || (!x.out0.2 && isNan32 x.out0.1.v) || (!x.out1.2 && isNan32 x.out1.1.v)
  let acc : LaneAcc := { acc with met := nan }
  let sat := decide (0 < acc.sat)
  let hits := (all.filter fun x => (x.ts.getD 15 {}).v != 0).length
  let t := s.cloveStore s k d 4 (out 4)
  let t := s.cloveStore t k d 5 (out 5)
  t.vecDone k q (s.cloveCycles k d len) acc (summary d.sumw hits 0 nan sat)

/-- CLOVE as it starts: descriptor, checks, run. -/
def State.startClove (s : State) (k : Nat) (q : QEntry) (i : SInstr) : State × QEntry :=
  match s.ea32 k (i.arg 0) with
  | none => s.vecFail k q 2 .access
  | some e =>
    if !aligned e.off 64 then s.vecFail k q 2 .access
    else if !e.fits 128 then s.vecFail k q 2 .length
    else
      let d := CloveDesc.ofBytes (s.eaRead e 128)
      let st := s.cloveCheck k d (i.arg 1) (i.arg 2 + 1)
      if d.np = 0 then s.vecDone k q 0 {} (summary d.sumw 0 0 false false)
      else if st ≠ .ok then s.vecFail k q 2 st
      else s.runClove k q d (i.arg 1) (i.arg 2 + 1)

/-! ### The 64-byte descriptor -/

/-- A vector operation descriptor (Table Vector operation descriptor). -/
structure VecDesc where
  src : Nat
  dst : Nat
  aux0 : Nat
  aux1 : Nat
  aux2 : Nat
  n : Nat
  m : Nat
  fmt : Nat
  dfmt : Nat
  op : Nat
  flags : Nat
  param : Nat
  sumw : Nat
  cap : Nat
  clean : Bool

/-- A descriptor read from its 64 bytes. -/
def VecDesc.ofBytes (b : List Byte) : VecDesc :=
  { src := field b 0 4, dst := field b 4 4, aux0 := field b 8 4, aux1 := field b 12 4, aux2 := field b 16 4
    n := field b 20 3, m := field b 24 1 % 32 + 1, fmt := field b 25 1 % 16, dfmt := field b 25 1 / 16
    op := field b 26 1, flags := field b 27 1, param := field b 28 4, sumw := field b 32 1, cap := field b 36 4
    clean := field b 23 1 == 0 && decide (field b 24 1 < 32) && sumwOk (field b 32 1) && field b 33 3 == 0
      && field b 40 24 == 0 }

/-- A descriptor operation: descriptor read, a zero count passed over, the rest run by `go` (R150). With a zero count the summary is zero,
but the column a TOPK of nothing ranks first is open (R164; log entry 92). -/
def State.withDesc (s : State) (k : Nat) (q : QEntry) (func addr : Nat) (zero : VecDesc → Bool)
    (go : VecDesc → State × QEntry) : State × QEntry :=
  match s.ea32 k addr with
  | none => s.vecFail k q func .access
  | some e =>
    if !aligned e.off 64 then s.vecFail k q func .access
    else if !e.fits 64 then s.vecFail k q func .length
    else
      let d := VecDesc.ofBytes (s.eaRead e 64)
      if !zero d then go d
      else if func = 4 then s.useFree.vecDone k q 0 {} (summary d.sumw s.freeVal.toNat 0 false false)
      else s.vecDone k q 0 {} (summary d.sumw 0 0 false false)

/-! ### REDUCE (R159) -/

/-- A value on its way through a reduction, with its side effects. -/
structure RVal where
  v : Nat := 0
  t : Bool := false
  sat : Nat := 0
  deriving DecidableEq, Repr

/-- The combining step of a reduction: SUM, MAX or MIN, on FP32 or INT32. -/
def redOp (kind : Nat) (int : Bool) (a b : RVal) : RVal :=
  let x : Nat × Bool :=
    if int then
      (if kind = 0 then let r := satInt 32 (signed 32 a.v + signed 32 b.v); (unsigned 32 r.1, r.2)
       else if kind = 1 then (if signed 32 a.v < signed 32 b.v then b.v else a.v, false)
       else (if signed 32 b.v < signed 32 a.v then b.v else a.v, false))
    else if kind = 0 then fAdd a.v b.v
    else if kind = 1 then (fMax a.v b.v, false)
    else (fMin a.v b.v, false)
  { v := x.1, t := a.t || b.t || (!int && isNan32 x.1), sat := a.sat + b.sat + b2n x.2 }

/-- One level of a pairwise tree: neighbours combined, an unpaired last value passed up. -/
def pairUp {α : Type} (f : α → α → α) : List α → List α
  | a :: b :: l => f a b :: pairUp f l
  | l => l

/-- A pairwise tree of at most 32 values: five levels (R159). -/
def tree {α : Type} (f : α → α → α) (l : List α) : List α :=
  (List.range 5).foldl (fun l _ => pairUp f l) l

/-- What an operation does to each value before the tree: SUMSQ squares, AMAX takes the magnitude. -/
def redPre (op : Nat) (int : Bool) (x : RdVal) : RVal :=
  let r : Nat × Bool :=
    if op = 1 then
      (if int then let r := satInt 32 (signed 32 x.v * signed 32 x.v); (unsigned 32 r.1, r.2) else fMul x.v x.v)
    else if op = 4 then
      (if int then let r := satInt 32 ((signed 32 x.v).natAbs : Int); (unsigned 32 r.1, r.2)
       else (if isNan32 x.v then nan32 else x.v % 2 ^ 31, false))
    else (x.v, false)
  { v := r.1, t := x.nan, sat := b2n x.sat + b2n r.2 }

/-- The combining step of an operation: 0 sum, 1 maximum, 2 minimum. -/
def redKind (op : Nat) : Nat := if op = 2 || op = 4 || op = 7 then 1 else if op = 3 then 2 else 0

/-- One value ranks above another: numbers above NaN, larger above smaller. -/
def ranksAbove (int : Bool) (a b : Nat) : Bool :=
  if int then decide (signed 32 b < signed 32 a)
  else if isNan32 a then false
  else if isNan32 b then true
  else (laneVal b).lt (laneVal a)

/-- The index of the largest value, NaN ignored, ties to the lower index; 0 where there is none. -/
def argMax (int : Bool) (l : List Nat) : Nat :=
  ((List.range l.length).foldl (fun (best : Option Nat) i =>
    let x := l.getD i 0
    if !int && isNan32 x then best
    else match best with
      | none => some i
      | some j => if ranksAbove int x (l.getD j 0) then some i else some j) none).getD 0

/-- The checks of a REDUCE. -/
def State.reduceCheck (s : State) (k : Nat) (d : VecDesc) : Status :=
  let col := d.op == 6 || d.op == 7
  let bytes := if col then 128 * d.n else 4 * d.m
  match s.ea32 k d.src, s.ea32 k d.dst with
  | some e, some o =>
    if !d.clean || 7 < d.op || 1 < d.flags || (d.flags == 1 && d.op == 5) || !fmtOk d.fmt || d.dfmt != 0
        || d.aux0 != 0 || d.aux1 != 0 || d.aux2 != 0 || d.param != 0 || d.cap != 0 || !pitchOk d.fmt d.m
        || !s.eaWritable o bytes then .access
    else if !e.fits (d.n * d.m * rowBytes d.fmt) || !o.fits bytes then .length
    else .ok
  | _, _ => .access

/-- The results of a REDUCE, row after row or column after column. -/
def State.reduceVals (s : State) (_k : Nat) (d : VecDesc) (e o : EA) : List RVal :=
  let int := isIntFmt d.fmt
  let f := redOp (redKind d.op) int
  let pre (r c : Nat) := redPre d.op int (s.rdElem e d.m d.fmt r c)
  if d.op = 6 ∨ d.op = 7 then
    (List.range (32 * d.n)).map fun c =>
      (tree f ((List.range d.m).map fun r => pre r c)).headD {}
  else
    (List.range d.m).map fun r =>
      if d.op = 5 then
        let vs := (List.range (32 * d.n)).map fun c => pre r c
        { v := argMax int (vs.map (·.v)), t := vs.any (·.t), sat := (vs.map (·.sat)).foldl (· + ·) 0 }
      else
        let t0 : RVal :=
          if d.flags = 1 then
            let raw := s.eaNat (o.plus (4 * r)) 4
            let x := if int then rdVal 10 raw else rdVal 9 raw
            { v := x.v, t := x.nan, sat := b2n x.sat }
          else {}
        (List.range d.n).foldl (fun t p =>
          f t ((tree f ((List.range 32).map fun c => pre r (32 * p + c))).headD {})) t0

/-- REDUCE; the combination its summary holds saturates as its other steps do (R159, R164). -/
def State.startReduce (s : State) (k : Nat) (q : QEntry) (i : SInstr) : State × QEntry :=
  s.withDesc k q 3 (i.arg 0) (fun d => d.n == 0) fun d =>
    let st := s.reduceCheck k d
    if st ≠ .ok then s.vecFail k q 3 st
    else match s.ea32 k d.src, s.ea32 k d.dst with
      | some e, some o =>
        let int := isIntFmt d.fmt
        let rs := s.reduceVals k d e o
        let f := redOp (redKind d.op) int
        let total : RVal :=
          if d.op = 5 then { v := argMax true (rs.map (·.v)) }
          else if d.op < 6 then (tree f (rs.map fun r => { r with sat := 0 })).headD {}
          else match rs.map fun r => { r with sat := 0 } with
            | [] => {}
            | x :: l => l.foldl f x
        let acc : LaneAcc :=
          { sat := (rs.map (·.sat)).foldl (· + ·) 0 + (if d.sumw / 16 % 2 = 1 then total.sat else 0)
            nan := (rs.filter (·.t)).length }
        (s.eaWrite k o (rs.flatMap fun r => toLe 4 r.v)).vecDone k q (ceilDiv (32 * d.m * d.n) 256 + 24) acc
          (summary d.sumw total.v 0 (rs.any (·.t)) (decide (0 < acc.sat)))
      | _, _ => s.vecFail k q 3 .access

/-! ### TOPK (R160) -/

/-- A value placed in a ranking: after every value that does not rank below it. -/
def rankInsert (int : Bool) (x : Nat × Nat) : List (Nat × Nat) → List (Nat × Nat)
  | [] => [x]
  | y :: l => if ranksAbove int x.1 y.1 then x :: y :: l else y :: rankInsert int x l

/-- The columns of a row ranked: (value, column), ties to the lower column. -/
def ranked (int : Bool) (vs : List Nat) : List (Nat × Nat) :=
  (List.range vs.length).foldl (fun l c => rankInsert int (vs.getD c 0, c) l) []

/-- The checks of a TOPK. -/
def State.topkCheck (s : State) (k : Nat) (d : VecDesc) : Status :=
  let kk := d.param
  let n := 4 * d.m * kk
  let slots := d.flags == 1
  match s.ea32 k d.src, s.ea32 k d.dst, s.ea32 k d.aux0, s.ea32 k d.aux1 with
  | some e, some o, some x, some y =>
    if !d.clean || d.op != 0 || 1 < d.flags || 16 < kk || !fmtOk d.fmt || d.dfmt != 0 || d.aux2 != 0
        || d.cap != 0 || (!slots && d.aux1 != 0) || (slots && 65535 < 32 * d.n) || !pitchOk d.fmt d.m
        || !s.eaWritable o (128 * d.m) || !s.eaWritable x n || (slots && !s.eaWritable y n) then .access
    else if 32 * d.n < kk || !e.fits (d.n * d.m * rowBytes d.fmt) || !o.fits (128 * d.m) || !x.fits n
        || (slots && !y.fits n) then .length
    else .ok
  | _, _, _, _ => .access

/-- TOPK (R160, R164). -/
def State.startTopk (s : State) (k : Nat) (q : QEntry) (i : SInstr) : State × QEntry :=
  s.withDesc k q 4 (i.arg 0) (fun d => d.n == 0 || d.param == 0) fun d =>
    let st := s.topkCheck k d
    if st ≠ .ok then s.vecFail k q 4 st
    else match s.ea32 k d.src, s.ea32 k d.dst, s.ea32 k d.aux0, s.ea32 k d.aux1 with
      | some e, some o, some x, some y =>
        let int := isIntFmt d.fmt
        let rows := (List.range d.m).map fun r => (List.range (32 * d.n)).map fun c => s.rdElem e d.m d.fmt r c
        let tops := rows.map fun r => (ranked int (r.map (·.v))).take d.param
        let vals := tops.flatMap fun t =>
          (t.map fun v => if int then iToF v.1 else v.1) ++ List.replicate (32 - d.param) 0xFF7FFFFF
        let idx := tops.flatMap fun t => t.map (·.2)
        let slots := (List.range d.m).flatMap fun r => (tops.getD r []).map fun v => r + 65536 * v.2
        let acc : LaneAcc :=
          { sat := (rows.flatten.filter (·.sat)).length
            nan := (rows.filter fun r => r.any (·.nan)).length * d.param }
        let t := s.eaWrite k o (vals.flatMap (toLe 4))
        let t := t.eaWrite k x (idx.flatMap (toLe 4))
        let t := if d.flags = 1 then t.eaWrite k y (slots.flatMap (toLe 4)) else t
        t.vecDone k q (ceilDiv (32 * d.m * d.n) 256 * ceilDiv d.param 8 + 48) acc
          (summary d.sumw (idx.headD 0) 0 (decide (0 < acc.nan)) (decide (0 < acc.sat)))
      | _, _, _, _ => s.vecFail k q 4 .access

/-! ### COMPRESS and EXPAND (R161, R162) -/

/-- Place of panel `p` of row `i` in the row-block layout. -/
def blockOff (rb np rowB i p : Nat) : Nat := i / rb * (rb * np * rowB) + (p * rb + i % rb) * rowB

/-- End of row `i`: the byte after its last. -/
def rowEnd (rb np rowB i : Nat) : Nat := blockOff rb np rowB i (np - 1) + rowB

/-- One row of 32 × NP elements as stored, panel by panel. -/
def State.blockRow (s : State) (e : EA) (rb np rowB i : Nat) : List (List Byte) :=
  (List.range np).map fun p => s.eaRead (e.plus (blockOff rb np rowB i p)) rowB

/-- A row written, panel by panel. -/
def State.putBlockRow (s : State) (k : Nat) (e : EA) (rb np rowB i : Nat) (ps : List (List Byte)) : State :=
  (List.range np).foldl (fun s p => s.eaWrite k (e.plus (blockOff rb np rowB i p)) (ps.getD p [])) s

/-- The runs of a COMPRESS: for each key its first output row, and every output row with its slot or padding. -/
def compressRuns (slots : List (Nat × Nat)) (b rb : Nat) (align : Bool) :
    List (Nat × Nat) × List (Option (Nat × Nat)) :=
  (List.range b).foldl (fun (acc : List (Nat × Nat) × List (Option (Nat × Nat))) key =>
    let run := ((List.range slots.length).filter fun j => (slots.getD j (0, 0)).2 == key).map fun j => some (j, key)
    let pos := acc.2.length
    let start := if align then ceilDiv pos rb * rb else pos
    if run.isEmpty then (acc.1 ++ [(0, start)], acc.2)
    else (acc.1 ++ [(run.length, start)], acc.2 ++ List.replicate (start - pos) none ++ run)) ([], [])

/-- COMPRESS (R161, R164). -/
def State.startCompress (s : State) (k : Nat) (q : QEntry) (i : SInstr) : State × QEntry :=
  s.withDesc k q 5 (i.arg 0) (fun d => d.n == 0 || d.param % 4096 == 0) fun d =>
    let np := d.param % 4096
    let b := nbits d.param 16 10 + 1
    let rb := d.m
    let rowB := rowBytes d.fmt
    match s.ea32 k d.src, s.ea32 k d.dst, s.ea32 k d.aux0, s.ea32 k d.aux1, s.ea32 k d.aux2 with
    | some e, some o, some a0, some a1, some a2 =>
      if !d.clean || d.op != 0 || 1 < d.flags || !fmtOk d.fmt || d.dfmt != d.fmt || nbits d.param 12 4 != 0
          || nbits d.param 26 6 != 0 || !pitchOk d.fmt rb then s.vecFail k q 5 .access
      else
        let slots := (List.range (if a0.fits (4 * d.n) then d.n else 0)).map fun j =>
          let w := s.eaNat (a0.plus (4 * j)) 4
          (w % 65536, w / 65536)
        let active := slots.filter fun x => x.2 < b
        let (keys, rows) := compressRuns slots b rb (d.flags == 1)
        let last := rows.length - 1
        if !s.eaWritable o (if rows.isEmpty then 0 else rowEnd rb np rowB last)
            || !s.eaWritable a1 (4 * rows.length) || !s.eaWritable a2 (8 * b) then s.vecFail k q 5 .access
        else if 65536 < d.n || !a0.fits (4 * d.n) then s.vecFail k q 5 .length
        else if active.any fun x => !e.fits (rowEnd rb np rowB x.1) then s.vecFail k q 5 .length
        else if d.cap < rows.length || (!rows.isEmpty && !o.fits (rowEnd rb np rowB last))
            || !a1.fits (4 * rows.length) || !a2.fits (8 * b) then s.vecFail k q 5 .length
        else
          let t := (List.range rows.length).foldl (fun t j =>
            t.putBlockRow k o rb np rowB j (match rows.getD j none with
              | some (slot, _) => s.blockRow e rb np rowB (slots.getD slot (0, 0)).1
              | none => List.replicate np (zeros rowB))) s
          let t := t.eaWrite k a1 (rows.flatMap fun r => toLe 4 (match r with
            | some (slot, key) => slot % 65536 + 65536 * key
            | none => 0xFFFFFFFF))
          let t := t.eaWrite k a2 (keys.flatMap fun x => toLe 4 x.1 ++ toLe 4 x.2)
          let used := (keys.filter fun x => x.1 != 0).length
          t.vecDone k q (ceilDiv d.n 16 + ceilDiv (rows.length * ceilDiv (np * rowB) 32) 8 + 64) {}
            (summary d.sumw active.length (min 0xFFFF used * 2 ^ 14) false false)
    | _, _, _, _, _ => s.vecFail k q 5 .access

/-- One row of an EXPAND: copied, or weighted and added (R162). -/
def State.expandRow (s0 s : State) (k : Nat) (d : VecDesc) (e o : EA) (np src dst w : Nat) : State × LaneAcc :=
  let rb := d.m
  let sb := rowBytes d.fmt
  let db := rowBytes d.dfmt
  if d.op = 0 ∧ d.fmt = d.dfmt then (s.putBlockRow k o rb np db dst (s0.blockRow e rb np sb src), {})
  else
    let old := s.blockRow o rb np db dst
    let cells := (List.range np).map fun p =>
      let raw := s0.eaRead (e.plus (blockOff rb np sb src p)) sb
      (List.range 32).map fun c =>
        let x := rdVal d.fmt (packedElem d.fmt raw c)
        if d.op = 0 then
          let r := storeConv d.dfmt (isIntFmt d.fmt) x.v
          (r.1, b2n x.sat + b2n r.2, x.nan)
        else
          let y := rdVal 9 (packedElem 9 (old.getD p []) c)
          let r := fFma w x.v y.v
          (r.1, b2n x.sat + b2n y.sat + b2n r.2, isNan32 r.1 || x.nan || y.nan || isNan32 w)
    (s.putBlockRow k o rb np db dst (cells.map fun l => packElems d.dfmt (l.map (·.1)))
      , { sat := (cells.flatten.map (·.2.1)).foldl (· + ·) 0, nan := (cells.flatten.filter (·.2.2)).length })

/-- EXPAND (R162, R164). -/
def State.startExpand (s : State) (k : Nat) (q : QEntry) (i : SInstr) : State × QEntry :=
  s.withDesc k q 6 (i.arg 0) (fun d => d.n == 0 || d.param % 4096 == 0) fun d =>
    let np := d.param % 4096
    let rb := d.m
    let weighted := d.flags / 2 % 2 == 1
    match s.ea32 k d.src, s.ea32 k d.dst, s.ea32 k d.aux0, s.ea32 k d.aux1, s.ea32 k d.aux2 with
    | some e, some o, some a0, some a1, some a2 =>
      if !d.clean || 1 < d.op || 3 < d.flags || !fmtOk d.fmt || !fmtOk d.dfmt || (d.op == 1 && d.dfmt != 9)
          || 4095 < d.param || d.cap != 0 || (!weighted && d.aux2 != 0) || !pitchOk d.fmt rb
          || !pitchOk d.dfmt rb then s.vecFail k q 6 .access
      else
        let ents := ((List.range (if a0.fits (4 * d.n) then d.n else 0)).map fun j => (j, s.eaNat (a0.plus (4 * j)) 4)).filter fun x =>
          x.2 != 0xFFFFFFFF
        let listed := ents.filter fun x => a1.fits (4 * (x.2 % 65536) + 4)
        let items := listed.map fun x => (x.1, x.2 % 65536, s.eaNat (a1.plus (4 * (x.2 % 65536))) 4 % 65536)
        let db := rowBytes d.dfmt
        if items.any fun x => (List.range np).any fun p => !s.eaWritable (o.plus (blockOff rb np db x.2.2 p)) db then
          s.vecFail k q 6 .access
        else if !a0.fits (4 * d.n) || listed.length != ents.length || items.any fun x => !e.fits (rowEnd rb np (rowBytes d.fmt) x.1)
            || !o.fits (rowEnd rb np db x.2.2) || (weighted && !a2.fits (4 * x.2.1 + 4)) then
          s.vecFail k q 6 .length
        else
          let t := if d.flags % 2 = 1 then
              (items.map fun x => x.2.2).eraseDups.foldl (fun t r =>
                t.putBlockRow k o rb np db r (List.replicate np (zeros db))) s
            else s
          let res := items.foldl (fun (acc : State × LaneAcc) x =>
            let w : RdVal := if weighted then rdVal 9 (s.eaNat (a2.plus (4 * x.2.1)) 4) else { v := 0x3F800000 }
            let r := s.expandRow acc.1 k d e o np x.1 x.2.2 w.v
            (r.1, (acc.2.plus r.2).plus { sat := b2n w.sat })) (t, ({} : LaneAcc))
          let per := ceilDiv (np * db) 32
          res.1.vecDone k q (ceilDiv (d.n * per * (if d.op = 1 then 2 else 1)) 8 + 64) res.2
            (summary d.sumw 0 0 (decide (0 < res.2.nan)) (decide (0 < res.2.sat)))
    | _, _, _, _, _ => s.vecFail k q 6 .access

/-! ### COMBINE (R143, R163) -/

/-- One part of a combination read for an element: value, NaN or saturation on reading (R135, R151). -/
def State.combinePart (s : State) (e : EA) (int : Bool) (j : Nat) : RdVal :=
  rdVal (if int then 10 else 9) (s.eaNat (e.plus (4 * j)) 4)

/-- The parts of an element added in ascending order (R143, R400). -/
def combineVals (int : Bool) (parts : List RdVal) : RVal :=
  match parts.map fun x => ({ v := x.v, t := x.nan, sat := b2n x.sat } : RVal) with
  | [] => {}
  | x :: l => l.foldl (redOp 0 int) x

/-- Status words of the tiles under one tile of a part; in the working store, formed from its elements (R135, R163). -/
def State.partStat (s : State) (e : EA) (m : Nat) (vals : List RdVal) : TileStat :=
  if e.acc then
    (e.tiles (128 * m)).foldl (fun (st : TileStat) t =>
      let x := s.tileOf e.slice t
      { st with sat := st.sat || x.sat, nan := st.nan || x.nan, bound := st.bound || x.bound })
      { chunks := (s.tileOf e.slice (e.off / 4096)).chunks }
  else { sat := vals.any (·.sat), nan := vals.any (·.nan) }

/-- COMBINE (R163, R164). -/
def State.startCombine (s : State) (k : Nat) (q : QEntry) (i : SInstr) : State × QEntry :=
  s.withDesc k q 7 (i.arg 0) (fun d => d.n == 0) fun d =>
    let p := 2 ^ d.op
    match s.ea32 k d.src, s.ea32 k d.dst with
    | some e, some o =>
      let step (x : EA) := if x.acc then 4096 else d.m * 128
      let part (j t : Nat) := e.plus (j * d.param + t * step e)
      let places := (List.range p).flatMap fun j => (List.range d.n).map fun t => part j t
      let outs := (List.range d.n).map fun t => o.plus (t * step o)
      if !d.clean || !(1 ≤ d.op && d.op ≤ 3) || d.flags != 0 || !(d.fmt == 9 || d.fmt == 10) || d.dfmt != 0
          || d.aux0 != 0 || d.aux1 != 0 || d.aux2 != 0 || d.cap != 0 || !aligned d.param 32
          || (places.any fun x => !s.eaWritable x (128 * d.m)) || (outs.any fun x => !s.eaWritable x (128 * d.m)) then
        s.vecFail k q 7 .access
      else if (places.any fun x => !x.fits (128 * d.m)) || (outs.any fun x => !x.fits (128 * d.m)) then
        s.vecFail k q 7 .length
      else
        let int := d.fmt == 10
        let tiles := (List.range d.n).map fun t =>
          let ps := (List.range p).map fun j => (List.range (32 * d.m)).map fun x => s.combinePart (part j t) int x
          let vs := (List.range (32 * d.m)).map fun x => combineVals int (ps.map fun l => l.getD x {})
          let sts := (List.range p).map fun j => s.partStat (part j t) d.m (ps.getD j [])
          let n := (sts.map fun st => st.chunks + 1).foldl (· + ·) 0
          (vs, ({ chunks := min 16383 (n - 1), first := true, int := int
                  sat := sts.any (·.sat) || vs.any fun v => 0 < v.sat
                  nan := sts.any (·.nan) || vs.any (·.t)
                  bound := sts.any (·.bound) || 16384 < n } : TileStat))
        let t := (List.range d.n).foldl (fun t j =>
          let x := outs.getD j o
          let r := tiles.getD j ([], {})
          let t := t.eaWrite k x (r.1.flatMap fun v => toLe 4 v.v)
          if x.acc then t.modTile x.slice (x.off / 4096) fun _ => r.2 else t) s
        let all := (tiles.map (·.1)).flatten
        let acc : LaneAcc := { sat := (all.map (·.sat)).foldl (· + ·) 0, nan := (all.filter (·.t)).length }
        t.vecDone k q ((p - 1) * ceilDiv (32 * d.m * d.n) 256 + 32) acc
          (summary d.sumw 0 0 (decide (0 < acc.nan)) (decide (0 < acc.sat)))
    | _, _ => s.vecFail k q 7 .access

/-! ### PLOAD, BSET and the chain registers -/

/-- PLOAD: instructions copied into the program store (R154). -/
def State.startPload (s : State) (k : Nat) (q : QEntry) (i : SInstr) : State × QEntry :=
  let first := i.arg 1
  let n := i.arg 2
  match s.ea32 k (i.arg 0) with
  | none => s.vecFail k q 8 .access
  | some e =>
    if e.acc || !aligned e.off 32 then s.vecFail k q 8 .access
    else if n = 0 then s.vecDone k q 0 {}
    else if 2048 < first + n ∨ !e.fits (4 * n) then s.vecFail k q 8 .length
    else
      ({ s with clove := (List.range n).foldl (fun t j =>
          t.put (2048 * k + first + j) (s.eaNat (e.plus (4 * j)) 4)) s.clove }).vecDone k q (ceilDiv (4 * n) 512 + 16) {}

/-- BSET: a chain record loaded, checked and committed (R165). -/
def State.startBset (s : State) (k : Nat) (q : QEntry) (i : SInstr) : State × QEntry :=
  match s.ea32 k (i.arg 0) with
  | none => s.vecFail k q 9 .access
  | some e =>
    if !aligned e.off 32 then s.vecFail k q 9 .access
    else if !e.fits 72 then s.vecFail k q 9 .length
    else
      let ws := (List.range 9).map fun j => word (s.eaNat (e.plus (8 * j)) 8)
      if !s.chainRecordOk k ws then s.vecFail k q 9 .access
      else (s.commitChain k (i.arg 1) ws).vecDone k q (ceilDiv 72 512 + 16) {}

/-- A write of `VEC_BCH_HDR`: the staged chain is checked and committed, or nothing changes (R165, R438). -/
def State.blendWrite (s : State) (dom k : Nat) (v : Word) : State :=
  let c := s.fld (Pg.vec k + 0x128) 0 4
  let ws := v :: (List.range 8).map fun i => s.stagedOf dom (chainKey k c (i + 1))
  if s.chainRecordOk k ws then (s.commitChain k c ws).ends .ok else s.ends .access

/-- `VEC_BCH_CUR` of the selected chain. -/
def State.blendCursors (s : State) (k : Nat) : Word :=
  let c := s.fld (Pg.vec k + 0x128) 0 4
  pack ((List.range 4).map fun a => (s.chainCur.get 0 ((16 * k + c) * 4 + a), 12 * a))

end Sys2Proof.Machine
end

