-- ==== Sys2Proof/Machine/Quant.lean ====
section
/-! DEFINITION. The quantisation unit: profiles, scales and their records, delayed-scaling slots, and the standalone operations
QRUN, QHAD, QSTEP and QLOAD (R170–R194, R515). -/

namespace Sys2Proof.Machine

/-! ### Profiles (R177, R183) -/

/-- A profile (Tables Profile word 0 and Profile words 1–5). -/
structure Prof where
  ofmt : Nat
  gran : Nat
  ssrc : Nat
  slot : Nat
  policy : Nat
  rrowEn : Bool
  rscEn : Bool
  biasEn : Bool
  smoothEn : Bool
  signEn : Bool
  hadEn : Bool
  pow2 : Bool
  soutEn : Bool
  step : Bool
  ovfTh : Nat
  unfTh : Nat
  margin : Nat
  rscale : Nat
  rbias : Nat
  rrow : Nat
  smooth : Nat
  stageA : Nat
  sout : Nat
  static : Nat
  signs : Nat
  wrap : Nat

/-- A profile read from its six words. -/
def Prof.ofWords (ws : List Word) : Prof :=
  let w0 := ws.getD 0 0
  let lo (i : Nat) := bits (ws.getD i 0) 0 32
  let hi (i : Nat) := bits (ws.getD i 0) 32 32
  { ofmt := bits w0 0 4, gran := bits w0 4 3, ssrc := bits w0 8 2, slot := bits w0 10 4, policy := bits w0 14 2
    rrowEn := bit w0 16, rscEn := bit w0 17, biasEn := bit w0 18, smoothEn := bit w0 19, signEn := bit w0 20
    hadEn := bit w0 21, pow2 := bit w0 22, soutEn := bit w0 23, step := bit w0 24, ovfTh := bits w0 32 11
    unfTh := bits w0 43 11, margin := bits w0 54 4, rscale := lo 1, rbias := hi 1, rrow := lo 2, smooth := hi 2
    stageA := lo 3, sout := hi 3, static := lo 4, signs := hi 4, wrap := lo 5 % 4096 }

/-- The words of a profile as they are stored: reserved bits read as zero (R10). -/
def profMask (ws : List Word) : List Word :=
  (List.range 6).map fun j =>
    ws.getD j 0 &&& (match j with
      | 0 => 0x03FFFFFF01FFFF7F
      | 5 => 0xFFF
      | _ => 0xFFFFFFFFFFFFFFFF)

/-- Register of word `j` of profile `i`. -/
def profKey (k i j : Nat) : Nat := keyAt (Pg.qnt k + 0x110 + 8 * j) i

/-- The committed words of a profile. -/
def State.profWords (s : State) (k i : Nat) : List Word := (List.range 6).map fun j => s.reg (profKey k i j)

/-- The output is asymmetric. -/
def Prof.asym (p : Prof) : Bool := p.ofmt == 0xB || p.ofmt == 0xC

/-- The profile stages its tile (R181). -/
def Prof.stages (p : Prof) : Bool := p.gran != 0 || p.hadEn

/-- A CHANNEL profile with the STATIC source reads the table at `CTAB` (R182). -/
def Prof.hasTable (p : Prof) : Bool := p.gran == 2 && p.ssrc == 0

/-- The output format and scale source are legal for the granularity (Table Output granularity). -/
def Prof.comboOk (p : Prof) : Bool :=
  let f := p.ofmt
  match p.gran with
  | 0 => f ≤ 0xA && p.ssrc == 0
  | 1 => (f ≤ 6 || f == 8) && p.ssrc < 3
  | 2 => (f ≤ 6 || f == 8 || p.asym) && (p.ssrc == 0 || p.ssrc == 2)
  | 3 => (f ≤ 6 || f == 8 || p.asym) && p.ssrc == 2
  | 4 => f ≤ 4 && p.ssrc < 3
  | 5 => f ≤ 5 && p.ssrc == 2
  | _ => false

/-- An FP32 pattern is positive and finite. -/
def posFinite (x : Nat) : Bool := decide (0 < x) && decide (x < 0x7F800000)

/-- An FP32 pattern is a power of two. -/
def isPow2 (x : Nat) : Bool :=
  match f32 x with
  | .fin false m _ => m != 0 && m == 2 ^ Nat.log2 m
  | _ => false

/-- A σ passes the checks of R183 for a profile. -/
def Prof.sigmaOk (p : Prof) (x : Nat) : Bool :=
  posFinite x && (!(p.pow2 || p.gran == 4) || isPow2 x)

/-- The addresses a profile uses. -/
def Prof.addrs (p : Prof) : List Nat :=
  (if p.rrowEn then [p.rrow] else []) ++ (if p.rscEn then [p.rscale] else []) ++ (if p.biasEn then [p.rbias] else [])
    ++ (if p.smoothEn then [p.smooth] else []) ++ (if p.stages then [p.stageA] else [])
    ++ (if p.soutEn then [p.sout] else []) ++ (if p.hasTable then [p.static] else [])

/-- The checks of a profile when it is committed; reserved bits are ignored (R10, R183). -/
def State.profOk (s : State) (k : Nat) (ws : List Word) : Bool :=
  let p := Prof.ofWords ws
  p.comboOk && decide (p.policy < 3) && decide (p.ovfTh ≤ 1024) && decide (p.unfTh ≤ 1024)
    && !(p.gran == 0 && p.soutEn) && (p.policy == 0 || (p.gran != 0 && p.soutEn && p.ssrc != 2))
    && (!((p.gran == 1 || p.gran == 4) && p.ssrc == 0) || p.sigmaOk p.static)
    && p.addrs.all fun a => match s.ea k a with
      | some e => aligned e.off 32
      | none => false

/-- A profile committed: its words stored, its four cursors at 0 (R180, R183). -/
def State.commitProf (s : State) (k i : Nat) (ws : List Word) : State :=
  let s := (List.range 6).foldl (fun s j => s.setReg (profKey k i j) ((profMask ws).getD j 0)) s
  { s with profCur := s.profCur.dropAll fun c => c / 4 == 32 * k + i }

/-- Bytes of a scale record (Table Output granularity). -/
def Prof.stride (p : Prof) : Nat :=
  match p.gran with | 1 => 32 | 2 => 544 | 3 => 544 | 4 => 96 | 5 => 64 | _ => 0

/-! ### Steps 1–6 of the pipeline (R177, R179) -/

/-- One stage of a rotation: pairs that differ in bit `st` become sum and difference. -/
def hadStage (st : Nat) (l : List RVal) : List RVal :=
  (List.range l.length).map fun i =>
    let a := l.getD i {}
    if i / 2 ^ st % 2 = 0 then
      let b := l.getD (i + 2 ^ st) {}
      let r := fAdd a.v b.v
      { v := r.1, t := a.t || b.t || isNan32 r.1, sat := a.sat + b2n r.2 }
    else
      let b := l.getD (i - 2 ^ st) {}
      let r := fSub b.v a.v
      { v := r.1, t := a.t || b.t || isNan32 r.1, sat := a.sat + b2n r.2 }

/-- fl32(2^(−k/2)). -/
def hadFactor (k : Nat) : Nat :=
  if k % 2 = 0 then 2 ^ 23 * (127 - k / 2) else 0x3FB504F3 - 2 ^ 23 * ((k + 1) / 2)

/-- A rotation of 2^k values (R179). -/
def hadamard (k : Nat) (l : List RVal) : List RVal :=
  ((List.range k).foldl (fun l st => hadStage st l) l).map fun x =>
    let r := fMul x.v (hadFactor k)
    { v := r.1, t := x.t || isNan32 r.1, sat := x.sat + b2n r.2 }

/-- An element of an FP32 vector of the unit; NaN and infinities as R151 reads them. -/
def State.vecF32 (s : State) (e : Option EA) (i : Nat) : RdVal :=
  match e with
  | some e => rdVal 9 (s.eaNat (e.plus (4 * i)) 4)
  | none => {}

/-- Steps 1 to 6 on the rows of a tile with a cursor. -/
def State.profPre (s : State) (k : Nat) (p : Prof) (cur : Nat) (int : Bool) (rows : List (List Nat)) :
    List (List RVal) :=
  let off := if p.step then 32 * cur else 0
  let later := p.rrowEn || p.rscEn || p.smoothEn || p.signEn || p.hadEn || p.gran != 0
  let toF := int && (later || p.ofmt != 10)
  (List.range rows.length).map fun r =>
    let row := (List.range 32).map fun c =>
      let x := (rows.getD r []).getD c 0
      let x : RVal := if toF then { v := iToF x } else { v := x, t := !int && isNan32 x }
      let mul (x : RVal) (w : RdVal) : RVal :=
        let y := fMul x.v w.v
        { v := y.1, t := x.t || w.nan || isNan32 y.1, sat := x.sat + b2n w.sat + b2n y.2 }
      let x := if p.rrowEn then mul x (s.vecF32 (s.ea32 k p.rrow) r) else x
      let x := if p.rscEn then
          let w := s.vecF32 (s.ea32 k p.rscale) (off + c)
          let b : RdVal := if p.biasEn then s.vecF32 (s.ea32 k p.rbias) (off + c) else {}
          let y := fFma x.v w.v b.v
          { v := y.1, t := x.t || w.nan || b.nan || isNan32 y.1, sat := x.sat + b2n w.sat + b2n b.sat + b2n y.2 }
        else x
      let x := if p.smoothEn then mul x (s.vecF32 (s.ea32 k p.smooth) (off + c)) else x
      if p.signEn && nbits p.signs c 1 == 1 then
        { x with v := if isNan32 x.v then nan32 else x.v ^^^ 2 ^ 31 } else x
    if p.hadEn then hadamard 5 row else row

/-! ### Scales (R176, R178, R182, R189) -/

/-- The largest finite magnitude of some values, as an FP32 pattern; 0 where none is finite. -/
def maxMag (l : List RVal) : Nat :=
  l.foldl (fun a x => if finite32 x.v then max a (x.v % 2 ^ 31) else a) 0

/-- floor(log2 (a / b)) of positive finite values. -/
def floorLog2 (a b : FV) : Int :=
  match a, b with
  | .fin _ m e, .fin _ n f =>
    let q : Int := (Nat.log2 m : Int) + e - (Nat.log2 n : Int) - f
    if (FV.fin false m e).lt (.fin false n (f + q)) then q - 1 else q
  | _, _ => 0

/-- ceil(log2 (a / b)) of positive finite values. -/
def ceilLog2 (a b : FV) : Int :=
  let q := floorLog2 a b
  match b with
  | .fin _ n f => if a.eq (.fin false n (f + q)) then q else q + 1
  | _ => q

/-- Largest finite value of an output format: 127 and 7 for the integers (R182). -/
def fmtMax (code : Nat) : FV :=
  match floatFmt code with
  | some f => f.decode f.top
  | none => .fin false (if elemBits code = 4 then 7 else 127) 0

/-- FP32 pattern of 2^e, e from −149 to 127. -/
def pow2Bits (e : Int) : Nat := if e < -126 then 2 ^ (e + 149).toNat else 2 ^ 23 * (e + 127).toNat

/-- σ and d derived from a largest magnitude (R182). -/
def Prof.derive (p : Prof) (a : Nat) : Nat × Nat :=
  if a = 0 then (0x3F800000, 0x3F800000)
  else
    let am := (f32 a).mul (.fin false 1 p.margin)
    let d := if p.pow2 then
        let e := floorLog2 (fmtMax p.ofmt) am
        pow2Bits (clampInt (-126) 126 e)
      else min 0x7E800000 (max 0x00800000 (toLane ((fmtMax p.ofmt).div am)).1)
    ((fDiv 0x3F800000 d).1, d)

/-- σ given: d = fl32(1/σ) (R182). -/
def given (sigma : Nat) : Nat × Nat := (sigma, (fDiv 0x3F800000 sigma).1)

/-- The second-level scale for a largest magnitude, raised by a margin (R176, R182); where 2^e is below the least FP32 number, a free
value (log entry 16). -/
def gScale (ofmt a margin : Nat) : Nat :=
  if a = 0 then 0x3F800000
  else
    let e := ceilLog2 ((f32 a).mul (.fin false 1 margin)) ((FV.fin false 114688 0).mul (fmtMax ofmt))
    if e < -149 then Config.freeScale a else pow2Bits (min 127 e)

/-- The value of a second-level scale the unit produces with: R173 and R111 read its exponent alone; a subnormal one stands for itself
(DEDUCED, log entry 93). -/
def makeScale (g : Nat) : FV := if nbits g 23 8 = 0 then f32 g else secondLevel g

/-- The PB block scale of a block's largest magnitude under g (R176). -/
def pbScale (ofmt a g : Nat) : Nat :=
  if a = 0 then 0
  else
    let unit := (makeScale g).mul (fmtMax ofmt)
    ((List.range 254).map (· + 1)).find? (fun c => !((ue5m3 c).mul unit).lt (f32 a)) |>.getD 0xFE

/-- emax of a Microscaling format (R175). -/
def mxEmax (ofmt : Nat) : Int :=
  match ofmt with | 0 => 8 | 1 => 15 | 2 => 4 | 3 => 2 | 4 => 2 | _ => 0

/-- The E8M0 scale of a block's largest magnitude (R175). -/
def mxScale (ofmt a : Nat) : Nat :=
  if a = 0 then 0
  else (clampInt (-127) 127 (floorLog2 (f32 a) (.fin false 1 0) - mxEmax ofmt) + 127).toNat

/-- How an element is scaled and converted (R178, R189). -/
inductive Conv where
  | none
  | mul (d : Nat)
  | pb (b g : Nat)
  | mx (x : Nat)
  | asym (s z : Nat)

/-- An exact scaled value rounded into an output format: its code, overflow, and whether it is ±0 (R152, R178). -/
def roundTo (ofmt : Nat) (v : FV) : Nat × Bool × Bool :=
  match floatFmt ofmt with
  | some f =>
    let r := f.encode v
    (r.1, r.2, r.1 % 2 ^ (f.mb + f.eb) == 0)
  | none =>
    let lim : Int := if elemBits ofmt = 4 then 7 else 127
    let i := roundInt v
    let c := clampInt (-lim) lim i
    (unsigned (elemBits ofmt) c, decide (c ≠ i), decide (i = 0))

/-- An element converted: code, overflow, underflow (R178, R187, R189). A NaN has neither; the rounded result of an asymmetric output is
its level, so level 0 of a nonzero finite element is an underflow (DEDUCED, log entry 50). An FP32 element written as FP32 is exact, the −∞
of a statistics tile too (R121, R152, R194). -/
def convElem (ofmt : Nat) (c : Conv) (int : Bool) (y : Nat) : Nat × Bool × Bool :=
  match c with
  | .none =>
    if ofmt = 9 ∧ !int then (if isNan32 y then nan32 else y, false, false)
    else let r := storeConv ofmt int y; (r.1, r.2, false)
  | _ =>
    if isNan32 y then
      (match floatFmt ofmt with | some f => f.nan | none => 0, false, false)
    else
      let v := laneVal y
      let under (r : Nat × Bool × Bool) := (r.1, r.2.1, r.2.2 && !v.isZero && finite32 y)
      match c with
      | .mul d => under (roundTo ofmt (v.mul (f32 d)))
      | .pb b g => if b = 0 then under (roundTo ofmt .zero)
          else under (roundTo ofmt (v.div ((ue5m3 b).mul (makeScale g))))
      | .mx x =>
        let e : Int := 127 - (x : Int)
        under (roundTo ofmt (v.mul (.fin false 1 (if ofmt = 5 then e + 6 else e))))
      | .asym s z =>
        let top : Int := if ofmt = 0xC then 15 else 255
        let i := roundInt ((v.add (laneVal z).neg).div (laneVal s))
        let q := clampInt 0 top i
        under (q.toNat, decide (q ≠ i), decide (q = 0))
      | .none => (0, false, false)

/-- An entry of a CHANNEL or ROW record: σ, z, and whether its set is constant. -/
structure QEnt where
  sigma : Nat := 0x3F800000
  d : Nat := 0x3F800000
  z : Nat := 0
  const : Bool := false

/-- The entry of a set derived from its own values (R182, R189). -/
def Prof.entry (p : Prof) (l : List RVal) : QEnt :=
  if p.asym then
    let fin := l.filter fun x => finite32 x.v
    match fin with
    | [] => { sigma := 0x00800000, z := 0, const := true }
    | x :: rest =>
      let lo := rest.foldl (fun a y => if (laneVal y.v).lt (laneVal a) then y.v else a) x.v
      let hi := rest.foldl (fun a y => if (laneVal a).lt (laneVal y.v) then y.v else a) x.v
      if (laneVal lo).eq (laneVal hi) then { sigma := 0x00800000, z := lo, const := true }
      else
        let lv : Nat := if p.ofmt = 0xC then 15 else 255
        let r := (toLane (((laneVal hi).add (laneVal lo).neg).div (.fin false lv 0))).1
        { sigma := if r = 0 then 1 else r, z := lo }
  else
    let r := p.derive (maxMag l)
    { sigma := r.1, d := r.2 }

/-- How a drain's scales are found: as the profile says, from the tile itself, or with a supplied σ (R187, R188). -/
inductive QMode where
  | normal
  | rescale
  | retry (sigma : Nat)
  deriving DecidableEq, Repr

/-- The scales of a tile: σ or g of the header, entries of CHANNEL or ROW, block scales of PB16 or MX32. -/
structure QPlan where
  head : Nat := 0
  ents : List QEnt := []
  blocks : List Nat := []

/-- The conversion of element (r, c) under a plan. -/
def QPlan.conv (q : QPlan) (p : Prof) (d r c : Nat) : Conv :=
  let ent (e : QEnt) : Conv := if p.asym then .asym e.sigma e.z else .mul e.d
  match p.gran with
  | 0 => .none
  | 1 => .mul d
  | 2 => ent (q.ents.getD c {})
  | 3 => ent (q.ents.getD r {})
  | 4 => .pb (q.blocks.getD (2 * r + c / 16) 0) q.head
  | _ => .mx (q.blocks.getD r 0)

/-- A delayed-scaling slot. -/
def State.qslot (s : State) (k i : Nat) : QSlot := s.qslots.get {} (16 * k + i)

/-- A slot changed. -/
def State.modQslot (s : State) (k i : Nat) (f : QSlot → QSlot) : State :=
  { s with qslots := s.qslots.put (16 * k + i) (f (s.qslot k i)) }

/-- Register of a slot's configuration. -/
def slotCfgKey (k i : Nat) : Nat := keyAt (Pg.qnt k + 0x150) i

/-- The history value of a slot, none while it is empty (R184). -/
def State.slotHist (s : State) (k i : Nat) : Option Nat :=
  match (s.qslot k i).hist with
  | [] => none
  | x :: l => some (if bit (s.reg (slotCfgKey k i)) 5 then x % 2 ^ 31 else (l.foldl (fun a y => max a (y % 2 ^ 31)) (x % 2 ^ 31)))

/-- `INIT_SCALE` of a slot. -/
def State.slotInit (s : State) (k i : Nat) : Nat := s.fld (slotCfgKey k i) 32 32

/-- σ and z of entry `c` of a channel table (R182). -/
def State.tableEnt (s : State) (e : EA) (c : Nat) : Nat × Nat :=
  (s.eaNat (e.plus (16 * c)) 4, s.eaNat (e.plus (16 * c + 4)) 4)

/-- Place of the channel table for a cursor. -/
def State.tablePlace (s : State) (k : Nat) (p : Prof) (cur : Nat) : Option EA :=
  (s.ea32 k p.static).map fun e => e.plus (if p.step then 512 * cur else 0)

/-- The scale data a drain reads with its first row. -/
def State.qSrc (s : State) (k : Nat) (p : Prof) (cur : Nat) : QSrc :=
  { hist := s.slotHist k p.slot, init := s.slotInit k p.slot
    table := match p.hasTable, s.tablePlace k p cur with
      | true, some e => (List.range 32).map (s.tableEnt e)
      | _, _ => [] }

/-- The scales of a tile, with the tensor's d; `a` is the magnitude a CURRENT tensor scale covers (R176, R182, R187, R188). -/
def Prof.plan (p : Prof) (src : QSrc) (mode : QMode) (a : Nat) (ys : List (List RVal)) : QPlan × Nat :=
  let m := ys.length
  let col (c : Nat) := ys.map fun r => r.getD c {}
  let cur? := p.ssrc = 2 ∨ mode = .rescale
  match p.gran with
  | 1 =>
    let sd := match mode with
      | .retry x => given x
      | _ => if cur? then p.derive a
        else if p.ssrc = 0 then given p.static
        else match src.hist with
          | some h => p.derive h
          | none => given src.init
    ({ head := sd.1 }, sd.2)
  | 2 =>
    let own := (List.range 32).map fun c => p.entry (col c)
    let tab := src.table.map fun (x : Nat × Nat) => { sigma := (given x.1).1, d := (given x.1).2, z := x.2 : QEnt }
    let base := if cur? then own else tab
    (match mode with
      | .retry x => { ents := base.map fun e => { e with sigma := (given x).1, d := (given x).2, const := false } }
      | _ => { ents := base }, 0)
  | 3 => ({ ents := ys.map p.entry }, 0)
  | 4 =>
    let g := match mode with
      | .retry x => x
      | .rescale => gScale p.ofmt a p.margin
      | .normal => if p.ssrc = 2 then gScale p.ofmt a 0
        else if p.ssrc = 0 then p.static
        else match src.hist with
          | some h => gScale p.ofmt h p.margin
          | none => src.init
    ({ head := g
       blocks := (List.range m).flatMap fun r => (List.range 2).map fun h =>
         pbScale p.ofmt (maxMag (((ys.getD r []).drop (16 * h)).take 16)) g }, 0)
  | 5 => ({ blocks := ys.map fun r => mxScale p.ofmt (maxMag r) }, 0)
  | _ => ({}, 0)

/-- A converted tile: element codes row after row, counts, and its plan. -/
structure QOut where
  codes : List (List (Nat × Bool × Bool))
  excess : Nat
  under : Nat
  plan : QPlan

/-- A tile converted under a plan. -/
def Prof.convert (p : Prof) (src : QSrc) (mode : QMode) (a : Nat) (int : Bool) (ys : List (List RVal)) : QOut :=
  let (pl, d) := p.plan src mode a ys
  let codes := (List.range ys.length).map fun r => (List.range 32).map fun c =>
    convElem p.ofmt (pl.conv p d r c) int ((ys.getD r []).getD c {}).v
  { codes := codes, plan := pl
    excess := (codes.flatten.filter (·.2.1)).length, under := (codes.flatten.filter (·.2.2)).length }

/-- The element bytes of a converted tile, in k-group layout of one panel. -/
def QOut.bytes (q : QOut) (p : Prof) : List Byte := q.codes.flatMap fun r => packElems p.ofmt (r.map (·.1))

/-- The scale record of a tile (Table Scale record): `first` are the counts found before the policy acts. -/
def QOut.record (q : QOut) (p : Prof) (ix : Nat) (first : Nat × Nat) (ys : List (List RVal))
    (rescaled retried sat nan : Bool) : List Byte :=
  let m := ys.length
  let setOf (i : Nat) : List (Nat × Nat) :=
    if p.gran = 2 then (List.range m).map fun r => (r, i) else (List.range 32).map fun c => (i, c)
  let code (x : Nat × Nat) : Nat × Bool × Bool := (q.codes.getD x.1 []).getD x.2 (0, false, false)
  let ent (i : Nat) : List Byte :=
    if p.gran = 3 ∧ m ≤ i then zeros 16
    else
      let e := q.plan.ents.getD i {}
      let es := (setOf i).any fun x => (code x).2.1
      let en := (setOf i).any fun x => isNan32 ((ys.getD x.1 []).getD x.2 {}).v
      toLe 4 e.sigma ++ toLe 4 e.z ++ toLe 1 (b2n e.const + 2 * b2n es + 4 * b2n en) ++ zeros 7
  let const := q.plan.ents.any (·.const)
  let flags := b2n rescaled + 2 * b2n sat + 4 * b2n nan + 8 * b2n const + 16 * b2n retried
  let head := toLe 4 (if p.gran = 1 ∨ p.gran = 4 then q.plan.head else 0) ++ toLe 2 first.1 ++ toLe 2 first.2
    ++ toLe 1 flags ++ toLe 1 ix ++ zeros 22
  let pad (n : Nat) (l : List Nat) := (l ++ List.replicate (n - l.length) 0).flatMap (toLe 1)
  head ++ (match p.gran with
    | 2 => (List.range 32).flatMap ent
    | 3 => (List.range 32).flatMap ent
    | 4 => pad 64 q.plan.blocks
    | 5 => pad 32 q.plan.blocks
    | _ => [])

/-! ### Events, counts and folds -/

/-- An event of the quantisation page; bits 4 and above are recorded on their 0-to-1 change (R193). -/
def State.qntEvent (s : State) (k b : Nat) (st : Status) : State :=
  s.engEvent k (Pg.qnt k) b st (decide (4 ≤ b))

/-- The unit's counters raised: saturations, underflows, NaN elements, rescales. -/
def State.qntCount (s : State) (k sat unf nan res : Nat) : State :=
  (((s.bump (Pg.qnt k + 0x180) sat).bump (Pg.qnt k + 0x188) unf).bump (Pg.qnt k + 0x190) nan).bump
    (Pg.qnt k + 0x198) res

/-- Saturations of steps 1 to 6, and elements that met a NaN. -/
def preCounts (ys : List (List RVal)) : Nat × Nat :=
  ((ys.flatten.map (·.sat)).foldl (· + ·) 0, (ys.flatten.filter (·.t)).length)

/-- A tile's magnitude folded into its profile's slot (R185). -/
def State.foldSlot (s : State) (k : Nat) (p : Prof) (a : Nat) : State :=
  if p.gran = 0 then s
  else s.modQslot k p.slot fun q => { q with cur := max q.cur a, folded := true }

/-- The first drain that uses a slot with no history raises HIST_EMPTY (R184). -/
def State.histCheck (s : State) (k : Nat) (p : Prof) : State :=
  if p.ssrc = 1 ∧ p.gran ≠ 0 ∧ (s.qslot k p.slot).hist = [] ∧ (s.qslot k p.slot).warned = false then
    (s.modQslot k p.slot fun q => { q with warned := true }).qntEvent k 6 .ok
  else s

/-- The counts call for the policy (R187). -/
def Prof.exceeds (p : Prof) (q : QOut) : Bool :=
  p.gran != 0 && (decide (p.ovfTh < q.excess) || decide (p.unfTh < q.under))

/-- The checks of a profile's operands for a tile of m rows drained by array a (R117, R180, R182): addresses and open tiles,
table entries, then extents. A QRUN (`drain` false) stages nothing and checks its records itself. -/
def State.profCheck (s : State) (k : Nat) (p : Prof) (a cur m : Nat) (drain : Bool := true) : Status :=
  let off := if p.step then 32 * cur else 0
  let places : List (Option (EA × Nat × Bool)) :=
    (if p.rrowEn then [(s.ea32 k p.rrow).map fun e => (e, 4 * m, false)] else [])
    ++ (if p.rscEn then [(s.ea32 k p.rscale).map fun e => (e.plus (4 * off), 128, false)] else [])
    ++ (if p.rscEn && p.biasEn then [(s.ea32 k p.rbias).map fun e => (e.plus (4 * off), 128, false)] else [])
    ++ (if p.smoothEn then [(s.ea32 k p.smooth).map fun e => (e.plus (4 * off), 128, false)] else [])
    ++ (if drain && p.stages then [(s.ea32 k p.stageA).map fun e => (e.plus (4096 * a), 128 * m, true)] else [])
    ++ (if drain && p.soutEn then [(s.ea32 k p.sout).map fun e => (e.plus (cur * p.stride), p.stride, true)] else [])
    ++ (if p.hasTable then [(s.tablePlace k p cur).map fun e => (e, 512, false)] else [])
  let badEnt := p.hasTable && match s.tablePlace k p cur with
    | none => true
    | some e => (List.range 32).any fun c =>
      let x := s.tableEnt e c
      !posFinite x.1 || (p.asym && decide (0x7F800000 ≤ x.2 % 2 ^ 31))
  if places.any fun x => match x with | none => true | some (e, n, w) => w && !s.eaWritable e n then .access
  else if places.any fun x => match x with | some (e, n, _) => !e.fits n | none => false then
    (if badEnt && (match s.tablePlace k p cur with | some e => e.fits 512 | none => false) then .access else .length)
  else if badEnt then .access
  else .ok

/-- The next value of a profile cursor (R180). -/
def nextCursor (wrap cur : Nat) : Nat := if wrap ≠ 0 ∧ cur + 1 = wrap then 0 else min 4095 (cur + 1)

/-! ### Slots (R184–R186) -/

/-- A slot advances: the history takes the step's value or a pushed one, the value is exported, and starts again at 0. The export is made
wherever the address lies in its line: `QNT_SLOT_OUT` is checked under R74 and R75 alone (R186; DEDUCED, log entry 93). -/
def State.slotAdvance (s : State) (k i : Nat) (push : Option Nat) : State :=
  let q := s.qslot k i
  let len := s.fld (slotCfgKey k i) 0 5
  let hist := match push with
    | some v => (v :: q.hist).take len
    | none => if q.folded then (q.cur :: q.hist).take len else q.hist
  let out := s.reg (keyAt (Pg.qnt k + 0x168) i)
  let s := s.modQslot k i fun q =>
    { hist := hist, cur := 0, folded := false, warned := if hist.isEmpty then q.warned else false }
  if bit out 32 then
    match s.ea k (bits out 0 32) with
    | some e => if s.eaWritable e 4 && e.fits 4 then s.eaWrite k e (toLe 4 q.cur) else s
    | none => s
  else s

/-- At a step start every slot of a slice with `ADV` = 0 advances (R186). -/
def State.advanceSlots (s : State) (k : Nat) : State :=
  (List.range 16).foldl (fun s i => if bit (s.reg (slotCfgKey k i)) 6 then s else s.slotAdvance k i none) s

/-- A write of `QNT_SLOT_CFG` for the selected slot. -/
def State.slotCfgWr (s : State) (k : Nat) (v : Word) : State :=
  let i := s.fld (Pg.qnt k + 0x148) 0 4
  let len := bits v 0 5
  if len = 0 ∨ 16 < len ∨ !posFinite (bits v 32 32) then s.ends .access
  else ((s.setReg (slotCfgKey k i) (v &&& 0xFFFFFFFF0000007F#64)).modQslot k i fun q =>
    { q with hist := q.hist.take len }).ends .ok

/-- A write of `QNT_SLOT_HIST`: an entry replaced, or appended as the oldest (R184). -/
def State.slotHistWr (s : State) (k : Nat) (v : Word) : State :=
  let i := s.fld (Pg.qnt k + 0x148) 0 4
  let j := s.fld (Pg.qnt k + 0x148) 8 4
  let q := s.qslot k i
  let x := bits v 0 32
  let bad := decide (0x7F800000 ≤ x % 2 ^ 31) || (decide (2 ^ 31 < x))
  if bad || q.hist.length < j || (j == q.hist.length && s.fld (slotCfgKey k i) 0 5 ≤ j) then s.ends .access
  else (s.modQslot k i fun q =>
    { q with hist := if j < q.hist.length then q.hist.set j x else q.hist ++ [x], warned := false }).ends .ok

/-- A write of `QNT_SLOT_OUT`. -/
def State.slotOutWr (s : State) (k : Nat) (v : Word) : State :=
  let i := s.fld (Pg.qnt k + 0x148) 0 4
  if (s.ea k (bits v 0 32)).isNone then s.ends .access
  else (s.setReg (keyAt (Pg.qnt k + 0x168) i) (v &&& 0x1FFFFFFFF#64)).ends .ok

/-- A write of `QNT_PROF0`: the staged profile is checked and committed, or nothing changes (R183, R438). -/
def State.profWrite (s : State) (dom k : Nat) (v : Word) : State :=
  let i := s.fld (Pg.qnt k + 0x108) 0 5
  let ws := v :: (List.range 5).map fun j => s.stagedOf dom (profKey k i (j + 1))
  if s.profOk k ws then (s.commitProf k i ws).ends .ok else s.ends .access

/-! ### Standalone operations (R191, R192, R515) -/

/-- A QUANT operation fails its checks. -/
def State.qntFail (s : State) (k : Nat) (q : QEntry) (func : Nat) (st : Status) : State × QEntry :=
  ((s.noteFail k 6 func st).qntEvent k (if st = .length then 1 else 0) st, { q with phase := .running st })

/-- A QUANT operation has made its effect. -/
def qntDone (s : State) (q : QEntry) : State × QEntry := (s, { q with phase := .running .ok })

/-- One panel of a QRUN converted under its policy: TRAP acts as SATURATE (R187, R191). -/
def State.qrunPanel (s : State) (k : Nat) (p : Prof) (ix a : Nat) (ys : List (List RVal)) :
    State × List Byte × List Byte :=
  let src := s.qSrc k p 0
  let q0 := p.convert src .normal a false ys
  let hit := p.exceeds q0
  let re := hit && p.policy == 1
  let q := if re then p.convert src .rescale (maxMag ys.flatten) false ys else q0
  let pre := preCounts ys
  let nan := ys.flatten.any (·.t)
  let s := s.qntCount k (pre.1 + q.excess) q0.under pre.2 (b2n re)
  let s := if re then s.qntEvent k 5 .ok else if hit then s.qntEvent k 4 .ok else s
  (s, q.bytes p, q.record p ix (q0.excess, q0.under) ys re false (decide (0 < pre.1 + q.excess)) nan)

/-- The value of an element read back with its record (R173, R191). -/
def deqElem (p : Prof) (rec : List Byte) (r c raw : Nat) : RVal :=
  let x := elemValue p.ofmt raw
  let out (v : FV) : RVal := let l := toLane v; { v := l.1, t := isNan32 l.1, sat := b2n l.2 }
  let entAt (i : Nat) : RVal :=
    let o := 32 + 16 * i
    let sg := rdVal 9 (field rec o 4)
    let z := rdVal 9 (field rec (o + 4) 4)
    if p.asym then
      (if nbits (field rec (o + 8) 1) 0 1 = 1 then { v := z.v, t := z.nan }
       else out (((laneVal sg.v).mul (.fin false raw 0)).add (laneVal z.v)))
    else out (x.mul (laneVal sg.v))
  match p.gran with
  | 0 => let l := loadConv p.ofmt raw; if l.2.1 then { v := iToF l.1 } else { v := l.1, t := isNan32 l.1, sat := b2n l.2.2 }
  | 1 => out (x.mul (laneVal (rdVal 9 (field rec 0 4)).v))
  | 2 => entAt c
  | 3 => entAt r
  | 4 => out (scaledWeight p.ofmt 1 raw (ue5m3 (field rec (32 + 2 * r + c / 16) 1)) |>.mul (secondLevel (field rec 0 4)))
  | _ => out (scaledWeight p.ofmt 2 raw (e8m0 (field rec (32 + r) 1)))

/-- QRUN: a profile applied to an operand, or reversed (R191). -/
def State.startQrun (s : State) (k : Nat) (qe : QEntry) (i : SInstr) : State × QEntry :=
  let m := i.arg 3 + 1
  let np := i.arg 4
  let deq := i.arg 5 == 1
  let ix := i.arg 2
  let p := Prof.ofWords (s.profWords k ix)
  let sf := if deq then p.ofmt else i.arg 6
  let df := if deq then 9 else p.ofmt
  let n := np * m
  match s.ea32 k (i.arg 0), s.ea32 k (i.arg 1) with
  | some e, some o =>
    if np = 0 then qntDone s qe
    else if !(if deq then i.arg 6 == 0 else i.arg 6 == 7 || i.arg 6 == 8 || i.arg 6 == 9)
        || !pitchOk sf m || !pitchOk df m || !s.eaWritable o (n * rowBytes df)
        || (deq && p.gran != 0 && (s.ea32 k p.sout).isNone) then s.qntFail k qe 0 .access
    else
      let st := if deq then .ok else s.profCheck k { p with step := false } 0 0 m false
      let recOk := match s.ea32 k p.sout with
        | some r => r.fits (np * p.stride)
        | none => p.gran == 0
      let recW := match s.ea32 k p.sout with
        | some r => deq || !p.soutEn || s.eaWritable r (np * p.stride)
        | none => true
      if st = .access ∨ !recW then s.qntFail k qe 0 .access
      else if st ≠ .ok ∨ !e.fits (n * rowBytes sf) ∨ !o.fits (n * rowBytes df)
          ∨ ((deq ∨ p.soutEn) ∧ p.gran ≠ 0 ∧ !recOk) then s.qntFail k qe 0 .length
      else if deq then
        let recs := (List.range np).map fun j => match s.ea32 k p.sout with
          | some r => s.eaRead (r.plus (j * p.stride)) p.stride
          | none => []
        let vals := (List.range m).map fun r => (List.range (32 * np)).map fun c =>
          deqElem p (recs.getD (c / 32) []) r (c % 32) (s.kElem e m sf r c)
        let pre := preCounts vals
        qntDone ((s.eaWrite k o (kBytes 9 m np fun r c => ((vals.getD r []).getD c {}).v)).qntCount k pre.1 0 pre.2 0) qe
      else
        let panels := (List.range np).map fun j =>
          let rows := (List.range m).map fun r => (List.range 32).map fun c => s.rdElem e m sf r (32 * j + c)
          let infs := (rows.flatten.filter (·.sat)).length
          (infs, s.profPre k { p with step := false } 0 false (rows.map fun r => r.map (·.v)))
        let whole := maxMag (panels.flatMap fun x => x.2.flatten)
        let res := panels.foldl (fun (acc : State × List Byte × List Byte) x =>
          let a := if p.gran = 1 then whole else maxMag x.2.flatten
          let r := (acc.1.qntCount k x.1 0 0 0).qrunPanel k p ix a x.2
          (r.1, acc.2.1 ++ r.2.1, acc.2.2 ++ r.2.2)) (s, [], [])
        let t := res.1.eaWrite k o res.2.1
        let t := match p.soutEn, s.ea32 k p.sout with
          | true, some r => t.eaWrite k r res.2.2
          | _, _ => t
        qntDone t qe
  | _, _ => s.qntFail k qe 0 .access

/-- The signs of a rotation: bit c at byte c div 8. -/
def State.hadSign (s : State) (e : Option EA) (c : Nat) : Bool :=
  match e with
  | some e => nbits (s.eaNat (e.plus (c / 8)) 1) (c % 8) 1 == 1
  | none => false

/-- QHAD: a rotation of size 2^k along the rows of an operand; a descriptor with a bit that is not zero where R192 has zero or names
nothing ends with ACCESS (DESIGN CHOICE, log entry 91) (R179, R192). -/
def State.startQhad (s : State) (k : Nat) (qe : QEntry) (i : SInstr) : State × QEntry :=
  match s.ea32 k (i.arg 0) with
  | none => s.qntFail k qe 1 .access
  | some de =>
    if !aligned de.off 32 then s.qntFail k qe 1 .access
    else if !de.fits 32 then s.qntFail k qe 1 .length
    else
      let b := s.eaRead de 32
      let m := field b 12 1 % 32 + 1
      let np := field b 13 2
      let kk := field b 15 1 % 16
      let signEn := field b 15 1 / 16 % 2 == 1
      let sf := field b 16 1 % 16
      let df := field b 16 1 / 16
      let clean := field b 12 1 < 32 && field b 13 2 < 4096 && field b 15 1 < 32 && field b 17 15 == 0
      let okF (f : Nat) := f == 7 || f == 8 || f == 9
      let size := 2 ^ kk
      match s.ea32 k (field b 0 4), s.ea32 k (field b 4 4) with
      | some e, some o =>
        let sg := if signEn then s.ea32 k (field b 8 4) else none
        let ni := np * m * rowBytes sf
        let no := np * m * rowBytes df
        if np = 0 then qntDone s qe
        else if !clean || kk < 5 || 12 < kk || !okF sf || !okF df || (signEn && sg.isNone) || !s.eaWritable o no then
          s.qntFail k qe 1 .access
        else if 32 * np % size ≠ 0 ∨ !e.fits ni ∨ !o.fits no
            ∨ (match sg with | some x => !x.fits (size / 8) | none => false) = true then s.qntFail k qe 1 .length
        else
          let rows := (List.range m).map fun r =>
            let row := (List.range (32 * np)).map fun c =>
              let x := s.rdElem e m sf r c
              let v := if signEn && s.hadSign sg (c % size) then (if x.nan then nan32 else x.v ^^^ 2 ^ 31) else x.v
              ({ v := v, t := x.nan, sat := b2n x.sat } : RVal)
            (List.range (32 * np / size)).flatMap fun g => hadamard kk ((row.drop (g * size)).take size)
          let at' (r c : Nat) : RVal := (rows.getD r []).getD c {}
          let outs := (List.range m).flatMap fun r => (List.range (32 * np)).map fun c => storeConv df false (at' r c).v
          let pre := preCounts rows
          let s1 := s.qntCount k (pre.1 + (outs.filter (·.2)).length) 0 pre.2 0
          let clash := e.meets ni o no && !(e == o && sf == df)
          if clash then let f := s1.freeBytes no; qntDone (f.1.eaWrite k o f.2) qe
          else qntDone (s1.eaWrite k o (kBytes df m np fun r c => (storeConv df false (at' r c).v).1)) qe
      | _, _ => s.qntFail k qe 1 .access

/-- QSTEP: a slot with `ADV` = 1 advanced, with a pushed value under `USE_SRC` (R186). -/
def State.startQstep (s : State) (k : Nat) (qe : QEntry) (i : SInstr) : State × QEntry :=
  let sl := i.arg 1
  if !bit (s.reg (slotCfgKey k sl)) 6 then s.qntFail k qe 2 .access
  else if i.arg 2 = 0 then qntDone (s.slotAdvance k sl none) qe
  else match s.ea32 k (i.arg 0) with
    | none => s.qntFail k qe 2 .access
    | some e =>
      if !e.fits 4 then s.qntFail k qe 2 .length
      else
        let x := s.eaNat e 4
        if 0x7F800000 ≤ x % 2 ^ 31 ∨ 2 ^ 31 < x then s.qntFail k qe 2 .access
        else qntDone (s.slotAdvance k sl (some x)) qe

/-- QLOAD: profile records checked and then committed all together, or not at all. Bytes behind words 0–5 that are not zero make a record fail
(DESIGN CHOICE, log entry 91) (R515). -/
def State.startQload (s : State) (k : Nat) (qe : QEntry) (i : SInstr) : State × QEntry :=
  let first := i.arg 1
  let n := i.arg 2
  match s.ea32 k (i.arg 0) with
  | none => s.qntFail k qe 3 .access
  | some e =>
    if !aligned e.off 64 then s.qntFail k qe 3 .access
    else if 32 < first + n ∨ !e.fits (64 * n) then s.qntFail k qe 3 .length
    else
      let recs := (List.range n).map fun j =>
        ((List.range 6).map fun w => word (s.eaNat (e.plus (64 * j + 8 * w)) 8), s.eaNat (e.plus (64 * j + 48)) 16)
      if recs.any fun r => r.2 != 0 || !s.profOk k r.1 then s.qntFail k qe 3 .access
      else qntDone ((List.range n).foldl (fun s j => s.commitProf k (first + j) (recs.getD j ([], 0)).1) s) qe

end Sys2Proof.Machine
end

