-- ==== Sys2Proof/Machine/Xfer.lean ====
section
/-! DEFINITION. Transfer engines and streams: arming, block checks, transfers, credits, completion in order, chaining, supersession
and failure (ch. 9). -/

namespace Sys2Proof.Machine

/-! ### Slots and descriptors -/

/-- Queue slots of an engine (Table Transfer engines). -/
def xCount (e : Nat) : Nat := if e < 32 then 16 else 64

/-- The partition a slot belongs to (R219). -/
def State.xPart (s : State) (e q : Nat) : Option Nat :=
  if e < 32 then s.partOfSlice (e / 2)
  else
    let c := s.reg (xqCfg e q)
    if bit c 36 then some (bits c 32 4) else none

/-- An engine's region producer code (Table Transfer engines). -/
def xProducer (e : Nat) : Nat := if e < 32 then e % 2 else 2

/-- Who a slot's device accesses are made for. -/
def xWho (e p : Nat) : Accessor := .part p (decide (38 ≤ e))

/-- The slices a slot's partition-relative indices resolve to. -/
def State.xSlices (s : State) (e p : Nat) : List Nat := if e < 32 then s.peersOf p (e / 2) else s.runSlices p

/-- The stream descriptor (Table Stream descriptor). -/
structure Desc where
  gen : Nat
  flags : Nat
  cls : Nat
  target : Nat
  outs : Nat
  mcast : Nat
  blist : Nat
  nblk : Nat
  tfill : Nat
  cpt : Nat
  tctr : Nat
  bctr : Nat
  binc : Nat
  dctr : Nat
  crec : Nat
  next : Nat
  tail : Nat

/-- The fields of a descriptor's 64 bytes. -/
def Desc.ofBytes (b : List Byte) : Desc :=
  { gen := field b 0 2, flags := field b 2 1, cls := field b 3 1, target := field b 4 1, outs := field b 5 1
    mcast := field b 6 2, blist := field b 8 8, nblk := field b 16 4, tfill := field b 20 2, cpt := field b 22 2
    tctr := field b 24 2, bctr := field b 26 2, binc := field b 28 2, dctr := field b 30 2, crec := field b 32 8
    next := field b 40 8, tail := field b 48 16 }

/-- `GUARD`. -/
def Desc.guard (d : Desc) : Bool := nbits d.flags 0 1 == 1
/-- `TCTR_EN`. -/
def Desc.tctrEn (d : Desc) : Bool := nbits d.flags 1 1 == 1
/-- `DCTR_EN`. -/
def Desc.dctrEn (d : Desc) : Bool := nbits d.flags 2 1 == 1
/-- `CREC_EN`. -/
def Desc.crecEn (d : Desc) : Bool := nbits d.flags 3 1 == 1
/-- `NEXT_EN`. -/
def Desc.nextEn (d : Desc) : Bool := nbits d.flags 4 1 == 1
/-- Bytes written per tile. -/
def Desc.fill (d : Desc) : Nat := if d.tfill = 0 then 2048 else d.tfill

/-- Reserved codes and bits are zero. -/
def Desc.clean (d : Desc) : Bool :=
  decide (d.flags < 32) && decide (d.cls < 3) && decide (d.target < 16) && decide (d.nblk < 2 ^ 24)
    && decide (d.tfill < 4096) && decide (d.tctr < 2 ^ 15) && decide (d.bctr < 2 ^ 15) && decide (d.dctr < 2 ^ 15)
    && decide (d.next < 2 ^ 48) && d.tail == 0 && decide (d.crec % 2 ^ 63 / 2 ^ 52 = 0)

/-- Where an address of a descriptor or block lies. -/
inductive XPlace where
  | dev (a : Nat)
  | eng (e : EA)
  deriving DecidableEq, Repr

/-- The place an engine address names for a slot. -/
def State.xEa (s : State) (e p a : Nat) : Option EA := resolveEA (s.xSlices e p) a

/-- The place of a `BLIST` or `CREC`: bit 63 tells an engine address; the bits beside the address are reserved. -/
def State.xPlace (s : State) (e p v : Nat) : Option XPlace :=
  if v / 2 ^ 63 = 1 then (if v % 2 ^ 63 < 2 ^ 32 then (s.xEa e p (v % 2 ^ 63)).map .eng else none)
  else if v < 2 ^ 52 then some (.dev v) else none

/-- The check of an extent at a place (R7, R74–R76, R221). -/
def State.xPlaceCheck (s : State) (who : Accessor) (pl : XPlace) (n : Nat) (write : Bool) : Status :=
  match pl with
  | .dev a => s.devCheck who a n write
  | .eng e => if !e.fits n then .length else if write && !s.eaWritable e n then .access else .ok

/-- Bytes at a place. -/
def State.xPlaceRead (s : State) (pl : XPlace) (n : Nat) : State × List Byte × Status :=
  match pl with
  | .dev a => s.devRead a n
  | .eng e => (s, s.eaRead e n, .ok)

/-- A place further on. -/
def XPlace.plus (pl : XPlace) (n : Nat) : XPlace :=
  match pl with
  | .dev a => .dev (a + n)
  | .eng e => .eng (e.plus n)

/-- The absolute slices of a descriptor's `MCAST`: 0 is the engine's own slice; none where it names a slice the partition does
not have. -/
def State.xMask (s : State) (e p mcast : Nat) : Option (List Nat) :=
  let sl := s.xSlices e p
  if mcast = 0 then some (if e < 32 then [e / 2] else [])
  else if mcast < 2 ^ sl.length then some ((maskList 16 mcast).filterMap fun i => sl[i]?)
  else none

/-- The slices whose regions a generation fills: those masked, and the twins of a PAIRED partition (R453). -/
def State.xTargets (s : State) (e p : Nat) (d : Desc) : List Nat :=
  ((s.xMask e p d.mcast).getD []).flatMap fun k =>
    match s.pairedTwin k with
    | some t => if (s.region t d.target).en then [k, t] else [k]
    | none => [k]

/-- The (slice, region) pairs a slot targets now: those of its generations, or of its walk. -/
def State.xTargeted (s : State) (e : Nat) (x : XSlot) (q : Nat) : List (Nat × Nat) :=
  match x.mode with
  | .idle => []
  | .walk =>
    let own := e / 2
    let mask := maskList 16 (s.fld (xqCfg e q) 0 16)
    match s.partOfSlice own with
    | some p => (own :: mask.filterMap fun i => (s.peersOf p own)[i]?).map fun k => (k, x.kreg)
    | none => [(own, x.kreg)]
  | _ => x.gens.flatMap fun g =>
    let d := Desc.ofBytes g.desc
    if d.nblk = 0 then [] else (s.xTargets e g.part d).map fun k => (k, d.target)

/-- Another slot, ACTIVE or WALK, targets a region (R221). -/
def State.xTaken (s : State) (e q k r : Nat) : Bool :=
  s.xslots.items.any fun it => it.1 != 64 * e + q && it.2.mode != .stopping && (s.xTargeted (it.1 / 64) it.2 (it.1 % 64)).contains (k, r)

/-- The checks of R221 on a descriptor, against the generation it would follow: ACCESS before LENGTH. -/
def State.armCheck (s : State) (e q p : Nat) (d : Desc) (gen : Nat) : Status :=
  let who := xWho e p
  let ctrOk (i : Nat) := (s.absCtr p i).isSome
  match s.xPlace e p d.blist, (if d.crecEn then s.xPlace e p d.crec else some (.dev 0)), s.xMask e p d.mcast with
  | some bl, some cr, some mask =>
    let blSt := s.xPlaceCheck who bl (32 * d.nblk) false
    let crSt := if d.crecEn then s.xPlaceCheck who cr 32 true else .ok
    let regOk (k : Nat) := (s.region k d.target).en && (s.region k d.target).producer == xProducer e
      && !s.xTaken e q k d.target
    if !d.clean || !aligned d.fill 32 || 2048 < d.fill || !aligned d.blist 32 || (d.crecEn && !aligned d.crec 32)
        || (d.tctrEn && !ctrOk d.tctr) || (d.dctrEn && !ctrOk d.dctr)
        || (decide (0 < d.nblk) && d.binc != 0 && !ctrOk d.bctr)
        || (decide (0 < d.nblk) && !mask.all regOk) || (d.guard && d.gen != gen)
        || blSt == .access || crSt == .access then .access
    else if blSt == .length || crSt == .length then .length
    else .ok
  | _, _, _ => .access

/-! ### Ending generations (R225, R227, R230) -/

/-- The block a generation stops before. -/
def Gen.stopAt (g : Gen) : Nat :=
  let n := (Desc.ofBytes g.desc).nblk
  match g.limit with | some l => min n l | none => n

/-- Every block the generation runs has been issued whole. -/
def Gen.issued (g : Gen) : Bool := decide (g.stopAt ≤ g.blk)

/-- The state a slot reads from its generations; one of a released partition is back at its reset values once they have ended (R228,
R240). -/
def XSlot.settleMode (x : XSlot) : XSlot :=
  if x.released && x.gens.isEmpty then {}
  else { x with mode := if x.mode = .walk then .walk else if x.gens.isEmpty then .idle
                        else if x.gens.any fun g => g.limit.isSome && g.fail.isNone then .stopping else .active }

/-- The record of a generation would fall in a group that has since been opened (R137). -/
def State.crecBarred (s : State) (e : Nat) (g : Gen) (d : Desc) : Bool :=
  d.crecEn && match s.xPlace e g.part d.crec with
    | some (.eng p) => !s.eaWritable p 32
    | _ => false

/-- A generation ends: its record is written, and DCTR signalled if it ends with OK (R227). One whose record is barred ends with ACCESS
where it would have ended with OK (R137). -/
def State.xEnd (s : State) (e q : Nat) (g : Gen) (st0 : Status) : State :=
  let d := Desc.ofBytes g.desc
  let st := if st0 = .ok ∧ s.crecBarred e g d then .access else st0
  let failBlk := match st, g.fail with | .ok, _ => 0xFFFFFFFF | .superseded, _ => 0xFFFFFFFF | _, some f => f.2 | _, none => 0xFFFFFFFF
  let r := toLe 1 (statusCode st) ++ zeros 1 ++ toLe 2 g.gen ++ toLe 4 (g.blocks % 2 ^ 24) ++ toLe 4 failBlk
    ++ toLe 4 g.tiles ++ toLe 8 g.bytes ++ toLe 8 s.ct
  let s := s.modXslot e q fun x => { x with last := word (field r 0 8), lastTarget := (s.xTargets e g.part d)[0]?.map fun k => (k, d.target) }
  let s := if d.crecEn then
      match s.xPlace e g.part d.crec with
      | some (.dev a) => s.devPut a r
      | some (.eng p) => s.eaPutBoth p r
      | none => s
    else s
  if st = .ok ∧ d.dctrEn then s.signal g.part d.dctr 1 else s

/-- XQ_FAIL: recorded to the owner of the slot's partition (R230, R239). -/
def State.xFailEvent (s : State) (e q : Nat) (g : Gen) (st : Status) (blk : Nat) : State :=
  let s := s.setReg (Pg.xe e + 0x100) (pack [(q, 8), (statusCode st, 16)])
  s.raise (Pg.xe e) 1
    { dests := some [s.ownerOf g.part], part := some g.part, status := st
      err := some ({ sev := 3, opc := blk % 2 ^ 24 * 256, aux := q }, [s.ownerOf g.part]) }

/-- XQ_ARM_FAIL (R220, R231). -/
def State.xArmFail (s : State) (e q p : Nat) (st : Status) : State :=
  s.raise (Pg.xe e) 0
    { dests := some [s.ownerOf p], part := some p, status := st
      err := some ({ sev := 3, aux := q }, [s.ownerOf p]) }

/-- A transfer's data become visible in order: fill counts, TCTR, lateness (R225, R226, R234). -/
def State.xLand (s : State) (e q : Nat) (g : Gen) (t : Xfer) : State :=
  let d := Desc.ofBytes g.desc
  let s := t.tiles.foldl (fun s kt => s.modRegion kt.1 d.target fun r => { r with filled := max r.filled (kt.2 + 1) }) s
  let s := s.bump (Pg.xe e + 0x138) t.len
  let late := match t.due with | some c => decide (c < s.clk) | none => false
  let s := if late then (s.bump (Pg.xe e + 0x150) 1).raise (Pg.xe e) 3
      { dests := some [s.ownerOf g.part], part := some g.part, onChange := true } else s
  let s := if !t.tiles.isEmpty && d.tctrEn then s.signal g.part d.tctr 1 else s
  s.modXslot e q fun x =>
    { x with gens := x.gens.map fun h => if h.gen = g.gen then
        { h with bytes := h.bytes + t.len, tiles := h.tiles + if t.tiles.isEmpty then 0 else 1 } else h }

/-- The last transfer of a block has landed: the block completes and signals (R223, R225). -/
def State.xBlockDone (s : State) (e q : Nat) (g : Gen) (t : Xfer) : State :=
  if t.off + t.len < field t.ent 16 4 then s
  else
    let d := Desc.ofBytes g.desc
    let s := s.modXslot e q fun x =>
      { x with gens := x.gens.map fun h => if h.gen = g.gen then { h with blocks := h.blocks + 1 } else h }
    if nbits (field t.ent 22 2) 5 1 = 1 ∧ d.binc ≠ 0 then s.signal g.part d.bctr d.binc else s

/-- The first tile of the block a generation failed at, in a slice's region. -/
def Gen.failTile (g : Gen) (k : Nat) : Option Nat :=
  (g.fail.bind fun f => g.starts.find? fun q => q.1 == f.2).bind fun q => (q.2.find? fun t => t.1 == k).map (·.2)

/-- Reserved tiles that are not to be visible return to the producer's credits, and the region's next tile is the failing block's
first (R230). -/
def State.xReturn (s : State) (e : Nat) (g : Gen) : State :=
  let d := Desc.ofBytes g.desc
  if d.nblk = 0 then s
  else (s.xTargets e g.part d).foldl (fun s k => s.modRegion k d.target fun r =>
    let n := match g.failTile k with | some t => min r.filled t | none => r.filled
    { r with taken := n, filled := n }) s

/-- A failed generation ends once every issued transfer has completed; a chained generation ends with it (R230). -/
def State.xFailEnd (s : State) (e q : Nat) (g : Gen) (rest : List Gen) (st : Status) (blk : Nat) : State :=
  let chain := rest.filter fun h => h.isChain
  let s := s.modXslot e q fun x =>
    { x with gens := rest.filter fun h => !h.isChain, xfers := [], held := none }
  let s := (g :: chain).foldl (fun s h => s.xReturn e h) s
  let s := s.xEnd e q g st
  let s := chain.foldl (fun s h => s.xEnd e q { h with blocks := 0, fail := none } .superseded) s
  s.xFailEvent e q g st blk

/-- Everything that follows of itself from the transfers now complete: tiles and blocks in order, generations ended. `fuel` bounds
the transfers and generations passed. -/
def State.xSettle (s : State) (e q : Nat) : Nat → State
  | 0 => s
  | fuel + 1 =>
    let x := s.xslot e q
    match x.gens with
    | [] => s.modXslot e q XSlot.settleMode
    | g :: rest =>
      match g.fail, x.xfers with
      | some (st, blk), t :: ts =>
        if t.gen = g.gen ∧ t.blk < blk then
          if t.fin then
            (((s.xLand e q g t).xBlockDone e q g t).modXslot e q fun x => { x with xfers := ts }).xSettle e q fuel
          else s.modXslot e q XSlot.settleMode
        else if x.xfers.all fun t => t.fin then (s.xFailEnd e q g rest st blk).xSettle e q fuel
        else s.modXslot e q XSlot.settleMode
      | some (st, blk), [] => (s.xFailEnd e q g rest st blk).xSettle e q fuel
      | none, t :: ts =>
        if t.gen = g.gen then
          if t.fin then
            (((s.xLand e q g t).xBlockDone e q g t).modXslot e q fun x => { x with xfers := ts }).xSettle e q fuel
          else s.modXslot e q XSlot.settleMode
        else if g.issued then
          ((s.modXslot e q fun x => { x with gens := rest }).xEnd e q g
            (if g.limit.isSome then .superseded else .ok)).xSettle e q fuel
        else s.modXslot e q XSlot.settleMode
      | none, [] =>
        if g.issued then
          ((s.modXslot e q fun x => { x with gens := rest }).xEnd e q g
            (if g.limit.isSome then .superseded else .ok)).xSettle e q fuel
        else s.modXslot e q XSlot.settleMode

/-- The slot settled completely. -/
def State.xSettled (s : State) (e q : Nat) : State :=
  let x := s.xslot e q
  s.xSettle e q (x.xfers.length + x.gens.length + 2)

/-- A generation fails at a block: nothing of that block or later ones is issued or shown (R230). -/
def State.xFail (s : State) (e q gen : Nat) (st : Status) (blk : Nat) : State :=
  s.modXslot e q fun x =>
    { x with held := none
             gens := x.gens.map fun g => if g.gen = gen then
               match g.fail with
               | some (_, b) => if blk < b then { g with fail := some (st, blk), limit := some blk } else g
               | none => { g with fail := some (st, blk), limit := some blk }
             else g }

/-! ### Arming, stopping, chaining (R219–R221, R228–R231) -/

/-- The newest generation of a slot abandons the blocks it has not begun (R228). -/
def XSlot.supersede (x : XSlot) : XSlot :=
  let n := x.gens.length
  { x with held := none
           gens := (x.gens.zipIdx).map fun gi =>
             let g := gi.1
             if gi.2 + 1 = n ∧ g.limit.isNone then
               { g with limit := some (if g.off = 0 then g.blk else g.blk + 1), ent := if g.off = 0 then none else g.ent }
             else g }

/-- A slot armed with a descriptor that has been read (R220, R228). -/
def State.xArm (s : State) (e q p : Nat) (b : List Byte) : State × Status :=
  let x := s.xslot e q
  if x.mode = .walk then (s, .access)
  else
    let st := s.armCheck e q p (Desc.ofBytes b) x.gen
    if st ≠ .ok then (s, st)
    else
      let s := s.modXslot e q fun x =>
        let x := x.supersede
        let gen := (x.gen + 1) % 65536
        { x with gen := gen, gens := x.gens ++ [{ gen := gen, part := p, desc := b }] }
      (s.xSettled e q, .ok)

/-- The descriptor of an arm from device memory, checked and read, a CRIT transfer (R220, R221, R292). -/
def State.xReadDesc (s : State) (e p addr : Nat) : State × List Byte × Status :=
  let st := s.devCheck (xWho e p) addr 64 false
  if st ≠ .ok then (s, [], st) else (s.countAccess addr).devRead addr 64

/-- A slot armed from device memory by partition `p`. -/
def State.xArmDev (s : State) (e q p addr : Nat) : State × Status :=
  if xCount e ≤ q ∨ s.xPart e q ≠ some p then (s, .access)
  else match s.xReadDesc e p addr with
    | (s, b, .ok) => s.xArm e q p b
    | (s, _, st) => (s, st)

/-- A slot stopped after its issued blocks (R228, R229). -/
def State.xStop (s : State) (e q : Nat) : State × Status :=
  if (s.xslot e q).mode = .walk then (s, .access)
  else ((s.modXslot e q XSlot.supersede).xSettled e q, .ok)

/-- A read of a block list in device memory that begins a piece of it: CRIT, one transfer for each 2 KiB (R232, R292; DESIGN CHOICE, log
entry 98). -/
def State.listRead (s : State) (pl : XPlace) (first : Bool) : State :=
  match pl with
  | .dev a => if first || aligned a 2048 then s.countAccess a else s
  | .eng _ => s

/-- The descriptor a generation of partition `p` chains to, read and checked, and held with the first entries of its list (R231). -/
def State.xChainHold (s : State) (e q p gen addr : Nat) : State :=
  match s.xReadDesc e p addr with
  | (s, b, .ok) =>
    let c := Desc.ofBytes b
    let st := s.armCheck e q p c gen
    if st ≠ .ok then s.xArmFail e q p st
    else
      let n := 32 * min c.nblk 64
      match s.xPlace e p c.blist with
      | some pl =>
        let r := (s.listRead pl true).xPlaceRead pl n
        r.1.modXslot e q fun x => { x with held := some (b, if r.2.2 = .ok then r.2.1 else []) }
      | none => s
  | (s, _, st) => s.xArmFail e q p st

/-- The chained descriptor is read once, when it is named and none of the generation's blocks is given up. -/
def State.xChainRead (s : State) (e q : Nat) (g : Gen) : State :=
  let d := Desc.ofBytes g.desc
  if d.nextEn && !g.chained && g.limit.isNone then
    (s.modXslot e q fun x =>
      { x with gens := x.gens.map fun h => if h.gen = g.gen then { h with chained := true } else h }).xChainHold e q g.part g.gen
        (d.next * 64)
  else s

/-- The chained descriptor is read and checked when the last block has begun; it is armed when that block has been issued whole
(CHAIN_ARM, R231). -/
def State.xChain (s : State) (e q : Nat) (g : Gen) : State :=
  let s := s.xChainRead e q g
  let x := s.xslot e q
  match x.held with
  | some (b, pre) =>
    if x.gens.any fun h => h.gen == g.gen && h.issued && h.limit.isNone then
      s.modXslot e q fun x =>
        let gen := (x.gen + 1) % 65536
        { x with gen := gen, held := none
                 gens := x.gens ++ [{ gen := gen, part := g.part, desc := b, pre := pre, isChain := true }] }
    else s
  | none => s

/-! ### Blocks (R222) -/

/-- A block entry (Table Block entry). -/
structure Blk where
  src : Nat
  dst : Nat
  len : Nat
  rows : Nat
  flags : Nat
  stride : Nat

/-- The fields of a block entry's 32 bytes; `ROWS` 0 is 1. -/
def Blk.ofBytes (b : List Byte) : Blk :=
  { src := field b 0 8, dst := field b 8 8, len := field b 16 4, rows := max 1 (field b 20 2), flags := field b 22 2
    stride := field b 24 8 }

/-- `SSPACE`. -/
def Blk.ssp (b : Blk) : Nat := nbits b.flags 0 2
/-- `DSPACE`. -/
def Blk.dsp (b : Blk) : Nat := nbits b.flags 2 2
/-- `DSTRIDE`: the stride applies to the destination. -/
def Blk.dstride (b : Blk) : Bool := nbits b.flags 4 1 == 1
/-- `SREMOTE`. -/
def Blk.sremote (b : Blk) : Bool := nbits b.flags 6 1 == 1
/-- `DREMOTE`. -/
def Blk.dremote (b : Blk) : Bool := nbits b.flags 7 1 == 1
/-- Bytes of a row. -/
def Blk.rowLen (b : Blk) : Nat := b.len / b.rows

/-- A side's place for byte `n` of the packed data: strided by rows, or packed. -/
def Blk.at (b : Blk) (dst : Bool) (n : Nat) : Nat :=
  let base := (if dst then b.dst else b.src) % 2 ^ 52
  if dst == b.dstride ∧ b.rowLen ≠ 0 then base + n / b.rowLen * b.stride + n % b.rowLen else base + n

/-- The runs of consecutive bytes that packed bytes `[o, o + n)` make on a side: (address, length). -/
def Blk.runs (b : Blk) (dst : Bool) (o n : Nat) : List (Nat × Nat) :=
  if dst == b.dstride ∧ b.rowLen ≠ 0 ∧ 1 < b.rows ∧ b.stride ≠ b.rowLen then
    let first := o / b.rowLen
    let last := (o + n + b.rowLen - 1) / b.rowLen
    (List.range (last - first)).map fun i =>
      let lo := max o ((first + i) * b.rowLen)
      let hi := min (o + n) ((first + i + 1) * b.rowLen)
      (b.at dst lo, hi - lo)
  else [(b.at dst o, n)]

/-- A side is in device memory of this module, or remote. -/
def Blk.spaceOf (b : Blk) (dst : Bool) : Nat := if dst then b.dsp else b.ssp
/-- A side is remote. -/
def Blk.remoteOf (b : Blk) (dst : Bool) : Bool := if dst then b.dremote else b.sremote
/-- A side's address word. -/
def Blk.wordOf (b : Blk) (dst : Bool) : Nat := if dst then b.dst else b.src

/-- Reserved codes and bits, and remote sides where they may stand. -/
def State.blkClean (s : State) (e p : Nat) (d : Desc) (b : Blk) : Bool :=
  let side (dst : Bool) :=
    let w := b.wordOf dst
    if b.remoteOf dst then
      decide (34 ≤ e) && b.spaceOf dst == 0 && decide (w < 2 ^ 58)
        && (if 38 ≤ e then decide (w < 2 ^ 52) else s.slotEnabled p)
    else match b.spaceOf dst with
      | 0 => decide (w < 2 ^ 52)
      | 1 => decide (w < 2 ^ 32)
      | 2 => !dst || !((s.xMask e p d.mcast).getD []).isEmpty
      | _ => false
  b.ssp != 3 && b.dsp != 3 && decide (b.flags < 256) && decide (b.stride < 2 ^ 48) && side false && side true

/-- Alignment: 32 bytes where a side is on the die, 64 where both are device memory (R222). -/
def Blk.align (b : Blk) : Nat :=
  if b.ssp = 1 ∨ b.dsp = 1 ∨ b.dsp = 2 then 32 else if b.ssp = 0 ∧ b.dsp = 0 then 64 else 1

/-- Every row of a side starts where it must. -/
def Blk.sideAligned (b : Blk) (dst : Bool) : Bool :=
  b.spaceOf dst == 2 || (aligned (b.wordOf dst % 2 ^ 52) b.align
    && (dst != b.dstride || b.rows == 1 || aligned b.stride b.align))

/-- The statuses of a side's rows. -/
def State.blkSide (s : State) (e p : Nat) (b : Blk) (dst : Bool) : List Status :=
  if b.remoteOf dst then []
  else
    let runs := b.runs dst 0 b.len
    match b.spaceOf dst with
    | 0 => runs.map fun r => s.devCheck (xWho e p) r.1 r.2 dst
    | 1 => match s.xEa e p (b.wordOf dst) with
      | some a => runs.map fun r =>
        let x := a.plus (r.1 - b.wordOf dst % 2 ^ 52)
        if !x.fits r.2 then .length else if dst && !s.eaWritable x r.2 then .access else .ok
      | none => [.access]
    | _ => []

/-- A block checked before any of its bytes move (R222). -/
def State.blkCheck (s : State) (e p : Nat) (d : Desc) (b : Blk) : Status :=
  if !s.blkClean e p d b then .access
  else if b.len = 0 then .ok
  else if !aligned b.rowLen b.align || !b.sideAligned false || !b.sideAligned true then .access
  else
    let sts := s.blkSide e p b false ++ s.blkSide e p b true
    if sts.contains .access then .access
    else if b.len % b.rows ≠ 0 || sts.contains .length then .length
    else .ok

/-! ### Transfers (R224–R226, R232) -/

/-- Measured consumption of a region in fabric cycles: the mean of its last 8 release intervals (R232). -/
def Region.measured (r : Region) : Option Nat :=
  match r.relClks[0]?, r.relClks[8]? with
  | some a, some b => some ((a - b) / 16)
  | _, _ => none

/-- Time to empty of a region in fabric cycles (R232). -/
def Region.toEmpty (r : Region) (cpt : Nat) : Nat :=
  let c := match (if cpt = 0 then none else some cpt), (r.measured.filter (· != 0)) with
    | some a, some b => min a b | some a, none => a | none, some b => b | none, none => 0
  (r.filled - r.released) * c

/-- The deadline of a tile about to be issued, in ticks. -/
def State.xDue (s : State) (targets : List Nat) (d : Desc) : Nat :=
  let ts := targets.map fun k => (s.region k d.target).toEmpty d.cpt
  s.clk + 2 * (ts.min?.getD 0)

/-- Length of the next transfer: a tile into a region; else at most 2 KiB, within a row and within 2 KiB of device memory. -/
def Blk.nextLen (b : Blk) (d : Desc) (o : Nat) : Nat :=
  if b.dsp = 2 then min d.fill (b.len - o)
  else
    let dev (dst : Bool) := if b.spaceOf dst = 0 then 2048 - b.at dst o % 2048 else 2048
    let row := if b.rowLen = 0 then b.len else b.rowLen - o % b.rowLen
    let row := if b.rows = 1 then b.len - o else row
    min (min (min 2048 row) (b.len - o)) (min (dev false) (dev true))

/-- What a transfer does to device memory it does under the windows of its issue; a window changed since then is for later transfers
(R245). -/
def State.underMaps {α : Type} (s : State) (maps : Tab Window) (f : State → State × α) : State × α :=
  let r := f { s with windows := maps }
  ({ r.1 with windows := s.windows }, r.2)

/-- Bytes of the packed data read from a local source. -/
def State.xSource (s : State) (maps : Tab Window) (e p cls : Nat) (b : Blk) (o n : Nat) : State × List Byte × Status :=
  match b.ssp with
  | 0 => s.underMaps maps fun s => (b.runs false o n).foldl (fun (acc : State × List Byte × Status) r =>
      let s := if cls < 2 then acc.1.countAccess r.1 else acc.1.translate
      let x := s.devRead r.1 r.2
      (x.1, acc.2.1 ++ x.2.1, firstFail acc.2.2 x.2.2)) (s, [], .ok)
  | 1 => match s.xEa e p b.src with
    | some a => (s, (b.runs false o n).flatMap fun r => s.eaRead (a.plus (r.1 - b.src)) r.2, .ok)
    | none => (s, [], .access)
  | _ => (s, zeros n, .ok)

/-- The data of a transfer written at its destination. -/
def State.xStore (s : State) (e p cls : Nat) (d : Desc) (b : Blk) (t : Xfer) (data : List Byte) : State × Status :=
  match b.dsp with
  | 2 =>
    let data := data ++ zeros (d.fill - data.length)
    (t.tiles.foldl (fun s kt =>
      s.eaPut { acc := false, slice := kt.1, off := (s.region kt.1 d.target).tileOff kt.2 } data) s, .ok)
  | 1 => match s.xEa e p b.dst with
    | some a => if (b.runs true t.off t.len).any fun r => !s.eaWritable (a.plus (r.1 - b.dst)) r.2 then (s, .access)
      else (((b.runs true t.off t.len).foldl (fun (acc : State × List Byte) r =>
        (acc.1.eaPutBoth (a.plus (r.1 - b.dst)) (acc.2.take r.2), acc.2.drop r.2)) (s, data)).1, .ok)
    | none => (s, .access)
  | _ => s.underMaps t.maps fun s =>
    let r := (b.runs true t.off t.len).foldl (fun (acc : State × List Byte × Status) r =>
      let s := if cls < 2 then acc.1.countAccess r.1 else acc.1.translate
      let x := s.devWrite r.1 (acc.2.1.take r.2)
      (x.1, acc.2.1.drop r.2, firstFail acc.2.2 x.2)) (s, data, .ok)
    (r.1, r.2.2)

/-- The transfer at a generation, block and offset, changed. -/
def State.modXfer (s : State) (e q gen blk off : Nat) (f : Xfer → Xfer) : State :=
  s.modXslot e q fun x =>
    { x with xfers := x.xfers.map fun t => if t.gen = gen ∧ t.blk = blk ∧ t.off = off then f t else t }

/-- A transfer completes with a status: OK makes it ready to be shown, any other fails its generation (R225, R230). -/
def State.xDone (s : State) (e q gen blk off : Nat) (st : Status) : State :=
  let s := s.modXfer e q gen blk off fun t => { t with fin := true, remote := false }
  (if st = .ok then s else s.xFail e q gen st blk).xSettled e q

/-- The transfer is one whose data are discarded: its block, or the generation it chains to, has failed (R230). -/
def XSlot.discards (x : XSlot) (t : Xfer) : Bool :=
  x.gens.any fun g => match g.fail with
    | some (_, b) => g.gen != t.gen || decide (b ≤ t.blk)
    | none => false

/-- Data of a transfer at hand: stored, and the transfer completes. -/
def State.xDeliver (s : State) (e q : Nat) (g : Gen) (t : Xfer) (data : List Byte) : State :=
  if (s.xslot e q).discards t then s.xDone e q t.gen t.blk t.off .ok
  else
    let d := Desc.ofBytes g.desc
    let r := s.xStore e g.part d.cls d (Blk.ofBytes t.ent) t data
    r.1.xDone e q t.gen t.blk t.off r.2

/-- The next request of a remote source: the run of bytes not yet received (R392, R415). -/
def State.xAsk (s : State) (e : Nat) (g : Gen) (t : Xfer) (use : ReqUse) : State × Bool :=
  let b := Blk.ofBytes t.ent
  match b.runs false (t.off + t.buf.length) (t.len - t.buf.length) with
  | [] => (s, false)
  | r :: _ =>
    if 38 ≤ e then s.nodeRead (s.ownerOf g.part) r.1 r.2 use
    else
      let dst := b.src / 2 ^ 52 % 64
      if s.peerIsLost dst then (s, false)
      else match s.originate dst MKind.read (s.slotGroup g.part) r.1 [] r.2 g.part use with
        | (s, o) => (s, o.isSome)

/-- The write of a remote destination: a message that is answered, or a posted MEM_WR; the third part says an answer is to come. -/
def State.xTell (s : State) (e : Nat) (g : Gen) (t : Xfer) (use : ReqUse) (data : List Byte) : State × Bool × Bool :=
  let b := Blk.ofBytes t.ent
  let a := b.at true t.off
  if 38 ≤ e then
    let own := (s.portFor (s.ownerOf g.part)).isSome
    match s.nodeWrite (s.ownerOf g.part) a data use with
    | (s, ok) => (s, ok, !own)
  else
    let dst := b.dst / 2 ^ 52 % 64
    if s.peerIsLost dst then (s, false, false)
    else match s.originate dst MKind.write (s.slotGroup g.part) a data data.length g.part use with
      | (s, o) => (s, o.isSome, true)

/-- What a transfer with a remote side does next: asks for its source, or sends its data on; without a way there it completes with
PEER_LOST (R238, R385, R415). -/
def State.xRemote (s : State) (e q : Nat) (g : Gen) (t : Xfer) : State :=
  let b := Blk.ofBytes t.ent
  let use := ReqUse.xfer e q t.gen t.blk t.off
  if b.sremote ∧ t.buf.length < t.len then
    match s.xAsk e g t use with
    | (s, true) => s.modXfer e q t.gen t.blk t.off fun t => { t with remote := true }
    | (s, false) => s.xDone e q t.gen t.blk t.off .peerLost
  else if b.dremote then
    let r := if b.sremote then (s, t.buf, Status.ok)
      else s.xSource t.maps e g.part (Desc.ofBytes g.desc).cls b t.off t.len
    if r.2.2 ≠ .ok then r.1.xDone e q t.gen t.blk t.off r.2.2
    else match r.1.xTell e g t use r.2.1 with
      | (s, true, waits) => s.modXfer e q t.gen t.blk t.off fun t => { t with remote := waits }
      | (s, false, _) => s.xDone e q t.gen t.blk t.off .peerLost
  else s

/-- The answer to a transfer's request (R230, R237, R238, R392). -/
def State.xAnswer (s : State) (e q gen blk off : Nat) (st : Status) (data : List Byte) : State :=
  let x := s.xslot e q
  match x.xfers.find? (fun t => t.gen == gen && t.blk == blk && t.off == off && t.remote), x.gens.find? (fun g => g.gen == gen) with
  | some t, some g =>
    if st ≠ .ok then s.xDone e q gen blk off st
    else
      let b := Blk.ofBytes t.ent
      if b.sremote ∧ t.buf.length < t.len then
        let t := { t with buf := t.buf ++ data, remote := false }
        let s := s.modXfer e q gen blk off fun _ => t
        if data.isEmpty then s.xDone e q gen blk off .fault
        else if t.buf.length < t.len ∨ b.dremote then s.xRemote e q g t
        else s.xDeliver e q g t (t.buf.take t.len)
      else s.xDone e q gen blk off .ok
  | _, _ => s

/-- The generation that may issue: the first with blocks left, behind generations issued whole and not superseded (R228, R231). -/
def nextGen : List Gen → Option Gen
  | [] => none
  | g :: rest => if !g.issued then some g else if g.limit.isSome then none else nextGen rest

/-- The entry of the block a generation is at, read ahead or read now. -/
def State.xEntry (s : State) (e : Nat) (g : Gen) : State × List Byte × Status :=
  match g.ent with
  | some b => (s, b, .ok)
  | none =>
    if 32 * g.blk + 32 ≤ g.pre.length then (s, (g.pre.drop (32 * g.blk)).take 32, .ok)
    else match s.xPlace e g.part (Desc.ofBytes g.desc).blist with
      | some pl =>
        let pl := pl.plus (32 * g.blk)
        (s.listRead pl (g.blk == 0)).xPlaceRead pl 32
      | none => (s, [], .access)

/-- A generation of a slot changed. -/
def State.modGen (s : State) (e q gen : Nat) (f : Gen → Gen) : State :=
  s.modXslot e q fun x => { x with gens := x.gens.map fun g => if g.gen = gen then f g else g }

/-- A transfer issued: held as outstanding, the generation moved on, the chain looked after. -/
def State.xPush (s : State) (e q : Nat) (g : Gen) (ent : List Byte) (t : Xfer) : State :=
  let last := decide (field ent 16 4 ≤ t.off + t.len)
  let s := s.modGen e q g.gen fun g =>
    { g with ent := if last then none else some ent
             off := if last then 0 else t.off + t.len
             blk := if last then g.blk + 1 else g.blk }
  let s := s.modXslot e q fun x => { x with xfers := x.xfers ++ [t] }
  if t.blk + 1 = (Desc.ofBytes g.desc).nblk then s.xChain e q g else s

/-- TRANSFER_ISSUE: a slot issues the next transfer of its generation when R224 lets it; the block's entry is checked first. -/
def State.transferIssue (s : State) (e q : Nat) : State :=
  let x := s.xslot e q
  if !s.enginesRun || x.gens.any (fun g => g.fail.isSome) then s
  else match nextGen x.gens with
    | none => s
    | some g =>
      let d := Desc.ofBytes g.desc
      let (s, ent, st) := s.xEntry e g
      let st := if st ≠ .ok then st else if g.ent.isSome then .ok else s.blkCheck e g.part d (Blk.ofBytes ent)
      if st ≠ .ok then (s.xFail e q g.gen st g.blk).xSettled e q
      else
        let b := Blk.ofBytes ent
        if b.len = 0 then
          (s.xPush e q g ent { gen := g.gen, blk := g.blk, ent := ent, off := 0, len := 0, fin := true }).xSettled e q
        else
          let targets := if b.dsp = 2 then s.xTargets e g.part d else []
          let s := s.modGen e q g.gen fun g =>
            { g with ent := some ent
                     starts := if g.off = 0 ∧ b.dsp = 2 then
                       (g.blk, targets.map fun k => (k, (s.region k d.target).taken)) :: g.starts.filter fun q => q.1 != g.blk
                       else g.starts }
          let out := (x.xfers.filter fun t => !t.fin).length
          if d.outs < out ∨ targets.any (fun k => (s.region k d.target).credits == 0) then s
          else
            let t : Xfer :=
              { gen := g.gen, blk := g.blk, ent := ent, off := g.off, len := b.nextLen d g.off
                tiles := targets.map fun k => (k, (s.region k d.target).taken)
                due := if b.dsp = 2 ∧ d.cls = 1 then some (s.xDue targets d) else none, maps := s.windows }
            let s := targets.foldl (fun s k => s.modRegion k d.target fun r => { r with taken := r.taken + 1 }) s
            let s := s.xPush e q g ent t
            if b.sremote || b.dremote then s.xRemote e q g t else s

/-- The 2 KiB pieces among runs of device memory that hold a sector no read of which is sound (R460). -/
def State.badPieces (s : State) (runs : List (Nat × Nat)) : List Nat :=
  (runs.flatMap fun r =>
    ((List.range ((r.1 + r.2 + 63) / 64 - r.1 / 64)).filter fun i =>
      (s.readSector ((r.1 / 64 + i) * 64)).2.2 == .poison).map fun i => (r.1 / 64 + i) * 64 / 2048 * 2048).eraseDups

/-- A stream's uncorrectable read in a region is put on the list for repair, with the slot to re-arm; failures in one piece merge.
The run of the stream's partition gets one suspect (R460). -/
def State.noteDamage (s : State) (f : FailedSlot) (addr : Nat) : State :=
  match s.regionOfUnit (addr / unitBytes) with
  | none => s
  | some (r, _) =>
    let s := s.modIg f.part fun g => { g with suspects := sat 0x7FFFFFFF (g.suspects + 1) }
    if s.repairs.any fun d => d.addr == addr then
      { s with repairs := s.repairs.map fun d => if d.addr = addr then { d with slots := d.slots ++ [f] } else d }
    else { s with repairs := s.repairs ++ [{ addr := addr, clk := s.clk, region := r, slots := [f] }] }

/-- TRANSFER_COMPLETE: an outstanding transfer that waits for no answer moves its data and completes. -/
def State.transferComplete (s : State) (e q i : Nat) : State :=
  let x := s.xslot e q
  match (x.xfers.filter fun t => !t.fin && !t.remote)[i]? with
  | none => s
  | some t =>
    match x.gens.find? fun g => g.gen == t.gen with
    | none => s
    | some g =>
      let b := Blk.ofBytes t.ent
      if x.discards t || b.dremote then s.xDone e q t.gen t.blk t.off .ok
      else
        let (s, data, st) := s.xSource t.maps e g.part (Desc.ofBytes g.desc).cls b t.off t.len
        if st ≠ .ok then
          let bad := if st = .poison ∧ b.ssp = 0 then s.badPieces (b.runs false t.off t.len) else []
          let s := bad.foldl (fun s a => s.noteDamage { e := e, q := q, part := g.part, desc := g.desc, blk := t.blk } a) s
          s.xDone e q t.gen t.blk t.off st
        else s.xDeliver e q g t data

/-! ### XFER instructions and register writes -/

/-- An XFER instruction that fails: its status is kept for the engine, and its queue will halt (R97, R220). -/
def State.xferDone (s : State) (k q func : Nat) (qe : QEntry) (st : Status) : State × QEntry :=
  (if st = .ok then s else s.noteFail k q func st, { qe with phase := .running st })

/-- ARM from an instruction: a descriptor in the working store (R219, R220). -/
def State.startArm (s : State) (k : Nat) (qe : QEntry) (i : SInstr) : State × QEntry :=
  let e := 2 * k + (i.queue - 7)
  let q := i.arg 1
  match s.partOfSlice k, s.ea k (i.arg 0) with
  | some p, some a =>
    if xCount e ≤ q ∨ a.acc ∨ !aligned a.off 64 then s.xferDone k i.queue 0 qe .access
    else if !a.fits 64 then s.xferDone k i.queue 0 qe .length
    else match s.xArm e q p (s.eaRead a 64) with
      | (s, st) => s.xferDone k i.queue 0 qe st
  | _, _ => s.xferDone k i.queue 0 qe .access

/-- ARMD: a descriptor in device memory. -/
def State.startArmd (s : State) (k : Nat) (qe : QEntry) (i : SInstr) : State × QEntry :=
  let e := 2 * k + (i.queue - 7)
  match s.partOfSlice k with
  | some p => match s.xArmDev e (i.arg 1) p (i.arg 2 * 64) with
    | (s, st) => s.xferDone k i.queue 1 qe st
  | none => s.xferDone k i.queue 1 qe .access

/-- STOP from an instruction. -/
def State.startStop (s : State) (k : Nat) (qe : QEntry) (i : SInstr) : State × QEntry :=
  let e := 2 * k + (i.queue - 7)
  if xCount e ≤ i.arg 1 then s.xferDone k i.queue 2 qe .access
  else match s.xStop e (i.arg 1) with
    | (s, st) => s.xferDone k i.queue 2 qe st

/-- The slot `XE_QSEL` selects, with its partition; none where it is beyond the slot count (R5). -/
def State.xSelected (s : State) (e : Nat) : Option Nat :=
  let q := s.fld (Pg.xe e + 0x108) 0 6
  if q < xCount e then some q else none

/-- A write of `XE_ARM` by a domain that sees the slot: arm from device memory, or STOP (R219, R220, R228). -/
def State.xeArmWrite (s : State) (e : Nat) (v : Word) : State :=
  match s.xSelected e with
  | none => s.ends .ok
  | some q =>
    match s.xPart e q with
    | none => s.ends .access
    | some p =>
      match if bit v 63 then s.xStop e q else s.xArmDev e q p (bits v 0 48 * 64) with
      | (s, st) => s.ends st

/-- A write of `XQ_CFG` (Table XQ_CFG): only while the slot is IDLE; `OWNER` and `OWNED` by the steward on global engines. -/
def State.xqCfgWrite (s : State) (dom e : Nat) (v : Word) : State :=
  match s.xSelected e with
  | none => s.ends .ok
  | some q =>
    let old := s.reg (xqCfg e q)
    let owner := if e < 32 then 0 else if dom = 0 then bits v 32 5 else bits old 32 5
    let new := pack [(bits v 0 25, 0), (owner, 32)]
    let part := if e < 32 then s.partOfSlice (e / 2)
      else if owner / 16 = 1 then some (owner % 16) else none
    let known := match part with | some p => (s.xSlices e p).length | none => 0
    if (s.xslot e q).mode != .idle || decide (2 ^ known ≤ bits v 0 16) then s.ends .access
    else (s.setReg (xqCfg e q) new).ends .ok

/-! ### Registers derived from slots -/

/-- `XE_STAT`: slots not IDLE beside the last failure. -/
def State.xeStat (s : State) (e : Nat) : Word :=
  let n := ((List.range (xCount e)).filter fun q => (s.xslot e q).mode != .idle).length
  setBits (s.reg (Pg.xe e + 0x100)) 0 7 n

/-- `XQ_STAT`. -/
def State.xqStat (s : State) (e q : Nat) : Word :=
  let x := s.xslot e q
  pack [(match x.mode with | .idle => 0 | .active => 1 | .walk => 2 | .stopping => 3, 0), (b2n x.held.isSome, 2)
      , (x.gen, 16), ((x.xfers.filter fun t => !t.fin).length, 32)]

/-- `XQ_POS`: an idle slot shows block 0 and the sequence of the region its last generation filled. -/
def State.xqPos (s : State) (e q : Nat) : Word :=
  let x := s.xslot e q
  let seq (t : Option (Nat × Nat)) : Nat := match t with | some k => (s.region k.1 k.2).taken % 2 ^ 32 | none => 0
  match x.gens.getLast? with
  | some g =>
    let d := Desc.ofBytes g.desc
    pack [(g.blk % 2 ^ 24, 0), (seq ((s.xTargets e g.part d)[0]?.map fun k => (k, d.target)), 32)]
  | none => pack [(0, 0), (seq (if x.mode = .walk then some (e / 2, x.kreg) else x.lastTarget), 32)]

/-- Every slot of a partition stopped, as at its release (R240). -/
def State.xStopPart (s : State) (p : Nat) : State :=
  (s.xslots.keysWhere fun i _ => s.xPart (i / 64) (i % 64) == some p).foldl (fun s i => (s.xStop (i / 64) (i % 64)).1) s

/-- The blocks a stopped slot has begun run on as far as they can: their transfers complete and the rest of them issue. -/
def State.xRunOut (s : State) (e q : Nat) : Nat → State
  | 0 => s
  | fuel + 1 =>
    let x := s.xslot e q
    if x.gens.isEmpty then s
    else
      let t := (s.transferComplete e q 0).transferIssue e q
      if (t.xslot e q).xfers.length = x.xfers.length ∧ (t.xslot e q).gens = x.gens then t else t.xRunOut e q fuel

/-- A released partition's slots: stopped under R228, and back at their reset values, IDLE, generation 0, nothing held, once their begun
blocks have completed. What waits for no one completes within the command; a block that waits for another module's answer goes on, and
its slot is reset when it has ended; one that waits for a credit of a region that is itself reset ends SUPERSEDED where it stands (R240;
DESIGN CHOICE, log entry 96). -/
def State.xResetPart (s : State) (p : Nat) : State :=
  let own := s.xslots.keysWhere fun i _ => s.xPart (i / 64) (i % 64) == some p
  own.foldl (fun s i =>
    let e := i / 64
    let q := i % 64
    let s := s.modXslot e q fun x => { x with released := true, mode := if x.mode = .walk then .idle else x.mode }
    let s := (s.xStop e q).1.xRunOut e q walkFuel
    let x := s.xslot e q
    if x.gens.isEmpty || x.xfers.any (·.remote) then s
    else (x.gens.foldl (fun s g => s.xEnd e q g .superseded) s).modXslot e q fun _ => {}) s

/-- Slots of a released partition whose begun blocks have not completed (R240). -/
def State.xLingers (s : State) (p : Nat) : Bool :=
  s.xslots.items.any fun it => it.2.released && it.2.gens.any fun g => g.part == p

end Sys2Proof.Machine
end

