-- ==== Sys2Proof/Machine/Attn.lean ====
section
/-! DEFINITION. The attention engine: cache-stream configurations, APPEND, ADEC, AMERGE, AGATHER, XLOAD and ACONFIG, with the
walks that fetch their pages (R195–R218, R235, R236). -/

namespace Sys2Proof.Machine

/-! ### Configurations (R198, R199) -/

/-- A cache-stream configuration (Table Cache-stream configuration record). -/
structure AttCfg where
  latent : Bool
  fmt : Nat
  pcode : Nat
  nb : Nat
  hkv : Nat
  g : Nat
  d : Nat
  dl : Nat
  dr : Nat
  koff : Nat
  voff : Nat
  qfmt : Nat
  xfmt : Nat
  frame : Nat
  pool : Nat
  bpool : Nat
  xk : Nat
  xv : Nat
  xpitch : Nat
  scale : Nat
  pats : List Nat
  clean : Bool
  /-- The pattern registers, as they stood when the operation started (R197). -/
  words : List Word

/-- A record read from its 128 bytes, with the pattern registers that its heads name. -/
def AttCfg.ofBytes (b : List Byte) (words : List Word := []) : AttCfg :=
  let k := field b 0 1
  { latent := k % 2 == 1, fmt := k / 2 % 8, pcode := k / 16 % 4, nb := field b 1 1, hkv := field b 2 1, g := field b 3 1
    d := field b 4 2, dl := field b 6 2, dr := field b 8 1, koff := field b 9 1, voff := field b 10 1
    qfmt := field b 11 1 % 16, xfmt := field b 11 1 / 16, frame := field b 12 4, pool := field b 16 8
    bpool := field b 24 8, xk := field b 32 4, xv := field b 36 4, xpitch := field b 40 4, scale := field b 44 4
    pats := (List.range 64).map fun h => nbits (field b (64 + h / 2) 1) (4 * (h % 2)) 4
    clean := k < 64 && field b 12 4 < 65536 && field b 16 8 < 2 ^ 52 && field b 24 8 < 2 ^ 52 && field b 48 16 == 0
      && field b 96 32 == 0
    words := words }

/-- Element code of the cache. -/
def AttCfg.code (c : AttCfg) : Nat := match c.fmt with | 0 => 0 | 1 => 1 | 2 => 5 | 3 => 4 | _ => 7

/-- Tokens in a page. -/
def AttCfg.p (c : AttCfg) : Nat := 16 * 2 ^ c.pcode

/-- Bytes of an element row, and of a scale row (R199). -/
def AttCfg.erow (c : AttCfg) : Nat := c.nb * rowBytes c.code
def AttCfg.srow (c : AttCfg) : Nat := if c.code = 7 then 0 else 32 * ceilDiv c.nb 32

/-- Query heads of the stream. -/
def AttCfg.heads (c : AttCfg) : Nat := if c.latent then c.g else c.g * c.hkv

/-- Bytes of a page; the bytes of its frame beyond them are never read or written (R199). -/
def AttCfg.pageBytes (c : AttCfg) : Nat := c.p * (c.erow + c.srow)

/-- Bytes of a page's frame. -/
def AttCfg.frameBytes (c : AttCfg) : Nat := c.frame * 2048

/-- The checks of a record (R198). -/
def AttCfg.ok (c : AttCfg) : Bool :=
  let dim (x : Nat) := aligned x 32 && decide (32 ≤ x) && decide (x ≤ 1024)
  let kv := c.hkv * (c.d / 32)
  c.clean && decide (c.fmt < 5) && decide (1 ≤ c.nb) && decide (c.nb ≤ 64) && decide (1 ≤ c.hkv) && decide (c.hkv ≤ 64)
    && decide (1 ≤ c.g) && decide (c.g ≤ 32) && decide (c.g * c.hkv ≤ 64) && dim c.d
    && (if c.latent then
          c.hkv == 1 && dim c.dl && (c.dr == 0 || c.dr == 32 || c.dr == 64) && decide ((c.dl + c.dr) / 32 ≤ c.nb)
        else c.dl == 0 && c.dr == 0 && decide (c.koff < 128) && decide (c.voff < 128) && decide (c.koff + kv ≤ c.nb)
          && decide (c.voff + kv ≤ c.nb) && (decide (c.koff + kv ≤ c.voff) || decide (c.voff + kv ≤ c.koff)))
    && (c.qfmt == 0 || c.qfmt == 7) && (c.xfmt == 0 || c.xfmt == 7)
    && decide (c.p * (c.erow + c.srow) ≤ c.frameBytes) && aligned c.pool 2048 && aligned c.bpool 2048
    && aligned c.xpitch 32 && posFinite c.scale && c.pats.all (fun x => decide (x < 8))

/-- The pattern registers of a slice. -/
def State.attPats (s : State) (k : Nat) : List Word := (List.range 8).map fun i => s.reg (Pg.att k + 0x140 + 8 * i)

/-- The record in a configuration slot. -/
def State.attRecord (s : State) (k i : Nat) : List Byte := s.attCfg.get (zeros 128) (8 * k + i)

/-- The configuration in a slot, with the pattern registers of the slice. -/
def State.attCfgOf (s : State) (k i : Nat) : AttCfg := AttCfg.ofBytes (s.attRecord k i) (s.attPats k)

/-- The slot holds a loaded configuration. -/
def AttCfg.loaded (c : AttCfg) : Bool := c.nb != 0 && c.d != 0

/-- Element `i` of a record, with its block scale (R173, R175, R199). -/
def AttCfg.value (c : AttCfg) (rec : List Byte × List Byte) (i : Nat) : FV :=
  let raw := packedElem c.code ((rec.1.drop (i / 32 * rowBytes c.code)).take (rowBytes c.code)) (i % 32)
  if c.code = 7 then elemValue 7 raw else scaledWeight c.code 2 raw (e8m0 (field rec.2 (i / 32) 1))

/-! ### Batches and sequences -/

/-- A batch descriptor. -/
structure Batch where
  seqt : Nat
  nseq : Nat
  cfg : Nat
  kreg : Nat
  xslot : Nat
  raw : Bool
  stats : Bool
  cont : Bool
  ofmt : Nat
  nfmt : Nat
  hfirst : Nat
  hcount : Nat
  klo : Nat
  khi : Nat
  clean : Bool

/-- A batch descriptor read from its 64 bytes. -/
def Batch.ofBytes (b : List Byte) : Batch :=
  let f := field b 9 1
  { seqt := field b 0 4, nseq := field b 4 2, cfg := field b 6 1 % 8, kreg := field b 7 1 % 16, xslot := field b 8 1 % 64
    raw := f % 2 == 1, stats := f / 2 % 2 == 1, cont := f / 4 % 2 == 1, ofmt := field b 10 1 % 16
    nfmt := field b 10 1 / 16, hfirst := field b 11 1, hcount := field b 12 1, klo := field b 16 3, khi := field b 20 3
    clean := field b 4 2 ≤ 16384 && field b 6 1 < 8 && field b 7 1 < 16 && field b 8 1 < 64 && f < 8
      && field b 11 1 < 64 && field b 13 3 == 0 && field b 19 1 == 0 && field b 23 1 == 0 && field b 24 40 == 0 }

/-- A sequence entry. -/
structure SeqEnt where
  plist : Nat
  npage : Nat
  len : Nat
  nq : Nat
  ring : Bool
  globEn : Bool
  rpages : Nat
  priv : Nat
  glist : Nat
  nglob : Nat
  qaddr : Nat
  oaddr : Nat
  saddr : Nat
  naddr : Nat
  taddr : Nat
  alist : Nat
  req : Nat
  clean : Bool

/-- A sequence entry read from its 64 bytes. -/
def SeqEnt.ofBytes (b : List Byte) : SeqEnt :=
  let f := field b 17 1
  let gl := field b 24 8
  { plist := field b 0 8, npage := field b 8 3, len := field b 12 3, nq := field b 16 1 % 16, ring := f % 2 == 1
    globEn := f / 2 % 2 == 1, rpages := field b 18 2, priv := field b 20 3, glist := gl % 2 ^ 52, nglob := gl / 2 ^ 56
    qaddr := field b 32 4, oaddr := field b 36 4, saddr := field b 40 4, naddr := field b 44 4, taddr := field b 48 4
    alist := field b 52 8, req := field b 60 2 % 2 ^ 14
    clean := field b 0 8 < 2 ^ 52 && aligned (field b 0 8) 4 && field b 11 1 == 0 && field b 15 1 == 0
      && field b 16 1 < 16 && f < 4 && field b 23 1 == 0 && nbits gl 52 4 == 0 && aligned (gl % 2 ^ 52) 4
      && gl / 2 ^ 56 ≤ 64 && field b 52 8 < 2 ^ 52 && aligned (field b 52 8) 4
      && (f % 2 == 0 || field b 18 2 != 0) && field b 63 1 == 0 }

/-- `NQ` in range, so that the sequence has places for its rows (R203). -/
def SeqEnt.nqOk (q : SeqEnt) : Bool := decide (1 ≤ q.nq) && decide (q.nq ≤ 9)

/-- Query positions in range (R203). -/
def SeqEnt.lenOk (q : SeqEnt) : Bool :=
  q.nqOk && decide (q.len ≤ 4194304) && decide (q.len + q.nq ≤ 4194304)

/-- A pattern register (Table ATT_PATn). -/
structure Pat where
  win : Nat
  nsink : Nat
  localOff : Bool
  glob : Bool

/-- The pattern a query head uses. -/
def AttCfg.headPat (c : AttCfg) (h : Nat) : Pat :=
  let w := c.words.getD (c.pats.getD h 0 % 8) 0
  { win := bits w 0 18, nsink := bits w 18 4, localOff := bit w 22, glob := bit w 23 }

/-- The query heads a batch processes. -/
def Batch.qheads (b : Batch) (c : AttCfg) : List Nat :=
  if c.latent then (List.range b.hcount).map (b.hfirst + ·)
  else (List.range (b.hcount * c.g)).map (b.hfirst * c.g + ·)

/-- Key position kp is admissible for a row at qp (R204). -/
def admitsKey (klo khi : Nat) (p : Pat) (globs : List Nat) (qp kp : Nat) : Bool :=
  decide (kp ≤ qp) && decide (klo ≤ kp) && (khi == 0 || decide (kp < khi))
    && (kp == qp || (!p.localOff && (p.win == 0 || decide (qp < kp + p.win))) || decide (kp < p.nsink)
      || (p.glob && globs.contains kp))

/-- The ring is large enough for the heads processed (R206). -/
def AttCfg.ringOk (c : AttCfg) (b : Batch) (q : SeqEnt) : Bool :=
  !q.ring || ((b.qheads c).all fun h =>
    let p := c.headPat h
    !(p.win == 0 && !p.localOff) && decide (p.win + q.nq - 1 ≤ q.rpages * c.p))

/-- The largest `NSINK` of the stream's patterns. -/
def AttCfg.maxSink (c : AttCfg) : Nat := ((List.range c.heads).map fun h => (c.headPat h).nsink).foldl max 0

/-! ### Faults, events and counts -/

/-- An attention event: bits 3 to 5 are recorded on their 0-to-1 change (R217). -/
def State.attEvent (s : State) (k b : Nat) (st : Status) : State :=
  s.engEvent k (Pg.att k) b st (decide (3 ≤ b))

/-- An operation as a whole fails (R196). -/
def State.attFail (s : State) (k : Nat) (q : QEntry) (func : Nat) (st : Status) : State × QEntry :=
  ((s.noteFail k 5 func st).attEvent k (if st = .length then 1 else 0) st, { q with phase := .running st })

/-- Saturations and NaN elements counted (R217, R514). -/
def State.attCount (s : State) (k sat nan : Nat) : State :=
  let s := (s.bump (Pg.att k + 0x120) sat).bump (Pg.att k + 0x128) nan
  let s := if 0 < sat then s.attEvent k 4 .ok else s
  if 0 < nan then s.attEvent k 5 .ok else s

/-- A sequence-level fault: counted and reported with its request, page-list entry and status (R214). -/
def State.seqLevelFault (s : State) (k ix : Nat) (q : SeqEnt) (entry : Nat) (st : Status) : State :=
  let s := { s with attSeq := s.attSeq.put k ix }
  (s.bump (Pg.att k + 0x118) 1).raise (Pg.att k) 2
    { part := s.partOfSlice k, status := st
      err := some ({ sev := 2, req := q.req, aux := entry }, s.ownerOfSlice k) }

/-- A fault of an ADEC or APPEND is held for the step's commit, whatever a later operation writes into the entry (R215). -/
def State.noteSeqBad (s : State) (k : Nat) (q : SeqEnt) (st : Status) : State :=
  { s with seqBad := s.seqBad ++ [(k, q.req, st)] }

/-- A transfer of a partition to or from device memory. -/
def State.attWho (s : State) (k : Nat) : Accessor := .part ((s.partOfSlice k).getD 0) false

/-- A read of a page list or a global list from device memory, a CRIT transfer: a failed check, or POISON for data that is not sound
(R214, R292, R366). -/
def State.attRead (s : State) (k addr n : Nat) : State × List Byte × Status :=
  let c := s.devCheck (s.attWho k) addr n false
  if c ≠ .ok then (s, zeros n, c)
  else
    let r := (s.countAccess addr).devRead addr n
    (r.1, r.2.1, if r.2.2 = .ok then .ok else .poison)

/-- The global positions of a sequence, with their status (R204). -/
def State.globals (s : State) (k : Nat) (q : SeqEnt) : State × List Nat × Status :=
  if !q.globEn || q.nglob == 0 then (s, [], .ok)
  else
    let r := s.attRead k q.glist (4 * q.nglob)
    let l := (List.range q.nglob).map fun i => field r.2.1 (4 * i) 3
    let bad := l.any (fun x => decide (4194304 ≤ x)) || (List.range (q.nglob - 1)).any fun i => l.getD (i + 1) 0 ≤ l.getD i 0
    (r.1, l, if r.2.2 ≠ .ok then r.2.2 else if bad then .access else .ok)

/-! ### Pages (R200, R202, R207) -/

/-- Where a page-list entry stands: in the page list or the anchor list, with the record's offset in its page. -/
structure Place where
  anchor : Bool
  entry : Nat
  slot : Nat
  deriving DecidableEq, Repr

/-- The anchor slot of a position: its ordinal among the sinks followed by the global list (R202). -/
def anchorOrd (sinks : Nat) (globs : List Nat) (p : Nat) : Nat := if p < sinks then p else sinks + globs.idxOf p

/-- Where the record of a cached position is read: the ring while no position of this step has taken its slot (R202, R207). -/
def AttCfg.place (c : AttCfg) (q : SeqEnt) (sinks : Nat) (globs : List Nat) (p : Nat) : Place :=
  if !q.ring then { anchor := false, entry := p / c.p, slot := p % c.p }
  else if q.len < p + (q.rpages * c.p + 1 - q.nq) then
    { anchor := false, entry := p / c.p % q.rpages, slot := p % c.p }
  else
    let o := anchorOrd sinks globs p
    { anchor := true, entry := o / c.p, slot := o % c.p }

/-- A page-list entry resolved: the address of its page, or the status that ends the sequence (R200, R214). -/
def State.pageAddr (s : State) (k : Nat) (c : AttCfg) (q : SeqEnt) (pl : Place) : State × Nat × Bool × Status :=
  if !pl.anchor && q.npage ≤ pl.entry then (s, 0, false, .nopage)
  else
    let r := s.attRead k ((if pl.anchor then q.alist else q.plist) + 4 * pl.entry) 4
    let w := leNat r.2.1
    let inBulk := decide (2 ^ 31 ≤ w)
    let addr := (if inBulk then c.bpool else c.pool) + w % 2 ^ 31 * c.frameBytes
    let st : Status :=
      if r.2.2 ≠ .ok then r.2.2
      else if w = 0xFFFFFFFF then .nopage
      else if inBulk && !s.ident.bulk then .absent
      else if s.devEnd ≤ addr then .access
      else if s.devEnd < addr + c.frameBytes then .length
      else s.devCheck (s.attWho k) addr c.pageBytes false
    (r.1, addr, inBulk, st)

/-- The record at a slot of a page of `p` records (R199). -/
def AttCfg.recordAt (c : AttCfg) (p : Nat) (page : List Byte) (slot : Nat) : List Byte × List Byte :=
  ((page.drop (slot * c.erow)).take c.erow, (page.drop (p * c.erow + slot * c.srow)).take c.srow)

/-- The pages that hold some positions, in the order they are read (R208). -/
def pagesOf (places : List Place) : List (Bool × Nat) := (places.map fun p => (p.anchor, p.entry)).eraseDups

/-- The record of a position out of the pages of a walk. -/
def WalkRun.record (w : WalkRun) (c : AttCfg) (pl : Place) : List Byte × List Byte :=
  match w.pages.find? fun x => x.1 == pl.anchor && x.2.1 == pl.entry with
  | some x => c.recordAt c.p x.2.2 pl.slot
  | none => ([], [])

/-- The tail record of query i (R202). -/
def State.tailRecord (s : State) (k : Nat) (c : AttCfg) (q : SeqEnt) (i : Nat) : List Byte × List Byte :=
  match s.ea32 k q.taddr with
  | some e => (s.eaRead (e.plus (i * c.erow)) c.erow, s.eaRead (e.plus (16 * c.erow + i * c.srow)) c.srow)
  | none => ([], [])

/-! ### Expansion matrices (R210) -/

/-- Bytes of a panel of `kk` rows in the expansion store: packed rows, then MX records under MXFP8. -/
def AttCfg.panelBytes (c : AttCfg) (kk : Nat) : Nat :=
  if c.xfmt = 7 then kk * 64 else kk * 32 + ceilDiv kk 128 * 128

/-- Weight (row, column) of a matrix of `kk` rows at an expansion-store offset. -/
def State.xWeight (s : State) (k : Nat) (c : AttCfg) (base kk row col : Nat) : FV :=
  let at' (o n : Nat) := s.rdMem .xstore (2 ^ 19 * k + o) n
  let pb := base + col / 32 * c.panelBytes kk
  if c.xfmt = 7 then elemValue 7 (leNat (at' (pb + row * 64 + 2 * (col % 32)) 2))
  else
    scaledWeight 0 2 (leNat (at' (pb + row * 32 + col % 32) 1))
      (e8m0 (leNat (at' (pb + kk * 32 + row / 128 * 128 + 32 * (row % 128 / 32) + col % 32) 1)))

/-- A vector times a matrix of the expansion store, FP32 sums in ascending row (R129, R210). -/
def State.xMul (s : State) (k : Nat) (c : AttCfg) (base : Nat) (v : List FV) (cols : Nat) : List Dot :=
  (List.range cols).map fun n =>
    dotFrom 0 ((List.range v.length).map fun r => (v.getD r .zero).mul (s.xWeight k c base v.length r n))

/-! ### The whole-operation checks (R196) -/

/-- The queue slot a walk takes is free (R235). -/
def State.walkSlotOk (s : State) (k slot : Nat) : Bool :=
  decide (slot < 16) && (s.xslot (2 * k + 1) slot).mode == .idle

/-- The other slices a walk writes its frames into (R236); its own region takes them too, whatever the mask (DEDUCED, log entry
94). -/
def State.walkSlices (s : State) (k slot : Nat) : List Nat :=
  let mask := s.fld (xqCfg (2 * k + 1) slot) 0 16
  match s.partOfSlice k with
  | some p => ((maskList 16 mask).filterMap fun i => (s.peersOf p k)[i]?).filter (· != k)
  | none => []

/-- The slot follows another slice's walk. -/
def State.walkFollows (s : State) (k slot : Nat) : Bool := bit (s.reg (xqCfg (2 * k + 1) slot)) 16

/-- The slices whose regions a walk writes: a follower writes none (R236). -/
def State.walkTargets (s : State) (k slot : Nat) : List Nat := if s.walkFollows k slot then [] else k :: s.walkSlices k slot

/-- The regions that receive pages are enabled for the cache/activation engine, and no other slot fills those a leader writes (DEDUCED,
log entry 94). -/
def State.walkRegionOk (s : State) (k slot r : Nat) : Bool :=
  let ok (j : Nat) := (s.region j r).en && (s.region j r).producer == 1
  ok k && (s.walkTargets k slot).all fun j => ok j && !s.xTaken (2 * k + 1) slot j r

/-- The sequence entries of a batch. -/
def State.batchSeqs (s : State) (e : EA) (n : Nat) : List SeqEnt :=
  (List.range n).map fun i => SeqEnt.ofBytes (s.eaRead (e.plus (64 * i)) 64)

/-- Width of an output head: D, or DL under `RAW` for a latent stream (R211). -/
def outWidth (c : AttCfg) (b : Batch) : Nat := if c.latent && b.raw then c.dl else c.d

/-- Width of a query head. -/
def AttCfg.qwidth (c : AttCfg) : Nat := if c.latent then c.d + c.dr else c.d

/-- Code of the output rows. -/
def Batch.ocode (b : Batch) : Nat := if b.raw then 9 else b.ofmt

/-- A place in the working store, 32-byte aligned, with the bytes used from it. -/
def State.attPlace (s : State) (k a : Nat) : Option EA :=
  match s.ea32 k a with
  | some e => if e.acc then none else some e
  | none => none

/-- Statuses of the places a sequence uses: addresses, then extents. -/
def placesStatus (l : List (Option EA × Nat)) : Status :=
  if l.any fun x => x.1.isNone then .access
  else if l.any fun x => match x.1 with | some e => !e.fits x.2 | none => false then .length
  else .ok

/-- Bytes of the tail area an operation touches. -/
def AttCfg.tailBytes (c : AttCfg) (nq : Nat) : Nat :=
  if c.srow = 0 then nq * c.erow else 16 * c.erow + nq * c.srow

/-- The places of a sequence of an ADEC; under `CONT` its output rows are read as FP32 too (R212). -/
def State.adecPlaces (s : State) (k : Nat) (c : AttCfg) (b : Batch) (q : SeqEnt) : List (Option EA × Nat) :=
  let hs := (b.qheads c).length
  let last := (b.qheads c).getLastD 0 + 1
  let part := last * (if c.latent then c.dl else c.d) / 32 * q.nq * rowBytes 9
  [(s.attPlace k q.qaddr, last * c.qwidth / 32 * q.nq * rowBytes c.qfmt)
    , (s.attPlace k q.oaddr, max (last * outWidth c b / 32 * q.nq * rowBytes b.ocode) (if b.cont then part else 0))
    , (s.ea32 k q.taddr, c.tailBytes q.nq)]
    ++ (if b.stats || b.cont || b.raw then [(s.ea32 k q.saddr, 8 * q.nq * hs)] else [])

/-- The places of a sequence of an APPEND. -/
def State.appendPlaces (s : State) (k : Nat) (c : AttCfg) (b : Batch) (q : SeqEnt) : List (Option EA × Nat) :=
  [(s.attPlace k q.naddr, c.nb * q.nq * rowBytes b.nfmt), (s.ea32 k q.taddr, c.tailBytes q.nq)]

/-- No place a batch operation writes is an open group (R137). -/
def State.batchWritable (s : State) (k : Nat) (c : AttCfg) (b : Batch) (adec : Bool) (q : SeqEnt) : Bool :=
  let ok (x : Option EA × Nat) := match x.1 with | some e => s.eaWritable e x.2 | none => true
  if !q.nqOk then true
  else if adec then
    let ps := ([(s.attPlace k q.oaddr, (b.qheads c).getLastD 0 + 1)].map fun x =>
      (x.1, x.2 * outWidth c b / 32 * q.nq * rowBytes b.ocode)) ++ (s.adecPlaces k c b q)
    (ps.take 1 ++ (if b.stats || b.raw then ps.drop 4 else [])).all ok
  else ((s.appendPlaces k c b q).drop 1).all ok

/-- The checks of a batch operation (R196, R198, R209, R210, R218, R235). -/
def State.batchCheck (s : State) (k : Nat) (c : AttCfg) (b : Batch) (adec : Bool) (tab : EA) : Status :=
  let limit := if c.latent then c.g else c.hkv
  let seqs := s.batchSeqs tab b.nseq
  let places (q : SeqEnt) := if !q.nqOk then [] else if adec then s.adecPlaces k c b q else s.appendPlaces k c b q
  let st := placesStatus (seqs.flatMap places)
  let hmax := b.hfirst + b.hcount - 1
  let x := 524288
  if !b.clean || !c.loaded || b.hcount == 0 || 64 < b.hcount || limit < b.hfirst + b.hcount
      || !aligned b.klo 32 || !aligned b.khi 32 || (b.khi != 0 && b.khi ≤ b.klo) || !aligned tab.off 64
      || (b.raw && b.ofmt != 9)
      || (if adec then !(b.ofmt == 0 || b.ofmt == 7 || b.ofmt == 9) else !(b.nfmt == 7 || b.nfmt == 8 || b.nfmt == 9))
      || (adec && !s.walkRegionOk k b.xslot b.kreg) || !s.walkSlotOk k b.xslot then .access
  else if !tab.fits (64 * b.nseq) then .length
  else if (seqs.any fun q => !q.clean || !s.batchWritable k c b adec q) || !s.eaWritable tab (64 * b.nseq)
      || st == .access then .access
  else if adec && !c.latent && seqs.any fun q => q.lenOk && decide (32 < c.g * q.nq) then .length
  else if adec && c.latent && (decide (x < c.xk + hmax * c.xpitch + c.dl / 32 * c.panelBytes c.d)
      || (!b.raw && decide (x < c.xv + hmax * c.xpitch + c.d / 32 * c.panelBytes c.dl))) then .length
  else st

/-- `RSTAT` written into a sequence entry. -/
def State.putRstat (s : State) (k : Nat) (tab : EA) (i : Nat) (st : Status) : State :=
  s.eaWrite k (tab.plus (64 * i + 62)) (toLe 1 (statusCode st))

/-! ### APPEND (R201–R203) -/

/-- One 32-element block quantised: element bytes, scale byte, saturations, NaN elements (R175, R178, R201). -/
def quantBlock (code : Nat) (xs : List RdVal) : List Byte × List Byte × Nat × Nat :=
  let sat0 := (xs.filter (·.sat)).length
  let nan := (xs.filter (·.nan)).length
  if code = 7 then
    let rs := xs.map fun x => storeConv 7 false x.v
    (packElems 7 (rs.map (·.1)), [], sat0 + (rs.filter (·.2)).length, nan)
  else
    let sc := mxScale code (maxMag (xs.map fun x => { v := x.v }))
    let rs := xs.map fun x => convElem code (.mx sc) false x.v
    (packElems code (rs.map (·.1)), toLe 1 sc, sat0 + (rs.filter (·.2.1)).length, nan)

/-- A record quantised from row i of the new records: element row, scale row, counts. -/
def State.quantRecord (s : State) (k : Nat) (c : AttCfg) (b : Batch) (q : SeqEnt) (i : Nat) :
    List Byte × List Byte × Nat × Nat :=
  match s.attPlace k q.naddr with
  | none => ([], [], 0, 0)
  | some e =>
    let bl := (List.range c.nb).map fun j =>
      quantBlock c.code ((List.range 32).map fun x => s.rdElem e q.nq b.nfmt i (32 * j + x))
    let sc := bl.flatMap (·.2.1)
    (bl.flatMap (·.1), if c.srow = 0 then [] else sc ++ zeros (c.srow - sc.length)
      , (bl.map (·.2.2.1)).foldl (· + ·) 0, (bl.map (·.2.2.2)).foldl (· + ·) 0)

/-- The page slots a position is written to: its ring or page slot, and its anchor slot (R202). -/
def AttCfg.targets (c : AttCfg) (q : SeqEnt) (sinks : Nat) (globs : List Nat) (p : Nat) : List Place :=
  let e := if q.ring then p / c.p % q.rpages else p / c.p
  let o := anchorOrd sinks globs p
  { anchor := false, entry := e, slot := p % c.p }
    :: (if q.ring && (decide (p < sinks) || globs.contains p) then
          [{ anchor := true, entry := o / c.p, slot := o % c.p }] else [])

/-- A target of an APPEND checked: its page address, or the status; a bulk-pool page without a bulk tier is absent (R6, R203, R214). -/
def State.targetAddr (s : State) (k : Nat) (c : AttCfg) (q : SeqEnt) (pl : Place) : State × Nat × Status :=
  let r := s.pageAddr k c q pl
  let st : Status :=
    if r.2.2.2 = .nopage ∨ r.2.2.2 = .absent then r.2.2.2
    else if !pl.anchor && pl.entry < q.priv then .access
    else if r.2.2.1 then .access
    else if r.2.2.2 ≠ .ok then r.2.2.2
    else r.1.devCheck (s.attWho k) r.2.1 c.pageBytes true
  (r.1, r.2.1, st)

/-- An append write through the cache/activation engine, a DEADLINE transfer (R202, R235, R292). -/
def State.appendWrite (s : State) (k addr : Nat) (bs : List Byte) : State × Status :=
  if bs = [] then (s, .ok) else ((s.countAccess addr).bump (Pg.xe (2 * k + 1) + 0x138) bs.length).devWrite addr bs

/-- One sequence of an APPEND: checked whole, then written to the tail and to its pages (R201–R203). -/
def State.appendSeq (s : State) (k ord : Nat) (c : AttCfg) (b : Batch) (tab : EA) (ix : Nat) (q : SeqEnt) : State :=
  let fail (s : State) (entry : Nat) (st : Status) := ((s.seqLevelFault k ix q entry st).noteSeqBad k q st).putRstat k tab ix st
  if !q.lenOk || !c.ringOk b q then fail s 0 .length
  else
    let (s, globs, gst) := s.globals k q
    if gst ≠ .ok then fail s 0 gst
    else
      let sinks := c.maxSink
      let places := (List.range q.nq).flatMap fun i => (c.targets q sinks globs (q.len + i)).map fun t => (i, t)
      let chk := places.foldl (fun (acc : State × List (Nat × Place × Nat) × Option (Nat × Status)) x =>
        match acc.2.2 with
        | some _ => acc
        | none =>
          let r := acc.1.targetAddr k c q x.2
          if r.2.2 = .ok then (r.1, acc.2.1 ++ [(x.1, x.2, r.2.1)], none)
          else (r.1, acc.2.1, some (x.2.entry, r.2.2))) (s, [], none)
      match chk.2.2 with
      | some (entry, st) => fail chk.1 entry st
      | none =>
        let recs := (List.range q.nq).map fun i => chk.1.quantRecord k c b q i
        let s := match s.ea32 k q.taddr with
          | some e => (List.range q.nq).foldl (fun s i =>
              let r := recs.getD i ([], [], 0, 0)
              (s.eaWrite k (e.plus (i * c.erow)) r.1).eaWrite k (e.plus (16 * c.erow + i * c.srow)) r.2.1) chk.1
          | none => chk.1
        let mute := (s.pairedPrimary k).isSome
        let w := chk.2.1.foldl (fun (acc : State × Status) x =>
          let r := recs.getD x.1 ([], [], 0, 0)
          if mute then acc
          else
            let a := acc.1.appendWrite k (x.2.2 + x.2.1.slot * c.erow) r.1
            let z := a.1.appendWrite k (x.2.2 + c.p * c.erow + x.2.1.slot * c.srow) r.2.1
            (z.1, firstFail acc.2 (firstFail a.2 z.2))) (s, .ok)
        let s := w.1.attCount k ((recs.map (·.2.2.1)).foldl (· + ·) 0) ((recs.map (·.2.2.2)).foldl (· + ·) 0)
        if w.2 ≠ .ok then fail s 0 w.2
        else (recs.foldl (fun s r => s.digestOut k 5 ord (r.1 ++ r.2.1)) s).putRstat k tab ix .ok

/-! ### ADEC (R208–R212) -/

/-- Query row i of head h, its elements. -/
def State.queryRow (s : State) (k : Nat) (c : AttCfg) (q : SeqEnt) (h i : Nat) : List FV :=
  match s.attPlace k q.qaddr with
  | none => []
  | some e => (List.range c.qwidth).map fun d => elemValue c.qfmt (s.kElem e q.nq c.qfmt i (h * c.qwidth + d))

/-- The query a head's scores use: as it stands, or absorbed with the positional part behind it (R209, R210). -/
def State.scoreQuery (s : State) (k : Nat) (c : AttCfg) (q : SeqEnt) (h i : Nat) : List FV :=
  let v := s.queryRow k c q h i
  if c.latent then
    ((s.xMul k c (c.xk + h * c.xpitch) (v.take c.d) c.dl).map fun x => (attCvt c.qfmt x.elem).2) ++ v.drop c.d
  else v

/-- The row state a head and token start from (R120, R212). -/
def State.adecStart (s : State) (k : Nat) (c : AttCfg) (b : Batch) (q : SeqEnt) (h i : Nat) : AttRow :=
  let width := if c.latent then c.dl else c.d
  if !b.cont then { o := List.replicate width 0 }
  else
    let hs := (b.qheads c).length
    let h' := (b.qheads c).idxOf h
    match s.attPlace k q.oaddr, s.ea32 k q.saddr with
    | some o, some st =>
      let at' := st.plus (8 * (i * hs + h'))
      { m := s.eaNat at' 4, l := s.eaNat (at'.plus 4) 4
        o := (List.range width).map fun x => s.kElem o q.nq 9 i (h * width + x) }
    | _, _ => { o := List.replicate width 0 }

/-- One head of one sequence: the rows after every block with an admissible key (R120, R209). -/
def State.adecHead (s : State) (k : Nat) (c : AttCfg) (b : Batch) (q : SeqEnt) (globs : List Nat) (rows : List (Nat × Nat))
    (kv : Nat) (rec : Nat → List Byte × List Byte) : List AttRow × Nat :=
  let total := q.len + q.nq
  let adm (h i p : Nat) := admitsKey b.klo b.khi (c.headPat h) globs (q.len + i) p
  let kd (p : Nat) : List FV := if c.latent then (List.range (c.dl + c.dr)).map (c.value (rec p))
    else (List.range c.d).map fun d => c.value (rec p) (c.koff * 32 + kv * c.d + d)
  let vd (p : Nat) : List FV := if c.latent then (List.range c.dl).map (c.value (rec p))
    else (List.range c.d).map fun d => c.value (rec p) (c.voff * 32 + kv * c.d + d)
  let qs := rows.map fun x => s.scoreQuery k c q x.1 x.2
  let start := rows.map fun x => s.adecStart k c b q x.1 x.2
  let cvt := attCvt (if c.code = 7 then 7 else 0)
  (List.range (ceilDiv total 32)).foldl (fun (acc : List AttRow × Nat) bl =>
    let ps := (List.range 32).map fun j => 32 * bl + j
    let any (p : Nat) := rows.any fun x => adm x.1 x.2 p
    if !ps.any any then acc
    else
      let keys := ps.map fun p => if any p then (kd p, vd p) else ([], [])
      ((List.range rows.length).map fun r =>
        let x := rows.getD r (0, 0)
        let qv := qs.getD r []
        let row := acc.1.getD r {}
        let sc := (List.range 32).map fun j =>
          if adm x.1 x.2 (32 * bl + j) then
            let key := (keys.getD j ([], [])).1
            let dt := dotFrom 0 ((List.range qv.length).map fun d => (qv.getD d .zero).mul (key.getD d .zero))
            (fMul dt.elem c.scale).1
          else negInf
        row.block sc false cvt (keys.map (·.2)), acc.2 + 1)) (start, 0)

/-- The output of a row: unnormalised, divided by l, or up-projected; each element with whether it saturated and whether its computation
met a NaN (R210, R211, R514). -/
def State.adecOut (s : State) (k : Nat) (c : AttCfg) (b : Batch) (h : Nat) (r : AttRow) : List (Nat × Bool × Bool) :=
  if b.raw then r.o.map fun x => (x, false, isNan32 x)
  else
    let n := r.o.map fun x => (fDiv x r.l, isNan32 x || isNan32 r.l)
    if c.latent then
      let met := n.any fun x => x.2
      (s.xMul k c (c.xv + h * c.xpitch) (n.map fun x => (attCvt c.qfmt x.1.1).2) c.d).map fun x =>
        let y := storeConv b.ofmt false x.elem
        (y.1, y.2 || x.sat, met || isNan32 x.elem)
    else n.map fun x => let y := storeConv b.ofmt false x.1.1; (y.1, y.2 || x.1.2, x.2 || isNan32 x.1.1)

/-- A row of `w` columns of a head written to the output rows of a sequence. -/
def State.putHeadRow (s : State) (k : Nat) (o : EA) (nq code h w i : Nat) (vals : List Nat) : State :=
  (List.range (w / 32)).foldl (fun s g =>
    s.eaWrite k (o.plus (((h * w / 32 + g) * nq + i) * rowBytes code)) (packElems code ((vals.drop (32 * g)).take 32))) s

/-- Every output row and statistics entry of a sequence in the head range written as zero; an `NQ` outside 1 to 9 gives it none
(R214). -/
def State.zeroSeq (s : State) (k : Nat) (c : AttCfg) (b : Batch) (q : SeqEnt) : State :=
  let w := outWidth c b
  let hs := b.qheads c
  let nq := if q.nqOk then q.nq else 0
  let s := match s.attPlace k q.oaddr with
    | some o => hs.foldl (fun s h => (List.range nq).foldl (fun s i =>
        s.putHeadRow k o nq b.ocode h w i (List.replicate w 0)) s) s
    | none => s
  if b.stats || b.raw then
    match s.ea32 k q.saddr with
    | some e => s.eaWrite k e (zeros (8 * nq * hs.length))
    | none => s
  else s

/-- Cycles of a sequence of an ADEC, its compute terms (Table Cycles of ADEC). -/
def adecCycles (c : AttCfg) (b : Batch) (nq blocks : Nat) : Nat :=
  let x := if c.code = 7 || c.qfmt = 7 then 2 else 1
  if c.latent then
    64 + x * ceilDiv (2 * c.d * c.dl) 2048 * b.hcount * nq
      + blocks * (x * ceilDiv (32 * b.hcount * nq * (2 * c.dl + c.dr)) 2048 + 8)
  else 64 + blocks * (x * ceilDiv (32 * b.hcount * c.g * nq * 2 * c.d) 2048 + 8)

/-- A sequence of an ADEC ends with a fault (R214, R215). -/
def State.adecFail (s : State) (k : Nat) (c : AttCfg) (b : Batch) (tab : EA) (ix : Nat) (q : SeqEnt) (entry : Nat) (st : Status) :
    State :=
  (((s.seqLevelFault k ix q entry st).noteSeqBad k q st).zeroSeq k c b q).putRstat k tab ix st

/-- The cached positions some row of a sequence admits. -/
def AttCfg.needed (c : AttCfg) (b : Batch) (q : SeqEnt) (globs : List Nat) : List Nat :=
  (List.range q.len).filter fun p => (b.qheads c).any fun h => (List.range q.nq).any fun i =>
    admitsKey b.klo b.khi (c.headPat h) globs (q.len + i) p

/-- A row has no admissible key; one that goes on from an earlier part is empty while that part left it so (R205, R212; DEDUCED, log
entry 95). -/
def State.rowEmpty (s : State) (k : Nat) (c : AttCfg) (b : Batch) (q : SeqEnt) (globs : List Nat) (h i : Nat) : Bool :=
  (List.range (q.len + q.nq)).all (fun p => !admitsKey b.klo b.khi (c.headPat h) globs (q.len + i) p)
    && isZero32 (s.adecStart k c b q h i).l

/-- A sequence of an ADEC whose pages are all read: its outputs, statistics, counts and status (R204–R212). -/
def State.adecSeq (s : State) (k : Nat) (c : AttCfg) (b : Batch) (tab : EA) (ix : Nat) (q : SeqEnt) (w : WalkRun) : State :=
  let globs := w.globs
  let hs := b.qheads c
  let rec' (p : Nat) := if p < q.len then w.record c (c.place q c.maxSink globs p) else s.tailRecord k c q (p - q.len)
  let groups : List (Nat × List Nat) := if c.latent then hs.map fun h => (0, [h])
    else (List.range b.hcount).map fun j => (b.hfirst + j, (List.range c.g).map fun g => (b.hfirst + j) * c.g + g)
  let res := groups.map fun g =>
    let rows := g.2.flatMap fun h => (List.range q.nq).map fun i => (h, i)
    (rows, s.adecHead k c b q globs rows g.1 rec')
  let outs := res.flatMap fun g => (List.range g.1.length).map fun j =>
    (g.1.getD j (0, 0), (g.2.1.getD j {}))
  let width := outWidth c b
  let t := outs.foldl (fun (t : State) (x : (Nat × Nat) × AttRow) =>
    let o : List (Nat × Bool × Bool) := s.adecOut k c b x.1.1 x.2
    let t := match s.attPlace k q.oaddr with
      | some e => t.putHeadRow k e q.nq b.ocode x.1.1 width x.1.2 (o.map fun (y : Nat × Bool × Bool) => y.1)
      | none => t
    let t := if b.stats || b.raw then
        match s.ea32 k q.saddr with
        | some e => t.eaWrite k (e.plus (8 * (x.1.2 * hs.length + hs.idxOf x.1.1))) (toLe 4 x.2.m ++ toLe 4 x.2.l)
        | none => t
      else t
    t.attCount k (o.filter fun (y : Nat × Bool × Bool) => y.2.1).length (o.filter fun (y : Nat × Bool × Bool) => y.2.2).length) s
  let empty := (outs.filter fun x => s.rowEmpty k c b q globs x.1.1 x.1.2).length
  let t := t.bump (Pg.att k + 0x110) empty
  let t := (List.range empty).foldl (fun t _ => t.attEvent k 3 .ok) t
  let blocks := (res.map fun g => g.2.2).foldl max 0
  (t.bump (Pg.att k + 0x108) (adecCycles c b q.nq blocks)).putRstat k tab ix .ok

/-! ### Walks (R235, R236) -/

/-- The slot of a walk reads WALK while its operation runs. -/
def State.takeWalk (s : State) (k slot r : Nat) (q : QEntry) : State × QEntry :=
  (s.modXslot (2 * k + 1) slot fun x => { x with mode := .walk, kreg := r }, { q with walk := some slot })

/-- At the end of the operation the slot returns to IDLE and its generation is raised by one. -/
def State.endWalk (s : State) (k : Nat) (q : QEntry) : State :=
  match q.walk with
  | some slot => s.modXslot (2 * k + 1) slot fun x => { x with mode := .idle, gen := (x.gen + 1) % 65536 }
  | none => s

/-- What the next tile of a walk comes to: it is read, it waits for a credit or a fill, or it ends its sequence or its operation. -/
inductive TileOut where
  | got (data : List Byte)
  | waits
  | fault (st : Status)
  | mismatch

/-- Place of the tag of a visible tile among a region's tags, which belong to its last tiles; none for a tile no walk put there. -/
def Region.tagPlace (g : Region) (t : Nat) : Option Nat :=
  if g.filled - t ≤ g.tags.length then some (g.tags.length - (g.filled - t)) else none

/-- Tile `t` of a region is read by the attention engine, and a credit goes back (R83, R236). -/
def State.takeTile (s : State) (k r t : Nat) : State × List Byte :=
  let g := s.region k r
  let data := s.eaRead { acc := false, slice := k, off := g.tileOff t } 2048
  (s.modRegion k r fun g =>
    { g with released := g.released + 1, relClks := (s.clk :: g.relClks).take 9
             tags := match g.tagPlace t with | some n => g.tags.eraseIdx n | none => g.tags }, data)

/-- A tile written into region `r` of a slice, with its tag, and made visible (R225, R236). -/
def State.putTile (s : State) (r : Nat) (data : List Byte) (tag : Nat × Nat × Nat) (j : Nat) : State :=
  let g := s.region j r
  (s.eaPut { acc := false, slice := j, off := g.tileOff g.taken } data).modRegion j r fun g =>
    { g with taken := g.taken + 1, filled := g.filled + 1, tags := g.tags ++ [tag] }

/-- Tile `t` of the frame at `addr`, of entry `entry` of sequence `ix`. A leader waits for a credit in every region it fills, fetches what
the page has of the tile, zeros behind it, and reads it back from its own region; a follower reads its region's next tile and
compares the tag (R199, R226, R235, R236). -/
def State.walkTile (s : State) (k slot r ix entry addr t pageBytes : Nat) : State × TileOut :=
  if s.walkFollows k slot then
    let g := s.region k r
    if g.filled ≤ g.released then (s, .waits)
    else if (g.tagPlace g.released).bind (g.tags[·]?) ≠ some (ix, entry, t) then (s, .mismatch)
    else let x := s.takeTile k r g.released; (x.1, .got x.2)
  else
    let ts := s.walkTargets k slot
    if ts.any fun j => (s.region j r).credits == 0 then (s, .waits)
    else
      let n := min 2048 (pageBytes - 2048 * t)
      let s := if n = 0 then s else s.countAccess (addr + 2048 * t)
      let d := s.devRead (addr + 2048 * t) n
      if d.2.2 ≠ .ok then (d.1, .fault .poison)
      else
        let s := d.1.bump (Pg.xe (2 * k + 1) + 0x138) n
        let s := ts.foldl (fun s j => s.putTile r (d.2.1 ++ zeros (2048 - n)) (ix, entry, t) j) s
        let x := s.takeTile k r ((s.region k r).taken - 1)
        (x.1, .got x.2)

/-- A gather descriptor. -/
structure Gather where
  seq : Nat
  kt : Nat
  v : Nat
  cfg : Nat
  head : Nat
  fmt : Nat
  kreg : Nat
  xslot : Nat
  klo : Nat
  khi : Nat
  clean : Bool

/-- A gather descriptor read from its 64 bytes. -/
def Gather.ofBytes (b : List Byte) : Gather :=
  { seq := field b 0 4, kt := field b 4 4, v := field b 8 4, cfg := field b 12 1 % 8, head := field b 13 1
    fmt := field b 14 1, kreg := field b 15 1 % 16, xslot := field b 16 1 % 64, klo := field b 20 4, khi := field b 24 4
    clean := field b 12 1 < 8 && field b 13 1 < 64 && field b 15 1 < 16 && field b 16 1 < 64 && field b 17 3 == 0
      && field b 28 36 == 0 }

/-- Dimension of the keys, and of DATTN's D, in a gather (R216). -/
def AttCfg.gatherD (c : AttCfg) : Nat := if c.latent then c.d + c.dr else c.d

/-- Key and value of a position as AGATHER writes them, output codes; the value of a latent stream has zeros where the key has its
positional part, so that both have DATTN's D columns (R119, R216; DEDUCED, log entry 95). -/
def State.gatherPos (s : State) (k : Nat) (c : AttCfg) (g : Gather) (rec : List Byte × List Byte) :
    List (Nat × Bool) × List (Nat × Bool) :=
  let enc (v : FV) : Nat × Bool := match floatFmt g.fmt with
    | some f => f.encode v
    | none => (0, false)
  let fin (x : Nat) : Nat × Bool := storeConv g.fmt false x
  if c.latent then
    let lat := (List.range c.dl).map (c.value rec)
    let key := (List.range c.d).map fun d =>
      fin (dotFrom 0 ((List.range c.dl).map fun n => (lat.getD n .zero).mul (s.xWeight k c (c.xk + g.head * c.xpitch) c.d d n))).elem
    let pos := (List.range c.dr).map fun d => enc (c.value rec (c.dl + d))
    (key ++ pos, ((s.xMul k c (c.xv + g.head * c.xpitch) lat c.d).map fun x => fin x.elem) ++ List.replicate c.dr (0, false))
  else
    ((List.range c.d).map fun d => enc (c.value rec (c.koff * 32 + g.head * c.d + d))
      , (List.range c.d).map fun d => enc (c.value rec (c.voff * 32 + g.head * c.d + d)))

/-- The checks of an AGATHER (R117, R196, R216): the sequence entry at `tab` too. -/
def State.gatherCheck (s : State) (k : Nat) (c : AttCfg) (g : Gather) (tab : EA) : Status :=
  let q := SeqEnt.ofBytes (s.eaRead tab 64)
  let dk := c.gatherD
  let nb := (g.khi - g.klo) / 32
  let es := elemBits g.fmt / 8
  let limit := if c.latent then c.g else c.hkv
  match s.attPlace k g.kt, s.attPlace k g.v with
  | some kt, some v =>
    if !g.clean || !c.loaded || limit ≤ g.head || !(g.fmt == 0 || g.fmt == 7) || g.khi == 0 || !aligned g.klo 32
        || !aligned g.khi 32 || !s.walkRegionOk k g.xslot g.kreg || !s.walkSlotOk k g.xslot
        || !s.eaWritable kt (nb * 32 * dk * es) || !s.eaWritable v (nb * 32 * dk * es) then .access
    else if !tab.fits 64 then .length
    else if !q.clean || !s.eaWritable tab 64 then .access
    else if !kt.fits (nb * 32 * dk * es) || !v.fits (nb * 32 * dk * es)
        || (c.latent && (decide (524288 < c.xk + g.head * c.xpitch + c.dl / 32 * c.panelBytes c.d)
          || decide (524288 < c.xv + g.head * c.xpitch + c.d / 32 * c.panelBytes c.dl))) then .length
    else .ok
  | _, _ => .access

/-- The panels written once the pages are read; positions not cached are written as zero (R216). -/
def State.gatherSeq (s : State) (k : Nat) (c : AttCfg) (g : Gather) (tab : EA) (q : SeqEnt) (w : WalkRun) : State :=
  let nb := (g.khi - g.klo) / 32
  let dk := c.gatherD
  match s.attPlace k g.kt, s.attPlace k g.v with
  | some kt, some v =>
    let blk : List (List (List (Nat × Bool) × List (Nat × Bool))) := (List.range nb).map fun b => (List.range 32).map fun j =>
      let p := g.klo + 32 * b + j
      if p < q.len then s.gatherPos k c g (w.record c (c.place q c.maxSink w.globs p))
      else (List.replicate dk (0, false), List.replicate dk (0, false))
    let kbytes := blk.flatMap fun ks => (List.range dk).flatMap fun d =>
      packElems g.fmt (ks.map fun x => (x.1.getD d (0, false)).1)
    let vbytes := blk.flatMap fun ks => (List.range (dk / 32)).flatMap fun gg => ks.flatMap fun x =>
      packElems g.fmt (((x.2.drop (32 * gg)).take 32).map (·.1))
    let all := blk.flatten.flatMap fun x => x.1 ++ x.2
    let nan := match floatFmt g.fmt with
      | some f => (all.filter fun x => (f.decode x.1).isNan).length
      | none => 0
    let comp := if c.latent then ceilDiv (32 * 2 * c.d * c.dl) 2048 else 8
    let s := (s.eaWrite k kt kbytes).eaWrite k v vbytes
    let s := (s.attCount k (all.filter (·.2)).length nan).bump (Pg.att k + 0x108) (64 + nb * comp)
    s.putRstat k tab 0 .ok
  | _, _ => s

/-- What a walking operation is about: an ADEC over its sequences, or an AGATHER of one. -/
structure WalkEnv where
  c : AttCfg
  adec : Option Batch
  gather : Gather
  tab : EA
  nseq : Nat
  slot : Nat
  kreg : Nat

/-- The operation of an entry, from what it read when it started (R197). -/
def State.walkEnv (s : State) (k : Nat) (adec : Bool) (w : WalkRun) : Option WalkEnv :=
  let b := Batch.ofBytes w.desc
  let g := Gather.ofBytes w.desc
  (s.ea32 k (if adec then b.seqt else g.seq)).map fun tab =>
    { c := AttCfg.ofBytes w.cfg w.pats, adec := if adec then some b else none, gather := g, tab := tab
      nseq := if adec then b.nseq else 1, slot := if adec then b.xslot else g.xslot
      kreg := if adec then b.kreg else g.kreg }

/-- A sequence ends with a fault, and the walk goes to the next one (R214). -/
def State.walkFault (s : State) (k : Nat) (v : WalkEnv) (w : WalkRun) (q : SeqEnt) (entry : Nat) (st : Status) : State × WalkRun :=
  let s := match v.adec with
    | some b => s.adecFail k v.c b v.tab w.ix q entry st
    | none => (s.seqLevelFault k w.ix q entry st).putRstat k v.tab w.ix st
  (s, { w with ix := w.ix + 1, ent := none, globs := [], todo := [], addr := none, buf := [], pages := [] })

/-- The sequence in process is begun: its entry is read, its ring, its lengths and its global list are checked, and its pages are found
(R203, R204, R206, R208). -/
def State.walkBegin (s : State) (k : Nat) (v : WalkEnv) (w : WalkRun) : State × WalkRun :=
  let ent := s.eaRead (v.tab.plus (64 * w.ix)) 64
  let q := SeqEnt.ofBytes ent
  let short := match v.adec with
    | some b => !q.lenOk || !v.c.ringOk b q
    | none => false
  if short then s.walkFault k v w q 0 .length
  else
    let (s, globs, gst) := s.globals k q
    if gst ≠ .ok then s.walkFault k v w q 0 gst
    else
      let need := match v.adec with
        | some b => v.c.needed b q globs
        | none => ((List.range (v.gather.khi - v.gather.klo)).map (v.gather.klo + ·)).filter (· < q.len)
      (s, { w with ent := some ent, globs := globs, todo := pagesOf (need.map (v.c.place q v.c.maxSink globs)) })

/-- One piece of a walk: a sequence begun or finished, a page-list entry read, or a tile. The third part answers whether it went on, the
last whether a follower met a tag it does not expect. -/
def State.walkPiece (s : State) (k : Nat) (v : WalkEnv) (w : WalkRun) : State × WalkRun × Bool × Bool :=
  match w.ent with
  | none => let x := s.walkBegin k v w; (x.1, x.2, true, false)
  | some ent =>
    let q := SeqEnt.ofBytes ent
    match w.todo, w.addr with
    | [], _ =>
      let s := match v.adec with
        | some b => s.adecSeq k v.c b v.tab w.ix q w
        | none => s.gatherSeq k v.c v.gather v.tab q w
      (s, { w with ix := w.ix + 1, ent := none, globs := [], pages := [] }, true, false)
    | (anchor, entry) :: _, none =>
      let (s, addr, inBulk, st) := s.pageAddr k v.c q { anchor := anchor, entry := entry, slot := 0 }
      if st ≠ .ok then let x := s.walkFault k v w q entry st; (x.1, x.2, true, false)
      else
        let s := s.bump (Pg.att k + 0x130) (b2n inBulk)
        ({ s with pageSeen := s.pageSeen.put (addr / 2048) s.clk }, { w with addr := some addr, buf := [] }, true, false)
    | (anchor, entry) :: rest, some addr =>
      match s.walkTile k v.slot v.kreg w.ix entry addr (w.buf.length / 2048) v.c.pageBytes with
      | (s, .waits) => (s, w, false, false)
      | (s, .mismatch) => (s, w, false, true)
      | (s, .fault st) => let x := s.walkFault k v w q entry st; (x.1, x.2, true, false)
      | (s, .got data) =>
        let buf := w.buf ++ data
        if buf.length < v.c.frameBytes then (s, { w with buf := buf }, true, false)
        else (s, { w with addr := none, buf := [], todo := rest, pages := w.pages ++ [(anchor, entry, buf)] }, true, false)

/-- A walking operation goes on as far as it can: to its end, to a wait for a tile, or to a tag its follower does not expect. The last part
answers whether it came further; `fuel` bounds its pieces. -/
def State.walkLoop (s : State) (k func : Nat) (v : WalkEnv) (q : QEntry) : Nat → WalkRun → Bool → State × QEntry × Bool
  | 0, w, moved => (s, { q with pages := some w }, moved)
  | fuel + 1, w, moved =>
    if v.nseq ≤ w.ix then (s, { q with phase := .running .ok, pages := none }, true)
    else
      match s.walkPiece k v w with
      | (s, w, true, _) => s.walkLoop k func v q fuel w true
      | (s, _, false, true) =>
        let x := (s.raise (Pg.xe (2 * k + 1)) 2 { part := s.partOfSlice k, status := .access }).attFail k { q with pages := none } func
          .access
        (x.1, x.2, true)
      | (s, w, false, false) => (s, { q with phase := .starved s.clk, pages := some w }, moved)

/-- A walking operation takes its slot and starts its walk (R197, R235). -/
def State.startWalk (s : State) (k func : Nat) (adec : Bool) (qe : QEntry) (w : WalkRun) : State × QEntry :=
  match s.walkEnv k adec w with
  | none => s.attFail k qe func .access
  | some v =>
    let (s, qe) := s.takeWalk k v.slot v.kreg qe
    let x := s.walkLoop k func v qe walkFuel w false
    (x.1, x.2.1)

/-- A walk that waits goes on; the cycles it waited are counted (R217, R226, R236). Answers whether it came further. -/
def State.resumeWalk (s : State) (k : Nat) (adec : Bool) (qe : QEntry) : State × QEntry × Bool :=
  match qe.phase, qe.pages with
  | .starved since, some w =>
    (match s.walkEnv k adec w with
    | none => (s, qe, false)
    | some v =>
      let s := s.bump (Pg.att k + 0x138) (s.ticksCyc (s.clk - since))
      let qe := { qe with phase := .starved s.clk }
      s.walkLoop k (if adec then 0 else 3) v qe walkFuel w false)
  | _, _ => (s, qe, false)

/-! ### Operations -/

/-- ADEC or APPEND: descriptor, checks, and every sequence in table order. -/
def State.startBatch (s : State) (k : Nat) (qe : QEntry) (i : SInstr) (adec : Bool) : State × QEntry :=
  let func := if adec then 0 else 1
  match s.ea32 k (i.arg 0) with
  | none => s.attFail k qe func .access
  | some de =>
    if !aligned de.off 64 then s.attFail k qe func .access
    else if !de.fits 64 then s.attFail k qe func .length
    else
      let b := Batch.ofBytes (s.eaRead de 64)
      let c := s.attCfgOf k b.cfg
      if b.nseq = 0 then (s, { qe with phase := .running .ok })
      else match s.ea32 k b.seqt with
        | none => s.attFail k qe func .access
        | some tab =>
          let st := s.batchCheck k c b adec tab
          if st ≠ .ok then s.attFail k qe func st
          else if adec then
            s.startWalk k func true qe { desc := s.eaRead de 64, cfg := s.attRecord k b.cfg, pats := s.attPats k }
          else
            let (s, qe) := s.takeWalk k b.xslot b.kreg qe
            ((List.range b.nseq).foldl (fun s ix =>
              s.appendSeq k qe.ordinal c b tab ix (SeqEnt.ofBytes (s.eaRead (tab.plus (64 * ix)) 64))) s
              , { qe with phase := .running .ok })

/-- Two parts of a merge combined on (m, l, o) (R213). -/
def mergeStep (a b : AttRow) : AttRow :=
  let mb := attMax a.m b.m
  if mb = negInf then a
  else
    let x := if a.m = mb then 0x3F800000 else attExp a.m mb
    let y := if b.m = mb then 0x3F800000 else attExp b.m mb
    let mix (p q : Nat) := (fFma q y (fMul p x).1).1
    { a with m := mb, l := mix a.l b.l, o := List.zipWith mix a.o b.o }

/-- AMERGE: the parts of a parallel split merged in ascending order (R213). -/
def State.startAmerge (s : State) (k : Nat) (qe : QEntry) (i : SInstr) : State × QEntry :=
  match s.ea32 k (i.arg 0) with
  | none => s.attFail k qe 2 .access
  | some de =>
    if !aligned de.off 64 then s.attFail k qe 2 .access
    else if !de.fits 64 then s.attFail k qe 2 .length
    else
      let b := s.eaRead de 64
      let p := field b 16 1 % 16
      let rows := field b 17 1 % 64
      let width := field b 18 2
      let ofmt := field b 20 1 % 16
      let norm := field b 20 1 / 16 % 2 == 1
      let up := field b 20 1 / 32 % 2 == 1
      let so := field b 20 1 / 64 % 2 == 1
      let c := s.attCfgOf k (field b 21 1 % 8)
      let h0 := field b 21 1 / 8
      let stride := field b 8 4
      let heads := if up then width / c.dl else 0
      let ow := if up then heads * c.d else width
      let obytes := ow / 32 * rows * rowBytes ofmt
      let clean := field b 16 1 < 16 && field b 17 1 < 64 && width < 2048 && aligned width 32 && width != 0
        && field b 20 1 < 128 && field b 22 42 == 0 && (ofmt == 0 || ofmt == 7 || ofmt == 9)
        && (!up || (c.loaded && c.latent && width % c.dl == 0 && decide (h0 + heads ≤ c.g)))
      match s.ea32 k (field b 0 4), s.ea32 k (field b 4 4), s.ea32 k (field b 12 4) with
      | some e, some st, some o =>
        if !clean || p < 2 || 8 < p || !aligned stride 32 || !s.eaWritable o (obytes + b2n so * 8 * rows) then
          s.attFail k qe 2 .access
        else if !(e.plus ((p - 1) * stride)).fits (128 * (width / 32) * rows)
            || !(st.plus ((p - 1) * stride)).fits (8 * rows) || !o.fits (obytes + b2n so * 8 * rows)
            || (up && decide (524288 < c.xv + (h0 + heads - 1) * c.xpitch + c.d / 32 * c.panelBytes c.dl)) then
          s.attFail k qe 2 .length
        else
          let part (j r : Nat) : AttRow :=
            let x := st.plus (j * stride + 8 * r)
            { m := s.eaNat x 4, l := s.eaNat (x.plus 4) 4
              o := (List.range width).map fun n => (s.kElem (e.plus (j * stride)) rows 9 r n) }
          let merged := (List.range rows).map fun r =>
            (List.range (p - 1)).foldl (fun a j => mergeStep a (part (j + 1) r)) (part 0 r)
          let outs := (List.range rows).map fun i =>
            let r := merged.getD i {}
            let met : List Bool := (List.range width).map fun n => (List.range p).any fun j =>
              let a := part j i
              isNan32 a.m || isNan32 a.l || isNan32 (a.o.getD n 0)
            let o := if norm then r.o.map fun x => fDiv x r.l else r.o.map fun x => (x, false)
            let o := if up then
                (List.range heads).flatMap fun j =>
                  let any := ((met.drop (j * c.dl)).take c.dl).any id
                  (s.xMul k c (c.xv + (h0 + j) * c.xpitch)
                    (((o.drop (j * c.dl)).take c.dl).map fun x => (attCvt c.qfmt x.1).2) c.d).map fun x => (x.elem, x.sat, any)
              else (o.zip met).map fun x => (x.1.1, x.1.2, x.2)
            o.map fun x => let y := storeConv ofmt false x.1; ((y.1, y.2 || x.2.1), x.2.2 || isNan32 x.1)
          let t := s.eaWrite k o (kBytes ofmt rows (ow / 32) fun r x => ((outs.getD r []).getD x ((0, false), false)).1.1)
          let t := if so then t.eaWrite k (o.plus obytes) (merged.flatMap fun r => toLe 4 r.m ++ toLe 4 r.l) else t
          (t.attCount k (outs.flatten.filter (·.1.2)).length (outs.flatten.filter (·.2)).length
            , { qe with phase := .running .ok })
      | _, _, _ => s.attFail k qe 2 .access

/-- AGATHER: cached keys and values into the panel layouts of DATTN (R216). -/
def State.startAgather (s : State) (k : Nat) (qe : QEntry) (i : SInstr) : State × QEntry :=
  match s.ea32 k (i.arg 0) with
  | none => s.attFail k qe 3 .access
  | some de =>
    if !aligned de.off 64 then s.attFail k qe 3 .access
    else if !de.fits 64 then s.attFail k qe 3 .length
    else
      let g := Gather.ofBytes (s.eaRead de 64)
      match s.ea32 k g.seq with
      | none => s.attFail k qe 3 .access
      | some tab =>
        let st := s.gatherCheck k (s.attCfgOf k g.cfg) g tab
        if st ≠ .ok then s.attFail k qe 3 st
        else s.startWalk k 3 false qe { desc := s.eaRead de 64, cfg := s.attRecord k g.cfg, pats := s.attPats k }

/-- XLOAD: bytes copied into the expansion store (R196). -/
def State.startXload (s : State) (k : Nat) (qe : QEntry) (i : SInstr) : State × QEntry :=
  let dst := i.arg 1
  let n := i.arg 2
  match s.ea32 k (i.arg 0) with
  | none => s.attFail k qe 4 .access
  | some e =>
    if e.acc || !aligned dst 32 || !aligned n 32 then s.attFail k qe 4 .access
    else if n = 0 then (s, { qe with phase := .running .ok })
    else if 524288 < dst + n ∨ !e.fits n then s.attFail k qe 4 .length
    else (s.wrMem .xstore (2 ^ 19 * k + dst) (s.eaRead e n), { qe with phase := .running .ok })

/-- ACONFIG: configuration slots loaded, all together or not at all (R198). -/
def State.startAconfig (s : State) (k : Nat) (qe : QEntry) (i : SInstr) : State × QEntry :=
  let first := i.arg 1
  let n := i.arg 2
  match s.ea32 k (i.arg 0) with
  | none => s.attFail k qe 5 .access
  | some e =>
    if !aligned e.off 64 then s.attFail k qe 5 .access
    else if n = 0 then (s, { qe with phase := .running .ok })
    else if 8 < first + n ∨ !e.fits (128 * n) then s.attFail k qe 5 .length
    else
      let recs := (List.range n).map fun j => s.eaRead (e.plus (128 * j)) 128
      if recs.any fun r => !(AttCfg.ofBytes r).ok then s.attFail k qe 5 .access
      else ({ s with attCfg := (List.range n).foldl (fun t j => t.put (8 * k + first + j) (recs.getD j [])) s.attCfg }
            , { qe with phase := .running .ok })

/-- A write of a pattern register (Table ATT_PATn). -/
def State.patWrite (s : State) (key : Nat) (v : Word) : State :=
  if 131072 < bits v 0 18 ∨ 8 < bits v 18 4 then s.ends .access
  else (s.setReg key (v &&& 0xFFFFFF#64)).ends .ok

end Sys2Proof.Machine
end

