-- ==== Sys2Proof/Machine/RowOps.lean ====
section
/-! DEFINITION. Row operations inside the stacks and the sequences domains submit (ch. 11). -/

namespace Sys2Proof.Machine

/-- The operations of a row-operation entry (R269). -/
inductive RowKind where
  | nop | init | copy | and | or | xor | not | reseal
  deriving DecidableEq, Repr

/-- The operation of a code; codes 8–15 are reserved. -/
def rowKind (n : Nat) : Option RowKind :=
  match n with
  | 0 => some .nop | 1 => some .init | 2 => some .copy | 3 => some .and | 4 => some .or
  | 5 => some .xor | 6 => some .not | 7 => some .reseal | _ => none

/-- A row-operation entry as read from the list. -/
structure RowEntry where
  op : Nat
  flags : Nat
  count : Nat
  stride : Nat
  dst : Nat
  srcA : Nat
  srcB : Nat

/-- The fields of a 32-byte entry. -/
def RowEntry.ofBytes (b : List Byte) : RowEntry :=
  { op := field b 0 1, flags := field b 1 1, count := field b 2 2, stride := field b 4 4
    dst := field b 8 8, srcA := field b 16 8, srcB := field b 24 8 }

/-- A slot of a domain's window: registers at its base. -/
def rowSlotBase (d q : Nat) : Nat := Pg.row + 0x200 + 0x80 * d + 0x20 * q

/-- A row-operation slot. -/
def State.rowSlot (s : State) (d q : Nat) : RowSlot := s.rowSlots.get {} (4 * d + q)

/-- A row-operation slot changed. -/
def State.modRowSlot (s : State) (d q : Nat) (f : RowSlot → RowSlot) : State :=
  { s with rowSlots := s.rowSlots.put (4 * d + q) (f (s.rowSlot d q)) }

/-- The operands an operation uses: (address, written). -/
def RowEntry.operands (e : RowEntry) : RowKind → List (Nat × Bool)
  | .nop => []
  | .init => [(e.dst, true)]
  | .copy => [(e.srcA, false), (e.dst, true)]
  | .not => [(e.srcA, false), (e.dst, true)]
  | .and | .or | .xor => [(e.srcA, false), (e.srcB, false), (e.dst, true)]
  | .reseal => [(e.dst, true)]

/-- Reserved bits and unused operands are zero, used operands 1 KiB aligned (R276). -/
def RowEntry.wellFormed (e : RowEntry) (k : RowKind) : Bool :=
  let unusedA := match k with | .copy | .not | .and | .or | .xor => 0 | _ => e.srcA
  let unusedB := match k with | .init | .and | .or | .xor => 0 | _ => e.srcB
  let unusedD := match k with | .nop => e.dst | _ => 0
  decide (e.op < 16) && decide (e.flags < 2) && decide (e.stride < 2 ^ 24)
    && unusedA == 0 && unusedB == 0 && unusedD == 0
    && (e.operands k).all fun o => decide (o.1 < 2 ^ 52) && aligned o.1 1024

/-- The operands of row `i`. -/
def RowEntry.rowAddr (e : RowEntry) (a i : Nat) : Nat := a + i * e.stride * 1024

/-- The place of a row in the stacks, none where its unit lies in the bulk tier. -/
def State.rowLoc (s : State) (addr : Nat) : Option StackLoc :=
  match s.locate addr with
  | .stack l => some l
  | _ => none

/-- The placement rule of an operation on the rows it uses (R269): COPY within one channel, the others within one bank. -/
def placementOk (k : RowKind) (ls : List StackLoc) : Bool :=
  match ls with
  | [] => true
  | l :: rest => rest.all fun m =>
    m.chan == l.chan && (k == .copy || m.bank == l.bank)

/-- The checks of an entry as a whole (R276), in the order of R117: a status with the cause shown in `ROWQ_STAT`. -/
def State.rowCheck (s : State) (p : Nat) (e : RowEntry) (k : RowKind) : Status × Nat :=
  let ops := e.operands k
  let rows := List.range e.count
  let acc := Accessor.part p false
  let outside (o : Nat × Bool) := decide (s.devEnd ≤ o.1) || s.devCheck acc o.1 1024 o.2 == .access
  let past (i : Nat) (o : Nat × Bool) :=
    match s.regionOfUnit (o.1 / unitBytes) with
    | some (_, r) => decide (unitBytes * (r.base + r.count) < e.rowAddr o.1 i + 1024)
    | none => true
  let inside := rows.filter fun i => !ops.any (past i)
  let inBulk := inside.any fun i => ops.any fun o => (s.frameOf (e.rowAddr o.1 i)).bulk
  let locs (i : Nat) := ops.filterMap fun o => s.rowLoc (e.rowAddr o.1 i)
  let misplaced := inside.any fun i =>
    (locs i).length != ops.length || !placementOk k (locs i)
  if !e.wellFormed k then (.access, 0)
  else if ops.any outside then (.access, 3)
  else if inBulk then (.access, 4)
  else if misplaced then (.access, 2)
  else if rows.any fun i => ops.any (past i) then (.length, 3)
  else (.ok, 0)

/-! ### The operations on rows -/

/-- A row as stored: data and check bytes. -/
def State.rowStored (s : State) (l : StackLoc) : List Byte × List Byte :=
  let d := s.rdMem .stack l.off 1024
  let e := s.rdMem .stackChk (l.off / 8) 128
  (d, (List.range 16).flatMap fun i =>
    xorBytes ((e.drop (8 * i)).take 8) (rsCheck ((d.drop (64 * i)).take 64)))

/-- A row stored with given data and check bytes. -/
def State.putRow (s : State) (l : StackLoc) (d p : List Byte) : State :=
  let e := (List.range 16).flatMap fun i =>
    xorBytes ((p.drop (8 * i)).take 8) (rsCheck ((d.drop (64 * i)).take 64))
  (s.wrMem .stack l.off d).wrMem .stackChk (l.off / 8) e

/-- Some sector of a row has a nonzero syndrome. -/
def State.rowDirty (s : State) (l : StackLoc) : Bool :=
  (s.rdMem .stackChk (l.off / 8) 128).any (· != 0)

/-- The source check of R272: a sealed source with a nonzero syndrome is read by the normal path once. -/
def State.srcFix (s : State) (addr : Nat) (l : StackLoc) : State × Bool :=
  if s.isStale l || !s.rowDirty l then (s, true)
  else
    let s := (s.bump (Pg.row + 0x108) 1).rowEvent 3 addr .ok
    let r := s.devRead addr 1024
    (r.1, !r.1.rowDirty l)

/-- How long an operation holds its bank, in ticks (R269). -/
def rowTicks (k : RowKind) (sameBank : Bool) : Nat :=
  match k with
  | .nop => 0 | .init => 160 | .copy => if sameBank then 256 else 352
  | .and | .or | .xor => 480 | .not => 320 | .reseal => 416

/-- A refresh ahead of an operation on a bank whose debt would reach 8 before it ends (R280); an operation looks at each bank it holds. -/
def State.rowBreak (s : State) (l : StackLoc) (ticks : Nat) : State :=
  let t := l.chan / 128
  let key := l.chan % 128 * 32 + l.bank
  let st := s.stack t
  let debt := st.debt.get 0 key
  if 8 ≤ debt ∨ (debt = 7 ∧ st.dueClk.get 0 key ≤ s.clk + ticks) then
    (s.modStack t fun st => { st with debt := st.debt.put key (debt - 1) }).bump (Pg.row + 0x110) 1
  else s

/-- How one row operation ends: OK, or a status with its cause. -/
structure RowResult where
  st : State
  status : Status
  cause : Nat

/-- The destination's seal state set: a row that may not go stale ends the operation before any write (R275). The event is for the domain
that owns the sequence and names the sequence's partition (R282). -/
def State.withSeal (s : State) (l : StackLoc) (stale : Bool) (dom p : Nat) (go : State → State) : RowResult :=
  if stale then
    match s.makeStale l with
    | some s' => ⟨go s', .ok, 0⟩
    | none => ⟨s.raise Pg.row 1 { dests := some [dom], part := some p, onChange := true, status := .access }, .access, 1⟩
  else ⟨go (s.seal l), .ok, 0⟩

/-- One row of an operation carried out (R269–R275). -/
def State.rowApply (s : State) (dom p : Nat) (e : RowEntry) (k : RowKind) (i : Nat) : RowResult :=
  let at' (a : Nat) := s.rowLoc (e.rowAddr a i)
  let bad : RowResult := ⟨s, .access, 2⟩
  match k with
  | .nop => ⟨s, .ok, 0⟩
  | .init =>
    match at' e.dst with
    | none => bad
    | some d =>
      let s := s.rowBreak d (rowTicks .init true)
      let data := (List.replicate 128 (toLe 8 e.srcB)).flatten
      ⟨((s.wrMem .stack d.off data).clrMem .stackChk (d.off / 8) 128).seal d, .ok, 0⟩
  | .reseal =>
    match at' e.dst with
    | none => bad
    | some d =>
      if s.isStale d then
        ⟨((s.rowBreak d (rowTicks .reseal true)).clrMem .stackChk (d.off / 8) 128).seal d, .ok, 0⟩
      else ⟨s, .ok, 0⟩
  | .copy | .not =>
    match at' e.srcA, at' e.dst with
    | some a, some d =>
      let same := a.bank == d.bank
      let s := s.rowBreak d (rowTicks k same)
      let s := if same then s else s.rowBreak a (rowTicks k same)
      let (s, good) := s.srcFix (e.rowAddr e.srcA i) a
      if !good then ⟨s, .poison, 5⟩
      else
        let (x, c) := s.rowStored a
        if k = .copy then s.withSeal d (s.isStale a) dom p fun s => s.putRow d x c
        else s.withSeal d true dom p fun s => s.putRow d (x.map (~~~ ·)) (c.map (~~~ ·))
    | _, _ => bad
  | .and | .or | .xor =>
    match at' e.srcA, at' e.srcB, at' e.dst with
    | some a, some b, some d =>
      let s := s.rowBreak d (rowTicks k true)
      let (s, ga) := s.srcFix (e.rowAddr e.srcA i) a
      let (s, gb) := s.srcFix (e.rowAddr e.srcB i) b
      if !ga || !gb then ⟨s, .poison, 5⟩
      else
        let (x, c) := s.rowStored a
        let (y, q) := s.rowStored b
        let f : Byte → Byte → Byte := match k with
          | .and => (· &&& ·) | .or => (· ||| ·) | _ => (· ^^^ ·)
        let stale := k != .xor || s.isStale a || s.isStale b
        s.withSeal d stale dom p fun s => s.putRow d (List.zipWith f x y) (List.zipWith f c q)
    | _, _, _ => bad

/-! ### Sequences -/

/-- A sequence with nothing left in flight ends with its failing status (R277). An abort raises no event. -/
def State.rowFinishFail (s : State) (d q : Nat) : State :=
  let sl := s.rowSlot d q
  match sl.failing with
  | some (st, ent) =>
    if sl.inflight.isEmpty then
      let s := s.modRowSlot d q fun sl =>
        { sl with mode := .idle, status := statusCode st, failing := none
                  failEnt := if st = .superseded then sl.failEnt else ent }
      if st = .superseded then s
      else s.raise Pg.row 0
        { dests := some [d], status := st, part := some sl.part
          err := some ({ sev := 2, aux := ent }, [d]) }
    else s
  | none => s

/-- A failed check or operation: nothing further is dispatched (R277). -/
def State.rowFail (s : State) (d q : Nat) (st : Status) (cause ent : Nat) : State :=
  (s.modRowSlot d q fun sl =>
    { sl with mode := .stopping, failing := some (st, ent), cause := cause, entry := [] }).rowFinishFail d q

/-- The next entry is read and checked as a whole once the one before it has been dispatched, and stands as it was read until its own rows
have been; entries with nothing to do complete at once. A sequence past its last entry with nothing in flight completes with OK and
signals (R276, R277). `fuel` bounds the entries passed. -/
def State.rowAdvance (s : State) (d q : Nat) : Nat → State
  | 0 => s
  | fuel + 1 =>
    let sl := s.rowSlot d q
    if sl.mode != .running then s
    else if sl.count ≤ sl.ent then
      if sl.inflight.isEmpty then
        let s := s.modRowSlot d q fun sl =>
          { sl with mode := .idle, status := 0, doneEnts := sl.count }
        match sl.sig with
        | some c => s.signal sl.part c 1
        | none => s
      else s
    else if sl.entry != [] then s
    else
      let r := s.devRead (sl.list + 32 * sl.ent) 32
      let s := r.1
      let e := RowEntry.ofBytes r.2.1
      let st := r.2.2
      if st != .ok then s.rowFail d q st 0 sl.ent
      else match rowKind (e.op % 16) with
        | none => s.rowFail d q .access 0 sl.ent
        | some k =>
          let (cst, cause) := s.rowCheck sl.part e k
          if cst != .ok then s.rowFail d q cst cause sl.ent
          else if e.count = 0 ∨ k = .nop then
            (s.modRowSlot d q fun sl => { sl with ent := sl.ent + 1 }).rowAdvance d q fuel
          else s.modRowSlot d q fun sl => { sl with entry := r.2.1 }

/-- ROWSEQ_GO: a write of `ROWQ_CTRL` with `GO` (R276). -/
def State.rowGo (s : State) (d q : Nat) (v : Word) : State :=
  let base := rowSlotBase d q
  let count := bits v 0 24
  let part := bits v 24 4
  let list := s.fld base 0 52
  let ctrOk := !bit v 28 || (s.absCtr part (bits v 32 15)).isSome
  if (s.rowSlot d q).mode != .idle || (d != 0 && s.ownerOf part != d) || !ctrOk
      || (decide (0 < count) && decide (s.devEnd ≤ list)) then s.ends .access
  else if s.devEnd < list + 32 * count then s.ends .length
  else
    let s := (s.setReg (base + 8) (v &&& 0x7FFF1FFFFFFF#64)).ends .ok
    let s := s.modRowSlot d q fun _ =>
      { mode := .running, list := list, count := count, part := part
        sig := if bit v 28 then some (bits v 32 15) else none }
    s.rowAdvance d q (count + 1)

/-- ROWSEQ_ABORT: nothing further is dispatched; the sequence ends with SUPERSEDED and no event (R277). -/
def State.rowAbort (s : State) (d q : Nat) : State :=
  if (s.rowSlot d q).mode = .running then
    ((s.modRowSlot d q fun sl =>
      { sl with mode := .stopping, failing := some (.superseded, 0xFFFFFF), entry := [] }).rowFinishFail d q).ends .ok
  else s.ends .ok

/-- The rows that row `i` of an entry touches. -/
def rowAddrs (bytes : List Byte) (i : Nat) : List Nat :=
  let e := RowEntry.ofBytes bytes
  match rowKind (e.op % 16) with
  | some k => (e.operands k).map fun x => e.rowAddr x.1 i
  | none => []

/-- An operation may start: a BARRIER entry waits for every earlier entry, any other for earlier ones on its rows (R277). -/
def RowSlot.free (sl : RowSlot) : Bool :=
  let mine := rowAddrs sl.entry sl.row
  sl.inflight.all fun o =>
    o.ent == sl.ent || ((RowEntry.ofBytes sl.entry).flags % 2 == 0 && (rowAddrs o.bytes o.row).all fun a => !mine.contains a)

/-- The channel an operation runs in. -/
def State.rowChan (s : State) (bytes : List Byte) (i : Nat) : Nat :=
  match ((rowAddrs bytes i).head?).bind s.rowLoc with
  | some l => l.chan
  | none => 0

/-- Operations a channel holds: at most 8 are admitted (R278). -/
def State.rowHeld (s : State) (chan : Nat) : Nat :=
  s.rowSlots.items.foldl (fun n e => n + (e.2.inflight.filter fun o => o.chan == chan).length) 0

/-- One row operation of kind `want` dispatched and carried out: the next row of the slot's sequence, where that is its
operation, it may start and its channel has room for it (R277–R279). -/
def State.rowDispatch (s : State) (d q : Nat) (want : RowKind) : State :=
  let sl := s.rowSlot d q
  if sl.mode != .running || sl.entry == [] || !s.enginesRun then s
  else
    let e := RowEntry.ofBytes sl.entry
    match rowKind (e.op % 16) with
    | none => s
    | some k =>
      let chan := s.rowChan sl.entry sl.row
      if k != want || !sl.free || decide (8 ≤ s.rowHeld chan) then s
      else
        let r := ((e.operands k).foldl (fun s _ => s.translate) s).rowApply d sl.part e k sl.row
        if r.status != .ok then r.st.rowFail d q r.status r.cause sl.ent
        else
          let last := decide (e.count ≤ sl.row + 1)
          let s := r.st.modRowSlot d q fun sl =>
            { sl with inflight := sl.inflight ++ [⟨sl.ent, sl.row, chan, sl.entry⟩]
                      entry := if last then [] else sl.entry
                      ent := if last then sl.ent + 1 else sl.ent
                      row := if last then 0 else sl.row + 1 }
          if last then s.rowAdvance d q (sl.count + 1) else s

/-- ROW_OP_COMPLETE: the oldest operation in flight ends, and the sequence advances, completes or fails (R277). -/
def State.rowComplete (s : State) (d q : Nat) : State :=
  let sl := s.rowSlot d q
  match sl.inflight with
  | [] => s
  | o :: rest =>
    let s := s.bump (Pg.row + 0x100) 1
    let s := s.modRowSlot d q fun sl =>
      { sl with inflight := rest
                doneEnts := if rest.all (fun x => x.ent != o.ent) && (sl.ent != o.ent) then o.ent + 1
                            else sl.doneEnts }
    (s.rowAdvance d q (sl.count + 1)).rowFinishFail d q

/-- A unit is named by a checked entry that has not completed: one being dispatched, or with operations in flight. It stays in the stack
tier, and a move of it waits (R276, R293). -/
def State.rowNamed (s : State) (u : Nat) : Bool :=
  s.rowSlots.items.any fun it =>
    let live := (if it.2.mode == .running && it.2.entry != [] then [it.2.entry] else []) ++ it.2.inflight.map (·.bytes)
    live.any fun b => (List.range (RowEntry.ofBytes b).count).any fun i => (rowAddrs b i).any fun a => a / unitBytes == u

/-- `ROWQ_STAT`. -/
def State.rowqStat (s : State) (d q : Nat) : Word :=
  let sl := s.rowSlot d q
  pack [(match sl.mode with | .idle => 0 | .running => 1 | .stopping => 2, 0), (sl.cause, 2), (sl.status, 8)
      , (sl.doneEnts % 2 ^ 24, 16), (sl.failEnt % 2 ^ 24, 40)]

end Sys2Proof.Machine
end

