-- ==== Sys2Proof/Machine/Stack.lean ====
section
/-! DEFINITION. The stack tier in operation: sector reads with symbol errors, parity alerts, refresh, scrub, temperature, and
the spreading windows (R244, R245, R256–R267). -/

namespace Sys2Proof.Machine

/-! ### Sector reads -/

/-- Symbol errors laid on a stored stack sector. -/
def State.flipStack (s : State) (l : StackLoc) (flips : List (Nat × Byte)) : State :=
  let r := rsFlip (s.rdMem .stack l.off 64) (s.rdMem .stackChk (l.off / 8) 8) flips
  (s.wrMem .stack l.off r.1).wrMem .stackChk (l.off / 8) r.2

/-- STACK_READ_DONE: a sector with the symbol errors found in it is read. The decoder places the errors it corrects; those of a sector it
cannot correct count for the lanes they lie on (R255, R257, R266). -/
def State.stackReadDone (s : State) (addr : Nat) (flips : List (Nat × Byte)) : State :=
  let a := addr / 64 * 64
  if s.boot.memStop then s.ends .fault
  else match s.locate a with
  | .stack l =>
    let r := (s.flipStack l flips).readStack l a
    let s := r.1.ends r.2.2
    if r.2.2 = .poison then s.noteLanes l (symLanes ((flips.filter fun f => f.2 != 0).map (·.1))) else s
  | _ => s

/-- CMD_PARITY_ALERT: settled, precharged and replayed; a second alert of the channel within 1 µs fails it (R259, R266). -/
def State.parityAlert (s : State) (t ch : Nat) : State :=
  let st := s.stack t
  if st.mode != .ready then s
  else
    let again := match st.alertClk.items.find? fun e => e.1 == ch with
      | some e => decide (s.clk ≤ e.2 + usTicks)
      | none => false
    let s := s.modStack t fun st => { st with alertClk := st.alertClk.put ch s.clk }
    let s := (s.bump (Pg.stk t + 0x130) 1).raise (Pg.stk t) 2 { dests := some [0], onChange := true }
    if again then s.stackFail t ch 3 7 else s

/-! ### Refresh and scrub -/

/-- The refresh interval of a stack in ticks: 3.9 µs, halved above 85 °C (R261, R262). -/
def Stack.trefi (st : Stack) : Nat := if st.hot then 7800 else 15600

/-- REFRESH_DUE: a bank's interval passes, in which the controller has found it idle for `n` refreshes: each pays one that is owed or
is held in advance, up to 8 of them. The interval adds one to the debt, and a bank then owing 8 is refreshed before anything else
reaches it (R250, R261). -/
def State.refreshDue (s : State) (t ch bank n : Nat) : State :=
  let st := s.stack t
  if st.mode != .ready then s
  else
    let key := 32 * ch + bank
    let s := s.waitClk (st.dueClk.get 0 key)
    let debt := max (-8) (st.debt.get 0 key - n) + 1
    let forced := decide (8 ≤ debt)
    let debt := if forced then debt - 1 else debt
    let s := s.modStack t fun st =>
      { st with debt := st.debt.put key debt, dueClk := st.dueClk.put key (s.clk + st.trefi) }
    if forced then s.bump (Pg.stk t + 0x150) 1 else s

/-- Hours in which scrub passes every sector: values outside 1–24 are 24 (R260). -/
def scrubHours (n : Nat) : Nat := if 1 ≤ n ∧ n ≤ 24 then n else 24

/-- The unit whose data lies in a piece of a frame of a tier; a swap in progress has exchanged the pieces below its cursor (R291, R295). -/
def State.unitAt (s : State) (bulk : Bool) (f piece : Nat) : Nat :=
  let u := match s.bulk.table.items.find? fun e => e.2.bulk == bulk && e.2.frame == f with
    | some e => e.1
    | none => if bulk then s.stackUnits + f else f
  match s.bulk.swaps.find? fun w => w.hot == u || w.cold == u with
  | some w => if piece < w.cursor then (if w.hot = u then w.cold else w.hot) else u
  | none => u

/-- The device address of a place in the stacks. -/
def State.devAddrOf (s : State) (chan p : Nat) : Option Nat :=
  (s.tierAddr chan p).map fun t =>
    unitBytes * s.unitAt false (t / unitBytes) (t % unitBytes / 65536) + t % unitBytes

/-- SCRUB_READ: the next sector of a channel; a correction is written back, an uncorrectable sector is reported and not
written, a stale row is passed over. It walks the rows and banks as they lie, and its reads count towards a failed channel (R260, R266). -/
def State.scrubRead (s : State) (t ch : Nat) : State :=
  if (s.stack t).mode != .ready || s.boot.memStop then s
  else
    let hours := scrubHours (s.fld (Pg.stkCommon + 0x118) 8 5)
    let s := s.periodic (0x10000 + t * 128 + ch) (hours * 3600 * 4000000000 / 10485760)
    let sec := (s.stack t).scrub.get 0 ch
    let addr? := s.devAddrOf (t * 128 + ch) (sec * 64)
    let l : StackLoc := { chan := t * 128 + ch, c := sec * 64, hash := false }
    let next (n : Nat) (s : State) := s.modStack t fun st => { st with scrub := st.scrub.put ch (n % 10485760) }
    if s.isStale l then next (sec + 16 - sec % 16) (s.bump (Pg.stk t + 0x158) 1)
    else
      let s := next (sec + 1) s
      match rsDecode s.tc (s.rdMem .stackChk (l.off / 8) 8) with
      | some [] => s.noteUe l false
      | some errs =>
        ((s.stackFix l (rsFix (s.rdMem .stack l.off 64) errs)).noteUe l false).noteLanes l (symLanes (errs.map fun e => 71 - e.1))
      | none => (s.stackUe l (addr?.getD s.devEnd) (s.rdMem .stackChk (l.off / 8) 8) 1).noteUe l true

/-! ### Temperature -/

/-- `STK_THERM_CTRL`. -/
def thermCtrl : Nat := Pg.stkCommon + 0x120
/-- Bounds of the throttle level: floor, ceiling, pin (R263). -/
def State.thermBounds (s : State) : Nat × Nat × Bool :=
  (s.fld thermCtrl 0 4, s.fld thermCtrl 4 4, bit (s.reg thermCtrl) 8)

/-- The throttle level of a stack after a report (R262, R263): up at 95 °C, down below 93 °C, towards the bounds only, which a pin closes
to the floor. A level that written bounds exclude is brought inside them at the step boundary. -/
def State.nextLevel (s : State) (t : Nat) (temp : Int) : Nat :=
  let (fl, ceil, pin) := s.thermBounds
  let ce := if pin then fl else ceil
  let level := (s.stack t).level
  if 95 * 16 ≤ temp ∧ level < ce then level + 1
  else if temp < 93 * 16 ∧ fl < level then level - 1
  else level

/-- The actions of a stack at a temperature (Table Thermal thresholds): refresh rate, throttle level, events; at 105 °C it fails, with
the cause given (R262). -/
def State.thermalAct (s : State) (t : Nat) (temp : Int) (cause : Nat) : State :=
  let lvl := s.nextLevel t temp
  let s := s.modStack t fun st => { st with
    hot := if 85 * 16 < temp then true else if temp < 83 * 16 then false else st.hot
    level := lvl }
  let s := if 85 * 16 < temp then s.raise (Pg.stk t) 3 { dests := some [0], onChange := true } else s
  let s := if 95 * 16 ≤ temp then s.raise (Pg.stk t) 4 { dests := some [0], onChange := true } else s
  if 105 * 16 ≤ temp ∧ (s.stack t).mode ≠ .failed then s.stackFail t 0 cause 5 else s

/-- THERMAL_REPORT: a stack's report every 1 µs with its inner corrections (R253, R262–R264). -/
def State.thermalReport (s : State) (t : Nat) (temp : Int) (inner : Nat) : State :=
  let st := s.stack t
  if !s.stackFitted t || st.mode == .off then s
  else
    let s := s.periodic (0x20000 + t) usTicks
    let s := s.bump (Pg.stk t + 0x118) inner
    let s := if 0 < st.level then s.bump (Pg.stk t + 0x148) 1 else s
    (s.modStack t fun st => { st with temp := temp, missed := 0 }).thermalAct t temp 5

/-- THERMAL_REPORT_MISS: from the eighth report missed in a row on, the stack is treated as at 105 °C (R264). -/
def State.thermalMiss (s : State) (t : Nat) : State :=
  let n := (s.stack t).missed + 1
  if !s.stackFitted t || (s.stack t).mode == .off then s
  else
    let s := s.modStack t fun st => { st with missed := n }
    if 8 ≤ n then s.thermalAct t (105 * 16) 6 else s

/-- A write of `STK_THERM_CTRL` (R263, R487, R488). -/
def State.thermWrite (s : State) (v : Word) : State :=
  let fl := bits v 0 4
  let ce := bits v 4 4
  if ce < fl then s.ends .access
  else
    let s := (s.setReg thermCtrl (v &&& 0x1FF#64)).ends .ok
    let bad (t : Nat) :=
      let l := (s.stack t).level
      decide (l < fl) || decide (ce < l) || (bit v 8 && l != fl)
    s.modPower fun p =>
      { p with boundClk := s.fitted.foldl (fun (c : Tab Nat) t => if bad t then c.put (16 + t) s.clk else c.drop (16 + t)) p.boundClk }

/-! ### Spreading windows (R244, R245) -/

/-- The channel-local bytes a window uses on each of its channels. -/
def State.winLocal (s : State) (w : Window) : Nat × Nat :=
  let n := if w.single then 128 else s.nChannels
  (65536 * w.cbase, 65536 * w.cbase + unitBytes * w.z / n)

/-- Two windows overlap in tier addresses, or in channel-local range on a channel both use. -/
def State.winOverlap (s : State) (a b : Window) : Bool :=
  let tier := decide (a.b < b.b + b.z) && decide (b.b < a.b + a.z)
  let la := s.winLocal a
  let lb := s.winLocal b
  let chans := !a.single || !b.single || a.stack == b.stack
  tier || (chans && decide (la.1 < lb.2) && decide (lb.1 < la.2))

/-- The checks of a commit (R244). -/
def State.winOk (s : State) (i : Nat) (w : Window) : Bool :=
  let n := if w.single then 128 else s.nChannels
  let others := ((List.range 16).filter fun j => j != i).map fun j => s.windows.get {} j
  decide (0 < w.z) && decide (w.b + w.z ≤ s.stackUnits)
    && (if w.single then aligned (unitBytes * w.z) (8 * 2 ^ 20) && s.stackFitted w.stack
        else aligned (unitBytes * w.z) (65536 * s.nChannels))
    && decide (65536 * w.cbase + unitBytes * w.z / n ≤ chanBytes)
    && (s.wf :: others).all fun o => !o.en || !s.winOverlap w o

/-- The window a configuration word and a range word describe. -/
def Window.ofWords (cfg rng : Word) : Window :=
  { en := bit cfg 0, single := bits cfg 1 2 == 1, gran := bits cfg 3 2, hash := bit cfg 5
    stack := bits cfg 8 4, cbase := bits cfg 16 14, b := bits rng 0 19, z := bits rng 32 19 }

/-- The configuration word of a window as read. -/
def Window.cfg (w : Window) : Word :=
  pack [(b2n w.en, 0), (b2n w.single, 1), (w.gran, 3), (b2n w.hash, 5), (w.stack, 8), (w.cbase, 16)]

/-- A write of `STK_SPR_CFG` for the selected window: WINDOW_COMMIT with EN = 1, WINDOW_DISABLE where it only clears EN
(R244, R245). A reserved `MODE` is refused whatever else the write asks. -/
def State.sprCfgWrite (s : State) (v : Word) : State :=
  let i := s.fld (Pg.stkCommon + 0x100) 0 4
  let w := s.windows.get {} i
  let new := Window.ofWords v (s.stagedOf 0 (keyAt (Pg.stkCommon + 0x108) i))
  if 2 ≤ bits v 1 2 then s.ends .access
  else if w.en then
    if !new.en && ({ w with en := false }.cfg == { new with en := false }.cfg) then
      { s with windows := s.windows.put i { w with en := false } }.ends .ok
    else s.ends .access
  else if new.en then
    if s.winOk i new then
      ({ s with windows := s.windows.put i new }.setReg (keyAt (Pg.stkCommon + 0x108) i)
        (pack [(new.b, 0), (new.z, 32)])).ends .ok
    else s.ends .access
  else { s with windows := s.windows.put i { new with b := w.b, z := w.z } }.ends .ok

/-- `STK_STAT`. -/
def State.stkStat (s : State) (t : Nat) : Word :=
  let st := s.stack t
  pack [(match st.mode with | .off => 0 | .training => 1 | .ready => 2 | .failed => 3, 0), (st.level, 4)
      , (b2n st.hot, 8), (unsigned 16 st.temp, 16), (st.failChan, 32), (st.failCause, 40)]

/-- `STK_CHSTAT` of the selected channel. -/
def State.stkChStat (s : State) (t : Nat) : Word :=
  let ch := s.fld (Pg.stk t + 0x108) 0 7
  let sp := (s.stack t).spares.get {} ch
  pack [(sp.count, 0), (sp.a, 2), (sp.b, 8), ((s.stack t).rdq.get 0 ch, 32), ((s.stack t).wrq.get 0 ch, 40)]

end Sys2Proof.Machine
end

