-- ==== Sys2Proof/Machine/Bulk.lean ====
section
/-! DEFINITION. The bulk tier, the placement loop and the swaps of migration units (ch. 12). -/

namespace Sys2Proof.Machine

/-! ### Failure of the tier (R289, R290) -/

/-- BULK_TRAINING_LOST: a channel of the working tier loses its training state (R289). -/
def State.bulkTrainingLost (s : State) (chan : Nat) : State := if s.bulk.mode != .ready then s else s.bulkFail chan 5

/-- A unit's POISON bit: lost itself, or placed in a tier that failed (R290). -/
def State.unitPoison (s : State) (u : Nat) : Bool :=
  (s.placed u).poison || ((s.placed u).bulk && s.bulk.mode == .failed)

/-- Symbol errors laid on a stored bulk sector. -/
def State.flipBulk (s : State) (b : Nat) (flips : List (Nat × Byte)) : State :=
  let r := rsFlip (s.rdMem .bulk (bulkData b) 64) (s.rdMem .bulkChk (bulkCheck b) 8) flips
  (s.wrMem .bulk (bulkData b) r.1).wrMem .bulkChk (bulkCheck b) r.2

/-- BULK_READ_DONE: a bulk sector with the symbol errors found in it is read, or one that an error on the command lanes has delivered from
another bulk address; the check bytes fold the address in, so that the decoder sees either (R286, R287). No read reaches a tier that is not
READY (R306). -/
def State.bulkReadDone (s : State) (addr : Nat) (flips : List (Nat × Byte)) (wrong : Option Nat) : State :=
  let a := addr / 64 * 64
  if s.boot.memStop then s.ends .fault
  else match s.locate a with
  | .bulk b =>
    if s.bulk.mode ≠ .ready then s
    else
      let src := match wrong with | some x => x / 64 * 64 | none => b
      let r := (s.flipBulk src flips).readBulkFrom b src a
      r.1.ends r.2.2
  | _ => s

/-- BULK_SCRUB_READ: the next sector of the tier; its reads count towards the tier's failure (R287, R289). -/
def State.bulkScrub (s : State) : State :=
  if s.bulk.mode != .ready || s.boot.memStop then s
  else
    let hours := scrubHours (s.fld (Pg.bulk + 0x128) 0 5)
    let total := 32768 * s.bulkUnits
    let s := s.periodic 2 (hours * 3600 * 4000000000 / total)
    let b := s.bulk.scrub * 64
    let s := s.modBulk fun k => { k with scrub := (k.scrub + 1) % total }
    let e := s.rdMem .bulkChk (bulkCheck b) 8
    match rsDecode 2 e with
    | some [] => s.noteBulkUe b false
    | some errs => (s.bulkFix b (rsFix (s.rdMem .bulk (bulkData b) 64) errs)).noteBulkUe b false
    | none =>
      (s.bulkUe b (unitBytes * s.unitAt true (b / unitBytes) (b % unitBytes / 65536) + b % unitBytes) e 1).noteBulkUe b true

/-- The package with the highest refresh rate; of equal ones the lowest (DESIGN CHOICE, log entry 98). -/
def Bulk.hottest (b : Bulk) : Nat :=
  (List.range 16).foldl (fun h i => if b.rates.get 0 h < b.rates.get 0 i then i else h) 0

/-- MR4_POLL of a package: its refresh-rate code and whether its temperature limit is passed, or no answer (R289). -/
def State.mr4Poll (s : State) (pkg : Nat) (report : Option (Nat × Bool)) : State :=
  if s.bulk.mode != .ready then s
  else
    let s := s.periodic (0x30000 + pkg) (16 * usTicks)
    match report with
    | none =>
      let n := s.bulk.missed.get 0 pkg + 1
      let s := s.modBulk fun b => { b with missed := b.missed.put pkg n }
      if 8 ≤ n then s.bulkFail (16 * 0 + pkg) 3 else s
    | some (rate, overTemp) =>
      let old := s.bulk.rates.get 0 pkg
      let s := s.modBulk fun b =>
        { b with missed := b.missed.put pkg 0, rates := b.rates.put pkg rate }
      let s := if old < rate then s.raise Pg.bulk 7 { dests := some [0], onChange := true } else s
      if overTemp then s.bulkFail pkg 2 else s

/-! ### The placement loop (R293, R294) -/

/-- The partition whose exclusive region holds a unit (`PART`, `OWNED`). -/
def State.unitPart (s : State) (u : Nat) : Option Nat :=
  match s.regionOfUnit u with
  | some (_, r) => if r.mode = 1 then some r.part else none
  | none => none

/-- Bounds in force for a partition: (MIN, MAX). -/
def State.placeBounds (s : State) (p : Nat) : Nat × Nat :=
  let w := s.bulk.oldBound.get (s.reg (keyAt (Pg.bulk + 0x160) p)) p
  (bits w 0 20, bits w 32 20)

/-- A unit's tier once the swaps in progress are done. -/
def State.settledBulk (s : State) (u : Nat) : Bool :=
  if s.bulk.swaps.any fun w => w.hot == u then false
  else if s.bulk.swaps.any fun w => w.cold == u then true
  else (s.placed u).bulk

/-- Units of a partition's exclusive regions in the stack tier (`PL_PCOUNT`): those placed there at reset, corrected by the
entries that have moved. -/
def State.stackCount (s : State) (p : Nat) : Nat :=
  let regs := ((List.range 64).map s.memRegion).filter fun r => r.mode == 1 && r.part == p
  let inside (u : Nat) := regs.any fun r => decide (r.base ≤ u) && decide (u < r.base + r.count)
  let base := regs.foldl (fun n r => n + (min (r.base + r.count) s.stackUnits - r.base)) 0
  let touched := ((s.bulk.table.items.map fun e => e.1)
    ++ s.bulk.swaps.flatMap fun w => [w.hot, w.cold]).eraseDups
  let gone := (touched.filter fun u => inside u && decide (u < s.stackUnits) && s.settledBulk u).length
  let come := (touched.filter fun u => inside u && decide (s.stackUnits ≤ u) && !s.settledBulk u).length
  base + come - gone

/-- Some row of a unit is stale (R273, R293). -/
def State.unitStale (s : State) (u : Nat) : Bool :=
  s.stale.items.any fun e => (maskList 64 e.2.bits).any fun j =>
    let chan := e.1 / 32
    let row := e.2.base + j
    -- the 32 KiB of the row over the banks: one KiB of it belongs to the bank
    (List.range 32).any fun k =>
      match s.devAddrOf chan (32768 * row + k * 1024) with
      | some a => a / unitBytes == u && (match s.locate a with | .stack l => s.isStale l | _ => false)
      | none => false

/-- A unit of a released region that awaits its scrub (R372). -/
def State.awaitsScrub (s : State) (u : Nat) : Bool := (List.range 16).any fun p => (s.part p).scrub.contains u

/-- A unit the loop may move (R293, R372). -/
def State.movable (s : State) (u : Nat) : Bool :=
  let p := s.placed u
  !s.awaitsScrub u &&
  p.pin == 0 && !s.unitReserved u && !s.unitPoison u && !s.unitMoving u && !s.unitStale u && !s.rowNamed u

/-- The highest number below `n` that `p` picks. -/
def findDown (p : Nat → Bool) : Nat → Option Nat
  | 0 => none
  | n + 1 => if p n then some n else findDown p n

/-- The lowest number from `k` up, of `n`, that `p` picks. -/
def findUp (p : Nat → Bool) (k : Nat) : Nat → Option Nat
  | 0 => none
  | n + 1 => if p k then some k else findUp p (k + 1) n

/-- A unit's demotion keeps its partition at or above MIN. -/
def State.mayDemote (s : State) (u : Nat) : Bool :=
  match s.unitPart u with
  | some p => decide ((s.placeBounds p).1 < s.stackCount p)
  | none => true

/-- A unit's promotion keeps its partition at or below MAX. -/
def State.mayPromote (s : State) (u : Nat) : Bool :=
  match s.unitPart u with
  | some p => decide (s.stackCount p < (s.placeBounds p).2)
  | none => true

/-- Two units may change tiers: within one partition a swap leaves the count as it is, and otherwise the bounds of both hold after it
(R293). -/
def State.mayPair (s : State) (h c : Nat) : Bool :=
  ((s.unitPart h).isSome && s.unitPart c == s.unitPart h) || (s.mayPromote h && s.mayDemote c)

/-- The movable bulk unit with the highest count, ties to the lower number. Units with a count are in the table. -/
def State.hotUnit (s : State) (ok : Nat → Bool) : Option Nat :=
  let listed := (s.bulk.table.items.filter fun e => e.2.bulk && e.2.count != 0 && s.movable e.1 && ok e.1)
  match listed.foldl (fun (b : Option (Nat × Nat)) e => match b with
      | none => some (e.2.count, e.1)
      | some (c, u) => if c < e.2.count then some (e.2.count, e.1) else some (c, u)) none with
  | some (_, u) => some u
  | none => findUp (fun u => (s.placed u).bulk && s.movable u && ok u) 0 s.units

/-- The movable stack unit with the lowest count, ties to the higher number. -/
def State.coldUnit (s : State) (ok : Nat → Bool) : Option Nat :=
  match findDown (fun u => !(s.placed u).bulk && (s.placed u).count == 0 && s.movable u && ok u) s.units with
  | some u => some u
  | none =>
    let listed := (s.bulk.table.items.filter fun e => !e.2.bulk && s.movable e.1 && ok e.1)
    (listed.foldl (fun (b : Option (Nat × Nat)) e => match b with
      | none => some (e.2.count, e.1)
      | some (c, u) => if e.2.count ≤ c then some (e.2.count, e.1) else some (c, u)) none).map (·.2)

/-- The loop while swaps are left in its rate: the hottest movable unit against the coldest whose move the bounds allow (R293). -/
def State.promote (s : State) : Nat → State
  | 0 => s
  | n + 1 =>
    match s.hotUnit fun _ => true with
    | none => s
    | some h =>
      match s.coldUnit (s.mayPair h) with
      | none => s
      | some c =>
        if (s.placed h).count ≤ (s.placed c).count + s.fld (Pg.bulk + 0x130) 32 16 then s
        else
          (s.modBulk fun b => { b with swaps := b.swaps ++ [{ hot := h, cold := c }] }).promote n

/-- Units of partitions above their MAX demoted, one swap each, within the rate (R293). -/
def State.demoteOver (s : State) : Nat → State
  | 0 => s
  | n + 1 =>
    let loses (u : Nat) := match s.unitPart u with
      | some p => decide ((s.placeBounds p).2 < s.stackCount p)
      | none => false
    if (List.range 16).all fun p => decide (s.stackCount p ≤ (s.placeBounds p).2) then s
    else match s.coldUnit loses, s.hotUnit (fun h => s.mayPromote h) with
      | some c, some h => (s.modBulk fun b => { b with swaps := b.swaps ++ [{ hot := h, cold := c }] }).demoteOver n
      | _, _ => s

/-- PLACEMENT_EPOCH: the loop runs once each `EPOCH` µs unless pinned; then every count is halved (R293). -/
def State.placementEpoch (s : State) : State :=
  if s.bulk.mode != .ready || bit (s.reg (Pg.bulk + 0x130)) 48 then s
  else
    let s := s.periodic 3 (usTicks * max 1 (s.fld (Pg.bulk + 0x130) 0 16))
    let rate := s.fld (Pg.bulk + 0x130) 16 10
    let before := s.bulk.swaps.length
    let s := s.promote rate
    let s := s.demoteOver (rate - (s.bulk.swaps.length - before))
    s.modBulk fun b => { b with table := b.table.mapVals fun p => { p with count := p.count / 2 } }

/-! ### Swaps (R295–R297) -/

/-- Bytes in a piece of a swap. -/
def pieceBytes : Nat := 65536

/-- The first swap with a changed cursor. -/
def State.setCursor (s : State) (n : Nat) : State :=
  s.modBulk fun b => { b with swaps := match b.swaps with | w :: ws => { w with cursor := n } :: ws | [] => [] }

/-- The first swap taken out. -/
def State.dropSwap (s : State) : State := s.modBulk fun b => { b with swaps := b.swaps.drop 1 }

/-- The sectors of a piece, each with the status of its read. -/
def State.pieceRead (s : State) (addr : Nat) : State × List (List Byte × Status) :=
  (List.range (pieceBytes / 64)).foldl (fun (acc : State × List (List Byte × Status)) i =>
    let r := acc.1.readSector (addr + 64 * i)
    (r.1, acc.2 ++ [r.2])) (s, [])

/-- A sector left uncorrectable: what is wrong with its check bytes lies beyond the reach of either decoder (R254, R287). -/
def lostChk : List Byte := [1, 2, 3, 4, 5, 6, 7, 8]

/-- The sectors of a piece written; one that could not be read stays uncorrectable until a full write replaces it (R296). -/
def State.piecePut (s : State) (addr : Nat) (l : List (List Byte × Status)) : State :=
  l.zipIdx.foldl (fun s x =>
    let a := addr + 64 * x.2
    let s := (s.writeSector a x.1.1).1
    if x.1.2 ≠ .poison then s
    else match s.locate a with
      | .stack p => s.wrMem .stackChk (p.off / 8) lostChk
      | .bulk b => s.wrMem .bulkChk (bulkCheck b) lostChk
      | .nowhere => s) s

/-- One piece swapped back, as its sectors read. -/
def State.pieceBack (s : State) (w : Swap) (n : Nat) : State :=
  let ah := unitBytes * w.hot + pieceBytes * n
  let ac := unitBytes * w.cold + pieceBytes * n
  let rh := s.pieceRead ah
  let rc := rh.1.pieceRead ac
  ((rc.1.setCursor n).piecePut ah rh.2).piecePut ac rc.2

/-- Pieces already swapped are swapped back in descending order (R296). -/
def State.swapBack (s : State) (w : Swap) (n : Nat) : State := (List.range n).reverse.foldl (fun s i => s.pieceBack w i) s

/-- SWAP_PIECE_DONE: the next piece of the first swap is exchanged; an uncorrectable piece rolls the swap back and pins its
unit HERE (R295, R296). While a checked row-operation entry names one of its units the move waits (R276). -/
def State.swapPiece (s : State) : State :=
  match s.bulk.swaps with
  | [] => s
  | w :: _ =>
    if s.boot.memStop || s.rowNamed w.hot || s.rowNamed w.cold then s
    else
    let ah := unitBytes * w.hot + pieceBytes * w.cursor
    let ac := unitBytes * w.cold + pieceBytes * w.cursor
    let rh := s.devRead ah pieceBytes
    let rc := rh.1.devRead ac pieceBytes
    let s := rc.1
    if rh.2.2 = .poison ∨ rc.2.2 = .poison then
      let bad := if rh.2.2 = .poison then w.hot else w.cold
      let s := (s.swapBack w w.cursor).dropSwap
      let s := s.modPlaced bad fun p => { p with pin := 1 }
      (s.bump (Pg.bulk + 0x140) 1).raise Pg.bulk 3
        { dests := some (0 :: s.holders (unitBytes * bad)), status := .poison
          err := some ({ sev := 2, addr := unitBytes * bad }, s.holders (unitBytes * bad)) }
    else
      let s := s.setCursor (w.cursor + 1)
      let s := (s.devPut ah rh.2.1).devPut ac rc.2.1
      if w.cursor + 1 < 32 then s
      else
        let ph := s.placed w.hot
        let pc := s.placed w.cold
        let s := s.dropSwap
        let s := s.modPlaced w.hot fun p => { p with bulk := pc.bulk, frame := pc.frame }
        let s := s.modPlaced w.cold fun p => { p with bulk := ph.bulk, frame := ph.frame }
        s.bump (Pg.bulk + 0x138) 1

/-- A queued swap of a pin runs ahead of the loop's own swaps; a swap already begun goes on first (R297). -/
def State.queuePin (s : State) (h c : Nat) : State :=
  s.modBulk fun b =>
    let first := b.swaps.filter fun w => w.pinned || w.cursor != 0
    let rest := b.swaps.filter fun w => !(w.pinned || w.cursor != 0)
    { b with swaps := first ++ [{ hot := h, cold := c, pinned := true }] ++ rest }

/-- PIN_WRITE: a write of `PLD_UNIT` by domain `dom` for the unit selected in window `d`; a domain pins units of its own partitions
(R297). -/
def State.pinWrite (s : State) (dom d : Nat) (v : Word) : State :=
  let u := s.fld (Pg.bulk + 0x800 + 0x80 * d) 0 21
  let pin := bits v 22 2
  let mine := match s.unitPart u with | some p => s.ownerOf p == dom | none => false
  if s.units ≤ u || !mine || s.unitReserved u || s.unitMoving u then s.ends .access
  else
    let p := s.placed u
    let set (s : State) := (s.modPlaced u fun p => { p with pin := pin }).ends .ok
    if pin = 2 ∧ p.bulk then
      match s.coldUnit (fun c => s.mayDemote c || s.unitPart c == s.unitPart u) with
      | some c => set (s.queuePin u c)
      | none => s.ends .access
    else if pin = 3 ∧ !p.bulk then
      match s.hotUnit (fun h => s.mayPromote h || s.unitPart h == s.unitPart u) with
      | some h => set (s.queuePin h u)
      | none => s.ends .access
    else set s

/-- `PLD_UNIT` of a unit (R292). -/
def State.pldUnit (s : State) (u : Nat) : Word :=
  let p := s.placed u
  let part := s.unitPart u
  pack [(p.frame, 0), (b2n p.bulk, 21), (p.pin, 22), (b2n (s.unitReserved u), 24), (b2n (s.unitPoison u), 25)
      , (b2n (s.unitMoving u), 26), (p.count, 32), (part.getD 0, 48), (b2n part.isSome, 52)]

/-- `BLK_TSTAT`. -/
def State.blkTstat (s : State) : Word :=
  let b := s.bulk
  pack [(match b.mode with | .off => 0 | .training => 1 | .ready => 2 | .failed => 3, 0), (b.hottest, 8)
      , (b.failChan, 16), (b.failCause, 24)]

/-- A write of `PL_PBOUND` for the selected partition: crossed bounds are ignored; bounds that the present placement violates
wait for the step boundary (R294, R487, R488). -/
def State.boundWrite (s : State) (v : Word) : State :=
  let p := s.fld (Pg.bulk + 0x158) 0 4
  let k := keyAt (Pg.bulk + 0x160) p
  let lo := bits v 0 20
  let hi := bits v 32 20
  if hi < lo then s.ends .access
  else
    let n := s.stackCount p
    let old := s.bulk.oldBound.get (s.reg k) p
    let s := (s.setReg k (pack [(lo, 0), (hi, 32)])).ends .ok
    if n < lo ∨ hi < n then
      (s.modBulk fun b => { b with oldBound := b.oldBound.put p old }).modPower fun q =>
        { q with boundClk := q.boundClk.put (32 + p) s.clk }
    else (s.modBulk fun b => { b with oldBound := b.oldBound.drop p }).modPower fun q =>
      { q with boundClk := q.boundClk.drop (32 + p) }

end Sys2Proof.Machine
end

