-- ==== Sys2Proof/Machine/Serving.lean ====
section
/-! DEFINITION. The request table: entries, pages, prefix reuse, retention, sampler blocks, token records, and the commands of the
submission ring (R298–R304, R307–R313, R315, R322, R330–R338, R346, R355). -/

namespace Sys2Proof.Machine

/-! ### Accessors -/

/-- A request-table entry. -/
def State.req (s : State) (r : Nat) : ReqEntry := s.reqs.get {} r

/-- A request-table entry changed. -/
def State.modReq (s : State) (r : Nat) (f : ReqEntry → ReqEntry) : State := { s with reqs := s.reqs.put r (f (s.req r)) }

/-- The serving state of a partition. -/
def State.sv (s : State) (p : Nat) : SvPart := s.svs.get {} p

/-- The serving state of a partition changed. -/
def State.modSv (s : State) (p : Nat) (f : SvPart → SvPart) : State := { s with svs := s.svs.put p (f (s.sv p)) }

/-- The sampler's state for a partition. -/
def State.pep (s : State) (p : Nat) : PepPart := s.peps.get {} p

/-- The sampler's state changed. -/
def State.modPep (s : State) (p : Nat) (f : PepPart → PepPart) : State := { s with peps := s.peps.put p (f (s.pep p)) }

/-- A field of register `off` of a partition block. -/
def State.svFld (s : State) (p off lo n : Nat) : Nat := s.fld (Pg.sv + 0x800 + 0x80 * p + off) lo n

/-- Positions in a page, P. -/
def State.svP (s : State) (p : Nat) : Nat := 16 * 2 ^ s.svFld p 0 0 2

/-- Bytes of a page's frame. -/
def State.svFrame (s : State) (p : Nat) : Nat := s.svFld p 0 8 16 * 2048

/-- First request-table entry of a partition, and how many. -/
def State.tbase (s : State) (p : Nat) : Nat := s.svFld p 0 24 14
def State.tcount (s : State) (p : Nat) : Nat := s.svFld p 0 38 15

/-- The entries of a partition. -/
def State.reqsOf (s : State) (p : Nat) : List Nat := (List.range (s.tcount p)).map (s.tbase p + ·)

/-- The partition whose range holds an entry (R307). Ranges are disjoint from ACTIVATE on (R364), so one past CONFIG comes first. -/
def State.partOfReq (s : State) (r : Nat) : Option Nat :=
  let holds (p : Nat) : Bool := (s.part p).mode != .free && decide (s.tbase p ≤ r) && decide (r < s.tbase p + s.tcount p)
  match (List.range 16).find? fun p => holds p && (s.part p).mode != .config with
  | some p => some p
  | none => (List.range 16).find? holds

/-- `SV_MCFG` of a model. -/
def State.mcfg (s : State) (m : Nat) : Word := s.reg (keyAt (Pg.sv + 0x120) m)

/-- Fields of bytes 48–127 of an entry (R307): `o` counts from byte 0 of the entry. -/
def ReqEntry.fld (e : ReqEntry) (o n : Nat) : Nat := field e.params (o - 48) n

/-- `PRIO`. -/
def ReqEntry.prio (e : ReqEntry) : Nat := e.fld 48 1 % 8
/-- `ON_LATE` is END. -/
def ReqEntry.onLate (e : ReqEntry) : Bool := e.fld 48 1 / 8 % 2 == 1
/-- `RCLASS`. -/
def ReqEntry.rclass (e : ReqEntry) : Nat := e.fld 48 1 / 16 % 4
/-- `DL_STRICT`. -/
def ReqEntry.strict (e : ReqEntry) : Bool := e.fld 48 1 / 64 % 2 == 1
/-- `PFX_VERIFY`. -/
def ReqEntry.verify (e : ReqEntry) : Bool := e.fld 48 1 / 128 % 2 == 1
/-- `TCLASS`. -/
def ReqEntry.tclass (e : ReqEntry) : Nat := e.fld 49 1 % 64
/-- `MODEL`. -/
def ReqEntry.model (e : ReqEntry) : Nat := e.fld 50 2
/-- `MAXLEN`. -/
def ReqEntry.maxlen (e : ReqEntry) : Nat := e.fld 52 3
/-- `PLEN`. -/
def ReqEntry.plen (e : ReqEntry) : Nat := e.fld 56 3
/-- `TTL`, in milliseconds. -/
def ReqEntry.ttl (e : ReqEntry) : Nat := e.fld 60 4
/-- `HIST`. -/
def ReqEntry.hist (e : ReqEntry) : Nat := e.fld 64 8 % 2 ^ 52
/-- `PLIST`. -/
def ReqEntry.plist (e : ReqEntry) : Nat := e.fld 72 8 % 2 ^ 52
/-- `PLCAP`. -/
def ReqEntry.plcap (e : ReqEntry) : Nat := e.fld 80 3
/-- `PFXH`. -/
def ReqEntry.pfxh (e : ReqEntry) : Nat := e.fld 104 2
/-- `DRAFT`. -/
def ReqEntry.draft (e : ReqEntry) : Nat := e.fld 108 4
/-- `SAMP`. -/
def ReqEntry.samp (e : ReqEntry) : Nat := e.fld 112 8 % 2 ^ 52
/-- `STOPS`, with its enable. -/
def ReqEntry.stops (e : ReqEntry) : Option Nat := if 2 ^ 63 ≤ e.fld 120 8 then some (e.fld 120 8 % 2 ^ 52) else none

/-- The number of a state (R307). -/
def ReqMode.code : ReqMode → Nat
  | .free => 0 | .queued => 1 | .prefill => 2 | .decode => 3 | .stalled => 4 | .parked => 5 | .retained => 6 | .done => 7
  | .failed => 8

/-- The 128 bytes of an entry (R307). -/
def ReqEntry.bytes (e : ReqEntry) (part : Nat) : List Byte :=
  toLe 1 (e.mode.code + 16 * b2n e.recomp + 32 * b2n e.lateSeen + 64 * b2n e.emitted) ++ toLe 1 e.status ++ toLe 2 e.incarn
    ++ toLe 1 part ++ toLe 1 (e.stall + 4 * b2n e.huskPend) ++ zeros 2 ++ toLe 4 e.len ++ toLe 4 e.ntok ++ toLe 4 e.pages.length
    ++ toLe 4 e.priv ++ toLe 8 e.lastCt ++ toLe 8 e.expiry ++ toLe 4 e.hoff ++ zeros 4
    ++ (e.params ++ zeros 80).take 80

/-- Ring pages R of an entry's model; 0 is the linear layout. -/
def State.ringPages (s : State) (r : Nat) : Nat := bits (s.mcfg (s.req r).model) 16 16

/-- The prefill target (R313). -/
def ReqEntry.target (e : ReqEntry) : Nat := e.ntok - e.hoff - b2n e.recomp

/-- A serving-unit event of a partition's request (R337). -/
def State.svEvent (s : State) (p b : Nat) (st : Status := .ok) : State :=
  s.raise Pg.sv b { dests := some [s.ownerOf p], part := some p, status := st, onChange := decide (4 ≤ b) }

/-- Every byte of a range lies in EXCLUSIVE regions of a partition. -/
def State.partExclusive (s : State) (p addr n : Nat) : Bool :=
  n == 0 || (decide (addr + n ≤ s.devEnd)
    && (List.range (ceilDiv (addr + n) unitBytes - addr / unitBytes)).all fun i =>
      match s.regionOfUnit (addr / unitBytes + i) with
      | some (_, r) => r.mode == 1 && r.part == p
      | none => false)

/-- The check of an extent that a partition's exclusive regions must hold: a start at or past the end of the unified range is an address
check, the extent a length check (R7, R439). -/
def State.exclusive (s : State) (p addr n : Nat) : Status :=
  if n ≠ 0 ∧ s.devEnd ≤ addr then .access else if s.partExclusive p addr n then .ok else .length

/-- The status of several checks together: an ACCESS comes before a LENGTH (R439). -/
def worst (l : List Status) : Status :=
  if l.contains .access then .access else (l.find? (· != .ok)).getD .ok

/-! ### Token records (R355, R356, R419) -/

/-- Records the output buffer of a partition has room for. -/
def bufRecords : Nat := 16384

/-- A token record placed in the output buffer; behind a full one stage 9 holds it, and TOKEN_HOLD is raised (R419). -/
def State.putRecord (s : State) (p : Nat) (rec : List Byte) : State :=
  let v := s.sv p
  if v.owed.isEmpty && decide (v.buf.length < bufRecords) then s.modSv p fun v => { v with buf := v.buf ++ [rec] }
  else
    let s := s.modSv p fun v => { v with owed := v.owed ++ [rec] }
    s.raise (Pg.dq (s.ownerOf p)) 2 { dests := some [s.ownerOf p, 0], part := some p, onChange := true }

/-- A token record (R355). -/
def State.tokenRecord (s : State) (r token idx flags : Nat) (st : Status) (cause sidx logp j d : Nat) : List Byte :=
  toLe 2 r ++ toLe 2 (s.req r).incarn ++ toLe 4 token ++ toLe 4 idx ++ toLe 1 flags ++ toLe 1 (statusCode st) ++ toLe 1 cause
    ++ toLe 1 sidx ++ toLe 4 logp ++ toLe 1 j ++ toLe 1 d ++ zeros 2 ++ toLe 8 s.ct

/-- An end record that emits no token; its `IDX` is the next history index (DESIGN CHOICE, log entry 19). -/
def State.endRecord (s : State) (p r : Nat) (st : Status) : State :=
  s.putRecord p (s.tokenRecord r 0xFFFFFFFF (s.req r).ntok 12 st 0 0 0 0 0)

/-! ### Pages (R322, R323, R330) -/

/-- A stack-pool page's device address, and a bulk-pool page's. -/
def State.stackPage (s : State) (p n : Nat) : Nat := unitBytes * s.svFld p 0x08 0 31 + n * s.svFrame p
def State.bulkPage (s : State) (p n : Nat) : Nat := unitBytes * s.svFld p 0x10 0 31 + n * s.svFrame p

/-- Pages of the two pools. -/
def State.stackPages (s : State) (p : Nat) : Nat := s.svFld p 0x08 32 32
def State.bulkPages (s : State) (p : Nat) : Nat := if s.ident.bulk then s.svFld p 0x10 32 32 else 0

/-- Free stack pages F: unallocated, or cached (R330). -/
def State.freePages (s : State) (p : Nat) : Nat :=
  s.stackPages p - ((s.sv p).held.keysWhere fun _ n => n != 0).length

/-- Free pages of the bulk pool; a failed tier has none. -/
def State.freeBulk (s : State) (p : Nat) : Nat :=
  if s.bulk.mode = .failed then 0 else s.bulkPages p - ((s.sv p).heldBulk.keysWhere fun _ n => n != 0).length

/-- A page's frame holds a stale row: it is not given out (R322). -/
def State.pageStale (s : State) (p n : Nat) : Bool :=
  s.staleRows != 0 && (List.range (s.svFrame p / 1024)).any fun i =>
    match s.locate (s.stackPage p n + 1024 * i) with
    | .stack l => s.isStale l
    | _ => false

/-- A page is in the prefix table. -/
def SvPart.cached (v : SvPart) (n : Nat) : Bool := v.table.any fun e => e.page == n

/-- The page an allocation gives: the lowest unallocated one (DESIGN CHOICE, log entry 20), else the cached page least recently
hit (Prefix reuse, R330). -/
def State.pickPage (s : State) (p : Nat) : Option Nat :=
  let v := s.sv p
  match findUp (fun n => v.held.get 0 n == 0 && !v.cached n && !s.pageStale p n) 0 (s.stackPages p) with
  | some n => some n
  | none =>
    ((v.table.filter fun e => v.held.get 0 e.page == 0 && !s.pageStale p e.page).foldl
      (fun (b : Option PfxEnt) e => match b with
        | none => some e
        | some f => if e.hit < f.hit then some e else some f) none).map (·.page)

/-- A free stack page taken: its holder count is 1 and its table entry is gone. -/
def State.takePage (s : State) (p : Nat) : Option (State × Nat) :=
  (s.pickPage p).map fun n =>
    (s.modSv p fun v => { v with held := v.held.put n 1, table := v.table.filter fun e => e.page != n }, n)

/-- A free bulk-pool page taken. -/
def State.takeBulk (s : State) (p : Nat) : Option (State × Nat) :=
  if s.freeBulk p = 0 then none
  else (findUp (fun n => (s.sv p).heldBulk.get 0 n == 0) 0 (s.bulkPages p)).map fun n =>
    (s.modSv p fun v => { v with heldBulk := v.heldBulk.put n 1 }, n)

/-- A page-list entry is a page of the bulk pool (R200). -/
def inBulkPool (w : Nat) : Bool := decide (2 ^ 31 ≤ w)

/-- A holder of a page-list entry's page gives it up. -/
def State.dropPage (s : State) (p w : Nat) : State :=
  s.modSv p fun v =>
    if inBulkPool w then { v with heldBulk := v.heldBulk.put (w % 2 ^ 31) (v.heldBulk.get 0 (w % 2 ^ 31) - 1) }
    else { v with held := v.held.put w (v.held.get 0 w - 1) }

/-- Every page of a request given up; copies under way for it are dropped, with the pages they would have filled. -/
def State.dropPages (s : State) (p r : Nat) : State :=
  let mine := s.bulk.copies.filter fun c => c.part == p && c.req == r
  let s := mine.foldl (fun s c => s.dropPage p (if c.back then c.dst else 2 ^ 31 + c.dst)) s
  let s := s.modBulk fun b => { b with copies := b.copies.filter fun c => !(c.part == p && c.req == r) }
  let s := (s.req r).pages.foldl (fun s w => s.dropPage p w) s
  s.modReq r fun e => { e with pages := [] }

/-- A page-list entry written, in the list the module keeps and at `PLIST` (R308). -/
def State.writePageEnt (s : State) (r i w : Nat) : State × Status :=
  let e := s.req r
  let s := s.modReq r fun e => { e with pages := e.pages.take i ++ [w] ++ e.pages.drop (i + 1) }
  s.devWrite (e.plist + 4 * i) (toLe 4 w)

/-! ### Husk slots (R301–R303) -/

/-- `PL_HUSK` of a partition. -/
def State.huskCfg (s : State) (p : Nat) : Word := s.reg (keyAt (Pg.bulk + 0x178) p)

/-- Device address and bytes of a husk slot. -/
def State.huskAddr (s : State) (p i : Nat) : Nat :=
  unitBytes * bits (s.huskCfg p) 0 32 + i * (65536 * (bits (s.huskCfg p) 32 4 + 1))
def State.huskBytes (s : State) (p : Nat) : Nat := 65536 * (bits (s.huskCfg p) 32 4 + 1)

/-- A husk slot freed: written with zeros before it is given out again (R302). -/
def State.freeHusk (s : State) (p i : Nat) : State :=
  (s.devPut (s.huskAddr p i) (zeros (s.huskBytes p))).modSv p fun v => { v with husks := v.husks.filter (· != i) }

/-- The lowest free husk slot. -/
def State.pickHusk (s : State) (p : Nat) : Option Nat :=
  findUp (fun i => !(s.sv p).husks.contains i) 0 (bits (s.huskCfg p) 40 24)

/-! ### Ends of a request (R312) -/

/-- What a request holds is given up: pages and husk slot. -/
def State.dropHoldings (s : State) (p r : Nat) : State :=
  let s := s.dropPages p r
  match (s.req r).husk with
  | some i => (s.freeHusk p i).modReq r fun e => { e with husk := none, restore := false }
  | none => s

/-- A request closes in a state with a status; its pages and slots are freed (R312). -/
def State.closeReq (s : State) (p r : Nat) (m : ReqMode) (st : Status) : State :=
  (s.dropHoldings p r).modReq r fun e =>
    { e with mode := m, status := statusCode st, cancel := false, huskPend := false, stall := 0 }

/-- A request ends without a token: one end record, then DONE or FAILED (R355). -/
def State.endReq (s : State) (p r : Nat) (m : ReqMode) (st : Status) : State := (s.endRecord p r st).closeReq p r m st

/-- An entry becomes FREE: what it holds is given up, its other fields stay (R14, R312). -/
def State.freeReqEntry (s : State) (p r : Nat) : State :=
  (s.dropHoldings p r).modReq r fun e => { e with mode := .free, cancel := false, huskPend := false, stall := 0 }

/-- REQUEST_FREE: a DONE entry whose end record has been written to the ring becomes FREE (R312). -/
def State.recordWritten (s : State) (p : Nat) (rec : List Byte) : State :=
  let r := field rec 0 2
  if field rec 12 1 / 4 % 2 = 1 ∧ (s.req r).mode = .done ∧ (s.req r).incarn = field rec 2 2 then s.freeReqEntry p r else s

/-! ### Spills and retention (R298–R303) -/

/-- A sequence's last page: the page of its newest position; in a ring that page comes round (R298; DEDUCED, log entry 21). -/
def State.lastPage (s : State) (p r : Nat) : Nat :=
  let e := s.req r
  if s.ringPages r = 0 then e.pages.length - 1 else (e.len - 1) / s.svP p % s.ringPages r

/-- A page held by one sequence alone, not its last and not under way already (R298). -/
def State.spillable (s : State) (p r i : Nat) : Bool :=
  let e := s.req r
  let w := e.pages.getD i 0
  decide (i < e.pages.length) && i != s.lastPage p r && !inBulkPool w && (s.sv p).held.get 0 w == 1
    && !s.bulk.copies.any fun c => c.part == p && c.req == r && c.index == i

/-- A spill of a page starts: its copy to a free page of the bulk pool is queued. -/
def State.startSpill (s : State) (p r i : Nat) (claim : Option Nat) : Option State :=
  (s.takeBulk p).map fun (s, n) =>
    s.modBulk fun b =>
      { b with copies := b.copies ++ [{ part := p, req := r, index := i, back := false, src := (s.req r).pages.getD i 0
                                        dst := n, claim := claim }] }

/-- The retained entry of a partition that expires first, beside the request that seeks room. -/
def State.firstRetained (s : State) (p keep : Nat) : Option Nat :=
  ((s.reqsOf p).filter fun r => r != keep && (s.req r).mode == .retained && !(s.req r).huskPend).foldl
    (fun (b : Option Nat) r => match b with
      | none => some r
      | some q => if (s.req r).expiry < (s.req q).expiry then some r else some q) none

/-- A bulk-tier retention event: bit 4 RETAIN_FAIL, bit 5 RETAIN_EVICT (R305). -/
def State.retainEvent (s : State) (p b : Nat) : State :=
  s.raise Pg.bulk b { dests := some [s.ownerOf p], part := some p }

/-- RETAIN_EVICT: the retained entry that expires first makes room (R303). `none` when there is none. -/
def State.evictRetained (s : State) (p keep : Nat) : Option State :=
  (s.firstRetained p keep).map fun q =>
    ((s.freeReqEntry p q).modReq q fun e => { e with status := statusCode .expired }).retainEvent p 5

/-- A spill that retained entries make room for, while one is left; the second part says whether it found room (R303). -/
def State.spillRoom (s : State) (p r i : Nat) : Nat → State × Bool
  | 0 => match s.startSpill p r i none with
    | some s => (s, true)
    | none => (s, false)
  | fuel + 1 =>
    match s.startSpill p r i none with
    | some s => (s, true)
    | none => match s.evictRetained p r with
      | some s => s.spillRoom p r i fuel
      | none => (s, false)

/-- The private pages of a WARM request spilled; the second part says whether room was found for all of them (R300). -/
def State.warmSpill (s : State) (p r : Nat) : List Nat → State × Bool
  | [] => (s, true)
  | i :: is =>
    if s.spillable p r i then
      let q := s.spillRoom p r i (s.tcount p)
      if q.2 then q.1.warmSpill p r is else q
    else s.warmSpill p r is

/-- A request that ends with retention class WARM (R300, R303, R304, R334). Entries that made room for some of its pages stay evicted where
room then runs out. -/
def State.retainWarm (s : State) (p r : Nat) (st : Status) : State :=
  let exp := s.ct + usTicks * ((s.req r).ttl * 1000)
  let s := s.modReq r fun e => { e with mode := .retained, status := statusCode st, expiry := exp }
  if !s.ident.bulk then s
  else
    let q := s.warmSpill p r (List.range (s.req r).pages.length)
    if q.2 then q.1 else (q.1.freeReqEntry p r).retainEvent p 4

/-- A request that ends with retention class HUSK: its husk is made at the next step (R335). -/
def State.retainHusk (s : State) (r : Nat) (st : Status) : State :=
  s.modReq r fun e => { e with mode := .retained, status := statusCode st, huskPend := true }

/-- SPILL_COPY_DONE: the first copy not yet complete moves its frame; an uncorrectable source abandons it (R298, R299). -/
def State.copyDone (s : State) : State :=
  match s.bulk.copies.find? fun c => !c.finished && !s.boot.memStop with
  | none => s
  | some c =>
    let from' := if c.back then s.bulkPage c.part c.src else s.stackPage c.part c.src
    let to' := if c.back then s.stackPage c.part c.dst else s.bulkPage c.part c.dst
    let r := s.devRead from' (s.svFrame c.part)
    let bad := r.2.2 != .ok
    let s := if bad then r.1 else r.1.devPut to' r.2.1
    s.modBulk fun b =>
      { b with copies := (b.copies.takeWhile fun x => x.finished) ++ [{ c with finished := true, bad := bad }]
                 ++ (b.copies.dropWhile fun x => x.finished).drop 1 }

/-- RETENTION_SWEEP: once a millisecond every retained entry past its expiry becomes FREE (R302). -/
def State.retentionSweep (s : State) : State :=
  let s := s.periodic 5 (1000 * usTicks)
  let due := (s.reqs.items.filter fun e => e.2.mode == .retained && !e.2.huskPend && decide (e.2.expiry ≤ s.ct)).map (·.1)
  due.foldl (fun s r => match s.partOfReq r with
    | some p => s.freeReqEntry p r |>.modReq r fun e => { e with status := statusCode .expired }
    | none => s) s

/-! ### Sampler block and stop set (R346, R352) -/

/-- The first 64 bytes of a sampler block are within their ranges (R346). -/
def sampOk (b : List Byte) : Bool :=
  let temp := field b 8 4
  (isZero32 temp || (decide (temp < 0x7F800000) && finite32 (fDiv 0x3F800000 temp).1))
    && decide (field b 12 2 ≤ 1024) && decide (field b 14 2 < 4)
    && decide (0 < field b 16 4) && decide (field b 16 4 ≤ 0x3F800000)
    && (decide (field b 20 4 < 0x3F800000) || isZero32 (field b 20 4))
    && decide (0x3F800000 ≤ field b 24 4) && decide (field b 24 4 < 0x7F800000)
    && finite32 (field b 28 4) && finite32 (field b 32 4)
    && decide (field b 36 4 < 2 ^ 24) && field b 40 8 == 0 && field b 50 2 == 0 && field b 56 8 == 0

/-- A stop set is within its limits (R352). -/
def stopsOk (b : List Byte) (vocab : Nat) : Bool :=
  let eos := field b 0 4
  let nt := field b 4 1
  let ns := field b 5 1
  eos / 2 ^ 18 % 2 ^ 13 == 0 && (decide (eos < 2 ^ 31) || decide (eos % 2 ^ 18 < vocab))
    && decide (nt ≤ 32) && decide (ns ≤ 8) && field b 6 2 == 0
    && ((List.range nt).all fun i => decide (field b (8 + 4 * i) 4 < vocab))
    && (List.range ns).all fun i =>
        let l := field b (136 + 68 * i) 4
        decide (1 ≤ l) && decide (l ≤ 16)
          && (List.range l).all fun j => decide (field b (140 + 68 * i + 4 * j) 4 < vocab)

/-- `DRAFT` is within its limits (Table DRAFT field). -/
def draftOk (d : Nat) : Bool :=
  let src := nbits d 0 2
  let ng := nbits d 16 4
  src != 3 && decide (nbits d 2 4 ≤ 8) && decide (nbits d 2 4 ≤ nbits d 6 4) && decide (nbits d 6 4 ≤ 8)
    && nbits d 11 5 == 0 && nbits d 20 12 == 0
    && (if src = 2 then decide (1 ≤ ng) && decide (ng ≤ 8) else ng == 0)

/-- `VOCAB` as written. -/
def State.vocabReg (s : State) (p : Nat) : Nat := s.fld (Pg.sv + 0x200 + 0x40 * p) 0 19

/-- The checks of the sampler block and the stop set of an entry (R346). -/
def State.sampCheck (s : State) (p : Nat) (e : ReqEntry) : Status :=
  let ext := worst [s.exclusive p e.samp 8256, match e.stops with | some a => s.exclusive p a 680 | none => .ok]
  let b := s.devRead e.samp 64
  let st := match e.stops with | some a => s.devRead a 680 | none => (s, [], .ok)
  let alignOk := e.samp % 64 == 0 && match e.stops with | some a => a % 8 == 0 | none => true
  if !alignOk || !draftOk e.draft then .access
  else if ext ≠ .ok then ext
  else if b.2.2 ≠ .ok then b.2.2
  else if st.2.2 ≠ .ok then st.2.2
  else if !sampOk b.2.1 || !(match e.stops with | some _ => stopsOk st.2.1 (s.vocabReg p) | none => true) then .access
  else .ok

/-- A Pepper event of a partition (R357): bits 0 and 1 recorded each time, bits 2 and 3 on the change from 0 to 1. -/
def State.pepEvent (s : State) (p b : Nat) (st : Status := .ok) : State :=
  let k := Pg.sv + 0x230 + 0x40 * p
  let was := bit (s.reg k) b
  let c := sat 0xFFFF (s.fld (k + 8) (16 * b) 16 + 1)
  let s := (s.setFld k b 1 1).setFld (k + 8) (16 * b) 16 c
  if 2 ≤ b ∧ was then s
  else s.useFree.pushEvent (s.ownerOf p)
    { bit := b, count := c, page := Pg.sv, ct := s.ct, arg := (Config.freeWord s.free).toNat, status := statusCode st, part := some p }

/-- The bytes the count table of a request occupies, as it is kept: the layout is internal, so nothing constrains them (R344). -/
def State.writeCounts (s : State) (r : Nat) : State :=
  let f := s.freeBytes 8192
  f.1.devPut ((s.req r).samp + 64) f.2

/-- `DCUR`, `MFLAGS` and `GEN` as stored (R346). -/
def State.dcur (s : State) (r : Nat) : Nat := field (s.devPeek ((s.req r).samp + 48) 1) 0 1 % 16
def State.penFull (s : State) (r : Nat) : Bool := field (s.devPeek ((s.req r).samp + 49) 1) 0 1 % 2 == 1
def State.gen (s : State) (r : Nat) : Nat := field (s.devPeek ((s.req r).samp + 52) 3) 0 3

/-- A token counted: saturating, and a new id beyond 2,048 is not counted (R344). Answers whether the table was full. -/
def countTok (l : List (Nat × Nat)) (v : Nat) : List (Nat × Nat) × Bool :=
  if l.any fun e => e.1 == v then (l.map fun e => if e.1 = v then (v, sat 65535 (e.2 + 1)) else e, false)
  else if l.length < 2048 then (l ++ [(v, 1)], false) else (l, true)

/-- The count of an id. -/
def countOf (l : List (Nat × Nat)) (v : Nat) : Nat := ((l.find? fun e => e.1 == v).map (·.2)).getD 0

/-- Tokens counted into a request's table; one that finds it full sets `PEN_FULL` and raises PEN_OVERFLOW (R344). -/
def State.countToks (s : State) (p r : Nat) (toks : List Nat) : State :=
  if toks.isEmpty then s
  else
    let s := toks.foldl (fun s v =>
      let q := countTok (s.req r).counts v
      let s := s.modReq r fun e => { e with counts := q.1 }
      if q.2 then (s.devPut ((s.req r).samp + 49) (toLe 1 1)).pepEvent p 2 else s) s
    s.writeCounts r

/-! ### History and prefixes (R308, R332) -/

/-- History tokens `i` to `i + n − 1`, with the read's status. -/
def State.histToks (s : State) (r i n : Nat) : List Nat × Status :=
  let q := s.devRead ((s.req r).hist + 4 * i) (4 * n)
  ((List.range n).map fun j => field q.2.1 (4 * j) 4, if n = 0 then .ok else q.2.2)

/-- The starting value h_(−1) of a request's chain (R332). -/
def State.chainStart (s : State) (p r : Nat) : List Byte :=
  let e := s.req r
  let salt := toLe 8 (s.svFld p 0x70 0 64) ++ toLe 8 (s.svFld p 0x78 0 64)
  let scope := if s.svFld p 0x58 48 1 = 1 then e.tclass else 0
  shake256 (salt ++ toLe 2 e.model ++ toLe 2 scope ++ toLe 2 (s.svP p)) 16

/-- The next chain value, over the tokens of one page (R332). -/
def chainNext (h : List Byte) (toks : List Nat) : List Byte := shake256 (h ++ toks.flatMap (toLe 4)) 16

/-- The tokens of page `i` of a request. -/
def State.pageToks (s : State) (p r i : Nat) : List Nat :=
  (s.histToks r (i * s.svP p + (s.req r).hoff) (s.svP p)).1

/-- The chain value h_(n−1) of the first `n` pages; h_(−1) of none. -/
def State.chainVal (s : State) (p r n : Nat) : List Byte :=
  (List.range n).foldl (fun h i => chainNext h (s.pageToks p r i)) (s.chainStart p r)

/-- Prefix lookup (R333): the pages hit from page `i` on, and whether a verified hit had other tokens. A page whose frame holds a stale row
is never given out, so it is a miss (R322; DEDUCED, log entry 20). -/
def State.pfxLookup (s : State) (p r : Nat) : Nat → Nat → List Byte → List Nat × Bool
  | 0, _, _ => ([], false)
  | n + 1, i, h =>
    let toks := s.pageToks p r i
    let h := chainNext h toks
    match (s.sv p).table.find? fun e => e.hash == h && !s.pageStale p e.page with
    | none => ([], false)
    | some e =>
      if (s.req r).verify && e.toks != toks then ([], true)
      else
        let rest := s.pfxLookup p r n (i + 1) h
        (e.page :: rest.1, rest.2)

/-- The lookup at admission: none for a ring, a model without `PFX_EN`, or an entry whose held pages are not all full; the page
with the query of the first token is never taken (R333). -/
def State.pfxHits (s : State) (p r : Nat) : List Nat × Bool :=
  let e := s.req r
  let m := s.mcfg e.model
  if !bit m 5 || s.ringPages r != 0 || e.restore || e.len != e.pages.length * s.svP p then ([], false)
  else s.pfxLookup p r ((e.target - 1) / s.svP p - e.pages.length) e.pages.length (s.chainVal p r e.pages.length)

/-- A page hit joins a request: one more holder, one more entry, P positions more (R333). -/
def State.takeHit (s : State) (p r page : Nat) : State :=
  let s := s.modSv p fun v =>
    { v with held := v.held.put page (v.held.get 0 page + 1), hits := v.hits + 1
             table := v.table.map fun e => if e.page = page then { e with hit := v.hits + 1 } else e }
  let n := (s.req r).pages.length
  let s := (s.modReq r fun e => { e with pages := e.pages ++ [page], len := e.len + s.svP p, priv := n + 1 })
  let q := s.writePageEnt r n page
  if q.2 = .ok then q.1 else q.1.endReq p r .failed q.2

/-- A commit that fills pages inserts their hashes where the table lacks them and has room (R333). -/
def State.pfxInsert (s : State) (p r from' to' : Nat) : State :=
  let e := s.req r
  if !bit (s.mcfg e.model) 5 || s.ringPages r != 0 then s
  else (List.range (to' - from')).foldl (fun s j =>
    let i := from' + j
    let h := s.chainVal p r (i + 1)
    let w := (s.req r).pages.getD i (2 ^ 31)
    if inBulkPool w || decide (s.svFld p 0x58 0 24 ≤ (s.sv p).table.length) || ((s.sv p).table.any fun e => e.hash == h)
        || (s.sv p).cached w then s
    else s.modSv p fun v =>
      { v with table := v.table ++ [{ hash := h, page := w, toks := s.pageToks p r i, hit := v.hits + 1 }]
               hits := v.hits + 1 }) s

/-! ### Commands (R309–R311, R315, R331) -/

/-- The checks of R310 and R331 on an entry whose bytes 48–127 stand, in the order of R439. -/
def State.fieldCheck (s : State) (p : Nat) (e : ReqEntry) (fresh : Bool) : Status :=
  let m := s.mcfg e.model
  let ring := bits m 16 16
  let h := (s.sv p).handles.get { pages := [], chain := [] } e.pfxh
  let ext := worst [s.exclusive p e.hist (4 * e.maxlen), s.exclusive p e.plist (4 * e.plcap)]
  if 64 ≤ e.model ∨ !bit m 4 ∨ bits m 0 4 ≠ p ∨ e.rclass = 3 ∨ e.hist % 4 ≠ 0 ∨ e.plist % 4 ≠ 0 then .access
  else if e.pfxh ≠ 0xFFFF ∧ (h.pages.isEmpty ∨ ring ≠ 0) then .access
  else if ext = .access then .access
  else if e.maxlen < 2 ∨ 4194304 < e.maxlen ∨ (fresh ∧ (e.plen = 0 ∨ e.maxlen ≤ e.plen)) ∨ ext ≠ .ok
      ∨ e.plcap < ceilDiv e.maxlen (s.svP p) ∨ e.plcap < ring then .length
  else if fresh ∧ e.pfxh ≠ 0xFFFF ∧ e.plen ≤ h.pages.length * s.svP p then .length
  else .ok

/-- The checks of a SUBMIT: its fields, the sampler block and the stop set (R310, R346). -/
def State.submitCheck (s : State) (p : Nat) (e : ReqEntry) : Status := worst [s.fieldCheck p e true, s.sampCheck p e]

/-- The checks of the fields a RESUME brings: one that fails those of R310 is ACCESS, whichever it is; the sampler block and stop set end
it as they would a SUBMIT (R315, R346). -/
def State.resumeCheck (s : State) (p : Nat) (e : ReqEntry) : Status :=
  if s.fieldCheck p e false ≠ .ok then .access else s.sampCheck p e

/-- The bytes the module writes into a sampler block at SUBMIT and RESUME: `DCUR` at `FLOOR` and `MFLAGS` at SUBMIT, `GEN` zero
(R346, R351). -/
def State.initSamp (s : State) (r : Nat) (fresh : Bool) : State :=
  let e := s.req r
  let s := if fresh then
    (s.devPut (e.samp + 48) (toLe 1 (nbits e.draft 2 4) ++ zeros 1)).writeCounts r else s
  s.devPut (e.samp + 52) (zeros 4)

/-- The handle of a SUBMIT: its pages are held, unless verification finds other tokens (R331). -/
def State.useHandle (s : State) (p r : Nat) : State :=
  let e := s.req r
  if e.pfxh = 0xFFFF then s
  else
    let h := (s.sv p).handles.get { pages := [], chain := [] } e.pfxh
    if e.verify && s.chainVal p r h.pages.length != h.chain then s.svEvent p 3
    else
      let s := s.modSv p fun v => { v with held := h.pages.foldl (fun t n => t.put n (t.get 0 n + 1)) v.held }
      let s := s.modReq r fun e => { e with pages := h.pages, len := h.pages.length * s.svP p, priv := h.pages.length }
      let q := s.devWrite (s.req r).plist (h.pages.flatMap (toLe 4))
      if q.2 = .ok then q.1 else q.1.endReq p r .failed q.2

/-- New SUBMITs and RESUMEs are turned away from the start of a quiesce (R370). -/
def State.closedPart (s : State) (p : Nat) : Bool :=
  match (s.part p).mode with | .quiescing | .quiesced | .releasing => true | _ => false

/-- SUBMIT (R310). -/
def State.submit (s : State) (p r : Nat) (cmd : List Byte) : State × Status :=
  let old := s.req r
  let e : ReqEntry := { params := (cmd.drop 48).take 80 }
  if old.mode ≠ .free ∨ s.closedPart p then (s, .access)
  else
    let st := s.submitCheck p e
    if st ≠ .ok then (s, st)
    else
      let s := { s with submitted := s.submitted + 1 }
      let s := s.modReq r fun _ =>
        { e with mode := .queued, incarn := (old.incarn + 1) % 65536, ntok := e.plen, order := s.submitted }
      ((s.initSamp r true).useHandle p r, .ok)

/-- Whether the batch of the step in hand holds an entry: from its forming in stage 0 to its commit (R311, DEDUCED, log entry
22). -/
def State.inBatch (s : State) (p r : Nat) : Bool :=
  match (s.sv p).batch with
  | some b => b.items.any fun i => i.req == r
  | none => false

/-- RELEASE (R309, R312). A pending husk turns it away (R335). -/
def State.release (s : State) (p r : Nat) : State × Status :=
  let e := s.req r
  if e.mode = .retained ∧ !e.huskPend then ((s.freeReqEntry p r).modReq r fun e => { e with status := 0 }, .ok)
  else if e.mode = .failed then (s.freeReqEntry p r, .ok)
  else (s, .access)

/-- CANCEL (R311). -/
def State.cancel (s : State) (p r : Nat) : State × Status :=
  let e := s.req r
  match e.mode with
  | .free => (s, .access)
  | .done | .failed => (s, .ok)
  | .retained => s.release p r
  | _ =>
    if s.inBatch p r then (s.modReq r fun e => { e with cancel := true }, .ok)
    else (s.endReq p r .done .superseded, .ok)

/-- The new fields of a RESUME change none that must stay (R315). -/
def sameHome (a b : ReqEntry) : Bool :=
  a.model == b.model && a.tclass == b.tclass && a.hist == b.hist && a.plist == b.plist && a.plcap == b.plcap

/-- A husk's summary is restored on resume: `HPOS` is read from the slot's first bytes (R336). No page is private until the restore program
has written it: `PRIV` starts from 0 (DESIGN CHOICE, log entry 99). -/
def State.resumeHusk (s : State) (p r i a : Nat) : State :=
  let q := s.devRead (s.huskAddr p i) 4
  let s := q.1
  let hpos := field q.2.1 0 3
  if q.2.2 ≠ .ok then s.endReq p r .failed q.2.2
  else if (s.req r).ntok - a - 1 < hpos then s.endReq p r .failed .fault
  else s.modReq r fun e => { e with len := hpos, hoff := e.ntok - a - 1 - hpos, priv := 0, restore := true }

/-- RESUME (R315, R302, R336). -/
def State.resume (s : State) (p r : Nat) (cmd : List Byte) : State × Status :=
  let e := s.req r
  let a := field cmd 8 4
  let newp := field cmd 12 1 % 2 == 1
  let new := (cmd.drop 48).take 80
  -- `PLEN` of the command is ignored: the entry keeps its own (R315)
  let e' : ReqEntry := if newp then { e with params := new.take 8 ++ (e.params.drop 8).take 4 ++ new.drop 12 } else e
  if e.mode ≠ .retained ∨ e.huskPend ∨ s.closedPart p then (s, .access)
  else if e.expiry ≤ s.ct then (s, .expired)
  else
    let st := if newp then (if sameHome e e' then s.resumeCheck p e' else .access) else .ok
    if st ≠ .ok then (s, st)
    else if a = 0 ∨ e'.maxlen < e.ntok + a + 1 then (s, .length)
    else
      let s := s.modReq r fun _ => { e' with mode := .queued, ntok := e.ntok + a, emitted := false, status := 0 }
      let s := s.initSamp r false
      let s := if field (s.devPeek (e'.samp + 14) 1) 0 1 / 2 % 2 = 1 then s.countToks p r (s.histToks r e.ntok a).1 else s
      (match e.husk with
        | some i => s.resumeHusk p r i a
        | none => s, .ok)

/-- PFX_CREATE (R331). -/
def State.pfxCreate (s : State) (p r : Nat) (cmd : List Byte) : State × Status :=
  let e := s.req r
  let h := field cmd 8 2
  let n := field cmd 12 4
  let ok := e.mode == .prefill || e.mode == .decode || e.mode == .retained
  let pages := e.pages.take n
  if !ok ∨ n = 0 ∨ s.svFld p 0x58 32 13 ≤ h ∨ !((s.sv p).handles.get { pages := [], chain := [] } h).pages.isEmpty
      ∨ e.len / s.svP p < n ∨ pages.length ≠ n ∨ pages.any inBulkPool then (s, .access)
  else
    (s.modSv p fun v =>
      { v with held := pages.foldl (fun t n => t.put n (t.get 0 n + 1)) v.held
               handles := v.handles.put h { pages := pages, chain := s.chainVal p r n } }, .ok)

/-- PFX_DROP (R331). -/
def State.pfxDrop (s : State) (p : Nat) (cmd : List Byte) : State × Status :=
  let h := field cmd 8 2
  let g := (s.sv p).handles.get { pages := [], chain := [] } h
  if g.pages.isEmpty then (s, .access)
  else
    let s := g.pages.foldl (fun s n => s.dropPage p n) s
    (s.modSv p fun v => { v with handles := v.handles.drop h }, .ok)

/-- The CMD_DONE record of a command (R309, R417). -/
def State.cmdDone (s : State) (d : Nat) (part : Option Nat) (op tag r : Nat) (st : Status) : State :=
  s.pushEvent d
    { kind := 1, page := Pg.dq d, ct := s.ct, arg := op + 2 ^ 16 * tag + 2 ^ 32 * r + 2 ^ 48 * (s.req r).incarn
      status := statusCode st, part := part }

/-- A command read from the submission ring of a domain is applied, and answered with a CMD_DONE record (R309). -/
def State.command (s : State) (d : Nat) (cmd : List Byte) : State :=
  let w := field cmd 0 8
  let op := nbits w 0 8
  let r := nbits w 16 14
  let part := (s.partOfReq r).filter fun p => s.ownerOf p == d
  let s := { s with commands := s.commands.put d (s.commands.get 0 d + 1) }
  let q : State × Status :=
    match part with
    | none => (s, .access)
    | some p =>
      if op = 1 then s.submit p r cmd
      else if nbits w 32 16 ≠ (s.req r).incarn then (s, .access)
      else match op with
        | 2 => s.cancel p r
        | 3 => s.resume p r cmd
        | 4 => s.release p r
        | 5 => s.pfxCreate p r cmd
        | 6 => s.pfxDrop p cmd
        | 7 => (s, .ok)
        | _ => (s, .access)
  (q.1.cmdDone d part op (nbits w 48 16) r q.2).ends q.2

/-- A command of a given opcode: another opcode is another command's occurrence. -/
def State.commandOf (s : State) (op d : Nat) (cmd : List Byte) : State :=
  if field cmd 0 1 = op then s.command d cmd else s

/-! ### Registers -/

/-- `SV_STAT` as domain `d` reads it: the steward all entries and commands, another domain its own (R361). -/
def State.svStat (s : State) (d : Nat) : Word :=
  let mine (r : Nat) : Bool := d == 0 || (match s.partOfReq r with | some p => s.ownerOf p == d | none => false)
  let n := (List.range 4).foldl (fun n i => if d = 0 ∨ i = d then n + s.commands.get 0 i else n) 0
  pack [((s.reqs.items.filter fun e => e.2.mode != .free && mine e.1).length, 0), (n % 65536, 16)]

/-- `SV_PSTAT` of a partition. -/
def State.svPstat (s : State) (p : Nat) : Word := pack [(s.freePages p, 0), (s.freeBulk p, 32)]

/-- Every entry of a partition is FREE. -/
def State.allFree (s : State) (p : Nat) : Bool := (s.reqsOf p).all fun r => (s.req r).mode == .free

/-- The units from a device address for `n` bytes are pinned to BULK; on a module without a bulk tier nothing is asked (R298,
R304). -/
def State.pinnedBulk (s : State) (addr n : Nat) : Bool :=
  !s.ident.bulk || (List.range (ceilDiv (addr + n) unitBytes - addr / unitBytes)).all fun i =>
    (s.placed (addr / unitBytes + i)).pin == 3

end Sys2Proof.Machine
end

