-- ==== Sys2Proof/Machine/Gate.lean ====
section
/-! DEFINITION. Runs of a batch: suspects, twins, the commit gate, and the start of a quiesce (R370, R444–R456). -/

namespace Sys2Proof.Machine

/-- Recipients of an integrity event of a partition (R464). -/
def State.igTo (s : State) (p b : Nat) : List Nat :=
  let o := s.ownerOf p
  if b = 2 ∨ b = 3 ∨ b = 9 ∨ b = 5 then [o, 0] else [o]

/-- Integrity events written each time they are raised (R464). -/
def igEach (b : Nat) : Bool := [2, 4, 5, 7, 8, 9, 12].contains b

/-- One more raise of a per-partition bit in the partition's own view (R464). -/
def State.igCount (s : State) (p b : Nat) : State :=
  s.modIg p fun g => { g with raises := g.raises.put b (sat 0xFFFF (g.raises.get 0 b + 1)) }

/-- An integrity event of a partition, whose owner's record counts only the partition's own raises (R464). -/
def State.igEvent (s : State) (p b : Nat) (err : Option ErrRec := none) (st : Status := .ok) : State :=
  let s := s.igCount p b
  s.raise Pg.ig b
    { status := st, part := some p, dests := some (s.igTo p b), onChange := !igEach b, own := some ((s.ig p).raises.get 0 b)
      err := err.map fun e => (e, [s.ownerOf p]) }

/-- Suspects added to the run of a partition, saturating at 2^31 − 1 (R450). -/
def State.addSuspect (s : State) (p n : Nat) : State :=
  s.modIg p fun g => { g with suspects := sat 0x7FFFFFFF (g.suspects + n) }

/-- Classes of Mace tests: arrays 1, Blend 2, quantisation 4, attention 8, sequencer 16, vector 32. -/
def allClasses : Nat := 63

/-- A slice becomes suspect: classification passes are set up for the implicated classes (R454). -/
def State.suspectSlice (s : State) (k classes : Nat) : State :=
  let n := max 1 (s.fld (Pg.ig + 0x108) 16 4)
  let c := s.screens.get {} k
  { s with suspect := s.suspect ||| 2 ^ k
           screens := s.screens.put k { c with passes := if c.passes = 0 then n else c.passes, classes := c.classes ||| classes } }

/-- A partition is brought to rest: it becomes QUIESCING with a cause, and its cadence slot is disabled (R370). -/
def State.beginQuiesce (s : State) (p cause : Nat) : State :=
  if (s.part p).mode = .active then
    let s := s.modPart p fun q =>
      { q with mode := .quiescing, cause := cause, changeCt := s.ct, qClk := s.clk, workClk := none
               slotOn := s.slotEnabled p, stopped := false }
    let old := s.done
    if s.slotEnabled p then (s.slotCfgWrite p (setBits (s.reg (Pg.slot p)) 0 1 0)).ends old else s
  else s

/-! ### Twins (R445) -/

/-- The registers of a slice that hold configuration, by offset from the slice's first page, with their values. -/
def State.cfgRegs (s : State) (k : Nat) : List (Nat × Word) :=
  (s.regs.items.filter fun e =>
    let a := e.1 % 2 ^ 32
    decide (Pg.slice k ≤ a) && decide (a < 0x10000 + Pg.slice k)
      && (match pageOf a with
        | .vec _ => decide (0x130 ≤ a % 0x1000)
        | .qnt _ => (decide (0x110 ≤ a % 0x1000) && decide (a % 0x1000 < 0x140)) || a % 0x1000 == 0x150
        | .att _ => decide (0x140 ≤ a % 0x1000) && decide (a % 0x1000 < 0x180)
        | _ => false)
      && vote e.2 != resetVal e.1).map fun e => (e.1 - Pg.slice k, vote e.2)

/-- The check entries of a slice. -/
def State.chkWords (s : State) (k : Nat) : List Word :=
  (List.range 96).map fun i => s.reg (keyAt (Pg.ig + 0x808 + 8 * (i % 3)) (k + 16 * (i / 3)))

/-- What is listed of a slice's expansion store. -/
def State.xstoreCells (s : State) (k : Nat) : List (Nat × Byte) :=
  let b := Space.xstore.key (2 ^ 19 * k)
  (s.mem.filter fun c => decide (b ≤ c.1) && decide (c.1 < 2 ^ 19 + b)).map fun c => (c.1 - b, c.2)

/-- Two slices hold the same configuration. The unit's CRC-64 is taken to tell any two configurations apart (DEDUCED, log entry
23). -/
def State.sameConfig (s : State) (a b : Nat) : Bool :=
  let rel {α : Type} (t : Tab α) (n k : Nat) : List (Nat × α) :=
    (t.items.filter fun e => e.1 / n == k).map fun e => (e.1 % n, e.2)
  (s.seq a).pm.items.filter (fun e => e.2 != 0) == (s.seq b).pm.items.filter (fun e => e.2 != 0)
    && (rel s.clove 2048 a).filter (fun e => e.2 != 0) == (rel s.clove 2048 b).filter (fun e => e.2 != 0)
    && s.cfgRegs a == s.cfgRegs b
    && rel s.attCfg 8 a == rel s.attCfg 8 b
    && ((rel s.regions 16 a).map fun e => (e.1, e.2.en, e.2.producer, e.2.base, e.2.tiles))
        == ((rel s.regions 16 b).map fun e => (e.1, e.2.en, e.2.producer, e.2.base, e.2.tiles))
    && s.chkWords a == s.chkWords b
    && s.xstoreCells a == s.xstoreCells b

/-- Pairs of primary and twin of a partition. -/
def State.pairs (s : State) (p : Nat) : List (Nat × Nat) := (s.slicesOf p).zip (s.twinsOf p)

/-- Some pair of a partition differs in its configuration (R445). -/
def State.pairsDiffer (s : State) (p : Nat) : Bool := (s.pairs p).any fun q => !s.sameConfig q.1 q.2

/-- At a step start every pair that differs raises TWIN_DIVERGE; in PAIRED the step is then suspect (R445). -/
def State.twinCheck (s : State) (p : Nat) : State :=
  if s.igMode p = 0 then s
  else (s.pairs p).foldl (fun s q =>
    if s.sameConfig q.1 q.2 then s
    else
      let s := s.igEvent p 11
      if s.igMode p = 2 then s.addSuspect p 1 else s) s

/-! ### The gate (R450, R452) -/

/-- `RUN_MAX`: values outside 2–7 are treated as 3. -/
def State.runMax (s : State) (p : Nat) : Nat :=
  let n := s.fld (Pg.ig + 0x400 + 0x40 * p) 3 3
  if 2 ≤ n then n else 3

/-- Words 0 and 1 of the verdict the gate reads, the group's where `GROUP` is set (R450). -/
def State.verdict (s : State) (p : Nat) : Nat × Nat :=
  let b := Pg.ig + 0x400 + 0x40 * p
  let a := if s.fld b 2 1 = 1 then s.fld (b + 0x20) 0 64 else s.fld (b + 0x18) 0 64
  match s.eaPart p a with
  | some e => (s.eaNat e 4, s.eaNat (e.plus 4) 4)
  | none => (0, 0)

/-- A batch dropped without a commit: CANCELs that waited on it act now (R311; DESIGN CHOICE, log entry 24). -/
def State.dropBatch (s : State) (p : Nat) : State :=
  match (s.sv p).batch with
  | none => s
  | some b =>
    let s := s.modSv p fun v => { v with batch := none, stage9 := false, commit := none }
    b.items.foldl (fun s i => if (s.req i.req).cancel then s.endReq p i.req .done .superseded else s) s

/-- A run is withheld: the batch is run again, or at `RUN_MAX` the partition quiesces with cause 11 (R452). -/
def State.withholdRun (s : State) (p : Nat) : State :=
  let r := (s.part p).run
  let s := s.bump (Pg.ig + 0x120) 1
  let s := s.modIg p fun g => { g with withheld := sat 0xFFFF (g.withheld + 1) }
  if r + 1 < s.runMax p then
    (s.igEvent p 1).modPart p fun q => { q with run := r + 1, replay := true }
  else
    let s := s.igEvent p 9 (some { type := 0x0042, sev := 3, step := (s.slot p).step % 2 ^ 32 }) .replayMismatch
    let s := (s.dropBatch p).modPart p fun q => { q with run := 0, replay := false }
    s.beginQuiesce p 11

/-- A replay on twins that differ from their primaries is refused, and counts as a withheld run (R445). -/
def State.replayRefused (s : State) (p : Nat) : Bool :=
  s.igMode p == 1 && (s.part p).replay && (s.part p).run % 2 == 1 && s.pairsDiffer p

end Sys2Proof.Machine
end

