-- ==== Sys2Proof/Machine/Form.lean ====
section
/-! DEFINITION. Stage 0: deadlines of waiting entries, admission, page allocation, batch formation and the batch area
(R314–R327, R335, R349, R448). -/

namespace Sys2Proof.Machine

/-- A list in the order of a comparison; equal elements keep their order. -/
def insertBy {α : Type} (lt : α → α → Bool) (x : α) : List α → List α
  | [] => [x]
  | y :: l => if lt x y then x :: y :: l else y :: insertBy lt x l

/-- A list sorted by a comparison. -/
def sortBy {α : Type} (lt : α → α → Bool) (l : List α) : List α := l.foldr (fun x a => insertBy lt x a) []

/-! ### Deadlines (R326, R327) -/

/-- The effective deadline of an entry (R326). -/
def ReqEntry.deadline (e : ReqEntry) : Option Nat :=
  let ts := if e.emitted then [e.fld 96 8, if e.fld 84 4 = 0 then 0 else e.lastCt + e.fld 84 4] else [e.fld 88 8]
  (ts.filter (· != 0)).foldl (fun (b : Option Nat) t => some (match b with | none => t | some u => min t u)) none

/-- An entry's effective deadline has passed at CT `t`. -/
def ReqEntry.passed (e : ReqEntry) (t : Nat) : Bool := match e.deadline with | some d => decide (d < t) | none => false

/-- A deadline before another; none comes after every one. -/
def deadlineLt (a b : Option Nat) : Bool :=
  match a, b with
  | some x, some y => decide (x < y)
  | some _, none => true
  | none, _ => false

/-- DEADLINE_MISS: a waiting entry past its deadline ends, or is marked late once (R327). -/
def State.lateWaiting (s : State) (p r : Nat) : State :=
  let e := s.req r
  let waits := e.mode == .queued || e.mode == .stalled || e.mode == .parked
  if !waits || !e.passed s.ct then s
  else if e.onLate then s.endReq p r .done .deadline
  else if e.lateSeen then s
  else (s.modReq r fun e => { e with lateSeen := true }).svEvent p 4 .deadline

/-! ### Copies and husk jobs (R298, R299, R335) -/

/-- A freed page goes to the stalled request that has first claim on it, unless its frame holds a stale row (R322, R324). -/
def State.claimPage (s : State) (p n : Nat) : Option Nat → State
  | none => s
  | some c =>
    let e := s.req c
    if e.mode = .stalled ∧ e.stall = 1 ∧ (s.sv p).held.get 0 n = 0 ∧ !s.pageStale p n then
      let s := s.modSv p fun v => { v with held := v.held.put n 1, table := v.table.filter fun x => x.page != n }
      let q := s.writePageEnt c e.pages.length n
      if q.2 = .ok then q.1 else q.1.endReq p c .failed q.2
    else s

/-- SPILL_SWITCH: a completed copy's page-list entry is rewritten, and only then is the page it left freed; an abandoned copy
leaves the page where it was (R298, R299). -/
def State.switchCopy (s : State) (p : Nat) (c : PageCopy) : State :=
  let src := if c.back then 2 ^ 31 + c.src else c.src
  let dst := if c.back then c.dst else 2 ^ 31 + c.dst
  if c.bad then s.dropPage p dst
  else
    let q := s.writePageEnt c.req c.index dst
    let s := q.1.bump (keyAt (Pg.bulk + (if c.back then 0x188 else 0x180)) p) 1
    let s := s.dropPage p src
    let s := if c.back then s else s.claimPage p c.src c.claim
    if q.2 = .ok then s else s.endReq p c.req .failed q.2

/-- Every completed copy of a partition switched. -/
def State.switchCopies (s : State) (p : Nat) : State :=
  let ready := s.bulk.copies.filter fun c => c.part == p && c.finished
  let s := s.modBulk fun b => { b with copies := b.copies.filter fun c => !(c.part == p && c.finished) }
  ready.foldl (fun s c => s.switchCopy p c) s

/-- HUSK_JOB_APPLY: the outcome of a HUSK job of the last committed batch (R335). -/
def State.huskApply (s : State) (p : Nat) (j : HuskJob) : State :=
  if j.kind ≠ 1 ∨ !(s.req j.req).huskPend then s
  else if j.status = 0 then
    let s := s.devPut j.addr (toLe 4 j.hpos)
    let s := s.dropPages p j.req
    let ct := (s.sv p).jobCt
    s.modReq j.req fun e =>
      { e with huskPend := false, expiry := ct + usTicks * (e.ttl * 1000) }
  else (s.freeReqEntry p j.req).retainEvent p 4

/-- The jobs of the last committed batch applied. -/
def State.huskApplyAll (s : State) (p : Nat) : State :=
  let js := (s.sv p).jobsDone
  js.foldl (fun s j => s.huskApply p j) (s.modSv p fun v => { v with jobsDone := [] })

/-- A husk slot for a pending husk, retained entries making room while one is left (R303). -/
def State.huskRoom (s : State) (p r : Nat) : Nat → State × Option Nat
  | 0 => (s, s.pickHusk p)
  | fuel + 1 =>
    match s.pickHusk p with
    | some i => (s, some i)
    | none => match s.evictRetained p r with
      | some s => s.huskRoom p r fuel
      | none => (s, none)

/-- A pending husk gets its slot; with none to be had the request ends FREE and RETAIN_FAIL is raised (R301, R335). -/
def State.huskSlot (s : State) (p r : Nat) : State :=
  if (s.req r).husk.isSome then s
  else
    let q := s.huskRoom p r (s.tcount p)
    match q.2 with
    | some i => (q.1.modSv p fun v => { v with husks := i :: v.husks }).modReq r fun e => { e with husk := some i }
    | none => (q.1.freeReqEntry p r).retainEvent p 4

/-! ### The batch being formed -/

/-- A batch under formation (R320). -/
structure Form where
  dec : List BItem := []
  chunks : List BItem := []
  admitted : Nat := 0
  deriving DecidableEq, Repr

/-- Its entries in sequence-table order. -/
def Form.items (f : Form) : List BItem := f.dec ++ f.chunks

/-- Rows of a list of entries. -/
def rowsOf (l : List BItem) : Nat := l.foldl (fun n i => n + i.n) 0

/-- The predicted time T̂ of a batch (R319). -/
def State.predict (s : State) (p : Nat) (l : List BItem) : Int :=
  let c0 := s.svFld p 0x28 0 32
  let c1 := s.svFld p 0x28 32 32
  let c2 := s.svFld p 0x30 0 32
  let c3 := s.svFld p 0x30 32 32
  let kr := l.foldl (fun n i => n + i.first + i.n) 0
  ((c0 + (c1 * l.length + c2 * rowsOf l + c3 * ceilDiv kr 1024) / 256 : Nat) : Int) + (s.sv p).corr

/-- T̂ of a batch is within the budget. -/
def State.inBudget (s : State) (p : Nat) (l : List BItem) : Bool := decide (s.predict p l ≤ (Config.svTbudget p : Int))

/-- Free pages that may be given out: those with a stale frame do not count (R322). -/
def State.usablePages (s : State) (p : Nat) : Nat :=
  if s.staleRows = 0 then s.freePages p
  else s.freePages p - ((List.range (s.stackPages p)).filter fun n => (s.sv p).held.get 0 n == 0 && s.pageStale p n).length

/-- `n` free pages appended to a request's list. A write of the list that fails ends the request (R312). -/
def State.allocPages (s : State) (p r : Nat) : Nat → State
  | 0 => s
  | n + 1 =>
    if (s.req r).mode = .failed then s
    else match s.takePage p with
      | none => s
      | some (s, w) =>
        let q := s.writePageEnt r (s.req r).pages.length w
        if q.2 = .ok then q.1.allocPages p r n else (q.1.endReq p r .failed q.2).allocPages p r n

/-! ### Admission (R318, R327) -/

/-- Pages that remain to be allocated, `h` being found by lookup (R318). -/
def State.needPages (s : State) (p r h : Nat) : Nat :=
  let e := s.req r
  let ring := s.ringPages r
  if e.mode = .parked ∧ !e.recomp then b2n (e.len == e.pages.length * s.svP p)
  else if ring ≠ 0 then ring - e.pages.length
  else ceilDiv (e.target + s.svFld p 0x20 32 24) (s.svP p) - e.pages.length - h

/-- The entry an admission is tested with (R318). -/
def State.trialItem (s : State) (p r h : Nat) : BItem :=
  let e := s.req r
  let first := e.len + h * s.svP p
  if e.mode = .parked ∧ !e.recomp then { req := r, chunk := false, first := first, n := 1 }
  else { req := r, chunk := true, first := first, n := min (e.target - first) 32 }

/-- The test of R318 for a waiting entry, with the strict deadline of R327: it may be admitted, waits with ADMIT as its deferral
cause, or ends. -/
def State.admitTest (s : State) (p r : Nat) (f : Form) (h : Nat) : State × Bool :=
  let e := s.req r
  let res := s.svFld p 0x20 0 32
  let need := s.needPages p r h
  if s.stackPages p < need + res then
    ((s.endReq p r .failed .admission).svEvent p 2 .admission, false)
  else if s.svFld p 0x18 0 15 ≤ f.admitted ∨ s.freePages p < need + res
      ∨ !s.inBudget p (f.items ++ [s.trialItem p r h]) then
    (s.modReq r fun e => { e with status := statusCode .admission }, false)
  else if e.mode = .queued ∧ e.strict ∧ e.fld 88 8 ≠ 0
      ∧ e.fld 88 8 < s.ct + s.slotSpan p * ceilDiv (e.target - h * s.svP p) (max 1 (s.svFld p 0x18 16 16)) then
    (s.endReq p r .done .deadline, false)
  else (s, true)

/-! ### Decode entries (R320, R323, R324, R349) -/

/-- `DCUR` held within `FLOOR` and `CEIL`, at `FLOOR` while pinned (R351). -/
def clampDraft (draft d : Nat) : Nat :=
  if nbits draft 10 1 = 1 then nbits draft 2 4 else max (nbits draft 2 4) (min (nbits draft 6 4) d)

/-- The draft table's entry of a MODEL request: its drafts, or none and DRAFT_STALE (R349). -/
def State.modelDrafts (s : State) (p r : Nat) : State × List Nat :=
  let tab := (s.sv p).pepDtab
  if !bit tab 63 then (s, [])
  else
    let q := s.devRead (bits tab 0 52 + 64 * (r - s.tbase p)) 40
    let b := q.2.1
    if q.2.2 = .ok ∧ field b 2 2 = (s.req r).incarn ∧ field b 4 3 = (s.req r).ntok then
      (q.1, (List.range (min 8 (field b 0 1 % 16))).map fun i => field b (8 + 4 * i) 4)
    else (q.1.pepEvent p 3, [])

/-- `DCUR` of an entry that is not over is clamped at each stage 0 (R351). -/
def State.clampDcur (s : State) (r : Nat) : State :=
  let e := s.req r
  let d := clampDraft e.draft (s.dcur r)
  if [ReqMode.free, .retained, .done, .failed].contains e.mode || d == s.dcur r then s else s.devPut (e.samp + 48) (toLe 1 d)

/-- drafts(r) of R320: of the drafts offered, as many as `DCUR` and the entry's room allow (R349). -/
def State.draftsOf (s : State) (p r : Nat) : State × List Nat :=
  let e := s.req r
  let d := clampDraft e.draft (s.dcur r)
  let vocab := bits (s.sv p).pepCfg 0 19
  let q := match nbits e.draft 0 2 with
    | 1 => s.modelDrafts p r
    | 2 => (s, e.lookup)
    | _ => (s, [])
  (q.1, (q.2.takeWhile fun v => decide (v < vocab)).take (min d (e.maxlen - e.ntok - 1)))

/-- The coldest page that may be spilled to make room for a request: of entries of strictly lower priority and of PARKED ones
(R298, R324); ties beyond the list index go to the lower request (DESIGN CHOICE, log entry 20). -/
def State.coldPage (s : State) (p r : Nat) : Option (Nat × Nat) :=
  let cands := (s.reqsOf p).flatMap fun q =>
    let e := s.req q
    if q != r && (decide (e.prio < (s.req r).prio) || e.mode == .parked) then
      ((List.range e.pages.length).filter fun i => s.spillable p q i).map fun i =>
        (s.pageSeen.get 0 (s.stackPage p (e.pages.getD i 0) / 2048), i, q)
    else []
  (cands.foldl (fun (b : Option (Nat × Nat × Nat)) c => match b with
    | none => some c
    | some a => if c.1 < a.1 ∨ (c.1 = a.1 ∧ c.2.1 < a.2.1) then some c else some a) none).map fun c => (c.2.2, c.2.1)

/-- The entry a preemption takes: lowest priority, then latest deadline, then highest index (R324). -/
def State.preemptVictim (s : State) (p r : Nat) (f : Form) : Option Nat :=
  let cands := (s.reqsOf p).filter fun q =>
    let e := s.req q
    (e.mode == .decode || e.mode == .stalled) && decide (e.prio < (s.req r).prio) && !f.dec.any fun i => i.req == q
  cands.foldl (fun (b : Option Nat) q => match b with
    | none => some q
    | some a =>
      let x := s.req q
      let y := s.req a
      if x.prio < y.prio ∨ (x.prio = y.prio ∧ !deadlineLt x.deadline y.deadline) then some q else some a) none

/-- PREEMPT: a victim is parked for recompute; one whose first positions came from a husk cannot be rebuilt (R324, R325). -/
def State.preempt (s : State) (p v : Nat) : State :=
  let s := if (s.req v).hoff ≠ 0 then s.endReq p v .failed .poison
    else (s.dropPages p v).modReq v fun e =>
      { e with mode := .parked, status := 0, stall := 0, recomp := true, len := 0, priv := 0 }
  s.svEvent p 1

/-- Victims preempted until a page is free or none remains (R324). -/
def State.preemptAll (s : State) (p r : Nat) (f : Form) : Nat → State × Form
  | 0 => (s, f)
  | n + 1 =>
    if 0 < s.usablePages p then (s, f)
    else match s.preemptVictim p r f with
      | some v => (s.preempt p v).preemptAll p r { f with admitted := f.admitted - 1 } n
      | none => (s, f)

/-- An entry left out of the step for want of a page (R324). -/
def State.stallReq (s : State) (p r stall : Nat) : State :=
  let s := s.modReq r fun e => { e with mode := .stalled, stall := stall, status := if stall = 2 then statusCode .nopage else 0 }
  if stall = 2 then s.svEvent p 0 .nopage else s

/-- The page-exhaustion order for an entry whose next position falls on a new page while none is free (R324). -/
def State.exhaust (s : State) (p r : Nat) (f : Form) : State × Form :=
  if s.bulk.copies.any fun c => c.part == p && c.claim == some r then (s.stallReq p r 1, f)
  else if 0 < s.freeBulk p then
    match (s.coldPage p r).bind fun v => s.startSpill p v.1 v.2 (some r) with
    | some s => (s.stallReq p r 1, f)
    | none => (s.stallReq p r 2, f)
  else
    let q := s.preemptAll p r f (s.tcount p)
    if 0 < q.1.usablePages p then q else (q.1.stallReq p r 2, q.2)

/-- pages(r, nq) of R320: the positions of the step that have pages (R323). -/
def State.decodePages (s : State) (p r : Nat) (f : Form) (nq : Nat) : State × Form × Nat :=
  let e := s.req r
  let P := s.svP p
  let need := ceilDiv (e.len + nq) P - e.pages.length
  let done (s : State) (f : Form) (n : Nat) := (s, f, if (s.req r).mode = .failed then 0 else n)
  if s.ringPages r ≠ 0 ∨ need = 0 then (s, f, nq)
  else if need ≤ s.usablePages p then done (s.allocPages p r need) f nq
  else if e.len < e.pages.length * P then (s, f, min nq (e.pages.length * P - e.len))
  else if 0 < s.usablePages p then
    let n := s.usablePages p
    done (s.allocPages p r n) f (min nq (n * P))
  else
    let q := s.exhaust p r f
    if 0 < q.1.usablePages p then
      let n := min need (q.1.usablePages p)
      done (q.1.allocPages p r n) q.2 (min nq (n * P))
    else (q.1, q.2, 0)

/-- One decode-ready entry served (R320). -/
def State.serveDecode (s : State) (p : Nat) (f : Form) (r : Nat) : State × Form :=
  let e := s.req r
  let bl := s.svFld p 0x18 0 15
  let qm := s.svFld p 0x18 16 16
  if e.mode ≠ .decode ∧ e.mode ≠ .stalled ∧ !(e.mode = .parked ∧ !e.recomp) then (s, f)
  else if bl ≤ f.dec.length ∨ qm ≤ rowsOf f.dec then (s.svEvent p 5, f)
  else
    let a := if e.mode = .parked then s.admitTest p r f 0 else (s, true)
    -- an entry that is parked stays so where the one page it needs is not to be given out (R312, R322)
    let wait := e.mode == .parked && e.len == e.pages.length * s.svP p && s.ringPages r == 0 && s.usablePages p == 0
    if !a.2 then (a.1, f)
    else if wait then (a.1.modReq r fun e => { e with status := statusCode .admission }, f)
    else
      let parked := e.mode == .parked
      let d := a.1.draftsOf p r
      let nq := min (1 + d.2.length) (qm - rowsOf f.dec)
      let q := d.1.decodePages p r { f with admitted := f.admitted + b2n parked } nq
      if q.2.2 = 0 then (q.1, { q.2.1 with admitted := q.2.1.admitted - b2n ((q.1.req r).mode == .failed) })
      else
        let s := q.1.modReq r fun e => { e with mode := .decode, stall := 0, status := 0 }
        (s, { q.2.1 with dec := q.2.1.dec ++ [{ req := r, chunk := false, first := (s.req r).len, n := q.2.2
                                                drafts := d.2.take (q.2.2 - 1), sample := true }] })

/-- The order of decode-ready entries (R320). -/
def State.decodeBefore (s : State) (a b : Nat) : Bool :=
  let x := s.req a
  let y := s.req b
  if x.prio ≠ y.prio then decide (y.prio < x.prio)
  else if x.deadline ≠ y.deadline then deadlineLt x.deadline y.deadline
  else if x.lastCt ≠ y.lastCt then decide (x.lastCt < y.lastCt)
  else decide (a < b)

/-! ### Chunks (R320, R321) -/

/-- Whether a chunk of a request may grow by `n` (R321): `base` is the batch without it, `have'` the pages it has, `free` those
that may be given out. -/
def State.growOk (s : State) (p r : Nat) (base : List BItem) (it : BItem) (have' free n : Nat) : Bool :=
  let e := s.req r
  let ring := s.ringPages r
  let need := (if ring ≠ 0 then ring else ceilDiv (it.first + it.n + n) (s.svP p)) - have'
  decide (0 < n) && ((it.n + n) % 32 == 0 || it.first + it.n + n == e.target)
    && (need == 0 || decide (need + s.svFld p 0x20 0 32 ≤ free))
    && s.inBudget p (base ++ [{ it with n := it.n + n }])

/-- The largest growth (R321). -/
def State.growMax (s : State) (p r : Nat) (base : List BItem) (it : BItem) (have' free d rows : Nat) : Nat :=
  let hi := min d (min rows ((s.req r).target - it.first - it.n))
  (findDown (s.growOk p r base it have' free) (hi + 1)).getD 0

/-- A chunk grows: its pages are allocated, and it stands in the batch with its new length. An entry that fails over its page list is no
longer admitted (R318). -/
def State.growTo (s : State) (p r : Nat) (f : Form) (it : BItem) (n : Nat) : State × Form × Nat :=
  let ring := s.ringPages r
  let need := (if ring ≠ 0 then ring else ceilDiv (it.first + it.n + n) (s.svP p)) - (s.req r).pages.length
  let s := s.allocPages p r need
  if (s.req r).mode = .failed then (s, { f with chunks := f.chunks.filter fun i => i.req != r, admitted := f.admitted - 1 }, 0)
  else
    let e := s.req r
    let it' := { it with n := it.n + n, sample := it.first + it.n + n == e.target && !e.recomp }
    let chunks := if f.chunks.any fun i => i.req == r then f.chunks.map fun i => if i.req = r then it' else i
      else f.chunks ++ [it']
    (s, { f with chunks := chunks }, n)

/-- A waiting entry is admitted with its first chunk: its prefix hits join it, prompt tokens are counted where asked (R318, R333,
R344). -/
def State.admitReq (s : State) (p r : Nat) (hits : List Nat × Bool) : State :=
  let s := hits.1.foldl (fun s n => s.takeHit p r n) s
  let s := if hits.2 then s.svEvent p 7 else s
  if (s.req r).mode = .failed then s
  else
    let was := (s.req r).mode
    let e := s.req r
    let s := s.modReq r fun e => { e with mode := .prefill, status := 0 }
    -- prompt tokens are counted once, at the admission of a new request
    if was = .queued ∧ e.counts.isEmpty ∧ field (s.devPeek (e.samp + 14) 1) 0 1 / 2 % 2 = 1 then
      s.countToks p r (s.histToks r 0 e.ntok).1
    else s

/-- grow(r, d, rows) of R320, which admits a waiting entry first (R321). -/
def State.grow (s : State) (p : Nat) (f : Form) (r d rows : Nat) : State × Form × Nat :=
  let e := s.req r
  match f.chunks.find? fun i => i.req == r with
  | some it =>
    let base := f.dec ++ f.chunks.filter fun i => i.req != r
    let n := s.growMax p r base it e.pages.length (s.usablePages p) d rows
    if n = 0 then (s, f, 0) else s.growTo p r f it n
  | none =>
    let jobs := (f.chunks.filter fun i => (s.req i.req).restore).length
    if 256 ≤ f.chunks.length ∨ (e.restore ∧ 64 ≤ jobs) then (s, f, 0)
    else if e.mode = .prefill then
      let it : BItem := { req := r, chunk := true, first := e.len, n := 0 }
      let n := s.growMax p r f.items it e.pages.length (s.usablePages p) d rows
      if n = 0 then (s, f, 0) else s.growTo p r f it n
    else if e.mode = .queued ∨ (e.mode = .parked ∧ e.recomp) then
      let hits := s.pfxHits p r
      let a := s.admitTest p r f hits.1.length
      if !a.2 then (a.1, f, 0)
      else
        let it : BItem := { req := r, chunk := true, first := e.len + hits.1.length * s.svP p, n := 0 }
        let taken := (hits.1.filter fun n => (s.sv p).held.get 0 n == 0).length
        let n := s.growMax p r f.items it (e.pages.length + hits.1.length) (s.usablePages p - taken) d rows
        if n = 0 then (s, f, 0)
        else
          let s := s.admitReq p r hits
          if (s.req r).mode = .failed then (s, f, 0)
          else s.growTo p r { f with admitted := f.admitted + 1 } it n
    else (s, f, 0)

/-- The turn of one tenant class in a round: entries in order, until one does not grow (R320). Answers the rows left and how
much was added. -/
def State.classTurn (s : State) (p c : Nat) : List Nat → Form → Nat → Nat → State × Form × Nat × Nat
  | [], f, rows, added => (s, f, rows, added)
  | r :: rs, f, rows, added =>
    let q := s.grow p f r ((s.sv p).deficit.get 0 c) rows
    if q.2.2 = 0 then (q.1, q.2.1, rows, added)
    else
      let n := q.2.2
      let s := q.1.modSv p fun v => { v with deficit := v.deficit.put c (v.deficit.get 0 c - n) }
      s.classTurn p c rs q.2.1 (rows - n) (added + n)

/-- Weight of a tenant class: 0 is read as 1. -/
def State.classWeight (s : State) (c : Nat) : Nat := max 1 (s.fld (Pg.sv + 0x180 + 8 * (c / 8)) (8 * (c % 8)) 8)

/-- An entry that waits for prefill: in PREFILL, queued, or parked for recompute (R320). -/
def ReqEntry.prefills (e : ReqEntry) : Bool := e.mode == .prefill || e.mode == .queued || (e.mode == .parked && e.recomp)

/-- One round of the deficit round robin over the classes; an entry that has ended since is no longer of its class (R320). -/
def State.chunkRound (s : State) (p : Nat) (waiting : Nat → List Nat) (f : Form) (rows : Nat) : State × Form × Nat × Nat :=
  (List.range 64).foldl (fun (acc : State × Form × Nat × Nat) i =>
    let s := acc.1
    let c := ((s.sv p).ptr + i) % 64
    let rs := (waiting c).filter fun r => (s.req r).prefills
    if rs.isEmpty then (s.modSv p fun v => { v with deficit := v.deficit.put c 0 }, acc.2)
    else
      let s := s.modSv p fun v =>
        { v with deficit := v.deficit.put c (min (v.deficit.get 0 c + s.classWeight c * s.svFld p 0x18 32 16) (2 ^ 24 - 1)) }
      s.classTurn p c rs acc.2.1 acc.2.2.1 acc.2.2.2) (s, f, rows, 0)

/-- Up to four rounds, until one adds nothing (R320). -/
def State.chunkRounds (s : State) (p : Nat) (waiting : Nat → List Nat) : Nat → Form → Nat → State × Form
  | 0, f, _ => (s, f)
  | n + 1, f, rows =>
    let q := s.chunkRound p waiting f rows
    if q.2.2.2 = 0 then (q.1, q.2.1) else q.1.chunkRounds p waiting n q.2.1 q.2.2.1

/-- Batch formation (R320). -/
def State.formBatch (s : State) (p : Nat) : State × Form :=
  let all := s.reqsOf p
  let ready := sortBy s.decodeBefore (all.filter fun r =>
    let e := s.req r
    e.mode == .decode || e.mode == .stalled || (e.mode == .parked && !e.recomp))
  let pre := all.filter fun r => (s.req r).mode == .prefill
  let wait := sortBy (fun a b =>
      let x := s.req a
      let y := s.req b
      decide (y.prio < x.prio) || (x.prio == y.prio && decide (x.order < y.order)))
    (all.filter fun r => (s.req r).mode == .queued || ((s.req r).mode == .parked && (s.req r).recomp))
  let cls := fun c => (pre ++ wait).filter fun r => (s.req r).tclass == c
  let waiting : List (List Nat) := (List.range 64).map cls
  let admitted := (all.filter fun r =>
    let m := (s.req r).mode
    m == .prefill || m == .decode || m == .stalled).length
  let q := ready.foldl (fun (acc : State × Form) r => acc.1.serveDecode p acc.2 r) (s, { admitted := admitted })
  let rows := s.svFld p 0x18 16 16 - rowsOf q.2.dec
  let c := q.1.chunkRounds p (fun i => waiting.getD i []) 4 q.2 rows
  (c.1.modSv p fun v => { v with ptr := (v.ptr + 1) % 64 }, c.2)

/-! ### Returns of spilled pages (R299) -/

/-- Copies back to the stack pool begun at this stage 0, highest priority first. -/
def State.startReturns (s : State) (p : Nat) : State :=
  let c := s.reg (keyAt (Pg.bulk + 0x170) p)
  if !bit c 0 || !s.ident.bulk then s
  else
    let reqs := sortBy (fun a b => decide ((s.req b).prio < (s.req a).prio))
      ((s.reqsOf p).filter fun r => (s.req r).mode == .decode)
    let cands := (reqs.flatMap fun r =>
      ((List.range (s.req r).pages.length).filter fun i =>
        inBulkPool ((s.req r).pages.getD i 0) && !s.bulk.copies.any fun x => x.part == p && x.req == r && x.index == i).map
          fun i => (r, i)).take (bits c 32 16)
    cands.foldl (fun s q =>
      if s.freePages p ≤ bits c 16 16 then s
      else match s.takePage p with
        | none => s
        | some (s, n) => s.modBulk fun b =>
          { b with copies := b.copies ++ [{ part := p, req := q.1, index := q.2, back := true
                                            src := (s.req q.1).pages.getD q.2 0 % 2 ^ 31, dst := n }] }) s

/-! ### The batch area (R316) -/

/-- A sequence entry as stage 0 writes it; the fields that belong to the model's own program are zero (DESIGN CHOICE, log entry
26). -/
def State.seqEntry (s : State) (r nq first : Nat) : List Byte :=
  let e := s.req r
  let ring := s.ringPages r
  toLe 8 e.plist ++ toLe 4 e.pages.length ++ toLe 4 first ++ toLe 1 nq ++ toLe 1 (b2n (ring != 0)) ++ toLe 2 ring
    ++ toLe 4 e.priv ++ zeros 36 ++ toLe 2 r ++ zeros 2

/-- A row-table entry. -/
def batchRow (tok pos : Nat) (draft sample : Bool) : List Byte :=
  toLe 4 tok ++ toLe 4 (pos % 2 ^ 24 + 2 ^ 24 * b2n draft + 2 ^ 25 * b2n sample)

/-- The rows of an entry, with the status of the history read. -/
def State.itemRows (s : State) (i : BItem) : List Byte × Status :=
  let e := s.req i.req
  if i.chunk then
    let q := s.histToks i.req (i.first + e.hoff) i.n
    ((List.range i.n).flatMap fun j => batchRow (q.1.getD j 0) (i.first + j) false (i.sample && j + 1 == i.n), q.2)
  else
    let q := s.histToks i.req (e.ntok - 1) 1
    (batchRow (q.1.getD 0 0) i.first false true
      ++ ((List.range (i.n - 1)).flatMap fun j => batchRow (i.drafts.getD j 0) (i.first + j + 1) true true), q.2)

/-- A job-table entry. -/
def HuskJob.bytes (j : HuskJob) : List Byte :=
  toLe 2 j.req ++ toLe 1 j.kind ++ toLe 1 j.status ++ toLe 4 j.hpos ++ toLe 8 j.addr ++ toLe 4 j.seqIx ++ zeros 12

/-- Offsets of the tables of a batch area: rows, chunks, jobs (R316). -/
def State.areaOffs (s : State) (p : Nat) : Nat × Nat × Nat :=
  let z := 64 + 64 * (s.svFld p 0x18 0 15 + 256)
  let c := z + 8 * s.svFld p 0x18 16 16
  (z, c, c + 4096)

/-- Bytes of a partition's batch area. -/
def State.areaBytes (s : State) (p : Nat) : Nat := (s.areaOffs p).2.2 + 2048

/-- The slices that hold the batch area in the present run. -/
def State.areaSlices (s : State) (p : Nat) : List Nat :=
  (maskList 16 (s.svFld p 0x48 32 16)).filterMap fun i => s.absSlice p i

/-- Bytes of the batch area written to every slice of the mask. -/
def State.areaPut (s : State) (p off : Nat) (bs : List Byte) : State :=
  (s.areaSlices p).foldl (fun s k => s.eaPutBoth { acc := false, slice := k, off := s.svFld p 0x48 0 24 + off } bs) s

/-- Bytes of the batch area in the lowest slice of the mask (R317). -/
def State.areaGet (s : State) (p off n : Nat) : List Byte :=
  match s.areaSlices p with
  | k :: _ => s.eaRead { acc := false, slice := k, off := s.svFld p 0x48 0 24 + off } n
  | [] => zeros n

/-- The step number stage 0 forms a batch for: of the next mark where one has been accepted, of a step already begun, else the
one after the last (DEDUCED, log entry 27). -/
def State.formStep (s : State) (p : Nat) : Nat :=
  let sl := s.slot p
  if sl.busy then sl.step
  else match sl.marks with
    | m :: _ => m.1.step
    | [] => (sl.step + 1) % 2 ^ 48

/-- The jobs of a step: restores of its chunks, then pending husks, at most 64. A pending husk's sequence entry follows the
chunks' (DESIGN CHOICE, log entry 28). -/
def State.stepJobs (s : State) (p : Nat) (items : List BItem) : List HuskJob :=
  let restores := ((List.range items.length).filterMap fun ix =>
    match items[ix]? with
    | some i => if i.chunk && (s.req i.req).restore then
        some { req := i.req, kind := 2, hpos := (s.req i.req).len, addr := s.huskAddr p ((s.req i.req).husk.getD 0), seqIx := ix }
      else none
    | none => none)
  let room := min (64 - restores.length) (s.svFld p 0x18 0 15 + 256 - items.length)
  let husks := ((s.reqsOf p).filter fun r => (s.req r).huskPend).take room
  restores ++ (List.range husks.length).map fun j =>
    let r := husks.getD j 0
    { req := r, kind := 1, addr := s.huskAddr p ((s.req r).husk.getD 0), seqIx := items.length + j }

/-- The tables of a batch, by offset in the area, and the entries with what their reads and checks gave (R316, R346). -/
def State.layBatch (s : State) (p : Nat) (f : Form) : StepBatch :=
  let items := f.items.map fun i =>
    let st := s.sampCheck p (s.req i.req)
    let rd := (s.itemRows i).2
    { i with samp := s.devPeek (s.req i.req).samp 64
             bad := if st ≠ .ok then some .access else if rd ≠ .ok then some rd else none }
  let jobs := s.stepJobs p items
  let that := s.predict p items
  let o := s.areaOffs p
  let step := s.formStep p
  let seqs := (items.flatMap fun i => s.seqEntry i.req (if i.chunk then 1 else i.n) i.first)
    ++ (jobs.filter fun j => j.kind == 1).flatMap fun j => s.seqEntry j.req 1 (s.req j.req).len
  let head := toLe 8 step ++ toLe 4 f.dec.length ++ toLe 4 f.chunks.length ++ toLe 4 (rowsOf items) ++ toLe 4 jobs.length
    ++ toLe 4 (unsigned 32 that) ++ zeros 36
  let chunks := (List.range f.chunks.length).flatMap fun j =>
    match f.chunks[j]? with
    | some i => toLe 4 (f.dec.length + j) ++ toLe 4 i.first ++ toLe 4 i.n
        ++ toLe 4 (rowsOf (items.take (f.dec.length + j)))
    | none => []
  { step := step, items := items, jobs := jobs, that := that
    area := [(0, head), (64, seqs), (o.1, items.flatMap fun i => (s.itemRows i).1), (o.2.1, chunks)
            , (o.2.2, jobs.flatMap HuskJob.bytes)] }

/-- The batch area written, and READY signalled; late when the step's mark has already taken effect (R314). -/
def State.writeArea (s : State) (p : Nat) (b : StepBatch) : State :=
  let s := b.area.foldl (fun s q => s.areaPut p q.1 q.2) s
  let sl := s.slot p
  let late := sl.busy || sl.marks.any fun m => m.2
  let s := s.signal p (s.svFld p 0x50 0 15) 1
  if late then s.svEvent p 6 else s

/-- CORR moved into the bounds that have waited for this boundary (R319, R488). -/
def State.corrBounds (s : State) (p : Nat) : State :=
  s.modSv p fun v =>
    { v with oldStmb := none
             corr := if s.svFld p 0x40 32 1 = 1 then signed 32 (s.svFld p 0x38 0 32)
               else clampInt (signed 32 (s.svFld p 0x38 0 32)) (signed 32 (s.svFld p 0x38 32 32)) v.corr }

/-- Steps 1 to 4 of stage 0 (R314). -/
def State.freshStage0 (s : State) (p : Nat) : State :=
  let s := s.modPart p fun q => { q with run := 0, replay := false }
  let s := s.switchCopies p
  let s := (s.reqsOf p).foldl (fun s r => s.lateWaiting p r) s
  let s := s.huskApplyAll p
  let s := ((s.reqsOf p).filter fun r => (s.req r).huskPend).foldl (fun s r => s.huskSlot p r) s
  let s := (s.reqsOf p).foldl (fun s r => s.clampDcur r) s
  let q := s.formBatch p
  let s := q.1.startReturns p
  let b := s.layBatch p q.2
  (s.modSv p fun v => { v with batch := some b }).writeArea p b

/-- REPLAY_STAGE0: the withheld batch area is rewritten verbatim, with every job status 0xFF, and READY is signalled (R448). -/
def State.replayStage0 (s : State) (p : Nat) : State :=
  let s := if s.replayRefused p then s.withholdRun p else s
  if (s.part p).replay then
    match (s.sv p).batch with
    | some b => (s.modPart p fun q => { q with replay := false }).writeArea p b
    | none => s
  else s

/-- STAGE0 of a partition (R314): due once stage 9 of the step before has completed, or its slot was enabled. A HALTED slot
forms no batches (R338). Regions added since the stage 0 before are usable from here (R367). Every stage 0, that of a replay too, is a boundary for bounds that wait (R488). -/
def State.stage0 (s : State) (p : Nat) : State :=
  if !(s.sv p).stage0 || !s.slotEnabled p || (s.slot p).mode == .halted || (s.part p).mode != .active then s
  else
    let b := Pg.sv + 0x200 + 0x40 * p
    let s := s.modSv p fun v =>
      { v with stage0 := false, pepCfg := s.reg b, pepRes := s.reg (b + 8), pepDtab := s.reg (b + 0x10) }
    let s := { s with seqBad := s.seqBad.filter fun x => s.partOfSlice x.1 != some p }
    let s := s.modPep p fun q => { q with results := [] }
    let s := s.modPart p fun q => { q with fresh := [] }
    let s := s.corrBounds p
    if (s.part p).replay then s.replayStage0 p else s.freshStage0 p

end Sys2Proof.Machine
end

