-- ==== Sys2Proof/Machine/Pepper.lean ====
section
/-! DEFINITION. The Pepper sampler: logit delivery, candidates, penalties, the draw, verification of drafts and the result table
(R339–R350, R354, R358). -/

namespace Sys2Proof.Machine

/-- `VOCAB` in force. -/
def State.vocab (s : State) (p : Nat) : Nat := bits (s.sv p).pepCfg 0 19

/-- Kc of a partition (R342). -/
def State.candLimit (s : State) (p : Nat) : Nat := min 1024 (s.vocab p)

/-! ### The sampler block -/

/-- Fields of a sampler block (R346). -/
def sampTemp (b : List Byte) : Nat := field b 8 4
def sampTopk (b : List Byte) : Nat := field b 12 2
def sampPen (b : List Byte) : Bool := field b 14 1 % 2 == 1
def sampTopp (b : List Byte) : Nat := field b 16 4
def sampMinp (b : List Byte) : Nat := field b 20 4
def sampRep (b : List Byte) : Nat := field b 24 4
def sampPres (b : List Byte) : Nat := field b 28 4
def sampFreq (b : List Byte) : Nat := field b 32 4
def sampMinNew (b : List Byte) : Nat := field b 36 3
def sampGen (b : List Byte) : Nat := field b 52 3
/-- `TEMP` = 0. -/
def sampGreedy (b : List Byte) : Bool := isZero32 (sampTemp b)

/-- K_u of a row (R342). -/
def sampKeep (b : List Byte) (kc : Nat) : Nat :=
  if sampPen b then kc else if sampGreedy b then 1 else if sampTopk b ≠ 0 then sampTopk b else kc

/-! ### Logit delivery (R339–R341) -/

/-- The sample rows of a batch in row-table order: entry, and row within it. -/
def StepBatch.sampleRows (b : StepBatch) : List (Nat × Nat) :=
  (List.range b.items.length).flatMap fun i =>
    match b.items[i]? with
    | some it => if !it.sample then [] else if it.chunk then [(i, 0)] else (List.range it.n).map fun j => (i, j)
    | none => []

/-- The sample rows of the batch in hand. -/
def State.sampleRows (s : State) (p : Nat) : List (Nat × Nat) :=
  match (s.sv p).batch with | some b => b.sampleRows | none => []

/-- `PEP_MAP` of an array. -/
def pepMapKey (k a : Nat) : Nat := Pg.sv + 0x600 + 0x20 * k + 8 * a

/-- Cursor of an array's map. -/
def State.pepCursor (s : State) (k a : Nat) : Nat := s.pepCur.get 0 (4 * k + a)

/-- The checks of a DRAIN to the sampler (R340). -/
def State.pepCheck (s : State) (p k a : Nat) : Status :=
  let m := s.reg (pepMapKey k a)
  let npan := bits m 16 14
  let n := s.pepCursor k a
  if !bit m 31 ∨ npan = 0 then .access
  else if ceilDiv (s.sampleRows p).length 32 ≤ n / npan then .access
  else if s.vocab p ≤ 32 * (bits m 0 13 + n % npan) then .access
  else .ok

/-- A logit ranks before another: greater value, then lower id (R342). -/
def candBefore (a b : Nat × Nat) : Bool :=
  if (f32 b.1).lt (f32 a.1) then true else if (f32 a.1).lt (f32 b.1) then false else decide (a.2 < b.2)

/-- A row of a drained tile taken by a streaming unit: columns counted, the panel summed, candidates kept; columns past `VOCAB`
are discarded and the row is faulty; PEP_FAULT is raised as the row becomes so (R341, R342; once a row: DEDUCED, log entry 49). -/
def State.pepRow (s : State) (p k row panel : Nat) (samp : List Byte) (xs : List Nat) : State :=
  let v := s.vocab p
  let q := s.pep p
  let have' := q.count.get 0 row
  let offered := min 32 (v - 32 * panel)
  let take := min offered (v - have')
  let cs := ((List.range take).map fun c => (xs.getD c 0, 32 * panel + c)).filter fun c => !isNan32 c.1
  let key := row * 16 + k
  let kept := (cs.foldl (fun l c => insertBy candBefore c l) (q.cands.get [] key)).take (sampKeep samp (s.candLimit p))
  let s := s.modPep p fun q =>
    { q with count := q.count.put row (have' + take), sum := q.sum.put row (q.sum.get 0 row + panel)
             cands := q.cands.put key kept }
  if take < offered ∧ !q.faulty.contains row then
    (s.modPep p fun q => { q with faulty := row :: q.faulty }).pepEvent p 0 .fault
  else s

/-- A tile drained to the sampler from array `a` of slice `k`: the cursor is read once and advances by one (R339). -/
def State.pepDrain (s : State) (p k a : Nat) (rows : List (List Nat)) : State :=
  let m := s.reg (pepMapKey k a)
  let npan := bits m 16 14
  let n := s.pepCursor k a
  let panel := bits m 0 13 + n % npan
  let first := 32 * (n / npan)
  let sr := s.sampleRows p
  let items := match (s.sv p).batch with | some b => b.items | none => []
  let s := { s with pepCur := s.pepCur.put (4 * k + a) ((n + 1) % 2 ^ 24) }
  (List.range rows.length).foldl (fun s r =>
    match sr[first + r]? with
    | some q => s.pepRow p k (first + r) panel ((items[q.1]?).map (·.samp) |>.getD []) (rows.getD r [])
    | none => s) s

/-- The cursors of a partition's slices, and what the sampler holds of the last step, start again; results that stage 9 has yet to commit
stay (R329, R339). -/
def State.pepStart (s : State) (p : Nat) : State :=
  let ks := s.slicesOf p ++ s.twinsOf p
  let s := s.modPep p fun q => { results := q.results }
  { s with pepCur := s.pepCur.dropAll fun i => ks.contains (i / 4) }

/-- Every sample row is complete (R341). With `VOCAB` = 0, outside 1–262,144, every logit DRAIN completes with ACCESS (register table)
and no sample row completes: DEDUCED, log entry 49; safe. -/
def State.pepComplete (s : State) (p : Nat) : Bool :=
  let q := s.pep p
  let v := s.vocab p
  let n := ceilDiv v 32
  (List.range (s.sampleRows p).length).all fun r => v != 0 && q.count.get 0 r == v && q.sum.get 0 r == n * (n - 1) / 2

/-! ### Candidates of a row (R342–R345) -/

/-- The candidate set of a sample row: the best Kc of the union of the units' (R342). -/
def State.rowCands (s : State) (p row : Nat) : List (Nat × Nat) :=
  let all := (List.range 16).flatMap fun k => (s.pep p).cands.get [] (row * 16 + k)
  (sortBy candBefore all).take (s.candLimit p)

/-- A candidate penalised by its count (R344). -/
def penalise (b : List Byte) (c x : Nat) : Nat :=
  if c = 0 then x
  else
    let x := if (f32 0).lt (f32 x) then (fDiv x (sampRep b)).1 else (fMul x (sampRep b)).1
    let x := (fSub x (sampPres b)).1
    (fSub x (fMul (sampFreq b) (toLane (FV.ofInt c)).1).1).1

/-- `EOS`, where enabled, and the stop tokens of a request (R352). -/
def State.stopToks (s : State) (r : Nat) : Option Nat × List Nat :=
  match (s.req r).stops with
  | none => (none, [])
  | some a =>
    let b := s.devPeek a 136
    (if 2 ^ 31 ≤ field b 0 4 then some (field b 0 4 % 2 ^ 18) else none
    , (List.range (field b 4 1)).map fun i => field b (8 + 4 * i) 4)

/-- The candidates of row `i` of an entry after penalties and exclusions, ranked (R344, R345). -/
def State.liveCands (s : State) (p row i : Nat) (it : BItem) : List (Nat × Nat) :=
  let cs := s.rowCands p row
  let ds := it.drafts.take i
  let cs := if sampPen it.samp then
    sortBy candBefore (cs.map fun c =>
      (penalise it.samp (countOf (s.req it.req).counts c.2 + (ds.filter (· == c.2)).length) c.1, c.2)) else cs
  if sampGen it.samp + i < sampMinNew it.samp then
    let st := s.stopToks it.req
    cs.filter fun c => st.1 != some c.2 && !st.2.contains c.2
  else cs

/-! ### The draw (R347, R348) -/

/-- The kept set of a row: (e, id) by rank. -/
abbrev Kept := List (Nat × Nat)

/-- Running sums c[j] of a kept set, ascending rank. -/
def cumSums : Nat → Kept → List Nat
  | _, [] => []
  | a, x :: l => let c := (fAdd a x.1).1; c :: cumSums c l

/-- zk: the last running sum. -/
def keptSum (k : Kept) : Nat := (cumSums 0 k).getLastD 0

/-- The kept set of R347. -/
def keptSet (b : List Byte) (kc : Nat) (cs : List (Nat × Nat)) : Kept :=
  let inv := (fDiv 0x3F800000 (sampTemp b)).1
  let zs := sortBy candBefore (cs.map fun c => ((fMul c.1 inv).1, c.2))
  match zs with
  | [] => []
  | z0 :: rest =>
    let es := ((0x3F800000, z0.2) :: rest.map fun z => ((fExp (fSub z.1 z0.1).1).1, z.2)).take
      (if sampTopk b ≠ 0 then sampTopk b else kc)
    let es := (es.take 1) ++ (es.drop 1).filter fun e => !(f32 e.1).lt (f32 (sampMinp b))
    let lim := f32 (fMul (sampTopp b) (keptSum es)).1
    let n := ((cumSums 0 es).takeWhile fun c => (f32 c).lt lim).length
    es.take (n + 1)

/-- The 24-bit draw of a history index, as an exact FP32 (R348). -/
def drawU (b : List Byte) (idx kind : Nat) : Nat :=
  (toLane (.fin false (leNat (shake256 (b.take 8 ++ toLe 4 idx ++ toLe 1 kind) 3)) (-24))).1

/-- The token a kept set gives at a history index, with its e (R347). -/
def drawToken (b : List Byte) (k : Kept) (idx : Nat) : Nat × Nat :=
  let t := f32 (fMul (drawU b idx 0) (keptSum k)).1
  let n := ((cumSums 0 k).takeWhile fun c => !t.lt (f32 c)).length
  match k[n]? with
  | some e => e
  | none => k.getLastD (0, 0)

/-- The log-probability of a token drawn (R354). -/
def logProb (e zk : Nat) : Nat := (fLog (fDiv e zk).1).1

/-! ### Verification (R350) -/

/-- A token decided by a kept set, with its log-probability. -/
def decide1 (b : List Byte) (k : Kept) (idx : Nat) : Nat × Nat :=
  let e := drawToken b k idx
  (e.2, logProb e.1 (keptSum k))

/-- Rows from `i` on, with the drafts still to test: accepted drafts, the last token and its log-probability; `none` where a row
is empty (R345, R350). -/
def State.verifyRows (s : State) (p row0 ntok : Nat) (it : BItem) : Nat → List Nat → Option (List Nat × Nat × Nat)
  | i, [] =>
    let cs := s.liveCands p (row0 + i) i it
    match cs with
    | [] => none
    | c :: _ =>
      if sampGreedy it.samp then some ([], c.2, 0)
      else
        let q := decide1 it.samp (keptSet it.samp (s.candLimit p) cs) (ntok + i)
        some ([], q.1, q.2)
  | i, x :: xs =>
    let cs := s.liveCands p (row0 + i) i it
    match cs with
    | [] => none
    | c :: _ =>
      if sampGreedy it.samp then
        if c.2 = x then (s.verifyRows p row0 ntok it (i + 1) xs).map fun q => (x :: q.1, q.2) else some ([], c.2, 0)
      else
        let k := keptSet it.samp (s.candLimit p) cs
        match k.find? fun e => e.2 == x with
        | none =>
          let q := decide1 it.samp k (ntok + i)
          some ([], q.1, q.2)
        | some e =>
          let u := drawU it.samp (ntok + i) 1
          if k.length = 1 ∨ (f32 (fMul u (keptSum k)).1).lt (f32 e.1) then
            (s.verifyRows p row0 ntok it (i + 1) xs).map fun q => (x :: q.1, q.2)
          else
            let q := decide1 it.samp (k.filter fun e => e.2 != x) (ntok + i)
            some ([], q.1, q.2)

/-- The result of one entry; `row0` is its first sample row (R350, R354). -/
def State.itemResult (s : State) (p row0 : Nat) (it : BItem) : PepRes :=
  if !it.sample then {}
  else
    let ds := if it.chunk then [] else it.drafts
    match s.verifyRows p row0 (s.req it.req).ntok it 0 ds with
    | none => { d := ds.length, status := statusCode .fault }
    | some q => { toks := q.1 ++ [q.2.1], j := q.1.length, d := ds.length, logp := q.2.2 }

/-- A result-table entry (R354). -/
def PepRes.bytes (r : PepRes) : List Byte :=
  toLe 4 (r.toks.getLastD 0xFFFFFFFF) ++ toLe 1 r.j ++ toLe 1 r.d ++ toLe 1 r.status ++ zeros 1 ++ toLe 4 r.logp ++ zeros 4

/-- The results of a batch's entries, in sequence-table order. -/
def State.pepResults (s : State) (p : Nat) (b : StepBatch) : List PepRes :=
  (List.range b.items.length).map fun i =>
    match b.items[i]? with
    | some it => s.itemResult p ((b.sampleRows.takeWhile fun q => q.1 != i).length) it
    | none => {}

/-- PEPPER_MERGE: once every sample row is complete and none is faulty, tokens are chosen, the result table is written and
`DONE_CTR` signalled (R341–R350, R354). -/
def State.pepperMerge (s : State) (p : Nat) : State :=
  match (s.sv p).batch with
  | none => s
  | some b =>
    let q := s.pep p
    if q.merged || (s.sv p).stage9 || !(s.slot p).busy || !q.faulty.isEmpty || !s.pepComplete p then s
    else
      let rs := s.pepResults p b
      let s := rs.foldl (fun s r => (s.bump (Pg.sv + 0x1D0) r.d).bump (Pg.sv + 0x1D8) r.j) s
      let s := s.bump (Pg.sv + 0x1C8) b.sampleRows.length
      let s := (List.range rs.length).foldl (fun s i =>
        match rs[i]?, b.items[i]? with
        | some r, some _ =>
          let s := if r.status ≠ 0 then s.pepEvent p 1 .fault else s
          let s := s.digestAdd p 16 (toLe 8 i) r.bytes
          match s.eaPart p (bits (s.sv p).pepRes 0 32) with
          | some e => s.eaPutBoth (e.plus (16 * i)) r.bytes
          | none => s
        | _, _ => s) s
      (s.modPep p fun q => { q with merged := true, results := rs }).signal p (bits (s.sv p).pepCfg 20 15) 1

/-- `PEP_STAT`: 1 STREAMING while rows of a step have begun to arrive, 2 MERGING while a complete step waits for its merge. -/
def State.pepStat (s : State) : Word :=
  let busy (p : Nat) : Nat :=
    let q := s.pep p
    if (s.sv p).batch.isNone || q.merged || q.count.items.isEmpty then 0 else if s.pepComplete p && q.faulty.isEmpty then 2 else 1
  match (List.range 16).find? fun p => busy p != 0 with
  | some p => pack [(busy p, 0), (p, 4)]
  | none => 0

end Sys2Proof.Machine
end

