-- ==== Sys2Proof/Machine/Commit.lean ====
section
/-! DEFINITION. Stage 9: the commit gate, the step's results applied to the entries, stops, draft lengths and token records
(R319, R328, R329, R349, R351–R356, R450–R452). -/

namespace Sys2Proof.Machine

/-! ### Stops (R352) -/

/-- A stop sequence matches at history index `n` (R352). -/
def seqMatches (hist : Nat → Nat) (ids : List Nat) (n : Nat) : Bool :=
  decide (ids.length ≤ n + 1) && (List.range ids.length).all fun j => hist (n + 1 + j - ids.length) == ids.getD j 0

/-- Whether a token at a history index stops the request: (cause, stop index) (R352). -/
def State.stopAt (s : State) (r : Nat) (hist : Nat → Nat) (n : Nat) : Option (Nat × Nat) :=
  match (s.req r).stops with
  | none => none
  | some a =>
    let st := s.stopToks r
    let tok := hist n
    if st.1 = some tok then some (1, 0)
    else match (List.range st.2.length).find? fun i => st.2.getD i 0 == tok with
      | some i => some (2, i)
      | none =>
        let b := s.devPeek a 680
        let seqs := (List.range (field b 5 1)).map fun i =>
          (List.range (field b (136 + 68 * i) 4 % 32)).map fun j => field b (140 + 68 * i + 4 * j) 4
        ((List.range seqs.length).find? fun i => seqMatches hist (seqs.getD i []) n).map fun i => (3, i)

/-- STOP_DETECT: the first of the step's tokens that stops, as how many tokens stay with cause and index; `g` is the count of
generated tokens before the first (R345, R352). -/
def State.firstStop (s : State) (r ntok g minNew : Nat) (toks : List Nat) : Option (Nat × Nat × Nat) :=
  let hist (i : Nat) : Nat := if i < ntok then (s.histToks r i 1).1.getD 0 0 else toks.getD (i - ntok) 0
  (List.range toks.length).findSome? fun m =>
    if g + m < minNew then none else (s.stopAt r hist (ntok + m)).map fun c => (m + 1, c)

/-! ### Drafts for the next step (R349, R351) -/

/-- DRAFT_LENGTH_UPDATE: the new `DCUR` from `d` drafts offered and `j` accepted (R351). -/
def nextDcur (draft dcur d j : Nat) : Nat :=
  let floor := nbits draft 2 4
  let ceil := nbits draft 6 4
  if nbits draft 10 1 = 1 then floor
  else if d = 0 then (if dcur = 0 then min ceil (dcur + 1) else dcur)
  else if j = d then min ceil (dcur + 1)
  else if j = 0 then max floor (dcur / 2)
  else if 2 * j < d then max floor (dcur - 1)
  else dcur

/-- LOOKUP_DRAFT: up to 8 tokens that followed the latest earlier occurrence of the last `NGRAM` tokens (R349). -/
def State.lookupDrafts (s : State) (r : Nat) : List Nat :=
  let e := s.req r
  let g := nbits e.draft 16 4
  if nbits e.draft 0 2 ≠ 2 ∨ e.ntok < g + 1 then []
  else
    let base := e.ntok - 1024 - g
    let h := (s.histToks r base (e.ntok - base)).1
    let tok (i : Nat) : Nat := h.getD (i - base) 0
    let lo := max (e.ntok - 1024) (g - 1)
    let hit (q : Nat) : Bool := decide (lo ≤ q) && (List.range g).all fun j => tok (q - j) == tok (e.ntok - 1 - j)
    match findDown hit (e.ntok - 1) with
    | none => []
    | some q => (List.range (min 8 (e.ntok - 1 - q))).map fun j => tok (q + 1 + j)

/-! ### One entry of the batch (R329) -/

/-- `RSTAT` of sequence entry `i`, of request `r`: the first that is not OK over the slices of the mask (R215, DEDUCED, log entry 29);
where a later operation has written OK over it, the first fault of the step on the partition's slices. -/
def State.rstat (s : State) (p i r : Nat) : Status :=
  let now := (s.areaSlices p).foldl (fun st k =>
    let v := s.eaNat { acc := false, slice := k, off := s.svFld p 0x48 0 24 + 64 + 64 * i + 62 } 1
    firstFail st (statusOfCode v)) .ok
  if now ≠ .ok then now
  else match s.seqBad.find? fun x => s.partOfSlice x.1 == some p && x.2.1 == r with
    | some x => x.2.2
    | none => .ok

/-- A poisoned sequence is parked for recompute, or fails where its first positions came from a husk (R215, R325, R336). -/
def State.parkPoison (s : State) (p r : Nat) : State :=
  if (s.req r).hoff ≠ 0 then s.endReq p r .failed .poison
  else (s.dropPages p r).modReq r fun e =>
    { e with mode := .parked, status := statusCode .poison, recomp := true, len := 0, priv := 0, stall := 0 }

/-- What stage 9 decides for an entry: tokens committed, how it ends, cause and stop index. -/
structure ItemEnd where
  toks : List Nat := []
  fin : Option Status := none
  cause : Nat := 0
  sidx : Nat := 0
  deriving DecidableEq, Repr

/-- The tokens that stay and the end they bring: STOP, else MAXLEN (R329, R353). -/
def State.cutTokens (s : State) (r : Nat) (toks : List Nat) (samp : List Byte) : ItemEnd :=
  let e := s.req r
  let room := e.maxlen - e.ntok
  match s.firstStop r e.ntok (sampGen samp) (sampMinNew samp) toks with
  | some (k, c, i) =>
    if k ≤ room then { toks := toks.take k, fin := some .stop, cause := c, sidx := i }
    else { toks := toks.take room, fin := some .maxlen }
  | none => if room ≤ toks.length then { toks := toks.take room, fin := some .maxlen } else { toks := toks }

/-- The token records of an entry (R355). Accepted drafts carry a log-probability of +0 (DESIGN CHOICE, log entry 19). -/
def State.emitTokens (s : State) (p r first : Nat) (d : ItemEnd) (late : Bool) (res : PepRes) : State :=
  let pen := s.penFull r
  (List.range d.toks.length).foldl (fun s k =>
    let last := k + 1 == d.toks.length
    let ends := last && d.fin.isSome
    s.putRecord p (s.tokenRecord r (d.toks.getD k 0) (first + k)
      (b2n late + 2 * b2n (decide (k < res.j)) + 4 * b2n ends + 16 * b2n pen)
      (if ends then d.fin.getD .ok else .ok) (if last then d.cause else 0) (if last then d.sidx else 0)
      (if k + 1 = res.toks.length then res.logp else 0) res.j res.d)) s

/-- A request closes by an end of stage 9: retained where its class asks for it after STOP or MAXLEN, else DONE (R312, R334,
R335). -/
def State.finishReq (s : State) (p r : Nat) (st : Status) : State :=
  let retain := st == .stop || st == .maxlen
  match retain, (s.req r).rclass with
  | true, 1 => s.retainWarm p r st
  | true, 2 => s.retainHusk r st
  | _, _ => s.closeReq p r .done st

/-- Steps 3 and 4 of R329 for an entry: history, counts, `LEN`, `NTOK`, prefix hashes and the draft length. Tokens of an entry with a
pending CANCEL are not emitted (R311). Answers the status of the history write. -/
def State.applyTokens (s : State) (p : Nat) (it : BItem) (toks : List Nat) (res : PepRes) : State × Status :=
  let r := it.req
  let e := s.req r
  let w := s.devWrite (e.hist + 4 * e.ntok) (toks.flatMap (toLe 4))
  if w.2 ≠ .ok ∧ toks ≠ [] then (w.1, w.2)
  else
    let s := if toks = [] then s else w.1
    let len := if it.chunk then it.first + it.n else it.first + toks.length
    let s := s.modReq r fun e =>
      { e with len := len, ntok := e.ntok + toks.length, priv := if s.ringPages r ≠ 0 then 0 else len / s.svP p
               emitted := e.emitted || (!toks.isEmpty && !e.cancel)
               lastCt := if toks.isEmpty || e.cancel then e.lastCt else s.ct }
    let s := s.pfxInsert p r (it.first / s.svP p) (len / s.svP p)
    if toks = [] then (s, .ok)
    else
      let s := s.devPut (e.samp + 52) (toLe 3 (sampGen it.samp + toks.length))
      let s := s.countToks p r toks
      let s := if it.chunk || nbits e.draft 0 2 == 0 then s
        else s.devPut (e.samp + 48) (toLe 1 (nextDcur e.draft (s.dcur r) res.d res.j))
      (s.modReq r fun e => { e with lookup := s.lookupDrafts r }, .ok)

/-- The failure of an entry that stands before its tokens: its checks, its `RSTAT`, its restore job, or an empty row. -/
def State.itemFail (s : State) (p i : Nat) (it : BItem) (b : StepBatch) (res : PepRes) : Option Status :=
  let rs := s.rstat p i it.req
  let job := b.jobs.find? fun j => j.kind == 2 && j.req == it.req
  if rs ≠ .ok then some rs
  else match it.bad with
    | some st => some st
    | none => match job with
      | some j => if j.status = 0 then (if res.status ≠ 0 ∨ (it.sample ∧ res.toks = []) then some .fault else none)
          else some (if j.status = 0xFF then .fault else statusOfCode j.status)
      | none =>
        if it.sample ∧ (res.status ≠ 0 ∨ res.toks = []) then some .fault else none

/-- A restored husk's slot is freed after its job's commit (R336). -/
def State.restored (s : State) (p r : Nat) : State :=
  if (s.req r).restore then
    match (s.req r).husk with
    | some i => (s.freeHusk p i).modReq r fun e => { e with husk := none, restore := false }
    | none => s.modReq r fun e => { e with restore := false }
  else s

/-- One entry of the batch in stage 9 (R313, R328, R329, R353). -/
def State.commitItem (s : State) (p i : Nat) (it : BItem) (b : StepBatch) : State :=
  let r := it.req
  let e := s.req r
  if e.mode ≠ .prefill ∧ e.mode ≠ .decode then s
  else
    let res := ((s.pep p).results[i]?).getD {}
    let fail := s.itemFail p i it b res
    if e.cancel ∧ fail.isSome then s.endReq p r .done .superseded
    else match fail with
    | some .poison => s.parkPoison p r
    | some st => s.endReq p r .failed st
    | none =>
      let late := e.passed s.ct
      let reached := !it.chunk || it.first + it.n == e.target
      let cut := if it.sample then s.cutTokens r res.toks it.samp else {}
      let w := s.applyTokens p it cut.toks res
      if w.2 ≠ .ok then w.1.endReq p r (if e.cancel then .done else .failed) (if e.cancel then .superseded else w.2)
      else
        let s := w.1.restored p r
        let s := s.modReq r fun x =>
          { x with mode := if reached then .decode else .prefill, status := 0, recomp := x.recomp && !reached
                   lateSeen := x.lateSeen || late }
        if e.cancel then s.endReq p r .done .superseded
        else
          let fin := match cut.fin with
            | some st => some st
            | none => if late && e.onLate then some .deadline else none
          let s := s.emitTokens p r e.ntok { cut with fin := fin } late res
          match fin with
          | none => s
          | some st => if cut.toks = [] then s.endReq p r .done st else s.finishReq p r st

/-! ### Stage 9 as a whole -/

/-- Records stage 9 holds move into the output buffer as it has room (R419). -/
def State.refill (s : State) (p : Nat) : State :=
  s.modSv p fun v =>
    let n := bufRecords - v.buf.length
    { v with buf := v.buf ++ v.owed.take n, owed := v.owed.drop n }

/-- Stage 9 is complete: COMMIT is signalled, and stage 0 of the next step is due (R314, R329). -/
def State.stage9Done (s : State) (p : Nat) : State :=
  let s := s.modSv p fun v => { v with stage9 := false, commit := none, batch := none, stage0 := true }
  let s := s.modPart p fun q => { q with run := 0, replay := false }
  s.signal p (s.svFld p 0x50 16 15) 1

/-- Entries applied from where stage 9 stands, until it is done or holds at a record (R329, R419). -/
def State.commitGo (s : State) (p : Nat) : Nat → State
  | 0 => s
  | n + 1 =>
    match (s.sv p).commit, (s.sv p).batch with
    | some i, some b =>
      if !(s.sv p).owed.isEmpty then s
      else match b.items[i]? with
        | some it => ((s.commitItem p i it b).modSv p fun v => { v with commit := some (i + 1) }).commitGo p n
        | none => s.stage9Done p
    | some _, none => s.stage9Done p
    | none, _ => s

/-- The jobs of a batch with what the step program wrote of them in the lowest slice's area (R317, R335). -/
def State.readJobs (s : State) (p : Nat) (b : StepBatch) : List HuskJob :=
  (List.range b.jobs.length).filterMap fun n =>
    b.jobs[n]?.map fun j =>
      let q := s.areaGet p ((s.areaOffs p).2.2 + 32 * n) 8
      let st := field q 3 1
      { j with status := if st = 0xFF then statusCode .fault else st, hpos := if j.kind = 1 then field q 4 3 else j.hpos }

/-- CORR moves by an eighth of the step's error, within its bounds (R319, R488). -/
def State.adaptCorr (s : State) (p : Nat) (that : Int) : State :=
  let b := (s.sv p).oldStmb.getD (s.reg (Pg.sv + 0x800 + 0x80 * p + 0x38))
  let lo := signed 32 (bits b 0 32)
  let e := ((s.slot p).lastDur : Int) - that
  s.modSv p fun v =>
    { v with corr := if s.svFld p 0x40 32 1 = 1 then lo else clampInt lo (signed 32 (bits b 32 32)) (v.corr + e.fdiv 8) }

/-- A digest that differs between the runs of a VERIFIED batch: the slices and their twins are suspect (R452). -/
def State.replayDiffers (s : State) (p : Nat) : State :=
  let ds := ((s.ig p).differ).filter fun i => decide (i < 16)
  let s := s.igEvent p 2 (some { type := 0x0021, sev := 2, step := (s.slot p).step % 2 ^ 32, aux := maskOf ds })
    .replayMismatch
  ds.foldl (fun s i =>
    match (s.slicesOf p)[i]?, (s.twinsOf p)[i]? with
    | some a, some b => (s.suspectSlice a allClasses).suspectSlice b allClasses
    | some a, none => s.suspectSlice a allClasses
    | _, _ => s) s

/-- The commit gate's decision on the words it reads (R452). -/
def gateCommits (verified : Bool) (r sus dif : Nat) : Bool := if verified && r != 0 then dif == 0 else sus == 0

/-- COMMIT: the gate decides, and a committed run is applied entry by entry (R329, R452). -/
def State.commit (s : State) (p : Nat) : State :=
  if !(s.sv p).stage9 then s
  else if (s.sv p).commit.isSome then s.commitGo p (((s.sv p).batch.map fun b => b.items.length).getD 0 + 1)
  else match (s.sv p).batch with
    | none => s.stage9Done p
    | some b =>
      let s := s.adaptCorr p b.that
      let v := s.verdict p
      let verified := s.igMode p == 1
      let s := if verified && v.2 != 0 then s.replayDiffers p else s
      if gateCommits verified (s.part p).run v.1 v.2 then
        let s := if v.1 = 0 then s else (s.bump (Pg.ig + 0x128) 1).igEvent p 10
        let jobs := s.readJobs p b
        let s := s.modSv p fun w =>
          { w with commit := some 0, batch := some { b with jobs := jobs }, jobsDone := jobs, jobCt := s.ct }
        s.commitGo p (b.items.length + 1)
      else
        let s := s.modSv p fun w => { w with stage9 := false, stage0 := true }
        s.withholdRun p

/-- TOKEN_RECORD_WRITE: the oldest buffered record goes to the token ring when it has room, with the producer count; a stage 9
that holds goes on (R356, R419). -/
def State.tokenWrite (s : State) (p : Nat) : State :=
  let ring := s.reg (Pg.sv + 0x218 + 0x40 * p)
  let v := s.sv p
  let n := bits ring 52 5
  let cons := s.fld (Pg.sv + 0x220 + 0x40 * p) 0 32
  match v.buf with
  | [] => s
  | rec :: rest =>
    if !bit ring 63 || decide (2 ^ n ≤ (2 ^ 32 + v.tprod - cons) % 2 ^ 32) then s
    else
      let d := s.ownerOf p
      let q := s.nodeWrite d (bits ring 0 52 + 32 * (v.tprod % 2 ^ n)) rec (.record d)
      if !q.2 then
        (if (s.portFor d).isNone && (s.relayOf d).isNone then q.1.raise (Pg.dq d) 3 { dests := some [d, 0], onChange := true }
         else q.1)
      else
        let s := q.1.modSv p fun v => { v with buf := rest, tprod := (v.tprod + 1) % 2 ^ 32 }
        let s := (s.nodeWrite d (bits ring 0 52 - 8) (toLe 8 (s.sv p).tprod) (.record d)).1
        let s := (s.recordWritten p rec).refill p
        if (s.sv p).commit.isSome then s.commitGo p (((s.sv p).batch.map fun b => b.items.length).getD 0 + 1) else s

end Sys2Proof.Machine
end

