-- ==== Sys2Proof/Machine/Drain.lean ====
section
/-! DEFINITION. DRAIN: the closing of a group, the checks made on its tile, the Blend chain, quantisation with its traps, the
Pepper hand-over and the run digest (R123, R124, R167, R180–R190, R446, R447, R451). -/

namespace Sys2Proof.Machine

/-- The fields of a DRAIN. -/
structure DrainOp where
  addr : Nat
  acc : Nat
  m : Nat
  ben : Bool
  bch : Nat
  prof : Nat
  dest : Bool

/-- The fields of a DRAIN instruction. -/
def SInstr.drainOp (i : SInstr) : DrainOp :=
  { addr := i.arg 0, acc := i.arg 1, m := i.arg 2 + 1, ben := i.arg 3 == 1, bch := i.arg 4, prof := i.arg 5
    dest := i.arg 6 == 1 }

/-! ### Check entries (R446, R447) -/

/-- Register of word `j` of a slice's check entry. -/
def chkKey (k e j : Nat) : Nat := keyAt (Pg.ig + 0x808 + 8 * j) (k + 16 * e)

/-- A column-sum set closed unchecked (R447). -/
def State.csUnchecked (s : State) (key : Nat) : State :=
  ({ s with csSets := s.csSets.put key none }).bump (Pg.ig + 0x118) 1

/-- The open sets of the given slices closed unchecked (R447, R450). -/
def State.csCloseAll (s : State) (ks : List Nat) : State :=
  (s.csSets.keysWhere fun i v => ks.contains (i / 32) && v.isSome).foldl State.csUnchecked s

/-- A plausibility check of a drained tile fails: one suspect, an error record that names the slice, the array, the profile and the
check, and the slice suspect for the implicated classes (R446, R454). -/
def State.plausFail (s : State) (p k a : Nat) (o : DrainOp) (ord type classes syn : Nat) : State :=
  let s := s.addSuspect p 1
  let s := s.igEvent p 0
    (some { type := type, sev := 2, opc := SOp.drain.code + 256 * (ord % 2 ^ 24), addr := o.acc + 2 ^ 52 * a, syn := syn
            aux := o.prof + 256 * k, step := (s.slot p).step % 2 ^ 32 })
  s.suspectSlice k classes

/-- A row of a statistics tile fails: m finite and l below 1 or not finite, or m = −∞ and l ≠ 0 (R446). -/
def statsBad (m l : Nat) : Bool :=
  match f32 m with
  | .fin _ _ _ => (match f32 l with
    | .fin n a e => (FV.fin n a e).lt (.fin false 1 0)
    | _ => true)
  | .inf true => !isZero32 l
  | _ => false

/-- An element is out of the range of `RLIM`, or NaN. -/
def outOfRange (int : Bool) (lim x : Nat) : Bool :=
  let v := if int then FV.ofInt (signed 32 x) else f32 x
  match v with
  | .nan => true
  | .inf _ => true
  | .fin _ m e => (f32 lim).lt (.fin false m e)

/-- The pair {E, U} of row r of a set, none where it cannot be read (R447). -/
def State.csPair (s : State) (k e m r : Nat) : Option (Nat × Nat) :=
  match s.ea32 k (s.fld (chkKey k e 2) 0 32) with
  | some a => if a.fits (8 * m) then some (s.eaNat (a.plus (8 * r)) 4, s.eaNat (a.plus (8 * r + 4)) 4) else none
  | none => none

/-- A row of a complete set fails: D and E differ by more than `CS_REL` × U + `CS_ABS`, exactly (R447). -/
def csRowBad (rel abs sum : Nat) (nan : Bool) (eu : Nat × Nat) : Bool :=
  nan || !finite32 eu.1 || !finite32 eu.2
    || (let d := ((f32 sum).add (f32 eu.1).neg)
        let lim := ((f32 rel).mul (f32 eu.2)).add (f32 abs)
        match d with
        | .fin _ m e => lim.lt (.fin false m e)
        | _ => true)

/-- D_r of a row: its exact sum rounded once to FP32. -/
def csD (sum : Int) : Nat := (toLane (.fin (decide (sum < 0)) sum.natAbs (-(fixBits : Int)))).1

/-- A tile joins its entry's column-sum set; the last tile of a set decides it (R447). -/
def State.csTile (s : State) (p k a : Nat) (o : DrainOp) (ord : Nat) (t : TileStat) (rows : List (List Nat)) : State :=
  let key := 32 * k + o.prof
  let s := match s.csSets.get none key with
    | some c => if c.left = 0 then s.csUnchecked key else s
    | none => s
  if !bit (s.reg (chkKey k o.prof 0)) 1 || t.attn then s
  else
    let set := (s.csSets.get none key).getD
      { m := o.m, left := s.fld (chkKey k o.prof 2) 32 12 + 1, sums := List.replicate o.m 0, nans := List.replicate o.m false }
    if t.bound ∨ set.m ≠ o.m then s.csUnchecked key
    else
      let val (x : Nat) : FV := if t.int then FV.ofInt (signed 32 x) else f32 x
      let set : CsSet :=
        { m := set.m, left := set.left - 1
          sums := (List.range o.m).map fun r => (rows.getD r []).foldl (fun b x => b + toFix (val x)) (set.sums.getD r 0)
          nans := (List.range o.m).map fun r => set.nans.getD r false
            || (rows.getD r []).any fun x => !t.int && !finite32 x }
      if 0 < set.left then { s with csSets := s.csSets.put key (some set) }
      else if (s.csPair k o.prof o.m 0).isNone then s.csUnchecked key
      else
        let s := { s with csSets := s.csSets.put key none }
        let rel := s.fld (chkKey k o.prof 1) 0 32
        let abs := s.fld (chkKey k o.prof 1) 32 32
        let pair (r : Nat) : Nat × Nat := (s.csPair k o.prof o.m r).getD (0, 0)
        match (List.range o.m).find? fun r => csRowBad rel abs (csD (set.sums.getD r 0)) (set.nans.getD r false) (pair r) with
        | some r => s.plausFail p k a o ord 0x0012 1 (csD (set.sums.getD r 0) + 2 ^ 32 * (pair r).1 + 2 ^ 64 * r)
        | none => s

/-- The checks taken on a tile before any Blend stage: column sums, flags, and the statistics of DATTN (R446). -/
def State.tileChecks (s : State) (p k a : Nat) (o : DrainOp) (ord : Nat) (t : TileStat) (rows : List (List Nat)) : State :=
  let c := s.reg (chkKey k o.prof 0)
  let s := if bits c 0 4 ≠ 0 ∨ t.attn then s.bump (Pg.ig + 0x110) 1 else s
  let s := s.csTile p k a o ord t rows
  let s := if (bit c 2 && t.sat) || (bit c 3 && t.nan) then s.plausFail p k a o ord 0x0010 7 0 else s
  if t.attn && t.stats && rows.any fun r => statsBad (r.getD 0 0) (r.getD 1 0) then s.plausFail p k a o ord 0x0013 7 0 else s

/-- The range check, after the Blend chain (R446). -/
def State.rangeCheck (s : State) (p k a : Nat) (o : DrainOp) (ord : Nat) (int : Bool) (rows : List (List Nat)) : State :=
  let c := s.reg (chkKey k o.prof 0)
  if bit c 0 && decide (bits c 16 11 < (rows.flatten.filter (outOfRange int (bits c 32 32))).length) then
    s.plausFail p k a o ord 0x0011 7 0
  else s

/-! ### Checks of the instruction (R117, R123, R167, R180, R181, R340) -/

/-- The profile of a DRAIN. -/
def State.drainProf (s : State) (k : Nat) (o : DrainOp) : Prof := Prof.ofWords (s.profWords k o.prof)

/-- A profile's cursor for an array. -/
def State.profCursor (s : State) (k a ix : Nat) : Nat := s.profCur.get 0 ((32 * k + ix) * 4 + a)

/-- A chain's cursor for an array. -/
def State.chainCursor (s : State) (k a c : Nat) : Nat := s.chainCur.get 0 ((16 * k + c) * 4 + a)

/-- Checks of the chain a DRAIN passes through. -/
def State.drainChain (s : State) (k a : Nat) (o : DrainOp) : Status :=
  if o.ben then s.chainCheck k o.bch o.m (s.chainCursor k a o.bch) else .ok

/-- Checks of a DRAIN's destination: in the working store, or the Pepper units, where the address need only name a slice of the
partition (R74, R75, R123, R339). -/
def State.drainDest (s : State) (k a : Nat) (o : DrainOp) : Status :=
  let p := s.drainProf k o
  match s.ea k o.addr with
  | none => .access
  | some e =>
    if o.dest then
      if p.ofmt ≠ 9 ∨ p.gran ≠ 0 then .access
      else match s.partOfSlice k with
        | some q => s.pepCheck q k a
        | none => .access
    else if e.acc || !aligned e.off 32 || !pitchOk p.ofmt o.m then .access
    else if !e.fits (o.m * rowBytes p.ofmt) then .length
    else .ok

/-- What a DRAIN's operand checks find, in the order of R117: ACCESS of any part before LENGTH of any. -/
def State.drainCheck (s : State) (k a : Nat) (o : DrainOp) : Status :=
  let sts := [s.drainDest k a o, s.drainChain k a o, s.profCheck k (s.drainProf k o) a (s.profCursor k a o.prof) o.m]
  if sts.contains .access then .access else if sts.contains .length then .length else .ok

/-- A DRAIN fails its checks: the array's event, and those of the chain, the profile or the sampler that failed it (R167, R180, R182,
R340). -/
def State.drainFail (s : State) (k a : Nat) (qe : QEntry) (o : DrainOp) : State × QEntry :=
  let st := s.drainCheck k a o
  let pr := s.profCheck k (s.drainProf k o) a (s.profCursor k a o.prof) o.m
  let s1 := if s.drainChain k a o = .length then s.engEvent k (Pg.vec k) 2 st else s
  let s1 := if pr = .access then s1.qntEvent k 0 st else if pr = .length then s1.qntEvent k 1 st else s1
  let s1 := match s.partOfSlice k with
    | some p => if o.dest && s.pepCheck p k a != Status.ok then s1.pepEvent p 0 st else s1
    | none => s1
  s1.arrFail k a qe st

/-! ### Conversion and completion -/

/-- What a conversion counts and raises in the quantisation unit: `exc` elements out of range, `under` below it (R187, R188). -/
def State.drainEvents (s : State) (k exc under : Nat) (hit : Bool) (mode : QMode) : State :=
  let s := s.qntCount k exc under 0 (if mode = .normal then 0 else 1)
  match mode with
  | .normal => if hit then s.qntEvent k 4 .ok else s
  | .rescale => s.qntEvent k 5 .ok
  | .retry _ => s

/-- A converted tile and its record go to their places: the working store or the Pepper units, and the side output; the digest takes
both. -/
def State.drainStore (s : State) (k a : Nat) (qe : QEntry) (o : DrainOp) (sout off : Nat) (data rec' : List Byte)
    (codes : List (List Nat)) : State :=
  let s := if o.dest then s
    else match s.ea32 k o.addr with
      | some e => s.eaWrite k e data
      | none => s
  let s := match rec', s.ea32 k sout with
    | [], _ => s
    | _, some e => s.eaWrite k (e.plus off) rec'
    | _, none => s
  let s := match s.partOfSlice k with
    | some pt => if o.dest && (s.pairedPrimary k).isNone then s.pepDrain pt k a codes else s
    | none => s
  s.digestOut k a qe.ordinal (data ++ rec')

/-- A converted tile written, counted and added to the run digest; the entry has made its effect (R123, R180, R187, R188, R451). A side
output that would now fall in an open group ends it with ACCESS, and nothing is written (R137). -/
def State.drainFinish (s : State) (k a : Nat) (qe : QEntry) (o : DrainOp) (r : DrainRun) (mode : QMode) : State × QEntry :=
  let p := Prof.ofWords r.prof
  let ys : List (List RVal) := r.rows.map fun row => row.map fun x => { v := x, t := isNan32 x && !r.int }
  let mag := maxMag ys.flatten
  let q0 := p.convert r.src .normal mag r.int ys
  let q := if mode = .normal then q0 else p.convert r.src mode mag r.int ys
  let hit := p.exceeds q0
  let s := s.drainEvents k q.excess q0.under hit mode
  let retried := match mode with | .retry _ => true | _ => false
  let rec' := if p.soutEn && p.gran != 0 then
      q.record p r.profIx (q0.excess, q0.under) ys (decide (mode = .rescale)) retried (r.sat || decide (0 < q.excess)) r.nan
    else []
  let data := q.bytes p
  let codes := q.codes.map fun (row : List (Nat × Bool × Bool)) => row.map fun c => c.1
  let barred := match rec', s.ea32 k p.sout with
    | [], _ => false
    | _, some e => !s.eaWritable (e.plus (r.cursor * p.stride)) rec'.length
    | _, none => true
  if barred then s.arrFail k a { qe with drain := none } .access
  else (s.drainStore k a qe o p.sout (r.cursor * p.stride) data rec' codes, { qe with phase := .running .ok, drain := none })

/-- The rows of a closed tile are read, checked and passed through the chain and the profile's first six steps; the tile is staged
where its profile stages, and held where its counts call for a trap (R123, R167, R180, R181, R185, R187, R188, R446). -/
def State.drainGo (s : State) (k a : Nat) (qe : QEntry) (o : DrainOp) : State × QEntry :=
  if s.drainCheck k a o ≠ .ok then s.drainFail k a { qe with tileRead := true } o
  else
    let t := s.tileOf k o.acc
    let els := s.tileElems k o.acc o.m
    let rows := (List.range o.m).map fun r => (els.drop (32 * r)).take 32
    let s := match s.partOfSlice k with
      | some p => s.tileChecks p k a o qe.ordinal t rows
      | none => s
    let ch : State × List (List Nat) × LaneAcc := if o.ben then s.applyChain k a o.bch t.int rows else (s, rows, {})
    let s := ch.1
    let int := t.int && !(o.ben && !(s.chain k o.bch).1.isEmpty)
    let s := match s.partOfSlice k with
      | some p => s.rangeCheck p k a o qe.ordinal int ch.2.1
      | none => s
    let words := s.profWords k o.prof
    let p := Prof.ofWords words
    let cur := s.profCursor k a o.prof
    let s := { s with profCur := s.profCur.put ((32 * k + o.prof) * 4 + a) (nextCursor p.wrap cur) }
    let ys := s.profPre k p cur int ch.2.1
    let later := p.rrowEn || p.rscEn || p.smoothEn || p.signEn || p.hadEn || p.gran != 0
    let int := int && !later && p.ofmt == 10
    let pre := preCounts ys
    let s := s.qntCount k pre.1 0 pre.2 0
    let s := (s.histCheck k p).foldSlot k p (maxMag ys.flatten)
    let s := match p.stages, s.ea32 k p.stageA with
      | true, some e => s.eaWrite k (e.plus (4096 * a)) (ys.flatten.flatMap fun (x : RVal) => toLe 4 x.v)
      | _, _ => s
    let run : DrainRun :=
      { rows := ys.map fun r => r.map (·.v), src := s.qSrc k p cur, sat := t.sat || decide (0 < pre.1 + ch.2.2.sat)
        nan := t.nan || decide (0 < ch.2.2.nan) || ys.flatten.any (·.t), bound := t.bound, int := int, attn := t.attn, prof := words
        profIx := o.prof, cursor := cur, dst := o.addr }
    let hit := p.exceeds (p.convert run.src .normal (maxMag ys.flatten) int ys)
    if hit ∧ p.policy = 2 then
      (s.qntEvent k 2 .ok, { qe with phase := .trapped s.clk, drain := some run })
    else s.drainFinish k a qe o run (if hit ∧ p.policy = 1 then .rescale else .normal)

/-- DRAIN: taken when the drain buffer of its array has room; its group is closed as soon as it is accepted, and its rows follow unless a
trap holds a DRAIN before it (R123, R124, R188). `ahead` are the entries before it in its queue. -/
def State.startDrain (s : State) (k a : Nat) (ahead : List QEntry) (qe : QEntry) (i : SInstr) : State × QEntry :=
  let o := i.drainOp
  let t := s.tileOf k o.acc
  let drains := ahead.filter fun e => (SInstr.decode e.op).any (·.op == .drain)
  if 2 ≤ drains.length then (s, { qe with phase := .bufferWait })
  else if !t.isOpen || t.owner != a then s.arrFail k a { qe with tileRead := true } .access
  else if s.drainCheck k a o ≠ .ok then s.drainFail k a { qe with tileRead := true } o
  else
    let s := s.modTile k o.acc fun t => { t with isOpen := false, owner := 0 }
    if drains.any fun e => match e.phase with | .trapped _ => true | .buffered => true | _ => false then
      (s, { qe with phase := .buffered })
    else s.drainGo k a qe o

/-! ### Traps (R188) -/

/-- Register of `QNT_TRAP`. -/
def trapKey (k : Nat) : Nat := Pg.qnt k + 0x170

/-- An entry holds a trap. -/
def QEntry.isTrapped (e : QEntry) : Bool := match e.phase with | .trapped _ => true | _ => false

/-- An entry waits in the drain buffer behind a held one. -/
def QEntry.isBuffered (e : QEntry) : Bool := e.phase == .buffered

/-- The trap an array holds: its place in the array's queue. -/
def State.trapAt (s : State) (k a : Nat) : Option Nat :=
  ((s.seq k).queues.get [] a).findIdx? QEntry.isTrapped

/-- `PEND`: the arrays that hold a trap. -/
def State.trapPend (s : State) (k : Nat) : Nat := maskOf ((List.range 4).filter fun a => (s.trapAt k a).isSome)

/-- An entry of a queue replaced. -/
def State.setEntry (s : State) (k q n : Nat) (e : QEntry) : State :=
  s.modSeq k fun sq => { sq with queues := sq.queues.put q ((sq.queues.get [] q).set n e) }

/-- The DRAINs buffered behind a resolved one proceed in queue order, up to the next that traps (R188). -/
def State.drainBuffered (s : State) (k a : Nat) : State :=
  (List.range 2).foldl (fun s _ =>
    let l := (s.seq k).queues.get [] a
    if l.any QEntry.isTrapped then s
    else match l.findIdx? QEntry.isBuffered with
      | some n =>
        (match l[n]? with
        | some e =>
          (match SInstr.decode e.op with
          | some i => let r := s.drainGo k a e i.drainOp; r.1.setEntry k a n r.2
          | none => s)
        | none => s)
      | none => s) s

/-- How a held drain is resolved. -/
inductive TrapAct where
  | saturate | rescale | retry (sigma : Nat) | fail
  deriving DecidableEq, Repr

/-- The trap an array holds is resolved; none there, nothing (R188). -/
def State.trapResolve (s : State) (k a : Nat) (act : TrapAct) : State :=
  let l := (s.seq k).queues.get [] a
  match s.trapAt k a with
  | none => s
  | some n =>
    match l[n]? with
    | none => s
    | some e =>
      match SInstr.decode e.op, e.drain with
      | some i, some run =>
        let r : State × QEntry := match act with
          | .saturate => s.drainFinish k a e i.drainOp run .normal
          | .rescale => s.drainFinish k a e i.drainOp run .rescale
          | .retry x => s.drainFinish k a e i.drainOp run (.retry x)
          | .fail => (s, { e with phase := .running .saturated, drain := none })
        (r.1.setEntry k a n r.2).drainBuffered k a
      | _, _ => s

/-- A write of `QNT_TRAP`: `GO` resolves the array's trap; no trap there, and a σ that fails R183, are ACCESS and leave it (R188). -/
def State.trapWrite (s : State) (k : Nat) (v : Word) : State :=
  let a := bits v 4 2
  let t := s.setReg (trapKey k) (v &&& 0xFFFFFFFF000000F0#64)
  if !bit v 8 then t.ends .ok
  else match s.trapAt k a with
    | none => s.ends .access
    | some n =>
      let p := Prof.ofWords (((((s.seq k).queues.get [] a)[n]?).bind (·.drain)).map (·.prof) |>.getD [])
      match bits v 6 2 with
      | 0 => (t.trapResolve k a .saturate).ends .ok
      | 1 => (t.trapResolve k a .rescale).ends .ok
      | 2 => (t.trapResolve k a .fail).ends .ok
      | _ => if p.sigmaOk (bits v 32 32) then (t.trapResolve k a (.retry (bits v 32 32))).ends .ok else s.ends .access

end Sys2Proof.Machine
end

