-- ==== Sys2Proof/Machine/Run.lean ====
section
/-! DEFINITION. The engine queues of a slice: the start of their operations, the waits inside them, and the completion of operations
in queue order with its signal (R88, R89, R96, R97, R115, R124, R453). -/

namespace Sys2Proof.Machine

/-- An engine queue of a slice. -/
def State.queue (s : State) (k q : Nat) : List QEntry := (s.seq k).queues.get [] q

/-- An engine queue replaced. -/
def State.setQueue (s : State) (k q : Nat) (l : List QEntry) : State :=
  s.modSeq k fun sq => { sq with queues := sq.queues.put q l }

/-- A queue is halted (R97). -/
def State.halted (s : State) (k q : Nat) : Bool := (s.seq k).halts.any fun h => h.1 == q

/-- The fields of a queued word, whose primary address may have had an index register added to it (R85). -/
def fieldsOf (w : Nat) : Option SInstr :=
  match SOp.ofCode (w % 2 ^ 8) with
  | none => none
  | some op => (unpackFields op.layout (w / 2 ^ 32)).map fun args =>
      { op := op, queue := nbits w 8 4, sigEn := nbits w 12 1, sigCtr := nbits w 13 15
        ix := nbits w 28 3, ixEn := nbits w 31 1, args := args }

/-! ### Starting an operation -/

/-- The engine of a queue takes an operation; `ahead` are the entries before it. A twin's transfers fetch nothing (R453). -/
def State.startOp (s : State) (k q : Nat) (ahead : List QEntry) (e : QEntry) (i : SInstr) : State × QEntry :=
  match i.op with
  | .mma => s.startMma k q e i
  | .load => s.startLoad k q e i
  | .drain => s.startDrain k q ahead e i
  | .dattn => s.startDattn k q e i
  | .config => s.startConfig k q e i
  | .vload => s.startVload k e i
  | .vstore => s.startVstore k e i
  | .clove => s.startClove k e i
  | .reduce => s.startReduce k e i
  | .topk => s.startTopk k e i
  | .compress => s.startCompress k e i
  | .expand => s.startExpand k e i
  | .combine => s.startCombine k e i
  | .pload => s.startPload k e i
  | .bset => s.startBset k e i
  | .adec => s.startBatch k e i true
  | .append => s.startBatch k e i false
  | .amerge => s.startAmerge k e i
  | .agather => s.startAgather k e i
  | .xload => s.startXload k e i
  | .aconfig => s.startAconfig k e i
  | .arm => if (s.pairedPrimary k).isSome then (s, { e with phase := .running .ok }) else s.startArm k e i
  | .armd => if (s.pairedPrimary k).isSome then (s, { e with phase := .running .ok }) else s.startArmd k e i
  | .stop => if (s.pairedPrimary k).isSome then (s, { e with phase := .running .ok }) else s.startStop k e i
  | .qrun => s.startQrun k e i
  | .qhad => s.startQhad k e i
  | .qstep => s.startQstep k e i
  | .qload => s.startQload k e i
  | .nop | .fin | .jump | .branch | .loop | .setix | .addix | .wait | .waitTake | .signal | .setctr
  | .start | .release | .fence | .movs => (s, { e with phase := .running .ok })

/-- The outputs an operation has made go with its entry, for the comparison of a pair. -/
def State.takeOut (s : State) (k : Nat) (e : QEntry) : State × QEntry :=
  match (s.seq k).outAcc with
  | some c => (s.modSeq k fun q => { q with outAcc := none }, { e with crc := some c })
  | none => (s, e)

/-- An attention operation of a slice waits for a credit or a tile of its walk (R226, R236). -/
def State.walkWaits (s : State) (k : Nat) : Bool :=
  match (s.queue k 5).head? with
  | some e => (match e.phase with | .starved _ => true | _ => false)
  | none => false

/-- A slice's walk that waits goes on as far as it can; the second part answers whether it came further. -/
def State.walkOn (s : State) (k : Nat) : State × Bool :=
  match (s.queue k 5).head? with
  | none => (s, false)
  | some e =>
    match fieldsOf e.op with
    | none => (s, false)
    | some i =>
      let r := (s.modSeq k fun q => { q with outAcc := e.crc }).resumeWalk k (i.op == .adec) { e with crc := none }
      let t := r.1.takeOut k r.2.1
      (t.1.setEntry k 5 0 t.2, r.2.2)

/-- The walks that wait go on, round after round, until none comes further: a leader's tiles let followers go on, and their releases
the leader (R226, R236). -/
def State.walkRounds : Nat → State → State
  | 0, s => s
  | fuel + 1, s =>
    let r := ((List.range 16).filter s.walkWaits).foldl (fun (acc : State × Bool) k =>
      let x := acc.1.walkOn k
      (x.1, acc.2 || x.2)) (s, false)
    if r.2 then State.walkRounds fuel r.1 else r.1

/-- Walks that wait look again at their credits and tiles. -/
def State.walkSettle (s : State) : State :=
  if (List.range 16).any s.walkWaits then s.walkRounds walkFuel else s

/-- Entry `n` of a queue put to its engine; what it releases or shows lets walks go on. -/
def State.runEntry (s : State) (k q n : Nat) : State :=
  let l := s.queue k q
  match l[n]? with
  | none => s
  | some e =>
    match fieldsOf e.op with
    | none => s
    | some i =>
      let r := s.startOp k q (l.take n) e i
      let r := r.1.takeOut k r.2
      (r.1.setEntry k q n r.2).walkSettle

/-- A counter wait of a slice passes: a twin's passes when its primary's has (R67, R453). -/
def State.scopedPasses (s : State) (k q : Nat) (e : QEntry) (i : SInstr) : Bool :=
  match s.pairedPrimary k with
  | some m => (s.queue m q).all fun x => x.ordinal != e.ordinal
  | none =>
    match (s.partOfSlice k).bind fun p => s.absCtr p (i.arg 0) with
    | some c => s.ctrPasses c (i.arg 3)
    | none => false

/-- A passed scoped wait leaves its queue, and takes its value (R67, R88). -/
def State.passScoped (s : State) (k q n : Nat) (i : SInstr) : State :=
  let s := s.setQueue k q ((s.queue k q).eraseIdx n)
  if i.op == .waitTake && (s.pairedPrimary k).isNone then
    match (s.partOfSlice k).bind fun p => s.absCtr p (i.arg 0) with
    | some c => s.takeCtr c (i.arg 3)
    | none => s
  else s

/-- The counter wait that a slice's sequencer, or its queue `w`, is held by: absolute counter, value, and whether it takes. A twin's
follows its primary's, and a halted queue starts nothing (R88, R97, R453). -/
def State.waitsOn (s : State) (k : Nat) (w : Option Nat) : Option (Nat × Nat × Bool) :=
  if (s.pairedPrimary k).isSome then none
  else match w with
    | none => (match (s.seq k).wait with
      | some (.counter c v take) => some (c, v, take)
      | _ => none)
    | some q =>
      if s.halted k q then none
      else ((s.queue k q).find? fun e => e.phase == .waiting).bind fun e => (fieldsOf e.op).bind fun i =>
        ((s.partOfSlice k).bind fun p => s.absCtr p (i.arg 0)).map fun c => (c, i.arg 3, i.op == .waitTake)

/-- The waits on a counter in the order of R68: WAIT tests, then WAIT_TAKEs by slice, each slice's sequencer before its queues. -/
def State.waitersOn (s : State) (c : Nat) : List (Nat × Option Nat) :=
  let all := (List.range 16).flatMap fun k => (none :: (List.range 9).map some).filterMap fun w =>
    match s.waitsOn k w with
    | some (d, _, take) => if d = c then some (take, k, w) else none
    | none => none
  ((all.filter fun x => !x.1) ++ all.filter fun x => x.1).map fun x => x.2

/-- A held wait whose counter has reached its value passes, and takes its value (R67). -/
def State.passWait (s : State) (x : Nat × Option Nat) : State :=
  match s.waitsOn x.1 x.2 with
  | none => s
  | some (c, v, take) =>
    if !s.ctrPasses c v then s
    else match x.2 with
      | none =>
        (if take then s.takeCtr c v else s).modSeq x.1 fun q =>
          { q with pc := q.pc + 1, steps := q.steps + 1, mode := .running, wait := none }
      | some q =>
        (match (s.queue x.1 q).findIdx? fun e => e.phase == .waiting with
        | none => s
        | some n => (if take then s.takeCtr c v else s).setQueue x.1 q ((s.queue x.1 q).eraseIdx n))

/-- The waits held on a counter whose value has come pass, before a requester that comes after them takes from it (R68). -/
def State.settleWaits (s : State) (c : Nat) : State := (s.waitersOn c).foldl State.passWait s

/-- The waits that R68 ranks before a WAIT_TAKE held by the sequencer or a queue of a slice pass first. -/
def State.passBefore (s : State) (k : Nat) (w : Option Nat) : State :=
  match s.waitsOn k w with
  | some (c, _, true) => ((s.waitersOn c).takeWhile fun x => x != (k, w)).foldl State.passWait s
  | _ => s

/-- The entry does not hold those behind it in an array queue: it runs, or its DRAIN stands in the drain buffer (R124). -/
def QEntry.letsBy (e : QEntry) : Bool :=
  match e.phase with
  | .running st => st == .ok
  | .trapped _ => true
  | .buffered => true
  | _ => false

/-- The entry a queue may start next: the first not started, behind entries that do not hold it. Only arrays run several at once. -/
def nextEntry (q : Nat) (l : List QEntry) : Option Nat :=
  match l.findIdx? fun e => e.phase == .queued || e.phase == .waiting with
  | none => none
  | some n => if (q < 4 && (l.take n).all QEntry.letsBy) || n == 0 then some n else none

/-- A scoped wait whose turn comes with its counter past its value: a WAIT_TAKE comes after the waits already held (R68). -/
def State.passFresh (s : State) (k q n : Nat) (i : SInstr) : State :=
  if i.op == .waitTake && (s.pairedPrimary k).isNone then
    match (s.partOfSlice k).bind fun p => s.absCtr p (i.arg 0) with
    | none => s
    | some c =>
      let s := s.settleWaits c
      if s.ctrPasses c (i.arg 3) then s.passScoped k q n i
      else s.setQueue k q ((s.queue k q).modify n fun e => { e with phase := .waiting })
  else s.passScoped k q n i

/-- One entry of a queue is started, or a scoped wait at its turn looked at. -/
def State.kickOne (s : State) (k q : Nat) : State :=
  if s.halted k q || !s.enginesRun then s
  else
    let l := s.queue k q
    match nextEntry q l with
    | none => s
    | some n =>
      match l[n]? with
      | none => s
      | some e =>
        match fieldsOf e.op with
        | none => s
        | some i =>
          if i.op == .wait || i.op == .waitTake then
            if e.phase == .waiting then s
            else if s.scopedPasses k q e i then s.passFresh k q n i
            else s.setEntry k q n { e with phase := .waiting }
          else s.runEntry k q n

/-- A queue is started as far as it goes. -/
def State.kick (s : State) (k q : Nat) : State :=
  (List.range ((s.queue k q).length + 1)).foldl (fun s _ => s.kickOne k q) s

/-! ### Resumption -/

/-- An engine's scoped wait passes (SEQ_WAIT_RESUME), after the waits on its counter that come before it; a halted queue stays as it is,
and one whose wait has passed goes on (R68, R88, R97). -/
def State.scopedResume (s : State) (k q : Nat) : State :=
  if s.halted k q then s
  else
    let s := s.passBefore k (some q)
    let l := s.queue k q
    match l.findIdx? fun e => e.phase == .waiting with
    | none => s.kick k q
    | some n =>
      match l[n]? with
      | none => s
      | some e =>
        match fieldsOf e.op with
        | none => s
        | some i => if s.scopedPasses k q e i then (s.passScoped k q n i).kick k q else s

/-- The entry of an array that waits for a fill. -/
def State.starvedAt (s : State) (k q : Nat) : Option Nat :=
  (s.queue k q).findIdx? fun e => match e.phase with | .starved _ => true | _ => false

/-- ARRAY_FILL_RESUME: the fill count covers the next tile and the waiting MMA goes on (R107). -/
def State.fillResume (s : State) (k a : Nat) : State :=
  match s.starvedAt k a with
  | none => s
  | some n =>
    match (s.queue k a)[n]? with
    | none => s
    | some e =>
      match fieldsOf e.op with
      | none => s
      | some i =>
        let r := s.resumeMma k a e i
        ((r.1.setEntry k a n r.2).kick k a).walkSettle

/-- STARVE_LONG: one fill wait exceeds 65,536 cycles (R125). -/
def State.starveLong (s : State) (k a : Nat) : State :=
  match s.starvedAt k a with
  | none => s
  | some n =>
    match (s.queue k a)[n]? with
    | none => s
    | some e =>
      match e.phase, e.mma with
      | .starved since, some r =>
        if r.long then s
        else
          let s := s.waitClk (since + s.cycTicks 65536 + 1)
          (s.setEntry k a n { e with mma := some { r with long := true } }).engEvent k (Pg.arr k a) 3 .ok
      | _, _ => s

/-- DRAIN_BUFFER_RESUME: the drain buffer has room for the DRAIN that waits (R124); a halted queue starts nothing (R97). -/
def State.bufferResume (s : State) (k a : Nat) : State :=
  if s.halted k a then s
  else match (s.queue k a).findIdx? fun e => e.phase == .bufferWait with
  | none => s
  | some n => (s.runEntry k a n).kick k a

/-- Every DRAIN of the slice whose rows have been taken has read its tile (R115). -/
def State.drainsRead (s : State) (k : Nat) : State :=
  (List.range 4).foldl (fun s a =>
    s.setQueue k a ((s.queue k a).map fun e =>
      match e.phase with
      | .running _ => { e with tileRead := true }
      | .trapped _ => { e with tileRead := true }
      | _ => e)) s

/-- OPEN_WAIT_RESUME: an earlier DRAIN has read the tile, and the operation that waits to open it goes on (R115); a halted queue starts
nothing (R97). -/
def State.openResume (s : State) (k a : Nat) : State :=
  if s.halted k a then s
  else match (s.queue k a).findIdx? fun e => e.phase == .openWait with
  | none => s
  | some n => ((s.drainsRead k).runEntry k a n).kick k a

/-! ### Completion (R89, R97, R453) -/

/-- The outputs of a completed operation of a pair are compared with its counterpart's (R453). -/
def State.pairCompare (s : State) (k q ord crc : Nat) : State :=
  let other := match s.pairedTwin k with | some t => some t | none => s.pairedPrimary k
  match other, s.partOfSlice k with
  | some o, some p =>
    (match (s.seq o).outs.find? fun x => x.1 == q && x.2.1 == ord with
    | none => s.modSeq k fun sq => { sq with outs := sq.outs ++ [(q, ord, crc)] }
    | some x =>
      let s := s.modSeq o fun sq => { sq with outs := sq.outs.filter fun y => !(y.1 == q && y.2.1 == ord) }
      if x.2.2 = crc then s
      else
        let prim := if (s.pairedTwin k).isSome then (k, crc, x.2.2) else (o, x.2.2, crc)
        let s := s.addSuspect p 1
        let s := s.igEvent p 3
          (some { type := 0x0020, sev := 2, opc := 256 * (ord % 2 ^ 24), addr := 2 ^ 52 * q, syn := prim.2.1 + 2 ^ 64 * prim.2.2
                  aux := prim.1, step := (s.slot p).step % 2 ^ 32 })
        (s.suspectSlice k allClasses).suspectSlice o allClasses)
  | _, _ => s

/-- The queue halts on a failed operation: status kept, ENG_ERR with its error record (R97). -/
def State.haltQueue (s : State) (k q : Nat) (e : QEntry) (st : Status) : State :=
  let s := s.modSeq k fun sq => { sq with halts := sq.halts ++ [(q, st)] }
  s.raise (Pg.seq k) 5
    { part := s.partOfSlice k, status := st
      err := some ({ sev := 3, opc := e.op % 2 ^ 8 + 256 * (e.ordinal % 2 ^ 24), addr := e.op / 2 ^ 32 % 2 ^ 32, aux := q }
                  , s.ownerOfSlice k) }

/-- The signal of a completed operation; a twin's is discarded (R89, R453). -/
def State.opSignal (s : State) (k : Nat) (i : SInstr) : State :=
  if i.sigEn = 1 ∧ (s.pairedPrimary k).isNone then
    match s.partOfSlice k with
    | some p => s.signal p i.sigCtr 1
    | none => s
  else s

/-- The status an operation completes with: a twin's transfers complete with their primary's (R453). -/
def State.twinXfer (s : State) (k q ord : Nat) (st : Status) : Option Status :=
  if q < 7 then some st
  else match s.pairedPrimary k with
    | none => some st
    | some m =>
      if (s.queue m q).any fun x => x.ordinal == ord then none
      else match (s.seq m).halts.find? fun h => h.1 == q with
        | some h => some h.2
        | none => some st

/-- ENGINE_OP_COMPLETE: the oldest operation of a queue completes. With OK it writes its summary and signals its counter; otherwise its
queue halts. The entry behind it is started (R88–R90, R97). -/
def State.opComplete (s : State) (k q : Nat) : State :=
  match s.queue k q with
  | [] => s
  | e :: rest =>
    match e.phase, fieldsOf e.op with
    | .running st0, some i =>
      (match s.twinXfer k q e.ordinal st0 with
      | none => s
      | some st =>
        let s := s.setQueue k q rest
        let s := match e.crc with | some c => s.pairCompare k q e.ordinal c | none => s
        let s := s.endWalk k e
        let s := if st = .ok then
            let s := match e.sum with
              | some (m, v) => s.modSeq k fun sq => { sq with sum := sq.sum.put m v }
              | none => s
            s.opSignal k i
          else s.haltQueue k q e st
        s.kick k q)
    | _, _ => s

end Sys2Proof.Machine
end

