-- ==== Sys2Proof/Machine/Coll.lean ====
section
/-! DEFINITION. Rank groups and collective operations (R395–R402). -/

namespace Sys2Proof.Machine

/-! ### Rank groups (R395) -/

/-- A rank group. -/
def State.group (s : State) (g : Nat) : RankGroup := s.fabric.groups.get {} g

/-- A rank group changed. -/
def State.modGroup (s : State) (g : Nat) (f : RankGroup → RankGroup) : State :=
  s.modFabric fun fb => { fb with groups := fb.groups.put g (f (s.group g)) }

/-- A collective queue. -/
def State.collQ (s : State) (q : Nat) : CollQ := s.fabric.colls.get {} q

/-- A collective queue changed. -/
def State.modCollQ (s : State) (q : Nat) (f : CollQ → CollQ) : State :=
  s.modFabric fun fb => { fb with colls := fb.colls.put q (f (s.collQ q)) }

/-- The 66 bytes a group's digest covers. -/
def groupBytes (g n : Nat) (members : List Nat) : List Byte :=
  toLe 1 g ++ toLe 1 n ++ (List.range 64).flatMap fun i => toLe 1 (members.getD i 0xFF)

/-- The register that holds member word `w` of group `g`. -/
def gmemKey (g w : Nat) : Nat := keyAt (Pg.fab + 0x210 + 8 * w) g

/-- A write of `FAB_GCFG`: with EN the staged members are checked and committed, without it the group is disabled. -/
def State.groupWrite (s : State) (dom : Nat) (v : Word) : State :=
  let g := s.fld (Pg.fab + 0x200) 0 6
  let key := keyAt (Pg.fab + 0x208) g
  let p := bits v 0 4
  let n := bits v 8 7
  let mem := (List.range 8).flatMap fun w => toLe 8 (s.stagedOf dom (gmemKey g w)).toNat
  let ms := (mem.take n).map BitVec.toNat
  let owns (p : Nat) := dom == 0 || s.ownerOf p == dom
  let busy (p : Nat) := (List.range 4).any fun i => (s.collQ (4 * p + i)).mode != .idle
  let v := v &&& 0x7F1F#64
  if !owns p || ((s.group g).en && !owns (s.group g).part) then s.ends .access
  else if !bit v 4 then ((s.setReg key v).modGroup g fun _ => { part := p }).ends .ok
  else if n = 0 || 64 < n || ms.eraseDups.length != n
      || ms.any (fun m => decide (s.clusterSize ≤ m)) || !ms.contains s.boot.slotId || busy p then s.ends .access
  else
    let s := (List.range 8).foldl (fun s w => s.setReg (gmemKey g w) (s.stagedOf dom (gmemKey g w))) s
    ((s.setReg key v).modGroup g fun _ =>
      { en := true, part := p, members := ms, digest := (crc64 (groupBytes g n ms)).toNat
        rank := ms.idxOf s.boot.slotId }).ends .ok

/-! ### Entries -/

/-- The operation of an entry. -/
def cOp (b : List Byte) : Nat := field b 0 1
/-- Its rank group. -/
def cRg (b : List Byte) : Nat := field b 2 1
/-- `LEN`. -/
def cLen (b : List Byte) : Nat := field b 16 4
/-- `PEER`. -/
def cPeer (b : List Byte) : Nat := field b 24 1
/-- `GO_EN`. -/
def cGo (b : List Byte) : Bool := field b 25 1 % 2 == 1
/-- `DONE_EN`. -/
def cDone (b : List Byte) : Bool := field b 25 1 / 2 % 2 == 1

/-- An entry between two ranks: SEND, RECV, RSIGNAL. -/
def cPtp (op : Nat) : Bool := op == 4 || op == 5 || op == 6

/-- The places of an entry: send buffer, receive buffer, scratch, send table. -/
structure CPlaces where
  src : Option EA
  dst : Option EA
  scr : Option EA
  aux : Option EA

/-- The engine address at byte `o` of an entry. -/
def State.cEa (s : State) (p : Nat) (b : List Byte) (o : Nat) : Option EA :=
  (s.eaPart p (field b o 4)).bind fun e => if aligned e.off 32 then some e else none

/-- The addresses an operation uses, with the bytes at each. -/
def State.cUses (s : State) (p n : Nat) (b : List Byte) : List (Option EA × Nat) :=
  let l := cLen b
  let src (m : Nat) := (s.cEa p b 4, m)
  let dst (m : Nat) := (s.cEa p b 8, m)
  let scr (m : Nat) := (s.cEa p b 12, m)
  match cOp b with
  | 0 => [src l, dst l, scr l]
  | 1 => [src l, dst (l / n), scr l]
  | 2 => [src l, dst (n * l)]
  | 3 => [src 0, dst (n * l), scr (4 * n), (s.cEa p b 20, 8 * n)]
  | 4 => [src l]
  | 5 => [dst l, scr 4]
  | _ => []

/-- Offset and length an ALL_TO_ALL entry sends to a rank (Table Collective entry). -/
def State.sendTable (s : State) (p : Nat) (b : List Byte) (rank : Nat) : Nat × Nat :=
  match s.cEa p b 20 with
  | some a => (s.eaNat (a.plus (8 * rank)) 4, s.eaNat (a.plus (8 * rank + 4)) 4)
  | none => (0, 0)

/-- The checks of an entry at the head of its queue: ACCESS, then LENGTH (R397). -/
def State.collCheck (s : State) (p : Nat) (b : List Byte) : Status :=
  let op := cOp b
  let g := s.group (cRg b)
  let n := g.members.length
  let l := cLen b
  let uses := s.cUses p n b
  let rule := match op with
    | 0 | 1 => aligned l (32 * n)
    | 2 | 3 | 4 => aligned l 32
    | 5 => true
    | _ => l == 0
  let table := op != 3 || (List.range n).all fun r =>
    let t := s.sendTable p b r
    decide (t.2 ≤ l) && (match s.cEa p b 4 with | some a => (a.plus t.1).fits t.2 | none => false)
  let dtype := field b 1 1
  if 8 ≤ op || 64 ≤ cRg b || 16 ≤ field b 3 1 || 2 ^ 24 ≤ l || 64 ≤ cPeer b || 4 ≤ field b 25 1
      || (if op ≤ 1 then dtype != 9 && dtype != 10 else dtype != 0)
      || 2 ^ 15 ≤ field b 26 2 || 2 ^ 15 ≤ field b 30 2 || 2 ^ 15 ≤ field b 32 2 || field b 36 28 != 0
      || !g.en || g.part != p
      || (cGo b && ((s.absCtr p (field b 26 2)).isNone || field b 28 2 == 0))
      || (cDone b && (s.absCtr p (field b 30 2)).isNone)
      || (op == 6 && field b 34 2 == 0) || (cPtp op && decide (n ≤ cPeer b))
      || (op ≤ 1 && (s.absSlice p (field b 3 1)).isNone)
      || uses.any (fun u => u.1.isNone)
      || ((uses.drop (if op = 5 then 0 else 1)).take 2).any (fun u =>
        match u.1 with | some e => !s.eaWritable e u.2 | none => false) then .access
  else if !rule || uses.any (fun u => match u.1 with | some e => !e.fits u.2 | none => false) || !table then .length
  else .ok

/-! ### Frames between ranks (R398, R402) -/

/-- The body of a READY or ABORT frame; an ABORT that answers a mismatch has its status in byte 20 (DESIGN CHOICE, log entry 18). -/
def readyBody (g : RankGroup) (gix : Nat) (e : CollEnt) (st : Nat) : List Byte :=
  toLe 2 gix ++ toLe 1 (b2n (cPtp e.op)) ++ toLe 1 g.rank ++ toLe 4 e.seq ++ toLe 1 e.op ++ toLe 3 (cLen e.ent)
    ++ toLe 8 g.digest ++ toLe 1 st ++ zeros 3

/-- The READY a frame's body holds. -/
def ReadyRec.ofBody (b : List Byte) : ReadyRec :=
  { group := field b 0 2, ptp := field b 2 1 % 2 == 1, rank := field b 3 1, seq := field b 4 4, op := field b 8 1
    len := field b 9 3, digest := field b 12 8 }

/-- The other ranks of an entry. -/
def State.otherRanks (s : State) (e : CollEnt) : List Nat :=
  let g := s.group e.rg
  if cPtp e.op then [cPeer e.ent].filter (· != g.rank)
  else (List.range g.members.length).filter (· != g.rank)

/-- The ranks that will send to an entry. -/
def State.senders (s : State) (e : CollEnt) : List Nat :=
  match e.op with
  | 4 | 6 => []
  | 5 => [cPeer e.ent]
  | _ => s.otherRanks e

/-- A frame to a rank of a group. -/
def State.rankFrame (s : State) (g : RankGroup) (rank : Nat) (t : CType) (body : List Byte) : State :=
  s.routeFrame t (g.members.getD rank 0) body

/-- The entry of a queue at an index changed. -/
def State.modEnt (s : State) (q ix : Nat) (f : CollEnt → CollEnt) : State :=
  s.modCollQ q fun c => { c with inflight := c.inflight.map fun e => if e.ix = ix then f e else e }

/-- The queues' entries under way that match a group, a kind and a number: (queue, entry). -/
def State.matching (s : State) (gix : Nat) (ptp : Bool) (rank seq op : Nat) : List (Nat × CollEnt) :=
  s.fabric.colls.items.flatMap fun it => (it.2.inflight.filter fun e =>
    e.rg == gix && cPtp e.op == ptp && e.seq == seq && e.fin.isNone
      && (!ptp || (cPeer e.ent == rank && e.op == op))).map fun e => (it.1, e)

/-- The receive buffers of an entry that has ended without OK hold undefined bytes: free values, wherever they may be written (R402). -/
def State.blurBuffers (s : State) (q : Nat) (e : CollEnt) : State :=
  let uses := s.cUses (q / 4) (s.group e.rg).members.length e.ent
  ((uses.drop (if e.op = 5 then 0 else 1)).take 2).foldl (fun s u =>
    match u.1 with
    | some a =>
      if a.fits u.2 then
        let f := s.freeBytes u.2
        f.1.eaPutBoth a f.2
      else s
    | none => s) s

/-- A READY held here is for this entry. -/
def CollEnt.answers (e : CollEnt) (r : ReadyRec) : Bool :=
  r.group == e.rg && r.ptp == cPtp e.op && r.seq == e.seq && (!r.ptp || r.rank == cPeer e.ent)

/-- An entry ends without OK: it signals nothing, its receive buffers are undefined, its queue halts, COLL_FAIL is raised (R402). The ranks
it was working with are released by ABORT unless they learn of the end themselves. An entry turned away by its checks has received
nothing. -/
def State.collFail (s : State) (q : Nat) (e : CollEnt) (st : Status) (abort : Bool) (began : Bool := true) : State :=
  let s := if began && cLen e.ent != 0 then s.blurBuffers q e else s
  let g := s.group e.rg
  let s := if abort then (s.otherRanks e).foldl (fun s r =>
      s.rankFrame g r .abort (readyBody g e.rg e (if st = .access then statusCode st else 0))) s else s
  let s := (s.modEnt q e.ix fun x => { x with fin := some st }).modFabric fun f =>
    { f with reqs := f.reqs.filter fun r => match r.use with | .coll q' i _ _ _ _ => !(q' == q && i == e.ix) | _ => true
             readys := if began then f.readys.filter (!e.answers ·) else f.readys }
  let s := s.modCollQ q fun c =>
    { c with mode := .halted, failEnt := e.idx, status := statusCode st
             inflight := c.inflight.filter fun x => x.ix != e.ix }
  let p := q / 4
  s.raise Pg.fab 2
    { dests := some [s.ownerOf p], part := some p, status := st
      err := some ({ sev := 3, opc := e.idx * 256, aux := 2 ^ 16 * q + e.idx }, [s.ownerOf p]) }

/-- GROUP_MISMATCH: the entry fails with ACCESS and so does its match (R398). -/
def State.collMismatch (s : State) (q : Nat) (e : CollEnt) : State :=
  (s.raise Pg.fab 5 { dests := some [s.ownerOf (q / 4)], part := some (q / 4), status := .access }).collFail q e .access true

/-! ### Contributions (R399, R401) -/

/-- The sub-header of a contribution: group, OP, rank, number, offset in the piece, length of the piece, phase (the order of these
fields is a DESIGN CHOICE, log entry 18). -/
def subHeader (gix op rank seq off total phase : Nat) : List Byte :=
  toLe 2 gix ++ toLe 1 op ++ toLe 1 rank ++ toLe 4 seq ++ toLe 3 off ++ toLe 4 total ++ toLe 1 phase

/-- Bytes after the header of a contribution: sub-header, data, CRC-64 of both. -/
def contribBody (sub data : List Byte) : List Byte := sub ++ data ++ toLe 8 (crc64 (sub ++ data)).toNat

/-- The pieces an entry sends a rank: phase, place, length. Phase 2 of a reduction waits for the combination. -/
def State.pieces (s : State) (p : Nat) (e : CollEnt) (rank : Nat) : List (Nat × EA × Nat) :=
  let g := s.group e.rg
  let n := g.members.length
  let l := cLen e.ent
  let at' (o n : Nat) (d : Nat) := match s.cEa p e.ent o with | some a => [(a.plus n, d)] | none => []
  match e.op with
  | 0 => (at' 4 (rank * (l / n)) (l / n)).map (fun x => (1, x.1, x.2))
      ++ (if e.combined then (at' 8 (g.rank * (l / n)) (l / n)).map (fun x => (2, x.1, x.2)) else [])
  | 1 => (at' 4 (rank * (l / n)) (l / n)).map fun x => (1, x.1, x.2)
  | 2 => (at' 4 0 l).map fun x => (2, x.1, x.2)
  | 3 => let t := s.sendTable p e.ent rank
         (at' 4 t.1 t.2).map fun x => (1, x.1, x.2)
  | 4 => (at' 4 0 l).map fun x => (1, x.1, x.2)
  | _ => []

/-- One contribution message sent to another rank; without a way there the entry completes with PEER_LOST. -/
def State.sendContrib (s : State) (q : Nat) (e : CollEnt) (rank phase off total : Nat) (data : List Byte) (tries : Nat) : State :=
  let g := s.group e.rg
  match s.originate (g.members.getD rank 0) MKind.contrib (s.slotGroup (q / 4)) 0
      (contribBody (subHeader e.rg e.op g.rank e.seq off total phase) data) data.length (q / 4)
      (.coll q e.ix rank phase off tries) with
  | (s, some _) => s.modEnt q e.ix fun x => { x with unanswered := x.unanswered + 1 }
  | (s, none) => s.collFail q e .peerLost false

/-- Where a contribution lands: the receive place of a phase and rank. -/
def State.landing (s : State) (p : Nat) (e : CollEnt) (phase rank : Nat) : Option (EA × Nat) :=
  let g := s.group e.rg
  let n := g.members.length
  let l := cLen e.ent
  let at' (o k m : Nat) : Option (EA × Nat) := (s.cEa p e.ent o).map fun a => (a.plus k, m)
  match e.op, phase with
  | 0, 1 | 1, 1 => at' 12 (rank * (l / n)) (l / n)
  | 0, 2 => at' 8 (rank * (l / n)) (l / n)
  | 2, 2 => at' 8 (rank * l) l
  | 3, 1 => at' 8 (rank * l) l
  | 5, 1 => at' 8 0 l
  | _, _ => none

/-- Bytes of a contribution placed and counted in an entry; a piece with a length of its own has it written to the table. One that would
fall in a group that has since been opened ends the entry with ACCESS (R137). -/
def State.placeContrib (s : State) (q : Nat) (e : CollEnt) (rank phase off total : Nat) (data : List Byte) : State :=
  let lenAt := if e.op = 3 ∨ e.op = 5 then
      (s.cEa (q / 4) e.ent 12).map fun t => t.plus (if e.op = 3 then 4 * rank else 0) else none
  match s.landing (q / 4) e phase rank with
  | none => s
  | some (a, _) =>
    let barred := !s.eaWritable (a.plus off) data.length || match lenAt with | some t => !s.eaWritable t 4 | none => false
    if barred then s.collFail q e .access true
    else
    let s := s.eaPutBoth (a.plus off) data
    let s := match lenAt with
        | some t => s.eaPutBoth t (toLe 4 total)
        | none => s
    s.modEnt q e.ix fun x =>
      let key := (phase, rank)
      match x.got.find? fun y => y.1 == key with
      | some _ => { x with got := x.got.map fun y =>
          if y.1 == key then (key, total, (y.2.2.filter fun o => o.1 != off) ++ [(off, data.length)]) else y }
      | none => { x with got := x.got ++ [(key, total, [(off, data.length)])] }

/-- A piece has arrived whole. -/
def CollEnt.has (e : CollEnt) (phase rank : Nat) : Bool :=
  match e.got.find? fun y => y.1 == (phase, rank) with
  | some (_, total, l) => decide (total ≤ (l.map (·.2)).foldl (· + ·) 0)
  | none => false

/-- A piece handed to a rank: to another in messages of at most 2,048 bytes, to this module's own matching entry at once, where a SEND that
is longer than its RECV is a mismatch of both (R398). -/
def State.handOver (s : State) (q : Nat) (e : CollEnt) (rank phase : Nat) (a : EA) (len : Nat) : State :=
  let s := s.modEnt q e.ix fun x => { x with sent := x.sent ++ [(phase, rank)] }
  let g := s.group e.rg
  let n := max 1 (ceilDiv len 2048)
  (List.range n).foldl (fun s i =>
    let m := min 2048 (len - 2048 * i)
    let data := s.eaRead (a.plus (2048 * i)) m
    if rank = g.rank then
      let dests := if e.op = 4 then s.matching e.rg true rank e.seq 5 else [(q, e)]
      let short := dests.filter fun t => e.op == 4 && decide (cLen t.2.ent < len)
      if short.isEmpty then dests.foldl (fun s t => s.placeContrib t.1 t.2 g.rank phase (2048 * i) len data) s
      else (short.foldl (fun s t => s.collMismatch t.1 t.2) s).collMismatch q e
    else s.sendContrib q e rank phase (2048 * i) len data 0) s

/-- The READY of a rank for an entry is here. A rank is always ready to itself, but SEND waits for its own RECV. -/
def State.rankReady (s : State) (e : CollEnt) (rank : Nat) : Bool :=
  let g := s.group e.rg
  e.ready.contains rank || (rank == g.rank && (e.op != 4 || !(s.matching e.rg true rank e.seq 5).isEmpty))

/-- Everything an entry may send now is sent (R398, R399). -/
def State.collPush (s : State) (q ix : Nat) : State :=
  match (s.collQ q).inflight.find? fun e => e.ix == ix && e.fin.isNone with
  | none => s
  | some e =>
    let g := s.group e.rg
    let ranks := if e.op = 4 then [cPeer e.ent] else if cPtp e.op then [] else List.range g.members.length
    ranks.foldl (fun s r =>
      if s.rankReady e r then
        ((s.pieces (q / 4) e r).filter fun x => !e.sent.contains (x.1, r)).foldl
          (fun s x => if (s.collQ q).mode = .halted then s else s.handOver q e r x.1 x.2.1 x.2.2) s
      else s) s

/-- A READY matched with an entry: differing fields are a mismatch (R398). -/
def State.takeReady (s : State) (q : Nat) (e : CollEnt) (r : ReadyRec) : State :=
  let g := s.group e.rg
  let same := r.digest == g.digest
    && (if e.op = 4 then r.op == 5 && decide (cLen e.ent ≤ r.len) else r.op == e.op && r.len == cLen e.ent)
  if !same then s.collMismatch q e
  else (s.modEnt q e.ix fun x => { x with ready := (r.rank :: x.ready).eraseDups }).collPush q e.ix

/-- READY_RECEIVE: held, and given to the matching entry if it has started; for another module it is sent on (R398). -/
def State.readyReceive (s : State) (l dst : Nat) (f : List Byte) : State :=
  if (s.link l).mode != .up then s
  else if !frameSound f then s.modLink l fun k => { k with frameErrs := k.frameErrs + 1 }
  else if dst != s.boot.slotId then s.routeFrame .ready dst (f.take 24) (s.bundleOf l)
  else
    let r := ReadyRec.ofBody f
    let s := s.modFabric fun fb => { fb with readys := fb.readys ++ [r] }
    (s.matching r.group r.ptp r.rank r.seq (if r.ptp then 4 else r.op)).foldl (fun s t => s.takeReady t.1 t.2 r) s

/-- COLL_ABORT_RECEIVE: the matching entry completes with SUPERSEDED, or with the status of a mismatch (R398, R402). -/
def State.abortReceive (s : State) (l dst : Nat) (f : List Byte) : State :=
  if (s.link l).mode != .up then s
  else if !frameSound f then s.modLink l fun k => { k with frameErrs := k.frameErrs + 1 }
  else if dst != s.boot.slotId then s.routeFrame .abort dst (f.take 24) (s.bundleOf l)
  else
    let r := ReadyRec.ofBody f
    let st := if field f 20 1 = 0 then Status.superseded else statusOfCode (field f 20 1)
    let op := if r.op = 4 then 5 else 4
    (s.matching r.group r.ptp r.rank r.seq op).foldl (fun s t =>
      let s := if st = .access then s.raise Pg.fab 5
          { dests := some [s.ownerOf (t.1 / 4)], part := some (t.1 / 4), status := .access } else s
      s.collFail t.1 t.2 st false) s

/-- Status that asks for a contribution again (DESIGN CHOICE, log entry 18). -/
def askAgain : Status := .poison

/-- A contribution that failed its CRC is asked for again; the fourth failure fails the entry on both ranks with FAULT (R401). -/
def State.contribBad (s : State) (q : Nat) (e : CollEnt) (m : Msg) (phase rank : Nat) : State :=
  let s := s.raise Pg.fab 3 { dests := some [0], onChange := true, status := .poison }
  let n := (e.bad.filter (· == (phase, rank))).length + 1
  let s := s.modEnt q e.ix fun x => { x with bad := x.bad ++ [(phase, rank)] }
  let s := (s.noteAnswer m.src m.tag (statusCode askAgain)).respond m askAgain
  if 4 ≤ n then s.collFail q e .fault false else s

/-- A contribution at its destination: checked by its CRC, counted as arrived or asked for again; one that fits no entry is answered
with ACCESS (R398, R401). A repeated one is answered as before (R393). -/
def State.contribTake (s : State) (m : Msg) : State :=
  let sub := m.data.take 16
  let data := (m.data.drop 16).take m.len
  let op := field sub 2 1
  let rank := field sub 3 1
  let off := field sub 8 3
  let total := field sub 11 4
  let phase := field sub 15 1
  let sound := m.data.length == 24 + m.len && (crc64 (sub ++ data)).toNat == field m.data (16 + m.len) 8
  let answer (s : State) (st : Status) := (s.noteAnswer m.src m.tag (statusCode st)).respond m st
  match s.answeredAs m.src m.tag with
  | some st => s.respond m (statusOfCode st)
  | none =>
    match s.matching (field sub 0 2) (cPtp op) rank (field sub 4 4) 5 with
    | [] => answer s .access
    | (q, e) :: _ =>
      if !sound then s.contribBad q e m phase rank
      else match s.landing (q / 4) e phase rank with
        | some (_, room) =>
          if (if cPtp op then op != 4 else op != e.op) || decide (total < off + data.length) || decide (room < total) then
            answer (s.collMismatch q e) .access
          else (answer (s.placeContrib q e rank phase off total data) .ok).collPush q e.ix
        | none => answer (s.collMismatch q e) .access

/-- The answer to a contribution or a RSIGNAL: OK counts it done; a request to resend sends it again from its source, three times;
a fourth fails the entry with FAULT (R396, R401). -/
def State.collAnswer (s : State) (q ix rank phase off tries : Nat) (st : Status) : State :=
  match (s.collQ q).inflight.find? fun e => e.ix == ix && e.fin.isNone with
  | none => s
  | some e =>
    let s := s.modEnt q ix fun x => { x with unanswered := x.unanswered - 1 }
    if st = .ok then s
    else if st = askAgain ∧ e.op ≠ 6 then
      if 3 ≤ tries then s.collFail q e .fault false
      else match (s.pieces (q / 4) e rank).find? fun x => x.1 == phase with
        | some (_, a, len) =>
          s.sendContrib q e rank phase off len (s.eaRead (a.plus off) (min 2048 (len - off))) (tries + 1)
        | none => s
    else s.collFail q e st false

/-! ### Starting, combining, completing (R396, R397, R400) -/

/-- A queue with nothing more to start: to WAIT_STEP under REPEAT, to IDLE once its entries have completed. -/
def CollQ.settle (c : CollQ) : CollQ :=
  if c.mode = .running ∧ c.ents.length ≤ c.next then
    if c.again then { c with mode := .waitStep } else if c.inflight.isEmpty then { c with mode := .idle } else c
  else if c.mode = .waitStep ∧ !c.again ∧ c.inflight.isEmpty then { c with mode := .idle } else c

/-- CQ_ARM: a write of `CQ_CTRL` with GO (R396). -/
def State.cqArm (s : State) (q : Nat) (v : Word) : State :=
  let base := Pg.fab + 0x800 + 0x20 * q
  let p := q / 4
  let count := bits v 0 12
  let list := s.fld base 0 52
  let who := Accessor.part p false
  if (s.collQ q).mode != .idle then s.ends .access
  else
    let s := s.setReg (base + 8) (v &&& 0xFFFF#64)
    if count = 0 then s.ends .ok
    else
      let st := if !aligned list 64 then Status.access else s.devCheck who list (64 * count) false
      if st ≠ .ok then s.ends st
      else
        let r := s.devRead list (64 * count)
        if r.2.2 ≠ .ok then r.1.ends .access
        else (r.1.modCollQ q fun _ =>
          { mode := .running, depth := bits v 12 3 + 1, again := bit v 15
            ents := (List.range count).map fun i => (r.2.1.drop (64 * i)).take 64 }).ends .ok

/-- CQ_RESET: a halted or idle queue emptied; with an entry in flight, ACCESS (R402). -/
def State.cqReset (s : State) (q : Nat) : State :=
  let c := s.collQ q
  if c.mode = .running ∨ c.mode = .waitStep ∨ !c.inflight.isEmpty then s.ends .access
  else (s.modCollQ q fun _ => {}).ends .ok

/-- The number a starting entry takes (R398). -/
def State.takeSeq (s : State) (g op peer : Nat) : State × Nat :=
  let x := s.group g
  if cPtp op then
    let k := op * 64 + peer
    let n := x.ptp.get 0 k
    (s.modGroup g fun x => { x with ptp := x.ptp.put k ((n + 1) % 2 ^ 32) }, n)
  else (s.modGroup g fun x => { x with seq := (x.seq + 1) % 2 ^ 32 }, x.seq)

/-- READYs sent to every rank that will send to an entry, and those already held taken up. -/
def State.announce (s : State) (q : Nat) (e : CollEnt) : State :=
  let g := s.group e.rg
  let s := (s.senders e).foldl (fun s r =>
    if r = g.rank then s else s.rankFrame g r .ready (readyBody g e.rg e 0)) s
  let mine := s.fabric.readys.filter fun r => r.group == e.rg && r.ptp == cPtp e.op && r.seq == e.seq
    && (!r.ptp || (r.rank == cPeer e.ent && r.op == 5 && e.op == 4))
  let s := mine.foldl (fun s r => if (s.collQ q).mode = .halted then s else s.takeReady q
    (((s.collQ q).inflight.find? fun x => x.ix == e.ix).getD e) r) s
  let s := if (s.collQ q).mode = .halted then s else s.collPush q e.ix
  if e.op = 5 ∧ cPeer e.ent = g.rank then
    (s.matching e.rg true g.rank e.seq 4).foldl (fun s t => s.collPush t.1 t.2.ix) s
  else s

/-- RSIGNAL: a SIGNAL message to the peer rank's partition (R396). To itself it signals here. -/
def State.rsignal (s : State) (q : Nat) (e : CollEnt) : State :=
  let g := s.group e.rg
  let rank := cPeer e.ent
  let arg := field e.ent 32 2 + 2 ^ 32 * field e.ent 34 2
  if rank = g.rank then s.signal (q / 4) (field e.ent 32 2) (field e.ent 34 2)
  else match s.originate (g.members.getD rank 0) MKind.signal (s.slotGroup (q / 4)) arg [] 0 (q / 4)
      (.coll q e.ix rank 0 0 0) with
    | (s, some _) => s.modEnt q e.ix fun x => { x with unanswered := x.unanswered + 1 }
    | (s, none) => s.collFail q e .peerLost false

/-- The next entry of a queue starts, where it is the operation `op` and R396 lets it; it is checked first (R397). -/
def State.collStart (s : State) (q op : Nat) : State :=
  let c := s.collQ q
  let p := q / 4
  match c.ents[c.next]? with
  | none => s
  | some b =>
    let goCtr := s.absCtr p (field b 26 2)
    let s := match goCtr with | some i => if cGo b then s.settleWaits i else s | none => s
    let passes := !cGo b || (match goCtr with | some i => s.ctrPasses i (field b 28 2) | none => true)
    let busy := (c.inflight.filter fun e => e.fin.isNone).length
    if c.mode != .running || cOp b != op || !s.enginesRun || decide (c.depth ≤ busy) then s
    else
      let st := s.collCheck p b
      if st = .ok && !passes then s
      else
        let ix := c.started
        let ms := (s.group (cRg b)).members
        let lost := if cPtp op then s.peerIsLost (ms.getD (cPeer b) 64) else ms.any s.peerIsLost
        let s := if st = .ok ∧ cGo b then match goCtr with | some i => s.takeCtr i (field b 28 2) | none => s else s
        let (s, seq) := if st = .ok then s.takeSeq (cRg b) op (cPeer b) else (s, 0)
        let e : CollEnt := { ix := ix, idx := c.next, ent := b, part := p, rg := cRg b, op := op, seq := seq }
        let s := s.modCollQ q fun c => { c with next := c.next + 1, started := c.started + 1, inflight := c.inflight ++ [e] }
        if st ≠ .ok then s.collFail q e st false false
        else if lost && !(cLen b == 0 && decide (op ≤ 5)) then s.collFail q e .peerLost false
        else
          let s := if op = 6 then s.rsignal q e else if cLen b = 0 ∧ op ≠ 7 then s else s.announce q e
          s.modCollQ q CollQ.settle

/-- Every piece a combination needs is here. -/
def State.allHere (s : State) (e : CollEnt) : Bool :=
  (List.range (s.group e.rg).members.length).all fun r => e.has 1 r

/-- COLL_COMBINE: the oldest entry of a queue whose pieces are all present is combined on the vector engine of its slice, in
ascending rank order (R144, R400). A destination in a group that has since been opened ends the entry with ACCESS (R137). -/
def State.collCombine (s : State) (q : Nat) : State :=
  match (s.collQ q).inflight.find? fun e => e.op ≤ 1 && e.fin.isNone && !e.combined && cLen e.ent != 0 && s.allHere e with
  | none => s
  | some e =>
    let p := q / 4
    let g := s.group e.rg
    let n := g.members.length
    let piece := cLen e.ent / n
    match s.cEa p e.ent 12, s.cEa p e.ent 8, s.absSlice p (field e.ent 3 1) with
    | some scr, some dst, some k =>
      let out := if e.op = 0 then dst.plus (g.rank * piece) else dst
      if nbits s.retired k 1 = 1 then s.collFail q e .fault true
      else if !s.eaWritable out piece then s.collFail q e .access true
      else
        let int := field e.ent 1 1 == 10
        let vs := (List.range (piece / 4)).map fun j =>
          combineVals int ((List.range n).map fun r => s.combinePart (scr.plus (r * piece)) int j)
        let s := s.eaPutBoth out (if n = 1 then s.eaRead scr piece else vs.flatMap fun v => toLe 4 v.v)
        let acc : LaneAcc := if n = 1 then {} else { sat := (vs.map (·.sat)).foldl (· + ·) 0, nan := (vs.filter (·.t)).length }
        let cyc := (n - 1) * ceilDiv (piece / 4) 256 + 32 * max 1 (ceilDiv (n - 1) 7)
        let s := (s.bump (Pg.vec k + 0x108) cyc).vecCount k acc
        let s := s.modEnt q e.ix fun x =>
          { x with combined := true
                   got := if e.op = 0 then x.got ++ [((2, g.rank), piece, [(0, piece)])] else x.got
                   sent := x.sent ++ [(2, g.rank)] }
        s.collPush q e.ix
    | _, _, _ => s.collFail q e .access false

/-- An entry has done all it has to do here. -/
def State.entDone (s : State) (e : CollEnt) : Bool :=
  let g := s.group e.rg
  let rs := List.range g.members.length
  e.fin.isNone && e.unanswered == 0 && (cLen e.ent == 0 && e.op ≤ 5 || (match e.op with
    | 0 => e.combined && rs.all fun r => e.has 2 r && (r == g.rank || (e.sent.contains (1, r) && e.sent.contains (2, r)))
    | 1 => e.combined && rs.all fun r => e.sent.contains (1, r)
    | 2 => rs.all fun r => e.has 2 r && e.sent.contains (2, r)
    | 3 => rs.all fun r => e.has 1 r && e.sent.contains (1, r)
    | 4 => e.sent.contains (1, cPeer e.ent)
    | 5 => e.has 1 (cPeer e.ent)
    | 7 => (rs.filter (· != g.rank)).all fun r => e.ready.contains r
    | _ => true))

/-- Entries at the front of a queue that have ended signal in order and leave it (R396). -/
def State.collRetire (s : State) (q : Nat) : List CollEnt → State
  | [] => s.modCollQ q fun c => { c with inflight := [] }
  | e :: rest =>
    if e.fin = some .ok then
      let s := if cDone e.ent then s.signal (q / 4) (field e.ent 30 2) 1 else s
      s.collRetire q rest
    else s.modCollQ q fun c => { c with inflight := e :: rest }

/-- COLL_ENTRY_COMPLETE: the oldest entry of a queue that has done its work completes with OK, and signals after those before it. -/
def State.collComplete (s : State) (q : Nat) : State :=
  match (s.collQ q).inflight.find? s.entDone with
  | none => s
  | some e =>
    let s := (s.modEnt q e.ix fun x => { x with fin := some .ok }).modFabric fun f =>
      { f with readys := f.readys.filter (!e.answers ·) }
    (s.collRetire q (s.collQ q).inflight).modCollQ q CollQ.settle

/-- A step start of partition `p`: its REPEAT queues that have started their last entry return to entry 0 (R396). -/
def State.collStep (s : State) (p : Nat) : State :=
  (List.range 4).foldl (fun s i => s.modCollQ (4 * p + i) fun c =>
    if c.mode = .waitStep then { c with mode := .running, next := 0 } else c) s

/-- Entries of queues `p` picks end, sending ABORT to the ranks they were working with (R402, R405). -/
def State.collEnd (s : State) (p : Nat) (st : Status) : State :=
  (List.range 4).foldl (fun s i =>
    (s.collQ (4 * p + i)).inflight.foldl (fun s e => if e.fin.isNone then s.collFail (4 * p + i) e st true else s) s) s

/-- Every collective entry that names a lost peer completes with PEER_LOST (R391). -/
def State.collPeerLost (s : State) (id : Nat) : State :=
  s.fabric.colls.items.foldl (fun s it =>
    it.2.inflight.foldl (fun s e =>
      if e.fin.isNone && (s.group e.rg).members.contains id
          && (!cPtp e.op || (s.group e.rg).members.getD (cPeer e.ent) 64 == id) then s.collFail it.1 e .peerLost false
      else s) s) s

/-- `CQ_STAT`. -/
def State.cqStat (s : State) (q : Nat) : Word :=
  let c := s.collQ q
  pack [(match c.mode with | .idle => 0 | .running => 1 | .waitStep => 2 | .halted => 3, 0), (c.status, 8), (c.next, 16)
      , ((c.inflight.filter fun e => e.fin.isNone).length, 28), (c.failEnt, 32)]

/-- `FAB_GSTAT`. -/
def State.gstat (s : State) (g : Nat) : Word := pack [((s.group g).rank, 0), ((s.group g).seq, 32)]

end Sys2Proof.Machine
end

