-- ==== Sys2Proof/Machine/Fabric.lean ====
section
/-! DEFINITION. Peer links: training, flits, liveness, the loss of a peer, remote transactions and their time limits
(R377–R394, R402, R422). -/

namespace Sys2Proof.Machine

/-! ### Link states (R379–R381) -/

/-- The IDENT this module sends on a link (R380, Table Control frame types). -/
def State.identBody (s : State) (l : Nat) : List Byte :=
  toLe 2 (s.fld (Pg.fab + 0x100) 16 16) ++ toLe 1 s.boot.slotId ++ toLe 1 l ++ toLe 4 s.fabric.epoch ++ zeros 16

/-- Training begins: numbers and credits start anew, and this module's IDENT goes out (R380, R381). The spec sends it once FEC has locked;
no command tells of that, so it leaves with the training it belongs to (DESIGN CHOICE, log entry 101). -/
def State.linkTrain (s : State) (l : Nat) : State :=
  (s.sendFrame l .ident 0 false (s.identBody l)).modLink l fun k =>
    { k with mode := .training, cause := 0, trainClk := s.clk, peerValid := false, rtt := none, pings := 0, txSeq := 0
             rxSeq := 0, replay := [], naked := false, credits := [64, 64, 64, 64, 128, 128], freed := [0, 0, 0, 0, 0, 0]
             partials := {} }

/-- A message of a link that is no longer UP moves to another link of its bundle, or goes the other way round; without either it
completes with PEER_LOST at its originator, which takes it from `lost` (R379, R385). -/
def State.requeue (s : State) (b : Option Nat) (m : QMsg) (lost : State → QMsg → State) : State :=
  match b.bind s.pickLink with
  | some l => s.queueOn l m
  | none => match s.routeLink (Msg.ofBytes m.bytes).dst with
    | (s, some l) => s.queueOn l { m with sub := s.subLane ((s.bundleOf l).getD 0) none }
    | (s, none) => lost s m

/-- A link leaves UP: its replay buffer is discarded and its queued messages move (R379). -/
def State.linkLeave (s : State) (l : Nat) (m : LinkMode) (cause : Nat) (lost : State → QMsg → State) : State :=
  let queue := (s.link l).queue
  let s := s.modLink l fun k =>
    { k with mode := m, cause := cause, downClk := s.clk, replay := [], queue := [], partials := {}, naked := false }
  queue.foldl (fun s x => s.requeue (s.bundleOf l) x lost) s

/-! ### What an answer does -/

/-- Requests relayed for a port and not answered (R422). -/
def State.relayed (s : State) (i : Nat) : Nat :=
  (s.fabric.reqs.filter fun r => match r.use with | .relay p _ _ => p == i | _ => false).length

/-- A node's transaction: the fields of its header with its data (Table Transaction header). -/
structure Trans where
  op : Nat
  dst : Nat
  tag : Nat
  len : Nat
  status : Nat
  ack : Nat
  addr : Nat
  data : List Byte
  deriving DecidableEq, Repr

/-- A transaction read from its bytes. -/
def Trans.ofBytes (b : List Byte) : Trans :=
  { op := field b 0 1, dst := field b 1 1, tag := field b 2 2, len := field b 4 2, status := field b 6 1, ack := field b 7 1
    addr := field b 8 8, data := b.drop 16 }

/-- An RSP is owed: every request but a MEM_WR without `ACKREQ` (R411). -/
def Trans.answered (t : Trans) : Bool := t.op != 4 || t.ack % 2 == 1

/-- Frames of a port's receive buffer freed by a request now dealt with (R409). -/
def State.freeReq (s : State) (i : Nat) (bytes : Nat) : State :=
  s.modPort i fun p => { p with reqFreed := p.reqFreed + framesOf (16 + bytes) }

/-- A request relayed to its target (R422): a MEM_RD carries the length asked for. -/
def State.relayIssue (s : State) (i : Nat) (b : List Byte) : State :=
  let t := Trans.ofBytes b
  let d := (s.portDomain i).getD 0
  let s := s.bump (Pg.port i + 0x138) 1
  let data := if t.op = 3 then toLe 8 (t.len % 8192) else t.data
  match s.sendRelay (t.dst % 64) d t.op t.addr data (.relay i t.tag t.answered) with
  | (s, some _) => s
  | (s, none) => (if t.answered then s.sendRsp i t.tag .peerLost else s).freeReq i t.data.length

/-- A request for another module: relayed, or waiting while 256 of its port are outstanding (R422). -/
def State.relayRequest (s : State) (i : Nat) (b : List Byte) : State :=
  if 256 ≤ s.relayed i then s.modFabric fun f => { f with relayWait := f.relayWait ++ [(i, b)] }
  else s.relayIssue i b

/-- The next request waiting on a port to be relayed. -/
def State.relayNext (s : State) (i : Nat) : State :=
  match s.fabric.relayWait.find? fun w => w.1 == i with
  | some w => (s.modFabric fun f => { f with relayWait := f.relayWait.erase w }).relayIssue i w.2
  | none => s

/-- A message of this module completes with a status: whatever waits on it goes on (R391–R393). -/
def State.useDone (s : State) (use : ReqUse) (st : Status) (data : List Byte) : State :=
  match use with
  | .xfer e q gen blk off => s.xAnswer e q gen blk off st data
  | .coll q ix rank phase off tries => s.collAnswer q ix rank phase off tries st
  | .relay i tag ans =>
    let s := if ans then s.sendRsp i tag st data else s
    s.relayNext i
  | .record _ => s
  | .carry src tag group => s.respond { dst := 0, src := src, kind := MKind.relay, group := group, tag := tag, len := 0, arg := 0, data := [] } st data

/-- A posted write of a port's node fails its checks: it is dropped, counted and reported (R411). -/
def State.writeReject (s : State) (i addr : Nat) (st : Status) : State :=
  let d := (s.portDomain i).toList
  (s.bump (Pg.port i + 0x130) 1).raise (Pg.port i) 3
    { status := st, dests := some (0 :: d), onChange := true, err := some ({ sev := 3, addr := addr }, d) }

/-- An outstanding message completed. A relayed request gives its frames back; a posted write that its target turned away is reported
like one of this module's own (R409, R411, R422). -/
def State.reqDone (s : State) (r : Req) (st : Status) (data : List Byte := []) : State :=
  let s := match r.use with
    | .relay i _ ans => (if ans || st == Status.ok then s else s.writeReject i (r.arg % 2 ^ 52) st).freeReq i r.data.length
    | _ => s
  (s.dropReq r.tag).useDone r.use st data

/-- A queued message lost on its way: where it is this module's own request, it completes with PEER_LOST (R385). -/
def State.msgLost (s : State) (m : QMsg) : State :=
  let h := Msg.ofBytes m.bytes
  if m.fwd then s
  else match s.fabric.reqs.find? fun r => r.tag == h.tag && r.kind == h.kind && r.dst == h.dst with
    | some r => s.reqDone r .peerLost
    | none => s

/-! ### Link control -/

/-- LINK_ENABLE: EN set from OFF starts training (R381). -/
def State.linkEnable (s : State) (l : Nat) : State := s.linkTrain l

/-- LINK_DISABLE: EN cleared turns the link OFF (R381). -/
def State.linkDisable (s : State) (l : Nat) : State := s.linkLeave l .off 0 State.msgLost

/-- LINK_RETRAIN: training from any state while EN is set (R381). -/
def State.linkRetrain (s : State) (l : Nat) : State :=
  ((s.linkLeave l .training 0 State.msgLost)).linkTrain l

/-- A write of `LNK_CTRL` (R381). -/
def State.lnkCtrlWrite (s : State) (l : Nat) (v : Word) : State :=
  let old := s.reg (Pg.lnk l + 0x100)
  let s := s.setReg (Pg.lnk l + 0x100) (v &&& 0x0000FFFFFFFF0003#64)
  let s := if bit v 0 && !bit old 0 then s.linkEnable l
    else if !bit v 0 && bit old 0 then s.linkDisable l
    else if bit v 0 && bit v 2 then s.linkRetrain l else s
  s.ends .ok

/-- A control frame on a link in training: IDENT, PING and PONG are exchanged before the link is UP. -/
def State.trainFrame (s : State) (l : Nat) (t : CType) (body : List Byte) : State := s.sendFrame l t 0 false body

/-- A PING sent on a link. -/
def State.linkPing (s : State) (l : Nat) : State :=
  (s.trainFrame l .ping (toLe 8 s.ct ++ zeros 16)).modLink l fun k => { k with pingCt := s.ct }

/-- The neighbour and link number the wiring rule expects (R383). -/
def State.expectedPeer (s : State) (l : Nat) : Option (Nat × Nat) :=
  (s.bundleOf l).map fun b => (s.neighbour s.boot.slotId b, (b ^^^ 1) * s.bundleW + l % s.bundleW)

/-- IDENT from a peer: cluster, then neighbour; a mismatch leaves the link MISWIRED (R380, R382). -/
def State.linkIdent (s : State) (l : Nat) (f : List Byte) : State :=
  if (s.link l).mode != .training then s
  else if !frameSound f then s.modLink l fun k => { k with frameErrs := k.frameErrs + 1 }
  else
    let cfg := s.reg (Pg.fab + 0x100)
    let slot := field f 2 1 % 64
    let link := field f 3 1
    let s := s.modLink l fun k => { k with peerValid := true, peerSlot := slot, peerLink := link, peerEpoch := field f 4 4 }
    let bad := if field f 0 2 ≠ bits cfg 16 16 then 4
      else if !s.joined || (bit cfg 10 && s.expectedPeer l != some (slot, link)) then 5 else 0
    if bad ≠ 0 then (s.modLink l fun k => { k with mode := .miswired, cause := bad }).raise (Pg.lnk l) 2
    else s.linkPing l

/-- PING on a link: answered with a PONG that carries the CT of its sending. -/
def State.linkPinged (s : State) (l : Nat) (f : List Byte) : State :=
  let m := (s.link l).mode
  if (m == .training || m == .up) && frameSound f then s.trainFrame l .pong (toLe 8 s.ct ++ zeros 16) else s

/-- PONG on a link: a round trip measured; the smallest of 16 counts (Table Link training). -/
def State.linkPonged (s : State) (l : Nat) (f : List Byte) : State :=
  let k := s.link l
  if k.mode != .training || !frameSound f || 16 ≤ k.pings then s
  else
    let r := s.ct - k.pingCt
    let s := s.modLink l fun k => { k with pings := k.pings + 1, rtt := some (match k.rtt with | some x => min x r | none => r) }
    if k.pings + 1 < 16 then s.linkPing l else s

/-- LINK_TRAIN_DONE: lock, IDENT and 16 exchanges made, the link goes UP with its delay (R381). -/
def State.linkTrainDone (s : State) (l : Nat) : State :=
  let k := s.link l
  if k.mode = .training ∧ k.peerValid ∧ 16 ≤ k.pings then
    let s := s.modLink l fun k => { k with mode := .up, delay := (k.rtt.getD 0) / 2, goodClk := s.clk }
    s.raise (Pg.lnk l) 3
  else s

/-- TRAIN_FAIL: `TRAIN_MS` passes in training; 0 is treated as 1 (R381). -/
def State.linkTrainFail (s : State) (l : Nat) : State :=
  if (s.link l).mode = .training then
    let s := s.waitClk ((s.link l).trainClk + usTicks * (max 1 (s.fld (Pg.lnk l + 0x100) 16 16) * 1000))
    (s.modLink l fun k => { k with mode := .failed, cause := 1 }).raise (Pg.lnk l) 1
  else s

/-- LINK_DOWN: a flit replayed 8 times, or 2 µs without a codeword or a valid flit (R379). -/
def State.linkDown (s : State) (l : Nat) : State :=
  let k := s.link l
  if k.mode = .up then
    let limit := k.replay.any fun r => 8 ≤ r.2.2
    let s := if limit then s else s.waitClk (k.goodClk + 2 * usTicks)
    let s := s.bump (Pg.lnk l + 0x148) 1
    (s.linkLeave l .down (if limit then 3 else 2) State.msgLost).raise (Pg.lnk l) 0
  else s

/-- AUTO_RETRAIN: 1 ms after DOWN the link trains again (R381). -/
def State.linkAutoRetrain (s : State) (l : Nat) : State :=
  let c := s.reg (Pg.lnk l + 0x100)
  if (s.link l).mode = .down ∧ bit c 0 ∧ bit c 1 then (s.waitClk ((s.link l).downClk + 1000 * usTicks)).linkTrain l else s

/-! ### Flits (R378) -/

/-- The credit bytes of a flit added to those held, and its ACK taken: what it covers leaves the replay buffer. -/
def Link.taken (k : Link) (f : List Byte) : Link :=
  let ack := field f 250 2 % 4096
  let held := k.replay.dropWhile fun r => (ack + 4096 - r.1) % 4096 < 2048
  { k with credits := (List.range 6).map fun i => k.credits.getD i 0 + field f (2 + i) 1
           replay := if k.replay.any fun r => r.1 == ack then held else k.replay }

/-- The flits not acknowledged are sent again (R378). -/
def State.linkReplay (s : State) (l : Nat) : State :=
  let k := s.link l
  if k.replay.isEmpty then s
  else
    let s := s.bump (Pg.lnk l + 0x128) 1
    let s := (k.replay.foldl (fun s r => s.emit (.flit l (k.flit r.1 r.2.1))) s).bump (Pg.lnk l + 0x130) k.replay.length
    s.modLink l fun k => { k with replay := k.replay.map fun r => (r.1, r.2.1, r.2.2 + 1) }

/-- The corrected symbols of a codeword counted, and FEC_WARN where a millisecond has too many. -/
def State.linkFec (s : State) (l n : Nat) : State :=
  if n = 0 then s
  else
    let ms := s.clk / (1000 * usTicks)
    let s := (s.bump (Pg.lnk l + 0x110) 1).bump (Pg.lnk l + 0x118) n
    let before := if (s.link l).fecMs = ms then (s.link l).fecSyms else 0
    let s := s.modLink l fun k => { k with fecMs := ms, fecSyms := before + n }
    let warn := s.fld (Pg.lnk l + 0x100) 32 16
    if warn ≠ 0 ∧ warn < before + n then s.raise (Pg.lnk l) 4 { onChange := true } else s

/-- FLIT_RECEIVE: accepted in sequence, or answered with NAK and discarded until the expected one comes again (R378). -/
def State.flitReceive (s : State) (l : Nat) (f : List Byte) (decoded : Bool) (fixed : Nat) : State :=
  if (s.link l).mode != .up then s
  else
    let s := if decoded then s.linkFec l fixed else s.bump (Pg.lnk l + 0x120) 1
    let k := s.link l
    let sound := decoded && (crc32c (f.take 252)).toNat == field f 252 4 && field f 248 2 % 4096 == k.rxSeq
    if !sound then
      if k.naked then s
      else (s.emit (.nak false l k.rxSeq)).modLink l fun k => { k with naked := true }
    else
      let b0 := field f 0 1
      let type := b0 % 8
      let pool := 2 * (type - 2) + b0 / 8 % 2
      let s := if type = 0 then s else s.bump (Pg.lnk l + 0x138) 1
      let s := s.modLink l fun k =>
        let k := { k.taken f with rxSeq := (k.rxSeq + 1) % 4096, naked := false, goodClk := s.clk }
        if 2 ≤ type ∧ type ≤ 4 then
          let had := if b0 / 16 % 2 = 1 then [] else k.partials.get [] pool
          let now := had ++ (f.drop 8).take 240
          { k with freed := k.freed.set pool (k.freed.getD pool 0 + 1)
                   partials := if b0 / 32 % 2 = 1 then k.partials.drop pool else k.partials.put pool now }
        else k
      let s := if field f 1 1 % 2 = 1 then s.linkReplay l else s
      s.drainLink l (s.link l).queue.length

/-! ### Liveness (R391) -/

/-- The domains that have an enabled slot or a rank group with a module in it. -/
def State.peerDoms (s : State) (id : Nat) : List Nat :=
  let slots := (List.range 16).filter fun p => s.slotEnabled p
    && ((s.members p).contains id || (match (s.slot p).lastMark with | some m => m.leader == id | none => false))
  let groups := s.fabric.groups.items.filter fun g => g.2.en && g.2.members.contains id
  (slots.map s.ownerOf ++ groups.map fun g => s.ownerOf g.2.part).eraseDups

/-- Cadence slots whose group a lost module belongs to go to HALTED; a leader tells its members (R55). A member knows its leader from
the marks it has had, so one that has had none is not halted (DESIGN CHOICE, log entry 89). -/
def State.haltForPeer (s : State) (id : Nat) : State :=
  (List.range 16).foldl (fun s p =>
    if !s.slotEnabled p then s
    else if s.slotLeader p then (if (s.members p).contains id then s.leaderHalt p 2 else s)
    else match (s.slot p).lastMark with
      | some m => if m.leader = id then s.haltSlot p 2 else s
      | none => s) s

/-- A peer is lost: everything that names it completes with PEER_LOST (R391). -/
def State.losePeer (s : State) (id : Nat) : State :=
  let s := s.modFabric fun f =>
    { f with peers := f.peers.put id { f.peers.get {} id with live := false, lost := true } }
  let s := s.raise Pg.fab 0 { dests := some (0 :: s.peerDoms id), status := .peerLost }
  let s := (s.fabric.reqs.filter fun r => r.dst == id).foldl (fun s r => s.reqDone r .peerLost) s
  (s.collPeerLost id).haltForPeer id

/-- Timer of the LIVE frames. -/
def liveTimer : Nat := 4

/-- LIVE_SEND: every 10 µs a joined module floods a LIVE frame. -/
def State.liveSend (s : State) : State :=
  if !s.joined then s
  else
    let s := s.periodic liveTimer (10 * usTicks)
    let seq := s.fabric.liveSeq
    let s := s.modFabric fun f => { f with liveSeq := (f.liveSeq + 1) % 65536 }
    s.floodFrame none .live
      (toLe 1 s.boot.slotId ++ zeros 1 ++ toLe 2 seq ++ toLe 4 s.fabric.epoch ++ toLe 8 s.ct ++ zeros 8)

/-- LIVE_RECEIVE: a new frame is passed on; it refreshes the peer, brings it back, or tells of a new boot (R391). -/
def State.liveReceive (s : State) (l : Nat) (f : List Byte) : State :=
  if (s.link l).mode != .up then s
  else if !frameSound f then s.modLink l fun k => { k with frameErrs := k.frameErrs + 1 }
  else
    let id := field f 0 1 % 64
    let seq := field f 2 2
    let epoch := field f 4 4
    let p := s.fabric.peers.get {} id
    let same := p.epoch == some epoch
    let old := same && (match p.seq with | some n => (65536 + n - seq) % 65536 < 32768 | none => false)
    if id = s.boot.slotId ∨ old then s
    else
      let s := s.floodFrame (some l) .live (f.take 24)
      let set (s : State) (g : Peer → Peer) := s.modFabric fun fb => { fb with peers := fb.peers.put id (g (fb.peers.get {} id)) }
      let s := set s fun p => { p with epoch := some epoch, seq := some seq, lastClk := s.clk }
      if p.epoch.isSome && !same && !p.lost then s.losePeer id
      else if p.lost then
        (set s fun p => { p with live := true, lost := false }).raise Pg.fab 1
          { dests := some (0 :: s.peerDoms id) }
      else set s fun p => { p with live := true }

/-- PEER_LOST: no LIVE from a live peer for 50 µs. -/
def State.peerTimeout (s : State) (id : Nat) : State :=
  let p := s.fabric.peers.get {} id
  if p.live ∧ !p.lost then (s.waitClk (p.lastClk + 50 * usTicks)).losePeer id else s

/-- `FAB_LIVE`. -/
def State.fabLive (s : State) : Word :=
  word (maskOf (s.boot.slotId :: s.fabric.peers.keysWhere fun _ p => p.live))

/-! ### Messages (R385, R392, R393) -/

/-- MESSAGE_FORWARD: a message for another module goes on, in transit, on the sub-lane of its way (R384, R385). -/
def State.messageForward (s : State) (l sub : Nat) (b : List Byte) : State :=
  let m := Msg.ofBytes b
  if (s.link l).mode != .up || m.dst == s.boot.slotId then s
  else match s.routeLink m.dst (s.bundleOf l) with
    | (s, some k) =>
      let bn := (s.bundleOf k).getD 0
      s.queueOn k { vc := kindVc m.kind, sub := s.subLane bn ((s.bundleOf l).map fun c => (c, sub)), fwd := true
                    relay := m.kind == MKind.relay, bytes := b }
    | (s, none) => s

/-- A message has come to this module on a link that is UP. -/
def State.comesHere (s : State) (l : Nat) (m : Msg) (kind : Nat) : Bool :=
  (s.link l).mode == .up && m.dst == s.boot.slotId && m.kind == kind

/-- REMOTE_WRITE: checked against the partition of its group, applied, answered; a repeated one is answered again (R392, R393). -/
def State.remoteWrite (s : State) (l : Nat) (b : List Byte) : State :=
  let m := Msg.ofBytes b
  if !s.comesHere l m MKind.write then s
  else match s.answeredAs m.src m.tag with
    | some st => s.respond m (statusOfCode st)
    | none =>
      let r : State × Status := match s.groupPart m.group with
        | none => (s, .access)
        | some p =>
          let a := m.arg % 2 ^ 52
          if s.devCheck (.part p false) a m.len true ≠ .ok then (s, .access) else s.devWrite a (m.data.take m.len)
      (r.1.noteAnswer m.src m.tag (statusCode r.2)).respond m r.2

/-- The bytes lie in one region that this module serves as a PEER source (`IG_SRC0.REPLICA`, near R460). -/
def State.replicaHolds (s : State) (a n : Nat) : Bool :=
  match s.regionOfUnit (a / unitBytes) with
  | none => false
  | some (i, r) => bit (s.reg (keyAt (Pg.ig + 0x188) i)) 60 && decide (a + n ≤ unitBytes * (r.base + r.count))

/-- REMOTE_READ: checked, and served with data; a repeated one reads again (R392, R393). A read whose group no enabled slot carries is
taken as a PEER read of a repair, and served from a region with REPLICA set (R460; DESIGN CHOICE, log entry 106). -/
def State.remoteRead (s : State) (l : Nat) (b : List Byte) : State :=
  let m := Msg.ofBytes b
  if !s.comesHere l m MKind.read then s
  else match s.groupPart m.group with
    | none =>
      let a := m.arg % 2 ^ 52
      if !s.replicaHolds a m.len then s.respond m .access
      else
        let r := s.devRead a m.len
        r.1.respond m r.2.2 (if r.2.2 = .ok then r.2.1 else [])
    | some p =>
      let a := m.arg % 2 ^ 52
      if s.devCheck (.part p false) a m.len false ≠ .ok then s.respond m .access
      else
        let r := s.devRead a m.len
        r.1.respond m r.2.2 (if r.2.2 = .ok then r.2.1 else [])

/-- REMOTE_SIGNAL: signals a counter below `REMOTE_COUNT` of the group's partition, else ACCESS (R71, R392). -/
def State.remoteSignal (s : State) (l : Nat) (b : List Byte) : State :=
  let m := Msg.ofBytes b
  if !s.comesHere l m MKind.signal then s
  else match s.answeredAs m.src m.tag with
    | some st => s.respond m (statusOfCode st)
    | none =>
      let i := m.arg % 2 ^ 15
      let n := m.arg / 2 ^ 32 % 2 ^ 16
      let r : State × Status := match s.groupPart m.group with
        | none => (s, .access)
        | some p =>
          if i < s.fld (Pg.slot p + 0x030) 32 16 ∧ (s.absCtr p i).isSome then (s.signal p i n, .ok) else (s, .access)
      (r.1.noteAnswer m.src m.tag (statusCode r.2)).respond m r.2

/-- The outstanding message a response answers. -/
def State.reqOf (s : State) (m : Msg) : Option Req :=
  s.fabric.reqs.find? fun r => r.tag == m.tag && r.dst == m.src

/-- REMOTE_RESP: the originating transfer or entry completes with the response's status and data (R393). -/
def State.remoteResp (s : State) (l : Nat) (b : List Byte) : State :=
  let m := Msg.ofBytes b
  if !s.comesHere l m MKind.resp then s
  else match s.reqOf m with
    | some r => s.reqDone r (statusOfCode (m.arg % 256)) (m.data.take m.len)
    | none => s

/-- RELAY_RESP_RECEIVE: the answer of a relayed request becomes an RSP with the node's TAG (R422). -/
def State.relayResp (s : State) (l : Nat) (b : List Byte) : State :=
  let m := Msg.ofBytes b
  if !s.comesHere l m MKind.relayResp then s
  else match s.reqOf m with
    | some r => s.reqDone r (statusOfCode (m.arg % 256)) (m.data.take m.len)
    | none => s

/-- CONTRIB_RECEIVE (R401). -/
def State.contribReceive (s : State) (l : Nat) (b : List Byte) : State :=
  let m := Msg.ofBytes b
  if s.comesHere l m MKind.contrib then s.contribTake m else s

/-- MESSAGE_RESEND: the oldest message unanswered and not resent is sent again after 20 µs with its TAG (R393). -/
def State.messageResend (s : State) : State :=
  match s.fabric.reqs.find? fun r => !r.resent with
  | none => s
  | some r =>
    let s := s.waitClk (r.sentClk + 20 * usTicks)
    let s := s.modFabric fun f => { f with reqs := f.reqs.map fun x => if x.tag = r.tag then { x with resent := true } else x }
    (s.sendMsg { dst := r.dst, src := s.boot.slotId, kind := r.kind, group := r.group, tag := r.tag, len := r.len, arg := r.arg
                 data := r.data } (r.kind == MKind.relay)).1

/-- TRANSACTION_TIMEOUT: the oldest message of this module, or else its oldest read of node memory, unanswered after 100 µs
completes with PEER_LOST (R33, R393, R408). -/
def State.transactionTimeout (s : State) : State :=
  match s.fabric.reqs, s.nodeReqs with
  | r :: _, _ => (s.waitClk (r.sentClk + 100 * usTicks)).reqDone r .peerLost
  | [], n :: rest =>
    let s := s.waitClk (n.sentClk + 100 * usTicks)
    ({ s with nodeReqs := rest }).useDone n.use .peerLost []
  | [], [] => s

/-! ### Fabric registers -/

/-- A write of `FAB_CFG`: sizes of 1, 2 or 4, DZ above 1 only with six bundles, and no link TRAINING or UP. -/
def State.fabCfgWrite (s : State) (v : Word) : State :=
  let ok (n : Nat) := n == 1 || n == 2 || n == 4
  let busy := (List.range 96).any fun l => (s.link l).mode == .training || (s.link l).mode == .up
  if busy || !ok (bits v 0 3) || !ok (bits v 3 3) || !ok (bits v 6 3) || (decide (1 < bits v 6 3) && !bit v 9) then s.ends .access
  else (s.setReg (Pg.fab + 0x100) (v &&& 0xFFFF07FF#64)).ends .ok

/-- `FAB_STAT`. -/
def State.fabStat (s : State) : Word :=
  let c := s.coords s.boot.slotId
  pack [(c.1 % 4, 0), (c.2.1 % 4, 2), (c.2.2 % 4, 4), (b2n s.joined, 6)
      , ((s.fabric.peers.keysWhere fun _ p => p.lost).length, 8)]

/-- `FAB_ROUTE`. -/
def State.fabRoute (s : State) : Word :=
  word (maskOf ((List.range s.nBundles).filter fun b => (s.upLinks b).isEmpty))

/-- `LNK_STAT`. -/
def State.lnkStat (s : State) (l : Nat) : Word :=
  let k := s.link l
  pack [(match k.mode with | .off => 0 | .training => 1 | .up => 2 | .down => 3 | .miswired => 4 | .failed => 5, 0)
      , (if k.peerValid then k.peerSlot else 0, 8), (b2n k.peerValid, 14), (if k.peerValid then k.peerLink % 128 else 0, 16)
      , (k.delay % 65536, 24), (k.cause, 40)]

/-- `LNK_TXFLITS`: flits of messages, replayed ones among them, and CTRL flits. -/
def State.lnkTxFlits (s : State) (l : Nat) : Word :=
  word (sat (2 ^ 64 - 1) ((s.reg (Pg.lnk l + 0x130)).toNat + (s.link l).ctrlFlits))

/-- `LNK_CRED`. -/
def State.lnkCred (s : State) (l : Nat) : Word :=
  pack ((s.link l).credits.zipIdx.map fun c => (c.1 % 256, 8 * c.2))

end Sys2Proof.Machine
end

