-- ==== Sys2Proof/Machine/Rings.lean ====
section
/-! DEFINITION. The rings of a domain: the submission ring and its polls, the event ring (R416–R418, R423). -/

namespace Sys2Proof.Machine

/-- An event of a Dorondlink domain page, to the domain and the steward; bit 0 is recorded each time (R424). -/
def State.dqEvent (s : State) (d b : Nat) : State :=
  s.raise (Pg.dq d) b { dests := some [d, 0], onChange := b != 0 }

/-! ### Event ring (R417) -/

/-- The bytes of an event record (Table Event record). -/
def EventRec.bytes (r : EventRec) (slotId : Nat) : List Byte :=
  toLe 1 r.kind ++ toLe 1 (r.bit % 64) ++ toLe 2 r.count ++ toLe 4 r.page ++ toLe 8 r.ct ++ toLe 8 r.arg ++ toLe 4 r.logix
    ++ toLe 1 r.status ++ toLe 1 (match r.part with | some p => p % 16 + 16 | none => 0) ++ toLe 1 (slotId % 64) ++ toLe 1 0

/-- The event ring of a domain has room. -/
def State.eqRoom (s : State) (d : Nat) : Bool :=
  let c := s.reg (Pg.dq d + 0x120)
  let prod := s.fld (Pg.dq d + 0x130) 0 32
  let cons := s.fld (Pg.dq d + 0x128) 0 32
  bit c 0 && decide ((2 ^ 32 + prod - cons) % 2 ^ 32 < 2 ^ bits c 1 5)

/-- EVENT_RECORD_WRITE: the oldest record is written to the ring, then the producer count; with no way to the node it waits and
RELAY_LOST is raised (R417, R423). -/
def State.eventWrite (s : State) (d : Nat) : State :=
  match s.evq.get [] d with
  | [] => s
  | r :: rest =>
    if !s.eqRoom d then s
    else
      let base := s.fld (Pg.dq d + 0x118) 0 52
      let n := s.fld (Pg.dq d + 0x120) 1 5
      let prod := s.fld (Pg.dq d + 0x130) 0 32
      let q := s.nodeWrite d (base + 32 * (prod % 2 ^ n)) (r.bytes s.boot.slotId) (.record d)
      if !q.2 then (if (s.portFor d).isNone && (s.relayOf d).isNone then q.1.dqEvent d 3 else q.1)
      else
        let next := (prod + 1) % 2 ^ 32
        let s := ({ q.1 with evq := q.1.evq.put d rest }).setReg (Pg.dq d + 0x130) (word next)
        (s.nodeWrite d (base - 8) (toLe 8 next) (.record d)).1

/-- A write of `DQ_EQ_BASE` or `DQ_EQ_CTRL`: refused while the ring is enabled, but to disable it. -/
def State.eqWrite (s : State) (d : Nat) (ctrl : Bool) (v : Word) : State :=
  let k := Pg.dq d + 0x120
  let old := s.reg k
  if ctrl then
    let v := v &&& 0x3F#64
    if bit old 0 && bits old 1 5 != bits v 1 5 then s.ends .access
    else if bit v 0 && !(decide (4 ≤ bits v 1 5) && decide (bits v 1 5 ≤ 20)) then s.ends .access
    else (s.setReg k v).ends .ok
  else if bit old 0 || !aligned (bits v 0 52) 32 then s.ends .access
  else (s.setReg (Pg.dq d + 0x118) (v &&& 0xFFFFFFFFFFFFF#64)).ends .ok

/-! ### Submission ring (R416) -/

/-- Registers of a submission ring. -/
def sqBase (d : Nat) : Nat := Pg.dq d + 0x100
def sqCtrl (d : Nat) : Nat := Pg.dq d + 0x108
def sqHead (d : Nat) : Nat := Pg.dq d + 0x110

/-- One entry of the ring is fetched and applied; an uncorrectable one gives a CMD_DONE record with POISON (R416). -/
def State.sqEntry (s : State) (d : Nat) : State :=
  let n := s.fld (sqCtrl d) 1 4
  let head := s.fld (sqHead d) 0 32
  let r := s.devRead (s.fld (sqBase d) 0 52 + 128 * (head % 2 ^ n)) 128
  let s := r.1.setReg (sqHead d) (word ((head + 1) % 2 ^ 32))
  if r.2.2 = .ok then s.command d r.2.1
  else
    ({ s with commands := s.commands.put d (s.commands.get 0 d + 1) }).useFree.pushEvent d
      { kind := 1, page := Pg.dq d, ct := s.ct, arg := (Config.freeWord s.free).toNat, status := statusCode .poison }

/-- The tail word is read and the new entries applied in ring order; a tail too far ahead halts the ring (R416). -/
def State.sqRead (s : State) (d : Nat) : State :=
  let c := s.reg (sqCtrl d)
  if !bit c 0 || bit c 8 || !s.enginesRun || s.wedged d then s
  else
    let r := s.devRead (s.fld (sqBase d) 0 52 - 8) 8
    if r.2.2 ≠ .ok then r.1
    else
      let s := r.1
      let new := (2 ^ 32 + field r.2.1 0 4 - s.fld (sqHead d) 0 32) % 2 ^ 32
      if 2 ^ bits c 1 4 < new then (s.setFld (sqCtrl d) 8 1 1).dqEvent d 0
      else (List.range new).foldl (fun s _ => s.sqEntry d) s

/-- A slot of the domain's partitions is RUNNING. -/
def State.domRuns (s : State) (d : Nat) : Bool :=
  (List.range 16).any fun p => s.ownerOf p == d && s.slotEnabled p && (s.slot p).mode == .running

/-- Timer of a domain's polls. -/
def sqTimer (d : Nat) : Nat := 0x40000 + d

/-- SQ_POLL_TIMER: every 2 µs while no slot of the domain runs (R416). -/
def State.sqPollTimer (s : State) (d : Nat) : State :=
  if s.domRuns d || !bit (s.reg (sqCtrl d)) 0 then s else (s.periodic (sqTimer d) (2 * usTicks)).sqRead d

/-- Bytes that lie in EXCLUSIVE regions of a domain's partitions. -/
def State.ownExclusive (s : State) (d addr n : Nat) : Bool :=
  decide (addr + n ≤ s.devEnd)
    && (List.range (ceilDiv (addr + n) unitBytes - addr / unitBytes)).all fun i =>
      match s.regionOfUnit (addr / unitBytes + i) with
      | some (_, r) => r.mode == 1 && s.ownerOf r.part == d
      | none => false

/-- SQ_ENABLE: a write of `DQ_SQ_CTRL`; the ring and its tail word must lie in the domain's EXCLUSIVE regions; setting `EN` restarts
the ring from its head and reads the tail (R416). -/
def State.sqCtrlWrite (s : State) (d : Nat) (v : Word) : State :=
  let old := s.reg (sqCtrl d)
  let n := bits v 1 4
  let base := s.fld (sqBase d) 0 52
  if n < 4 ∨ 14 < n then s.ends .access
  else if bit old 0 && bits old 1 4 != n then s.ends .access
  else if bit v 0 then
    if base < 8 ∨ !s.ownExclusive d (base - 8) (8 + 128 * 2 ^ n) then s.ends .access
    else
      let t := s.setReg (sqCtrl d) (v &&& 0x1F#64)
      (t.sqRead d).ends .ok
  else (s.setReg (sqCtrl d) ((v &&& 0x1F#64) ||| (old &&& 0x100#64))).ends .ok

/-- A write of `DQ_SQ_BASE`, refused while the ring is enabled. -/
def State.sqBaseWrite (s : State) (d : Nat) (v : Word) : State :=
  if bit (s.reg (sqCtrl d)) 0 || !aligned (bits v 0 52) 128 then s.ends .access
  else (s.setReg (sqBase d) (v &&& 0xFFFFFFFFFFFFF#64)).ends .ok

end Sys2Proof.Machine
end

