-- ==== Sys2Proof/Machine/Dlk.lean ====
section
/-! DEFINITION. Dorondlink ports: bring-up, frames, loss of a port, and the memory, plan and response transactions of the node
(R406–R415, R420–R422). -/

namespace Sys2Proof.Machine

/-! ### Bring-up (R406–R408) -/

/-- A port event, to the steward; PORT_DOWN is recorded each time (R424). -/
def State.portEvent (s : State) (i b : Nat) : State := s.raise (Pg.port i) b { dests := some [0], onChange := b != 0 }

/-- A PING on a port. -/
def State.portPing (s : State) (i : Nat) : State :=
  (s.emit (.portMsg i 2 (toLe 8 s.ct))).modPort i fun p => { p with pingClk := s.clk }

/-- What a port that leaves UP still owes its node: records and engine writes, sent again once a port of the domain is available;
responses and reads are not (R408). -/
def Port.owes (p : Port) : List PMsg :=
  ((p.sent.map fun m => m.2) ++ p.queue).filter fun m => match m.what with | .nodeWr _ _ _ => true | _ => false

/-- A port leaves UP: requests not applied are discarded, its writes go to another UP port of its domain, or wait (R408). -/
def State.portLeave (s : State) (i : Nat) (m : PortMode) (cause : Nat) : State :=
  let owed := (s.port i).owes
  let s := s.modPort i fun p =>
    { p with mode := m, cause := cause, downClk := s.clk, replay := [], sent := [], queue := owed, reqIn := [], rspIn := [] }
  let s := s.modFabric fun f => { f with relayWait := f.relayWait.filter fun w => w.1 != i }
  match (s.portDomain i).bind s.portFor with
  | some j => owed.foldl (fun s m => s.portSend j m) (s.modPort i fun p => { p with queue := [] })
  | none => s

/-- PORT_ENABLE: EN set starts bring-up (R406). -/
def State.portEnable (s : State) (i : Nat) : State := s.portTrain i

/-- PORT_DISABLE: EN cleared turns the port OFF. -/
def State.portDisable (s : State) (i : Nat) : State := s.portLeave i .off 0

/-- PORT_RETRAIN: training from any state while EN is set. -/
def State.portRetrain (s : State) (i : Nat) : State := (s.portLeave i .training 0).portTrain i

/-- A write of `DLK_CTRL` (Table `DLK_CTRL`). -/
def State.dlkCtrlWrite (s : State) (i : Nat) (v : Word) : State :=
  let k := Pg.port i + 0x100
  let old := s.reg k
  let m := (s.port i).mode
  if bits v 4 3 ≠ bits old 4 3 ∧ (m = .training ∨ m = .up) then s.ends .access
  else if bits v 4 3 ≠ bits old 4 3 ∧ bit v 6 ∧ !s.attached (bits v 4 2) then s.ends .access
  else
    let s := s.setReg k (v &&& 0xFFFF00F3#64)
    let s := if bit v 0 && !bit old 0 then s.portEnable i
      else if !bit v 0 && bit old 0 then s.portDisable i
      else if bit v 0 && bit v 2 then s.portRetrain i else s
    s.ends .ok

/-- IDENT from the node: its id, and protocol version 1; another version leaves the port TRAINING (R407). -/
def State.portIdentIn (s : State) (i : Nat) (body : List Byte) : State :=
  if (s.port i).mode != .training then s
  else
    let ok := field body 2 1 == 1
    let s := s.modPort i fun p => { p with nodeId := field body 0 2, identOk := ok, cause := if ok then 0 else 5 }
    if ok then s.portPing i else s

/-- PING from the node: answered with the module's stamps. -/
def State.portPinged (s : State) (i : Nat) (body : List Byte) : State :=
  let m := (s.port i).mode
  if m == .training || m == .up then s.emit (.portMsg i 3 (body.take 8 ++ toLe 8 s.ct ++ toLe 8 s.ct)) else s

/-- PONG from the node: a one-way delay from the four stamps; `DELAY` is the least of the last 16 (R407). -/
def State.portPonged (s : State) (i : Nat) (body : List Byte) : State :=
  let p := s.port i
  if p.mode != .training && p.mode != .up then s
  else
    let rt : Int := ((s.ct : Int) - field body 0 8) - ((field body 16 8 : Int) - field body 8 8)
    let delays := ((max 0 (rt / 2)).toNat :: p.delays).take 16
    let s := s.modPort i fun p => { p with delays := delays }
    if p.mode == .training then (if delays.length < 16 then s.portPing i else s)
    else s.modPort i fun p => { p with delay := delays.foldl min (delays.headD 0) }

/-- PORT_TRAIN_DONE: lock, IDENT and 16 exchanges made, the port goes UP; what other ports of its domain still owe is sent (R407,
R408). -/
def State.portTrainDone (s : State) (i : Nat) : State :=
  let p := s.port i
  if p.mode = .training ∧ p.identOk ∧ 16 ≤ p.delays.length then
    let s := s.modPort i fun p =>
      { p with mode := .up, delay := p.delays.foldl min (p.delays.headD 0), goodClk := s.clk, pingClk := s.clk }
    let s := s.portEvent i 2
    let s := (List.range 4).foldl (fun s j =>
      if j != i && (s.port j).mode != .up && s.portDomain j == s.portDomain i && (s.portDomain i).isSome then
        let q := (s.port j).queue
        q.foldl (fun s m => s.portSend i m) (s.modPort j fun p => { p with queue := [] })
      else s) s
    s.drainPort i (s.port i).queue.length
  else s

/-- PORT_TRAIN_FAIL: `TRAIN_MS` passes in training; 0 is treated as 1 (R407, R408). -/
def State.portTrainFail (s : State) (i : Nat) : State :=
  let p := s.port i
  if p.mode = .training then
    let s := s.waitClk (p.trainClk + usTicks * (max 1 (s.fld (Pg.port i + 0x100) 16 16) * 1000))
    (s.modPort i fun p => { p with mode := .failed, cause := if p.cause = 5 then 5 else 1 }).portEvent i 1
  else s

/-- PORT_DOWN: a frame replayed 8 times, lost lock for 2 µs, or 50 µs without a valid frame (R408). -/
def State.portDown (s : State) (i : Nat) (lock : Bool) : State :=
  let p := s.port i
  if p.mode = .up then
    let limit := p.replay.any fun r => 8 ≤ r.2.2.2
    let s := if limit then s else s.waitClk (p.goodClk + usTicks * (if lock then 2 else 50))
    (s.portLeave i .down (if limit then 4 else if lock then 2 else 3)).portEvent i 0
  else s

/-- PORT_AUTO_RETRAIN: 1 ms after DOWN the port trains again (R408). -/
def State.portAutoRetrain (s : State) (i : Nat) : State :=
  let c := s.reg (Pg.port i + 0x100)
  let p := s.port i
  if p.mode = .down ∧ bit c 0 ∧ bit c 1 then (s.waitClk (p.downClk + 1000 * usTicks)).portTrain i else s

/-- PORT_PING_SEND: every 1 ms an UP port sends a PING (R407). -/
def State.portPingSend (s : State) (i : Nat) : State :=
  if (s.port i).mode = .up then (s.waitClk ((s.port i).pingClk + 1000 * usTicks)).portPing i else s

/-! ### Frames (R409) -/

/-- The frames not acknowledged are sent again. -/
def State.portReplay (s : State) (i : Nat) : State :=
  let p := s.port i
  if p.replay.isEmpty then s
  else
    let s := s.bump (Pg.port i + 0x120) 1
    let s := p.replay.foldl (fun s r => s.emit (.frame i (p.frame r.1 r.2.1 r.2.2.1))) s
    s.modPort i fun p => { p with replay := p.replay.map fun r => (r.1, r.2.1, r.2.2.1, r.2.2.2 + 1) }

/-- A number of frames lies at or before an acknowledged one, modulo 2^16. -/
def ackCovers (ack seq : Nat) : Bool := decide ((65536 + ack - seq) % 65536 < 32768)

/-- The whole transactions at the head of a stream, and what is left; a PAD ends its frame's payload (R409). -/
def Port.splitStream : Nat → List Byte → List Byte
  | 0, b => b
  | fuel + 1, b =>
    if b.length < 16 then b
    else if field b 0 1 = 0 then []
    else
      let op := field b 0 1
      let n := 16 + (if op = 2 ∨ op = 4 ∨ op = 5 ∨ op = 6 then field b 4 2 % 8192 else 0)
      if b.length < n then b else Port.splitStream fuel (b.drop n)

/-- PORT_FRAME_RECEIVE: accepted in sequence, or answered with NAK and discarded; its credits and acknowledgement are taken (R409). -/
def State.frameReceive (s : State) (i : Nat) (f : List Byte) (decoded : Bool) (fixed : Nat) : State :=
  let p := s.port i
  if p.mode != .up then s
  else
    let s := if !decoded then s.bump (Pg.port i + 0x118) 1 else if fixed = 0 then s else s.bump (Pg.port i + 0x110) 1
    let sound := decoded && (crc32c (f.take 508)).toNat == field f 508 4 && field f 6 2 == p.rxSeq
    if !sound then
      if p.naked then s else (s.emit (.nak true i p.rxSeq)).modPort i fun p => { p with naked := true }
    else
      let ack := field f 8 2
      let type := field f 0 1 % 4
      let vc := field f 1 1 % 2
      let pay := (f.drop 16).take 492
      let hit := p.replay.any fun r => r.1 == ack
      let s := s.modPort i fun p =>
        let p := { p with reqCred := p.reqCred + field f 2 2, rspCred := p.rspCred + field f 4 2, rxSeq := (p.rxSeq + 1) % 65536
                          naked := false, goodClk := s.clk
                          replay := if hit then p.replay.filter fun r => !ackCovers ack r.1 else p.replay
                          sent := if hit then p.sent.filter fun m => !ackCovers ack m.1 else p.sent }
        if type = 1 then
          if vc = 1 then { p with rspIn := Port.splitStream 492 (p.rspIn ++ pay) }
          else { p with reqIn := Port.splitStream 492 (p.reqIn ++ pay) }
        else p
      let s := if field f 0 1 / 4 % 2 = 1 then s.portReplay i else s
      s.drainPort i (s.port i).queue.length

/-! ### Transactions (R411–R413) -/

/-- Reserved bits of a request are clear (R411). -/
def Trans.clean (t : Trans) : Bool :=
  decide (t.dst < 64) && decide (t.len < 8192) && t.status == 0 && decide (t.ack < (if t.op = 4 then 2 else 1))

/-- A MEM_RD or MEM_WR checked: ACCESS before LENGTH; a length of 0 completes at once (R411). -/
def State.memCheck (s : State) (d : Nat) (t : Trans) (write : Bool) : Status :=
  if !t.clean || decide (2 ^ 52 ≤ t.addr) then .access
  else if t.len = 0 then .ok
  else
    let st := s.devCheck (.dom d) t.addr t.len write
    if st = .access then .access
    else if t.len % 32 ≠ 0 ∨ 4096 < t.len ∨ t.addr % 32 ≠ 0 ∨ 4096 < t.addr % 4096 + t.len then .length
    else st

/-- A MEM_RD of a domain. -/
def State.memRead (s : State) (d : Nat) (t : Trans) : State × Status × List Byte :=
  let st := s.memCheck d t false
  if st ≠ .ok ∨ t.len = 0 then (s, st, [])
  else
    let r := s.devRead t.addr t.len
    (r.1, r.2.2, if r.2.2 = .ok then r.2.1 else [])

/-- A MEM_WR of a domain. -/
def State.memWrite (s : State) (d : Nat) (t : Trans) : State × Status :=
  let st := s.memCheck d t true
  if st ≠ .ok ∨ t.len = 0 then (s, st) else s.devWrite t.addr (t.data.take t.len)

/-- PLAN_WR: plan entries at the tail of the ring of a slot that a FIXED leader of the domain runs, then the tail word (R421). -/
def State.planWrite (s : State) (d : Nat) (t : Trans) : State × Status :=
  let p := t.addr % 16
  let b := s.reg (Pg.slot p + 0x040)
  let base := bits b 0 52
  let n := bits b 52 4
  let k := t.len / 32
  if !t.clean || decide (16 ≤ t.addr) || s.ownerOf p != d || (s.part p).mode == .free || !s.slotLeader p || s.slotElastic p then
    (s, .access)
  else if t.len % 32 ≠ 0 ∨ k = 0 ∨ 64 < k then (s, .length)
  else if base < 8 then (s, .access)
  else if s.devCheck (.dom d) (base - 8) (8 + 32 * 2 ^ n) true ≠ .ok then (s, s.devCheck (.dom d) (base - 8) (8 + 32 * 2 ^ n) true)
  else
    let r := s.devRead (base - 8) 8
    let tail := field r.2.1 0 4
    if r.2.2 ≠ .ok then (r.1, r.2.2)
    else if 2 ^ n < (2 ^ 32 + tail + k - (s.slot p).planHead) % 2 ^ 32 then (r.1, .length)
    else
      let s := (List.range k).foldl (fun s i =>
        s.devPut (base + 32 * ((tail + i) % 2 ^ n)) ((t.data.drop (32 * i)).take 32)) r.1
      s.devWrite (base - 8) (toLe 8 ((tail + k) % 2 ^ 32))

/-- A request that arrives on an UP port with a given `OP`: relayed where it names another module, else applied by `go` for the port's
domain and answered; an unbound port, a WEDGED domain and a reserved `OP`, in whichever form it comes, answer ACCESS (R373, R406, R411,
R422). -/
def State.portRequest (s : State) (i op : Nat) (b : List Byte) (go : State → Nat → Trans → State × Status × List Byte) : State :=
  let t := Trans.ofBytes b
  if (s.port i).mode != .up || (t.op != op && decide (t.op < 7)) then s
  else
    let finish (r : State × Status × List Byte) : State :=
      let s := if r.2.1 = .ok ∨ t.answered then r.1 else r.1.writeReject i (t.addr % 2 ^ 52) r.2.1
      let s := if t.answered then s.sendRsp i t.tag r.2.1 r.2.2 else s
      (s.freeReq i t.data.length).ends r.2.1
    match s.portDomain i with
    | none => finish (s, .access, [])
    | some d =>
      if s.wedged d || !s.attached d || decide (7 ≤ t.op) then finish (s, .access, [])
      else if t.dst % 64 = s.boot.slotId then finish (go s d t)
      else if !t.clean || !bit (s.reg (Pg.port i + 0x100)) 7 || !s.joined || decide (s.clusterSize ≤ t.dst) then
        finish (s, .access, [])
      else s.relayRequest i b

/-- RSP_RECEIVE: the node's answer to a read of this module (R411). -/
def State.rspReceive (s : State) (i : Nat) (b : List Byte) : State :=
  let t := Trans.ofBytes b
  if (s.port i).mode != .up || t.op != 6 then s
  else
    let s := s.modPort i fun p => { p with rspFreed := p.rspFreed + framesOf (16 + t.data.length) }
    match s.nodeReqs.find? fun r => r.port == i && r.tag == t.tag with
    | none => s
    | some r =>
      let s := { s with nodeReqs := s.nodeReqs.filter fun x => !(x.port == i && x.tag == t.tag) }
      s.useDone r.use (statusOfCode t.status) (t.data.take t.len)

/-- `DLK_STAT`. -/
def State.dlkStat (s : State) (i : Nat) : Word :=
  let p := s.port i
  pack [(match p.mode with | .off => 0 | .training => 1 | .up => 2 | .down => 3 | .failed => 4, 0), (p.cause, 4)
      , (p.delay % 65536, 16), (p.nodeId, 32)]

/-- `DLK_CRED`. -/
def State.dlkCred (s : State) (i : Nat) : Word :=
  pack [((s.port i).reqCred % 65536, 0), ((s.port i).rspCred % 65536, 16)]

end Sys2Proof.Machine
end

