-- ==== Sys2Proof/Machine/Seq.lean ====
section
/-! DEFINITION. The slice sequencer: issue of each instruction, waits and their resumption, program starts, program-memory loads,
faults and abort, and the configuration of stream buffer regions (R82–R101, R109, R453). -/

namespace Sys2Proof.Machine

/-- The word at an index of program memory. -/
def Seq.word (q : Seq) (i : Nat) : Nat := q.pm.get 0 i

/-- Program memory with a word stored; a zero word is what an unwritten index holds (R100). -/
def Seq.putWord (q : Seq) (i w : Nat) : Seq :=
  { q with pm := if w = 0 then q.pm.drop i else q.pm.put i w, pmErr := q.pmErr.filter (· != i) }

/-- A sequencer event that is no fault. -/
def State.seqEvent (s : State) (k b : Nat) : State :=
  s.raise (Pg.seq k) b { part := s.partOfSlice k }

/-- The instruction at PC has issued: the program goes on at `pc`. -/
def State.issuedAt (s : State) (k pc : Nat) : State :=
  s.modSeq k fun q => { q with pc := pc, steps := q.steps + 1, mode := .running, wait := none }

/-- The instruction at PC has issued and the next follows. -/
def State.issuedNext (s : State) (k : Nat) : State := s.issuedAt k ((s.seq k).pc + 1)

/-- The sequencer waits. -/
def State.seqWait (s : State) (k : Nat) (w : SeqWait) : State :=
  s.modSeq k fun q => { q with mode := .waiting, wait := some w }

/-- A twin may issue: its primary has issued the same instruction of the same program (R453). -/
def State.twinMay (s : State) (k : Nat) : Bool :=
  match s.pairedPrimary k with
  | none => true
  | some m =>
    let a := s.seq k
    let b := s.seq m
    decide (a.progs < b.progs) || (a.progs == b.progs && decide (a.steps < b.steps))

/-- An index register. -/
def Seq.ixReg (q : Seq) (n : Nat) : Nat := q.ix.get 0 n

/-- An index register set. -/
def State.setIx (s : State) (k n v : Nat) : State :=
  s.modSeq k fun q => { q with ix := q.ix.put n (v % 2 ^ 64) }

/-! ### Starts (R93, R94) -/

/-- Slices that take a start with a slice: a twin runs in step with its primary (R453). -/
def State.startSlices (s : State) (k : Nat) : List Nat :=
  match s.pairedTwin k with
  | some t => [k, t]
  | none => [k]

/-- The start queues that a start to a slice enters have room. -/
def State.startRoom (s : State) (k : Nat) : Bool :=
  (s.startSlices k).all fun j => decide ((s.seq j).starts.length < 8)

/-- A program start queued. -/
def State.pushStart (s : State) (k idx arg : Nat) : State :=
  (s.startSlices k).foldl (fun s j => s.modSeq j fun q => { q with starts := q.starts ++ [(idx, arg)] }) s

/-! ### Issue (R84–R90, R96) -/

/-- The branch condition of R87. -/
def branchHolds (c a b : Nat) : Bool :=
  match c with
  | 0 => a == b
  | 1 => a != b
  | 2 => decide (a < b)
  | 3 => decide (b ≤ a)
  | 4 => decide (signed 64 a < signed 64 b)
  | 5 => decide (signed 64 b ≤ signed 64 a)
  | 6 => (BitVec.ofNat 64 a &&& BitVec.ofNat 64 b) == BitVec.ofNat 64 b
  | 7 => (BitVec.ofNat 64 a &&& BitVec.ofNat 64 b) != 0#64
  | _ => false

/-- The source of a BRANCH. -/
def Seq.branchSrc (q : Seq) (n : Nat) : Nat := if n < 16 then q.sum.get 0 n else q.ixReg (n - 16)

/-- A counter the instruction names lies outside the partition's range (R89). -/
def State.badCtr (s : State) (k : Nat) (i : SInstr) : Bool :=
  let bad (c : Nat) := ((s.partOfSlice k).bind fun p => s.absCtr p c).isNone
  match i.op with
  | .wait | .waitTake | .signal | .setctr => bad (i.arg 0)
  | _ => i.sigEn == 1 && bad i.sigCtr

/-- A word with its index register added to the primary address (R85). -/
def Seq.indexed (q : Seq) (i : SInstr) (w : Nat) : Nat :=
  if i.ixEn = 1 then
    let a := nbits w 32 32
    w - 2 ^ 32 * a + (a + q.ixReg i.ix) % 2 ^ 32 * 2 ^ 32
  else w

/-- An entry put behind a queue, and the queue started as far as it goes; with the queue full the sequencer holds (R88, R96). -/
def State.enqueue (s : State) (k q : Nat) (i : SInstr) (w : Nat) : State :=
  if queueDepth q ≤ (s.queue k q).length then s.seqWait k (.queueFull q s.clk)
  else
    let sq := s.seq k
    let n := sq.issued.get 0 q
    let e : QEntry := { op := sq.indexed i w, ordinal := n }
    let s := s.modSeq k fun x =>
      { x with queues := x.queues.put q (x.queues.get [] q ++ [e]), issued := x.issued.put q (n + 1) }
    (s.issuedNext k).kick k q

/-- WAIT and WAIT_TAKE held by the sequencer itself, a WAIT_TAKE after the waits already held on its counter (R67, R68, R88); a twin's
passes, its primary's having passed (R453). -/
def State.issueWait (s : State) (k : Nat) (i : SInstr) (take : Bool) : State :=
  match (s.partOfSlice k).bind fun p => s.absCtr p (i.arg 0) with
  | none => s.seqFault k 2
  | some c =>
    if (s.pairedPrimary k).isSome then s.issuedNext k
    else
      let s := if take then s.settleWaits c else s
      if s.ctrPasses c (i.arg 3) then (if take then s.takeCtr c (i.arg 3) else s).issuedNext k
      else s.seqWait k (.counter c (i.arg 3) take)

/-- START: a program start posted to a slice of the partition, or held while its start queue is full (R94). -/
def State.issueStart (s : State) (k : Nat) (i : SInstr) : State :=
  match s.partOfSlice k with
  | none => s.seqFault k 2
  | some p =>
    match (s.peersOf p k)[i.arg 0]? with
    | none => s.seqFault k 2
    | some j =>
      if (s.pairedPrimary k).isSome then s.issuedNext k
      else if s.startRoom j then (s.pushStart j (i.arg 1) (i.arg 2)).issuedNext k
      else s.seqWait k (.startFull j (i.arg 1) (i.arg 2) s.clk false)

/-- Every queue of a mask is empty. -/
def State.queuesEmpty (s : State) (k mask : Nat) : Bool := (maskList 9 mask).all fun q => (s.queue k q).isEmpty

/-- RELEASE: tiles given back, for which walks may wait, or the fault SEQ_RELEASE (R83, R226). -/
def State.issueRelease (s : State) (k : Nat) (i : SInstr) : State :=
  let t := s.releaseTiles k (i.arg 0) (i.arg 1)
  if (t.seq k).mode = .faulted then t else (t.issuedNext k).walkSettle

/-- A legal instruction whose counters are in range is carried out (Table CTRL functions and payloads). -/
def State.carryOut (s : State) (k : Nat) (i : SInstr) (w : Nat) : State :=
  let sq := s.seq k
  match i.op with
  | .nop => s.issuedNext k
  | .fin => (s.issuedNext k).modSeq k fun q => { q with mode := .idle }
  | .jump => s.issuedAt k (i.arg 0)
  | .branch => if branchHolds (i.arg 1) (sq.branchSrc (i.arg 2)) (i.arg 3) then s.issuedAt k (i.arg 0) else s.issuedNext k
  | .loop =>
    let v := (2 ^ 64 - 1 + sq.ixReg (i.arg 1)) % 2 ^ 64
    let s := s.setIx k (i.arg 1) v
    if v ≠ 0 then s.issuedAt k (i.arg 0) else s.issuedNext k
  | .setix => (s.setIx k (i.arg 0) (i.arg 1)).issuedNext k
  | .addix => (s.setIx k (i.arg 0) (sq.ixReg (i.arg 0) + i.arg 1)).issuedNext k
  | .wait => if i.arg 1 = 1 then s.enqueue k (i.arg 2) i w else s.issueWait k i false
  | .waitTake => if i.arg 1 = 1 then s.enqueue k (i.arg 2) i w else s.issueWait k i true
  | .signal =>
    (match s.partOfSlice k with
    | some p => if (s.pairedPrimary k).isSome then s else s.signal p (i.arg 0) (i.arg 1)
    | none => s).issuedNext k
  | .setctr =>
    (match (s.partOfSlice k).bind fun p => s.absCtr p (i.arg 0) with
    | some c => if (s.pairedPrimary k).isSome then s else s.setCtr c (i.arg 1)
    | none => s).issuedNext k
  | .start => s.issueStart k i
  | .release => s.issueRelease k i
  | .fence => if s.queuesEmpty k (i.arg 0) then s.issuedNext k else s.seqWait k (.fence (i.arg 0))
  | .movs => (s.setIx k (i.arg 0) (sq.sum.get 0 (i.arg 1))).issuedNext k
  | _ => s.enqueue k i.queue i w

/-- What issue at PC comes to before an instruction is carried out: a fault cause, or the instruction. -/
def Seq.fetch (q : Seq) (r : PmRead) : Nat ⊕ SInstr :=
  if 16384 ≤ q.pc then .inl 3
  else if r = .double ∨ q.pmErr.contains q.pc then .inl 5
  else match SInstr.decode (q.word q.pc) with
    | none => .inl 1
    | some i => .inr i

/-- The running sequencer issues the instruction at PC, where that is the operation named: a word that cannot issue faults it
whatever it holds; another operation, a sequencer that is not running, and a twin ahead of its primary issue nothing (R84, R91, R98,
R453). -/
def State.issue (s : State) (k : Nat) (r : PmRead) (op : SOp) : State :=
  let q := s.seq k
  let fixed := r == .single && decide (q.pc < 16384) && !q.pmErr.contains q.pc
  let corrected (s : State) := if fixed then s.seqEvent k 7 else s
  if q.mode ≠ .running ∨ !s.enginesRun ∨ !s.twinMay k then s
  else match q.fetch r with
    | .inl c =>
      (if c = 5 then s.modSeq k fun q => { q with pmErr := if q.pmErr.contains q.pc then q.pmErr else q.pc :: q.pmErr } else corrected s).seqFault k c
    | .inr i =>
      if i.op ≠ op then s
      else
        let s := corrected s
        if s.badCtr k i then s.seqFault k 2 else s.carryOut k i (q.word q.pc)

/-! ### Resumption -/

/-- SEQ_WAIT_RESUME of the sequencer itself: its counter has reached the value, after the waits that come before it (R67, R68, R88). -/
def State.waitResume (s : State) (k : Nat) : State := (s.passBefore k none).passWait (k, none)

/-- START_HOLD_RELEASE: the start queue has room, and the held START proceeds (R94). -/
def State.startRelease (s : State) (k : Nat) : State :=
  match (s.seq k).wait with
  | some (.startFull j idx arg _ _) => if s.startRoom j then (s.pushStart j idx arg).issuedNext k else s
  | _ => s

/-- START_STALL: a START held for more than 4,096 arithmetic cycles (R94). -/
def State.startStall (s : State) (k : Nat) : State :=
  match (s.seq k).wait with
  | some (.startFull j idx arg since false) =>
    let s := s.waitClk (since + s.cycTicks 4096 + 1)
    (s.modSeq k fun q => { q with wait := some (.startFull j idx arg since true) }).seqEvent k 6
  | _ => s

/-- FENCE_RESUME: the fenced queues have emptied (R84). -/
def State.fenceResume (s : State) (k : Nat) : State :=
  match (s.seq k).wait with
  | some (.fence m) => if s.queuesEmpty k m then s.issuedNext k else s
  | _ => s

/-- Cycles the present hold at a full queue has cost so far, by queue (R96). -/
def State.stallNow (s : State) (k n : Nat) : Nat :=
  match (s.seq k).wait with
  | some (.queueFull m since) => if m = n then s.ticksCyc (s.clk - since) else 0
  | _ => 0

/-- The hold at a full queue ends: the cycles lost are counted (R96). -/
def State.countStall (s : State) (k : Nat) : State :=
  match (s.seq k).wait with
  | some (.queueFull n _) => s.bump (Pg.seq k + 0x140 + 8 * n) (s.stallNow k n)
  | _ => s

/-- ISSUE_RESUME: the full queue has room, and the held instruction issues; the cycles lost are counted (R96). -/
def State.issueResume (s : State) (k : Nat) : State :=
  let q := s.seq k
  match q.wait with
  | some (.queueFull n _) =>
    if queueDepth n ≤ (s.queue k n).length then s
    else match SInstr.decode (q.word q.pc) with
      | none => s
      | some i => (s.countStall k).enqueue k n i (q.word q.pc)
  | _ => s

/-! ### Programs (R92–R95, R98, R99) -/

/-- PROGRAM_START: an idle sequencer takes the oldest start; screening on its slice is aborted (R66, R93). -/
def State.programStart (s : State) (k : Nat) : State :=
  let q := s.seq k
  match q.starts with
  | [] => s
  | (idx, arg) :: rest =>
    if q.mode ≠ .idle ∨ q.hold ∨ q.load.isSome ∨ !s.enginesRun then s
    else
      let s := { s with screens := s.screens.put k { s.screens.get {} k with testing := none } }
      s.modSeq k fun q =>
        { q with mode := .running, pc := idx, starts := rest, ix := (⟨[]⟩ : Tab Nat).put 0 arg, wait := none
                 progs := q.progs + 1, steps := 0, fault := 0 }

/-- A write of `SEQ_START` (R94). -/
def State.seqStartWrite (s : State) (k : Nat) (v : Word) : State :=
  if (s.partOfSlice k).isNone ∨ !s.startRoom k then s.ends .access
  else (s.pushStart k (bits v 0 14) (bits v 32 32)).ends .ok

/-- Register of `SEQ_PM_CTRL`. -/
def pmCtrl (k : Nat) : Nat := Pg.seq k + 0x120

/-- A load ends: its status stands in `SEQ_PM_CTRL`, whose `GO` reads 0. -/
def State.pmStatus (s : State) (k : Nat) (st : Status) : State :=
  (s.setFld (pmCtrl k) 48 8 (statusCode st)).setFld (pmCtrl k) 63 1 0

/-- A write of `SEQ_PM_CTRL`: with `GO` a load is asked for (R92). -/
def State.pmCtrlWrite (s : State) (k : Nat) (v : Word) : State :=
  if (s.seq k).load.isSome then s.ends .access
  else
    let first := bits v 0 14
    let n := bits v 16 15
    let old := s.reg (pmCtrl k)
    let s := s.setReg (pmCtrl k) (setBits (v &&& 0x7FFF3FFF#64) 48 8 (bits old 48 8))
    if !bit v 63 then s.ends .ok
    else if n = 0 then (s.pmStatus k .ok).ends .ok
    else if 16384 < first + n then (s.pmStatus k .length).ends .ok
    else ((s.setFld (pmCtrl k) 63 1 1).modSeq k fun q =>
      { q with load := some { addr := s.fld (Pg.seq k + 0x118) 0 52, first := first, count := n } }).ends .ok

/-- A write of `SEQ_PM_ADDR`, refused while a load is pending or running (R92). -/
def State.pmAddrWrite (s : State) (k : Nat) (v : Word) : State :=
  if (s.seq k).load.isSome then s.ends .access
  else (s.setReg (Pg.seq k + 0x118) (v &&& 0xFFFFFFFFFFFFF#64)).ends .ok

/-- PM_LOAD_START: no instruction of the slice can issue, and the pending load begins (R92). -/
def State.pmLoadStart (s : State) (k : Nat) : State :=
  let q := s.seq k
  match q.load with
  | some l =>
    if l.started ∨ (q.mode ≠ .idle ∧ q.mode ≠ .faulted) ∨ !s.enginesRun then s
    else s.modSeq k fun q =>
      { q with mode := .loading, load := some { l with started := true, fromFault := q.mode == .faulted } }
  | none => s

/-- The words of a program read from device memory. -/
def pmWords (bs : List Byte) (n : Nat) : List Nat := (List.range n).map fun i => field bs (16 * i) 16

/-- PM_LOAD_DONE: the range is written, or left on a failed read, and the sequencer is as it was (R92). A source that is not 16-byte
aligned ends with ACCESS, and a load of a slice that belongs to no partition reads with the steward's rights (DESIGN CHOICE, log entry
90). -/
def State.pmLoadDone (s : State) (k : Nat) : State :=
  match (s.seq k).load with
  | some l =>
    if !l.started then s
    else
      let who : Accessor := match s.partOfSlice k with | some p => .part p false | none => .dom 0
      let chk := if aligned l.addr 16 then s.devCheck who l.addr (16 * l.count) false else .access
      let r : State × List Byte × Status := if chk = .ok then s.devRead l.addr (16 * l.count) else (s, [], chk)
      let ws := pmWords r.2.1 l.count
      let t := r.1.modSeq k fun q =>
        let q := if r.2.2 = .ok then
            (List.range l.count).foldl (fun q i => q.putWord (l.first + i) (ws.getD i 0)) q
          else q
        { q with mode := if q.mode = .aborting then .aborting else if l.fromFault then .faulted else .idle, load := none }
      t.pmStatus k r.2.2
  | none => s

/-- An entry of a queue has started: it is in its engine, or its DRAIN has been accepted (R99). -/
def QEntry.started (e : QEntry) : Bool :=
  match e.phase with
  | .running _ => true
  | .starved _ => true
  | .trapped _ => true
  | .buffered => true
  | _ => false

/-- SEQ_CTRL.ABORT: issue stops, entries not started are discarded, traps fail, halted queues are cleared and the start queue is
emptied; a program-memory load under way goes on (R92, R99, R188). The DRAIN of a trap resolved so completes after the abort, and its
failure halts its queue then (DESIGN CHOICE, log entry 90). -/
def State.seqAbort (s : State) (k : Nat) : State :=
  let s := s.countStall k
  let s := (List.range 9).foldl (fun s q => s.setQueue k q ((s.queue k q).filter QEntry.started)) s
  let s := (List.range 4).foldl (fun s a =>
    (List.range 2).foldl (fun s _ => s.trapResolve k a .fail) s) s
  let busy := (List.range 9).any fun q => !(s.queue k q).isEmpty
  s.modSeq k fun q =>
    { q with mode := if busy then .aborting else if q.mode = .loading then .loading else .idle, wait := none
             halts := [], starts := [], outs := [], load := q.load.map fun l => { l with fromFault := false } }

/-- ABORT_COMPLETE: the operations already started have completed, and the sequencer is IDLE, or LOADING where a load is still under way
(R92, R99). -/
def State.abortDone (s : State) (k : Nat) : State :=
  if (s.seq k).mode = .aborting ∧ s.queuesEmpty k 511 then
    s.modSeq k fun q => { q with mode := match q.load with | some l => if l.started then .loading else .idle | none => .idle }
  else s

/-- A write of `SEQ_CTRL`. -/
def State.seqCtrlWrite (s : State) (k : Nat) (v : Word) : State :=
  let s := (s.setReg (Pg.seq k + 0x100) (v &&& 2#64)).modSeq k fun q => { q with hold := bit v 1 }
  (if bit v 0 then s.seqAbort k else s).ends .ok

/-! ### Stream buffer regions (R81, R82, R109) -/

/-- Register of a region's configuration. -/
def sbCfg (k r : Nat) : Nat := keyAt (Pg.ws k + 0x108) r

/-- The regions the MMAs of an array queue read, under the CONFIG state each runs with (R109). -/
def mmaRegions (f : ArrFmt) : List QEntry → List Nat
  | [] => []
  | e :: l =>
    match fieldsOf e.op with
    | some i =>
      (match i.op with
      | .mma =>
        (match e.mma with
          | some r => r.regs
          | none => i.arg 7 :: (if f.sk = 0 then [] else [f.sreg])) ++ mmaRegions f l
      | .config =>
        let g : ArrFmt := { afmt := i.arg 1, wfmt := i.arg 2, sk := i.arg 3, sreg := i.arg 4 }
        mmaRegions (match e.phase with | .running _ => f | _ => g) l
      | _ => mmaRegions f l)
    | none => mmaRegions f l

/-- Regions in use by running or queued MMAs of a slice, or by an armed stream or a walk (R82, R109). -/
def State.regionUsed (s : State) (k r : Nat) : Bool :=
  ((List.range 4).any fun a => (mmaRegions (s.arrState k a) (s.queue k a)).contains r)
    || s.xslots.items.any fun it => (s.xTargeted (it.1 / 64) it.2 (it.1 % 64)).contains (k, r)

/-- Two regions overlap. -/
def Region.overlaps (a b : Region) : Bool :=
  decide (a.base * 4096 < b.base * 4096 + b.tiles * 2048) && decide (b.base * 4096 < a.base * 4096 + a.tiles * 2048)

/-- STREAM_REGION_CONFIG: a write of `WS_SB_CFG` for the selected region (R82). -/
def State.sbCfgWrite (s : State) (k : Nat) (v : Word) : State :=
  let r := s.fld (Pg.ws k + 0x100) 0 4
  let v := v &&& 0x3FFF00FFF007#64
  let old := s.reg (sbCfg k r)
  if bit old 0 then
    if v = setBits old 0 1 0 ∧ !s.regionUsed k r then
      ((s.setReg (sbCfg k r) v).modRegion k r fun _ =>
        { producer := bits v 1 2, base := bits v 12 12, tiles := bits v 32 14 }).ends .ok
    else s.ends .access
  else
    let g : Region := { en := bit v 0, producer := bits v 1 2, base := bits v 12 12, tiles := bits v 32 14, relClks := [s.clk] }
    if bit v 0 then
      if g.tiles = 0 ∨ g.producer = 3
          ∨ ((List.range 16).any fun j => j != r && (s.region k j).en && g.overlaps (s.region k j)) = true then s.ends .access
      else if 2 ^ 24 < g.base * 4096 + g.tiles * 2048 then s.ends .length
      else ((s.setReg (sbCfg k r) v).modRegion k r fun _ => g).ends .ok
    else ((s.setReg (sbCfg k r) v).modRegion k r fun _ => { g with relClks := [] }).ends .ok

/-! ### Arrays -/

/-- State of an array as `ARR_STAT` shows it: 0 IDLE, 1 RUNNING, 2 STARVED, 3 DRAIN_WAIT, 4 HALTED. -/
def State.arrMode (s : State) (k a : Nat) : Nat :=
  let l := s.queue k a
  if s.halted k a then 4
  else if l.any fun e => match e.phase with | .starved _ => true | _ => false then 2
  else if l.any fun e => e.phase == .openWait || e.phase == .bufferWait then 3
  else if l.any fun e => match e.phase with | .running _ => true | .trapped _ => true | .buffered => true | _ => false then 1
  else 0

/-- ARR_CLOSE_ALL: a write of `ARR_CTRL`; ACCESS unless the array is IDLE or HALTED (R114). -/
def State.arrCtrlWrite (s : State) (k a : Nat) (v : Word) : State :=
  if !bit v 0 then s.ends .ok
  else if s.arrMode k a = 0 ∨ s.arrMode k a = 4 then (s.closeAll k a).ends .ok
  else s.ends .access

/-- A trap limit passes: the trap resolves as FAIL and TRAP_TIMEOUT is raised (R188). -/
def State.trapTimeout (s : State) (k a : Nat) : State :=
  let us := s.fld (Pg.qnt k + 0x178) 0 16
  match s.trapAt k a with
  | none => s
  | some n =>
    match (s.queue k a)[n]? with
    | some e =>
      (match e.phase with
      | .trapped since =>
        if us = 0 then s
        else ((s.waitClk (since + usTicks * us)).trapResolve k a .fail).qntEvent k 3 .saturated
      | _ => s)
    | none => s

end Sys2Proof.Machine
end

