-- ==== Sys2Proof/Machine/Domains.lean ====
section
/-! DEFINITION. Partition commands, activation, quiesce, release and scrub, the region table, and the attachment of domains (ch. 15). -/

namespace Sys2Proof.Machine

/-- A partition's owner or the steward: who may quiesce, resume or release it (R362). -/
def State.ownsPart (s : State) (d p : Nat) : Bool := d == 0 || s.ownerOf p == d

/-- A partition holds resources: it is not FREE (R364). -/
def State.notFree (s : State) (p : Nat) : Bool := (s.part p).mode != .free

/-- The partition is FREE or CONFIG, in which its resources are set (R364). -/
def State.unset (s : State) (p : Nat) : Bool := (s.part p).mode == .free || (s.part p).mode == .config

/-- Partitions other than `p` that are not FREE. -/
def State.otherParts (s : State) (p : Nat) : List Nat := (List.range 16).filter fun q => q != p && s.notFree q

/-- Slices of a partition as written, those still to join among them. -/
def State.writtenSlices (s : State) (p : Nat) : Nat := s.fld (Pg.pt p + 0x110) 0 16

/-- Twin slices of a partition as written. -/
def State.twinMask (s : State) (p : Nat) : Nat := s.fld (Pg.ig + 0x408 + 0x40 * p) 0 16

/-- Slices that partitions other than `p` hold, as primary or twin. -/
def State.heldSlices (s : State) (p : Nat) : Nat :=
  (s.otherParts p).foldl (fun m q => m ||| s.writtenSlices q ||| s.twinMask q) 0

/-- Ranges of `n` from `a` and `m` from `b` share no number. -/
def rangesDisjoint (a n b m : Nat) : Bool := decide (a + n ≤ b) || decide (b + m ≤ a) || n == 0 || m == 0

/-- A partition state entered, at the present CT (`PT_STAT`). `CAUSE` stays until ACTIVATE succeeds, the partition is released or
another cause comes (DESIGN CHOICE, log entry 51). -/
def State.enterPart (s : State) (p : Nat) (m : PartMode) (cause : Nat) : State :=
  s.modPart p fun q => { q with mode := m, cause := cause, changeCt := s.ct }

/-! ### Activation (R364) -/

/-- Counter, request-table and schedule ranges of a partition: (base, count). -/
def State.ctrRange (s : State) (p : Nat) : Nat × Nat := (s.fld (Pg.slot p + 0x030) 0 15, s.fld (Pg.slot p + 0x030) 16 16)
def State.tblRange (s : State) (p : Nat) : Nat × Nat := (s.tbase p, s.tcount p)
def State.schedRange (s : State) (p : Nat) : Nat × Nat := (s.fld (Pg.slot p + 0x028) 0 14, s.fld (Pg.slot p + 0x028) 16 15)

/-- A range disjoint from the same range of every other partition that is not FREE. -/
def State.rangeFree (s : State) (p : Nat) (r : Nat → Nat × Nat) : Bool :=
  (s.otherParts p).all fun q => rangesDisjoint (r p).1 (r p).2 (r q).1 (r q).2

/-- A partition holds an EXCLUSIVE region. -/
def State.hasExclusive (s : State) (p : Nat) : Bool :=
  (List.range 64).any fun r => (s.memRegion r).mode == 1 && (s.memRegion r).part == p

/-- `SHARE` of `PT_LINK`. -/
def State.linkShare (s : State) (p : Nat) : Nat := s.fld (Pg.pt p + 0x118) 0 9

/-- The activation checks, in order; the first that fails (R364). Each range must lie within what the module has of its kind: 32,768
counters, 16,384 request entries, 16,384 schedule entries a bank (`in the same way`: DEDUCED, log entry 100). -/
def State.activateCheck (s : State) (p : Nat) : Option Nat :=
  let m := s.writtenSlices p
  let c := s.ctrRange p
  if !s.attached (s.ownerOf p) then some 1
  else if m = 0 ∨ (m ||| s.twinMask p) &&& (s.heldSlices p ||| s.retired) ≠ 0 then some 2
  else if !s.rangeFree p s.ctrRange || decide (32768 < c.1 + c.2) then some 3
  else if !s.rangeFree p s.tblRange || decide (16384 < s.tbase p + s.tcount p) then some 4
  else if !s.rangeFree p s.schedRange || decide (16384 < (s.schedRange p).1 + (s.schedRange p).2) then some 5
  else if !s.hasExclusive p then some 6
  else if 256 < (((List.range 16).filter s.notFree).map s.linkShare).sum then some 7
  else none

/-- PARTITION_CONFIG (R362). -/
def State.ptConfig (s : State) (d p : Nat) : State :=
  if d ≠ 0 ∨ (s.part p).mode ≠ .free then s.ends .access
  else (s.enterPart p .config 0).ends .ok

/-- Slices of a partition start in step with their twins (R453). -/
def State.alignPairs (s : State) (p : Nat) : State :=
  (s.slicesOf p ++ s.twinsOf p).foldl (fun s k =>
    s.modSeq k fun q => { q with progs := 0, steps := 0, issued := {}, outs := [] }) s

/-- ACTIVATE (R364). -/
def State.ptActivate (s : State) (d p : Nat) : State :=
  if d ≠ 0 ∨ (s.part p).mode ≠ .config then s.ends .access
  else match s.activateCheck p with
    | some c => (s.modPart p fun q => { q with cause := c }).ends .access
    | none => ((s.enterPart p .active 0).alignPairs p).ends .ok

/-! ### Quiesce (R370, R371) -/

/-- The partition's step has not reached its commit (R370 step 2). -/
def State.stepPending (s : State) (p : Nat) : Bool :=
  (s.slot p).busy || (s.sv p).stage9 || (s.sv p).commit.isSome

/-- Row-operation slots that run a sequence of a partition: (domain, slot). -/
def State.rowSlotsOf (s : State) (p : Nat) : List (Nat × Nat) :=
  (s.rowSlots.keysWhere fun _ r => r.part == p && r.mode != .idle).map fun i => (i / 4, i % 4)

/-- Step 3 of R370: sequencers aborted, with traps resolved as FAIL; stream slots stopped; row sequences aborted. -/
def State.quiesceStop (s : State) (p : Nat) : State :=
  let old := s.done
  let s := (s.slicesOf p ++ s.twinsOf p).foldl State.seqAbort s
  let s := s.xStopPart p
  let s := (s.rowSlotsOf p).foldl (fun s r => s.rowAbort r.1 r.2) s
  (s.modPart p fun q => { q with stopped := true }).ends old

/-- Step 3 of R370 taken as soon as the step has committed, or at once if none was running. -/
def State.quiesceGo (s : State) (p : Nat) : State :=
  if (s.part p).mode = .quiescing ∧ !(s.part p).stopped ∧ !s.stepPending p then s.quiesceStop p else s

/-- QUIESCE (R363, R370). -/
def State.ptQuiesce (s : State) (d p : Nat) : State :=
  if !s.ownsPart d p then s.ends .access
  else match (s.part p).mode with
    | .quiescing => s.ends .ok
    | .active => ((s.beginQuiesce p 0).quiesceGo p).ends .ok
    | _ => s.ends .access

/-- Nothing of the partition runs (R370 step 4): operations, transfers, row operations, collectives and page copies. -/
def State.workDone (s : State) (p : Nat) : Bool :=
  ((s.slicesOf p ++ s.twinsOf p).all fun k =>
      s.queuesEmpty k 511 && (s.seq k).mode != .aborting && (s.seq k).mode != .loading)
    && (s.xslots.items.all fun it => s.xPart (it.1 / 64) (it.1 % 64) != some p || it.2.mode == .idle)
    && (s.rowSlotsOf p).isEmpty
    && ((List.range 4).all fun i => (s.collQ (4 * p + i)).inflight.all fun e => e.fin.isSome)
    && (s.bulk.copies.all fun c => c.part != p || c.finished)

/-- Records are owed to the owning domain for this partition (R370 step 5). -/
def State.recordsOwed (s : State) (p : Nat) : Bool :=
  ((s.evq.get [] (s.ownerOf p)).any fun r => r.part == some p)
    || !(s.sv p).buf.isEmpty || !(s.sv p).owed.isEmpty

/-- A partition event, recorded to the owning domain on every raise (R375). -/
def State.ptEvent (s : State) (p b : Nat) (arg : Option Nat := none) (st : Status := .ok) : State :=
  s.raise (Pg.pt p) b { arg := arg, status := st, part := some p, dests := some [s.ownerOf p] }

/-- QUIESCE_COMPLETE: step committed, work done and records written (R370). -/
def State.quiesceComplete (s : State) (p : Nat) : State :=
  let s := s.quiesceGo p
  if (s.part p).mode ≠ .quiescing ∨ !(s.part p).stopped ∨ !s.workDone p then s
  else if s.recordsOwed p then
    s.modPart p fun q => { q with workClk := some (q.workClk.getD s.clk) }
  else (s.enterPart p .quiesced (s.part p).cause).ptEvent p 0

/-- `DM_QLIMIT` of a domain, in ticks: values below 100 µs are treated as 100. -/
def State.qLimit (s : State) (d : Nat) : Nat := usTicks * max 100 (s.fld (Pg.dm d + 0x110) 0 16)

/-- QUIESCE_TIMEOUT: a step that has not committed within `DM_QLIMIT` is abandoned (R371). Its collective entries end with ABORT
(R402). -/
def State.quiesceTimeout (s : State) (p : Nat) : State :=
  let q := s.part p
  if q.mode ≠ .quiescing ∨ q.stopped ∨ !s.stepPending p ∨ (s.sv p).commit.isSome then s
  else
    let s := s.waitClk (q.qClk + s.qLimit (s.ownerOf p))
    let s := (s.dropBatch p).modSv p fun v => { v with stage9 := false }
    let s := (s.closeIdle p).modSlot p fun sl =>
      { sl with busy := false, closing := false, mode := .disabled, held := none, marks := [] }
    let s := (s.modPart p fun q => { q with cause := 9, run := 0, replay := false })
    (s.collEnd p .superseded).quiesceStop p

/-- WEDGE_TIMEOUT: records still owed `DM_QLIMIT` after the work ended (R371, R373). -/
def State.wedgeTimeout (s : State) (p : Nat) : State :=
  let d := s.ownerOf p
  let q := s.part p
  if q.mode ≠ .quiescing ∨ !q.stopped ∨ !s.workDone p ∨ !s.recordsOwed p ∨ s.wedged d then s
  else
    let s := s.waitClk (q.workClk.getD s.clk + s.qLimit d)
    let s := { s with doms := s.doms.put d { wedged := true } }
    s.raise (Pg.dm d) 0 { part := some p, dests := some [0] }

/-! ### Resume (R365, R370) -/

/-- A write of `PS_CFG` as the serving unit sees it: a slot that is enabled with no step running starts with stage 0 due and no
batch (R316, R362). -/
def State.slotEnable (s : State) (p : Nat) (v : Word) : State :=
  let t := s.slotCfgWrite p v
  if !s.slotEnabled p && t.slotEnabled p && !(t.slot p).busy then
    ((t.dropBatch p).modPart p fun q => { q with run := 0, replay := false }).modSv p fun w =>
      { w with stage0 := true, stage9 := false }
  else t

/-- Twins are as many as the slices and disjoint from every slice a partition holds (R365, R445). -/
def State.twinsSound (s : State) (p : Nat) : Bool :=
  let t := s.twinMask p
  popcount 16 t == popcount 16 (s.writtenSlices p) && t &&& (s.heldSlices p ||| s.writtenSlices p) == 0

/-- PARTITION_RESUME: the slot is enabled again where it was enabled at the quiesce; where time is not LOCKED it stays disabled
(DEDUCED from R46, log entry 31). -/
def State.ptResume (s : State) (d p : Nat) : State :=
  if !s.ownsPart d p ∨ (s.part p).mode ≠ .quiesced then s.ends .access
  else if s.igMode p ≠ 0 ∧ !s.twinsSound p then (s.modPart p fun q => { q with cause := 12 }).ends .access
  else
    let on := (s.part p).slotOn
    let s := (s.enterPart p .active (s.part p).cause).alignPairs p
    let s := s.modPart p fun q => { q with stopped := false, slotOn := false, joining := 0, fresh := [] }
    (if on then s.slotEnable p (setBits (s.reg (Pg.slot p)) 0 1 1) else s).ends .ok

/-! ### Release and scrub (R372) -/

/-- Registers of a slice's pages, and of its part of the integrity and sampler blocks. -/
def sliceReg (k key : Nat) : Bool :=
  let a := key % 2 ^ 32
  (decide (Pg.slice k ≤ a) && decide (a < 0x10000 + Pg.slice k))
    || (decide (Pg.ig + 0x808 ≤ a) && decide (a < Pg.ig + 0x820) && key / 2 ^ 32 % 16 == k)
    || (decide (pepMapKey k 0 ≤ a) && decide (a < pepMapKey k 0 + 0x20))

/-- A slice back in its reset state (R100, R146, R169, R194, R218, R358, R465). -/
def State.resetSlice (s : State) (k : Nat) : State :=
  let of (n : Nat) (i : Nat) : Bool := i / n == k
  let s := s.clearRegs (sliceReg k)
  let s := { s with
    staged := s.staged.dropAll fun j => sliceReg k (j % 2 ^ 56)
    seqs := s.seqs.drop k, regions := s.regions.dropAll (of 16), idleUntil := s.idleUntil.drop k
    csSets := s.csSets.dropAll (of 32), tiles := s.tiles.dropAll (of 512), arrFmt := s.arrFmt.dropAll (of 4)
    tileTag := s.tileTag.dropAll (of 32), engFail := s.engFail.dropAll (of 16), clove := s.clove.dropAll (of 2048)
    chainCur := s.chainCur.dropAll (of 64), profCur := s.profCur.dropAll (of 128), qslots := s.qslots.dropAll (of 16)
    attCfg := s.attCfg.dropAll (of 8), attSeq := s.attSeq.drop k, seqBad := s.seqBad.filter fun x => x.1 != k
    pepCur := s.pepCur.dropAll (of 4) }
  (((s.clrMem .ws (2 ^ 24 * k) (2 ^ 24)).clrMem .acc (2 ^ 21 * k) (2 ^ 21)).clrMem .tile (2 ^ 17 * k) (2 ^ 17)).clrMem
    .xstore (2 ^ 19 * k) (2 ^ 19)

/-- Units of the EXCLUSIVE regions of a partition. -/
def State.exclusiveUnits (s : State) (p : Nat) : List Nat :=
  (List.range 64).flatMap fun i =>
    let r := s.memRegion i
    if r.mode = 1 ∧ r.part = p then (List.range r.count).map (r.base + ·) else []

/-- Units no longer pinned (R372). -/
def State.unpin (s : State) (us : List Nat) : State := us.foldl (fun s u => s.modPlaced u fun e => { e with pin := 0 }) s

/-- Steps of a release over the region table: the partition leaves every `SHARE`, and its EXCLUSIVE regions go to NONE. -/
def State.releaseRegions (s : State) (p : Nat) : State :=
  (List.range 64).foldl (fun s i =>
    let r := s.memRegion i
    if r.mode = 1 ∧ r.part = p then (s.setReg (keyAt (Pg.sec + 0x808) i) 0).setReg (keyAt (Pg.sec + 0x810) i) 0
    else s.setFld (keyAt (Pg.sec + 0x810) i) (16 + p) 1 0) s

/-- Rank groups and collective queues of a released partition (R405). -/
def State.releaseColl (s : State) (p : Nat) : State :=
  let s := s.collEnd p .superseded
  let gs := s.fabric.groups.keysWhere fun _ g => g.part == p && g.en
  let s := gs.foldl (fun s g => s.clearRegs fun k =>
    k / 2 ^ 32 == g && decide (Pg.fab + 0x208 ≤ k % 2 ^ 32) && decide (k % 2 ^ 32 < Pg.fab + 0x260)) s
  let s := s.clearRegs fun k => decide (Pg.fab + 0x800 + 0x80 * p ≤ k) && decide (k < Pg.fab + 0x880 + 0x80 * p)
  { s with fabric := { s.fabric with
      groups := s.fabric.groups.dropAll fun g => gs.contains g
      colls := s.fabric.colls.dropAll fun q => q / 4 == p } }

/-- Event counters of a released partition's pages and its slot's events, zeroed (R431). -/
def State.releaseEvents (s : State) (p : Nat) : State :=
  s.clearRegs fun k => (decide (Pg.pt p + Off.evtCnt ≤ k) && decide (k < Pg.pt p + Off.owner))
    || (decide (Pg.slot p + 0x080 ≤ k) && decide (k < Pg.slot p + 0x0A0))

/-- PARTITION_RELEASE (R372): everything of the partition but the scrub of its units. -/
def State.ptRelease (s : State) (d p : Nat) : State :=
  if !s.ownsPart d p ∨ ((s.part p).mode ≠ .config ∧ (s.part p).mode ≠ .quiesced) then s.ends .access
  else
    let slices := s.slicesOf p ++ s.twinsOf p
    let ctrs := s.ctrRange p
    let sched := s.schedRange p
    let units := s.exclusiveUnits p
    let s := (s.reqsOf p).foldl (fun s r => (s.freeReqEntry p r).modReq r fun e => { incarn := e.incarn, order := e.order }) s
    let s := s.xResetPart p
    let s := (s.rowSlotsOf p).foldl (fun s r => s.rowAbort r.1 r.2) s
    let s := s.releaseColl p
    let s := { s with
      svs := s.svs.drop p, peps := s.peps.drop p, igs := s.igs.drop p
      ctrs := s.ctrs.dropAll fun c => decide (ctrs.1 ≤ c) && decide (c < ctrs.1 + ctrs.2)
      schedLo := s.schedLo.dropAll fun i => decide (sched.1 ≤ i % 16384) && decide (i % 16384 < sched.1 + sched.2)
      schedHi := s.schedHi.dropAll fun i => decide (sched.1 ≤ i % 16384) && decide (i % 16384 < sched.1 + sched.2) }
    let s := s.clearRegs fun k =>
      (decide (Pg.ig + 0x400 + 0x40 * p ≤ k) && decide (k < Pg.ig + 0x440 + 0x40 * p))
        || (decide (Pg.sv + 0x200 + 0x40 * p ≤ k) && decide (k < Pg.sv + 0x240 + 0x40 * p))
    let s := s.clearRegs fun k =>
        match pageOf (k % 2 ^ 32) with
        | .xe e => decide (32 ≤ e) && k % 0x1000 == 0x130 && bit (s.reg k) 36 && bits (s.reg k) 32 4 == p
        | _ => false
    let s := slices.foldl State.resetSlice s
    let s := ((s.releaseRegions p).unpin units).releaseEvents p
    let s := s.modPart p fun q => { q with scrub := units, joining := 0, fresh := [], run := 0, replay := false, workClk := none }
    (s.enterPart p .releasing (s.part p).cause).ends .ok

/-- RELEASE_SCRUB_DONE: every unit is zeroed and sealed, and the partition becomes FREE; blocks of its slots still in flight are waited
for, and row operations its aborted sequences had dispatched (R240, R283, R372). -/
def State.scrubDone (s : State) (p : Nat) : State :=
  if (s.part p).mode ≠ .releasing ∨ s.xLingers p ∨ !(s.rowSlotsOf p).isEmpty then s
  else
    let s := (s.part p).scrub.foldl State.zeroUnit s
    let s := s.modPart p fun q => { q with scrub := [], stopped := false, slotOn := false }
    (s.enterPart p .free 0).ptEvent p 1

/-- PT_CTRL (R362, R363). -/
def State.ptCtrlWrite (s : State) (d p : Nat) (v : Word) : State :=
  match bits v 0 3 with
  | 1 => s.ptConfig d p
  | 2 => s.ptActivate d p
  | 3 => s.ptQuiesce d p
  | 4 => s.ptResume d p
  | 5 => s.ptRelease d p
  | _ => s.ends .access

/-- `PT_STAT`. -/
def State.ptStat (s : State) (p : Nat) : Word :=
  let q := s.part p
  pack [(match q.mode with
      | .free => 0 | .config => 1 | .active => 2 | .quiescing => 3 | .quiesced => 4 | .releasing => 5, 0)
    , (q.cause, 4), (q.changeCt / 4096 % 2 ^ 32, 32)]

/-! ### Slices and shares (R364, R365) -/

/-- A write of `PT_SLICES`; one that changes nothing is OK in every state (R364). Slices taken away while QUIESCED return to their reset
state, and a free one may be added then (DEDUCED, log entry 32). -/
def State.ptSlicesWrite (s : State) (d p : Nat) (v : Word) : State :=
  let k := Pg.pt p + 0x110
  let m := bits v 0 16
  let old := s.writtenSlices p
  let added := m - (m &&& old)
  let free := added &&& (s.heldSlices p ||| s.retired ||| s.twinMask p) == 0
  let put (s : State) := s.setReg k (word m)
  if d ≠ 0 then s.ends .access
  else if m = old then s.ends .ok
  else match (s.part p).mode with
    | .free | .config => (put s).ends .ok
    | .active =>
      if s.igMode p ≠ 0 ∨ m &&& old ≠ old ∨ !free then s.ends .access
      else
        let on := s.slotEnabled p
        ((put s).modPart p fun q => { q with joining := if on then q.joining ||| added else 0 }).ends .ok
    | .quiesced =>
      if !free || m == 0 then s.ends .access
      else ((put s |> (maskList 16 (old - (m &&& old))).foldl State.resetSlice).modPart p fun q =>
        { q with joining := 0 }).ends .ok
    | _ => s.ends .access

/-- A write of `PT_LINK` (R364, R368): a share above 256 is reserved. Only a write that changes it asks for FREE or CONFIG. -/
def State.ptLinkWrite (s : State) (d p : Nat) (v : Word) : State :=
  if d ≠ 0 ∨ (bits v 0 9 ≠ s.linkShare p ∧ !s.unset p) ∨ 256 < bits v 0 9 then s.ends .access
  else (s.setReg (Pg.pt p + 0x118) (v &&& 0x1FF#64)).ends .ok

/-- A write of a partition page's `OWNER` (R362). -/
def State.ptOwnerWrite (s : State) (d p : Nat) (v : Word) : State :=
  if d ≠ 0 ∨ !s.unset p then s.ends .access
  else (s.setReg (Pg.pt p + Off.owner) (v &&& 3#64)).ends .ok

/-- Slices still to join their partition do so at a step start that is no replay (R365). -/
def State.joinSlices (s : State) (p : Nat) : State :=
  if (s.part p).run ≠ 0 then s else s.modPart p fun q => { q with joining := 0 }

/-! ### The region table (R366, R367) -/

/-- The change of a region that R367 allows. -/
def State.regionChange (s : State) (old new : RegionCfg) : Bool :=
  let rest (p : Nat) := [PartMode.quiesced, .config, .free].contains (s.part p).mode
  match old.mode, new.mode with
  | 0, 1 => (s.part new.part).mode != .releasing
  | 0, 2 => true
  | 2, 3 => true
  | 3, 3 => (maskList 16 (old.share - (old.share &&& new.share))).all rest
  | 1, 0 => (s.part old.part).mode == .config || (s.part old.part).mode == .quiesced
  | 2, 0 | 3, 0 => old.share == 0
  | _, _ => false

/-- REGION_COMMIT: the staged range and the configuration written, checked in the order of R117 (R367, R516); a region added to an
ACTIVE partition is usable from its next stage 0. The scrub of a region
that goes to NONE is made with the write (DESIGN CHOICE, log entry 33). -/
def State.regionCommit (s : State) (d r : Nat) (v : Word) : State :=
  let kr := keyAt (Pg.sec + 0x808) r
  let kc := keyAt (Pg.sec + 0x810) r
  let rng := s.stagedOf d kr
  let old := s.memRegion r
  let new : RegionCfg :=
    { base := bits rng 0 21, count := bits rng 32 21, mode := bits v 0 2, part := bits v 4 4, share := bits v 16 16
      poison := old.poison && old.mode != 0 }
  let last := new.base + new.count
  let overlap := (List.range 64).any fun i =>
    let o := s.memRegion i
    i != r && o.mode != 0 && !rangesDisjoint new.base new.count o.base o.count
  let firmware := decide (new.base < s.stackUnits) && decide (s.stackUnits - s.fwFrames < last)
  let awaiting := (List.range 16).any fun p =>
    (s.part p).scrub.any fun u => decide (new.base ≤ u) && decide (u < last)
  if d ≠ 0 ∨ new.count = 0 ∨ s.units ≤ new.base ∨ overlap ∨ firmware ∨ awaiting ∨ !s.regionChange old new
      ∨ (old.mode ≠ 0 ∧ (new.base ≠ old.base ∨ new.count ≠ old.count)) then s.ends .access
  else if s.units < last then s.ends .length
  else
    let cfg := pack [(new.mode, 0), (new.part, 4), (new.share, 16), (b2n new.poison, 32)]
    let s := (s.setReg kr (pack [(new.base, 0), (new.count, 32)])).setReg kc (if new.mode = 0 then 0 else cfg)
    let s := if old.mode = 0 ∧ new.mode = 1 ∧ (s.part new.part).mode = .active then
        s.modPart new.part fun q => { q with fresh := new.base :: q.fresh } else s
    let s := if new.mode = 0 ∧ old.mode = 1 then s.modPart old.part fun q => { q with fresh := q.fresh.filter (· != old.base) } else s
    if new.mode = 0 then
      let us := (List.range old.count).map (old.base + ·)
      (us.foldl State.zeroUnit (s.unpin us)).ends .ok
    else s.ends .ok

/-- The region names one of a domain's partitions (R516). -/
def State.regionNames (s : State) (d : Nat) (r : RegionCfg) : Bool :=
  (r.mode == 1 && s.ownerOf r.part == d) || (maskList 16 r.share).any fun p => s.ownerOf p == d

/-- What a domain reads of `RG_CFG` (R516). -/
def State.regionView (s : State) (d i : Nat) : Word :=
  let r := s.memRegion i
  let mine (p : Nat) := d == 0 || s.ownerOf p == d
  let share := maskOf ((maskList 16 r.share).filter mine)
  pack [(r.mode, 0), (if mine r.part then r.part else 0, 4), (share, 16), (b2n r.poison, 32)]

/-! ### Domains (R373–R375) -/

/-- A write of `DM_CFG` (R374, R425). -/
def State.dmCfgWrite (s : State) (d n : Nat) (v : Word) : State :=
  let k := Pg.dm n + 0x100
  let owns := (List.range 16).any fun p => s.notFree p && s.ownerOf p == n
  if d ≠ 0 then s.ends .access
  else if n = 0 then s.ends .ok
  else if bit v 0 then
    if s.attached n then s.ends .ok
    else
      let s := s.setReg k 1
      (s.clearRegs fun a => a == Pg.dm n + Off.evtStat
        || (decide (Pg.dm n + Off.evtCnt ≤ a) && decide (a < Pg.dm n + Off.owner))).ends .ok
  else if owns || s.wedged n then s.ends .access
  else
    let s := s.setReg k 0
    -- its rings are disabled and its undelivered event records discarded (R425)
    let s := (s.setFld (sqCtrl n) 0 1 0).setFld (Pg.dq n + 0x120) 0 1 0
    let s := { s with evq := s.evq.drop n, evLost := s.evLost.drop n }
    s.ends .ok

/-- `DM_STAT`. -/
def State.dmStat (s : State) (n : Nat) : Word :=
  let owned := ((List.range 16).filter fun p => s.notFree p && s.ownerOf p == n).length
  pack [(if s.wedged n then 2 else if s.attached n then 1 else 0, 0), (owned, 16)]

end Sys2Proof.Machine
end

