-- ==== Sys2Proof/Machine/Integ.lean ====
section
/-! DEFINITION. Verdicts, screening, classification and retirement of slices, repair of damaged weights, background digests, and the
votes of hardened registers (R434–R436, R448–R465). -/

namespace Sys2Proof.Machine

/-! ### Verdicts (R450, R451) -/

/-- Register of a partition's integrity block. -/
def igBlk (p o : Nat) : Nat := Pg.ig + 0x400 + 0x40 * p + o

/-- VERDICT_WRITE: 1 is taken from `FIN`, open sets are closed unchecked, the area is written and `VCTR` signalled (R450). -/
def State.verdictWrite (s : State) (p : Nat) : State :=
  match s.absCtr p (s.fld (igBlk p 0x10) 0 15) with
  | none => s
  | some c =>
    let s := s.settleWaits c
    if s.ctr c = 0 ∨ !s.enginesRun then s
    else
      let s := s.takeCtr c 1
      let s := s.csCloseAll (s.slicesOf p ++ s.twinsOf p)
      let g := s.ig p
      let differ := match g.prev with
        | some t => if s.igMode p = 1 ∧ (s.part p).run ≠ 0 then
            (List.range 17).filter fun i => g.dig.get 0 i != t.get 0 i else []
        | none => []
      let area := toLe 4 (min 0x7FFFFFFF g.suspects) ++ toLe 4 (b2n !differ.isEmpty) ++ zeros 2040
      let s := match s.eaPart p (s.fld (igBlk p 0x18) 0 64) with
        | some a => if a.fits 2048 then s.eaPutBoth a area else s
        | none => s
      let s := s.modIg p fun g => { g with last := g.dig, differ := differ }
      s.signal p (s.fld (igBlk p 0x10) 16 15) 1

/-! ### Retirement and screening (R454–R459) -/

/-- A slice is retired: its pages read RETIRED, and a partition that holds it goes to QUIESCING with cause 10 (R456). -/
def State.retireSlice (s : State) (k : Nat) : State :=
  let holder := s.partOfSlice k
  let dests := match holder with | some p => [0, s.ownerOf p] | none => [0]
  let s := { s with retired := s.retired ||| 2 ^ k, suspect := s.suspect - (s.suspect &&& 2 ^ k) }
  let s := match holder with | some p => s.igCount p 5 | none => s
  let s := s.raise Pg.ig 5
    { status := .fault, part := holder, dests := some dests, own := holder.map fun p => (s.ig p).raises.get 0 5
      err := some ({ type := 0x0032, sev := 3, aux := k }, dests) }
  match holder with
  | some p => (s.beginQuiesce p 10).quiesceGo p
  | none => s

/-- Ticks in 24 hours. -/
def dayTicks : Nat := usTicks * (24 * 3600 * 1000000)

/-- Classification ends (R455): PERMANENT retires the slice; TRANSIENT counts, and retires it at `TRANS_LIMIT` within any 24 h. Its record
names the slice in `ADDR`[63:52] (DESIGN CHOICE, log entry 103). -/
def State.classify (s : State) (k : Nat) (permanent : Bool) : State :=
  let dests := match s.partOfSlice k with | some p => [s.ownerOf p] | none => []
  let s := s.logErr { type := 0x0031, cls := 0x0050, sev := 2, aux := b2n permanent, addr := 2 ^ 52 * k, part := s.partOfSlice k } dests
  let c := s.screens.get {} k
  if permanent then
    ({ s with screens := s.screens.put k { c with passes := 0, classes := 0, failed := true } }).retireSlice k
  else
    let ts := (c.transients.filter fun t => decide (s.clk < t + dayTicks)) ++ [s.clk]
    let s := { s with
      screens := s.screens.put k { c with passes := 0, classes := 0, transients := ts }
      suspect := s.suspect - (s.suspect &&& 2 ^ k) }
    if max 1 (s.fld (Pg.ig + 0x108) 20 4) ≤ ts.length then s.retireSlice k else s

/-- The tick by which an idle window of a slice ends, none when the slice is in none (R65, R458). A slice of no partition is screened
without end. -/
def State.idleEnd (s : State) (k : Nat) : Option Nat :=
  match s.partOfSlice k with
  | none => some (s.clk + dayTicks)
  | some p =>
    let sl := s.slot p
    let implicit := match sl.idleOpen, sl.lastMark with
      | true, some m => s.clk + (m.markCt + m.span - s.idleGuard p - s.ct)
      | _, _ => 0
    let e := max implicit (s.idleUntil.get 0 k)
    if s.clk < e then some e else none

/-- MACE_TEST_START: a test of a class, of `dur` arithmetic cycles, that fits what is left of the window; a suspect slice takes the
tests of its classification first (R457, R458). -/
def State.maceStart (s : State) (k cls dur : Nat) : State :=
  let c := s.screens.get {} k
  let n := s.cycTicks dur
  match s.idleEnd k with
  | some e =>
    if bit (s.reg (Pg.ig + 0x108)) 24 && s.enginesRun && nbits s.retired k 1 == 0 && c.testing.isNone
        && (s.seq k).mode == .idle && (s.seq k).starts.isEmpty && s.queuesEmpty k 511
        && decide (dur ≤ 65536) && decide (s.clk + n ≤ e) && decide (cls < 6)
        && (c.passes == 0 || nbits c.classes cls 1 == 1) then
      { s with screens := s.screens.put k { c with testing := some (cls, s.clk + n), version := s.mace.version } }
    else s
  | none => s

/-- MACE_TEST_DONE: the first 16 bytes of SHAKE256 over the results are compared with the expected value; `last` says that the test
ends its pass (R454, R455, R457). -/
def State.maceDone (s : State) (k : Nat) (results expected : List Byte) (last : Bool) : State :=
  let c := s.screens.get {} k
  match c.testing with
  | none => s
  | some (cls, until') =>
    let s := s.waitClk until'
    let fail := shake256 results 16 != expected
    let c := { c with testing := none, cursor := if last then 0 else c.cursor + 1
                      lastPass := if last && c.passes == 0 then s.ct else c.lastPass }
    let s := { s with screens := s.screens.put k c }
    if fail then
      let s := s.raise Pg.ig 4
        { status := .fault, part := s.partOfSlice k, dests := some [0]
          err := some ({ type := 0x0030, sev := 3, aux := cls, addr := 2 ^ 52 * k }, []) }
      if c.passes ≠ 0 then s.classify k true else s.suspectSlice k allClasses
    else if last ∧ c.passes ≠ 0 then
      if c.passes = 1 then s.classify k false
      else { s with screens := s.screens.put k { c with passes := c.passes - 1 } }
    else s

/-- The firmware key of the chain area. -/
def State.fwKey (s : State) : Option (List Byte) := (Config.chainKeys (s.flash 0x3120000 0x10000)).map fun k => k.2

/-- MACE_IMAGE_LOAD: a write of `IG_MACE_CTRL`. The image has the header of a firmware image, its body being the content (DEDUCED,
log entry 34). -/
def State.maceLoad (s : State) (d : Nat) (v : Word) : State :=
  let k := Pg.ig + 0x158
  if d ≠ 0 then s.ends .access
  else if !bit v 0 then s.ends .ok
  else
    let a := s.fld (Pg.ig + 0x150) 0 52
    let own (u : Nat) : Bool := match s.regionOfUnit u with
      | some (_, r) => r.mode == 2 || (r.mode == 1 && s.ownerOf r.part == 0)
      | none => false
    let h := s.devPeek a 256
    let len := field h 12 4
    let ver := field h 8 4
    let signed := match s.fwKey with | some key => signedBlock key h | none => false
    let body := s.devRead (a + 256) len
    let st : Status :=
      if !aligned a 64 || !own (a / unitBytes) || s.devCheck (.dom 0) a 256 false != .ok || field h 0 2 != 1 || !signed
          || decide (ver < s.mace.version) || decide (ver < s.ident.minMace) then .access
      else if 16 * 2 ^ 20 < len then .length
      else if s.devCheck (.dom 0) a (256 + len) false != .ok
          || !(List.range ((a + 255 + len) / unitBytes - a / unitBytes)).all fun i => own (a / unitBytes + 1 + i) then .length
      else if body.2.2 ≠ .ok ∨ (h.drop 64).take 64 ≠ shake256 body.2.1 64 then .access
      else .ok
    let s := s.setFld k 8 8 (statusCode st)
    if st = .ok then
      (({ s with mace := { version := ver, digest := shake256 body.2.1 32 } }).raise Pg.ig 12 { dests := some [0] }).ends .ok
    else s.ends st

/-! ### Repair (R460, R461) -/

/-- A source of a region. -/
structure WeightSource where
  addr : Nat
  slot : Nat
  kind : Nat

/-- Source `i` of a region (Table IG_SRC0–IG_SRC2). -/
def State.igSource (s : State) (r i : Nat) : WeightSource :=
  let w := s.reg (keyAt (Pg.ig + 0x188 + 8 * i) r)
  { addr := bits w 0 52, slot := bits w 52 6, kind := bits w 58 2 }

/-- A LOCAL source may be read: outside every region but an EXCLUSIVE one of the steward, in units pinned to BULK. -/
def State.localOk (s : State) (addr n : Nat) : Bool :=
  decide (addr + n ≤ s.devEnd)
    && (List.range (ceilDiv (addr + n) unitBytes - addr / unitBytes)).all fun i =>
      let u := addr / unitBytes + i
      (s.placed u).pin == 2 && (match s.regionOfUnit u with
        | none => true
        | some (_, g) => g.mode == 1 && s.ownerOf g.part == 0)

/-- A region has a valid source: a LOCAL copy counts where all of it may be read (R461; DEDUCED, log entry 107). -/
def State.hasSource (s : State) (r : Nat) : Bool :=
  (List.range 3).any fun i =>
    let src := s.igSource r i
    decide (2 ≤ src.kind) || (src.kind == 1 && s.localOk src.addr (unitBytes * (s.memRegion r).count))

/-- The piece as source `i` gives it; `answers` holds what the peers and the node answered, by source. -/
def State.sourceRead (s : State) (r i off n : Nat) (answers : List (Option (List Byte))) : State × Option (List Byte) :=
  let src := s.igSource r i
  match src.kind with
  | 1 =>
    if s.localOk (src.addr + off) n then
      let q := s.devRead (src.addr + off) n
      (q.1, if q.2.2 = .ok then some q.2.1 else none)
    else (s, none)
  | 0 => (s, none)
  | _ => (s, ((answers.getD i none).filter fun b => b.length == n))

/-- The first source that yields the piece, with its number: sources are read in table order (R460). -/
def State.firstSource (s : State) (r off n : Nat) (answers : List (Option (List Byte))) : State × Option (Nat × List Byte) :=
  (List.range 3).foldl (fun (acc : State × Option (Nat × List Byte)) i =>
    match acc.2 with
    | some _ => acc
    | none =>
      let q := acc.1.sourceRead r i off n answers
      (q.1, q.2.map fun b => (i, b))) (s, none)

/-- The partitions that map a region. -/
def State.mappers (s : State) (r : Nat) : List Nat :=
  let g := s.memRegion r
  if g.mode = 1 then [g.part] else if g.mode = 3 then maskList 16 g.share else []

/-- SHARED_POISON: the outcome, 0 REFETCHED, 1 WAITING, 2 LOST, told to each partition that maps the region (R369, R461). `ARG` holds
the region in [5:0], the outcome in [7:6], the unit in [28:8] and the byte offset in [49:29] (DESIGN CHOICE, log entry 35). -/
def State.tellMappers (s : State) (r addr outcome : Nat) : State :=
  (s.mappers r).foldl (fun s p =>
    s.ptEvent p 2 (some (r + 2 ^ 6 * outcome + 2 ^ 8 * (addr / unitBytes) + 2 ^ 29 * (addr % unitBytes))) .poison) s

/-- The error record of a repair, for the steward and for the owner of an EXCLUSIVE region (R369, R463). -/
def State.repairRecord (s : State) (r addr outcome src : Nat) : State :=
  let g := s.memRegion r
  let dests := if g.mode = 1 then [s.ownerOf g.part] else []
  s.logErr { type := 0x0040, cls := 0x0050, sev := if outcome = 2 then 3 else 2, status := statusCode .poison, addr := addr
             aux := outcome + 256 * src + 2 ^ 32 * g.share, part := if g.mode = 1 then some g.part else none } dests

/-- A region lost: `POISON` set, and every partition that maps it goes to QUIESCING with cause 8 (R369, R461). -/
def State.regionLost (s : State) (r addr : Nat) : State :=
  let g := s.memRegion r
  let dests := if g.mode = 1 then [0, s.ownerOf g.part] else [0]
  let s := s.setFld (keyAt (Pg.sec + 0x810) r) 32 1 1
  let s := (s.repairRecord r addr 2 0).raise Pg.ig 7 { status := .poison, dests := some dests }
  let s := s.tellMappers r addr 2
  (s.mappers r).foldl (fun s p => (s.beginQuiesce p 8).quiesceGo p) s

/-- A stream slot armed again at the block that failed (R460). A slot armed anew meanwhile is left alone (DEDUCED, log entry 36). -/
def State.rearm (s : State) (f : FailedSlot) : State :=
  let x := s.xslot f.e f.q
  if x.mode ≠ .idle ∨ s.xPart f.e f.q ≠ some f.part then s
  else
    let gen := (x.gen + 1) % 65536
    (s.modXslot f.e f.q fun x =>
      { x with gen := gen, gens := x.gens ++ [{ gen := gen, part := f.part, desc := f.desc, blk := f.blk }] }).xSettled f.e f.q

/-- A piece written back with fresh check bytes, its rows sealed (R257, R460). -/
def State.writePiece (s : State) (addr : Nat) (bs : List Byte) : State :=
  let s := s.devPut addr bs
  (List.range (bs.length / 1024)).foldl (fun s i =>
    match s.locate (addr + 1024 * i) with
    | .stack l => s.seal l
    | _ => s) s

/-- Repairs under way at once (R460). -/
def repairSlots : Nat := 16

/-- REPAIR_DONE: repair `i` ends, with what the peers and the node answered for each source (R460, R461). -/
def State.repairDone (s : State) (i : Nat) (answers : List (Option (List Byte))) : State :=
  match (s.repairs.take repairSlots)[i]? with
  | none => s
  | some d =>
    let u := d.addr / unitBytes
    if s.unitMoving u then s
    else
      let g := s.memRegion d.region
      let off := d.addr - unitBytes * g.base
      let rest := s.repairs.filter fun e => e.addr != d.addr
      let failedTier := (s.placed u).bulk && s.bulk.mode == .failed
      match (if failedTier then (s, none) else s.firstSource d.region off 2048 answers) with
      | (s, none) => ({ s with repairs := rest }).regionLost d.region d.addr
      | (s, some (src, bs)) =>
        let s := ({ s with repairs := rest }).writePiece d.addr bs
        let s := (s.bump (Pg.ig + 0x130) 1).repairRecord d.region d.addr 0 src
        let s := s.tellMappers d.region d.addr 0
        let still (f : FailedSlot) := rest.any fun e => e.slots.any fun h => h.e == f.e && h.q == f.q
        d.slots.foldl (fun s f => if still f then s else s.rearm f) s

/-- Repairs that cannot be made are LOST as soon as they are found: regions with no valid source (R461). -/
def State.repairsFound (s : State) : State :=
  (s.repairs.filter fun d => !s.hasSource d.region).foldl (fun s d =>
    ({ s with repairs := s.repairs.filter fun e => e.addr != d.addr }).regionLost d.region d.addr) s

/-- REPAIR_WAIT: a repair not done within `WAIT_US` is reported (R461). -/
def State.repairWait (s : State) (i : Nat) : State :=
  match (s.repairs.take repairSlots)[i]? with
  | none => s
  | some d =>
    if d.waiting then s
    else
      let s := s.waitClk (d.clk + usTicks * s.fld (Pg.ig + 0x108) 0 16)
      let s := { s with repairs := s.repairs.map fun (e : Repair) => if e.addr = d.addr then { e with waiting := true } else e }
      let s := (s.repairRecord d.region d.addr 1 0).raise Pg.ig 6 { dests := some [0], onChange := true }
      s.tellMappers d.region d.addr 1

/-! ### Background digests (R462) -/

/-- Timer of the hash engine: 65.536 µs a unit. -/
def digestTimer : Nat := 6

/-- DIGEST_UNIT_DONE: the next unit of a region, or one to be hashed again after its repair, is hashed; its digest goes to the table
and is compared with the reference (R462). A unit that cannot be read whole gets no digest, and a reference that cannot be read none to
compare with (DEDUCED, log entry 37). -/
def State.digestDone (s : State) (r : Nat) : State :=
  let w := s.reg (keyAt (Pg.ig + 0x1A0) r)
  let g := s.memRegion r
  if !bit w 0 || g.mode == 0 || g.count == 0 || !s.enginesRun then s
  else
    let again : Option (Nat × Nat) := s.digests.recheck.find? fun e => e.1 == r
    let u := match again with | some e => e.2 | none => s.digests.next.get 0 r % g.count
    let base := unitBytes * (g.base + u)
    let busy := s.repairs.any fun d => decide (base ≤ d.addr) && decide (d.addr < unitBytes + base)
    if again.isSome && busy then s
    else
      let s := s.periodic digestTimer 262144
      let s := { s with digests := { s.digests with
        next := if again.isSome then s.digests.next else s.digests.next.put r ((u + 1) % g.count)
        recheck := s.digests.recheck.filter fun e => e != (r, u) } }
      let q : State × List Byte × Status := s.devRead base unitBytes
      let s := q.1
      if q.2.2 ≠ .ok then s
      else
        let dig := shake256 (toLe 4 u ++ q.2.1) 32
        let ent := (bits w 6 46) * 64 + 64 * u
        let s := s.devPut ent dig
        let key := 2 ^ 21 * r + u
        let clean (s : State) : State := { s with digests := { s.digests with clean := s.digests.clean.put key s.ct } }
        if !bit w 1 then clean s
        else
          let ref := s.devRead (ent + 32) 32
          let s := ref.1
          if ref.2.2 ≠ .ok then s
          else if ref.2.1 = dig then clean s
          else if again.isSome then s.regionLost r base
          else
            let s := s.raise Pg.ig 8
              { status := .poison, dests := some [0]
                err := some ({ type := 0x0041, sev := 3, addr := base, aux := s.digests.clean.get 0 key }, []) }
            if !s.hasSource r then s.regionLost r base
            else
              let new := ((List.range 1024).map fun i => base + 2048 * i).filter fun a => !s.repairs.any fun d => d.addr == a
              { s with
                repairs := s.repairs ++ new.map fun a => { addr := a, clk := s.clk, region := r }
                digests := { s.digests with recheck := s.digests.recheck ++ [(r, u)] } }

end Sys2Proof.Machine
end

