-- ==== Sys2Proof/Machine/Cadence.lean ====
section
/-! DEFINITION. Steps: plans and marks of a FIXED leader, step start and completion, the Saffron schedule, idle windows, and the
bounds that wait for a step boundary (R51–R66, R70, R448, R488). -/

namespace Sys2Proof.Machine

/-! ### Schedule entries (R57, R58, R62) -/

/-- The slices a mask of absolute slices names in the present run: twins in a VERIFIED run of odd r (R75, R448). -/
def State.placedSlice (s : State) (p k : Nat) : Nat :=
  match (s.runSlices p)[(s.slicesOf p).idxOf k]? with
  | some j => j
  | none => k

/-- An engine of a schedule entry, in the present run (DEDUCED, log entry 40). -/
def State.placedEngine (s : State) (p e : Nat) : Nat :=
  if e < 32 then 2 * s.placedSlice p (e / 2) + e % 2 else e

/-- The check of an entry: a slice, engine, queue slot or counter its partition does not own, or a reserved action (R62). -/
def State.entryOk (s : State) (p : Nat) (e : Word × Word) : Bool :=
  let own (m : Nat) := (maskList 16 m).all fun k => (s.slicesOf p).contains k
  match entAction e.1 with
  | 0 | 4 => true
  | 1 | 5 => own (bits e.2 0 16)
  | 2 =>
    let x := bits e.2 0 6
    let q := bits e.2 8 6
    decide (x < 40) && decide (q < xCount x)
      && (if x < 32 then (s.slicesOf p).contains (x / 2) else s.xPart x q == some p)
  | 3 => decide (bits e.2 0 15 < s.fld (Pg.slot p + 0x030) 16 16)
  | _ => false

/-- A program start posted to each named sequencer; those whose queue is full hold the cursor with SCHED_STALL (R60). -/
def State.postStarts (s : State) (ks : List Nat) (idx arg : Nat) : State × List Nat :=
  ks.foldl (fun (a : State × List Nat) k =>
    if a.1.startRoom k then (a.1.pushStart k idx arg, a.2) else (a.1, a.2 ++ [k])) (s, [])

/-- The action of an entry; answers whether the cursor is held. An IDLE_WINDOW replaces a window still open on a slice, and its length
in ticks is rounded up (DESIGN CHOICE, log entry 89). -/
def State.entryAct (s : State) (p : Nat) (e : Word × Word) : State × Bool :=
  let a := e.2
  match entAction e.1 with
  | 1 =>
    let ks := (maskList 16 (bits a 0 16)).map fun k => s.placedSlice p k
    let r := s.postStarts ks (bits a 16 14) (bits a 32 32)
    if r.2.isEmpty then (r.1, false)
    else ((r.1.modSlot p fun sl => { sl with held := some (r.2, bits a 16 14, bits a 32 32) }).slotEvent p 10, true)
  | 2 =>
    let x := s.placedEngine p (bits a 0 6)
    let r := s.xArmDev x (bits a 8 6) p (bits a 16 48 * 64)
    ((if r.2 = .ok then r.1 else r.1.xArmFail x (bits a 8 6) p r.2), false)
  | 3 => (if bits a 32 16 = 0 then s else s.signal p (bits a 0 15) (bits a 32 16), false)
  | 4 => (s.sqRead (s.ownerOf p), false)
  | 5 =>
    let m := (s.slot p).cur
    let len := match m with | some m => ceilDiv (bits a 16 16 * m.span) 65536 | none => 0
    ((maskList 16 (bits a 0 16)).foldl (fun s k =>
      { s with idleUntil := s.idleUntil.put (s.placedSlice p k) (s.clk + len) }) s, false)
  | _ => (s, false)

/-- The entry at position `i` fires at CT `at`: order, lateness, check, action (R58, R62, R64). -/
def State.entryFire (s : State) (p i : Nat) (m : Mark) (e : Word × Word) (t : Nat) : State :=
  let s := s.entryReached p i m e t
  if !s.entryOk p e then (s.slotEvent p 9).modSlot p fun sl => { sl with cursor := i + 1 }
  else
    let r := s.entryAct p e
    if r.2 then r.1 else r.1.modSlot p fun sl => { sl with cursor := i + 1 }

/-- The cursor fires the entries before it in table order, each in its time, up to the first that is no NOP. -/
def State.fireNext (s : State) (p : Nat) : Nat → State
  | 0 => s
  | fuel + 1 =>
    match (s.slot p).cur, s.cursorEntry p with
    | some m, some (i, e) =>
      let s := s.waitCt ((s.slot p).fireCt m e)
      let s := s.entryFire p i m e s.ct
      if entAction e.1 = 0 then s.fireNext p fuel else s
    | _, _ => s

/-- A schedule entry of an action fires once its phase has come, behind the NOPs that stand before it (R56–R58). -/
def State.schedFire (s : State) (p action : Nat) : State :=
  if s.cursorRuns p ∧ s.cursorAction p = some action then s.fireNext p (s.schedCount p + 1)
  else s.passNops p (s.schedCount p + 1)

/-- SCHED_CURSOR_RESUME: a start queue accepts the held start and the cursor moves on (R60). -/
def State.cursorResume (s : State) (p : Nat) : State :=
  match (s.slot p).held with
  | none => s
  | some (ks, idx, arg) =>
    let r := s.postStarts ks idx arg
    if r.2.isEmpty then r.1.modSlot p fun sl => { sl with held := none, cursor := sl.cursor + 1 }
    else r.1.modSlot p fun sl => { sl with held := some (r.2, idx, arg) }

/-! ### Plans and marks of a FIXED leader (R52, R53) -/

/-- The plan ring of a slot: address and size. -/
def State.planRing (s : State) (p : Nat) : Nat × Nat :=
  (s.fld (Pg.slot p + 0x040) 0 52, 2 ^ s.fld (Pg.slot p + 0x040) 52 4)

/-- Entries written and not consumed, by the tail word. -/
def State.planAhead (s : State) (p : Nat) : Nat :=
  let tail := leNat (s.devPeek ((s.planRing p).1 - 8) 4)
  (2 ^ 32 + tail - (s.slot p).planHead) % 2 ^ 32

/-- A slot whose FIXED leader runs the plan loop, which needs a ring: `PS_PLAN_BASE` has been written (DESIGN CHOICE, log entry
89). -/
def State.planRuns (s : State) (p : Nat) : Bool :=
  s.slotEnabled p && s.slotLeader p && !s.slotElastic p && (s.slot p).mode != .halted && s.enginesRun
    && s.fld (Pg.slot p + 0x040) 0 64 != 0

/-- The lowest step that every member has completed (R52). -/
def State.lowestDone (s : State) (p first : Nat) : Int :=
  (s.members p).foldl (fun (a : Int) m =>
    min a (match (s.slot p).done.items.find? fun e => e.1 == m with
      | some e => (e.2 : Int)
      | none => (first : Int) - 1)) (2 ^ 48 : Nat)

/-- The plan ring with its tail word lies in memory the partition may read (R7, R366). -/
def State.planReadable (s : State) (p : Nat) : Bool :=
  decide (8 ≤ (s.planRing p).1)
    && s.devCheck (.part p false) ((s.planRing p).1 - 8) (8 + 32 * (s.planRing p).2) false == .ok

/-- MARK_SEND (R52, R53). A plan entry that cannot be read sound, or whose ring the partition may not read, is taken as one that does
not follow (DEDUCED, log entry 41). -/
def State.markSend (s : State) (p : Nat) : State :=
  let sl := s.slot p
  let n := (s.planRing p).2
  let ahead := s.planAhead p
  if !s.planRuns p then s
  else if !s.planReadable p then (s.slotEvent p 7).leaderHalt p 3
  else if ahead = 0 then s
  else
    let r := s.devRead ((s.planRing p).1 + 32 * (sl.planHead % n)) 32
    let s := r.1
    let ct := field r.2.1 0 8
    let step := field r.2.1 8 6
    let span := field r.2.1 16 4
    let follows := match sl.planLast with | some l => step == (l + 1) % 2 ^ 48 | none => true
    if n < ahead ∨ !follows ∨ r.2.2 ≠ .ok then (s.slotEvent p 7).leaderHalt p 3
    else
      let first := sl.planFirst.getD step
      let s := s.waitCt (ct - s.slotLead p)
      if (s.lagLimit p : Int) < step - s.lowestDone p first then
        if sl.planHeld then s else (s.modSlot p fun sl => { sl with planHeld := true }).slotEvent p 6
      else
        let mct := max ct (s.ct + s.slotLead p)
        let s := if ct < mct then s.slotEvent p 5 else s
        let s := s.modSlot p fun sl =>
          { sl with planHead := (sl.planHead + 1) % 2 ^ 32, planLast := some step, planFirst := some first, planHeld := false
                    planEmptyAt := none }
        s.issueMark p
          { step := step, group := s.slotGroup p, elastic := false, held := decide (ct < mct), halt := false, markCt := mct
            span := if span = 0 then s.slotSpan p else span, leader := s.boot.slotId }

/-- PLAN_EMPTY: CT passes the last mark and its span while the ring is empty (R52). -/
def State.planEmpty (s : State) (p : Nat) : State :=
  match (s.slot p).sentMark with
  | some m =>
    if !s.planRuns p ∨ s.planAhead p ≠ 0 ∨ (s.slot p).planEmptyAt.isSome then s
    else
      let s := s.waitCt (m.markCt + m.span)
      (s.modSlot p fun sl => { sl with planEmptyAt := some s.ct }).slotEvent p 4
  | none => s

/-! ### Bounds that wait for a step boundary (R488) -/

/-- The value of one loop moves to the nearest of the bounds that have excluded it: the clock, a stack's level, a partition's
placement. -/
def State.applyBound (s : State) (i : Nat) : State :=
  let s := s.modPower fun q => { q with boundClk := q.boundClk.drop i }
  if i = 0 then s.settle
  else if i < 32 then
    let (fl, ce, pin) := s.thermBounds
    s.modStack (i - 16) fun st => { st with level := if pin then fl else max fl (min ce st.level) }
  else s.modBulk fun b => { b with oldBound := b.oldBound.drop (i - 32) }

/-- A step boundary: every pending change of a module-wide loop applies. -/
def State.applyBounds (s : State) : State := (s.power.boundClk.items.map (·.1)).foldl State.applyBound s

/-- BOUND_APPLY_TIMEOUT: with no cadence slot enabled, a pending change applies 1 ms after its write; the earliest comes first. -/
def State.boundTimeout (s : State) : State :=
  match s.power.boundClk.items.map (·.2) with
  | [] => s
  | c :: cs =>
    if (List.range 16).any s.slotEnabled then s
    else
      let s := s.waitClk (cs.foldl min c + 1000 * usTicks)
      ((s.power.boundClk.items.filter fun e => decide (e.2 + 1000 * usTicks ≤ s.clk)).map (·.1)).foldl State.applyBound s

/-! ### Step start and completion (R51, R63, R64) -/

/-- Entries of the step before that have not fired, from the bank active when it started, one in each fabric cycle; they stop at a held
start (R58, R59). -/
def State.leftovers (s : State) (p : Nat) : Nat → State
  | 0 => s
  | fuel + 1 =>
    let sl := s.slot p
    match sl.cur, s.cursorEntry p with
    | some m, some (i, e) =>
      if sl.held.isSome then s
      else
        let s := s.waitCt (match sl.firedCt with | some c => c + 2 | none => 0)
        (s.entryFire p i m e s.ct).leftovers p fuel
    | _, _ => s

/-- The slots of the slices of a run at their state at the start of run 0 (R448). -/
def State.restoreSlots (s : State) (p : Nat) : State :=
  (s.runSlices p).zipIdx.foldl (fun s ki =>
    (List.range 16).foldl (fun s j =>
      let q := (s.ig p).snap.get {} (16 * ki.2 + j)
      let c := (s.ig p).snapCfg.get (s.reg (slotCfgKey ki.1 j)) (16 * ki.2 + j)
      ({ s with qslots := s.qslots.put (16 * ki.1 + j) q }).setReg (slotCfgKey ki.1 j) c) s) s

/-- The slots of a partition's slices remembered at the start of run 0 (R448). -/
def State.snapSlots (s : State) (p : Nat) : State :=
  let keys := (s.slicesOf p).zipIdx.flatMap fun ki => (List.range 16).map fun j => (ki.1, ki.2, j)
  s.modIg p fun g =>
    { g with snap := keys.foldl (fun t k => t.put (16 * k.2.1 + k.2.2) (s.qslot k.1 k.2.2)) {}
             snapCfg := keys.foldl (fun t k => t.put (16 * k.2.1 + k.2.2) (s.reg (slotCfgKey k.1 k.2.2))) {} }

/-- Operations so far of every queue of a partition's slices. -/
def State.issuedBases (s : State) (p : Nat) : Tab Nat :=
  (s.slicesOf p ++ s.twinsOf p).foldl (fun t k =>
    (List.range 9).foldl (fun t q => t.put (16 * k + q) ((s.seq k).issued.get 0 q)) t) {}

/-- What a step start does in the units of the partition: slices join, runs begin, slots advance or are restored, the sampler starts,
REPEAT queues restart, waiting bounds apply (R186, R365, R396, R445, R448, R488). -/
def State.startUnits (s : State) (p : Nat) : State :=
  let s := s.joinSlices p
  let run := (s.part p).run
  let s := s.modIg p fun g =>
    { g with suspects := 0, dig := {}, ords := s.issuedBases p, prev := if run = 0 then none else some g.last }
  let s := if run = 0 then
      let t := (s.slicesOf p ++ s.twinsOf p).foldl State.advanceSlots s
      t.snapSlots p
    else s.restoreSlots p
  ((((s.twinCheck p).pepStart p).collStep p).applyBounds)

/-- STEP_START: the oldest mark has taken effect and no step runs (R51). A leftover start that a full queue holds keeps the step from
starting. -/
def State.stepStart (s : State) (p : Nat) : State :=
  let sl := s.slot p
  match sl.marks with
  | (m, true) :: rest =>
    if sl.busy ∨ sl.mode = .halted ∨ sl.mode = .disabled ∨ !s.enginesRun then s
    else
      let start := s.ct
      let s := (s.passNops p (s.schedCount p + 1)).leftovers p (s.schedCount p + 1)
      if (s.slot p).held.isSome then s
      else
        let s := (s.closeIdle p).modSlot p fun sl =>
          let bank := if sl.swap then !sl.bank else sl.bank
          { sl with bank := bank, swap := false, stepBank := bank, cursor := 0, lastPhase := 0, step := m.step, cur := some m
                    marks := rest, busy := true, mode := .running, startCt := start
                    stepLimited := false }
        s.startUnits p
  | _ => s

/-- STEP_DONE: the step-done counter reaches its target, which is taken; the step completes (R51, R63, R64). -/
def State.stepDone (s : State) (p : Nat) : State :=
  let sl := s.slot p
  let target := max 1 (s.fld (Pg.slot p + 0x018) 32 16)
  match sl.cur, s.absCtr p (s.fld (Pg.slot p + 0x018) 0 15) with
  | some m, some c =>
    let s := s.settleWaits c
    if !sl.busy ∨ s.ctr c < target then s
    else
      let s := (s.passNops p (s.schedCount p + 1)).takeCtr c target
      let excess := s.ct - (m.markCt + m.span)
      let latched := sl.marks.any fun x => x.2
      let s := s.modSlot p fun sl =>
        { sl with busy := false, closing := false
                  mode := if sl.mode = .halted then .halted else if sl.closing then .disabled else .idle
                  lastDur := s.ct - sl.startCt, lastLate := sl.startCt - m.markCt, maxOver := sat 0xFFFFFFFF (max sl.maxOver excess)
                  idleOpen := sl.marks.isEmpty && !sl.closing && sl.mode != .halted }
      let s := if excess = 0 ∧ !latched then s
        else s.raiseSlot p 0 (min excess 0xFFFFFFFF + 2 ^ 32 * (m.step % 2 ^ 32))
      let s := s.sendReport p m.step (min excess 0xFFFFFFFF) false
      s.modSv p fun v => { v with stage9 := true }
  | _, _ => s

/-- IDLE_WINDOW_CLOSE: the implicit window closes at `MARK_CT + SPAN − IDLE_GUARD` of the last mark (R65, R66). -/
def State.idleClose (s : State) (p : Nat) : State :=
  match (s.slot p).idleOpen, (s.slot p).lastMark with
  | true, some m =>
    (s.waitCt (m.markCt + m.span - s.idleGuard p)).closeIdle p
  | _, _ => s

/-! ### Domain access to the schedule and the counters (R62, R70, R71) -/

/-- Register of a domain's set. -/
def domReg (d o : Nat) : Nat := Pg.cad + 0x200 + 0x40 * d + o

/-- The domain's partition whose schedule range holds an entry. -/
def State.entryPart (s : State) (d i : Nat) : Option Nat :=
  (List.range 16).find? fun p => s.ownerOf p == d && decide (s.schedBase p ≤ i) && decide (i < s.schedBase p + s.schedCount p)

/-- Bits of an entry that are no reserved ones. -/
def entMask (c : Word) : Word := c &&& 0x80007FFF0F0FFFFF#64

/-- An entry written to the inactive bank of its partition (R61). -/
def State.putEntry (s : State) (p i : Nat) (e : Word × Word) : State :=
  let k := b2n (!(s.slot p).bank) * 16384 + i
  { s with schedLo := s.schedLo.put k (entMask e.1), schedHi := s.schedHi.put k e.2 }

/-- SCHED_ENTRY_COMMIT: a write of `DOM_SCHED_HI` (R62). -/
def State.schedCommit (s : State) (dom d : Nat) (v : Word) : State :=
  let i := s.fld (domReg d 0) 0 14
  match s.entryPart d i with
  | none => s.ends .access
  | some p =>
    let e := (s.stagedOf dom (domReg d 8), v)
    if s.entryOk p e then (s.putEntry p i e).ends .ok else s.ends .access

/-- The committed word of the selected entry: 0 low, 1 high; none outside the domain's ranges. -/
def State.schedWord (s : State) (d : Nat) (high : Bool) : Option Word :=
  let i := s.fld (domReg d 0) 0 14
  (s.entryPart d i).map fun _ =>
    let e := s.entryAt (bit (s.reg (domReg d 0)) 16) i
    if high then e.2 else e.1

/-- SCHED_LOAD: a write of `DOM_LOAD_CTRL`; the write is accepted and the status stands in the register. `FIRST` is an absolute index
(DEDUCED, log entry 42); one in no range of the domain names no partition, and the load ends with ACCESS (DESIGN CHOICE, log entry
89). -/
def State.schedLoad (s : State) (d : Nat) (v : Word) : State :=
  let k := domReg d 0x30
  let first := bits v 0 14
  let count := bits v 16 15
  let addr := s.fld (domReg d 0x28) 0 64
  let ending (s : State) (st : Status) (fail : Nat) : State :=
    (s.setReg k (pack [(first, 0), (count, 16), (fail, 32), (statusCode st, 48)])).ends .ok
  if !bit v 63 then (s.setReg k (setBits (setBits (s.reg k) 0 14 first) 16 15 count)).ends .ok
  else match s.entryPart d first with
    | none => ending s .access 0
    | some p =>
      let st := if !aligned addr 16 then Status.access
        else if s.schedBase p + s.schedCount p < first + count then .length
        else if count = 0 then .ok else s.devCheck (.dom d) addr (16 * count) false
      if st ≠ .ok then ending s st 0
      else
        let r := s.devRead addr (16 * count)
        if r.2.2 ≠ .ok then ending r.1 r.2.2 0
        else
          let s := r.1
          let ents := (List.range count).map fun i => (word (field r.2.1 (16 * i) 8), word (field r.2.1 (16 * i + 8) 8))
          match ents.findIdx? fun e => !s.entryOk p e with
          | some i => ending s .access ((first + i) % 65536)
          | none => ending (ents.zipIdx.foldl (fun s ei => s.putEntry p (first + ei.2) ei.1) s) .ok 0

/-- SCHED_SWAP_WRITE and the range of `PS_SCHED` (R61, R364). -/
def State.psSchedWrite (s : State) (dom p : Nat) (v : Word) : State :=
  let k := Pg.slot p + 0x028
  let same := bits v 0 14 == s.schedBase p && bits v 16 15 == s.schedCount p
  if !same && (dom != 0 || !s.unset p || decide (16384 < bits v 0 14 + bits v 16 15)) then s.ends .access
  else
    let s := s.setReg k (pack [(bits v 0 14, 0), (bits v 16 15, 16)])
    (if bit v 33 then s.modSlot p fun sl => { sl with swap := true } else s).ends .ok

/-- The counter a domain may reach: an absolute index in a range of its partitions (R71). -/
def State.domCtr (s : State) (d : Nat) : Option Nat :=
  let i := s.fld (domReg d 0x18) 0 15
  ((List.range 16).find? fun p => s.ownerOf p == d
    && decide ((s.ctrRange p).1 ≤ i) && decide (i < (s.ctrRange p).1 + (s.ctrRange p).2)).map fun _ => i

/-- COUNTER_SET: a write of `DOM_CTR_VAL` is SET (R71). -/
def State.counterSet (s : State) (d : Nat) (v : Word) : State :=
  match s.domCtr d with
  | some i => (s.setCtr i (bits v 0 32)).ends .ok
  | none => s.ends .access

end Sys2Proof.Machine
end

