-- ==== Sys2Proof/Machine/Mailbox.lean ====
section
/-! DEFINITION. The mailboxes and their commands, firmware and record staging, attestation, the timed boot steps, and what a fatal
condition ends (R35, R281, R440–R443, R476–R483). -/

namespace Sys2Proof.Machine

/-- A mailbox. -/
def State.mbox (s : State) (d : Nat) : Mbox := s.mboxes.get {} d

/-- A mailbox changed. -/
def State.modMbox (s : State) (d : Nat) (f : Mbox → Mbox) : State := { s with mboxes := s.mboxes.put d (f (s.mbox d)) }

/-- `ARG0` of a mailbox. -/
def State.mbArg (s : State) (d : Nat) : Nat := s.fld (Pg.mb d + 0x100) 32 32

/-- Buffer address and length of a mailbox. -/
def State.mbBuf (s : State) (d : Nat) : Nat × Nat := (s.fld (Pg.mb d + 0x108) 0 52, s.fld (Pg.mb d + 0x110) 0 24)

/-- The buffer lies in an EXCLUSIVE region of the domain's partitions, or for D0 in a SHARED_LOAD region (R441). -/
def State.mbBufOk (s : State) (d : Nat) : Bool :=
  let b := s.mbBuf d
  let n := max 1 b.2
  aligned b.1 64 && aligned b.2 64 && decide (b.1 + n ≤ s.devEnd)
    && (List.range (ceilDiv (b.1 + n) unitBytes - b.1 / unitBytes)).all fun i =>
      match s.regionOfUnit (b.1 / unitBytes + i) with
      | some (_, r) => (r.mode == 1 && s.ownerOf r.part == d) || (d == 0 && r.mode == 2)
      | none => false

/-- The Anise cores run verified firmware (R467, R477). -/
def State.coresRun (s : State) : Bool :=
  !([BootPhase.unpowered, .held, .rom, .romFault].contains s.boot.phase)

/-- A mailbox opcode. -/
inductive MbOp where
  | logRead | attest | certRead | fwStage | recordStage | fwActivate | reset
  deriving DecidableEq, Repr

/-- The command a mailbox names: FW_STAGE with `ARG0`[31] stages a record (R442, R479). -/
def State.mbOp (s : State) (d : Nat) : Option MbOp :=
  match s.fld (Pg.mb d + 0x100) 0 8 with
  | 0x01 => some .logRead
  | 0x02 => some .attest
  | 0x03 => some .certRead
  | 0x10 => some (if 2 ^ 31 ≤ s.mbArg d then .recordStage else .fwStage)
  | 0x11 => some .fwActivate
  | 0x20 => some .reset
  | _ => none

/-- Commands of the steward alone. -/
def MbOp.steward : MbOp → Bool
  | .logRead | .attest | .certRead => false
  | _ => true

/-- Commands that use the buffer. -/
def MbOp.buffered : MbOp → Bool
  | .fwActivate | .reset => false
  | _ => true

/-- Commands served once the cores run; the others wait for READY or firmware FAULT (R476, R477). -/
def MbOp.early : MbOp → Bool
  | .reset | .certRead | .attest => true
  | _ => false

/-- What a command will end with. -/
def State.mbEnd (s : State) (d : Nat) (st : Status) (count arg : Nat) : State :=
  s.modMbox d fun m => { m with status := st, count := count, arg := arg }

/-- Bytes a command puts in its buffer, and how it then goes on; a buffer that cannot be written ends it with the status of the write. -/
def State.mbPut (s : State) (d : Nat) (bs : List Byte) (go : State → State) : State :=
  let r := s.devWrite (s.mbBuf d).1 bs
  if r.2 ≠ .ok then r.1.mbEnd d r.2 0 0
  else go (r.1.modMbox d fun m => { m with out := some ((s.mbBuf d).1, bs) })

/-- A command ends with OK; the spec states no result count for it, so the count is a free value (log entry 38). -/
def State.mbDoneFree (s : State) (d : Nat) : State := (s.mbEnd d .ok (bits s.freeVal 0 32) 0).useFree

/-! ### LOG_READ (R442, R463) -/

/-- An error record as a domain reads it: fields that name another domain's partition read zero. -/
def State.errBytes (s : State) (d : Nat) (e : ErrRec) : List Byte :=
  let mine := match e.part with | some p => d == 0 || s.ownerOf p == d | none => true
  let part := match e.part with | some p => if mine then p + 16 else 0 | none => 0
  toLe 2 e.type ++ toLe 2 e.cls ++ toLe 1 e.inst ++ toLe 1 e.sev ++ toLe 1 part ++ toLe 1 e.status ++ toLe 8 e.ct
    ++ toLe 2 e.temp ++ toLe 2 e.supply ++ toLe 4 e.opc ++ toLe 8 e.addr ++ toLe 16 e.syn
    ++ toLe 8 (if d = 0 then e.aux else e.aux % 2 ^ 32) ++ toLe 4 e.step ++ toLe 2 (if mine then e.req else 0) ++ zeros 2

/-- Records of a domain still held, with their indices, in index order. -/
def State.logOf (s : State) (d : Nat) : List (Nat × ErrRec) :=
  s.log.filterMap fun e => (e.dests.find? fun t => t.1 == d).map fun t => (t.2, e.err)

/-- LOG_READ. -/
def State.mbLogRead (s : State) (d : Nat) : State :=
  let a := s.mbArg d
  let rs := ((s.logOf d).filter fun r => decide (a ≤ r.1)).take ((s.mbBuf d).2 / 64)
  let first := match (s.logOf d).head? with | some r => max a r.1 | none => a
  s.mbPut d (rs.flatMap fun r => s.errBytes d r.2) fun t => t.mbEnd d .ok rs.length (first + rs.length)

/-! ### Attestation and certificates (R481, R482) -/

/-- Bytes 0–383 of an attestation report. -/
def State.report (s : State) (d : Nat) (nonce : List Byte) : List Byte :=
  let i := s.ident
  let owned := (List.range 16).filter fun p => s.notFree p && s.ownerOf p == d
  let nodes := (List.range 4).flatMap fun n =>
    toLe 2 (if s.portDomain n = some d then (s.port n).nodeId else 0xFFFF)
  toLe 2 1 ++ toLe 1 d ++ toLe 1 s.boot.slotId ++ nodes ++ zeros 4 ++ nonce ++ toLe 8 s.ct ++ toLe 8 i.serial
    ++ toLe 4 i.lot ++ toLe 1 i.wafer ++ toLe 1 i.dieX ++ toLe 1 i.dieY
    ++ toLe 1 (s.boot.cause + 16 * b2n i.fallback + 32 * b2n i.pending) ++ toLe 4 s.boot.bootUs
    ++ toLe 2 i.recVersion ++ toLe 2 i.minSvn ++ toLe 2 i.fwMajor ++ toLe 2 i.fwMinor ++ toLe 2 i.svn ++ zeros 2
    ++ toLe 4 s.mace.version ++ zeros 4 ++ shake256 i.record 32 ++ i.bodyDig ++ s.mace.digest
    ++ toLe 2 (maskOf owned) ++ toLe 4 ((owned.map fun p => s.igMode p * 4 ^ p).sum) ++ zeros 122

/-- ATTEST. -/
def State.mbAttest (s : State) (d : Nat) : State :=
  if (s.mbBuf d).2 < 512 then s.mbEnd d .length 0 0
  else
    let r := s.devRead (s.mbBuf d).1 64
    let s := r.1
    if r.2.2 ≠ .ok then s.mbEnd d r.2.2 0 0
    else
      let b := s.report d r.2.1
      let sig := Config.deviceSign (s.flash 0x3130000 0x10000) (shake256 b 64)
      s.mbPut d (b ++ (sig ++ zeros 114).take 114 ++ zeros 14) fun t => t.mbDoneFree d

/-- CERT_READ. -/
def State.mbCertRead (s : State) (d : Nat) : State :=
  let certs := Config.chainCerts (s.flash 0x3120000 0x10000)
  let item : Option (List Byte) := match s.mbArg d with
    | 0 => some certs.1
    | 1 => some certs.2.1
    | 2 => some s.ident.record
    | 3 => some certs.2.2
    | _ => none
  match item with
  | none => s.mbEnd d .access 0 0
  | some b =>
    if (s.mbBuf d).2 < b.length then s.mbEnd d .length 0 b.length
    else s.mbPut d b fun t => t.mbEnd d .ok b.length 0

/-! ### Firmware and record staging (R479, R480, R483) -/

/-- An event of the security page (R483). -/
def State.secEvent (s : State) (b : Nat) : State := s.raise Pg.sec b { dests := some [0] }

/-- The older directory copy written with SEQ + 1, naming a slot (R480). -/
def State.writeDir (s : State) (slotB : Bool) : State :=
  let seqOf (c : Nat) := (s.dirCopy c).map fun x => x.1
  let older := match seqOf 0, seqOf 1 with
    | some a, some b => if b < a then 1 else 0
    | some _, none => 1
    | none, _ => 0
  let next := (max ((seqOf 0).getD 0) ((seqOf 1).getD 0) + 1) % 2 ^ 32
  let body := toLe 4 next ++ toLe 1 (b2n slotB) ++ zeros 3
  s.wrMem .flash (0x1000 * older) (body ++ toLe 8 (crc64 body).toNat)

/-- A pending activation cancelled: the directory names the slot that booted (R479; DEDUCED, log entry 39). -/
def State.cancelActivation (s : State) : State :=
  if s.ident.pending then { (s.writeDir s.ident.slotB) with ident := { s.ident with pending := false } } else s

/-- FW_STAGE: one chunk into the slot that did not boot (R479). -/
def State.mbFwStage (s : State) (d : Nat) : State :=
  let c := s.mbArg d
  let n := (s.mbBuf d).2
  let base := imageBase (!s.ident.slotB)
  let s := s.cancelActivation
  if 192 ≤ c ∨ 128 * 1024 < n then s.mbEnd d .length 0 0
  else
    let r := s.devRead (s.mbBuf d).1 n
    let s := r.1
    if r.2.2 ≠ .ok then s.mbEnd d r.2.2 0 0
    else
      let s := if c = 0 then s.clrMem .flash base 0x10000 else s
      (s.wrMem .flash (base + c * 0x20000) r.2.1).mbDoneFree d

/-- The image that will boot next: the directory's, or the other where that one fails its checks (R475). -/
def State.nextSlot (s : State) : Bool :=
  let good := match s.fwKey with
    | some k => s.imageOk s.activeSlot k s.ident.minSvn s.ident.minMace
    | none => false
  if good then s.activeSlot else !s.activeSlot

/-- The checks of a configuration record to be staged (R479). -/
def State.recordOk (s : State) (r : List Byte) : Bool :=
  let old := s.ident.record
  let key := (Config.chainKeys (s.flash 0x3120000 0x10000)).map fun k => k.1
  let svn := field (s.flash (imageBase s.nextSlot) 256) 6 2
  (match key with | some k => signedBlock k r | none => false)
    && field r 0 2 == 1
    && (r.drop 64).take 32 == (old.drop 64).take 32
    && (r.drop 8).take 20 == (old.drop 8).take 20
    && decide (field old 2 2 < field r 2 2) && decide (field old 32 2 ≤ field r 32 2) && decide (field r 32 2 ≤ svn)

/-- RECORD_STAGE: a configuration record, into the copy that did not boot (R479). -/
def State.mbRecordStage (s : State) (d : Nat) : State :=
  let s := s.cancelActivation
  if (s.mbBuf d).2 < 256 then s.mbEnd d .length 0 0
  else
    let r := s.devRead (s.mbBuf d).1 256
    let s := r.1
    if r.2.2 ≠ .ok then s.mbEnd d r.2.2 0 0
    else if s.recordOk r.2.1 then (s.wrMem .flash (recordBase (1 - s.ident.recCopy)) r.2.1).mbDoneFree d
    else (s.mbEnd d .access 0 0).secEvent 1

/-- FW_ACTIVATE (R480). -/
def State.mbFwActivate (s : State) (d : Nat) : State :=
  let slotB := !s.ident.slotB
  let good := match s.fwKey with
    | some k => s.imageOk slotB k s.ident.minSvn s.ident.minMace
    | none => false
  if good then
    (({ (s.writeDir slotB) with ident := { s.ident with pending := true } }).secEvent 0).mbDoneFree d
  else (s.mbEnd d .access 0 0).secEvent 1

/-! ### GO and the end of a command (R441, R442) -/

/-- A write of `MB_GO`. A steward's RESET acts at once (R466). -/
def State.mbGo (s : State) (d : Nat) (v : Word) : State :=
    if !bit v 0 then s.ends .ok
    else match s.mbOp d with
      | none => s.ends .access
      | some op =>
        if (s.mbox d).mode = .busy ∨ (op.steward ∧ d ≠ 0) ∨ !s.coresRun
            ∨ (!op.early ∧ !s.isReady ∧ s.boot.phase ≠ .fwFault) ∨ (op.buffered ∧ !s.mbBufOk d) then s.ends .access
        else if op = .reset then (s.moduleReset 2 s.boot.wcount).ends .ok
        else
          let s := s.modMbox d fun _ =>
            { mode := .busy, opcode := s.fld (Pg.mb d + 0x100) 0 8, tag := s.fld (Pg.mb d + 0x100) 16 16, goClk := s.clk }
          (match op with
            | .logRead => s.mbLogRead d
            | .attest => s.mbAttest d
            | .certRead => s.mbCertRead d
            | .fwStage => s.mbFwStage d
            | .recordStage => s.mbRecordStage d
            | .fwActivate => s.mbFwActivate d
            | .reset => s).ends .ok

/-- A mailbox's command is over: a mailbox of a detached domain returns to IDLE (R442, R443). -/
def State.mbSettle (s : State) (d : Nat) : State :=
  if (s.mbox d).closing then
    ({ s with mboxes := s.mboxes.drop d }).clearRegs fun k => decide (Pg.mb d + 0x100 ≤ k) && decide (k < Pg.mb d + 0x130)
  else s

/-- MB_DONE (R442). -/
def State.mbDone (s : State) (d : Nat) : State :=
  let m := s.mbox d
  if m.mode ≠ .busy then s
  else
    let s := s.modMbox d fun m => { m with mode := .done }
    (s.raise (Pg.mb d) 0 { arg := some (m.opcode + 2 ^ 16 * m.tag + 2 ^ 32 * (m.count % 2 ^ 32)), status := m.status, dests := some [d] }).mbSettle d

/-- MB_TIMEOUT: a command not done within 1 s ends with FAULT; what it had to write is undefined, and discarded where the
domain's regions have been released (R442, R443). -/
def State.mbTimeout (s : State) (d : Nat) : State :=
  let m := s.mbox d
  if m.mode ≠ .busy then s
  else
    let s := s.waitClk (m.goClk + 1000000 * usTicks)
    let s := match m.out with
      | some (a, bs) =>
        let f := s.freeBytes bs.length
        if s.mbBufOk d then f.1.devPut a f.2 else s
      | none => s
    let s := s.modMbox d fun m => { m with mode := .done, status := .fault, count := 0, arg := 0 }
    (s.raise (Pg.mb d) 1
      { status := .fault, dests := some [d], err := some ({ sev := 2, aux := m.opcode }, []) }).mbSettle d

/-- A mailbox's registers may not be written while it is BUSY (R441). -/
def State.mbWrite (s : State) (d : Nat) (k : Nat) (v : Word) : State :=
  if (s.mbox d).mode = .busy then s.ends .access
  else
    let o := k % 0x1000
    let mask : Word := if o = 0x100 then 0xFFFFFFFFFFFF00FF#64 else if o = 0x108 then 0xFFFFFFFFFFFFF#64 else 0xFFFFFF#64
    (s.setReg k (v &&& mask)).ends .ok

/-- The mailbox of a domain that is detached (R443). -/
def State.mbDetach (s : State) (d : Nat) : State :=
  (s.modMbox d fun m => { m with closing := true }) |> fun t => if (s.mbox d).mode = .busy then t else t.mbSettle d

/-- `MB_STAT` and `MB_RES`. -/
def State.mbStat (s : State) (d : Nat) : Word :=
  let m := s.mbox d
  pack [(match m.mode with | .idle => 0 | .busy => 1 | .done => 2, 0), (if m.mode = .done then statusCode m.status else 0, 8), (m.tag, 16)]
def State.mbRes (s : State) (d : Nat) : Word :=
  let m := s.mbox d
  if m.mode = .done then pack [(m.count % 2 ^ 32, 0), (m.arg % 2 ^ 32, 32)] else 0

/-! ### Fatal conditions and the loss of the bulk tier (R35, R281, R290) -/

/-- The generations of a slot end with FAULT: each at its first block with a transfer that has not completed, or that it has not begun. -/
def State.fatalSlot (s : State) (e q : Nat) : State :=
  let x := s.xslot e q
  let first (g : Gen) := ((x.xfers.filter fun t => t.gen == g.gen && !t.fin).map (·.blk)).foldl min g.blk
  let s := x.gens.foldl (fun s g => s.xFail e q g.gen .fault (first g)) s
  (s.modXslot e q fun x => { x with xfers := x.xfers.map fun (t : Xfer) => { t with fin := true, remote := false } }).xSettled e q

/-- The engine has begun an entry: it is neither queued nor at a counter wait. -/
def QEntry.begun (e : QEntry) : Bool := e.phase != .queued && e.phase != .waiting

/-- The operations an engine queue has begun end with FAULT, and the queue halts (R35, R97). -/
def State.fatalQueue (s : State) (k q : Nat) : State :=
  match (s.queue k q).filter QEntry.begun with
  | [] => s
  | e :: es =>
    let s := (e :: es).foldl (fun s x => s.endWalk k x) s
    let s := s.setQueue k q ((s.queue k q).filter fun x => !x.begun)
    if s.halted k q then s else s.haltQueue k q e .fault

/-- What was outstanding ends with FAULT: transfers, engine operations, collectives, and row sequences once the operations they have
dispatched have run to their ends (R35, R281). -/
def State.fatalEnd (s : State) : State :=
  let s := (s.xslots.keysWhere fun _ x => !x.gens.isEmpty).foldl (fun s i => s.fatalSlot (i / 64) (i % 64)) s
  let s := (List.range 144).foldl (fun s i => s.fatalQueue (i / 9) (i % 9)) s
  let s := (List.range 16).foldl (fun s p => s.collEnd p .fault) s
  (s.rowSlots.keysWhere fun _ r => r.mode == .running).foldl (fun s i =>
    s.rowFail (i / 4) (i % 4) .fault 0 (s.rowSlot (i / 4) (i % 4)).ent) s

/-- A retained entry has a page or its husk in the bulk tier. -/
def State.heldInBulk (s : State) (r : Nat) : Bool :=
  let e := s.req r
  e.pages.any inBulkPool || e.husk.isSome

/-- Page copies a failed bulk tier ends: those to it, and those from it that have not completed. The pages they had taken are free again,
and their sources stay where they are (R290, R298, R299). -/
def PageCopy.lost (c : PageCopy) : Bool := !(c.back && c.finished)

/-- The copies of a failed bulk tier given up. -/
def State.dropCopies (s : State) : State :=
  let gone := s.bulk.copies.filter PageCopy.lost
  let s := s.modBulk fun b => { b with copies := b.copies.filter fun c => !c.lost }
  gone.foldl (fun s c => s.dropPage c.part (if c.back then c.dst else 2 ^ 31 + c.dst)) s

/-- The page copies of a bulk tier that has failed are given up, and its retained entries expire at once (R290, R302). -/
def State.bulkExpire (s : State) : State :=
  let s := s.dropCopies
  ((s.reqs.items.filter fun e => e.2.mode == .retained && s.heldInBulk e.1).map (·.1)).foldl (fun s r =>
    match s.partOfReq r with
    | some p => (s.freeReqEntry p r).modReq r fun e => { e with status := statusCode .expired }
    | none => s) s

/-- What follows at once where a command has stopped the module or the bulk tier. -/
def State.afterLoss (s : State) (was : State) : State :=
  let s := if s.boot.phase = .fwFault ∧ was.boot.phase ≠ .fwFault then s.fatalEnd else s
  if s.bulk.mode = .failed ∧ was.bulk.mode ≠ .failed then s.bulkExpire else s

/-! ### Boot (R265, R476) -/

/-- What a boot step found: failing lanes by (stack, channel), lane 18 being a command lane; the bulk channel that failed training;
the slices that failed screening. -/
structure BootReport where
  lanes : List (Nat × Nat × List Nat) := []
  bulkBad : Option Nat := none
  slices : Nat := 0
  deriving DecidableEq, Repr

/-- A unit fails bring-up: firmware FAULT, with an error record that names it (R4, R476). -/
def State.bootFail (s : State) (cls inst chan : Nat) : State :=
  (s.logErr { type := 0x0100, cls := cls, inst := inst, sev := 4, status := statusCode .fault, addr := 2 ^ 52 * chan } []).fwFault .fault

/-- A stack's channels are trained, failing lanes replaced by the spares; a channel that needs more than two fails (R265). -/
def State.trainStacks (s : State) (lanes : List (Nat × Nat × List Nat)) : State :=
  lanes.foldl (fun s l =>
    let (t, ch, bad) := l
    let bad := bad.eraseDups
    if !s.stackFitted t ∨ bad.isEmpty then s
    else if 2 < bad.length ∨ bad.any fun b => decide (18 ≤ b) then
      let s := s.modStack t fun st => { st with mode := .failed, failChan := ch, failCause := 1 }
      (s.setFld (Pg.stk t + Off.blkStat) 0 2 3).bootFail 0x0020 t ch
    else s.modStack t fun st =>
      { st with spares := st.spares.put ch { count := bad.length, a := bad.getD 0 63, b := bad.getD 1 63 } }) s

/-- Every fitted stack in a state. -/
def State.allStacks (s : State) (m : TierMode) : State := s.fitted.foldl (fun s t => s.modStack t fun st => { st with mode := m }) s

/-- READY: DLK1–DLK3 enabled, the boot time set, `WCOUNT` cleared (R476). -/
def State.bootReady (s : State) : State :=
  let s := [1, 2, 3].foldl (fun s i => (s.setFld (Pg.port i + 0x100) 0 1 1).portTrain i) s
  s.modBoot fun b => { b with phase := .ready, bootUs := s.clk / usTicks, wcount := 0 }

/-- One Mace pass on every slice: those that fail are retired (R456). -/
def State.bootScreen (s : State) (bad : Nat) : State :=
  (List.range 16).foldl (fun s k =>
    if nbits bad k 1 = 1 then s.retireSlice k
    else { s with screens := s.screens.put k { s.screens.get {} k with lastPass := s.ct, version := s.mace.version } }) s

/-- BOOT_STEP_DONE: the boot step under way completes and the next begins (R265, R306, R476). -/
def State.bootStep (s : State) (r : BootReport) : State :=
  let go (s : State) (p : BootPhase) : State := s.modBoot fun b => { b with phase := p }
  match s.boot.phase with
  | .cores =>
    let s := (go s .powered).allStacks .training
    if s.ident.bulk then s.modBulk fun b => { b with mode := .training } else s
  | .powered =>
    let s := s.trainStacks r.lanes
    if s.boot.phase = .powered then go s .stkTrained else s
  | .stkTrained =>
    let w0 : Window := { en := true, gran := 0, hash := true, cbase := 0, b := 0, z := s.stackUnits - s.fwFrames }
    let s := { s with wfOn := true, windows := s.windows.put 0 w0 }.setReg (keyAt (Pg.stkCommon + 0x108) 0) (pack [(w0.b, 0), (w0.z, 32)])
    -- every row of the tier is written with zero data and its check bytes
    let s := { (s.clrMem .stack 0 (2 ^ 60)).clrMem .stackChk 0 (2 ^ 60) with stale := {} }
    go (s.allStacks .ready) .stkReady
  | .stkReady =>
    if s.ident.bulk then
      match r.bulkBad with
      | some c =>
        let s := s.modBulk fun b => { b with mode := .failed, failChan := c, failCause := 1 }
        (s.setFld (Pg.bulk + Off.blkStat) 0 2 3).bootFail 0x0023 0 c
      | none => go s .bulkTrained
    else go (s.bootScreen r.slices) .maceDone
  | .bulkTrained => go (s.bootScreen r.slices) .maceDone
  | .maceDone =>
    if s.ident.bulk then
      go (((s.clrMem .bulk 0 (2 ^ 60)).clrMem .bulkChk 0 (2 ^ 60)).modBulk fun b => { b with mode := .ready }) .bulkZeroed
    else s.bootReady
  | .bulkZeroed => s.bootReady
  | _ => s

/-- BOOT_STEP_TIMEOUT: a step exceeds its limit, 100 ms for the stacks and 150 ms for the bulk tier where the spec gives one; the boot
stops in firmware FAULT (R476). -/
def State.bootTimeout (s : State) : State :=
  match s.boot.phase with
  | .powered => (s.waitClk (100000 * usTicks)).bootFail 0x0022 0 0
  | .stkReady => if s.ident.bulk then (s.waitClk (150000 * usTicks)).bootFail 0x0023 0 0 else s.bootFail 0x0050 0 0
  | .cores | .stkTrained | .bulkTrained | .maceDone | .bulkZeroed => s.bootFail 0x0005 0 0
  | _ => s

end Sys2Proof.Machine
end

