-- ==== Sys2Proof/Machine/View.lean ====
section
/-! DEFINITION. Which registers a domain sees and may write, where the registers of a selected object are kept, and the three copies
of the hardened ones (R10, R11, R360–R362, R426, R432, R434–R438). -/

namespace Sys2Proof.Machine

/-! ### Objects behind a select register -/

/-- The key of the register an address reaches: of the object its page's select register names, or the address itself. -/
def State.regKey (s : State) (addr : Nat) : Nat :=
  let o := addr % 0x1000
  match pageOf addr with
  | .vec k => if 0x130 ≤ o ∧ o < 0x178 then keyAt addr (s.fld (Pg.vec k + 0x128) 0 4) else addr
  | .qnt k =>
    if 0x110 ≤ o ∧ o < 0x140 then keyAt addr (s.fld (Pg.qnt k + 0x108) 0 5)
    else if o = 0x150 ∨ o = 0x168 then keyAt addr (s.fld (Pg.qnt k + 0x148) 0 4) else addr
  | .ws k => if o = 0x108 then keyAt addr (s.fld (Pg.ws k + 0x100) 0 4) else addr
  | .xe e => if o = 0x130 then keyAt addr (s.fld (Pg.xe e + 0x108) 0 6) else addr
  | .stkCommon => if o = 0x108 ∨ o = 0x110 then keyAt addr (s.fld (Pg.stkCommon + 0x100) 0 4) else addr
  | .bulk => if 0x160 ≤ o ∧ o < 0x190 then keyAt addr (s.fld (Pg.bulk + 0x158) 0 4) else addr
  | .sv => if o = 0x120 then keyAt addr (s.fld (Pg.sv + 0x118) 0 6) else addr
  | .fab => if 0x208 ≤ o ∧ o < 0x250 then keyAt addr (s.fld (Pg.fab + 0x200) 0 6) else addr
  | .ig =>
    if 0x188 ≤ o ∧ o < 0x1A8 then keyAt addr (s.fld (Pg.ig + 0x180) 0 6)
    else if 0x808 ≤ o ∧ o < 0x820 then keyAt addr (s.fld (Pg.ig + 0x800) 0 9) else addr
  | .sec => if o = 0x808 ∨ o = 0x810 then keyAt addr (s.fld (Pg.sec + 0x800) 0 6) else addr
  | _ => addr

/-- Registers whose writes are staged (R438). -/
def stagedReg (addr : Nat) : Bool :=
  let o := addr % 0x1000
  match pageOf addr with
  | .vec _ => decide (0x138 ≤ o) && decide (o < 0x178)
  | .qnt _ => decide (0x118 ≤ o) && decide (o < 0x140)
  | .cad => decide (0x200 ≤ o) && decide (o < 0x300) && o % 0x40 == 0x08
  | .stkCommon => o == 0x108
  | .fab => decide (0x210 ≤ o) && decide (o < 0x250)
  | .sec => o == 0x808
  | _ => false

/-- Registers held in three copies (R11, Hardened registers). -/
def hardened (addr : Nat) : Bool :=
  let o := addr % 0x1000
  match pageOf addr with
  | .cad => o == 0x108
  | .slotWin p => let o := addr - Pg.slot p; o == 0x000 || o == 0x028 || o == 0x030 || o == 0x038
  | .stkCommon => o == 0x118 || o == 0x120
  | .bulk => o == 0x128 || o == 0x130 || o == 0x160
  | .sv => o == 0x120 || (decide (0x180 ≤ o) && decide (o < 0x1C0)) || (decide (0x800 ≤ o) && decide (o % 0x80 ≤ 0x10))
  | .xe e => decide (32 ≤ e) && o == 0x130
  | .pt _ => o == 0x110 || o == 0x118
  | .dm _ => o == 0x100
  | .lnk _ => o == 0x100
  | .fab => o == 0x100
  | .port _ => o == 0x100
  | .dq _ => o == 0x138
  | .ig => o == 0x108 || (decide (0x188 ≤ o) && decide (o < 0x1A8))
      || (decide (0x400 ≤ o) && decide (o < 0x800) && decide (o % 0x40 ≤ 0x08))
  | .pwr => o == 0x100 || o == 0x108 || o == 0x110
  | _ => false

/-! ### Votes (R434–R436) -/

/-- Page whose `HARDEN_STAT` a register's vote is kept in; the slot windows are the cadence unit's (DEDUCED, log entry 43). -/
def hardenPage (addr : Nat) : Nat :=
  match pageOf addr with
  | .slotWin _ => Pg.cad
  | _ => addr / 0x1000 * 0x1000

/-- `HARDEN_STAT` after a vote: `FIXED` raised for a rewrite, `REG` and `LAST_CT` set. -/
def State.hardenNote (s : State) (addr : Nat) (failed : Bool) : State :=
  let k := hardenPage addr + Off.harden
  let old := s.reg k
  s.setReg k (pack [(if failed then bits old 0 16 else sat 0xFFFF (bits old 0 16 + 1), 0), (addr % 0x1000 / 8, 16)
    , (b2n (failed || bit old 25), 25), (s.ct / 4096 % 2 ^ 32, 32)])

/-- The copies of one register compared: one that differs is rewritten; when all differ the block fails and the module goes to
firmware FAULT, once for each page (R434, R436). Both write a HARDEN record (Table Record types). -/
def State.hardenVote (s : State) (key : Nat) : State :=
  let addr := key % 2 ^ 32
  let h := s.hreg key
  if h.a = h.b ∧ h.b = h.c then s
  else if h.a = h.b ∨ h.a = h.c ∨ h.b = h.c then
    let bt := blockType (pageOf (hardenPage addr))
    (((s.setReg key (vote h)).hardenNote addr false).bump (Pg.ig + 0x138) 1).logErr
      { type := 0x0043, cls := bt.1, inst := bt.2, sev := 1, addr := addr } []
  else if s.boot.phase = .fwFault ∧ bit (s.reg (hardenPage addr + Off.harden)) 25 then s
  else
    let page := hardenPage addr
    let bt := blockType (pageOf page)
    let s := s.hardenNote addr true
    let s := s.setReg (page + Off.blkStat) (pack [(3, 0), (1, 2), (statusCode .fault, 8)])
    (s.logErr { type := 0x0043, cls := bt.1, inst := bt.2, sev := 4, status := statusCode .fault, addr := addr } []).fwFault .fault

/-- A copy of a register upset: the bits of a mask change. -/
def State.upset (s : State) (key copy : Nat) (mask : Word) : State :=
  let h := s.hreg key
  let new : HReg := match copy with
    | 0 => { h with a := h.a ^^^ mask }
    | 1 => { h with b := h.b ^^^ mask }
    | _ => { h with c := h.c ^^^ mask }
  { s with regs := s.regs.put key new }

/-- HARDEN_SCRUB: every hardened register is voted, once in each µs, after the upsets its copies met since the last scrub (key, copy,
bits changed) (R434). -/
def State.hardenScrub (s : State) (upsets : List (Nat × Nat × Word)) : State :=
  let s := s.periodic 7 usTicks
  let s := (upsets.filter fun u => hardened (u.1 % 2 ^ 32)).foldl (fun s u => s.upset u.1 u.2.1 u.2.2) s
  (s.regs.keysWhere fun k _ => hardened (k % 2 ^ 32)).foldl State.hardenVote s

/-! ### Views (R361) -/

/-- A domain owns a partition; the steward sees every one. -/
def State.mine (s : State) (d p : Nat) : Bool := d == 0 || s.ownerOf p == d

/-- A domain sees a slice's pages: it owns the partition that holds the slice. -/
def State.seesSlice (s : State) (d k : Nat) : Bool :=
  d == 0 || (match s.partOfSlice k with | some p => s.ownerOf p == d | none => false)

/-- The partition a global engine's selected slot is owned by is the domain's. -/
def State.seesSlot (s : State) (d e : Nat) : Bool :=
  match s.xSelected e with
  | some q => (match s.xPart e q with | some p => s.mine d p | none => d == 0)
  | none => d == 0

/-- The register lies in the view of a domain other than the steward (R361, and each page's own words). -/
def State.inView (s : State) (d addr : Nat) : Bool :=
  let o := addr % 0x1000
  match pageOf addr with
  | .gid | .unmapped => true
  | .cad => decide (0x200 + 0x40 * d ≤ o) && decide (o < 0x238 + 0x40 * d)
  | .slotWin p | .pt p => s.mine d p
  | .port i => s.portDomain i == some d && (o == 0x000 || o == 0x008 || o == 0x108)
  | .dq n | .mb n | .dm n => n == d
  | .anise | .stkCommon => false
  | .arr k _ | .vec k | .att k | .qnt k | .ws k | .seq k => s.seesSlice d k
  | .xe e =>
    if e < 32 then s.seesSlice d (e / 2)
    else o == 0x108 || (decide (0x110 ≤ o) && decide (o < 0x138) && s.seesSlot d e)
  | .stk _ => o == 0x000 || o == 0x008 || o == 0x100
  | .row => decide (o < 0x100) || (decide (0x200 + 0x80 * d ≤ o) && decide (o < 0x280 + 0x80 * d))
  | .bulk => o == 0x000 || o == 0x008 || o == 0x100 || (decide (0x800 + 0x80 * d ≤ o) && decide (o < 0x810 + 0x80 * d))
  | .sv =>
    if o = 0x110 then (match s.partOfReq (s.fld (Pg.sv + 0x108) 0 14) with | some p => s.mine d p | none => false)
    else if 0x800 ≤ o then s.mine d ((o - 0x800) / 0x80)
    else if 0x600 ≤ o then s.seesSlice d ((o - 0x600) / 0x20)
    else if 0x200 ≤ o then s.mine d ((o - 0x200) / 0x40 % 16)
    else [0x000, 0x008, 0x100, 0x108, 0x118, 0x120, 0x1E0].contains o || (decide (0x180 ≤ o) && decide (o < 0x1C0))
  | .lnk _ => o == 0x000 || o == 0x008 || o == 0x108
  | .fab =>
    if 0x800 ≤ o then s.mine d ((o - 0x800) / 0x80)
    else if 0x208 ≤ o ∧ o < 0x260 then
      let g := s.fld (Pg.fab + 0x200) 0 6
      s.mine d (s.fld (keyAt (Pg.fab + 0x208) g) 0 4)
    else [0x000, 0x008, 0x108, 0x110, 0x200].contains o
  | .ig =>
    if 0x808 ≤ o ∧ o < 0x820 then s.seesSlice d (s.fld (Pg.ig + 0x800) 0 4)
    else if 0x400 ≤ o ∧ o < 0x800 then s.mine d ((o - 0x400) / 0x40)
    else o == 0x000 || o == 0x008 || o == 0x800
  | .sec =>
    if o = 0x808 ∨ o = 0x810 then s.regionNames d (s.memRegion (s.fld (Pg.sec + 0x800) 0 6))
    else [0x100, 0x108, 0x110, 0x800].contains o
  | .pwr => o == 0x000 || o == 0x008 || o == 0x118

/-- A domain may reach a register: the steward sees every page in full (R360, R361). -/
def State.sees (s : State) (d addr : Nat) : Bool := d == 0 || s.inView d addr

/-- A domain's write reaches a register: one in its view, or a rank group that is not enabled, which it may take for a partition of its
own (R395; DEDUCED, log entry 44). -/
def State.reaches (s : State) (d addr : Nat) : Bool :=
  let o := addr % 0x1000
  s.sees d addr || (pageOf addr == .fab && decide (0x208 ≤ o) && decide (o < 0x250) && !(s.group (s.fld (Pg.fab + 0x200) 0 6)).en)

/-- Reads of a domain's set that its selection puts outside its partitions' ranges, for the steward's set too (R62, R71). -/
def State.setRefused (s : State) (addr : Nat) : Bool :=
  let o := addr % 0x1000
  pageOf addr == .cad && decide (0x200 ≤ o) && decide (o < 0x300)
    && ((o % 0x40 == 0x08 || o % 0x40 == 0x10) && (s.schedWord ((o - 0x200) / 0x40) false).isNone
      || o % 0x40 == 0x20 && (s.domCtr ((o - 0x200) / 0x40)).isNone)

/-- Registers, and pages, that only the steward writes (R360). -/
def stewardOnly (addr : Nat) : Bool :=
  let o := addr % 0x1000
  match pageOf addr with
  | .cad => o == 0x108
  | .slotWin p => let o := addr - Pg.slot p; o == 0x000 || o == 0x030 || o == 0x038
  | .port _ | .lnk _ | .fab => o == 0x100
  | .dq _ => o == 0x138
  | .sv => o == 0x120 || (decide (0x180 ≤ o) && decide (o < 0x1C0)) || (decide (0x800 ≤ o) && decide (o % 0x80 ≤ 0x10))
  | .ig => o == 0x108 || o == 0x150 || o == 0x158 || (decide (0x180 ≤ o) && decide (o < 0x1A8))
      || (decide (0x400 ≤ o) && decide (o < 0x800) && o % 0x40 == 0x08)
  | .sec => o == 0x808 || o == 0x810
  | .pt _ => o == 0x110 || o == 0x118 || o == Off.owner
  | .dm _ => o == 0x100 || o == 0x110
  | .pwr => o == 0x100 || o == 0x108 || o == 0x110
  | _ => false

/-- Events defined on a page: their number (the events rule of each chapter). -/
def eventBits : PageKind → Nat
  | .cad => 5 | .port _ => 4 | .dq _ => 4 | .mb _ => 2 | .arr _ _ => 4 | .vec _ => 5 | .att _ => 6 | .qnt _ => 7 | .xe _ => 4
  | .seq _ => 8 | .stk _ => 9 | .row => 4 | .bulk => 8 | .sv => 8 | .lnk _ => 5 | .fab => 6 | .ig => 13 | .sec => 2 | .pt _ => 3
  | .dm _ => 1 | .pwr => 6
  | .gid | .slotWin _ | .anise | .ws _ | .stkCommon | .unmapped => 0

/-- Who may write a page's `EVT_MASK`: the owner of a slice, partition or domain page, and the steward (R432). -/
def State.maskWriter (s : State) (d : Nat) (k : PageKind) : Bool :=
  d == 0 || (match k with
    | .dm n => n == d
    | .pt p => s.ownerOf p == d
    | .arr k _ | .vec k | .att k | .qnt k | .ws k | .seq k => s.seesSlice d k
    | .xe e => decide (e < 32) && s.seesSlice d (e / 2)
    | _ => false)

end Sys2Proof.Machine
end

