-- ==== Sys2Proof/Machine/RegRead.lean ====
section
/-! DEFINITION. What every register reads: capability and identity registers, the common layout, and the registers the module derives
from its state (R428–R440, and the register tables of each chapter). A register given no case here reads what is stored for it. -/

namespace Sys2Proof.Machine

/-! ### Capabilities (`BLK_CAP`, R23) -/

/-- `BLK_CAP` of a page; blocks whose chapter gives it no bits read zero (DEDUCED, log entry 45). -/
def State.blkCap (s : State) : PageKind → Word
  | .cad => pack [(32768, 0), (16384, 16), (16, 32)]
  | .port _ => pack [(4, 0), (106, 3), (2048, 13), (1, 25)]
  | .arr _ _ => pack [(32, 0), (1, 8), (1, 9), (1, 10), (8, 12), (512, 16)]
  | .vec _ => pack [(256, 0), (32, 12), (2048, 18), (16, 30), (8, 35), (64, 39)]
  | .att _ => pack [(2048, 0), (512, 16), (8, 26), (8, 30), (131072, 34), (64, 52), (8, 59), (1, 63)]
  | .qnt _ => pack [(32, 0), (16, 6), (16, 11), (12, 16), (5, 20), (1, 24), (1, 25), (1, 26)]
  | .xe e =>
    let kind := if e < 32 then e % 2 else if e < 34 then 2 else if e < 38 then 3 else 4
    pack [(xCount e, 0), (256, 8), (1, 17), (b2n (kind == 1), 18), (kind, 19)]
  | .ws _ => pack [(16, 0), (32, 8), (16, 16)]
  | .seq _ => pack [(16384, 0), (8, 16), (16, 24), (8, 32)]
  | .stk _ => pack [(128, 0), (32, 8), (8, 14), (20480, 18), (2, 34)]
  | .stkCommon => pack [(s.nStacks, 0), (s.nStacks * 128, 4), (16, 16), (4, 21)]
  | .row => pack [(0xFF, 0), (4, 8), (64, 12), (8, 20)]
  | .bulk => pack [(16, 0), (8, 5), (s.bulkUnits, 9), (1, 30), (1, 31)]
  | .sv => pack [(16384, 0), (16, 15), (4, 20), (0xF, 23), (262144, 27), (64, 46), (64, 53)]
  | .lnk _ => pack [(2, 0), (224, 2), (1, 12), (128, 13)]
  | .fab => pack [(s.ident.links, 0), (64, 7), (64, 14), (64, 21), (0xFF, 28)]
  | .ig => pack [(32, 0), (3, 6), (16, 8), (3, 13), (1, 15), (1, 16)]
  | .pwr => pack [(16, 0), (125, 5), (1500, 13), (900, 24)]
  | .gid | .slotWin _ | .dq _ | .anise | .mb _ | .sec | .pt _ | .dm _ | .unmapped => 0

/-! ### The common layout (R428–R433) -/

/-- The slice a page belongs to. -/
def pageSlice : PageKind → Option Nat
  | .arr k _ | .vec k | .att k | .qnt k | .ws k | .seq k => some k
  | .xe e => if e < 32 then some (e / 2) else none
  | _ => none

/-- The module's units have been powered and trained so far that the pages without a state of their own read READY (DEDUCED, log entry
46). -/
def State.broughtUp (s : State) : Bool :=
  match s.boot.phase with
  | .unpowered | .held | .rom | .cores | .romFault => false
  | _ => true

/-- `BLK_STAT`: a failed block as stored, a retired slice's pages RETIRED with FAULT, and else whether the unit is brought up (R430,
R456). -/
def State.blkStat (s : State) (page : Nat) : Word :=
  let w := s.reg (page + Off.blkStat)
  let k := pageOf page
  let retired := match pageSlice k with | some i => s.retired / 2 ^ i % 2 == 1 | none => false
  let up := match k with
    | .stk t => (s.stack t).mode == .ready
    | .bulk => s.bulk.mode == .ready
    | .gid | .sec | .anise | .mb _ => s.boot.phase != .unpowered && s.boot.phase != .held && s.boot.phase != .rom
    | _ => s.broughtUp
  if bits w 0 2 = 3 then w
  else if retired then pack [(2, 0), (bits w 2 1, 2), (statusCode .fault, 8)]
  else pack [(b2n up, 0), (bits w 2 1, 2)]

/-- `OWNER` (R362): on a partition page the owner, on a slice page derived from the partition table, elsewhere D0 and not valid. -/
def State.ownerWord (s : State) (page : Nat) : Word :=
  match pageOf page with
  | .pt p => pack [(s.ownerOf p, 0), (p, 8), (1, 12)]
  | k => match (pageSlice k).bind s.partOfSlice with
    | some p => pack [(s.ownerOf p, 0), (p, 8), (1, 12)]
    | none => 0

/-- A register of the common layout, by offset. -/
def State.commonRead (s : State) (page o : Nat) : Word :=
  let k := pageOf page
  if o = Off.blkId then pack [(1, 32), ((blockType k).2, 40), ((blockType k).1, 48)]
  else if o = Off.blkCap then s.blkCap k
  else if o = Off.blkStat then s.blkStat page
  else if o = Off.owner then s.ownerWord page
  else if o = Off.evtStat ∨ o = Off.evtMask ∨ (Off.evtCnt ≤ o ∧ o < Off.owner) ∨ o = Off.harden then s.reg (page + o)
  else 0

/-! ### Identity, cadence and mailbox pages -/

/-- Global identity page (R440). -/
def State.gidRead (s : State) (o : Nat) : Word :=
  let i := s.ident
  if o = 0x100 then
    pack [(16, 0), (4, 5), (s.nStacks, 8), (128, 12), (if i.bulk then 16 else 0, 20), (i.links, 25), (4, 32), (4, 35), (16, 38)]
  else if o = 0x108 then pack [(s.units, 0), (s.stackUnits, 21), (s.bulkUnits, 42)]
  else if o = 0x110 then word (i.tolvys % 4096)
  else if o = 0x118 then word s.boot.slotId
  else if o = 0x120 then pack [(i.fwMajor % 65536, 0), (i.fwMinor % 65536, 16), (i.recVersion % 65536, 32)]
  else if o = 0x128 then
    pack [(s.gidState, 0), (s.boot.cause % 16, 4), (if s.gidState = 3 then statusCode s.boot.fault else 0, 8)
      , (s.boot.bootUs % 2 ^ 32, 32)]
  else 0

/-- Cadence page. -/
def State.cadRead (s : State) (o : Nat) : Word :=
  let d := (o - 0x200) / 0x40
  if o = 0x100 then word s.ct
  else if o = 0x110 then s.timeStat
  else if 0x200 ≤ o ∧ o < 0x300 then
    if o % 0x40 = 0x08 then (s.schedWord d false).getD 0
    else if o % 0x40 = 0x10 then (s.schedWord d true).getD 0
    else if o % 0x40 = 0x20 then (match s.domCtr d with | some i => word (s.ctr i) | none => 0)
    else s.reg (Pg.cad + o)
  else s.reg (Pg.cad + o)

/-- Cadence slot window. -/
def State.slotRead (s : State) (p o : Nat) : Word :=
  let sl := s.slot p
  if o = 0x028 then pack [(s.schedBase p, 0), (s.schedCount p, 16), (b2n sl.bank, 32), (b2n sl.swap, 33)]
  else if o = 0x048 then word (sl.planHead % 2 ^ 32)
  else if o = 0x050 then pack [(sl.step % 2 ^ 48, 0), (sl.latched, 48), (sl.stateCode, 52), (sl.haltCause, 56)]
  else if o = 0x058 then word ((sl.cur.map fun m => m.markCt).getD 0)
  else if o = 0x060 then pack [(s.slotPhase p % 65536, 0), (s.cursorShown p, 16)]
  else if o = 0x068 then pack [(sat 0xFFFFFFFF sl.lastDur, 0), (sat 0xFFFFFFFF sl.lastLate, 32)]
  else if o = 0x070 then pack [(sat 0xFFFFFFFF sl.maxOver, 0), (sat 0xFFFFFFFF (s.lateShown p), 32)]
  else s.reg (Pg.slot p + o)

/-- Anise common page. -/
def State.aniseRead (s : State) (o : Nat) : Word :=
  if o = 0x100 then pack [(s.boot.cores % 256, 0), (s.boot.haltedCores % 256, 8)]
  else if o = 0x108 then word s.boot.beat
  else 0

/-- Mailbox page. -/
def State.mbRead (s : State) (d o : Nat) : Word :=
  if o = 0x118 then 0
  else if o = 0x120 then s.mbStat d
  else if o = 0x128 then s.mbRes d
  else s.reg (Pg.mb d + o)

/-! ### Slice pages -/

/-- The first entry of a queue that has started and not completed. -/
def State.runningOp (s : State) (k q : Nat) : Option Nat :=
  ((s.queue k q).find? fun e => match e.phase with | .queued | .waiting => false | _ => true).map fun e => e.op % 32

/-- State, function and last failing status of a one-queue engine: `VEC_STAT`, `QNT_STAT` and `ATT_STAT` alike. -/
def State.engStat (s : State) (k q : Nat) : Word :=
  let f := s.engFail.get (0, 0) (16 * k + q)
  let run := s.runningOp k q
  pack [(if s.halted k q then 2 else if run.isSome then 1 else 0, 0), (run.getD f.1, 8), (f.2, 16)]

/-- The running operation of an array queue. -/
def State.arrRunning (s : State) (k a : Nat) : Option SInstr :=
  ((s.queue k a).find? fun e => match e.phase with | .queued | .waiting => false | _ => true).bind fun e => SInstr.decode e.op

/-- The group an array operation works on. -/
def State.opGroup (s : State) (k : Nat) (i : SInstr) : Nat :=
  match i.op with
  | .mma | .load | .drain => i.arg 1
  | .dattn => (match s.ea k (i.arg 0) with | some e => (DattnOp.ofBytes (s.eaRead e 64)).acc | none => 0)
  | _ => 0

/-- Array page. -/
def State.arrRead (s : State) (k a o : Nat) : Word :=
  if o = 0x100 then 0
  else if o = 0x108 then
    let i := s.arrRunning k a
    pack [(s.arrMode k a, 0), ((i.map fun i => i.op.code % 32).getD 0, 3), ((i.map (s.opGroup k)).getD 0 % 512, 8)
      , (s.openGroups k a, 24)]
  else if o = 0x110 then
    let f := s.arrState k a
    pack [(f.afmt, 0), (f.wfmt, 4), (f.sk, 8), (f.sreg, 10)]
  else s.reg (Pg.arr k a + o)

/-- Vector page. -/
def State.vecRead (s : State) (k o : Nat) : Word :=
  if o = 0x100 then s.engStat k 4
  else if o = 0x178 then s.blendCursors k
  else s.reg (s.regKey (Pg.vec k + o))

/-- Attention page. -/
def State.attPage (s : State) (k o : Nat) : Word :=
  if o = 0x100 then setBits (s.engStat k 5) 24 15 (s.attSeq.get 0 k)
  else if o = 0x188 then
    let c := s.reg (Pg.att k + 0x180)
    word (field (s.attCfg.get (zeros 128) (8 * k + bits c 0 3)) (8 * bits c 4 4) 8)
  else s.reg (Pg.att k + o)

/-- Quantisation page. -/
def State.qntRead (s : State) (k o : Nat) : Word :=
  let c := s.fld (Pg.qnt k + 0x108) 0 5
  let i := s.fld (Pg.qnt k + 0x148) 0 4
  let j := s.fld (Pg.qnt k + 0x148) 8 4
  let q := s.qslot k i
  if o = 0x100 then setBits (s.engStat k 6) 4 4 (s.trapPend k)
  else if o = 0x140 then pack ((List.range 4).map fun a => (s.profCur.get 0 ((32 * k + c) * 4 + a), 12 * a))
  else if o = 0x158 then pack [(q.hist.length, 0), (b2n q.folded, 5), (q.cur, 32)]
  else if o = 0x160 then word (q.hist.getD j 0)
  else if o = 0x170 then setBits (s.reg (trapKey k)) 0 4 (s.trapPend k)
  else s.reg (s.regKey (Pg.qnt k + o))

/-- Working-store page, with the accumulator status window. -/
def State.wsRead (s : State) (k o : Nat) : Word :=
  if o = 0x110 then
    let r := s.region k (s.fld (Pg.ws k + 0x100) 0 4)
    if r.en then pack [(r.filled - r.released, 0), (r.credits, 16), (r.released % 2 ^ 32, 32)] else 0
  else if o = 0x208 then
    let t := s.tileOf k (s.fld (Pg.ws k + 0x200) 0 9)
    pack [(sat 16383 t.chunks, 0), (b2n t.sat, 16), (b2n t.nan, 17), (b2n t.bound, 18), (b2n t.int, 19), (b2n t.attn, 20)
      , (b2n t.isOpen, 24), (t.owner, 25)]
  else s.reg (s.regKey (Pg.ws k + o))

/-- Sequencer page. -/
def State.seqRead (s : State) (k o : Nat) : Word :=
  let q := s.seq k
  if o = 0x108 then
    pack [(match q.mode with | .idle => 0 | .running => 1 | .waiting => 2 | .faulted => 3 | .aborting => 4 | .loading => 5, 0)
      , (q.starts.length, 8), (q.pc % 16384, 16), (q.fault, 40)]
  else if o = 0x110 then 0
  else if o = 0x120 then setBits (s.reg (pmCtrl k)) 63 1 (b2n q.load.isSome)
  else if o = 0x128 then
    match q.halts with
    | [] => 0
    | (n, st) :: _ => pack [(maskOf (q.halts.map fun h => h.1), 0), (n, 40), (statusCode st, 48)]
  else if 0x140 ≤ o ∧ o ≤ 0x180 then word (sat (2 ^ 64 - 1) ((s.reg (Pg.seq k + o)).toNat + s.stallNow k ((o - 0x140) / 8)))
  else if 0x200 ≤ o ∧ o < 0x280 then word (q.sum.get 0 ((o - 0x200) / 8))
  else if 0x280 ≤ o ∧ o < 0x2C0 then word (q.ix.get 0 ((o - 0x280) / 8))
  else s.reg (Pg.seq k + o)

/-- Transfer engine page; a slot at or beyond the slot count reads as absent (R5). -/
def State.xeRead (s : State) (e o : Nat) : Word :=
  if o = 0x100 then s.xeStat e
  else if o = 0x110 then 0
  else if 0x118 ≤ o ∧ o < 0x138 then
    match s.xSelected e with
    | none => 0
    | some q =>
      if o = 0x118 then s.xqStat e q
      else if o = 0x120 then s.xqPos e q
      else if o = 0x128 then (s.xslot e q).last
      else s.reg (xqCfg e q)
  else s.reg (Pg.xe e + o)

/-! ### Memory tiers -/

/-- Stack page. -/
def State.stkRead (s : State) (t o : Nat) : Word :=
  if o = 0x100 then s.stkStat t else if o = 0x110 then s.stkChStat t else s.reg (Pg.stk t + o)

/-- Row-operation page. -/
def State.rowRead (s : State) (o : Nat) : Word :=
  let d := (o - 0x200) / 0x80
  let q := (o - 0x200) % 0x80 / 0x20
  if o = 0x118 then word s.staleRows
  else if 0x200 ≤ o ∧ o < 0x400 then
    if o % 0x20 = 0x08 then setBits (s.reg (Pg.row + o)) 63 1 (b2n ((s.rowSlot d q).mode != .idle))
    else if o % 0x20 = 0x10 then s.rowqStat d q
    else s.reg (Pg.row + o)
  else s.reg (Pg.row + o)

/-- Stack-tier common page. -/
def State.stkCommonRead (s : State) (o : Nat) : Word :=
  if o = 0x110 then (s.windows.get {} (s.fld (Pg.stkCommon + 0x100) 0 4)).cfg else s.reg (s.regKey (Pg.stkCommon + o))

/-- Bulk-tier page. -/
def State.bulkRead (s : State) (o : Nat) : Word :=
  if o = 0x100 then s.blkTstat
  else if o = 0x168 then word (s.stackCount (s.fld (Pg.bulk + 0x158) 0 4))
  else if 0x800 ≤ o ∧ o < 0xA00 ∧ o % 0x80 = 0x08 then
    let u := s.fld (Pg.bulk + (o - 8)) 0 21
    if u < s.units then s.pldUnit u else 0
  else s.reg (s.regKey (Pg.bulk + o))

/-! ### Serving unit and sampler -/

/-- Serving-unit page, as domain `d` reads it. -/
def State.svRead (s : State) (d o : Nat) : Word :=
  let p := (o - 0x800) / 0x80
  if o = 0x100 then s.svStat d
  else if o = 0x110 then
    let sel := s.reg (Pg.sv + 0x108)
    let r := bits sel 0 14
    (match s.partOfReq r with
    | some p => word (field ((s.req r).bytes p) (8 * bits sel 16 4) 8)
    | none => 0)
  else if o = 0x1C0 then s.pepStat
  else if o = 0x1E0 then pack [(1024, 0), (8, 11), (2048, 15), (16, 27)]
  else if 0x200 ≤ o ∧ o < 0x600 then
    if o % 0x40 = 0x28 then word ((s.sv ((o - 0x200) / 0x40)).tprod % 2 ^ 32) else s.reg (Pg.sv + o)
  else if 0x600 ≤ o ∧ o < 0x800 then
    let k := (o - 0x600) / 0x20
    let a := o % 0x20 / 8
    setBits (s.reg (Pg.sv + o)) 32 24 (s.pepCursor k a)
  else if 0x800 ≤ o then
    if o % 0x80 = 0x40 then setBits (s.reg (Pg.sv + o)) 0 32 (unsigned 32 (s.sv p).corr)
    else if o % 0x80 = 0x68 then s.svPstat p
    else if o % 0x80 = 0x70 ∨ o % 0x80 = 0x78 then 0
    else s.reg (Pg.sv + o)
  else s.reg (s.regKey (Pg.sv + o))

/-! ### Fabric and ports -/

/-- Link page. -/
def State.lnkRead (s : State) (l o : Nat) : Word :=
  if o = 0x108 then s.lnkStat l else if o = 0x130 then s.lnkTxFlits l else if o = 0x140 then s.lnkCred l else s.reg (Pg.lnk l + o)

/-- Fabric common page. -/
def State.fabRead (s : State) (o : Nat) : Word :=
  let g := s.fld (Pg.fab + 0x200) 0 6
  if o = 0x108 then s.fabStat
  else if o = 0x110 then s.fabLive
  else if o = 0x118 then s.fabRoute
  else if o = 0x250 then word (s.group g).digest
  else if o = 0x258 then s.gstat g
  else if 0x800 ≤ o then
    let q := (o - 0x800) / 0x20
    if o % 0x20 = 0x08 then setBits (s.reg (Pg.fab + o)) 63 1 (b2n ((s.collQ q).mode != .idle))
    else if o % 0x20 = 0x10 then s.cqStat q
    else s.reg (Pg.fab + o)
  else s.reg (s.regKey (Pg.fab + o))

/-- Dorondlink port page. -/
def State.portRead (s : State) (i o : Nat) : Word :=
  if o = 0x108 then s.dlkStat i else if o = 0x128 then s.dlkCred i else s.reg (Pg.port i + o)

/-! ### Integrity, security, partitions, domains, power -/

/-- Integrity page. -/
def State.igRead (s : State) (o : Nat) : Word :=
  let p := (o - 0x400) / 0x40
  if o = 0x100 then pack [(min 16 s.repairs.length, 0), (s.retired % 65536, 16), (s.suspect % 65536, 32)]
  else if o = 0x158 then pack [(s.fld (Pg.ig + 0x158) 8 8, 8), (s.mace.version % 2 ^ 32, 16)]
  else if o = 0x160 then word (s.screens.get {} (s.fld (Pg.ig + 0x800) 0 4)).lastPass
  else if 0x400 ≤ o ∧ o < 0x800 then
    if o % 0x40 = 0x28 then pack [((s.part p).run, 0), ((s.ig p).withheld, 32)]
    else if o % 0x40 = 0x30 then word ((s.ig p).last.get 0 (s.fld (igBlk p 0x38) 0 5))
    else s.reg (Pg.ig + o)
  else s.reg (s.regKey (Pg.ig + o))

/-- Security page, as domain `d` reads it. -/
def State.secRead (s : State) (d o : Nat) : Word :=
  let i := s.ident
  if o = 0x100 then
    pack [(b2n i.slotB, 0), (b2n i.fallback, 1), (b2n i.pending, 2), (b2n i.keyOk, 3), (i.bootWcount, 4), (i.svn % 65536, 16)
      , (i.minSvn % 65536, 32)]
  else if o = 0x108 then pack [(i.lot % 2 ^ 32, 0), (i.wafer % 256, 32), (i.dieX % 256, 40), (i.dieY % 256, 48)]
  else if o = 0x110 then word i.serial
  else if o = 0x810 then s.regionView d (s.fld (Pg.sec + 0x800) 0 6)
  else s.reg (s.regKey (Pg.sec + o))

/-- Partition page. -/
def State.ptRead (s : State) (p o : Nat) : Word :=
  if o = 0x100 then 0
  else if o = 0x108 then s.ptStat p
  else if o = 0x120 then word (s.part p).scrub.length
  else s.reg (Pg.pt p + o)

/-- Domain page. -/
def State.dmRead (s : State) (n o : Nat) : Word := if o = 0x108 then s.dmStat n else s.reg (Pg.dm n + o)

/-- Power page. -/
def State.pwrRead (s : State) (o : Nat) : Word :=
  if o = 0x118 then s.pwrStat
  else if o = 0x120 then s.pwrInput
  else if o = 0x128 then s.pwrTemp
  else if o = 0x130 then s.pwrEnergy
  else s.reg (Pg.pwr + o)

/-! ### The map -/

/-- The value domain `d` reads at an address that it sees (R426). -/
def State.regValue (s : State) (d addr : Nat) : Word :=
  let o := addr % 0x1000
  let k := pageOf addr
  let common (r : Word) : Word := if o < 0x100 then s.commonRead (addr - o) o else r
  if !s.pageFitted k then 0
  else match k with
    | .slotWin p => s.slotRead p (addr - Pg.slot p)
    | .gid => common (s.gidRead o)
    | .cad => common (s.cadRead o)
    | .port i => common (s.portRead i o)
    | .dq n => common (s.reg (Pg.dq n + o))
    | .anise => common (s.aniseRead o)
    | .mb n => common (s.mbRead n o)
    | .arr i a => common (s.arrRead i a o)
    | .vec i => common (s.vecRead i o)
    | .att i => common (s.attPage i o)
    | .qnt i => common (s.qntRead i o)
    | .xe e => common (s.xeRead e o)
    | .ws i => common (s.wsRead i o)
    | .seq i => common (s.seqRead i o)
    | .stk t => common (s.stkRead t o)
    | .row => common (s.rowRead o)
    | .stkCommon => common (s.stkCommonRead o)
    | .bulk => common (s.bulkRead o)
    | .sv => common (s.svRead d o)
    | .lnk l => common (s.lnkRead l o)
    | .fab => common (s.fabRead o)
    | .ig => common (s.igRead o)
    | .sec => common (s.secRead d o)
    | .pt p => common (s.ptRead p o)
    | .dm n => common (s.dmRead n o)
    | .pwr => common (s.pwrRead o)
    | .unmapped => 0

end Sys2Proof.Machine
end

