-- ==== Sys2Proof/Machine/RegWrite.lean ====
section
/-! DEFINITION. What a write of every register does, after the checks of view and sender: stored, staged, committed, or acted on
(R11, R360–R367, R428–R438, and the register tables of each chapter). -/

namespace Sys2Proof.Machine

/-! ### Plain registers -/

/-- A register stored under a mask of its defined bits (R10). -/
def State.store (s : State) (key : Nat) (mask : Nat) (v : Word) : State := (s.setReg key (v &&& word mask)).ends .ok

/-- A word staged by a domain for a register of the selected object (R438). -/
def State.stageAt (s : State) (dom addr : Nat) (mask : Nat) (v : Word) : State :=
  (s.stage dom (s.regKey addr) (v &&& word mask)).ends .ok

/-- Bits of a W1C register cleared (R11). -/
def State.clearBits (s : State) (key : Nat) (v : Word) : State := (s.setReg key (s.reg key &&& ~~~v)).ends .ok

/-- A mask of `n` bits from `lo`. -/
def fmask (lo n : Nat) : Nat := (2 ^ n - 1) * 2 ^ lo

/-! ### The common layout (R429–R433, R362) -/

/-- EVT_COUNTER_CLEAR: the counters of the bits written 1 are zeroed (R431). -/
def State.countersClear (s : State) (page : Nat) (v : Word) : State :=
  ((maskList 64 v.toNat).foldl (fun s b => s.setFld (page + Off.evtCnt + 8 * (b / 4)) (16 * (b % 4)) 16 0) s).ends .ok

/-- A write of the common layout. -/
def State.commonWrite (s : State) (dom page o : Nat) (v : Word) : State :=
  let k := pageOf page
  if o = Off.evtStat then s.clearBits (page + o) v
  else if o = Off.evtMask then
    if s.maskWriter dom k then s.store (page + o) (2 ^ eventBits k - 1) v else s.ends .access
  else if o = Off.evtCntClr then s.countersClear page v
  else if o = Off.owner then (match k with | .pt p => s.ptOwnerWrite dom p v | _ => s.ends .access)
  else s.ends .ok

/-! ### Cadence and mailbox pages -/

/-- Cadence page. -/
def State.cadWrite (s : State) (dom o : Nat) (v : Word) : State :=
  let d := (o - 0x200) / 0x40
  if o = 0x108 then s.timeCtrlWrite v
  else if 0x200 ≤ o ∧ o < 0x300 then
    match o % 0x40 with
    | 0x00 => s.store (Pg.cad + o) 0x13FFF v
    | 0x08 => (s.stage dom (Pg.cad + o) v).ends .ok
    | 0x10 => s.schedCommit dom d v
    | 0x18 => s.store (Pg.cad + o) 0x7FFF v
    | 0x20 => s.counterSet d v
    | 0x28 => s.store (Pg.cad + o) (2 ^ 64 - 1) v
    | 0x30 => s.schedLoad d v
    | _ => s.ends .ok
  else s.ends .ok

/-- Cadence slot window. -/
def State.slotWrite (s : State) (dom p o : Nat) (v : Word) : State :=
  let k := Pg.slot p + o
  if o = 0x000 then s.slotEnable p v
  else if o = 0x008 then if bits v 0 32 < 4000 then s.ends .access else (s.setReg k v).ends .ok
  else if o = 0x010 then s.store k (fmask 0 35 + fmask 40 8) v
  else if o = 0x018 then (s.setReg k (pack [(bits v 0 15, 0), (max 1 (bits v 32 16), 32)])).ends .ok
  else if o = 0x020 then (s.setReg k v).ends .ok
  else if o = 0x028 then s.psSchedWrite dom p v
  else if o = 0x030 then
    let new := v &&& word (fmask 0 15 + fmask 16 32)
    if new ≠ s.reg k ∧ !s.unset p then s.ends .access else (s.setReg k new).ends .ok
  else if o = 0x038 then (s.setReg k v).ends .ok
  else if o = 0x040 then
    if bits v 56 8 ≠ 0 ∨ bits v 52 4 < 4 ∨ 12 < bits v 52 4 ∨ !aligned (bits v 0 52) 32 then s.ends .access
    else (s.setReg k v).ends .ok
  else if o = 0x070 then ((s.passNops p (s.schedCount p + 1)).modSlot p fun sl => { sl with maxOver := bits v 0 32, maxLate := bits v 32 32 }).ends .ok
  else if o = 0x078 then s.clearBits k v
  else s.ends .ok

/-- Mailbox page: none of its registers may be written while the mailbox is BUSY (R441). -/
def State.mbPageWrite (s : State) (n o : Nat) (v : Word) : State :=
  if 0x100 ≤ o ∧ o < 0x130 ∧ (s.mbox n).mode = .busy then s.ends .access
  else if o = 0x100 ∨ o = 0x108 ∨ o = 0x110 then s.mbWrite n (Pg.mb n + o) v
  else if o = 0x118 then s.mbGo n v
  else s.ends .ok

/-! ### Slice pages -/

/-- Vector page. -/
def State.vecWrite (s : State) (dom k o : Nat) (v : Word) : State :=
  if o = 0x128 then s.store (Pg.vec k + o) 0xF v
  else if o = 0x130 then s.blendWrite dom k v
  else if 0x138 ≤ o ∧ o < 0x178 then s.stageAt dom (Pg.vec k + o) (2 ^ 64 - 1) v
  else s.ends .ok

/-- Attention page. -/
def State.attWrite (s : State) (k o : Nat) (v : Word) : State :=
  if 0x140 ≤ o ∧ o < 0x180 then s.patWrite (Pg.att k + o) v
  else if o = 0x180 then s.store (Pg.att k + o) 0xF7 v
  else s.ends .ok

/-- Quantisation page. -/
def State.qntWrite (s : State) (dom k o : Nat) (v : Word) : State :=
  if o = 0x108 then s.store (Pg.qnt k + o) 0x1F v
  else if o = 0x110 then s.profWrite dom k v
  else if 0x118 ≤ o ∧ o < 0x140 then s.stageAt dom (Pg.qnt k + o) (2 ^ 64 - 1) v
  else if o = 0x148 then s.store (Pg.qnt k + o) 0xF0F v
  else if o = 0x150 then s.slotCfgWr k v
  else if o = 0x160 then s.slotHistWr k v
  else if o = 0x168 then s.slotOutWr k v
  else if o = 0x170 then s.trapWrite k v
  else if o = 0x178 then s.store (Pg.qnt k + o) 0xFFFF v
  else s.ends .ok

/-- Working-store page. -/
def State.wsWrite (s : State) (k o : Nat) (v : Word) : State :=
  if o = 0x100 then s.store (Pg.ws k + o) 0xF v
  else if o = 0x108 then s.sbCfgWrite k v
  else if o = 0x200 then s.store (Pg.ws k + o) 0x1FF v
  else s.ends .ok

/-- Sequencer page. -/
def State.seqWrite (s : State) (k o : Nat) (v : Word) : State :=
  if o = 0x100 then s.seqCtrlWrite k v
  else if o = 0x110 then s.seqStartWrite k v
  else if o = 0x118 then s.pmAddrWrite k v
  else if o = 0x120 then s.pmCtrlWrite k v
  else s.ends .ok

/-- A change of a global slot's owner touches only partitions that are FREE or CONFIG (R364). -/
def State.ownerChangeOk (s : State) (dom e : Nat) (v : Word) : Bool :=
  match s.xSelected e with
  | some q =>
    let old := bits (s.reg (xqCfg e q)) 32 5
    let new := if dom = 0 then bits v 32 5 else old
    e < 32 || old == new || ((old < 16 || s.unset (old % 16)) && (new < 16 || s.unset (new % 16)))
  | none => true

/-- Transfer engine page. -/
def State.xeWrite (s : State) (dom e o : Nat) (v : Word) : State :=
  if o = 0x108 then s.store (Pg.xe e + o) 0x3F v
  else if o = 0x110 then s.xeArmWrite e v
  else if o = 0x130 then if s.ownerChangeOk dom e v then s.xqCfgWrite dom e v else s.ends .access
  else s.ends .ok

/-! ### Memory tiers -/

/-- Row-operation page: while a slot is busy every write to it but an abort is ACCESS. -/
def State.rowWrite (s : State) (o : Nat) (v : Word) : State :=
  let d := (o - 0x200) / 0x80
  let q := (o - 0x200) % 0x80 / 0x20
  let busy := (s.rowSlot d q).mode != .idle
  if 0x200 ≤ o ∧ o < 0x400 then
    if o % 0x20 = 0x08 then
      if bit v 63 then s.rowGo d q v
      else if bit v 61 then s.rowAbort d q
      else if busy then s.ends .access
      else s.store (Pg.row + o) 0x7FFF1FFFFFFF v
    else if o % 0x20 = 0x00 then
      if busy || !aligned (bits v 0 52) 32 then s.ends .access else s.store (Pg.row + o) (2 ^ 52 - 1) v
    else s.ends .ok
  else s.ends .ok

/-- Stack-tier common page. -/
def State.stkCommonWrite (s : State) (dom o : Nat) (v : Word) : State :=
  if o = 0x100 then s.store (Pg.stkCommon + o) 0xF v
  else if o = 0x108 then s.stageAt dom (Pg.stkCommon + o) (fmask 0 19 + fmask 32 19) v
  else if o = 0x110 then s.sprCfgWrite v
  else if o = 0x118 then
    if bits v 0 3 < 2 ∨ 4 < bits v 0 3 then s.ends .access else s.store (Pg.stkCommon + o) 0x1F07 v
  else if o = 0x120 then s.thermWrite v
  else s.ends .ok

/-- `PL_HUSK` of the selected partition: every unit of the store pinned to BULK, inside the unified range (R298, R301). -/
def State.huskWrite (s : State) (v : Word) : State :=
  let base := unitBytes * bits v 0 32
  let n := bits v 40 24 * (65536 * (bits v 32 4 + 1))
  if n ≠ 0 ∧ !s.pinnedBulk base n then s.ends .access
  else if s.devEnd < base + n then s.ends .length
  else s.store (s.regKey (Pg.bulk + 0x178)) (fmask 0 36 + fmask 40 24) v

/-- Bulk-tier page. -/
def State.bulkWrite (s : State) (dom o : Nat) (v : Word) : State :=
  let k := s.regKey (Pg.bulk + o)
  if o = 0x128 then s.store k 0x1F v
  else if o = 0x130 then s.store k (fmask 0 26 + fmask 32 17) v
  else if o = 0x158 then s.store k 0xF v
  else if o = 0x160 then s.boundWrite v
  else if o = 0x170 then s.store k (1 + fmask 16 32) v
  else if o = 0x178 then s.huskWrite v
  else if 0x800 ≤ o ∧ o < 0xA00 then
    if o % 0x80 = 0x00 then s.store k (2 ^ 21 - 1) v
    else if o % 0x80 = 0x08 then s.pinWrite dom ((o - 0x800) / 0x80) v
    else s.ends .ok
  else s.ends .ok

/-! ### Serving unit and sampler -/

/-- `SV_MCFG` of the selected model: `VALID` stays while an entry of the model is not FREE. -/
def State.mcfgWrite (s : State) (v : Word) : State :=
  let m := s.fld (Pg.sv + 0x118) 0 6
  let used := s.reqs.items.any fun e => e.2.mode != .free && e.2.model == m
  if bit (s.mcfg m) 4 && !bit v 4 && used then s.ends .access
  else s.store (keyAt (Pg.sv + 0x120) m) (fmask 0 6 + fmask 16 16) v

/-- Bytes of a partition's batch area, from `SV_PLIM` (R316). -/
def State.batchBytes (s : State) (p : Nat) : Nat :=
  let lim := s.reg (Pg.sv + 0x818 + 0x80 * p)
  64 + 64 * (bits lim 0 15 + 256) + 8 * bits lim 16 16 + 4096 + 32 * 64

/-- Bytes of a partition's prefix area that the spec sizes: its token store (R333; DESIGN CHOICE, log entry 47). -/
def State.prefixBytes (s : State) (p : Nat) (pfx : Word) : Nat :=
  4 * (16 * 2 ^ s.fld (Pg.sv + 0x800 + 0x80 * p) 0 2) * bits pfx 0 24

/-- A pool of a partition, checked against its regions, and for the bulk pool against its pins (R298). -/
def State.poolWrite (s : State) (p o : Nat) (v : Word) : State :=
  let base := unitBytes * bits v 0 31
  let n := bits v 32 32 * (s.fld (Pg.sv + 0x800 + 0x80 * p) 8 16 * 2048)
  let same := v &&& word (fmask 0 31 + fmask 32 32) == s.reg (Pg.sv + 0x800 + 0x80 * p + o)
  if !(same || s.unset p) || !s.allFree p || (o == 0x10 && n != 0 && !s.pinnedBulk base n) then s.ends .access
  else if s.exclusive p base n ≠ .ok then s.ends (s.exclusive p base n)
  else s.store (Pg.sv + 0x800 + 0x80 * p + o) (fmask 0 31 + fmask 32 32) v

/-- A partition block of the serving unit. -/
def State.svBlockWrite (s : State) (p o : Nat) (v : Word) : State :=
  let b := Pg.sv + 0x800 + 0x80 * p
  let k := b + o
  match o with
  | 0x00 =>
    let same := v &&& word (fmask 0 2 + fmask 8 45) == s.reg k
    if !(same || s.unset p) || !s.allFree p || decide (16384 < bits v 38 15) then s.ends .access
    else s.store k (fmask 0 2 + fmask 8 45) v
  | 0x08 => s.poolWrite p o v
  | 0x10 => s.poolWrite p o v
  | 0x18 =>
    if bits v 0 15 = 0 ∨ 16384 < bits v 0 15 ∨ bits v 16 16 = 0 then s.ends .access
    else s.store k (fmask 0 15 + fmask 16 32) v
  | 0x20 => s.store k (fmask 0 56) v
  | 0x28 => (s.setReg k v).ends .ok
  | 0x30 => (s.setReg k v).ends .ok
  | 0x38 =>
    let lo := signed 32 (bits v 0 32)
    let hi := signed 32 (bits v 32 32)
    if hi < lo then s.ends .access
    else
      let force := (s.sv p).oldStmb.getD (s.reg k)
      let inside := decide (lo ≤ (s.sv p).corr) && decide ((s.sv p).corr ≤ hi)
      ((s.setReg k v).modSv p fun w => { w with oldStmb := if inside then none else some force }).ends .ok
  | 0x40 => s.store k (2 ^ 32) v
  | 0x48 =>
    if !s.allFree p || !aligned (bits v 0 24) 64 then s.ends .access
    else if 2 ^ 24 < bits v 0 24 + s.batchBytes p then s.ends .length
    else s.store k (fmask 0 24 + fmask 32 16) v
  | 0x50 => s.store k 0x7FFF7FFF v
  | 0x58 =>
    if !s.allFree p || decide (4096 < bits v 32 13) then s.ends .access
    else if s.exclusive p (s.fld (b + 0x60) 0 52) (s.prefixBytes p v) ≠ .ok then
      s.ends (s.exclusive p (s.fld (b + 0x60) 0 52) (s.prefixBytes p v))
    else s.store k (fmask 0 24 + fmask 32 13 + 2 ^ 48) v
  | 0x60 =>
    if !s.allFree p || !aligned (bits v 0 52) unitBytes then s.ends .access
    else if s.exclusive p (bits v 0 52) (s.prefixBytes p (s.reg (b + 0x58))) ≠ .ok then
      s.ends (s.exclusive p (bits v 0 52) (s.prefixBytes p (s.reg (b + 0x58))))
    else s.store k (2 ^ 52 - 1) v
  | 0x70 => (s.setReg k v).ends .ok
  | 0x78 => (s.setReg k v).ends .ok
  | _ => s.ends .ok

/-- A partition block of the sampler (ch. 14, Registers). -/
def State.pepWrite (s : State) (p o : Nat) (v : Word) : State :=
  let k := Pg.sv + 0x200 + 0x40 * p + o
  let bl := s.fld (Pg.sv + 0x818 + 0x80 * p) 0 15
  match o with
  | 0x00 => if 262144 < bits v 0 19 then s.ends .access else s.store k (fmask 0 19 + fmask 20 15) v
  | 0x08 =>
    (match s.eaPart p (bits v 0 32) with
    | none => s.ends .access
    | some e =>
      if !aligned (bits v 0 32) 64 then s.ends .access
      else if !e.fits (16 * (bl + 256)) then s.ends .length
      else s.store k (2 ^ 32 - 1) v)
  | 0x10 =>
    if !aligned (bits v 0 52) 64 then s.ends .access
    else if bit v 63 && s.exclusive p (bits v 0 52) (64 * s.tcount p) != .ok then
      s.ends (s.exclusive p (bits v 0 52) (64 * s.tcount p))
    else s.store k (fmask 0 52 + 2 ^ 63) v
  | 0x18 =>
    if !aligned (bits v 0 52) 32 || (bit v 63 && (decide (bits v 52 5 < 4) || decide (20 < bits v 52 5))) then s.ends .access
    else s.store k (fmask 0 57 + 2 ^ 63) v
  | 0x20 => s.store k (2 ^ 32 - 1) v
  | 0x30 => s.clearBits k v
  | _ => s.ends .ok

/-- Serving-unit page. -/
def State.svWrite (s : State) (o : Nat) (v : Word) : State :=
  let k := Pg.sv + o
  if o = 0x108 then s.store k 0xF3FFF v
  else if o = 0x118 then s.store k 0x3F v
  else if o = 0x120 then s.mcfgWrite v
  else if 0x180 ≤ o ∧ o < 0x1C0 then (s.setReg k v).ends .ok
  else if 0x200 ≤ o ∧ o < 0x600 then s.pepWrite ((o - 0x200) / 0x40) (o % 0x40) v
  else if 0x600 ≤ o ∧ o < 0x800 then
    if (bit v 31 && bits v 16 14 == 0) || decide (8192 < bits v 16 14) then s.ends .access
    else s.store k (fmask 0 13 + fmask 16 14 + 2 ^ 31) v
  else if 0x800 ≤ o then s.svBlockWrite ((o - 0x800) / 0x80) (o % 0x80) v
  else s.ends .ok

/-! ### Fabric and ports -/

/-- Fabric common page. -/
def State.fabWrite (s : State) (dom o : Nat) (v : Word) : State :=
  let k := Pg.fab + o
  if o = 0x100 then s.fabCfgWrite v
  else if o = 0x200 then s.store k 0x3F v
  else if o = 0x208 then s.groupWrite dom v
  else if 0x210 ≤ o ∧ o < 0x250 then s.stageAt dom k (2 ^ 64 - 1) v
  else if 0x800 ≤ o then
    let q := (o - 0x800) / 0x20
    if o % 0x20 = 0x00 then s.store k (2 ^ 52 - 1) v
    else if o % 0x20 = 0x08 then
      if bit v 63 then s.cqArm q v else if bit v 61 then s.cqReset q else s.store k 0xFFFF v
    else s.ends .ok
  else s.ends .ok

/-- Dorondlink domain page: every register but `DQ_RELAY` is written by its domain (ch. 17, Registers). -/
def State.dqWrite (s : State) (dom n o : Nat) (v : Word) : State :=
  if o = 0x138 then s.store (Pg.dq n + o) 0x13F v
  else if o = 0x100 then if dom = n then s.sqBaseWrite n v else s.ends .access
  else if o = 0x108 then if dom = n then s.sqCtrlWrite n v else s.ends .access
  else if o = 0x118 then if dom = n then s.eqWrite n false v else s.ends .access
  else if o = 0x120 then if dom = n then s.eqWrite n true v else s.ends .access
  else if o = 0x128 then if dom = n then s.store (Pg.dq n + o) (2 ^ 32 - 1) v else s.ends .access
  else s.ends .ok

/-! ### Integrity, security, partitions, domains, power -/

/-- The domain that owns a slice's pages; a slice of no partition is the steward's. -/
def State.sliceOwner (s : State) (k : Nat) : Nat := match s.partOfSlice k with | some p => s.ownerOf p | none => 0

/-- A write of a check entry of the selected slice: word `j` is replaced where the entry it leaves is sound; an open set is then closed at
the next drain (ch. 19, Registers). -/
def State.checkWrite (s : State) (dom j : Nat) (v : Word) : State :=
  let sel := s.reg (Pg.ig + 0x800)
  let k := bits sel 0 4
  let e := bits sel 4 5
  let v := v &&& word (if j = 0 then 0xF + fmask 16 11 + fmask 32 32 else if j = 1 then 2 ^ 64 - 1 else fmask 0 44)
  let w (i : Nat) : Word := if i = j then v else s.reg (chkKey k e i)
  let abs := bits (w 1) 32 32
  let bad :=
    s.sliceOwner k != dom
    || (bit (w 0) 0 && !posFinite (bits (w 0) 32 32))
    || decide (1024 < bits (w 0) 16 11)
    || (bit (w 0) 1 && !posFinite (bits (w 1) 0 32))
    || decide (2 ^ 31 < abs) || decide (0x7F800000 ≤ abs % 2 ^ 31)
    || (bit (w 0) 1 && (s.ea k (bits (w 2) 0 32)).isNone)
  if bad then s.ends .access
  else
    let c := (s.csSets.get none (32 * k + e)).map fun c => { c with left := 0 }
    (({ s with csSets := s.csSets.put (32 * k + e) c }).setReg (chkKey k e j) v).ends .ok

/-- A write of `IG_TWIN` (R445, ch. 19 Registers); twins taken away while QUIESCED return to their reset state (log entry 32). -/
def State.twinWrite (s : State) (p : Nat) (v : Word) : State :=
  let m := bits v 0 16
  let old := s.twinMask p
  let idle := s.unset p || (s.part p).mode == .quiesced
  let clash := m &&& (s.heldSlices p ||| s.writtenSlices p) != 0
  let count := popcount 16 m != popcount 16 (s.writtenSlices p) && !(m == 0 && s.igMode p == 0)
  if !idle || clash || count then s.ends .access
  else
    let s := s.setReg (igBlk p 0x08) (word m)
    (if s.unset p then s else (maskList 16 (old - (m &&& old))).foldl State.resetSlice s).ends .ok

/-- A partition block of the integrity unit. -/
def State.igBlockWrite (s : State) (dom p o : Nat) (v : Word) : State :=
  let k := igBlk p o
  match o with
  | 0x00 =>
    if !s.unset p || bits v 0 2 == 3 || (dom != 0 && bits v 0 2 != s.igMode p) then s.ends .access else s.store k 0x3F v
  | 0x08 => s.twinWrite p v
  | 0x10 => if s.unset p then s.store k 0x7FFF7FFF v else s.ends .access
  | 0x18 => if aligned v.toNat 64 then (s.setReg k v).ends .ok else s.ends .access
  | 0x20 => if aligned v.toNat 64 then (s.setReg k v).ends .ok else s.ends .access
  | 0x38 => if 16 < bits v 0 5 then s.ends .access else s.store k 0x1F v
  | _ => s.ends .ok

/-- Integrity page. -/
def State.igWrite (s : State) (dom o : Nat) (v : Word) : State :=
  let k := s.regKey (Pg.ig + o)
  if o = 0x108 then s.store k 0x1FFFFFF v
  else if o = 0x150 then s.store k (2 ^ 52 - 1) v
  else if o = 0x158 then s.maceLoad dom v
  else if o = 0x180 then s.store k 0x3F v
  else if 0x188 ≤ o ∧ o < 0x1A0 then s.store k (fmask 0 61) v
  else if o = 0x1A0 then s.store k (fmask 0 52) v
  else if 0x400 ≤ o ∧ o < 0x800 then s.igBlockWrite dom ((o - 0x400) / 0x40) (o % 0x40) v
  else if o = 0x800 then s.store k 0x1FF v
  else if 0x808 ≤ o ∧ o < 0x820 then s.checkWrite dom ((o - 0x808) / 8) v
  else s.ends .ok

/-- Security page. -/
def State.secWrite (s : State) (dom o : Nat) (v : Word) : State :=
  if o = 0x800 then s.store (Pg.sec + o) 0x3F v
  else if o = 0x808 then s.stageAt dom (Pg.sec + o) (fmask 0 21 + fmask 32 21) v
  else if o = 0x810 then s.regionCommit dom (s.fld (Pg.sec + 0x800) 0 6) v
  else s.ends .ok

/-- Partition page. -/
def State.ptWrite (s : State) (dom p o : Nat) (v : Word) : State :=
  if o = 0x100 then s.ptCtrlWrite dom p v
  else if o = 0x110 then s.ptSlicesWrite dom p v
  else if o = 0x118 then s.ptLinkWrite dom p v
  else s.ends .ok

/-- A write of `DM_CFG`; a domain that is detached loses its mailbox (R374, R443). -/
def State.dmPageWrite (s : State) (dom n o : Nat) (v : Word) : State :=
  if o = 0x100 then
    let t := s.dmCfgWrite dom n v
    if s.attached n && !t.attached n then (t.mbDetach n).ends .ok else t
  else if o = 0x110 then s.store (Pg.dm n + o) 0xFFFF v
  else s.ends .ok

/-- Power page. -/
def State.pwrWrite (s : State) (o : Nat) (v : Word) : State :=
  if o = 0x100 then s.clkCtrlWrite v
  else if o = 0x108 then s.store (Pg.pwr + o) 0x7FF v
  else if o = 0x110 then if bits v 0 7 < 70 ∨ 100 < bits v 0 7 then s.ends .access else s.store (Pg.pwr + o) 0x7F v
  else s.ends .ok

end Sys2Proof.Machine
end

