-- ==== Sys2Proof/Machine/RegMap.lean ====
section
/-! DEFINITION. Register accesses: the checks of R9, R361, R426, R476 and R477 before the page's own, and the accesses of nodes and of
relayed transactions (R394, R411, R422, R423). -/

namespace Sys2Proof.Machine

/-! ### Accesses (R426, R437) -/

/-- What the boot state lets a domain reach: before READY D0 reads any page and writes only its mailbox; in ROM FAULT D0 reads the
identity and security pages; in firmware FAULT pages are read and only mailboxes written (R476, R477). -/
def State.bootLets (s : State) (dom addr : Nat) (write : Bool) : Bool :=
  match s.boot.phase with
  | .ready => true
  | .fwFault => !write || (match pageOf addr with | .mb _ => true | _ => false)
  | .romFault => dom == 0 && !write && (pageOf addr == .gid || pageOf addr == .sec)
  | .unpowered | .held | .rom => false
  | .cores | .powered | .stkTrained | .stkReady | .bulkTrained | .maceDone | .bulkZeroed =>
    dom == 0 && (!write || pageOf addr == .mb 0)

/-- The checks of every access: inside the map, 8-byte aligned, from an attached domain that is not WEDGED, and let by the boot state
(R9, R373, R426). -/
def State.accessOk (s : State) (dom addr : Nat) (write : Bool) : Bool :=
  decide (addr < 0x800000) && aligned addr 8 && s.attached dom && !s.wedged dom && s.bootLets dom addr write

/-- A register read by a domain: the value in `rdata`, zero where it is refused. A hardened register is voted (R434). -/
def State.regRead (s : State) (dom addr : Nat) : State :=
  let refuse := { s with rdata := 0, done := .access }
  if !s.accessOk dom addr false then refuse
  else if !s.pageFitted (pageOf addr) then { s with rdata := 0, done := .ok }
  else if !s.sees dom addr || s.setRefused addr then refuse
  else
    let s := if hardened addr then s.hardenVote (s.regKey addr) else s
    { s with rdata := s.regValue dom addr, done := .ok }

/-- A write at an address whose page is fitted, seen and the sender's to write. -/
def State.pageWrite (s : State) (dom addr : Nat) (v : Word) : State :=
  let o := addr % 0x1000
  let k := pageOf addr
  let common (t : State) : State := if o < 0x100 then s.commonWrite dom (addr - o) o v else t
  match k with
  | .slotWin p => s.slotWrite dom p (addr - Pg.slot p) v
  | .gid => common (s.ends .ok)
  | .cad => common (s.cadWrite dom o v)
  | .port i => common (if o = 0x100 then s.dlkCtrlWrite i v else s.ends .ok)
  | .dq n => common (s.dqWrite dom n o v)
  | .anise => common (s.ends .ok)
  | .mb n => common (s.mbPageWrite n o v)
  | .arr i a => common (if o = 0x100 then s.arrCtrlWrite i a v else s.ends .ok)
  | .vec i => common (s.vecWrite dom i o v)
  | .att i => common (s.attWrite i o v)
  | .qnt i => common (s.qntWrite dom i o v)
  | .xe e => common (s.xeWrite dom e o v)
  | .ws i => common (s.wsWrite i o v)
  | .seq i => common (s.seqWrite i o v)
  | .stk t => common (if o = 0x108 then s.store (Pg.stk t + o) 0x7F v else s.ends .ok)
  | .row => common (s.rowWrite o v)
  | .stkCommon => common (s.stkCommonWrite dom o v)
  | .bulk => common (s.bulkWrite dom o v)
  | .sv => common (s.svWrite o v)
  | .lnk l => common (if o = 0x100 then s.lnkCtrlWrite l v else s.ends .ok)
  | .fab => common (s.fabWrite dom o v)
  | .ig => common (s.igWrite dom o v)
  | .sec => common (s.secWrite dom o v)
  | .pt p => common (s.ptWrite dom p o v)
  | .dm n => common (s.dmPageWrite dom n o v)
  | .pwr => common (s.pwrWrite o v)
  | .unmapped => s.ends .ok

/-- A register write by a domain, complete with every check before it is answered, and with what a stop of the module or of the bulk tier
takes with it (R35, R290, R437). -/
def State.regWrite (s : State) (dom addr : Nat) (v : Word) : State :=
  if !s.accessOk dom addr true then s.ends .access
  else if !s.pageFitted (pageOf addr) then s.ends .ok
  else if !s.reaches dom addr || (dom != 0 && stewardOnly addr) then s.ends .access
  else (s.pageWrite dom addr v).afterLoss s

/-! ### Accesses of nodes (R411) -/

/-- REG_RD of a domain: `LEN` 0. A register that is refused reads zero, with ACCESS (R361). -/
def State.nodeRegRead (s : State) (d : Nat) (t : Trans) : State × Status × List Byte :=
  if !t.clean || t.len != 0 || decide (2 ^ 32 ≤ t.addr) then (s, .access, [])
  else
    let s := (s.regRead d t.addr).afterLoss s
    (s, s.done, toLe 8 s.rdata.toNat)

/-- REG_WR of a domain: `LEN` 8. -/
def State.nodeRegWrite (s : State) (d : Nat) (t : Trans) : State × Status × List Byte :=
  if !t.clean || t.len != 8 || decide (2 ^ 32 ≤ t.addr) then (s, .access, [])
  else
    let s := s.regWrite d t.addr (word (field t.data 0 8))
    (s, s.done, [])

/-- A memory access in firmware FAULT or before READY: writes are ACCESS (R476, R477). A read that stops the module or the bulk tier takes
with it what such a stop ends (R35, R290). -/
def State.nodeMem (s : State) (d : Nat) (t : Trans) : State × Status × List Byte :=
  if t.op = 3 then
    if s.boot.phase = .romFault then (s, .access, [])
    else
      let r := s.memRead d t
      (r.1.afterLoss s, r.2)
  else if !s.isReady then (s, .access, [])
  else
    let r := if t.op = 4 then s.memWrite d t else s.planWrite d t
    (r.1.afterLoss s, r.2, [])

/-- What a request of a domain does, by its `OP`. -/
def State.nodeApply (s : State) (d : Nat) (t : Trans) : State × Status × List Byte :=
  match t.op with
  | 1 => s.nodeRegRead d t
  | 2 => s.nodeRegWrite d t
  | 3 | 4 | 5 => s.nodeMem d t
  | _ => (s, .access, [])

/-- A request arriving on a port, of a given `OP` (R411, R422). -/
def State.nodeRequest (s : State) (i op : Nat) (b : List Byte) : State := s.portRequest i op b State.nodeApply

/-! ### Relayed transactions (R394, R422, R423) -/

/-- The transaction a RELAY message carries (R422). -/
def Msg.trans (m : Msg) (own : Nat) : Trans :=
  let op := m.arg / 2 ^ 52 % 16
  { op := op, dst := own, tag := m.tag, len := if op = 3 then field m.data 0 2 % 8192 else if op = 1 then 0 else m.len
    status := 0, ack := if op = 4 then 1 else 0, addr := m.arg % 2 ^ 52, data := m.data.take m.len }

/-- A relayed transaction applied and answered: the node's own for its domain's view, or node-bound traffic carried on by the
lowest-numbered UP port of the domain (R394, R423; log entry 17). -/
def State.relayApply (s : State) (m : Msg) : State :=
  let d := m.group % 4
  let t := m.trans s.boot.slotId
  if m.group / 4 % 2 = 1 then
    match s.portFor d with
    | none => s.respond m .peerLost
    | some _ =>
      if t.op = 3 then (s.nodeRead d t.addr t.len (.carry m.src m.tag m.group)).1
      else
        let s := (s.nodeWrite d t.addr t.data (.record d)).1
        (s.noteAnswer m.src m.tag (statusCode .ok)).respond m .ok
  else
    let r : State × Status × List Byte :=
      if !s.attached d || s.wedged d then (s, .access, []) else s.nodeApply d t
    (r.1.noteAnswer m.src m.tag (statusCode r.2.1)).respond m r.2.1 r.2.2

/-- The transactions held of an origin and domain applied while the next in sequence is there. -/
def State.relayNextIn (s : State) (key : Nat) : Nat → State
  | 0 => s
  | fuel + 1 =>
    let q := s.fabric.relayIn.get {} key
    match q.held.find? fun h => h.1 == q.next with
    | some (n, b) =>
      let s := s.modFabric fun f =>
        { f with relayIn := f.relayIn.put key { next := (n + 1) % 256, held := q.held.filter fun h => h.1 != n } }
      (s.relayApply (Msg.ofBytes b)).relayNextIn key fuel
    | none => s

/-- RELAY_RECEIVE: applied in the order of its origin's and domain's sequence numbers, up to 64 held out of order; one answered before
is answered again (R393, R394). -/
def State.relayReceive (s : State) (l : Nat) (b : List Byte) : State :=
  let m := Msg.ofBytes b
  if !s.comesHere l m MKind.relay then s
  else
    let key := m.src * 8 + m.group % 8
    let q := s.fabric.relayIn.get {} key
    let n := m.arg / 2 ^ 56 % 256
    match s.answeredAs m.src m.tag with
    | some st =>
      let op := m.arg / 2 ^ 52 % 16
      if (op = 1 ∨ op = 3) ∧ m.group / 4 % 2 = 0 then s.relayApply m else s.respond m (statusOfCode st)
    | none =>
      if 64 ≤ (n + 256 - q.next) % 256 ∨ (q.held.any fun h => h.1 == n) = true then s
      else
        let s := s.modFabric fun f =>
          { f with relayIn := f.relayIn.put key { q with held := q.held ++ [(n, b)] } }
        s.relayNextIn key 65

end Sys2Proof.Machine
end

