-- ==== Sys2Proof/WellFormed.lean ====
section
/-! DEFINITION. The operand lists that a sender can form: fixed lengths of frames, messages, transactions and commands, and places that
exist. -/

namespace Sys2Proof

/-- A control frame has 32 bytes (R389). -/
def wfFrame (frame : List Byte) : Bool := frame.length == 32

/-- A link message's body fits in its frame: 484 bytes of payload from byte 24 (ch. 17, Frames and Link messages). -/
def wfBody (body : List Byte) : Bool := decide (body.length ≤ 484)

/-- A control frame of a link, or the body of a port's link message. -/
def wfSource (src : Source) (frame : List Byte) : Bool :=
  match src with
  | .link _ => wfFrame frame
  | .port _ => wfBody frame

/-- A message has its 16-byte header, and at most 4,096 bytes with a contribution's 32-byte sub-header after it (ch. 16, Table Message header; R401). -/
def wfMessage (msg : List Byte) : Bool := decide (16 ≤ msg.length) && decide (msg.length ≤ 16 + 32 + 4096)

/-- A flit has 256 bytes (R377). -/
def wfFlit (flit : List Byte) : Bool := flit.length == 256

/-- A Dorondlink frame has 512 bytes (R409). -/
def wfPortFrame (frame : List Byte) : Bool := frame.length == 512

/-- A transaction has its 16-byte header and at most 8,191 bytes of data, as its `LEN` field counts them (R411). -/
def wfRequest (req : List Byte) : Bool := decide (16 ≤ req.length) && decide (req.length ≤ 16 + 8191)

/-- A command of the submission ring has 128 bytes (R308). -/
def wfCommand (cmd : List Byte) : Bool := cmd.length == 128

/-- A page begins on a 4 KiB boundary of the register map (R9); the slot windows of the cadence unit are no pages (R426). -/
def wfPage (page : Nat) : Bool :=
  decide (page < 0x800000) && page % 0x1000 == 0 && !(decide (0x18000 ≤ page) && decide (page < 0x20000))

/-- The symbols of a sector are its 64 data bytes and 8 check bytes (R255). -/
def wfFlips (flips : List (Nat × Byte)) : Bool := flips.all fun f => decide (f.1 < 72)

/-- A flash transaction carries 32 bytes (R506). -/
def wfFlashData (data : List Byte) : Bool := data.length == 32

/-- A source that answers a repair gives the 2 KiB piece (R460). -/
def wfAnswers (answers : List (Option (List Byte))) : Bool :=
  answers.all fun a => match a with | some b => b.length == 2048 | none => true

/-- A command whose operands a sender can form. -/
def Instr.wf : Instr → Bool
  | .regWrite .. => true
  | .evtStatClear _ page _ => wfPage page
  | .evtCounterClear _ page _ => wfPage page
  | .hardenScrub .. => true
  | .beaconReceive src frame => wfSource src frame
  | .beaconMiss => true
  | .holdoverExpire => true
  | .cadTimeCtrlWrite .. => true
  | .upstreamChange .. => true
  | .slotEnable .. => true
  | .slotDisable .. => true
  | .markSend .. => true
  | .planEmpty .. => true
  | .markReceive _ frame => wfFrame frame
  | .ackReceive _ frame => wfFrame frame
  | .frameResend => true
  | .markEffect .. => true
  | .stepStart .. => true
  | .boundApplyTimeout => true
  | .stepDone .. => true
  | .doneReportReceive _ _ _ frame => wfFrame frame
  | .markTimeout .. => true
  | .stepLimit .. => true
  | .idleWindowClose .. => true
  | .startProg .. => true
  | .schedCursorResume .. => true
  | .startStream .. => true
  | .schedSignal .. => true
  | .pollRing .. => true
  | .idleWindow .. => true
  | .schedEntryCommit .. => true
  | .schedLoad .. => true
  | .schedSwapWrite .. => true
  | .counterSet .. => true
  | .nop .. => true
  | .endProg .. => true
  | .jump .. => true
  | .branch .. => true
  | .loop .. => true
  | .setix .. => true
  | .addix .. => true
  | .wait .. => true
  | .waitTake .. => true
  | .seqWaitResume .. => true
  | .signal .. => true
  | .setctr .. => true
  | .start .. => true
  | .startHoldRelease .. => true
  | .startStall .. => true
  | .release .. => true
  | .fence .. => true
  | .fenceResume .. => true
  | .movs .. => true
  | .issueResume .. => true
  | .programStart .. => true
  | .seqStartWrite .. => true
  | .pmLoad .. => true
  | .pmLoadStart .. => true
  | .pmLoadDone .. => true
  | .seqAbort .. => true
  | .abortComplete .. => true
  | .engineOpComplete .. => true
  | .streamRegionConfig .. => true
  | .mma .. => true
  | .arrayFillResume .. => true
  | .starveLong .. => true
  | .load .. => true
  | .drain .. => true
  | .drainBufferResume .. => true
  | .openWaitResume .. => true
  | .dattn .. => true
  | .config .. => true
  | .arrCloseAll .. => true
  | .vload .. => true
  | .vstore .. => true
  | .clove .. => true
  | .reduce .. => true
  | .topk .. => true
  | .compress .. => true
  | .expand .. => true
  | .combine .. => true
  | .pload .. => true
  | .bset .. => true
  | .blendCommit .. => true
  | .qrun .. => true
  | .qhad .. => true
  | .qstep .. => true
  | .qload .. => true
  | .profileCommit .. => true
  | .qntSlotHistWrite .. => true
  | .trapSaturate .. => true
  | .trapRescale .. => true
  | .trapRetry .. => true
  | .trapFail .. => true
  | .trapTimeout .. => true
  | .adec .. => true
  | .append .. => true
  | .amerge .. => true
  | .agather .. => true
  | .xload .. => true
  | .aconfig .. => true
  | .arm .. => true
  | .armd .. => true
  | .stop .. => true
  | .xeArmWrite .. => true
  | .xeStopWrite .. => true
  | .transferIssue .. => true
  | .transferComplete .. => true
  | .stackReadDone _ flips => wfFlips flips
  | .cmdParityAlert .. => true
  | .refreshDue .. => true
  | .scrubRead .. => true
  | .thermalReport .. => true
  | .thermalReportMiss .. => true
  | .windowCommit .. => true
  | .windowDisable .. => true
  | .rowseqGo .. => true
  | .rowseqAbort .. => true
  | .rowInit .. => true
  | .rowCopy .. => true
  | .rowAnd .. => true
  | .rowOr .. => true
  | .rowXor .. => true
  | .rowNot .. => true
  | .reseal .. => true
  | .rowOpComplete .. => true
  | .bulkReadDone _ errors => wfFlips errors.flips
  | .bulkScrubRead => true
  | .mr4Poll .. => true
  | .placementEpoch => true
  | .swapPieceDone => true
  | .pinWrite .. => true
  | .spillCopyDone => true
  | .retentionSweep => true
  | .submit _ cmd => wfCommand cmd
  | .cancel _ cmd => wfCommand cmd
  | .resume _ cmd => wfCommand cmd
  | .requestRelease _ cmd => wfCommand cmd
  | .pfxCreate _ cmd => wfCommand cmd
  | .pfxDrop _ cmd => wfCommand cmd
  | .cmdNop _ cmd => wfCommand cmd
  | .sqPollTimer .. => true
  | .sqEnable .. => true
  | .stage0 .. => true
  | .pepperMerge .. => true
  | .verdictWrite .. => true
  | .commit .. => true
  | .tokenRecordWrite .. => true
  | .eventRecordWrite .. => true
  | .partitionConfig .. => true
  | .activate .. => true
  | .quiesce .. => true
  | .quiesceComplete .. => true
  | .quiesceTimeout .. => true
  | .wedgeTimeout .. => true
  | .partitionResume .. => true
  | .partitionRelease .. => true
  | .releaseScrubDone .. => true
  | .ptSlicesWrite .. => true
  | .regionCommit .. => true
  | .domainAttach .. => true
  | .domainDetach .. => true
  | .linkEnable .. => true
  | .linkDisable .. => true
  | .linkRetrain .. => true
  | .linkTrainDone .. => true
  | .trainFail .. => true
  | .linkDown .. => true
  | .autoRetrain .. => true
  | .flitReceive _ flit _ _ => wfFlit flit
  | .identReceive src frame => wfSource src frame
  | .pingReceive src frame => wfSource src frame
  | .pongReceive src frame => wfSource src frame
  | .liveSend => true
  | .liveReceive _ frame => wfFrame frame
  | .peerLost .. => true
  | .messageForward _ _ msg => wfMessage msg
  | .remoteWrite _ msg => wfMessage msg
  | .remoteRead _ msg => wfMessage msg
  | .remoteSignal _ msg => wfMessage msg
  | .remoteResp _ msg => wfMessage msg
  | .messageResend => true
  | .transactionTimeout => true
  | .relayReceive _ msg => wfMessage msg
  | .relayRespReceive _ msg => wfMessage msg
  | .rankGroupCommit .. => true
  | .cqArm .. => true
  | .cqReset .. => true
  | .allReduce .. => true
  | .reduceScatter .. => true
  | .allGather .. => true
  | .allToAll .. => true
  | .send .. => true
  | .recv .. => true
  | .rsignal .. => true
  | .barrier .. => true
  | .readyReceive _ _ frame => wfFrame frame
  | .collAbortReceive _ _ frame => wfFrame frame
  | .contribReceive _ msg => wfMessage msg
  | .collCombine .. => true
  | .collEntryComplete .. => true
  | .portEnable .. => true
  | .portDisable .. => true
  | .portRetrain .. => true
  | .portTrainDone .. => true
  | .portTrainFail .. => true
  | .portDown .. => true
  | .portPingSend .. => true
  | .portFrameReceive _ frame _ _ => wfPortFrame frame
  | .regRd _ req => wfRequest req
  | .regWr _ req => wfRequest req
  | .memRd _ req => wfRequest req
  | .memWr _ req => wfRequest req
  | .planWr _ req => wfRequest req
  | .rspReceive _ req => wfRequest req
  | .logRead .. => true
  | .attest .. => true
  | .certRead .. => true
  | .fwStage .. => true
  | .recordStage .. => true
  | .fwActivate .. => true
  | .mbReset .. => true
  | .mbDone .. => true
  | .mbTimeout .. => true
  | .maceImageLoad .. => true
  | .maceTestStart .. => true
  | .maceTestDone .. => true
  | .repairDone _ answers => wfAnswers answers
  | .repairWait .. => true
  | .digestUnitDone .. => true
  | .resetNLow => true
  | .resetRelease .. => true
  | .romBootTimeout => true
  | .bootStepDone .. => true
  | .bootStepTimeout => true
  | .watchdogExpire => true
  | .powerUp => true
  | .inputFault => true
  | .refclkLoss => true
  | .powerSample .. => true
  | .emergHoldEnd => true
  | .loopEvaluate => true
  | .clockStepChange => true
  | .dieSensorReport .. => true
  | .dieSensorMiss .. => true
  | .modState .. => true
  | .modSerial .. => true
  | .inputV .. => true
  | .inputP .. => true
  | .tempDie .. => true
  | .tempCool .. => true
  | .smbSlot .. => true
  | .flashAddr .. => true
  | .flashDataRead .. => true
  | .flashDataWrite _ data => wfFlashData data
  | .flashErase .. => true
  | .flashStat .. => true
  | .flashOpDone .. => true
  | .portAutoRetrain .. => true
  | .bulkTrainingLost .. => true

end Sys2Proof
end

