-- ==== Sys2Proof/Machine/Operands.lean ====
section
/-! DEFINITION. What the commands share: how an ill-formed operand is turned away, and the words and registers of the register writes
that are rows of their own. -/

namespace Sys2Proof.Machine

/-- A command whose operands no sender can form is refused; any other has its effect. -/
def formed (ok : Bool) (why : String) (t : State) : Host.Outcome State Fault Refusal :=
  if ok then .next t else .refused (.illFormed why)

/-- The `QNT_TRAP` word that resolves a held drain of an array: action, and the σ of a RETRY (R188). -/
def trapWord (a act sigma : Nat) : Word := pack [(a, 4), (act, 6), (1, 8), (sigma, 32)]

/-- `ROWQ_CTRL` of a row-operation slot (ch. 11, Registers). -/
def rowqCtrl (d q : Nat) : Nat := Pg.row + 0x208 + 0x80 * d + 0x20 * q

/-- The spreading window that `STK_SPR_SEL` selects. -/
def State.selectedWindow (s : State) : Window := s.windows.get {} (s.fld (Pg.stkCommon + 0x100) 0 4)

/-- `MB_GO` written by a domain to its own mailbox, where `MB_CMD` names the command; another command is another row's (R441, R442). -/
def State.mailboxGo (s : State) (d : Nat) (op : MbOp) : State :=
  if s.mbOp d = some op then s.regWrite d (Pg.mb d + 0x118) 1 else s

end Sys2Proof.Machine
end

