-- ==== Sys2Proof/Machine/CmdArray.lean ====
section
/-! DEFINITION. The meanings of the commands of the matrix arrays (ch. 4, 5). -/

namespace Sys2Proof.Machine

/-- MMA (R102): An output tile is accumulated from activation rows and streamed weight tiles into a group. -/
def execMma (k : Fin 16) (read : PmRead) (s : State) : Host.Outcome State Fault Refusal :=
  .next ((s.issue k read .mma).afterLoss s)

/-- ARRAY_FILL_RESUME (R107): The region fill count covers the next weight tile and the waiting MMA continues. -/
def execArrayFillResume (k : Fin 16) (a : Fin 4) (s : State) : Host.Outcome State Fault Refusal :=
  .next ((s.fillResume k a).afterLoss s)

/-- STARVE_LONG (R125): One fill wait of an array exceeds 65,536 cycles. -/
def execStarveLong (k : Fin 16) (a : Fin 4) (s : State) : Host.Outcome State Fault Refusal :=
  .next (s.starveLong k a)

/-- LOAD (R135): A group is opened with an exact copy of a source tile and status word. -/
def execLoad (k : Fin 16) (read : PmRead) (s : State) : Host.Outcome State Fault Refusal :=
  .next ((s.issue k read .load).afterLoss s)

/-- DRAIN (R123): A group is closed and its rows pass through the Blend chain and quantisation profile into the working store or
the Pepper units. -/
def execDrain (k : Fin 16) (read : PmRead) (s : State) : Host.Outcome State Fault Refusal :=
  .next ((s.issue k read .drain).afterLoss s)

/-- DRAIN_BUFFER_RESUME (R124): The drain buffer frees a slot and the waiting DRAIN proceeds. -/
def execDrainBufferResume (k : Fin 16) (a : Fin 4) (s : State) : Host.Outcome State Fault Refusal :=
  .next ((s.bufferResume k a).afterLoss s)

/-- OPEN_WAIT_RESUME (R115): An earlier DRAIN has read the tile, and the operation waiting to open it proceeds. -/
def execOpenWaitResume (k : Fin 16) (a : Fin 4) (s : State) : Host.Outcome State Fault Refusal :=
  .next ((s.openResume k a).afterLoss s)

/-- DATTN (R120): Dense attention for one head runs scores, masking, online softmax and the value sum in one instruction. -/
def execDattn (k : Fin 16) (read : PmRead) (s : State) : Host.Outcome State Fault Refusal :=
  .next ((s.issue k read .dattn).afterLoss s)

/-- CONFIG (R113): The array queue's format state is set for later MMAs. -/
def execConfig (k : Fin 16) (read : PmRead) (s : State) : Host.Outcome State Fault Refusal :=
  .next ((s.issue k read .config).afterLoss s)

/-- ARR_CLOSE_ALL (R114): ARR_CTRL.CLOSE_ALL closes every group the array owns without draining. -/
def execArrCloseAll (dom : Fin 4) (k : Fin 16) (a : Fin 4) (s : State) : Host.Outcome State Fault Refusal :=
  .next (s.regWrite dom (Pg.arr k a + 0x100) 1)

end Sys2Proof.Machine
end

