-- ==== Sys2Proof/Machine/CmdAttention.lean ====
section
/-! DEFINITION. The meanings of the commands of attention over the cache (ch. 8). -/

namespace Sys2Proof.Machine

/-- ADEC (R209): Decode attention runs for each sequence and head of a batch over its admissible cached keys. -/
def execAdec (k : Fin 16) (read : PmRead) (s : State) : Host.Outcome State Fault Refusal :=
  .next ((s.issue k read .adec).afterLoss s)

/-- APPEND (R201): New key/value records are quantised and written to the tail area and to their page slots. -/
def execAppend (k : Fin 16) (read : PmRead) (s : State) : Host.Outcome State Fault Refusal :=
  .next ((s.issue k read .append).afterLoss s)

/-- AMERGE (R213): The parts of a parallel attention split are merged in ascending order. -/
def execAmerge (k : Fin 16) (read : PmRead) (s : State) : Host.Outcome State Fault Refusal :=
  .next ((s.issue k read .amerge).afterLoss s)

/-- AGATHER (R216): Cached keys and values are gathered into DATTN panel layouts. -/
def execAgather (k : Fin 16) (read : PmRead) (s : State) : Host.Outcome State Fault Refusal :=
  .next ((s.issue k read .agather).afterLoss s)

/-- XLOAD (R196): Bytes are copied from the working store into the expansion store. -/
def execXload (k : Fin 16) (read : PmRead) (s : State) : Host.Outcome State Fault Refusal :=
  .next ((s.issue k read .xload).afterLoss s)

/-- ACONFIG (R198): Cache-stream configuration slots are loaded, all together or not at all. -/
def execAconfig (k : Fin 16) (read : PmRead) (s : State) : Host.Outcome State Fault Refusal :=
  .next ((s.issue k read .aconfig).afterLoss s)

end Sys2Proof.Machine
end

