-- ==== Sys2Proof/Machine/CmdCadence.lean ====
section
/-! DEFINITION. The meanings of the commands of marks, steps, schedules and counters (ch. 2). -/

namespace Sys2Proof.Machine

/-- SLOT_ENABLE (R46): Setting PS_CFG.ENABLE, allowed only while time is LOCKED, puts the cadence slot in WAITING, and an ELASTIC
member sends its ready report. -/
def execSlotEnable (dom : Fin 4) (p : Fin 16) (v : Word) (s : State) : Host.Outcome State Fault Refusal :=
  .next (s.regWrite dom (Pg.slot p) (setBits v 0 1 1))

/-- SLOT_DISABLE (R72): Clearing PS_CFG.ENABLE drops latched marks, and the slot goes to DISABLED after the running step
completes. -/
def execSlotDisable (dom : Fin 4) (p : Fin 16) (v : Word) (s : State) : Host.Outcome State Fault Refusal :=
  .next (s.regWrite dom (Pg.slot p) (setBits v 0 1 0))

/-- MARK_SEND (R52): A FIXED leader reads the next plan entry and, once its time and the lag limit allow, sends the mark. -/
def execMarkSend (p : Fin 16) (s : State) : Host.Outcome State Fault Refusal :=
  .next ((s.markSend p).afterLoss s)

/-- PLAN_EMPTY (R52): CT passes the last mark plus its span while the plan ring is empty. -/
def execPlanEmpty (p : Fin 16) (s : State) : Host.Outcome State Fault Refusal :=
  .next ((s.planEmpty p).afterLoss s)

/-- MARK_RECEIVE (R48): A step mark arriving on a link is checked, acknowledged, forwarded and accepted or discarded. -/
def execMarkReceive (l : Fin 96) (frame : List Byte) (s : State) : Host.Outcome State Fault Refusal :=
  formed (wfFrame frame) "control frame" (s.markReceive l frame)

/-- ACK_RECEIVE (R390): An ACK control frame stops the re-sending of the MARK or DONE frame it acknowledges. -/
def execAckReceive (l : Fin 96) (frame : List Byte) (s : State) : Host.Outcome State Fault Refusal :=
  formed (wfFrame frame) "control frame" (s.ackReceive l frame)

/-- FRAME_RESEND (R390): A MARK or DONE frame not acknowledged within 200 ns is sent again, and after eight re-sends on another
link of the bundle. -/
def execFrameResend (s : State) : Host.Outcome State Fault Refusal :=
  .next (s.frameResend)

/-- MARK_EFFECT (R49): The member's CT reaches MARK_CT and the mark takes effect, or is latched if a step is still running. -/
def execMarkEffect (p : Fin 16) (s : State) : Host.Outcome State Fault Refusal :=
  .next (s.markEffect p)

/-- STEP_START (R51): Once the mark has taken effect and the prior step is complete, leftover entries fire, any bank swap applies,
the cursor resets and STEP is set. -/
def execStepStart (p : Fin 16) (s : State) : Host.Outcome State Fault Refusal :=
  .next ((s.stepStart p).afterLoss s)

/-- BOUND_APPLY_TIMEOUT (R488): With no cadence slot enabled, a pending bound change of a module-wide loop applies 1 ms after the
write. -/
def execBoundApplyTimeout (s : State) : Host.Outcome State Fault Refusal :=
  .next (s.boundTimeout)

/-- STEP_DONE (R51): When the step-done counter reaches DONE_TARGET, the target is taken, the step completes and a done report
goes to the leader. -/
def execStepDone (p : Fin 16) (s : State) : Host.Outcome State Fault Refusal :=
  .next (s.stepDone p)

/-- DONE_REPORT_RECEIVE (R54): The leader receives a member's DONE frame and updates the step each member has completed. -/
def execDoneReportReceive (l : Fin 96) (dst : Fin 64) (flood : Bool) (frame : List Byte) (s : State) :
    Host.Outcome State Fault Refusal :=
  formed (wfFrame frame) "control frame" (s.doneReceive l dst flood frame)

/-- MARK_TIMEOUT (R55): A member sees no mark for MARK_TIMEOUT ticks after MARK_CT + SPAN and keeps waiting. -/
def execMarkTimeout (p : Fin 16) (s : State) : Host.Outcome State Fault Refusal :=
  .next (s.markTimeout p)

/-- STEP_LIMIT (R64): A step still running STEP_LIMIT ticks after its start is reported, but not ended. -/
def execStepLimit (p : Fin 16) (s : State) : Host.Outcome State Fault Refusal :=
  .next (s.stepLimit p)

/-- IDLE_WINDOW_CLOSE (R65): The implicit idle window closes at MARK_CT + SPAN − IDLE_GUARD, aborting screening. -/
def execIdleWindowClose (p : Fin 16) (s : State) : Host.Outcome State Fault Refusal :=
  .next (s.idleClose p)

/-- START_PROG (R57): A schedule entry posts a program start to each sequencer it names. -/
def execStartProg (p : Fin 16) (s : State) : Host.Outcome State Fault Refusal :=
  .next ((s.schedFire p 1).afterLoss s)

/-- SCHED_CURSOR_RESUME (R60): A start queue accepts the held start and the cursor moves on. -/
def execSchedCursorResume (p : Fin 16) (s : State) : Host.Outcome State Fault Refusal :=
  .next (s.cursorResume p)

/-- START_STREAM (R57): A schedule entry arms a transfer queue slot with a descriptor. -/
def execStartStream (p : Fin 16) (s : State) : Host.Outcome State Fault Refusal :=
  .next ((s.schedFire p 2).afterLoss s)

/-- SCHED_SIGNAL (R57): A schedule entry signals a partition-relative counter. -/
def execSchedSignal (p : Fin 16) (s : State) : Host.Outcome State Fault Refusal :=
  .next ((s.schedFire p 3).afterLoss s)

/-- POLL_RING (R416): A schedule entry reads the domain's submission-ring tail and applies the new commands. -/
def execPollRing (p : Fin 16) (s : State) : Host.Outcome State Fault Refusal :=
  .next ((s.schedFire p 4).afterLoss s)

/-- IDLE_WINDOW (R65): A schedule entry opens an idle window on the named slices. -/
def execIdleWindow (p : Fin 16) (s : State) : Host.Outcome State Fault Refusal :=
  .next ((s.schedFire p 5).afterLoss s)

/-- SCHED_ENTRY_COMMIT (R62): A write to DOM_SCHED_HI checks the staged entry and commits it to the inactive bank. -/
def execSchedEntryCommit (dom : Fin 4) (d : Fin 4) (v : Word) (s : State) : Host.Outcome State Fault Refusal :=
  .next (s.regWrite dom (domReg d 0x10) v)

/-- SCHED_LOAD (R62): DOM_LOAD_CTRL.GO checks the range and every entry, and then loads entries from device memory or writes
nothing. -/
def execSchedLoad (dom : Fin 4) (d : Fin 4) (v : Word) (s : State) : Host.Outcome State Fault Refusal :=
  .next (s.regWrite dom (domReg d 0x30) (setBits v 63 1 1))

/-- SCHED_SWAP_WRITE (R61): Writing PS_SCHED.SWAP schedules a bank swap for the next step start. -/
def execSchedSwapWrite (dom : Fin 4) (p : Fin 16) (v : Word) (s : State) : Host.Outcome State Fault Refusal :=
  .next (s.regWrite dom (Pg.slot p + 0x028) (setBits v 33 1 1))

/-- COUNTER_SET (R71): A write to DOM_CTR_VAL sets a counter in the domain's range. -/
def execCounterSet (dom : Fin 4) (d : Fin 4) (v : Word) (s : State) : Host.Outcome State Fault Refusal :=
  .next (s.regWrite dom (domReg d 0x20) v)

end Sys2Proof.Machine
end

