-- ==== Sys2Proof/Machine/CmdCollective.lean ====
section
/-! DEFINITION. The meanings of the commands of collective queues (ch. 16). -/

namespace Sys2Proof.Machine

/-- RANK_GROUP_COMMIT (R395): FAB_GCFG.EN checks and commits a rank group and finds the module's rank. -/
def execRankGroupCommit (dom : Fin 4) (v : Word) (s : State) : Host.Outcome State Fault Refusal :=
  .next (s.regWrite dom (Pg.fab + 0x208) (setBits v 4 1 1))

/-- CQ_ARM (R396): CQ_CTRL.GO arms a collective queue with its entry list. -/
def execCqArm (dom : Fin 4) (cq : Fin 64) (v : Word) (s : State) : Host.Outcome State Fault Refusal :=
  .next (s.regWrite dom (Pg.fab + 0x808 + 0x20 * cq.val) (setBits v 63 1 1))

/-- CQ_RESET (R402): CQ_CTRL.RESET empties a halted or idle collective queue. -/
def execCqReset (dom : Fin 4) (cq : Fin 64) (s : State) : Host.Outcome State Fault Refusal :=
  .next (s.regWrite dom (Pg.fab + 0x808 + 0x20 * cq.val) (word (2 ^ 61)))

/-- ALL_REDUCE (R399): An entry starts that scatters pieces, combines them in rank order and gathers the result. -/
def execAllReduce (cq : Fin 64) (s : State) : Host.Outcome State Fault Refusal :=
  .next (s.collStart cq 0)

/-- REDUCE_SCATTER (R399): An entry starts that combines each rank's piece only. -/
def execReduceScatter (cq : Fin 64) (s : State) : Host.Outcome State Fault Refusal :=
  .next (s.collStart cq 1)

/-- ALL_GATHER (R399): An entry starts that gathers every rank's buffer. -/
def execAllGather (cq : Fin 64) (s : State) : Host.Outcome State Fault Refusal :=
  .next (s.collStart cq 2)

/-- ALL_TO_ALL (R396): An entry starts that sends each rank its part of the send table. -/
def execAllToAll (cq : Fin 64) (s : State) : Host.Outcome State Fault Refusal :=
  .next (s.collStart cq 3)

/-- SEND (R396): An entry starts that sends a buffer to a peer rank's RECV. -/
def execSend (cq : Fin 64) (s : State) : Host.Outcome State Fault Refusal :=
  .next (s.collStart cq 4)

/-- RECV (R396): An entry starts that receives a peer rank's SEND. -/
def execRecv (cq : Fin 64) (s : State) : Host.Outcome State Fault Refusal :=
  .next (s.collStart cq 5)

/-- RSIGNAL (R396): An entry starts that signals a counter at a peer rank. -/
def execRsignal (cq : Fin 64) (s : State) : Host.Outcome State Fault Refusal :=
  .next (s.collStart cq 6)

/-- BARRIER (R396): An entry starts that completes when every rank has started its BARRIER. -/
def execBarrier (cq : Fin 64) (s : State) : Host.Outcome State Fault Refusal :=
  .next (s.collStart cq 7)

/-- READY_RECEIVE (R398): A READY frame lets contributions to the posted buffers be sent. -/
def execReadyReceive (l : Fin 96) (dst : Fin 64) (frame : List Byte) (s : State) : Host.Outcome State Fault Refusal :=
  formed (wfFrame frame) "control frame" (s.readyReceive l dst frame)

/-- COLL_ABORT_RECEIVE (R402): An ABORT frame completes the matching entry with SUPERSEDED. -/
def execCollAbortReceive (l : Fin 96) (dst : Fin 64) (frame : List Byte) (s : State) : Host.Outcome State Fault Refusal :=
  formed (wfFrame frame) "control frame" (s.abortReceive l dst frame)

/-- CONTRIB_RECEIVE (R401): A CONTRIB message is checked by CRC-64 and counted as arrived or asked to be resent. -/
def execContribReceive (l : Fin 96) (msg : List Byte) (s : State) : Host.Outcome State Fault Refusal :=
  formed (wfMessage msg) "message" (s.contribReceive l msg)

/-- COLL_COMBINE (R400): At the next vector-engine boundary the pieces are combined in ascending rank order. -/
def execCollCombine (cq : Fin 64) (s : State) : Host.Outcome State Fault Refusal :=
  .next (s.collCombine cq)

/-- COLL_ENTRY_COMPLETE (R396): A collective entry completes and signals DONECTR after the entries before it. -/
def execCollEntryComplete (cq : Fin 64) (s : State) : Host.Outcome State Fault Refusal :=
  .next (s.collComplete cq)

end Sys2Proof.Machine
end

