-- ==== Sys2Proof/Machine/CmdFabric.lean ====
section
/-! DEFINITION. The meanings of the commands of peer links, liveness, messages and relayed traffic (ch. 16, 17). -/

namespace Sys2Proof.Machine

/-- LINK_ENABLE (R381): Setting LNK_CTRL.EN starts link training. -/
def execLinkEnable (dom : Fin 4) (l : Fin 96) (v : Word) (s : State) : Host.Outcome State Fault Refusal :=
  .next (s.regWrite dom (Pg.lnk l + 0x100) (setBits (setBits v 0 1 1) 2 1 0))

/-- LINK_DISABLE (R381): Clearing LNK_CTRL.EN turns the link OFF. -/
def execLinkDisable (dom : Fin 4) (l : Fin 96) (v : Word) (s : State) : Host.Outcome State Fault Refusal :=
  .next (s.regWrite dom (Pg.lnk l + 0x100) (setBits v 0 1 0))

/-- LINK_RETRAIN (R381): Writing RETRAIN restarts training from any state. -/
def execLinkRetrain (dom : Fin 4) (l : Fin 96) (v : Word) (s : State) : Host.Outcome State Fault Refusal :=
  .next (s.regWrite dom (Pg.lnk l + 0x100) (setBits (setBits v 0 1 1) 2 1 1))

/-- LINK_TRAIN_DONE (R381): FEC lock, IDENT and delay measurement complete and the link goes UP. -/
def execLinkTrainDone (l : Fin 96) (s : State) : Host.Outcome State Fault Refusal :=
  .next (s.linkTrainDone l)

/-- TRAIN_FAIL (R381): Training that exceeds TRAIN_MS leaves the link FAILED. -/
def execTrainFail (l : Fin 96) (s : State) : Host.Outcome State Fault Refusal :=
  .next (s.linkTrainFail l)

/-- LINK_DOWN (R379): No decode or valid flit for 2 µs, or a replay limit, puts the link DOWN and moves its queued messages. -/
def execLinkDown (l : Fin 96) (s : State) : Host.Outcome State Fault Refusal :=
  .next ((s.linkDown l).afterLoss s)

/-- AUTO_RETRAIN (R381): 1 ms after DOWN with AUTO_RETRAIN the link starts training. -/
def execAutoRetrain (l : Fin 96) (s : State) : Host.Outcome State Fault Refusal :=
  .next (s.linkAutoRetrain l)

/-- FLIT_RECEIVE (R378): A flit is accepted in sequence or discarded, and credits and acknowledgements are taken from it. -/
def execFlitReceive (l : Fin 96) (flit : List Byte) (decoded : Bool) (fixed : Nat) (s : State) :
    Host.Outcome State Fault Refusal :=
  formed (wfFlit flit) "flit" (s.flitReceive l flit decoded fixed)

/-- IDENT_RECEIVE (R380): A peer's or node's IDENT is checked against the cluster id and the wiring rule. -/
def execIdentReceive (src : Source) (frame : List Byte) (s : State) : Host.Outcome State Fault Refusal :=
  formed (wfSource src frame) "frame" (match src with
    | .link l => s.linkIdent l frame
    | .port i => s.portIdentIn i frame)

/-- PING_RECEIVE (R407): A PING is answered with a PONG carrying the stamps. -/
def execPingReceive (src : Source) (frame : List Byte) (s : State) : Host.Outcome State Fault Refusal :=
  formed (wfSource src frame) "frame" (match src with
    | .link l => s.linkPinged l frame
    | .port i => s.portPinged i frame)

/-- PONG_RECEIVE (R407): A PONG yields a round trip and updates the one-way delay. -/
def execPongReceive (src : Source) (frame : List Byte) (s : State) : Host.Outcome State Fault Refusal :=
  formed (wfSource src frame) "frame" (match src with
    | .link l => s.linkPonged l frame
    | .port i => s.portPonged i frame)

/-- LIVE_SEND (R391): Every 10 µs a joined module floods a LIVE frame. -/
def execLiveSend (s : State) : Host.Outcome State Fault Refusal :=
  .next (s.liveSend)

/-- LIVE_RECEIVE (R391): A LIVE frame refreshes a peer's live bit, or a new epoch declares it lost. -/
def execLiveReceive (l : Fin 96) (frame : List Byte) (s : State) : Host.Outcome State Fault Refusal :=
  formed (wfFrame frame) "control frame" ((s.liveReceive l frame).afterLoss s)

/-- PEER_LOST (R391): With no LIVE for 50 µs, a peer is lost and everything naming it completes with PEER_LOST. -/
def execPeerLost (id : Fin 64) (s : State) : Host.Outcome State Fault Refusal :=
  .next ((s.peerTimeout id).afterLoss s)

/-- MESSAGE_FORWARD (R385): A message for another module is routed on to the least-loaded UP link of its bundle. -/
def execMessageForward (l : Fin 96) (sub : Fin 2) (msg : List Byte) (s : State) : Host.Outcome State Fault Refusal :=
  formed (wfMessage msg) "message" (s.messageForward l sub msg)

/-- REMOTE_WRITE (R392): A WRITE message is checked and applied, and a response returned. -/
def execRemoteWrite (l : Fin 96) (msg : List Byte) (s : State) : Host.Outcome State Fault Refusal :=
  formed (wfMessage msg) "message" ((s.remoteWrite l msg).afterLoss s)

/-- REMOTE_READ (R392): A READ message is checked and served with data. -/
def execRemoteRead (l : Fin 96) (msg : List Byte) (s : State) : Host.Outcome State Fault Refusal :=
  formed (wfMessage msg) "message" ((s.remoteRead l msg).afterLoss s)

/-- REMOTE_SIGNAL (R71): A SIGNAL message signals a counter if the group and index permit. -/
def execRemoteSignal (l : Fin 96) (msg : List Byte) (s : State) : Host.Outcome State Fault Refusal :=
  formed (wfMessage msg) "message" (s.remoteSignal l msg)

/-- REMOTE_RESP (R393): A RESP message completes the originating transfer. -/
def execRemoteResp (l : Fin 96) (msg : List Byte) (s : State) : Host.Outcome State Fault Refusal :=
  formed (wfMessage msg) "message" ((s.remoteResp l msg).afterLoss s)

/-- MESSAGE_RESEND (R393): A request unanswered after 20 µs is resent once with the same tag. -/
def execMessageResend (s : State) : Host.Outcome State Fault Refusal :=
  .next (s.messageResend)

/-- TRANSACTION_TIMEOUT (R33): A request unanswered after 100 µs completes with PEER_LOST. -/
def execTransactionTimeout (s : State) : Host.Outcome State Fault Refusal :=
  .next (s.transactionTimeout.afterLoss s)

/-- RELAY_RECEIVE (R394): A RELAY message is applied as if it had come from its domain's port, in sequence order. -/
def execRelayReceive (l : Fin 96) (msg : List Byte) (s : State) : Host.Outcome State Fault Refusal :=
  formed (wfMessage msg) "message" (s.relayReceive l msg)

/-- RELAY_RESP_RECEIVE (R422): A RELAY_RESP becomes an RSP to the node with the original tag. -/
def execRelayRespReceive (l : Fin 96) (msg : List Byte) (s : State) : Host.Outcome State Fault Refusal :=
  formed (wfMessage msg) "message" ((s.relayResp l msg).afterLoss s)

end Sys2Proof.Machine
end

