-- ==== Sys2Proof/Machine/CmdIntegrity.lean ====
section
/-! DEFINITION. The meanings of the commands of mailboxes, screening, repair and digests (ch. 19, 20). -/

namespace Sys2Proof.Machine

/-- LOG_READ (R442): Error records addressed to the domain are copied into the mailbox buffer. -/
def execLogRead (d : Fin 4) (s : State) : Host.Outcome State Fault Refusal :=
  .next (s.mailboxGo d .logRead)

/-- ATTEST (R481): A signed attestation report over the nonce is written. -/
def execAttest (d : Fin 4) (s : State) : Host.Outcome State Fault Refusal :=
  .next (s.mailboxGo d .attest)

/-- CERT_READ (R482): A certificate or record selected by ARG0 is written. -/
def execCertRead (d : Fin 4) (s : State) : Host.Outcome State Fault Refusal :=
  .next (s.mailboxGo d .certRead)

/-- FW_STAGE (R479): A chunk of a firmware image is written into the slot that did not boot. -/
def execFwStage (d : Fin 4) (s : State) : Host.Outcome State Fault Refusal :=
  .next (s.mailboxGo d .fwStage)

/-- RECORD_STAGE (R479): With ARG0[31] set, a new configuration record is checked and staged. -/
def execRecordStage (d : Fin 4) (s : State) : Host.Outcome State Fault Refusal :=
  .next (s.mailboxGo d .recordStage)

/-- FW_ACTIVATE (R480): The staged slot is verified and the directory is made to name it for the next reset. -/
def execFwActivate (d : Fin 4) (s : State) : Host.Outcome State Fault Refusal :=
  .next (s.mailboxGo d .fwActivate)

/-- RESET (R466): The steward's mailbox command resets the module. -/
def execMbReset (d : Fin 4) (s : State) : Host.Outcome State Fault Refusal :=
  .next (s.mailboxGo d .reset)

/-- MB_DONE (R442): A mailbox command ends with its status and result. -/
def execMbDone (d : Fin 4) (s : State) : Host.Outcome State Fault Refusal :=
  .next (s.mbDone d)

/-- MB_TIMEOUT (R442): A mailbox command not done within 1 s ends with FAULT. -/
def execMbTimeout (d : Fin 4) (s : State) : Host.Outcome State Fault Refusal :=
  .next ((s.mbTimeout d).afterLoss s)

/-- MACE_IMAGE_LOAD (R459): IG_MACE_CTRL.LOAD verifies and accepts a new Mace image. -/
def execMaceImageLoad (dom : Fin 4) (s : State) : Host.Outcome State Fault Refusal :=
  .next (s.regWrite dom (Pg.ig + 0x158) 1)

/-- MACE_TEST_START (R458): A known-answer test that fits the idle time starts on a slice. -/
def execMaceTestStart (k : Fin 16) (cls : Fin 8) (cycles : Nat) (s : State) : Host.Outcome State Fault Refusal :=
  .next (s.maceStart k cls cycles)

/-- MACE_TEST_DONE (R457): A test's result hash is compared, and suspect slices are classified. -/
def execMaceTestDone (k : Fin 16) (results : List Byte) (expected : List Byte) (last : Bool) (s : State) :
    Host.Outcome State Fault Refusal :=
  .next ((s.maceDone k results expected last).afterLoss s)

/-- REPAIR_DONE (R460): A damaged piece is re-fetched from a source, written back and the failed slots re-armed. -/
def execRepairDone (n : Nat) (answers : List (Option (List Byte))) (s : State) : Host.Outcome State Fault Refusal :=
  formed (wfAnswers answers) "pieces" ((s.repairDone n answers).afterLoss s)

/-- REPAIR_WAIT (R461): A repair not done within WAIT_US is reported as WAITING. -/
def execRepairWait (n : Nat) (s : State) : Host.Outcome State Fault Refusal :=
  .next (s.repairWait n)

/-- DIGEST_UNIT_DONE (R462): A unit's background digest is written and compared with its reference. -/
def execDigestUnitDone (r : Fin 64) (s : State) : Host.Outcome State Fault Refusal :=
  .next ((s.digestDone r).afterLoss s)

end Sys2Proof.Machine
end

