-- ==== Sys2Proof/Machine/CmdMemory.lean ====
section
/-! DEFINITION. The meanings of the commands of the memory tiers and row operations (ch. 10-12). -/

namespace Sys2Proof.Machine

/-- STACK_READ_DONE (R257): A stack sector read is decoded as clean, corrected or uncorrectable. -/
def execStackReadDone (addr : Nat) (flips : List (Nat × Byte)) (s : State) : Host.Outcome State Fault Refusal :=
  formed (wfFlips flips) "symbol errors" ((s.stackReadDone addr flips).afterLoss s)

/-- CMD_PARITY_ALERT (R259): A stack raises its alert line, and the controller settles, precharges and replays the commands from
its history. -/
def execCmdParityAlert (t : Fin 12) (ch : Fin 128) (s : State) : Host.Outcome State Fault Refusal :=
  .next ((s.parityAlert t ch).afterLoss s)

/-- REFRESH_DUE (R261): A bank's refresh interval passes and its refresh debt grows or a refresh is performed. -/
def execRefreshDue (t : Fin 12) (ch : Fin 128) (bank : Fin 32) (n : Fin 17) (s : State) :
    Host.Outcome State Fault Refusal :=
  .next (s.refreshDue t ch bank n)

/-- SCRUB_READ (R260): Patrol scrub reads the next sector of a channel. -/
def execScrubRead (t : Fin 12) (ch : Fin 128) (s : State) : Host.Outcome State Fault Refusal :=
  .next ((s.scrubRead t ch).afterLoss s)

/-- THERMAL_REPORT (R262): A stack temperature report is compared with the thermal thresholds. -/
def execThermalReport (t : Fin 12) (temp : Int) (inner : Nat) (s : State) : Host.Outcome State Fault Refusal :=
  .next ((s.thermalReport t temp inner).afterLoss s)

/-- THERMAL_REPORT_MISS (R264): A stack that misses 8 consecutive reports is treated as at 105 °C. -/
def execThermalReportMiss (t : Fin 12) (s : State) : Host.Outcome State Fault Refusal :=
  .next ((s.thermalMiss t).afterLoss s)

/-- WINDOW_COMMIT (R244): A write of STK_SPR_CFG with EN = 1 checks and commits a spreading window. -/
def execWindowCommit (dom : Fin 4) (v : Word) (s : State) : Host.Outcome State Fault Refusal :=
  .next (s.regWrite dom (Pg.stkCommon + 0x110) (setBits v 0 1 1))

/-- WINDOW_DISABLE (R245): A write that only clears EN disables a spreading window for transfers issued afterwards. -/
def execWindowDisable (dom : Fin 4) (s : State) : Host.Outcome State Fault Refusal :=
  .next (s.regWrite dom (Pg.stkCommon + 0x110) (setBits s.selectedWindow.cfg 0 1 0))

/-- ROWSEQ_GO (R276): ROWQ_CTRL.GO starts a row-operation sequence, checking each entry before any of its rows start. -/
def execRowseqGo (dom : Fin 4) (d : Fin 4) (rq : Fin 4) (v : Word) (s : State) : Host.Outcome State Fault Refusal :=
  .next (s.regWrite dom (rowqCtrl d rq) (setBits v 63 1 1))

/-- ROWSEQ_ABORT (R277): ROWQ_CTRL.ABORT dispatches nothing further and ends the sequence with SUPERSEDED. -/
def execRowseqAbort (dom : Fin 4) (d : Fin 4) (rq : Fin 4) (s : State) : Host.Outcome State Fault Refusal :=
  .next (s.regWrite dom (rowqCtrl d rq) (word (2 ^ 61)))

/-- ROW_INIT (R269): A row is filled with a pattern sector and sealed. -/
def execRowInit (d : Fin 4) (rq : Fin 4) (s : State) : Host.Outcome State Fault Refusal :=
  .next ((s.rowDispatch d rq .init).afterLoss s)

/-- ROW_COPY (R269): A row is copied within the bank or the channel and keeps its source's seal state. -/
def execRowCopy (d : Fin 4) (rq : Fin 4) (s : State) : Host.Outcome State Fault Refusal :=
  .next ((s.rowDispatch d rq .copy).afterLoss s)

/-- ROW_AND (R269): Two rows are ANDed into a stale destination. -/
def execRowAnd (d : Fin 4) (rq : Fin 4) (s : State) : Host.Outcome State Fault Refusal :=
  .next ((s.rowDispatch d rq .and).afterLoss s)

/-- ROW_OR (R269): Two rows are ORed into a stale destination. -/
def execRowOr (d : Fin 4) (rq : Fin 4) (s : State) : Host.Outcome State Fault Refusal :=
  .next ((s.rowDispatch d rq .or).afterLoss s)

/-- ROW_XOR (R269): Two rows are XORed, and the result stays sealed if both sources are. -/
def execRowXor (d : Fin 4) (rq : Fin 4) (s : State) : Host.Outcome State Fault Refusal :=
  .next ((s.rowDispatch d rq .xor).afterLoss s)

/-- ROW_NOT (R269): A row is inverted into a stale destination. -/
def execRowNot (d : Fin 4) (rq : Fin 4) (s : State) : Host.Outcome State Fault Refusal :=
  .next ((s.rowDispatch d rq .not).afterLoss s)

/-- RESEAL (R274): A stale row's check bytes are recomputed and the row is sealed. -/
def execReseal (d : Fin 4) (rq : Fin 4) (s : State) : Host.Outcome State Fault Refusal :=
  .next ((s.rowDispatch d rq .reseal).afterLoss s)

/-- ROW_OP_COMPLETE (R277): A row operation ends, and the sequence advances, or completes and signals, or fails. -/
def execRowOpComplete (d : Fin 4) (rq : Fin 4) (s : State) : Host.Outcome State Fault Refusal :=
  .next ((s.rowComplete d rq).afterLoss s)

/-- BULK_READ_DONE (R287): A bulk sector read is decoded with its address-folded check bytes. -/
def execBulkReadDone (addr : Nat) (errors : ReadErrors) (s : State) :
    Host.Outcome State Fault Refusal :=
  formed (wfFlips errors.flips) "symbol errors" ((s.bulkReadDone addr errors.flips errors.wrong).afterLoss s)

/-- BULK_SCRUB_READ (R287): Bulk patrol scrub reads the next sector. -/
def execBulkScrubRead (s : State) : Host.Outcome State Fault Refusal :=
  .next (s.bulkScrub.afterLoss s)

/-- MR4_POLL (R289): Every 16 µs MR4 of each package is read and the refresh rate is adjusted. -/
def execMr4Poll (pkg : Fin 16) (report : Option (Fin 8 × Bool)) (s : State) : Host.Outcome State Fault Refusal :=
  .next ((s.mr4Poll pkg (report.map fun x => (x.1.val, x.2))).afterLoss s)

/-- PLACEMENT_EPOCH (R293): Each epoch the placement loop swaps hot bulk units with cold stack units and halves every count. -/
def execPlacementEpoch (s : State) : Host.Outcome State Fault Refusal :=
  .next (s.placementEpoch)

/-- SWAP_PIECE_DONE (R295): A 64 KiB piece of a swap is exchanged, the cursor advances and held accesses go on. -/
def execSwapPieceDone (s : State) : Host.Outcome State Fault Refusal :=
  .next (s.swapPiece.afterLoss s)

/-- PIN_WRITE (R297): A write of PIN in PLD_UNIT pins a unit, queueing a swap if needed. -/
def execPinWrite (dom : Fin 4) (d : Fin 4) (v : Word) (s : State) : Host.Outcome State Fault Refusal :=
  .next (s.regWrite dom (Pg.bulk + 0x808 + 0x80 * d.val) v)

/-- SPILL_COPY_DONE (R298): A page copy to or from the bulk pool completes and waits for its switch at stage 0. -/
def execSpillCopyDone (s : State) : Host.Outcome State Fault Refusal :=
  .next (s.copyDone.afterLoss s)

/-- RETENTION_SWEEP (R302): Every 1 ms retained entries whose expiry CT has passed are freed. -/
def execRetentionSweep (s : State) : Host.Outcome State Fault Refusal :=
  .next (s.retentionSweep.afterLoss s)

/-- BULK_TRAINING_LOST (R289): A bulk channel loses its training state, and the bulk tier is declared failed under R290. -/
def execBulkTrainingLost (ch : Fin 128) (s : State) : Host.Outcome State Fault Refusal :=
  .next ((s.bulkTrainingLost ch).afterLoss s)

end Sys2Proof.Machine
end

