-- ==== Sys2Proof/Machine/CmdModule.lean ====
section
/-! DEFINITION. The meanings of the commands of reset, boot, supply, clock, die temperature and board management (ch. 20-22). -/

namespace Sys2Proof.Machine

/-- RESET_N_LOW (R501): RESET_N held low for eight samples resets the module. -/
def execResetNLow (s : State) : Host.Outcome State Fault Refusal :=
  .next (s.resetPin)

/-- RESET_RELEASE (R475): The internal reset is released, SLOT_ID is sampled and the ROM chooses, verifies and starts the
firmware. -/
def execResetRelease (straps : Fin 64) (hangs : Bool) (s : State) : Host.Outcome State Fault Refusal :=
  .next (s.resetRelease straps hangs)

/-- ROM_BOOT_TIMEOUT (R467): The Anise cores are not started within 200 ms and the boot stops in ROM FAULT. -/
def execRomBootTimeout (s : State) : Host.Outcome State Fault Refusal :=
  .next (s.romTimeout)

/-- BOOT_STEP_DONE (R476): A timed boot step completes and the next begins. -/
def execBootStepDone (lanes : List (Fin 12 × Fin 128 × List Nat)) (bulkBad : Option Nat) (slices : BitVec 16) (s : State) :
    Host.Outcome State Fault Refusal :=
  .next ((s.bootStep { lanes := lanes.map fun x => (x.1.val, x.2.1.val, x.2.2), bulkBad := bulkBad, slices := slices.toNat }).afterLoss s)

/-- BOOT_STEP_TIMEOUT (R476): A boot step exceeds its limit and the module stops in firmware FAULT. -/
def execBootStepTimeout (s : State) : Host.Outcome State Fault Refusal :=
  .next (s.bootTimeout)

/-- WATCHDOG_EXPIRE (R466): AN_BEAT not advancing for 10 ms while armed resets the module. -/
def execWatchdogExpire (s : State) : Host.Outcome State Fault Refusal :=
  .next (s.watchdog)

/-- POWER_UP (R501): The input enters 40–60 V, the rails come up and PWR_GOOD goes high. -/
def execPowerUp (s : State) : Host.Outcome State Fault Refusal :=
  .next (s.powerUp)

/-- INPUT_FAULT (R499): Input below 38 V for 100 µs or above 62 V drops PWR_GOOD, resets and turns the rails off. -/
def execInputFault (s : State) : Host.Outcome State Fault Refusal :=
  .next (s.inputFault)

/-- REFCLK_LOSS (R504): Loss of REFCLK for 2 µs or of its loop lock is fatal. -/
def execRefclkLoss (s : State) : Host.Outcome State Fault Refusal :=
  .next (s.refclkLoss.afterLoss s)

/-- POWER_SAMPLE (R491): Every 1 µs input power is sampled and the fast path checked. -/
def execPowerSample (watts : Nat) (vin : Nat) (s : State) : Host.Outcome State Fault Refusal :=
  .next (s.powerSample watts vin)

/-- EMERG_HOLD_END (R491): After 100 µs the fast path releases and the normal loop resumes. -/
def execEmergHoldEnd (s : State) : Host.Outcome State Fault Refusal :=
  .next (s.emergEnd)

/-- LOOP_EVALUATE (R490): Every 50 µs the power-cap and die thermal loops adjust PSTEP, PLEVEL and TSTEP. -/
def execLoopEvaluate (s : State) : Host.Outcome State Fault Refusal :=
  .next (s.loopEvaluate)

/-- CLOCK_STEP_CHANGE (R486): The step in force changes, ramping the supply and switching the clock within 2 µs. -/
def execClockStepChange (s : State) : Host.Outcome State Fault Refusal :=
  .next (s.clockChange)

/-- DIE_SENSOR_REPORT (R492): A die sensor reports and the critical and fatal thresholds are checked. -/
def execDieSensorReport (sensor : Fin 24) (temp : Int) (s : State) : Host.Outcome State Fault Refusal :=
  .next ((s.dieReport sensor temp).afterLoss s)

/-- DIE_SENSOR_MISS (R492): A sensor that misses 8 consecutive reports is fatal. -/
def execDieSensorMiss (sensor : Fin 24) (s : State) : Host.Outcome State Fault Refusal :=
  .next ((s.dieMiss sensor).afterLoss s)

/-- MOD_STATE (R505): SMBus read of the module state, reset cause and fault status. -/
def execModState (pec : Bool) (s : State) : Host.Outcome State Fault Refusal :=
  .next (s.modState pec)

/-- MOD_SERIAL (R505): SMBus block read of the module serial. -/
def execModSerial (pec : Bool) (s : State) : Host.Outcome State Fault Refusal :=
  .next (s.modSerial pec)

/-- INPUT_V (R505): SMBus read of the input voltage. -/
def execInputV (pec : Bool) (s : State) : Host.Outcome State Fault Refusal :=
  .next (s.inputV pec)

/-- INPUT_P (R505): SMBus read of the mean input power. -/
def execInputP (pec : Bool) (s : State) : Host.Outcome State Fault Refusal :=
  .next (s.inputP pec)

/-- TEMP_DIE (R505): SMBus read of the hottest die report. -/
def execTempDie (pec : Bool) (s : State) : Host.Outcome State Fault Refusal :=
  .next (s.tempDie pec)

/-- TEMP_COOL (R505): SMBus read of the coolant outlet temperature. -/
def execTempCool (pec : Bool) (reading : Option Int) (s : State) : Host.Outcome State Fault Refusal :=
  .next (s.tempCool pec reading)

/-- SLOT (R505): SMBus read of the sampled SLOT_ID. -/
def execSmbSlot (pec : Bool) (s : State) : Host.Outcome State Fault Refusal :=
  .next (s.smbSlot pec)

/-- FLASH_ADDR (R505): SMBus write of the flash byte address. -/
def execFlashAddr (pec : Bool) (addr : BitVec 32) (s : State) : Host.Outcome State Fault Refusal :=
  .next (s.flashAddrWrite pec addr.toNat)

/-- FLASH_DATA_READ (R506): SMBus read of 32 flash bytes, advancing the address. -/
def execFlashDataRead (pec : Bool) (s : State) : Host.Outcome State Fault Refusal :=
  .next (s.flashRead pec)

/-- FLASH_DATA_WRITE (R506): SMBus write of 32 flash bytes within the image area while in reset. -/
def execFlashDataWrite (pec : Bool) (data : List Byte) (s : State) : Host.Outcome State Fault Refusal :=
  formed (wfFlashData data) "flash data" (s.flashWrite pec data)

/-- FLASH_ERASE (R506): SMBus erase of a 64 KiB sector within the image area while in reset. -/
def execFlashErase (pec : Bool) (value : Byte) (s : State) : Host.Outcome State Fault Refusal :=
  .next (s.flashErase pec value)

/-- FLASH_STAT (R505): SMBus read of the flash busy and failure bits. -/
def execFlashStat (pec : Bool) (s : State) : Host.Outcome State Fault Refusal :=
  .next (s.flashStat pec)

/-- FLASH_OP_DONE (R506): A flash write or erase finishes and busy clears. -/
def execFlashOpDone (fails : Bool) (s : State) : Host.Outcome State Fault Refusal :=
  .next (s.flashDone fails)

end Sys2Proof.Machine
end

