-- ==== Sys2Proof/Machine/CmdNode.lean ====
section
/-! DEFINITION. The meanings of the commands of Dorondlink ports and their transactions (ch. 17). -/

namespace Sys2Proof.Machine

/-- PORT_ENABLE (R406): Setting DLK_CTRL.EN starts port bring-up. -/
def execPortEnable (dom : Fin 4) (i : Fin 4) (v : Word) (s : State) : Host.Outcome State Fault Refusal :=
  .next (s.regWrite dom (Pg.port i + 0x100) (setBits (setBits v 0 1 1) 2 1 0))

/-- PORT_DISABLE (R406): Clearing DLK_CTRL.EN turns the port OFF. -/
def execPortDisable (dom : Fin 4) (i : Fin 4) (v : Word) (s : State) : Host.Outcome State Fault Refusal :=
  .next (s.regWrite dom (Pg.port i + 0x100) (setBits v 0 1 0))

/-- PORT_RETRAIN (R408): Writing RETRAIN restarts port training. -/
def execPortRetrain (dom : Fin 4) (i : Fin 4) (v : Word) (s : State) : Host.Outcome State Fault Refusal :=
  .next (s.regWrite dom (Pg.port i + 0x100) (setBits (setBits v 0 1 1) 2 1 1))

/-- PORT_TRAIN_DONE (R407): Lock, IDENT and delay measurement complete and the port goes UP. -/
def execPortTrainDone (i : Fin 4) (s : State) : Host.Outcome State Fault Refusal :=
  .next (s.portTrainDone i)

/-- PORT_TRAIN_FAIL (R407): Training exceeding TRAIN_MS, or a wrong version, leaves the port FAILED. -/
def execPortTrainFail (i : Fin 4) (s : State) : Host.Outcome State Fault Refusal :=
  .next (s.portTrainFail i)

/-- PORT_DOWN (R408): Lost decode, 50 µs without a valid frame, or a replay limit puts the port DOWN. -/
def execPortDown (i : Fin 4) (lock : Bool) (s : State) : Host.Outcome State Fault Refusal :=
  .next (s.portDown i lock)

/-- PORT_PING_SEND (R407): Every 1 ms an UP port sends a PING. -/
def execPortPingSend (i : Fin 4) (s : State) : Host.Outcome State Fault Refusal :=
  .next (s.portPingSend i)

/-- PORT_FRAME_RECEIVE (R409): A Dorondlink frame is accepted in sequence or replayed, and its credits are taken. -/
def execPortFrameReceive (i : Fin 4) (frame : List Byte) (decoded : Bool) (fixed : Nat) (s : State) :
    Host.Outcome State Fault Refusal :=
  formed (wfPortFrame frame) "port frame" (s.frameReceive i frame decoded fixed)

/-- REG_RD (R411): A node register read is checked against the domain's view and answered. -/
def execRegRd (i : Fin 4) (req : List Byte) (s : State) : Host.Outcome State Fault Refusal :=
  formed (wfRequest req) "transaction" (s.nodeRequest i 1 req)

/-- REG_WR (R411): A node register write is checked and applied as a register access. -/
def execRegWr (i : Fin 4) (req : List Byte) (s : State) : Host.Outcome State Fault Refusal :=
  formed (wfRequest req) "transaction" (s.nodeRequest i 2 req)

/-- MEM_RD (R411): A memory read is checked against the domain's regions and answered with data. -/
def execMemRd (i : Fin 4) (req : List Byte) (s : State) : Host.Outcome State Fault Refusal :=
  formed (wfRequest req) "transaction" (s.nodeRequest i 3 req)

/-- MEM_WR (R411): A memory write is checked and applied in arrival order, or relayed when DST is another module. -/
def execMemWr (i : Fin 4) (req : List Byte) (s : State) : Host.Outcome State Fault Refusal :=
  formed (wfRequest req) "transaction" (s.nodeRequest i 4 req)

/-- PLAN_WR (R421): Plan entries are written to a FIXED leader's plan ring and its tail advanced. -/
def execPlanWr (i : Fin 4) (req : List Byte) (s : State) : Host.Outcome State Fault Refusal :=
  formed (wfRequest req) "transaction" (s.nodeRequest i 5 req)

/-- RSP_RECEIVE (R411): A node RSP completes the module's own request with its tag. -/
def execRspReceive (i : Fin 4) (req : List Byte) (s : State) : Host.Outcome State Fault Refusal :=
  formed (wfRequest req) "transaction" ((s.rspReceive i req).afterLoss s)

/-- PORT_AUTO_RETRAIN (R408): With AUTO_RETRAIN set, a Dorondlink port starts training again 1 ms after going DOWN. -/
def execPortAutoRetrain (i : Fin 4) (s : State) : Host.Outcome State Fault Refusal :=
  .next (s.portAutoRetrain i)

end Sys2Proof.Machine
end

