-- ==== Sys2Proof/Machine/CmdPartition.lean ====
section
/-! DEFINITION. The meanings of the commands of partitions, regions and domains (ch. 15). -/

namespace Sys2Proof.Machine

/-- PARTITION_CONFIG (R364): CONFIG moves a FREE partition to CONFIG. -/
def execPartitionConfig (dom : Fin 4) (p : Fin 16) (s : State) : Host.Outcome State Fault Refusal :=
  .next (s.regWrite dom (Pg.pt p + 0x100) 1)

/-- ACTIVATE (R364): The activation checks are made and the partition becomes ACTIVE or stays in CONFIG with a cause. -/
def execActivate (dom : Fin 4) (p : Fin 16) (s : State) : Host.Outcome State Fault Refusal :=
  .next (s.regWrite dom (Pg.pt p + 0x100) 2)

/-- QUIESCE (R370): QUIESCE stops submissions, disables the slot and begins bringing the partition to rest. -/
def execQuiesce (dom : Fin 4) (p : Fin 16) (s : State) : Host.Outcome State Fault Refusal :=
  .next (s.regWrite dom (Pg.pt p + 0x100) 3)

/-- QUIESCE_COMPLETE (R370): With its step committed, its work done and its records written, the partition becomes QUIESCED. -/
def execQuiesceComplete (p : Fin 16) (s : State) : Host.Outcome State Fault Refusal :=
  .next ((s.quiesceComplete p).afterLoss s)

/-- QUIESCE_TIMEOUT (R371): A step that has not committed within DM_QLIMIT is abandoned and quiescing continues. -/
def execQuiesceTimeout (p : Fin 16) (s : State) : Host.Outcome State Fault Refusal :=
  .next ((s.quiesceTimeout p).afterLoss s)

/-- WEDGE_TIMEOUT (R373): Records still owed DM_QLIMIT after the work ended make the domain WEDGED. -/
def execWedgeTimeout (p : Fin 16) (s : State) : Host.Outcome State Fault Refusal :=
  .next (s.wedgeTimeout p)

/-- PARTITION_RESUME (R370): RESUME re-enables the slot and returns a QUIESCED partition to ACTIVE. -/
def execPartitionResume (dom : Fin 4) (p : Fin 16) (s : State) : Host.Outcome State Fault Refusal :=
  .next (s.regWrite dom (Pg.pt p + 0x100) 4)

/-- PARTITION_RELEASE (R372): RELEASE frees entries, resets slices and ranges, and starts scrubbing the partition's units. -/
def execPartitionRelease (dom : Fin 4) (p : Fin 16) (s : State) : Host.Outcome State Fault Refusal :=
  .next (s.regWrite dom (Pg.pt p + 0x100) 5)

/-- RELEASE_SCRUB_DONE (R372): PT_SCRUB reaches 0 and the partition becomes FREE. -/
def execReleaseScrubDone (p : Fin 16) (s : State) : Host.Outcome State Fault Refusal :=
  .next (s.scrubDone p)

/-- PT_SLICES_WRITE (R365): A write to PT_SLICES assigns slices, or adds one to an ACTIVE STANDARD partition at its next step. -/
def execPtSlicesWrite (dom : Fin 4) (p : Fin 16) (v : Word) (s : State) : Host.Outcome State Fault Refusal :=
  .next (s.regWrite dom (Pg.pt p + 0x110) v)

/-- REGION_COMMIT (R367): A write to RG_CFG checks and commits a region change with its staged range. -/
def execRegionCommit (dom : Fin 4) (v : Word) (s : State) : Host.Outcome State Fault Refusal :=
  .next (s.regWrite dom (Pg.sec + 0x810) v)

/-- DOMAIN_ATTACH (R374): Setting DM_CFG.EN attaches a domain and clears its events. -/
def execDomainAttach (dom : Fin 4) (d : Fin 4) (s : State) : Host.Outcome State Fault Refusal :=
  .next (s.regWrite dom (Pg.dm d + 0x100) 1)

/-- DOMAIN_DETACH (R374): Clearing DM_CFG.EN detaches a domain, disabling its rings and discarding its event records. -/
def execDomainDetach (dom : Fin 4) (d : Fin 4) (s : State) : Host.Outcome State Fault Refusal :=
  .next (s.regWrite dom (Pg.dm d + 0x100) 0)

end Sys2Proof.Machine
end

