-- ==== Sys2Proof/Machine/CmdQuant.lean ====
section
/-! DEFINITION. The meanings of the commands of the quantisation units (ch. 7). -/

namespace Sys2Proof.Machine

/-- QRUN (R191): A profile is applied to an operand, or reversed with DEQ. -/
def execQrun (k : Fin 16) (read : PmRead) (s : State) : Host.Outcome State Fault Refusal :=
  .next ((s.issue k read .qrun).afterLoss s)

/-- QHAD (R192): A Hadamard rotation of size 2^k is applied to an operand. -/
def execQhad (k : Fin 16) (read : PmRead) (s : State) : Host.Outcome State Fault Refusal :=
  .next ((s.issue k read .qhad).afterLoss s)

/-- QSTEP (R186): A slot with ADV = 1 is advanced, optionally pushing an external value. -/
def execQstep (k : Fin 16) (read : PmRead) (s : State) : Host.Outcome State Fault Refusal :=
  .next ((s.issue k read .qstep).afterLoss s)

/-- QLOAD (R515): Profile records are read and checked, and then committed all together or not at all. -/
def execQload (k : Fin 16) (read : PmRead) (s : State) : Host.Outcome State Fault Refusal :=
  .next ((s.issue k read .qload).afterLoss s)

/-- PROFILE_COMMIT (R183): A write to QNT_PROF0 checks and commits the staged profile and resets its cursors. -/
def execProfileCommit (dom : Fin 4) (k : Fin 16) (v : Word) (s : State) : Host.Outcome State Fault Refusal :=
  .next (s.regWrite dom (Pg.qnt k + 0x110) v)

/-- QNT_SLOT_HIST_WRITE (R184): A write to QNT_SLOT_HIST replaces or appends a history entry. -/
def execQntSlotHistWrite (dom : Fin 4) (k : Fin 16) (v : Word) (s : State) : Host.Outcome State Fault Refusal :=
  .next (s.regWrite dom (Pg.qnt k + 0x160) v)

/-- TRAP_SATURATE (R188): A held drain is resolved by converting with saturation. -/
def execTrapSaturate (dom : Fin 4) (k : Fin 16) (a : Fin 4) (s : State) : Host.Outcome State Fault Refusal :=
  .next (s.regWrite dom (trapKey k) (trapWord a 0 0))

/-- TRAP_RESCALE (R188): A held drain is resolved by re-deriving the scale from the tile. -/
def execTrapRescale (dom : Fin 4) (k : Fin 16) (a : Fin 4) (s : State) : Host.Outcome State Fault Refusal :=
  .next (s.regWrite dom (trapKey k) (trapWord a 1 0))

/-- TRAP_RETRY (R188): A held drain is converted with the supplied σ and marked RETRIED. -/
def execTrapRetry (dom : Fin 4) (k : Fin 16) (a : Fin 4) (sigma : BitVec 32) (s : State) : Host.Outcome State Fault Refusal :=
  .next (s.regWrite dom (trapKey k) (trapWord a 3 sigma.toNat))

/-- TRAP_FAIL (R188): A held drain completes with SATURATED, signals nothing and halts its queue. -/
def execTrapFail (dom : Fin 4) (k : Fin 16) (a : Fin 4) (s : State) : Host.Outcome State Fault Refusal :=
  .next (s.regWrite dom (trapKey k) (trapWord a 2 0))

/-- TRAP_TIMEOUT (R188): A trap not resolved within QNT_TRAP_LIMIT resolves as FAIL. -/
def execTrapTimeout (k : Fin 16) (a : Fin 4) (s : State) : Host.Outcome State Fault Refusal :=
  .next (s.trapTimeout k a)

end Sys2Proof.Machine
end

