-- ==== Sys2Proof/Machine/CmdRegs.lean ====
section
/-! DEFINITION. The meanings of the commands of register writes with no behaviour of their own, event registers and the scrub of hardened registers (ch. 1, 18). -/

namespace Sys2Proof.Machine

/-- REG_WRITE (R437): A register write with no behaviour of its own stores its value after the checks of its page. -/
def execRegWrite (dom : Fin 4) (addr : Nat) (v : Word) (s : State) : Host.Outcome State Fault Refusal :=
  .next (s.regWrite dom addr v)

/-- EVT_STAT_CLEAR (R431): A W1C write clears event bits, and a hardware raise in the same cycle wins. -/
def execEvtStatClear (dom : Fin 4) (page : Nat) (v : Word) (s : State) : Host.Outcome State Fault Refusal :=
  formed (wfPage page) "page" (s.regWrite dom (page + Off.evtStat) v)

/-- EVT_COUNTER_CLEAR (R431): A write to EVT_CNT_CLR zeroes the named occurrence counters. -/
def execEvtCounterClear (dom : Fin 4) (page : Nat) (v : Word) (s : State) : Host.Outcome State Fault Refusal :=
  formed (wfPage page) "page" (s.regWrite dom (page + Off.evtCntClr) v)

/-- HARDEN_SCRUB (R434): Every 1 µs the three copies of each RWH register are compared and a single differing copy is rewritten. -/
def execHardenScrub (upsets : List (Nat × Nat × Word)) (s : State) : Host.Outcome State Fault Refusal :=
  .next ((s.hardenScrub upsets).afterLoss s)

end Sys2Proof.Machine
end

