-- ==== Sys2Proof/Machine/CmdSequencer.lean ====
section
/-! DEFINITION. The meanings of the commands of the sequencers and their CTRL instructions (ch. 3). -/

namespace Sys2Proof.Machine

/-- NOP (R84): The CTRL instruction NOP issues and does nothing. -/
def execNop (k : Fin 16) (read : PmRead) (s : State) : Host.Outcome State Fault Refusal :=
  .next (s.issue k read .nop)

/-- END (R95): The program ends and the next start may be dequeued. -/
def execEndProg (k : Fin 16) (read : PmRead) (s : State) : Host.Outcome State Fault Refusal :=
  .next (s.issue k read .fin)

/-- JUMP (R84): Issue continues at the target index. -/
def execJump (k : Fin 16) (read : PmRead) (s : State) : Host.Outcome State Fault Refusal :=
  .next (s.issue k read .jump)

/-- BRANCH (R87): A source register is compared with the immediate and issue continues at the target if the condition holds. -/
def execBranch (k : Fin 16) (read : PmRead) (s : State) : Host.Outcome State Fault Refusal :=
  .next (s.issue k read .branch)

/-- LOOP (R84): An index register is decremented and issue loops while it is nonzero. -/
def execLoop (k : Fin 16) (read : PmRead) (s : State) : Host.Outcome State Fault Refusal :=
  .next (s.issue k read .loop)

/-- SETIX (R84): An index register is set to the immediate. -/
def execSetix (k : Fin 16) (read : PmRead) (s : State) : Host.Outcome State Fault Refusal :=
  .next (s.issue k read .setix)

/-- ADDIX (R84): The immediate is added to an index register modulo 2^64. -/
def execAddix (k : Fin 16) (read : PmRead) (s : State) : Host.Outcome State Fault Refusal :=
  .next (s.issue k read .addix)

/-- WAIT (R88): A wait on a counter holds the sequencer, or with SCOPE = 1 is placed in the named engine queue. -/
def execWait (k : Fin 16) (read : PmRead) (s : State) : Host.Outcome State Fault Refusal :=
  .next (s.issue k read .wait)

/-- WAIT_TAKE (R67): As WAIT, and the value is then taken from the counter in the same cycle. -/
def execWaitTake (k : Fin 16) (read : PmRead) (s : State) : Host.Outcome State Fault Refusal :=
  .next (s.issue k read .waitTake)

/-- SEQ_WAIT_RESUME (R88): A held wait passes once its counter reaches the value, and its sequencer or engine continues. -/
def execSeqWaitResume (k : Fin 16) (engine : Option (Fin 9)) (s : State) : Host.Outcome State Fault Refusal :=
  .next (match engine with
    | none => s.waitResume k
    | some q => (s.scopedResume k q).afterLoss s)

/-- SIGNAL (R67): A counter is signalled at issue, saturating at 0xFFFF_FFFF. -/
def execSignal (k : Fin 16) (read : PmRead) (s : State) : Host.Outcome State Fault Refusal :=
  .next (s.issue k read .signal)

/-- SETCTR (R84): A counter is set at issue. -/
def execSetctr (k : Fin 16) (read : PmRead) (s : State) : Host.Outcome State Fault Refusal :=
  .next (s.issue k read .setctr)

/-- START (R94): A program start is posted to a slice of the partition, holding the sequencer while the target queue is full. -/
def execStart (k : Fin 16) (read : PmRead) (s : State) : Host.Outcome State Fault Refusal :=
  .next (s.issue k read .start)

/-- START_HOLD_RELEASE (R94): An entry frees in the target start queue and the held START proceeds. -/
def execStartHoldRelease (k : Fin 16) (s : State) : Host.Outcome State Fault Refusal :=
  .next (s.startRelease k)

/-- START_STALL (R94): A START held for more than 4,096 arithmetic cycles is reported. -/
def execStartStall (k : Fin 16) (s : State) : Host.Outcome State Fault Refusal :=
  .next (s.startStall k)

/-- RELEASE (R83): Tiles of a stream buffer region are returned to the producer's credits. -/
def execRelease (k : Fin 16) (read : PmRead) (s : State) : Host.Outcome State Fault Refusal :=
  .next ((s.issue k read .release).afterLoss s)

/-- FENCE (R84): The sequencer waits until every named queue is empty and its operations complete. -/
def execFence (k : Fin 16) (read : PmRead) (s : State) : Host.Outcome State Fault Refusal :=
  .next (s.issue k read .fence)

/-- FENCE_RESUME (R84): The fenced queues have emptied and issue continues. -/
def execFenceResume (k : Fin 16) (s : State) : Host.Outcome State Fault Refusal :=
  .next (s.fenceResume k)

/-- MOVS (R90): A summary register is copied into an index register. -/
def execMovs (k : Fin 16) (read : PmRead) (s : State) : Host.Outcome State Fault Refusal :=
  .next (s.issue k read .movs)

/-- ISSUE_RESUME (R96): A full engine queue gains an entry and the instruction that was held issues. -/
def execIssueResume (k : Fin 16) (s : State) : Host.Outcome State Fault Refusal :=
  .next ((s.issueResume k).afterLoss s)

/-- PROGRAM_START (R93): An idle sequencer dequeues a start and begins issuing with IX0 set to the argument. -/
def execProgramStart (k : Fin 16) (s : State) : Host.Outcome State Fault Refusal :=
  .next (s.programStart k)

/-- SEQ_START_WRITE (R94): A write to SEQ_START queues a program start, or completes with ACCESS if it cannot. -/
def execSeqStartWrite (dom : Fin 4) (k : Fin 16) (v : Word) (s : State) : Host.Outcome State Fault Refusal :=
  .next (s.regWrite dom (Pg.seq k + 0x110) v)

/-- PM_LOAD (R92): SEQ_PM_CTRL.GO requests a program-memory load and stops further dequeuing of starts. -/
def execPmLoad (dom : Fin 4) (k : Fin 16) (v : Word) (s : State) : Host.Outcome State Fault Refusal :=
  .next (s.regWrite dom (pmCtrl k) (setBits v 63 1 1))

/-- PM_LOAD_START (R92): Once no instruction of the slice can issue, the pending load begins. -/
def execPmLoadStart (k : Fin 16) (s : State) : Host.Outcome State Fault Refusal :=
  .next (s.pmLoadStart k)

/-- PM_LOAD_DONE (R92): The program-memory load ends with its status and the held starts may run. -/
def execPmLoadDone (k : Fin 16) (s : State) : Host.Outcome State Fault Refusal :=
  .next ((s.pmLoadDone k).afterLoss s)

/-- SEQ_ABORT (R99): Issue stops, unstarted queue entries are discarded, halted queues are cleared and the start queue is emptied. -/
def execSeqAbort (dom : Fin 4) (k : Fin 16) (v : Word) (s : State) : Host.Outcome State Fault Refusal :=
  .next (s.regWrite dom (Pg.seq k + 0x100) (setBits v 0 1 1))

/-- ABORT_COMPLETE (R99): The operations already started complete and the sequencer goes from ABORTING to IDLE. -/
def execAbortComplete (k : Fin 16) (s : State) : Host.Outcome State Fault Refusal :=
  .next (s.abortDone k)

/-- ENGINE_OP_COMPLETE (R89): An engine operation completes and signals its counter when its results are visible, in queue order. -/
def execEngineOpComplete (k : Fin 16) (q : Fin 9) (s : State) : Host.Outcome State Fault Refusal :=
  .next ((s.opComplete k q).afterLoss s)

/-- STREAM_REGION_CONFIG (R82): A write to WS_SB_CFG is checked and then enables, changes or disables a stream buffer region. -/
def execStreamRegionConfig (dom : Fin 4) (k : Fin 16) (v : Word) (s : State) : Host.Outcome State Fault Refusal :=
  .next (s.regWrite dom (Pg.ws k + 0x108) v)

end Sys2Proof.Machine
end

