-- ==== Sys2Proof/Machine/CmdServing.lean ====
section
/-! DEFINITION. The meanings of the commands of requests, batches, sampling and rings (ch. 13, 14, 17, 19). -/

namespace Sys2Proof.Machine

/-- SUBMIT (R310): A FREE entry is filled from the command, checked and made QUEUED. -/
def execSubmit (d : Fin 4) (cmd : List Byte) (s : State) : Host.Outcome State Fault Refusal :=
  formed (wfCommand cmd) "ring command" ((s.commandOf 1 d cmd).afterLoss s)

/-- CANCEL (R311): A request is ended with SUPERSEDED, at once or at its batch's commit. -/
def execCancel (d : Fin 4) (cmd : List Byte) (s : State) : Host.Outcome State Fault Refusal :=
  formed (wfCommand cmd) "ring command" ((s.commandOf 2 d cmd).afterLoss s)

/-- RESUME (R315): A RETAINED request gains added tokens and returns to QUEUED. -/
def execResume (d : Fin 4) (cmd : List Byte) (s : State) : Host.Outcome State Fault Refusal :=
  formed (wfCommand cmd) "ring command" ((s.commandOf 3 d cmd).afterLoss s)

/-- REQUEST_RELEASE (R312): A RETAINED or FAILED entry frees its pages or husk slot and becomes FREE. -/
def execRequestRelease (d : Fin 4) (cmd : List Byte) (s : State) : Host.Outcome State Fault Refusal :=
  formed (wfCommand cmd) "ring command" ((s.commandOf 4 d cmd).afterLoss s)

/-- PFX_CREATE (R331): A prefix handle is made to hold a request's first n pages. -/
def execPfxCreate (d : Fin 4) (cmd : List Byte) (s : State) : Host.Outcome State Fault Refusal :=
  formed (wfCommand cmd) "ring command" ((s.commandOf 5 d cmd).afterLoss s)

/-- PFX_DROP (R331): A prefix handle's holder counts are lowered and the handle is freed. -/
def execPfxDrop (d : Fin 4) (cmd : List Byte) (s : State) : Host.Outcome State Fault Refusal :=
  formed (wfCommand cmd) "ring command" ((s.commandOf 6 d cmd).afterLoss s)

/-- CMD_NOP (R309): A NOP command completes with a CMD_DONE record. -/
def execCmdNop (d : Fin 4) (cmd : List Byte) (s : State) : Host.Outcome State Fault Refusal :=
  formed (wfCommand cmd) "ring command" ((s.commandOf 7 d cmd).afterLoss s)

/-- SQ_POLL_TIMER (R416): Every 2 µs while no slot of the domain runs, the submission-ring tail is read and commands applied. -/
def execSqPollTimer (d : Fin 4) (s : State) : Host.Outcome State Fault Refusal :=
  .next ((s.sqPollTimer d).afterLoss s)

/-- SQ_ENABLE (R416): Setting DQ_SQ_CTRL.EN checks the ring and restarts polling from the head. -/
def execSqEnable (dom : Fin 4) (d : Fin 4) (v : Word) (s : State) : Host.Outcome State Fault Refusal :=
  .next (s.regWrite dom (sqCtrl d) (setBits v 0 1 1))

/-- STAGE0 (R314): After the previous commit the serving unit switches copies, ends late entries, applies husk jobs, forms the
batch, writes the batch area and signals READY. -/
def execStage0 (p : Fin 16) (s : State) : Host.Outcome State Fault Refusal :=
  .next ((s.stage0 p).afterLoss s)

/-- PEPPER_MERGE (R341): When every sample row is complete, candidates are merged, penalised, sampled and drafts verified, and the
result table is written and signalled. -/
def execPepperMerge (p : Fin 16) (s : State) : Host.Outcome State Fault Refusal :=
  .next ((s.pepperMerge p).afterLoss s)

/-- VERDICT_WRITE (R450): On the FIN counter the integrity unit closes open sets, writes the verdict area and signals VCTR. -/
def execVerdictWrite (p : Fin 16) (s : State) : Host.Outcome State Fault Refusal :=
  .next (s.verdictWrite p)

/-- COMMIT (R329): In stage 9 the commit gate decides and each batch entry's results, stops and records are applied. -/
def execCommit (p : Fin 16) (s : State) : Host.Outcome State Fault Refusal :=
  .next (((s.commit p).quiesceGo p).afterLoss s)

/-- TOKEN_RECORD_WRITE (R356): A buffered token record is written to the token ring when it has room, with the producer count. -/
def execTokenRecordWrite (p : Fin 16) (s : State) : Host.Outcome State Fault Refusal :=
  .next (((s.tokenWrite p).quiesceGo p).afterLoss s)

/-- EVENT_RECORD_WRITE (R417): An event record is written to the domain's event ring when it has room, with the producer count. -/
def execEventRecordWrite (d : Fin 4) (s : State) : Host.Outcome State Fault Refusal :=
  .next (s.eventWrite d)

end Sys2Proof.Machine
end

