-- ==== Sys2Proof/Machine/CmdTime.lean ====
section
/-! DEFINITION. The meanings of the commands of cluster time (ch. 2). -/

namespace Sys2Proof.Machine

/-- BEACON_RECEIVE (R44): An accepted time beacon is corrected for link delay, the offset is slewed or stepped, and the time state
is updated. -/
def execBeaconReceive (src : Source) (frame : List Byte) (s : State) : Host.Outcome State Fault Refusal :=
  formed (wfSource src frame) "frame" (s.beaconReceive src frame)

/-- BEACON_MISS (R512): With no accepted beacon for 6,000 ticks, and for each further 4,000, one more miss is counted. -/
def execBeaconMiss (s : State) : Host.Outcome State Fault Refusal :=
  .next (s.beaconMiss)

/-- HOLDOVER_EXPIRE (R43): When HOLDOVER_LIMIT passes in HOLDOVER, the module enters UNLOCKED. -/
def execHoldoverExpire (s : State) : Host.Outcome State Fault Refusal :=
  .next (s.holdoverExpire)

/-- CAD_TIME_CTRL_WRITE (R513): A write of ROLE moves the module between NONE, HEAD and FOLLOWER and changes the beacon source. -/
def execCadTimeCtrlWrite (dom : Fin 4) (v : Word) (s : State) : Host.Outcome State Fault Refusal :=
  .next (s.regWrite dom timeCtrl v)

/-- UPSTREAM_CHANGE (R41): Within 10 µs of losing the upstream link, firmware chooses a new upstream link on a shortest path. -/
def execUpstreamChange (head : Fin 64) (s : State) : Host.Outcome State Fault Refusal :=
  .next (s.upstreamChange head)

end Sys2Proof.Machine
end

