-- ==== Sys2Proof/Machine/CmdTransfer.lean ====
section
/-! DEFINITION. The meanings of the commands of the transfer engines (ch. 9). -/

namespace Sys2Proof.Machine

/-- ARM (R220): An XFER instruction arms a queue slot with a descriptor in the working store. -/
def execArm (k : Fin 16) (read : PmRead) (s : State) : Host.Outcome State Fault Refusal :=
  .next ((s.issue k read .arm).afterLoss s)

/-- ARMD (R220): An XFER instruction arms a queue slot with a descriptor in device memory. -/
def execArmd (k : Fin 16) (read : PmRead) (s : State) : Host.Outcome State Fault Refusal :=
  .next ((s.issue k read .armd).afterLoss s)

/-- STOP (R228): An XFER instruction stops a slot after its issued blocks complete. -/
def execStop (k : Fin 16) (read : PmRead) (s : State) : Host.Outcome State Fault Refusal :=
  .next ((s.issue k read .stop).afterLoss s)

/-- XE_ARM_WRITE (R220): A write to XE_ARM arms the selected slot from device memory. -/
def execXeArmWrite (dom : Fin 4) (e : Fin 40) (v : Word) (s : State) : Host.Outcome State Fault Refusal :=
  .next (s.regWrite dom (Pg.xe e + 0x110) (setBits v 63 1 0))

/-- XE_STOP_WRITE (R228): A write to XE_ARM with STOP stops the selected slot. -/
def execXeStopWrite (dom : Fin 4) (e : Fin 40) (v : Word) (s : State) : Host.Outcome State Fault Refusal :=
  .next (s.regWrite dom (Pg.xe e + 0x110) (setBits v 63 1 1))

/-- TRANSFER_ISSUE (R224): A slot with credits, completion slots and pacing room issues its next transfer. -/
def execTransferIssue (e : Fin 40) (slot : Fin 64) (s : State) : Host.Outcome State Fault Refusal :=
  .next ((s.transferIssue e slot).afterLoss s)

/-- TRANSFER_COMPLETE (R225): A transfer completes, tiles are made visible in order, and blocks and generations complete with
their signals and records. -/
def execTransferComplete (e : Fin 40) (slot : Fin 64) (n : Nat) (s : State) : Host.Outcome State Fault Refusal :=
  .next (((s.transferComplete e slot n).repairsFound).afterLoss s)

end Sys2Proof.Machine
end

