-- ==== Sys2Proof/Machine/CmdVector.lean ====
section
/-! DEFINITION. The meanings of the commands of the vector engines (ch. 6). -/

namespace Sys2Proof.Machine

/-- VLOAD (R151): Operand panels are copied into tile registers. -/
def execVload (k : Fin 16) (read : PmRead) (s : State) : Host.Outcome State Fault Refusal :=
  .next ((s.issue k read .vload).afterLoss s)

/-- VSTORE (R152): Tile registers are converted and copied to memory. -/
def execVstore (k : Fin 16) (read : PmRead) (s : State) : Host.Outcome State Fault Refusal :=
  .next ((s.issue k read .vstore).afterLoss s)

/-- CLOVE (R157): A per-element Clove program runs over its operands. -/
def execClove (k : Fin 16) (read : PmRead) (s : State) : Host.Outcome State Fault Refusal :=
  .next ((s.issue k read .clove).afterLoss s)

/-- REDUCE (R159): Rows or columns are reduced in a fixed tree order. -/
def execReduce (k : Fin 16) (read : PmRead) (s : State) : Host.Outcome State Fault Refusal :=
  .next ((s.issue k read .reduce).afterLoss s)

/-- TOPK (R160): The top k columns of each row are selected with their indices. -/
def execTopk (k : Fin 16) (read : PmRead) (s : State) : Host.Outcome State Fault Refusal :=
  .next ((s.issue k read .topk).afterLoss s)

/-- COMPRESS (R161): Active rows are gathered into dense runs grouped by key. -/
def execCompress (k : Fin 16) (read : PmRead) (s : State) : Host.Outcome State Fault Refusal :=
  .next ((s.issue k read .compress).afterLoss s)

/-- EXPAND (R162): Compressed rows are copied or weighted-added back to their destination rows. -/
def execExpand (k : Fin 16) (read : PmRead) (s : State) : Host.Outcome State Fault Refusal :=
  .next ((s.issue k read .expand).afterLoss s)

/-- COMBINE (R163): The parts of a parallel split are added in ascending order. -/
def execCombine (k : Fin 16) (read : PmRead) (s : State) : Host.Outcome State Fault Refusal :=
  .next ((s.issue k read .combine).afterLoss s)

/-- PLOAD (R154): Clove instructions are copied into the program store. -/
def execPload (k : Fin 16) (read : PmRead) (s : State) : Host.Outcome State Fault Refusal :=
  .next ((s.issue k read .pload).afterLoss s)

/-- BSET (R165): A Blend chain record is loaded, checked and committed. -/
def execBset (k : Fin 16) (read : PmRead) (s : State) : Host.Outcome State Fault Refusal :=
  .next ((s.issue k read .bset).afterLoss s)

/-- BLEND_COMMIT (R165): A write to VEC_BCH_HDR checks and commits the staged chain and resets its cursors. -/
def execBlendCommit (dom : Fin 4) (k : Fin 16) (v : Word) (s : State) : Host.Outcome State Fault Refusal :=
  .next (s.regWrite dom (Pg.vec k + 0x130) v)

end Sys2Proof.Machine
end

