-- ==== Sys2Proof/Machine/Dispatch.lean ====
section
/-! DEFINITION. The meaning of every command: one arm per constructor. -/

namespace Sys2Proof.Machine

/-- What a command does to the state; the queue is the step's. -/
def exec (i : Instr) (s : State) : Host.Outcome State Fault Refusal :=
  match i with
  | .regWrite dom addr v => Sys2Proof.Machine.execRegWrite dom addr v s
  | .evtStatClear dom page v => Sys2Proof.Machine.execEvtStatClear dom page v s
  | .evtCounterClear dom page v => Sys2Proof.Machine.execEvtCounterClear dom page v s
  | .hardenScrub upsets => Sys2Proof.Machine.execHardenScrub upsets s
  | .beaconReceive src frame => Sys2Proof.Machine.execBeaconReceive src frame s
  | .beaconMiss => Sys2Proof.Machine.execBeaconMiss s
  | .holdoverExpire => Sys2Proof.Machine.execHoldoverExpire s
  | .cadTimeCtrlWrite dom v => Sys2Proof.Machine.execCadTimeCtrlWrite dom v s
  | .upstreamChange head => Sys2Proof.Machine.execUpstreamChange head s
  | .slotEnable dom p v => Sys2Proof.Machine.execSlotEnable dom p v s
  | .slotDisable dom p v => Sys2Proof.Machine.execSlotDisable dom p v s
  | .markSend p => Sys2Proof.Machine.execMarkSend p s
  | .planEmpty p => Sys2Proof.Machine.execPlanEmpty p s
  | .markReceive l frame => Sys2Proof.Machine.execMarkReceive l frame s
  | .ackReceive l frame => Sys2Proof.Machine.execAckReceive l frame s
  | .frameResend => Sys2Proof.Machine.execFrameResend s
  | .markEffect p => Sys2Proof.Machine.execMarkEffect p s
  | .stepStart p => Sys2Proof.Machine.execStepStart p s
  | .boundApplyTimeout => Sys2Proof.Machine.execBoundApplyTimeout s
  | .stepDone p => Sys2Proof.Machine.execStepDone p s
  | .doneReportReceive l dst flood frame => Sys2Proof.Machine.execDoneReportReceive l dst flood frame s
  | .markTimeout p => Sys2Proof.Machine.execMarkTimeout p s
  | .stepLimit p => Sys2Proof.Machine.execStepLimit p s
  | .idleWindowClose p => Sys2Proof.Machine.execIdleWindowClose p s
  | .startProg p => Sys2Proof.Machine.execStartProg p s
  | .schedCursorResume p => Sys2Proof.Machine.execSchedCursorResume p s
  | .startStream p => Sys2Proof.Machine.execStartStream p s
  | .schedSignal p => Sys2Proof.Machine.execSchedSignal p s
  | .pollRing p => Sys2Proof.Machine.execPollRing p s
  | .idleWindow p => Sys2Proof.Machine.execIdleWindow p s
  | .schedEntryCommit dom d v => Sys2Proof.Machine.execSchedEntryCommit dom d v s
  | .schedLoad dom d v => Sys2Proof.Machine.execSchedLoad dom d v s
  | .schedSwapWrite dom p v => Sys2Proof.Machine.execSchedSwapWrite dom p v s
  | .counterSet dom d v => Sys2Proof.Machine.execCounterSet dom d v s
  | .nop k read => Sys2Proof.Machine.execNop k read s
  | .endProg k read => Sys2Proof.Machine.execEndProg k read s
  | .jump k read => Sys2Proof.Machine.execJump k read s
  | .branch k read => Sys2Proof.Machine.execBranch k read s
  | .loop k read => Sys2Proof.Machine.execLoop k read s
  | .setix k read => Sys2Proof.Machine.execSetix k read s
  | .addix k read => Sys2Proof.Machine.execAddix k read s
  | .wait k read => Sys2Proof.Machine.execWait k read s
  | .waitTake k read => Sys2Proof.Machine.execWaitTake k read s
  | .seqWaitResume k engine => Sys2Proof.Machine.execSeqWaitResume k engine s
  | .signal k read => Sys2Proof.Machine.execSignal k read s
  | .setctr k read => Sys2Proof.Machine.execSetctr k read s
  | .start k read => Sys2Proof.Machine.execStart k read s
  | .startHoldRelease k => Sys2Proof.Machine.execStartHoldRelease k s
  | .startStall k => Sys2Proof.Machine.execStartStall k s
  | .release k read => Sys2Proof.Machine.execRelease k read s
  | .fence k read => Sys2Proof.Machine.execFence k read s
  | .fenceResume k => Sys2Proof.Machine.execFenceResume k s
  | .movs k read => Sys2Proof.Machine.execMovs k read s
  | .issueResume k => Sys2Proof.Machine.execIssueResume k s
  | .programStart k => Sys2Proof.Machine.execProgramStart k s
  | .seqStartWrite dom k v => Sys2Proof.Machine.execSeqStartWrite dom k v s
  | .pmLoad dom k v => Sys2Proof.Machine.execPmLoad dom k v s
  | .pmLoadStart k => Sys2Proof.Machine.execPmLoadStart k s
  | .pmLoadDone k => Sys2Proof.Machine.execPmLoadDone k s
  | .seqAbort dom k v => Sys2Proof.Machine.execSeqAbort dom k v s
  | .abortComplete k => Sys2Proof.Machine.execAbortComplete k s
  | .engineOpComplete k q => Sys2Proof.Machine.execEngineOpComplete k q s
  | .streamRegionConfig dom k v => Sys2Proof.Machine.execStreamRegionConfig dom k v s
  | .mma k read => Sys2Proof.Machine.execMma k read s
  | .arrayFillResume k a => Sys2Proof.Machine.execArrayFillResume k a s
  | .starveLong k a => Sys2Proof.Machine.execStarveLong k a s
  | .load k read => Sys2Proof.Machine.execLoad k read s
  | .drain k read => Sys2Proof.Machine.execDrain k read s
  | .drainBufferResume k a => Sys2Proof.Machine.execDrainBufferResume k a s
  | .openWaitResume k a => Sys2Proof.Machine.execOpenWaitResume k a s
  | .dattn k read => Sys2Proof.Machine.execDattn k read s
  | .config k read => Sys2Proof.Machine.execConfig k read s
  | .arrCloseAll dom k a => Sys2Proof.Machine.execArrCloseAll dom k a s
  | .vload k read => Sys2Proof.Machine.execVload k read s
  | .vstore k read => Sys2Proof.Machine.execVstore k read s
  | .clove k read => Sys2Proof.Machine.execClove k read s
  | .reduce k read => Sys2Proof.Machine.execReduce k read s
  | .topk k read => Sys2Proof.Machine.execTopk k read s
  | .compress k read => Sys2Proof.Machine.execCompress k read s
  | .expand k read => Sys2Proof.Machine.execExpand k read s
  | .combine k read => Sys2Proof.Machine.execCombine k read s
  | .pload k read => Sys2Proof.Machine.execPload k read s
  | .bset k read => Sys2Proof.Machine.execBset k read s
  | .blendCommit dom k v => Sys2Proof.Machine.execBlendCommit dom k v s
  | .qrun k read => Sys2Proof.Machine.execQrun k read s
  | .qhad k read => Sys2Proof.Machine.execQhad k read s
  | .qstep k read => Sys2Proof.Machine.execQstep k read s
  | .qload k read => Sys2Proof.Machine.execQload k read s
  | .profileCommit dom k v => Sys2Proof.Machine.execProfileCommit dom k v s
  | .qntSlotHistWrite dom k v => Sys2Proof.Machine.execQntSlotHistWrite dom k v s
  | .trapSaturate dom k a => Sys2Proof.Machine.execTrapSaturate dom k a s
  | .trapRescale dom k a => Sys2Proof.Machine.execTrapRescale dom k a s
  | .trapRetry dom k a sigma => Sys2Proof.Machine.execTrapRetry dom k a sigma s
  | .trapFail dom k a => Sys2Proof.Machine.execTrapFail dom k a s
  | .trapTimeout k a => Sys2Proof.Machine.execTrapTimeout k a s
  | .adec k read => Sys2Proof.Machine.execAdec k read s
  | .append k read => Sys2Proof.Machine.execAppend k read s
  | .amerge k read => Sys2Proof.Machine.execAmerge k read s
  | .agather k read => Sys2Proof.Machine.execAgather k read s
  | .xload k read => Sys2Proof.Machine.execXload k read s
  | .aconfig k read => Sys2Proof.Machine.execAconfig k read s
  | .arm k read => Sys2Proof.Machine.execArm k read s
  | .armd k read => Sys2Proof.Machine.execArmd k read s
  | .stop k read => Sys2Proof.Machine.execStop k read s
  | .xeArmWrite dom e v => Sys2Proof.Machine.execXeArmWrite dom e v s
  | .xeStopWrite dom e v => Sys2Proof.Machine.execXeStopWrite dom e v s
  | .transferIssue e slot => Sys2Proof.Machine.execTransferIssue e slot s
  | .transferComplete e slot n => Sys2Proof.Machine.execTransferComplete e slot n s
  | .stackReadDone addr flips => Sys2Proof.Machine.execStackReadDone addr flips s
  | .cmdParityAlert t ch => Sys2Proof.Machine.execCmdParityAlert t ch s
  | .refreshDue t ch bank n => Sys2Proof.Machine.execRefreshDue t ch bank n s
  | .scrubRead t ch => Sys2Proof.Machine.execScrubRead t ch s
  | .thermalReport t temp inner => Sys2Proof.Machine.execThermalReport t temp inner s
  | .thermalReportMiss t => Sys2Proof.Machine.execThermalReportMiss t s
  | .windowCommit dom v => Sys2Proof.Machine.execWindowCommit dom v s
  | .windowDisable dom => Sys2Proof.Machine.execWindowDisable dom s
  | .rowseqGo dom d rq v => Sys2Proof.Machine.execRowseqGo dom d rq v s
  | .rowseqAbort dom d rq => Sys2Proof.Machine.execRowseqAbort dom d rq s
  | .rowInit d rq => Sys2Proof.Machine.execRowInit d rq s
  | .rowCopy d rq => Sys2Proof.Machine.execRowCopy d rq s
  | .rowAnd d rq => Sys2Proof.Machine.execRowAnd d rq s
  | .rowOr d rq => Sys2Proof.Machine.execRowOr d rq s
  | .rowXor d rq => Sys2Proof.Machine.execRowXor d rq s
  | .rowNot d rq => Sys2Proof.Machine.execRowNot d rq s
  | .reseal d rq => Sys2Proof.Machine.execReseal d rq s
  | .rowOpComplete d rq => Sys2Proof.Machine.execRowOpComplete d rq s
  | .bulkReadDone addr errors => Sys2Proof.Machine.execBulkReadDone addr errors s
  | .bulkScrubRead => Sys2Proof.Machine.execBulkScrubRead s
  | .mr4Poll pkg report => Sys2Proof.Machine.execMr4Poll pkg report s
  | .placementEpoch => Sys2Proof.Machine.execPlacementEpoch s
  | .swapPieceDone => Sys2Proof.Machine.execSwapPieceDone s
  | .pinWrite dom d v => Sys2Proof.Machine.execPinWrite dom d v s
  | .spillCopyDone => Sys2Proof.Machine.execSpillCopyDone s
  | .retentionSweep => Sys2Proof.Machine.execRetentionSweep s
  | .submit d cmd => Sys2Proof.Machine.execSubmit d cmd s
  | .cancel d cmd => Sys2Proof.Machine.execCancel d cmd s
  | .resume d cmd => Sys2Proof.Machine.execResume d cmd s
  | .requestRelease d cmd => Sys2Proof.Machine.execRequestRelease d cmd s
  | .pfxCreate d cmd => Sys2Proof.Machine.execPfxCreate d cmd s
  | .pfxDrop d cmd => Sys2Proof.Machine.execPfxDrop d cmd s
  | .cmdNop d cmd => Sys2Proof.Machine.execCmdNop d cmd s
  | .sqPollTimer d => Sys2Proof.Machine.execSqPollTimer d s
  | .sqEnable dom d v => Sys2Proof.Machine.execSqEnable dom d v s
  | .stage0 p => Sys2Proof.Machine.execStage0 p s
  | .pepperMerge p => Sys2Proof.Machine.execPepperMerge p s
  | .verdictWrite p => Sys2Proof.Machine.execVerdictWrite p s
  | .commit p => Sys2Proof.Machine.execCommit p s
  | .tokenRecordWrite p => Sys2Proof.Machine.execTokenRecordWrite p s
  | .eventRecordWrite d => Sys2Proof.Machine.execEventRecordWrite d s
  | .partitionConfig dom p => Sys2Proof.Machine.execPartitionConfig dom p s
  | .activate dom p => Sys2Proof.Machine.execActivate dom p s
  | .quiesce dom p => Sys2Proof.Machine.execQuiesce dom p s
  | .quiesceComplete p => Sys2Proof.Machine.execQuiesceComplete p s
  | .quiesceTimeout p => Sys2Proof.Machine.execQuiesceTimeout p s
  | .wedgeTimeout p => Sys2Proof.Machine.execWedgeTimeout p s
  | .partitionResume dom p => Sys2Proof.Machine.execPartitionResume dom p s
  | .partitionRelease dom p => Sys2Proof.Machine.execPartitionRelease dom p s
  | .releaseScrubDone p => Sys2Proof.Machine.execReleaseScrubDone p s
  | .ptSlicesWrite dom p v => Sys2Proof.Machine.execPtSlicesWrite dom p v s
  | .regionCommit dom v => Sys2Proof.Machine.execRegionCommit dom v s
  | .domainAttach dom d => Sys2Proof.Machine.execDomainAttach dom d s
  | .domainDetach dom d => Sys2Proof.Machine.execDomainDetach dom d s
  | .linkEnable dom l v => Sys2Proof.Machine.execLinkEnable dom l v s
  | .linkDisable dom l v => Sys2Proof.Machine.execLinkDisable dom l v s
  | .linkRetrain dom l v => Sys2Proof.Machine.execLinkRetrain dom l v s
  | .linkTrainDone l => Sys2Proof.Machine.execLinkTrainDone l s
  | .trainFail l => Sys2Proof.Machine.execTrainFail l s
  | .linkDown l => Sys2Proof.Machine.execLinkDown l s
  | .autoRetrain l => Sys2Proof.Machine.execAutoRetrain l s
  | .flitReceive l flit decoded fixed => Sys2Proof.Machine.execFlitReceive l flit decoded fixed s
  | .identReceive src frame => Sys2Proof.Machine.execIdentReceive src frame s
  | .pingReceive src frame => Sys2Proof.Machine.execPingReceive src frame s
  | .pongReceive src frame => Sys2Proof.Machine.execPongReceive src frame s
  | .liveSend => Sys2Proof.Machine.execLiveSend s
  | .liveReceive l frame => Sys2Proof.Machine.execLiveReceive l frame s
  | .peerLost id => Sys2Proof.Machine.execPeerLost id s
  | .messageForward l sub msg => Sys2Proof.Machine.execMessageForward l sub msg s
  | .remoteWrite l msg => Sys2Proof.Machine.execRemoteWrite l msg s
  | .remoteRead l msg => Sys2Proof.Machine.execRemoteRead l msg s
  | .remoteSignal l msg => Sys2Proof.Machine.execRemoteSignal l msg s
  | .remoteResp l msg => Sys2Proof.Machine.execRemoteResp l msg s
  | .messageResend => Sys2Proof.Machine.execMessageResend s
  | .transactionTimeout => Sys2Proof.Machine.execTransactionTimeout s
  | .relayReceive l msg => Sys2Proof.Machine.execRelayReceive l msg s
  | .relayRespReceive l msg => Sys2Proof.Machine.execRelayRespReceive l msg s
  | .rankGroupCommit dom v => Sys2Proof.Machine.execRankGroupCommit dom v s
  | .cqArm dom cq v => Sys2Proof.Machine.execCqArm dom cq v s
  | .cqReset dom cq => Sys2Proof.Machine.execCqReset dom cq s
  | .allReduce cq => Sys2Proof.Machine.execAllReduce cq s
  | .reduceScatter cq => Sys2Proof.Machine.execReduceScatter cq s
  | .allGather cq => Sys2Proof.Machine.execAllGather cq s
  | .allToAll cq => Sys2Proof.Machine.execAllToAll cq s
  | .send cq => Sys2Proof.Machine.execSend cq s
  | .recv cq => Sys2Proof.Machine.execRecv cq s
  | .rsignal cq => Sys2Proof.Machine.execRsignal cq s
  | .barrier cq => Sys2Proof.Machine.execBarrier cq s
  | .readyReceive l dst frame => Sys2Proof.Machine.execReadyReceive l dst frame s
  | .collAbortReceive l dst frame => Sys2Proof.Machine.execCollAbortReceive l dst frame s
  | .contribReceive l msg => Sys2Proof.Machine.execContribReceive l msg s
  | .collCombine cq => Sys2Proof.Machine.execCollCombine cq s
  | .collEntryComplete cq => Sys2Proof.Machine.execCollEntryComplete cq s
  | .portEnable dom j v => Sys2Proof.Machine.execPortEnable dom j v s
  | .portDisable dom j v => Sys2Proof.Machine.execPortDisable dom j v s
  | .portRetrain dom j v => Sys2Proof.Machine.execPortRetrain dom j v s
  | .portTrainDone j => Sys2Proof.Machine.execPortTrainDone j s
  | .portTrainFail j => Sys2Proof.Machine.execPortTrainFail j s
  | .portDown j lock => Sys2Proof.Machine.execPortDown j lock s
  | .portPingSend j => Sys2Proof.Machine.execPortPingSend j s
  | .portFrameReceive j frame decoded fixed => Sys2Proof.Machine.execPortFrameReceive j frame decoded fixed s
  | .regRd j req => Sys2Proof.Machine.execRegRd j req s
  | .regWr j req => Sys2Proof.Machine.execRegWr j req s
  | .memRd j req => Sys2Proof.Machine.execMemRd j req s
  | .memWr j req => Sys2Proof.Machine.execMemWr j req s
  | .planWr j req => Sys2Proof.Machine.execPlanWr j req s
  | .rspReceive j req => Sys2Proof.Machine.execRspReceive j req s
  | .logRead d => Sys2Proof.Machine.execLogRead d s
  | .attest d => Sys2Proof.Machine.execAttest d s
  | .certRead d => Sys2Proof.Machine.execCertRead d s
  | .fwStage d => Sys2Proof.Machine.execFwStage d s
  | .recordStage d => Sys2Proof.Machine.execRecordStage d s
  | .fwActivate d => Sys2Proof.Machine.execFwActivate d s
  | .mbReset d => Sys2Proof.Machine.execMbReset d s
  | .mbDone d => Sys2Proof.Machine.execMbDone d s
  | .mbTimeout d => Sys2Proof.Machine.execMbTimeout d s
  | .maceImageLoad dom => Sys2Proof.Machine.execMaceImageLoad dom s
  | .maceTestStart k cls cycles => Sys2Proof.Machine.execMaceTestStart k cls cycles s
  | .maceTestDone k results expected last => Sys2Proof.Machine.execMaceTestDone k results expected last s
  | .repairDone n answers => Sys2Proof.Machine.execRepairDone n answers s
  | .repairWait n => Sys2Proof.Machine.execRepairWait n s
  | .digestUnitDone r => Sys2Proof.Machine.execDigestUnitDone r s
  | .resetNLow => Sys2Proof.Machine.execResetNLow s
  | .resetRelease straps hangs => Sys2Proof.Machine.execResetRelease straps hangs s
  | .romBootTimeout => Sys2Proof.Machine.execRomBootTimeout s
  | .bootStepDone lanes bulkBad slices => Sys2Proof.Machine.execBootStepDone lanes bulkBad slices s
  | .bootStepTimeout => Sys2Proof.Machine.execBootStepTimeout s
  | .watchdogExpire => Sys2Proof.Machine.execWatchdogExpire s
  | .powerUp => Sys2Proof.Machine.execPowerUp s
  | .inputFault => Sys2Proof.Machine.execInputFault s
  | .refclkLoss => Sys2Proof.Machine.execRefclkLoss s
  | .powerSample watts vin => Sys2Proof.Machine.execPowerSample watts vin s
  | .emergHoldEnd => Sys2Proof.Machine.execEmergHoldEnd s
  | .loopEvaluate => Sys2Proof.Machine.execLoopEvaluate s
  | .clockStepChange => Sys2Proof.Machine.execClockStepChange s
  | .dieSensorReport sensor temp => Sys2Proof.Machine.execDieSensorReport sensor temp s
  | .dieSensorMiss sensor => Sys2Proof.Machine.execDieSensorMiss sensor s
  | .modState pec => Sys2Proof.Machine.execModState pec s
  | .modSerial pec => Sys2Proof.Machine.execModSerial pec s
  | .inputV pec => Sys2Proof.Machine.execInputV pec s
  | .inputP pec => Sys2Proof.Machine.execInputP pec s
  | .tempDie pec => Sys2Proof.Machine.execTempDie pec s
  | .tempCool pec reading => Sys2Proof.Machine.execTempCool pec reading s
  | .smbSlot pec => Sys2Proof.Machine.execSmbSlot pec s
  | .flashAddr pec addr => Sys2Proof.Machine.execFlashAddr pec addr s
  | .flashDataRead pec => Sys2Proof.Machine.execFlashDataRead pec s
  | .flashDataWrite pec data => Sys2Proof.Machine.execFlashDataWrite pec data s
  | .flashErase pec value => Sys2Proof.Machine.execFlashErase pec value s
  | .flashStat pec => Sys2Proof.Machine.execFlashStat pec s
  | .flashOpDone fails => Sys2Proof.Machine.execFlashOpDone fails s
  | .portAutoRetrain j => Sys2Proof.Machine.execPortAutoRetrain j s
  | .bulkTrainingLost ch => Sys2Proof.Machine.execBulkTrainingLost ch s

end Sys2Proof.Machine
end

