-- ==== Sys2Proof/Machine/Step.lean ====
section
/-! DEFINITION. One step: the oldest waiting command is taken and carried out; with none waiting, one tick of 250 ps passes
(DESIGN CHOICE, log entry 48). -/

namespace Sys2Proof.Machine

/-- The command at the front of the queue on the state with the queue's rest; on an empty queue time passes. -/
def step (s : State) : Host.Outcome State Fault Refusal :=
  match s.pending with
  | [] => .next (s.advance 1)
  | c :: cs => exec c { s with pending := cs }

/-- The state with the command that a word spells at the front of its queue, the state itself where it spells none. -/
def State.withFetchWord (s : State) (nbits w : Nat) : State :=
  match decodeTableWord nbits w with
  | some c => { s with pending := c :: s.pending }
  | none => s

end Sys2Proof.Machine
end

