-- ==== Sys2Proof/Safety.lean ====
section
/-! DEFINITION. What counts as a safe run: commands a sender can form, a state whose memories are in canonical form, a command that
changes only the kinds of state named, and a record that only grows. -/

namespace Sys2Proof.Machine

/-- Every waiting command is one a sender can form. -/
def State.wellQueued (s : State) : Bool := s.pending.all Instr.wf

/-- Memories in canonical form: rising addresses, no byte listed at what an unlisted address reads as. -/
def State.canonical (s : State) : Bool := Mem.wf s.mem

/-- A step neither faults nor refuses. -/
def State.stepsOn (s : State) : Prop := ∃ t, step s = .next t

/-- `n` steps run without a fault or a refusal. -/
def State.safeFor : Nat → State → Prop
  | 0, _ => True
  | n + 1, s => ∃ t, step s = .next t ∧ State.safeFor n t

/-- A domain's write passes every check that stands before the register's own: inside the map and aligned, from an attached domain that is
not WEDGED, let by the boot state, on a page that is fitted, in the domain's view, and not the steward's alone (R9, R360, R361, R373, R426). -/
def State.passes (s : State) (dom addr : Nat) : Bool :=
  s.accessOk dom addr true && s.pageFitted (pageOf addr) && s.reaches dom addr && (dom == 0 || !stewardOnly addr)

/-- The kinds of state: one for each field of `State`, in their order. -/
inductive Kind where
  | clk | regs | staged | mem | timers | ident | boot | power | time | slots | schedLo | schedHi | ctrs | parts
  | doms | seqs | regions | idleUntil | evq | evLost | log | logNext | out | tolvys | stale | windows | wfOn | rowSlots
  | bulk | repairs | igs | csSets | screens | mace | digests | mboxes | retired | suspect | tiles | arrFmt | tileTag
  | engFail | clove | chainCur | profCur | qslots | attCfg | attSeq | xslots | links | ports | nodeReqs | nodeTag
  | fabric | reqs | submitted | commands | svs | peps | pepCur | pageSeen | seqBad | done | rdata | free | pending

  deriving DecidableEq, Repr

/-- Two states agree on a kind of state. -/
def Kind.agree (s t : State) : Kind → Prop
  | .clk => t.clk = s.clk
  | .regs => t.regs = s.regs
  | .staged => t.staged = s.staged
  | .mem => t.mem = s.mem
  | .timers => t.timers = s.timers
  | .ident => t.ident = s.ident
  | .boot => t.boot = s.boot
  | .power => t.power = s.power
  | .time => t.time = s.time
  | .slots => t.slots = s.slots
  | .schedLo => t.schedLo = s.schedLo
  | .schedHi => t.schedHi = s.schedHi
  | .ctrs => t.ctrs = s.ctrs
  | .parts => t.parts = s.parts
  | .doms => t.doms = s.doms
  | .seqs => t.seqs = s.seqs
  | .regions => t.regions = s.regions
  | .idleUntil => t.idleUntil = s.idleUntil
  | .evq => t.evq = s.evq
  | .evLost => t.evLost = s.evLost
  | .log => t.log = s.log
  | .logNext => t.logNext = s.logNext
  | .out => t.out = s.out
  | .tolvys => t.tolvys = s.tolvys
  | .stale => t.stale = s.stale
  | .windows => t.windows = s.windows
  | .wfOn => t.wfOn = s.wfOn
  | .rowSlots => t.rowSlots = s.rowSlots
  | .bulk => t.bulk = s.bulk
  | .repairs => t.repairs = s.repairs
  | .igs => t.igs = s.igs
  | .csSets => t.csSets = s.csSets
  | .screens => t.screens = s.screens
  | .mace => t.mace = s.mace
  | .digests => t.digests = s.digests
  | .mboxes => t.mboxes = s.mboxes
  | .retired => t.retired = s.retired
  | .suspect => t.suspect = s.suspect
  | .tiles => t.tiles = s.tiles
  | .arrFmt => t.arrFmt = s.arrFmt
  | .tileTag => t.tileTag = s.tileTag
  | .engFail => t.engFail = s.engFail
  | .clove => t.clove = s.clove
  | .chainCur => t.chainCur = s.chainCur
  | .profCur => t.profCur = s.profCur
  | .qslots => t.qslots = s.qslots
  | .attCfg => t.attCfg = s.attCfg
  | .attSeq => t.attSeq = s.attSeq
  | .xslots => t.xslots = s.xslots
  | .links => t.links = s.links
  | .ports => t.ports = s.ports
  | .nodeReqs => t.nodeReqs = s.nodeReqs
  | .nodeTag => t.nodeTag = s.nodeTag
  | .fabric => t.fabric = s.fabric
  | .reqs => t.reqs = s.reqs
  | .submitted => t.submitted = s.submitted
  | .commands => t.commands = s.commands
  | .svs => t.svs = s.svs
  | .peps => t.peps = s.peps
  | .pepCur => t.pepCur = s.pepCur
  | .pageSeen => t.pageSeen = s.pageSeen
  | .seqBad => t.seqBad = s.seqBad
  | .done => t.done = s.done
  | .rdata => t.rdata = s.rdata
  | .free => t.free = s.free
  | .pending => t.pending = s.pending

/-- Nothing but the kinds of state listed differs between two states. -/
def State.onlyChanges (s : State) (ks : List Kind) (t : State) : Prop := ∀ k, k ∉ ks → k.agree s t

/-- What no command ever does: reorder the queue of waiting commands, leave a memory out of its canonical form, take back what was sent
outward, or use a free value twice. -/
structure State.grows (s t : State) : Prop where
  queue : t.pending = s.pending
  memory : s.canonical = true → t.canonical = true
  sent : s.out <+: t.out
  free : s.free ≤ t.free

/-- The kinds of state that raising an event may touch: event registers, the error and event logs, the fault line, and the free values. -/
def Kind.events : List Kind := [.regs, .boot, .evq, .evLost, .log, .logNext, .free]

/-- The registers that raising events writes: the event bits and occurrence counters of every page and slot window, and a domain's
count of lost records (R73, R418, R431). -/
def eventReg (k : Nat) : Bool :=
  if 0x18000 ≤ k ∧ k < 0x20000 then k % 0x800 == 0x078 || (decide (0x080 ≤ k % 0x800) && decide (k % 0x800 < 0x0C0))
  else
    decide (k < 0x800000) && (k % 0x1000 == Off.evtStat || (decide (Off.evtCnt ≤ k % 0x1000) && decide (k % 0x1000 < Off.owner))
      || (k % 0x1000 == 0x140 && decide (0x24000 ≤ k) && decide (k < 0x28000)))

/-- Every register but the event registers and the ones listed reads as before. -/
def State.regsKept (s : State) (ks : List Nat) (t : State) : Prop := ∀ k, eventReg k = false → k ∉ ks → t.reg k = s.reg k

/-- An event of a page stands raised. -/
def State.flagged (s : State) (page b : Nat) : Bool := bit (s.reg (page + Off.evtStat)) b

/-- An event of a cadence slot stands raised (R73). -/
def State.slotFlagged (s : State) (p b : Nat) : Bool := bit (s.reg (Pg.slot p + 0x078)) b

/-- The cursor of a slot stands before an entry `e` of action `a` at position `i`, which fires next in the step of mark `m` (R57, R58). -/
def State.entryDue (s : State) (p a : Nat) (m : Mark) (i : Nat) (e : Word × Word) : Prop :=
  (s.slot p).cur = some m ∧ s.cursorEntry p = some (i, e) ∧ entAction e.1 = a ∧ s.cursorAction p = some a ∧ s.cursorRuns p = true

/-- The state in which the action of such an entry is taken: its time has come, an entry out of order is reported, and the cursor stands
at it (R56, R58, R64). -/
def State.entryState (s : State) (p : Nat) (m : Mark) (i : Nat) (e : Word × Word) : State :=
  let u := s.waitCt ((s.slot p).fireCt m e)
  u.entryReached p i m e u.ct

/-- The command that issues an operation of a program on slice `k`, as program memory reads. -/
def SOp.cmd (k : Fin 16) (r : PmRead) : SOp → Instr
  | .nop => .nop k r
  | .fin => .endProg k r
  | .jump => .jump k r
  | .branch => .branch k r
  | .loop => .loop k r
  | .setix => .setix k r
  | .addix => .addix k r
  | .wait => .wait k r
  | .waitTake => .waitTake k r
  | .signal => .signal k r
  | .setctr => .setctr k r
  | .start => .start k r
  | .release => .release k r
  | .fence => .fence k r
  | .movs => .movs k r
  | .mma => .mma k r
  | .load => .load k r
  | .drain => .drain k r
  | .dattn => .dattn k r
  | .config => .config k r
  | .vload => .vload k r
  | .vstore => .vstore k r
  | .clove => .clove k r
  | .reduce => .reduce k r
  | .topk => .topk k r
  | .compress => .compress k r
  | .expand => .expand k r
  | .combine => .combine k r
  | .pload => .pload k r
  | .bset => .bset k r
  | .adec => .adec k r
  | .append => .append k r
  | .amerge => .amerge k r
  | .agather => .agather k r
  | .xload => .xload k r
  | .aconfig => .aconfig k r
  | .arm => .arm k r
  | .armd => .armd k r
  | .stop => .stop k r
  | .qrun => .qrun k r
  | .qhad => .qhad k r
  | .qstep => .qstep k r
  | .qload => .qload k r

/-- The state in which the instruction at PC issues: a corrected read of program memory has been reported (R91). -/
def State.readInstr (s : State) (k : Nat) (r : PmRead) : State := if r = .single then s.seqEvent k 7 else s

/-- The sequencer of slice `k` may issue `i`, the legal instruction at PC, whose counters are in range (R84, R86, R89, R453). -/
def State.issuable (s : State) (k : Nat) (r : PmRead) (i : SInstr) : Prop :=
  (s.seq k).mode = .running ∧ s.enginesRun = true ∧ s.twinMay k = true ∧ (s.seq k).fetch r = .inr i
    ∧ (s.readInstr k r).badCtr k i = false

/-- A command leaves the sequencer of slice `k` as `q`, every other as it was, and touches nothing but events. -/
def State.movesSeq (s : State) (c : Instr) (k : Nat) (q : Seq) : Prop :=
  ∃ t, exec c s = .next t ∧ t.seq k = q ∧ (∀ j, j ≠ k → t.seq j = s.seq j) ∧ s.onlyChanges (.seqs :: Kind.events) t ∧ s.regsKept [] t

/-- A sequencer that has issued its instruction and goes on at `pc`. -/
def Seq.goesOn (q : Seq) (pc : Nat) : Seq := { q with pc := pc, steps := q.steps + 1, mode := .running, wait := none }

/-- A slot's cursor moved past position `i`. -/
def State.cursorPast (s : State) (p i : Nat) : State := s.modSlot p fun sl => { sl with cursor := i + 1 }

end Sys2Proof.Machine
end

