-- ==== Sys2Proof/Certificates/Slice0/Obligations.lean ====
section
/-! DEFINITION. The statements for the provers: what the commands of every family of the operation table do, what they leave unchanged, and
the invariants of the module's steps. -/

namespace Sys2Proof.Machine

/-- An instruction as its engine carries it out: its index register has been added to its primary address, modulo 2^32 (R85). -/
def SInstr.indexedBy (q : Seq) (i : SInstr) : SInstr :=
  if i.ixEn = 1 then { i with args := i.args.set 0 ((i.arg 0 + q.ixReg i.ix) % 2 ^ 32) } else i

/-- The entry that an engine instruction at PC puts into its queue (R85, R89). -/
def State.newEntry (s : State) (k : Nat) (i : SInstr) : QEntry :=
  { op := (s.seq k).indexed i ((s.seq k).word (s.seq k).pc), ordinal := (s.seq k).issued.get 0 i.queue }

/-- The state in which an engine instruction has issued: its entry stands behind its queue, and the program goes on (R84, R89, R96). -/
def State.accepted (s : State) (k : Nat) (r : PmRead) (i : SInstr) : State :=
  (s.readInstr k r).modSeq k fun q =>
    { q.goesOn (q.pc + 1) with
      queues := q.queues.put i.queue (q.queues.get [] i.queue ++ [s.newEntry k i])
      issued := q.issued.put i.queue (q.issued.get 0 i.queue + 1) }

/-- The sequencer may issue `i`, an engine operation whose queue is empty and not halted (R86, R97). -/
def State.engineFree (s : State) (k : Nat) (r : PmRead) (i : SInstr) : Prop :=
  s.issuable k r i ∧ i.op.cls ≠ 0 ∧ s.queue k i.queue = [] ∧ s.halted k i.queue = false

/-- The command that issues `i` ends with the engine having done `x`: its state, in which the queue holds the operation's entry alone,
with the CRC of what it put out taken with it; walks that wait look again, and what a loss stops is stopped (R35, R89, R226, R453). -/
def State.engineDoes (s : State) (k : Fin 16) (r : PmRead) (i : SInstr) (x : State × QEntry) : Prop :=
  exec (SOp.cmd k r i.op) s
    = .next (((x.1.takeOut k x.2).1.setEntry k i.queue 0 (x.1.takeOut k x.2).2).walkSettle.afterLoss s)

/-- An engine operation that has made its effect, to complete with a status (R97). -/
def QEntry.runs (e : QEntry) (st : Status) : QEntry := { e with phase := .running st }

/-- The bytes of a memory outside a range read as before. -/
def State.keepsMemBut (s t : State) (sp : Space) (a n : Nat) : Prop :=
  ∀ sp', ∀ x < 2 ^ 60, sp' ≠ sp ∨ x < a ∨ a + n ≤ x → t.rdMem sp' x 1 = s.rdMem sp' x 1

/-- Every byte of every memory reads as before. -/
def State.keepsMem (s t : State) : Prop := ∀ sp x, t.rdMem sp x 1 = s.rdMem sp x 1

/-- What slice `k` writes at a place lands there alone: its own store, or that of a slice outside any pair, from outside any pair (R453). -/
def State.landsAt (s : State) (k : Nat) (d : EA) : Prop :=
  d.slice < 16 ∧ (d.slice = k ∨ (s.pairedPrimary k = none ∧ s.pairedTwin d.slice = none))

/-- A profile converts formats alone: no scale, no vector, no sign and no rotation (R177). -/
def Prof.plain (p : Prof) : Prop :=
  p.gran = 0 ∧ p.rrowEn = false ∧ p.rscEn = false ∧ p.smoothEn = false ∧ p.signEn = false ∧ p.hadEn = false

/-- The side output that a profile makes of a tile meets no open group (R137, R181). -/
def State.sideFree (s : State) (k : Nat) (p : Prof) (cursor : Nat) : Prop :=
  p.soutEn = true → p.gran ≠ 0 → ∃ d, s.ea32 k p.sout = some d ∧ ∀ n, s.eaWritable (d.plus (cursor * p.stride)) n = true

/-- One chunk of an element of an MMA: its products summed from zero, the partial promoted into the element (R102, R111, R129, R131). -/
def mmaChunk (f : ArrFmt) (g : Option FV) (elem : Nat) (ps : List FV) : Nat :=
  if f.int then (promoteI elem (ps.foldl (fun x p => unsigned 32 (signed 32 x + roundInt p)) 0)).1 % 2 ^ 32
  else (promoteF elem (ps.foldl (fun x p => (naAdd x p).1) 0) g).1 % 2 ^ 32

/-- An element of an MMA over `kk` products, chunk after chunk of 128 (R102). -/
def mmaElement (f : ArrFmt) (g : Nat → Option FV) (kk : Nat) (prod : Nat → FV) (elem : Nat) : Nat :=
  (List.range (ceilDiv kk 128)).foldl
    (fun x c => mmaChunk f (g c) x ((List.range (min 128 (kk - 128 * c))).map fun i => prod (128 * c + i))) elem

/-- Reads within the last 1 us in which a lane of a channel had symbol errors (R266). -/
def State.laneHits (s : State) (n ch ln : Nat) : Nat :=
  (((s.stack n).laneErrs.get [] (32 * ch + ln)).filter fun c => decide (s.clk ≤ c + usTicks)).length

/-- A slot of a transfer engine that an arm finds free: nothing under way (R219). -/
def XSlot.resting (x : XSlot) : Prop := x.mode = .idle ∧ x.gens = [] ∧ x.xfers = [] ∧ x.released = false

/-- What arming a resting slot with a descriptor for partition `p` leaves: the next generation, active, or ended at once where it has no
block (R220, R227). -/
def XSlot.armedFrom (x y : XSlot) (p : Nat) (b : List Byte) : Prop :=
  y.gen = (x.gen + 1) % 65536 ∧ y.held = none ∧ y.xfers = []
    ∧ ((Desc.ofBytes b).nblk ≠ 0 → y.mode = .active ∧ y.gens = [{ gen := y.gen, part := p, desc := b }])
    ∧ ((Desc.ofBytes b).nblk = 0 → y.mode = .idle ∧ y.gens = [] ∧ bits y.last 0 8 = statusCode .ok ∧ bits y.last 16 16 = y.gen)

/-- What a stop leaves of a slot whose one generation stands between blocks with nothing in flight: idle, with the record SUPERSEDED
(R228, R229). -/
def XSlot.stoppedFrom (x y : XSlot) : Prop :=
  y.mode = .idle ∧ y.gens = [] ∧ y.gen = x.gen ∧ bits y.last 0 8 = statusCode .superseded

/-- The request-table entry a ring command names (R309). -/
def cmdReq (cmd : List Byte) : Nat := nbits (field cmd 0 8) 16 14

/-- A command of domain `d` has been counted (R309). -/
def State.counted (s : State) (d : Nat) : State := { s with commands := s.commands.put d (s.commands.get 0 d + 1) }

/-- A command has been answered with a status: its CMD_DONE record is queued, and the command ends with it (R309, R417). -/
def State.answered (s : State) (d : Nat) (p : Option Nat) (cmd : List Byte) (st : Status) : State :=
  (s.cmdDone d p (nbits (field cmd 0 8) 0 8) (nbits (field cmd 0 8) 48 16) (cmdReq cmd) st).ends st

/-- A ring command of opcode `op` whose entry stands in partition `p` of its domain, under the incarnation it names (R309). -/
def State.names (s : State) (d p op : Nat) (cmd : List Byte) : Prop :=
  wfCommand cmd = true ∧ field cmd 0 1 = op ∧ s.partOfReq (cmdReq cmd) = some p ∧ s.ownerOf p = d
    ∧ (op ≠ 1 → nbits (field cmd 0 8) 32 16 = (s.req (cmdReq cmd)).incarn)

/-- The submission ring of a domain, polled in state `u`: an unreadable tail applies nothing, a tail too far ahead halts the ring, and
otherwise every new entry is taken and counted (R416). -/
def State.polls (u : State) (d : Nat) (t : State) : Prop :=
  let x := u.devRead (u.fld (sqBase d) 0 52 - 8) 8
  let head := u.fld (sqHead d) 0 32
  let new := (2 ^ 32 + field x.2.1 0 4 - head) % 2 ^ 32
  let size := 2 ^ bits (u.reg (sqCtrl d)) 1 4
  (x.2.2 ≠ .ok → t.fld (sqHead d) 0 32 = head ∧ t.commands = u.commands)
  ∧ (x.2.2 = .ok → size < new →
      bit (t.reg (sqCtrl d)) 8 = true ∧ t.flagged (Pg.dq d) 0 = true ∧ t.fld (sqHead d) 0 32 = head ∧ t.commands = u.commands)
  ∧ (x.2.2 = .ok → new ≤ size →
      t.fld (sqHead d) 0 32 = (head + new) % 2 ^ 32 ∧ t.commands.get 0 d = u.commands.get 0 d + new
        ∧ bit (t.reg (sqCtrl d)) 8 = bit (u.reg (sqCtrl d)) 8)

/-- Port `i` can send `n` short transactions of the requester's channel at once (R409, R410). -/
def State.portOpen (s : State) (i n : Nat) : Prop :=
  (s.port i).mode = .up ∧ (s.port i).queue = [] ∧ n ≤ (s.port i).reqCred ∧ (s.port i).replay.length + n ≤ 4096

/-- A link that has just begun training: numbers, replay buffer and credits start anew, and an IDENT has gone out (R380, R381). -/
def Link.trains (k : Link) (clk : Nat) : Link :=
  { k with mode := .training, cause := 0, trainClk := clk, peerValid := false, rtt := none, pings := 0, txSeq := 0, rxSeq := 0
           replay := [], naked := false, credits := [64, 64, 64, 64, 128, 128], freed := [0, 0, 0, 0, 0, 0], partials := {}
           ctrlFlits := k.ctrlFlits + 1 }

/-- A link that has left UP with nothing queued (R379). -/
def Link.left (k : Link) (m : LinkMode) (cause clk : Nat) : Link :=
  { k with mode := m, cause := cause, downClk := clk, replay := [], queue := [], partials := {}, naked := false }

/-- A flit is the next in sequence of its link: decoded, with its CRC-32C and the expected number (R378). -/
def Link.takes (k : Link) (f : List Byte) (decoded : Bool) : Bool :=
  decoded && (crc32c (f.take 252)).toNat == field f 252 4 && field f 248 2 % 4096 == k.rxSeq

/-- A control frame with its CRC-64, sent on a link without a route (R389). -/
def ctrlOut (l : Nat) (t : CType) (body : List Byte) : Out := .ctrl l t.code 0 false (body ++ toLe 8 (crc64 body).toNat)

/-- A control frame with its CRC-64, flooded on a link (R389). -/
def floodOut (l : Nat) (t : CType) (body : List Byte) : Out := .ctrl l t.code 0 true (body ++ toLe 8 (crc64 body).toNat)

/-- A port that has just begun training: numbers and credits start anew (R406, R409). -/
def Port.trains (p : Port) (clk : Nat) : Port :=
  { p with mode := .training, cause := 0, identOk := false, trainClk := clk, delays := [], txSeq := 0, rxSeq := 0, replay := []
           sent := [], naked := false, reqCred := 0, rspCred := 0, reqFreed := 2048, rspFreed := 2048, reqIn := [], rspIn := [] }

/-- A port that has left UP owing its node nothing (R408). -/
def Port.left (p : Port) (m : PortMode) (cause clk : Nat) : Port :=
  { p with mode := m, cause := cause, downClk := clk, replay := [], sent := [], queue := [], reqIn := [], rspIn := [] }

/-- A frame is the next in sequence of its port: decoded, with its CRC-32C and the expected number (R409). -/
def Port.takes (p : Port) (f : List Byte) (decoded : Bool) : Bool :=
  decoded && (crc32c (f.take 508)).toNat == field f 508 4 && field f 6 2 == p.rxSeq

/-- The IDENT a port sends (R407). -/
def State.identOut (s : State) (i : Nat) : Out :=
  .portMsg i 1 (toLe 2 (s.fld (Pg.fab + 0x100) 16 16) ++ toLe 1 s.boot.slotId ++ toLe 1 i ++ toLe 4 s.fabric.epoch)

/-- A request of a node has been dealt with: answered where an answer is owed, its frames freed, and ended with its status (R409, R411). -/
def State.dealt (s : State) (i : Nat) (t : Trans) (st : Status) (data : List Byte) : State :=
  (((if st = .ok ∨ t.answered = true then s else s.writeReject i (t.addr % 2 ^ 52) st) |> fun u =>
    if t.answered then u.sendRsp i t.tag st data else u).freeReq i t.data.length).ends st

/-- The command that `MB_GO` of a domain's mailbox gives, by its row. -/
def MbOp.cmd (d : Fin 4) : MbOp → Instr
  | .logRead => .logRead d
  | .attest => .attest d
  | .certRead => .certRead d
  | .fwStage => .fwStage d
  | .recordStage => .recordStage d
  | .fwActivate => .fwActivate d
  | .reset => .mbReset d

/-- A mailbox takes the command it names: not BUSY, its sender may send it, the firmware serves it, its buffer is the domain's (R441,
R442, R476, R477). -/
def State.mbTakes (s : State) (d : Nat) (op : MbOp) : Prop :=
  s.mbOp d = some op ∧ s.passes d (Pg.mb d + 0x118) = true ∧ (s.mbox d).mode ≠ .busy ∧ (op.steward = true → d = 0)
    ∧ s.coresRun = true ∧ (op.early = true ∨ s.isReady = true ∨ s.boot.phase = .fwFault)
    ∧ (op.buffered = true → s.mbBufOk d = true)

/-- A mailbox that has just taken its command (R442). -/
def State.mbTaken (s : State) (d : Nat) : Mbox :=
  { mode := .busy, opcode := s.fld (Pg.mb d + 0x100) 0 8, tag := s.fld (Pg.mb d + 0x100) 16 16, goClk := s.clk }

/-- Where a command has its effect, only these kinds of state may differ. -/
def changesOnly (c : Instr) (ks : List Kind) : Prop := ∀ s t, exec c s = .next t → s.onlyChanges ks t

/-- Where a command has its effect, only these kinds of state differ, before what a stop that it found takes with it (R35, R290). -/
def lossesOnly (c : Instr) (ks : List Kind) : Prop :=
  ∀ s t, exec c s = .next t → ∃ u : State, t = u.afterLoss s ∧ s.onlyChanges ks u

/-- The kinds of state that a stop of the module or of the bulk tier takes with it (R35, R290). -/
def lossKinds : List Kind :=
  Kind.events ++ [.mem, .ctrs, .seqs, .regions, .out, .tolvys, .rowSlots, .bulk, .tiles, .xslots, .links, .fabric, .reqs, .svs]

end Sys2Proof.Machine

open Sys2Proof Sys2Proof.Machine

/-- The queue of waiting commands is the block's interface (log entry 60): first in, first out. -/
def Obligations.StepTakesFront : Prop :=
  ∀ (c : Instr) (cs : List Instr) (s : State),
    step { s with pending := c :: cs } = exec c { s with pending := cs }
      ∧ (s.pending = c :: cs → step s = exec c { s with pending := s.pending.drop 1 })

/-- The idle step is the model's choice (log entry 48); how CT advances in it is R40. -/
def Obligations.IdleStepTicks : Prop :=
  ∀ s : State, s.pending = [] →
    ∃ t, step s = .next t ∧ t.clk = s.clk + 1 ∧ s.onlyChanges [.clk, .time] t
      ∧ (s.time.running = false → t.time = s.time)
      ∧ (s.time.running = true → (s.time.slew = 0 ∨ (s.clk + 1) % 256 ≠ 0) → t.time = { s.time with ct := s.time.ct + 1 })
      ∧ (s.time.running = true → 0 < s.time.slew → (s.clk + 1) % 256 = 0 →
          t.time = { s.time with slew := s.time.slew - 1 })
      ∧ (s.time.running = true → s.time.slew < 0 → (s.clk + 1) % 256 = 0 →
          t.time = { s.time with ct := s.time.ct + 2, slew := s.time.slew + 1 })

/-- No row of the table stops on operands that a sender can form; what the refused ones are is log entry 61. -/
def Obligations.CommandsComplete : Prop :=
  ∀ (c : Instr) (s : State),
    (c.wf = true → ∃ t, exec c s = .next t)
      ∧ (c.wf = false → ∃ why, exec c s = .refused (.illFormed why))

/-- The canonical form of memory is the model's (log entry 2): equal memories are equal data. -/
def Obligations.StepsKeepMemoryCanonical : Prop :=
  ∀ s t : State, s.canonical = true → step s = .next t → t.canonical = true

/-- The queue is the sender's (log entry 60) and free values are used once (log entry 4). -/
def Obligations.StepsOnlyGrow : Prop :=
  ∀ s t : State, step s = .next t →
    t.pending = s.pending.drop 1 ∧ s.out <+: t.out ∧ s.free ≤ t.free

/-- Read after write, for the model's one home of all memories: stacks, bulk tier, working stores, tiles, flash (log entry 2 names what a byte
that nothing has written reads as). -/
def Obligations.MemoryReadAfterWrite : Prop :=
  ∀ (s : State) (sp : Space) (o : Nat), s.canonical = true →
    (∀ bs : List Byte, o + bs.length ≤ 2 ^ 60 →
      let t := s.wrMem sp o bs
      t.rdMem sp o bs.length = bs ∧ s.keepsMemBut t sp o bs.length ∧ t.canonical = true ∧ s.onlyChanges [.mem] t)
    ∧ (∀ n : Nat, o + n ≤ 2 ^ 60 →
      let t := s.clrMem sp o n
      t.rdMem sp o n = (List.range n).map (fun i => memDefault (sp.key (o + i))) ∧ s.keepsMemBut t sp o n ∧ t.canonical = true
        ∧ s.onlyChanges [.mem] t)

/-- The words the sequencers read (R84): class, function, queue, signal, index and payload fields. -/
def Obligations.SequencerWordsRoundTrip : Prop :=
  ∀ i : SInstr, i.wf = true →
    SInstr.decode i.encode = some i ∧ i.encode < 2 ^ 128 ∧ ∀ j : SInstr, j.wf = true → j.encode = i.encode → j = i

/-- R376; the resource registers are those R364 lists. -/
def Obligations.ResetDomainState : Prop :=
  let s := State.reset
  s.attached 0 = true ∧ s.attached 1 = false ∧ s.attached 2 = false ∧ s.attached 3 = false
    ∧ (∀ p < 16, (s.part p).mode = .free ∧ s.ownerOf p = 0 ∧ s.reg (Pg.pt p + 0x110) = 0 ∧ s.reg (Pg.pt p + 0x118) = 0
      ∧ s.reg (Pg.slot p + 0x028) = 0 ∧ s.reg (Pg.slot p + 0x030) = 0
      ∧ ∀ o ∈ [0x00, 0x08, 0x10], s.reg (Pg.sv + 0x800 + 0x40 * p + o) = 0)
    ∧ (∀ e < 40, ∀ q < 64, s.fld (keyAt (Pg.xe e + 0x130) q) 32 4 = 0)
    ∧ (∀ r < 64, (s.memRegion r).mode = 0 ∧ (s.memRegion r).share = 0)

/-- Reset values the spec gives: sequencers (R100), tiles (R146), links, groups and queues (R405). -/
def Obligations.ResetUnitState : Prop :=
  let s := State.reset
  s.canonical = true ∧ s.pending = [] ∧ s.out = [] ∧ s.time.ct = 0 ∧ s.time.mode = .free
    ∧ (∀ k, (s.seq k).mode = .idle ∧ (s.seq k).starts = [] ∧ ∀ i, (s.seq k).word i = 0 ∧ (s.seq k).ixReg i = 0 ∧ (s.seq k).sum.get 0 i = 0)
    ∧ (∀ k < 16, ∀ r < 16, s.reg (keyAt (Pg.ws k + 0x108) r) = 0)
    ∧ SInstr.decode 0 = some { op := .nop }
    ∧ s.tiles = {} ∧ (∀ k < 16, ∀ o < 64, s.rdMem .tile (0x40000 * k + o) 1 = [0])
    ∧ (∀ l, (s.link l).mode = .off)
    ∧ (∀ g, (s.group g).en = false ∧ (s.group g).members = []) ∧ (∀ q, (s.collQ q).mode = .idle)
    ∧ s.reg (Pg.fab + 0x100) = pack [(1, 0), (1, 3), (1, 6), (1, 10)]
    ∧ (∀ l < 96, s.reg (Pg.lnk l + 0x100) = pack [(1, 1), (50, 16), (1000, 32)]
      ∧ ∀ o ∈ [0x110, 0x118, 0x120, 0x128, 0x130, 0x138, 0x148], s.reg (Pg.lnk l + o) = 0)
    ∧ s.fabLive = word (2 ^ s.boot.slotId)

/-- REG_WRITE: refused (R9, R361, R426), ignored on an absent unit's page (R5), stored in the register's defined bits (R10), or staged
(R438). -/
def Obligations.RegisterWriteEffects : Prop :=
  ∀ (s : State) (dom : Fin 4) (v : Word),
    (∀ addr, s.accessOk dom addr true = false → exec (.regWrite dom addr v) s = .next (s.ends .access))
    ∧ (∀ addr, s.accessOk dom addr true = true → s.pageFitted (pageOf addr) = false →
        exec (.regWrite dom addr v) s = .next (s.ends .ok))
    ∧ (∀ addr, s.accessOk dom addr true = true → s.pageFitted (pageOf addr) = true →
        s.reaches dom addr = false ∨ (dom.val ≠ 0 ∧ stewardOnly addr = true) →
        exec (.regWrite dom addr v) s = .next (s.ends .access))
    ∧ (∀ (k : Fin 16) (e : Fin 40) (d : Fin 4),
        ∀ r ∈ [(Pg.ws k + 0x100, 0xF), (Pg.vec k + 0x128, 0xF), (Pg.qnt k + 0x108, 0x1F), (Pg.qnt k + 0x148, 0xF0F),
               (Pg.qnt k + 0x178, 0xFFFF), (Pg.xe e + 0x108, 0x3F), (Pg.stkCommon + 0x100, 0xF), (Pg.bulk + 0x158, 0xF),
               (Pg.sv + 0x118, 0x3F), (Pg.fab + 0x200, 0x3F), (Pg.ig + 0x180, 0x3F), (Pg.ig + 0x800, 0x1FF),
               (Pg.sec + 0x800, 0x3F), (Pg.dm d + 0x110, 0xFFFF)],
        s.passes dom r.1 = true →
        exec (.regWrite dom r.1 v) s = .next ((s.setReg r.1 (v &&& word r.2)).ends .ok))
    ∧ (s.passes dom (Pg.sec + 0x808) = true →
        exec (.regWrite dom (Pg.sec + 0x808) v) s
          = .next ((s.stage dom (keyAt (Pg.sec + 0x808) (s.fld (Pg.sec + 0x800) 0 6)) (v &&& word (fmask 0 21 + fmask 32 21))).ends .ok))

/-- EVT_STAT_CLEAR and EVT_COUNTER_CLEAR (R431), and HARDEN_SCRUB (R434; the record of a rewrite is log entry 43). -/
def Obligations.EventClearsAndScrub : Prop :=
  ∀ (s : State),
    (∀ (dom : Fin 4) (page : Nat) (v : Word), wfPage page = true → s.passes dom (page + Off.evtStat) = true →
      exec (.evtStatClear dom page v) s
        = .next ((s.setReg (page + Off.evtStat) (s.reg (page + Off.evtStat) &&& ~~~v)).ends .ok))
    ∧ (∀ (dom : Fin 4) (page : Nat) (v : Word), wfPage page = true → s.passes dom (page + Off.evtCntClr) = true →
      ∃ t, exec (.evtCounterClear dom page v) s = .next t ∧ s.onlyChanges [.regs, .done] t ∧ t.done = .ok
        ∧ (∀ b < 64, t.eventCount page b = if bit v b then 0 else s.eventCount page b)
        ∧ ∀ k, (∀ b < 64, bit v b = true → k ≠ page + Off.evtCnt + 8 * (b / 4)) → t.reg k = s.reg k)
    ∧ ((∀ k, (s.hreg k).a = (s.hreg k).b ∧ (s.hreg k).b = (s.hreg k).c) →
      exec (.hardenScrub []) s = .next (s.periodic 7 usTicks))
    ∧ (∀ (k : Nat) (copy : Fin 3) (mask : Word), k < 0x800000 → hardened k = true → mask ≠ 0 →
      (∀ j, (s.hreg j).a = (s.hreg j).b ∧ (s.hreg j).b = (s.hreg j).c) →
      ∃ t, exec (.hardenScrub [(k, copy, mask)]) s = .next t ∧ s.onlyChanges [.clk, .time, .timers, .regs, .log, .logNext, .free] t
        ∧ (∃ r, t.log.getLast? = some r ∧ r.err.type = 0x43 ∧ r.err.sev = 1 ∧ r.err.addr = k)
        ∧ t.hreg k = s.hreg k ∧ t.fld (hardenPage k + Off.harden) 0 16 = sat 0xFFFF (s.fld (hardenPage k + Off.harden) 0 16 + 1)
        ∧ t.fld (hardenPage k + Off.harden) 16 9 = k % 0x1000 / 8
        ∧ (t.reg (Pg.ig + 0x138)).toNat = sat maxWord ((s.reg (Pg.ig + 0x138)).toNat + 1))

/-- R429, for every page that has the common layout. -/
def Obligations.BlockControlIgnored : Prop :=
  ∀ (s : State) (dom : Fin 4) (page : Nat) (v : Word), wfPage page = true →
    s.regValue dom (page + Off.blkCtrl) = 0
      ∧ (s.passes dom (page + Off.blkCtrl) = true → exec (.regWrite dom (page + Off.blkCtrl) v) s = .next (s.ends .ok))

/-- BEACON_MISS (R512), HOLDOVER_EXPIRE (R43), CAD_TIME_CTRL_WRITE (R513) and UPSTREAM_CHANGE (R41). A lowered `BEACON_TIMEOUT` acts
with the write: the model's reading, log entry 52. -/
def Obligations.TimeStateEffects : Prop :=
  ∀ (s : State),
    (s.time.mode = .free → exec .beaconMiss s = .next s)
    ∧ (s.time.mode ≠ .free →
      ∃ t, exec .beaconMiss s = .next t
        ∧ s.onlyChanges (.clk :: .time :: Kind.events) t ∧ s.regsKept [] t
        ∧ t.clk = max s.clk s.time.missDue ∧ t.time.missed = sat 65535 (s.time.missed + 1)
        ∧ (s.time.mode = .locked → s.beaconTimeout ≤ t.time.missed →
            t.time.mode = .holdover ∧ t.time.holdClk = t.clk ∧ t.flagged Pg.cad 1 = true)
        ∧ (s.time.mode = .locked → t.time.missed < s.beaconTimeout → t.time.mode = .locked ∧ t.regs = s.regs)
        ∧ (s.time.mode = .acquire ∨ s.time.mode = .unlocked → t.time.mode = s.time.mode ∧ t.time.run = 0 ∧ t.regs = s.regs)
        ∧ (s.time.mode = .holdover → t.time.mode = .holdover ∧ t.regs = s.regs))
    ∧ (s.time.mode = .holdover →
      ∃ t, exec .holdoverExpire s = .next t
        ∧ s.onlyChanges (.clk :: .time :: Kind.events) t ∧ s.regsKept [] t
        ∧ t.clk = max s.clk (s.time.holdClk + s.holdoverTicks) ∧ t.time.mode = .unlocked ∧ t.flagged Pg.cad 2 = true)
    ∧ (s.time.mode ≠ .holdover → exec .holdoverExpire s = .next s)
    ∧ (∀ (dom : Fin 4) (v : Word), s.passes dom timeCtrl = true →
      (bits v 0 2 = 3 → exec (.cadTimeCtrlWrite dom v) s = .next (s.ends .access))
      ∧ (bits v 0 2 ≠ 3 →
        ∃ t, exec (.cadTimeCtrlWrite dom v) s = .next t
          ∧ s.onlyChanges (.time :: .done :: Kind.events) t ∧ s.regsKept [timeCtrl] t
          ∧ t.reg timeCtrl = v &&& 0x000000FFFFFF7F1F#64 ∧ t.done = .ok
          ∧ (bits v 0 2 ≠ s.role → bits v 0 2 = 0 → t.time.mode = .free)
          ∧ (bits v 0 2 ≠ s.role → bits v 0 2 ≠ 0 → s.role = 0 →
              t.time.mode = .acquire ∧ t.time.missed = 0 ∧ t.time.beaconClk = s.clk ∧ t.time.gotFirst = false)
          ∧ (bits v 0 2 ≠ s.role → bits v 0 2 ≠ 0 → s.role ≠ 0 →
              t.time.mode = s.time.mode ∧ t.time.upstream = 127 ∧ t.flagged Pg.cad 4 = true)
          ∧ (bits v 0 2 = s.role →
              t.time.mode = if s.time.mode = .locked ∧ max 2 (bits v 32 8) ≤ s.time.missed then .holdover else s.time.mode)))
    ∧ (∀ (head : Fin 64) (l : Nat), s.role = 2 → bit (s.reg timeCtrl) 4 = true →
      ((s.towards head).flatMap s.upLinks).min? = some l →
      (l = s.time.upstream → exec (.upstreamChange head) s = .next s)
      ∧ (l ≠ s.time.upstream →
        ∃ t, exec (.upstreamChange head) s = .next t
          ∧ s.onlyChanges (.time :: Kind.events) t ∧ s.regsKept [] t
          ∧ t.time = { s.time with upstream := l } ∧ t.flagged Pg.cad 4 = true))

/-- BEACON_RECEIVE (R42–R45, R512). -/
def Obligations.BeaconEffect : Prop :=
  ∀ (s : State) (src : Source) (frame : List Byte), wfSource src frame = true →
    (beaconBody src frame = none → exec (.beaconReceive src frame) s = .next s)
    ∧ (∀ ct st hops, beaconBody src frame = some (ct, st, hops) →
      (s.beaconSource src = false ∨ s.time.mode = .free →
        exec (.beaconReceive src frame) s
          = .next (match src with | .port i => s.bump (Pg.port i.val + 0x140) 1 | .link _ => s))
      ∧ (s.beaconSource src = true → s.time.mode ≠ .free →
        ∃ t, exec (.beaconReceive src frame) s = .next t
          ∧ s.onlyChanges (.time :: .links :: .out :: Kind.events) t ∧ s.regsKept [] t
          ∧ t.time.missed = 0 ∧ t.time.beaconClk = s.clk ∧ t.time.gotFirst = true ∧ t.time.hops = (hops + 1) % 128
          ∧ t.time.offset = clampInt (-32767) 32767 (s.beaconOffset src ct)
          ∧ (if (s.time.mode = .acquire ∧ s.time.everLocked = false ∧ s.time.gotFirst = false) ∨ s.beaconOffset src ct < -4096 then
              t.time.ct = ct + s.sourceDelay src ∧ t.time.slew = 0
            else t.time.ct = s.time.ct ∧ t.time.slew = s.beaconOffset src ct)
          ∧ (¬ (s.time.mode = .acquire ∧ s.time.everLocked = false ∧ s.time.gotFirst = false) → s.beaconOffset src ct < -4096 →
              t.flagged Pg.cad 3 = true)
          ∧ t.time.mode = (match s.time.mode with
            | .free => .free
            | .acquire | .unlocked =>
              if st = 2 ∧ (s.beaconOffset src ct).natAbs ≤ 16 ∧ s.time.run + 1 = 16 then .locked else s.time.mode
            | .locked | .holdover => if st = 2 then .locked else if st = 3 then .holdover else .unlocked)
          ∧ (t.time.mode = .locked → s.time.mode ≠ .locked → t.flagged Pg.cad 0 = true)
          ∧ (t.time.mode = .holdover → s.time.mode ≠ .holdover → t.flagged Pg.cad 1 = true)
          ∧ (t.time.mode = .unlocked → s.time.mode ≠ .unlocked → t.flagged Pg.cad 2 = true)))

/-- SLOT_ENABLE (R46), SLOT_DISABLE (R72), MARK_RECEIVE (R48–R50), ACK_RECEIVE and FRAME_RESEND (R390), MARK_EFFECT (R49), MARK_TIMEOUT
(R55), STEP_LIMIT (R64), DONE_REPORT_RECEIVE (R54). -/
def Obligations.MarkEffects : Prop :=
  ∀ (s : State),
    (∀ (dom : Fin 4) (p : Fin 16) (v : Word), s.passes dom (Pg.slot p) = true →
      (bit (s.reg (Pg.slot p)) 0 = false →
        (s.time.mode ≠ .locked → exec (.slotEnable dom p v) s = .next (s.ends .access))
        ∧ (s.time.mode = .locked → (s.slot p).busy = false → bit v 2 = false → (s.sv p).batch = none →
          exec (.slotEnable dom p v) s
            = .next (((((s.setReg (Pg.slot p) (setBits v 0 1 1 &&& 0xFF07#64)).modSlot p fun sl =>
                { sl with mode := .waiting, marks := [], prevStep := none, lastMark := none, haltCause := 0, planHead := 0
                          planLast := none, planFirst := none, planEmptyAt := none, planHeld := false, sentMark := none
                          closing := false, done := {}, markTimedOut := false }).ends .ok).modPart p fun q =>
                { q with run := 0, replay := false }).modSv p fun w => { w with stage0 := true, stage9 := false })))
      ∧ (bit (s.reg (Pg.slot p)) 0 = true → bits v 1 2 = bits (s.reg (Pg.slot p)) 1 2 →
          bits v 8 8 = bits (s.reg (Pg.slot p)) 8 8 →
        ∃ t, exec (.slotDisable dom p v) s = .next t ∧ s.onlyChanges [.regs, .slots, .evq, .evLost, .screens, .done] t
          ∧ t.reg (Pg.slot p) = setBits v 0 1 0 &&& 0xFF07#64 ∧ s.regsKept [Pg.slot p] t ∧ t.done = .ok
          ∧ (t.slot p).marks = [] ∧ (t.slot p).step = (s.slot p).step
          ∧ ((s.slot p).busy = false → (t.slot p).mode = .disabled)
          ∧ ((s.slot p).busy = true → (s.slot p).mode ≠ .halted → (t.slot p).mode = (s.slot p).mode ∧ (t.slot p).closing = true)
          ∧ ∀ q : Fin 16, q ≠ p → t.slot q = s.slot q))
    ∧ (∀ (l : Fin 96) (f : List Byte), wfFrame f = true →
      ((s.link l).mode ≠ .up → exec (.markReceive l f) s = .next s)
      ∧ ((s.link l).mode = .up → frameSound f = false →
        exec (.markReceive l f) s = .next (s.modLink l fun k => { k with frameErrs := k.frameErrs + 1 }))
      ∧ ((s.link l).mode = .up → frameSound f = true →
        let m := Mark.ofFrame f
        (s.frameSeen .mark m.group m.step m.leader f = true →
          exec (.markReceive l f) s = .next (s.ackFrame l .mark m.group m.step m.leader))
        ∧ (s.frameSeen .mark m.group m.step m.leader f = false →
          ∃ t, exec (.markReceive l f) s = .next t
            ∧ s.onlyChanges [.regs, .slots, .evq, .evLost, .out, .screens, .links, .fabric] t ∧ s.regsKept [] t
            ∧ (CType.mark.code, m.group, m.step, m.leader, f.take 24) ∈ t.fabric.seen
            ∧ (∀ p : Fin 16, s.slotEnabled p = true → s.slotGroup p = m.group → (s.slot p).mode ≠ .halted →
                (m.halt = false → (s.slot p).prevStep = none ∨ (∃ n, (s.slot p).prevStep = some n ∧ m.step = (n + 1) % 2 ^ 48) →
                  (t.slot p).prevStep = some m.step ∧ (t.slot p).lastMark = some m
                  ∧ (t.slot p).marks = (s.slot p).marks ++ [(m, decide (m.markCt < s.ct))]
                  ∧ (m.markCt < s.ct → t.slotFlagged p 1 = true))
                ∧ (m.halt = true → (t.slot p).mode = .halted ∧ (t.slot p).marks = [] ∧ t.slotFlagged p 13 = true)
                ∧ (∀ n, m.halt = false → (s.slot p).prevStep = some n → m.step ≠ (n + 1) % 2 ^ 48 →
                  (t.slot p).mode = .halted ∧ t.slotFlagged p 2 = true ∧ t.slotFlagged p 13 = true))
            ∧ (∀ p : Fin 16, s.slotEnabled p = false ∨ s.slotGroup p ≠ m.group → t.slot p = s.slot p))))
    ∧ (∀ (l : Fin 96) (f : List Byte), wfFrame f = true → (s.link l).mode = .up → frameSound f = true →
      ∃ t, exec (.ackReceive l f) s = .next t ∧ s.onlyChanges [.fabric] t
        ∧ t.fabric = { s.fabric with unacked := s.fabric.unacked.filter fun u =>
            !(u.link == l.val && u.ctype == field f 0 1 && u.group == field f 1 1 && u.step == field f 2 6
              && u.origin == field f 8 1 % 64) })
    ∧ (∀ u rest, s.fabric.unacked = u :: rest → u.resends < 8 →
      ∃ t, exec .frameResend s = .next t ∧ s.onlyChanges [.clk, .time, .out, .links, .fabric] t
        ∧ t.clk = max s.clk (u.sentClk + 800)
        ∧ t.fabric = { s.fabric with unacked := rest ++ [{ u with resends := u.resends + 1, sentClk := t.clk }] }
        ∧ t.out = s.out ++ [.ctrl u.link (if u.ctype = 1 then CType.mark.code else CType.done.code) u.dst u.flood
            (u.body ++ toLe 8 (crc64 u.body).toNat)])
    ∧ (∀ (p : Fin 16) (pre post : List (Mark × Bool)) (m : Mark), (s.slot p).marks = pre ++ (m, false) :: post →
        pre.all (fun x => x.2) = true →
      ∃ t, exec (.markEffect p) s = .next t ∧ s.onlyChanges [.clk, .time, .slots] t
        ∧ t.slot p = { s.slot p with marks := pre ++ (m, true) :: post } ∧ ∀ q : Fin 16, q ≠ p → t.slot q = s.slot q)
    ∧ (∀ (p : Fin 16) (m : Mark), (s.slot p).lastMark = some m → s.slotEnabled p = true → (s.slot p).mode ≠ .halted →
        (s.slot p).markTimedOut = false →
      ∃ t, exec (.markTimeout p) s = .next t ∧ s.onlyChanges [.clk, .time, .regs, .slots, .evq, .evLost] t ∧ s.regsKept [] t
        ∧ t.slot p = { s.slot p with markTimedOut := true } ∧ t.slotFlagged p 3 = true)
    ∧ (∀ p : Fin 16, (s.slot p).busy = true → s.fld (Pg.slot p + 0x020) 0 32 ≠ 0 → (s.slot p).stepLimited = false →
      ∃ t, exec (.stepLimit p) s = .next t ∧ s.onlyChanges [.clk, .time, .regs, .slots, .evq, .evLost] t ∧ s.regsKept [] t
        ∧ t.slot p = { s.slot p with stepLimited := true } ∧ t.slotFlagged p 12 = true)
    ∧ (∀ (l : Fin 96) (dst : Fin 64) (flood : Bool) (f : List Byte) (p : Fin 16), wfFrame f = true → (s.link l).mode = .up →
        frameSound f = true → s.frameSeen .done (field f 6 1) (field f 0 6) (field f 7 1 % 64) f = false →
        s.slotLeader p = true → s.slotGroup p = field f 6 1 → (flood = true ∨ dst.val = s.boot.slotId) →
      ∃ t, exec (.doneReportReceive l dst flood f) s = .next t
        ∧ (CType.done.code, field f 6 1, field f 0 6, field f 7 1 % 64, f.take 24) ∈ t.fabric.seen
        ∧ (if field f 7 1 / 64 % 2 = 1 then field f 7 1 % 64 ∈ (t.slot p).ready
          else (t.slot p).done.get (2 ^ 48) (field f 7 1 % 64) = field f 0 6))

/-- STEP_START and STEP_DONE (R51, R61, R63), BOUND_APPLY_TIMEOUT (R488), IDLE_WINDOW_CLOSE (R65), PLAN_EMPTY and MARK_SEND (R52). -/
def Obligations.StepEffects : Prop :=
  ∀ (s : State),
    (∀ (p : Fin 16) (m : Mark) (rest : List (Mark × Bool)), (s.slot p).marks = (m, true) :: rest → (s.slot p).busy = false →
        (s.slot p).mode ≠ .halted → (s.slot p).mode ≠ .disabled → s.enginesRun = true →
        (((s.passNops p (s.schedCount p + 1)).leftovers p (s.schedCount p + 1)).slot p).held = none →
      ∃ t, exec (.stepStart p) s = .next t
        ∧ (let u := (s.passNops p (s.schedCount p + 1)).leftovers p (s.schedCount p + 1)
           (t.slot p).step = m.step ∧ (t.slot p).cur = some m ∧ (t.slot p).marks = rest ∧ (t.slot p).busy = true
           ∧ (t.slot p).mode = .running ∧ (t.slot p).cursor = 0 ∧ (t.slot p).startCt = s.ct ∧ (t.slot p).swap = false
           ∧ (t.slot p).bank = (if (u.slot p).swap then !(u.slot p).bank else (u.slot p).bank)
           ∧ (t.slot p).stepBank = (t.slot p).bank))
    ∧ (∀ (p : Fin 16) (m : Mark) (c : Nat), (s.slot p).cur = some m → (s.slot p).busy = true →
        s.absCtr p (s.fld (Pg.slot p + 0x018) 0 15) = some c → max 1 (s.fld (Pg.slot p + 0x018) 32 16) ≤ (s.settleWaits c).ctr c →
      ∃ t, exec (.stepDone p) s = .next t ∧ t.ctr c = (s.settleWaits c).ctr c - max 1 (s.fld (Pg.slot p + 0x018) 32 16)
        ∧ (∀ i, i ≠ c → t.ctr i = (s.settleWaits c).ctr i) ∧ (t.slot p).busy = false ∧ (t.slot p).lastDur = s.ct - (s.slot p).startCt
        ∧ (t.slot p).lastLate = (s.slot p).startCt - m.markCt ∧ (t.sv p).stage9 = true
        ∧ (s.slotLeader p = false → (t.slot p).mode =
            if (s.slot p).mode = .halted then .halted else if (s.slot p).closing then .disabled else .idle)
        ∧ (m.markCt + m.span < s.ct ∨ (s.slot p).marks.any (fun x => x.2) = true → t.slotFlagged p 0 = true))
    ∧ (∀ c cs, s.power.boundClk.items.map (fun e => e.2) = c :: cs → (∀ p < 16, s.slotEnabled p = false) →
      ∃ t, exec .boundApplyTimeout s = .next t ∧ t.clk = max s.clk (cs.foldl min c + 1000 * usTicks)
        ∧ s.onlyChanges (.clk :: .power :: .time :: .tolvys :: .bulk :: Kind.events) t
        ∧ (∀ e ∈ t.power.boundClk.items, e ∈ s.power.boundClk.items ∧ t.clk < e.2 + 1000 * usTicks)
        ∧ ∀ e ∈ s.power.boundClk.items, e.2 + 1000 * usTicks ≤ t.clk → 32 ≤ e.1 → ∀ x ∈ t.bulk.oldBound.items, x.1 ≠ e.1 - 32)
    ∧ (∀ (p : Fin 16) (m : Mark), (s.slot p).idleOpen = true → (s.slot p).lastMark = some m →
      ∃ t, exec (.idleWindowClose p) s = .next t ∧ s.onlyChanges [.clk, .time, .slots, .screens] t
        ∧ t.slot p = { s.slot p with idleOpen := false }
        ∧ ∀ k ∈ s.slicesOf p ++ s.twinsOf p, s.idleUntil.get 0 k ≤ t.clk → (t.screens.get {} k).testing = none)
    ∧ (∀ (p : Fin 16) (m : Mark), (s.slot p).sentMark = some m → s.planRuns p = true → s.planAhead p = 0 →
        (s.slot p).planEmptyAt = none →
      ∃ t, exec (.planEmpty p) s = .next t ∧ s.onlyChanges [.clk, .time, .regs, .slots, .evq, .evLost] t ∧ s.regsKept [] t
        ∧ t.slot p = { s.slot p with planEmptyAt := some t.ct } ∧ t.slotFlagged p 4 = true)
    ∧ (∀ p : Fin 16, s.planRuns p = true → s.planReadable p = true → s.planAhead p ≠ 0 → s.planAhead p ≤ (s.planRing p).2 →
        (let r := s.devRead ((s.planRing p).1 + 32 * ((s.slot p).planHead % (s.planRing p).2)) 32
         let u := r.1.waitCt (field r.2.1 0 8 - r.1.slotLead p)
         let step := field r.2.1 8 6
         r.2.2 = .ok → (∀ l, (s.slot p).planLast = some l → step = (l + 1) % 2 ^ 48) →
         (step : Int) - u.lowestDone p ((s.slot p).planFirst.getD step) ≤ u.lagLimit p →
         ∃ t, exec (.markSend p) s = .next t
          ∧ (t.slot p).planHead = ((s.slot p).planHead + 1) % 2 ^ 32 ∧ (t.slot p).planLast = some step
          ∧ (t.slot p).planHeld = false ∧ (t.slot p).planEmptyAt = none
          ∧ ∃ m, (t.slot p).sentMark = some m ∧ m.step = step ∧ m.markCt = max (field r.2.1 0 8) (u.ct + u.slotLead p)
              ∧ m.held = decide (field r.2.1 0 8 < m.markCt) ∧ m.halt = false ∧ m.elastic = false
              ∧ (CType.mark.code, m.group, m.step, m.leader, m.body) ∈ t.fabric.seen))

/-- START_PROG, START_STREAM, SCHED_SIGNAL, POLL_RING, IDLE_WINDOW (R57, R58, R62), SCHED_CURSOR_RESUME (R60), SCHED_ENTRY_COMMIT and
SCHED_LOAD (R62), SCHED_SWAP_WRITE (R61), COUNTER_SET (R71). -/
def Obligations.ScheduleEffects : Prop :=
  ∀ (s : State),
    (∀ (p : Fin 16) (m : Mark) (i : Nat) (e : Word × Word),
      let w := s.entryState p m i e
      (∀ a c, (a, c) ∈ [(1, Instr.startProg p), (2, .startStream p), (3, .schedSignal p), (4, .pollRing p), (5, .idleWindow p)] →
        s.entryDue p a m i e → w.entryOk p e = false → exec c s = .next ((w.slotEvent p 9).cursorPast p i))
      ∧ (w.entryOk p e = true →
        (s.entryDue p 1 m i e →
          let r := w.postStarts ((maskList 16 (bits e.2 0 16)).map fun k => w.placedSlice p k) (bits e.2 16 14) (bits e.2 32 32)
          (r.2 = [] → exec (.startProg p) s = .next (r.1.cursorPast p i))
          ∧ (r.2 ≠ [] → exec (.startProg p) s
              = .next ((r.1.modSlot p fun sl => { sl with held := some (r.2, bits e.2 16 14, bits e.2 32 32) }).slotEvent p 10)))
        ∧ (s.entryDue p 2 m i e →
          let r := w.xArmDev (w.placedEngine p (bits e.2 0 6)) (bits e.2 8 6) p (bits e.2 16 48 * 64)
          (r.2 = .ok → exec (.startStream p) s = .next ((r.1.cursorPast p i).afterLoss s))
          ∧ (r.2 ≠ .ok → exec (.startStream p) s
              = .next (((r.1.xArmFail (w.placedEngine p (bits e.2 0 6)) (bits e.2 8 6) p r.2).cursorPast p i).afterLoss s)))
        ∧ (s.entryDue p 3 m i e → bits e.2 32 16 ≠ 0 → ∀ c, w.absCtr p (bits e.2 0 15) = some c →
          ∃ t, exec (.schedSignal p) s = .next t ∧ t.ctr c = min (s.ctr c + bits e.2 32 16) 0xFFFFFFFF
            ∧ (∀ j, j ≠ c → t.ctr j = s.ctr j) ∧ (t.slot p).cursor = i + 1
            ∧ (0xFFFFFFFF < s.ctr c + bits e.2 32 16 → t.slotFlagged p 11 = true))
        ∧ (s.entryDue p 4 m i e → exec (.pollRing p) s = .next (((w.sqRead (w.ownerOf p)).cursorPast p i).afterLoss s))
        ∧ (s.entryDue p 5 m i e →
          ∃ t, exec (.idleWindow p) s = .next t ∧ (t.slot p).cursor = i + 1
            ∧ (∀ k ∈ maskList 16 (bits e.2 0 16),
                t.idleUntil.get 0 (w.placedSlice p k) = w.clk + ceilDiv (bits e.2 16 16 * m.span) 65536)
            ∧ s.onlyChanges [.clk, .time, .regs, .slots, .evq, .evLost, .idleUntil] t)))
    ∧ (∀ (p : Fin 16) (ks : List Nat) (idx arg : Nat), (s.slot p).held = some (ks, idx, arg) →
      ((s.postStarts ks idx arg).2 = [] →
        ∃ t, exec (.schedCursorResume p) s = .next t ∧ s.onlyChanges [.slots, .seqs] t
          ∧ t.slot p = { s.slot p with held := none, cursor := (s.slot p).cursor + 1 } ∧ t.seqs = (s.postStarts ks idx arg).1.seqs)
      ∧ ((s.postStarts ks idx arg).2 ≠ [] →
        ∃ t, exec (.schedCursorResume p) s = .next t
          ∧ t.slot p = { s.slot p with held := some ((s.postStarts ks idx arg).2, idx, arg) }))
    ∧ (∀ (dom d : Fin 4) (v : Word), s.passes dom (domReg d 0x10) = true →
      let i := s.fld (domReg d 0) 0 14
      (s.entryPart d i = none → exec (.schedEntryCommit dom d v) s = .next (s.ends .access))
      ∧ (∀ p, s.entryPart d i = some p →
        (s.entryOk p (s.stagedOf dom (domReg d 8), v) = false → exec (.schedEntryCommit dom d v) s = .next (s.ends .access))
        ∧ (s.entryOk p (s.stagedOf dom (domReg d 8), v) = true →
          ∃ t, exec (.schedEntryCommit dom d v) s = .next t ∧ s.onlyChanges [.schedLo, .schedHi, .done] t ∧ t.done = .ok
            ∧ t.entryAt (!(s.slot p).bank) i = (entMask (s.stagedOf dom (domReg d 8)), v)
            ∧ (∀ b j, j < 16384 → (b, j) ≠ (!(s.slot p).bank, i) → t.entryAt b j = s.entryAt b j))))
    ∧ (∀ (dom d : Fin 4) (v : Word) (p : Nat), s.passes dom (domReg d 0x30) = true → s.entryPart d (bits v 0 14) = some p →
        let addr := s.fld (domReg d 0x28) 0 64
        let n := bits v 16 15
        let r := s.devRead addr (16 * n)
        let ents := (List.range n).map fun i => (word (field r.2.1 (16 * i) 8), word (field r.2.1 (16 * i + 8) 8))
        aligned addr 16 = true → bits v 0 14 + n ≤ s.schedBase p + s.schedCount p → n ≠ 0 →
        s.devCheck (.dom d) addr (16 * n) false = .ok → r.2.2 = .ok →
        (ents.all (fun e => r.1.entryOk p e) = true →
          ∃ t : State, exec (.schedLoad dom d v) s = .next (t.afterLoss s) ∧ t.done = .ok
            ∧ t.reg (domReg d 0x30) = pack [(bits v 0 14, 0), (n, 16), (0, 32), (0, 48)]
            ∧ (∀ j < n, ∀ x, ents[j]? = some x → t.entryAt (!(s.slot p).bank) (bits v 0 14 + j) = (entMask x.1, x.2)))
        ∧ (ents.all (fun e => r.1.entryOk p e) = false →
          ∃ t : State, exec (.schedLoad dom d v) s = .next (t.afterLoss s) ∧ t.done = .ok ∧ t.schedLo = s.schedLo ∧ t.schedHi = s.schedHi
            ∧ t.fld (domReg d 0x30) 48 8 = statusCode .access))
    ∧ (∀ (dom : Fin 4) (p : Fin 16) (v : Word), s.passes dom (Pg.slot p + 0x028) = true →
        bits v 0 14 = s.schedBase p → bits v 16 15 = s.schedCount p →
      exec (.schedSwapWrite dom p v) s
        = .next (((s.setReg (Pg.slot p + 0x028) (pack [(bits v 0 14, 0), (bits v 16 15, 16)])).modSlot p fun sl =>
            { sl with swap := true }).ends .ok))
    ∧ (∀ (dom d : Fin 4) (v : Word), s.passes dom (domReg d 0x20) = true →
      (s.domCtr d = none → exec (.counterSet dom d v) s = .next (s.ends .access))
      ∧ (∀ i, s.domCtr d = some i → exec (.counterSet dom d v) s = .next ((s.setCtr i (bits v 0 32)).ends .ok)))

/-- R72, for a write that passes the checks of its page. -/
def Obligations.SlotConfigLocked : Prop :=
  ∀ (s : State) (dom : Fin 4) (p : Fin 16) (v : Word), s.passes dom (Pg.slot p) = true →
    let old := s.reg (Pg.slot p)
    (bit old 0 = true → (bits v 1 2 ≠ bits old 1 2 ∨ bits v 8 8 ≠ bits old 8 8) →
      exec (.regWrite dom (Pg.slot p) v) s = .next (s.ends .access))
    ∧ (bit old 0 = false → bit v 0 = false →
      ∃ t, exec (.regWrite dom (Pg.slot p) v) s = .next t ∧ t.done = .ok ∧ s.onlyChanges [.regs, .done] t ∧ s.regsKept [Pg.slot p] t
        ∧ bits (t.reg (Pg.slot p)) 1 2 = bits v 1 2 ∧ bits (t.reg (Pg.slot p)) 8 8 = bits v 8 8 ∧ bit (t.reg (Pg.slot p)) 0 = false)

/-- PARTITION_CONFIG, ACTIVATE (R364), QUIESCE and QUIESCE_COMPLETE (R370), QUIESCE_TIMEOUT (R371), WEDGE_TIMEOUT (R373),
PARTITION_RESUME (R370), PARTITION_RELEASE and RELEASE_SCRUB_DONE (R372), PT_SLICES_WRITE (R365). -/
def Obligations.PartitionEffects : Prop :=
  ∀ (s : State) (p : Fin 16),
    (∀ dom : Fin 4, s.passes dom (Pg.pt p + 0x100) = true →
      (dom.val ≠ 0 ∨ (s.part p).mode ≠ .free → exec (.partitionConfig dom p) s = .next (s.ends .access))
      ∧ (dom.val = 0 → (s.part p).mode = .free →
        exec (.partitionConfig dom p) s
          = .next ((s.modPart p fun q => { q with mode := .config, cause := 0, changeCt := s.ct }).ends .ok))
      ∧ (dom.val ≠ 0 ∨ (s.part p).mode ≠ .config → exec (.activate dom p) s = .next (s.ends .access))
      ∧ (dom.val = 0 → (s.part p).mode = .config → ∀ c, s.activateCheck p = some c →
        exec (.activate dom p) s = .next ((s.modPart p fun q => { q with cause := c }).ends .access))
      ∧ (dom.val = 0 → (s.part p).mode = .config → s.activateCheck p = none →
        ∃ t, exec (.activate dom p) s = .next t ∧ s.onlyChanges [.parts, .seqs, .done] t ∧ t.done = .ok
          ∧ t.part p = { s.part p with mode := .active, cause := 0, changeCt := s.ct })
      ∧ (s.ownsPart dom p = false → exec (.quiesce dom p) s = .next (s.ends .access))
      ∧ (s.ownsPart dom p = true → (s.part p).mode = .active →
        ∃ t, exec (.quiesce dom p) s = .next t ∧ t.done = .ok
          ∧ t.part p = { s.part p with
              mode := .quiescing, cause := 0, changeCt := s.ct, qClk := s.clk, workClk := none
              slotOn := s.slotEnabled p, stopped := !s.stepPending p })
      ∧ (s.ownsPart dom p = true → (s.part p).mode = .quiesced → (s.igMode p = 0 ∨ s.twinsSound p = true) →
        (s.part p).slotOn = false →
        ∃ t, exec (.partitionResume dom p) s = .next t ∧ s.onlyChanges [.parts, .seqs, .done] t ∧ t.done = .ok
          ∧ t.part p = { s.part p with mode := .active, changeCt := s.ct, stopped := false, slotOn := false, joining := 0, fresh := [] })
      ∧ (s.ownsPart dom p = true → (s.part p).mode = .config ∨ (s.part p).mode = .quiesced →
        ∃ t : State, exec (.partitionRelease dom p) s = .next (t.afterLoss s) ∧ t.done = .ok
          ∧ (t.part p).mode = .releasing ∧ (t.part p).scrub = s.exclusiveUnits p
          ∧ (∀ k ∈ s.slicesOf p ++ s.twinsOf p, t.seqs.get {} k = {})))
    ∧ ((s.part p).mode = .quiescing → (s.part p).stopped = true → s.workDone p = true →
      (s.recordsOwed p = true →
        exec (.quiesceComplete p) s = .next (s.modPart p fun q => { q with workClk := some (q.workClk.getD s.clk) }))
      ∧ (s.recordsOwed p = false →
        ∃ t, exec (.quiesceComplete p) s = .next t ∧ s.onlyChanges (.parts :: Kind.events) t ∧ s.regsKept [] t
          ∧ t.part p = { s.part p with mode := .quiesced, changeCt := s.ct } ∧ t.flagged (Pg.pt p) 0 = true))
    ∧ ((s.part p).mode = .quiescing → (s.part p).stopped = false → s.stepPending p = true → (s.sv p).commit = none →
      ∃ t, exec (.quiesceTimeout p) s = .next t ∧ t.clk = max s.clk ((s.part p).qClk + s.qLimit (s.ownerOf p))
        ∧ (t.part p).mode = .quiescing ∧ (t.part p).cause = 9 ∧ (t.part p).stopped = true
        ∧ (t.slot p).busy = false ∧ (t.slot p).mode = .disabled ∧ (t.slot p).marks = [])
    ∧ ((s.part p).mode = .quiescing → (s.part p).stopped = true → s.workDone p = true → s.recordsOwed p = true →
        s.wedged (s.ownerOf p) = false →
      ∃ t, exec (.wedgeTimeout p) s = .next t ∧ s.onlyChanges (.clk :: .time :: .doms :: Kind.events) t ∧ s.regsKept [] t
        ∧ t.clk = max s.clk ((s.part p).workClk.getD s.clk + s.qLimit (s.ownerOf p))
        ∧ t.wedged (s.ownerOf p) = true ∧ t.flagged (Pg.dm (s.ownerOf p)) 0 = true
        ∧ ∀ d, d ≠ s.ownerOf p → t.wedged d = s.wedged d)
    ∧ ((s.part p).mode ≠ .releasing ∨ s.xLingers p = true ∨ s.rowSlotsOf p ≠ [] → exec (.releaseScrubDone p) s = .next s)
    ∧ ((s.part p).mode = .releasing → s.xLingers p = false → s.rowSlotsOf p = [] →
      ∃ t, exec (.releaseScrubDone p) s = .next t ∧ s.onlyChanges (.mem :: .stale :: .parts :: Kind.events) t ∧ s.regsKept [] t
        ∧ (t.part p).mode = .free ∧ (t.part p).cause = 0 ∧ (t.part p).scrub = [] ∧ t.flagged (Pg.pt p) 1 = true)
    ∧ (∀ (dom : Fin 4) (v : Word), s.passes dom (Pg.pt p + 0x110) = true → dom.val = 0 →
      let old := s.writtenSlices p
      let new := bits v 0 16
      (new = old → exec (.ptSlicesWrite dom p v) s = .next (s.ends .ok))
      ∧ (new ≠ old → (s.part p).mode = .free ∨ (s.part p).mode = .config →
        exec (.ptSlicesWrite dom p v) s = .next ((s.setReg (Pg.pt p + 0x110) (word new)).ends .ok))
      ∧ ((s.part p).mode = .active → s.igMode p = 0 → new ≠ old → new &&& old = old →
          (new - (new &&& old)) &&& (s.heldSlices p ||| s.retired ||| s.twinMask p) = 0 →
        exec (.ptSlicesWrite dom p v) s
          = .next (((s.setReg (Pg.pt p + 0x110) (word new)).modPart p fun q =>
              { q with joining := if s.slotEnabled p then q.joining ||| (new - (new &&& old)) else 0 }).ends .ok))
      ∧ ((s.part p).mode = .active → new ≠ old → (s.igMode p ≠ 0 ∨ new &&& old ≠ old) →
        exec (.ptSlicesWrite dom p v) s = .next (s.ends .access)))

/-- REGION_COMMIT (R367), DOMAIN_ATTACH and DOMAIN_DETACH (R374, R425). That a region's scrub is made with the write is the model's choice,
log entry 33. -/
def Obligations.RegionAndDomainEffects : Prop :=
  ∀ (s : State) (dom : Fin 4),
    (∀ v : Word, s.passes dom (Pg.sec + 0x810) = true →
      let r := s.fld (Pg.sec + 0x800) 0 6
      let rng := s.stagedOf dom (keyAt (Pg.sec + 0x808) r)
      let old := s.memRegion r
      let new : RegionCfg :=
        { base := bits rng 0 21, count := bits rng 32 21, mode := bits v 0 2, part := bits v 4 4, share := bits v 16 16
          poison := old.poison && old.mode != 0 }
      let clear := (∀ i < 64, i ≠ r → (s.memRegion i).mode ≠ 0 →
          rangesDisjoint new.base new.count (s.memRegion i).base (s.memRegion i).count = true)
        ∧ (s.stackUnits ≤ new.base ∨ new.base + new.count ≤ s.stackUnits - s.fwFrames)
        ∧ (∀ p < 16, ∀ u ∈ (s.part p).scrub, u < new.base ∨ new.base + new.count ≤ u)
      (s.regionChange old new = false ∨ new.count = 0 ∨ (old.mode ≠ 0 ∧ (new.base ≠ old.base ∨ new.count ≠ old.count)) →
        exec (.regionCommit dom v) s = .next (s.ends .access))
      ∧ (clear → s.regionChange old new = true → new.count ≠ 0 → new.base < s.units →
          (old.mode ≠ 0 → new.base = old.base ∧ new.count = old.count) →
        (s.units < new.base + new.count → exec (.regionCommit dom v) s = .next (s.ends .length))
        ∧ (new.base + new.count ≤ s.units → new.mode ≠ 0 →
          let u := (s.setReg (keyAt (Pg.sec + 0x808) r) (pack [(new.base, 0), (new.count, 32)])).setReg (keyAt (Pg.sec + 0x810) r)
            (pack [(new.mode, 0), (new.part, 4), (new.share, 16), (b2n new.poison, 32)])
          exec (.regionCommit dom v) s
            = .next ((if old.mode = 0 ∧ new.mode = 1 ∧ (s.part new.part).mode = .active then
                u.modPart new.part fun q => { q with fresh := new.base :: q.fresh } else u).ends .ok))
        ∧ (new.base + new.count ≤ s.units → new.mode = 0 →
          ∃ t, exec (.regionCommit dom v) s = .next t ∧ s.onlyChanges [.regs, .mem, .parts, .stale, .bulk, .done] t ∧ t.done = .ok
            ∧ (t.memRegion r).mode = 0 ∧ (t.memRegion r).base = new.base ∧ (t.memRegion r).count = new.count)))
    ∧ (∀ n : Fin 4, s.passes dom (Pg.dm n + 0x100) = true → n.val ≠ 0 →
      (s.attached n = true → exec (.domainAttach dom n) s = .next (s.ends .ok))
      ∧ (s.attached n = false →
        ∃ t, exec (.domainAttach dom n) s = .next t ∧ s.onlyChanges [.regs, .done] t ∧ t.done = .ok ∧ t.attached n = true
          ∧ (∀ b < 64, t.flagged (Pg.dm n) b = false ∧ t.eventCount (Pg.dm n) b = 0)
          ∧ s.regsKept [Pg.dm n + 0x100] t)
      ∧ ((∃ p < 16, (s.part p).mode ≠ .free ∧ s.ownerOf p = n.val) ∨ s.wedged n = true →
        exec (.domainDetach dom n) s = .next (s.ends .access))
      ∧ ((∀ p < 16, (s.part p).mode ≠ .free → s.ownerOf p ≠ n.val) → s.wedged n = false →
        ∃ t, exec (.domainDetach dom n) s = .next t ∧ s.onlyChanges [.regs, .evq, .evLost, .mboxes, .done] t ∧ t.done = .ok
          ∧ t.attached n = false ∧ t.evq.get [] n = [] ∧ t.evLost.get 0 n = 0
          ∧ bit (t.reg (sqCtrl n)) 0 = false ∧ bit (t.reg (Pg.dq n + 0x120)) 0 = false))

/-- NOP, END, JUMP, BRANCH, LOOP, SETIX, ADDIX, MOVS (R84, R87, R90, R95), and the faults of issue (R91, R98). -/
def Obligations.SequencerControl : Prop :=
  ∀ (s : State) (k : Fin 16) (r : PmRead),
    (∀ i, s.issuable k r i →
      let q := s.seq k
      (i.op = .nop → s.movesSeq (.nop k r) k (q.goesOn (q.pc + 1)))
      ∧ (i.op = .fin → s.movesSeq (.endProg k r) k { q.goesOn (q.pc + 1) with mode := .idle })
      ∧ (i.op = .jump → s.movesSeq (.jump k r) k (q.goesOn (i.arg 0)))
      ∧ (i.op = .branch → s.movesSeq (.branch k r) k
          (q.goesOn (if branchHolds (i.arg 1) (q.branchSrc (i.arg 2)) (i.arg 3) then i.arg 0 else q.pc + 1)))
      ∧ (i.op = .loop →
          let v := (2 ^ 64 - 1 + q.ixReg (i.arg 1)) % 2 ^ 64
          s.movesSeq (.loop k r) k { q.goesOn (if v ≠ 0 then i.arg 0 else q.pc + 1) with ix := q.ix.put (i.arg 1) v })
      ∧ (i.op = .setix → s.movesSeq (.setix k r) k
          { q.goesOn (q.pc + 1) with ix := q.ix.put (i.arg 0) (i.arg 1 % 2 ^ 64) })
      ∧ (i.op = .addix → s.movesSeq (.addix k r) k
          { q.goesOn (q.pc + 1) with ix := q.ix.put (i.arg 0) ((q.ixReg (i.arg 0) + i.arg 1) % 2 ^ 64) })
      ∧ (i.op = .movs → s.movesSeq (.movs k r) k
          { q.goesOn (q.pc + 1) with ix := q.ix.put (i.arg 0) (q.sum.get 0 (i.arg 1) % 2 ^ 64) })
      ∧ ∀ op, op ≠ i.op → exec (SOp.cmd k r op) s = .next s)
    ∧ (∀ c op, (s.seq k).mode = .running → s.enginesRun = true → s.twinMay k = true → (s.seq k).fetch r = .inl c →
      ∃ t, exec (SOp.cmd k r op) s = .next t ∧ (t.seq k).mode = .faulted ∧ (t.seq k).fault = c ∧ (t.seq k).pc = (s.seq k).pc
        ∧ t.flagged (Pg.seq k) (c - 1) = true ∧ (∀ j, j ≠ k.val → t.seq j = s.seq j)
        ∧ s.onlyChanges (.seqs :: Kind.events) t ∧ s.regsKept [] t)
    ∧ (∀ op, (s.seq k).mode ≠ .running ∨ s.enginesRun = false → exec (SOp.cmd k r op) s = .next s)

/-- WAIT, WAIT_TAKE, SEQ_WAIT_RESUME (R67, R68, R88), SIGNAL, SETCTR (R67, R84), START, START_HOLD_RELEASE, START_STALL (R94), RELEASE (R83),
FENCE, FENCE_RESUME (R84), ISSUE_RESUME (R96), of slices that are no twin of a PAIRED partition. -/
def Obligations.SequencerWaits : Prop :=
  ∀ (s : State) (k : Fin 16),
    (∀ (r : PmRead) (i : SInstr) (p : Nat), s.issuable k r i → s.pairedPrimary k = none → s.partOfSlice k = some p →
      let q := s.seq k
      (i.op = .wait → i.arg 1 = 0 → ∀ c, s.absCtr p (i.arg 0) = some c →
        s.movesSeq (.wait k r) k
          (if i.arg 3 ≤ s.ctr c then q.goesOn (q.pc + 1) else { q with mode := .waiting, wait := some (.counter c (i.arg 3) false) }))
      ∧ (i.op = .waitTake → i.arg 1 = 0 → ∀ c, s.absCtr p (i.arg 0) = some c →
        let u := (s.readInstr k r).settleWaits c
        ∃ t, exec (.waitTake k r) s = .next t ∧ s.onlyChanges (.seqs :: .ctrs :: Kind.events) t ∧ s.regsKept [] t
          ∧ (∀ j, j ≠ k.val → t.seq j = u.seq j) ∧ (∀ j, j ≠ c → t.ctr j = u.ctr j)
          ∧ (u.ctr c < i.arg 3 → t.ctr c = u.ctr c
              ∧ t.seq k = { u.seq k with mode := .waiting, wait := some (.counter c (i.arg 3) true) })
          ∧ (i.arg 3 ≤ u.ctr c → t.ctr c = u.ctr c - i.arg 3 ∧ t.seq k = (u.seq k).goesOn (q.pc + 1)))
      ∧ (i.op = .wait ∨ i.op = .waitTake → i.arg 1 = 1 → (s.queue k (i.arg 2)).length < queueDepth (i.arg 2) →
          s.halted k (i.arg 2) = true →
        ∃ t, exec (SOp.cmd k r i.op) s = .next t ∧ (t.seq k).pc = q.pc + 1
          ∧ t.queue k (i.arg 2) = s.queue k (i.arg 2)
              ++ [{ op := q.indexed i (q.word q.pc), ordinal := q.issued.get 0 (i.arg 2) }])
      ∧ (i.op = .signal → ∀ c, s.absCtr p (i.arg 0) = some c →
        ∃ t, exec (.signal k r) s = .next t ∧ s.onlyChanges (.seqs :: .ctrs :: Kind.events) t ∧ s.regsKept [] t
          ∧ t.seq k = q.goesOn (q.pc + 1) ∧ t.ctr c = min (s.ctr c + i.arg 1) 0xFFFFFFFF ∧ (∀ j, j ≠ c → t.ctr j = s.ctr j)
          ∧ (p < 16 → 0xFFFFFFFF < s.ctr c + i.arg 1 → t.slotFlagged p 11 = true))
      ∧ (i.op = .setctr → ∀ c, s.absCtr p (i.arg 0) = some c →
        ∃ t, exec (.setctr k r) s = .next t ∧ s.onlyChanges (.seqs :: .ctrs :: Kind.events) t ∧ s.regsKept [] t
          ∧ t.seq k = q.goesOn (q.pc + 1) ∧ t.ctr c = i.arg 1 ∧ ∀ j, j ≠ c → t.ctr j = s.ctr j)
      ∧ (i.op = .start → ∀ j, (s.peersOf p k)[i.arg 0]? = some j →
        (s.startRoom j = true → (s.startSlices j).Nodup →
          ∃ t, exec (.start k r) s = .next t ∧ s.onlyChanges (.seqs :: Kind.events) t ∧ s.regsKept [] t
            ∧ (t.seq k).pc = q.pc + 1
            ∧ ∀ x ∈ s.startSlices j, (t.seq x).starts = (s.seq x).starts ++ [(i.arg 1, i.arg 2)])
        ∧ (s.startRoom j = false →
          s.movesSeq (.start k r) k
            { q with mode := .waiting, wait := some (.startFull j (i.arg 1) (i.arg 2) s.clk false) }))
      ∧ (i.op = .release →
        i.arg 1 = 0 ∨ (s.region k (i.arg 0)).released + i.arg 1 ≤ (s.region k (i.arg 0)).filled →
          ∃ t : State, exec (.release k r) s = .next (t.walkSettle.afterLoss s) ∧ s.onlyChanges (.seqs :: .regions :: Kind.events) t
            ∧ s.regsKept [] t ∧ t.seq k = q.goesOn (q.pc + 1)
            ∧ (i.arg 1 = 0 → t.regions = s.regions)
            ∧ (i.arg 1 ≠ 0 → (t.region k (i.arg 0)).released = (s.region k (i.arg 0)).released + i.arg 1))
      ∧ (i.op = .release → i.arg 1 ≠ 0 → (s.region k (i.arg 0)).filled < (s.region k (i.arg 0)).released + i.arg 1 →
          ∃ t, exec (.release k r) s = .next t ∧ (t.seq k).mode = .faulted ∧ (t.seq k).fault = 4 ∧ t.regions = s.regions)
      ∧ (i.op = .fence →
        s.movesSeq (.fence k r) k
          (if s.queuesEmpty k (i.arg 0) then q.goesOn (q.pc + 1) else { q with mode := .waiting, wait := some (.fence (i.arg 0)) })))
    ∧ (∀ c v take, (s.seq k).wait = some (.counter c v take) → s.pairedPrimary k = none →
      let u := s.passBefore k none
      (u.ctr c < v → exec (.seqWaitResume k none) s = .next u)
      ∧ (v ≤ u.ctr c →
        ∃ t, exec (.seqWaitResume k none) s = .next t ∧ s.onlyChanges [.seqs, .ctrs] t
          ∧ t.seq k = (u.seq k).goesOn ((u.seq k).pc + 1) ∧ t.ctr c = (if take then u.ctr c - v else u.ctr c)
          ∧ ∀ j, j ≠ c → t.ctr j = u.ctr j))
    ∧ (∀ (q : Fin 9) (e : QEntry) (i : SInstr) (p c : Nat), s.queue k q = [e] → e.phase = .waiting → fieldsOf e.op = some i →
        (i.op = .wait ∨ i.op = .waitTake) → s.pairedPrimary k = none → s.partOfSlice k = some p → s.absCtr p (i.arg 0) = some c →
        s.halted k q = false → i.arg 3 ≤ (s.passBefore k (some q.val)).ctr c →
      let u := s.passBefore k (some q.val)
      ∃ t, exec (.seqWaitResume k (some q)) s = .next t ∧ s.onlyChanges [.seqs, .ctrs] t ∧ t.queue k q = []
        ∧ t.ctr c = (if i.op = .waitTake then u.ctr c - i.arg 3 else u.ctr c) ∧ ∀ j, j ≠ c → t.ctr j = u.ctr j)
    ∧ (∀ j idx arg since b, (s.seq k).wait = some (.startFull j idx arg since b) → s.startRoom j = true → (s.startSlices j).Nodup →
      ∃ t, exec (.startHoldRelease k) s = .next t ∧ s.onlyChanges [.seqs] t ∧ (t.seq k).pc = (s.seq k).pc + 1
        ∧ (t.seq k).mode = .running ∧ (t.seq k).wait = none
        ∧ ∀ x ∈ s.startSlices j, (t.seq x).starts = (s.seq x).starts ++ [(idx, arg)])
    ∧ (∀ j idx arg since, (s.seq k).wait = some (.startFull j idx arg since false) →
      ∃ t, exec (.startStall k) s = .next t ∧ s.onlyChanges (.clk :: .time :: .seqs :: Kind.events) t ∧ s.regsKept [] t
        ∧ t.clk = max s.clk (since + s.cycTicks 4096 + 1)
        ∧ t.seq k = { s.seq k with wait := some (.startFull j idx arg since true) } ∧ t.flagged (Pg.seq k) 6 = true)
    ∧ (∀ m, (s.seq k).wait = some (.fence m) → s.queuesEmpty k m = true →
      s.movesSeq (.fenceResume k) k ((s.seq k).goesOn ((s.seq k).pc + 1)))
    ∧ (∀ n since i, (s.seq k).wait = some (.queueFull n since) → (s.queue k n).length < queueDepth n → n < 9 →
        SInstr.decode ((s.seq k).word (s.seq k).pc) = some i → s.halted k n = true →
      ∃ t, exec (.issueResume k) s = .next t ∧ s.onlyChanges [.seqs, .regs] t
        ∧ (t.seq k).pc = (s.seq k).pc + 1 ∧ (t.seq k).mode = .running
        ∧ t.queue k n = s.queue k n
            ++ [{ op := (s.seq k).indexed i ((s.seq k).word (s.seq k).pc), ordinal := (s.seq k).issued.get 0 n }]
        ∧ (t.reg (Pg.seq k + 0x140 + 8 * n)).toNat
            = sat maxWord ((s.reg (Pg.seq k + 0x140 + 8 * n)).toNat + s.ticksCyc (s.clk - since)))

/-- PROGRAM_START (R93), SEQ_START_WRITE (R94), PM_LOAD, PM_LOAD_START, PM_LOAD_DONE (R92), SEQ_ABORT, ABORT_COMPLETE (R99),
ENGINE_OP_COMPLETE (R89, R97), STREAM_REGION_CONFIG (R82). -/
def Obligations.SequencerPrograms : Prop :=
  ∀ (s : State) (k : Fin 16),
    (∀ idx arg rest, (s.seq k).starts = (idx, arg) :: rest → (s.seq k).mode = .idle → (s.seq k).hold = false →
        (s.seq k).load = none → s.enginesRun = true →
      ∃ t, exec (.programStart k) s = .next t ∧ s.onlyChanges [.seqs, .screens] t
        ∧ t.seq k = { s.seq k with mode := .running, pc := idx, starts := rest, ix := (⟨[]⟩ : Tab Nat).put 0 arg, wait := none
                                   progs := (s.seq k).progs + 1, steps := 0, fault := 0 }
        ∧ (t.seq k).ixReg 0 = arg ∧ (∀ n, n ≠ 0 → (t.seq k).ixReg n = 0) ∧ (t.screens.get {} k).testing = none)
    ∧ (∀ (dom : Fin 4) (v : Word), s.passes dom (Pg.seq k + 0x110) = true →
      (s.partOfSlice k = none ∨ s.startRoom k = false → exec (.seqStartWrite dom k v) s = .next (s.ends .access))
      ∧ (s.partOfSlice k ≠ none → s.startRoom k = true → (s.startSlices k).Nodup →
        ∃ t, exec (.seqStartWrite dom k v) s = .next t ∧ s.onlyChanges [.seqs, .done] t ∧ t.done = .ok
          ∧ ∀ x ∈ s.startSlices k, (t.seq x).starts = (s.seq x).starts ++ [(bits v 0 14, bits v 32 32)]))
    ∧ (∀ (dom : Fin 4) (v : Word), s.passes dom (pmCtrl k) = true →
      ((s.seq k).load ≠ none → exec (.pmLoad dom k v) s = .next (s.ends .access))
      ∧ ((s.seq k).load = none → bits v 16 15 ≠ 0 → bits v 0 14 + bits v 16 15 ≤ 16384 →
        ∃ t, exec (.pmLoad dom k v) s = .next t ∧ s.onlyChanges [.seqs, .regs, .done] t ∧ t.done = .ok
          ∧ t.seq k = { s.seq k with
              load := some { addr := s.fld (Pg.seq k + 0x118) 0 52, first := bits v 0 14, count := bits v 16 15 } }
          ∧ bit (t.reg (pmCtrl k)) 63 = true ∧ ∀ a, a ≠ pmCtrl k → t.reg a = s.reg a)
      ∧ ((s.seq k).load = none → bits v 16 15 ≠ 0 → 16384 < bits v 0 14 + bits v 16 15 →
        ∃ t, exec (.pmLoad dom k v) s = .next t ∧ s.onlyChanges [.regs, .done] t ∧ t.done = .ok
          ∧ t.fld (pmCtrl k) 48 8 = statusCode .length ∧ bit (t.reg (pmCtrl k)) 63 = false))
    ∧ (∀ l, (s.seq k).load = some l → l.started = false → (s.seq k).mode = .idle ∨ (s.seq k).mode = .faulted → s.enginesRun = true →
      ∃ t, exec (.pmLoadStart k) s = .next t ∧ s.onlyChanges [.seqs] t
        ∧ t.seq k = { s.seq k with
            mode := .loading, load := some { l with started := true, fromFault := (s.seq k).mode == .faulted } })
    ∧ (∀ l p, (s.seq k).load = some l → l.started = true → s.partOfSlice k = some p → aligned l.addr 16 = true →
        s.devCheck (.part p false) l.addr (16 * l.count) false = .ok → (s.devRead l.addr (16 * l.count)).2.2 = .ok →
      ∃ t : State, exec (.pmLoadDone k) s = .next (t.afterLoss s)
        ∧ s.onlyChanges ([.mem, .seqs, .tolvys, .bulk, .links] ++ Kind.events) t ∧ (t.seq k).load = none
        ∧ (t.seq k).mode = (if (s.seq k).mode = .aborting then .aborting else if l.fromFault then .faulted else .idle)
        ∧ (∀ i < l.count, (t.seq k).word (l.first + i) = field (s.devRead l.addr (16 * l.count)).2.1 (16 * i) 16)
        ∧ (∀ n, n < l.first ∨ l.first + l.count ≤ n → (t.seq k).word n = (s.seq k).word n)
        ∧ t.fld (pmCtrl k) 48 8 = statusCode .ok ∧ bit (t.reg (pmCtrl k)) 63 = false)
    ∧ (∀ (dom : Fin 4) (v : Word), s.passes dom (Pg.seq k + 0x100) = true →
      ∃ t : State, exec (.seqAbort dom k v) s = .next (t.afterLoss s) ∧ t.done = .ok ∧ (t.seq k).starts = [] ∧ (t.seq k).halts = []
        ∧ (t.seq k).wait = none ∧ (t.seq k).hold = bit v 1
        ∧ ((∀ q < 9, s.queue k q = []) → (t.seq k).mode = if (s.seq k).mode = .loading then .loading else .idle)
        ∧ ((∃ q < 9, ∃ e ∈ s.queue k q, e.started = true) → (t.seq k).mode = .aborting))
    ∧ ((s.seq k).mode = .aborting → s.queuesEmpty k 511 = true →
      exec (.abortComplete k) s = .next (s.modSeq k fun q =>
        { q with mode := match q.load with | some l => if l.started then .loading else .idle | none => .idle }))
    ∧ (∀ (q : Fin 9) (e : QEntry) (st : Status) (i : SInstr) (p : Nat), s.queue k q = [e] → e.phase = .running st →
        fieldsOf e.op = some i → e.crc = none → e.walk = none → s.pairedPrimary k = none → s.partOfSlice k = some p →
      (st = .ok →
        ∃ t : State, exec (.engineOpComplete k q) s = .next (t.afterLoss s) ∧ s.onlyChanges [.seqs, .ctrs, .regs, .evq, .evLost] t
          ∧ t.queue k q = []
          ∧ (∀ m v, e.sum = some (m, v) → (t.seq k).sum.get 0 m = v)
          ∧ (i.sigEn = 1 → ∀ c, s.absCtr p i.sigCtr = some c → t.ctr c = min (s.ctr c + 1) 0xFFFFFFFF)
          ∧ (i.sigEn ≠ 1 → t.ctrs = s.ctrs))
      ∧ (st ≠ .ok →
        ∃ t : State, exec (.engineOpComplete k q) s = .next (t.afterLoss s) ∧ t.queue k q = [] ∧ t.ctrs = s.ctrs
          ∧ (t.seq k).halts = (s.seq k).halts ++ [(q.val, st)] ∧ t.flagged (Pg.seq k) 5 = true))
    ∧ (∀ (dom : Fin 4) (v : Word), s.passes dom (Pg.ws k + 0x108) = true →
      let r := s.fld (Pg.ws k + 0x100) 0 4
      let w := v &&& 0x3FFF00FFF007#64
      (bit (s.reg (sbCfg k r)) 0 = false → bit w 0 = true →
        (bits w 32 14 = 0 ∨ bits w 1 2 = 3 → exec (.streamRegionConfig dom k v) s = .next (s.ends .access))
        ∧ ((∃ j < 16, j ≠ r ∧ (s.region k j).en = true
              ∧ ({ en := true, base := bits w 12 12, tiles := bits w 32 14 } : Region).overlaps (s.region k j) = true) →
          exec (.streamRegionConfig dom k v) s = .next (s.ends .access))
        ∧ (bits w 32 14 ≠ 0 → bits w 1 2 ≠ 3 →
            (∀ j < 16, j ≠ r → (s.region k j).en = true →
              (({ en := true, base := bits w 12 12, tiles := bits w 32 14 } : Region).overlaps (s.region k j)) = false) →
            (2 ^ 24 < bits w 12 12 * 4096 + bits w 32 14 * 2048 →
              exec (.streamRegionConfig dom k v) s = .next (s.ends .length))
            ∧ (bits w 12 12 * 4096 + bits w 32 14 * 2048 ≤ 2 ^ 24 → exec (.streamRegionConfig dom k v) s
            = .next (((s.setReg (sbCfg k r) w).modRegion k r fun _ =>
                { en := true, producer := bits w 1 2, base := bits w 12 12, tiles := bits w 32 14, relClks := [s.clk] }).ends .ok))))
      ∧ (bit (s.reg (sbCfg k r)) 0 = true → w = setBits (s.reg (sbCfg k r)) 0 1 0 → s.regionUsed k r = false →
        exec (.streamRegionConfig dom k v) s = .next (((s.setReg (sbCfg k r) w).modRegion k r fun _ =>
          { producer := bits w 1 2, base := bits w 12 12, tiles := bits w 32 14 }).ends .ok))
      ∧ (bit (s.reg (sbCfg k r)) 0 = true → w ≠ setBits (s.reg (sbCfg k r)) 0 1 0 ∨ s.regionUsed k r = true →
        exec (.streamRegionConfig dom k v) s = .next (s.ends .access)))

/-- Issue of an engine operation: indexed, numbered, queued (R85, R89), taken by a free engine, kept by a halted or busy one (R88, R97), or
held for a full queue (R96). -/
def Obligations.EngineIssue : Prop :=
  ∀ (s : State) (k : Fin 16) (r : PmRead) (i : SInstr), s.issuable k r i → i.op.cls ≠ 0 →
    let u := s.accepted k r i
    (s.engineFree k r i → ∀ x, x = u.startOp k i.queue [] (s.newEntry k i) (i.indexedBy (s.seq k)) →
        x.2.phase ≠ .queued → x.2.phase ≠ .waiting → s.engineDoes k r i x)
    ∧ ((s.queue k i.queue).length < queueDepth i.queue →
        s.halted k i.queue = true
          ∨ (4 ≤ i.queue ∧ s.queue k i.queue ≠ [] ∧ ∀ e ∈ s.queue k i.queue, e.phase ≠ .queued ∧ e.phase ≠ .waiting) →
        exec (SOp.cmd k r i.op) s = .next u)
    ∧ (queueDepth i.queue ≤ (s.queue k i.queue).length →
        exec (SOp.cmd k r i.op) s = .next ((s.readInstr k r).seqWait k (.queueFull i.queue s.clk)))
    ∧ fieldsOf (s.newEntry k i).op = some (i.indexedBy (s.seq k))
    ∧ u.queue k i.queue = s.queue k i.queue ++ [s.newEntry k i] ∧ (u.seq k).pc = (s.seq k).pc + 1
    ∧ (∀ j, j ≠ k.val → u.seq j = s.seq j) ∧ s.onlyChanges (.seqs :: Kind.events) u ∧ s.regsKept [] u

/-- CONFIG (R113), LOAD (R135, R136), MMA (R102, R107, R108, R117), ARRAY_FILL_RESUME (R107), STARVE_LONG (R125), DATTN (R120, R121),
OPEN_WAIT_RESUME (R115), ARR_CLOSE_ALL (R114). -/
def Obligations.ArrayOperations : Prop :=
  ∀ (s : State) (k : Fin 16) (r : PmRead) (i : SInstr), s.canonical = true →
    (s.engineFree k r i →
      let u := s.accepted k r i
      let e := s.newEntry k i
      let j := i.indexedBy (s.seq k)
      let a := i.queue
      (i.op = .config →
        let f : ArrFmt := { afmt := j.arg 1, wfmt := j.arg 2, sk := j.arg 3, sreg := j.arg 4 }
        (f.legal = true → s.engineDoes k r i ({ u with arrFmt := u.arrFmt.put (4 * k + a) f }, e.runs .ok))
        ∧ (f.legal = false → s.engineDoes k r i (u.arrFail k a e .access)))
      ∧ (i.op = .load → ∀ p, u.ea k (j.arg 0) = some p →
        let t := j.arg 1
        let m := j.arg 2 + 1
        let src := (List.range (32 * m)).map fun n => leNat (u.eaRead (p.plus (4 * n)) 4)
        (aligned p.off 32 = false ∨ (u.tileOf k t).isOpen = true → s.engineDoes k r i (u.arrFail k a e .access))
        ∧ (aligned p.off 32 = true → (u.tileOf k t).isOpen = false → p.fits (128 * m) = true → u.tileBeingRead k t = false →
          ∃ v, s.engineDoes k r i (v, e.runs .ok) ∧ u.onlyChanges [.mem, .tiles] v
            ∧ u.keepsMemBut v .acc (2 ^ 21 * k + t * 4096) 4096 ∧ (∀ n, n ≠ tileKey k t → v.tiles.get {} n = u.tiles.get {} n)
            ∧ (v.tileOf k t).isOpen = true ∧ (v.tileOf k t).owner = a ∧ (v.tileOf k t).int = (u.arrState k a).int
            ∧ v.tileElems k t m = (if p.acc || (u.arrState k a).int then src else src.map fun x => (loadElem x).1)
            ∧ (p.acc = true → (v.tileOf k t).chunks = (u.tileOf p.slice (p.off / 4096)).chunks)
            ∧ (p.acc = false → (v.tileOf k t).chunks = 0)
            ∧ v.rdMem .acc (2 ^ 21 * k + t * 4096 + 128 * m) (4096 - 128 * m) = zeros (4096 - 128 * m)))
      ∧ (i.op = .mma →
        let o := j.mma
        let f := u.arrState k a
        let run : MmaRun := { wBase := (u.region k o.wreg).released, sBase := (u.region k f.sreg).released,
                              regs := o.wreg :: (if f.sk = 0 then [] else [f.sreg]) }
        (u.mmaCheck k a o ≠ .ok → s.engineDoes k r i (u.arrFail k a e (u.mmaCheck k a o)))
        ∧ (u.mmaCheck k a o = .ok → o.zero = true → u.tileBeingRead k o.acc = true →
            s.engineDoes k r i (u, { e with phase := .openWait }))
        ∧ (u.mmaCheck k a o = .ok → o.zero = false ∨ u.tileBeingRead k o.acc = false →
          (∀ n < o.kk, u.mmaCovered k f o run n = true) → f.sk = 0 ∨ o.wreg ≠ f.sreg →
          ∃ v c, s.engineDoes k r i (v, { e.runs .ok with mma := some c }) ∧ u.onlyChanges [.mem, .tiles, .regs, .regions] v
            ∧ u.keepsMemBut v .acc (2 ^ 21 * k + o.acc * 4096) 4096 ∧ (∀ n, n ≠ tileKey k o.acc → v.tiles.get {} n = u.tiles.get {} n)
            ∧ (v.tileOf k o.acc).isOpen = true ∧ (v.tileOf k o.acc).owner = a ∧ (v.tileOf k o.acc).int = f.int
            ∧ (o.zero = true → (v.tileOf k o.acc).chunks = ceilDiv o.kk 128 - 1 ∧ (v.tileOf k o.acc).bound = false)
            ∧ (o.arel = false → v.regions = u.regions)
            ∧ (o.arel = true → (v.region k o.wreg).released = (u.region k o.wreg).released + ceilDiv o.kk (kRows f.wfmt))
            ∧ (o.arel = true → f.sk ≠ 0 →
                (v.region k f.sreg).released = (u.region k f.sreg).released + ceilDiv (ceilDiv o.kk 128) (recsPerTile f.sk)))
        ∧ (u.mmaCheck k a o = .ok → o.zero = false ∨ u.tileBeingRead k o.acc = false →
          ∀ n < o.kk, (∀ n' < n, u.mmaCovered k f o run n' = true) → u.mmaCovered k f o run n = false →
          f.sk = 0 ∨ o.wreg ≠ f.sreg →
          ∃ v c, s.engineDoes k r i (v, { e with phase := .starved u.clk, mma := some c }) ∧ c.k = n ∧ c.long = false
            ∧ (v.tileOf k o.acc).isOpen = true ∧ (v.tileOf k o.acc).owner = a))
      ∧ (i.op = .dattn → ∀ p, u.ea k (j.arg 0) = some p → aligned p.off 64 = true → p.fits 64 = true →
        let o := DattnOp.ofBytes (u.eaRead p 64)
        (o.nk = 0 → s.engineDoes k r i (u, e.runs .ok))
        ∧ (o.nk ≠ 0 → u.dattnCheck k a o ≠ .ok → s.engineDoes k r i (u.arrFail k a e (u.dattnCheck k a o)))
        ∧ (o.nk ≠ 0 → u.dattnCheck k a o = .ok →
            o.cont = true ∨ (∀ t < o.d / 32 + 1, u.tileBeingRead k (o.acc + t) = false) →
          ∃ v, s.engineDoes k r i (v, e.runs .ok)
            ∧ u.keepsMemBut v .acc (2 ^ 21 * k + o.acc * 4096) ((o.d / 32 + 1) * 4096)
            ∧ (∀ n, n < tileKey k o.acc ∨ tileKey k o.acc + o.d / 32 < n → v.tiles.get {} n = u.tiles.get {} n)
            ∧ ∀ t < o.d / 32 + 1, (v.tileOf k (o.acc + t)).isOpen = true ∧ (v.tileOf k (o.acc + t)).owner = a
              ∧ (v.tileOf k (o.acc + t)).attn = true ∧ (v.tileOf k (o.acc + t)).stats = (t == o.d / 32))))
    ∧ (∀ (a : Fin 4) (e : QEntry) (since : Nat) (c : MmaRun) (j : SInstr), s.queue k a = [e] → e.phase = .starved since →
        e.mma = some c → fieldsOf e.op = some j → j.op = .mma →
      ((s.ea k j.mma.addr).isSome = true → c.k < j.mma.kk → j.mma.arel = false →
          (∀ n, c.k ≤ n → n < j.mma.kk → s.mmaCovered k (s.arrState k a) j.mma c n = true) →
        ∃ (t : State) (x : MmaRun), exec (.arrayFillResume k a) s = .next (t.walkSettle.afterLoss s)
          ∧ t.queue k a = [{ e with phase := .running .ok, mma := some x }] ∧ s.onlyChanges [.mem, .tiles, .regs, .seqs] t ∧ s.keepsMemBut t .acc (2 ^ 21 * k + j.mma.acc * 4096) 4096
          ∧ t.reg (Pg.arr k a + 0x120) = (s.bump (Pg.arr k a + 0x120) (s.ticksCyc (s.clk - since))).reg (Pg.arr k a + 0x120))
      ∧ (s.mmaCovered k (s.arrState k a) j.mma c c.k = false →
        ∃ t : State, exec (.arrayFillResume k a) s = .next (t.walkSettle.afterLoss s) ∧ t.queue k a = s.queue k a
          ∧ s.onlyChanges [.seqs] t)
      ∧ (c.long = false →
        ∃ t, exec (.starveLong k a) s = .next t ∧ t.clk = max s.clk (since + s.cycTicks 65536 + 1)
          ∧ t.queue k a = [{ e with mma := some { c with long := true } }] ∧ t.flagged (Pg.arr k a) 3 = true)
      ∧ (c.long = true → exec (.starveLong k a) s = .next s))
    ∧ (∀ (a : Fin 4) (d e : QEntry) (st : Status) (j : SInstr) (p : EA), s.queue k a = [d, e] → s.halted k a = false → d.phase = .running st →
        e.phase = .openWait → fieldsOf e.op = some j → j.op = .load → j.arg 1 < 512 → j.arg 2 < 32 →
        s.ea k (j.arg 0) = some p → aligned p.off 32 = true → (s.tileOf k (j.arg 1)).isOpen = false →
        p.fits (128 * (j.arg 2 + 1)) = true → (s.drainsRead k).tileBeingRead k (j.arg 1) = false →
      ∃ t : State, exec (.openWaitResume k a) s = .next ((t.walkSettle.kick k a).afterLoss s) ∧ (t.tileOf k (j.arg 1)).isOpen = true ∧ (t.tileOf k (j.arg 1)).owner = a
        ∧ ∃ d' e', t.queue k a = [d', e'] ∧ e'.phase = .running .ok ∧ d'.tileRead = true)
    ∧ (∀ (dom : Fin 4) (a : Fin 4), s.passes dom (Pg.arr k a + 0x100) = true →
      (s.arrMode k a = 0 ∨ s.arrMode k a = 4 →
        ∃ t, exec (.arrCloseAll dom k a) s = .next t ∧ t.done = .ok ∧ s.onlyChanges [.tiles, .done] t
          ∧ ∀ k' n, n < 512 → t.tileOf k' n
              = (if k' = k.val ∧ (s.tileOf k n).isOpen = true ∧ (s.tileOf k n).owner = a.val
                 then { s.tileOf k n with isOpen := false, owner := 0 } else s.tileOf k' n))
      ∧ (s.arrMode k a ≠ 0 → s.arrMode k a ≠ 4 → exec (.arrCloseAll dom k a) s = .next (s.ends .access)))

/-- DRAIN (R123, R177, R180), DRAIN_BUFFER_RESUME (R124), TRAP_SATURATE, TRAP_RESCALE, TRAP_RETRY, TRAP_FAIL, TRAP_TIMEOUT (R187, R188). -/
def Obligations.DrainsAndTraps : Prop :=
  ∀ (s : State) (k : Fin 16), s.canonical = true →
    (∀ (r : PmRead) (i : SInstr), s.engineFree k r i → i.op = .drain →
      let u := s.accepted k r i
      let e := s.newEntry k i
      let o := (i.indexedBy (s.seq k)).drainOp
      let a := i.queue
      let t := u.tileOf k o.acc
      let p := u.drainProf k o
      (t.isOpen = false ∨ t.owner ≠ a → s.engineDoes k r i (u.arrFail k a { e with tileRead := true } .access))
      ∧ (t.isOpen = true → t.owner = a → u.drainCheck k a o ≠ .ok →
        s.engineDoes k r i (u.drainFail k a { e with tileRead := true } o)
        ∧ (u.drainFail k a { e with tileRead := true } o).2.phase = .running (u.drainCheck k a o))
      ∧ (t.isOpen = true → t.owner = a → u.drainCheck k a o = .ok →
        ∃ v e', s.engineDoes k r i (v, e') ∧ (v.tileOf k o.acc).isOpen = false
          ∧ (u.sideFree k p (u.profCursor k a o.prof) → e'.phase = .running .ok ∨ p.policy = 2 ∧ e'.phase = .trapped u.clk)
          ∧ v.profCursor k a o.prof = nextCursor p.wrap (u.profCursor k a o.prof)
          ∧ ∀ d, o.ben = false → o.dest = false → p.plain → u.ea32 k o.addr = some d → u.landsAt k d →
            e'.phase = .running .ok ∧ u.keepsMemBut v d.space d.pos (o.m * rowBytes p.ofmt)
            ∧ v.rdMem d.space d.pos (o.m * rowBytes p.ofmt)
                = (List.range o.m).flatMap fun row => packElems p.ofmt ((List.range 32).map fun c =>
                    let x := (u.tileElems k o.acc o.m).getD (32 * row + c) 0
                    (storeConv p.ofmt (t.int && p.ofmt == 10) (if t.int && p.ofmt != 10 then iToF x else x)).1)))
    ∧ (∀ (a : Fin 4) (d e : QEntry) (st : Status) (i : SInstr), s.queue k a = [d, e] → d.phase = .running st → e.phase = .bufferWait →
        fieldsOf e.op = some i → i.op = .drain → (s.tileOf k i.drainOp.acc).isOpen = true →
        (s.tileOf k i.drainOp.acc).owner = a.val → s.drainCheck k a i.drainOp = .ok → (s.drainProf k i.drainOp).policy ≠ 2 →
        s.sideFree k (s.drainProf k i.drainOp) (s.profCursor k a i.drainOp.prof) → s.halted k a = false →
      ∃ (t : State) (e' : QEntry), exec (.drainBufferResume k a) s = .next ((t.walkSettle.kick k a).afterLoss s) ∧ t.queue k a = [d, e'] ∧ e'.phase = .running .ok
        ∧ (t.tileOf k i.drainOp.acc).isOpen = false)
    ∧ (∀ (a : Fin 4) (e : QEntry) (since : Nat) (run : DrainRun) (i : SInstr), s.queue k a = [e] → e.phase = .trapped since →
        e.drain = some run → SInstr.decode e.op = some i →
      (∀ dom : Fin 4, s.passes dom (trapKey k) = true →
        (s.sideFree k (Prof.ofWords run.prof) run.cursor →
          ∃ (t : State) (e' : QEntry), exec (.trapSaturate dom k a) s = .next (t.afterLoss s) ∧ t.done = .ok ∧ t.queue k a = [e']
            ∧ e'.phase = .running .ok ∧ e'.drain = none)
        ∧ (s.sideFree k (Prof.ofWords run.prof) run.cursor →
          ∃ (t : State) (e' : QEntry), exec (.trapRescale dom k a) s = .next (t.afterLoss s) ∧ t.done = .ok ∧ t.queue k a = [e'] ∧ e'.phase = .running .ok
          ∧ e'.drain = none ∧ t.reg (Pg.qnt k + 0x198) = (s.bump (Pg.qnt k + 0x198) 1).reg (Pg.qnt k + 0x198))
        ∧ (∀ sigma : BitVec 32, ((Prof.ofWords run.prof).sigmaOk sigma.toNat = true → s.sideFree k (Prof.ofWords run.prof) run.cursor →
            ∃ (t : State) (e' : QEntry), exec (.trapRetry dom k a sigma) s = .next (t.afterLoss s) ∧ t.done = .ok ∧ t.queue k a = [e'] ∧ e'.phase = .running .ok
              ∧ e'.drain = none ∧ t.reg (Pg.qnt k + 0x198) = (s.bump (Pg.qnt k + 0x198) 1).reg (Pg.qnt k + 0x198))
          ∧ ((Prof.ofWords run.prof).sigmaOk sigma.toNat = false → exec (.trapRetry dom k a sigma) s = .next (s.ends .access)))
        ∧ (∃ t, exec (.trapFail dom k a) s = .next t ∧ t.done = .ok ∧ s.onlyChanges [.regs, .seqs, .done] t
          ∧ t.queue k a = [{ e with phase := .running .saturated, drain := none }]))
      ∧ (s.fld (Pg.qnt k + 0x178) 0 16 ≠ 0 →
        ∃ t, exec (.trapTimeout k a) s = .next t ∧ t.clk = max s.clk (since + usTicks * s.fld (Pg.qnt k + 0x178) 0 16)
          ∧ t.queue k a = [{ e with phase := .running .saturated, drain := none }] ∧ t.flagged (Pg.qnt k) 3 = true)
      ∧ (s.fld (Pg.qnt k + 0x178) 0 16 = 0 → exec (.trapTimeout k a) s = .next s))
    ∧ (∀ (dom : Fin 4) (a : Fin 4), s.trapAt k a = none → s.passes dom (trapKey k) = true →
      exec (.trapSaturate dom k a) s = .next (s.ends .access) ∧ exec (.trapRescale dom k a) s = .next (s.ends .access)
      ∧ (∀ sigma, exec (.trapRetry dom k a sigma) s = .next (s.ends .access)) ∧ exec (.trapFail dom k a) s = .next (s.ends .access))

/-- QRUN (R191), QHAD (R179, R192), QSTEP (R186), QLOAD (R515), PROFILE_COMMIT (R183), QNT_SLOT_HIST_WRITE (R184). -/
def Obligations.QuantOperations : Prop :=
  ∀ (s : State) (k : Fin 16), s.canonical = true →
    (∀ (r : PmRead) (i : SInstr), s.engineFree k r i →
      let u := s.accepted k r i
      let e := s.newEntry k i
      let j := i.indexedBy (s.seq k)
      (i.op = .qrun → ∀ a o, u.ea32 k (j.arg 0) = some a → u.ea32 k (j.arg 1) = some o →
        let m := j.arg 3 + 1
        let np := j.arg 4
        let p := Prof.ofWords (u.profWords k (j.arg 2))
        let sf := j.arg 6
        (np = 0 → s.engineDoes k r i (u, e.runs .ok))
        ∧ (np ≠ 0 → j.arg 5 = 0 → sf ≠ 7 → sf ≠ 8 → sf ≠ 9 → s.engineDoes k r i (u.qntFail k e 0 .access))
        ∧ (np ≠ 0 → j.arg 5 = 0 → sf = 7 ∨ sf = 8 ∨ sf = 9 → pitchOk sf m = true → pitchOk p.ofmt m = true →
            u.eaWritable o (np * m * rowBytes p.ofmt) = true → u.profCheck k { p with step := false } 0 0 m false = .ok →
            a.fits (np * m * rowBytes sf) = true → o.fits (np * m * rowBytes p.ofmt) = true → p.soutEn = false →
          ∃ v, s.engineDoes k r i (v, e.runs .ok)
            ∧ (u.landsAt k o → u.keepsMemBut v o.space o.pos (np * m * rowBytes p.ofmt)
              ∧ (p.plain → v.rdMem o.space o.pos (np * m * rowBytes p.ofmt)
                  = kBytes p.ofmt m np fun x c => (storeConv p.ofmt false (u.rdElem a m sf x c).v).1)))
        ∧ (np ≠ 0 → j.arg 5 = 1 → sf = 0 → pitchOk p.ofmt m = true → pitchOk 9 m = true →
            u.eaWritable o (np * m * rowBytes 9) = true → p.gran = 0 →
            a.fits (np * m * rowBytes p.ofmt) = true → o.fits (np * m * rowBytes 9) = true →
          ∃ v, s.engineDoes k r i (v, e.runs .ok)
            ∧ (u.landsAt k o → u.keepsMemBut v o.space o.pos (np * m * rowBytes 9)
              ∧ v.rdMem o.space o.pos (np * m * rowBytes 9)
                  = kBytes 9 m np fun x c => (deqElem p [] x (c % 32) (u.kElem a m p.ofmt x c)).v)))
      ∧ (i.op = .qhad → ∀ de, u.ea32 k (j.arg 0) = some de → de.fits 32 = true →
        let b := u.eaRead de 32
        let m := field b 12 1 % 32 + 1
        let np := field b 13 2
        let kk := field b 15 1 % 16
        let sf := field b 16 1 % 16
        let df := field b 16 1 / 16
        (∀ a o, u.ea32 k (field b 0 4) = some a → u.ea32 k (field b 4 4) = some o →
          (np = 0 → s.engineDoes k r i (u, e.runs .ok))
          ∧ (np ≠ 0 → kk < 5 ∨ 12 < kk → s.engineDoes k r i (u.qntFail k e 1 .access))
          ∧ (np ≠ 0 → field b 12 1 < 32 → np < 4096 → field b 15 1 < 16 → field b 17 15 = 0 → 5 ≤ kk → kk ≤ 12 →
              sf = 7 ∨ sf = 8 ∨ sf = 9 → df = 7 ∨ df = 8 ∨ df = 9 → u.eaWritable o (np * m * rowBytes df) = true →
              32 * np % 2 ^ kk = 0 → a.fits (np * m * rowBytes sf) = true → o.fits (np * m * rowBytes df) = true →
            ∃ v, s.engineDoes k r i (v, e.runs .ok)
              ∧ (u.landsAt k o → u.keepsMemBut v o.space o.pos (np * m * rowBytes df)
                ∧ (a.meets (np * m * rowBytes sf) o (np * m * rowBytes df) = false →
                  v.rdMem o.space o.pos (np * m * rowBytes df) = kBytes df m np fun x c =>
                    (storeConv df false ((hadamard kk ((List.range (2 ^ kk)).map fun q =>
                      let y := u.rdElem a m sf x (c / 2 ^ kk * 2 ^ kk + q)
                      { v := y.v, t := y.nan, sat := b2n y.sat })).getD (c % 2 ^ kk) {}).v).1)))))
      ∧ (i.op = .qstep →
        let sl := j.arg 1
        let q := u.qslot k sl
        let len := u.fld (slotCfgKey k sl) 0 5
        (bit (u.reg (slotCfgKey k sl)) 6 = false → s.engineDoes k r i (u.qntFail k e 2 .access))
        ∧ (bit (u.reg (slotCfgKey k sl)) 6 = true → j.arg 2 = 0 →
          ∃ v, s.engineDoes k r i (v, e.runs .ok) ∧ (v.qslot k sl).cur = 0 ∧ (v.qslot k sl).folded = false
            ∧ (v.qslot k sl).hist = (if q.folded then (q.cur :: q.hist).take len else q.hist))
        ∧ (bit (u.reg (slotCfgKey k sl)) 6 = true → j.arg 2 = 1 → ∀ a, u.ea32 k (j.arg 0) = some a → a.fits 4 = true →
          let x := u.eaNat a 4
          (x < 0x7F800000 → ∃ v, s.engineDoes k r i (v, e.runs .ok) ∧ (v.qslot k sl).cur = 0
            ∧ (v.qslot k sl).hist = (x :: q.hist).take len)
          ∧ (0x7F800000 ≤ x % 2 ^ 31 → s.engineDoes k r i (u.qntFail k e 2 .access))))
      ∧ (i.op = .qload → ∀ a, u.ea32 k (j.arg 0) = some a → aligned a.off 64 = true → j.arg 1 + j.arg 2 ≤ 32 →
          a.fits (64 * j.arg 2) = true →
        let rec' (n : Nat) := (List.range 6).map fun w => word (u.eaNat (a.plus (64 * n + 8 * w)) 8)
        ((∀ n < j.arg 2, u.eaNat (a.plus (64 * n + 48)) 16 = 0 ∧ u.profOk k (rec' n) = true) →
          ∃ v, s.engineDoes k r i (v, e.runs .ok) ∧ u.onlyChanges [.regs, .profCur] v
            ∧ ∀ n < j.arg 2, v.profWords k (j.arg 1 + n) = profMask (rec' n) ∧ ∀ x < 4, v.profCursor k x (j.arg 1 + n) = 0)
        ∧ ((∃ n < j.arg 2, u.eaNat (a.plus (64 * n + 48)) 16 ≠ 0 ∨ u.profOk k (rec' n) = false) →
          s.engineDoes k r i (u.qntFail k e 3 .access))))
    ∧ (∀ (dom : Fin 4) (v : Word), s.passes dom (Pg.qnt k + 0x110) = true →
      let ix := s.fld (Pg.qnt k + 0x108) 0 5
      let ws := v :: (List.range 5).map fun n => s.stagedOf dom (profKey k ix (n + 1))
      (s.profOk k ws = true →
        ∃ t, exec (.profileCommit dom k v) s = .next t ∧ t.done = .ok ∧ s.onlyChanges [.regs, .profCur, .done] t
          ∧ t.profWords k ix = profMask ws ∧ ∀ x < 4, t.profCursor k x ix = 0)
      ∧ (s.profOk k ws = false → exec (.profileCommit dom k v) s = .next (s.ends .access)))
    ∧ (∀ (dom : Fin 4) (v : Word), s.passes dom (Pg.qnt k + 0x160) = true →
      let ix := s.fld (Pg.qnt k + 0x148) 0 4
      let n := s.fld (Pg.qnt k + 0x148) 8 4
      let q := s.qslot k ix
      let x := bits v 0 32
      (x < 0x7F800000 → n < q.hist.length →
        ∃ t, exec (.qntSlotHistWrite dom k v) s = .next t ∧ t.done = .ok ∧ s.onlyChanges [.qslots, .done] t
          ∧ t.qslot k ix = { q with hist := q.hist.set n x, warned := false })
      ∧ (x < 0x7F800000 → n = q.hist.length → n < s.fld (slotCfgKey k ix) 0 5 →
        ∃ t, exec (.qntSlotHistWrite dom k v) s = .next t ∧ t.done = .ok ∧ s.onlyChanges [.qslots, .done] t
          ∧ t.qslot k ix = { q with hist := q.hist ++ [x], warned := false })
      ∧ (0x7F800000 ≤ x % 2 ^ 31 ∨ 2 ^ 31 < x ∨ q.hist.length < n → exec (.qntSlotHistWrite dom k v) s = .next (s.ends .access)))

/-- The elements of an MMA, each as its own sum of chunks (R102, R111, R126, R129, R131). -/
def Obligations.MmaElementValues : Prop :=
  ∀ (s : State) (k : Fin 16) (r : PmRead) (i : SInstr), s.canonical = true → s.engineFree k r i → i.op = .mma →
    let u := s.accepted k r i
    let e := s.newEntry k i
    let o := (i.indexedBy (s.seq k)).mma
    let f := u.arrState k i.queue
    let run : MmaRun := { wBase := (u.region k o.wreg).released, sBase := (u.region k f.sreg).released,
                          regs := o.wreg :: (if f.sk = 0 then [] else [f.sreg]) }
    ∀ p, u.ea k o.addr = some p → u.mmaCheck k i.queue o = .ok → o.zero = false ∨ u.tileBeingRead k o.acc = false →
      (∀ n < o.kk, u.mmaCovered k f o run n = true) → f.sk = 0 ∨ o.wreg ≠ f.sreg →
      ∃ v c, s.engineDoes k r i (v, { e.runs .ok with mma := some c }) ∧ ∀ row < o.m, ∀ n < 32,
        (v.tileElems k o.acc o.m).getD (32 * row + n) 0
          = mmaElement f (fun c => if f.sk = 1 then some (secondLevel (field (u.mmaRecord k f o run (128 * c)) 0 4)) else none) o.kk
              (fun x => (u.mmaProducts k f o run p x).getD (32 * row + n) .zero)
              (if o.zero then 0 else (u.tileElems k o.acc o.m).getD (32 * row + n) 0)

/-- VLOAD, VSTORE (R151–R153), CLOVE (R154–R156), REDUCE (R159), PLOAD (R154), BSET, BLEND_COMMIT (R165). -/
def Obligations.VectorOperations : Prop :=
  ∀ (s : State) (k : Fin 16), s.canonical = true →
    (∀ (r : PmRead) (i : SInstr), s.engineFree k r i →
      let u := s.accepted k r i
      let e := s.newEntry k i
      let j := i.indexedBy (s.seq k)
      ∀ a, u.ea32 k (j.arg 0) = some a →
      (i.op = .vload →
        let n := j.arg 2 + 1
        let m := j.arg 3 + 1
        (fmtOk (j.arg 4) = false ∨ pitchOk (j.arg 4) m = false → s.engineDoes k r i (u.vecFail k e 0 .access))
        ∧ (fmtOk (j.arg 4) = true → pitchOk (j.arg 4) m = true →
          (32 < j.arg 1 + n ∨ a.fits (n * m * rowBytes (j.arg 4)) = false → s.engineDoes k r i (u.vecFail k e 0 .length))
          ∧ (j.arg 1 + n ≤ 32 → a.fits (n * m * rowBytes (j.arg 4)) = true →
            ∃ v, s.engineDoes k r i (v, e.runs .ok)
              ∧ u.keepsMemBut v .tile (tileReg k (j.arg 1) 0) (n * 4096)
              ∧ ∀ p < n, v.tileTag.get false (32 * k + j.arg 1 + p) = isIntFmt (j.arg 4)
                ∧ ∀ x < 32, ∀ c < 32, v.regVal k (j.arg 1 + p) x c
                    = if x < m then (u.rdElem a m (j.arg 4) x (32 * p + c)).v % 2 ^ 32 else 0)))
      ∧ (i.op = .vstore →
        let n := j.arg 2 + 1
        let m := j.arg 3 + 1
        let len := n * m * rowBytes (j.arg 4)
        (fmtOk (j.arg 4) = false ∨ pitchOk (j.arg 4) m = false ∨ u.eaWritable a len = false →
          s.engineDoes k r i (u.vecFail k e 1 .access))
        ∧ (fmtOk (j.arg 4) = true → pitchOk (j.arg 4) m = true → u.eaWritable a len = true →
          (32 < j.arg 1 + n ∨ a.fits len = false → s.engineDoes k r i (u.vecFail k e 1 .length))
          ∧ (j.arg 1 + n ≤ 32 → a.fits len = true →
            ∃ v, s.engineDoes k r i (v, e.runs .ok)
              ∧ (u.landsAt k a → u.keepsMemBut v a.space a.pos len
                ∧ v.rdMem a.space a.pos len = kBytes (j.arg 4) m n fun x c =>
                    (storeConv (j.arg 4) (u.tileTag.get false (32 * k + j.arg 1 + c / 32))
                      (u.regVal k (j.arg 1 + c / 32) x (c % 32))).1))))
      ∧ (i.op = .clove → aligned a.off 64 = true → a.fits 128 = true →
        let d := CloveDesc.ofBytes (u.eaRead a 128)
        let prog := (List.range (j.arg 2 + 1)).map fun n => u.clove.get 0 (2048 * k + j.arg 1 + n)
        let o := d.argAt 4
        let st := u.cloveCheck k d (j.arg 1) (j.arg 2 + 1)
        (d.np = 0 → ∃ v, s.engineDoes k r i (v, { e.runs .ok with sum := summary d.sumw 0 0 false false }) ∧ u.onlyChanges [.regs] v)
        ∧ (d.np ≠ 0 → st ≠ .ok → s.engineDoes k r i (u.vecFail k e 2 st))
        ∧ (d.np ≠ 0 → st = .ok →
          ∃ v e', s.engineDoes k r i (v, e') ∧ e'.phase = .running .ok
            ∧ (o.on = true → (d.argAt 5).on = false → u.cloveClash k d 4 = false →
              (o.reg = true → u.keepsMemBut v .tile (tileReg k o.sel 0) (4096 * d.np)
                ∧ ∀ x < d.m, ∀ c < 32 * d.np,
                v.regVal k (o.sel + c / 32) x (c % 32) = (u.cloveElem k d prog x c).out0.1.v % 2 ^ 32)
              ∧ (o.reg = false → ∀ p, u.ea32 k o.addr = some p → u.landsAt k p →
                u.keepsMemBut v p.space p.pos (d.np * d.m * rowBytes o.fmt)
                ∧ v.rdMem p.space p.pos (d.np * d.m * rowBytes o.fmt) = kBytes o.fmt d.m d.np fun x c =>
                    (storeConv o.fmt (u.cloveElem k d prog x c).out0.2 (u.cloveElem k d prog x c).out0.1.v).1))))
      ∧ (i.op = .reduce → aligned a.off 64 = true → a.fits 64 = true →
        let d := VecDesc.ofBytes (u.eaRead a 64)
        (d.n = 0 → ∃ v, s.engineDoes k r i (v, { e.runs .ok with sum := summary d.sumw 0 0 false false }) ∧ u.onlyChanges [.regs] v)
        ∧ (d.n ≠ 0 → u.reduceCheck k d ≠ .ok → s.engineDoes k r i (u.vecFail k e 3 (u.reduceCheck k d)))
        ∧ (d.n ≠ 0 → u.reduceCheck k d = .ok → ∀ p o, u.ea32 k d.src = some p → u.ea32 k d.dst = some o →
          ∃ v e', s.engineDoes k r i (v, e') ∧ e'.phase = .running .ok
            ∧ (u.landsAt k o → u.keepsMemBut v o.space o.pos (if d.op = 6 ∨ d.op = 7 then 128 * d.n else 4 * d.m)
              ∧ v.rdMem o.space o.pos (if d.op = 6 ∨ d.op = 7 then 128 * d.n else 4 * d.m)
                  = (u.reduceVals k d p o).flatMap fun x => toLe 4 x.v)))
      ∧ (i.op = .pload → a.acc = false →
        (j.arg 2 = 0 → ∃ v, s.engineDoes k r i (v, e.runs .ok) ∧ u.onlyChanges [.regs] v)
        ∧ (j.arg 2 ≠ 0 → 2048 < j.arg 1 + j.arg 2 ∨ a.fits (4 * j.arg 2) = false →
          s.engineDoes k r i (u.vecFail k e 8 .length))
        ∧ (j.arg 2 ≠ 0 → j.arg 1 + j.arg 2 ≤ 2048 → a.fits (4 * j.arg 2) = true →
          ∃ v, s.engineDoes k r i (v, e.runs .ok) ∧ u.onlyChanges [.clove, .regs] v
            ∧ (∀ n < j.arg 2, v.clove.get 0 (2048 * k + j.arg 1 + n) = u.eaNat (a.plus (4 * n)) 4)
            ∧ ∀ n, n < 2048 * k + j.arg 1 ∨ 2048 * k + j.arg 1 + j.arg 2 ≤ n → v.clove.get 0 n = u.clove.get 0 n))
      ∧ (i.op = .bset → a.fits 72 = true →
        let ws := (List.range 9).map fun n => word (u.eaNat (a.plus (8 * n)) 8)
        (u.chainRecordOk k ws = false → s.engineDoes k r i (u.vecFail k e 9 .access))
        ∧ (u.chainRecordOk k ws = true →
          ∃ v, s.engineDoes k r i (v, e.runs .ok) ∧ u.onlyChanges [.regs, .chainCur] v
            ∧ (∀ n < 9, v.reg (chainKey k (j.arg 1) n) = ws.getD n 0 &&& chainMask n) ∧ ∀ x < 4, v.chainCursor k x (j.arg 1) = 0)))
    ∧ (∀ (dom : Fin 4) (w : Word), s.passes dom (Pg.vec k + 0x130) = true →
      let c := s.fld (Pg.vec k + 0x128) 0 4
      let ws := w :: (List.range 8).map fun n => s.stagedOf dom (chainKey k c (n + 1))
      (s.chainRecordOk k ws = false → exec (.blendCommit dom k w) s = .next (s.ends .access))
      ∧ (s.chainRecordOk k ws = true →
        ∃ t, exec (.blendCommit dom k w) s = .next t ∧ t.done = .ok ∧ s.onlyChanges [.regs, .chainCur, .done] t
          ∧ (∀ n < 9, t.reg (chainKey k c n) = ws.getD n 0 &&& chainMask n) ∧ ∀ x < 4, t.chainCursor k x c = 0))

/-- TOPK (R160), COMPRESS (R161), EXPAND (R162), COMBINE (R143, R163). -/
def Obligations.VectorDescriptorOperations : Prop :=
  ∀ (s : State) (k : Fin 16) (r : PmRead) (i : SInstr) (a : EA), s.canonical = true → s.engineFree k r i →
    let u := s.accepted k r i
    let e := s.newEntry k i
    u.ea32 k ((i.indexedBy (s.seq k)).arg 0) = some a → aligned a.off 64 = true → a.fits 64 = true →
    let d := VecDesc.ofBytes (u.eaRead a 64)
    (i.op = .topk →
      (d.n = 0 ∨ d.param = 0 → ∃ v, s.engineDoes k r i (v, { e.runs .ok with sum := summary d.sumw u.freeVal.toNat 0 false false })
        ∧ u.onlyChanges [.regs, .free] v)
      ∧ (d.n ≠ 0 → d.param ≠ 0 → u.topkCheck k d ≠ .ok → s.engineDoes k r i (u.vecFail k e 4 (u.topkCheck k d)))
      ∧ (d.n ≠ 0 → d.param ≠ 0 → u.topkCheck k d = .ok → ∀ p o x, u.ea32 k d.src = some p → u.ea32 k d.dst = some o →
          u.ea32 k d.aux0 = some x →
        let top (n : Nat) := (ranked (isIntFmt d.fmt) ((List.range (32 * d.n)).map fun c => (u.rdElem p d.m d.fmt n c).v)).take d.param
        ∃ v e', s.engineDoes k r i (v, e') ∧ e'.phase = .running .ok
          ∧ (d.flags = 0 → u.landsAt k x → v.rdMem x.space x.pos (4 * d.m * d.param)
              = (List.range d.m).flatMap fun n => (top n).flatMap fun (y : Nat × Nat) => toLe 4 y.2)
          ∧ (d.flags = 0 → u.landsAt k x → u.landsAt k o → o.meets (128 * d.m) x (4 * d.m * d.param) = false →
            v.rdMem o.space o.pos (128 * d.m) = (List.range d.m).flatMap fun n =>
              ((top n).map (fun (y : Nat × Nat) => if isIntFmt d.fmt then iToF y.1 else y.1) ++ List.replicate (32 - d.param) 0xFF7FFFFF).flatMap
                fun (y : Nat) => toLe 4 y)))
    ∧ (i.op = .compress → ∀ p o a0 a1 a2, u.ea32 k d.src = some p → u.ea32 k d.dst = some o → u.ea32 k d.aux0 = some a0 →
        u.ea32 k d.aux1 = some a1 → u.ea32 k d.aux2 = some a2 →
      let np := d.param % 4096
      let b := nbits d.param 16 10 + 1
      let slots := (List.range d.n).map fun n => (u.eaNat (a0.plus (4 * n)) 4 % 65536, u.eaNat (a0.plus (4 * n)) 4 / 65536)
      let runs := compressRuns slots b d.m (d.flags == 1)
      (d.n = 0 ∨ np = 0 → ∃ v, s.engineDoes k r i (v, { e.runs .ok with sum := summary d.sumw 0 0 false false }) ∧ u.onlyChanges [.regs] v)
      ∧ (d.n ≠ 0 → np ≠ 0 → d.clean = true → d.op = 0 → d.flags ≤ 1 → fmtOk d.fmt = true → d.dfmt = d.fmt →
          nbits d.param 12 4 = 0 → nbits d.param 26 6 = 0 → pitchOk d.fmt d.m = true → d.n ≤ 65536 → a0.fits (4 * d.n) = true →
          (∀ n < runs.2.length, u.eaWritable o (rowEnd d.m np (rowBytes d.fmt) n) = true ∧ o.fits (rowEnd d.m np (rowBytes d.fmt) n) = true) →
          u.eaWritable a1 (4 * runs.2.length) = true → u.eaWritable a2 (8 * b) = true →
          (∀ x ∈ slots, x.2 < b → p.fits (rowEnd d.m np (rowBytes d.fmt) x.1) = true) →
          runs.2.length ≤ d.cap → a1.fits (4 * runs.2.length) = true → a2.fits (8 * b) = true →
        ∃ v e', s.engineDoes k r i (v, e') ∧ e'.phase = .running .ok
          ∧ (u.landsAt k a2 → v.rdMem a2.space a2.pos (8 * b) = runs.1.flatMap fun (x : Nat × Nat) => toLe 4 x.1 ++ toLe 4 x.2)
          ∧ (u.landsAt k a1 → u.landsAt k a2 → a1.meets (4 * runs.2.length) a2 (8 * b) = false →
            v.rdMem a1.space a1.pos (4 * runs.2.length) = runs.2.flatMap fun x => toLe 4 (match (x : Option (Nat × Nat)) with
              | some y => y.1 % 65536 + 65536 * y.2
              | none => 0xFFFFFFFF))))
    ∧ (i.op = .expand → ∀ p o a0 a1 a2, u.ea32 k d.src = some p → u.ea32 k d.dst = some o → u.ea32 k d.aux0 = some a0 →
        u.ea32 k d.aux1 = some a1 → u.ea32 k d.aux2 = some a2 →
      let np := d.param
      let slotOf (n : Nat) := u.eaNat (a0.plus (4 * n)) 4
      let rowOf (n : Nat) := u.eaNat (a1.plus (4 * (slotOf n % 65536))) 4 % 65536
      (d.n = 0 ∨ np % 4096 = 0 → ∃ v, s.engineDoes k r i (v, { e.runs .ok with sum := summary d.sumw 0 0 false false }) ∧ u.onlyChanges [.regs] v)
      ∧ (d.n ≠ 0 → np ≠ 0 → np < 4096 → d.clean = true → d.op = 0 → d.flags = 0 → fmtOk d.fmt = true → d.dfmt = d.fmt →
          d.cap = 0 → d.aux2 = 0 → pitchOk d.fmt d.m = true → a0.fits (4 * d.n) = true →
          (∀ n < d.n, slotOf n ≠ 0xFFFFFFFF → a1.fits (4 * (slotOf n % 65536) + 4) = true
            ∧ (∀ x < np, u.eaWritable (o.plus (blockOff d.m np (rowBytes d.fmt) (rowOf n) x)) (rowBytes d.fmt) = true)
            ∧ p.fits (rowEnd d.m np (rowBytes d.fmt) n) = true ∧ o.fits (rowEnd d.m np (rowBytes d.fmt) (rowOf n)) = true) →
        ∃ v e', s.engineDoes k r i (v, e') ∧ e'.phase = .running .ok
          ∧ (u.landsAt k o → ∀ n < d.n, slotOf n ≠ 0xFFFFFFFF →
              (∀ n', n < n' → n' < d.n → slotOf n' ≠ 0xFFFFFFFF → rowOf n' ≠ rowOf n) →
            v.blockRow o d.m np (rowBytes d.fmt) (rowOf n) = u.blockRow p d.m np (rowBytes d.fmt) n)))
    ∧ (i.op = .combine → ∀ p o, u.ea32 k d.src = some p → u.ea32 k d.dst = some o →
      let step (x : EA) := if x.acc then 4096 else d.m * 128
      let part (q t : Nat) := p.plus (q * d.param + t * step p)
      let int := d.fmt == 10
      (d.n = 0 → ∃ v, s.engineDoes k r i (v, { e.runs .ok with sum := summary d.sumw 0 0 false false }) ∧ u.onlyChanges [.regs] v)
      ∧ (d.n ≠ 0 → d.clean = true → 1 ≤ d.op → d.op ≤ 3 → d.flags = 0 → d.fmt = 9 ∨ d.fmt = 10 → d.dfmt = 0 → d.aux0 = 0 →
          d.aux1 = 0 → d.aux2 = 0 → d.cap = 0 → aligned d.param 32 = true →
          (∀ q < 2 ^ d.op, ∀ t < d.n, u.eaWritable (part q t) (128 * d.m) = true ∧ (part q t).fits (128 * d.m) = true) →
          (∀ t < d.n, u.eaWritable (o.plus (t * step o)) (128 * d.m) = true ∧ (o.plus (t * step o)).fits (128 * d.m) = true) →
        ∃ v e', s.engineDoes k r i (v, e') ∧ e'.phase = .running .ok
          ∧ (u.landsAt k o → ∀ t < d.n,
            v.rdMem o.space (o.pos + t * step o) (128 * d.m) = (List.range (32 * d.m)).flatMap (fun x => toLe 4
              (combineVals int ((List.range (2 ^ d.op)).map fun q => u.combinePart (part q t) int x)).v)
            ∧ (o.acc = true → (v.tileOf o.slice (o.off / 4096 + t)).isOpen = false
              ∧ (v.tileOf o.slice (o.off / 4096 + t)).first = true ∧ (v.tileOf o.slice (o.off / 4096 + t)).int = int))))

/-- ADEC (R209, R214), APPEND (R201–R203), AMERGE (R213), AGATHER (R216), XLOAD (R196), ACONFIG (R198), and the walks (R235, R236). -/
def Obligations.AttentionOperations : Prop :=
  ∀ (s : State) (k : Fin 16) (r : PmRead) (i : SInstr) (a : EA), s.canonical = true → s.engineFree k r i →
    let u := s.accepted k r i
    let e := s.newEntry k i
    let j := i.indexedBy (s.seq k)
    u.ea32 k (j.arg 0) = some a →
    (i.op = .xload → a.acc = false → aligned (j.arg 1) 32 = true → aligned (j.arg 2) 32 = true →
      (j.arg 2 = 0 → s.engineDoes k r i (u, e.runs .ok))
      ∧ (j.arg 2 ≠ 0 → 524288 < j.arg 1 + j.arg 2 ∨ a.fits (j.arg 2) = false → s.engineDoes k r i (u.attFail k e 4 .length))
      ∧ (j.arg 2 ≠ 0 → j.arg 1 + j.arg 2 ≤ 524288 → a.fits (j.arg 2) = true →
        ∃ v, s.engineDoes k r i (v, e.runs .ok) ∧ u.onlyChanges [.mem] v
          ∧ u.keepsMemBut v .xstore (2 ^ 19 * k + j.arg 1) (j.arg 2)
          ∧ v.rdMem .xstore (2 ^ 19 * k + j.arg 1) (j.arg 2) = u.eaRead a (j.arg 2)))
    ∧ (i.op = .aconfig → aligned a.off 64 = true → j.arg 2 ≠ 0 → j.arg 1 + j.arg 2 ≤ 8 → a.fits (128 * j.arg 2) = true →
      ((∀ n < j.arg 2, (AttCfg.ofBytes (u.eaRead (a.plus (128 * n)) 128)).ok = true) →
        ∃ v, s.engineDoes k r i (v, e.runs .ok) ∧ u.onlyChanges [.attCfg] v
          ∧ (∀ n < j.arg 2, v.attRecord k (j.arg 1 + n) = u.eaRead (a.plus (128 * n)) 128)
          ∧ ∀ x, x < 8 * k + j.arg 1 ∨ 8 * k + j.arg 1 + j.arg 2 ≤ x → v.attCfg.get (zeros 128) x = u.attCfg.get (zeros 128) x)
      ∧ ((∃ n < j.arg 2, (AttCfg.ofBytes (u.eaRead (a.plus (128 * n)) 128)).ok = false) →
        s.engineDoes k r i (u.attFail k e 5 .access)))
    ∧ (i.op = .amerge → aligned a.off 64 = true → a.fits 64 = true →
      let b := u.eaRead a 64
      let p := field b 16 1
      let rows := field b 17 1
      let width := field b 18 2
      let ofmt := field b 20 1 % 16
      let norm := field b 20 1 / 16 % 2 == 1
      let stride := field b 8 4
      ∀ x st o, u.ea32 k (field b 0 4) = some x → u.ea32 k (field b 4 4) = some st → u.ea32 k (field b 12 4) = some o →
        2 ≤ p → p ≤ 8 → rows < 64 → width < 2048 → width ≠ 0 → aligned width 32 = true → field b 20 1 < 32 → field b 22 42 = 0 →
        ofmt = 0 ∨ ofmt = 7 ∨ ofmt = 9 → aligned stride 32 = true → u.eaWritable o (width / 32 * rows * rowBytes ofmt) = true →
        (x.plus ((p - 1) * stride)).fits (128 * (width / 32) * rows) = true →
        (st.plus ((p - 1) * stride)).fits (8 * rows) = true → o.fits (width / 32 * rows * rowBytes ofmt) = true →
        let part (n row : Nat) : AttRow :=
          { m := u.eaNat (st.plus (n * stride + 8 * row)) 4, l := u.eaNat (st.plus (n * stride + 8 * row + 4)) 4
            o := (List.range width).map fun c => u.kElem (x.plus (n * stride)) rows 9 row c }
        let merged (row : Nat) := (List.range (p - 1)).foldl (fun m n => mergeStep m (part (n + 1) row)) (part 0 row)
        ∃ v, s.engineDoes k r i (v, e.runs .ok)
          ∧ (u.landsAt k o → u.keepsMemBut v o.space o.pos (width / 32 * rows * rowBytes ofmt)
            ∧ v.rdMem o.space o.pos (width / 32 * rows * rowBytes ofmt) = kBytes ofmt rows (width / 32) fun row c =>
              (storeConv ofmt false (if norm then (fDiv ((merged row).o.getD c 0) (merged row).l).1 else (merged row).o.getD c 0)).1))
    ∧ (i.op = .append ∨ i.op = .adec → aligned a.off 64 = true → a.fits 64 = true →
      let adec := i.op == .adec
      let func := if adec then 0 else 1
      let b := Batch.ofBytes (u.eaRead a 64)
      let c := u.attCfgOf k b.cfg
      (b.nseq = 0 → s.engineDoes k r i (u, e.runs .ok))
      ∧ (∀ tab, b.nseq ≠ 0 → u.ea32 k b.seqt = some tab →
        let q := SeqEnt.ofBytes (u.eaRead tab 64)
        (u.batchCheck k c b adec tab ≠ .ok → s.engineDoes k r i (u.attFail k e func (u.batchCheck k c b adec tab)))
        ∧ (u.batchCheck k c b adec tab = .ok →
          ∃ v e', s.engineDoes k r i (v, e') ∧ e'.walk = some b.xslot
            ∧ (v.xslot (2 * k + 1) b.xslot).mode = .walk ∧ (v.xslot (2 * k + 1) b.xslot).kreg = b.kreg
            ∧ (adec = false → e' = { e with phase := .running .ok, walk := some b.xslot })
            ∧ (b.nseq = 1 → q.lenOk = false ∨ c.ringOk b q = false →
              e'.phase = .running .ok ∧ v.flagged (Pg.att k) 2 = true
                ∧ (u.landsAt k tab → v.eaNat (tab.plus 62) 1 = statusCode .length))
            ∧ (adec = true → b.nseq = 1 → q.lenOk = true → c.ringOk b q = true → q.globEn = false →
              (c.needed b q [] = [] → e'.phase = .running .ok ∧ (u.landsAt k tab → v.eaNat (tab.plus 62) 1 = statusCode .ok))
              ∧ (∀ an en rest, pagesOf ((c.needed b q []).map (c.place q c.maxSink [])) = (an, en) :: rest →
                  (u.pageAddr k c q { anchor := an, entry := en, slot := 0 }).2.2.2 = .ok →
                (u.walkFollows k b.xslot = false → (∃ n ∈ u.walkTargets k b.xslot, (u.region n b.kreg).credits = 0) →
                  e'.phase = .starved u.clk)
                ∧ (u.walkFollows k b.xslot = true → (u.region k b.kreg).filled ≤ (u.region k b.kreg).released →
                  e'.phase = .starved u.clk)
                ∧ (u.walkFollows k b.xslot = true → (u.region k b.kreg).released < (u.region k b.kreg).filled →
                    ((u.region k b.kreg).tagPlace (u.region k b.kreg).released).bind ((u.region k b.kreg).tags[·]?) ≠ some (0, en, 0) →
                  e'.phase = .running .access ∧ v.flagged (Pg.xe (2 * k + 1)) 2 = true)))
            ∧ (adec = false → b.nseq = 1 → u.landsAt k tab → q.lenOk = true → c.ringOk b q = true → q.globEn = false →
                q.nq = 1 → q.ring = false → (u.targetAddr k c q { anchor := false, entry := q.len / c.p, slot := q.len % c.p }).2.2 = .ok →
              ∀ t, u.ea32 k q.taddr = some t → u.landsAt k t → t.meets (c.tailBytes 1) tab 64 = false →
                v.rdMem t.space t.pos c.erow = (u.quantRecord k c b q 0).1))))
    ∧ (i.op = .agather → aligned a.off 64 = true → a.fits 64 = true →
      let g := Gather.ofBytes (u.eaRead a 64)
      let c := u.attCfgOf k g.cfg
      ∀ tab, u.ea32 k g.seq = some tab →
        let q := SeqEnt.ofBytes (u.eaRead tab 64)
        (u.gatherCheck k c g tab ≠ .ok → s.engineDoes k r i (u.attFail k e 3 (u.gatherCheck k c g tab)))
        ∧ (u.gatherCheck k c g tab = .ok →
          ∃ v e', s.engineDoes k r i (v, e') ∧ e'.walk = some g.xslot
            ∧ (v.xslot (2 * k + 1) g.xslot).mode = .walk ∧ (v.xslot (2 * k + 1) g.xslot).kreg = g.kreg
            ∧ (q.globEn = false → q.len ≤ g.klo →
              e'.phase = .running .ok ∧ (u.landsAt k tab → v.eaNat (tab.plus 62) 1 = statusCode .ok))))

/-- ARM, ARMD, STOP (R219, R220, R228), XE_ARM_WRITE, XE_STOP_WRITE (R220, R228), TRANSFER_ISSUE (R224), TRANSFER_COMPLETE (R225, R227). -/
def Obligations.TransferEngines : Prop :=
  ∀ (s : State),
    (∀ (k : Fin 16) (r : PmRead) (i : SInstr) (p : Nat), s.engineFree k r i → s.pairedPrimary k = none → s.partOfSlice k = some p →
      let u := s.accepted k r i
      let e := s.newEntry k i
      let j := i.indexedBy (s.seq k)
      let n := 2 * k + (i.queue - 7)
      let q := j.arg 1
      (i.op = .arm ∨ i.op = .armd ∨ i.op = .stop → xCount n ≤ q →
        ∃ v, s.engineDoes k r i (v, e.runs .access) ∧ u.onlyChanges [.engFail] v)
      ∧ (i.op = .arm → q < xCount n → ∀ a, u.ea k (j.arg 0) = some a →
        (a.acc = true ∨ aligned a.off 64 = false → s.engineDoes k r i (u.xferDone k i.queue 0 e .access))
        ∧ (a.acc = false → aligned a.off 64 = true → a.fits 64 = true →
          let b := u.eaRead a 64
          ((u.xslot n q).mode = .walk → s.engineDoes k r i (u.xferDone k i.queue 0 e .access))
          ∧ ((u.xslot n q).mode ≠ .walk → u.armCheck n q p (Desc.ofBytes b) (u.xslot n q).gen ≠ .ok →
            s.engineDoes k r i (u.xferDone k i.queue 0 e (u.armCheck n q p (Desc.ofBytes b) (u.xslot n q).gen)))
          ∧ ((u.xslot n q).resting → u.armCheck n q p (Desc.ofBytes b) (u.xslot n q).gen = .ok →
            ∃ v, s.engineDoes k r i (v, e.runs .ok) ∧ (u.xslot n q).armedFrom (v.xslot n q) p b)))
      ∧ (i.op = .armd → q < xCount n →
        let x := (u.countAccess (j.arg 2 * 64)).devRead (j.arg 2 * 64) 64
        u.devCheck (.part p false) (j.arg 2 * 64) 64 false = .ok → x.2.2 = .ok → (x.1.xslot n q).resting →
        x.1.armCheck n q p (Desc.ofBytes x.2.1) (x.1.xslot n q).gen = .ok →
        ∃ v, s.engineDoes k r i (v, e.runs .ok) ∧ (x.1.xslot n q).armedFrom (v.xslot n q) p x.2.1)
      ∧ (i.op = .stop → q < xCount n →
        ((u.xslot n q).mode = .walk → s.engineDoes k r i (u.xferDone k i.queue 2 e .access))
        ∧ ((u.xslot n q).resting → ∃ v, s.engineDoes k r i (v, e.runs .ok) ∧ (v.xslot n q).mode = .idle ∧ (v.xslot n q).gens = [])
        ∧ (∀ g, (u.xslot n q).mode = .active → (u.xslot n q).gens = [g] → (u.xslot n q).xfers = [] → (u.xslot n q).released = false → g.fail = none →
            g.limit = none → g.off = 0 →
          ∃ v, s.engineDoes k r i (v, e.runs .ok) ∧ (u.xslot n q).stoppedFrom (v.xslot n q))))
    ∧ (∀ (dom : Fin 4) (n : Fin 40) (v : Word) (q p : Nat), s.passes dom (Pg.xe n + 0x110) = true → s.xSelected n = some q →
        s.xPart n q = some p →
      (let a := bits v 0 48 * 64
       let x := (s.countAccess a).devRead a 64
       (s.devCheck (xWho n p) a 64 false ≠ .ok → exec (.xeArmWrite dom n v) s = .next (s.ends (s.devCheck (xWho n p) a 64 false)))
       ∧ (s.devCheck (xWho n p) a 64 false = .ok → x.2.2 = .ok → (x.1.xslot n q).resting →
          x.1.armCheck n q p (Desc.ofBytes x.2.1) (x.1.xslot n q).gen = .ok →
        ∃ t : State, exec (.xeArmWrite dom n v) s = .next (t.afterLoss s) ∧ t.done = .ok ∧ (x.1.xslot n q).armedFrom (t.xslot n q) p x.2.1))
      ∧ ((s.xslot n q).mode = .walk → exec (.xeStopWrite dom n v) s = .next (s.ends .access))
      ∧ (∀ g, (s.xslot n q).mode = .active → (s.xslot n q).gens = [g] → (s.xslot n q).xfers = [] → (s.xslot n q).released = false → g.fail = none →
          g.limit = none → g.off = 0 →
        ∃ t : State, exec (.xeStopWrite dom n v) s = .next (t.afterLoss s) ∧ t.done = .ok ∧ (s.xslot n q).stoppedFrom (t.xslot n q)))
    ∧ (∀ (n : Fin 40) (q : Fin 64) (g : Gen) (ent : List Byte), (s.xslot n q).gens = [g] → g.fail = none → g.ent = some ent →
      let x := s.xslot n q
      let b := Blk.ofBytes ent
      let d := Desc.ofBytes g.desc
      let targets := if b.dsp = 2 then s.xTargets n g.part d else []
      (g.issued = false → s.enginesRun = true → b.len ≠ 0 → b.sremote = false → b.dremote = false →
        ((x.xfers.filter fun t => !t.fin).length ≤ d.outs → (∀ k ∈ targets, (s.region k d.target).credits ≠ 0) →
          ∃ t : State, exec (.transferIssue n q) s = .next (t.afterLoss s)
            ∧ (t.xslot n q).xfers = x.xfers ++ [{ gen := g.gen, blk := g.blk, ent := ent, off := g.off, len := b.nextLen d g.off
                                                  tiles := targets.map fun k => (k, (s.region k d.target).taken)
                                                  due := if b.dsp = 2 ∧ d.cls = 1 then some (s.xDue targets d) else none
                                                  maps := s.windows }]
            ∧ (targets.Nodup → ∀ k ∈ targets, (t.region k d.target).taken = (s.region k d.target).taken + 1))
        ∧ (d.outs < (x.xfers.filter fun t => !t.fin).length ∨ (∃ k ∈ targets, (s.region k d.target).credits = 0) →
          ∃ t, exec (.transferIssue n q) s = .next t ∧ (t.xslot n q).xfers = x.xfers ∧ t.regions = s.regions)))
    ∧ (∀ (n : Fin 40) (q : Fin 64) (g : Gen) (w : Xfer) (a c : EA), (s.xslot n q).gens = [g] → g.fail = none →
          (s.xslot n q).mode ≠ .walk → (s.xslot n q).released = false → (s.xslot n q).xfers = [w] → w.fin = false → w.remote = false → w.gen = g.gen → w.tiles = [] →
          w.due = none →
        let b := Blk.ofBytes w.ent
        let d := Desc.ofBytes g.desc
        s.repairs = [] → s.canonical = true → g.limit = none → d.crecEn = false →
          b.ssp = 1 → b.dsp = 1 → b.sremote = false → b.dremote = false → b.rows = 1 → w.len ≠ 0 → w.off + w.len ≤ b.len →
          s.xEa n g.part b.src = some a → s.xEa n g.part b.dst = some c → c.slice < 16 → s.pairedTwin c.slice = none →
          s.eaWritable (c.plus w.off) w.len = true → c.fits (w.off + w.len) = true →
        ∃ t : State, exec (.transferComplete n q 0) s = .next (t.afterLoss s) ∧ (t.xslot n q).xfers = []
          ∧ s.keepsMemBut t c.space (c.pos + w.off) w.len
          ∧ t.rdMem c.space (c.pos + w.off) w.len = s.eaRead (a.plus w.off) w.len
          ∧ (g.issued = true → (t.xslot n q).gens = [] ∧ (t.xslot n q).mode = .idle ∧ bits (t.xslot n q).last 0 8 = statusCode .ok)
          ∧ (g.issued = false → ∃ g', (t.xslot n q).gens = [g'] ∧ g'.bytes = g.bytes + w.len
            ∧ g'.blocks = g.blocks + (if w.off + w.len < b.len then 0 else 1)))

/-- STACK_READ_DONE (R257, R266, R273), CMD_PARITY_ALERT (R259), REFRESH_DUE (R261), SCRUB_READ (R260), THERMAL_REPORT (R262, R263),
THERMAL_REPORT_MISS (R264), WINDOW_COMMIT (R244), WINDOW_DISABLE (R245). -/
def Obligations.StackTier : Prop :=
  ∀ (s : State),
    (∀ (addr : Nat) (flips : List (Nat × Byte)) (l : StackLoc), wfFlips flips = true → s.canonical = true → l.off < 2 ^ 60 →
        s.locate (addr / 64 * 64) = .stack l →
      let n := l.chan / 128
      let ch := l.chan % 128
      let u := s.flipStack l flips
      let e := u.rdMem .stackChk (l.off / 8) 8
      (s.boot.memStop = true → exec (.stackReadDone addr flips) s = .next (s.ends .fault))
      ∧ (s.boot.memStop = false → s.isStale l = true →
        ∃ t : State, exec (.stackReadDone addr flips) s = .next (t.afterLoss s) ∧ t.done = .unsealed ∧ t.flagged Pg.row 2 = true
          ∧ t.mem = u.mem)
      ∧ (s.boot.memStop = false → s.isStale l = false →
        (rsDecode s.tc e = some [] →
          ∃ t : State, exec (.stackReadDone addr flips) s = .next (t.afterLoss s) ∧ t.done = .ok ∧ t.mem = u.mem
            ∧ (t.stack n).ueRun.get 0 ch = 0)
        ∧ (∀ x xs, rsDecode s.tc e = some (x :: xs) →
          ∃ t : State, exec (.stackReadDone addr flips) s = .next (t.afterLoss s) ∧ t.done = .ok
            ∧ t.rdMem .stack l.off 64 = rsFix (u.rdMem .stack l.off 64) (x :: xs)
            ∧ t.rdMem .stackChk (l.off / 8) 8 = zeros 8 ∧ t.flagged (Pg.stk n) 8 = true
            ∧ ((s.stack n).mode = .ready → (∃ ln ∈ symLanes ((x :: xs).map fun y => 71 - y.1), 7 ≤ s.laneHits n ch ln) →
              (t.stack n).mode = .failed ∧ (t.stack n).failChan = ch ∧ (t.stack n).failCause = 2))
        ∧ (rsDecode s.tc e = none →
          ∃ t : State, exec (.stackReadDone addr flips) s = .next (t.afterLoss s) ∧ t.done = .poison ∧ t.mem = u.mem
            ∧ t.flagged (Pg.stk n) 0 = true ∧ (t.stack n).ueRun.get 0 ch = (s.stack n).ueRun.get 0 ch + 1
            ∧ (8 ≤ (s.stack n).ueRun.get 0 ch + 1 → (s.stack n).mode = .ready →
              (t.stack n).mode = .failed ∧ (t.stack n).failChan = ch ∧ (t.stack n).failCause = 4))))
    ∧ (∀ (n : Fin 12) (ch : Fin 128), (s.stack n).mode = .ready →
      (((s.stack n).alertClk.items.find? fun e => e.1 == ch.val) = none →
        ∃ t : State, exec (.cmdParityAlert n ch) s = .next (t.afterLoss s) ∧ (t.stack n).alertClk.get 0 ch = s.clk ∧ (t.stack n).mode = .ready
          ∧ t.flagged (Pg.stk n) 2 = true ∧ t.reg (Pg.stk n + 0x130) = (s.bump (Pg.stk n + 0x130) 1).reg (Pg.stk n + 0x130))
      ∧ (∀ c, ((s.stack n).alertClk.items.find? fun e => e.1 == ch.val) = some (ch.val, c) → s.clk ≤ c + usTicks →
          s.boot.phase = .ready →
        ∃ t : State, exec (.cmdParityAlert n ch) s = .next (t.afterLoss s) ∧ (t.stack n).mode = .failed ∧ (t.stack n).failChan = ch
          ∧ (t.stack n).failCause = 3 ∧ t.boot.phase = .fwFault))
    ∧ (∀ (n : Fin 12) (ch : Fin 128) (b : Fin 32) (idle : Fin 17), (s.stack n).mode = .ready →
      let key := 32 * ch.val + b.val
      let debt := max (-8) ((s.stack n).debt.get 0 key - idle.val) + 1
      ∃ t, exec (.refreshDue n ch b idle) s = .next t ∧ s.onlyChanges [.clk, .time, .tolvys, .regs] t
        ∧ t.clk = max s.clk ((s.stack n).dueClk.get 0 key) ∧ (t.stack n).dueClk.get 0 key = t.clk + (s.stack n).trefi
        ∧ (t.stack n).debt.get 0 key = (if 8 ≤ debt then debt - 1 else debt)
        ∧ (8 ≤ debt → t.reg (Pg.stk n + 0x150) = (s.bump (Pg.stk n + 0x150) 1).reg (Pg.stk n + 0x150))
        ∧ (debt < 8 → t.regs = s.regs))
    ∧ (∀ (n : Fin 12) (ch : Fin 128), (s.stack n).mode = .ready → s.boot.memStop = false →
      let sec := (s.stack n).scrub.get 0 ch
      let l : StackLoc := { chan := n * 128 + ch, c := sec * 64, hash := false }
      let e := s.rdMem .stackChk (l.off / 8) 8
      (s.isStale l = true →
        ∃ t : State, exec (.scrubRead n ch) s = .next (t.afterLoss s) ∧ s.onlyChanges [.clk, .time, .timers, .tolvys, .regs] t
          ∧ (t.stack n).scrub.get 0 ch = (sec / 16 + 1) * 16 % 10485760)
      ∧ (s.isStale l = false → rsDecode s.tc e = some [] →
        ∃ t : State, exec (.scrubRead n ch) s = .next (t.afterLoss s) ∧ s.onlyChanges [.clk, .time, .timers, .tolvys] t
          ∧ (t.stack n).scrub.get 0 ch = (sec + 1) % 10485760 ∧ (t.stack n).ueRun.get 0 ch = 0)
      ∧ (∀ x xs, s.isStale l = false → rsDecode s.tc e = some (x :: xs) → s.canonical = true → sec < 10485760 →
        ∃ t : State, exec (.scrubRead n ch) s = .next (t.afterLoss s)
          ∧ t.rdMem .stack l.off 64 = rsFix (s.rdMem .stack l.off 64) (x :: xs) ∧ t.rdMem .stackChk (l.off / 8) 8 = zeros 8)
      ∧ (s.isStale l = false → rsDecode s.tc e = none →
        ∃ t : State, exec (.scrubRead n ch) s = .next (t.afterLoss s) ∧ t.mem = s.mem ∧ t.flagged (Pg.stk n) 1 = true
          ∧ (t.stack n).scrub.get 0 ch = (sec + 1) % 10485760
          ∧ (t.stack n).ueRun.get 0 ch = (s.stack n).ueRun.get 0 ch + 1))
    ∧ (∀ (n : Fin 12) (temp : Int) (inner : Nat), s.stackFitted n = true → (s.stack n).mode ≠ .off →
      (temp < 105 * 16 →
        ∃ t : State, exec (.thermalReport n temp inner) s = .next (t.afterLoss s) ∧ t.clk = max s.clk (s.timers.get 0 (0x20000 + n) + usTicks)
          ∧ t.stack n = { s.stack n with
              temp := temp, missed := 0
              hot := if 85 * 16 < temp then true else if temp < 83 * 16 then false else (s.stack n).hot
              level := s.nextLevel n temp }
          ∧ (85 * 16 < temp → t.flagged (Pg.stk n) 3 = true) ∧ (95 * 16 ≤ temp → t.flagged (Pg.stk n) 4 = true)
          ∧ (temp ≤ 85 * 16 → s.onlyChanges [.clk, .time, .timers, .regs, .tolvys] t))
      ∧ (105 * 16 ≤ temp → (s.stack n).mode ≠ .failed → s.boot.phase = .ready →
        ∃ t : State, exec (.thermalReport n temp inner) s = .next (t.afterLoss s) ∧ (t.stack n).mode = .failed ∧ (t.stack n).failCause = 5
          ∧ t.boot.phase = .fwFault)
      ∧ ((s.stack n).missed + 1 < 8 →
        exec (.thermalReportMiss n) s = .next (s.modStack n fun st => { st with missed := (s.stack n).missed + 1 }))
      ∧ (8 ≤ (s.stack n).missed + 1 → (s.stack n).mode ≠ .failed → s.boot.phase = .ready →
        ∃ t : State, exec (.thermalReportMiss n) s = .next (t.afterLoss s) ∧ (t.stack n).hot = true
          ∧ (t.stack n).level = s.nextLevel n (105 * 16) ∧ t.flagged (Pg.stk n) 3 = true ∧ t.flagged (Pg.stk n) 4 = true ∧ (t.stack n).mode = .failed ∧ (t.stack n).failCause = 6
          ∧ t.boot.phase = .fwFault))
    ∧ (∀ (dom : Fin 4) (v : Word), s.passes dom (Pg.stkCommon + 0x110) = true →
      let ix := s.fld (Pg.stkCommon + 0x100) 0 4
      let w := Window.ofWords (setBits v 0 1 1) (s.stagedOf 0 (keyAt (Pg.stkCommon + 0x108) ix))
      (s.selectedWindow.en = false →
        (bits v 1 2 < 2 → s.winOk ix w = true →
          ∃ t, exec (.windowCommit dom v) s = .next t ∧ t.done = .ok ∧ s.onlyChanges [.windows, .regs, .done] t
            ∧ t.windows.get {} ix = w ∧ ∀ j, j ≠ ix → t.windows.get {} j = s.windows.get {} j)
        ∧ (2 ≤ bits v 1 2 ∨ s.winOk ix w = false → exec (.windowCommit dom v) s = .next (s.ends .access)))
      ∧ (s.selectedWindow.en = true → exec (.windowCommit dom v) s = .next (s.ends .access))
      ∧ (s.selectedWindow.en = true → s.selectedWindow.gran < 4 → s.selectedWindow.stack < 16 → s.selectedWindow.cbase < 2 ^ 14 →
        ∃ t, exec (.windowDisable dom) s = .next t ∧ t.done = .ok ∧ s.onlyChanges [.windows, .done] t
          ∧ t.windows.get {} ix = { s.selectedWindow with en := false } ∧ ∀ j, j ≠ ix → t.windows.get {} j = s.windows.get {} j))

/-- ROWSEQ_GO (R276), ROWSEQ_ABORT, ROW_OP_COMPLETE (R277), ROW_INIT, ROW_COPY, ROW_AND, ROW_OR, ROW_XOR, ROW_NOT (R269, R271, R275),
RESEAL (R274). -/
def Obligations.RowOperations : Prop :=
  ∀ (s : State) (d q : Fin 4),
    (∀ (dom : Fin 4) (v : Word), s.passes dom (rowqCtrl d q) = true →
      let list := s.fld (rowSlotBase d q) 0 52
      let count := bits v 0 24
      let part := bits v 24 4
      ((s.rowSlot d q).mode ≠ .idle → exec (.rowseqGo dom d q v) s = .next (s.ends .access))
      ∧ ((s.rowSlot d q).mode = .idle → d = 0 ∨ s.ownerOf part = d → bit v 28 = false ∨ (s.absCtr part (bits v 32 15)).isSome = true →
        (count ≠ 0 → s.devEnd ≤ list → exec (.rowseqGo dom d q v) s = .next (s.ends .access))
        ∧ (count ≠ 0 → list < s.devEnd → s.devEnd < list + 32 * count → exec (.rowseqGo dom d q v) s = .next (s.ends .length))
        ∧ (count = 0 → list ≤ s.devEnd →
          ∃ t, exec (.rowseqGo dom d q v) s = .next t ∧ t.done = .ok ∧ (t.rowSlot d q).mode = .idle ∧ (t.rowSlot d q).status = 0
            ∧ (bit v 28 = false → s.onlyChanges [.regs, .rowSlots, .done] t))
        ∧ (count ≠ 0 → list + 32 * count ≤ s.devEnd → (s.devRead list 32).2.2 = .ok →
          (∃ k, rowKind ((RowEntry.ofBytes (s.devRead list 32).2.1).op % 16) = some k ∧ k ≠ .nop
            ∧ (s.devRead list 32).1.rowCheck part (RowEntry.ofBytes (s.devRead list 32).2.1) k = (.ok, 0)) →
          (RowEntry.ofBytes (s.devRead list 32).2.1).count ≠ 0 →
          ∃ t : State, exec (.rowseqGo dom d q v) s = .next (t.afterLoss s) ∧ t.done = .ok
            ∧ t.rowSlot d q = { mode := .running, list := list, count := count, part := part, entry := (s.devRead list 32).2.1
                                sig := if bit v 28 then some (bits v 32 15) else none })))
    ∧ (∀ dom : Fin 4, s.passes dom (rowqCtrl d q) = true →
      ((s.rowSlot d q).mode = .running → (s.rowSlot d q).inflight = [] →
        ∃ t, exec (.rowseqAbort dom d q) s = .next t ∧ t.done = .ok ∧ s.onlyChanges [.rowSlots, .done] t
          ∧ (t.rowSlot d q).mode = .idle ∧ (t.rowSlot d q).status = statusCode .superseded)
      ∧ ((s.rowSlot d q).mode = .running → (s.rowSlot d q).inflight ≠ [] →
        ∃ t, exec (.rowseqAbort dom d q) s = .next t ∧ t.done = .ok ∧ (t.rowSlot d q).mode = .stopping
          ∧ (t.rowSlot d q).inflight = (s.rowSlot d q).inflight)
      ∧ ((s.rowSlot d q).mode ≠ .running → exec (.rowseqAbort dom d q) s = .next (s.ends .ok)))
    ∧ (let sl := s.rowSlot d q
       let e := RowEntry.ofBytes sl.entry
       let chan := s.rowChan sl.entry sl.row
       let at' (a : Nat) := s.rowLoc (e.rowAddr a sl.row)
       s.canonical = true → sl.mode = .running → sl.entry ≠ [] → s.enginesRun = true → sl.free = true → s.rowHeld chan < 8 →
         sl.row + 1 < e.count ∨ (e.count ≤ sl.row + 1 ∧ sl.ent + 1 = sl.count) →
       let moved (t : State) : Prop :=
         (t.rowSlot d q).inflight = sl.inflight ++ [⟨sl.ent, sl.row, chan, sl.entry⟩]
           ∧ (t.rowSlot d q).ent = (if e.count ≤ sl.row + 1 then sl.ent + 1 else sl.ent)
           ∧ (t.rowSlot d q).row = (if e.count ≤ sl.row + 1 then 0 else sl.row + 1)
           ∧ (t.rowSlot d q).entry = (if e.count ≤ sl.row + 1 then [] else sl.entry)
       let sound (a : StackLoc) : Prop := s.isStale a = true ∨ s.rowDirty a = false
       let data (a : StackLoc) := s.rdMem .stack a.off 1024
       (rowKind (e.op % 16) = some .init → ∀ c, at' e.dst = some c → c.off < 2 ^ 60 →
         ∃ t : State, exec (.rowInit d q) s = .next (t.afterLoss s) ∧ moved t ∧ t.isStale c = false
           ∧ t.rdMem .stack c.off 1024 = (List.replicate 128 (toLe 8 e.srcB)).flatten
           ∧ t.rdMem .stackChk (c.off / 8) 128 = zeros 128)
       ∧ (rowKind (e.op % 16) = some .copy → ∀ a c, at' e.srcA = some a → at' e.dst = some c →
           c.off < 2 ^ 60 → sound a → s.isStale a = false ∨ (s.makeStale c).isSome = true →
         ∃ t : State, exec (.rowCopy d q) s = .next (t.afterLoss s) ∧ moved t ∧ t.isStale c = s.isStale a ∧ t.rdMem .stack c.off 1024 = data a)
       ∧ (rowKind (e.op % 16) = some .not → ∀ a c, at' e.srcA = some a → at' e.dst = some c →
           c.off < 2 ^ 60 → sound a → (s.makeStale c).isSome = true →
         ∃ t : State, exec (.rowNot d q) s = .next (t.afterLoss s) ∧ moved t ∧ t.isStale c = true
           ∧ t.rdMem .stack c.off 1024 = (data a).map (~~~ ·))
       ∧ (rowKind (e.op % 16) = some .and → ∀ a b c, at' e.srcA = some a → at' e.srcB = some b →
           at' e.dst = some c → c.off < 2 ^ 60 → sound a → sound b → (s.makeStale c).isSome = true →
         ∃ t : State, exec (.rowAnd d q) s = .next (t.afterLoss s) ∧ moved t ∧ t.isStale c = true
           ∧ t.rdMem .stack c.off 1024 = List.zipWith (· &&& ·) (data a) (data b))
       ∧ (rowKind (e.op % 16) = some .or → ∀ a b c, at' e.srcA = some a → at' e.srcB = some b →
           at' e.dst = some c → c.off < 2 ^ 60 → sound a → sound b → (s.makeStale c).isSome = true →
         ∃ t : State, exec (.rowOr d q) s = .next (t.afterLoss s) ∧ moved t ∧ t.isStale c = true
           ∧ t.rdMem .stack c.off 1024 = List.zipWith (· ||| ·) (data a) (data b))
       ∧ (rowKind (e.op % 16) = some .xor → ∀ a b c, at' e.srcA = some a → at' e.srcB = some b →
           at' e.dst = some c → c.off < 2 ^ 60 → sound a → sound b →
           (s.isStale a = false ∧ s.isStale b = false) ∨ (s.makeStale c).isSome = true →
         ∃ t : State, exec (.rowXor d q) s = .next (t.afterLoss s) ∧ moved t ∧ t.isStale c = (s.isStale a || s.isStale b)
           ∧ t.rdMem .stack c.off 1024 = List.zipWith (· ^^^ ·) (data a) (data b))
       ∧ (rowKind (e.op % 16) = some .reseal → ∀ c, at' e.dst = some c → c.off < 2 ^ 60 →
         ∃ t : State, exec (.reseal d q) s = .next (t.afterLoss s) ∧ moved t ∧ t.isStale c = false ∧ t.rdMem .stack c.off 1024 = data c
           ∧ (s.isStale c = true → t.rdMem .stackChk (c.off / 8) 128 = zeros 128)))
    ∧ (∀ o, (s.rowSlot d q).inflight = [o] →
      ((s.rowSlot d q).mode = .running → (s.rowSlot d q).failing = none → (s.rowSlot d q).count ≤ (s.rowSlot d q).ent →
        ∃ t : State, exec (.rowOpComplete d q) s = .next (t.afterLoss s) ∧ (t.rowSlot d q).mode = .idle ∧ (t.rowSlot d q).status = 0
          ∧ (t.rowSlot d q).inflight = [] ∧ (t.rowSlot d q).doneEnts = (s.rowSlot d q).count
          ∧ (∀ i c, (s.rowSlot d q).sig = some i → s.absCtr (s.rowSlot d q).part i = some c → t.ctr c = min (s.ctr c + 1) 0xFFFFFFFF)
          ∧ ((s.rowSlot d q).sig = none → t.ctrs = s.ctrs))
      ∧ (∀ st n, (s.rowSlot d q).mode = .stopping → (s.rowSlot d q).failing = some (st, n) →
        ∃ t : State, exec (.rowOpComplete d q) s = .next (t.afterLoss s) ∧ (t.rowSlot d q).mode = .idle ∧ (t.rowSlot d q).status = statusCode st
          ∧ (t.rowSlot d q).inflight = [] ∧ t.ctrs = s.ctrs ∧ (st ≠ .superseded → t.flagged Pg.row 0 = true)))

/-- BULK_READ_DONE, BULK_SCRUB_READ (R287), MR4_POLL, BULK_TRAINING_LOST (R289, R290). -/
def Obligations.BulkTier : Prop :=
  ∀ (s : State),
    (∀ (addr : Nat) (flips : List (Nat × Byte)) (wrong : Option Nat), wfFlips flips = true →
      (s.boot.memStop = true → exec (.bulkReadDone addr ⟨flips, wrong⟩) s = .next (s.ends .fault))
      ∧ (s.boot.memStop = false → (∀ b, s.locate (addr / 64 * 64) ≠ .bulk b) ∨ s.bulk.mode ≠ .ready →
        exec (.bulkReadDone addr ⟨flips, wrong⟩) s = .next s)
      ∧ (∀ b, s.canonical = true → s.boot.memStop = false → s.locate (addr / 64 * 64) = .bulk b → b < 2 ^ 50 → s.bulk.mode = .ready →
        let src := match wrong with | some x => x / 64 * 64 | none => b
        let u := s.flipBulk src flips
        let d := u.rdMem .bulk (bulkData src) 64
        let e := u.rdMem .bulkChk (bulkCheck src) 8
        let e := if src = b then e else xorBytes e (xorBytes (bulkFold src) (bulkFold b))
        let n := s.bulk.ueRun.get 0 (bulkChannel b) + 1
        (rsDecode 2 e = some [] →
          ∃ t : State, exec (.bulkReadDone addr ⟨flips, wrong⟩) s = .next (t.afterLoss s) ∧ t.done = .ok ∧ t.mem = u.mem
            ∧ t.bulk.ueRun.get 0 (bulkChannel b) = 0)
        ∧ (∀ x xs, rsDecode 2 e = some (x :: xs) →
          ∃ t : State, exec (.bulkReadDone addr ⟨flips, wrong⟩) s = .next (t.afterLoss s) ∧ t.done = .ok ∧ t.flagged Pg.bulk 6 = true
            ∧ t.rdMem .bulk (bulkData b) 64 = rsFix d (x :: xs) ∧ t.rdMem .bulkChk (bulkCheck b) 8 = zeros 8)
        ∧ (rsDecode 2 e = none → n < 8 →
          ∃ t : State, exec (.bulkReadDone addr ⟨flips, wrong⟩) s = .next (t.afterLoss s) ∧ t.done = .poison ∧ t.mem = u.mem
            ∧ t.flagged Pg.bulk 0 = true ∧ t.bulk.ueRun.get 0 (bulkChannel b) = n ∧ t.bulk.mode = .ready)
        ∧ (rsDecode 2 e = none → 8 ≤ n →
          ∃ t : State, exec (.bulkReadDone addr ⟨flips, wrong⟩) s = .next (t.afterLoss s) ∧ t.done = .poison ∧ t.bulk.mode = .failed
            ∧ t.bulk.failChan = bulkChannel b ∧ t.bulk.failCause = 4 ∧ t.flagged Pg.bulk 2 = true)))
    ∧ (s.boot.memStop = true ∨ s.bulk.mode ≠ .ready → exec .bulkScrubRead s = .next s)
    ∧ (s.boot.memStop = false → s.bulk.mode = .ready →
      let total := 32768 * s.bulkUnits
      let p := scrubHours (s.fld (Pg.bulk + 0x128) 0 5) * 3600 * 4000000000 / total
      let b := s.bulk.scrub * 64
      let e := s.rdMem .bulkChk (bulkCheck b) 8
      ∃ t : State, exec .bulkScrubRead s = .next (t.afterLoss s) ∧ t.clk = max s.clk (s.timers.get 0 2 + p)
        ∧ t.bulk.scrub = (s.bulk.scrub + 1) % total
        ∧ (rsDecode 2 e = some [] → s.onlyChanges [.clk, .time, .timers, .bulk] t ∧ t.bulk.ueRun.get 0 (bulkChannel b) = 0)
        ∧ (∀ x xs, rsDecode 2 e = some (x :: xs) → s.canonical = true → b < 2 ^ 50 →
          t.rdMem .bulk (bulkData b) 64 = rsFix (s.rdMem .bulk (bulkData b) 64) (x :: xs)
            ∧ t.rdMem .bulkChk (bulkCheck b) 8 = zeros 8 ∧ t.flagged Pg.bulk 6 = true)
        ∧ (rsDecode 2 e = none → t.mem = s.mem ∧ t.flagged Pg.bulk 1 = true
          ∧ t.bulk.ueRun.get 0 (bulkChannel b) = s.bulk.ueRun.get 0 (bulkChannel b) + 1
          ∧ (8 ≤ s.bulk.ueRun.get 0 (bulkChannel b) + 1 → t.bulk.mode = .failed)))
    ∧ (∀ (n : Fin 16),
      (∀ r, s.bulk.mode ≠ .ready → exec (.mr4Poll n r) s = .next s)
      ∧ (∀ (rate : Fin 8), s.bulk.mode = .ready →
        ∃ t : State, exec (.mr4Poll n (some (rate, false))) s = .next (t.afterLoss s)
          ∧ t.clk = max s.clk (s.timers.get 0 (0x30000 + n.val) + 16 * usTicks)
          ∧ t.bulk.rates.get 0 n.val = rate.val ∧ t.bulk.missed.get 0 n.val = 0 ∧ t.bulk.mode = .ready
          ∧ (s.bulk.rates.get 0 n.val < rate.val → t.flagged Pg.bulk 7 = true))
      ∧ (∀ (rate : Fin 8), s.bulk.mode = .ready →
        ∃ t : State, exec (.mr4Poll n (some (rate, true))) s = .next (t.afterLoss s) ∧ t.bulk.mode = .failed ∧ t.bulk.failCause = 2
          ∧ t.bulk.failChan = n.val ∧ t.flagged Pg.bulk 2 = true)
      ∧ (s.bulk.mode = .ready → s.bulk.missed.get 0 n.val + 1 < 8 →
        ∃ t : State, exec (.mr4Poll n none) s = .next (t.afterLoss s) ∧ s.onlyChanges [.clk, .time, .timers, .bulk] t
          ∧ t.bulk = { s.bulk with missed := s.bulk.missed.put n.val (s.bulk.missed.get 0 n.val + 1) })
      ∧ (s.bulk.mode = .ready → 8 ≤ s.bulk.missed.get 0 n.val + 1 →
        ∃ t : State, exec (.mr4Poll n none) s = .next (t.afterLoss s) ∧ t.bulk.mode = .failed ∧ t.bulk.failCause = 3
          ∧ t.bulk.failChan = n.val))
    ∧ (∀ ch : Fin 128,
      (s.bulk.mode ≠ .ready → exec (.bulkTrainingLost ch) s = .next s)
      ∧ (s.bulk.mode = .ready →
        ∃ t : State, exec (.bulkTrainingLost ch) s = .next (t.afterLoss s) ∧ t.bulk.mode = .failed ∧ t.bulk.failCause = 5
          ∧ t.bulk.failChan = ch.val ∧ t.flagged Pg.bulk 2 = true ∧ t.bulk.swaps = []
          ∧ ∀ a b, t.boot.memStop = false → t.locate a = .bulk b → t.readSector a = (t, zeros 64, .poison)))

/-- SUBMIT (R310), CANCEL (R311), RESUME (R315), REQUEST_RELEASE (R312), PFX_CREATE, PFX_DROP (R331), CMD_NOP (R309). -/
def Obligations.RingCommands : Prop :=
  ∀ (s : State) (d : Fin 4) (cmd : List Byte), wfCommand cmd = true →
    let r := cmdReq cmd
    let e := s.req r
    let c := s.counted d
    (∀ p op i, [(1, Instr.submit d cmd), (2, Instr.cancel d cmd), (3, Instr.resume d cmd), (4, Instr.requestRelease d cmd)
          , (5, Instr.pfxCreate d cmd), (6, Instr.pfxDrop d cmd), (7, Instr.cmdNop d cmd)].contains (op, i) = true →
      (field cmd 0 1 ≠ op → exec i s = .next s)
      ∧ (field cmd 0 1 = op → s.partOfReq r = none ∨ (s.partOfReq r = some p ∧ s.ownerOf p ≠ d) →
          exec i s = .next (c.answered d none cmd .access))
      ∧ (field cmd 0 1 = op → op ≠ 1 → s.partOfReq r = some p → s.ownerOf p = d →
          nbits (field cmd 0 8) 32 16 ≠ e.incarn → exec i s = .next (c.answered d (some p) cmd .access)))
    ∧ (∀ p, s.names d p 1 cmd →
      let n : ReqEntry := { params := (cmd.drop 48).take 80 }
      (e.mode ≠ .free ∨ s.closedPart p = true → exec (.submit d cmd) s = .next (c.answered d (some p) cmd .access))
      ∧ (e.mode = .free → s.closedPart p = false → c.submitCheck p n ≠ .ok →
          exec (.submit d cmd) s = .next (c.answered d (some p) cmd (c.submitCheck p n)))
      ∧ (e.mode = .free → s.closedPart p = false → c.submitCheck p n = .ok →
        ∃ t : State, exec (.submit d cmd) s = .next (t.afterLoss s) ∧ t.done = .ok ∧ t.submitted = s.submitted + 1
          ∧ (∀ q, q ≠ r → t.req q = s.req q)
          ∧ s.onlyChanges ([Kind.mem, .tolvys, .bulk, .links, .reqs, .svs, .submitted, .commands, .done] ++ Kind.events) t
          ∧ (n.pfxh = 0xFFFF → t.svs = s.svs
            ∧ t.req r = { n with mode := .queued, incarn := (e.incarn + 1) % 65536, ntok := n.plen, order := s.submitted + 1 })))
    ∧ (∀ p, s.names d p 2 cmd →
      (e.mode = .free ∨ (e.mode = .retained ∧ e.huskPend = true) →
          exec (.cancel d cmd) s = .next (c.answered d (some p) cmd .access))
      ∧ (e.mode = .retained → e.huskPend = false →
        ∃ t : State, exec (.cancel d cmd) s = .next (t.afterLoss s) ∧ t.done = .ok ∧ (t.req r).mode = .free ∧ (t.req r).status = 0
          ∧ (t.req r).pages = [] ∧ ∀ q, q ≠ r → t.req q = s.req q)
      ∧ (e.mode = .done ∨ e.mode = .failed → exec (.cancel d cmd) s = .next (c.answered d (some p) cmd .ok))
      ∧ (e.mode ≠ .free → e.mode ≠ .done → e.mode ≠ .failed → e.mode ≠ .retained → s.inBatch p r = true →
          exec (.cancel d cmd) s = .next ((c.modReq r fun x => { x with cancel := true }).answered d (some p) cmd .ok))
      ∧ (e.mode ≠ .free → e.mode ≠ .done → e.mode ≠ .failed → e.mode ≠ .retained → s.inBatch p r = false →
        ∃ t : State, exec (.cancel d cmd) s = .next (t.afterLoss s) ∧ t.done = .ok ∧ (t.req r).mode = .done ∧ (t.req r).pages = []
          ∧ (t.req r).status = statusCode .superseded ∧ (t.req r).incarn = e.incarn ∧ (∀ q, q ≠ r → t.req q = s.req q)
          ∧ ((s.sv p).owed = [] → (s.sv p).buf.length < bufRecords →
              (t.sv p).buf = (s.sv p).buf ++ [s.tokenRecord r 0xFFFFFFFF e.ntok 12 .superseded 0 0 0 0 0])))
    ∧ (∀ p, s.names d p 4 cmd →
      (e.mode = .retained → e.huskPend = false →
        ∃ t : State, exec (.requestRelease d cmd) s = .next (t.afterLoss s) ∧ t.done = .ok ∧ (t.req r).mode = .free ∧ (t.req r).status = 0
          ∧ (t.req r).pages = [] ∧ (t.req r).husk = none ∧ (t.req r).incarn = e.incarn ∧ ∀ q, q ≠ r → t.req q = s.req q)
      ∧ (e.mode = .failed →
        ∃ t : State, exec (.requestRelease d cmd) s = .next (t.afterLoss s) ∧ t.done = .ok ∧ (t.req r).mode = .free ∧ (t.req r).status = e.status
          ∧ ∀ q, q ≠ r → t.req q = s.req q)
      ∧ (e.mode ≠ .failed → e.mode ≠ .retained ∨ e.huskPend = true →
          exec (.requestRelease d cmd) s = .next (c.answered d (some p) cmd .access)))
    ∧ (∀ p, s.names d p 3 cmd →
      let a := field cmd 8 4
      let newp := field cmd 12 1 % 2 = 1
      let new := (cmd.drop 48).take 80
      let n : ReqEntry := if newp then { e with params := new.take 8 ++ (e.params.drop 8).take 4 ++ new.drop 12 } else e
      (e.mode ≠ .retained ∨ e.huskPend = true ∨ s.closedPart p = true →
          exec (.resume d cmd) s = .next (c.answered d (some p) cmd .access))
      ∧ (e.mode = .retained → e.huskPend = false → s.closedPart p = false → e.expiry ≤ s.ct →
          exec (.resume d cmd) s = .next (c.answered d (some p) cmd .expired))
      ∧ (e.mode = .retained → e.huskPend = false → s.closedPart p = false → s.ct < e.expiry →
        (newp → sameHome e n = false → exec (.resume d cmd) s = .next (c.answered d (some p) cmd .access))
        ∧ (newp → sameHome e n = true → c.resumeCheck p n ≠ .ok →
          exec (.resume d cmd) s = .next (c.answered d (some p) cmd (c.resumeCheck p n)))
        ∧ ((newp → sameHome e n = true ∧ c.resumeCheck p n = .ok) → a = 0 ∨ n.maxlen < e.ntok + a + 1 →
          exec (.resume d cmd) s = .next (c.answered d (some p) cmd .length))
        ∧ ((newp → sameHome e n = true ∧ c.resumeCheck p n = .ok) → 0 < a → e.ntok + a + 1 ≤ n.maxlen →
          ∃ t : State, exec (.resume d cmd) s = .next (t.afterLoss s) ∧ t.done = .ok ∧ (∀ q, q ≠ r → t.req q = s.req q)
            ∧ (e.husk = none → t.req r = { n with
                mode := .queued, ntok := e.ntok + a, emitted := false, status := 0, counts := (t.req r).counts }))))
    ∧ (∀ p, s.names d p 5 cmd →
      let h := field cmd 8 2
      let n := field cmd 12 4
      let none' : PfxHandle := { pages := [], chain := [] }
      (e.mode = .prefill ∨ e.mode = .decode ∨ e.mode = .retained → n ≠ 0 → h < s.svFld p 0x58 32 13 →
          ((s.sv p).handles.get none' h).pages = [] → n ≤ e.len / s.svP p → n ≤ e.pages.length →
          (e.pages.take n).any inBulkPool = false →
        ∃ t : State, exec (.pfxCreate d cmd) s = .next (t.afterLoss s) ∧ t.done = .ok ∧ t.reqs = s.reqs
          ∧ (t.sv p).handles.get none' h = { pages := e.pages.take n, chain := c.chainVal p r n }
          ∧ (∀ x, (t.sv p).held.get 0 x = (s.sv p).held.get 0 x + (e.pages.take n).count x)
          ∧ s.onlyChanges (.svs :: .commands :: .done :: Kind.events) t)
      ∧ ((e.mode ≠ .prefill ∧ e.mode ≠ .decode ∧ e.mode ≠ .retained) ∨ n = 0 ∨ s.svFld p 0x58 32 13 ≤ h ∨ ((s.sv p).handles.get none' h).pages ≠ [] ∨ e.len / s.svP p < n
          ∨ e.pages.length < n ∨ (e.pages.take n).any inBulkPool = true →
          exec (.pfxCreate d cmd) s = .next (c.answered d (some p) cmd .access)))
    ∧ (∀ p, s.names d p 6 cmd →
      let h := field cmd 8 2
      let none' : PfxHandle := { pages := [], chain := [] }
      let g := (s.sv p).handles.get none' h
      (g.pages = [] → exec (.pfxDrop d cmd) s = .next (c.answered d (some p) cmd .access))
      ∧ (g.pages ≠ [] → g.pages.any inBulkPool = false →
        ∃ t : State, exec (.pfxDrop d cmd) s = .next (t.afterLoss s) ∧ t.done = .ok ∧ (t.sv p).handles.get none' h = none'
          ∧ (∀ x, (t.sv p).held.get 0 x = (s.sv p).held.get 0 x - g.pages.count x)
          ∧ s.onlyChanges (.svs :: .commands :: .done :: Kind.events) t))
    ∧ (∀ p, s.names d p 7 cmd → exec (.cmdNop d cmd) s = .next (c.answered d (some p) cmd .ok))

/-- SQ_POLL_TIMER, SQ_ENABLE (R416), EVENT_RECORD_WRITE (R417, R423), TOKEN_RECORD_WRITE (R356, R419). -/
def Obligations.DomainRings : Prop :=
  ∀ (s : State),
    (∀ d : Fin 4,
      let u := s.periodic (sqTimer d) (2 * usTicks)
      (s.domRuns d = true ∨ bit (s.reg (sqCtrl d)) 0 = false → exec (.sqPollTimer d) s = .next s)
      ∧ (s.domRuns d = false → bit (s.reg (sqCtrl d)) 0 = true →
          bit (s.reg (sqCtrl d)) 8 = true ∨ s.enginesRun = false ∨ s.wedged d = true → exec (.sqPollTimer d) s = .next u)
      ∧ (s.domRuns d = false → bit (s.reg (sqCtrl d)) 0 = true → bit (s.reg (sqCtrl d)) 8 = false → s.enginesRun = true →
          s.wedged d = false →
        ∃ t : State, exec (.sqPollTimer d) s = .next (t.afterLoss s) ∧ t.clk = max s.clk (s.timers.get 0 (sqTimer d) + 2 * usTicks) ∧ u.polls d t))
    ∧ (∀ (d : Fin 4) (v : Word), s.passes d (sqCtrl d) = true →
      let n := bits v 1 4
      let base := s.fld (sqBase d) 0 52
      (n < 4 ∨ 14 < n ∨ (bit (s.reg (sqCtrl d)) 0 = true ∧ bits (s.reg (sqCtrl d)) 1 4 ≠ n) →
          exec (.sqEnable d d v) s = .next (s.ends .access))
      ∧ (base < 8 ∨ s.ownExclusive d (base - 8) (8 + 128 * 2 ^ n) = false → exec (.sqEnable d d v) s = .next (s.ends .access))
      ∧ (4 ≤ n → n ≤ 14 → (bit (s.reg (sqCtrl d)) 0 = true → bits (s.reg (sqCtrl d)) 1 4 = n) → 8 ≤ base →
          s.ownExclusive d (base - 8) (8 + 128 * 2 ^ n) = true → s.enginesRun = true → s.wedged d = false →
        ∃ t : State, exec (.sqEnable d d v) s = .next (t.afterLoss s) ∧ t.done = .ok ∧ t.clk = s.clk ∧ bit (t.reg (sqCtrl d)) 0 = true
          ∧ bits (t.reg (sqCtrl d)) 1 4 = n ∧ (s.setReg (sqCtrl d) (setBits v 0 1 1 &&& 0x1F#64)).polls d t))
    ∧ (∀ (dom d : Fin 4) (v : Word), s.passes dom (sqCtrl d) = true → dom ≠ d →
        exec (.sqEnable dom d v) s = .next (s.ends .access))
    ∧ (∀ d : Fin 4,
      (s.evq.get [] d = [] ∨ s.eqRoom d = false → exec (.eventRecordWrite d) s = .next s)
      ∧ (∀ e es, s.evq.get [] d = e :: es → s.eqRoom d = true →
        let prod := s.fld (Pg.dq d + 0x130) 0 32
        let base := s.fld (Pg.dq d + 0x118) 0 52
        let n := s.fld (Pg.dq d + 0x120) 1 5
        (∀ i, s.portFor d = some i → s.portOpen i 2 →
          ∃ t, exec (.eventRecordWrite d) s = .next t ∧ t.evq.get [] d = es
            ∧ t.fld (Pg.dq d + 0x130) 0 32 = (prod + 1) % 2 ^ 32
            ∧ t.out = s.out ++ [.nodeWr d (base + 32 * (prod % 2 ^ n)) (e.bytes s.boot.slotId)
                                , .nodeWr d (base - 8) (toLe 8 ((prod + 1) % 2 ^ 32))]
            ∧ s.onlyChanges [.evq, .regs, .ports, .out] t)
        ∧ (s.portFor d = none → s.relayOf d = none →
          ∃ t, exec (.eventRecordWrite d) s = .next t ∧ (∃ l, t.evq.get [] d = e :: es ++ l) ∧ t.flagged (Pg.dq d) 3 = true
            ∧ s.onlyChanges Kind.events t ∧ s.regsKept [] t)))
    ∧ (∀ (p : Fin 16),
      let ring := s.reg (Pg.sv + 0x218 + 0x40 * p)
      let v := s.sv p
      let n := bits ring 52 5
      let room := 2 ^ n ≤ (2 ^ 32 + v.tprod - s.fld (Pg.sv + 0x220 + 0x40 * p) 0 32) % 2 ^ 32
      (v.buf = [] ∨ bit ring 63 = false ∨ room → exec (.tokenRecordWrite p) s = .next ((s.quiesceGo p).afterLoss s))
      ∧ (∀ b bs, v.buf = b :: bs → bit ring 63 = true → ¬room → v.commit = none → v.owed = [] → b.length = 32 →
        (∀ i, s.portFor (s.ownerOf p) = some i → s.portOpen i 2 →
          ∃ t : State, exec (.tokenRecordWrite p) s = .next ((t.quiesceGo p).afterLoss s) ∧ (t.sv p).buf = bs
            ∧ (t.sv p).tprod = (v.tprod + 1) % 2 ^ 32
            ∧ t.out = s.out ++ [.nodeWr (s.ownerOf p) (bits ring 0 52 + 32 * (v.tprod % 2 ^ n)) b
                                , .nodeWr (s.ownerOf p) (bits ring 0 52 - 8) (toLe 8 ((v.tprod + 1) % 2 ^ 32))]
            ∧ (field b 12 1 / 4 % 2 = 1 → (s.req (field b 0 2)).mode = .done →
                (s.req (field b 0 2)).incarn = field b 2 2 → (t.req (field b 0 2)).mode = .free)
            ∧ (field b 12 1 / 4 % 2 = 0 ∨ (s.req (field b 0 2)).mode ≠ .done ∨ (s.req (field b 0 2)).incarn ≠ field b 2 2 →
                t.reqs = s.reqs))
        ∧ (s.portFor (s.ownerOf p) = none → s.relayOf (s.ownerOf p) = none →
          ∃ t : State, exec (.tokenRecordWrite p) s = .next ((t.quiesceGo p).afterLoss s) ∧ t.svs = s.svs
            ∧ t.flagged (Pg.dq (s.ownerOf p)) 3 = true ∧ s.onlyChanges Kind.events t)))

/-- STAGE0 (R314, R448), PEPPER_MERGE (R341, R350), VERDICT_WRITE (R450), COMMIT (R329, R452). -/
def Obligations.ServingSteps : Prop :=
  ∀ (s : State) (p : Fin 16),
    let v := s.sv p
    let counts (i : Nat) (t : State) := ∀ c, s.absCtr p i = some c → t.ctr c = min (s.ctr c + 1) 0xFFFFFFFF
    (v.stage0 = false ∨ s.slotEnabled p = false ∨ (s.slot p).mode = .halted ∨ (s.part p).mode ≠ .active →
        exec (.stage0 p) s = .next s)
    ∧ (v.stage0 = true → s.slotEnabled p = true → (s.slot p).mode ≠ .halted → (s.part p).mode = .active →
      let b := Pg.sv + 0x200 + 0x40 * p
      ((s.part p).replay = false →
        ∃ (t : State) (w : StepBatch), exec (.stage0 p) s = .next (t.afterLoss s) ∧ (t.sv p).stage0 = false ∧ (t.sv p).batch = some w ∧ w.step = s.formStep p
          ∧ (t.part p).run = 0 ∧ (t.sv p).pepCfg = s.reg b ∧ (t.sv p).pepRes = s.reg (b + 8) ∧ (t.pep p).results = []
          ∧ (t.part p).fresh = []
          ∧ counts (s.svFld p 0x50 0 15) t
          ∧ (s.allFree p = true → (∀ r, (s.req r).huskPend = false) → v.jobsDone = [] → s.bulk.copies = [] →
              w.items = [] ∧ w.jobs = [] ∧ t.reqs = s.reqs)
          ∧ s.onlyChanges ([Kind.mem, .ctrs, .parts, .tolvys, .bulk, .tiles, .links, .reqs, .svs, .seqBad, .peps] ++ Kind.events) t)
      ∧ (∀ w, (s.part p).replay = true → s.replayRefused p = false → v.batch = some w →
        ∃ t : State, exec (.stage0 p) s = .next (t.afterLoss s) ∧ t.part p = { s.part p with replay := false, fresh := [] }
          ∧ (t.sv p).stage0 = false ∧ (t.sv p).batch = some w ∧ (t.sv p).pepCfg = s.reg b ∧ (t.sv p).pepRes = s.reg (b + 8)
          ∧ counts (s.svFld p 0x50 0 15) t ∧ t.reqs = s.reqs))
    ∧ (v.batch = none ∨ (s.pep p).merged = true ∨ v.stage9 = true ∨ (s.slot p).busy = false ∨ (s.pep p).faulty ≠ [] ∨ s.pepComplete p = false →
        exec (.pepperMerge p) s = .next s)
    ∧ (∀ w, v.batch = some w → (s.pep p).merged = false → v.stage9 = false → (s.slot p).busy = true → (s.pep p).faulty = [] → s.pepComplete p = true →
      ∃ t : State, exec (.pepperMerge p) s = .next (t.afterLoss s) ∧ (t.pep p).merged = true ∧ (t.pep p).results = s.pepResults p w
        ∧ counts (bits v.pepCfg 20 15) t ∧ t.reqs = s.reqs ∧ t.svs = s.svs
        ∧ (∀ it x xs, w.items = [it] → it.sample = true → it.chunk = true → sampGreedy it.samp = true → sampPen it.samp = false →
            sampMinNew it.samp ≤ sampGen it.samp → s.rowCands p 0 = x :: xs →
            (t.pep p).results.map (fun q => q.toks) = [[x.2]]))
    ∧ (s.absCtr p (s.fld (igBlk p 0x10) 0 15) = none → exec (.verdictWrite p) s = .next s)
    ∧ (∀ c, s.absCtr p (s.fld (igBlk p 0x10) 0 15) = some c → (s.settleWaits c).ctr c = 0 ∨ (s.settleWaits c).enginesRun = false →
        exec (.verdictWrite p) s = .next (s.settleWaits c))
    ∧ (∀ c, s.absCtr p (s.fld (igBlk p 0x10) 0 15) = some c → 0 < (s.settleWaits c).ctr c → (s.settleWaits c).enginesRun = true →
      let taken := (s.settleWaits c).takeCtr c 1
      let u := taken.csCloseAll (taken.slicesOf p ++ taken.twinsOf p)
      let g := u.ig p
      let differ := match g.prev with
        | some t => if u.igMode p = 1 ∧ (u.part p).run ≠ 0 then
            (List.range 17).filter fun i => g.dig.get 0 i != t.get 0 i else []
        | none => []
      ∃ t, exec (.verdictWrite p) s = .next t ∧ (t.ig p).last = g.dig ∧ (t.ig p).differ = differ
        ∧ (u.absCtr p (u.fld (igBlk p 0x10) 16 15) ≠ some c → t.ctr c = u.ctr c)
        ∧ (∀ x, u.absCtr p (u.fld (igBlk p 0x10) 16 15) = some x → t.ctr x = min (u.ctr x + 1) 0xFFFFFFFF)
        ∧ ∀ a, u.eaPart p (u.fld (igBlk p 0x18) 0 64) = some a → a.fits 2048 = true → a.slice < 16 → u.pairedTwin a.slice = none →
            u.eaWritable a 2048 = true → u.canonical = true →
            t.eaRead a 2048 = toLe 4 (min 0x7FFFFFFF g.suspects) ++ toLe 4 (b2n !differ.isEmpty) ++ zeros 2040)
    ∧ ((v.stage9 = false → exec (.commit p) s = .next ((s.quiesceGo p).afterLoss s))
      ∧ (∀ w, v.stage9 = true → v.commit = none → v.batch = some w →
        let x := s.verdict p
        let run := (s.part p).run
        (gateCommits (s.igMode p == 1) run x.1 x.2 = false →
          (run + 1 < s.runMax p →
            ∃ t : State, exec (.commit p) s = .next ((t.quiesceGo p).afterLoss s) ∧ t.part p = { s.part p with run := run + 1, replay := true }
              ∧ (t.sv p).stage9 = false ∧ (t.sv p).stage0 = true ∧ (t.sv p).batch = some w ∧ t.flagged Pg.ig 1 = true
              ∧ t.reqs = s.reqs)
          ∧ (s.runMax p ≤ run + 1 → (s.part p).mode = .active →
            ∃ t : State, exec (.commit p) s = .next ((t.quiesceGo p).afterLoss s) ∧ (t.part p).mode = .quiescing ∧ (t.part p).cause = 11 ∧ (t.sv p).batch = none
              ∧ t.flagged Pg.ig 9 = true))
        ∧ (gateCommits (s.igMode p == 1) run x.1 x.2 = true → v.owed = [] →
          (w.items = [] →
            ∃ t : State, exec (.commit p) s = .next ((t.quiesceGo p).afterLoss s) ∧ (t.sv p).stage9 = false ∧ (t.sv p).stage0 = true ∧ (t.sv p).batch = none
              ∧ (t.part p).run = 0 ∧ (t.part p).replay = false ∧ counts (s.svFld p 0x50 16 15) t ∧ t.reqs = s.reqs)
          ∧ (∀ it, w.items = [it] → w.jobs = [] →
            let r := it.req
            let e := s.req r
            let res := ((s.pep p).results[0]?).getD {}
            (e.mode = .decode → e.cancel = false → e.hoff = 0 → s.itemFail p 0 it w res = some .poison →
              ∃ t : State, exec (.commit p) s = .next ((t.quiesceGo p).afterLoss s) ∧ (t.req r).mode = .parked ∧ (t.req r).recomp = true ∧ (t.req r).pages = []
                ∧ (t.req r).len = 0 ∧ (t.req r).ntok = e.ntok ∧ (t.sv p).buf = v.buf)
            ∧ (∀ st, e.mode = .decode → e.cancel = false → s.itemFail p 0 it w res = some st → st ≠ .poison →
              ∃ t : State, exec (.commit p) s = .next ((t.quiesceGo p).afterLoss s) ∧ (t.req r).mode = .failed ∧ (t.req r).status = statusCode st
                ∧ (t.req r).pages = [])
            ∧ (∀ k, e.mode = .decode → e.cancel = false → it.chunk = false → it.sample = true → e.stops = none →
                res.toks = [k] → e.ntok + 1 < e.maxlen → e.passed s.ct = false → e.restore = false →
                s.itemFail p 0 it w res = none → v.buf.length < bufRecords →
                (s.devWrite (e.hist + 4 * e.ntok) (toLe 4 k)).2 = .ok →
              ∃ (t : State) (rec : List Byte), exec (.commit p) s = .next ((t.quiesceGo p).afterLoss s) ∧ (t.req r).mode = .decode ∧ (t.req r).ntok = e.ntok + 1
                ∧ (t.req r).len = it.first + 1 ∧ (t.req r).emitted = true ∧ (t.req r).lastCt = s.ct
                ∧ (t.sv p).buf = v.buf ++ [rec] ∧ field rec 0 2 = r % 65536 ∧ field rec 2 2 = e.incarn % 65536
                ∧ field rec 4 4 = k % 2 ^ 32 ∧ field rec 8 4 = e.ntok % 2 ^ 32 ∧ field rec 13 1 = statusCode .ok
                ∧ field rec 24 8 = s.ct % 2 ^ 64 ∧ (t.sv p).stage9 = false ∧ (t.sv p).stage0 = true)))))

/-- PLACEMENT_EPOCH (R293), SWAP_PIECE_DONE (R295, R296), PIN_WRITE (R297). -/
def Obligations.BulkTierAndPlacement : Prop :=
  ∀ (s : State),
    (s.bulk.mode = .ready → bit (s.reg (Pg.bulk + 0x130)) 48 = false →
      ∃ t, exec .placementEpoch s = .next t ∧ s.onlyChanges [.clk, .time, .timers, .bulk] t
        ∧ t.clk = max s.clk (s.timers.get 0 3 + usTicks * max 1 (s.fld (Pg.bulk + 0x130) 0 16))
        ∧ s.bulk.swaps <+: t.bulk.swaps ∧ t.bulk.swaps.length ≤ s.bulk.swaps.length + s.fld (Pg.bulk + 0x130) 16 10
        ∧ ∀ u, t.placed u = { s.placed u with count := (s.placed u).count / 2 })
    ∧ (s.bulk.mode ≠ .ready ∨ bit (s.reg (Pg.bulk + 0x130)) 48 = true → exec .placementEpoch s = .next s)
    ∧ (s.bulk.swaps = [] → exec .swapPieceDone s = .next s)
    ∧ (∀ (w : Swap) (ws : List Swap), s.bulk.swaps = w :: ws →
      (s.boot.memStop = true ∨ s.rowNamed w.hot = true ∨ s.rowNamed w.cold = true → exec .swapPieceDone s = .next s)
      ∧ (s.boot.memStop = false → s.rowNamed w.hot = false → s.rowNamed w.cold = false → w.hot ≠ w.cold →
        let a := unitBytes * w.hot + pieceBytes * w.cursor
        let c := unitBytes * w.cold + pieceBytes * w.cursor
        let x := s.devRead a pieceBytes
        let y := x.1.devRead c pieceBytes
        let moved := ((y.1.setCursor (w.cursor + 1)).devPut a x.2.1).devPut c y.2.1
        (x.2.2 = .ok → y.2.2 = .ok → w.cursor < 31 →
          exec .swapPieceDone s = .next (moved.afterLoss s)
            ∧ moved.bulk.swaps.head? = some { w with cursor := w.cursor + 1 } ∧ moved.bulk.swaps.length = s.bulk.swaps.length)
        ∧ (x.2.2 = .ok → y.2.2 = .ok → w.cursor = 31 →
          ∃ t : State, exec .swapPieceDone s = .next (t.afterLoss s) ∧ t.mem = moved.mem ∧ t.bulk.swaps.length + 1 = s.bulk.swaps.length
            ∧ t.placed w.hot = { moved.placed w.hot with bulk := (moved.placed w.cold).bulk, frame := (moved.placed w.cold).frame }
            ∧ t.placed w.cold = { moved.placed w.cold with bulk := (moved.placed w.hot).bulk, frame := (moved.placed w.hot).frame }
            ∧ (∀ u, u ≠ w.hot → u ≠ w.cold → t.placed u = moved.placed u)
            ∧ t.reg (Pg.bulk + 0x138) = (moved.bump (Pg.bulk + 0x138) 1).reg (Pg.bulk + 0x138))
        ∧ (x.2.2 = .poison → w.cursor = 0 →
          ∃ t : State, exec .swapPieceDone s = .next (t.afterLoss s) ∧ t.bulk.swaps = y.1.bulk.swaps.drop 1 ∧ t.flagged Pg.bulk 3 = true
            ∧ t.placed w.hot = { y.1.placed w.hot with pin := 1 } ∧ (∀ u, u ≠ w.hot → t.placed u = y.1.placed u)
            ∧ t.reg (Pg.bulk + 0x140) = (y.1.bump (Pg.bulk + 0x140) 1).reg (Pg.bulk + 0x140))))
    ∧ (∀ (dom d : Fin 4) (v : Word), s.passes dom (Pg.bulk + 0x808 + 0x80 * d.val) = true →
      let u := s.fld (Pg.bulk + 0x800 + 0x80 * d.val) 0 21
      let mine := match s.unitPart u with | some p => s.ownerOf p == dom.val | none => false
      let pin := bits v 22 2
      let set (s : State) := (s.modPlaced u fun p => { p with pin := pin }).ends .ok
      let cold := s.coldUnit fun c => s.mayDemote c || s.unitPart c == s.unitPart u
      let hot := s.hotUnit fun h => s.mayPromote h || s.unitPart h == s.unitPart u
      (s.units ≤ u ∨ mine = false ∨ s.unitReserved u = true ∨ s.unitMoving u = true →
        exec (.pinWrite dom d v) s = .next (s.ends .access))
      ∧ (u < s.units → mine = true → s.unitReserved u = false → s.unitMoving u = false →
        (pin < 2 ∨ (pin = 2 ∧ (s.placed u).bulk = false) ∨ (pin = 3 ∧ (s.placed u).bulk = true) →
          exec (.pinWrite dom d v) s = .next (set s))
        ∧ (pin = 2 → (s.placed u).bulk = true →
          exec (.pinWrite dom d v) s = .next (match cold with | some c => set (s.queuePin u c) | none => s.ends .access))
        ∧ (pin = 3 → (s.placed u).bulk = false →
          exec (.pinWrite dom d v) s = .next (match hot with | some h => set (s.queuePin h u) | none => s.ends .access))))

/-- SPILL_COPY_DONE (R298, R299), RETENTION_SWEEP (R302). -/
def Obligations.SpillsAndRetention : Prop :=
  ∀ (s : State),
    (s.bulk.copies.all (fun c => c.finished) = true ∨ s.boot.memStop = true → exec .spillCopyDone s = .next s)
    ∧ (∀ (c : PageCopy), s.bulk.copies = [c] → c.finished = false → s.boot.memStop = false →
      let src := if c.back then s.bulkPage c.part c.src else s.stackPage c.part c.src
      let dst := if c.back then s.stackPage c.part c.dst else s.bulkPage c.part c.dst
      let x := s.devRead src (s.svFrame c.part)
      (x.2.2 = .ok →
        ∃ t : State, exec .spillCopyDone s = .next (t.afterLoss s) ∧ t.mem = (x.1.devPut dst x.2.1).mem
          ∧ t.bulk.copies = [{ c with finished := true, bad := false }])
      ∧ (x.2.2 ≠ .ok →
        ∃ t : State, exec .spillCopyDone s = .next (t.afterLoss s) ∧ t.mem = x.1.mem
          ∧ t.bulk.copies = [{ c with finished := true, bad := true }]))
    ∧ (∀ (r : Nat) (e : ReqEntry) (p : Nat), s.reqs.items = [(r, e)] → s.partOfReq r = some p →
      (e.mode = .retained → e.huskPend = false → e.expiry ≤ (s.periodic 5 (1000 * usTicks)).ct →
        ∃ t : State, exec .retentionSweep s = .next (t.afterLoss s) ∧ t.clk = max s.clk (s.timers.get 0 5 + 1000 * usTicks)
          ∧ (t.req r).mode = .free ∧ (t.req r).status = statusCode .expired ∧ (t.req r).pages = [])
      ∧ (e.mode ≠ .retained ∨ e.huskPend = true ∨ (s.periodic 5 (1000 * usTicks)).ct < e.expiry →
        exec .retentionSweep s = .next (s.periodic 5 (1000 * usTicks))))

/-- LINK_ENABLE, LINK_DISABLE, LINK_RETRAIN, LINK_TRAIN_DONE, TRAIN_FAIL, AUTO_RETRAIN (R381), LINK_DOWN (R379), FLIT_RECEIVE (R378). -/
def Obligations.LinkEffects : Prop :=
  ∀ (s : State) (l : Fin 96),
    let k := s.link l
    let key := Pg.lnk l + 0x100
    let others (t : State) := ∀ j, j ≠ l.val → t.link j = s.link j
    (∀ (dom : Fin 4) (v : Word), s.passes dom key = true →
      let on := bit (s.reg key) 0
      let ident := ctrlOut l .ident (s.identBody l)
      (on = false →
        (∃ t, exec (.linkEnable dom l v) s = .next t ∧ t.done = .ok ∧ t.link l = k.trains s.clk ∧ others t
          ∧ bit (t.reg key) 0 = true ∧ t.out = s.out ++ [ident] ∧ s.onlyChanges [.regs, .links, .out, .done] t)
        ∧ (∃ t, exec (.linkRetrain dom l v) s = .next t ∧ t.done = .ok ∧ t.link l = k.trains s.clk ∧ others t
          ∧ t.out = s.out ++ [ident])
        ∧ (∃ t, exec (.linkDisable dom l v) s = .next t ∧ t.done = .ok ∧ s.onlyChanges [.regs, .done] t))
      ∧ (on = true →
        (∃ t, exec (.linkEnable dom l v) s = .next t ∧ t.done = .ok ∧ s.onlyChanges [.regs, .done] t
          ∧ t.reg key = setBits (setBits v 0 1 1) 2 1 0 &&& 0x0000FFFFFFFF0003#64)
        ∧ (k.queue = [] →
          (∃ t, exec (.linkDisable dom l v) s = .next t ∧ t.done = .ok ∧ t.link l = k.left .off 0 s.clk ∧ others t
            ∧ bit (t.reg key) 0 = false ∧ s.onlyChanges [.regs, .links, .done] t)
          ∧ (∃ t, exec (.linkRetrain dom l v) s = .next t ∧ t.done = .ok ∧ t.link l = (k.left .training 0 s.clk).trains s.clk
            ∧ others t ∧ t.out = s.out ++ [ident] ∧ s.onlyChanges [.regs, .links, .out, .done] t))))
    ∧ (k.mode = .training →
      (k.peerValid = true → 16 ≤ k.pings →
        ∃ t, exec (.linkTrainDone l) s = .next t ∧ t.link l = { k with mode := .up, delay := k.rtt.getD 0 / 2, goodClk := s.clk }
          ∧ others t ∧ t.flagged (Pg.lnk l) 3 = true ∧ s.onlyChanges (.links :: Kind.events) t)
      ∧ (k.peerValid = false ∨ k.pings < 16 → exec (.linkTrainDone l) s = .next s)
      ∧ ∃ t, exec (.trainFail l) s = .next t ∧ t.link l = { k with mode := .failed, cause := 1 } ∧ others t
          ∧ t.clk = max s.clk (k.trainClk + usTicks * (max 1 (s.fld key 16 16) * 1000)) ∧ t.flagged (Pg.lnk l) 1 = true)
    ∧ (k.mode ≠ .training → exec (.linkTrainDone l) s = .next s ∧ exec (.trainFail l) s = .next s)
    ∧ (k.mode = .up → k.queue = [] →
      let limit := k.replay.any fun r => decide (8 ≤ r.2.2)
      ∃ t : State, exec (.linkDown l) s = .next (t.afterLoss s) ∧ t.clk = (if limit then s.clk else max s.clk (k.goodClk + 2 * usTicks))
        ∧ t.link l = k.left .down (if limit then 3 else 2) t.clk ∧ others t ∧ t.flagged (Pg.lnk l) 0 = true
        ∧ t.reg (Pg.lnk l + 0x148) = (s.bump (Pg.lnk l + 0x148) 1).reg (Pg.lnk l + 0x148)
        ∧ s.onlyChanges (.clk :: .time :: .links :: Kind.events) t)
    ∧ (k.mode ≠ .up → exec (.linkDown l) s = .next s)
    ∧ (k.mode = .down → bit (s.reg key) 0 = true → bit (s.reg key) 1 = true →
      ∃ t, exec (.autoRetrain l) s = .next t ∧ t.clk = max s.clk (k.downClk + 1000 * usTicks) ∧ t.link l = k.trains t.clk ∧ others t
        ∧ t.out = s.out ++ [ctrlOut l .ident (s.identBody l)] ∧ s.onlyChanges [.clk, .time, .links, .out] t)
    ∧ (k.mode ≠ .down ∨ bit (s.reg key) 0 = false ∨ bit (s.reg key) 1 = false → exec (.autoRetrain l) s = .next s)
    ∧ (∀ (f : List Byte) (decoded : Bool) (fixed : Nat), wfFlit f = true →
      (k.mode ≠ .up → exec (.flitReceive l f decoded fixed) s = .next s)
      ∧ (k.mode = .up → k.takes f decoded = false →
        ∃ t, exec (.flitReceive l f decoded fixed) s = .next t ∧ (t.link l).rxSeq = k.rxSeq ∧ (t.link l).naked = true
          ∧ (t.link l).credits = k.credits ∧ (t.link l).replay = k.replay ∧ others t
          ∧ t.out = s.out ++ (if k.naked then [] else [.nak false l k.rxSeq]))
      ∧ (k.mode = .up → k.takes f decoded = true → field f 1 1 % 2 = 0 → k.queue = [] →
        ∃ t, exec (.flitReceive l f decoded fixed) s = .next t ∧ (t.link l).rxSeq = (k.rxSeq + 1) % 4096
          ∧ (t.link l).naked = false ∧ (t.link l).goodClk = s.clk ∧ others t ∧ t.out = s.out
          ∧ (∀ i < 6, (t.link l).credits.getD i 0 = k.credits.getD i 0 + field f (2 + i) 1)
          ∧ ((k.replay.any fun r => r.1 == field f 250 2 % 4096) = false → (t.link l).replay = k.replay)))

/-- IDENT_RECEIVE (R380, R407), PING_RECEIVE, PONG_RECEIVE (R407). -/
def Obligations.LinkExchanges : Prop :=
  ∀ (s : State),
    (∀ (l : Fin 96) (f : List Byte), wfFrame f = true →
      let k := s.link l
      let cfg := s.reg (Pg.fab + 0x100)
      let slot := field f 2 1 % 64
      let link := field f 3 1
      let known : Link := { k with peerValid := true, peerSlot := slot, peerLink := link, peerEpoch := field f 4 4 }
      let stranger := !s.joined || (bit cfg 10 && s.expectedPeer l != some (slot, link))
      let ping := ctrlOut l .ping (toLe 8 s.ct ++ zeros 16)
      (k.mode ≠ .training → exec (.identReceive (.link l) f) s = .next s ∧ exec (.pongReceive (.link l) f) s = .next s)
      ∧ (k.mode = .training → frameSound f = false →
          exec (.identReceive (.link l) f) s = .next (s.modLink l fun k => { k with frameErrs := k.frameErrs + 1 }))
      ∧ (k.mode = .training → frameSound f = true → field f 0 2 = bits cfg 16 16 → stranger = false →
        ∃ t, exec (.identReceive (.link l) f) s = .next t ∧ t.link l = { known with pingCt := s.ct, ctrlFlits := k.ctrlFlits + 1 } ∧ t.out = s.out ++ [ping]
          ∧ s.onlyChanges [.links, .out] t)
      ∧ (k.mode = .training → frameSound f = true → field f 0 2 ≠ bits cfg 16 16 ∨ stranger = true →
        ∃ t, exec (.identReceive (.link l) f) s = .next t ∧ t.out = s.out ∧ t.flagged (Pg.lnk l) 2 = true
          ∧ t.link l = { known with mode := .miswired, cause := if field f 0 2 ≠ bits cfg 16 16 then 4 else 5 })
      ∧ (frameSound f = true → k.mode = .training ∨ k.mode = .up →
          exec (.pingReceive (.link l) f) s
            = .next ((s.modLink l fun k => { k with ctrlFlits := k.ctrlFlits + 1 }).emit (ctrlOut l .pong (toLe 8 s.ct ++ zeros 16))))
      ∧ (frameSound f = false ∨ (k.mode ≠ .training ∧ k.mode ≠ .up) → exec (.pingReceive (.link l) f) s = .next s)
      ∧ (k.mode = .training → frameSound f = true → k.pings < 16 →
        let r := s.ct - k.pingCt
        ∃ t, exec (.pongReceive (.link l) f) s = .next t ∧ (t.link l).pings = k.pings + 1
          ∧ (t.link l).rtt = some (match k.rtt with | some x => min x r | none => r)
          ∧ t.out = s.out ++ (if k.pings + 1 < 16 then [ping] else []) ∧ s.onlyChanges [.links, .out] t))
    ∧ (∀ (i : Fin 4) (b : List Byte), wfBody b = true →
      let p := s.port i
      let ping : Out := .portMsg i 2 (toLe 8 s.ct)
      (p.mode ≠ .training → exec (.identReceive (.port i) b) s = .next s)
      ∧ (p.mode = .training → field b 2 1 = 1 →
        ∃ t, exec (.identReceive (.port i) b) s = .next t ∧ t.out = s.out ++ [ping] ∧ s.onlyChanges [.ports, .out] t
          ∧ t.port i = { p with nodeId := field b 0 2, identOk := true, cause := 0, pingClk := s.clk })
      ∧ (p.mode = .training → field b 2 1 ≠ 1 →
          exec (.identReceive (.port i) b) s
            = .next (s.modPort i fun q => { q with nodeId := field b 0 2, identOk := false, cause := 5 }))
      ∧ (p.mode = .training ∨ p.mode = .up →
          exec (.pingReceive (.port i) b) s = .next (s.emit (.portMsg i 3 (b.take 8 ++ toLe 8 s.ct ++ toLe 8 s.ct))))
      ∧ (p.mode ≠ .training → p.mode ≠ .up →
          exec (.pingReceive (.port i) b) s = .next s ∧ exec (.pongReceive (.port i) b) s = .next s)
      ∧ (let rt : Int := ((s.ct : Int) - field b 0 8) - ((field b 16 8 : Int) - field b 8 8)
         let ds := ((max 0 (rt / 2)).toNat :: p.delays).take 16
         (p.mode = .training →
           ∃ t, exec (.pongReceive (.port i) b) s = .next t ∧ (t.port i).delays = ds
             ∧ t.out = s.out ++ (if ds.length < 16 then [ping] else []) ∧ s.onlyChanges [.ports, .out] t)
         ∧ (p.mode = .up →
           ∃ t, exec (.pongReceive (.port i) b) s = .next t ∧ (t.port i).delays = ds
             ∧ (t.port i).delay = ds.foldl min (ds.headD 0) ∧ s.onlyChanges [.ports] t)))

/-- LIVE_SEND, LIVE_RECEIVE, PEER_LOST (R391), MESSAGE_FORWARD (R385), REMOTE_WRITE, REMOTE_READ, REMOTE_SIGNAL (R392, R71), REMOTE_RESP,
MESSAGE_RESEND, TRANSACTION_TIMEOUT (R393, R33), RELAY_RECEIVE (R394), RELAY_RESP_RECEIVE (R422). -/
def Obligations.FabricTraffic : Prop :=
  ∀ (s : State),
    (s.joined = false → exec .liveSend s = .next s)
    ∧ (s.joined = true →
      ∃ t, exec .liveSend s = .next t ∧ t.clk = max s.clk (s.timers.get 0 liveTimer + 10 * usTicks)
        ∧ t.fabric.liveSeq = (s.fabric.liveSeq + 1) % 65536 ∧ s.onlyChanges [.clk, .time, .timers, .links, .fabric, .out] t
        ∧ t.out = s.out ++ (s.floodLinks none).map fun l =>
            floodOut l .live (toLe 1 s.boot.slotId ++ zeros 1 ++ toLe 2 s.fabric.liveSeq ++ toLe 4 s.fabric.epoch ++ toLe 8 t.ct
              ++ zeros 8))
    ∧ (∀ (l : Fin 96) (f : List Byte), wfFrame f = true →
      let id := field f 0 1 % 64
      let p := s.fabric.peers.get {} id
      ((s.link l).mode ≠ .up → exec (.liveReceive l f) s = .next s)
      ∧ ((s.link l).mode = .up → frameSound f = false →
          exec (.liveReceive l f) s = .next (s.modLink l fun k => { k with frameErrs := k.frameErrs + 1 }))
      ∧ ((s.link l).mode = .up → frameSound f = true → id = s.boot.slotId → exec (.liveReceive l f) s = .next s)
      ∧ (∀ n, (s.link l).mode = .up → frameSound f = true → p.epoch = some (field f 4 4) → p.seq = some n →
          (65536 + n - field f 2 2) % 65536 < 32768 → exec (.liveReceive l f) s = .next s)
      ∧ ((s.link l).mode = .up → frameSound f = true → id ≠ s.boot.slotId →
        let same := p.epoch = some (field f 4 4)
        let fresh : Peer := { p with epoch := some (field f 4 4), seq := some (field f 2 2), lastClk := s.clk }
        (p.lost = false → p.epoch = none ∨ (same ∧ ∀ n, p.seq = some n → 32768 ≤ (65536 + n - field f 2 2) % 65536) →
          ∃ t : State, exec (.liveReceive l f) s = .next (t.afterLoss s) ∧ s.onlyChanges [.links, .fabric, .out] t
            ∧ t.fabric.peers.get {} id = { fresh with live := true }
            ∧ t.out = s.out ++ (s.floodLinks (some l)).map fun k => floodOut k .live (f.take 24))
        ∧ (p.lost = true → ¬same ∨ (∀ n, p.seq = some n → 32768 ≤ (65536 + n - field f 2 2) % 65536) →
          ∃ t : State, exec (.liveReceive l f) s = .next (t.afterLoss s) ∧ t.flagged Pg.fab 1 = true
            ∧ t.fabric.peers.get {} id = { fresh with live := true, lost := false })
        ∧ (p.lost = false → p.epoch ≠ none → ¬same →
          ∃ t : State, exec (.liveReceive l f) s = .next (t.afterLoss s)
            ∧ (t.fabric.peers.get {} id).live = false ∧ (t.fabric.peers.get {} id).lost = true)))
    ∧ (∀ id : Fin 64,
      let p := s.fabric.peers.get {} id
      (p.live = false ∨ p.lost = true → exec (.peerLost id) s = .next s)
      ∧ (p.live = true → p.lost = false → s.fabric.reqs = [] → s.fabric.colls.items = [] → (∀ q, s.slotEnabled q = false) →
        ∃ t : State, exec (.peerLost id) s = .next (t.afterLoss s) ∧ t.clk = max s.clk (p.lastClk + 50 * usTicks)
          ∧ t.fabric.peers.get {} id = { p with live := false, lost := true } ∧ t.flagged Pg.fab 0 = true
          ∧ s.onlyChanges (.clk :: .time :: .fabric :: Kind.events) t))
    ∧ (∀ (l : Fin 96) (b : List Byte), wfMessage b = true →
      let m := Msg.ofBytes b
      (∀ sub : Fin 2,
        ((s.link l).mode ≠ .up ∨ m.dst = s.boot.slotId → exec (.messageForward l sub b) s = .next s)
        ∧ (∀ k, (s.link l).mode = .up → m.dst ≠ s.boot.slotId → s.routeLink m.dst (s.bundleOf l) = (s, some k) →
            exec (.messageForward l sub b) s
              = .next (s.queueOn k { vc := kindVc m.kind
                                     sub := s.subLane ((s.bundleOf k).getD 0) ((s.bundleOf l).map fun c => (c, sub.val))
                                     fwd := true, relay := m.kind == MKind.relay, bytes := b })))
      ∧ (∀ kind c, [(MKind.write, Instr.remoteWrite l b), (MKind.read, Instr.remoteRead l b), (MKind.signal, Instr.remoteSignal l b)
            , (MKind.resp, Instr.remoteResp l b), (MKind.relay, Instr.relayReceive l b)
            , (MKind.relayResp, Instr.relayRespReceive l b)].contains (kind, c) = true →
          s.comesHere l m kind = false → exec c s = .next s)
      ∧ (s.comesHere l m MKind.write = true →
        (∀ st, s.answeredAs m.src m.tag = some st →
            exec (.remoteWrite l b) s = .next ((s.respond m (statusOfCode st)).afterLoss s))
        ∧ (s.answeredAs m.src m.tag = none → s.groupPart m.group = none →
            exec (.remoteWrite l b) s = .next (((s.noteAnswer m.src m.tag (statusCode .access)).respond m .access).afterLoss s))
        ∧ (∀ p, s.answeredAs m.src m.tag = none → s.groupPart m.group = some p →
          let w := s.devWrite (m.arg % 2 ^ 52) (m.data.take m.len)
          (s.devCheck (.part p false) (m.arg % 2 ^ 52) m.len true ≠ .ok →
            exec (.remoteWrite l b) s = .next (((s.noteAnswer m.src m.tag (statusCode .access)).respond m .access).afterLoss s))
          ∧ (s.devCheck (.part p false) (m.arg % 2 ^ 52) m.len true = .ok →
            ∃ t : State, exec (.remoteWrite l b) s = .next (t.afterLoss s) ∧ t.mem = w.1.mem ∧ t.answeredAs m.src m.tag = some (statusCode w.2))))
      ∧ (s.comesHere l m MKind.read = true →
        let r := s.devRead (m.arg % 2 ^ 52) m.len
        let served := Host.Outcome.next ((r.1.respond m r.2.2 (if r.2.2 = .ok then r.2.1 else [])).afterLoss s)
        (s.groupPart m.group = none → s.replicaHolds (m.arg % 2 ^ 52) m.len = false →
            exec (.remoteRead l b) s = .next ((s.respond m .access).afterLoss s))
        ∧ (s.groupPart m.group = none → s.replicaHolds (m.arg % 2 ^ 52) m.len = true → exec (.remoteRead l b) s = served)
        ∧ (∀ p, s.groupPart m.group = some p →
          (s.devCheck (.part p false) (m.arg % 2 ^ 52) m.len false ≠ .ok →
            exec (.remoteRead l b) s = .next ((s.respond m .access).afterLoss s))
          ∧ (s.devCheck (.part p false) (m.arg % 2 ^ 52) m.len false = .ok →
            exec (.remoteRead l b) s = served)))
      ∧ (s.comesHere l m MKind.signal = true → s.answeredAs m.src m.tag = none →
        let i := m.arg % 2 ^ 15
        let n := m.arg / 2 ^ 32 % 2 ^ 16
        (∀ p c, s.groupPart m.group = some p → i < s.fld (Pg.slot p + 0x030) 32 16 → s.absCtr p i = some c →
          ∃ t, exec (.remoteSignal l b) s = .next t ∧ t.ctr c = min (s.ctr c + n) 0xFFFFFFFF
            ∧ t.answeredAs m.src m.tag = some (statusCode .ok) ∧ t.mem = s.mem)
        ∧ (s.groupPart m.group = none
            ∨ (∃ p, s.groupPart m.group = some p ∧ (s.fld (Pg.slot p + 0x030) 32 16 ≤ i ∨ s.absCtr p i = none)) →
            exec (.remoteSignal l b) s = .next ((s.noteAnswer m.src m.tag (statusCode .access)).respond m .access)))
      ∧ (∀ kind c, (kind = MKind.resp ∧ c = Instr.remoteResp l b) ∨ (kind = MKind.relayResp ∧ c = Instr.relayRespReceive l b) →
          s.comesHere l m kind = true →
        (s.reqOf m = none → exec c s = .next s)
        ∧ (∀ r, s.reqOf m = some r →
            exec c s = .next ((s.reqDone r (statusOfCode (m.arg % 256)) (m.data.take m.len)).afterLoss s)
            ∧ ∀ d, r.use = .record d → exec c s = .next (s.dropReq r.tag)))
      ∧ (s.comesHere l m MKind.relay = true → s.answeredAs m.src m.tag = none → m.group < 4 → s.attached m.group = true →
          s.wedged m.group = false → s.isReady = true →
        let key := m.src * 8 + m.group % 8
        let q := s.fabric.relayIn.get {} key
        let o := m.trans s.boot.slotId
        m.arg / 2 ^ 56 % 256 = q.next → q.held = [] → o.op = 4 →
        let u := (s.modFabric fun f => { f with relayIn := f.relayIn.put key { q with held := [(q.next, b)] } }).modFabric fun f =>
          { f with relayIn := f.relayIn.put key { next := (q.next + 1) % 256, held := [] } }
        let w := u.memWrite m.group o
        exec (.relayReceive l b) s = .next (((w.1.afterLoss u).noteAnswer m.src m.tag (statusCode w.2)).respond m w.2)))
    ∧ (∀ r rs, s.fabric.reqs = r :: rs →
      (r.resent = false →
        ∃ t, exec .messageResend s = .next t ∧ t.clk = max s.clk (r.sentClk + 20 * usTicks)
          ∧ t.fabric.reqs = (r :: rs).map fun x => if x.tag = r.tag then { x with resent := true } else x)
      ∧ exec .transactionTimeout s = .next (((s.waitClk (r.sentClk + 100 * usTicks)).reqDone r .peerLost).afterLoss s)
      ∧ (∀ d, r.use = .record d →
        ∃ t, exec .transactionTimeout s = .next t ∧ t.clk = max s.clk (r.sentClk + 100 * usTicks)
          ∧ t.fabric.reqs = rs.filter (fun x => x.tag != r.tag) ∧ s.onlyChanges [.clk, .time, .fabric] t))
    ∧ (∀ r rs, s.fabric.reqs = [] → s.nodeReqs = r :: rs →
      exec .transactionTimeout s
        = .next ((({ s.waitClk (r.sentClk + 100 * usTicks) with nodeReqs := rs }).useDone r.use .peerLost []).afterLoss s))
    ∧ ((∀ r ∈ s.fabric.reqs, r.resent = true) → exec .messageResend s = .next s)
    ∧ (s.fabric.reqs = [] → s.nodeReqs = [] → exec .transactionTimeout s = .next s)

/-- RANK_GROUP_COMMIT (R395), CQ_ARM, CQ_RESET (R396, R402), ALL_REDUCE, REDUCE_SCATTER, ALL_GATHER, ALL_TO_ALL, SEND, RECV, RSIGNAL,
BARRIER (R396–R398). -/
def Obligations.CollectiveStarts : Prop :=
  ∀ (s : State),
    (∀ (dom : Fin 4) (v : Word), s.passes dom (Pg.fab + 0x208) = true →
      let g := s.fld (Pg.fab + 0x200) 0 6
      let p := bits v 0 4
      let n := bits v 8 7
      let mem := (List.range 8).flatMap fun w => toLe 8 (s.stagedOf dom (gmemKey g w)).toNat
      let ms := (mem.take n).map BitVec.toNat
      let mine (p : Nat) := dom.val = 0 ∨ s.ownerOf p = dom.val
      let sound := n ≠ 0 ∧ n ≤ 64 ∧ ms.Nodup ∧ (∀ m ∈ ms, m < s.clusterSize) ∧ s.boot.slotId ∈ ms
        ∧ ∀ i < 4, (s.collQ (4 * p + i)).mode = .idle
      (¬mine p ∨ ((s.group g).en = true ∧ ¬mine (s.group g).part) → exec (.rankGroupCommit dom v) s = .next (s.ends .access))
      ∧ (¬sound → exec (.rankGroupCommit dom v) s = .next (s.ends .access))
      ∧ (mine p → ((s.group g).en = true → mine (s.group g).part) → sound →
        ∃ t, exec (.rankGroupCommit dom v) s = .next t ∧ t.done = .ok ∧ (∀ h, h ≠ g → t.group h = s.group h)
          ∧ t.group g = { en := true, part := p, members := ms, digest := (crc64 (groupBytes g n ms)).toNat
                          rank := ms.idxOf s.boot.slotId }
          ∧ (∀ w < 8, t.reg (gmemKey g w) = s.stagedOf dom (gmemKey g w)) ∧ s.onlyChanges [.regs, .fabric, .done] t))
    ∧ (∀ (dom : Fin 4) (q : Fin 64) (v : Word), s.passes dom (Pg.fab + 0x808 + 0x20 * q.val) = true →
      let c := s.collQ q
      let list := s.fld (Pg.fab + 0x800 + 0x20 * q) 0 52
      let count := bits v 0 12
      let read := s.devRead list (64 * count)
      (c.mode ≠ .idle → exec (.cqArm dom q v) s = .next (s.ends .access))
      ∧ (c.mode = .idle → count = 0 →
        ∃ t, exec (.cqArm dom q v) s = .next t ∧ t.done = .ok ∧ s.onlyChanges [.regs, .done] t)
      ∧ (c.mode = .idle → count ≠ 0 →
        let st := if aligned list 64 then s.devCheck (.part (q.val / 4) false) list (64 * count) false else .access
        (st ≠ .ok → ∃ t, exec (.cqArm dom q v) s = .next t ∧ t.done = st ∧ s.onlyChanges [.regs, .done] t)
        ∧ (st = .ok → read.2.2 ≠ .ok →
          ∃ t : State, exec (.cqArm dom q v) s = .next (t.afterLoss s) ∧ t.done = .access ∧ t.collQ q = c)
        ∧ (st = .ok → read.2.2 = .ok →
          ∃ t : State, exec (.cqArm dom q v) s = .next (t.afterLoss s) ∧ t.done = .ok
            ∧ t.collQ q = { mode := .running, depth := bits v 12 3 + 1, again := bit v 15
                            ents := (List.range count).map fun i => (read.2.1.drop (64 * i)).take 64 }))
      ∧ (c.mode = .running ∨ c.mode = .waitStep ∨ c.inflight ≠ [] → exec (.cqReset dom q) s = .next (s.ends .access))
      ∧ (c.mode = .idle ∨ c.mode = .halted → c.inflight = [] →
          exec (.cqReset dom q) s = .next ((s.modCollQ q fun _ => {}).ends .ok)))
    ∧ (∀ (q : Fin 64) (op : Nat) (i : Instr), [(0, Instr.allReduce q), (1, Instr.reduceScatter q), (2, Instr.allGather q)
          , (3, Instr.allToAll q), (4, Instr.send q), (5, Instr.recv q), (6, Instr.rsignal q), (7, Instr.barrier q)].contains (op, i) = true →
      let c := s.collQ q
      let p := q.val / 4
      (c.ents[c.next]? = none → exec i s = .next s)
      ∧ ∀ b, c.ents[c.next]? = some b →
        let go := s.absCtr p (field b 26 2)
        let u := match go with | some k => if cGo b then s.settleWaits k else s | none => s
        let g := u.group (cRg b)
        let idle := c.mode ≠ .running ∨ cOp b ≠ op ∨ u.enginesRun = false
          ∨ c.depth ≤ (c.inflight.filter fun e => e.fin.isNone).length
        let passes := cGo b = false ∨ ∃ k, go = some k ∧ field b 28 2 ≤ u.ctr k
        let lost := if cPtp op then u.peerIsLost (g.members.getD (cPeer b) 64) = true else ∃ m ∈ g.members, u.peerIsLost m = true
        let empty := cLen b = 0 ∧ op ≤ 5
        (idle → exec i s = .next u)
        ∧ (u.collCheck p b = .ok → ¬passes → exec i s = .next u)
        ∧ (¬idle → u.collCheck p b ≠ .ok →
          ∃ t, exec i s = .next t ∧ (t.collQ q).mode = .halted ∧ (t.collQ q).status = statusCode (u.collCheck p b)
            ∧ (t.collQ q).failEnt = c.next ∧ (t.collQ q).next = (u.collQ q).next + 1 ∧ t.flagged Pg.fab 2 = true)
        ∧ (¬idle → u.collCheck p b = .ok → passes → lost → ¬empty →
          ∃ t, exec i s = .next t ∧ (t.collQ q).mode = .halted ∧ (t.collQ q).status = statusCode .peerLost
            ∧ t.flagged Pg.fab 2 = true)
        ∧ (¬idle → u.collCheck p b = .ok → passes → ¬lost ∨ empty →
            u.fabric.readys = [] → (∀ e ∈ (u.collQ q).inflight, e.ix ≠ c.started) →
            (op = 4 ∨ op = 5 → cPeer b = g.rank → ∀ q', (u.collQ q').inflight = []) →
            (op = 6 → cPeer b ≠ g.rank → ∃ l, u.routeLink (g.members.getD (cPeer b) 0) = (u, some l)) →
          ∃ t e, exec i s = .next t ∧ (t.collQ q).next = (u.collQ q).next + 1 ∧ (t.collQ q).started = (u.collQ q).started + 1
            ∧ e ∈ (t.collQ q).inflight ∧ e.ix = c.started ∧ e.ent = b ∧ e.op = op ∧ e.fin = none
            ∧ (cPtp op = false → (t.group (cRg b)).seq = (g.seq + 1) % 2 ^ 32 ∧ e.seq = g.seq)
            ∧ (op = 6 → cPeer b ≠ g.rank → e.unanswered = 1)
            ∧ (op = 6 → cPeer b = g.rank → cGo b = false → ∀ k, s.absCtr p (field b 32 2) = some k →
                t.ctr k = min (u.ctr k + field b 34 2) 0xFFFFFFFF)
            ∧ (op ≠ 6 → cGo b = true → ∀ k, go = some k → t.ctr k = u.ctr k - field b 28 2)))

/-- READY_RECEIVE (R398), COLL_ABORT_RECEIVE (R402), CONTRIB_RECEIVE (R401), COLL_COMBINE (R400), COLL_ENTRY_COMPLETE (R396). -/
def Obligations.CollectiveWork : Prop :=
  ∀ (s : State),
    (∀ (l : Fin 96) (dst : Fin 64) (f : List Byte), wfFrame f = true →
      let r := ReadyRec.ofBody f
      let held := s.modFabric fun fb => { fb with readys := fb.readys ++ [r] }
      ((s.link l).mode ≠ .up → exec (.readyReceive l dst f) s = .next s ∧ exec (.collAbortReceive l dst f) s = .next s)
      ∧ ((s.link l).mode = .up → frameSound f = false →
        let t := s.modLink l fun k => { k with frameErrs := k.frameErrs + 1 }
        exec (.readyReceive l dst f) s = .next t ∧ exec (.collAbortReceive l dst f) s = .next t)
      ∧ ((s.link l).mode = .up → frameSound f = true → dst.val ≠ s.boot.slotId →
        exec (.readyReceive l dst f) s = .next (s.routeFrame .ready dst (f.take 24) (s.bundleOf l))
          ∧ exec (.collAbortReceive l dst f) s = .next (s.routeFrame .abort dst (f.take 24) (s.bundleOf l)))
      ∧ ((s.link l).mode = .up → frameSound f = true → dst.val = s.boot.slotId →
        (s.matching r.group r.ptp r.rank r.seq (if r.ptp then 4 else r.op) = [] → exec (.readyReceive l dst f) s = .next held)
        ∧ (∀ q e, s.matching r.group r.ptp r.rank r.seq (if r.ptp then 4 else r.op) = [(q, e)] → q < 64 →
            r.digest ≠ (s.group e.rg).digest →
          ∃ t, exec (.readyReceive l dst f) s = .next t ∧ (t.collQ q).mode = .halted
            ∧ (t.collQ q).status = statusCode .access ∧ t.flagged Pg.fab 5 = true ∧ t.flagged Pg.fab 2 = true)
        ∧ (∀ q e, s.matching r.group r.ptp r.rank r.seq (if r.ptp then 4 else r.op) = [(q, e)] → q < 64 → e.op = 7 → r.op = 7 →
            r.digest = (s.group e.rg).digest → r.len = cLen e.ent →
          ∃ t, exec (.readyReceive l dst f) s = .next t ∧ s.onlyChanges [.fabric] t
            ∧ ∃ x ∈ (t.collQ q).inflight, x.ix = e.ix ∧ r.rank ∈ x.ready)
        ∧ (s.matching r.group r.ptp r.rank r.seq (if r.op = 4 then 5 else 4) = [] → exec (.collAbortReceive l dst f) s = .next s)
        ∧ (∀ q e, s.matching r.group r.ptp r.rank r.seq (if r.op = 4 then 5 else 4) = [(q, e)] → field f 20 1 = 0 →
          ∃ t, exec (.collAbortReceive l dst f) s = .next t ∧ (t.collQ q).mode = .halted
            ∧ (t.collQ q).status = statusCode .superseded ∧ (t.collQ q).failEnt = e.idx ∧ t.flagged Pg.fab 2 = true
            ∧ ∀ x ∈ (t.collQ q).inflight, x.ix ≠ e.ix)))
    ∧ (∀ (l : Fin 96) (b : List Byte), wfMessage b = true →
      let m := Msg.ofBytes b
      let sub := m.data.take 16
      let data := (m.data.drop 16).take m.len
      let op := field sub 2 1
      let found := s.matching (field sub 0 2) (cPtp op) (field sub 3 1) (field sub 4 4) 5
      let sound := m.data.length = 24 + m.len ∧ (crc64 (sub ++ data)).toNat = field m.data (16 + m.len) 8
      (s.comesHere l m MKind.contrib = false → exec (.contribReceive l b) s = .next s)
      ∧ (s.comesHere l m MKind.contrib = true →
        (∀ st, s.answeredAs m.src m.tag = some st → exec (.contribReceive l b) s = .next (s.respond m (statusOfCode st)))
        ∧ (s.answeredAs m.src m.tag = none → found = [] →
          exec (.contribReceive l b) s = .next ((s.noteAnswer m.src m.tag (statusCode .access)).respond m .access))
        ∧ (∀ q e, s.answeredAs m.src m.tag = none → found = [(q, e)] → ¬sound → e.bad = [] →
          ∃ t, exec (.contribReceive l b) s = .next t ∧ t.answeredAs m.src m.tag = some (statusCode askAgain)
            ∧ t.flagged Pg.fab 3 = true ∧ t.mem = s.mem)
        ∧ (∀ q e a room, s.answeredAs m.src m.tag = none → found = [(q, e)] → sound →
            s.landing (q / 4) e (field sub 15 1) (field sub 3 1) = some (a, room) → (if cPtp op then op = 4 else op = e.op) →
            field sub 8 3 + data.length ≤ field sub 11 4 → field sub 11 4 ≤ room →
          ∃ t, exec (.contribReceive l b) s = .next t ∧ t.answeredAs m.src m.tag = some (statusCode .ok))))
    ∧ (∀ q : Fin 64,
      let c := s.collQ q
      let ripe (e : CollEnt) := e.op ≤ 1 && e.fin.isNone && !e.combined && cLen e.ent != 0 && s.allHere e
      ((∀ e ∈ c.inflight, ripe e = false) → exec (.collCombine q) s = .next s)
      ∧ (∀ e scr dst k, c.inflight = [e] → ripe e = true → s.cEa (q / 4) e.ent 12 = some scr → s.cEa (q / 4) e.ent 8 = some dst →
          s.absSlice (q / 4) (field e.ent 3 1) = some k →
        let g := s.group e.rg
        let n := g.members.length
        let piece := cLen e.ent / n
        let int := field e.ent 1 1 == 10
        (nbits s.retired k 1 = 1 →
          ∃ t, exec (.collCombine q) s = .next t ∧ (t.collQ q).mode = .halted ∧ (t.collQ q).status = statusCode .fault)
        ∧ (nbits s.retired k 1 = 0 → 2 ≤ n → e.op = 1 → e.ready = [] → (1, g.rank) ∈ e.sent → 4 ∣ piece → s.canonical = true →
            dst.slice < 16 → s.pairedTwin dst.slice = none → dst.fits piece = true → s.eaWritable dst piece = true →
          ∃ t, exec (.collCombine q) s = .next t
            ∧ t.eaRead dst piece = (List.range (piece / 4)).flatMap (fun j =>
                toLe 4 (combineVals int ((List.range n).map fun r => s.combinePart (scr.plus (r * piece)) int j)).v)
            ∧ (t.collQ q).inflight = [{ e with combined := true, sent := e.sent ++ [(2, g.rank)] }]))
      ∧ ((∀ e ∈ c.inflight, s.entDone e = false) → exec (.collEntryComplete q) s = .next s)
      ∧ (∀ e, c.inflight = [e] → s.entDone e = true →
        ∃ t, exec (.collEntryComplete q) s = .next t ∧ (t.collQ q).inflight = [] ∧ (t.collQ q).next = c.next
          ∧ (cDone e.ent = true → ∀ k, s.absCtr (q.val / 4) (field e.ent 30 2) = some k → t.ctr k = min (s.ctr k + 1) 0xFFFFFFFF)
          ∧ (cDone e.ent = false → t.ctrs = s.ctrs)
          ∧ (c.mode = .running → c.ents.length ≤ c.next → c.again = false → (t.collQ q).mode = .idle)
          ∧ (c.mode = .running → c.next < c.ents.length → (t.collQ q).mode = .running)))

/-- PORT_ENABLE, PORT_DISABLE (R406), PORT_RETRAIN, PORT_DOWN, PORT_AUTO_RETRAIN (R408), PORT_TRAIN_DONE, PORT_TRAIN_FAIL,
PORT_PING_SEND (R407), PORT_FRAME_RECEIVE (R409). The ports have nothing queued, and owe their nodes nothing. -/
def Obligations.PortEffects : Prop :=
  ∀ (s : State) (i : Fin 4),
    let p := s.port i
    let key := Pg.port i + 0x100
    let others (t : State) := ∀ j, j ≠ i.val → t.port j = s.port j
    (∀ (dom : Fin 4) (v : Word), s.passes dom key = true →
      let on := bit (s.reg key) 0
      (bits v 4 3 ≠ bits (s.reg key) 4 3 → p.mode = .training ∨ p.mode = .up →
        exec (.portEnable dom i v) s = .next (s.ends .access) ∧ exec (.portDisable dom i v) s = .next (s.ends .access)
          ∧ exec (.portRetrain dom i v) s = .next (s.ends .access))
      ∧ (bits v 4 3 = bits (s.reg key) 4 3 →
        (on = false →
          (∃ t, exec (.portEnable dom i v) s = .next t ∧ t.done = .ok ∧ t.port i = p.trains s.clk ∧ others t
            ∧ t.out = s.out ++ [s.identOut i] ∧ bit (t.reg key) 0 = true ∧ s.onlyChanges [.regs, .ports, .out, .done] t)
          ∧ (∃ t, exec (.portDisable dom i v) s = .next t ∧ t.done = .ok ∧ s.onlyChanges [.regs, .done] t))
        ∧ (on = true → p.owes = [] → (∀ j < 4, (s.port j).queue = []) →
          (∃ t, exec (.portEnable dom i v) s = .next t ∧ t.done = .ok ∧ s.onlyChanges [.regs, .done] t)
          ∧ (∃ t, exec (.portDisable dom i v) s = .next t ∧ t.done = .ok ∧ t.port i = p.left .off 0 s.clk ∧ others t
            ∧ t.out = s.out ∧ bit (t.reg key) 0 = false)
          ∧ (∃ t, exec (.portRetrain dom i v) s = .next t ∧ t.done = .ok ∧ t.port i = (p.left .training 0 s.clk).trains s.clk
            ∧ others t ∧ t.out = s.out ++ [s.identOut i]))))
    ∧ (p.mode = .training →
      (p.identOk = true → 16 ≤ p.delays.length → (∀ j < 4, (s.port j).queue = []) →
        ∃ t, exec (.portTrainDone i) s = .next t ∧ others t ∧ t.flagged (Pg.port i) 2 = true ∧ t.out = s.out
          ∧ t.port i = { p with mode := .up, delay := p.delays.foldl min (p.delays.headD 0), goodClk := s.clk, pingClk := s.clk })
      ∧ (p.identOk = false ∨ p.delays.length < 16 → exec (.portTrainDone i) s = .next s)
      ∧ ∃ t, exec (.portTrainFail i) s = .next t ∧ t.port i = { p with mode := .failed, cause := if p.cause = 5 then 5 else 1 }
          ∧ others t ∧ t.clk = max s.clk (p.trainClk + usTicks * (max 1 (s.fld key 16 16) * 1000))
          ∧ t.flagged (Pg.port i) 1 = true)
    ∧ (p.mode ≠ .training → exec (.portTrainDone i) s = .next s ∧ exec (.portTrainFail i) s = .next s)
    ∧ (p.mode = .up → p.owes = [] → (∀ j < 4, (s.port j).queue = []) → ∀ lock : Bool,
      let limit := p.replay.any fun r => decide (8 ≤ r.2.2.2)
      ∃ t, exec (.portDown i lock) s = .next t
        ∧ t.clk = (if limit then s.clk else max s.clk (p.goodClk + usTicks * (if lock then 2 else 50)))
        ∧ t.port i = p.left .down (if limit then 4 else if lock then 2 else 3) t.clk ∧ others t
        ∧ t.flagged (Pg.port i) 0 = true)
    ∧ (p.mode ≠ .up → (∀ lock, exec (.portDown i lock) s = .next s) ∧ exec (.portPingSend i) s = .next s)
    ∧ (p.mode = .up →
      ∃ t, exec (.portPingSend i) s = .next t ∧ t.clk = max s.clk (p.pingClk + 1000 * usTicks)
        ∧ t.port i = { p with pingClk := t.clk } ∧ t.out = s.out ++ [.portMsg i 2 (toLe 8 t.ct)])
    ∧ (p.mode = .down → bit (s.reg key) 0 = true → bit (s.reg key) 1 = true →
      ∃ t, exec (.portAutoRetrain i) s = .next t ∧ t.clk = max s.clk (p.downClk + 1000 * usTicks) ∧ t.port i = p.trains t.clk
        ∧ others t ∧ t.out = s.out ++ [s.identOut i] ∧ s.onlyChanges [.clk, .time, .ports, .out] t)
    ∧ (p.mode ≠ .down ∨ bit (s.reg key) 0 = false ∨ bit (s.reg key) 1 = false → exec (.portAutoRetrain i) s = .next s)
    ∧ (∀ (f : List Byte) (decoded : Bool) (fixed : Nat), wfPortFrame f = true →
      (p.mode ≠ .up → exec (.portFrameReceive i f decoded fixed) s = .next s)
      ∧ (p.mode = .up → p.takes f decoded = false →
        ∃ t, exec (.portFrameReceive i f decoded fixed) s = .next t ∧ t.port i = { p with naked := true } ∧ others t
          ∧ t.out = s.out ++ (if p.naked then [] else [.nak true i p.rxSeq]) ∧ s.onlyChanges [.regs, .ports, .out] t)
      ∧ (p.mode = .up → p.takes f decoded = true → field f 0 1 / 4 % 2 = 0 → p.queue = [] →
        ∃ t, exec (.portFrameReceive i f decoded fixed) s = .next t ∧ (t.port i).rxSeq = (p.rxSeq + 1) % 65536
          ∧ (t.port i).naked = false ∧ (t.port i).reqCred = p.reqCred + field f 2 2
          ∧ (t.port i).rspCred = p.rspCred + field f 4 2 ∧ (t.port i).goodClk = s.clk ∧ others t ∧ t.out = s.out
          ∧ ((p.replay.any fun r => r.1 == field f 8 2) = false → (t.port i).replay = p.replay)))

/-- REG_RD, REG_WR, MEM_RD, MEM_WR, RSP_RECEIVE (R411, R412), PLAN_WR (R421), relays (R422). -/
def Obligations.NodeRequests : Prop :=
  ∀ (s : State) (i : Fin 4) (b : List Byte), wfRequest b = true →
    let t := Trans.ofBytes b
    ((s.port i).mode ≠ .up ∨ t.op ≠ 6 → exec (.rspReceive i b) s = .next s)
    ∧ (∀ (op : Nat) (c : Instr), [(1, Instr.regRd i b), (2, Instr.regWr i b), (3, Instr.memRd i b), (4, Instr.memWr i b)
          , (5, Instr.planWr i b)].contains (op, c) = true →
        ((s.port i).mode ≠ .up ∨ (t.op ≠ op ∧ t.op < 7) → exec c s = .next s)
        ∧ ((s.port i).mode = .up → 7 ≤ t.op → exec c s = .next (s.dealt i t .access [])))
    ∧ (∀ (op : Nat) (c : Instr), [(1, Instr.regRd i b), (2, Instr.regWr i b), (3, Instr.memRd i b), (4, Instr.memWr i b)
          , (5, Instr.planWr i b)].contains (op, c) = true → (s.port i).mode = .up → t.op = op →
      (s.portDomain i = none ∨ (∃ d, s.portDomain i = some d ∧ (s.wedged d = true ∨ s.attached d = false)) →
        exec c s = .next (s.dealt i t .access []))
      ∧ ∀ d, s.portDomain i = some d → s.wedged d = false → s.attached d = true →
        (t.dst % 64 ≠ s.boot.slotId → t.clean = true → bit (s.reg (Pg.port i + 0x100)) 7 = true → s.joined = true →
            t.dst < s.clusterSize → exec c s = .next (s.relayRequest i b))
        ∧ (t.dst % 64 ≠ s.boot.slotId →
            t.clean = false ∨ bit (s.reg (Pg.port i + 0x100)) 7 = false ∨ s.joined = false ∨ s.clusterSize ≤ t.dst →
            exec c s = .next (s.dealt i t .access []))
        ∧ (t.dst % 64 = s.boot.slotId → t.clean = false → exec c s = .next (s.dealt i t .access []))
        ∧ (t.dst % 64 = s.boot.slotId → t.clean = true →
          (op = 1 → t.len = 0 → t.addr < 2 ^ 32 →
            ∃ u, exec c s = .next u ∧ u.done = (s.regRead d t.addr).done ∧ u.rdata = (s.regRead d t.addr).rdata)
          ∧ (op = 2 → t.len = 8 → t.addr < 2 ^ 32 →
            let w := s.regWrite d t.addr (word (field t.data 0 8))
            exec c s = .next (w.dealt i t w.done []))
          ∧ (op = 1 → t.len ≠ 0 ∨ 2 ^ 32 ≤ t.addr → exec c s = .next (s.dealt i t .access []))
          ∧ (op = 2 → t.len ≠ 8 ∨ 2 ^ 32 ≤ t.addr → exec c s = .next (s.dealt i t .access []))
          ∧ (op = 3 → s.boot.phase ≠ .romFault → s.memCheck d t false ≠ .ok →
              exec c s = .next (s.dealt i t (s.memCheck d t false) []))
          ∧ (op = 3 → s.boot.phase ≠ .romFault → s.memCheck d t false = .ok → t.len ≠ 0 →
            let r := s.devRead t.addr t.len
            exec c s = .next ((r.1.afterLoss s).dealt i t r.2.2 (if r.2.2 = .ok then r.2.1 else [])))
          ∧ (op = 4 ∨ op = 5 → s.isReady = false → exec c s = .next (s.dealt i t .access []))
          ∧ (op = 4 → s.isReady = true → s.memCheck d t true ≠ .ok → exec c s = .next (s.dealt i t (s.memCheck d t true) []))
          ∧ (op = 4 → s.isReady = true → s.memCheck d t true = .ok → t.len ≠ 0 →
            let w := s.devWrite t.addr (t.data.take t.len)
            exec c s = .next ((w.1.afterLoss s).dealt i t w.2 []))
          ∧ (op = 5 → s.isReady = true →
            let p := t.addr % 16
            16 ≤ t.addr ∨ s.ownerOf p ≠ d ∨ (s.part p).mode = .free ∨ s.slotLeader p = false ∨ s.slotElastic p = true →
              exec c s = .next (s.dealt i t .access []))
          ∧ (op = 5 → s.isReady = true → exec c s = .next (((s.planWrite d t).1.afterLoss s).dealt i t (s.planWrite d t).2 []))))
    ∧ ((s.port i).mode = .up → t.op = 6 →
      let u := s.modPort i fun p => { p with rspFreed := p.rspFreed + framesOf (16 + t.data.length) }
      ((∀ r ∈ s.nodeReqs, r.port ≠ i ∨ r.tag ≠ t.tag) → exec (.rspReceive i b) s = .next u)
      ∧ (∀ r, s.nodeReqs = [r] → r.port = i → r.tag = t.tag →
          exec (.rspReceive i b) s
            = .next ((({ u with nodeReqs := [] }).useDone r.use (statusOfCode t.status) (t.data.take t.len)).afterLoss s)))

/-- LOG_READ (R442, R463), ATTEST (R481), CERT_READ (R482), FW_STAGE, RECORD_STAGE (R479), FW_ACTIVATE (R480), RESET (R466), MB_DONE,
MB_TIMEOUT (R442, R443). -/
def Obligations.MailboxCommands : Prop :=
  ∀ (s : State) (d : Fin 4),
    let a := (s.mbBuf d).1
    let n := (s.mbBuf d).2
    let m := s.mbTaken d
    (∀ op : MbOp, s.mbOp d ≠ some op → exec (op.cmd d) s = .next s)
    ∧ (∀ op : MbOp, s.mbOp d = some op → s.passes d (Pg.mb d + 0x118) = true →
        (s.mbox d).mode = .busy ∨ (op.steward = true ∧ d ≠ 0) ∨ s.coresRun = false
          ∨ (op.early = false ∧ s.isReady = false ∧ s.boot.phase ≠ .fwFault) ∨ (op.buffered = true ∧ s.mbBufOk d = false) →
        exec (op.cmd d) s = .next (s.ends .access))
    ∧ (s.mbTakes d .logRead →
      let rs := ((s.logOf d).filter fun r => decide (s.mbArg d ≤ r.1)).take (n / 64)
      let first := match (s.logOf d).head? with | some r => max (s.mbArg d) r.1 | none => s.mbArg d
      let bs := rs.flatMap fun r => s.errBytes d r.2
      let w := (s.devWrite a bs).2
      ∃ t : State, exec (.logRead d) s = .next (t.afterLoss s) ∧ t.done = .ok ∧ t.mem = (s.devPut a bs).mem ∧ t.clk = s.clk
        ∧ (w ≠ .ok → t.mbox d = { m with status := w })
        ∧ (w = .ok → t.mbox d = { m with count := rs.length, arg := first + rs.length, out := some (a, bs) }))
    ∧ (s.mbTakes d .attest →
      let r := s.devRead a 64
      (n < 512 → ∃ t : State, exec (.attest d) s = .next (t.afterLoss s) ∧ t.done = .ok ∧ t.mbox d = { m with status := .length })
      ∧ (512 ≤ n → r.2.2 ≠ .ok → ∃ t : State, exec (.attest d) s = .next (t.afterLoss s) ∧ t.mbox d = { m with status := r.2.2 })
      ∧ (512 ≤ n → r.2.2 = .ok →
        ∃ (t : State) (sig : List Byte), exec (.attest d) s = .next (t.afterLoss s) ∧ t.done = .ok ∧ sig.length = 128
          ∧ (let w := (r.1.devWrite a (s.report d r.2.1 ++ sig)).2
             (w ≠ .ok → t.mbox d = { m with status := w })
             ∧ (w = .ok → t.mbox d = { m with count := (t.mbox d).count, out := some (a, s.report d r.2.1 ++ sig) }))))
    ∧ (s.mbTakes d .certRead →
      let certs := Config.chainCerts (s.flash 0x3120000 0x10000)
      let item := [certs.1, certs.2.1, s.ident.record, certs.2.2][s.mbArg d]?
      (item = none → ∃ t : State, exec (.certRead d) s = .next (t.afterLoss s) ∧ t.done = .ok ∧ t.mbox d = { m with status := .access })
      ∧ (∀ b, item = some b → n < b.length →
        ∃ t : State, exec (.certRead d) s = .next (t.afterLoss s) ∧ t.mbox d = { m with status := .length, arg := b.length })
      ∧ (∀ b, item = some b → b.length ≤ n →
        let w := (s.devWrite a b).2
        ∃ t : State, exec (.certRead d) s = .next (t.afterLoss s) ∧ t.mem = (s.devPut a b).mem ∧ (w ≠ .ok → t.mbox d = { m with status := w })
          ∧ (w = .ok → t.mbox d = { m with count := b.length, out := some (a, b) })))
    ∧ (s.mbTakes d .fwStage → s.ident.pending = false → s.canonical = true →
      let c := s.mbArg d
      let r := s.devRead a n
      (192 ≤ c ∨ 128 * 1024 < n → ∃ t : State, exec (.fwStage d) s = .next (t.afterLoss s) ∧ t.mbox d = { m with status := .length } ∧ t.mem = s.mem)
      ∧ (c < 192 → n ≤ 128 * 1024 → r.2.2 ≠ .ok → ∃ t : State, exec (.fwStage d) s = .next (t.afterLoss s) ∧ t.mbox d = { m with status := r.2.2 })
      ∧ (c < 192 → n ≤ 128 * 1024 → r.2.2 = .ok →
        ∃ t : State, exec (.fwStage d) s = .next (t.afterLoss s) ∧ (t.mbox d).status = .ok ∧ (t.mbox d).mode = .busy
          ∧ t.rdMem .flash (imageBase (!s.ident.slotB) + c * 0x20000) r.2.1.length = r.2.1
          ∧ ∀ x < 0x0100000, t.rdMem .flash x 1 = s.rdMem .flash x 1))
    ∧ (s.mbTakes d .recordStage → s.ident.pending = false → s.canonical = true →
      let r := s.devRead a 256
      (n < 256 → ∃ t : State, exec (.recordStage d) s = .next (t.afterLoss s) ∧ t.mbox d = { m with status := .length })
      ∧ (256 ≤ n → r.2.2 = .ok → s.recordOk r.2.1 = true → s.ident.recCopy < 2 → r.2.1.length = 256 →
        ∃ t : State, exec (.recordStage d) s = .next (t.afterLoss s) ∧ (t.mbox d).status = .ok
          ∧ t.rdMem .flash (recordBase (1 - s.ident.recCopy)) 256 = r.2.1
          ∧ t.rdMem .flash (recordBase s.ident.recCopy) 256 = s.rdMem .flash (recordBase s.ident.recCopy) 256)
      ∧ (256 ≤ n → r.2.2 = .ok → s.recordOk r.2.1 = false →
        ∃ t : State, exec (.recordStage d) s = .next (t.afterLoss s) ∧ t.mbox d = { m with status := .access } ∧ t.flagged Pg.sec 1 = true))
    ∧ (s.mbTakes d .fwActivate →
      let good := match s.fwKey with
        | some k => s.imageOk (!s.ident.slotB) k s.ident.minSvn s.ident.minMace
        | none => false
      (good = true →
        ∃ t : State, exec (.fwActivate d) s = .next (t.afterLoss s) ∧ (t.mbox d).status = .ok ∧ t.ident = { s.ident with pending := true }
          ∧ t.mem = (s.writeDir (!s.ident.slotB)).mem ∧ t.flagged Pg.sec 0 = true)
      ∧ (good = false →
        ∃ t : State, exec (.fwActivate d) s = .next (t.afterLoss s) ∧ t.mbox d = { m with status := .access } ∧ t.flagged Pg.sec 1 = true
          ∧ t.mem = s.mem ∧ t.ident = s.ident))
    ∧ (s.mbTakes d .reset → exec (.mbReset d) s = .next ((s.moduleReset 2 s.boot.wcount).ends .ok))
    ∧ ((s.mbox d).mode ≠ .busy → exec (.mbDone d) s = .next s ∧ exec (.mbTimeout d) s = .next s)
    ∧ ((s.mbox d).mode = .busy →
      (∃ t, exec (.mbDone d) s = .next t ∧ t.flagged (Pg.mb d) 0 = true ∧ s.onlyChanges (.mboxes :: Kind.events) t
        ∧ t.mbox d = (if (s.mbox d).closing then {} else { s.mbox d with mode := .done }))
      ∧ (∃ t : State, exec (.mbTimeout d) s = .next (t.afterLoss s) ∧ t.clk = max s.clk ((s.mbox d).goClk + 1000000 * usTicks)
        ∧ t.flagged (Pg.mb d) 1 = true
        ∧ t.mbox d = (if (s.mbox d).closing then {} else { s.mbox d with mode := .done, status := .fault, count := 0, arg := 0 })))

/-- MACE_IMAGE_LOAD (R459), MACE_TEST_START (R458), MACE_TEST_DONE (R455–R457), REPAIR_DONE (R460), REPAIR_WAIT (R461),
DIGEST_UNIT_DONE (R462). -/
def Obligations.IntegrityWork : Prop :=
  ∀ (s : State),
    (s.passes 0 (Pg.ig + 0x158) = true →
      let a := s.fld (Pg.ig + 0x150) 0 52
      let h := s.devPeek a 256
      let len := field h 12 4
      let body := s.devRead (a + 256) len
      let mine (u : Nat) := match s.regionOfUnit u with
        | some (_, r) => r.mode = 2 ∨ (r.mode = 1 ∧ s.ownerOf r.part = 0)
        | none => False
      let whole := s.devCheck (.dom 0) a (256 + len) false = .ok
        ∧ ∀ i < (a + 255 + len) / unitBytes - a / unitBytes, mine (a / unitBytes + 1 + i)
      let sound := aligned a 64 = true ∧ mine (a / unitBytes) ∧ s.devCheck (.dom 0) a 256 false = .ok ∧ field h 0 2 = 1
        ∧ (∃ k, s.fwKey = some k ∧ signedBlock k h = true) ∧ s.mace.version ≤ field h 8 4 ∧ s.ident.minMace ≤ field h 8 4
      (¬sound → ∃ t, exec (.maceImageLoad 0) s = .next t ∧ t.done = .access ∧ t.mace = s.mace ∧ s.onlyChanges [.regs, .done] t)
      ∧ (sound → 16 * 2 ^ 20 < len ∨ ¬whole → ∃ t, exec (.maceImageLoad 0) s = .next t ∧ t.done = .length ∧ t.mace = s.mace)
      ∧ (sound → len ≤ 16 * 2 ^ 20 → whole → body.2.2 ≠ .ok ∨ (h.drop 64).take 64 ≠ shake256 body.2.1 64 →
        ∃ t, exec (.maceImageLoad 0) s = .next t ∧ t.done = .access ∧ t.mace = s.mace)
      ∧ (sound → len ≤ 16 * 2 ^ 20 → whole → body.2.2 = .ok → (h.drop 64).take 64 = shake256 body.2.1 64 →
        ∃ t, exec (.maceImageLoad 0) s = .next t ∧ t.done = .ok ∧ t.flagged Pg.ig 12 = true
          ∧ t.mace = { version := field h 8 4, digest := shake256 body.2.1 32 }))
    ∧ (∀ (k : Fin 16) (cls : Fin 8) (cycles : Nat),
      let c := s.screens.get {} k
      let free := bit (s.reg (Pg.ig + 0x108)) 24 = true ∧ s.enginesRun = true ∧ nbits s.retired k 1 = 0 ∧ c.testing = none
        ∧ (s.seq k).mode = .idle ∧ (s.seq k).starts = [] ∧ s.queuesEmpty k 511 = true ∧ cycles ≤ 65536 ∧ cls.val < 6
        ∧ (c.passes = 0 ∨ nbits c.classes cls 1 = 1)
      (∀ e, free → s.idleEnd k = some e → s.clk + s.cycTicks cycles ≤ e →
        exec (.maceTestStart k cls cycles) s = .next { s with
          screens := s.screens.put k { c with testing := some (cls, s.clk + s.cycTicks cycles), version := s.mace.version } })
      ∧ (¬free ∨ s.idleEnd k = none ∨ (∃ e, s.idleEnd k = some e ∧ e < s.clk + s.cycTicks cycles) →
        exec (.maceTestStart k cls cycles) s = .next s))
    ∧ (∀ (k : Fin 16) (res exp : List Byte) (last : Bool),
      let c := s.screens.get {} k
      (c.testing = none → exec (.maceTestDone k res exp last) s = .next s)
      ∧ (∀ cls u, c.testing = some (cls, u) →
        (shake256 res 16 = exp → last = false →
          ∃ t : State, exec (.maceTestDone k res exp last) s = .next (t.afterLoss s) ∧ t.clk = max s.clk u ∧ s.onlyChanges [.clk, .time, .screens] t
            ∧ t.screens.get {} k = { c with testing := none, cursor := c.cursor + 1 })
        ∧ (shake256 res 16 = exp → last = true → c.passes = 0 →
          ∃ t, exec (.maceTestDone k res exp last) s = .next t
            ∧ t.screens.get {} k = { c with testing := none, cursor := 0, lastPass := t.ct })
        ∧ (shake256 res 16 ≠ exp → c.passes = 0 →
          ∃ t : State, exec (.maceTestDone k res exp last) s = .next (t.afterLoss s) ∧ t.flagged Pg.ig 4 = true ∧ t.suspect = s.suspect ||| 2 ^ k.val
            ∧ (t.screens.get {} k).classes = c.classes ||| 63 ∧ (t.screens.get {} k).testing = none)
        ∧ (shake256 res 16 ≠ exp → c.passes ≠ 0 → s.partOfSlice k = none →
          ∃ t : State, exec (.maceTestDone k res exp last) s = .next (t.afterLoss s) ∧ t.flagged Pg.ig 4 = true ∧ t.flagged Pg.ig 5 = true
            ∧ t.retired = s.retired ||| 2 ^ k.val ∧ (t.screens.get {} k).failed = true)
        ∧ (shake256 res 16 = exp → last = true → c.passes = 1 → c.transients = [] → 2 ≤ s.fld (Pg.ig + 0x108) 20 4 →
          ∃ t : State, exec (.maceTestDone k res exp last) s = .next (t.afterLoss s) ∧ t.suspect = s.suspect - (s.suspect &&& 2 ^ k.val)
            ∧ t.retired = s.retired ∧ (t.screens.get {} k).passes = 0)))
    ∧ (∀ (i : Nat) (answers : List (Option (List Byte))), wfAnswers answers = true →
      ((s.repairs.take 16)[i]? = none → exec (.repairDone i answers) s = .next s)
      ∧ (∀ d, (s.repairs.take 16)[i]? = some d →
        (s.unitMoving (d.addr / unitBytes) = true → exec (.repairDone i answers) s = .next s)
        ∧ (s.unitMoving (d.addr / unitBytes) = false → ((s.placed (d.addr / unitBytes)).bulk && s.bulk.mode == .failed) = false →
            2 ≤ (s.igSource d.region 0).kind → d.slots = [] → d.addr % 64 = 0 → ∀ bs, answers.getD 0 none = some bs → bs.length = 2048 →
          ∃ t : State, exec (.repairDone i answers) s = .next (t.afterLoss s) ∧ t.repairs = s.repairs.filter (fun e => e.addr != d.addr)
            ∧ t.mem = (s.devPut d.addr bs).mem ∧ s.onlyChanges ([.mem, .tolvys, .stale, .bulk, .links, .repairs] ++ Kind.events) t)
        ∧ (s.unitMoving (d.addr / unitBytes) = false → s.hasSource d.region = false →
          ∃ t : State, exec (.repairDone i answers) s = .next (t.afterLoss s) ∧ t.repairs = s.repairs.filter (fun e => e.addr != d.addr)
            ∧ t.fld (keyAt (Pg.sec + 0x810) d.region) 32 1 = 1 ∧ t.flagged Pg.ig 7 = true)))
    ∧ (∀ i : Nat,
      ((s.repairs.take 16)[i]? = none → exec (.repairWait i) s = .next s)
      ∧ ∀ d, (s.repairs.take 16)[i]? = some d →
        (d.waiting = true → exec (.repairWait i) s = .next s)
        ∧ (d.waiting = false →
          ∃ t, exec (.repairWait i) s = .next t ∧ t.clk = max s.clk (d.clk + usTicks * s.fld (Pg.ig + 0x108) 0 16)
            ∧ t.repairs = s.repairs.map (fun e => if e.addr = d.addr then { e with waiting := true } else e)
            ∧ t.flagged Pg.ig 6 = true ∧ s.onlyChanges (.clk :: .time :: .repairs :: Kind.events) t))
    ∧ (∀ r : Fin 64,
      let w := s.reg (keyAt (Pg.ig + 0x1A0) r)
      let g := s.memRegion r
      let u := s.digests.next.get 0 r % g.count
      let base := unitBytes * (g.base + u)
      let q := (s.periodic digestTimer 262144).devRead base unitBytes
      let dig := shake256 (toLe 4 u ++ q.2.1) 32
      (bit w 0 = false ∨ g.mode = 0 ∨ g.count = 0 ∨ s.enginesRun = false → exec (.digestUnitDone r) s = .next s)
      ∧ (bit w 0 = true → g.mode ≠ 0 → g.count ≠ 0 → s.enginesRun = true → s.digests.recheck = [] →
        (∃ t : State, exec (.digestUnitDone r) s = .next (t.afterLoss s) ∧ t.clk = max s.clk (s.timers.get 0 digestTimer + 262144)
          ∧ t.digests.next.get 0 r = (u + 1) % g.count
          ∧ (q.2.2 ≠ .ok → t.mem = q.1.mem ∧ t.digests.clean = s.digests.clean)
          ∧ (q.2.2 = .ok → bit w 1 = false →
              t.mem = (q.1.devPut (bits w 6 46 * 64 + 64 * u) dig).mem ∧ t.digests.clean = s.digests.clean.put (2 ^ 21 * r.val + u) t.ct))))

/-- R444, for a write that passes the checks of its page. -/
def Obligations.IntegrityModeWrites : Prop :=
  ∀ (s : State) (dom : Fin 4) (p : Fin 16) (v : Word), s.passes dom (igBlk p 0) = true →
    ((s.part p).mode = .free ∨ (s.part p).mode = .config → dom = 0 → bits v 0 2 < 3 →
      ∃ t, exec (.regWrite dom (igBlk p 0) v) s = .next t ∧ t.done = .ok ∧ t.igMode p = bits v 0 2
        ∧ s.onlyChanges [.regs, .done] t ∧ s.regsKept [igBlk p 0] t)
    ∧ ((s.part p).mode ≠ .free → (s.part p).mode ≠ .config →
      exec (.regWrite dom (igBlk p 0) v) s = .next (s.ends .access))

/-- POWER_UP, RESET_N_LOW, RESET_RELEASE (R501, R475), INPUT_FAULT (R499), WATCHDOG_EXPIRE (R466–R468), ROM_BOOT_TIMEOUT (R467),
BOOT_STEP_DONE, BOOT_STEP_TIMEOUT (R476), REFCLK_LOSS (R504). -/
def Obligations.BootEffects : Prop :=
  ∀ (s : State),
    let b := s.boot
    let held (t : State) (cause wcount : Nat) := t.boot.cause = cause ∧ t.boot.wcount = wcount ∧ t.clk = 0 ∧ t.regs = State.reset.regs ∧ t.parts = {} ∧ t.links = {} ∧ t.reqs = {} ∧ t.seqs = {} ∧ t.log = []
      ∧ t.out = s.out ∧ t.free = s.free ∧ t.pending = s.pending ∧ t.mem = s.mem.filter fun c => decide (8 * 2 ^ 60 ≤ c.1)
    (b.phase = .unpowered →
      ∃ t, exec .powerUp s = .next t ∧ t.boot.phase = .held ∧ t.boot.pwrGood = true ∧ held t 0 0)
    ∧ (b.phase ≠ .unpowered → exec .powerUp s = .next s)
    ∧ (∃ t, exec .inputFault s = .next t ∧ t.boot.phase = .unpowered ∧ t.boot.pwrGood = false ∧ t.boot.flashBusy = false ∧ held t 0 0)
    ∧ (b.pwrGood = true → b.phase ≠ .held →
      ∃ t, exec .resetNLow s = .next t ∧ t.boot.phase = .held ∧ t.boot.resetLow = true ∧ held t 1 b.wcount)
    ∧ (b.pwrGood = false ∨ b.phase = .held → exec .resetNLow s = .next (s.modBoot fun b => { b with resetLow := true }))
    ∧ (b.armed = true → ∃ t, exec .watchdogExpire s = .next t ∧ t.boot.phase = .held ∧ held t 3 (min 3 (b.wcount + 1)))
    ∧ (b.armed = false → exec .watchdogExpire s = .next s)
    ∧ (∀ (straps : Fin 64) (hangs : Bool),
      (b.phase ≠ .held ∨ b.pwrGood = false → exec (.resetRelease straps hangs) s = .next s)
      ∧ (b.phase = .held → b.pwrGood = true →
        (∃ t, exec (.resetRelease straps hangs) s = .next t ∧ t.boot.slotId = straps ∧ t.clk = 0 ∧ t.boot.resetLow = false
          ∧ t.time = { running := true } ∧ t.free = s.free + 1 ∧ t.mem = s.mem
          ∧ (t.boot.phase = .rom ∨ t.boot.phase = .romFault ∨ t.boot.phase = .cores)
          ∧ (hangs = true → t.boot.phase = .rom)
          ∧ (hangs = false → t.boot.phase ≠ .rom)
          ∧ (hangs = false → Config.chainKeys (s.flash 0x3120000 0x10000) = none ∨ Config.devicePub (s.flash 0x3130000 0x10000) = none →
              t.boot.phase = .romFault ∧ t.boot.fault = .fault ∧ t.boot.faultN = true ∧ (t.port 0).mode = .up)
          ∧ (t.boot.phase = .cores → t.boot.armed = true ∧ (t.port 0).mode = .training ∧ b.wcount < 3))))
    ∧ (b.phase = .rom →
      ∃ t, exec .romBootTimeout s = .next t ∧ t.clk = max s.clk (200000 * usTicks) ∧ t.boot.phase = .romFault
        ∧ t.boot.faultN = true ∧ (t.port 0).mode = .up)
    ∧ (b.phase ≠ .rom → exec .romBootTimeout s = .next s)
    ∧ (∀ (lanes : List (Fin 12 × Fin 128 × List Nat)) (bad : Option Nat) (k : BitVec 16),
      let c := Instr.bootStepDone lanes bad k
      (b.phase = .cores → ∃ t, exec c s = .next t ∧ t.boot = { b with phase := .powered } ∧ s.onlyChanges [.boot, .tolvys, .bulk] t
        ∧ ∀ i, s.stackFitted i = true → i < 12 → (t.stack i).mode = .training)
      ∧ (b.phase = .powered → lanes = [] → exec c s = .next (s.modBoot fun b => { b with phase := .stkTrained }))
      ∧ (∀ i ch l, b.phase = .powered → lanes = [(i, ch, l)] → s.stackFitted i = true → 2 < l.eraseDups.length →
        ∃ t : State, exec c s = .next (t.afterLoss s) ∧ t.boot.phase = .fwFault ∧ (t.stack i).mode = .failed ∧ (t.stack i).failChan = ch
          ∧ (t.stack i).failCause = 1)
      ∧ (b.phase = .stkTrained → ∃ t, exec c s = .next t ∧ t.boot = { b with phase := .stkReady } ∧ t.wfOn = true
        ∧ ∀ i, s.stackFitted i = true → i < 12 → (t.stack i).mode = .ready)
      ∧ (b.phase = .stkReady → s.ident.bulk = true → bad = none →
        exec c s = .next (s.modBoot fun b => { b with phase := .bulkTrained }))
      ∧ (∀ ch, b.phase = .stkReady → s.ident.bulk = true → bad = some ch →
        ∃ t : State, exec c s = .next (t.afterLoss s) ∧ t.boot.phase = .fwFault ∧ t.bulk.mode = .failed ∧ t.bulk.failChan = ch ∧ t.bulk.failCause = 1)
      ∧ (b.phase = .bulkTrained ∨ (b.phase = .stkReady ∧ s.ident.bulk = false) → k = 0 →
        ∃ t, exec c s = .next t ∧ t.boot = { b with phase := .maceDone } ∧ s.onlyChanges [.boot, .screens] t
          ∧ ∀ j : Fin 16, (t.screens.get {} j).lastPass = s.ct)
      ∧ (b.phase = .maceDone → s.ident.bulk = true →
        ∃ t, exec c s = .next t ∧ t.boot = { b with phase := .bulkZeroed } ∧ t.bulk = { s.bulk with mode := .ready })
      ∧ (b.phase = .bulkZeroed ∨ (b.phase = .maceDone ∧ s.ident.bulk = false) →
        ∃ t, exec c s = .next t ∧ t.boot = { b with phase := .ready, bootUs := s.clk / usTicks, wcount := 0 }
          ∧ ∀ i, 1 ≤ i → i ≤ 3 → (t.port i).mode = .training ∧ bit (t.reg (Pg.port i + 0x100)) 0 = true)
      ∧ ([BootPhase.unpowered, .held, .rom, .romFault, .ready, .fwFault].contains b.phase = true → exec c s = .next s))
    ∧ ([BootPhase.cores, .powered, .stkTrained, .stkReady, .bulkTrained, .maceDone, .bulkZeroed].contains b.phase = true →
      ∃ t, exec .bootStepTimeout s = .next t ∧ t.boot.phase = .fwFault ∧ t.boot.fault = .fault ∧ t.boot.faultN = true
        ∧ (∀ l < 96, (t.link l).mode = .off)
        ∧ t.clk = (if b.phase = .powered then max s.clk (100000 * usTicks)
            else if b.phase = .stkReady ∧ s.ident.bulk = true then max s.clk (150000 * usTicks) else s.clk))
    ∧ ([BootPhase.unpowered, .held, .rom, .romFault, .ready, .fwFault].contains b.phase = true → exec .bootStepTimeout s = .next s)
    ∧ (s.loopsRun = true →
      ∃ t : State, exec .refclkLoss s = .next (t.afterLoss s) ∧ t.boot.memStop = true ∧ t.time.running = false
        ∧ (∀ i, (t.port i).mode = if (s.port i).mode = .training ∨ (s.port i).mode = .up then .down else (s.port i).mode)
        ∧ (b.phase ≠ .fwFault → b.phase ≠ .romFault →
          t.boot.phase = .fwFault ∧ t.boot.faultN = true ∧ ∀ l < 96, (t.link l).mode = .off))
    ∧ (s.loopsRun = false → exec .refclkLoss s = .next s)

/-- POWER_SAMPLE, EMERG_HOLD_END (R491), LOOP_EVALUATE (R490, R492, R493), CLOCK_STEP_CHANGE (R486), DIE_SENSOR_REPORT and
DIE_SENSOR_MISS (R492). A mean over fewer samples than it names is over those taken (log entry 62). -/
def Obligations.PowerLoops : Prop :=
  ∀ (s : State),
    let p := s.power
    (∀ (watts vin : Nat), s.loopsRun = false → exec (.powerSample watts vin) s = .next s)
    ∧ (∀ (watts vin : Nat), s.loopsRun = true →
      let q := { p with samples := (watts :: p.samples).take 1000, vin := some vin, energyUj := p.energyUj + watts }
      let trips := 1800 < watts ∨ s.powerCap + 150 < q.mean 50
      ∃ t, exec (.powerSample watts vin) s = .next t ∧ t.clk = max s.clk (s.timers.get 0 1 + usTicks)
        ∧ t.power.samples = q.samples ∧ t.power.vin = some vin ∧ t.power.energyUj = q.energyUj
        ∧ (t.reg (Pg.pwr + 0x138)).toNat = sat maxWord ((s.reg (Pg.pwr + 0x138)).toNat + b2n s.capLimited)
        ∧ (t.reg (Pg.pwr + 0x140)).toNat = sat maxWord ((s.reg (Pg.pwr + 0x140)).toNat + b2n (decide (p.tstep < s.clkCeil)))
        ∧ (t.reg (Pg.pwr + 0x148)).toNat = sat maxWord ((s.reg (Pg.pwr + 0x148)).toNat + b2n p.override)
        ∧ (trips → p.emergUntil = none →
          t.power.pstep = 0 ∧ t.power.plevel = 8 ∧ t.power.emergUntil = some (t.clk + 100 * usTicks) ∧ t.power.target = 0
            ∧ t.flagged Pg.pwr 0 = true)
        ∧ (¬trips ∨ p.emergUntil ≠ none → t.power = q ∧ s.onlyChanges [.clk, .time, .timers, .power, .regs] t))
    ∧ (p.emergUntil = none → exec .emergHoldEnd s = .next s)
    ∧ (∀ u, p.emergUntil = some u →
      ∃ t, exec .emergHoldEnd s = .next t ∧ t.clk = max s.clk u ∧ t.power = { p with emergUntil := none }
        ∧ s.onlyChanges [.clk, .time, .power] t)
    ∧ (s.loopsRun = false ∨ s.time.running = false → exec .loopEvaluate s = .next s)
    ∧ (s.loopsRun = true → s.time.running = true →
      let c := s.powerCap
      let m := c / 50
      let p50 := p.mean 50
      let floor := s.clkFloor
      let ceil := s.clkCeil
      let head := if p50 + 3 * m < c then p.headroom + 1 else 0
      let ix := max (p.evalIx + 1) (ceilDiv s.ct 200000)
      ∃ t, exec .loopEvaluate s = .next t ∧ t.power.evalIx = ix
        ∧ (s.time.slew = 0 → t.ct = max s.ct (200000 * ix))
        ∧ (p.emergUntil ≠ none → t.power.pstep = p.pstep ∧ t.power.plevel = p.plevel ∧ t.power.headroom = p.headroom)
        ∧ (p.emergUntil = none → t.power.headroom = head
          ∧ (t.power.pstep, t.power.plevel) =
            (if c - m < p50 then
              (if floor < p.pstep then (p.pstep - 1, p.plevel)
              else if p.plevel < 8 then (p.pstep, p.plevel + 1)
              else (p.pstep - 1, p.plevel))
            else if 20 ≤ head then
              (if p.pstep < floor then (p.pstep + 1, p.plevel)
              else if 0 < p.plevel then (p.pstep, p.plevel - 1)
              else if p.pstep < ceil then (p.pstep + 1, p.plevel)
              else (p.pstep, p.plevel))
            else (p.pstep, p.plevel)))
        ∧ (p.hottest = none → t.power.tstep = p.tstep ∧ t.power.crit = p.crit)
        ∧ (∀ h i, p.hottest = some (h, i) →
          t.power.crit = (p.crit && !decide (h < 103 * 16))
            ∧ (s.hotLimit ≤ h → t.flagged Pg.pwr 2 = true
              ∧ t.power.tstep = if floor < p.tstep then p.tstep - 1 else p.tstep)
            ∧ (h < s.hotLimit → t.power.tstep =
              if h < s.hotLimit - 32 ∧ t.power.crit = false ∧ p.tstep < ceil then p.tstep + 1 else p.tstep))
        ∧ (let cut := p.emergUntil = none ∧ c - m < p50 ∧ p.pstep ≤ floor ∧ 8 ≤ p.plevel
           (t.power.pOver = true ↔ (p.pOver = true ∨ cut) ∧ t.power.pstep < floor)
           ∧ (t.power.tOver = true ↔ p.tOver = true ∧ t.power.tstep < floor)
           ∧ t.power.override = (t.power.pOver || t.power.tOver))
        ∧ (s.boundPending 0 = false →
          t.power.target =
            if t.power.pOver then (if t.power.tOver then min t.power.pstep t.power.tstep else t.power.pstep)
            else if t.power.tOver then t.power.tstep
            else if s.clkPin then floor else max floor (min (min t.power.pstep t.power.tstep) ceil))
        ∧ t.power.step = p.step)
    ∧ (p.step < p.target →
      exec .clockStepChange s = .next ((s.advance (2 * usTicks)).modPower fun q => { q with step := q.step + 1 }))
    ∧ (p.target < p.step →
      exec .clockStepChange s = .next ((s.advance (2 * usTicks)).modPower fun q => { q with step := q.step - 1 }))
    ∧ (p.step = p.target → exec .clockStepChange s = .next s)
    ∧ (∀ (sensor : Fin 24) (h : Int),
      let q := { p with temps := p.temps.put sensor h, missed := p.missed.put sensor 0 }
      (s.loopsRun = false → exec (.dieSensorReport sensor h) s = .next s)
      ∧ (s.loopsRun = true → h < 105 * 16 → exec (.dieSensorReport sensor h) s = .next (s.modPower fun _ => q))
      ∧ (s.loopsRun = true → 105 * 16 ≤ h → h < 115 * 16 →
        ∃ t, exec (.dieSensorReport sensor h) s = .next t ∧ t.power.tstep = 0 ∧ t.power.crit = true ∧ t.power.target = 0
          ∧ t.power.temps = q.temps ∧ t.flagged Pg.pwr 3 = true ∧ t.boot.phase = s.boot.phase)
      ∧ (s.loopsRun = true → 115 * 16 ≤ h →
        ∃ t : State, exec (.dieSensorReport sensor h) s = .next (t.afterLoss s) ∧ t.boot.memStop = true ∧ t.power = q
          ∧ (s.boot.phase ≠ .romFault → t.boot.phase = .fwFault)
          ∧ (s.boot.phase ≠ .romFault → s.boot.phase ≠ .fwFault → t.boot.faultN = true)
          ∧ t.flagged Pg.pwr 4 = true))
    ∧ (∀ (sensor : Fin 24),
      let n := p.missed.get 0 sensor + 1
      (s.loopsRun = false → exec (.dieSensorMiss sensor) s = .next s)
      ∧ (s.loopsRun = true → n < 8 →
        exec (.dieSensorMiss sensor) s = .next (s.modPower fun q => { q with missed := q.missed.put sensor n }))
      ∧ (s.loopsRun = true → 8 ≤ n →
        ∃ t : State, exec (.dieSensorMiss sensor) s = .next (t.afterLoss s) ∧ t.boot.memStop = true
          ∧ (s.boot.phase ≠ .romFault → t.boot.phase = .fwFault)
          ∧ (s.boot.phase ≠ .romFault → s.boot.phase ≠ .fwFault → t.boot.faultN = true)
          ∧ t.power.missed = p.missed.put sensor n ∧ t.flagged Pg.pwr 4 = true))

/-- MOD_STATE, MOD_SERIAL, INPUT_V, INPUT_P, TEMP_DIE, TEMP_COOL, SLOT, FLASH_ADDR, FLASH_STAT (R505), FLASH_DATA_READ, FLASH_DATA_WRITE,
FLASH_ERASE, FLASH_OP_DONE (R506). That a failed write or erase leaves the flash as it was is the model's choice (log entry 11). -/
def Obligations.BoardManagement : Prop :=
  ∀ (s : State),
    let b := s.boot
    let live (pec : Bool) := b.pwrGood && pec
    let openF (pec : Bool) := b.pwrGood && pec && b.resetLow
    let nack (c : Instr) := exec c s = .next (s.emit (.smb false []))
    let answers (c : Instr) (data : List Byte) := exec c s = .next (s.emit (.smb true data))
    (∀ (reading : Option Int), nack (.modState false) ∧ nack (.modSerial false) ∧ nack (.inputV false) ∧ nack (.inputP false)
      ∧ nack (.tempDie false) ∧ nack (.smbSlot false) ∧ nack (.flashStat false)
      ∧ ∃ t, exec (.tempCool false reading) s = .next t ∧ t.out = s.out ++ [.smb false []])
    ∧ (b.pwrGood = false → ∀ pec, nack (.modState pec) ∧ nack (.modSerial pec) ∧ nack (.inputV pec) ∧ nack (.inputP pec)
      ∧ nack (.tempDie pec) ∧ nack (.smbSlot pec) ∧ nack (.flashStat pec) ∧ nack (.tempCool pec none))
    ∧ (live true = true →
      answers (.modState true) (toLe 2 (s.gidState + 8 * b.cause + 128 * b2n b.resetLow + 256 * statusCode b.fault))
      ∧ answers (.modSerial true) (toLe 8 s.ident.serial)
      ∧ (∀ v, s.power.vin = some v → answers (.inputV true) (toLe 2 v))
      ∧ (s.power.vin = none → answers (.inputV true) (toLe 2 0x8000))
      ∧ (s.power.samples = [] → answers (.inputP true) (toLe 2 0x8000))
      ∧ (s.power.samples ≠ [] → answers (.inputP true) (toLe 2 (s.power.mean 50)))
      ∧ (∀ h i, s.power.hottest = some (h, i) → answers (.tempDie true) (toLe 2 (unsigned 16 h)))
      ∧ (s.power.hottest = none → answers (.tempDie true) (toLe 2 0x8000))
      ∧ (∀ h, exec (.tempCool true (some h)) s
          = .next ((s.modPower fun p => { p with coolant := some h }).emit (.smb true (toLe 2 (unsigned 16 h)))))
      ∧ (∀ h, s.power.coolant = some h → answers (.tempCool true none) (toLe 2 (unsigned 16 h)))
      ∧ (s.power.coolant = none → answers (.tempCool true none) (toLe 2 0x8000))
      ∧ answers (.smbSlot true) (toLe 1 b.slotId))
    ∧ (∀ pec, (openF pec = true → answers (.flashStat pec) (toLe 1 (b2n b.flashBusy + 2 * b2n b.flashFail)))
      ∧ (openF pec = false → nack (.flashStat pec))
      ∧ (∀ a : BitVec 32,
        (openF pec = true ∧ a.toNat % 32 = 0 →
          exec (.flashAddr pec a) s = .next ((s.modBoot fun b => { b with flashAddr := a.toNat }).emit (.smb true [])))
        ∧ (openF pec = false ∨ a.toNat % 32 ≠ 0 → nack (.flashAddr pec a)))
      ∧ (openF pec = true ∧ b.flashBusy = false →
        exec (.flashDataRead pec) s = .next ((s.modBoot fun b => { b with flashAddr := b.flashAddr + 32 }).emit
          (.smb true (s.rdMem .flash b.flashAddr 32))))
      ∧ (openF pec = false ∨ b.flashBusy = true → nack (.flashDataRead pec))
      ∧ (∀ data : List Byte, data.length = 32 →
        (openF pec = true ∧ b.flashBusy = false ∧ b.flashAddr < 0x3100000 →
          exec (.flashDataWrite pec data) s = .next ((s.modBoot fun b =>
            { b with flashBusy := true, flashOp := some (b.flashAddr, data), flashAddr := b.flashAddr + 32 }).emit (.smb true [])))
        ∧ (openF pec = false ∨ b.flashBusy = true ∨ 0x3100000 ≤ b.flashAddr → nack (.flashDataWrite pec data)))
      ∧ (∀ value : Byte,
        (openF pec = true ∧ b.flashBusy = false ∧ b.flashAddr < 0x3100000 ∧ value = 0x5A →
          exec (.flashErase pec value) s = .next ((s.modBoot fun b =>
            { b with flashBusy := true, flashOp := some (b.flashAddr / 0x10000 * 0x10000, []) }).emit (.smb true [])))
        ∧ (openF pec = false ∨ b.flashBusy = true ∨ 0x3100000 ≤ b.flashAddr ∨ value ≠ 0x5A → nack (.flashErase pec value))))
    ∧ (∀ fails : Bool,
      (b.flashOp = none → exec (.flashOpDone fails) s = .next s)
      ∧ (b.flashOp ≠ none → fails = true → exec (.flashOpDone fails) s
          = .next (s.modBoot fun b => { b with flashBusy := false, flashOp := none, flashFail := true }))
      ∧ (∀ a data, b.flashOp = some (a, data) → fails = false → a + 0x10000 ≤ 2 ^ 60 → s.canonical = true →
        ∃ t, exec (.flashOpDone fails) s = .next t ∧ t.boot = { b with flashBusy := false, flashOp := none, flashFail := false }
          ∧ s.onlyChanges [.boot, .mem] t
          ∧ (data ≠ [] → data.length ≤ 32 → t.rdMem .flash a data.length = data ∧ s.keepsMemBut t .flash a data.length)
          ∧ (data = [] → t.rdMem .flash a 0x10000 = List.replicate 0x10000 0xFF ∧ s.keepsMemBut t .flash a 0x10000)))

/-- Frames, command by command: `Kind.events` is what raising an event may touch (R431, R433); what a stop takes with it is `afterLoss`
(R35, R290). The rows that are register writes of a domain have their frame in their own statements. -/
def Obligations.TimeAndCadenceFrames : Prop :=
    (let ks : List Kind := [Kind.fabric];
      (∀ (l : Fin 96) (frame : List Byte), changesOnly (Instr.ackReceive l frame) ks))
    ∧ (let ks : List Kind := [Kind.slots, Kind.seqs];
      (∀ (p : Fin 16), changesOnly (Instr.schedCursorResume p) ks))
    ∧ (let ks : List Kind := [Kind.clk, Kind.time, Kind.slots];
      (∀ (p : Fin 16), changesOnly (Instr.markEffect p) ks))
    ∧ (let ks : List Kind := [Kind.clk, Kind.time, Kind.slots, Kind.screens];
      (∀ (p : Fin 16), changesOnly (Instr.idleWindowClose p) ks))
    ∧ (let ks : List Kind := [Kind.clk, Kind.time, Kind.out, Kind.links, Kind.fabric];
      (changesOnly Instr.frameResend ks))
    ∧ (let ks : List Kind := [Kind.clk, Kind.regs, Kind.time, Kind.slots, Kind.evq, Kind.evLost];
      (∀ (p : Fin 16), ∀ c ∈ ([Instr.markTimeout p, Instr.stepLimit p] : List Instr), changesOnly c ks))
    ∧ (let ks : List Kind := [Kind.clk, Kind.regs, Kind.time, Kind.slots, Kind.evq, Kind.evLost];
      (∀ (p : Fin 16), lossesOnly (Instr.planEmpty p) ks))
    ∧ (let ks : List Kind := Kind.events ++ [Kind.time];
      (∀ (head : Fin 64), changesOnly (Instr.upstreamChange head) ks))
    ∧ (let ks : List Kind := [Kind.regs, Kind.slots, Kind.evq, Kind.evLost, Kind.out, Kind.screens, Kind.links, Kind.fabric];
      (∀ (l : Fin 96) (frame : List Byte), changesOnly (Instr.markReceive l frame) ks))
    ∧ (let ks : List Kind := Kind.events ++ [Kind.clk, Kind.time];
      (∀ c ∈ ([Instr.beaconMiss, Instr.holdoverExpire] : List Instr), changesOnly c ks))
    ∧ (let ks : List Kind := [Kind.clk, Kind.regs, Kind.timers, Kind.boot, Kind.time, Kind.log, Kind.logNext, Kind.links, Kind.free];
      (∀ (upsets : List (Nat × Nat × Word)), lossesOnly (Instr.hardenScrub upsets) ks))
    ∧ (let ks : List Kind := Kind.events ++ [Kind.time, Kind.out, Kind.links];
      (∀ (src : Source) (frame : List Byte), changesOnly (Instr.beaconReceive src frame) ks))
    ∧ (let ks : List Kind := Kind.events ++ [Kind.clk, Kind.power, Kind.time, Kind.tolvys, Kind.bulk];
      (changesOnly Instr.boundApplyTimeout ks))
    ∧ (let ks : List Kind := Kind.events ++ [Kind.slots, Kind.out, Kind.screens, Kind.links, Kind.fabric];
      (∀ (l : Fin 96) (dst : Fin 64) (flood : Bool) (frame : List Byte), changesOnly (Instr.doneReportReceive l dst flood frame) ks))
    ∧ (let ks : List Kind := Kind.events ++ [Kind.slots, Kind.ctrs, Kind.seqs, Kind.out, Kind.screens, Kind.links, Kind.fabric, Kind.svs];
      (∀ (p : Fin 16), changesOnly (Instr.stepDone p) ks))
    ∧ (let ks : List Kind := Kind.events ++ [Kind.clk, Kind.mem, Kind.time, Kind.slots, Kind.out, Kind.tolvys, Kind.bulk, Kind.screens,
          Kind.links, Kind.fabric];
      (∀ (p : Fin 16), lossesOnly (Instr.markSend p) ks))
    ∧ (let ks : List Kind := Kind.events ++ [Kind.clk, Kind.mem, Kind.time, Kind.slots, Kind.ctrs, Kind.seqs, Kind.regions,
          Kind.idleUntil, Kind.tolvys, Kind.bulk, Kind.tiles, Kind.xslots, Kind.links, Kind.reqs, Kind.submitted, Kind.commands,
          Kind.svs, Kind.done];
      (∀ (p : Fin 16), ∀ c ∈ ([Instr.startProg p, Instr.startStream p, Instr.schedSignal p, Instr.pollRing p,
          Instr.idleWindow p] : List Instr), lossesOnly c ks))
    ∧ (let ks : List Kind := Kind.events ++ [Kind.clk, Kind.mem, Kind.power, Kind.time, Kind.slots, Kind.ctrs, Kind.parts, Kind.seqs,
          Kind.regions, Kind.idleUntil, Kind.tolvys, Kind.bulk, Kind.igs, Kind.screens, Kind.tiles, Kind.qslots, Kind.xslots, Kind.links,
          Kind.fabric, Kind.reqs, Kind.submitted, Kind.commands, Kind.svs, Kind.peps, Kind.pepCur, Kind.done];
      (∀ (p : Fin 16), lossesOnly (Instr.stepStart p) ks))

/-- Frames, command by command: `Kind.events` is what raising an event may touch (R431, R433); what a stop takes with it is `afterLoss`
(R35, R290). The rows that are register writes of a domain have their frame in their own statements. -/
def Obligations.SequencerFrames : Prop :=
    (let ks : List Kind := [Kind.seqs];
      (∀ (k : Fin 16), ∀ c ∈ ([Instr.startHoldRelease k, Instr.fenceResume k, Instr.pmLoadStart k, Instr.abortComplete k] : List Instr),
          changesOnly c ks))
    ∧ (let ks : List Kind := [Kind.seqs, Kind.screens];
      (∀ (k : Fin 16), changesOnly (Instr.programStart k) ks))
    ∧ (let ks : List Kind := Kind.events ++ [Kind.clk, Kind.time, Kind.seqs];
      (∀ (k : Fin 16), changesOnly (Instr.startStall k) ks))
    ∧ (let ks : List Kind := Kind.events ++ [Kind.mem, Kind.seqs, Kind.tolvys, Kind.bulk, Kind.links];
      (∀ (k : Fin 16), lossesOnly (Instr.pmLoadDone k) ks))
    ∧ (let ks : List Kind := Kind.events ++ [Kind.mem, Kind.ctrs, Kind.seqs, Kind.regions, Kind.tolvys, Kind.bulk, Kind.igs, Kind.csSets,
          Kind.screens, Kind.suspect, Kind.tiles, Kind.arrFmt, Kind.tileTag, Kind.engFail, Kind.clove, Kind.chainCur, Kind.profCur,
          Kind.qslots, Kind.attCfg, Kind.attSeq, Kind.xslots, Kind.links, Kind.peps, Kind.pepCur, Kind.pageSeen, Kind.seqBad];
      (∀ (k : Fin 16) (read : PmRead), ∀ c ∈ ([Instr.nop k read, Instr.endProg k read, Instr.jump k read, Instr.branch k read,
          Instr.loop k read, Instr.setix k read, Instr.addix k read, Instr.wait k read, Instr.waitTake k read, Instr.signal k read,
          Instr.setctr k read, Instr.start k read, Instr.fence k read, Instr.movs k read] : List Instr), changesOnly c ks))
    ∧ (let ks : List Kind := Kind.events ++ [Kind.mem, Kind.ctrs, Kind.seqs, Kind.regions, Kind.tolvys, Kind.bulk, Kind.igs, Kind.csSets,
          Kind.screens, Kind.suspect, Kind.tiles, Kind.arrFmt, Kind.tileTag, Kind.engFail, Kind.clove, Kind.chainCur, Kind.profCur,
          Kind.qslots, Kind.attCfg, Kind.attSeq, Kind.xslots, Kind.links, Kind.peps, Kind.pepCur, Kind.pageSeen, Kind.seqBad];
      (∀ (k : Fin 16) (engine : Option (Fin 9)), lossesOnly (Instr.seqWaitResume k engine) ks)
        ∧ (∀ (k : Fin 16), lossesOnly (Instr.issueResume k) ks)
        ∧ (∀ (k : Fin 16) (q : Fin 9), lossesOnly (Instr.engineOpComplete k q) ks))
    ∧ (let ks : List Kind := Kind.events ++ [Kind.mem, Kind.ctrs, Kind.seqs, Kind.regions, Kind.tolvys, Kind.bulk, Kind.igs, Kind.csSets,
          Kind.screens, Kind.suspect, Kind.tiles, Kind.arrFmt, Kind.tileTag, Kind.engFail, Kind.clove, Kind.chainCur, Kind.profCur,
          Kind.qslots, Kind.attCfg, Kind.attSeq, Kind.xslots, Kind.links, Kind.reqs, Kind.svs, Kind.peps, Kind.pepCur, Kind.pageSeen,
          Kind.seqBad];
      (∀ (k : Fin 16) (read : PmRead), lossesOnly (Instr.release k read) ks))

/-- Frames, command by command: `Kind.events` is what raising an event may touch (R431, R433); what a stop takes with it is `afterLoss`
(R35, R290). The rows that are register writes of a domain have their frame in their own statements. -/
def Obligations.EngineFrames : Prop :=
    (let ks : List Kind := Kind.events ++ [Kind.clk, Kind.time, Kind.seqs];
      (∀ (k : Fin 16) (a : Fin 4), changesOnly (Instr.starveLong k a) ks))
    ∧ (let ks : List Kind := Kind.events ++ [Kind.clk, Kind.mem, Kind.time, Kind.seqs, Kind.igs, Kind.csSets, Kind.screens, Kind.suspect,
          Kind.tiles, Kind.chainCur, Kind.profCur, Kind.qslots, Kind.peps, Kind.pepCur];
      (∀ (k : Fin 16) (a : Fin 4), changesOnly (Instr.trapTimeout k a) ks))
    ∧ (let ks : List Kind := Kind.events ++ [Kind.mem, Kind.ctrs, Kind.seqs, Kind.regions, Kind.tolvys, Kind.bulk, Kind.igs, Kind.csSets,
          Kind.screens, Kind.suspect, Kind.tiles, Kind.arrFmt, Kind.tileTag, Kind.engFail, Kind.clove, Kind.chainCur, Kind.profCur,
          Kind.qslots, Kind.attCfg, Kind.attSeq, Kind.xslots, Kind.links, Kind.peps, Kind.pepCur, Kind.pageSeen, Kind.seqBad];
      (∀ (k : Fin 16) (read : PmRead), ∀ c ∈ ([Instr.mma k read, Instr.load k read, Instr.drain k read, Instr.dattn k read,
          Instr.config k read, Instr.vload k read, Instr.vstore k read, Instr.clove k read, Instr.reduce k read, Instr.topk k read,
          Instr.compress k read, Instr.expand k read, Instr.combine k read, Instr.pload k read, Instr.bset k read, Instr.qrun k read,
          Instr.qhad k read, Instr.qstep k read, Instr.qload k read, Instr.adec k read, Instr.append k read, Instr.amerge k read,
          Instr.agather k read, Instr.xload k read, Instr.aconfig k read] : List Instr), lossesOnly c ks)
        ∧ (∀ (k : Fin 16) (a : Fin 4), ∀ c ∈ ([Instr.arrayFillResume k a, Instr.drainBufferResume k a,
          Instr.openWaitResume k a] : List Instr), lossesOnly c ks))

/-- Frames, command by command: `Kind.events` is what raising an event may touch (R431, R433); what a stop takes with it is `afterLoss`
(R35, R290). The rows that are register writes of a domain have their frame in their own statements. -/
def Obligations.TransferAndMemoryFrames : Prop :=
    (let ks : List Kind := [Kind.clk, Kind.regs, Kind.time, Kind.tolvys];
      (∀ (u : Fin 12) (ch : Fin 128) (bank : Fin 32) (n : Fin 17), changesOnly (Instr.refreshDue u ch bank n) ks))
    ∧ (let ks : List Kind := [Kind.clk, Kind.timers, Kind.time, Kind.bulk];
      (changesOnly Instr.placementEpoch ks))
    ∧ (let ks : List Kind := Kind.events ++ [Kind.bulk];
      (∀ (ch : Fin 128), lossesOnly (Instr.bulkTrainingLost ch) ks))
    ∧ (let ks : List Kind := Kind.events ++ [Kind.tolvys, Kind.links];
      (∀ (u : Fin 12) (ch : Fin 128), lossesOnly (Instr.cmdParityAlert u ch) ks)
        ∧ (∀ (u : Fin 12), lossesOnly (Instr.thermalReportMiss u) ks))
    ∧ (let ks : List Kind := Kind.events ++ [Kind.mem, Kind.bulk, Kind.done];
      (∀ (addr : Nat) (errors : ReadErrors), lossesOnly (Instr.bulkReadDone addr errors) ks))
    ∧ (let ks : List Kind := Kind.events ++ [Kind.mem, Kind.tolvys, Kind.links, Kind.done];
      (∀ (addr : Nat) (flips : List (Nat × Byte)), lossesOnly (Instr.stackReadDone addr flips) ks))
    ∧ (let ks : List Kind := Kind.events ++ [Kind.clk, Kind.timers, Kind.time, Kind.bulk];
      (∀ (pkg : Fin 16) (report : Option (Fin 8 × Bool)), lossesOnly (Instr.mr4Poll pkg report) ks))
    ∧ (let ks : List Kind := Kind.events ++ [Kind.mem, Kind.tolvys, Kind.bulk, Kind.links];
      (∀ c ∈ ([Instr.swapPieceDone, Instr.spillCopyDone] : List Instr), lossesOnly c ks))
    ∧ (let ks : List Kind := Kind.events ++ [Kind.clk, Kind.timers, Kind.time, Kind.tolvys, Kind.links];
      (∀ (u : Fin 12) (temp : Int) (inner : Nat), lossesOnly (Instr.thermalReport u temp inner) ks))
    ∧ (let ks : List Kind := Kind.events ++ [Kind.clk, Kind.mem, Kind.timers, Kind.time, Kind.bulk];
      (lossesOnly Instr.bulkScrubRead ks))
    ∧ (let ks : List Kind := Kind.events ++ [Kind.clk, Kind.mem, Kind.timers, Kind.time, Kind.tolvys, Kind.links];
      (∀ (u : Fin 12) (ch : Fin 128), lossesOnly (Instr.scrubRead u ch) ks))
    ∧ (let ks : List Kind := Kind.events ++ [Kind.mem, Kind.ctrs, Kind.tolvys, Kind.rowSlots, Kind.bulk, Kind.links];
      (∀ (d : Fin 4) (rq : Fin 4), lossesOnly (Instr.rowOpComplete d rq) ks))
    ∧ (let ks : List Kind := Kind.events ++ [Kind.mem, Kind.ctrs, Kind.tolvys, Kind.stale, Kind.rowSlots, Kind.bulk, Kind.links];
      (∀ (d : Fin 4) (rq : Fin 4), ∀ c ∈ ([Instr.rowInit d rq, Instr.rowCopy d rq, Instr.rowAnd d rq, Instr.rowOr d rq,
          Instr.rowXor d rq, Instr.rowNot d rq, Instr.reseal d rq] : List Instr), lossesOnly c ks))
    ∧ (let ks : List Kind := Kind.events ++ [Kind.clk, Kind.mem, Kind.timers, Kind.time, Kind.tolvys, Kind.bulk, Kind.links, Kind.reqs,
          Kind.svs];
      (lossesOnly Instr.retentionSweep ks))
    ∧ (let ks : List Kind := Kind.events ++ [Kind.mem, Kind.ctrs, Kind.regions, Kind.out, Kind.tolvys, Kind.bulk, Kind.tiles,
          Kind.xslots, Kind.links, Kind.ports, Kind.nodeReqs, Kind.nodeTag, Kind.fabric];
      (∀ (e : Fin 40) (slot : Fin 64), lossesOnly (Instr.transferIssue e slot) ks))
    ∧ (let ks : List Kind := Kind.events ++ [Kind.mem, Kind.slots, Kind.ctrs, Kind.parts, Kind.seqs, Kind.regions, Kind.out, Kind.tolvys,
          Kind.rowSlots, Kind.bulk, Kind.repairs, Kind.igs, Kind.csSets, Kind.screens, Kind.suspect, Kind.tiles, Kind.chainCur,
          Kind.profCur, Kind.qslots, Kind.xslots, Kind.links, Kind.fabric, Kind.peps, Kind.pepCur, Kind.done];
      (∀ (e : Fin 40) (slot : Fin 64) (n : Nat), lossesOnly (Instr.transferComplete e slot n) ks))
    ∧ (let ks : List Kind := Kind.events ++ [Kind.mem, Kind.ctrs, Kind.seqs, Kind.regions, Kind.tolvys, Kind.bulk, Kind.igs, Kind.csSets,
          Kind.screens, Kind.suspect, Kind.tiles, Kind.arrFmt, Kind.tileTag, Kind.engFail, Kind.clove, Kind.chainCur, Kind.profCur,
          Kind.qslots, Kind.attCfg, Kind.attSeq, Kind.xslots, Kind.links, Kind.peps, Kind.pepCur, Kind.pageSeen, Kind.seqBad];
      (∀ (k : Fin 16) (read : PmRead), ∀ c ∈ ([Instr.arm k read, Instr.armd k read, Instr.stop k read] : List Instr), lossesOnly c ks))

/-- Frames, command by command: `Kind.events` is what raising an event may touch (R431, R433); what a stop takes with it is `afterLoss`
(R35, R290). The rows that are register writes of a domain have their frame in their own statements. -/
def Obligations.ServingAndPartitionFrames : Prop :=
    (let ks : List Kind := [Kind.regs, Kind.mem, Kind.ctrs, Kind.seqs, Kind.evq, Kind.evLost, Kind.igs, Kind.csSets, Kind.tiles];
      (∀ (p : Fin 16), changesOnly (Instr.verdictWrite p) ks))
    ∧ (let ks : List Kind := [Kind.regs, Kind.mem, Kind.ctrs, Kind.evq, Kind.evLost, Kind.igs, Kind.tiles, Kind.peps, Kind.free];
      (∀ (p : Fin 16), lossesOnly (Instr.pepperMerge p) ks))
    ∧ (let ks : List Kind := Kind.events ++ [Kind.clk, Kind.time, Kind.doms];
      (∀ (p : Fin 16), changesOnly (Instr.wedgeTimeout p) ks))
    ∧ (let ks : List Kind := Kind.events ++ [Kind.mem, Kind.parts, Kind.stale];
      (∀ (p : Fin 16), changesOnly (Instr.releaseScrubDone p) ks))
    ∧ (let ks : List Kind := Kind.events ++ [Kind.out, Kind.links, Kind.ports, Kind.fabric];
      (∀ (d : Fin 4), changesOnly (Instr.eventRecordWrite d) ks))
    ∧ (let ks : List Kind := Kind.events ++ [Kind.mem, Kind.tolvys, Kind.bulk, Kind.links, Kind.reqs, Kind.submitted, Kind.commands,
          Kind.svs, Kind.done];
      (∀ (d : Fin 4) (cmd : List Byte), ∀ c ∈ ([Instr.submit d cmd, Instr.cancel d cmd, Instr.resume d cmd, Instr.requestRelease d cmd,
          Instr.pfxCreate d cmd, Instr.pfxDrop d cmd, Instr.cmdNop d cmd] : List Instr), lossesOnly c ks))
    ∧ (let ks : List Kind := Kind.events ++ [Kind.clk, Kind.mem, Kind.timers, Kind.time, Kind.tolvys, Kind.bulk, Kind.links, Kind.reqs,
          Kind.submitted, Kind.commands, Kind.svs, Kind.done];
      (∀ (d : Fin 4), lossesOnly (Instr.sqPollTimer d) ks))
    ∧ (let ks : List Kind := Kind.events ++ [Kind.mem, Kind.slots, Kind.ctrs, Kind.parts, Kind.out, Kind.tolvys, Kind.bulk, Kind.igs,
          Kind.screens, Kind.tiles, Kind.links, Kind.fabric, Kind.reqs, Kind.svs, Kind.peps, Kind.seqBad, Kind.done];
      (∀ (p : Fin 16), lossesOnly (Instr.stage0 p) ks))
    ∧ (let ks : List Kind := Kind.events ++ [Kind.mem, Kind.ctrs, Kind.parts, Kind.seqs, Kind.regions, Kind.tolvys, Kind.rowSlots,
          Kind.bulk, Kind.igs, Kind.csSets, Kind.screens, Kind.suspect, Kind.tiles, Kind.chainCur, Kind.profCur, Kind.qslots,
          Kind.xslots, Kind.links, Kind.peps, Kind.pepCur, Kind.done];
      (∀ (p : Fin 16), lossesOnly (Instr.quiesceComplete p) ks))
    ∧ (let ks : List Kind := Kind.events ++ [Kind.mem, Kind.slots, Kind.ctrs, Kind.parts, Kind.seqs, Kind.regions, Kind.out, Kind.tolvys,
          Kind.rowSlots, Kind.bulk, Kind.igs, Kind.csSets, Kind.screens, Kind.suspect, Kind.tiles, Kind.chainCur, Kind.profCur,
          Kind.qslots, Kind.xslots, Kind.links, Kind.fabric, Kind.reqs, Kind.svs, Kind.peps, Kind.pepCur, Kind.done];
      (∀ (p : Fin 16), lossesOnly (Instr.commit p) ks))
    ∧ (let ks : List Kind := Kind.events ++ [Kind.mem, Kind.ctrs, Kind.parts, Kind.seqs, Kind.regions, Kind.out, Kind.tolvys,
          Kind.rowSlots, Kind.bulk, Kind.igs, Kind.csSets, Kind.screens, Kind.suspect, Kind.tiles, Kind.chainCur, Kind.profCur,
          Kind.qslots, Kind.xslots, Kind.links, Kind.ports, Kind.fabric, Kind.reqs, Kind.svs, Kind.peps, Kind.pepCur, Kind.done];
      (∀ (p : Fin 16), lossesOnly (Instr.tokenRecordWrite p) ks))
    ∧ (let ks : List Kind := Kind.events ++ [Kind.clk, Kind.mem, Kind.time, Kind.slots, Kind.ctrs, Kind.parts, Kind.seqs, Kind.regions,
          Kind.out, Kind.tolvys, Kind.rowSlots, Kind.bulk, Kind.igs, Kind.csSets, Kind.screens, Kind.suspect, Kind.tiles, Kind.chainCur,
          Kind.profCur, Kind.qslots, Kind.xslots, Kind.links, Kind.fabric, Kind.reqs, Kind.svs, Kind.peps, Kind.pepCur, Kind.done];
      (∀ (p : Fin 16), lossesOnly (Instr.quiesceTimeout p) ks))

/-- Frames, command by command: `Kind.events` is what raising an event may touch (R431, R433); what a stop takes with it is `afterLoss`
(R35, R290). The rows that are register writes of a domain have their frame in their own statements. -/
def Obligations.FabricAndNodeFrames : Prop :=
    (let ks : List Kind := [Kind.out, Kind.links];
      (∀ (src : Source) (frame : List Byte), changesOnly (Instr.pingReceive src frame) ks))
    ∧ (let ks : List Kind := [Kind.out, Kind.links, Kind.ports];
      (∀ (src : Source) (frame : List Byte), changesOnly (Instr.pongReceive src frame) ks))
    ∧ (let ks : List Kind := [Kind.regs, Kind.out, Kind.ports];
      (∀ (i : Fin 4) (frame : List Byte) (decoded : Bool) (fixed : Nat), changesOnly (Instr.portFrameReceive i frame decoded fixed) ks))
    ∧ (let ks : List Kind := [Kind.clk, Kind.time, Kind.out, Kind.links];
      (∀ (l : Fin 96), changesOnly (Instr.autoRetrain l) ks))
    ∧ (let ks : List Kind := [Kind.clk, Kind.time, Kind.out, Kind.ports];
      (∀ (i : Fin 4), ∀ c ∈ ([Instr.portPingSend i, Instr.portAutoRetrain i] : List Instr), changesOnly c ks))
    ∧ (let ks : List Kind := [Kind.regs, Kind.ctrs, Kind.evq, Kind.evLost, Kind.fabric];
      (∀ (cq : Fin 64), changesOnly (Instr.collEntryComplete cq) ks))
    ∧ (let ks : List Kind := [Kind.clk, Kind.timers, Kind.time, Kind.out, Kind.links, Kind.fabric];
      (changesOnly Instr.liveSend ks))
    ∧ (let ks : List Kind := Kind.events ++ [Kind.links];
      (∀ (l : Fin 96), changesOnly (Instr.linkTrainDone l) ks))
    ∧ (let ks : List Kind := Kind.events ++ [Kind.out, Kind.links];
      (∀ (l : Fin 96) (flit : List Byte) (decoded : Bool) (fixed : Nat), changesOnly (Instr.flitReceive l flit decoded fixed) ks))
    ∧ (let ks : List Kind := Kind.events ++ [Kind.out, Kind.ports];
      (∀ (i : Fin 4), changesOnly (Instr.portTrainDone i) ks))
    ∧ (let ks : List Kind := Kind.events ++ [Kind.clk, Kind.time, Kind.links];
      (∀ (l : Fin 96), changesOnly (Instr.trainFail l) ks))
    ∧ (let ks : List Kind := Kind.events ++ [Kind.out, Kind.links, Kind.ports];
      (∀ (src : Source) (frame : List Byte), changesOnly (Instr.identReceive src frame) ks))
    ∧ (let ks : List Kind := Kind.events ++ [Kind.out, Kind.links, Kind.fabric];
      (∀ (l : Fin 96) (sub : Fin 2) (msg : List Byte), changesOnly (Instr.messageForward l sub msg) ks))
    ∧ (let ks : List Kind := Kind.events ++ [Kind.clk, Kind.time, Kind.ports];
      (∀ (i : Fin 4), changesOnly (Instr.portTrainFail i) ks))
    ∧ (let ks : List Kind := Kind.events ++ [Kind.ctrs, Kind.out, Kind.links, Kind.fabric];
      (∀ (l : Fin 96) (msg : List Byte), changesOnly (Instr.remoteSignal l msg) ks))
    ∧ (let ks : List Kind := Kind.events ++ [Kind.clk, Kind.time, Kind.out, Kind.links, Kind.fabric];
      (changesOnly Instr.messageResend ks))
    ∧ (let ks : List Kind := Kind.events ++ [Kind.mem, Kind.out, Kind.tiles, Kind.links, Kind.fabric];
      (∀ (l : Fin 96) (dst : Fin 64) (frame : List Byte), ∀ c ∈ ([Instr.readyReceive l dst frame,
          Instr.collAbortReceive l dst frame] : List Instr), changesOnly c ks)
        ∧ (∀ (l : Fin 96) (msg : List Byte), changesOnly (Instr.contribReceive l msg) ks)
        ∧ (∀ (cq : Fin 64), changesOnly (Instr.collCombine cq) ks))
    ∧ (let ks : List Kind := Kind.events ++ [Kind.clk, Kind.time, Kind.out, Kind.ports, Kind.fabric];
      (∀ (i : Fin 4) (lock : Bool), changesOnly (Instr.portDown i lock) ks))
    ∧ (let ks : List Kind := Kind.events ++ [Kind.mem, Kind.out, Kind.tolvys, Kind.bulk, Kind.links, Kind.fabric];
      (∀ (l : Fin 96) (msg : List Byte), ∀ c ∈ ([Instr.remoteWrite l msg, Instr.remoteRead l msg] : List Instr), lossesOnly c ks))
    ∧ (let ks : List Kind := Kind.events ++ [Kind.mem, Kind.ctrs, Kind.seqs, Kind.out, Kind.tiles, Kind.links, Kind.fabric];
      (∀ (cq : Fin 64), ∀ c ∈ ([Instr.allReduce cq, Instr.reduceScatter cq, Instr.allGather cq, Instr.allToAll cq, Instr.send cq,
          Instr.recv cq, Instr.rsignal cq, Instr.barrier cq] : List Instr), changesOnly c ks))
    ∧ (let ks : List Kind := Kind.events ++ [Kind.mem, Kind.ctrs, Kind.regions, Kind.out, Kind.tolvys, Kind.bulk, Kind.tiles,
          Kind.xslots, Kind.links, Kind.ports, Kind.nodeReqs, Kind.nodeTag, Kind.fabric];
      (∀ (l : Fin 96) (msg : List Byte), ∀ c ∈ ([Instr.remoteResp l msg, Instr.relayRespReceive l msg] : List Instr), lossesOnly c ks)
        ∧ (∀ (i : Fin 4) (req : List Byte), lossesOnly (Instr.rspReceive i req) ks))
    ∧ (let ks : List Kind := Kind.events ++ [Kind.clk, Kind.mem, Kind.time, Kind.ctrs, Kind.regions, Kind.out, Kind.tolvys, Kind.bulk,
          Kind.tiles, Kind.xslots, Kind.links, Kind.ports, Kind.nodeReqs, Kind.nodeTag, Kind.fabric];
      (∀ (l : Fin 96), lossesOnly (Instr.linkDown l) ks)
        ∧ (lossesOnly Instr.transactionTimeout ks))
    ∧ (let ks : List Kind := Kind.events ++ [Kind.mem, Kind.slots, Kind.ctrs, Kind.regions, Kind.out, Kind.tolvys, Kind.bulk,
          Kind.screens, Kind.tiles, Kind.xslots, Kind.links, Kind.ports, Kind.nodeReqs, Kind.nodeTag, Kind.fabric];
      (∀ (l : Fin 96) (frame : List Byte), lossesOnly (Instr.liveReceive l frame) ks))
    ∧ (let ks : List Kind := Kind.events ++ [Kind.clk, Kind.mem, Kind.time, Kind.slots, Kind.ctrs, Kind.regions, Kind.out, Kind.tolvys,
          Kind.bulk, Kind.screens, Kind.tiles, Kind.xslots, Kind.links, Kind.ports, Kind.nodeReqs, Kind.nodeTag, Kind.fabric];
      (∀ (id : Fin 64), lossesOnly (Instr.peerLost id) ks))

/-- Frames, command by command: `Kind.events` is what raising an event may touch (R431, R433); what a stop takes with it is `afterLoss`
(R35, R290). The rows that are register writes of a domain have their frame in their own statements. -/
def Obligations.ModuleFrames : Prop :=
    (let ks : List Kind := [Kind.screens];
      (∀ (k : Fin 16) (cls : Fin 8) (cycles : Nat), changesOnly (Instr.maceTestStart k cls cycles) ks))
    ∧ (let ks : List Kind := [Kind.out];
      (∀ (pec : Bool), ∀ c ∈ ([Instr.modState pec, Instr.modSerial pec, Instr.inputV pec, Instr.inputP pec, Instr.tempDie pec,
          Instr.smbSlot pec, Instr.flashStat pec] : List Instr), changesOnly c ks))
    ∧ (let ks : List Kind := [Kind.power, Kind.out];
      (∀ (pec : Bool) (reading : Option Int), changesOnly (Instr.tempCool pec reading) ks))
    ∧ (let ks : List Kind := [Kind.boot, Kind.out];
      (∀ (pec : Bool) (addr : BitVec 32), changesOnly (Instr.flashAddr pec addr) ks)
        ∧ (∀ (pec : Bool), changesOnly (Instr.flashDataRead pec) ks)
        ∧ (∀ (pec : Bool) (data : List Byte), changesOnly (Instr.flashDataWrite pec data) ks)
        ∧ (∀ (pec : Bool) (value : Byte), changesOnly (Instr.flashErase pec value) ks))
    ∧ (let ks : List Kind := [Kind.mem, Kind.boot];
      (∀ (fails : Bool), changesOnly (Instr.flashOpDone fails) ks))
    ∧ (let ks : List Kind := [Kind.clk, Kind.power, Kind.time];
      (∀ c ∈ ([Instr.emergHoldEnd, Instr.clockStepChange] : List Instr), changesOnly c ks))
    ∧ (let ks : List Kind := [Kind.clk, Kind.boot, Kind.time, Kind.out, Kind.ports];
      (changesOnly Instr.romBootTimeout ks))
    ∧ (let ks : List Kind := [Kind.clk, Kind.boot, Kind.time, Kind.log, Kind.logNext, Kind.links, Kind.free];
      (changesOnly Instr.bootStepTimeout ks))
    ∧ (let ks : List Kind := [Kind.boot, Kind.time, Kind.log, Kind.logNext, Kind.links, Kind.ports, Kind.free];
      (lossesOnly Instr.refclkLoss ks))
    ∧ (let ks : List Kind := Kind.events ++ [Kind.mboxes];
      (∀ (d : Fin 4), changesOnly (Instr.mbDone d) ks))
    ∧ (let ks : List Kind := Kind.events ++ [Kind.power, Kind.links];
      (∀ (sensor : Fin 24) (temp : Int), lossesOnly (Instr.dieSensorReport sensor temp) ks)
        ∧ (∀ (sensor : Fin 24), lossesOnly (Instr.dieSensorMiss sensor) ks))
    ∧ (let ks : List Kind := Kind.events ++ [Kind.clk, Kind.time, Kind.repairs];
      (∀ (n : Nat), changesOnly (Instr.repairWait n) ks))
    ∧ (let ks : List Kind := [Kind.clk, Kind.regs, Kind.ident, Kind.boot, Kind.time, Kind.out, Kind.mace, Kind.ports, Kind.fabric,
          Kind.free];
      (∀ (straps : Fin 64) (hangs : Bool), changesOnly (Instr.resetRelease straps hangs) ks))
    ∧ (let ks : List Kind := Kind.events ++ [Kind.clk, Kind.power, Kind.time];
      (changesOnly Instr.loopEvaluate ks))
    ∧ (let ks : List Kind := Kind.events ++ [Kind.clk, Kind.timers, Kind.power, Kind.time];
      (∀ (watts : Nat) (vin : Nat), changesOnly (Instr.powerSample watts vin) ks))
    ∧ (let ks : List Kind := Kind.events ++ [Kind.clk, Kind.mem, Kind.time, Kind.tolvys, Kind.bulk, Kind.mboxes, Kind.links];
      (∀ (d : Fin 4), lossesOnly (Instr.mbTimeout d) ks))
    ∧ (let ks : List Kind := Kind.events ++ [Kind.mem, Kind.slots, Kind.ctrs, Kind.parts, Kind.seqs, Kind.regions, Kind.out, Kind.tolvys,
          Kind.stale, Kind.rowSlots, Kind.bulk, Kind.repairs, Kind.igs, Kind.csSets, Kind.screens, Kind.suspect, Kind.tiles,
          Kind.chainCur, Kind.profCur, Kind.qslots, Kind.xslots, Kind.links, Kind.fabric, Kind.peps, Kind.pepCur, Kind.done];
      (∀ (n : Nat) (answers : List (Option (List Byte))), lossesOnly (Instr.repairDone n answers) ks))
    ∧ (let ks : List Kind := Kind.events ++ [Kind.clk, Kind.mem, Kind.time, Kind.slots, Kind.ctrs, Kind.parts, Kind.seqs, Kind.regions,
          Kind.out, Kind.tolvys, Kind.rowSlots, Kind.bulk, Kind.igs, Kind.csSets, Kind.screens, Kind.retired, Kind.suspect, Kind.tiles,
          Kind.chainCur, Kind.profCur, Kind.qslots, Kind.xslots, Kind.links, Kind.fabric, Kind.peps, Kind.pepCur, Kind.done];
      (∀ (k : Fin 16) (results : List Byte) (expected : List Byte) (last : Bool),
          lossesOnly (Instr.maceTestDone k results expected last) ks))
    ∧ (let ks : List Kind := Kind.events ++ [Kind.clk, Kind.mem, Kind.timers, Kind.time, Kind.slots, Kind.ctrs, Kind.parts, Kind.seqs,
          Kind.regions, Kind.out, Kind.tolvys, Kind.rowSlots, Kind.bulk, Kind.repairs, Kind.igs, Kind.csSets, Kind.screens, Kind.digests,
          Kind.suspect, Kind.tiles, Kind.chainCur, Kind.profCur, Kind.qslots, Kind.xslots, Kind.links, Kind.fabric, Kind.peps,
          Kind.pepCur, Kind.done];
      (∀ (r : Fin 64), lossesOnly (Instr.digestUnitDone r) ks))
    ∧ (let ks : List Kind := Kind.events ++ [Kind.mem, Kind.slots, Kind.ctrs, Kind.parts, Kind.seqs, Kind.regions, Kind.out, Kind.tolvys,
          Kind.stale, Kind.windows, Kind.wfOn, Kind.rowSlots, Kind.bulk, Kind.igs, Kind.csSets, Kind.screens, Kind.retired, Kind.suspect,
          Kind.tiles, Kind.chainCur, Kind.profCur, Kind.qslots, Kind.xslots, Kind.links, Kind.ports, Kind.fabric, Kind.peps, Kind.pepCur,
          Kind.done];
      (∀ (lanes : List (Fin 12 × Fin 128 × List Nat)) (bulkBad : Option Nat) (slices : BitVec 16),
          lossesOnly (Instr.bootStepDone lanes bulkBad slices) ks))
    ∧ (∀ s u : State, u.onlyChanges lossKinds (u.afterLoss s)
        ∧ (u.boot.phase = s.boot.phase → u.bulk.mode = s.bulk.mode → u.afterLoss s = u))
end

