-- ==== Sys2Proof/Laws/Tab.lean ====
section
/-! SUPPORT. Sparse tables and the byte memory: a read after a write, other entries kept, the canonical form kept. -/

namespace Sys2Proof.Machine

/-! ### Tables -/

theorem lookupD_insertKey_self {α : Type} (d : α) (k : Nat) (v : α) (l : List (Nat × α)) :
    lookupD d k (insertKey k v l) = v := by
  induction l with
  | nil => simp [insertKey, lookupD]
  | cons e l ih =>
    obtain ⟨j, w⟩ := e
    simp only [insertKey]
    split
    · simp [lookupD]
    · split
      · simp [lookupD]
      · rename_i h1 h2
        have : j ≠ k := fun h => h2 h.symm
        simp [lookupD, this, ih]

theorem lookupD_insertKey_ne {α : Type} (d : α) {k n : Nat} (h : n ≠ k) (v : α) (l : List (Nat × α)) :
    lookupD d n (insertKey k v l) = lookupD d n l := by
  induction l with
  | nil => simp [insertKey, lookupD, h.symm]
  | cons e l ih =>
    obtain ⟨j, w⟩ := e
    simp only [insertKey]
    split
    · simp [lookupD, h.symm]
    · split
      · rename_i h1 h2
        subst h2
        simp [lookupD, h.symm]
      · simp [lookupD, ih]

/-- The entry just written is the one read. -/
@[simp] theorem Tab.get_put_self {α : Type} (t : Tab α) (d : α) (k : Nat) (v : α) : (t.put k v).get d k = v :=
  lookupD_insertKey_self d k v t.items

/-- A write of another entry leaves an entry alone. -/
theorem Tab.get_put_ne {α : Type} (t : Tab α) (d : α) {k n : Nat} (h : n ≠ k) (v : α) : (t.put k v).get d n = t.get d n :=
  lookupD_insertKey_ne d h v t.items

/-- A read after a write of any entry. -/
theorem Tab.get_put {α : Type} (t : Tab α) (d : α) (k n : Nat) (v : α) :
    (t.put k v).get d n = if n = k then v else t.get d n := by
  by_cases h : n = k
  · subst h; simp
  · simp [h, Tab.get_put_ne t d h v]

/-- An empty table reads its default. -/
@[simp] theorem Tab.get_empty {α : Type} (d : α) (k : Nat) : (({} : Tab α)).get d k = d := rfl

/-- Writing the same entry twice keeps the last value. -/
theorem insertKey_twice {α : Type} (k : Nat) (v w : α) (l : List (Nat × α)) :
    insertKey k w (insertKey k v l) = insertKey k w l := by
  induction l with
  | nil => simp [insertKey]
  | cons e l ih =>
    obtain ⟨j, x⟩ := e
    simp only [insertKey]
    split
    · simp [insertKey]
    · split
      · simp [insertKey]
      · rename_i h1 h2
        simp [insertKey, h1, h2, ih]

@[simp] theorem Tab.put_put {α : Type} (t : Tab α) (k : Nat) (v w : α) : (t.put k v).put k w = t.put k w := by
  simp [Tab.put, insertKey_twice]

/-! ### The byte memory -/

namespace Mem

/-- A memory's keys all lie above a bound. -/
def above (b : Nat) (m : List Host.Cell) : Prop := ∀ c ∈ m, b < c.1

/-- The canonical form, as a rising list of listed bytes. -/
theorem wf_iff (m : List Host.Cell) :
    wf m = true ↔ m.Pairwise (fun a b => a.1 < b.1) ∧ ∀ c ∈ m, c.2 ≠ memDefault c.1 := by
  induction m with
  | nil => simp [wf]
  | cons c l ih =>
    cases l with
    | nil => simp [wf]
    | cons d l =>
      simp only [wf, Bool.and_eq_true, bne_iff_ne, decide_eq_true_eq, ih, List.pairwise_cons, List.mem_cons, forall_eq_or_imp]
      constructor
      · rintro ⟨⟨h1, h2⟩, ⟨h3, h4⟩, h5, h6⟩
        refine ⟨⟨⟨h2, fun a ha => lt_trans h2 (h3 a ha)⟩, h3, h4⟩, h1, h5, h6⟩
      · rintro ⟨⟨⟨h1, h2⟩, h3, h4⟩, h5, h6, h7⟩
        exact ⟨⟨h5, h1⟩, ⟨h3, h4⟩, h6, h7⟩

theorem put_mem {k : Nat} {v : Byte} {m : List Host.Cell} {c : Host.Cell} (h : c ∈ put k v m) :
    c ∈ m ∨ c = (k, v) := by
  induction m with
  | nil => simp only [put] at h; split at h <;> simp_all
  | cons e l ih =>
    obtain ⟨j, w⟩ := e
    simp only [put] at h
    split at h
    · split at h
      · exact .inl h
      · simp only [List.mem_cons] at h ⊢; tauto
    · split at h
      · split at h
        · exact .inl (List.mem_cons_of_mem _ h)
        · simp only [List.mem_cons] at h ⊢; tauto
      · simp only [List.mem_cons] at h ⊢
        rcases h with h | h
        · exact .inl (.inl h)
        · rcases ih h with h | h
          · exact .inl (.inr h)
          · exact .inr h

/-- A byte written keeps the canonical form. -/
theorem put_wf (k : Nat) (v : Byte) (m : List Host.Cell) (h : wf m = true) : wf (put k v m) = true := by
  rw [wf_iff] at h ⊢
  obtain ⟨hp, hd⟩ := h
  induction m with
  | nil => simp only [put]; split <;> simp_all
  | cons e l ih =>
    obtain ⟨j, w⟩ := e
    simp only [List.pairwise_cons, List.mem_cons, forall_eq_or_imp] at hp hd
    obtain ⟨hp1, hp2⟩ := hp
    obtain ⟨hd1, hd2⟩ := hd
    simp only [put]
    split
    · rename_i hk
      split
      · simp only [List.pairwise_cons, List.mem_cons, forall_eq_or_imp]; exact ⟨⟨hp1, hp2⟩, hd1, hd2⟩
      · rename_i hv
        simp only [List.pairwise_cons, List.mem_cons, forall_eq_or_imp]
        exact ⟨⟨⟨hk, fun a ha => lt_trans hk (hp1 a ha)⟩, hp1, hp2⟩, hv, hd1, hd2⟩
    · split
      · rename_i h1 h2
        subst h2
        split
        · exact ⟨hp2, hd2⟩
        · rename_i hv
          simp only [List.pairwise_cons, List.mem_cons, forall_eq_or_imp]
          exact ⟨⟨hp1, hp2⟩, hv, hd2⟩
      · rename_i h1 h2
        obtain ⟨i1, i2⟩ := ih hp2 hd2
        simp only [List.pairwise_cons, List.mem_cons, forall_eq_or_imp]
        refine ⟨⟨fun a ha => ?_, i1⟩, hd1, i2⟩
        rcases put_mem ha with ha | ha
        · exact hp1 a ha
        · subst ha; omega

/-- Bytes written keep the canonical form. -/
theorem putN_wf (k : Nat) (bs : List Byte) (m : List Host.Cell) (h : wf m = true) : wf (putN k bs m) = true := by
  induction bs generalizing k m with
  | nil => exact h
  | cons b bs ih => exact ih _ _ (put_wf k b m h)

/-- A memory with some of its bytes back at their default keeps the canonical form. -/
theorem filter_wf (p : Host.Cell → Bool) (m : List Host.Cell) (h : wf m = true) : wf (m.filter p) = true := by
  rw [wf_iff] at h ⊢
  exact ⟨h.1.filter p, fun c hc => h.2 c (List.mem_filter.1 hc).1⟩

theorem clear_wf (k n : Nat) (m : List Host.Cell) (h : wf m = true) : wf (clear k n m) = true := filter_wf _ m h

theorem copy_wf (src dst n : Nat) (m : List Host.Cell) (h : wf m = true) : wf (copy src dst n m) = true := by
  unfold copy
  suffices ∀ (l : List Host.Cell) (a : List Host.Cell), wf a = true →
      wf (l.foldl (fun acc c => put (dst + (c.1 - src)) c.2 acc) a) = true from this _ _ (clear_wf _ _ _ h)
  intro l
  induction l with
  | nil => exact fun a ha => ha
  | cons c l ih => exact fun a ha => ih _ (put_wf _ _ _ ha)

theorem get_above {k : Nat} {m : List Host.Cell} (h : ∀ c ∈ m, k < c.1) : get k m = memDefault k := by
  induction m with
  | nil => rfl
  | cons e l ih =>
    obtain ⟨j, w⟩ := e
    have hj : j ≠ k := by have := h (j, w) (by simp); simp at this; omega
    simp only [get, hj, if_false]
    exact ih fun c hc => h c (List.mem_cons_of_mem _ hc)

/-- The byte just written is the one read. -/
theorem get_put_self (k : Nat) (v : Byte) (m : List Host.Cell) (h : wf m = true) : get k (put k v m) = v := by
  rw [wf_iff] at h
  obtain ⟨hp, -⟩ := h
  induction m with
  | nil => simp only [put]; split <;> simp_all [get]
  | cons e l ih =>
    obtain ⟨j, w⟩ := e
    simp only [List.pairwise_cons] at hp
    simp only [put]
    split
    · rename_i hk
      split
      · rename_i hv
        rw [hv]
        refine get_above fun c hc => ?_
        rcases List.mem_cons.1 hc with rfl | hc
        · exact hk
        · exact lt_trans hk (hp.1 c hc)
      · simp [get]
    · split
      · rename_i h1 h2
        subst h2
        split
        · rename_i hv
          rw [hv]
          exact get_above fun c hc => hp.1 c hc
        · simp [get]
      · rename_i h1 h2
        have : j ≠ k := fun h => h2 h.symm
        simp only [get, this, if_false]
        exact ih hp.2

/-- A write leaves every other byte alone. -/
theorem get_put_ne {k n : Nat} (hn : n ≠ k) (v : Byte) (m : List Host.Cell) (h : wf m = true) :
    get n (put k v m) = get n m := by
  rw [wf_iff] at h
  obtain ⟨hp, -⟩ := h
  induction m with
  | nil => simp only [put]; split <;> simp [get, hn.symm]
  | cons e l ih =>
    obtain ⟨j, w⟩ := e
    simp only [List.pairwise_cons] at hp
    simp only [put]
    split
    · split
      · rfl
      · simp [get, hn.symm]
    · split
      · rename_i h1 h2
        subst h2
        split
        · simp [get, hn.symm]
        · simp [get, hn.symm]
      · simp only [get, ih hp.2]

/-- Bytes stored leave every byte outside them alone. -/
theorem get_putN_ne {k n : Nat} (bs : List Byte) (m : List Host.Cell) (h : wf m = true) (hn : n < k ∨ k + bs.length ≤ n) :
    get n (putN k bs m) = get n m := by
  induction bs generalizing k m with
  | nil => rfl
  | cons b bs ih =>
    simp only [List.length_cons] at hn
    rw [putN, ih _ (put_wf k b m h) (by omega), get_put_ne (by omega) b m h]

/-- The bytes just stored are the ones read. -/
theorem getN_putN (k : Nat) (bs : List Byte) (m : List Host.Cell) (h : wf m = true) :
    getN k bs.length (putN k bs m) = bs := by
  induction bs generalizing k m with
  | nil => rfl
  | cons b bs ih =>
    have h1 : get k (putN k (b :: bs) m) = b := by
      rw [putN, get_putN_ne bs _ (put_wf k b m h) (by omega), get_put_self k b m h]
    have h2 := ih (k + 1) (put k b m) (put_wf k b m h)
    simp only [getN, List.length_cons, List.range_succ_eq_map, List.map_cons, List.map_map] at h2 ⊢
    rw [Nat.add_zero, h1]
    congr 1
    refine Eq.trans (List.map_congr_left fun i _ => ?_) h2
    simp [putN, Nat.add_assoc, Nat.add_comm 1 i]

/-- A range cleared reads its default. -/
theorem get_clear_in {k n a : Nat} (m : List Host.Cell) (h1 : k ≤ a) (h2 : a < k + n) : get a (clear k n m) = memDefault a := by
  induction m with
  | nil => rfl
  | cons e l ih =>
    obtain ⟨j, w⟩ := e
    simp only [clear, List.filter_cons] at ih ⊢
    split
    · rename_i hc
      have hj : j ≠ a := by
        simp only [Bool.or_eq_true, decide_eq_true_eq] at hc; omega
      simp [get, hj, ih]
    · exact ih

/-- A range cleared leaves every other byte alone. -/
theorem get_clear_out {k n a : Nat} (m : List Host.Cell) (h : a < k ∨ k + n ≤ a) : get a (clear k n m) = get a m := by
  induction m with
  | nil => rfl
  | cons e l ih =>
    obtain ⟨j, w⟩ := e
    simp only [clear, List.filter_cons] at ih ⊢
    split
    · simp [get, ih]
    · rename_i hc
      have hj : j ≠ a := by
        simp only [Bool.or_eq_true, decide_eq_true_eq] at hc; omega
      simp [get, hj, ih]

end Mem

end Sys2Proof.Machine
end

