-- ==== Sys2Proof/Laws/Frame.lean ====
section
/-! SUPPORT. How an operation is shown to change only some kinds of state: kinds numbered by their place in `Kind`, a set of them as a
mask, and the rules by which the masks of an operation's parts make up its own. -/

namespace Sys2Proof.Machine

/-- The place of a kind of state. -/
def Kind.ix : Kind → Nat
  | .clk => 0
  | .regs => 1
  | .staged => 2
  | .mem => 3
  | .timers => 4
  | .ident => 5
  | .boot => 6
  | .power => 7
  | .time => 8
  | .slots => 9
  | .schedLo => 10
  | .schedHi => 11
  | .ctrs => 12
  | .parts => 13
  | .doms => 14
  | .seqs => 15
  | .regions => 16
  | .idleUntil => 17
  | .evq => 18
  | .evLost => 19
  | .log => 20
  | .logNext => 21
  | .out => 22
  | .tolvys => 23
  | .stale => 24
  | .windows => 25
  | .wfOn => 26
  | .rowSlots => 27
  | .bulk => 28
  | .repairs => 29
  | .igs => 30
  | .csSets => 31
  | .screens => 32
  | .mace => 33
  | .digests => 34
  | .mboxes => 35
  | .retired => 36
  | .suspect => 37
  | .tiles => 38
  | .arrFmt => 39
  | .tileTag => 40
  | .engFail => 41
  | .clove => 42
  | .chainCur => 43
  | .profCur => 44
  | .qslots => 45
  | .attCfg => 46
  | .attSeq => 47
  | .xslots => 48
  | .links => 49
  | .ports => 50
  | .nodeReqs => 51
  | .nodeTag => 52
  | .fabric => 53
  | .reqs => 54
  | .submitted => 55
  | .commands => 56
  | .svs => 57
  | .peps => 58
  | .pepCur => 59
  | .pageSeen => 60
  | .seqBad => 61
  | .done => 62
  | .rdata => 63
  | .free => 64
  | .pending => 65

/-- Nothing but the kinds of the mask differs, and what no command ever does is not done. -/
structure Does (m : Nat) (s t : State) : Prop where
  frame : ∀ k : Kind, m.testBit k.ix = false → k.agree s t
  grows : s.grows t

theorem Kind.agree_refl (k : Kind) (s : State) : k.agree s s := by cases k <;> rfl

theorem Kind.agree_trans {k : Kind} {s t u : State} (h : k.agree s t) (g : k.agree t u) : k.agree s u := by
  cases k <;> exact Eq.trans g h

theorem State.grows_refl (s : State) : s.grows s := ⟨rfl, id, List.prefix_rfl, le_refl _⟩

theorem State.grows_trans {s t u : State} (h : s.grows t) (g : t.grows u) : s.grows u :=
  ⟨g.queue.trans h.queue, fun x => g.memory (h.memory x), h.sent.trans g.sent, le_trans h.free g.free⟩

/-- Every kind of state. -/
def Kind.list : List Kind := [.clk, .regs, .staged, .mem, .timers, .ident, .boot, .power, .time, .slots, .schedLo, .schedHi, .ctrs, .parts, .doms, .seqs, .regions, .idleUntil, .evq, .evLost, .log, .logNext, .out, .tolvys, .stale, .windows, .wfOn, .rowSlots, .bulk, .repairs, .igs, .csSets, .screens, .mace, .digests, .mboxes, .retired, .suspect, .tiles, .arrFmt, .tileTag, .engFail, .clove, .chainCur, .profCur, .qslots, .attCfg, .attSeq, .xslots, .links, .ports, .nodeReqs, .nodeTag, .fabric, .reqs, .submitted, .commands, .svs, .peps, .pepCur, .pageSeen, .seqBad, .done, .rdata, .free, .pending]

theorem Kind.mem_list (k : Kind) : k ∈ Kind.list := by cases k <;> decide

/-- A mask that leaves out every kind but those listed gives the frame. -/
theorem onlyChanges_of {m : Nat} {s t : State} (h : Does m s t) {ks : List Kind}
    (hk : (Kind.list.all fun k => ks.contains k || !m.testBit k.ix) = true) : s.onlyChanges ks t := by
  intro k hn
  refine h.frame k ?_
  have := List.all_eq_true.1 hk k k.mem_list
  simpa [hn] using this

theorem Does.refl (m : Nat) (s : State) : Does m s s := ⟨fun k _ => k.agree_refl s, s.grows_refl⟩

theorem testBit_of_lor {c m i : Nat} (h : c ||| m = m) (hi : m.testBit i = false) : c.testBit i = false := by
  rw [← h, Nat.testBit_lor, Bool.or_eq_false_iff] at hi; exact hi.1

theorem lor_trans {a b c : Nat} (h : a ||| b = b) (g : b ||| c = c) : a ||| c = c := by
  rw [← g, ← Nat.or_assoc, h]

/-- An operation of a smaller mask after what has been done. -/
theorem Does.after {m c : Nat} {s t u : State} (h : Does m s t) (g : Does c t u) (hc : c ||| m = m) : Does m s u :=
  ⟨fun k hk => Kind.agree_trans (h.frame k hk) (g.frame k (testBit_of_lor hc hk)), State.grows_trans h.grows g.grows⟩

/-- A kind of state set: the queue is no kind that a command sets. -/
theorem Does.grow {m : Nat} {s t u : State} (h : Does m s t) (hf : ∀ k : Kind, m.testBit k.ix = false → k.agree t u)
    (hg : t.grows u) : Does m s u :=
  ⟨fun k hk => Kind.agree_trans (h.frame k hk) (hf k hk), State.grows_trans h.grows hg⟩

/-- The state of a pair that an operation answered. -/
theorem Does.of_fst {β : Type} {m : Nat} {s a : State} {b : β} {p : State × β} (he : p = (a, b)) (h : Does m s p.1) : Does m s a := by
  subst he; exact h

/-- The state an operation answered, where it answered one. -/
theorem Does.of_some {m : Nat} {s a : State} {p : Option State} (he : p = some a) (h : ∀ u, p = some u → Does m s u) : Does m s a :=
  h a he

theorem Does.of_some_fst {β : Type} {m : Nat} {s a : State} {b : β} {p : Option (State × β)} (he : p = some (a, b))
    (h : ∀ u, p = some u → Does m s u.1) : Does m s a := h _ he

theorem Does.ite {m : Nat} {s a b : State} {c : Prop} [Decidable c] (ha : Does m s a) (hb : Does m s b) :
    Does m s (if c then a else b) := by split <;> assumption

theorem Does.ite_fst {β : Type} {m : Nat} {s : State} {a b : State × β} {c : Prop} [Decidable c] (ha : Does m s a.1) (hb : Does m s b.1) :
    Does m s (if c then a else b).1 := by split <;> assumption

theorem Does.mk_fst {β : Type} {m : Nat} {s a : State} {b : β} (h : Does m s a) : Does m s (a, b).1 := h

theorem Does.foldl {α : Type} {m : Nat} {s t : State} {f : State → α → State} {l : List α}
    (hf : ∀ u x, Does m s u → Does m s (f u x)) (h : Does m s t) : Does m s (l.foldl f t) := by
  induction l generalizing t with
  | nil => exact h
  | cons x l ih => exact ih (hf t x h)

theorem Does.foldl_pair {α β : Type} {m : Nat} {s : State} {a : State × β} {f : State × β → α → State × β} {l : List α}
    (hf : ∀ u x, Does m s u.1 → Does m s (f u x).1) (h : Does m s a.1) : Does m s (l.foldl f a).1 := by
  induction l generalizing a with
  | nil => exact h
  | cons x l ih => exact ih (hf a x h)

theorem does_set_clk_boot_time {m : Nat} {s t : State} {v0 : Nat} {v6 : BootState} {v8 : TimeState} (hm : 321 ||| m = m) (h : Does m s t) :
    Does m s { t with clk := v0, boot := v6, time := v8 } :=
  h.grow (fun k hk => by
    have hk := testBit_of_lor hm hk
    cases k <;> first | rfl | exact absurd hk (by decide)) ⟨rfl, id, List.prefix_rfl, le_refl _⟩

theorem does_set_clk_time {m : Nat} {s t : State} {v0 : Nat} {v8 : TimeState} (hm : 257 ||| m = m) (h : Does m s t) :
    Does m s { t with clk := v0, time := v8 } :=
  h.grow (fun k hk => by
    have hk := testBit_of_lor hm hk
    cases k <;> first | rfl | exact absurd hk (by decide)) ⟨rfl, id, List.prefix_rfl, le_refl _⟩

theorem does_set_regs {m : Nat} {s t : State} {v1 : Tab HReg} (hm : 2 ||| m = m) (h : Does m s t) :
    Does m s { t with regs := v1 } :=
  h.grow (fun k hk => by
    have hk := testBit_of_lor hm hk
    cases k <;> first | rfl | exact absurd hk (by decide)) ⟨rfl, id, List.prefix_rfl, le_refl _⟩

theorem does_set_staged {m : Nat} {s t : State} {v2 : Tab Word} (hm : 4 ||| m = m) (h : Does m s t) :
    Does m s { t with staged := v2 } :=
  h.grow (fun k hk => by
    have hk := testBit_of_lor hm hk
    cases k <;> first | rfl | exact absurd hk (by decide)) ⟨rfl, id, List.prefix_rfl, le_refl _⟩

theorem does_set_staged_seqs_regions_idleUntil_csSets_tiles_arrFmt_tileTag_engFail_clove_chainCur_profCur_qslots_attCfg_attSeq_pepCur_seqBad {m : Nat} {s t : State} {v2 : Tab Word} {v15 : Tab Seq} {v16 : Tab Region} {v17 : Tab Nat} {v31 : Tab (Option CsSet)} {v38 : Tab TileStat} {v39 : Tab ArrFmt} {v40 : Tab Bool} {v41 : Tab (Nat × Nat)} {v42 : Tab Nat} {v43 : Tab Nat} {v44 : Tab Nat} {v45 : Tab QSlot} {v46 : Tab (List Byte)} {v47 : Tab Nat} {v59 : Tab Nat} {v61 : List (Nat × Nat × Status)} (hm : 2882584963763634180 ||| m = m) (h : Does m s t) :
    Does m s { t with staged := v2, seqs := v15, regions := v16, idleUntil := v17, csSets := v31, tiles := v38, arrFmt := v39, tileTag := v40, engFail := v41, clove := v42, chainCur := v43, profCur := v44, qslots := v45, attCfg := v46, attSeq := v47, pepCur := v59, seqBad := v61 } :=
  h.grow (fun k hk => by
    have hk := testBit_of_lor hm hk
    cases k <;> first | rfl | exact absurd hk (by decide)) ⟨rfl, id, List.prefix_rfl, le_refl _⟩

theorem does_set_timers {m : Nat} {s t : State} {v4 : Tab Nat} (hm : 16 ||| m = m) (h : Does m s t) :
    Does m s { t with timers := v4 } :=
  h.grow (fun k hk => by
    have hk := testBit_of_lor hm hk
    cases k <;> first | rfl | exact absurd hk (by decide)) ⟨rfl, id, List.prefix_rfl, le_refl _⟩

theorem does_set_ident {m : Nat} {s t : State} {v5 : Ident} (hm : 32 ||| m = m) (h : Does m s t) :
    Does m s { t with ident := v5 } :=
  h.grow (fun k hk => by
    have hk := testBit_of_lor hm hk
    cases k <;> first | rfl | exact absurd hk (by decide)) ⟨rfl, id, List.prefix_rfl, le_refl _⟩

theorem does_set_ident_mace {m : Nat} {s t : State} {v5 : Ident} {v33 : MaceState} (hm : 8589934624 ||| m = m) (h : Does m s t) :
    Does m s { t with ident := v5, mace := v33 } :=
  h.grow (fun k hk => by
    have hk := testBit_of_lor hm hk
    cases k <;> first | rfl | exact absurd hk (by decide)) ⟨rfl, id, List.prefix_rfl, le_refl _⟩

theorem does_set_boot {m : Nat} {s t : State} {v6 : BootState} (hm : 64 ||| m = m) (h : Does m s t) :
    Does m s { t with boot := v6 } :=
  h.grow (fun k hk => by
    have hk := testBit_of_lor hm hk
    cases k <;> first | rfl | exact absurd hk (by decide)) ⟨rfl, id, List.prefix_rfl, le_refl _⟩

theorem does_set_boot_log_logNext {m : Nat} {s t : State} {v6 : BootState} {v20 : List LogEntry} {v21 : Tab Nat} (hm : 3145792 ||| m = m) (h : Does m s t) :
    Does m s { t with boot := v6, log := v20, logNext := v21 } :=
  h.grow (fun k hk => by
    have hk := testBit_of_lor hm hk
    cases k <;> first | rfl | exact absurd hk (by decide)) ⟨rfl, id, List.prefix_rfl, le_refl _⟩

theorem does_set_power {m : Nat} {s t : State} {v7 : PowerState} (hm : 128 ||| m = m) (h : Does m s t) :
    Does m s { t with power := v7 } :=
  h.grow (fun k hk => by
    have hk := testBit_of_lor hm hk
    cases k <;> first | rfl | exact absurd hk (by decide)) ⟨rfl, id, List.prefix_rfl, le_refl _⟩

theorem does_set_time {m : Nat} {s t : State} {v8 : TimeState} (hm : 256 ||| m = m) (h : Does m s t) :
    Does m s { t with time := v8 } :=
  h.grow (fun k hk => by
    have hk := testBit_of_lor hm hk
    cases k <;> first | rfl | exact absurd hk (by decide)) ⟨rfl, id, List.prefix_rfl, le_refl _⟩

theorem does_set_slots {m : Nat} {s t : State} {v9 : Tab Slot} (hm : 512 ||| m = m) (h : Does m s t) :
    Does m s { t with slots := v9 } :=
  h.grow (fun k hk => by
    have hk := testBit_of_lor hm hk
    cases k <;> first | rfl | exact absurd hk (by decide)) ⟨rfl, id, List.prefix_rfl, le_refl _⟩

theorem does_set_schedLo_schedHi {m : Nat} {s t : State} {v10 : Tab Word} {v11 : Tab Word} (hm : 3072 ||| m = m) (h : Does m s t) :
    Does m s { t with schedLo := v10, schedHi := v11 } :=
  h.grow (fun k hk => by
    have hk := testBit_of_lor hm hk
    cases k <;> first | rfl | exact absurd hk (by decide)) ⟨rfl, id, List.prefix_rfl, le_refl _⟩

theorem does_set_schedLo_schedHi_ctrs_igs_svs_peps {m : Nat} {s t : State} {v10 : Tab Word} {v11 : Tab Word} {v12 : Tab Nat} {v30 : Tab IgPart} {v57 : Tab SvPart} {v58 : Tab PepPart} (hm : 432345565301316608 ||| m = m) (h : Does m s t) :
    Does m s { t with schedLo := v10, schedHi := v11, ctrs := v12, igs := v30, svs := v57, peps := v58 } :=
  h.grow (fun k hk => by
    have hk := testBit_of_lor hm hk
    cases k <;> first | rfl | exact absurd hk (by decide)) ⟨rfl, id, List.prefix_rfl, le_refl _⟩

theorem does_set_ctrs {m : Nat} {s t : State} {v12 : Tab Nat} (hm : 4096 ||| m = m) (h : Does m s t) :
    Does m s { t with ctrs := v12 } :=
  h.grow (fun k hk => by
    have hk := testBit_of_lor hm hk
    cases k <;> first | rfl | exact absurd hk (by decide)) ⟨rfl, id, List.prefix_rfl, le_refl _⟩

theorem does_set_parts {m : Nat} {s t : State} {v13 : Tab Part} (hm : 8192 ||| m = m) (h : Does m s t) :
    Does m s { t with parts := v13 } :=
  h.grow (fun k hk => by
    have hk := testBit_of_lor hm hk
    cases k <;> first | rfl | exact absurd hk (by decide)) ⟨rfl, id, List.prefix_rfl, le_refl _⟩

theorem does_set_doms {m : Nat} {s t : State} {v14 : Tab Dom} (hm : 16384 ||| m = m) (h : Does m s t) :
    Does m s { t with doms := v14 } :=
  h.grow (fun k hk => by
    have hk := testBit_of_lor hm hk
    cases k <;> first | rfl | exact absurd hk (by decide)) ⟨rfl, id, List.prefix_rfl, le_refl _⟩

theorem does_set_seqs {m : Nat} {s t : State} {v15 : Tab Seq} (hm : 32768 ||| m = m) (h : Does m s t) :
    Does m s { t with seqs := v15 } :=
  h.grow (fun k hk => by
    have hk := testBit_of_lor hm hk
    cases k <;> first | rfl | exact absurd hk (by decide)) ⟨rfl, id, List.prefix_rfl, le_refl _⟩

theorem does_set_regions {m : Nat} {s t : State} {v16 : Tab Region} (hm : 65536 ||| m = m) (h : Does m s t) :
    Does m s { t with regions := v16 } :=
  h.grow (fun k hk => by
    have hk := testBit_of_lor hm hk
    cases k <;> first | rfl | exact absurd hk (by decide)) ⟨rfl, id, List.prefix_rfl, le_refl _⟩

theorem does_set_idleUntil {m : Nat} {s t : State} {v17 : Tab Nat} (hm : 131072 ||| m = m) (h : Does m s t) :
    Does m s { t with idleUntil := v17 } :=
  h.grow (fun k hk => by
    have hk := testBit_of_lor hm hk
    cases k <;> first | rfl | exact absurd hk (by decide)) ⟨rfl, id, List.prefix_rfl, le_refl _⟩

theorem does_set_evq {m : Nat} {s t : State} {v18 : Tab (List EventRec)} (hm : 262144 ||| m = m) (h : Does m s t) :
    Does m s { t with evq := v18 } :=
  h.grow (fun k hk => by
    have hk := testBit_of_lor hm hk
    cases k <;> first | rfl | exact absurd hk (by decide)) ⟨rfl, id, List.prefix_rfl, le_refl _⟩

theorem does_set_evq_evLost {m : Nat} {s t : State} {v18 : Tab (List EventRec)} {v19 : Tab Nat} (hm : 786432 ||| m = m) (h : Does m s t) :
    Does m s { t with evq := v18, evLost := v19 } :=
  h.grow (fun k hk => by
    have hk := testBit_of_lor hm hk
    cases k <;> first | rfl | exact absurd hk (by decide)) ⟨rfl, id, List.prefix_rfl, le_refl _⟩

theorem does_set_evLost {m : Nat} {s t : State} {v19 : Tab Nat} (hm : 524288 ||| m = m) (h : Does m s t) :
    Does m s { t with evLost := v19 } :=
  h.grow (fun k hk => by
    have hk := testBit_of_lor hm hk
    cases k <;> first | rfl | exact absurd hk (by decide)) ⟨rfl, id, List.prefix_rfl, le_refl _⟩

theorem does_set_tolvys {m : Nat} {s t : State} {v23 : Tab Stack} (hm : 8388608 ||| m = m) (h : Does m s t) :
    Does m s { t with tolvys := v23 } :=
  h.grow (fun k hk => by
    have hk := testBit_of_lor hm hk
    cases k <;> first | rfl | exact absurd hk (by decide)) ⟨rfl, id, List.prefix_rfl, le_refl _⟩

theorem does_set_stale {m : Nat} {s t : State} {v24 : Tab StaleWin} (hm : 16777216 ||| m = m) (h : Does m s t) :
    Does m s { t with stale := v24 } :=
  h.grow (fun k hk => by
    have hk := testBit_of_lor hm hk
    cases k <;> first | rfl | exact absurd hk (by decide)) ⟨rfl, id, List.prefix_rfl, le_refl _⟩

theorem does_set_windows {m : Nat} {s t : State} {v25 : Tab Window} (hm : 33554432 ||| m = m) (h : Does m s t) :
    Does m s { t with windows := v25 } :=
  h.grow (fun k hk => by
    have hk := testBit_of_lor hm hk
    cases k <;> first | rfl | exact absurd hk (by decide)) ⟨rfl, id, List.prefix_rfl, le_refl _⟩

theorem does_set_windows_wfOn {m : Nat} {s t : State} {v25 : Tab Window} {v26 : Bool} (hm : 100663296 ||| m = m) (h : Does m s t) :
    Does m s { t with windows := v25, wfOn := v26 } :=
  h.grow (fun k hk => by
    have hk := testBit_of_lor hm hk
    cases k <;> first | rfl | exact absurd hk (by decide)) ⟨rfl, id, List.prefix_rfl, le_refl _⟩

theorem does_set_rowSlots {m : Nat} {s t : State} {v27 : Tab RowSlot} (hm : 134217728 ||| m = m) (h : Does m s t) :
    Does m s { t with rowSlots := v27 } :=
  h.grow (fun k hk => by
    have hk := testBit_of_lor hm hk
    cases k <;> first | rfl | exact absurd hk (by decide)) ⟨rfl, id, List.prefix_rfl, le_refl _⟩

theorem does_set_bulk {m : Nat} {s t : State} {v28 : Bulk} (hm : 268435456 ||| m = m) (h : Does m s t) :
    Does m s { t with bulk := v28 } :=
  h.grow (fun k hk => by
    have hk := testBit_of_lor hm hk
    cases k <;> first | rfl | exact absurd hk (by decide)) ⟨rfl, id, List.prefix_rfl, le_refl _⟩

theorem does_set_repairs {m : Nat} {s t : State} {v29 : List Repair} (hm : 536870912 ||| m = m) (h : Does m s t) :
    Does m s { t with repairs := v29 } :=
  h.grow (fun k hk => by
    have hk := testBit_of_lor hm hk
    cases k <;> first | rfl | exact absurd hk (by decide)) ⟨rfl, id, List.prefix_rfl, le_refl _⟩

theorem does_set_repairs_digests {m : Nat} {s t : State} {v29 : List Repair} {v34 : DigestState} (hm : 17716740096 ||| m = m) (h : Does m s t) :
    Does m s { t with repairs := v29, digests := v34 } :=
  h.grow (fun k hk => by
    have hk := testBit_of_lor hm hk
    cases k <;> first | rfl | exact absurd hk (by decide)) ⟨rfl, id, List.prefix_rfl, le_refl _⟩

theorem does_set_igs {m : Nat} {s t : State} {v30 : Tab IgPart} (hm : 1073741824 ||| m = m) (h : Does m s t) :
    Does m s { t with igs := v30 } :=
  h.grow (fun k hk => by
    have hk := testBit_of_lor hm hk
    cases k <;> first | rfl | exact absurd hk (by decide)) ⟨rfl, id, List.prefix_rfl, le_refl _⟩

theorem does_set_csSets {m : Nat} {s t : State} {v31 : Tab (Option CsSet)} (hm : 2147483648 ||| m = m) (h : Does m s t) :
    Does m s { t with csSets := v31 } :=
  h.grow (fun k hk => by
    have hk := testBit_of_lor hm hk
    cases k <;> first | rfl | exact absurd hk (by decide)) ⟨rfl, id, List.prefix_rfl, le_refl _⟩

theorem does_set_screens {m : Nat} {s t : State} {v32 : Tab Screen} (hm : 4294967296 ||| m = m) (h : Does m s t) :
    Does m s { t with screens := v32 } :=
  h.grow (fun k hk => by
    have hk := testBit_of_lor hm hk
    cases k <;> first | rfl | exact absurd hk (by decide)) ⟨rfl, id, List.prefix_rfl, le_refl _⟩

theorem does_set_screens_suspect {m : Nat} {s t : State} {v32 : Tab Screen} {v37 : Nat} (hm : 141733920768 ||| m = m) (h : Does m s t) :
    Does m s { t with screens := v32, suspect := v37 } :=
  h.grow (fun k hk => by
    have hk := testBit_of_lor hm hk
    cases k <;> first | rfl | exact absurd hk (by decide)) ⟨rfl, id, List.prefix_rfl, le_refl _⟩

theorem does_set_mace {m : Nat} {s t : State} {v33 : MaceState} (hm : 8589934592 ||| m = m) (h : Does m s t) :
    Does m s { t with mace := v33 } :=
  h.grow (fun k hk => by
    have hk := testBit_of_lor hm hk
    cases k <;> first | rfl | exact absurd hk (by decide)) ⟨rfl, id, List.prefix_rfl, le_refl _⟩

theorem does_set_digests {m : Nat} {s t : State} {v34 : DigestState} (hm : 17179869184 ||| m = m) (h : Does m s t) :
    Does m s { t with digests := v34 } :=
  h.grow (fun k hk => by
    have hk := testBit_of_lor hm hk
    cases k <;> first | rfl | exact absurd hk (by decide)) ⟨rfl, id, List.prefix_rfl, le_refl _⟩

theorem does_set_mboxes {m : Nat} {s t : State} {v35 : Tab Mbox} (hm : 34359738368 ||| m = m) (h : Does m s t) :
    Does m s { t with mboxes := v35 } :=
  h.grow (fun k hk => by
    have hk := testBit_of_lor hm hk
    cases k <;> first | rfl | exact absurd hk (by decide)) ⟨rfl, id, List.prefix_rfl, le_refl _⟩

theorem does_set_retired_suspect {m : Nat} {s t : State} {v36 : Nat} {v37 : Nat} (hm : 206158430208 ||| m = m) (h : Does m s t) :
    Does m s { t with retired := v36, suspect := v37 } :=
  h.grow (fun k hk => by
    have hk := testBit_of_lor hm hk
    cases k <;> first | rfl | exact absurd hk (by decide)) ⟨rfl, id, List.prefix_rfl, le_refl _⟩

theorem does_set_tiles {m : Nat} {s t : State} {v38 : Tab TileStat} (hm : 274877906944 ||| m = m) (h : Does m s t) :
    Does m s { t with tiles := v38 } :=
  h.grow (fun k hk => by
    have hk := testBit_of_lor hm hk
    cases k <;> first | rfl | exact absurd hk (by decide)) ⟨rfl, id, List.prefix_rfl, le_refl _⟩

theorem does_set_arrFmt {m : Nat} {s t : State} {v39 : Tab ArrFmt} (hm : 549755813888 ||| m = m) (h : Does m s t) :
    Does m s { t with arrFmt := v39 } :=
  h.grow (fun k hk => by
    have hk := testBit_of_lor hm hk
    cases k <;> first | rfl | exact absurd hk (by decide)) ⟨rfl, id, List.prefix_rfl, le_refl _⟩

theorem does_set_tileTag {m : Nat} {s t : State} {v40 : Tab Bool} (hm : 1099511627776 ||| m = m) (h : Does m s t) :
    Does m s { t with tileTag := v40 } :=
  h.grow (fun k hk => by
    have hk := testBit_of_lor hm hk
    cases k <;> first | rfl | exact absurd hk (by decide)) ⟨rfl, id, List.prefix_rfl, le_refl _⟩

theorem does_set_engFail {m : Nat} {s t : State} {v41 : Tab (Nat × Nat)} (hm : 2199023255552 ||| m = m) (h : Does m s t) :
    Does m s { t with engFail := v41 } :=
  h.grow (fun k hk => by
    have hk := testBit_of_lor hm hk
    cases k <;> first | rfl | exact absurd hk (by decide)) ⟨rfl, id, List.prefix_rfl, le_refl _⟩

theorem does_set_clove {m : Nat} {s t : State} {v42 : Tab Nat} (hm : 4398046511104 ||| m = m) (h : Does m s t) :
    Does m s { t with clove := v42 } :=
  h.grow (fun k hk => by
    have hk := testBit_of_lor hm hk
    cases k <;> first | rfl | exact absurd hk (by decide)) ⟨rfl, id, List.prefix_rfl, le_refl _⟩

theorem does_set_chainCur {m : Nat} {s t : State} {v43 : Tab Nat} (hm : 8796093022208 ||| m = m) (h : Does m s t) :
    Does m s { t with chainCur := v43 } :=
  h.grow (fun k hk => by
    have hk := testBit_of_lor hm hk
    cases k <;> first | rfl | exact absurd hk (by decide)) ⟨rfl, id, List.prefix_rfl, le_refl _⟩

theorem does_set_profCur {m : Nat} {s t : State} {v44 : Tab Nat} (hm : 17592186044416 ||| m = m) (h : Does m s t) :
    Does m s { t with profCur := v44 } :=
  h.grow (fun k hk => by
    have hk := testBit_of_lor hm hk
    cases k <;> first | rfl | exact absurd hk (by decide)) ⟨rfl, id, List.prefix_rfl, le_refl _⟩

theorem does_set_qslots {m : Nat} {s t : State} {v45 : Tab QSlot} (hm : 35184372088832 ||| m = m) (h : Does m s t) :
    Does m s { t with qslots := v45 } :=
  h.grow (fun k hk => by
    have hk := testBit_of_lor hm hk
    cases k <;> first | rfl | exact absurd hk (by decide)) ⟨rfl, id, List.prefix_rfl, le_refl _⟩

theorem does_set_attCfg {m : Nat} {s t : State} {v46 : Tab (List Byte)} (hm : 70368744177664 ||| m = m) (h : Does m s t) :
    Does m s { t with attCfg := v46 } :=
  h.grow (fun k hk => by
    have hk := testBit_of_lor hm hk
    cases k <;> first | rfl | exact absurd hk (by decide)) ⟨rfl, id, List.prefix_rfl, le_refl _⟩

theorem does_set_attSeq {m : Nat} {s t : State} {v47 : Tab Nat} (hm : 140737488355328 ||| m = m) (h : Does m s t) :
    Does m s { t with attSeq := v47 } :=
  h.grow (fun k hk => by
    have hk := testBit_of_lor hm hk
    cases k <;> first | rfl | exact absurd hk (by decide)) ⟨rfl, id, List.prefix_rfl, le_refl _⟩

theorem does_set_xslots {m : Nat} {s t : State} {v48 : Tab XSlot} (hm : 281474976710656 ||| m = m) (h : Does m s t) :
    Does m s { t with xslots := v48 } :=
  h.grow (fun k hk => by
    have hk := testBit_of_lor hm hk
    cases k <;> first | rfl | exact absurd hk (by decide)) ⟨rfl, id, List.prefix_rfl, le_refl _⟩

theorem does_set_links {m : Nat} {s t : State} {v49 : Tab Link} (hm : 562949953421312 ||| m = m) (h : Does m s t) :
    Does m s { t with links := v49 } :=
  h.grow (fun k hk => by
    have hk := testBit_of_lor hm hk
    cases k <;> first | rfl | exact absurd hk (by decide)) ⟨rfl, id, List.prefix_rfl, le_refl _⟩

theorem does_set_ports {m : Nat} {s t : State} {v50 : Tab Port} (hm : 1125899906842624 ||| m = m) (h : Does m s t) :
    Does m s { t with ports := v50 } :=
  h.grow (fun k hk => by
    have hk := testBit_of_lor hm hk
    cases k <;> first | rfl | exact absurd hk (by decide)) ⟨rfl, id, List.prefix_rfl, le_refl _⟩

theorem does_set_nodeReqs {m : Nat} {s t : State} {v51 : List NodeReq} (hm : 2251799813685248 ||| m = m) (h : Does m s t) :
    Does m s { t with nodeReqs := v51 } :=
  h.grow (fun k hk => by
    have hk := testBit_of_lor hm hk
    cases k <;> first | rfl | exact absurd hk (by decide)) ⟨rfl, id, List.prefix_rfl, le_refl _⟩

theorem does_set_nodeReqs_nodeTag {m : Nat} {s t : State} {v51 : List NodeReq} {v52 : Nat} (hm : 6755399441055744 ||| m = m) (h : Does m s t) :
    Does m s { t with nodeReqs := v51, nodeTag := v52 } :=
  h.grow (fun k hk => by
    have hk := testBit_of_lor hm hk
    cases k <;> first | rfl | exact absurd hk (by decide)) ⟨rfl, id, List.prefix_rfl, le_refl _⟩

theorem does_set_fabric {m : Nat} {s t : State} {v53 : Fabric} (hm : 9007199254740992 ||| m = m) (h : Does m s t) :
    Does m s { t with fabric := v53 } :=
  h.grow (fun k hk => by
    have hk := testBit_of_lor hm hk
    cases k <;> first | rfl | exact absurd hk (by decide)) ⟨rfl, id, List.prefix_rfl, le_refl _⟩

theorem does_set_reqs {m : Nat} {s t : State} {v54 : Tab ReqEntry} (hm : 18014398509481984 ||| m = m) (h : Does m s t) :
    Does m s { t with reqs := v54 } :=
  h.grow (fun k hk => by
    have hk := testBit_of_lor hm hk
    cases k <;> first | rfl | exact absurd hk (by decide)) ⟨rfl, id, List.prefix_rfl, le_refl _⟩

theorem does_set_submitted {m : Nat} {s t : State} {v55 : Nat} (hm : 36028797018963968 ||| m = m) (h : Does m s t) :
    Does m s { t with submitted := v55 } :=
  h.grow (fun k hk => by
    have hk := testBit_of_lor hm hk
    cases k <;> first | rfl | exact absurd hk (by decide)) ⟨rfl, id, List.prefix_rfl, le_refl _⟩

theorem does_set_commands {m : Nat} {s t : State} {v56 : Tab Nat} (hm : 72057594037927936 ||| m = m) (h : Does m s t) :
    Does m s { t with commands := v56 } :=
  h.grow (fun k hk => by
    have hk := testBit_of_lor hm hk
    cases k <;> first | rfl | exact absurd hk (by decide)) ⟨rfl, id, List.prefix_rfl, le_refl _⟩

theorem does_set_svs {m : Nat} {s t : State} {v57 : Tab SvPart} (hm : 144115188075855872 ||| m = m) (h : Does m s t) :
    Does m s { t with svs := v57 } :=
  h.grow (fun k hk => by
    have hk := testBit_of_lor hm hk
    cases k <;> first | rfl | exact absurd hk (by decide)) ⟨rfl, id, List.prefix_rfl, le_refl _⟩

theorem does_set_peps {m : Nat} {s t : State} {v58 : Tab PepPart} (hm : 288230376151711744 ||| m = m) (h : Does m s t) :
    Does m s { t with peps := v58 } :=
  h.grow (fun k hk => by
    have hk := testBit_of_lor hm hk
    cases k <;> first | rfl | exact absurd hk (by decide)) ⟨rfl, id, List.prefix_rfl, le_refl _⟩

theorem does_set_pepCur {m : Nat} {s t : State} {v59 : Tab Nat} (hm : 576460752303423488 ||| m = m) (h : Does m s t) :
    Does m s { t with pepCur := v59 } :=
  h.grow (fun k hk => by
    have hk := testBit_of_lor hm hk
    cases k <;> first | rfl | exact absurd hk (by decide)) ⟨rfl, id, List.prefix_rfl, le_refl _⟩

theorem does_set_pageSeen {m : Nat} {s t : State} {v60 : Tab Nat} (hm : 1152921504606846976 ||| m = m) (h : Does m s t) :
    Does m s { t with pageSeen := v60 } :=
  h.grow (fun k hk => by
    have hk := testBit_of_lor hm hk
    cases k <;> first | rfl | exact absurd hk (by decide)) ⟨rfl, id, List.prefix_rfl, le_refl _⟩

theorem does_set_seqBad {m : Nat} {s t : State} {v61 : List (Nat × Nat × Status)} (hm : 2305843009213693952 ||| m = m) (h : Does m s t) :
    Does m s { t with seqBad := v61 } :=
  h.grow (fun k hk => by
    have hk := testBit_of_lor hm hk
    cases k <;> first | rfl | exact absurd hk (by decide)) ⟨rfl, id, List.prefix_rfl, le_refl _⟩

theorem does_set_done {m : Nat} {s t : State} {v62 : Status} (hm : 4611686018427387904 ||| m = m) (h : Does m s t) :
    Does m s { t with done := v62 } :=
  h.grow (fun k hk => by
    have hk := testBit_of_lor hm hk
    cases k <;> first | rfl | exact absurd hk (by decide)) ⟨rfl, id, List.prefix_rfl, le_refl _⟩

theorem does_set_done_rdata {m : Nat} {s t : State} {v62 : Status} {v63 : Word} (hm : 13835058055282163712 ||| m = m) (h : Does m s t) :
    Does m s { t with done := v62, rdata := v63 } :=
  h.grow (fun k hk => by
    have hk := testBit_of_lor hm hk
    cases k <;> first | rfl | exact absurd hk (by decide)) ⟨rfl, id, List.prefix_rfl, le_refl _⟩

theorem does_wrMem {m : Nat} {s t : State} {sp : Space} {o : Nat} {bs : List Byte} (hm : 8 ||| m = m) (h : Does m s t) :
    Does m s (t.wrMem sp o bs) :=
  h.after (c := 8) ⟨fun k hk => by cases k <;> first | rfl | exact absurd hk (by decide),
    ⟨rfl, fun x => Mem.putN_wf _ _ _ x, List.prefix_rfl, le_refl _⟩⟩ hm

theorem does_clrMem {m : Nat} {s t : State} {sp : Space} {o n : Nat} (hm : 8 ||| m = m) (h : Does m s t) :
    Does m s (t.clrMem sp o n) :=
  h.after (c := 8) ⟨fun k hk => by cases k <;> first | rfl | exact absurd hk (by decide),
    ⟨rfl, fun x => Mem.clear_wf _ _ _ x, List.prefix_rfl, le_refl _⟩⟩ hm

theorem does_emit {m : Nat} {s t : State} {o : Out} (hm : 4194304 ||| m = m) (h : Does m s t) : Does m s (t.emit o) :=
  h.after (c := 4194304) ⟨fun k hk => by cases k <;> first | rfl | exact absurd hk (by decide),
    ⟨rfl, id, List.prefix_append _ _, le_refl _⟩⟩ hm

theorem does_useFree {m : Nat} {s t : State} (hm : 18446744073709551616 ||| m = m) (h : Does m s t) : Does m s t.useFree :=
  h.after (c := 18446744073709551616) ⟨fun k hk => by cases k <;> first | rfl | exact absurd hk (by decide),
    ⟨rfl, id, List.prefix_rfl, Nat.le_succ _⟩⟩ hm

end Sys2Proof.Machine
end

