-- ==== Sys2Proof/Laws/FrameOps.lean ====
section
/-! SUPPORT. What the operations of Ops change: the mask of the kinds of state each may touch. -/

namespace Sys2Proof.Machine

theorem does_modSeq {m : Nat} {s t : State} {x1 : Nat} {x2 : Seq → Seq} (hm : 32768 ||| m = m) (h : Does m s t) :
    Does m s (State.modSeq t x1 x2) := by
  refine h.after (c := 32768) ?_ hm
  unfold State.modSeq
  repeat' first
    | exact (Eq.refl _ : (_ : Nat) = _)
    | with_reducible exact Does.refl _ _
    | with_reducible refine does_set_seqs ?_ ?_

theorem does_setReg {m : Nat} {s t : State} {x1 : Nat} {x2 : Word} (hm : 2 ||| m = m) (h : Does m s t) :
    Does m s (State.setReg t x1 x2) := by
  refine h.after (c := 2) ?_ hm
  unfold State.setReg
  repeat' first
    | exact (Eq.refl _ : (_ : Nat) = _)
    | with_reducible exact Does.refl _ _
    | with_reducible refine does_set_regs ?_ ?_

theorem does_setFld {m : Nat} {s t : State} {x1 : Nat} {x2 : Nat} {x3 : Nat} {x4 : Nat} (hm : 2 ||| m = m) (h : Does m s t) :
    Does m s (State.setFld t x1 x2 x3 x4) := by
  refine h.after (c := 2) ?_ hm
  unfold State.setFld
  repeat' first
    | exact (Eq.refl _ : (_ : Nat) = _)
    | with_reducible exact Does.refl _ _
    | with_reducible refine does_setReg ?_ ?_

theorem does_countEvent {m : Nat} {s t : State} {x1 : Nat} {x2 : Nat} (hm : 2 ||| m = m) (h : Does m s t) :
    Does m s (State.countEvent t x1 x2) := by
  refine h.after (c := 2) ?_ hm
  unfold State.countEvent
  dsimp only
  repeat' first
    | exact (Eq.refl _ : (_ : Nat) = _)
    | with_reducible exact Does.refl _ _
    | with_reducible refine does_setFld ?_ ?_

theorem does_logErr {m : Nat} {s t : State} {x1 : ErrRec} {x2 : List Nat} (hm : 18446744073712697408 ||| m = m) (h : Does m s t) :
    Does m s (State.logErr t x1 x2) := by
  refine h.after (c := 18446744073712697408) ?_ hm
  unfold State.logErr
  dsimp only
  repeat' first
    | exact (Eq.refl _ : (_ : Nat) = _)
    | with_reducible exact Does.refl _ _
    | with_reducible refine does_useFree ?_ ?_
    | with_reducible assumption
    | with_reducible refine Does.foldl (fun _ _ _ => ?_) ?_
    | with_reducible refine Does.foldl_pair (fun _ _ _ => ?_) ?_
    | with_reducible refine Does.ite ?_ ?_
    | split
    | with_reducible refine does_set_boot_log_logNext ?_ ?_

theorem does_bump {m : Nat} {s t : State} {x1 : Nat} {x2 : Nat} (hm : 2 ||| m = m) (h : Does m s t) :
    Does m s (State.bump t x1 x2) := by
  refine h.after (c := 2) ?_ hm
  unfold State.bump
  repeat' first
    | exact (Eq.refl _ : (_ : Nat) = _)
    | with_reducible exact Does.refl _ _
    | with_reducible refine does_setReg ?_ ?_
    | with_reducible refine Does.ite ?_ ?_

theorem does_pushEvent {m : Nat} {s t : State} {x1 : Nat} {x2 : EventRec} (hm : 786434 ||| m = m) (h : Does m s t) :
    Does m s (State.pushEvent t x1 x2) := by
  refine h.after (c := 786434) ?_ hm
  unfold State.pushEvent
  dsimp only
  repeat' first
    | exact (Eq.refl _ : (_ : Nat) = _)
    | with_reducible exact Does.refl _ _
    | with_reducible refine does_bump ?_ ?_
    | with_reducible refine does_countEvent ?_ ?_
    | with_reducible refine Does.ite ?_ ?_
    | split
    | with_reducible refine does_set_evq_evLost ?_ ?_

theorem does_raise {m : Nat} {s t : State} {x1 : Nat} {x2 : Nat} {x3 : optParam Raise { }} (hm : 18446744073713483842 ||| m = m) (h : Does m s t) :
    Does m s (State.raise t x1 x2 x3) := by
  refine h.after (c := 18446744073713483842) ?_ hm
  unfold State.raise
  dsimp only
  repeat' first
    | exact (Eq.refl _ : (_ : Nat) = _)
    | with_reducible exact Does.refl _ _
    | with_reducible refine does_countEvent ?_ ?_
    | with_reducible refine does_logErr ?_ ?_
    | with_reducible refine does_pushEvent ?_ ?_
    | with_reducible refine does_useFree ?_ ?_
    | with_reducible assumption
    | with_reducible refine Does.foldl (fun _ _ _ => ?_) ?_
    | with_reducible refine Does.foldl_pair (fun _ _ _ => ?_) ?_
    | with_reducible refine Does.ite ?_ ?_
    | split

theorem does_modSlot {m : Nat} {s t : State} {x1 : Nat} {x2 : Slot → Slot} (hm : 512 ||| m = m) (h : Does m s t) :
    Does m s (State.modSlot t x1 x2) := by
  refine h.after (c := 512) ?_ hm
  unfold State.modSlot
  repeat' first
    | exact (Eq.refl _ : (_ : Nat) = _)
    | with_reducible exact Does.refl _ _
    | with_reducible refine does_set_slots ?_ ?_

theorem does_raiseSlot {m : Nat} {s t : State} {x1 : Nat} {x2 : Nat} {x3 : Nat} (hm : 786434 ||| m = m) (h : Does m s t) :
    Does m s (State.raiseSlot t x1 x2 x3) := by
  refine h.after (c := 786434) ?_ hm
  unfold State.raiseSlot
  dsimp only
  repeat' first
    | exact (Eq.refl _ : (_ : Nat) = _)
    | with_reducible exact Does.refl _ _
    | with_reducible refine does_pushEvent ?_ ?_
    | with_reducible refine does_setFld ?_ ?_

theorem does_modBoot {m : Nat} {s t : State} {x1 : BootState → BootState} (hm : 64 ||| m = m) (h : Does m s t) :
    Does m s (State.modBoot t x1) := by
  refine h.after (c := 64) ?_ hm
  unfold State.modBoot
  repeat' first
    | exact (Eq.refl _ : (_ : Nat) = _)
    | with_reducible exact Does.refl _ _
    | with_reducible refine does_set_boot ?_ ?_

theorem does_advance {m : Nat} {s t : State} {x1 : Nat} (hm : 257 ||| m = m) (h : Does m s t) :
    Does m s (State.advance t x1) := by
  refine h.after (c := 257) ?_ hm
  unfold State.advance
  repeat' first
    | exact (Eq.refl _ : (_ : Nat) = _)
    | with_reducible exact Does.refl _ _
    | with_reducible refine does_set_clk_time ?_ ?_

theorem does_setCtr {m : Nat} {s t : State} {x1 : Nat} {x2 : Nat} (hm : 4096 ||| m = m) (h : Does m s t) :
    Does m s (State.setCtr t x1 x2) := by
  refine h.after (c := 4096) ?_ hm
  unfold State.setCtr
  repeat' first
    | exact (Eq.refl _ : (_ : Nat) = _)
    | with_reducible exact Does.refl _ _
    | with_reducible refine does_set_ctrs ?_ ?_

theorem does_signal {m : Nat} {s t : State} {x1 : Nat} {x2 : Nat} {x3 : Nat} (hm : 790530 ||| m = m) (h : Does m s t) :
    Does m s (State.signal t x1 x2 x3) := by
  refine h.after (c := 790530) ?_ hm
  unfold State.signal
  dsimp only
  repeat' first
    | exact (Eq.refl _ : (_ : Nat) = _)
    | with_reducible exact Does.refl _ _
    | with_reducible refine does_raiseSlot ?_ ?_
    | with_reducible refine does_setCtr ?_ ?_
    | with_reducible refine Does.ite ?_ ?_
    | split

theorem does_modRegion {m : Nat} {s t : State} {x1 : Nat} {x2 : Nat} {x3 : Region → Region} (hm : 65536 ||| m = m) (h : Does m s t) :
    Does m s (State.modRegion t x1 x2 x3) := by
  refine h.after (c := 65536) ?_ hm
  unfold State.modRegion
  repeat' first
    | exact (Eq.refl _ : (_ : Nat) = _)
    | with_reducible exact Does.refl _ _
    | with_reducible refine does_set_regions ?_ ?_

theorem does_modPower {m : Nat} {s t : State} {x1 : PowerState → PowerState} (hm : 128 ||| m = m) (h : Does m s t) :
    Does m s (State.modPower t x1) := by
  refine h.after (c := 128) ?_ hm
  unfold State.modPower
  repeat' first
    | exact (Eq.refl _ : (_ : Nat) = _)
    | with_reducible exact Does.refl _ _
    | with_reducible refine does_set_power ?_ ?_

theorem does_ends {m : Nat} {s t : State} {x1 : Status} (hm : 4611686018427387904 ||| m = m) (h : Does m s t) :
    Does m s (State.ends t x1) := by
  refine h.after (c := 4611686018427387904) ?_ hm
  unfold State.ends
  repeat' first
    | exact (Eq.refl _ : (_ : Nat) = _)
    | with_reducible exact Does.refl _ _
    | with_reducible refine does_set_done ?_ ?_

theorem does_modTime {m : Nat} {s t : State} {x1 : TimeState → TimeState} (hm : 256 ||| m = m) (h : Does m s t) :
    Does m s (State.modTime t x1) := by
  refine h.after (c := 256) ?_ hm
  unfold State.modTime
  repeat' first
    | exact (Eq.refl _ : (_ : Nat) = _)
    | with_reducible exact Does.refl _ _
    | with_reducible refine does_set_time ?_ ?_

theorem does_waitClk {m : Nat} {s t : State} {x1 : Nat} (hm : 257 ||| m = m) (h : Does m s t) :
    Does m s (State.waitClk t x1) := by
  refine h.after (c := 257) ?_ hm
  unfold State.waitClk
  repeat' first
    | exact (Eq.refl _ : (_ : Nat) = _)
    | with_reducible exact Does.refl _ _
    | with_reducible refine does_advance ?_ ?_

theorem does_modPart {m : Nat} {s t : State} {x1 : Nat} {x2 : Part → Part} (hm : 8192 ||| m = m) (h : Does m s t) :
    Does m s (State.modPart t x1 x2) := by
  refine h.after (c := 8192) ?_ hm
  unfold State.modPart
  repeat' first
    | exact (Eq.refl _ : (_ : Nat) = _)
    | with_reducible exact Does.refl _ _
    | with_reducible refine does_set_parts ?_ ?_

theorem does_takeCtr {m : Nat} {s t : State} {x1 : Nat} {x2 : Nat} (hm : 4096 ||| m = m) (h : Does m s t) :
    Does m s (State.takeCtr t x1 x2) := by
  refine h.after (c := 4096) ?_ hm
  unfold State.takeCtr
  repeat' first
    | exact (Eq.refl _ : (_ : Nat) = _)
    | with_reducible exact Does.refl _ _
    | with_reducible refine does_setCtr ?_ ?_

theorem does_periodic {m : Nat} {s t : State} {x1 : Nat} {x2 : Nat} (hm : 273 ||| m = m) (h : Does m s t) :
    Does m s (State.periodic t x1 x2) := by
  refine h.after (c := 273) ?_ hm
  unfold State.periodic
  dsimp only
  repeat' first
    | exact (Eq.refl _ : (_ : Nat) = _)
    | with_reducible exact Does.refl _ _
    | with_reducible refine does_waitClk ?_ ?_
    | with_reducible refine does_set_timers ?_ ?_

theorem does_stage {m : Nat} {s t : State} {x1 : Nat} {x2 : Nat} {x3 : Word} (hm : 4 ||| m = m) (h : Does m s t) :
    Does m s (State.stage t x1 x2 x3) := by
  refine h.after (c := 4) ?_ hm
  unfold State.stage
  repeat' first
    | exact (Eq.refl _ : (_ : Nat) = _)
    | with_reducible exact Does.refl _ _
    | with_reducible refine does_set_staged ?_ ?_

theorem does_clearReg {m : Nat} {s t : State} {x1 : Nat} (hm : 2 ||| m = m) (h : Does m s t) :
    Does m s (State.clearReg t x1) := by
  refine h.after (c := 2) ?_ hm
  unfold State.clearReg
  repeat' first
    | exact (Eq.refl _ : (_ : Nat) = _)
    | with_reducible exact Does.refl _ _
    | with_reducible refine does_set_regs ?_ ?_

theorem does_clearRegs {m : Nat} {s t : State} {x1 : Nat → Bool} (hm : 2 ||| m = m) (h : Does m s t) :
    Does m s (State.clearRegs t x1) := by
  refine h.after (c := 2) ?_ hm
  unfold State.clearRegs
  repeat' first
    | exact (Eq.refl _ : (_ : Nat) = _)
    | with_reducible exact Does.refl _ _
    | with_reducible refine does_set_regs ?_ ?_

theorem does_stepCt {m : Nat} {s t : State} {x1 : Nat} (hm : 257 ||| m = m) (h : Does m s t) :
    Does m s (State.stepCt t x1) := by
  refine h.after (c := 257) ?_ hm
  unfold State.stepCt
  dsimp only
  repeat' first
    | exact (Eq.refl _ : (_ : Nat) = _)
    | with_reducible exact Does.refl _ _
    | with_reducible refine does_advance ?_ ?_
    | with_reducible refine Does.ite ?_ ?_
    | split
    | with_reducible refine does_set_clk_time ?_ ?_

theorem does_waitCt {m : Nat} {s t : State} {x1 : Nat} (hm : 257 ||| m = m) (h : Does m s t) :
    Does m s (State.waitCt t x1) := by
  refine h.after (c := 257) ?_ hm
  unfold State.waitCt
  repeat' first
    | exact (Eq.refl _ : (_ : Nat) = _)
    | with_reducible exact Does.refl _ _
    | with_reducible refine does_stepCt ?_ ?_
    | with_reducible assumption
    | with_reducible refine Does.foldl (fun _ _ _ => ?_) ?_

end Sys2Proof.Machine
end

