-- ==== Sys2Proof/Laws/State.lean ====
section
/-! SUPPORT. One lemma for each field and each named update of the state: what the update leaves as it was. -/

namespace Sys2Proof.Machine

variable (s : State)

/-! ### setReg -/

@[simp] theorem State.setReg_clk (k : Nat) (v : Word) : (s.setReg k v).clk = s.clk := rfl
@[simp] theorem State.setReg_staged (k : Nat) (v : Word) : (s.setReg k v).staged = s.staged := rfl
@[simp] theorem State.setReg_mem (k : Nat) (v : Word) : (s.setReg k v).mem = s.mem := rfl
@[simp] theorem State.setReg_timers (k : Nat) (v : Word) : (s.setReg k v).timers = s.timers := rfl
@[simp] theorem State.setReg_ident (k : Nat) (v : Word) : (s.setReg k v).ident = s.ident := rfl
@[simp] theorem State.setReg_boot (k : Nat) (v : Word) : (s.setReg k v).boot = s.boot := rfl
@[simp] theorem State.setReg_power (k : Nat) (v : Word) : (s.setReg k v).power = s.power := rfl
@[simp] theorem State.setReg_time (k : Nat) (v : Word) : (s.setReg k v).time = s.time := rfl
@[simp] theorem State.setReg_slots (k : Nat) (v : Word) : (s.setReg k v).slots = s.slots := rfl
@[simp] theorem State.setReg_schedLo (k : Nat) (v : Word) : (s.setReg k v).schedLo = s.schedLo := rfl
@[simp] theorem State.setReg_schedHi (k : Nat) (v : Word) : (s.setReg k v).schedHi = s.schedHi := rfl
@[simp] theorem State.setReg_ctrs (k : Nat) (v : Word) : (s.setReg k v).ctrs = s.ctrs := rfl
@[simp] theorem State.setReg_parts (k : Nat) (v : Word) : (s.setReg k v).parts = s.parts := rfl
@[simp] theorem State.setReg_doms (k : Nat) (v : Word) : (s.setReg k v).doms = s.doms := rfl
@[simp] theorem State.setReg_seqs (k : Nat) (v : Word) : (s.setReg k v).seqs = s.seqs := rfl
@[simp] theorem State.setReg_regions (k : Nat) (v : Word) : (s.setReg k v).regions = s.regions := rfl
@[simp] theorem State.setReg_idleUntil (k : Nat) (v : Word) : (s.setReg k v).idleUntil = s.idleUntil := rfl
@[simp] theorem State.setReg_evq (k : Nat) (v : Word) : (s.setReg k v).evq = s.evq := rfl
@[simp] theorem State.setReg_evLost (k : Nat) (v : Word) : (s.setReg k v).evLost = s.evLost := rfl
@[simp] theorem State.setReg_log (k : Nat) (v : Word) : (s.setReg k v).log = s.log := rfl
@[simp] theorem State.setReg_logNext (k : Nat) (v : Word) : (s.setReg k v).logNext = s.logNext := rfl
@[simp] theorem State.setReg_out (k : Nat) (v : Word) : (s.setReg k v).out = s.out := rfl
@[simp] theorem State.setReg_tolvys (k : Nat) (v : Word) : (s.setReg k v).tolvys = s.tolvys := rfl
@[simp] theorem State.setReg_stale (k : Nat) (v : Word) : (s.setReg k v).stale = s.stale := rfl
@[simp] theorem State.setReg_windows (k : Nat) (v : Word) : (s.setReg k v).windows = s.windows := rfl
@[simp] theorem State.setReg_wfOn (k : Nat) (v : Word) : (s.setReg k v).wfOn = s.wfOn := rfl
@[simp] theorem State.setReg_rowSlots (k : Nat) (v : Word) : (s.setReg k v).rowSlots = s.rowSlots := rfl
@[simp] theorem State.setReg_bulk (k : Nat) (v : Word) : (s.setReg k v).bulk = s.bulk := rfl
@[simp] theorem State.setReg_repairs (k : Nat) (v : Word) : (s.setReg k v).repairs = s.repairs := rfl
@[simp] theorem State.setReg_igs (k : Nat) (v : Word) : (s.setReg k v).igs = s.igs := rfl
@[simp] theorem State.setReg_csSets (k : Nat) (v : Word) : (s.setReg k v).csSets = s.csSets := rfl
@[simp] theorem State.setReg_screens (k : Nat) (v : Word) : (s.setReg k v).screens = s.screens := rfl
@[simp] theorem State.setReg_mace (k : Nat) (v : Word) : (s.setReg k v).mace = s.mace := rfl
@[simp] theorem State.setReg_digests (k : Nat) (v : Word) : (s.setReg k v).digests = s.digests := rfl
@[simp] theorem State.setReg_mboxes (k : Nat) (v : Word) : (s.setReg k v).mboxes = s.mboxes := rfl
@[simp] theorem State.setReg_retired (k : Nat) (v : Word) : (s.setReg k v).retired = s.retired := rfl
@[simp] theorem State.setReg_suspect (k : Nat) (v : Word) : (s.setReg k v).suspect = s.suspect := rfl
@[simp] theorem State.setReg_tiles (k : Nat) (v : Word) : (s.setReg k v).tiles = s.tiles := rfl
@[simp] theorem State.setReg_arrFmt (k : Nat) (v : Word) : (s.setReg k v).arrFmt = s.arrFmt := rfl
@[simp] theorem State.setReg_tileTag (k : Nat) (v : Word) : (s.setReg k v).tileTag = s.tileTag := rfl
@[simp] theorem State.setReg_engFail (k : Nat) (v : Word) : (s.setReg k v).engFail = s.engFail := rfl
@[simp] theorem State.setReg_clove (k : Nat) (v : Word) : (s.setReg k v).clove = s.clove := rfl
@[simp] theorem State.setReg_chainCur (k : Nat) (v : Word) : (s.setReg k v).chainCur = s.chainCur := rfl
@[simp] theorem State.setReg_profCur (k : Nat) (v : Word) : (s.setReg k v).profCur = s.profCur := rfl
@[simp] theorem State.setReg_qslots (k : Nat) (v : Word) : (s.setReg k v).qslots = s.qslots := rfl
@[simp] theorem State.setReg_attCfg (k : Nat) (v : Word) : (s.setReg k v).attCfg = s.attCfg := rfl
@[simp] theorem State.setReg_attSeq (k : Nat) (v : Word) : (s.setReg k v).attSeq = s.attSeq := rfl
@[simp] theorem State.setReg_xslots (k : Nat) (v : Word) : (s.setReg k v).xslots = s.xslots := rfl
@[simp] theorem State.setReg_links (k : Nat) (v : Word) : (s.setReg k v).links = s.links := rfl
@[simp] theorem State.setReg_ports (k : Nat) (v : Word) : (s.setReg k v).ports = s.ports := rfl
@[simp] theorem State.setReg_nodeReqs (k : Nat) (v : Word) : (s.setReg k v).nodeReqs = s.nodeReqs := rfl
@[simp] theorem State.setReg_nodeTag (k : Nat) (v : Word) : (s.setReg k v).nodeTag = s.nodeTag := rfl
@[simp] theorem State.setReg_fabric (k : Nat) (v : Word) : (s.setReg k v).fabric = s.fabric := rfl
@[simp] theorem State.setReg_reqs (k : Nat) (v : Word) : (s.setReg k v).reqs = s.reqs := rfl
@[simp] theorem State.setReg_submitted (k : Nat) (v : Word) : (s.setReg k v).submitted = s.submitted := rfl
@[simp] theorem State.setReg_commands (k : Nat) (v : Word) : (s.setReg k v).commands = s.commands := rfl
@[simp] theorem State.setReg_svs (k : Nat) (v : Word) : (s.setReg k v).svs = s.svs := rfl
@[simp] theorem State.setReg_peps (k : Nat) (v : Word) : (s.setReg k v).peps = s.peps := rfl
@[simp] theorem State.setReg_pepCur (k : Nat) (v : Word) : (s.setReg k v).pepCur = s.pepCur := rfl
@[simp] theorem State.setReg_pageSeen (k : Nat) (v : Word) : (s.setReg k v).pageSeen = s.pageSeen := rfl
@[simp] theorem State.setReg_seqBad (k : Nat) (v : Word) : (s.setReg k v).seqBad = s.seqBad := rfl
@[simp] theorem State.setReg_done (k : Nat) (v : Word) : (s.setReg k v).done = s.done := rfl
@[simp] theorem State.setReg_rdata (k : Nat) (v : Word) : (s.setReg k v).rdata = s.rdata := rfl
@[simp] theorem State.setReg_free (k : Nat) (v : Word) : (s.setReg k v).free = s.free := rfl
@[simp] theorem State.setReg_pending (k : Nat) (v : Word) : (s.setReg k v).pending = s.pending := rfl

/-! ### setFld -/

@[simp] theorem State.setFld_clk (k lo n v : Nat) : (s.setFld k lo n v).clk = s.clk := rfl
@[simp] theorem State.setFld_staged (k lo n v : Nat) : (s.setFld k lo n v).staged = s.staged := rfl
@[simp] theorem State.setFld_mem (k lo n v : Nat) : (s.setFld k lo n v).mem = s.mem := rfl
@[simp] theorem State.setFld_timers (k lo n v : Nat) : (s.setFld k lo n v).timers = s.timers := rfl
@[simp] theorem State.setFld_ident (k lo n v : Nat) : (s.setFld k lo n v).ident = s.ident := rfl
@[simp] theorem State.setFld_boot (k lo n v : Nat) : (s.setFld k lo n v).boot = s.boot := rfl
@[simp] theorem State.setFld_power (k lo n v : Nat) : (s.setFld k lo n v).power = s.power := rfl
@[simp] theorem State.setFld_time (k lo n v : Nat) : (s.setFld k lo n v).time = s.time := rfl
@[simp] theorem State.setFld_slots (k lo n v : Nat) : (s.setFld k lo n v).slots = s.slots := rfl
@[simp] theorem State.setFld_schedLo (k lo n v : Nat) : (s.setFld k lo n v).schedLo = s.schedLo := rfl
@[simp] theorem State.setFld_schedHi (k lo n v : Nat) : (s.setFld k lo n v).schedHi = s.schedHi := rfl
@[simp] theorem State.setFld_ctrs (k lo n v : Nat) : (s.setFld k lo n v).ctrs = s.ctrs := rfl
@[simp] theorem State.setFld_parts (k lo n v : Nat) : (s.setFld k lo n v).parts = s.parts := rfl
@[simp] theorem State.setFld_doms (k lo n v : Nat) : (s.setFld k lo n v).doms = s.doms := rfl
@[simp] theorem State.setFld_seqs (k lo n v : Nat) : (s.setFld k lo n v).seqs = s.seqs := rfl
@[simp] theorem State.setFld_regions (k lo n v : Nat) : (s.setFld k lo n v).regions = s.regions := rfl
@[simp] theorem State.setFld_idleUntil (k lo n v : Nat) : (s.setFld k lo n v).idleUntil = s.idleUntil := rfl
@[simp] theorem State.setFld_evq (k lo n v : Nat) : (s.setFld k lo n v).evq = s.evq := rfl
@[simp] theorem State.setFld_evLost (k lo n v : Nat) : (s.setFld k lo n v).evLost = s.evLost := rfl
@[simp] theorem State.setFld_log (k lo n v : Nat) : (s.setFld k lo n v).log = s.log := rfl
@[simp] theorem State.setFld_logNext (k lo n v : Nat) : (s.setFld k lo n v).logNext = s.logNext := rfl
@[simp] theorem State.setFld_out (k lo n v : Nat) : (s.setFld k lo n v).out = s.out := rfl
@[simp] theorem State.setFld_tolvys (k lo n v : Nat) : (s.setFld k lo n v).tolvys = s.tolvys := rfl
@[simp] theorem State.setFld_stale (k lo n v : Nat) : (s.setFld k lo n v).stale = s.stale := rfl
@[simp] theorem State.setFld_windows (k lo n v : Nat) : (s.setFld k lo n v).windows = s.windows := rfl
@[simp] theorem State.setFld_wfOn (k lo n v : Nat) : (s.setFld k lo n v).wfOn = s.wfOn := rfl
@[simp] theorem State.setFld_rowSlots (k lo n v : Nat) : (s.setFld k lo n v).rowSlots = s.rowSlots := rfl
@[simp] theorem State.setFld_bulk (k lo n v : Nat) : (s.setFld k lo n v).bulk = s.bulk := rfl
@[simp] theorem State.setFld_repairs (k lo n v : Nat) : (s.setFld k lo n v).repairs = s.repairs := rfl
@[simp] theorem State.setFld_igs (k lo n v : Nat) : (s.setFld k lo n v).igs = s.igs := rfl
@[simp] theorem State.setFld_csSets (k lo n v : Nat) : (s.setFld k lo n v).csSets = s.csSets := rfl
@[simp] theorem State.setFld_screens (k lo n v : Nat) : (s.setFld k lo n v).screens = s.screens := rfl
@[simp] theorem State.setFld_mace (k lo n v : Nat) : (s.setFld k lo n v).mace = s.mace := rfl
@[simp] theorem State.setFld_digests (k lo n v : Nat) : (s.setFld k lo n v).digests = s.digests := rfl
@[simp] theorem State.setFld_mboxes (k lo n v : Nat) : (s.setFld k lo n v).mboxes = s.mboxes := rfl
@[simp] theorem State.setFld_retired (k lo n v : Nat) : (s.setFld k lo n v).retired = s.retired := rfl
@[simp] theorem State.setFld_suspect (k lo n v : Nat) : (s.setFld k lo n v).suspect = s.suspect := rfl
@[simp] theorem State.setFld_tiles (k lo n v : Nat) : (s.setFld k lo n v).tiles = s.tiles := rfl
@[simp] theorem State.setFld_arrFmt (k lo n v : Nat) : (s.setFld k lo n v).arrFmt = s.arrFmt := rfl
@[simp] theorem State.setFld_tileTag (k lo n v : Nat) : (s.setFld k lo n v).tileTag = s.tileTag := rfl
@[simp] theorem State.setFld_engFail (k lo n v : Nat) : (s.setFld k lo n v).engFail = s.engFail := rfl
@[simp] theorem State.setFld_clove (k lo n v : Nat) : (s.setFld k lo n v).clove = s.clove := rfl
@[simp] theorem State.setFld_chainCur (k lo n v : Nat) : (s.setFld k lo n v).chainCur = s.chainCur := rfl
@[simp] theorem State.setFld_profCur (k lo n v : Nat) : (s.setFld k lo n v).profCur = s.profCur := rfl
@[simp] theorem State.setFld_qslots (k lo n v : Nat) : (s.setFld k lo n v).qslots = s.qslots := rfl
@[simp] theorem State.setFld_attCfg (k lo n v : Nat) : (s.setFld k lo n v).attCfg = s.attCfg := rfl
@[simp] theorem State.setFld_attSeq (k lo n v : Nat) : (s.setFld k lo n v).attSeq = s.attSeq := rfl
@[simp] theorem State.setFld_xslots (k lo n v : Nat) : (s.setFld k lo n v).xslots = s.xslots := rfl
@[simp] theorem State.setFld_links (k lo n v : Nat) : (s.setFld k lo n v).links = s.links := rfl
@[simp] theorem State.setFld_ports (k lo n v : Nat) : (s.setFld k lo n v).ports = s.ports := rfl
@[simp] theorem State.setFld_nodeReqs (k lo n v : Nat) : (s.setFld k lo n v).nodeReqs = s.nodeReqs := rfl
@[simp] theorem State.setFld_nodeTag (k lo n v : Nat) : (s.setFld k lo n v).nodeTag = s.nodeTag := rfl
@[simp] theorem State.setFld_fabric (k lo n v : Nat) : (s.setFld k lo n v).fabric = s.fabric := rfl
@[simp] theorem State.setFld_reqs (k lo n v : Nat) : (s.setFld k lo n v).reqs = s.reqs := rfl
@[simp] theorem State.setFld_submitted (k lo n v : Nat) : (s.setFld k lo n v).submitted = s.submitted := rfl
@[simp] theorem State.setFld_commands (k lo n v : Nat) : (s.setFld k lo n v).commands = s.commands := rfl
@[simp] theorem State.setFld_svs (k lo n v : Nat) : (s.setFld k lo n v).svs = s.svs := rfl
@[simp] theorem State.setFld_peps (k lo n v : Nat) : (s.setFld k lo n v).peps = s.peps := rfl
@[simp] theorem State.setFld_pepCur (k lo n v : Nat) : (s.setFld k lo n v).pepCur = s.pepCur := rfl
@[simp] theorem State.setFld_pageSeen (k lo n v : Nat) : (s.setFld k lo n v).pageSeen = s.pageSeen := rfl
@[simp] theorem State.setFld_seqBad (k lo n v : Nat) : (s.setFld k lo n v).seqBad = s.seqBad := rfl
@[simp] theorem State.setFld_done (k lo n v : Nat) : (s.setFld k lo n v).done = s.done := rfl
@[simp] theorem State.setFld_rdata (k lo n v : Nat) : (s.setFld k lo n v).rdata = s.rdata := rfl
@[simp] theorem State.setFld_free (k lo n v : Nat) : (s.setFld k lo n v).free = s.free := rfl
@[simp] theorem State.setFld_pending (k lo n v : Nat) : (s.setFld k lo n v).pending = s.pending := rfl

/-! ### clearReg -/

@[simp] theorem State.clearReg_clk (k : Nat) : (s.clearReg k).clk = s.clk := rfl
@[simp] theorem State.clearReg_staged (k : Nat) : (s.clearReg k).staged = s.staged := rfl
@[simp] theorem State.clearReg_mem (k : Nat) : (s.clearReg k).mem = s.mem := rfl
@[simp] theorem State.clearReg_timers (k : Nat) : (s.clearReg k).timers = s.timers := rfl
@[simp] theorem State.clearReg_ident (k : Nat) : (s.clearReg k).ident = s.ident := rfl
@[simp] theorem State.clearReg_boot (k : Nat) : (s.clearReg k).boot = s.boot := rfl
@[simp] theorem State.clearReg_power (k : Nat) : (s.clearReg k).power = s.power := rfl
@[simp] theorem State.clearReg_time (k : Nat) : (s.clearReg k).time = s.time := rfl
@[simp] theorem State.clearReg_slots (k : Nat) : (s.clearReg k).slots = s.slots := rfl
@[simp] theorem State.clearReg_schedLo (k : Nat) : (s.clearReg k).schedLo = s.schedLo := rfl
@[simp] theorem State.clearReg_schedHi (k : Nat) : (s.clearReg k).schedHi = s.schedHi := rfl
@[simp] theorem State.clearReg_ctrs (k : Nat) : (s.clearReg k).ctrs = s.ctrs := rfl
@[simp] theorem State.clearReg_parts (k : Nat) : (s.clearReg k).parts = s.parts := rfl
@[simp] theorem State.clearReg_doms (k : Nat) : (s.clearReg k).doms = s.doms := rfl
@[simp] theorem State.clearReg_seqs (k : Nat) : (s.clearReg k).seqs = s.seqs := rfl
@[simp] theorem State.clearReg_regions (k : Nat) : (s.clearReg k).regions = s.regions := rfl
@[simp] theorem State.clearReg_idleUntil (k : Nat) : (s.clearReg k).idleUntil = s.idleUntil := rfl
@[simp] theorem State.clearReg_evq (k : Nat) : (s.clearReg k).evq = s.evq := rfl
@[simp] theorem State.clearReg_evLost (k : Nat) : (s.clearReg k).evLost = s.evLost := rfl
@[simp] theorem State.clearReg_log (k : Nat) : (s.clearReg k).log = s.log := rfl
@[simp] theorem State.clearReg_logNext (k : Nat) : (s.clearReg k).logNext = s.logNext := rfl
@[simp] theorem State.clearReg_out (k : Nat) : (s.clearReg k).out = s.out := rfl
@[simp] theorem State.clearReg_tolvys (k : Nat) : (s.clearReg k).tolvys = s.tolvys := rfl
@[simp] theorem State.clearReg_stale (k : Nat) : (s.clearReg k).stale = s.stale := rfl
@[simp] theorem State.clearReg_windows (k : Nat) : (s.clearReg k).windows = s.windows := rfl
@[simp] theorem State.clearReg_wfOn (k : Nat) : (s.clearReg k).wfOn = s.wfOn := rfl
@[simp] theorem State.clearReg_rowSlots (k : Nat) : (s.clearReg k).rowSlots = s.rowSlots := rfl
@[simp] theorem State.clearReg_bulk (k : Nat) : (s.clearReg k).bulk = s.bulk := rfl
@[simp] theorem State.clearReg_repairs (k : Nat) : (s.clearReg k).repairs = s.repairs := rfl
@[simp] theorem State.clearReg_igs (k : Nat) : (s.clearReg k).igs = s.igs := rfl
@[simp] theorem State.clearReg_csSets (k : Nat) : (s.clearReg k).csSets = s.csSets := rfl
@[simp] theorem State.clearReg_screens (k : Nat) : (s.clearReg k).screens = s.screens := rfl
@[simp] theorem State.clearReg_mace (k : Nat) : (s.clearReg k).mace = s.mace := rfl
@[simp] theorem State.clearReg_digests (k : Nat) : (s.clearReg k).digests = s.digests := rfl
@[simp] theorem State.clearReg_mboxes (k : Nat) : (s.clearReg k).mboxes = s.mboxes := rfl
@[simp] theorem State.clearReg_retired (k : Nat) : (s.clearReg k).retired = s.retired := rfl
@[simp] theorem State.clearReg_suspect (k : Nat) : (s.clearReg k).suspect = s.suspect := rfl
@[simp] theorem State.clearReg_tiles (k : Nat) : (s.clearReg k).tiles = s.tiles := rfl
@[simp] theorem State.clearReg_arrFmt (k : Nat) : (s.clearReg k).arrFmt = s.arrFmt := rfl
@[simp] theorem State.clearReg_tileTag (k : Nat) : (s.clearReg k).tileTag = s.tileTag := rfl
@[simp] theorem State.clearReg_engFail (k : Nat) : (s.clearReg k).engFail = s.engFail := rfl
@[simp] theorem State.clearReg_clove (k : Nat) : (s.clearReg k).clove = s.clove := rfl
@[simp] theorem State.clearReg_chainCur (k : Nat) : (s.clearReg k).chainCur = s.chainCur := rfl
@[simp] theorem State.clearReg_profCur (k : Nat) : (s.clearReg k).profCur = s.profCur := rfl
@[simp] theorem State.clearReg_qslots (k : Nat) : (s.clearReg k).qslots = s.qslots := rfl
@[simp] theorem State.clearReg_attCfg (k : Nat) : (s.clearReg k).attCfg = s.attCfg := rfl
@[simp] theorem State.clearReg_attSeq (k : Nat) : (s.clearReg k).attSeq = s.attSeq := rfl
@[simp] theorem State.clearReg_xslots (k : Nat) : (s.clearReg k).xslots = s.xslots := rfl
@[simp] theorem State.clearReg_links (k : Nat) : (s.clearReg k).links = s.links := rfl
@[simp] theorem State.clearReg_ports (k : Nat) : (s.clearReg k).ports = s.ports := rfl
@[simp] theorem State.clearReg_nodeReqs (k : Nat) : (s.clearReg k).nodeReqs = s.nodeReqs := rfl
@[simp] theorem State.clearReg_nodeTag (k : Nat) : (s.clearReg k).nodeTag = s.nodeTag := rfl
@[simp] theorem State.clearReg_fabric (k : Nat) : (s.clearReg k).fabric = s.fabric := rfl
@[simp] theorem State.clearReg_reqs (k : Nat) : (s.clearReg k).reqs = s.reqs := rfl
@[simp] theorem State.clearReg_submitted (k : Nat) : (s.clearReg k).submitted = s.submitted := rfl
@[simp] theorem State.clearReg_commands (k : Nat) : (s.clearReg k).commands = s.commands := rfl
@[simp] theorem State.clearReg_svs (k : Nat) : (s.clearReg k).svs = s.svs := rfl
@[simp] theorem State.clearReg_peps (k : Nat) : (s.clearReg k).peps = s.peps := rfl
@[simp] theorem State.clearReg_pepCur (k : Nat) : (s.clearReg k).pepCur = s.pepCur := rfl
@[simp] theorem State.clearReg_pageSeen (k : Nat) : (s.clearReg k).pageSeen = s.pageSeen := rfl
@[simp] theorem State.clearReg_seqBad (k : Nat) : (s.clearReg k).seqBad = s.seqBad := rfl
@[simp] theorem State.clearReg_done (k : Nat) : (s.clearReg k).done = s.done := rfl
@[simp] theorem State.clearReg_rdata (k : Nat) : (s.clearReg k).rdata = s.rdata := rfl
@[simp] theorem State.clearReg_free (k : Nat) : (s.clearReg k).free = s.free := rfl
@[simp] theorem State.clearReg_pending (k : Nat) : (s.clearReg k).pending = s.pending := rfl

/-! ### clearRegs -/

@[simp] theorem State.clearRegs_clk (f : Nat → Bool) : (s.clearRegs f).clk = s.clk := rfl
@[simp] theorem State.clearRegs_staged (f : Nat → Bool) : (s.clearRegs f).staged = s.staged := rfl
@[simp] theorem State.clearRegs_mem (f : Nat → Bool) : (s.clearRegs f).mem = s.mem := rfl
@[simp] theorem State.clearRegs_timers (f : Nat → Bool) : (s.clearRegs f).timers = s.timers := rfl
@[simp] theorem State.clearRegs_ident (f : Nat → Bool) : (s.clearRegs f).ident = s.ident := rfl
@[simp] theorem State.clearRegs_boot (f : Nat → Bool) : (s.clearRegs f).boot = s.boot := rfl
@[simp] theorem State.clearRegs_power (f : Nat → Bool) : (s.clearRegs f).power = s.power := rfl
@[simp] theorem State.clearRegs_time (f : Nat → Bool) : (s.clearRegs f).time = s.time := rfl
@[simp] theorem State.clearRegs_slots (f : Nat → Bool) : (s.clearRegs f).slots = s.slots := rfl
@[simp] theorem State.clearRegs_schedLo (f : Nat → Bool) : (s.clearRegs f).schedLo = s.schedLo := rfl
@[simp] theorem State.clearRegs_schedHi (f : Nat → Bool) : (s.clearRegs f).schedHi = s.schedHi := rfl
@[simp] theorem State.clearRegs_ctrs (f : Nat → Bool) : (s.clearRegs f).ctrs = s.ctrs := rfl
@[simp] theorem State.clearRegs_parts (f : Nat → Bool) : (s.clearRegs f).parts = s.parts := rfl
@[simp] theorem State.clearRegs_doms (f : Nat → Bool) : (s.clearRegs f).doms = s.doms := rfl
@[simp] theorem State.clearRegs_seqs (f : Nat → Bool) : (s.clearRegs f).seqs = s.seqs := rfl
@[simp] theorem State.clearRegs_regions (f : Nat → Bool) : (s.clearRegs f).regions = s.regions := rfl
@[simp] theorem State.clearRegs_idleUntil (f : Nat → Bool) : (s.clearRegs f).idleUntil = s.idleUntil := rfl
@[simp] theorem State.clearRegs_evq (f : Nat → Bool) : (s.clearRegs f).evq = s.evq := rfl
@[simp] theorem State.clearRegs_evLost (f : Nat → Bool) : (s.clearRegs f).evLost = s.evLost := rfl
@[simp] theorem State.clearRegs_log (f : Nat → Bool) : (s.clearRegs f).log = s.log := rfl
@[simp] theorem State.clearRegs_logNext (f : Nat → Bool) : (s.clearRegs f).logNext = s.logNext := rfl
@[simp] theorem State.clearRegs_out (f : Nat → Bool) : (s.clearRegs f).out = s.out := rfl
@[simp] theorem State.clearRegs_tolvys (f : Nat → Bool) : (s.clearRegs f).tolvys = s.tolvys := rfl
@[simp] theorem State.clearRegs_stale (f : Nat → Bool) : (s.clearRegs f).stale = s.stale := rfl
@[simp] theorem State.clearRegs_windows (f : Nat → Bool) : (s.clearRegs f).windows = s.windows := rfl
@[simp] theorem State.clearRegs_wfOn (f : Nat → Bool) : (s.clearRegs f).wfOn = s.wfOn := rfl
@[simp] theorem State.clearRegs_rowSlots (f : Nat → Bool) : (s.clearRegs f).rowSlots = s.rowSlots := rfl
@[simp] theorem State.clearRegs_bulk (f : Nat → Bool) : (s.clearRegs f).bulk = s.bulk := rfl
@[simp] theorem State.clearRegs_repairs (f : Nat → Bool) : (s.clearRegs f).repairs = s.repairs := rfl
@[simp] theorem State.clearRegs_igs (f : Nat → Bool) : (s.clearRegs f).igs = s.igs := rfl
@[simp] theorem State.clearRegs_csSets (f : Nat → Bool) : (s.clearRegs f).csSets = s.csSets := rfl
@[simp] theorem State.clearRegs_screens (f : Nat → Bool) : (s.clearRegs f).screens = s.screens := rfl
@[simp] theorem State.clearRegs_mace (f : Nat → Bool) : (s.clearRegs f).mace = s.mace := rfl
@[simp] theorem State.clearRegs_digests (f : Nat → Bool) : (s.clearRegs f).digests = s.digests := rfl
@[simp] theorem State.clearRegs_mboxes (f : Nat → Bool) : (s.clearRegs f).mboxes = s.mboxes := rfl
@[simp] theorem State.clearRegs_retired (f : Nat → Bool) : (s.clearRegs f).retired = s.retired := rfl
@[simp] theorem State.clearRegs_suspect (f : Nat → Bool) : (s.clearRegs f).suspect = s.suspect := rfl
@[simp] theorem State.clearRegs_tiles (f : Nat → Bool) : (s.clearRegs f).tiles = s.tiles := rfl
@[simp] theorem State.clearRegs_arrFmt (f : Nat → Bool) : (s.clearRegs f).arrFmt = s.arrFmt := rfl
@[simp] theorem State.clearRegs_tileTag (f : Nat → Bool) : (s.clearRegs f).tileTag = s.tileTag := rfl
@[simp] theorem State.clearRegs_engFail (f : Nat → Bool) : (s.clearRegs f).engFail = s.engFail := rfl
@[simp] theorem State.clearRegs_clove (f : Nat → Bool) : (s.clearRegs f).clove = s.clove := rfl
@[simp] theorem State.clearRegs_chainCur (f : Nat → Bool) : (s.clearRegs f).chainCur = s.chainCur := rfl
@[simp] theorem State.clearRegs_profCur (f : Nat → Bool) : (s.clearRegs f).profCur = s.profCur := rfl
@[simp] theorem State.clearRegs_qslots (f : Nat → Bool) : (s.clearRegs f).qslots = s.qslots := rfl
@[simp] theorem State.clearRegs_attCfg (f : Nat → Bool) : (s.clearRegs f).attCfg = s.attCfg := rfl
@[simp] theorem State.clearRegs_attSeq (f : Nat → Bool) : (s.clearRegs f).attSeq = s.attSeq := rfl
@[simp] theorem State.clearRegs_xslots (f : Nat → Bool) : (s.clearRegs f).xslots = s.xslots := rfl
@[simp] theorem State.clearRegs_links (f : Nat → Bool) : (s.clearRegs f).links = s.links := rfl
@[simp] theorem State.clearRegs_ports (f : Nat → Bool) : (s.clearRegs f).ports = s.ports := rfl
@[simp] theorem State.clearRegs_nodeReqs (f : Nat → Bool) : (s.clearRegs f).nodeReqs = s.nodeReqs := rfl
@[simp] theorem State.clearRegs_nodeTag (f : Nat → Bool) : (s.clearRegs f).nodeTag = s.nodeTag := rfl
@[simp] theorem State.clearRegs_fabric (f : Nat → Bool) : (s.clearRegs f).fabric = s.fabric := rfl
@[simp] theorem State.clearRegs_reqs (f : Nat → Bool) : (s.clearRegs f).reqs = s.reqs := rfl
@[simp] theorem State.clearRegs_submitted (f : Nat → Bool) : (s.clearRegs f).submitted = s.submitted := rfl
@[simp] theorem State.clearRegs_commands (f : Nat → Bool) : (s.clearRegs f).commands = s.commands := rfl
@[simp] theorem State.clearRegs_svs (f : Nat → Bool) : (s.clearRegs f).svs = s.svs := rfl
@[simp] theorem State.clearRegs_peps (f : Nat → Bool) : (s.clearRegs f).peps = s.peps := rfl
@[simp] theorem State.clearRegs_pepCur (f : Nat → Bool) : (s.clearRegs f).pepCur = s.pepCur := rfl
@[simp] theorem State.clearRegs_pageSeen (f : Nat → Bool) : (s.clearRegs f).pageSeen = s.pageSeen := rfl
@[simp] theorem State.clearRegs_seqBad (f : Nat → Bool) : (s.clearRegs f).seqBad = s.seqBad := rfl
@[simp] theorem State.clearRegs_done (f : Nat → Bool) : (s.clearRegs f).done = s.done := rfl
@[simp] theorem State.clearRegs_rdata (f : Nat → Bool) : (s.clearRegs f).rdata = s.rdata := rfl
@[simp] theorem State.clearRegs_free (f : Nat → Bool) : (s.clearRegs f).free = s.free := rfl
@[simp] theorem State.clearRegs_pending (f : Nat → Bool) : (s.clearRegs f).pending = s.pending := rfl

/-! ### stage -/

@[simp] theorem State.stage_clk (d k : Nat) (v : Word) : (s.stage d k v).clk = s.clk := rfl
@[simp] theorem State.stage_regs (d k : Nat) (v : Word) : (s.stage d k v).regs = s.regs := rfl
@[simp] theorem State.stage_mem (d k : Nat) (v : Word) : (s.stage d k v).mem = s.mem := rfl
@[simp] theorem State.stage_timers (d k : Nat) (v : Word) : (s.stage d k v).timers = s.timers := rfl
@[simp] theorem State.stage_ident (d k : Nat) (v : Word) : (s.stage d k v).ident = s.ident := rfl
@[simp] theorem State.stage_boot (d k : Nat) (v : Word) : (s.stage d k v).boot = s.boot := rfl
@[simp] theorem State.stage_power (d k : Nat) (v : Word) : (s.stage d k v).power = s.power := rfl
@[simp] theorem State.stage_time (d k : Nat) (v : Word) : (s.stage d k v).time = s.time := rfl
@[simp] theorem State.stage_slots (d k : Nat) (v : Word) : (s.stage d k v).slots = s.slots := rfl
@[simp] theorem State.stage_schedLo (d k : Nat) (v : Word) : (s.stage d k v).schedLo = s.schedLo := rfl
@[simp] theorem State.stage_schedHi (d k : Nat) (v : Word) : (s.stage d k v).schedHi = s.schedHi := rfl
@[simp] theorem State.stage_ctrs (d k : Nat) (v : Word) : (s.stage d k v).ctrs = s.ctrs := rfl
@[simp] theorem State.stage_parts (d k : Nat) (v : Word) : (s.stage d k v).parts = s.parts := rfl
@[simp] theorem State.stage_doms (d k : Nat) (v : Word) : (s.stage d k v).doms = s.doms := rfl
@[simp] theorem State.stage_seqs (d k : Nat) (v : Word) : (s.stage d k v).seqs = s.seqs := rfl
@[simp] theorem State.stage_regions (d k : Nat) (v : Word) : (s.stage d k v).regions = s.regions := rfl
@[simp] theorem State.stage_idleUntil (d k : Nat) (v : Word) : (s.stage d k v).idleUntil = s.idleUntil := rfl
@[simp] theorem State.stage_evq (d k : Nat) (v : Word) : (s.stage d k v).evq = s.evq := rfl
@[simp] theorem State.stage_evLost (d k : Nat) (v : Word) : (s.stage d k v).evLost = s.evLost := rfl
@[simp] theorem State.stage_log (d k : Nat) (v : Word) : (s.stage d k v).log = s.log := rfl
@[simp] theorem State.stage_logNext (d k : Nat) (v : Word) : (s.stage d k v).logNext = s.logNext := rfl
@[simp] theorem State.stage_out (d k : Nat) (v : Word) : (s.stage d k v).out = s.out := rfl
@[simp] theorem State.stage_tolvys (d k : Nat) (v : Word) : (s.stage d k v).tolvys = s.tolvys := rfl
@[simp] theorem State.stage_stale (d k : Nat) (v : Word) : (s.stage d k v).stale = s.stale := rfl
@[simp] theorem State.stage_windows (d k : Nat) (v : Word) : (s.stage d k v).windows = s.windows := rfl
@[simp] theorem State.stage_wfOn (d k : Nat) (v : Word) : (s.stage d k v).wfOn = s.wfOn := rfl
@[simp] theorem State.stage_rowSlots (d k : Nat) (v : Word) : (s.stage d k v).rowSlots = s.rowSlots := rfl
@[simp] theorem State.stage_bulk (d k : Nat) (v : Word) : (s.stage d k v).bulk = s.bulk := rfl
@[simp] theorem State.stage_repairs (d k : Nat) (v : Word) : (s.stage d k v).repairs = s.repairs := rfl
@[simp] theorem State.stage_igs (d k : Nat) (v : Word) : (s.stage d k v).igs = s.igs := rfl
@[simp] theorem State.stage_csSets (d k : Nat) (v : Word) : (s.stage d k v).csSets = s.csSets := rfl
@[simp] theorem State.stage_screens (d k : Nat) (v : Word) : (s.stage d k v).screens = s.screens := rfl
@[simp] theorem State.stage_mace (d k : Nat) (v : Word) : (s.stage d k v).mace = s.mace := rfl
@[simp] theorem State.stage_digests (d k : Nat) (v : Word) : (s.stage d k v).digests = s.digests := rfl
@[simp] theorem State.stage_mboxes (d k : Nat) (v : Word) : (s.stage d k v).mboxes = s.mboxes := rfl
@[simp] theorem State.stage_retired (d k : Nat) (v : Word) : (s.stage d k v).retired = s.retired := rfl
@[simp] theorem State.stage_suspect (d k : Nat) (v : Word) : (s.stage d k v).suspect = s.suspect := rfl
@[simp] theorem State.stage_tiles (d k : Nat) (v : Word) : (s.stage d k v).tiles = s.tiles := rfl
@[simp] theorem State.stage_arrFmt (d k : Nat) (v : Word) : (s.stage d k v).arrFmt = s.arrFmt := rfl
@[simp] theorem State.stage_tileTag (d k : Nat) (v : Word) : (s.stage d k v).tileTag = s.tileTag := rfl
@[simp] theorem State.stage_engFail (d k : Nat) (v : Word) : (s.stage d k v).engFail = s.engFail := rfl
@[simp] theorem State.stage_clove (d k : Nat) (v : Word) : (s.stage d k v).clove = s.clove := rfl
@[simp] theorem State.stage_chainCur (d k : Nat) (v : Word) : (s.stage d k v).chainCur = s.chainCur := rfl
@[simp] theorem State.stage_profCur (d k : Nat) (v : Word) : (s.stage d k v).profCur = s.profCur := rfl
@[simp] theorem State.stage_qslots (d k : Nat) (v : Word) : (s.stage d k v).qslots = s.qslots := rfl
@[simp] theorem State.stage_attCfg (d k : Nat) (v : Word) : (s.stage d k v).attCfg = s.attCfg := rfl
@[simp] theorem State.stage_attSeq (d k : Nat) (v : Word) : (s.stage d k v).attSeq = s.attSeq := rfl
@[simp] theorem State.stage_xslots (d k : Nat) (v : Word) : (s.stage d k v).xslots = s.xslots := rfl
@[simp] theorem State.stage_links (d k : Nat) (v : Word) : (s.stage d k v).links = s.links := rfl
@[simp] theorem State.stage_ports (d k : Nat) (v : Word) : (s.stage d k v).ports = s.ports := rfl
@[simp] theorem State.stage_nodeReqs (d k : Nat) (v : Word) : (s.stage d k v).nodeReqs = s.nodeReqs := rfl
@[simp] theorem State.stage_nodeTag (d k : Nat) (v : Word) : (s.stage d k v).nodeTag = s.nodeTag := rfl
@[simp] theorem State.stage_fabric (d k : Nat) (v : Word) : (s.stage d k v).fabric = s.fabric := rfl
@[simp] theorem State.stage_reqs (d k : Nat) (v : Word) : (s.stage d k v).reqs = s.reqs := rfl
@[simp] theorem State.stage_submitted (d k : Nat) (v : Word) : (s.stage d k v).submitted = s.submitted := rfl
@[simp] theorem State.stage_commands (d k : Nat) (v : Word) : (s.stage d k v).commands = s.commands := rfl
@[simp] theorem State.stage_svs (d k : Nat) (v : Word) : (s.stage d k v).svs = s.svs := rfl
@[simp] theorem State.stage_peps (d k : Nat) (v : Word) : (s.stage d k v).peps = s.peps := rfl
@[simp] theorem State.stage_pepCur (d k : Nat) (v : Word) : (s.stage d k v).pepCur = s.pepCur := rfl
@[simp] theorem State.stage_pageSeen (d k : Nat) (v : Word) : (s.stage d k v).pageSeen = s.pageSeen := rfl
@[simp] theorem State.stage_seqBad (d k : Nat) (v : Word) : (s.stage d k v).seqBad = s.seqBad := rfl
@[simp] theorem State.stage_done (d k : Nat) (v : Word) : (s.stage d k v).done = s.done := rfl
@[simp] theorem State.stage_rdata (d k : Nat) (v : Word) : (s.stage d k v).rdata = s.rdata := rfl
@[simp] theorem State.stage_free (d k : Nat) (v : Word) : (s.stage d k v).free = s.free := rfl
@[simp] theorem State.stage_pending (d k : Nat) (v : Word) : (s.stage d k v).pending = s.pending := rfl

/-! ### ends -/

@[simp] theorem State.ends_clk (st : Status) : (s.ends st).clk = s.clk := rfl
@[simp] theorem State.ends_regs (st : Status) : (s.ends st).regs = s.regs := rfl
@[simp] theorem State.ends_staged (st : Status) : (s.ends st).staged = s.staged := rfl
@[simp] theorem State.ends_mem (st : Status) : (s.ends st).mem = s.mem := rfl
@[simp] theorem State.ends_timers (st : Status) : (s.ends st).timers = s.timers := rfl
@[simp] theorem State.ends_ident (st : Status) : (s.ends st).ident = s.ident := rfl
@[simp] theorem State.ends_boot (st : Status) : (s.ends st).boot = s.boot := rfl
@[simp] theorem State.ends_power (st : Status) : (s.ends st).power = s.power := rfl
@[simp] theorem State.ends_time (st : Status) : (s.ends st).time = s.time := rfl
@[simp] theorem State.ends_slots (st : Status) : (s.ends st).slots = s.slots := rfl
@[simp] theorem State.ends_schedLo (st : Status) : (s.ends st).schedLo = s.schedLo := rfl
@[simp] theorem State.ends_schedHi (st : Status) : (s.ends st).schedHi = s.schedHi := rfl
@[simp] theorem State.ends_ctrs (st : Status) : (s.ends st).ctrs = s.ctrs := rfl
@[simp] theorem State.ends_parts (st : Status) : (s.ends st).parts = s.parts := rfl
@[simp] theorem State.ends_doms (st : Status) : (s.ends st).doms = s.doms := rfl
@[simp] theorem State.ends_seqs (st : Status) : (s.ends st).seqs = s.seqs := rfl
@[simp] theorem State.ends_regions (st : Status) : (s.ends st).regions = s.regions := rfl
@[simp] theorem State.ends_idleUntil (st : Status) : (s.ends st).idleUntil = s.idleUntil := rfl
@[simp] theorem State.ends_evq (st : Status) : (s.ends st).evq = s.evq := rfl
@[simp] theorem State.ends_evLost (st : Status) : (s.ends st).evLost = s.evLost := rfl
@[simp] theorem State.ends_log (st : Status) : (s.ends st).log = s.log := rfl
@[simp] theorem State.ends_logNext (st : Status) : (s.ends st).logNext = s.logNext := rfl
@[simp] theorem State.ends_out (st : Status) : (s.ends st).out = s.out := rfl
@[simp] theorem State.ends_tolvys (st : Status) : (s.ends st).tolvys = s.tolvys := rfl
@[simp] theorem State.ends_stale (st : Status) : (s.ends st).stale = s.stale := rfl
@[simp] theorem State.ends_windows (st : Status) : (s.ends st).windows = s.windows := rfl
@[simp] theorem State.ends_wfOn (st : Status) : (s.ends st).wfOn = s.wfOn := rfl
@[simp] theorem State.ends_rowSlots (st : Status) : (s.ends st).rowSlots = s.rowSlots := rfl
@[simp] theorem State.ends_bulk (st : Status) : (s.ends st).bulk = s.bulk := rfl
@[simp] theorem State.ends_repairs (st : Status) : (s.ends st).repairs = s.repairs := rfl
@[simp] theorem State.ends_igs (st : Status) : (s.ends st).igs = s.igs := rfl
@[simp] theorem State.ends_csSets (st : Status) : (s.ends st).csSets = s.csSets := rfl
@[simp] theorem State.ends_screens (st : Status) : (s.ends st).screens = s.screens := rfl
@[simp] theorem State.ends_mace (st : Status) : (s.ends st).mace = s.mace := rfl
@[simp] theorem State.ends_digests (st : Status) : (s.ends st).digests = s.digests := rfl
@[simp] theorem State.ends_mboxes (st : Status) : (s.ends st).mboxes = s.mboxes := rfl
@[simp] theorem State.ends_retired (st : Status) : (s.ends st).retired = s.retired := rfl
@[simp] theorem State.ends_suspect (st : Status) : (s.ends st).suspect = s.suspect := rfl
@[simp] theorem State.ends_tiles (st : Status) : (s.ends st).tiles = s.tiles := rfl
@[simp] theorem State.ends_arrFmt (st : Status) : (s.ends st).arrFmt = s.arrFmt := rfl
@[simp] theorem State.ends_tileTag (st : Status) : (s.ends st).tileTag = s.tileTag := rfl
@[simp] theorem State.ends_engFail (st : Status) : (s.ends st).engFail = s.engFail := rfl
@[simp] theorem State.ends_clove (st : Status) : (s.ends st).clove = s.clove := rfl
@[simp] theorem State.ends_chainCur (st : Status) : (s.ends st).chainCur = s.chainCur := rfl
@[simp] theorem State.ends_profCur (st : Status) : (s.ends st).profCur = s.profCur := rfl
@[simp] theorem State.ends_qslots (st : Status) : (s.ends st).qslots = s.qslots := rfl
@[simp] theorem State.ends_attCfg (st : Status) : (s.ends st).attCfg = s.attCfg := rfl
@[simp] theorem State.ends_attSeq (st : Status) : (s.ends st).attSeq = s.attSeq := rfl
@[simp] theorem State.ends_xslots (st : Status) : (s.ends st).xslots = s.xslots := rfl
@[simp] theorem State.ends_links (st : Status) : (s.ends st).links = s.links := rfl
@[simp] theorem State.ends_ports (st : Status) : (s.ends st).ports = s.ports := rfl
@[simp] theorem State.ends_nodeReqs (st : Status) : (s.ends st).nodeReqs = s.nodeReqs := rfl
@[simp] theorem State.ends_nodeTag (st : Status) : (s.ends st).nodeTag = s.nodeTag := rfl
@[simp] theorem State.ends_fabric (st : Status) : (s.ends st).fabric = s.fabric := rfl
@[simp] theorem State.ends_reqs (st : Status) : (s.ends st).reqs = s.reqs := rfl
@[simp] theorem State.ends_submitted (st : Status) : (s.ends st).submitted = s.submitted := rfl
@[simp] theorem State.ends_commands (st : Status) : (s.ends st).commands = s.commands := rfl
@[simp] theorem State.ends_svs (st : Status) : (s.ends st).svs = s.svs := rfl
@[simp] theorem State.ends_peps (st : Status) : (s.ends st).peps = s.peps := rfl
@[simp] theorem State.ends_pepCur (st : Status) : (s.ends st).pepCur = s.pepCur := rfl
@[simp] theorem State.ends_pageSeen (st : Status) : (s.ends st).pageSeen = s.pageSeen := rfl
@[simp] theorem State.ends_seqBad (st : Status) : (s.ends st).seqBad = s.seqBad := rfl
@[simp] theorem State.ends_rdata (st : Status) : (s.ends st).rdata = s.rdata := rfl
@[simp] theorem State.ends_free (st : Status) : (s.ends st).free = s.free := rfl
@[simp] theorem State.ends_pending (st : Status) : (s.ends st).pending = s.pending := rfl

/-! ### emit -/

@[simp] theorem State.emit_clk (o : Out) : (s.emit o).clk = s.clk := rfl
@[simp] theorem State.emit_regs (o : Out) : (s.emit o).regs = s.regs := rfl
@[simp] theorem State.emit_staged (o : Out) : (s.emit o).staged = s.staged := rfl
@[simp] theorem State.emit_mem (o : Out) : (s.emit o).mem = s.mem := rfl
@[simp] theorem State.emit_timers (o : Out) : (s.emit o).timers = s.timers := rfl
@[simp] theorem State.emit_ident (o : Out) : (s.emit o).ident = s.ident := rfl
@[simp] theorem State.emit_boot (o : Out) : (s.emit o).boot = s.boot := rfl
@[simp] theorem State.emit_power (o : Out) : (s.emit o).power = s.power := rfl
@[simp] theorem State.emit_time (o : Out) : (s.emit o).time = s.time := rfl
@[simp] theorem State.emit_slots (o : Out) : (s.emit o).slots = s.slots := rfl
@[simp] theorem State.emit_schedLo (o : Out) : (s.emit o).schedLo = s.schedLo := rfl
@[simp] theorem State.emit_schedHi (o : Out) : (s.emit o).schedHi = s.schedHi := rfl
@[simp] theorem State.emit_ctrs (o : Out) : (s.emit o).ctrs = s.ctrs := rfl
@[simp] theorem State.emit_parts (o : Out) : (s.emit o).parts = s.parts := rfl
@[simp] theorem State.emit_doms (o : Out) : (s.emit o).doms = s.doms := rfl
@[simp] theorem State.emit_seqs (o : Out) : (s.emit o).seqs = s.seqs := rfl
@[simp] theorem State.emit_regions (o : Out) : (s.emit o).regions = s.regions := rfl
@[simp] theorem State.emit_idleUntil (o : Out) : (s.emit o).idleUntil = s.idleUntil := rfl
@[simp] theorem State.emit_evq (o : Out) : (s.emit o).evq = s.evq := rfl
@[simp] theorem State.emit_evLost (o : Out) : (s.emit o).evLost = s.evLost := rfl
@[simp] theorem State.emit_log (o : Out) : (s.emit o).log = s.log := rfl
@[simp] theorem State.emit_logNext (o : Out) : (s.emit o).logNext = s.logNext := rfl
@[simp] theorem State.emit_tolvys (o : Out) : (s.emit o).tolvys = s.tolvys := rfl
@[simp] theorem State.emit_stale (o : Out) : (s.emit o).stale = s.stale := rfl
@[simp] theorem State.emit_windows (o : Out) : (s.emit o).windows = s.windows := rfl
@[simp] theorem State.emit_wfOn (o : Out) : (s.emit o).wfOn = s.wfOn := rfl
@[simp] theorem State.emit_rowSlots (o : Out) : (s.emit o).rowSlots = s.rowSlots := rfl
@[simp] theorem State.emit_bulk (o : Out) : (s.emit o).bulk = s.bulk := rfl
@[simp] theorem State.emit_repairs (o : Out) : (s.emit o).repairs = s.repairs := rfl
@[simp] theorem State.emit_igs (o : Out) : (s.emit o).igs = s.igs := rfl
@[simp] theorem State.emit_csSets (o : Out) : (s.emit o).csSets = s.csSets := rfl
@[simp] theorem State.emit_screens (o : Out) : (s.emit o).screens = s.screens := rfl
@[simp] theorem State.emit_mace (o : Out) : (s.emit o).mace = s.mace := rfl
@[simp] theorem State.emit_digests (o : Out) : (s.emit o).digests = s.digests := rfl
@[simp] theorem State.emit_mboxes (o : Out) : (s.emit o).mboxes = s.mboxes := rfl
@[simp] theorem State.emit_retired (o : Out) : (s.emit o).retired = s.retired := rfl
@[simp] theorem State.emit_suspect (o : Out) : (s.emit o).suspect = s.suspect := rfl
@[simp] theorem State.emit_tiles (o : Out) : (s.emit o).tiles = s.tiles := rfl
@[simp] theorem State.emit_arrFmt (o : Out) : (s.emit o).arrFmt = s.arrFmt := rfl
@[simp] theorem State.emit_tileTag (o : Out) : (s.emit o).tileTag = s.tileTag := rfl
@[simp] theorem State.emit_engFail (o : Out) : (s.emit o).engFail = s.engFail := rfl
@[simp] theorem State.emit_clove (o : Out) : (s.emit o).clove = s.clove := rfl
@[simp] theorem State.emit_chainCur (o : Out) : (s.emit o).chainCur = s.chainCur := rfl
@[simp] theorem State.emit_profCur (o : Out) : (s.emit o).profCur = s.profCur := rfl
@[simp] theorem State.emit_qslots (o : Out) : (s.emit o).qslots = s.qslots := rfl
@[simp] theorem State.emit_attCfg (o : Out) : (s.emit o).attCfg = s.attCfg := rfl
@[simp] theorem State.emit_attSeq (o : Out) : (s.emit o).attSeq = s.attSeq := rfl
@[simp] theorem State.emit_xslots (o : Out) : (s.emit o).xslots = s.xslots := rfl
@[simp] theorem State.emit_links (o : Out) : (s.emit o).links = s.links := rfl
@[simp] theorem State.emit_ports (o : Out) : (s.emit o).ports = s.ports := rfl
@[simp] theorem State.emit_nodeReqs (o : Out) : (s.emit o).nodeReqs = s.nodeReqs := rfl
@[simp] theorem State.emit_nodeTag (o : Out) : (s.emit o).nodeTag = s.nodeTag := rfl
@[simp] theorem State.emit_fabric (o : Out) : (s.emit o).fabric = s.fabric := rfl
@[simp] theorem State.emit_reqs (o : Out) : (s.emit o).reqs = s.reqs := rfl
@[simp] theorem State.emit_submitted (o : Out) : (s.emit o).submitted = s.submitted := rfl
@[simp] theorem State.emit_commands (o : Out) : (s.emit o).commands = s.commands := rfl
@[simp] theorem State.emit_svs (o : Out) : (s.emit o).svs = s.svs := rfl
@[simp] theorem State.emit_peps (o : Out) : (s.emit o).peps = s.peps := rfl
@[simp] theorem State.emit_pepCur (o : Out) : (s.emit o).pepCur = s.pepCur := rfl
@[simp] theorem State.emit_pageSeen (o : Out) : (s.emit o).pageSeen = s.pageSeen := rfl
@[simp] theorem State.emit_seqBad (o : Out) : (s.emit o).seqBad = s.seqBad := rfl
@[simp] theorem State.emit_done (o : Out) : (s.emit o).done = s.done := rfl
@[simp] theorem State.emit_rdata (o : Out) : (s.emit o).rdata = s.rdata := rfl
@[simp] theorem State.emit_free (o : Out) : (s.emit o).free = s.free := rfl
@[simp] theorem State.emit_pending (o : Out) : (s.emit o).pending = s.pending := rfl

/-! ### useFree -/

@[simp] theorem State.useFree_clk : (s.useFree).clk = s.clk := rfl
@[simp] theorem State.useFree_regs : (s.useFree).regs = s.regs := rfl
@[simp] theorem State.useFree_staged : (s.useFree).staged = s.staged := rfl
@[simp] theorem State.useFree_mem : (s.useFree).mem = s.mem := rfl
@[simp] theorem State.useFree_timers : (s.useFree).timers = s.timers := rfl
@[simp] theorem State.useFree_ident : (s.useFree).ident = s.ident := rfl
@[simp] theorem State.useFree_boot : (s.useFree).boot = s.boot := rfl
@[simp] theorem State.useFree_power : (s.useFree).power = s.power := rfl
@[simp] theorem State.useFree_time : (s.useFree).time = s.time := rfl
@[simp] theorem State.useFree_slots : (s.useFree).slots = s.slots := rfl
@[simp] theorem State.useFree_schedLo : (s.useFree).schedLo = s.schedLo := rfl
@[simp] theorem State.useFree_schedHi : (s.useFree).schedHi = s.schedHi := rfl
@[simp] theorem State.useFree_ctrs : (s.useFree).ctrs = s.ctrs := rfl
@[simp] theorem State.useFree_parts : (s.useFree).parts = s.parts := rfl
@[simp] theorem State.useFree_doms : (s.useFree).doms = s.doms := rfl
@[simp] theorem State.useFree_seqs : (s.useFree).seqs = s.seqs := rfl
@[simp] theorem State.useFree_regions : (s.useFree).regions = s.regions := rfl
@[simp] theorem State.useFree_idleUntil : (s.useFree).idleUntil = s.idleUntil := rfl
@[simp] theorem State.useFree_evq : (s.useFree).evq = s.evq := rfl
@[simp] theorem State.useFree_evLost : (s.useFree).evLost = s.evLost := rfl
@[simp] theorem State.useFree_log : (s.useFree).log = s.log := rfl
@[simp] theorem State.useFree_logNext : (s.useFree).logNext = s.logNext := rfl
@[simp] theorem State.useFree_out : (s.useFree).out = s.out := rfl
@[simp] theorem State.useFree_tolvys : (s.useFree).tolvys = s.tolvys := rfl
@[simp] theorem State.useFree_stale : (s.useFree).stale = s.stale := rfl
@[simp] theorem State.useFree_windows : (s.useFree).windows = s.windows := rfl
@[simp] theorem State.useFree_wfOn : (s.useFree).wfOn = s.wfOn := rfl
@[simp] theorem State.useFree_rowSlots : (s.useFree).rowSlots = s.rowSlots := rfl
@[simp] theorem State.useFree_bulk : (s.useFree).bulk = s.bulk := rfl
@[simp] theorem State.useFree_repairs : (s.useFree).repairs = s.repairs := rfl
@[simp] theorem State.useFree_igs : (s.useFree).igs = s.igs := rfl
@[simp] theorem State.useFree_csSets : (s.useFree).csSets = s.csSets := rfl
@[simp] theorem State.useFree_screens : (s.useFree).screens = s.screens := rfl
@[simp] theorem State.useFree_mace : (s.useFree).mace = s.mace := rfl
@[simp] theorem State.useFree_digests : (s.useFree).digests = s.digests := rfl
@[simp] theorem State.useFree_mboxes : (s.useFree).mboxes = s.mboxes := rfl
@[simp] theorem State.useFree_retired : (s.useFree).retired = s.retired := rfl
@[simp] theorem State.useFree_suspect : (s.useFree).suspect = s.suspect := rfl
@[simp] theorem State.useFree_tiles : (s.useFree).tiles = s.tiles := rfl
@[simp] theorem State.useFree_arrFmt : (s.useFree).arrFmt = s.arrFmt := rfl
@[simp] theorem State.useFree_tileTag : (s.useFree).tileTag = s.tileTag := rfl
@[simp] theorem State.useFree_engFail : (s.useFree).engFail = s.engFail := rfl
@[simp] theorem State.useFree_clove : (s.useFree).clove = s.clove := rfl
@[simp] theorem State.useFree_chainCur : (s.useFree).chainCur = s.chainCur := rfl
@[simp] theorem State.useFree_profCur : (s.useFree).profCur = s.profCur := rfl
@[simp] theorem State.useFree_qslots : (s.useFree).qslots = s.qslots := rfl
@[simp] theorem State.useFree_attCfg : (s.useFree).attCfg = s.attCfg := rfl
@[simp] theorem State.useFree_attSeq : (s.useFree).attSeq = s.attSeq := rfl
@[simp] theorem State.useFree_xslots : (s.useFree).xslots = s.xslots := rfl
@[simp] theorem State.useFree_links : (s.useFree).links = s.links := rfl
@[simp] theorem State.useFree_ports : (s.useFree).ports = s.ports := rfl
@[simp] theorem State.useFree_nodeReqs : (s.useFree).nodeReqs = s.nodeReqs := rfl
@[simp] theorem State.useFree_nodeTag : (s.useFree).nodeTag = s.nodeTag := rfl
@[simp] theorem State.useFree_fabric : (s.useFree).fabric = s.fabric := rfl
@[simp] theorem State.useFree_reqs : (s.useFree).reqs = s.reqs := rfl
@[simp] theorem State.useFree_submitted : (s.useFree).submitted = s.submitted := rfl
@[simp] theorem State.useFree_commands : (s.useFree).commands = s.commands := rfl
@[simp] theorem State.useFree_svs : (s.useFree).svs = s.svs := rfl
@[simp] theorem State.useFree_peps : (s.useFree).peps = s.peps := rfl
@[simp] theorem State.useFree_pepCur : (s.useFree).pepCur = s.pepCur := rfl
@[simp] theorem State.useFree_pageSeen : (s.useFree).pageSeen = s.pageSeen := rfl
@[simp] theorem State.useFree_seqBad : (s.useFree).seqBad = s.seqBad := rfl
@[simp] theorem State.useFree_done : (s.useFree).done = s.done := rfl
@[simp] theorem State.useFree_rdata : (s.useFree).rdata = s.rdata := rfl
@[simp] theorem State.useFree_pending : (s.useFree).pending = s.pending := rfl

/-! ### wrMem -/

@[simp] theorem State.wrMem_clk (sp : Space) (o : Nat) (bs : List Byte) : (s.wrMem sp o bs).clk = s.clk := rfl
@[simp] theorem State.wrMem_regs (sp : Space) (o : Nat) (bs : List Byte) : (s.wrMem sp o bs).regs = s.regs := rfl
@[simp] theorem State.wrMem_staged (sp : Space) (o : Nat) (bs : List Byte) : (s.wrMem sp o bs).staged = s.staged := rfl
@[simp] theorem State.wrMem_timers (sp : Space) (o : Nat) (bs : List Byte) : (s.wrMem sp o bs).timers = s.timers := rfl
@[simp] theorem State.wrMem_ident (sp : Space) (o : Nat) (bs : List Byte) : (s.wrMem sp o bs).ident = s.ident := rfl
@[simp] theorem State.wrMem_boot (sp : Space) (o : Nat) (bs : List Byte) : (s.wrMem sp o bs).boot = s.boot := rfl
@[simp] theorem State.wrMem_power (sp : Space) (o : Nat) (bs : List Byte) : (s.wrMem sp o bs).power = s.power := rfl
@[simp] theorem State.wrMem_time (sp : Space) (o : Nat) (bs : List Byte) : (s.wrMem sp o bs).time = s.time := rfl
@[simp] theorem State.wrMem_slots (sp : Space) (o : Nat) (bs : List Byte) : (s.wrMem sp o bs).slots = s.slots := rfl
@[simp] theorem State.wrMem_schedLo (sp : Space) (o : Nat) (bs : List Byte) : (s.wrMem sp o bs).schedLo = s.schedLo := rfl
@[simp] theorem State.wrMem_schedHi (sp : Space) (o : Nat) (bs : List Byte) : (s.wrMem sp o bs).schedHi = s.schedHi := rfl
@[simp] theorem State.wrMem_ctrs (sp : Space) (o : Nat) (bs : List Byte) : (s.wrMem sp o bs).ctrs = s.ctrs := rfl
@[simp] theorem State.wrMem_parts (sp : Space) (o : Nat) (bs : List Byte) : (s.wrMem sp o bs).parts = s.parts := rfl
@[simp] theorem State.wrMem_doms (sp : Space) (o : Nat) (bs : List Byte) : (s.wrMem sp o bs).doms = s.doms := rfl
@[simp] theorem State.wrMem_seqs (sp : Space) (o : Nat) (bs : List Byte) : (s.wrMem sp o bs).seqs = s.seqs := rfl
@[simp] theorem State.wrMem_regions (sp : Space) (o : Nat) (bs : List Byte) : (s.wrMem sp o bs).regions = s.regions := rfl
@[simp] theorem State.wrMem_idleUntil (sp : Space) (o : Nat) (bs : List Byte) : (s.wrMem sp o bs).idleUntil = s.idleUntil := rfl
@[simp] theorem State.wrMem_evq (sp : Space) (o : Nat) (bs : List Byte) : (s.wrMem sp o bs).evq = s.evq := rfl
@[simp] theorem State.wrMem_evLost (sp : Space) (o : Nat) (bs : List Byte) : (s.wrMem sp o bs).evLost = s.evLost := rfl
@[simp] theorem State.wrMem_log (sp : Space) (o : Nat) (bs : List Byte) : (s.wrMem sp o bs).log = s.log := rfl
@[simp] theorem State.wrMem_logNext (sp : Space) (o : Nat) (bs : List Byte) : (s.wrMem sp o bs).logNext = s.logNext := rfl
@[simp] theorem State.wrMem_out (sp : Space) (o : Nat) (bs : List Byte) : (s.wrMem sp o bs).out = s.out := rfl
@[simp] theorem State.wrMem_tolvys (sp : Space) (o : Nat) (bs : List Byte) : (s.wrMem sp o bs).tolvys = s.tolvys := rfl
@[simp] theorem State.wrMem_stale (sp : Space) (o : Nat) (bs : List Byte) : (s.wrMem sp o bs).stale = s.stale := rfl
@[simp] theorem State.wrMem_windows (sp : Space) (o : Nat) (bs : List Byte) : (s.wrMem sp o bs).windows = s.windows := rfl
@[simp] theorem State.wrMem_wfOn (sp : Space) (o : Nat) (bs : List Byte) : (s.wrMem sp o bs).wfOn = s.wfOn := rfl
@[simp] theorem State.wrMem_rowSlots (sp : Space) (o : Nat) (bs : List Byte) : (s.wrMem sp o bs).rowSlots = s.rowSlots := rfl
@[simp] theorem State.wrMem_bulk (sp : Space) (o : Nat) (bs : List Byte) : (s.wrMem sp o bs).bulk = s.bulk := rfl
@[simp] theorem State.wrMem_repairs (sp : Space) (o : Nat) (bs : List Byte) : (s.wrMem sp o bs).repairs = s.repairs := rfl
@[simp] theorem State.wrMem_igs (sp : Space) (o : Nat) (bs : List Byte) : (s.wrMem sp o bs).igs = s.igs := rfl
@[simp] theorem State.wrMem_csSets (sp : Space) (o : Nat) (bs : List Byte) : (s.wrMem sp o bs).csSets = s.csSets := rfl
@[simp] theorem State.wrMem_screens (sp : Space) (o : Nat) (bs : List Byte) : (s.wrMem sp o bs).screens = s.screens := rfl
@[simp] theorem State.wrMem_mace (sp : Space) (o : Nat) (bs : List Byte) : (s.wrMem sp o bs).mace = s.mace := rfl
@[simp] theorem State.wrMem_digests (sp : Space) (o : Nat) (bs : List Byte) : (s.wrMem sp o bs).digests = s.digests := rfl
@[simp] theorem State.wrMem_mboxes (sp : Space) (o : Nat) (bs : List Byte) : (s.wrMem sp o bs).mboxes = s.mboxes := rfl
@[simp] theorem State.wrMem_retired (sp : Space) (o : Nat) (bs : List Byte) : (s.wrMem sp o bs).retired = s.retired := rfl
@[simp] theorem State.wrMem_suspect (sp : Space) (o : Nat) (bs : List Byte) : (s.wrMem sp o bs).suspect = s.suspect := rfl
@[simp] theorem State.wrMem_tiles (sp : Space) (o : Nat) (bs : List Byte) : (s.wrMem sp o bs).tiles = s.tiles := rfl
@[simp] theorem State.wrMem_arrFmt (sp : Space) (o : Nat) (bs : List Byte) : (s.wrMem sp o bs).arrFmt = s.arrFmt := rfl
@[simp] theorem State.wrMem_tileTag (sp : Space) (o : Nat) (bs : List Byte) : (s.wrMem sp o bs).tileTag = s.tileTag := rfl
@[simp] theorem State.wrMem_engFail (sp : Space) (o : Nat) (bs : List Byte) : (s.wrMem sp o bs).engFail = s.engFail := rfl
@[simp] theorem State.wrMem_clove (sp : Space) (o : Nat) (bs : List Byte) : (s.wrMem sp o bs).clove = s.clove := rfl
@[simp] theorem State.wrMem_chainCur (sp : Space) (o : Nat) (bs : List Byte) : (s.wrMem sp o bs).chainCur = s.chainCur := rfl
@[simp] theorem State.wrMem_profCur (sp : Space) (o : Nat) (bs : List Byte) : (s.wrMem sp o bs).profCur = s.profCur := rfl
@[simp] theorem State.wrMem_qslots (sp : Space) (o : Nat) (bs : List Byte) : (s.wrMem sp o bs).qslots = s.qslots := rfl
@[simp] theorem State.wrMem_attCfg (sp : Space) (o : Nat) (bs : List Byte) : (s.wrMem sp o bs).attCfg = s.attCfg := rfl
@[simp] theorem State.wrMem_attSeq (sp : Space) (o : Nat) (bs : List Byte) : (s.wrMem sp o bs).attSeq = s.attSeq := rfl
@[simp] theorem State.wrMem_xslots (sp : Space) (o : Nat) (bs : List Byte) : (s.wrMem sp o bs).xslots = s.xslots := rfl
@[simp] theorem State.wrMem_links (sp : Space) (o : Nat) (bs : List Byte) : (s.wrMem sp o bs).links = s.links := rfl
@[simp] theorem State.wrMem_ports (sp : Space) (o : Nat) (bs : List Byte) : (s.wrMem sp o bs).ports = s.ports := rfl
@[simp] theorem State.wrMem_nodeReqs (sp : Space) (o : Nat) (bs : List Byte) : (s.wrMem sp o bs).nodeReqs = s.nodeReqs := rfl
@[simp] theorem State.wrMem_nodeTag (sp : Space) (o : Nat) (bs : List Byte) : (s.wrMem sp o bs).nodeTag = s.nodeTag := rfl
@[simp] theorem State.wrMem_fabric (sp : Space) (o : Nat) (bs : List Byte) : (s.wrMem sp o bs).fabric = s.fabric := rfl
@[simp] theorem State.wrMem_reqs (sp : Space) (o : Nat) (bs : List Byte) : (s.wrMem sp o bs).reqs = s.reqs := rfl
@[simp] theorem State.wrMem_submitted (sp : Space) (o : Nat) (bs : List Byte) : (s.wrMem sp o bs).submitted = s.submitted := rfl
@[simp] theorem State.wrMem_commands (sp : Space) (o : Nat) (bs : List Byte) : (s.wrMem sp o bs).commands = s.commands := rfl
@[simp] theorem State.wrMem_svs (sp : Space) (o : Nat) (bs : List Byte) : (s.wrMem sp o bs).svs = s.svs := rfl
@[simp] theorem State.wrMem_peps (sp : Space) (o : Nat) (bs : List Byte) : (s.wrMem sp o bs).peps = s.peps := rfl
@[simp] theorem State.wrMem_pepCur (sp : Space) (o : Nat) (bs : List Byte) : (s.wrMem sp o bs).pepCur = s.pepCur := rfl
@[simp] theorem State.wrMem_pageSeen (sp : Space) (o : Nat) (bs : List Byte) : (s.wrMem sp o bs).pageSeen = s.pageSeen := rfl
@[simp] theorem State.wrMem_seqBad (sp : Space) (o : Nat) (bs : List Byte) : (s.wrMem sp o bs).seqBad = s.seqBad := rfl
@[simp] theorem State.wrMem_done (sp : Space) (o : Nat) (bs : List Byte) : (s.wrMem sp o bs).done = s.done := rfl
@[simp] theorem State.wrMem_rdata (sp : Space) (o : Nat) (bs : List Byte) : (s.wrMem sp o bs).rdata = s.rdata := rfl
@[simp] theorem State.wrMem_free (sp : Space) (o : Nat) (bs : List Byte) : (s.wrMem sp o bs).free = s.free := rfl
@[simp] theorem State.wrMem_pending (sp : Space) (o : Nat) (bs : List Byte) : (s.wrMem sp o bs).pending = s.pending := rfl

/-! ### clrMem -/

@[simp] theorem State.clrMem_clk (sp : Space) (o n : Nat) : (s.clrMem sp o n).clk = s.clk := rfl
@[simp] theorem State.clrMem_regs (sp : Space) (o n : Nat) : (s.clrMem sp o n).regs = s.regs := rfl
@[simp] theorem State.clrMem_staged (sp : Space) (o n : Nat) : (s.clrMem sp o n).staged = s.staged := rfl
@[simp] theorem State.clrMem_timers (sp : Space) (o n : Nat) : (s.clrMem sp o n).timers = s.timers := rfl
@[simp] theorem State.clrMem_ident (sp : Space) (o n : Nat) : (s.clrMem sp o n).ident = s.ident := rfl
@[simp] theorem State.clrMem_boot (sp : Space) (o n : Nat) : (s.clrMem sp o n).boot = s.boot := rfl
@[simp] theorem State.clrMem_power (sp : Space) (o n : Nat) : (s.clrMem sp o n).power = s.power := rfl
@[simp] theorem State.clrMem_time (sp : Space) (o n : Nat) : (s.clrMem sp o n).time = s.time := rfl
@[simp] theorem State.clrMem_slots (sp : Space) (o n : Nat) : (s.clrMem sp o n).slots = s.slots := rfl
@[simp] theorem State.clrMem_schedLo (sp : Space) (o n : Nat) : (s.clrMem sp o n).schedLo = s.schedLo := rfl
@[simp] theorem State.clrMem_schedHi (sp : Space) (o n : Nat) : (s.clrMem sp o n).schedHi = s.schedHi := rfl
@[simp] theorem State.clrMem_ctrs (sp : Space) (o n : Nat) : (s.clrMem sp o n).ctrs = s.ctrs := rfl
@[simp] theorem State.clrMem_parts (sp : Space) (o n : Nat) : (s.clrMem sp o n).parts = s.parts := rfl
@[simp] theorem State.clrMem_doms (sp : Space) (o n : Nat) : (s.clrMem sp o n).doms = s.doms := rfl
@[simp] theorem State.clrMem_seqs (sp : Space) (o n : Nat) : (s.clrMem sp o n).seqs = s.seqs := rfl
@[simp] theorem State.clrMem_regions (sp : Space) (o n : Nat) : (s.clrMem sp o n).regions = s.regions := rfl
@[simp] theorem State.clrMem_idleUntil (sp : Space) (o n : Nat) : (s.clrMem sp o n).idleUntil = s.idleUntil := rfl
@[simp] theorem State.clrMem_evq (sp : Space) (o n : Nat) : (s.clrMem sp o n).evq = s.evq := rfl
@[simp] theorem State.clrMem_evLost (sp : Space) (o n : Nat) : (s.clrMem sp o n).evLost = s.evLost := rfl
@[simp] theorem State.clrMem_log (sp : Space) (o n : Nat) : (s.clrMem sp o n).log = s.log := rfl
@[simp] theorem State.clrMem_logNext (sp : Space) (o n : Nat) : (s.clrMem sp o n).logNext = s.logNext := rfl
@[simp] theorem State.clrMem_out (sp : Space) (o n : Nat) : (s.clrMem sp o n).out = s.out := rfl
@[simp] theorem State.clrMem_tolvys (sp : Space) (o n : Nat) : (s.clrMem sp o n).tolvys = s.tolvys := rfl
@[simp] theorem State.clrMem_stale (sp : Space) (o n : Nat) : (s.clrMem sp o n).stale = s.stale := rfl
@[simp] theorem State.clrMem_windows (sp : Space) (o n : Nat) : (s.clrMem sp o n).windows = s.windows := rfl
@[simp] theorem State.clrMem_wfOn (sp : Space) (o n : Nat) : (s.clrMem sp o n).wfOn = s.wfOn := rfl
@[simp] theorem State.clrMem_rowSlots (sp : Space) (o n : Nat) : (s.clrMem sp o n).rowSlots = s.rowSlots := rfl
@[simp] theorem State.clrMem_bulk (sp : Space) (o n : Nat) : (s.clrMem sp o n).bulk = s.bulk := rfl
@[simp] theorem State.clrMem_repairs (sp : Space) (o n : Nat) : (s.clrMem sp o n).repairs = s.repairs := rfl
@[simp] theorem State.clrMem_igs (sp : Space) (o n : Nat) : (s.clrMem sp o n).igs = s.igs := rfl
@[simp] theorem State.clrMem_csSets (sp : Space) (o n : Nat) : (s.clrMem sp o n).csSets = s.csSets := rfl
@[simp] theorem State.clrMem_screens (sp : Space) (o n : Nat) : (s.clrMem sp o n).screens = s.screens := rfl
@[simp] theorem State.clrMem_mace (sp : Space) (o n : Nat) : (s.clrMem sp o n).mace = s.mace := rfl
@[simp] theorem State.clrMem_digests (sp : Space) (o n : Nat) : (s.clrMem sp o n).digests = s.digests := rfl
@[simp] theorem State.clrMem_mboxes (sp : Space) (o n : Nat) : (s.clrMem sp o n).mboxes = s.mboxes := rfl
@[simp] theorem State.clrMem_retired (sp : Space) (o n : Nat) : (s.clrMem sp o n).retired = s.retired := rfl
@[simp] theorem State.clrMem_suspect (sp : Space) (o n : Nat) : (s.clrMem sp o n).suspect = s.suspect := rfl
@[simp] theorem State.clrMem_tiles (sp : Space) (o n : Nat) : (s.clrMem sp o n).tiles = s.tiles := rfl
@[simp] theorem State.clrMem_arrFmt (sp : Space) (o n : Nat) : (s.clrMem sp o n).arrFmt = s.arrFmt := rfl
@[simp] theorem State.clrMem_tileTag (sp : Space) (o n : Nat) : (s.clrMem sp o n).tileTag = s.tileTag := rfl
@[simp] theorem State.clrMem_engFail (sp : Space) (o n : Nat) : (s.clrMem sp o n).engFail = s.engFail := rfl
@[simp] theorem State.clrMem_clove (sp : Space) (o n : Nat) : (s.clrMem sp o n).clove = s.clove := rfl
@[simp] theorem State.clrMem_chainCur (sp : Space) (o n : Nat) : (s.clrMem sp o n).chainCur = s.chainCur := rfl
@[simp] theorem State.clrMem_profCur (sp : Space) (o n : Nat) : (s.clrMem sp o n).profCur = s.profCur := rfl
@[simp] theorem State.clrMem_qslots (sp : Space) (o n : Nat) : (s.clrMem sp o n).qslots = s.qslots := rfl
@[simp] theorem State.clrMem_attCfg (sp : Space) (o n : Nat) : (s.clrMem sp o n).attCfg = s.attCfg := rfl
@[simp] theorem State.clrMem_attSeq (sp : Space) (o n : Nat) : (s.clrMem sp o n).attSeq = s.attSeq := rfl
@[simp] theorem State.clrMem_xslots (sp : Space) (o n : Nat) : (s.clrMem sp o n).xslots = s.xslots := rfl
@[simp] theorem State.clrMem_links (sp : Space) (o n : Nat) : (s.clrMem sp o n).links = s.links := rfl
@[simp] theorem State.clrMem_ports (sp : Space) (o n : Nat) : (s.clrMem sp o n).ports = s.ports := rfl
@[simp] theorem State.clrMem_nodeReqs (sp : Space) (o n : Nat) : (s.clrMem sp o n).nodeReqs = s.nodeReqs := rfl
@[simp] theorem State.clrMem_nodeTag (sp : Space) (o n : Nat) : (s.clrMem sp o n).nodeTag = s.nodeTag := rfl
@[simp] theorem State.clrMem_fabric (sp : Space) (o n : Nat) : (s.clrMem sp o n).fabric = s.fabric := rfl
@[simp] theorem State.clrMem_reqs (sp : Space) (o n : Nat) : (s.clrMem sp o n).reqs = s.reqs := rfl
@[simp] theorem State.clrMem_submitted (sp : Space) (o n : Nat) : (s.clrMem sp o n).submitted = s.submitted := rfl
@[simp] theorem State.clrMem_commands (sp : Space) (o n : Nat) : (s.clrMem sp o n).commands = s.commands := rfl
@[simp] theorem State.clrMem_svs (sp : Space) (o n : Nat) : (s.clrMem sp o n).svs = s.svs := rfl
@[simp] theorem State.clrMem_peps (sp : Space) (o n : Nat) : (s.clrMem sp o n).peps = s.peps := rfl
@[simp] theorem State.clrMem_pepCur (sp : Space) (o n : Nat) : (s.clrMem sp o n).pepCur = s.pepCur := rfl
@[simp] theorem State.clrMem_pageSeen (sp : Space) (o n : Nat) : (s.clrMem sp o n).pageSeen = s.pageSeen := rfl
@[simp] theorem State.clrMem_seqBad (sp : Space) (o n : Nat) : (s.clrMem sp o n).seqBad = s.seqBad := rfl
@[simp] theorem State.clrMem_done (sp : Space) (o n : Nat) : (s.clrMem sp o n).done = s.done := rfl
@[simp] theorem State.clrMem_rdata (sp : Space) (o n : Nat) : (s.clrMem sp o n).rdata = s.rdata := rfl
@[simp] theorem State.clrMem_free (sp : Space) (o n : Nat) : (s.clrMem sp o n).free = s.free := rfl
@[simp] theorem State.clrMem_pending (sp : Space) (o n : Nat) : (s.clrMem sp o n).pending = s.pending := rfl

/-! ### setCtr -/

@[simp] theorem State.setCtr_clk (i v : Nat) : (s.setCtr i v).clk = s.clk := rfl
@[simp] theorem State.setCtr_regs (i v : Nat) : (s.setCtr i v).regs = s.regs := rfl
@[simp] theorem State.setCtr_staged (i v : Nat) : (s.setCtr i v).staged = s.staged := rfl
@[simp] theorem State.setCtr_mem (i v : Nat) : (s.setCtr i v).mem = s.mem := rfl
@[simp] theorem State.setCtr_timers (i v : Nat) : (s.setCtr i v).timers = s.timers := rfl
@[simp] theorem State.setCtr_ident (i v : Nat) : (s.setCtr i v).ident = s.ident := rfl
@[simp] theorem State.setCtr_boot (i v : Nat) : (s.setCtr i v).boot = s.boot := rfl
@[simp] theorem State.setCtr_power (i v : Nat) : (s.setCtr i v).power = s.power := rfl
@[simp] theorem State.setCtr_time (i v : Nat) : (s.setCtr i v).time = s.time := rfl
@[simp] theorem State.setCtr_slots (i v : Nat) : (s.setCtr i v).slots = s.slots := rfl
@[simp] theorem State.setCtr_schedLo (i v : Nat) : (s.setCtr i v).schedLo = s.schedLo := rfl
@[simp] theorem State.setCtr_schedHi (i v : Nat) : (s.setCtr i v).schedHi = s.schedHi := rfl
@[simp] theorem State.setCtr_parts (i v : Nat) : (s.setCtr i v).parts = s.parts := rfl
@[simp] theorem State.setCtr_doms (i v : Nat) : (s.setCtr i v).doms = s.doms := rfl
@[simp] theorem State.setCtr_seqs (i v : Nat) : (s.setCtr i v).seqs = s.seqs := rfl
@[simp] theorem State.setCtr_regions (i v : Nat) : (s.setCtr i v).regions = s.regions := rfl
@[simp] theorem State.setCtr_idleUntil (i v : Nat) : (s.setCtr i v).idleUntil = s.idleUntil := rfl
@[simp] theorem State.setCtr_evq (i v : Nat) : (s.setCtr i v).evq = s.evq := rfl
@[simp] theorem State.setCtr_evLost (i v : Nat) : (s.setCtr i v).evLost = s.evLost := rfl
@[simp] theorem State.setCtr_log (i v : Nat) : (s.setCtr i v).log = s.log := rfl
@[simp] theorem State.setCtr_logNext (i v : Nat) : (s.setCtr i v).logNext = s.logNext := rfl
@[simp] theorem State.setCtr_out (i v : Nat) : (s.setCtr i v).out = s.out := rfl
@[simp] theorem State.setCtr_tolvys (i v : Nat) : (s.setCtr i v).tolvys = s.tolvys := rfl
@[simp] theorem State.setCtr_stale (i v : Nat) : (s.setCtr i v).stale = s.stale := rfl
@[simp] theorem State.setCtr_windows (i v : Nat) : (s.setCtr i v).windows = s.windows := rfl
@[simp] theorem State.setCtr_wfOn (i v : Nat) : (s.setCtr i v).wfOn = s.wfOn := rfl
@[simp] theorem State.setCtr_rowSlots (i v : Nat) : (s.setCtr i v).rowSlots = s.rowSlots := rfl
@[simp] theorem State.setCtr_bulk (i v : Nat) : (s.setCtr i v).bulk = s.bulk := rfl
@[simp] theorem State.setCtr_repairs (i v : Nat) : (s.setCtr i v).repairs = s.repairs := rfl
@[simp] theorem State.setCtr_igs (i v : Nat) : (s.setCtr i v).igs = s.igs := rfl
@[simp] theorem State.setCtr_csSets (i v : Nat) : (s.setCtr i v).csSets = s.csSets := rfl
@[simp] theorem State.setCtr_screens (i v : Nat) : (s.setCtr i v).screens = s.screens := rfl
@[simp] theorem State.setCtr_mace (i v : Nat) : (s.setCtr i v).mace = s.mace := rfl
@[simp] theorem State.setCtr_digests (i v : Nat) : (s.setCtr i v).digests = s.digests := rfl
@[simp] theorem State.setCtr_mboxes (i v : Nat) : (s.setCtr i v).mboxes = s.mboxes := rfl
@[simp] theorem State.setCtr_retired (i v : Nat) : (s.setCtr i v).retired = s.retired := rfl
@[simp] theorem State.setCtr_suspect (i v : Nat) : (s.setCtr i v).suspect = s.suspect := rfl
@[simp] theorem State.setCtr_tiles (i v : Nat) : (s.setCtr i v).tiles = s.tiles := rfl
@[simp] theorem State.setCtr_arrFmt (i v : Nat) : (s.setCtr i v).arrFmt = s.arrFmt := rfl
@[simp] theorem State.setCtr_tileTag (i v : Nat) : (s.setCtr i v).tileTag = s.tileTag := rfl
@[simp] theorem State.setCtr_engFail (i v : Nat) : (s.setCtr i v).engFail = s.engFail := rfl
@[simp] theorem State.setCtr_clove (i v : Nat) : (s.setCtr i v).clove = s.clove := rfl
@[simp] theorem State.setCtr_chainCur (i v : Nat) : (s.setCtr i v).chainCur = s.chainCur := rfl
@[simp] theorem State.setCtr_profCur (i v : Nat) : (s.setCtr i v).profCur = s.profCur := rfl
@[simp] theorem State.setCtr_qslots (i v : Nat) : (s.setCtr i v).qslots = s.qslots := rfl
@[simp] theorem State.setCtr_attCfg (i v : Nat) : (s.setCtr i v).attCfg = s.attCfg := rfl
@[simp] theorem State.setCtr_attSeq (i v : Nat) : (s.setCtr i v).attSeq = s.attSeq := rfl
@[simp] theorem State.setCtr_xslots (i v : Nat) : (s.setCtr i v).xslots = s.xslots := rfl
@[simp] theorem State.setCtr_links (i v : Nat) : (s.setCtr i v).links = s.links := rfl
@[simp] theorem State.setCtr_ports (i v : Nat) : (s.setCtr i v).ports = s.ports := rfl
@[simp] theorem State.setCtr_nodeReqs (i v : Nat) : (s.setCtr i v).nodeReqs = s.nodeReqs := rfl
@[simp] theorem State.setCtr_nodeTag (i v : Nat) : (s.setCtr i v).nodeTag = s.nodeTag := rfl
@[simp] theorem State.setCtr_fabric (i v : Nat) : (s.setCtr i v).fabric = s.fabric := rfl
@[simp] theorem State.setCtr_reqs (i v : Nat) : (s.setCtr i v).reqs = s.reqs := rfl
@[simp] theorem State.setCtr_submitted (i v : Nat) : (s.setCtr i v).submitted = s.submitted := rfl
@[simp] theorem State.setCtr_commands (i v : Nat) : (s.setCtr i v).commands = s.commands := rfl
@[simp] theorem State.setCtr_svs (i v : Nat) : (s.setCtr i v).svs = s.svs := rfl
@[simp] theorem State.setCtr_peps (i v : Nat) : (s.setCtr i v).peps = s.peps := rfl
@[simp] theorem State.setCtr_pepCur (i v : Nat) : (s.setCtr i v).pepCur = s.pepCur := rfl
@[simp] theorem State.setCtr_pageSeen (i v : Nat) : (s.setCtr i v).pageSeen = s.pageSeen := rfl
@[simp] theorem State.setCtr_seqBad (i v : Nat) : (s.setCtr i v).seqBad = s.seqBad := rfl
@[simp] theorem State.setCtr_done (i v : Nat) : (s.setCtr i v).done = s.done := rfl
@[simp] theorem State.setCtr_rdata (i v : Nat) : (s.setCtr i v).rdata = s.rdata := rfl
@[simp] theorem State.setCtr_free (i v : Nat) : (s.setCtr i v).free = s.free := rfl
@[simp] theorem State.setCtr_pending (i v : Nat) : (s.setCtr i v).pending = s.pending := rfl

/-! ### modPart -/

@[simp] theorem State.modPart_clk (p : Nat) (f : Part → Part) : (s.modPart p f).clk = s.clk := rfl
@[simp] theorem State.modPart_regs (p : Nat) (f : Part → Part) : (s.modPart p f).regs = s.regs := rfl
@[simp] theorem State.modPart_staged (p : Nat) (f : Part → Part) : (s.modPart p f).staged = s.staged := rfl
@[simp] theorem State.modPart_mem (p : Nat) (f : Part → Part) : (s.modPart p f).mem = s.mem := rfl
@[simp] theorem State.modPart_timers (p : Nat) (f : Part → Part) : (s.modPart p f).timers = s.timers := rfl
@[simp] theorem State.modPart_ident (p : Nat) (f : Part → Part) : (s.modPart p f).ident = s.ident := rfl
@[simp] theorem State.modPart_boot (p : Nat) (f : Part → Part) : (s.modPart p f).boot = s.boot := rfl
@[simp] theorem State.modPart_power (p : Nat) (f : Part → Part) : (s.modPart p f).power = s.power := rfl
@[simp] theorem State.modPart_time (p : Nat) (f : Part → Part) : (s.modPart p f).time = s.time := rfl
@[simp] theorem State.modPart_slots (p : Nat) (f : Part → Part) : (s.modPart p f).slots = s.slots := rfl
@[simp] theorem State.modPart_schedLo (p : Nat) (f : Part → Part) : (s.modPart p f).schedLo = s.schedLo := rfl
@[simp] theorem State.modPart_schedHi (p : Nat) (f : Part → Part) : (s.modPart p f).schedHi = s.schedHi := rfl
@[simp] theorem State.modPart_ctrs (p : Nat) (f : Part → Part) : (s.modPart p f).ctrs = s.ctrs := rfl
@[simp] theorem State.modPart_doms (p : Nat) (f : Part → Part) : (s.modPart p f).doms = s.doms := rfl
@[simp] theorem State.modPart_seqs (p : Nat) (f : Part → Part) : (s.modPart p f).seqs = s.seqs := rfl
@[simp] theorem State.modPart_regions (p : Nat) (f : Part → Part) : (s.modPart p f).regions = s.regions := rfl
@[simp] theorem State.modPart_idleUntil (p : Nat) (f : Part → Part) : (s.modPart p f).idleUntil = s.idleUntil := rfl
@[simp] theorem State.modPart_evq (p : Nat) (f : Part → Part) : (s.modPart p f).evq = s.evq := rfl
@[simp] theorem State.modPart_evLost (p : Nat) (f : Part → Part) : (s.modPart p f).evLost = s.evLost := rfl
@[simp] theorem State.modPart_log (p : Nat) (f : Part → Part) : (s.modPart p f).log = s.log := rfl
@[simp] theorem State.modPart_logNext (p : Nat) (f : Part → Part) : (s.modPart p f).logNext = s.logNext := rfl
@[simp] theorem State.modPart_out (p : Nat) (f : Part → Part) : (s.modPart p f).out = s.out := rfl
@[simp] theorem State.modPart_tolvys (p : Nat) (f : Part → Part) : (s.modPart p f).tolvys = s.tolvys := rfl
@[simp] theorem State.modPart_stale (p : Nat) (f : Part → Part) : (s.modPart p f).stale = s.stale := rfl
@[simp] theorem State.modPart_windows (p : Nat) (f : Part → Part) : (s.modPart p f).windows = s.windows := rfl
@[simp] theorem State.modPart_wfOn (p : Nat) (f : Part → Part) : (s.modPart p f).wfOn = s.wfOn := rfl
@[simp] theorem State.modPart_rowSlots (p : Nat) (f : Part → Part) : (s.modPart p f).rowSlots = s.rowSlots := rfl
@[simp] theorem State.modPart_bulk (p : Nat) (f : Part → Part) : (s.modPart p f).bulk = s.bulk := rfl
@[simp] theorem State.modPart_repairs (p : Nat) (f : Part → Part) : (s.modPart p f).repairs = s.repairs := rfl
@[simp] theorem State.modPart_igs (p : Nat) (f : Part → Part) : (s.modPart p f).igs = s.igs := rfl
@[simp] theorem State.modPart_csSets (p : Nat) (f : Part → Part) : (s.modPart p f).csSets = s.csSets := rfl
@[simp] theorem State.modPart_screens (p : Nat) (f : Part → Part) : (s.modPart p f).screens = s.screens := rfl
@[simp] theorem State.modPart_mace (p : Nat) (f : Part → Part) : (s.modPart p f).mace = s.mace := rfl
@[simp] theorem State.modPart_digests (p : Nat) (f : Part → Part) : (s.modPart p f).digests = s.digests := rfl
@[simp] theorem State.modPart_mboxes (p : Nat) (f : Part → Part) : (s.modPart p f).mboxes = s.mboxes := rfl
@[simp] theorem State.modPart_retired (p : Nat) (f : Part → Part) : (s.modPart p f).retired = s.retired := rfl
@[simp] theorem State.modPart_suspect (p : Nat) (f : Part → Part) : (s.modPart p f).suspect = s.suspect := rfl
@[simp] theorem State.modPart_tiles (p : Nat) (f : Part → Part) : (s.modPart p f).tiles = s.tiles := rfl
@[simp] theorem State.modPart_arrFmt (p : Nat) (f : Part → Part) : (s.modPart p f).arrFmt = s.arrFmt := rfl
@[simp] theorem State.modPart_tileTag (p : Nat) (f : Part → Part) : (s.modPart p f).tileTag = s.tileTag := rfl
@[simp] theorem State.modPart_engFail (p : Nat) (f : Part → Part) : (s.modPart p f).engFail = s.engFail := rfl
@[simp] theorem State.modPart_clove (p : Nat) (f : Part → Part) : (s.modPart p f).clove = s.clove := rfl
@[simp] theorem State.modPart_chainCur (p : Nat) (f : Part → Part) : (s.modPart p f).chainCur = s.chainCur := rfl
@[simp] theorem State.modPart_profCur (p : Nat) (f : Part → Part) : (s.modPart p f).profCur = s.profCur := rfl
@[simp] theorem State.modPart_qslots (p : Nat) (f : Part → Part) : (s.modPart p f).qslots = s.qslots := rfl
@[simp] theorem State.modPart_attCfg (p : Nat) (f : Part → Part) : (s.modPart p f).attCfg = s.attCfg := rfl
@[simp] theorem State.modPart_attSeq (p : Nat) (f : Part → Part) : (s.modPart p f).attSeq = s.attSeq := rfl
@[simp] theorem State.modPart_xslots (p : Nat) (f : Part → Part) : (s.modPart p f).xslots = s.xslots := rfl
@[simp] theorem State.modPart_links (p : Nat) (f : Part → Part) : (s.modPart p f).links = s.links := rfl
@[simp] theorem State.modPart_ports (p : Nat) (f : Part → Part) : (s.modPart p f).ports = s.ports := rfl
@[simp] theorem State.modPart_nodeReqs (p : Nat) (f : Part → Part) : (s.modPart p f).nodeReqs = s.nodeReqs := rfl
@[simp] theorem State.modPart_nodeTag (p : Nat) (f : Part → Part) : (s.modPart p f).nodeTag = s.nodeTag := rfl
@[simp] theorem State.modPart_fabric (p : Nat) (f : Part → Part) : (s.modPart p f).fabric = s.fabric := rfl
@[simp] theorem State.modPart_reqs (p : Nat) (f : Part → Part) : (s.modPart p f).reqs = s.reqs := rfl
@[simp] theorem State.modPart_submitted (p : Nat) (f : Part → Part) : (s.modPart p f).submitted = s.submitted := rfl
@[simp] theorem State.modPart_commands (p : Nat) (f : Part → Part) : (s.modPart p f).commands = s.commands := rfl
@[simp] theorem State.modPart_svs (p : Nat) (f : Part → Part) : (s.modPart p f).svs = s.svs := rfl
@[simp] theorem State.modPart_peps (p : Nat) (f : Part → Part) : (s.modPart p f).peps = s.peps := rfl
@[simp] theorem State.modPart_pepCur (p : Nat) (f : Part → Part) : (s.modPart p f).pepCur = s.pepCur := rfl
@[simp] theorem State.modPart_pageSeen (p : Nat) (f : Part → Part) : (s.modPart p f).pageSeen = s.pageSeen := rfl
@[simp] theorem State.modPart_seqBad (p : Nat) (f : Part → Part) : (s.modPart p f).seqBad = s.seqBad := rfl
@[simp] theorem State.modPart_done (p : Nat) (f : Part → Part) : (s.modPart p f).done = s.done := rfl
@[simp] theorem State.modPart_rdata (p : Nat) (f : Part → Part) : (s.modPart p f).rdata = s.rdata := rfl
@[simp] theorem State.modPart_free (p : Nat) (f : Part → Part) : (s.modPart p f).free = s.free := rfl
@[simp] theorem State.modPart_pending (p : Nat) (f : Part → Part) : (s.modPart p f).pending = s.pending := rfl

/-! ### modSlot -/

@[simp] theorem State.modSlot_clk (p : Nat) (f : Slot → Slot) : (s.modSlot p f).clk = s.clk := rfl
@[simp] theorem State.modSlot_regs (p : Nat) (f : Slot → Slot) : (s.modSlot p f).regs = s.regs := rfl
@[simp] theorem State.modSlot_staged (p : Nat) (f : Slot → Slot) : (s.modSlot p f).staged = s.staged := rfl
@[simp] theorem State.modSlot_mem (p : Nat) (f : Slot → Slot) : (s.modSlot p f).mem = s.mem := rfl
@[simp] theorem State.modSlot_timers (p : Nat) (f : Slot → Slot) : (s.modSlot p f).timers = s.timers := rfl
@[simp] theorem State.modSlot_ident (p : Nat) (f : Slot → Slot) : (s.modSlot p f).ident = s.ident := rfl
@[simp] theorem State.modSlot_boot (p : Nat) (f : Slot → Slot) : (s.modSlot p f).boot = s.boot := rfl
@[simp] theorem State.modSlot_power (p : Nat) (f : Slot → Slot) : (s.modSlot p f).power = s.power := rfl
@[simp] theorem State.modSlot_time (p : Nat) (f : Slot → Slot) : (s.modSlot p f).time = s.time := rfl
@[simp] theorem State.modSlot_schedLo (p : Nat) (f : Slot → Slot) : (s.modSlot p f).schedLo = s.schedLo := rfl
@[simp] theorem State.modSlot_schedHi (p : Nat) (f : Slot → Slot) : (s.modSlot p f).schedHi = s.schedHi := rfl
@[simp] theorem State.modSlot_ctrs (p : Nat) (f : Slot → Slot) : (s.modSlot p f).ctrs = s.ctrs := rfl
@[simp] theorem State.modSlot_parts (p : Nat) (f : Slot → Slot) : (s.modSlot p f).parts = s.parts := rfl
@[simp] theorem State.modSlot_doms (p : Nat) (f : Slot → Slot) : (s.modSlot p f).doms = s.doms := rfl
@[simp] theorem State.modSlot_seqs (p : Nat) (f : Slot → Slot) : (s.modSlot p f).seqs = s.seqs := rfl
@[simp] theorem State.modSlot_regions (p : Nat) (f : Slot → Slot) : (s.modSlot p f).regions = s.regions := rfl
@[simp] theorem State.modSlot_idleUntil (p : Nat) (f : Slot → Slot) : (s.modSlot p f).idleUntil = s.idleUntil := rfl
@[simp] theorem State.modSlot_evq (p : Nat) (f : Slot → Slot) : (s.modSlot p f).evq = s.evq := rfl
@[simp] theorem State.modSlot_evLost (p : Nat) (f : Slot → Slot) : (s.modSlot p f).evLost = s.evLost := rfl
@[simp] theorem State.modSlot_log (p : Nat) (f : Slot → Slot) : (s.modSlot p f).log = s.log := rfl
@[simp] theorem State.modSlot_logNext (p : Nat) (f : Slot → Slot) : (s.modSlot p f).logNext = s.logNext := rfl
@[simp] theorem State.modSlot_out (p : Nat) (f : Slot → Slot) : (s.modSlot p f).out = s.out := rfl
@[simp] theorem State.modSlot_tolvys (p : Nat) (f : Slot → Slot) : (s.modSlot p f).tolvys = s.tolvys := rfl
@[simp] theorem State.modSlot_stale (p : Nat) (f : Slot → Slot) : (s.modSlot p f).stale = s.stale := rfl
@[simp] theorem State.modSlot_windows (p : Nat) (f : Slot → Slot) : (s.modSlot p f).windows = s.windows := rfl
@[simp] theorem State.modSlot_wfOn (p : Nat) (f : Slot → Slot) : (s.modSlot p f).wfOn = s.wfOn := rfl
@[simp] theorem State.modSlot_rowSlots (p : Nat) (f : Slot → Slot) : (s.modSlot p f).rowSlots = s.rowSlots := rfl
@[simp] theorem State.modSlot_bulk (p : Nat) (f : Slot → Slot) : (s.modSlot p f).bulk = s.bulk := rfl
@[simp] theorem State.modSlot_repairs (p : Nat) (f : Slot → Slot) : (s.modSlot p f).repairs = s.repairs := rfl
@[simp] theorem State.modSlot_igs (p : Nat) (f : Slot → Slot) : (s.modSlot p f).igs = s.igs := rfl
@[simp] theorem State.modSlot_csSets (p : Nat) (f : Slot → Slot) : (s.modSlot p f).csSets = s.csSets := rfl
@[simp] theorem State.modSlot_screens (p : Nat) (f : Slot → Slot) : (s.modSlot p f).screens = s.screens := rfl
@[simp] theorem State.modSlot_mace (p : Nat) (f : Slot → Slot) : (s.modSlot p f).mace = s.mace := rfl
@[simp] theorem State.modSlot_digests (p : Nat) (f : Slot → Slot) : (s.modSlot p f).digests = s.digests := rfl
@[simp] theorem State.modSlot_mboxes (p : Nat) (f : Slot → Slot) : (s.modSlot p f).mboxes = s.mboxes := rfl
@[simp] theorem State.modSlot_retired (p : Nat) (f : Slot → Slot) : (s.modSlot p f).retired = s.retired := rfl
@[simp] theorem State.modSlot_suspect (p : Nat) (f : Slot → Slot) : (s.modSlot p f).suspect = s.suspect := rfl
@[simp] theorem State.modSlot_tiles (p : Nat) (f : Slot → Slot) : (s.modSlot p f).tiles = s.tiles := rfl
@[simp] theorem State.modSlot_arrFmt (p : Nat) (f : Slot → Slot) : (s.modSlot p f).arrFmt = s.arrFmt := rfl
@[simp] theorem State.modSlot_tileTag (p : Nat) (f : Slot → Slot) : (s.modSlot p f).tileTag = s.tileTag := rfl
@[simp] theorem State.modSlot_engFail (p : Nat) (f : Slot → Slot) : (s.modSlot p f).engFail = s.engFail := rfl
@[simp] theorem State.modSlot_clove (p : Nat) (f : Slot → Slot) : (s.modSlot p f).clove = s.clove := rfl
@[simp] theorem State.modSlot_chainCur (p : Nat) (f : Slot → Slot) : (s.modSlot p f).chainCur = s.chainCur := rfl
@[simp] theorem State.modSlot_profCur (p : Nat) (f : Slot → Slot) : (s.modSlot p f).profCur = s.profCur := rfl
@[simp] theorem State.modSlot_qslots (p : Nat) (f : Slot → Slot) : (s.modSlot p f).qslots = s.qslots := rfl
@[simp] theorem State.modSlot_attCfg (p : Nat) (f : Slot → Slot) : (s.modSlot p f).attCfg = s.attCfg := rfl
@[simp] theorem State.modSlot_attSeq (p : Nat) (f : Slot → Slot) : (s.modSlot p f).attSeq = s.attSeq := rfl
@[simp] theorem State.modSlot_xslots (p : Nat) (f : Slot → Slot) : (s.modSlot p f).xslots = s.xslots := rfl
@[simp] theorem State.modSlot_links (p : Nat) (f : Slot → Slot) : (s.modSlot p f).links = s.links := rfl
@[simp] theorem State.modSlot_ports (p : Nat) (f : Slot → Slot) : (s.modSlot p f).ports = s.ports := rfl
@[simp] theorem State.modSlot_nodeReqs (p : Nat) (f : Slot → Slot) : (s.modSlot p f).nodeReqs = s.nodeReqs := rfl
@[simp] theorem State.modSlot_nodeTag (p : Nat) (f : Slot → Slot) : (s.modSlot p f).nodeTag = s.nodeTag := rfl
@[simp] theorem State.modSlot_fabric (p : Nat) (f : Slot → Slot) : (s.modSlot p f).fabric = s.fabric := rfl
@[simp] theorem State.modSlot_reqs (p : Nat) (f : Slot → Slot) : (s.modSlot p f).reqs = s.reqs := rfl
@[simp] theorem State.modSlot_submitted (p : Nat) (f : Slot → Slot) : (s.modSlot p f).submitted = s.submitted := rfl
@[simp] theorem State.modSlot_commands (p : Nat) (f : Slot → Slot) : (s.modSlot p f).commands = s.commands := rfl
@[simp] theorem State.modSlot_svs (p : Nat) (f : Slot → Slot) : (s.modSlot p f).svs = s.svs := rfl
@[simp] theorem State.modSlot_peps (p : Nat) (f : Slot → Slot) : (s.modSlot p f).peps = s.peps := rfl
@[simp] theorem State.modSlot_pepCur (p : Nat) (f : Slot → Slot) : (s.modSlot p f).pepCur = s.pepCur := rfl
@[simp] theorem State.modSlot_pageSeen (p : Nat) (f : Slot → Slot) : (s.modSlot p f).pageSeen = s.pageSeen := rfl
@[simp] theorem State.modSlot_seqBad (p : Nat) (f : Slot → Slot) : (s.modSlot p f).seqBad = s.seqBad := rfl
@[simp] theorem State.modSlot_done (p : Nat) (f : Slot → Slot) : (s.modSlot p f).done = s.done := rfl
@[simp] theorem State.modSlot_rdata (p : Nat) (f : Slot → Slot) : (s.modSlot p f).rdata = s.rdata := rfl
@[simp] theorem State.modSlot_free (p : Nat) (f : Slot → Slot) : (s.modSlot p f).free = s.free := rfl
@[simp] theorem State.modSlot_pending (p : Nat) (f : Slot → Slot) : (s.modSlot p f).pending = s.pending := rfl

/-! ### modSeq -/

@[simp] theorem State.modSeq_clk (k : Nat) (f : Seq → Seq) : (s.modSeq k f).clk = s.clk := rfl
@[simp] theorem State.modSeq_regs (k : Nat) (f : Seq → Seq) : (s.modSeq k f).regs = s.regs := rfl
@[simp] theorem State.modSeq_staged (k : Nat) (f : Seq → Seq) : (s.modSeq k f).staged = s.staged := rfl
@[simp] theorem State.modSeq_mem (k : Nat) (f : Seq → Seq) : (s.modSeq k f).mem = s.mem := rfl
@[simp] theorem State.modSeq_timers (k : Nat) (f : Seq → Seq) : (s.modSeq k f).timers = s.timers := rfl
@[simp] theorem State.modSeq_ident (k : Nat) (f : Seq → Seq) : (s.modSeq k f).ident = s.ident := rfl
@[simp] theorem State.modSeq_boot (k : Nat) (f : Seq → Seq) : (s.modSeq k f).boot = s.boot := rfl
@[simp] theorem State.modSeq_power (k : Nat) (f : Seq → Seq) : (s.modSeq k f).power = s.power := rfl
@[simp] theorem State.modSeq_time (k : Nat) (f : Seq → Seq) : (s.modSeq k f).time = s.time := rfl
@[simp] theorem State.modSeq_slots (k : Nat) (f : Seq → Seq) : (s.modSeq k f).slots = s.slots := rfl
@[simp] theorem State.modSeq_schedLo (k : Nat) (f : Seq → Seq) : (s.modSeq k f).schedLo = s.schedLo := rfl
@[simp] theorem State.modSeq_schedHi (k : Nat) (f : Seq → Seq) : (s.modSeq k f).schedHi = s.schedHi := rfl
@[simp] theorem State.modSeq_ctrs (k : Nat) (f : Seq → Seq) : (s.modSeq k f).ctrs = s.ctrs := rfl
@[simp] theorem State.modSeq_parts (k : Nat) (f : Seq → Seq) : (s.modSeq k f).parts = s.parts := rfl
@[simp] theorem State.modSeq_doms (k : Nat) (f : Seq → Seq) : (s.modSeq k f).doms = s.doms := rfl
@[simp] theorem State.modSeq_regions (k : Nat) (f : Seq → Seq) : (s.modSeq k f).regions = s.regions := rfl
@[simp] theorem State.modSeq_idleUntil (k : Nat) (f : Seq → Seq) : (s.modSeq k f).idleUntil = s.idleUntil := rfl
@[simp] theorem State.modSeq_evq (k : Nat) (f : Seq → Seq) : (s.modSeq k f).evq = s.evq := rfl
@[simp] theorem State.modSeq_evLost (k : Nat) (f : Seq → Seq) : (s.modSeq k f).evLost = s.evLost := rfl
@[simp] theorem State.modSeq_log (k : Nat) (f : Seq → Seq) : (s.modSeq k f).log = s.log := rfl
@[simp] theorem State.modSeq_logNext (k : Nat) (f : Seq → Seq) : (s.modSeq k f).logNext = s.logNext := rfl
@[simp] theorem State.modSeq_out (k : Nat) (f : Seq → Seq) : (s.modSeq k f).out = s.out := rfl
@[simp] theorem State.modSeq_tolvys (k : Nat) (f : Seq → Seq) : (s.modSeq k f).tolvys = s.tolvys := rfl
@[simp] theorem State.modSeq_stale (k : Nat) (f : Seq → Seq) : (s.modSeq k f).stale = s.stale := rfl
@[simp] theorem State.modSeq_windows (k : Nat) (f : Seq → Seq) : (s.modSeq k f).windows = s.windows := rfl
@[simp] theorem State.modSeq_wfOn (k : Nat) (f : Seq → Seq) : (s.modSeq k f).wfOn = s.wfOn := rfl
@[simp] theorem State.modSeq_rowSlots (k : Nat) (f : Seq → Seq) : (s.modSeq k f).rowSlots = s.rowSlots := rfl
@[simp] theorem State.modSeq_bulk (k : Nat) (f : Seq → Seq) : (s.modSeq k f).bulk = s.bulk := rfl
@[simp] theorem State.modSeq_repairs (k : Nat) (f : Seq → Seq) : (s.modSeq k f).repairs = s.repairs := rfl
@[simp] theorem State.modSeq_igs (k : Nat) (f : Seq → Seq) : (s.modSeq k f).igs = s.igs := rfl
@[simp] theorem State.modSeq_csSets (k : Nat) (f : Seq → Seq) : (s.modSeq k f).csSets = s.csSets := rfl
@[simp] theorem State.modSeq_screens (k : Nat) (f : Seq → Seq) : (s.modSeq k f).screens = s.screens := rfl
@[simp] theorem State.modSeq_mace (k : Nat) (f : Seq → Seq) : (s.modSeq k f).mace = s.mace := rfl
@[simp] theorem State.modSeq_digests (k : Nat) (f : Seq → Seq) : (s.modSeq k f).digests = s.digests := rfl
@[simp] theorem State.modSeq_mboxes (k : Nat) (f : Seq → Seq) : (s.modSeq k f).mboxes = s.mboxes := rfl
@[simp] theorem State.modSeq_retired (k : Nat) (f : Seq → Seq) : (s.modSeq k f).retired = s.retired := rfl
@[simp] theorem State.modSeq_suspect (k : Nat) (f : Seq → Seq) : (s.modSeq k f).suspect = s.suspect := rfl
@[simp] theorem State.modSeq_tiles (k : Nat) (f : Seq → Seq) : (s.modSeq k f).tiles = s.tiles := rfl
@[simp] theorem State.modSeq_arrFmt (k : Nat) (f : Seq → Seq) : (s.modSeq k f).arrFmt = s.arrFmt := rfl
@[simp] theorem State.modSeq_tileTag (k : Nat) (f : Seq → Seq) : (s.modSeq k f).tileTag = s.tileTag := rfl
@[simp] theorem State.modSeq_engFail (k : Nat) (f : Seq → Seq) : (s.modSeq k f).engFail = s.engFail := rfl
@[simp] theorem State.modSeq_clove (k : Nat) (f : Seq → Seq) : (s.modSeq k f).clove = s.clove := rfl
@[simp] theorem State.modSeq_chainCur (k : Nat) (f : Seq → Seq) : (s.modSeq k f).chainCur = s.chainCur := rfl
@[simp] theorem State.modSeq_profCur (k : Nat) (f : Seq → Seq) : (s.modSeq k f).profCur = s.profCur := rfl
@[simp] theorem State.modSeq_qslots (k : Nat) (f : Seq → Seq) : (s.modSeq k f).qslots = s.qslots := rfl
@[simp] theorem State.modSeq_attCfg (k : Nat) (f : Seq → Seq) : (s.modSeq k f).attCfg = s.attCfg := rfl
@[simp] theorem State.modSeq_attSeq (k : Nat) (f : Seq → Seq) : (s.modSeq k f).attSeq = s.attSeq := rfl
@[simp] theorem State.modSeq_xslots (k : Nat) (f : Seq → Seq) : (s.modSeq k f).xslots = s.xslots := rfl
@[simp] theorem State.modSeq_links (k : Nat) (f : Seq → Seq) : (s.modSeq k f).links = s.links := rfl
@[simp] theorem State.modSeq_ports (k : Nat) (f : Seq → Seq) : (s.modSeq k f).ports = s.ports := rfl
@[simp] theorem State.modSeq_nodeReqs (k : Nat) (f : Seq → Seq) : (s.modSeq k f).nodeReqs = s.nodeReqs := rfl
@[simp] theorem State.modSeq_nodeTag (k : Nat) (f : Seq → Seq) : (s.modSeq k f).nodeTag = s.nodeTag := rfl
@[simp] theorem State.modSeq_fabric (k : Nat) (f : Seq → Seq) : (s.modSeq k f).fabric = s.fabric := rfl
@[simp] theorem State.modSeq_reqs (k : Nat) (f : Seq → Seq) : (s.modSeq k f).reqs = s.reqs := rfl
@[simp] theorem State.modSeq_submitted (k : Nat) (f : Seq → Seq) : (s.modSeq k f).submitted = s.submitted := rfl
@[simp] theorem State.modSeq_commands (k : Nat) (f : Seq → Seq) : (s.modSeq k f).commands = s.commands := rfl
@[simp] theorem State.modSeq_svs (k : Nat) (f : Seq → Seq) : (s.modSeq k f).svs = s.svs := rfl
@[simp] theorem State.modSeq_peps (k : Nat) (f : Seq → Seq) : (s.modSeq k f).peps = s.peps := rfl
@[simp] theorem State.modSeq_pepCur (k : Nat) (f : Seq → Seq) : (s.modSeq k f).pepCur = s.pepCur := rfl
@[simp] theorem State.modSeq_pageSeen (k : Nat) (f : Seq → Seq) : (s.modSeq k f).pageSeen = s.pageSeen := rfl
@[simp] theorem State.modSeq_seqBad (k : Nat) (f : Seq → Seq) : (s.modSeq k f).seqBad = s.seqBad := rfl
@[simp] theorem State.modSeq_done (k : Nat) (f : Seq → Seq) : (s.modSeq k f).done = s.done := rfl
@[simp] theorem State.modSeq_rdata (k : Nat) (f : Seq → Seq) : (s.modSeq k f).rdata = s.rdata := rfl
@[simp] theorem State.modSeq_free (k : Nat) (f : Seq → Seq) : (s.modSeq k f).free = s.free := rfl
@[simp] theorem State.modSeq_pending (k : Nat) (f : Seq → Seq) : (s.modSeq k f).pending = s.pending := rfl

/-! ### modRegion -/

@[simp] theorem State.modRegion_clk (k r : Nat) (f : Region → Region) : (s.modRegion k r f).clk = s.clk := rfl
@[simp] theorem State.modRegion_regs (k r : Nat) (f : Region → Region) : (s.modRegion k r f).regs = s.regs := rfl
@[simp] theorem State.modRegion_staged (k r : Nat) (f : Region → Region) : (s.modRegion k r f).staged = s.staged := rfl
@[simp] theorem State.modRegion_mem (k r : Nat) (f : Region → Region) : (s.modRegion k r f).mem = s.mem := rfl
@[simp] theorem State.modRegion_timers (k r : Nat) (f : Region → Region) : (s.modRegion k r f).timers = s.timers := rfl
@[simp] theorem State.modRegion_ident (k r : Nat) (f : Region → Region) : (s.modRegion k r f).ident = s.ident := rfl
@[simp] theorem State.modRegion_boot (k r : Nat) (f : Region → Region) : (s.modRegion k r f).boot = s.boot := rfl
@[simp] theorem State.modRegion_power (k r : Nat) (f : Region → Region) : (s.modRegion k r f).power = s.power := rfl
@[simp] theorem State.modRegion_time (k r : Nat) (f : Region → Region) : (s.modRegion k r f).time = s.time := rfl
@[simp] theorem State.modRegion_slots (k r : Nat) (f : Region → Region) : (s.modRegion k r f).slots = s.slots := rfl
@[simp] theorem State.modRegion_schedLo (k r : Nat) (f : Region → Region) : (s.modRegion k r f).schedLo = s.schedLo := rfl
@[simp] theorem State.modRegion_schedHi (k r : Nat) (f : Region → Region) : (s.modRegion k r f).schedHi = s.schedHi := rfl
@[simp] theorem State.modRegion_ctrs (k r : Nat) (f : Region → Region) : (s.modRegion k r f).ctrs = s.ctrs := rfl
@[simp] theorem State.modRegion_parts (k r : Nat) (f : Region → Region) : (s.modRegion k r f).parts = s.parts := rfl
@[simp] theorem State.modRegion_doms (k r : Nat) (f : Region → Region) : (s.modRegion k r f).doms = s.doms := rfl
@[simp] theorem State.modRegion_seqs (k r : Nat) (f : Region → Region) : (s.modRegion k r f).seqs = s.seqs := rfl
@[simp] theorem State.modRegion_idleUntil (k r : Nat) (f : Region → Region) : (s.modRegion k r f).idleUntil = s.idleUntil := rfl
@[simp] theorem State.modRegion_evq (k r : Nat) (f : Region → Region) : (s.modRegion k r f).evq = s.evq := rfl
@[simp] theorem State.modRegion_evLost (k r : Nat) (f : Region → Region) : (s.modRegion k r f).evLost = s.evLost := rfl
@[simp] theorem State.modRegion_log (k r : Nat) (f : Region → Region) : (s.modRegion k r f).log = s.log := rfl
@[simp] theorem State.modRegion_logNext (k r : Nat) (f : Region → Region) : (s.modRegion k r f).logNext = s.logNext := rfl
@[simp] theorem State.modRegion_out (k r : Nat) (f : Region → Region) : (s.modRegion k r f).out = s.out := rfl
@[simp] theorem State.modRegion_tolvys (k r : Nat) (f : Region → Region) : (s.modRegion k r f).tolvys = s.tolvys := rfl
@[simp] theorem State.modRegion_stale (k r : Nat) (f : Region → Region) : (s.modRegion k r f).stale = s.stale := rfl
@[simp] theorem State.modRegion_windows (k r : Nat) (f : Region → Region) : (s.modRegion k r f).windows = s.windows := rfl
@[simp] theorem State.modRegion_wfOn (k r : Nat) (f : Region → Region) : (s.modRegion k r f).wfOn = s.wfOn := rfl
@[simp] theorem State.modRegion_rowSlots (k r : Nat) (f : Region → Region) : (s.modRegion k r f).rowSlots = s.rowSlots := rfl
@[simp] theorem State.modRegion_bulk (k r : Nat) (f : Region → Region) : (s.modRegion k r f).bulk = s.bulk := rfl
@[simp] theorem State.modRegion_repairs (k r : Nat) (f : Region → Region) : (s.modRegion k r f).repairs = s.repairs := rfl
@[simp] theorem State.modRegion_igs (k r : Nat) (f : Region → Region) : (s.modRegion k r f).igs = s.igs := rfl
@[simp] theorem State.modRegion_csSets (k r : Nat) (f : Region → Region) : (s.modRegion k r f).csSets = s.csSets := rfl
@[simp] theorem State.modRegion_screens (k r : Nat) (f : Region → Region) : (s.modRegion k r f).screens = s.screens := rfl
@[simp] theorem State.modRegion_mace (k r : Nat) (f : Region → Region) : (s.modRegion k r f).mace = s.mace := rfl
@[simp] theorem State.modRegion_digests (k r : Nat) (f : Region → Region) : (s.modRegion k r f).digests = s.digests := rfl
@[simp] theorem State.modRegion_mboxes (k r : Nat) (f : Region → Region) : (s.modRegion k r f).mboxes = s.mboxes := rfl
@[simp] theorem State.modRegion_retired (k r : Nat) (f : Region → Region) : (s.modRegion k r f).retired = s.retired := rfl
@[simp] theorem State.modRegion_suspect (k r : Nat) (f : Region → Region) : (s.modRegion k r f).suspect = s.suspect := rfl
@[simp] theorem State.modRegion_tiles (k r : Nat) (f : Region → Region) : (s.modRegion k r f).tiles = s.tiles := rfl
@[simp] theorem State.modRegion_arrFmt (k r : Nat) (f : Region → Region) : (s.modRegion k r f).arrFmt = s.arrFmt := rfl
@[simp] theorem State.modRegion_tileTag (k r : Nat) (f : Region → Region) : (s.modRegion k r f).tileTag = s.tileTag := rfl
@[simp] theorem State.modRegion_engFail (k r : Nat) (f : Region → Region) : (s.modRegion k r f).engFail = s.engFail := rfl
@[simp] theorem State.modRegion_clove (k r : Nat) (f : Region → Region) : (s.modRegion k r f).clove = s.clove := rfl
@[simp] theorem State.modRegion_chainCur (k r : Nat) (f : Region → Region) : (s.modRegion k r f).chainCur = s.chainCur := rfl
@[simp] theorem State.modRegion_profCur (k r : Nat) (f : Region → Region) : (s.modRegion k r f).profCur = s.profCur := rfl
@[simp] theorem State.modRegion_qslots (k r : Nat) (f : Region → Region) : (s.modRegion k r f).qslots = s.qslots := rfl
@[simp] theorem State.modRegion_attCfg (k r : Nat) (f : Region → Region) : (s.modRegion k r f).attCfg = s.attCfg := rfl
@[simp] theorem State.modRegion_attSeq (k r : Nat) (f : Region → Region) : (s.modRegion k r f).attSeq = s.attSeq := rfl
@[simp] theorem State.modRegion_xslots (k r : Nat) (f : Region → Region) : (s.modRegion k r f).xslots = s.xslots := rfl
@[simp] theorem State.modRegion_links (k r : Nat) (f : Region → Region) : (s.modRegion k r f).links = s.links := rfl
@[simp] theorem State.modRegion_ports (k r : Nat) (f : Region → Region) : (s.modRegion k r f).ports = s.ports := rfl
@[simp] theorem State.modRegion_nodeReqs (k r : Nat) (f : Region → Region) : (s.modRegion k r f).nodeReqs = s.nodeReqs := rfl
@[simp] theorem State.modRegion_nodeTag (k r : Nat) (f : Region → Region) : (s.modRegion k r f).nodeTag = s.nodeTag := rfl
@[simp] theorem State.modRegion_fabric (k r : Nat) (f : Region → Region) : (s.modRegion k r f).fabric = s.fabric := rfl
@[simp] theorem State.modRegion_reqs (k r : Nat) (f : Region → Region) : (s.modRegion k r f).reqs = s.reqs := rfl
@[simp] theorem State.modRegion_submitted (k r : Nat) (f : Region → Region) : (s.modRegion k r f).submitted = s.submitted := rfl
@[simp] theorem State.modRegion_commands (k r : Nat) (f : Region → Region) : (s.modRegion k r f).commands = s.commands := rfl
@[simp] theorem State.modRegion_svs (k r : Nat) (f : Region → Region) : (s.modRegion k r f).svs = s.svs := rfl
@[simp] theorem State.modRegion_peps (k r : Nat) (f : Region → Region) : (s.modRegion k r f).peps = s.peps := rfl
@[simp] theorem State.modRegion_pepCur (k r : Nat) (f : Region → Region) : (s.modRegion k r f).pepCur = s.pepCur := rfl
@[simp] theorem State.modRegion_pageSeen (k r : Nat) (f : Region → Region) : (s.modRegion k r f).pageSeen = s.pageSeen := rfl
@[simp] theorem State.modRegion_seqBad (k r : Nat) (f : Region → Region) : (s.modRegion k r f).seqBad = s.seqBad := rfl
@[simp] theorem State.modRegion_done (k r : Nat) (f : Region → Region) : (s.modRegion k r f).done = s.done := rfl
@[simp] theorem State.modRegion_rdata (k r : Nat) (f : Region → Region) : (s.modRegion k r f).rdata = s.rdata := rfl
@[simp] theorem State.modRegion_free (k r : Nat) (f : Region → Region) : (s.modRegion k r f).free = s.free := rfl
@[simp] theorem State.modRegion_pending (k r : Nat) (f : Region → Region) : (s.modRegion k r f).pending = s.pending := rfl

/-! ### modPower -/

@[simp] theorem State.modPower_clk (f : PowerState → PowerState) : (s.modPower f).clk = s.clk := rfl
@[simp] theorem State.modPower_regs (f : PowerState → PowerState) : (s.modPower f).regs = s.regs := rfl
@[simp] theorem State.modPower_staged (f : PowerState → PowerState) : (s.modPower f).staged = s.staged := rfl
@[simp] theorem State.modPower_mem (f : PowerState → PowerState) : (s.modPower f).mem = s.mem := rfl
@[simp] theorem State.modPower_timers (f : PowerState → PowerState) : (s.modPower f).timers = s.timers := rfl
@[simp] theorem State.modPower_ident (f : PowerState → PowerState) : (s.modPower f).ident = s.ident := rfl
@[simp] theorem State.modPower_boot (f : PowerState → PowerState) : (s.modPower f).boot = s.boot := rfl
@[simp] theorem State.modPower_time (f : PowerState → PowerState) : (s.modPower f).time = s.time := rfl
@[simp] theorem State.modPower_slots (f : PowerState → PowerState) : (s.modPower f).slots = s.slots := rfl
@[simp] theorem State.modPower_schedLo (f : PowerState → PowerState) : (s.modPower f).schedLo = s.schedLo := rfl
@[simp] theorem State.modPower_schedHi (f : PowerState → PowerState) : (s.modPower f).schedHi = s.schedHi := rfl
@[simp] theorem State.modPower_ctrs (f : PowerState → PowerState) : (s.modPower f).ctrs = s.ctrs := rfl
@[simp] theorem State.modPower_parts (f : PowerState → PowerState) : (s.modPower f).parts = s.parts := rfl
@[simp] theorem State.modPower_doms (f : PowerState → PowerState) : (s.modPower f).doms = s.doms := rfl
@[simp] theorem State.modPower_seqs (f : PowerState → PowerState) : (s.modPower f).seqs = s.seqs := rfl
@[simp] theorem State.modPower_regions (f : PowerState → PowerState) : (s.modPower f).regions = s.regions := rfl
@[simp] theorem State.modPower_idleUntil (f : PowerState → PowerState) : (s.modPower f).idleUntil = s.idleUntil := rfl
@[simp] theorem State.modPower_evq (f : PowerState → PowerState) : (s.modPower f).evq = s.evq := rfl
@[simp] theorem State.modPower_evLost (f : PowerState → PowerState) : (s.modPower f).evLost = s.evLost := rfl
@[simp] theorem State.modPower_log (f : PowerState → PowerState) : (s.modPower f).log = s.log := rfl
@[simp] theorem State.modPower_logNext (f : PowerState → PowerState) : (s.modPower f).logNext = s.logNext := rfl
@[simp] theorem State.modPower_out (f : PowerState → PowerState) : (s.modPower f).out = s.out := rfl
@[simp] theorem State.modPower_tolvys (f : PowerState → PowerState) : (s.modPower f).tolvys = s.tolvys := rfl
@[simp] theorem State.modPower_stale (f : PowerState → PowerState) : (s.modPower f).stale = s.stale := rfl
@[simp] theorem State.modPower_windows (f : PowerState → PowerState) : (s.modPower f).windows = s.windows := rfl
@[simp] theorem State.modPower_wfOn (f : PowerState → PowerState) : (s.modPower f).wfOn = s.wfOn := rfl
@[simp] theorem State.modPower_rowSlots (f : PowerState → PowerState) : (s.modPower f).rowSlots = s.rowSlots := rfl
@[simp] theorem State.modPower_bulk (f : PowerState → PowerState) : (s.modPower f).bulk = s.bulk := rfl
@[simp] theorem State.modPower_repairs (f : PowerState → PowerState) : (s.modPower f).repairs = s.repairs := rfl
@[simp] theorem State.modPower_igs (f : PowerState → PowerState) : (s.modPower f).igs = s.igs := rfl
@[simp] theorem State.modPower_csSets (f : PowerState → PowerState) : (s.modPower f).csSets = s.csSets := rfl
@[simp] theorem State.modPower_screens (f : PowerState → PowerState) : (s.modPower f).screens = s.screens := rfl
@[simp] theorem State.modPower_mace (f : PowerState → PowerState) : (s.modPower f).mace = s.mace := rfl
@[simp] theorem State.modPower_digests (f : PowerState → PowerState) : (s.modPower f).digests = s.digests := rfl
@[simp] theorem State.modPower_mboxes (f : PowerState → PowerState) : (s.modPower f).mboxes = s.mboxes := rfl
@[simp] theorem State.modPower_retired (f : PowerState → PowerState) : (s.modPower f).retired = s.retired := rfl
@[simp] theorem State.modPower_suspect (f : PowerState → PowerState) : (s.modPower f).suspect = s.suspect := rfl
@[simp] theorem State.modPower_tiles (f : PowerState → PowerState) : (s.modPower f).tiles = s.tiles := rfl
@[simp] theorem State.modPower_arrFmt (f : PowerState → PowerState) : (s.modPower f).arrFmt = s.arrFmt := rfl
@[simp] theorem State.modPower_tileTag (f : PowerState → PowerState) : (s.modPower f).tileTag = s.tileTag := rfl
@[simp] theorem State.modPower_engFail (f : PowerState → PowerState) : (s.modPower f).engFail = s.engFail := rfl
@[simp] theorem State.modPower_clove (f : PowerState → PowerState) : (s.modPower f).clove = s.clove := rfl
@[simp] theorem State.modPower_chainCur (f : PowerState → PowerState) : (s.modPower f).chainCur = s.chainCur := rfl
@[simp] theorem State.modPower_profCur (f : PowerState → PowerState) : (s.modPower f).profCur = s.profCur := rfl
@[simp] theorem State.modPower_qslots (f : PowerState → PowerState) : (s.modPower f).qslots = s.qslots := rfl
@[simp] theorem State.modPower_attCfg (f : PowerState → PowerState) : (s.modPower f).attCfg = s.attCfg := rfl
@[simp] theorem State.modPower_attSeq (f : PowerState → PowerState) : (s.modPower f).attSeq = s.attSeq := rfl
@[simp] theorem State.modPower_xslots (f : PowerState → PowerState) : (s.modPower f).xslots = s.xslots := rfl
@[simp] theorem State.modPower_links (f : PowerState → PowerState) : (s.modPower f).links = s.links := rfl
@[simp] theorem State.modPower_ports (f : PowerState → PowerState) : (s.modPower f).ports = s.ports := rfl
@[simp] theorem State.modPower_nodeReqs (f : PowerState → PowerState) : (s.modPower f).nodeReqs = s.nodeReqs := rfl
@[simp] theorem State.modPower_nodeTag (f : PowerState → PowerState) : (s.modPower f).nodeTag = s.nodeTag := rfl
@[simp] theorem State.modPower_fabric (f : PowerState → PowerState) : (s.modPower f).fabric = s.fabric := rfl
@[simp] theorem State.modPower_reqs (f : PowerState → PowerState) : (s.modPower f).reqs = s.reqs := rfl
@[simp] theorem State.modPower_submitted (f : PowerState → PowerState) : (s.modPower f).submitted = s.submitted := rfl
@[simp] theorem State.modPower_commands (f : PowerState → PowerState) : (s.modPower f).commands = s.commands := rfl
@[simp] theorem State.modPower_svs (f : PowerState → PowerState) : (s.modPower f).svs = s.svs := rfl
@[simp] theorem State.modPower_peps (f : PowerState → PowerState) : (s.modPower f).peps = s.peps := rfl
@[simp] theorem State.modPower_pepCur (f : PowerState → PowerState) : (s.modPower f).pepCur = s.pepCur := rfl
@[simp] theorem State.modPower_pageSeen (f : PowerState → PowerState) : (s.modPower f).pageSeen = s.pageSeen := rfl
@[simp] theorem State.modPower_seqBad (f : PowerState → PowerState) : (s.modPower f).seqBad = s.seqBad := rfl
@[simp] theorem State.modPower_done (f : PowerState → PowerState) : (s.modPower f).done = s.done := rfl
@[simp] theorem State.modPower_rdata (f : PowerState → PowerState) : (s.modPower f).rdata = s.rdata := rfl
@[simp] theorem State.modPower_free (f : PowerState → PowerState) : (s.modPower f).free = s.free := rfl
@[simp] theorem State.modPower_pending (f : PowerState → PowerState) : (s.modPower f).pending = s.pending := rfl

/-! ### modBoot -/

@[simp] theorem State.modBoot_clk (f : BootState → BootState) : (s.modBoot f).clk = s.clk := rfl
@[simp] theorem State.modBoot_regs (f : BootState → BootState) : (s.modBoot f).regs = s.regs := rfl
@[simp] theorem State.modBoot_staged (f : BootState → BootState) : (s.modBoot f).staged = s.staged := rfl
@[simp] theorem State.modBoot_mem (f : BootState → BootState) : (s.modBoot f).mem = s.mem := rfl
@[simp] theorem State.modBoot_timers (f : BootState → BootState) : (s.modBoot f).timers = s.timers := rfl
@[simp] theorem State.modBoot_ident (f : BootState → BootState) : (s.modBoot f).ident = s.ident := rfl
@[simp] theorem State.modBoot_power (f : BootState → BootState) : (s.modBoot f).power = s.power := rfl
@[simp] theorem State.modBoot_time (f : BootState → BootState) : (s.modBoot f).time = s.time := rfl
@[simp] theorem State.modBoot_slots (f : BootState → BootState) : (s.modBoot f).slots = s.slots := rfl
@[simp] theorem State.modBoot_schedLo (f : BootState → BootState) : (s.modBoot f).schedLo = s.schedLo := rfl
@[simp] theorem State.modBoot_schedHi (f : BootState → BootState) : (s.modBoot f).schedHi = s.schedHi := rfl
@[simp] theorem State.modBoot_ctrs (f : BootState → BootState) : (s.modBoot f).ctrs = s.ctrs := rfl
@[simp] theorem State.modBoot_parts (f : BootState → BootState) : (s.modBoot f).parts = s.parts := rfl
@[simp] theorem State.modBoot_doms (f : BootState → BootState) : (s.modBoot f).doms = s.doms := rfl
@[simp] theorem State.modBoot_seqs (f : BootState → BootState) : (s.modBoot f).seqs = s.seqs := rfl
@[simp] theorem State.modBoot_regions (f : BootState → BootState) : (s.modBoot f).regions = s.regions := rfl
@[simp] theorem State.modBoot_idleUntil (f : BootState → BootState) : (s.modBoot f).idleUntil = s.idleUntil := rfl
@[simp] theorem State.modBoot_evq (f : BootState → BootState) : (s.modBoot f).evq = s.evq := rfl
@[simp] theorem State.modBoot_evLost (f : BootState → BootState) : (s.modBoot f).evLost = s.evLost := rfl
@[simp] theorem State.modBoot_log (f : BootState → BootState) : (s.modBoot f).log = s.log := rfl
@[simp] theorem State.modBoot_logNext (f : BootState → BootState) : (s.modBoot f).logNext = s.logNext := rfl
@[simp] theorem State.modBoot_out (f : BootState → BootState) : (s.modBoot f).out = s.out := rfl
@[simp] theorem State.modBoot_tolvys (f : BootState → BootState) : (s.modBoot f).tolvys = s.tolvys := rfl
@[simp] theorem State.modBoot_stale (f : BootState → BootState) : (s.modBoot f).stale = s.stale := rfl
@[simp] theorem State.modBoot_windows (f : BootState → BootState) : (s.modBoot f).windows = s.windows := rfl
@[simp] theorem State.modBoot_wfOn (f : BootState → BootState) : (s.modBoot f).wfOn = s.wfOn := rfl
@[simp] theorem State.modBoot_rowSlots (f : BootState → BootState) : (s.modBoot f).rowSlots = s.rowSlots := rfl
@[simp] theorem State.modBoot_bulk (f : BootState → BootState) : (s.modBoot f).bulk = s.bulk := rfl
@[simp] theorem State.modBoot_repairs (f : BootState → BootState) : (s.modBoot f).repairs = s.repairs := rfl
@[simp] theorem State.modBoot_igs (f : BootState → BootState) : (s.modBoot f).igs = s.igs := rfl
@[simp] theorem State.modBoot_csSets (f : BootState → BootState) : (s.modBoot f).csSets = s.csSets := rfl
@[simp] theorem State.modBoot_screens (f : BootState → BootState) : (s.modBoot f).screens = s.screens := rfl
@[simp] theorem State.modBoot_mace (f : BootState → BootState) : (s.modBoot f).mace = s.mace := rfl
@[simp] theorem State.modBoot_digests (f : BootState → BootState) : (s.modBoot f).digests = s.digests := rfl
@[simp] theorem State.modBoot_mboxes (f : BootState → BootState) : (s.modBoot f).mboxes = s.mboxes := rfl
@[simp] theorem State.modBoot_retired (f : BootState → BootState) : (s.modBoot f).retired = s.retired := rfl
@[simp] theorem State.modBoot_suspect (f : BootState → BootState) : (s.modBoot f).suspect = s.suspect := rfl
@[simp] theorem State.modBoot_tiles (f : BootState → BootState) : (s.modBoot f).tiles = s.tiles := rfl
@[simp] theorem State.modBoot_arrFmt (f : BootState → BootState) : (s.modBoot f).arrFmt = s.arrFmt := rfl
@[simp] theorem State.modBoot_tileTag (f : BootState → BootState) : (s.modBoot f).tileTag = s.tileTag := rfl
@[simp] theorem State.modBoot_engFail (f : BootState → BootState) : (s.modBoot f).engFail = s.engFail := rfl
@[simp] theorem State.modBoot_clove (f : BootState → BootState) : (s.modBoot f).clove = s.clove := rfl
@[simp] theorem State.modBoot_chainCur (f : BootState → BootState) : (s.modBoot f).chainCur = s.chainCur := rfl
@[simp] theorem State.modBoot_profCur (f : BootState → BootState) : (s.modBoot f).profCur = s.profCur := rfl
@[simp] theorem State.modBoot_qslots (f : BootState → BootState) : (s.modBoot f).qslots = s.qslots := rfl
@[simp] theorem State.modBoot_attCfg (f : BootState → BootState) : (s.modBoot f).attCfg = s.attCfg := rfl
@[simp] theorem State.modBoot_attSeq (f : BootState → BootState) : (s.modBoot f).attSeq = s.attSeq := rfl
@[simp] theorem State.modBoot_xslots (f : BootState → BootState) : (s.modBoot f).xslots = s.xslots := rfl
@[simp] theorem State.modBoot_links (f : BootState → BootState) : (s.modBoot f).links = s.links := rfl
@[simp] theorem State.modBoot_ports (f : BootState → BootState) : (s.modBoot f).ports = s.ports := rfl
@[simp] theorem State.modBoot_nodeReqs (f : BootState → BootState) : (s.modBoot f).nodeReqs = s.nodeReqs := rfl
@[simp] theorem State.modBoot_nodeTag (f : BootState → BootState) : (s.modBoot f).nodeTag = s.nodeTag := rfl
@[simp] theorem State.modBoot_fabric (f : BootState → BootState) : (s.modBoot f).fabric = s.fabric := rfl
@[simp] theorem State.modBoot_reqs (f : BootState → BootState) : (s.modBoot f).reqs = s.reqs := rfl
@[simp] theorem State.modBoot_submitted (f : BootState → BootState) : (s.modBoot f).submitted = s.submitted := rfl
@[simp] theorem State.modBoot_commands (f : BootState → BootState) : (s.modBoot f).commands = s.commands := rfl
@[simp] theorem State.modBoot_svs (f : BootState → BootState) : (s.modBoot f).svs = s.svs := rfl
@[simp] theorem State.modBoot_peps (f : BootState → BootState) : (s.modBoot f).peps = s.peps := rfl
@[simp] theorem State.modBoot_pepCur (f : BootState → BootState) : (s.modBoot f).pepCur = s.pepCur := rfl
@[simp] theorem State.modBoot_pageSeen (f : BootState → BootState) : (s.modBoot f).pageSeen = s.pageSeen := rfl
@[simp] theorem State.modBoot_seqBad (f : BootState → BootState) : (s.modBoot f).seqBad = s.seqBad := rfl
@[simp] theorem State.modBoot_done (f : BootState → BootState) : (s.modBoot f).done = s.done := rfl
@[simp] theorem State.modBoot_rdata (f : BootState → BootState) : (s.modBoot f).rdata = s.rdata := rfl
@[simp] theorem State.modBoot_free (f : BootState → BootState) : (s.modBoot f).free = s.free := rfl
@[simp] theorem State.modBoot_pending (f : BootState → BootState) : (s.modBoot f).pending = s.pending := rfl

/-! ### modTime -/

@[simp] theorem State.modTime_clk (f : TimeState → TimeState) : (s.modTime f).clk = s.clk := rfl
@[simp] theorem State.modTime_regs (f : TimeState → TimeState) : (s.modTime f).regs = s.regs := rfl
@[simp] theorem State.modTime_staged (f : TimeState → TimeState) : (s.modTime f).staged = s.staged := rfl
@[simp] theorem State.modTime_mem (f : TimeState → TimeState) : (s.modTime f).mem = s.mem := rfl
@[simp] theorem State.modTime_timers (f : TimeState → TimeState) : (s.modTime f).timers = s.timers := rfl
@[simp] theorem State.modTime_ident (f : TimeState → TimeState) : (s.modTime f).ident = s.ident := rfl
@[simp] theorem State.modTime_boot (f : TimeState → TimeState) : (s.modTime f).boot = s.boot := rfl
@[simp] theorem State.modTime_power (f : TimeState → TimeState) : (s.modTime f).power = s.power := rfl
@[simp] theorem State.modTime_slots (f : TimeState → TimeState) : (s.modTime f).slots = s.slots := rfl
@[simp] theorem State.modTime_schedLo (f : TimeState → TimeState) : (s.modTime f).schedLo = s.schedLo := rfl
@[simp] theorem State.modTime_schedHi (f : TimeState → TimeState) : (s.modTime f).schedHi = s.schedHi := rfl
@[simp] theorem State.modTime_ctrs (f : TimeState → TimeState) : (s.modTime f).ctrs = s.ctrs := rfl
@[simp] theorem State.modTime_parts (f : TimeState → TimeState) : (s.modTime f).parts = s.parts := rfl
@[simp] theorem State.modTime_doms (f : TimeState → TimeState) : (s.modTime f).doms = s.doms := rfl
@[simp] theorem State.modTime_seqs (f : TimeState → TimeState) : (s.modTime f).seqs = s.seqs := rfl
@[simp] theorem State.modTime_regions (f : TimeState → TimeState) : (s.modTime f).regions = s.regions := rfl
@[simp] theorem State.modTime_idleUntil (f : TimeState → TimeState) : (s.modTime f).idleUntil = s.idleUntil := rfl
@[simp] theorem State.modTime_evq (f : TimeState → TimeState) : (s.modTime f).evq = s.evq := rfl
@[simp] theorem State.modTime_evLost (f : TimeState → TimeState) : (s.modTime f).evLost = s.evLost := rfl
@[simp] theorem State.modTime_log (f : TimeState → TimeState) : (s.modTime f).log = s.log := rfl
@[simp] theorem State.modTime_logNext (f : TimeState → TimeState) : (s.modTime f).logNext = s.logNext := rfl
@[simp] theorem State.modTime_out (f : TimeState → TimeState) : (s.modTime f).out = s.out := rfl
@[simp] theorem State.modTime_tolvys (f : TimeState → TimeState) : (s.modTime f).tolvys = s.tolvys := rfl
@[simp] theorem State.modTime_stale (f : TimeState → TimeState) : (s.modTime f).stale = s.stale := rfl
@[simp] theorem State.modTime_windows (f : TimeState → TimeState) : (s.modTime f).windows = s.windows := rfl
@[simp] theorem State.modTime_wfOn (f : TimeState → TimeState) : (s.modTime f).wfOn = s.wfOn := rfl
@[simp] theorem State.modTime_rowSlots (f : TimeState → TimeState) : (s.modTime f).rowSlots = s.rowSlots := rfl
@[simp] theorem State.modTime_bulk (f : TimeState → TimeState) : (s.modTime f).bulk = s.bulk := rfl
@[simp] theorem State.modTime_repairs (f : TimeState → TimeState) : (s.modTime f).repairs = s.repairs := rfl
@[simp] theorem State.modTime_igs (f : TimeState → TimeState) : (s.modTime f).igs = s.igs := rfl
@[simp] theorem State.modTime_csSets (f : TimeState → TimeState) : (s.modTime f).csSets = s.csSets := rfl
@[simp] theorem State.modTime_screens (f : TimeState → TimeState) : (s.modTime f).screens = s.screens := rfl
@[simp] theorem State.modTime_mace (f : TimeState → TimeState) : (s.modTime f).mace = s.mace := rfl
@[simp] theorem State.modTime_digests (f : TimeState → TimeState) : (s.modTime f).digests = s.digests := rfl
@[simp] theorem State.modTime_mboxes (f : TimeState → TimeState) : (s.modTime f).mboxes = s.mboxes := rfl
@[simp] theorem State.modTime_retired (f : TimeState → TimeState) : (s.modTime f).retired = s.retired := rfl
@[simp] theorem State.modTime_suspect (f : TimeState → TimeState) : (s.modTime f).suspect = s.suspect := rfl
@[simp] theorem State.modTime_tiles (f : TimeState → TimeState) : (s.modTime f).tiles = s.tiles := rfl
@[simp] theorem State.modTime_arrFmt (f : TimeState → TimeState) : (s.modTime f).arrFmt = s.arrFmt := rfl
@[simp] theorem State.modTime_tileTag (f : TimeState → TimeState) : (s.modTime f).tileTag = s.tileTag := rfl
@[simp] theorem State.modTime_engFail (f : TimeState → TimeState) : (s.modTime f).engFail = s.engFail := rfl
@[simp] theorem State.modTime_clove (f : TimeState → TimeState) : (s.modTime f).clove = s.clove := rfl
@[simp] theorem State.modTime_chainCur (f : TimeState → TimeState) : (s.modTime f).chainCur = s.chainCur := rfl
@[simp] theorem State.modTime_profCur (f : TimeState → TimeState) : (s.modTime f).profCur = s.profCur := rfl
@[simp] theorem State.modTime_qslots (f : TimeState → TimeState) : (s.modTime f).qslots = s.qslots := rfl
@[simp] theorem State.modTime_attCfg (f : TimeState → TimeState) : (s.modTime f).attCfg = s.attCfg := rfl
@[simp] theorem State.modTime_attSeq (f : TimeState → TimeState) : (s.modTime f).attSeq = s.attSeq := rfl
@[simp] theorem State.modTime_xslots (f : TimeState → TimeState) : (s.modTime f).xslots = s.xslots := rfl
@[simp] theorem State.modTime_links (f : TimeState → TimeState) : (s.modTime f).links = s.links := rfl
@[simp] theorem State.modTime_ports (f : TimeState → TimeState) : (s.modTime f).ports = s.ports := rfl
@[simp] theorem State.modTime_nodeReqs (f : TimeState → TimeState) : (s.modTime f).nodeReqs = s.nodeReqs := rfl
@[simp] theorem State.modTime_nodeTag (f : TimeState → TimeState) : (s.modTime f).nodeTag = s.nodeTag := rfl
@[simp] theorem State.modTime_fabric (f : TimeState → TimeState) : (s.modTime f).fabric = s.fabric := rfl
@[simp] theorem State.modTime_reqs (f : TimeState → TimeState) : (s.modTime f).reqs = s.reqs := rfl
@[simp] theorem State.modTime_submitted (f : TimeState → TimeState) : (s.modTime f).submitted = s.submitted := rfl
@[simp] theorem State.modTime_commands (f : TimeState → TimeState) : (s.modTime f).commands = s.commands := rfl
@[simp] theorem State.modTime_svs (f : TimeState → TimeState) : (s.modTime f).svs = s.svs := rfl
@[simp] theorem State.modTime_peps (f : TimeState → TimeState) : (s.modTime f).peps = s.peps := rfl
@[simp] theorem State.modTime_pepCur (f : TimeState → TimeState) : (s.modTime f).pepCur = s.pepCur := rfl
@[simp] theorem State.modTime_pageSeen (f : TimeState → TimeState) : (s.modTime f).pageSeen = s.pageSeen := rfl
@[simp] theorem State.modTime_seqBad (f : TimeState → TimeState) : (s.modTime f).seqBad = s.seqBad := rfl
@[simp] theorem State.modTime_done (f : TimeState → TimeState) : (s.modTime f).done = s.done := rfl
@[simp] theorem State.modTime_rdata (f : TimeState → TimeState) : (s.modTime f).rdata = s.rdata := rfl
@[simp] theorem State.modTime_free (f : TimeState → TimeState) : (s.modTime f).free = s.free := rfl
@[simp] theorem State.modTime_pending (f : TimeState → TimeState) : (s.modTime f).pending = s.pending := rfl

/-! ### modBulk -/

@[simp] theorem State.modBulk_clk (f : Bulk → Bulk) : (s.modBulk f).clk = s.clk := rfl
@[simp] theorem State.modBulk_regs (f : Bulk → Bulk) : (s.modBulk f).regs = s.regs := rfl
@[simp] theorem State.modBulk_staged (f : Bulk → Bulk) : (s.modBulk f).staged = s.staged := rfl
@[simp] theorem State.modBulk_mem (f : Bulk → Bulk) : (s.modBulk f).mem = s.mem := rfl
@[simp] theorem State.modBulk_timers (f : Bulk → Bulk) : (s.modBulk f).timers = s.timers := rfl
@[simp] theorem State.modBulk_ident (f : Bulk → Bulk) : (s.modBulk f).ident = s.ident := rfl
@[simp] theorem State.modBulk_boot (f : Bulk → Bulk) : (s.modBulk f).boot = s.boot := rfl
@[simp] theorem State.modBulk_power (f : Bulk → Bulk) : (s.modBulk f).power = s.power := rfl
@[simp] theorem State.modBulk_time (f : Bulk → Bulk) : (s.modBulk f).time = s.time := rfl
@[simp] theorem State.modBulk_slots (f : Bulk → Bulk) : (s.modBulk f).slots = s.slots := rfl
@[simp] theorem State.modBulk_schedLo (f : Bulk → Bulk) : (s.modBulk f).schedLo = s.schedLo := rfl
@[simp] theorem State.modBulk_schedHi (f : Bulk → Bulk) : (s.modBulk f).schedHi = s.schedHi := rfl
@[simp] theorem State.modBulk_ctrs (f : Bulk → Bulk) : (s.modBulk f).ctrs = s.ctrs := rfl
@[simp] theorem State.modBulk_parts (f : Bulk → Bulk) : (s.modBulk f).parts = s.parts := rfl
@[simp] theorem State.modBulk_doms (f : Bulk → Bulk) : (s.modBulk f).doms = s.doms := rfl
@[simp] theorem State.modBulk_seqs (f : Bulk → Bulk) : (s.modBulk f).seqs = s.seqs := rfl
@[simp] theorem State.modBulk_regions (f : Bulk → Bulk) : (s.modBulk f).regions = s.regions := rfl
@[simp] theorem State.modBulk_idleUntil (f : Bulk → Bulk) : (s.modBulk f).idleUntil = s.idleUntil := rfl
@[simp] theorem State.modBulk_evq (f : Bulk → Bulk) : (s.modBulk f).evq = s.evq := rfl
@[simp] theorem State.modBulk_evLost (f : Bulk → Bulk) : (s.modBulk f).evLost = s.evLost := rfl
@[simp] theorem State.modBulk_log (f : Bulk → Bulk) : (s.modBulk f).log = s.log := rfl
@[simp] theorem State.modBulk_logNext (f : Bulk → Bulk) : (s.modBulk f).logNext = s.logNext := rfl
@[simp] theorem State.modBulk_out (f : Bulk → Bulk) : (s.modBulk f).out = s.out := rfl
@[simp] theorem State.modBulk_tolvys (f : Bulk → Bulk) : (s.modBulk f).tolvys = s.tolvys := rfl
@[simp] theorem State.modBulk_stale (f : Bulk → Bulk) : (s.modBulk f).stale = s.stale := rfl
@[simp] theorem State.modBulk_windows (f : Bulk → Bulk) : (s.modBulk f).windows = s.windows := rfl
@[simp] theorem State.modBulk_wfOn (f : Bulk → Bulk) : (s.modBulk f).wfOn = s.wfOn := rfl
@[simp] theorem State.modBulk_rowSlots (f : Bulk → Bulk) : (s.modBulk f).rowSlots = s.rowSlots := rfl
@[simp] theorem State.modBulk_repairs (f : Bulk → Bulk) : (s.modBulk f).repairs = s.repairs := rfl
@[simp] theorem State.modBulk_igs (f : Bulk → Bulk) : (s.modBulk f).igs = s.igs := rfl
@[simp] theorem State.modBulk_csSets (f : Bulk → Bulk) : (s.modBulk f).csSets = s.csSets := rfl
@[simp] theorem State.modBulk_screens (f : Bulk → Bulk) : (s.modBulk f).screens = s.screens := rfl
@[simp] theorem State.modBulk_mace (f : Bulk → Bulk) : (s.modBulk f).mace = s.mace := rfl
@[simp] theorem State.modBulk_digests (f : Bulk → Bulk) : (s.modBulk f).digests = s.digests := rfl
@[simp] theorem State.modBulk_mboxes (f : Bulk → Bulk) : (s.modBulk f).mboxes = s.mboxes := rfl
@[simp] theorem State.modBulk_retired (f : Bulk → Bulk) : (s.modBulk f).retired = s.retired := rfl
@[simp] theorem State.modBulk_suspect (f : Bulk → Bulk) : (s.modBulk f).suspect = s.suspect := rfl
@[simp] theorem State.modBulk_tiles (f : Bulk → Bulk) : (s.modBulk f).tiles = s.tiles := rfl
@[simp] theorem State.modBulk_arrFmt (f : Bulk → Bulk) : (s.modBulk f).arrFmt = s.arrFmt := rfl
@[simp] theorem State.modBulk_tileTag (f : Bulk → Bulk) : (s.modBulk f).tileTag = s.tileTag := rfl
@[simp] theorem State.modBulk_engFail (f : Bulk → Bulk) : (s.modBulk f).engFail = s.engFail := rfl
@[simp] theorem State.modBulk_clove (f : Bulk → Bulk) : (s.modBulk f).clove = s.clove := rfl
@[simp] theorem State.modBulk_chainCur (f : Bulk → Bulk) : (s.modBulk f).chainCur = s.chainCur := rfl
@[simp] theorem State.modBulk_profCur (f : Bulk → Bulk) : (s.modBulk f).profCur = s.profCur := rfl
@[simp] theorem State.modBulk_qslots (f : Bulk → Bulk) : (s.modBulk f).qslots = s.qslots := rfl
@[simp] theorem State.modBulk_attCfg (f : Bulk → Bulk) : (s.modBulk f).attCfg = s.attCfg := rfl
@[simp] theorem State.modBulk_attSeq (f : Bulk → Bulk) : (s.modBulk f).attSeq = s.attSeq := rfl
@[simp] theorem State.modBulk_xslots (f : Bulk → Bulk) : (s.modBulk f).xslots = s.xslots := rfl
@[simp] theorem State.modBulk_links (f : Bulk → Bulk) : (s.modBulk f).links = s.links := rfl
@[simp] theorem State.modBulk_ports (f : Bulk → Bulk) : (s.modBulk f).ports = s.ports := rfl
@[simp] theorem State.modBulk_nodeReqs (f : Bulk → Bulk) : (s.modBulk f).nodeReqs = s.nodeReqs := rfl
@[simp] theorem State.modBulk_nodeTag (f : Bulk → Bulk) : (s.modBulk f).nodeTag = s.nodeTag := rfl
@[simp] theorem State.modBulk_fabric (f : Bulk → Bulk) : (s.modBulk f).fabric = s.fabric := rfl
@[simp] theorem State.modBulk_reqs (f : Bulk → Bulk) : (s.modBulk f).reqs = s.reqs := rfl
@[simp] theorem State.modBulk_submitted (f : Bulk → Bulk) : (s.modBulk f).submitted = s.submitted := rfl
@[simp] theorem State.modBulk_commands (f : Bulk → Bulk) : (s.modBulk f).commands = s.commands := rfl
@[simp] theorem State.modBulk_svs (f : Bulk → Bulk) : (s.modBulk f).svs = s.svs := rfl
@[simp] theorem State.modBulk_peps (f : Bulk → Bulk) : (s.modBulk f).peps = s.peps := rfl
@[simp] theorem State.modBulk_pepCur (f : Bulk → Bulk) : (s.modBulk f).pepCur = s.pepCur := rfl
@[simp] theorem State.modBulk_pageSeen (f : Bulk → Bulk) : (s.modBulk f).pageSeen = s.pageSeen := rfl
@[simp] theorem State.modBulk_seqBad (f : Bulk → Bulk) : (s.modBulk f).seqBad = s.seqBad := rfl
@[simp] theorem State.modBulk_done (f : Bulk → Bulk) : (s.modBulk f).done = s.done := rfl
@[simp] theorem State.modBulk_rdata (f : Bulk → Bulk) : (s.modBulk f).rdata = s.rdata := rfl
@[simp] theorem State.modBulk_free (f : Bulk → Bulk) : (s.modBulk f).free = s.free := rfl
@[simp] theorem State.modBulk_pending (f : Bulk → Bulk) : (s.modBulk f).pending = s.pending := rfl

/-! ### modStack -/

@[simp] theorem State.modStack_clk (t : Nat) (f : Stack → Stack) : (s.modStack t f).clk = s.clk := rfl
@[simp] theorem State.modStack_regs (t : Nat) (f : Stack → Stack) : (s.modStack t f).regs = s.regs := rfl
@[simp] theorem State.modStack_staged (t : Nat) (f : Stack → Stack) : (s.modStack t f).staged = s.staged := rfl
@[simp] theorem State.modStack_mem (t : Nat) (f : Stack → Stack) : (s.modStack t f).mem = s.mem := rfl
@[simp] theorem State.modStack_timers (t : Nat) (f : Stack → Stack) : (s.modStack t f).timers = s.timers := rfl
@[simp] theorem State.modStack_ident (t : Nat) (f : Stack → Stack) : (s.modStack t f).ident = s.ident := rfl
@[simp] theorem State.modStack_boot (t : Nat) (f : Stack → Stack) : (s.modStack t f).boot = s.boot := rfl
@[simp] theorem State.modStack_power (t : Nat) (f : Stack → Stack) : (s.modStack t f).power = s.power := rfl
@[simp] theorem State.modStack_time (t : Nat) (f : Stack → Stack) : (s.modStack t f).time = s.time := rfl
@[simp] theorem State.modStack_slots (t : Nat) (f : Stack → Stack) : (s.modStack t f).slots = s.slots := rfl
@[simp] theorem State.modStack_schedLo (t : Nat) (f : Stack → Stack) : (s.modStack t f).schedLo = s.schedLo := rfl
@[simp] theorem State.modStack_schedHi (t : Nat) (f : Stack → Stack) : (s.modStack t f).schedHi = s.schedHi := rfl
@[simp] theorem State.modStack_ctrs (t : Nat) (f : Stack → Stack) : (s.modStack t f).ctrs = s.ctrs := rfl
@[simp] theorem State.modStack_parts (t : Nat) (f : Stack → Stack) : (s.modStack t f).parts = s.parts := rfl
@[simp] theorem State.modStack_doms (t : Nat) (f : Stack → Stack) : (s.modStack t f).doms = s.doms := rfl
@[simp] theorem State.modStack_seqs (t : Nat) (f : Stack → Stack) : (s.modStack t f).seqs = s.seqs := rfl
@[simp] theorem State.modStack_regions (t : Nat) (f : Stack → Stack) : (s.modStack t f).regions = s.regions := rfl
@[simp] theorem State.modStack_idleUntil (t : Nat) (f : Stack → Stack) : (s.modStack t f).idleUntil = s.idleUntil := rfl
@[simp] theorem State.modStack_evq (t : Nat) (f : Stack → Stack) : (s.modStack t f).evq = s.evq := rfl
@[simp] theorem State.modStack_evLost (t : Nat) (f : Stack → Stack) : (s.modStack t f).evLost = s.evLost := rfl
@[simp] theorem State.modStack_log (t : Nat) (f : Stack → Stack) : (s.modStack t f).log = s.log := rfl
@[simp] theorem State.modStack_logNext (t : Nat) (f : Stack → Stack) : (s.modStack t f).logNext = s.logNext := rfl
@[simp] theorem State.modStack_out (t : Nat) (f : Stack → Stack) : (s.modStack t f).out = s.out := rfl
@[simp] theorem State.modStack_stale (t : Nat) (f : Stack → Stack) : (s.modStack t f).stale = s.stale := rfl
@[simp] theorem State.modStack_windows (t : Nat) (f : Stack → Stack) : (s.modStack t f).windows = s.windows := rfl
@[simp] theorem State.modStack_wfOn (t : Nat) (f : Stack → Stack) : (s.modStack t f).wfOn = s.wfOn := rfl
@[simp] theorem State.modStack_rowSlots (t : Nat) (f : Stack → Stack) : (s.modStack t f).rowSlots = s.rowSlots := rfl
@[simp] theorem State.modStack_bulk (t : Nat) (f : Stack → Stack) : (s.modStack t f).bulk = s.bulk := rfl
@[simp] theorem State.modStack_repairs (t : Nat) (f : Stack → Stack) : (s.modStack t f).repairs = s.repairs := rfl
@[simp] theorem State.modStack_igs (t : Nat) (f : Stack → Stack) : (s.modStack t f).igs = s.igs := rfl
@[simp] theorem State.modStack_csSets (t : Nat) (f : Stack → Stack) : (s.modStack t f).csSets = s.csSets := rfl
@[simp] theorem State.modStack_screens (t : Nat) (f : Stack → Stack) : (s.modStack t f).screens = s.screens := rfl
@[simp] theorem State.modStack_mace (t : Nat) (f : Stack → Stack) : (s.modStack t f).mace = s.mace := rfl
@[simp] theorem State.modStack_digests (t : Nat) (f : Stack → Stack) : (s.modStack t f).digests = s.digests := rfl
@[simp] theorem State.modStack_mboxes (t : Nat) (f : Stack → Stack) : (s.modStack t f).mboxes = s.mboxes := rfl
@[simp] theorem State.modStack_retired (t : Nat) (f : Stack → Stack) : (s.modStack t f).retired = s.retired := rfl
@[simp] theorem State.modStack_suspect (t : Nat) (f : Stack → Stack) : (s.modStack t f).suspect = s.suspect := rfl
@[simp] theorem State.modStack_tiles (t : Nat) (f : Stack → Stack) : (s.modStack t f).tiles = s.tiles := rfl
@[simp] theorem State.modStack_arrFmt (t : Nat) (f : Stack → Stack) : (s.modStack t f).arrFmt = s.arrFmt := rfl
@[simp] theorem State.modStack_tileTag (t : Nat) (f : Stack → Stack) : (s.modStack t f).tileTag = s.tileTag := rfl
@[simp] theorem State.modStack_engFail (t : Nat) (f : Stack → Stack) : (s.modStack t f).engFail = s.engFail := rfl
@[simp] theorem State.modStack_clove (t : Nat) (f : Stack → Stack) : (s.modStack t f).clove = s.clove := rfl
@[simp] theorem State.modStack_chainCur (t : Nat) (f : Stack → Stack) : (s.modStack t f).chainCur = s.chainCur := rfl
@[simp] theorem State.modStack_profCur (t : Nat) (f : Stack → Stack) : (s.modStack t f).profCur = s.profCur := rfl
@[simp] theorem State.modStack_qslots (t : Nat) (f : Stack → Stack) : (s.modStack t f).qslots = s.qslots := rfl
@[simp] theorem State.modStack_attCfg (t : Nat) (f : Stack → Stack) : (s.modStack t f).attCfg = s.attCfg := rfl
@[simp] theorem State.modStack_attSeq (t : Nat) (f : Stack → Stack) : (s.modStack t f).attSeq = s.attSeq := rfl
@[simp] theorem State.modStack_xslots (t : Nat) (f : Stack → Stack) : (s.modStack t f).xslots = s.xslots := rfl
@[simp] theorem State.modStack_links (t : Nat) (f : Stack → Stack) : (s.modStack t f).links = s.links := rfl
@[simp] theorem State.modStack_ports (t : Nat) (f : Stack → Stack) : (s.modStack t f).ports = s.ports := rfl
@[simp] theorem State.modStack_nodeReqs (t : Nat) (f : Stack → Stack) : (s.modStack t f).nodeReqs = s.nodeReqs := rfl
@[simp] theorem State.modStack_nodeTag (t : Nat) (f : Stack → Stack) : (s.modStack t f).nodeTag = s.nodeTag := rfl
@[simp] theorem State.modStack_fabric (t : Nat) (f : Stack → Stack) : (s.modStack t f).fabric = s.fabric := rfl
@[simp] theorem State.modStack_reqs (t : Nat) (f : Stack → Stack) : (s.modStack t f).reqs = s.reqs := rfl
@[simp] theorem State.modStack_submitted (t : Nat) (f : Stack → Stack) : (s.modStack t f).submitted = s.submitted := rfl
@[simp] theorem State.modStack_commands (t : Nat) (f : Stack → Stack) : (s.modStack t f).commands = s.commands := rfl
@[simp] theorem State.modStack_svs (t : Nat) (f : Stack → Stack) : (s.modStack t f).svs = s.svs := rfl
@[simp] theorem State.modStack_peps (t : Nat) (f : Stack → Stack) : (s.modStack t f).peps = s.peps := rfl
@[simp] theorem State.modStack_pepCur (t : Nat) (f : Stack → Stack) : (s.modStack t f).pepCur = s.pepCur := rfl
@[simp] theorem State.modStack_pageSeen (t : Nat) (f : Stack → Stack) : (s.modStack t f).pageSeen = s.pageSeen := rfl
@[simp] theorem State.modStack_seqBad (t : Nat) (f : Stack → Stack) : (s.modStack t f).seqBad = s.seqBad := rfl
@[simp] theorem State.modStack_done (t : Nat) (f : Stack → Stack) : (s.modStack t f).done = s.done := rfl
@[simp] theorem State.modStack_rdata (t : Nat) (f : Stack → Stack) : (s.modStack t f).rdata = s.rdata := rfl
@[simp] theorem State.modStack_free (t : Nat) (f : Stack → Stack) : (s.modStack t f).free = s.free := rfl
@[simp] theorem State.modStack_pending (t : Nat) (f : Stack → Stack) : (s.modStack t f).pending = s.pending := rfl

/-! ### modTile -/

@[simp] theorem State.modTile_clk (k t : Nat) (f : TileStat → TileStat) : (s.modTile k t f).clk = s.clk := rfl
@[simp] theorem State.modTile_regs (k t : Nat) (f : TileStat → TileStat) : (s.modTile k t f).regs = s.regs := rfl
@[simp] theorem State.modTile_staged (k t : Nat) (f : TileStat → TileStat) : (s.modTile k t f).staged = s.staged := rfl
@[simp] theorem State.modTile_mem (k t : Nat) (f : TileStat → TileStat) : (s.modTile k t f).mem = s.mem := rfl
@[simp] theorem State.modTile_timers (k t : Nat) (f : TileStat → TileStat) : (s.modTile k t f).timers = s.timers := rfl
@[simp] theorem State.modTile_ident (k t : Nat) (f : TileStat → TileStat) : (s.modTile k t f).ident = s.ident := rfl
@[simp] theorem State.modTile_boot (k t : Nat) (f : TileStat → TileStat) : (s.modTile k t f).boot = s.boot := rfl
@[simp] theorem State.modTile_power (k t : Nat) (f : TileStat → TileStat) : (s.modTile k t f).power = s.power := rfl
@[simp] theorem State.modTile_time (k t : Nat) (f : TileStat → TileStat) : (s.modTile k t f).time = s.time := rfl
@[simp] theorem State.modTile_slots (k t : Nat) (f : TileStat → TileStat) : (s.modTile k t f).slots = s.slots := rfl
@[simp] theorem State.modTile_schedLo (k t : Nat) (f : TileStat → TileStat) : (s.modTile k t f).schedLo = s.schedLo := rfl
@[simp] theorem State.modTile_schedHi (k t : Nat) (f : TileStat → TileStat) : (s.modTile k t f).schedHi = s.schedHi := rfl
@[simp] theorem State.modTile_ctrs (k t : Nat) (f : TileStat → TileStat) : (s.modTile k t f).ctrs = s.ctrs := rfl
@[simp] theorem State.modTile_parts (k t : Nat) (f : TileStat → TileStat) : (s.modTile k t f).parts = s.parts := rfl
@[simp] theorem State.modTile_doms (k t : Nat) (f : TileStat → TileStat) : (s.modTile k t f).doms = s.doms := rfl
@[simp] theorem State.modTile_seqs (k t : Nat) (f : TileStat → TileStat) : (s.modTile k t f).seqs = s.seqs := rfl
@[simp] theorem State.modTile_regions (k t : Nat) (f : TileStat → TileStat) : (s.modTile k t f).regions = s.regions := rfl
@[simp] theorem State.modTile_idleUntil (k t : Nat) (f : TileStat → TileStat) : (s.modTile k t f).idleUntil = s.idleUntil := rfl
@[simp] theorem State.modTile_evq (k t : Nat) (f : TileStat → TileStat) : (s.modTile k t f).evq = s.evq := rfl
@[simp] theorem State.modTile_evLost (k t : Nat) (f : TileStat → TileStat) : (s.modTile k t f).evLost = s.evLost := rfl
@[simp] theorem State.modTile_log (k t : Nat) (f : TileStat → TileStat) : (s.modTile k t f).log = s.log := rfl
@[simp] theorem State.modTile_logNext (k t : Nat) (f : TileStat → TileStat) : (s.modTile k t f).logNext = s.logNext := rfl
@[simp] theorem State.modTile_out (k t : Nat) (f : TileStat → TileStat) : (s.modTile k t f).out = s.out := rfl
@[simp] theorem State.modTile_tolvys (k t : Nat) (f : TileStat → TileStat) : (s.modTile k t f).tolvys = s.tolvys := rfl
@[simp] theorem State.modTile_stale (k t : Nat) (f : TileStat → TileStat) : (s.modTile k t f).stale = s.stale := rfl
@[simp] theorem State.modTile_windows (k t : Nat) (f : TileStat → TileStat) : (s.modTile k t f).windows = s.windows := rfl
@[simp] theorem State.modTile_wfOn (k t : Nat) (f : TileStat → TileStat) : (s.modTile k t f).wfOn = s.wfOn := rfl
@[simp] theorem State.modTile_rowSlots (k t : Nat) (f : TileStat → TileStat) : (s.modTile k t f).rowSlots = s.rowSlots := rfl
@[simp] theorem State.modTile_bulk (k t : Nat) (f : TileStat → TileStat) : (s.modTile k t f).bulk = s.bulk := rfl
@[simp] theorem State.modTile_repairs (k t : Nat) (f : TileStat → TileStat) : (s.modTile k t f).repairs = s.repairs := rfl
@[simp] theorem State.modTile_igs (k t : Nat) (f : TileStat → TileStat) : (s.modTile k t f).igs = s.igs := rfl
@[simp] theorem State.modTile_csSets (k t : Nat) (f : TileStat → TileStat) : (s.modTile k t f).csSets = s.csSets := rfl
@[simp] theorem State.modTile_screens (k t : Nat) (f : TileStat → TileStat) : (s.modTile k t f).screens = s.screens := rfl
@[simp] theorem State.modTile_mace (k t : Nat) (f : TileStat → TileStat) : (s.modTile k t f).mace = s.mace := rfl
@[simp] theorem State.modTile_digests (k t : Nat) (f : TileStat → TileStat) : (s.modTile k t f).digests = s.digests := rfl
@[simp] theorem State.modTile_mboxes (k t : Nat) (f : TileStat → TileStat) : (s.modTile k t f).mboxes = s.mboxes := rfl
@[simp] theorem State.modTile_retired (k t : Nat) (f : TileStat → TileStat) : (s.modTile k t f).retired = s.retired := rfl
@[simp] theorem State.modTile_suspect (k t : Nat) (f : TileStat → TileStat) : (s.modTile k t f).suspect = s.suspect := rfl
@[simp] theorem State.modTile_arrFmt (k t : Nat) (f : TileStat → TileStat) : (s.modTile k t f).arrFmt = s.arrFmt := rfl
@[simp] theorem State.modTile_tileTag (k t : Nat) (f : TileStat → TileStat) : (s.modTile k t f).tileTag = s.tileTag := rfl
@[simp] theorem State.modTile_engFail (k t : Nat) (f : TileStat → TileStat) : (s.modTile k t f).engFail = s.engFail := rfl
@[simp] theorem State.modTile_clove (k t : Nat) (f : TileStat → TileStat) : (s.modTile k t f).clove = s.clove := rfl
@[simp] theorem State.modTile_chainCur (k t : Nat) (f : TileStat → TileStat) : (s.modTile k t f).chainCur = s.chainCur := rfl
@[simp] theorem State.modTile_profCur (k t : Nat) (f : TileStat → TileStat) : (s.modTile k t f).profCur = s.profCur := rfl
@[simp] theorem State.modTile_qslots (k t : Nat) (f : TileStat → TileStat) : (s.modTile k t f).qslots = s.qslots := rfl
@[simp] theorem State.modTile_attCfg (k t : Nat) (f : TileStat → TileStat) : (s.modTile k t f).attCfg = s.attCfg := rfl
@[simp] theorem State.modTile_attSeq (k t : Nat) (f : TileStat → TileStat) : (s.modTile k t f).attSeq = s.attSeq := rfl
@[simp] theorem State.modTile_xslots (k t : Nat) (f : TileStat → TileStat) : (s.modTile k t f).xslots = s.xslots := rfl
@[simp] theorem State.modTile_links (k t : Nat) (f : TileStat → TileStat) : (s.modTile k t f).links = s.links := rfl
@[simp] theorem State.modTile_ports (k t : Nat) (f : TileStat → TileStat) : (s.modTile k t f).ports = s.ports := rfl
@[simp] theorem State.modTile_nodeReqs (k t : Nat) (f : TileStat → TileStat) : (s.modTile k t f).nodeReqs = s.nodeReqs := rfl
@[simp] theorem State.modTile_nodeTag (k t : Nat) (f : TileStat → TileStat) : (s.modTile k t f).nodeTag = s.nodeTag := rfl
@[simp] theorem State.modTile_fabric (k t : Nat) (f : TileStat → TileStat) : (s.modTile k t f).fabric = s.fabric := rfl
@[simp] theorem State.modTile_reqs (k t : Nat) (f : TileStat → TileStat) : (s.modTile k t f).reqs = s.reqs := rfl
@[simp] theorem State.modTile_submitted (k t : Nat) (f : TileStat → TileStat) : (s.modTile k t f).submitted = s.submitted := rfl
@[simp] theorem State.modTile_commands (k t : Nat) (f : TileStat → TileStat) : (s.modTile k t f).commands = s.commands := rfl
@[simp] theorem State.modTile_svs (k t : Nat) (f : TileStat → TileStat) : (s.modTile k t f).svs = s.svs := rfl
@[simp] theorem State.modTile_peps (k t : Nat) (f : TileStat → TileStat) : (s.modTile k t f).peps = s.peps := rfl
@[simp] theorem State.modTile_pepCur (k t : Nat) (f : TileStat → TileStat) : (s.modTile k t f).pepCur = s.pepCur := rfl
@[simp] theorem State.modTile_pageSeen (k t : Nat) (f : TileStat → TileStat) : (s.modTile k t f).pageSeen = s.pageSeen := rfl
@[simp] theorem State.modTile_seqBad (k t : Nat) (f : TileStat → TileStat) : (s.modTile k t f).seqBad = s.seqBad := rfl
@[simp] theorem State.modTile_done (k t : Nat) (f : TileStat → TileStat) : (s.modTile k t f).done = s.done := rfl
@[simp] theorem State.modTile_rdata (k t : Nat) (f : TileStat → TileStat) : (s.modTile k t f).rdata = s.rdata := rfl
@[simp] theorem State.modTile_free (k t : Nat) (f : TileStat → TileStat) : (s.modTile k t f).free = s.free := rfl
@[simp] theorem State.modTile_pending (k t : Nat) (f : TileStat → TileStat) : (s.modTile k t f).pending = s.pending := rfl

/-! ### modXslot -/

@[simp] theorem State.modXslot_clk (e q : Nat) (f : XSlot → XSlot) : (s.modXslot e q f).clk = s.clk := rfl
@[simp] theorem State.modXslot_regs (e q : Nat) (f : XSlot → XSlot) : (s.modXslot e q f).regs = s.regs := rfl
@[simp] theorem State.modXslot_staged (e q : Nat) (f : XSlot → XSlot) : (s.modXslot e q f).staged = s.staged := rfl
@[simp] theorem State.modXslot_mem (e q : Nat) (f : XSlot → XSlot) : (s.modXslot e q f).mem = s.mem := rfl
@[simp] theorem State.modXslot_timers (e q : Nat) (f : XSlot → XSlot) : (s.modXslot e q f).timers = s.timers := rfl
@[simp] theorem State.modXslot_ident (e q : Nat) (f : XSlot → XSlot) : (s.modXslot e q f).ident = s.ident := rfl
@[simp] theorem State.modXslot_boot (e q : Nat) (f : XSlot → XSlot) : (s.modXslot e q f).boot = s.boot := rfl
@[simp] theorem State.modXslot_power (e q : Nat) (f : XSlot → XSlot) : (s.modXslot e q f).power = s.power := rfl
@[simp] theorem State.modXslot_time (e q : Nat) (f : XSlot → XSlot) : (s.modXslot e q f).time = s.time := rfl
@[simp] theorem State.modXslot_slots (e q : Nat) (f : XSlot → XSlot) : (s.modXslot e q f).slots = s.slots := rfl
@[simp] theorem State.modXslot_schedLo (e q : Nat) (f : XSlot → XSlot) : (s.modXslot e q f).schedLo = s.schedLo := rfl
@[simp] theorem State.modXslot_schedHi (e q : Nat) (f : XSlot → XSlot) : (s.modXslot e q f).schedHi = s.schedHi := rfl
@[simp] theorem State.modXslot_ctrs (e q : Nat) (f : XSlot → XSlot) : (s.modXslot e q f).ctrs = s.ctrs := rfl
@[simp] theorem State.modXslot_parts (e q : Nat) (f : XSlot → XSlot) : (s.modXslot e q f).parts = s.parts := rfl
@[simp] theorem State.modXslot_doms (e q : Nat) (f : XSlot → XSlot) : (s.modXslot e q f).doms = s.doms := rfl
@[simp] theorem State.modXslot_seqs (e q : Nat) (f : XSlot → XSlot) : (s.modXslot e q f).seqs = s.seqs := rfl
@[simp] theorem State.modXslot_regions (e q : Nat) (f : XSlot → XSlot) : (s.modXslot e q f).regions = s.regions := rfl
@[simp] theorem State.modXslot_idleUntil (e q : Nat) (f : XSlot → XSlot) : (s.modXslot e q f).idleUntil = s.idleUntil := rfl
@[simp] theorem State.modXslot_evq (e q : Nat) (f : XSlot → XSlot) : (s.modXslot e q f).evq = s.evq := rfl
@[simp] theorem State.modXslot_evLost (e q : Nat) (f : XSlot → XSlot) : (s.modXslot e q f).evLost = s.evLost := rfl
@[simp] theorem State.modXslot_log (e q : Nat) (f : XSlot → XSlot) : (s.modXslot e q f).log = s.log := rfl
@[simp] theorem State.modXslot_logNext (e q : Nat) (f : XSlot → XSlot) : (s.modXslot e q f).logNext = s.logNext := rfl
@[simp] theorem State.modXslot_out (e q : Nat) (f : XSlot → XSlot) : (s.modXslot e q f).out = s.out := rfl
@[simp] theorem State.modXslot_tolvys (e q : Nat) (f : XSlot → XSlot) : (s.modXslot e q f).tolvys = s.tolvys := rfl
@[simp] theorem State.modXslot_stale (e q : Nat) (f : XSlot → XSlot) : (s.modXslot e q f).stale = s.stale := rfl
@[simp] theorem State.modXslot_windows (e q : Nat) (f : XSlot → XSlot) : (s.modXslot e q f).windows = s.windows := rfl
@[simp] theorem State.modXslot_wfOn (e q : Nat) (f : XSlot → XSlot) : (s.modXslot e q f).wfOn = s.wfOn := rfl
@[simp] theorem State.modXslot_rowSlots (e q : Nat) (f : XSlot → XSlot) : (s.modXslot e q f).rowSlots = s.rowSlots := rfl
@[simp] theorem State.modXslot_bulk (e q : Nat) (f : XSlot → XSlot) : (s.modXslot e q f).bulk = s.bulk := rfl
@[simp] theorem State.modXslot_repairs (e q : Nat) (f : XSlot → XSlot) : (s.modXslot e q f).repairs = s.repairs := rfl
@[simp] theorem State.modXslot_igs (e q : Nat) (f : XSlot → XSlot) : (s.modXslot e q f).igs = s.igs := rfl
@[simp] theorem State.modXslot_csSets (e q : Nat) (f : XSlot → XSlot) : (s.modXslot e q f).csSets = s.csSets := rfl
@[simp] theorem State.modXslot_screens (e q : Nat) (f : XSlot → XSlot) : (s.modXslot e q f).screens = s.screens := rfl
@[simp] theorem State.modXslot_mace (e q : Nat) (f : XSlot → XSlot) : (s.modXslot e q f).mace = s.mace := rfl
@[simp] theorem State.modXslot_digests (e q : Nat) (f : XSlot → XSlot) : (s.modXslot e q f).digests = s.digests := rfl
@[simp] theorem State.modXslot_mboxes (e q : Nat) (f : XSlot → XSlot) : (s.modXslot e q f).mboxes = s.mboxes := rfl
@[simp] theorem State.modXslot_retired (e q : Nat) (f : XSlot → XSlot) : (s.modXslot e q f).retired = s.retired := rfl
@[simp] theorem State.modXslot_suspect (e q : Nat) (f : XSlot → XSlot) : (s.modXslot e q f).suspect = s.suspect := rfl
@[simp] theorem State.modXslot_tiles (e q : Nat) (f : XSlot → XSlot) : (s.modXslot e q f).tiles = s.tiles := rfl
@[simp] theorem State.modXslot_arrFmt (e q : Nat) (f : XSlot → XSlot) : (s.modXslot e q f).arrFmt = s.arrFmt := rfl
@[simp] theorem State.modXslot_tileTag (e q : Nat) (f : XSlot → XSlot) : (s.modXslot e q f).tileTag = s.tileTag := rfl
@[simp] theorem State.modXslot_engFail (e q : Nat) (f : XSlot → XSlot) : (s.modXslot e q f).engFail = s.engFail := rfl
@[simp] theorem State.modXslot_clove (e q : Nat) (f : XSlot → XSlot) : (s.modXslot e q f).clove = s.clove := rfl
@[simp] theorem State.modXslot_chainCur (e q : Nat) (f : XSlot → XSlot) : (s.modXslot e q f).chainCur = s.chainCur := rfl
@[simp] theorem State.modXslot_profCur (e q : Nat) (f : XSlot → XSlot) : (s.modXslot e q f).profCur = s.profCur := rfl
@[simp] theorem State.modXslot_qslots (e q : Nat) (f : XSlot → XSlot) : (s.modXslot e q f).qslots = s.qslots := rfl
@[simp] theorem State.modXslot_attCfg (e q : Nat) (f : XSlot → XSlot) : (s.modXslot e q f).attCfg = s.attCfg := rfl
@[simp] theorem State.modXslot_attSeq (e q : Nat) (f : XSlot → XSlot) : (s.modXslot e q f).attSeq = s.attSeq := rfl
@[simp] theorem State.modXslot_links (e q : Nat) (f : XSlot → XSlot) : (s.modXslot e q f).links = s.links := rfl
@[simp] theorem State.modXslot_ports (e q : Nat) (f : XSlot → XSlot) : (s.modXslot e q f).ports = s.ports := rfl
@[simp] theorem State.modXslot_nodeReqs (e q : Nat) (f : XSlot → XSlot) : (s.modXslot e q f).nodeReqs = s.nodeReqs := rfl
@[simp] theorem State.modXslot_nodeTag (e q : Nat) (f : XSlot → XSlot) : (s.modXslot e q f).nodeTag = s.nodeTag := rfl
@[simp] theorem State.modXslot_fabric (e q : Nat) (f : XSlot → XSlot) : (s.modXslot e q f).fabric = s.fabric := rfl
@[simp] theorem State.modXslot_reqs (e q : Nat) (f : XSlot → XSlot) : (s.modXslot e q f).reqs = s.reqs := rfl
@[simp] theorem State.modXslot_submitted (e q : Nat) (f : XSlot → XSlot) : (s.modXslot e q f).submitted = s.submitted := rfl
@[simp] theorem State.modXslot_commands (e q : Nat) (f : XSlot → XSlot) : (s.modXslot e q f).commands = s.commands := rfl
@[simp] theorem State.modXslot_svs (e q : Nat) (f : XSlot → XSlot) : (s.modXslot e q f).svs = s.svs := rfl
@[simp] theorem State.modXslot_peps (e q : Nat) (f : XSlot → XSlot) : (s.modXslot e q f).peps = s.peps := rfl
@[simp] theorem State.modXslot_pepCur (e q : Nat) (f : XSlot → XSlot) : (s.modXslot e q f).pepCur = s.pepCur := rfl
@[simp] theorem State.modXslot_pageSeen (e q : Nat) (f : XSlot → XSlot) : (s.modXslot e q f).pageSeen = s.pageSeen := rfl
@[simp] theorem State.modXslot_seqBad (e q : Nat) (f : XSlot → XSlot) : (s.modXslot e q f).seqBad = s.seqBad := rfl
@[simp] theorem State.modXslot_done (e q : Nat) (f : XSlot → XSlot) : (s.modXslot e q f).done = s.done := rfl
@[simp] theorem State.modXslot_rdata (e q : Nat) (f : XSlot → XSlot) : (s.modXslot e q f).rdata = s.rdata := rfl
@[simp] theorem State.modXslot_free (e q : Nat) (f : XSlot → XSlot) : (s.modXslot e q f).free = s.free := rfl
@[simp] theorem State.modXslot_pending (e q : Nat) (f : XSlot → XSlot) : (s.modXslot e q f).pending = s.pending := rfl

/-! ### modIg -/

@[simp] theorem State.modIg_clk (p : Nat) (f : IgPart → IgPart) : (s.modIg p f).clk = s.clk := rfl
@[simp] theorem State.modIg_regs (p : Nat) (f : IgPart → IgPart) : (s.modIg p f).regs = s.regs := rfl
@[simp] theorem State.modIg_staged (p : Nat) (f : IgPart → IgPart) : (s.modIg p f).staged = s.staged := rfl
@[simp] theorem State.modIg_mem (p : Nat) (f : IgPart → IgPart) : (s.modIg p f).mem = s.mem := rfl
@[simp] theorem State.modIg_timers (p : Nat) (f : IgPart → IgPart) : (s.modIg p f).timers = s.timers := rfl
@[simp] theorem State.modIg_ident (p : Nat) (f : IgPart → IgPart) : (s.modIg p f).ident = s.ident := rfl
@[simp] theorem State.modIg_boot (p : Nat) (f : IgPart → IgPart) : (s.modIg p f).boot = s.boot := rfl
@[simp] theorem State.modIg_power (p : Nat) (f : IgPart → IgPart) : (s.modIg p f).power = s.power := rfl
@[simp] theorem State.modIg_time (p : Nat) (f : IgPart → IgPart) : (s.modIg p f).time = s.time := rfl
@[simp] theorem State.modIg_slots (p : Nat) (f : IgPart → IgPart) : (s.modIg p f).slots = s.slots := rfl
@[simp] theorem State.modIg_schedLo (p : Nat) (f : IgPart → IgPart) : (s.modIg p f).schedLo = s.schedLo := rfl
@[simp] theorem State.modIg_schedHi (p : Nat) (f : IgPart → IgPart) : (s.modIg p f).schedHi = s.schedHi := rfl
@[simp] theorem State.modIg_ctrs (p : Nat) (f : IgPart → IgPart) : (s.modIg p f).ctrs = s.ctrs := rfl
@[simp] theorem State.modIg_parts (p : Nat) (f : IgPart → IgPart) : (s.modIg p f).parts = s.parts := rfl
@[simp] theorem State.modIg_doms (p : Nat) (f : IgPart → IgPart) : (s.modIg p f).doms = s.doms := rfl
@[simp] theorem State.modIg_seqs (p : Nat) (f : IgPart → IgPart) : (s.modIg p f).seqs = s.seqs := rfl
@[simp] theorem State.modIg_regions (p : Nat) (f : IgPart → IgPart) : (s.modIg p f).regions = s.regions := rfl
@[simp] theorem State.modIg_idleUntil (p : Nat) (f : IgPart → IgPart) : (s.modIg p f).idleUntil = s.idleUntil := rfl
@[simp] theorem State.modIg_evq (p : Nat) (f : IgPart → IgPart) : (s.modIg p f).evq = s.evq := rfl
@[simp] theorem State.modIg_evLost (p : Nat) (f : IgPart → IgPart) : (s.modIg p f).evLost = s.evLost := rfl
@[simp] theorem State.modIg_log (p : Nat) (f : IgPart → IgPart) : (s.modIg p f).log = s.log := rfl
@[simp] theorem State.modIg_logNext (p : Nat) (f : IgPart → IgPart) : (s.modIg p f).logNext = s.logNext := rfl
@[simp] theorem State.modIg_out (p : Nat) (f : IgPart → IgPart) : (s.modIg p f).out = s.out := rfl
@[simp] theorem State.modIg_tolvys (p : Nat) (f : IgPart → IgPart) : (s.modIg p f).tolvys = s.tolvys := rfl
@[simp] theorem State.modIg_stale (p : Nat) (f : IgPart → IgPart) : (s.modIg p f).stale = s.stale := rfl
@[simp] theorem State.modIg_windows (p : Nat) (f : IgPart → IgPart) : (s.modIg p f).windows = s.windows := rfl
@[simp] theorem State.modIg_wfOn (p : Nat) (f : IgPart → IgPart) : (s.modIg p f).wfOn = s.wfOn := rfl
@[simp] theorem State.modIg_rowSlots (p : Nat) (f : IgPart → IgPart) : (s.modIg p f).rowSlots = s.rowSlots := rfl
@[simp] theorem State.modIg_bulk (p : Nat) (f : IgPart → IgPart) : (s.modIg p f).bulk = s.bulk := rfl
@[simp] theorem State.modIg_repairs (p : Nat) (f : IgPart → IgPart) : (s.modIg p f).repairs = s.repairs := rfl
@[simp] theorem State.modIg_csSets (p : Nat) (f : IgPart → IgPart) : (s.modIg p f).csSets = s.csSets := rfl
@[simp] theorem State.modIg_screens (p : Nat) (f : IgPart → IgPart) : (s.modIg p f).screens = s.screens := rfl
@[simp] theorem State.modIg_mace (p : Nat) (f : IgPart → IgPart) : (s.modIg p f).mace = s.mace := rfl
@[simp] theorem State.modIg_digests (p : Nat) (f : IgPart → IgPart) : (s.modIg p f).digests = s.digests := rfl
@[simp] theorem State.modIg_mboxes (p : Nat) (f : IgPart → IgPart) : (s.modIg p f).mboxes = s.mboxes := rfl
@[simp] theorem State.modIg_retired (p : Nat) (f : IgPart → IgPart) : (s.modIg p f).retired = s.retired := rfl
@[simp] theorem State.modIg_suspect (p : Nat) (f : IgPart → IgPart) : (s.modIg p f).suspect = s.suspect := rfl
@[simp] theorem State.modIg_tiles (p : Nat) (f : IgPart → IgPart) : (s.modIg p f).tiles = s.tiles := rfl
@[simp] theorem State.modIg_arrFmt (p : Nat) (f : IgPart → IgPart) : (s.modIg p f).arrFmt = s.arrFmt := rfl
@[simp] theorem State.modIg_tileTag (p : Nat) (f : IgPart → IgPart) : (s.modIg p f).tileTag = s.tileTag := rfl
@[simp] theorem State.modIg_engFail (p : Nat) (f : IgPart → IgPart) : (s.modIg p f).engFail = s.engFail := rfl
@[simp] theorem State.modIg_clove (p : Nat) (f : IgPart → IgPart) : (s.modIg p f).clove = s.clove := rfl
@[simp] theorem State.modIg_chainCur (p : Nat) (f : IgPart → IgPart) : (s.modIg p f).chainCur = s.chainCur := rfl
@[simp] theorem State.modIg_profCur (p : Nat) (f : IgPart → IgPart) : (s.modIg p f).profCur = s.profCur := rfl
@[simp] theorem State.modIg_qslots (p : Nat) (f : IgPart → IgPart) : (s.modIg p f).qslots = s.qslots := rfl
@[simp] theorem State.modIg_attCfg (p : Nat) (f : IgPart → IgPart) : (s.modIg p f).attCfg = s.attCfg := rfl
@[simp] theorem State.modIg_attSeq (p : Nat) (f : IgPart → IgPart) : (s.modIg p f).attSeq = s.attSeq := rfl
@[simp] theorem State.modIg_xslots (p : Nat) (f : IgPart → IgPart) : (s.modIg p f).xslots = s.xslots := rfl
@[simp] theorem State.modIg_links (p : Nat) (f : IgPart → IgPart) : (s.modIg p f).links = s.links := rfl
@[simp] theorem State.modIg_ports (p : Nat) (f : IgPart → IgPart) : (s.modIg p f).ports = s.ports := rfl
@[simp] theorem State.modIg_nodeReqs (p : Nat) (f : IgPart → IgPart) : (s.modIg p f).nodeReqs = s.nodeReqs := rfl
@[simp] theorem State.modIg_nodeTag (p : Nat) (f : IgPart → IgPart) : (s.modIg p f).nodeTag = s.nodeTag := rfl
@[simp] theorem State.modIg_fabric (p : Nat) (f : IgPart → IgPart) : (s.modIg p f).fabric = s.fabric := rfl
@[simp] theorem State.modIg_reqs (p : Nat) (f : IgPart → IgPart) : (s.modIg p f).reqs = s.reqs := rfl
@[simp] theorem State.modIg_submitted (p : Nat) (f : IgPart → IgPart) : (s.modIg p f).submitted = s.submitted := rfl
@[simp] theorem State.modIg_commands (p : Nat) (f : IgPart → IgPart) : (s.modIg p f).commands = s.commands := rfl
@[simp] theorem State.modIg_svs (p : Nat) (f : IgPart → IgPart) : (s.modIg p f).svs = s.svs := rfl
@[simp] theorem State.modIg_peps (p : Nat) (f : IgPart → IgPart) : (s.modIg p f).peps = s.peps := rfl
@[simp] theorem State.modIg_pepCur (p : Nat) (f : IgPart → IgPart) : (s.modIg p f).pepCur = s.pepCur := rfl
@[simp] theorem State.modIg_pageSeen (p : Nat) (f : IgPart → IgPart) : (s.modIg p f).pageSeen = s.pageSeen := rfl
@[simp] theorem State.modIg_seqBad (p : Nat) (f : IgPart → IgPart) : (s.modIg p f).seqBad = s.seqBad := rfl
@[simp] theorem State.modIg_done (p : Nat) (f : IgPart → IgPart) : (s.modIg p f).done = s.done := rfl
@[simp] theorem State.modIg_rdata (p : Nat) (f : IgPart → IgPart) : (s.modIg p f).rdata = s.rdata := rfl
@[simp] theorem State.modIg_free (p : Nat) (f : IgPart → IgPart) : (s.modIg p f).free = s.free := rfl
@[simp] theorem State.modIg_pending (p : Nat) (f : IgPart → IgPart) : (s.modIg p f).pending = s.pending := rfl

/-! ### modLink -/

@[simp] theorem State.modLink_clk (l : Nat) (f : Link → Link) : (s.modLink l f).clk = s.clk := rfl
@[simp] theorem State.modLink_regs (l : Nat) (f : Link → Link) : (s.modLink l f).regs = s.regs := rfl
@[simp] theorem State.modLink_staged (l : Nat) (f : Link → Link) : (s.modLink l f).staged = s.staged := rfl
@[simp] theorem State.modLink_mem (l : Nat) (f : Link → Link) : (s.modLink l f).mem = s.mem := rfl
@[simp] theorem State.modLink_timers (l : Nat) (f : Link → Link) : (s.modLink l f).timers = s.timers := rfl
@[simp] theorem State.modLink_ident (l : Nat) (f : Link → Link) : (s.modLink l f).ident = s.ident := rfl
@[simp] theorem State.modLink_boot (l : Nat) (f : Link → Link) : (s.modLink l f).boot = s.boot := rfl
@[simp] theorem State.modLink_power (l : Nat) (f : Link → Link) : (s.modLink l f).power = s.power := rfl
@[simp] theorem State.modLink_time (l : Nat) (f : Link → Link) : (s.modLink l f).time = s.time := rfl
@[simp] theorem State.modLink_slots (l : Nat) (f : Link → Link) : (s.modLink l f).slots = s.slots := rfl
@[simp] theorem State.modLink_schedLo (l : Nat) (f : Link → Link) : (s.modLink l f).schedLo = s.schedLo := rfl
@[simp] theorem State.modLink_schedHi (l : Nat) (f : Link → Link) : (s.modLink l f).schedHi = s.schedHi := rfl
@[simp] theorem State.modLink_ctrs (l : Nat) (f : Link → Link) : (s.modLink l f).ctrs = s.ctrs := rfl
@[simp] theorem State.modLink_parts (l : Nat) (f : Link → Link) : (s.modLink l f).parts = s.parts := rfl
@[simp] theorem State.modLink_doms (l : Nat) (f : Link → Link) : (s.modLink l f).doms = s.doms := rfl
@[simp] theorem State.modLink_seqs (l : Nat) (f : Link → Link) : (s.modLink l f).seqs = s.seqs := rfl
@[simp] theorem State.modLink_regions (l : Nat) (f : Link → Link) : (s.modLink l f).regions = s.regions := rfl
@[simp] theorem State.modLink_idleUntil (l : Nat) (f : Link → Link) : (s.modLink l f).idleUntil = s.idleUntil := rfl
@[simp] theorem State.modLink_evq (l : Nat) (f : Link → Link) : (s.modLink l f).evq = s.evq := rfl
@[simp] theorem State.modLink_evLost (l : Nat) (f : Link → Link) : (s.modLink l f).evLost = s.evLost := rfl
@[simp] theorem State.modLink_log (l : Nat) (f : Link → Link) : (s.modLink l f).log = s.log := rfl
@[simp] theorem State.modLink_logNext (l : Nat) (f : Link → Link) : (s.modLink l f).logNext = s.logNext := rfl
@[simp] theorem State.modLink_out (l : Nat) (f : Link → Link) : (s.modLink l f).out = s.out := rfl
@[simp] theorem State.modLink_tolvys (l : Nat) (f : Link → Link) : (s.modLink l f).tolvys = s.tolvys := rfl
@[simp] theorem State.modLink_stale (l : Nat) (f : Link → Link) : (s.modLink l f).stale = s.stale := rfl
@[simp] theorem State.modLink_windows (l : Nat) (f : Link → Link) : (s.modLink l f).windows = s.windows := rfl
@[simp] theorem State.modLink_wfOn (l : Nat) (f : Link → Link) : (s.modLink l f).wfOn = s.wfOn := rfl
@[simp] theorem State.modLink_rowSlots (l : Nat) (f : Link → Link) : (s.modLink l f).rowSlots = s.rowSlots := rfl
@[simp] theorem State.modLink_bulk (l : Nat) (f : Link → Link) : (s.modLink l f).bulk = s.bulk := rfl
@[simp] theorem State.modLink_repairs (l : Nat) (f : Link → Link) : (s.modLink l f).repairs = s.repairs := rfl
@[simp] theorem State.modLink_igs (l : Nat) (f : Link → Link) : (s.modLink l f).igs = s.igs := rfl
@[simp] theorem State.modLink_csSets (l : Nat) (f : Link → Link) : (s.modLink l f).csSets = s.csSets := rfl
@[simp] theorem State.modLink_screens (l : Nat) (f : Link → Link) : (s.modLink l f).screens = s.screens := rfl
@[simp] theorem State.modLink_mace (l : Nat) (f : Link → Link) : (s.modLink l f).mace = s.mace := rfl
@[simp] theorem State.modLink_digests (l : Nat) (f : Link → Link) : (s.modLink l f).digests = s.digests := rfl
@[simp] theorem State.modLink_mboxes (l : Nat) (f : Link → Link) : (s.modLink l f).mboxes = s.mboxes := rfl
@[simp] theorem State.modLink_retired (l : Nat) (f : Link → Link) : (s.modLink l f).retired = s.retired := rfl
@[simp] theorem State.modLink_suspect (l : Nat) (f : Link → Link) : (s.modLink l f).suspect = s.suspect := rfl
@[simp] theorem State.modLink_tiles (l : Nat) (f : Link → Link) : (s.modLink l f).tiles = s.tiles := rfl
@[simp] theorem State.modLink_arrFmt (l : Nat) (f : Link → Link) : (s.modLink l f).arrFmt = s.arrFmt := rfl
@[simp] theorem State.modLink_tileTag (l : Nat) (f : Link → Link) : (s.modLink l f).tileTag = s.tileTag := rfl
@[simp] theorem State.modLink_engFail (l : Nat) (f : Link → Link) : (s.modLink l f).engFail = s.engFail := rfl
@[simp] theorem State.modLink_clove (l : Nat) (f : Link → Link) : (s.modLink l f).clove = s.clove := rfl
@[simp] theorem State.modLink_chainCur (l : Nat) (f : Link → Link) : (s.modLink l f).chainCur = s.chainCur := rfl
@[simp] theorem State.modLink_profCur (l : Nat) (f : Link → Link) : (s.modLink l f).profCur = s.profCur := rfl
@[simp] theorem State.modLink_qslots (l : Nat) (f : Link → Link) : (s.modLink l f).qslots = s.qslots := rfl
@[simp] theorem State.modLink_attCfg (l : Nat) (f : Link → Link) : (s.modLink l f).attCfg = s.attCfg := rfl
@[simp] theorem State.modLink_attSeq (l : Nat) (f : Link → Link) : (s.modLink l f).attSeq = s.attSeq := rfl
@[simp] theorem State.modLink_xslots (l : Nat) (f : Link → Link) : (s.modLink l f).xslots = s.xslots := rfl
@[simp] theorem State.modLink_ports (l : Nat) (f : Link → Link) : (s.modLink l f).ports = s.ports := rfl
@[simp] theorem State.modLink_nodeReqs (l : Nat) (f : Link → Link) : (s.modLink l f).nodeReqs = s.nodeReqs := rfl
@[simp] theorem State.modLink_nodeTag (l : Nat) (f : Link → Link) : (s.modLink l f).nodeTag = s.nodeTag := rfl
@[simp] theorem State.modLink_fabric (l : Nat) (f : Link → Link) : (s.modLink l f).fabric = s.fabric := rfl
@[simp] theorem State.modLink_reqs (l : Nat) (f : Link → Link) : (s.modLink l f).reqs = s.reqs := rfl
@[simp] theorem State.modLink_submitted (l : Nat) (f : Link → Link) : (s.modLink l f).submitted = s.submitted := rfl
@[simp] theorem State.modLink_commands (l : Nat) (f : Link → Link) : (s.modLink l f).commands = s.commands := rfl
@[simp] theorem State.modLink_svs (l : Nat) (f : Link → Link) : (s.modLink l f).svs = s.svs := rfl
@[simp] theorem State.modLink_peps (l : Nat) (f : Link → Link) : (s.modLink l f).peps = s.peps := rfl
@[simp] theorem State.modLink_pepCur (l : Nat) (f : Link → Link) : (s.modLink l f).pepCur = s.pepCur := rfl
@[simp] theorem State.modLink_pageSeen (l : Nat) (f : Link → Link) : (s.modLink l f).pageSeen = s.pageSeen := rfl
@[simp] theorem State.modLink_seqBad (l : Nat) (f : Link → Link) : (s.modLink l f).seqBad = s.seqBad := rfl
@[simp] theorem State.modLink_done (l : Nat) (f : Link → Link) : (s.modLink l f).done = s.done := rfl
@[simp] theorem State.modLink_rdata (l : Nat) (f : Link → Link) : (s.modLink l f).rdata = s.rdata := rfl
@[simp] theorem State.modLink_free (l : Nat) (f : Link → Link) : (s.modLink l f).free = s.free := rfl
@[simp] theorem State.modLink_pending (l : Nat) (f : Link → Link) : (s.modLink l f).pending = s.pending := rfl

/-! ### modFabric -/

@[simp] theorem State.modFabric_clk (f : Fabric → Fabric) : (s.modFabric f).clk = s.clk := rfl
@[simp] theorem State.modFabric_regs (f : Fabric → Fabric) : (s.modFabric f).regs = s.regs := rfl
@[simp] theorem State.modFabric_staged (f : Fabric → Fabric) : (s.modFabric f).staged = s.staged := rfl
@[simp] theorem State.modFabric_mem (f : Fabric → Fabric) : (s.modFabric f).mem = s.mem := rfl
@[simp] theorem State.modFabric_timers (f : Fabric → Fabric) : (s.modFabric f).timers = s.timers := rfl
@[simp] theorem State.modFabric_ident (f : Fabric → Fabric) : (s.modFabric f).ident = s.ident := rfl
@[simp] theorem State.modFabric_boot (f : Fabric → Fabric) : (s.modFabric f).boot = s.boot := rfl
@[simp] theorem State.modFabric_power (f : Fabric → Fabric) : (s.modFabric f).power = s.power := rfl
@[simp] theorem State.modFabric_time (f : Fabric → Fabric) : (s.modFabric f).time = s.time := rfl
@[simp] theorem State.modFabric_slots (f : Fabric → Fabric) : (s.modFabric f).slots = s.slots := rfl
@[simp] theorem State.modFabric_schedLo (f : Fabric → Fabric) : (s.modFabric f).schedLo = s.schedLo := rfl
@[simp] theorem State.modFabric_schedHi (f : Fabric → Fabric) : (s.modFabric f).schedHi = s.schedHi := rfl
@[simp] theorem State.modFabric_ctrs (f : Fabric → Fabric) : (s.modFabric f).ctrs = s.ctrs := rfl
@[simp] theorem State.modFabric_parts (f : Fabric → Fabric) : (s.modFabric f).parts = s.parts := rfl
@[simp] theorem State.modFabric_doms (f : Fabric → Fabric) : (s.modFabric f).doms = s.doms := rfl
@[simp] theorem State.modFabric_seqs (f : Fabric → Fabric) : (s.modFabric f).seqs = s.seqs := rfl
@[simp] theorem State.modFabric_regions (f : Fabric → Fabric) : (s.modFabric f).regions = s.regions := rfl
@[simp] theorem State.modFabric_idleUntil (f : Fabric → Fabric) : (s.modFabric f).idleUntil = s.idleUntil := rfl
@[simp] theorem State.modFabric_evq (f : Fabric → Fabric) : (s.modFabric f).evq = s.evq := rfl
@[simp] theorem State.modFabric_evLost (f : Fabric → Fabric) : (s.modFabric f).evLost = s.evLost := rfl
@[simp] theorem State.modFabric_log (f : Fabric → Fabric) : (s.modFabric f).log = s.log := rfl
@[simp] theorem State.modFabric_logNext (f : Fabric → Fabric) : (s.modFabric f).logNext = s.logNext := rfl
@[simp] theorem State.modFabric_out (f : Fabric → Fabric) : (s.modFabric f).out = s.out := rfl
@[simp] theorem State.modFabric_tolvys (f : Fabric → Fabric) : (s.modFabric f).tolvys = s.tolvys := rfl
@[simp] theorem State.modFabric_stale (f : Fabric → Fabric) : (s.modFabric f).stale = s.stale := rfl
@[simp] theorem State.modFabric_windows (f : Fabric → Fabric) : (s.modFabric f).windows = s.windows := rfl
@[simp] theorem State.modFabric_wfOn (f : Fabric → Fabric) : (s.modFabric f).wfOn = s.wfOn := rfl
@[simp] theorem State.modFabric_rowSlots (f : Fabric → Fabric) : (s.modFabric f).rowSlots = s.rowSlots := rfl
@[simp] theorem State.modFabric_bulk (f : Fabric → Fabric) : (s.modFabric f).bulk = s.bulk := rfl
@[simp] theorem State.modFabric_repairs (f : Fabric → Fabric) : (s.modFabric f).repairs = s.repairs := rfl
@[simp] theorem State.modFabric_igs (f : Fabric → Fabric) : (s.modFabric f).igs = s.igs := rfl
@[simp] theorem State.modFabric_csSets (f : Fabric → Fabric) : (s.modFabric f).csSets = s.csSets := rfl
@[simp] theorem State.modFabric_screens (f : Fabric → Fabric) : (s.modFabric f).screens = s.screens := rfl
@[simp] theorem State.modFabric_mace (f : Fabric → Fabric) : (s.modFabric f).mace = s.mace := rfl
@[simp] theorem State.modFabric_digests (f : Fabric → Fabric) : (s.modFabric f).digests = s.digests := rfl
@[simp] theorem State.modFabric_mboxes (f : Fabric → Fabric) : (s.modFabric f).mboxes = s.mboxes := rfl
@[simp] theorem State.modFabric_retired (f : Fabric → Fabric) : (s.modFabric f).retired = s.retired := rfl
@[simp] theorem State.modFabric_suspect (f : Fabric → Fabric) : (s.modFabric f).suspect = s.suspect := rfl
@[simp] theorem State.modFabric_tiles (f : Fabric → Fabric) : (s.modFabric f).tiles = s.tiles := rfl
@[simp] theorem State.modFabric_arrFmt (f : Fabric → Fabric) : (s.modFabric f).arrFmt = s.arrFmt := rfl
@[simp] theorem State.modFabric_tileTag (f : Fabric → Fabric) : (s.modFabric f).tileTag = s.tileTag := rfl
@[simp] theorem State.modFabric_engFail (f : Fabric → Fabric) : (s.modFabric f).engFail = s.engFail := rfl
@[simp] theorem State.modFabric_clove (f : Fabric → Fabric) : (s.modFabric f).clove = s.clove := rfl
@[simp] theorem State.modFabric_chainCur (f : Fabric → Fabric) : (s.modFabric f).chainCur = s.chainCur := rfl
@[simp] theorem State.modFabric_profCur (f : Fabric → Fabric) : (s.modFabric f).profCur = s.profCur := rfl
@[simp] theorem State.modFabric_qslots (f : Fabric → Fabric) : (s.modFabric f).qslots = s.qslots := rfl
@[simp] theorem State.modFabric_attCfg (f : Fabric → Fabric) : (s.modFabric f).attCfg = s.attCfg := rfl
@[simp] theorem State.modFabric_attSeq (f : Fabric → Fabric) : (s.modFabric f).attSeq = s.attSeq := rfl
@[simp] theorem State.modFabric_xslots (f : Fabric → Fabric) : (s.modFabric f).xslots = s.xslots := rfl
@[simp] theorem State.modFabric_links (f : Fabric → Fabric) : (s.modFabric f).links = s.links := rfl
@[simp] theorem State.modFabric_ports (f : Fabric → Fabric) : (s.modFabric f).ports = s.ports := rfl
@[simp] theorem State.modFabric_nodeReqs (f : Fabric → Fabric) : (s.modFabric f).nodeReqs = s.nodeReqs := rfl
@[simp] theorem State.modFabric_nodeTag (f : Fabric → Fabric) : (s.modFabric f).nodeTag = s.nodeTag := rfl
@[simp] theorem State.modFabric_reqs (f : Fabric → Fabric) : (s.modFabric f).reqs = s.reqs := rfl
@[simp] theorem State.modFabric_submitted (f : Fabric → Fabric) : (s.modFabric f).submitted = s.submitted := rfl
@[simp] theorem State.modFabric_commands (f : Fabric → Fabric) : (s.modFabric f).commands = s.commands := rfl
@[simp] theorem State.modFabric_svs (f : Fabric → Fabric) : (s.modFabric f).svs = s.svs := rfl
@[simp] theorem State.modFabric_peps (f : Fabric → Fabric) : (s.modFabric f).peps = s.peps := rfl
@[simp] theorem State.modFabric_pepCur (f : Fabric → Fabric) : (s.modFabric f).pepCur = s.pepCur := rfl
@[simp] theorem State.modFabric_pageSeen (f : Fabric → Fabric) : (s.modFabric f).pageSeen = s.pageSeen := rfl
@[simp] theorem State.modFabric_seqBad (f : Fabric → Fabric) : (s.modFabric f).seqBad = s.seqBad := rfl
@[simp] theorem State.modFabric_done (f : Fabric → Fabric) : (s.modFabric f).done = s.done := rfl
@[simp] theorem State.modFabric_rdata (f : Fabric → Fabric) : (s.modFabric f).rdata = s.rdata := rfl
@[simp] theorem State.modFabric_free (f : Fabric → Fabric) : (s.modFabric f).free = s.free := rfl
@[simp] theorem State.modFabric_pending (f : Fabric → Fabric) : (s.modFabric f).pending = s.pending := rfl

/-! ### modMbox -/

@[simp] theorem State.modMbox_clk (d : Nat) (f : Mbox → Mbox) : (s.modMbox d f).clk = s.clk := rfl
@[simp] theorem State.modMbox_regs (d : Nat) (f : Mbox → Mbox) : (s.modMbox d f).regs = s.regs := rfl
@[simp] theorem State.modMbox_staged (d : Nat) (f : Mbox → Mbox) : (s.modMbox d f).staged = s.staged := rfl
@[simp] theorem State.modMbox_mem (d : Nat) (f : Mbox → Mbox) : (s.modMbox d f).mem = s.mem := rfl
@[simp] theorem State.modMbox_timers (d : Nat) (f : Mbox → Mbox) : (s.modMbox d f).timers = s.timers := rfl
@[simp] theorem State.modMbox_ident (d : Nat) (f : Mbox → Mbox) : (s.modMbox d f).ident = s.ident := rfl
@[simp] theorem State.modMbox_boot (d : Nat) (f : Mbox → Mbox) : (s.modMbox d f).boot = s.boot := rfl
@[simp] theorem State.modMbox_power (d : Nat) (f : Mbox → Mbox) : (s.modMbox d f).power = s.power := rfl
@[simp] theorem State.modMbox_time (d : Nat) (f : Mbox → Mbox) : (s.modMbox d f).time = s.time := rfl
@[simp] theorem State.modMbox_slots (d : Nat) (f : Mbox → Mbox) : (s.modMbox d f).slots = s.slots := rfl
@[simp] theorem State.modMbox_schedLo (d : Nat) (f : Mbox → Mbox) : (s.modMbox d f).schedLo = s.schedLo := rfl
@[simp] theorem State.modMbox_schedHi (d : Nat) (f : Mbox → Mbox) : (s.modMbox d f).schedHi = s.schedHi := rfl
@[simp] theorem State.modMbox_ctrs (d : Nat) (f : Mbox → Mbox) : (s.modMbox d f).ctrs = s.ctrs := rfl
@[simp] theorem State.modMbox_parts (d : Nat) (f : Mbox → Mbox) : (s.modMbox d f).parts = s.parts := rfl
@[simp] theorem State.modMbox_doms (d : Nat) (f : Mbox → Mbox) : (s.modMbox d f).doms = s.doms := rfl
@[simp] theorem State.modMbox_seqs (d : Nat) (f : Mbox → Mbox) : (s.modMbox d f).seqs = s.seqs := rfl
@[simp] theorem State.modMbox_regions (d : Nat) (f : Mbox → Mbox) : (s.modMbox d f).regions = s.regions := rfl
@[simp] theorem State.modMbox_idleUntil (d : Nat) (f : Mbox → Mbox) : (s.modMbox d f).idleUntil = s.idleUntil := rfl
@[simp] theorem State.modMbox_evq (d : Nat) (f : Mbox → Mbox) : (s.modMbox d f).evq = s.evq := rfl
@[simp] theorem State.modMbox_evLost (d : Nat) (f : Mbox → Mbox) : (s.modMbox d f).evLost = s.evLost := rfl
@[simp] theorem State.modMbox_log (d : Nat) (f : Mbox → Mbox) : (s.modMbox d f).log = s.log := rfl
@[simp] theorem State.modMbox_logNext (d : Nat) (f : Mbox → Mbox) : (s.modMbox d f).logNext = s.logNext := rfl
@[simp] theorem State.modMbox_out (d : Nat) (f : Mbox → Mbox) : (s.modMbox d f).out = s.out := rfl
@[simp] theorem State.modMbox_tolvys (d : Nat) (f : Mbox → Mbox) : (s.modMbox d f).tolvys = s.tolvys := rfl
@[simp] theorem State.modMbox_stale (d : Nat) (f : Mbox → Mbox) : (s.modMbox d f).stale = s.stale := rfl
@[simp] theorem State.modMbox_windows (d : Nat) (f : Mbox → Mbox) : (s.modMbox d f).windows = s.windows := rfl
@[simp] theorem State.modMbox_wfOn (d : Nat) (f : Mbox → Mbox) : (s.modMbox d f).wfOn = s.wfOn := rfl
@[simp] theorem State.modMbox_rowSlots (d : Nat) (f : Mbox → Mbox) : (s.modMbox d f).rowSlots = s.rowSlots := rfl
@[simp] theorem State.modMbox_bulk (d : Nat) (f : Mbox → Mbox) : (s.modMbox d f).bulk = s.bulk := rfl
@[simp] theorem State.modMbox_repairs (d : Nat) (f : Mbox → Mbox) : (s.modMbox d f).repairs = s.repairs := rfl
@[simp] theorem State.modMbox_igs (d : Nat) (f : Mbox → Mbox) : (s.modMbox d f).igs = s.igs := rfl
@[simp] theorem State.modMbox_csSets (d : Nat) (f : Mbox → Mbox) : (s.modMbox d f).csSets = s.csSets := rfl
@[simp] theorem State.modMbox_screens (d : Nat) (f : Mbox → Mbox) : (s.modMbox d f).screens = s.screens := rfl
@[simp] theorem State.modMbox_mace (d : Nat) (f : Mbox → Mbox) : (s.modMbox d f).mace = s.mace := rfl
@[simp] theorem State.modMbox_digests (d : Nat) (f : Mbox → Mbox) : (s.modMbox d f).digests = s.digests := rfl
@[simp] theorem State.modMbox_retired (d : Nat) (f : Mbox → Mbox) : (s.modMbox d f).retired = s.retired := rfl
@[simp] theorem State.modMbox_suspect (d : Nat) (f : Mbox → Mbox) : (s.modMbox d f).suspect = s.suspect := rfl
@[simp] theorem State.modMbox_tiles (d : Nat) (f : Mbox → Mbox) : (s.modMbox d f).tiles = s.tiles := rfl
@[simp] theorem State.modMbox_arrFmt (d : Nat) (f : Mbox → Mbox) : (s.modMbox d f).arrFmt = s.arrFmt := rfl
@[simp] theorem State.modMbox_tileTag (d : Nat) (f : Mbox → Mbox) : (s.modMbox d f).tileTag = s.tileTag := rfl
@[simp] theorem State.modMbox_engFail (d : Nat) (f : Mbox → Mbox) : (s.modMbox d f).engFail = s.engFail := rfl
@[simp] theorem State.modMbox_clove (d : Nat) (f : Mbox → Mbox) : (s.modMbox d f).clove = s.clove := rfl
@[simp] theorem State.modMbox_chainCur (d : Nat) (f : Mbox → Mbox) : (s.modMbox d f).chainCur = s.chainCur := rfl
@[simp] theorem State.modMbox_profCur (d : Nat) (f : Mbox → Mbox) : (s.modMbox d f).profCur = s.profCur := rfl
@[simp] theorem State.modMbox_qslots (d : Nat) (f : Mbox → Mbox) : (s.modMbox d f).qslots = s.qslots := rfl
@[simp] theorem State.modMbox_attCfg (d : Nat) (f : Mbox → Mbox) : (s.modMbox d f).attCfg = s.attCfg := rfl
@[simp] theorem State.modMbox_attSeq (d : Nat) (f : Mbox → Mbox) : (s.modMbox d f).attSeq = s.attSeq := rfl
@[simp] theorem State.modMbox_xslots (d : Nat) (f : Mbox → Mbox) : (s.modMbox d f).xslots = s.xslots := rfl
@[simp] theorem State.modMbox_links (d : Nat) (f : Mbox → Mbox) : (s.modMbox d f).links = s.links := rfl
@[simp] theorem State.modMbox_ports (d : Nat) (f : Mbox → Mbox) : (s.modMbox d f).ports = s.ports := rfl
@[simp] theorem State.modMbox_nodeReqs (d : Nat) (f : Mbox → Mbox) : (s.modMbox d f).nodeReqs = s.nodeReqs := rfl
@[simp] theorem State.modMbox_nodeTag (d : Nat) (f : Mbox → Mbox) : (s.modMbox d f).nodeTag = s.nodeTag := rfl
@[simp] theorem State.modMbox_fabric (d : Nat) (f : Mbox → Mbox) : (s.modMbox d f).fabric = s.fabric := rfl
@[simp] theorem State.modMbox_reqs (d : Nat) (f : Mbox → Mbox) : (s.modMbox d f).reqs = s.reqs := rfl
@[simp] theorem State.modMbox_submitted (d : Nat) (f : Mbox → Mbox) : (s.modMbox d f).submitted = s.submitted := rfl
@[simp] theorem State.modMbox_commands (d : Nat) (f : Mbox → Mbox) : (s.modMbox d f).commands = s.commands := rfl
@[simp] theorem State.modMbox_svs (d : Nat) (f : Mbox → Mbox) : (s.modMbox d f).svs = s.svs := rfl
@[simp] theorem State.modMbox_peps (d : Nat) (f : Mbox → Mbox) : (s.modMbox d f).peps = s.peps := rfl
@[simp] theorem State.modMbox_pepCur (d : Nat) (f : Mbox → Mbox) : (s.modMbox d f).pepCur = s.pepCur := rfl
@[simp] theorem State.modMbox_pageSeen (d : Nat) (f : Mbox → Mbox) : (s.modMbox d f).pageSeen = s.pageSeen := rfl
@[simp] theorem State.modMbox_seqBad (d : Nat) (f : Mbox → Mbox) : (s.modMbox d f).seqBad = s.seqBad := rfl
@[simp] theorem State.modMbox_done (d : Nat) (f : Mbox → Mbox) : (s.modMbox d f).done = s.done := rfl
@[simp] theorem State.modMbox_rdata (d : Nat) (f : Mbox → Mbox) : (s.modMbox d f).rdata = s.rdata := rfl
@[simp] theorem State.modMbox_free (d : Nat) (f : Mbox → Mbox) : (s.modMbox d f).free = s.free := rfl
@[simp] theorem State.modMbox_pending (d : Nat) (f : Mbox → Mbox) : (s.modMbox d f).pending = s.pending := rfl

/-! ### modPep -/

@[simp] theorem State.modPep_clk (p : Nat) (f : PepPart → PepPart) : (s.modPep p f).clk = s.clk := rfl
@[simp] theorem State.modPep_regs (p : Nat) (f : PepPart → PepPart) : (s.modPep p f).regs = s.regs := rfl
@[simp] theorem State.modPep_staged (p : Nat) (f : PepPart → PepPart) : (s.modPep p f).staged = s.staged := rfl
@[simp] theorem State.modPep_mem (p : Nat) (f : PepPart → PepPart) : (s.modPep p f).mem = s.mem := rfl
@[simp] theorem State.modPep_timers (p : Nat) (f : PepPart → PepPart) : (s.modPep p f).timers = s.timers := rfl
@[simp] theorem State.modPep_ident (p : Nat) (f : PepPart → PepPart) : (s.modPep p f).ident = s.ident := rfl
@[simp] theorem State.modPep_boot (p : Nat) (f : PepPart → PepPart) : (s.modPep p f).boot = s.boot := rfl
@[simp] theorem State.modPep_power (p : Nat) (f : PepPart → PepPart) : (s.modPep p f).power = s.power := rfl
@[simp] theorem State.modPep_time (p : Nat) (f : PepPart → PepPart) : (s.modPep p f).time = s.time := rfl
@[simp] theorem State.modPep_slots (p : Nat) (f : PepPart → PepPart) : (s.modPep p f).slots = s.slots := rfl
@[simp] theorem State.modPep_schedLo (p : Nat) (f : PepPart → PepPart) : (s.modPep p f).schedLo = s.schedLo := rfl
@[simp] theorem State.modPep_schedHi (p : Nat) (f : PepPart → PepPart) : (s.modPep p f).schedHi = s.schedHi := rfl
@[simp] theorem State.modPep_ctrs (p : Nat) (f : PepPart → PepPart) : (s.modPep p f).ctrs = s.ctrs := rfl
@[simp] theorem State.modPep_parts (p : Nat) (f : PepPart → PepPart) : (s.modPep p f).parts = s.parts := rfl
@[simp] theorem State.modPep_doms (p : Nat) (f : PepPart → PepPart) : (s.modPep p f).doms = s.doms := rfl
@[simp] theorem State.modPep_seqs (p : Nat) (f : PepPart → PepPart) : (s.modPep p f).seqs = s.seqs := rfl
@[simp] theorem State.modPep_regions (p : Nat) (f : PepPart → PepPart) : (s.modPep p f).regions = s.regions := rfl
@[simp] theorem State.modPep_idleUntil (p : Nat) (f : PepPart → PepPart) : (s.modPep p f).idleUntil = s.idleUntil := rfl
@[simp] theorem State.modPep_evq (p : Nat) (f : PepPart → PepPart) : (s.modPep p f).evq = s.evq := rfl
@[simp] theorem State.modPep_evLost (p : Nat) (f : PepPart → PepPart) : (s.modPep p f).evLost = s.evLost := rfl
@[simp] theorem State.modPep_log (p : Nat) (f : PepPart → PepPart) : (s.modPep p f).log = s.log := rfl
@[simp] theorem State.modPep_logNext (p : Nat) (f : PepPart → PepPart) : (s.modPep p f).logNext = s.logNext := rfl
@[simp] theorem State.modPep_out (p : Nat) (f : PepPart → PepPart) : (s.modPep p f).out = s.out := rfl
@[simp] theorem State.modPep_tolvys (p : Nat) (f : PepPart → PepPart) : (s.modPep p f).tolvys = s.tolvys := rfl
@[simp] theorem State.modPep_stale (p : Nat) (f : PepPart → PepPart) : (s.modPep p f).stale = s.stale := rfl
@[simp] theorem State.modPep_windows (p : Nat) (f : PepPart → PepPart) : (s.modPep p f).windows = s.windows := rfl
@[simp] theorem State.modPep_wfOn (p : Nat) (f : PepPart → PepPart) : (s.modPep p f).wfOn = s.wfOn := rfl
@[simp] theorem State.modPep_rowSlots (p : Nat) (f : PepPart → PepPart) : (s.modPep p f).rowSlots = s.rowSlots := rfl
@[simp] theorem State.modPep_bulk (p : Nat) (f : PepPart → PepPart) : (s.modPep p f).bulk = s.bulk := rfl
@[simp] theorem State.modPep_repairs (p : Nat) (f : PepPart → PepPart) : (s.modPep p f).repairs = s.repairs := rfl
@[simp] theorem State.modPep_igs (p : Nat) (f : PepPart → PepPart) : (s.modPep p f).igs = s.igs := rfl
@[simp] theorem State.modPep_csSets (p : Nat) (f : PepPart → PepPart) : (s.modPep p f).csSets = s.csSets := rfl
@[simp] theorem State.modPep_screens (p : Nat) (f : PepPart → PepPart) : (s.modPep p f).screens = s.screens := rfl
@[simp] theorem State.modPep_mace (p : Nat) (f : PepPart → PepPart) : (s.modPep p f).mace = s.mace := rfl
@[simp] theorem State.modPep_digests (p : Nat) (f : PepPart → PepPart) : (s.modPep p f).digests = s.digests := rfl
@[simp] theorem State.modPep_mboxes (p : Nat) (f : PepPart → PepPart) : (s.modPep p f).mboxes = s.mboxes := rfl
@[simp] theorem State.modPep_retired (p : Nat) (f : PepPart → PepPart) : (s.modPep p f).retired = s.retired := rfl
@[simp] theorem State.modPep_suspect (p : Nat) (f : PepPart → PepPart) : (s.modPep p f).suspect = s.suspect := rfl
@[simp] theorem State.modPep_tiles (p : Nat) (f : PepPart → PepPart) : (s.modPep p f).tiles = s.tiles := rfl
@[simp] theorem State.modPep_arrFmt (p : Nat) (f : PepPart → PepPart) : (s.modPep p f).arrFmt = s.arrFmt := rfl
@[simp] theorem State.modPep_tileTag (p : Nat) (f : PepPart → PepPart) : (s.modPep p f).tileTag = s.tileTag := rfl
@[simp] theorem State.modPep_engFail (p : Nat) (f : PepPart → PepPart) : (s.modPep p f).engFail = s.engFail := rfl
@[simp] theorem State.modPep_clove (p : Nat) (f : PepPart → PepPart) : (s.modPep p f).clove = s.clove := rfl
@[simp] theorem State.modPep_chainCur (p : Nat) (f : PepPart → PepPart) : (s.modPep p f).chainCur = s.chainCur := rfl
@[simp] theorem State.modPep_profCur (p : Nat) (f : PepPart → PepPart) : (s.modPep p f).profCur = s.profCur := rfl
@[simp] theorem State.modPep_qslots (p : Nat) (f : PepPart → PepPart) : (s.modPep p f).qslots = s.qslots := rfl
@[simp] theorem State.modPep_attCfg (p : Nat) (f : PepPart → PepPart) : (s.modPep p f).attCfg = s.attCfg := rfl
@[simp] theorem State.modPep_attSeq (p : Nat) (f : PepPart → PepPart) : (s.modPep p f).attSeq = s.attSeq := rfl
@[simp] theorem State.modPep_xslots (p : Nat) (f : PepPart → PepPart) : (s.modPep p f).xslots = s.xslots := rfl
@[simp] theorem State.modPep_links (p : Nat) (f : PepPart → PepPart) : (s.modPep p f).links = s.links := rfl
@[simp] theorem State.modPep_ports (p : Nat) (f : PepPart → PepPart) : (s.modPep p f).ports = s.ports := rfl
@[simp] theorem State.modPep_nodeReqs (p : Nat) (f : PepPart → PepPart) : (s.modPep p f).nodeReqs = s.nodeReqs := rfl
@[simp] theorem State.modPep_nodeTag (p : Nat) (f : PepPart → PepPart) : (s.modPep p f).nodeTag = s.nodeTag := rfl
@[simp] theorem State.modPep_fabric (p : Nat) (f : PepPart → PepPart) : (s.modPep p f).fabric = s.fabric := rfl
@[simp] theorem State.modPep_reqs (p : Nat) (f : PepPart → PepPart) : (s.modPep p f).reqs = s.reqs := rfl
@[simp] theorem State.modPep_submitted (p : Nat) (f : PepPart → PepPart) : (s.modPep p f).submitted = s.submitted := rfl
@[simp] theorem State.modPep_commands (p : Nat) (f : PepPart → PepPart) : (s.modPep p f).commands = s.commands := rfl
@[simp] theorem State.modPep_svs (p : Nat) (f : PepPart → PepPart) : (s.modPep p f).svs = s.svs := rfl
@[simp] theorem State.modPep_pepCur (p : Nat) (f : PepPart → PepPart) : (s.modPep p f).pepCur = s.pepCur := rfl
@[simp] theorem State.modPep_pageSeen (p : Nat) (f : PepPart → PepPart) : (s.modPep p f).pageSeen = s.pageSeen := rfl
@[simp] theorem State.modPep_seqBad (p : Nat) (f : PepPart → PepPart) : (s.modPep p f).seqBad = s.seqBad := rfl
@[simp] theorem State.modPep_done (p : Nat) (f : PepPart → PepPart) : (s.modPep p f).done = s.done := rfl
@[simp] theorem State.modPep_rdata (p : Nat) (f : PepPart → PepPart) : (s.modPep p f).rdata = s.rdata := rfl
@[simp] theorem State.modPep_free (p : Nat) (f : PepPart → PepPart) : (s.modPep p f).free = s.free := rfl
@[simp] theorem State.modPep_pending (p : Nat) (f : PepPart → PepPart) : (s.modPep p f).pending = s.pending := rfl

/-! ### modPort -/

@[simp] theorem State.modPort_clk (i : Nat) (f : Port → Port) : (s.modPort i f).clk = s.clk := rfl
@[simp] theorem State.modPort_regs (i : Nat) (f : Port → Port) : (s.modPort i f).regs = s.regs := rfl
@[simp] theorem State.modPort_staged (i : Nat) (f : Port → Port) : (s.modPort i f).staged = s.staged := rfl
@[simp] theorem State.modPort_mem (i : Nat) (f : Port → Port) : (s.modPort i f).mem = s.mem := rfl
@[simp] theorem State.modPort_timers (i : Nat) (f : Port → Port) : (s.modPort i f).timers = s.timers := rfl
@[simp] theorem State.modPort_ident (i : Nat) (f : Port → Port) : (s.modPort i f).ident = s.ident := rfl
@[simp] theorem State.modPort_boot (i : Nat) (f : Port → Port) : (s.modPort i f).boot = s.boot := rfl
@[simp] theorem State.modPort_power (i : Nat) (f : Port → Port) : (s.modPort i f).power = s.power := rfl
@[simp] theorem State.modPort_time (i : Nat) (f : Port → Port) : (s.modPort i f).time = s.time := rfl
@[simp] theorem State.modPort_slots (i : Nat) (f : Port → Port) : (s.modPort i f).slots = s.slots := rfl
@[simp] theorem State.modPort_schedLo (i : Nat) (f : Port → Port) : (s.modPort i f).schedLo = s.schedLo := rfl
@[simp] theorem State.modPort_schedHi (i : Nat) (f : Port → Port) : (s.modPort i f).schedHi = s.schedHi := rfl
@[simp] theorem State.modPort_ctrs (i : Nat) (f : Port → Port) : (s.modPort i f).ctrs = s.ctrs := rfl
@[simp] theorem State.modPort_parts (i : Nat) (f : Port → Port) : (s.modPort i f).parts = s.parts := rfl
@[simp] theorem State.modPort_doms (i : Nat) (f : Port → Port) : (s.modPort i f).doms = s.doms := rfl
@[simp] theorem State.modPort_seqs (i : Nat) (f : Port → Port) : (s.modPort i f).seqs = s.seqs := rfl
@[simp] theorem State.modPort_regions (i : Nat) (f : Port → Port) : (s.modPort i f).regions = s.regions := rfl
@[simp] theorem State.modPort_idleUntil (i : Nat) (f : Port → Port) : (s.modPort i f).idleUntil = s.idleUntil := rfl
@[simp] theorem State.modPort_evq (i : Nat) (f : Port → Port) : (s.modPort i f).evq = s.evq := rfl
@[simp] theorem State.modPort_evLost (i : Nat) (f : Port → Port) : (s.modPort i f).evLost = s.evLost := rfl
@[simp] theorem State.modPort_log (i : Nat) (f : Port → Port) : (s.modPort i f).log = s.log := rfl
@[simp] theorem State.modPort_logNext (i : Nat) (f : Port → Port) : (s.modPort i f).logNext = s.logNext := rfl
@[simp] theorem State.modPort_out (i : Nat) (f : Port → Port) : (s.modPort i f).out = s.out := rfl
@[simp] theorem State.modPort_tolvys (i : Nat) (f : Port → Port) : (s.modPort i f).tolvys = s.tolvys := rfl
@[simp] theorem State.modPort_stale (i : Nat) (f : Port → Port) : (s.modPort i f).stale = s.stale := rfl
@[simp] theorem State.modPort_windows (i : Nat) (f : Port → Port) : (s.modPort i f).windows = s.windows := rfl
@[simp] theorem State.modPort_wfOn (i : Nat) (f : Port → Port) : (s.modPort i f).wfOn = s.wfOn := rfl
@[simp] theorem State.modPort_rowSlots (i : Nat) (f : Port → Port) : (s.modPort i f).rowSlots = s.rowSlots := rfl
@[simp] theorem State.modPort_bulk (i : Nat) (f : Port → Port) : (s.modPort i f).bulk = s.bulk := rfl
@[simp] theorem State.modPort_repairs (i : Nat) (f : Port → Port) : (s.modPort i f).repairs = s.repairs := rfl
@[simp] theorem State.modPort_igs (i : Nat) (f : Port → Port) : (s.modPort i f).igs = s.igs := rfl
@[simp] theorem State.modPort_csSets (i : Nat) (f : Port → Port) : (s.modPort i f).csSets = s.csSets := rfl
@[simp] theorem State.modPort_screens (i : Nat) (f : Port → Port) : (s.modPort i f).screens = s.screens := rfl
@[simp] theorem State.modPort_mace (i : Nat) (f : Port → Port) : (s.modPort i f).mace = s.mace := rfl
@[simp] theorem State.modPort_digests (i : Nat) (f : Port → Port) : (s.modPort i f).digests = s.digests := rfl
@[simp] theorem State.modPort_mboxes (i : Nat) (f : Port → Port) : (s.modPort i f).mboxes = s.mboxes := rfl
@[simp] theorem State.modPort_retired (i : Nat) (f : Port → Port) : (s.modPort i f).retired = s.retired := rfl
@[simp] theorem State.modPort_suspect (i : Nat) (f : Port → Port) : (s.modPort i f).suspect = s.suspect := rfl
@[simp] theorem State.modPort_tiles (i : Nat) (f : Port → Port) : (s.modPort i f).tiles = s.tiles := rfl
@[simp] theorem State.modPort_arrFmt (i : Nat) (f : Port → Port) : (s.modPort i f).arrFmt = s.arrFmt := rfl
@[simp] theorem State.modPort_tileTag (i : Nat) (f : Port → Port) : (s.modPort i f).tileTag = s.tileTag := rfl
@[simp] theorem State.modPort_engFail (i : Nat) (f : Port → Port) : (s.modPort i f).engFail = s.engFail := rfl
@[simp] theorem State.modPort_clove (i : Nat) (f : Port → Port) : (s.modPort i f).clove = s.clove := rfl
@[simp] theorem State.modPort_chainCur (i : Nat) (f : Port → Port) : (s.modPort i f).chainCur = s.chainCur := rfl
@[simp] theorem State.modPort_profCur (i : Nat) (f : Port → Port) : (s.modPort i f).profCur = s.profCur := rfl
@[simp] theorem State.modPort_qslots (i : Nat) (f : Port → Port) : (s.modPort i f).qslots = s.qslots := rfl
@[simp] theorem State.modPort_attCfg (i : Nat) (f : Port → Port) : (s.modPort i f).attCfg = s.attCfg := rfl
@[simp] theorem State.modPort_attSeq (i : Nat) (f : Port → Port) : (s.modPort i f).attSeq = s.attSeq := rfl
@[simp] theorem State.modPort_xslots (i : Nat) (f : Port → Port) : (s.modPort i f).xslots = s.xslots := rfl
@[simp] theorem State.modPort_links (i : Nat) (f : Port → Port) : (s.modPort i f).links = s.links := rfl
@[simp] theorem State.modPort_nodeReqs (i : Nat) (f : Port → Port) : (s.modPort i f).nodeReqs = s.nodeReqs := rfl
@[simp] theorem State.modPort_nodeTag (i : Nat) (f : Port → Port) : (s.modPort i f).nodeTag = s.nodeTag := rfl
@[simp] theorem State.modPort_fabric (i : Nat) (f : Port → Port) : (s.modPort i f).fabric = s.fabric := rfl
@[simp] theorem State.modPort_reqs (i : Nat) (f : Port → Port) : (s.modPort i f).reqs = s.reqs := rfl
@[simp] theorem State.modPort_submitted (i : Nat) (f : Port → Port) : (s.modPort i f).submitted = s.submitted := rfl
@[simp] theorem State.modPort_commands (i : Nat) (f : Port → Port) : (s.modPort i f).commands = s.commands := rfl
@[simp] theorem State.modPort_svs (i : Nat) (f : Port → Port) : (s.modPort i f).svs = s.svs := rfl
@[simp] theorem State.modPort_peps (i : Nat) (f : Port → Port) : (s.modPort i f).peps = s.peps := rfl
@[simp] theorem State.modPort_pepCur (i : Nat) (f : Port → Port) : (s.modPort i f).pepCur = s.pepCur := rfl
@[simp] theorem State.modPort_pageSeen (i : Nat) (f : Port → Port) : (s.modPort i f).pageSeen = s.pageSeen := rfl
@[simp] theorem State.modPort_seqBad (i : Nat) (f : Port → Port) : (s.modPort i f).seqBad = s.seqBad := rfl
@[simp] theorem State.modPort_done (i : Nat) (f : Port → Port) : (s.modPort i f).done = s.done := rfl
@[simp] theorem State.modPort_rdata (i : Nat) (f : Port → Port) : (s.modPort i f).rdata = s.rdata := rfl
@[simp] theorem State.modPort_free (i : Nat) (f : Port → Port) : (s.modPort i f).free = s.free := rfl
@[simp] theorem State.modPort_pending (i : Nat) (f : Port → Port) : (s.modPort i f).pending = s.pending := rfl

/-! ### modRowSlot -/

@[simp] theorem State.modRowSlot_clk (d q : Nat) (f : RowSlot → RowSlot) : (s.modRowSlot d q f).clk = s.clk := rfl
@[simp] theorem State.modRowSlot_regs (d q : Nat) (f : RowSlot → RowSlot) : (s.modRowSlot d q f).regs = s.regs := rfl
@[simp] theorem State.modRowSlot_staged (d q : Nat) (f : RowSlot → RowSlot) : (s.modRowSlot d q f).staged = s.staged := rfl
@[simp] theorem State.modRowSlot_mem (d q : Nat) (f : RowSlot → RowSlot) : (s.modRowSlot d q f).mem = s.mem := rfl
@[simp] theorem State.modRowSlot_timers (d q : Nat) (f : RowSlot → RowSlot) : (s.modRowSlot d q f).timers = s.timers := rfl
@[simp] theorem State.modRowSlot_ident (d q : Nat) (f : RowSlot → RowSlot) : (s.modRowSlot d q f).ident = s.ident := rfl
@[simp] theorem State.modRowSlot_boot (d q : Nat) (f : RowSlot → RowSlot) : (s.modRowSlot d q f).boot = s.boot := rfl
@[simp] theorem State.modRowSlot_power (d q : Nat) (f : RowSlot → RowSlot) : (s.modRowSlot d q f).power = s.power := rfl
@[simp] theorem State.modRowSlot_time (d q : Nat) (f : RowSlot → RowSlot) : (s.modRowSlot d q f).time = s.time := rfl
@[simp] theorem State.modRowSlot_slots (d q : Nat) (f : RowSlot → RowSlot) : (s.modRowSlot d q f).slots = s.slots := rfl
@[simp] theorem State.modRowSlot_schedLo (d q : Nat) (f : RowSlot → RowSlot) : (s.modRowSlot d q f).schedLo = s.schedLo := rfl
@[simp] theorem State.modRowSlot_schedHi (d q : Nat) (f : RowSlot → RowSlot) : (s.modRowSlot d q f).schedHi = s.schedHi := rfl
@[simp] theorem State.modRowSlot_ctrs (d q : Nat) (f : RowSlot → RowSlot) : (s.modRowSlot d q f).ctrs = s.ctrs := rfl
@[simp] theorem State.modRowSlot_parts (d q : Nat) (f : RowSlot → RowSlot) : (s.modRowSlot d q f).parts = s.parts := rfl
@[simp] theorem State.modRowSlot_doms (d q : Nat) (f : RowSlot → RowSlot) : (s.modRowSlot d q f).doms = s.doms := rfl
@[simp] theorem State.modRowSlot_seqs (d q : Nat) (f : RowSlot → RowSlot) : (s.modRowSlot d q f).seqs = s.seqs := rfl
@[simp] theorem State.modRowSlot_regions (d q : Nat) (f : RowSlot → RowSlot) : (s.modRowSlot d q f).regions = s.regions := rfl
@[simp] theorem State.modRowSlot_idleUntil (d q : Nat) (f : RowSlot → RowSlot) : (s.modRowSlot d q f).idleUntil = s.idleUntil := rfl
@[simp] theorem State.modRowSlot_evq (d q : Nat) (f : RowSlot → RowSlot) : (s.modRowSlot d q f).evq = s.evq := rfl
@[simp] theorem State.modRowSlot_evLost (d q : Nat) (f : RowSlot → RowSlot) : (s.modRowSlot d q f).evLost = s.evLost := rfl
@[simp] theorem State.modRowSlot_log (d q : Nat) (f : RowSlot → RowSlot) : (s.modRowSlot d q f).log = s.log := rfl
@[simp] theorem State.modRowSlot_logNext (d q : Nat) (f : RowSlot → RowSlot) : (s.modRowSlot d q f).logNext = s.logNext := rfl
@[simp] theorem State.modRowSlot_out (d q : Nat) (f : RowSlot → RowSlot) : (s.modRowSlot d q f).out = s.out := rfl
@[simp] theorem State.modRowSlot_tolvys (d q : Nat) (f : RowSlot → RowSlot) : (s.modRowSlot d q f).tolvys = s.tolvys := rfl
@[simp] theorem State.modRowSlot_stale (d q : Nat) (f : RowSlot → RowSlot) : (s.modRowSlot d q f).stale = s.stale := rfl
@[simp] theorem State.modRowSlot_windows (d q : Nat) (f : RowSlot → RowSlot) : (s.modRowSlot d q f).windows = s.windows := rfl
@[simp] theorem State.modRowSlot_wfOn (d q : Nat) (f : RowSlot → RowSlot) : (s.modRowSlot d q f).wfOn = s.wfOn := rfl
@[simp] theorem State.modRowSlot_bulk (d q : Nat) (f : RowSlot → RowSlot) : (s.modRowSlot d q f).bulk = s.bulk := rfl
@[simp] theorem State.modRowSlot_repairs (d q : Nat) (f : RowSlot → RowSlot) : (s.modRowSlot d q f).repairs = s.repairs := rfl
@[simp] theorem State.modRowSlot_igs (d q : Nat) (f : RowSlot → RowSlot) : (s.modRowSlot d q f).igs = s.igs := rfl
@[simp] theorem State.modRowSlot_csSets (d q : Nat) (f : RowSlot → RowSlot) : (s.modRowSlot d q f).csSets = s.csSets := rfl
@[simp] theorem State.modRowSlot_screens (d q : Nat) (f : RowSlot → RowSlot) : (s.modRowSlot d q f).screens = s.screens := rfl
@[simp] theorem State.modRowSlot_mace (d q : Nat) (f : RowSlot → RowSlot) : (s.modRowSlot d q f).mace = s.mace := rfl
@[simp] theorem State.modRowSlot_digests (d q : Nat) (f : RowSlot → RowSlot) : (s.modRowSlot d q f).digests = s.digests := rfl
@[simp] theorem State.modRowSlot_mboxes (d q : Nat) (f : RowSlot → RowSlot) : (s.modRowSlot d q f).mboxes = s.mboxes := rfl
@[simp] theorem State.modRowSlot_retired (d q : Nat) (f : RowSlot → RowSlot) : (s.modRowSlot d q f).retired = s.retired := rfl
@[simp] theorem State.modRowSlot_suspect (d q : Nat) (f : RowSlot → RowSlot) : (s.modRowSlot d q f).suspect = s.suspect := rfl
@[simp] theorem State.modRowSlot_tiles (d q : Nat) (f : RowSlot → RowSlot) : (s.modRowSlot d q f).tiles = s.tiles := rfl
@[simp] theorem State.modRowSlot_arrFmt (d q : Nat) (f : RowSlot → RowSlot) : (s.modRowSlot d q f).arrFmt = s.arrFmt := rfl
@[simp] theorem State.modRowSlot_tileTag (d q : Nat) (f : RowSlot → RowSlot) : (s.modRowSlot d q f).tileTag = s.tileTag := rfl
@[simp] theorem State.modRowSlot_engFail (d q : Nat) (f : RowSlot → RowSlot) : (s.modRowSlot d q f).engFail = s.engFail := rfl
@[simp] theorem State.modRowSlot_clove (d q : Nat) (f : RowSlot → RowSlot) : (s.modRowSlot d q f).clove = s.clove := rfl
@[simp] theorem State.modRowSlot_chainCur (d q : Nat) (f : RowSlot → RowSlot) : (s.modRowSlot d q f).chainCur = s.chainCur := rfl
@[simp] theorem State.modRowSlot_profCur (d q : Nat) (f : RowSlot → RowSlot) : (s.modRowSlot d q f).profCur = s.profCur := rfl
@[simp] theorem State.modRowSlot_qslots (d q : Nat) (f : RowSlot → RowSlot) : (s.modRowSlot d q f).qslots = s.qslots := rfl
@[simp] theorem State.modRowSlot_attCfg (d q : Nat) (f : RowSlot → RowSlot) : (s.modRowSlot d q f).attCfg = s.attCfg := rfl
@[simp] theorem State.modRowSlot_attSeq (d q : Nat) (f : RowSlot → RowSlot) : (s.modRowSlot d q f).attSeq = s.attSeq := rfl
@[simp] theorem State.modRowSlot_xslots (d q : Nat) (f : RowSlot → RowSlot) : (s.modRowSlot d q f).xslots = s.xslots := rfl
@[simp] theorem State.modRowSlot_links (d q : Nat) (f : RowSlot → RowSlot) : (s.modRowSlot d q f).links = s.links := rfl
@[simp] theorem State.modRowSlot_ports (d q : Nat) (f : RowSlot → RowSlot) : (s.modRowSlot d q f).ports = s.ports := rfl
@[simp] theorem State.modRowSlot_nodeReqs (d q : Nat) (f : RowSlot → RowSlot) : (s.modRowSlot d q f).nodeReqs = s.nodeReqs := rfl
@[simp] theorem State.modRowSlot_nodeTag (d q : Nat) (f : RowSlot → RowSlot) : (s.modRowSlot d q f).nodeTag = s.nodeTag := rfl
@[simp] theorem State.modRowSlot_fabric (d q : Nat) (f : RowSlot → RowSlot) : (s.modRowSlot d q f).fabric = s.fabric := rfl
@[simp] theorem State.modRowSlot_reqs (d q : Nat) (f : RowSlot → RowSlot) : (s.modRowSlot d q f).reqs = s.reqs := rfl
@[simp] theorem State.modRowSlot_submitted (d q : Nat) (f : RowSlot → RowSlot) : (s.modRowSlot d q f).submitted = s.submitted := rfl
@[simp] theorem State.modRowSlot_commands (d q : Nat) (f : RowSlot → RowSlot) : (s.modRowSlot d q f).commands = s.commands := rfl
@[simp] theorem State.modRowSlot_svs (d q : Nat) (f : RowSlot → RowSlot) : (s.modRowSlot d q f).svs = s.svs := rfl
@[simp] theorem State.modRowSlot_peps (d q : Nat) (f : RowSlot → RowSlot) : (s.modRowSlot d q f).peps = s.peps := rfl
@[simp] theorem State.modRowSlot_pepCur (d q : Nat) (f : RowSlot → RowSlot) : (s.modRowSlot d q f).pepCur = s.pepCur := rfl
@[simp] theorem State.modRowSlot_pageSeen (d q : Nat) (f : RowSlot → RowSlot) : (s.modRowSlot d q f).pageSeen = s.pageSeen := rfl
@[simp] theorem State.modRowSlot_seqBad (d q : Nat) (f : RowSlot → RowSlot) : (s.modRowSlot d q f).seqBad = s.seqBad := rfl
@[simp] theorem State.modRowSlot_done (d q : Nat) (f : RowSlot → RowSlot) : (s.modRowSlot d q f).done = s.done := rfl
@[simp] theorem State.modRowSlot_rdata (d q : Nat) (f : RowSlot → RowSlot) : (s.modRowSlot d q f).rdata = s.rdata := rfl
@[simp] theorem State.modRowSlot_free (d q : Nat) (f : RowSlot → RowSlot) : (s.modRowSlot d q f).free = s.free := rfl
@[simp] theorem State.modRowSlot_pending (d q : Nat) (f : RowSlot → RowSlot) : (s.modRowSlot d q f).pending = s.pending := rfl

/-! ### modReq -/

@[simp] theorem State.modReq_clk (r : Nat) (f : ReqEntry → ReqEntry) : (s.modReq r f).clk = s.clk := rfl
@[simp] theorem State.modReq_regs (r : Nat) (f : ReqEntry → ReqEntry) : (s.modReq r f).regs = s.regs := rfl
@[simp] theorem State.modReq_staged (r : Nat) (f : ReqEntry → ReqEntry) : (s.modReq r f).staged = s.staged := rfl
@[simp] theorem State.modReq_mem (r : Nat) (f : ReqEntry → ReqEntry) : (s.modReq r f).mem = s.mem := rfl
@[simp] theorem State.modReq_timers (r : Nat) (f : ReqEntry → ReqEntry) : (s.modReq r f).timers = s.timers := rfl
@[simp] theorem State.modReq_ident (r : Nat) (f : ReqEntry → ReqEntry) : (s.modReq r f).ident = s.ident := rfl
@[simp] theorem State.modReq_boot (r : Nat) (f : ReqEntry → ReqEntry) : (s.modReq r f).boot = s.boot := rfl
@[simp] theorem State.modReq_power (r : Nat) (f : ReqEntry → ReqEntry) : (s.modReq r f).power = s.power := rfl
@[simp] theorem State.modReq_time (r : Nat) (f : ReqEntry → ReqEntry) : (s.modReq r f).time = s.time := rfl
@[simp] theorem State.modReq_slots (r : Nat) (f : ReqEntry → ReqEntry) : (s.modReq r f).slots = s.slots := rfl
@[simp] theorem State.modReq_schedLo (r : Nat) (f : ReqEntry → ReqEntry) : (s.modReq r f).schedLo = s.schedLo := rfl
@[simp] theorem State.modReq_schedHi (r : Nat) (f : ReqEntry → ReqEntry) : (s.modReq r f).schedHi = s.schedHi := rfl
@[simp] theorem State.modReq_ctrs (r : Nat) (f : ReqEntry → ReqEntry) : (s.modReq r f).ctrs = s.ctrs := rfl
@[simp] theorem State.modReq_parts (r : Nat) (f : ReqEntry → ReqEntry) : (s.modReq r f).parts = s.parts := rfl
@[simp] theorem State.modReq_doms (r : Nat) (f : ReqEntry → ReqEntry) : (s.modReq r f).doms = s.doms := rfl
@[simp] theorem State.modReq_seqs (r : Nat) (f : ReqEntry → ReqEntry) : (s.modReq r f).seqs = s.seqs := rfl
@[simp] theorem State.modReq_regions (r : Nat) (f : ReqEntry → ReqEntry) : (s.modReq r f).regions = s.regions := rfl
@[simp] theorem State.modReq_idleUntil (r : Nat) (f : ReqEntry → ReqEntry) : (s.modReq r f).idleUntil = s.idleUntil := rfl
@[simp] theorem State.modReq_evq (r : Nat) (f : ReqEntry → ReqEntry) : (s.modReq r f).evq = s.evq := rfl
@[simp] theorem State.modReq_evLost (r : Nat) (f : ReqEntry → ReqEntry) : (s.modReq r f).evLost = s.evLost := rfl
@[simp] theorem State.modReq_log (r : Nat) (f : ReqEntry → ReqEntry) : (s.modReq r f).log = s.log := rfl
@[simp] theorem State.modReq_logNext (r : Nat) (f : ReqEntry → ReqEntry) : (s.modReq r f).logNext = s.logNext := rfl
@[simp] theorem State.modReq_out (r : Nat) (f : ReqEntry → ReqEntry) : (s.modReq r f).out = s.out := rfl
@[simp] theorem State.modReq_tolvys (r : Nat) (f : ReqEntry → ReqEntry) : (s.modReq r f).tolvys = s.tolvys := rfl
@[simp] theorem State.modReq_stale (r : Nat) (f : ReqEntry → ReqEntry) : (s.modReq r f).stale = s.stale := rfl
@[simp] theorem State.modReq_windows (r : Nat) (f : ReqEntry → ReqEntry) : (s.modReq r f).windows = s.windows := rfl
@[simp] theorem State.modReq_wfOn (r : Nat) (f : ReqEntry → ReqEntry) : (s.modReq r f).wfOn = s.wfOn := rfl
@[simp] theorem State.modReq_rowSlots (r : Nat) (f : ReqEntry → ReqEntry) : (s.modReq r f).rowSlots = s.rowSlots := rfl
@[simp] theorem State.modReq_bulk (r : Nat) (f : ReqEntry → ReqEntry) : (s.modReq r f).bulk = s.bulk := rfl
@[simp] theorem State.modReq_repairs (r : Nat) (f : ReqEntry → ReqEntry) : (s.modReq r f).repairs = s.repairs := rfl
@[simp] theorem State.modReq_igs (r : Nat) (f : ReqEntry → ReqEntry) : (s.modReq r f).igs = s.igs := rfl
@[simp] theorem State.modReq_csSets (r : Nat) (f : ReqEntry → ReqEntry) : (s.modReq r f).csSets = s.csSets := rfl
@[simp] theorem State.modReq_screens (r : Nat) (f : ReqEntry → ReqEntry) : (s.modReq r f).screens = s.screens := rfl
@[simp] theorem State.modReq_mace (r : Nat) (f : ReqEntry → ReqEntry) : (s.modReq r f).mace = s.mace := rfl
@[simp] theorem State.modReq_digests (r : Nat) (f : ReqEntry → ReqEntry) : (s.modReq r f).digests = s.digests := rfl
@[simp] theorem State.modReq_mboxes (r : Nat) (f : ReqEntry → ReqEntry) : (s.modReq r f).mboxes = s.mboxes := rfl
@[simp] theorem State.modReq_retired (r : Nat) (f : ReqEntry → ReqEntry) : (s.modReq r f).retired = s.retired := rfl
@[simp] theorem State.modReq_suspect (r : Nat) (f : ReqEntry → ReqEntry) : (s.modReq r f).suspect = s.suspect := rfl
@[simp] theorem State.modReq_tiles (r : Nat) (f : ReqEntry → ReqEntry) : (s.modReq r f).tiles = s.tiles := rfl
@[simp] theorem State.modReq_arrFmt (r : Nat) (f : ReqEntry → ReqEntry) : (s.modReq r f).arrFmt = s.arrFmt := rfl
@[simp] theorem State.modReq_tileTag (r : Nat) (f : ReqEntry → ReqEntry) : (s.modReq r f).tileTag = s.tileTag := rfl
@[simp] theorem State.modReq_engFail (r : Nat) (f : ReqEntry → ReqEntry) : (s.modReq r f).engFail = s.engFail := rfl
@[simp] theorem State.modReq_clove (r : Nat) (f : ReqEntry → ReqEntry) : (s.modReq r f).clove = s.clove := rfl
@[simp] theorem State.modReq_chainCur (r : Nat) (f : ReqEntry → ReqEntry) : (s.modReq r f).chainCur = s.chainCur := rfl
@[simp] theorem State.modReq_profCur (r : Nat) (f : ReqEntry → ReqEntry) : (s.modReq r f).profCur = s.profCur := rfl
@[simp] theorem State.modReq_qslots (r : Nat) (f : ReqEntry → ReqEntry) : (s.modReq r f).qslots = s.qslots := rfl
@[simp] theorem State.modReq_attCfg (r : Nat) (f : ReqEntry → ReqEntry) : (s.modReq r f).attCfg = s.attCfg := rfl
@[simp] theorem State.modReq_attSeq (r : Nat) (f : ReqEntry → ReqEntry) : (s.modReq r f).attSeq = s.attSeq := rfl
@[simp] theorem State.modReq_xslots (r : Nat) (f : ReqEntry → ReqEntry) : (s.modReq r f).xslots = s.xslots := rfl
@[simp] theorem State.modReq_links (r : Nat) (f : ReqEntry → ReqEntry) : (s.modReq r f).links = s.links := rfl
@[simp] theorem State.modReq_ports (r : Nat) (f : ReqEntry → ReqEntry) : (s.modReq r f).ports = s.ports := rfl
@[simp] theorem State.modReq_nodeReqs (r : Nat) (f : ReqEntry → ReqEntry) : (s.modReq r f).nodeReqs = s.nodeReqs := rfl
@[simp] theorem State.modReq_nodeTag (r : Nat) (f : ReqEntry → ReqEntry) : (s.modReq r f).nodeTag = s.nodeTag := rfl
@[simp] theorem State.modReq_fabric (r : Nat) (f : ReqEntry → ReqEntry) : (s.modReq r f).fabric = s.fabric := rfl
@[simp] theorem State.modReq_submitted (r : Nat) (f : ReqEntry → ReqEntry) : (s.modReq r f).submitted = s.submitted := rfl
@[simp] theorem State.modReq_commands (r : Nat) (f : ReqEntry → ReqEntry) : (s.modReq r f).commands = s.commands := rfl
@[simp] theorem State.modReq_svs (r : Nat) (f : ReqEntry → ReqEntry) : (s.modReq r f).svs = s.svs := rfl
@[simp] theorem State.modReq_peps (r : Nat) (f : ReqEntry → ReqEntry) : (s.modReq r f).peps = s.peps := rfl
@[simp] theorem State.modReq_pepCur (r : Nat) (f : ReqEntry → ReqEntry) : (s.modReq r f).pepCur = s.pepCur := rfl
@[simp] theorem State.modReq_pageSeen (r : Nat) (f : ReqEntry → ReqEntry) : (s.modReq r f).pageSeen = s.pageSeen := rfl
@[simp] theorem State.modReq_seqBad (r : Nat) (f : ReqEntry → ReqEntry) : (s.modReq r f).seqBad = s.seqBad := rfl
@[simp] theorem State.modReq_done (r : Nat) (f : ReqEntry → ReqEntry) : (s.modReq r f).done = s.done := rfl
@[simp] theorem State.modReq_rdata (r : Nat) (f : ReqEntry → ReqEntry) : (s.modReq r f).rdata = s.rdata := rfl
@[simp] theorem State.modReq_free (r : Nat) (f : ReqEntry → ReqEntry) : (s.modReq r f).free = s.free := rfl
@[simp] theorem State.modReq_pending (r : Nat) (f : ReqEntry → ReqEntry) : (s.modReq r f).pending = s.pending := rfl

/-! ### modSv -/

@[simp] theorem State.modSv_clk (p : Nat) (f : SvPart → SvPart) : (s.modSv p f).clk = s.clk := rfl
@[simp] theorem State.modSv_regs (p : Nat) (f : SvPart → SvPart) : (s.modSv p f).regs = s.regs := rfl
@[simp] theorem State.modSv_staged (p : Nat) (f : SvPart → SvPart) : (s.modSv p f).staged = s.staged := rfl
@[simp] theorem State.modSv_mem (p : Nat) (f : SvPart → SvPart) : (s.modSv p f).mem = s.mem := rfl
@[simp] theorem State.modSv_timers (p : Nat) (f : SvPart → SvPart) : (s.modSv p f).timers = s.timers := rfl
@[simp] theorem State.modSv_ident (p : Nat) (f : SvPart → SvPart) : (s.modSv p f).ident = s.ident := rfl
@[simp] theorem State.modSv_boot (p : Nat) (f : SvPart → SvPart) : (s.modSv p f).boot = s.boot := rfl
@[simp] theorem State.modSv_power (p : Nat) (f : SvPart → SvPart) : (s.modSv p f).power = s.power := rfl
@[simp] theorem State.modSv_time (p : Nat) (f : SvPart → SvPart) : (s.modSv p f).time = s.time := rfl
@[simp] theorem State.modSv_slots (p : Nat) (f : SvPart → SvPart) : (s.modSv p f).slots = s.slots := rfl
@[simp] theorem State.modSv_schedLo (p : Nat) (f : SvPart → SvPart) : (s.modSv p f).schedLo = s.schedLo := rfl
@[simp] theorem State.modSv_schedHi (p : Nat) (f : SvPart → SvPart) : (s.modSv p f).schedHi = s.schedHi := rfl
@[simp] theorem State.modSv_ctrs (p : Nat) (f : SvPart → SvPart) : (s.modSv p f).ctrs = s.ctrs := rfl
@[simp] theorem State.modSv_parts (p : Nat) (f : SvPart → SvPart) : (s.modSv p f).parts = s.parts := rfl
@[simp] theorem State.modSv_doms (p : Nat) (f : SvPart → SvPart) : (s.modSv p f).doms = s.doms := rfl
@[simp] theorem State.modSv_seqs (p : Nat) (f : SvPart → SvPart) : (s.modSv p f).seqs = s.seqs := rfl
@[simp] theorem State.modSv_regions (p : Nat) (f : SvPart → SvPart) : (s.modSv p f).regions = s.regions := rfl
@[simp] theorem State.modSv_idleUntil (p : Nat) (f : SvPart → SvPart) : (s.modSv p f).idleUntil = s.idleUntil := rfl
@[simp] theorem State.modSv_evq (p : Nat) (f : SvPart → SvPart) : (s.modSv p f).evq = s.evq := rfl
@[simp] theorem State.modSv_evLost (p : Nat) (f : SvPart → SvPart) : (s.modSv p f).evLost = s.evLost := rfl
@[simp] theorem State.modSv_log (p : Nat) (f : SvPart → SvPart) : (s.modSv p f).log = s.log := rfl
@[simp] theorem State.modSv_logNext (p : Nat) (f : SvPart → SvPart) : (s.modSv p f).logNext = s.logNext := rfl
@[simp] theorem State.modSv_out (p : Nat) (f : SvPart → SvPart) : (s.modSv p f).out = s.out := rfl
@[simp] theorem State.modSv_tolvys (p : Nat) (f : SvPart → SvPart) : (s.modSv p f).tolvys = s.tolvys := rfl
@[simp] theorem State.modSv_stale (p : Nat) (f : SvPart → SvPart) : (s.modSv p f).stale = s.stale := rfl
@[simp] theorem State.modSv_windows (p : Nat) (f : SvPart → SvPart) : (s.modSv p f).windows = s.windows := rfl
@[simp] theorem State.modSv_wfOn (p : Nat) (f : SvPart → SvPart) : (s.modSv p f).wfOn = s.wfOn := rfl
@[simp] theorem State.modSv_rowSlots (p : Nat) (f : SvPart → SvPart) : (s.modSv p f).rowSlots = s.rowSlots := rfl
@[simp] theorem State.modSv_bulk (p : Nat) (f : SvPart → SvPart) : (s.modSv p f).bulk = s.bulk := rfl
@[simp] theorem State.modSv_repairs (p : Nat) (f : SvPart → SvPart) : (s.modSv p f).repairs = s.repairs := rfl
@[simp] theorem State.modSv_igs (p : Nat) (f : SvPart → SvPart) : (s.modSv p f).igs = s.igs := rfl
@[simp] theorem State.modSv_csSets (p : Nat) (f : SvPart → SvPart) : (s.modSv p f).csSets = s.csSets := rfl
@[simp] theorem State.modSv_screens (p : Nat) (f : SvPart → SvPart) : (s.modSv p f).screens = s.screens := rfl
@[simp] theorem State.modSv_mace (p : Nat) (f : SvPart → SvPart) : (s.modSv p f).mace = s.mace := rfl
@[simp] theorem State.modSv_digests (p : Nat) (f : SvPart → SvPart) : (s.modSv p f).digests = s.digests := rfl
@[simp] theorem State.modSv_mboxes (p : Nat) (f : SvPart → SvPart) : (s.modSv p f).mboxes = s.mboxes := rfl
@[simp] theorem State.modSv_retired (p : Nat) (f : SvPart → SvPart) : (s.modSv p f).retired = s.retired := rfl
@[simp] theorem State.modSv_suspect (p : Nat) (f : SvPart → SvPart) : (s.modSv p f).suspect = s.suspect := rfl
@[simp] theorem State.modSv_tiles (p : Nat) (f : SvPart → SvPart) : (s.modSv p f).tiles = s.tiles := rfl
@[simp] theorem State.modSv_arrFmt (p : Nat) (f : SvPart → SvPart) : (s.modSv p f).arrFmt = s.arrFmt := rfl
@[simp] theorem State.modSv_tileTag (p : Nat) (f : SvPart → SvPart) : (s.modSv p f).tileTag = s.tileTag := rfl
@[simp] theorem State.modSv_engFail (p : Nat) (f : SvPart → SvPart) : (s.modSv p f).engFail = s.engFail := rfl
@[simp] theorem State.modSv_clove (p : Nat) (f : SvPart → SvPart) : (s.modSv p f).clove = s.clove := rfl
@[simp] theorem State.modSv_chainCur (p : Nat) (f : SvPart → SvPart) : (s.modSv p f).chainCur = s.chainCur := rfl
@[simp] theorem State.modSv_profCur (p : Nat) (f : SvPart → SvPart) : (s.modSv p f).profCur = s.profCur := rfl
@[simp] theorem State.modSv_qslots (p : Nat) (f : SvPart → SvPart) : (s.modSv p f).qslots = s.qslots := rfl
@[simp] theorem State.modSv_attCfg (p : Nat) (f : SvPart → SvPart) : (s.modSv p f).attCfg = s.attCfg := rfl
@[simp] theorem State.modSv_attSeq (p : Nat) (f : SvPart → SvPart) : (s.modSv p f).attSeq = s.attSeq := rfl
@[simp] theorem State.modSv_xslots (p : Nat) (f : SvPart → SvPart) : (s.modSv p f).xslots = s.xslots := rfl
@[simp] theorem State.modSv_links (p : Nat) (f : SvPart → SvPart) : (s.modSv p f).links = s.links := rfl
@[simp] theorem State.modSv_ports (p : Nat) (f : SvPart → SvPart) : (s.modSv p f).ports = s.ports := rfl
@[simp] theorem State.modSv_nodeReqs (p : Nat) (f : SvPart → SvPart) : (s.modSv p f).nodeReqs = s.nodeReqs := rfl
@[simp] theorem State.modSv_nodeTag (p : Nat) (f : SvPart → SvPart) : (s.modSv p f).nodeTag = s.nodeTag := rfl
@[simp] theorem State.modSv_fabric (p : Nat) (f : SvPart → SvPart) : (s.modSv p f).fabric = s.fabric := rfl
@[simp] theorem State.modSv_reqs (p : Nat) (f : SvPart → SvPart) : (s.modSv p f).reqs = s.reqs := rfl
@[simp] theorem State.modSv_submitted (p : Nat) (f : SvPart → SvPart) : (s.modSv p f).submitted = s.submitted := rfl
@[simp] theorem State.modSv_commands (p : Nat) (f : SvPart → SvPart) : (s.modSv p f).commands = s.commands := rfl
@[simp] theorem State.modSv_peps (p : Nat) (f : SvPart → SvPart) : (s.modSv p f).peps = s.peps := rfl
@[simp] theorem State.modSv_pepCur (p : Nat) (f : SvPart → SvPart) : (s.modSv p f).pepCur = s.pepCur := rfl
@[simp] theorem State.modSv_pageSeen (p : Nat) (f : SvPart → SvPart) : (s.modSv p f).pageSeen = s.pageSeen := rfl
@[simp] theorem State.modSv_seqBad (p : Nat) (f : SvPart → SvPart) : (s.modSv p f).seqBad = s.seqBad := rfl
@[simp] theorem State.modSv_done (p : Nat) (f : SvPart → SvPart) : (s.modSv p f).done = s.done := rfl
@[simp] theorem State.modSv_rdata (p : Nat) (f : SvPart → SvPart) : (s.modSv p f).rdata = s.rdata := rfl
@[simp] theorem State.modSv_free (p : Nat) (f : SvPart → SvPart) : (s.modSv p f).free = s.free := rfl
@[simp] theorem State.modSv_pending (p : Nat) (f : SvPart → SvPart) : (s.modSv p f).pending = s.pending := rfl

/-! ### modQslot -/

@[simp] theorem State.modQslot_clk (k i : Nat) (f : QSlot → QSlot) : (s.modQslot k i f).clk = s.clk := rfl
@[simp] theorem State.modQslot_regs (k i : Nat) (f : QSlot → QSlot) : (s.modQslot k i f).regs = s.regs := rfl
@[simp] theorem State.modQslot_staged (k i : Nat) (f : QSlot → QSlot) : (s.modQslot k i f).staged = s.staged := rfl
@[simp] theorem State.modQslot_mem (k i : Nat) (f : QSlot → QSlot) : (s.modQslot k i f).mem = s.mem := rfl
@[simp] theorem State.modQslot_timers (k i : Nat) (f : QSlot → QSlot) : (s.modQslot k i f).timers = s.timers := rfl
@[simp] theorem State.modQslot_ident (k i : Nat) (f : QSlot → QSlot) : (s.modQslot k i f).ident = s.ident := rfl
@[simp] theorem State.modQslot_boot (k i : Nat) (f : QSlot → QSlot) : (s.modQslot k i f).boot = s.boot := rfl
@[simp] theorem State.modQslot_power (k i : Nat) (f : QSlot → QSlot) : (s.modQslot k i f).power = s.power := rfl
@[simp] theorem State.modQslot_time (k i : Nat) (f : QSlot → QSlot) : (s.modQslot k i f).time = s.time := rfl
@[simp] theorem State.modQslot_slots (k i : Nat) (f : QSlot → QSlot) : (s.modQslot k i f).slots = s.slots := rfl
@[simp] theorem State.modQslot_schedLo (k i : Nat) (f : QSlot → QSlot) : (s.modQslot k i f).schedLo = s.schedLo := rfl
@[simp] theorem State.modQslot_schedHi (k i : Nat) (f : QSlot → QSlot) : (s.modQslot k i f).schedHi = s.schedHi := rfl
@[simp] theorem State.modQslot_ctrs (k i : Nat) (f : QSlot → QSlot) : (s.modQslot k i f).ctrs = s.ctrs := rfl
@[simp] theorem State.modQslot_parts (k i : Nat) (f : QSlot → QSlot) : (s.modQslot k i f).parts = s.parts := rfl
@[simp] theorem State.modQslot_doms (k i : Nat) (f : QSlot → QSlot) : (s.modQslot k i f).doms = s.doms := rfl
@[simp] theorem State.modQslot_seqs (k i : Nat) (f : QSlot → QSlot) : (s.modQslot k i f).seqs = s.seqs := rfl
@[simp] theorem State.modQslot_regions (k i : Nat) (f : QSlot → QSlot) : (s.modQslot k i f).regions = s.regions := rfl
@[simp] theorem State.modQslot_idleUntil (k i : Nat) (f : QSlot → QSlot) : (s.modQslot k i f).idleUntil = s.idleUntil := rfl
@[simp] theorem State.modQslot_evq (k i : Nat) (f : QSlot → QSlot) : (s.modQslot k i f).evq = s.evq := rfl
@[simp] theorem State.modQslot_evLost (k i : Nat) (f : QSlot → QSlot) : (s.modQslot k i f).evLost = s.evLost := rfl
@[simp] theorem State.modQslot_log (k i : Nat) (f : QSlot → QSlot) : (s.modQslot k i f).log = s.log := rfl
@[simp] theorem State.modQslot_logNext (k i : Nat) (f : QSlot → QSlot) : (s.modQslot k i f).logNext = s.logNext := rfl
@[simp] theorem State.modQslot_out (k i : Nat) (f : QSlot → QSlot) : (s.modQslot k i f).out = s.out := rfl
@[simp] theorem State.modQslot_tolvys (k i : Nat) (f : QSlot → QSlot) : (s.modQslot k i f).tolvys = s.tolvys := rfl
@[simp] theorem State.modQslot_stale (k i : Nat) (f : QSlot → QSlot) : (s.modQslot k i f).stale = s.stale := rfl
@[simp] theorem State.modQslot_windows (k i : Nat) (f : QSlot → QSlot) : (s.modQslot k i f).windows = s.windows := rfl
@[simp] theorem State.modQslot_wfOn (k i : Nat) (f : QSlot → QSlot) : (s.modQslot k i f).wfOn = s.wfOn := rfl
@[simp] theorem State.modQslot_rowSlots (k i : Nat) (f : QSlot → QSlot) : (s.modQslot k i f).rowSlots = s.rowSlots := rfl
@[simp] theorem State.modQslot_bulk (k i : Nat) (f : QSlot → QSlot) : (s.modQslot k i f).bulk = s.bulk := rfl
@[simp] theorem State.modQslot_repairs (k i : Nat) (f : QSlot → QSlot) : (s.modQslot k i f).repairs = s.repairs := rfl
@[simp] theorem State.modQslot_igs (k i : Nat) (f : QSlot → QSlot) : (s.modQslot k i f).igs = s.igs := rfl
@[simp] theorem State.modQslot_csSets (k i : Nat) (f : QSlot → QSlot) : (s.modQslot k i f).csSets = s.csSets := rfl
@[simp] theorem State.modQslot_screens (k i : Nat) (f : QSlot → QSlot) : (s.modQslot k i f).screens = s.screens := rfl
@[simp] theorem State.modQslot_mace (k i : Nat) (f : QSlot → QSlot) : (s.modQslot k i f).mace = s.mace := rfl
@[simp] theorem State.modQslot_digests (k i : Nat) (f : QSlot → QSlot) : (s.modQslot k i f).digests = s.digests := rfl
@[simp] theorem State.modQslot_mboxes (k i : Nat) (f : QSlot → QSlot) : (s.modQslot k i f).mboxes = s.mboxes := rfl
@[simp] theorem State.modQslot_retired (k i : Nat) (f : QSlot → QSlot) : (s.modQslot k i f).retired = s.retired := rfl
@[simp] theorem State.modQslot_suspect (k i : Nat) (f : QSlot → QSlot) : (s.modQslot k i f).suspect = s.suspect := rfl
@[simp] theorem State.modQslot_tiles (k i : Nat) (f : QSlot → QSlot) : (s.modQslot k i f).tiles = s.tiles := rfl
@[simp] theorem State.modQslot_arrFmt (k i : Nat) (f : QSlot → QSlot) : (s.modQslot k i f).arrFmt = s.arrFmt := rfl
@[simp] theorem State.modQslot_tileTag (k i : Nat) (f : QSlot → QSlot) : (s.modQslot k i f).tileTag = s.tileTag := rfl
@[simp] theorem State.modQslot_engFail (k i : Nat) (f : QSlot → QSlot) : (s.modQslot k i f).engFail = s.engFail := rfl
@[simp] theorem State.modQslot_clove (k i : Nat) (f : QSlot → QSlot) : (s.modQslot k i f).clove = s.clove := rfl
@[simp] theorem State.modQslot_chainCur (k i : Nat) (f : QSlot → QSlot) : (s.modQslot k i f).chainCur = s.chainCur := rfl
@[simp] theorem State.modQslot_profCur (k i : Nat) (f : QSlot → QSlot) : (s.modQslot k i f).profCur = s.profCur := rfl
@[simp] theorem State.modQslot_attCfg (k i : Nat) (f : QSlot → QSlot) : (s.modQslot k i f).attCfg = s.attCfg := rfl
@[simp] theorem State.modQslot_attSeq (k i : Nat) (f : QSlot → QSlot) : (s.modQslot k i f).attSeq = s.attSeq := rfl
@[simp] theorem State.modQslot_xslots (k i : Nat) (f : QSlot → QSlot) : (s.modQslot k i f).xslots = s.xslots := rfl
@[simp] theorem State.modQslot_links (k i : Nat) (f : QSlot → QSlot) : (s.modQslot k i f).links = s.links := rfl
@[simp] theorem State.modQslot_ports (k i : Nat) (f : QSlot → QSlot) : (s.modQslot k i f).ports = s.ports := rfl
@[simp] theorem State.modQslot_nodeReqs (k i : Nat) (f : QSlot → QSlot) : (s.modQslot k i f).nodeReqs = s.nodeReqs := rfl
@[simp] theorem State.modQslot_nodeTag (k i : Nat) (f : QSlot → QSlot) : (s.modQslot k i f).nodeTag = s.nodeTag := rfl
@[simp] theorem State.modQslot_fabric (k i : Nat) (f : QSlot → QSlot) : (s.modQslot k i f).fabric = s.fabric := rfl
@[simp] theorem State.modQslot_reqs (k i : Nat) (f : QSlot → QSlot) : (s.modQslot k i f).reqs = s.reqs := rfl
@[simp] theorem State.modQslot_submitted (k i : Nat) (f : QSlot → QSlot) : (s.modQslot k i f).submitted = s.submitted := rfl
@[simp] theorem State.modQslot_commands (k i : Nat) (f : QSlot → QSlot) : (s.modQslot k i f).commands = s.commands := rfl
@[simp] theorem State.modQslot_svs (k i : Nat) (f : QSlot → QSlot) : (s.modQslot k i f).svs = s.svs := rfl
@[simp] theorem State.modQslot_peps (k i : Nat) (f : QSlot → QSlot) : (s.modQslot k i f).peps = s.peps := rfl
@[simp] theorem State.modQslot_pepCur (k i : Nat) (f : QSlot → QSlot) : (s.modQslot k i f).pepCur = s.pepCur := rfl
@[simp] theorem State.modQslot_pageSeen (k i : Nat) (f : QSlot → QSlot) : (s.modQslot k i f).pageSeen = s.pageSeen := rfl
@[simp] theorem State.modQslot_seqBad (k i : Nat) (f : QSlot → QSlot) : (s.modQslot k i f).seqBad = s.seqBad := rfl
@[simp] theorem State.modQslot_done (k i : Nat) (f : QSlot → QSlot) : (s.modQslot k i f).done = s.done := rfl
@[simp] theorem State.modQslot_rdata (k i : Nat) (f : QSlot → QSlot) : (s.modQslot k i f).rdata = s.rdata := rfl
@[simp] theorem State.modQslot_free (k i : Nat) (f : QSlot → QSlot) : (s.modQslot k i f).free = s.free := rfl
@[simp] theorem State.modQslot_pending (k i : Nat) (f : QSlot → QSlot) : (s.modQslot k i f).pending = s.pending := rfl

end Sys2Proof.Machine
end

