-- ==== Sys2Proof/Laws/Raise.lean ====
section
/-! SUPPORT. What raising an event, writing a record, signalling a counter and letting time pass leave alone. -/

namespace Sys2Proof.Machine

@[simp] theorem State.countEvent_clk (s : State) (x1 : Nat) (x2 : Nat) : (s.countEvent x1 x2).clk = s.clk :=
  (does_countEvent (m := 2) (Eq.refl _) (Does.refl _ s)).frame .clk rfl
@[simp] theorem State.countEvent_staged (s : State) (x1 : Nat) (x2 : Nat) : (s.countEvent x1 x2).staged = s.staged :=
  (does_countEvent (m := 2) (Eq.refl _) (Does.refl _ s)).frame .staged rfl
@[simp] theorem State.countEvent_mem (s : State) (x1 : Nat) (x2 : Nat) : (s.countEvent x1 x2).mem = s.mem :=
  (does_countEvent (m := 2) (Eq.refl _) (Does.refl _ s)).frame .mem rfl
@[simp] theorem State.countEvent_timers (s : State) (x1 : Nat) (x2 : Nat) : (s.countEvent x1 x2).timers = s.timers :=
  (does_countEvent (m := 2) (Eq.refl _) (Does.refl _ s)).frame .timers rfl
@[simp] theorem State.countEvent_ident (s : State) (x1 : Nat) (x2 : Nat) : (s.countEvent x1 x2).ident = s.ident :=
  (does_countEvent (m := 2) (Eq.refl _) (Does.refl _ s)).frame .ident rfl
@[simp] theorem State.countEvent_boot (s : State) (x1 : Nat) (x2 : Nat) : (s.countEvent x1 x2).boot = s.boot :=
  (does_countEvent (m := 2) (Eq.refl _) (Does.refl _ s)).frame .boot rfl
@[simp] theorem State.countEvent_power (s : State) (x1 : Nat) (x2 : Nat) : (s.countEvent x1 x2).power = s.power :=
  (does_countEvent (m := 2) (Eq.refl _) (Does.refl _ s)).frame .power rfl
@[simp] theorem State.countEvent_time (s : State) (x1 : Nat) (x2 : Nat) : (s.countEvent x1 x2).time = s.time :=
  (does_countEvent (m := 2) (Eq.refl _) (Does.refl _ s)).frame .time rfl
@[simp] theorem State.countEvent_slots (s : State) (x1 : Nat) (x2 : Nat) : (s.countEvent x1 x2).slots = s.slots :=
  (does_countEvent (m := 2) (Eq.refl _) (Does.refl _ s)).frame .slots rfl
@[simp] theorem State.countEvent_schedLo (s : State) (x1 : Nat) (x2 : Nat) : (s.countEvent x1 x2).schedLo = s.schedLo :=
  (does_countEvent (m := 2) (Eq.refl _) (Does.refl _ s)).frame .schedLo rfl
@[simp] theorem State.countEvent_schedHi (s : State) (x1 : Nat) (x2 : Nat) : (s.countEvent x1 x2).schedHi = s.schedHi :=
  (does_countEvent (m := 2) (Eq.refl _) (Does.refl _ s)).frame .schedHi rfl
@[simp] theorem State.countEvent_ctrs (s : State) (x1 : Nat) (x2 : Nat) : (s.countEvent x1 x2).ctrs = s.ctrs :=
  (does_countEvent (m := 2) (Eq.refl _) (Does.refl _ s)).frame .ctrs rfl
@[simp] theorem State.countEvent_parts (s : State) (x1 : Nat) (x2 : Nat) : (s.countEvent x1 x2).parts = s.parts :=
  (does_countEvent (m := 2) (Eq.refl _) (Does.refl _ s)).frame .parts rfl
@[simp] theorem State.countEvent_doms (s : State) (x1 : Nat) (x2 : Nat) : (s.countEvent x1 x2).doms = s.doms :=
  (does_countEvent (m := 2) (Eq.refl _) (Does.refl _ s)).frame .doms rfl
@[simp] theorem State.countEvent_seqs (s : State) (x1 : Nat) (x2 : Nat) : (s.countEvent x1 x2).seqs = s.seqs :=
  (does_countEvent (m := 2) (Eq.refl _) (Does.refl _ s)).frame .seqs rfl
@[simp] theorem State.countEvent_regions (s : State) (x1 : Nat) (x2 : Nat) : (s.countEvent x1 x2).regions = s.regions :=
  (does_countEvent (m := 2) (Eq.refl _) (Does.refl _ s)).frame .regions rfl
@[simp] theorem State.countEvent_idleUntil (s : State) (x1 : Nat) (x2 : Nat) : (s.countEvent x1 x2).idleUntil = s.idleUntil :=
  (does_countEvent (m := 2) (Eq.refl _) (Does.refl _ s)).frame .idleUntil rfl
@[simp] theorem State.countEvent_evq (s : State) (x1 : Nat) (x2 : Nat) : (s.countEvent x1 x2).evq = s.evq :=
  (does_countEvent (m := 2) (Eq.refl _) (Does.refl _ s)).frame .evq rfl
@[simp] theorem State.countEvent_evLost (s : State) (x1 : Nat) (x2 : Nat) : (s.countEvent x1 x2).evLost = s.evLost :=
  (does_countEvent (m := 2) (Eq.refl _) (Does.refl _ s)).frame .evLost rfl
@[simp] theorem State.countEvent_log (s : State) (x1 : Nat) (x2 : Nat) : (s.countEvent x1 x2).log = s.log :=
  (does_countEvent (m := 2) (Eq.refl _) (Does.refl _ s)).frame .log rfl
@[simp] theorem State.countEvent_logNext (s : State) (x1 : Nat) (x2 : Nat) : (s.countEvent x1 x2).logNext = s.logNext :=
  (does_countEvent (m := 2) (Eq.refl _) (Does.refl _ s)).frame .logNext rfl
@[simp] theorem State.countEvent_out (s : State) (x1 : Nat) (x2 : Nat) : (s.countEvent x1 x2).out = s.out :=
  (does_countEvent (m := 2) (Eq.refl _) (Does.refl _ s)).frame .out rfl
@[simp] theorem State.countEvent_tolvys (s : State) (x1 : Nat) (x2 : Nat) : (s.countEvent x1 x2).tolvys = s.tolvys :=
  (does_countEvent (m := 2) (Eq.refl _) (Does.refl _ s)).frame .tolvys rfl
@[simp] theorem State.countEvent_stale (s : State) (x1 : Nat) (x2 : Nat) : (s.countEvent x1 x2).stale = s.stale :=
  (does_countEvent (m := 2) (Eq.refl _) (Does.refl _ s)).frame .stale rfl
@[simp] theorem State.countEvent_windows (s : State) (x1 : Nat) (x2 : Nat) : (s.countEvent x1 x2).windows = s.windows :=
  (does_countEvent (m := 2) (Eq.refl _) (Does.refl _ s)).frame .windows rfl
@[simp] theorem State.countEvent_wfOn (s : State) (x1 : Nat) (x2 : Nat) : (s.countEvent x1 x2).wfOn = s.wfOn :=
  (does_countEvent (m := 2) (Eq.refl _) (Does.refl _ s)).frame .wfOn rfl
@[simp] theorem State.countEvent_rowSlots (s : State) (x1 : Nat) (x2 : Nat) : (s.countEvent x1 x2).rowSlots = s.rowSlots :=
  (does_countEvent (m := 2) (Eq.refl _) (Does.refl _ s)).frame .rowSlots rfl
@[simp] theorem State.countEvent_bulk (s : State) (x1 : Nat) (x2 : Nat) : (s.countEvent x1 x2).bulk = s.bulk :=
  (does_countEvent (m := 2) (Eq.refl _) (Does.refl _ s)).frame .bulk rfl
@[simp] theorem State.countEvent_repairs (s : State) (x1 : Nat) (x2 : Nat) : (s.countEvent x1 x2).repairs = s.repairs :=
  (does_countEvent (m := 2) (Eq.refl _) (Does.refl _ s)).frame .repairs rfl
@[simp] theorem State.countEvent_igs (s : State) (x1 : Nat) (x2 : Nat) : (s.countEvent x1 x2).igs = s.igs :=
  (does_countEvent (m := 2) (Eq.refl _) (Does.refl _ s)).frame .igs rfl
@[simp] theorem State.countEvent_csSets (s : State) (x1 : Nat) (x2 : Nat) : (s.countEvent x1 x2).csSets = s.csSets :=
  (does_countEvent (m := 2) (Eq.refl _) (Does.refl _ s)).frame .csSets rfl
@[simp] theorem State.countEvent_screens (s : State) (x1 : Nat) (x2 : Nat) : (s.countEvent x1 x2).screens = s.screens :=
  (does_countEvent (m := 2) (Eq.refl _) (Does.refl _ s)).frame .screens rfl
@[simp] theorem State.countEvent_mace (s : State) (x1 : Nat) (x2 : Nat) : (s.countEvent x1 x2).mace = s.mace :=
  (does_countEvent (m := 2) (Eq.refl _) (Does.refl _ s)).frame .mace rfl
@[simp] theorem State.countEvent_digests (s : State) (x1 : Nat) (x2 : Nat) : (s.countEvent x1 x2).digests = s.digests :=
  (does_countEvent (m := 2) (Eq.refl _) (Does.refl _ s)).frame .digests rfl
@[simp] theorem State.countEvent_mboxes (s : State) (x1 : Nat) (x2 : Nat) : (s.countEvent x1 x2).mboxes = s.mboxes :=
  (does_countEvent (m := 2) (Eq.refl _) (Does.refl _ s)).frame .mboxes rfl
@[simp] theorem State.countEvent_retired (s : State) (x1 : Nat) (x2 : Nat) : (s.countEvent x1 x2).retired = s.retired :=
  (does_countEvent (m := 2) (Eq.refl _) (Does.refl _ s)).frame .retired rfl
@[simp] theorem State.countEvent_suspect (s : State) (x1 : Nat) (x2 : Nat) : (s.countEvent x1 x2).suspect = s.suspect :=
  (does_countEvent (m := 2) (Eq.refl _) (Does.refl _ s)).frame .suspect rfl
@[simp] theorem State.countEvent_tiles (s : State) (x1 : Nat) (x2 : Nat) : (s.countEvent x1 x2).tiles = s.tiles :=
  (does_countEvent (m := 2) (Eq.refl _) (Does.refl _ s)).frame .tiles rfl
@[simp] theorem State.countEvent_arrFmt (s : State) (x1 : Nat) (x2 : Nat) : (s.countEvent x1 x2).arrFmt = s.arrFmt :=
  (does_countEvent (m := 2) (Eq.refl _) (Does.refl _ s)).frame .arrFmt rfl
@[simp] theorem State.countEvent_tileTag (s : State) (x1 : Nat) (x2 : Nat) : (s.countEvent x1 x2).tileTag = s.tileTag :=
  (does_countEvent (m := 2) (Eq.refl _) (Does.refl _ s)).frame .tileTag rfl
@[simp] theorem State.countEvent_engFail (s : State) (x1 : Nat) (x2 : Nat) : (s.countEvent x1 x2).engFail = s.engFail :=
  (does_countEvent (m := 2) (Eq.refl _) (Does.refl _ s)).frame .engFail rfl
@[simp] theorem State.countEvent_clove (s : State) (x1 : Nat) (x2 : Nat) : (s.countEvent x1 x2).clove = s.clove :=
  (does_countEvent (m := 2) (Eq.refl _) (Does.refl _ s)).frame .clove rfl
@[simp] theorem State.countEvent_chainCur (s : State) (x1 : Nat) (x2 : Nat) : (s.countEvent x1 x2).chainCur = s.chainCur :=
  (does_countEvent (m := 2) (Eq.refl _) (Does.refl _ s)).frame .chainCur rfl
@[simp] theorem State.countEvent_profCur (s : State) (x1 : Nat) (x2 : Nat) : (s.countEvent x1 x2).profCur = s.profCur :=
  (does_countEvent (m := 2) (Eq.refl _) (Does.refl _ s)).frame .profCur rfl
@[simp] theorem State.countEvent_qslots (s : State) (x1 : Nat) (x2 : Nat) : (s.countEvent x1 x2).qslots = s.qslots :=
  (does_countEvent (m := 2) (Eq.refl _) (Does.refl _ s)).frame .qslots rfl
@[simp] theorem State.countEvent_attCfg (s : State) (x1 : Nat) (x2 : Nat) : (s.countEvent x1 x2).attCfg = s.attCfg :=
  (does_countEvent (m := 2) (Eq.refl _) (Does.refl _ s)).frame .attCfg rfl
@[simp] theorem State.countEvent_attSeq (s : State) (x1 : Nat) (x2 : Nat) : (s.countEvent x1 x2).attSeq = s.attSeq :=
  (does_countEvent (m := 2) (Eq.refl _) (Does.refl _ s)).frame .attSeq rfl
@[simp] theorem State.countEvent_xslots (s : State) (x1 : Nat) (x2 : Nat) : (s.countEvent x1 x2).xslots = s.xslots :=
  (does_countEvent (m := 2) (Eq.refl _) (Does.refl _ s)).frame .xslots rfl
@[simp] theorem State.countEvent_links (s : State) (x1 : Nat) (x2 : Nat) : (s.countEvent x1 x2).links = s.links :=
  (does_countEvent (m := 2) (Eq.refl _) (Does.refl _ s)).frame .links rfl
@[simp] theorem State.countEvent_ports (s : State) (x1 : Nat) (x2 : Nat) : (s.countEvent x1 x2).ports = s.ports :=
  (does_countEvent (m := 2) (Eq.refl _) (Does.refl _ s)).frame .ports rfl
@[simp] theorem State.countEvent_nodeReqs (s : State) (x1 : Nat) (x2 : Nat) : (s.countEvent x1 x2).nodeReqs = s.nodeReqs :=
  (does_countEvent (m := 2) (Eq.refl _) (Does.refl _ s)).frame .nodeReqs rfl
@[simp] theorem State.countEvent_nodeTag (s : State) (x1 : Nat) (x2 : Nat) : (s.countEvent x1 x2).nodeTag = s.nodeTag :=
  (does_countEvent (m := 2) (Eq.refl _) (Does.refl _ s)).frame .nodeTag rfl
@[simp] theorem State.countEvent_fabric (s : State) (x1 : Nat) (x2 : Nat) : (s.countEvent x1 x2).fabric = s.fabric :=
  (does_countEvent (m := 2) (Eq.refl _) (Does.refl _ s)).frame .fabric rfl
@[simp] theorem State.countEvent_reqs (s : State) (x1 : Nat) (x2 : Nat) : (s.countEvent x1 x2).reqs = s.reqs :=
  (does_countEvent (m := 2) (Eq.refl _) (Does.refl _ s)).frame .reqs rfl
@[simp] theorem State.countEvent_submitted (s : State) (x1 : Nat) (x2 : Nat) : (s.countEvent x1 x2).submitted = s.submitted :=
  (does_countEvent (m := 2) (Eq.refl _) (Does.refl _ s)).frame .submitted rfl
@[simp] theorem State.countEvent_commands (s : State) (x1 : Nat) (x2 : Nat) : (s.countEvent x1 x2).commands = s.commands :=
  (does_countEvent (m := 2) (Eq.refl _) (Does.refl _ s)).frame .commands rfl
@[simp] theorem State.countEvent_svs (s : State) (x1 : Nat) (x2 : Nat) : (s.countEvent x1 x2).svs = s.svs :=
  (does_countEvent (m := 2) (Eq.refl _) (Does.refl _ s)).frame .svs rfl
@[simp] theorem State.countEvent_peps (s : State) (x1 : Nat) (x2 : Nat) : (s.countEvent x1 x2).peps = s.peps :=
  (does_countEvent (m := 2) (Eq.refl _) (Does.refl _ s)).frame .peps rfl
@[simp] theorem State.countEvent_pepCur (s : State) (x1 : Nat) (x2 : Nat) : (s.countEvent x1 x2).pepCur = s.pepCur :=
  (does_countEvent (m := 2) (Eq.refl _) (Does.refl _ s)).frame .pepCur rfl
@[simp] theorem State.countEvent_pageSeen (s : State) (x1 : Nat) (x2 : Nat) : (s.countEvent x1 x2).pageSeen = s.pageSeen :=
  (does_countEvent (m := 2) (Eq.refl _) (Does.refl _ s)).frame .pageSeen rfl
@[simp] theorem State.countEvent_seqBad (s : State) (x1 : Nat) (x2 : Nat) : (s.countEvent x1 x2).seqBad = s.seqBad :=
  (does_countEvent (m := 2) (Eq.refl _) (Does.refl _ s)).frame .seqBad rfl
@[simp] theorem State.countEvent_done (s : State) (x1 : Nat) (x2 : Nat) : (s.countEvent x1 x2).done = s.done :=
  (does_countEvent (m := 2) (Eq.refl _) (Does.refl _ s)).frame .done rfl
@[simp] theorem State.countEvent_rdata (s : State) (x1 : Nat) (x2 : Nat) : (s.countEvent x1 x2).rdata = s.rdata :=
  (does_countEvent (m := 2) (Eq.refl _) (Does.refl _ s)).frame .rdata rfl
@[simp] theorem State.countEvent_free (s : State) (x1 : Nat) (x2 : Nat) : (s.countEvent x1 x2).free = s.free :=
  (does_countEvent (m := 2) (Eq.refl _) (Does.refl _ s)).frame .free rfl
@[simp] theorem State.countEvent_pending (s : State) (x1 : Nat) (x2 : Nat) : (s.countEvent x1 x2).pending = s.pending :=
  (does_countEvent (m := 2) (Eq.refl _) (Does.refl _ s)).frame .pending rfl
@[simp] theorem State.pushEvent_clk (s : State) (x1 : Nat) (x2 : Sys2Proof.Machine.EventRec) : (s.pushEvent x1 x2).clk = s.clk :=
  (does_pushEvent (m := 786434) (Eq.refl _) (Does.refl _ s)).frame .clk rfl
@[simp] theorem State.pushEvent_staged (s : State) (x1 : Nat) (x2 : Sys2Proof.Machine.EventRec) : (s.pushEvent x1 x2).staged = s.staged :=
  (does_pushEvent (m := 786434) (Eq.refl _) (Does.refl _ s)).frame .staged rfl
@[simp] theorem State.pushEvent_mem (s : State) (x1 : Nat) (x2 : Sys2Proof.Machine.EventRec) : (s.pushEvent x1 x2).mem = s.mem :=
  (does_pushEvent (m := 786434) (Eq.refl _) (Does.refl _ s)).frame .mem rfl
@[simp] theorem State.pushEvent_timers (s : State) (x1 : Nat) (x2 : Sys2Proof.Machine.EventRec) : (s.pushEvent x1 x2).timers = s.timers :=
  (does_pushEvent (m := 786434) (Eq.refl _) (Does.refl _ s)).frame .timers rfl
@[simp] theorem State.pushEvent_ident (s : State) (x1 : Nat) (x2 : Sys2Proof.Machine.EventRec) : (s.pushEvent x1 x2).ident = s.ident :=
  (does_pushEvent (m := 786434) (Eq.refl _) (Does.refl _ s)).frame .ident rfl
@[simp] theorem State.pushEvent_boot (s : State) (x1 : Nat) (x2 : Sys2Proof.Machine.EventRec) : (s.pushEvent x1 x2).boot = s.boot :=
  (does_pushEvent (m := 786434) (Eq.refl _) (Does.refl _ s)).frame .boot rfl
@[simp] theorem State.pushEvent_power (s : State) (x1 : Nat) (x2 : Sys2Proof.Machine.EventRec) : (s.pushEvent x1 x2).power = s.power :=
  (does_pushEvent (m := 786434) (Eq.refl _) (Does.refl _ s)).frame .power rfl
@[simp] theorem State.pushEvent_time (s : State) (x1 : Nat) (x2 : Sys2Proof.Machine.EventRec) : (s.pushEvent x1 x2).time = s.time :=
  (does_pushEvent (m := 786434) (Eq.refl _) (Does.refl _ s)).frame .time rfl
@[simp] theorem State.pushEvent_slots (s : State) (x1 : Nat) (x2 : Sys2Proof.Machine.EventRec) : (s.pushEvent x1 x2).slots = s.slots :=
  (does_pushEvent (m := 786434) (Eq.refl _) (Does.refl _ s)).frame .slots rfl
@[simp] theorem State.pushEvent_schedLo (s : State) (x1 : Nat) (x2 : Sys2Proof.Machine.EventRec) : (s.pushEvent x1 x2).schedLo = s.schedLo :=
  (does_pushEvent (m := 786434) (Eq.refl _) (Does.refl _ s)).frame .schedLo rfl
@[simp] theorem State.pushEvent_schedHi (s : State) (x1 : Nat) (x2 : Sys2Proof.Machine.EventRec) : (s.pushEvent x1 x2).schedHi = s.schedHi :=
  (does_pushEvent (m := 786434) (Eq.refl _) (Does.refl _ s)).frame .schedHi rfl
@[simp] theorem State.pushEvent_ctrs (s : State) (x1 : Nat) (x2 : Sys2Proof.Machine.EventRec) : (s.pushEvent x1 x2).ctrs = s.ctrs :=
  (does_pushEvent (m := 786434) (Eq.refl _) (Does.refl _ s)).frame .ctrs rfl
@[simp] theorem State.pushEvent_parts (s : State) (x1 : Nat) (x2 : Sys2Proof.Machine.EventRec) : (s.pushEvent x1 x2).parts = s.parts :=
  (does_pushEvent (m := 786434) (Eq.refl _) (Does.refl _ s)).frame .parts rfl
@[simp] theorem State.pushEvent_doms (s : State) (x1 : Nat) (x2 : Sys2Proof.Machine.EventRec) : (s.pushEvent x1 x2).doms = s.doms :=
  (does_pushEvent (m := 786434) (Eq.refl _) (Does.refl _ s)).frame .doms rfl
@[simp] theorem State.pushEvent_seqs (s : State) (x1 : Nat) (x2 : Sys2Proof.Machine.EventRec) : (s.pushEvent x1 x2).seqs = s.seqs :=
  (does_pushEvent (m := 786434) (Eq.refl _) (Does.refl _ s)).frame .seqs rfl
@[simp] theorem State.pushEvent_regions (s : State) (x1 : Nat) (x2 : Sys2Proof.Machine.EventRec) : (s.pushEvent x1 x2).regions = s.regions :=
  (does_pushEvent (m := 786434) (Eq.refl _) (Does.refl _ s)).frame .regions rfl
@[simp] theorem State.pushEvent_idleUntil (s : State) (x1 : Nat) (x2 : Sys2Proof.Machine.EventRec) : (s.pushEvent x1 x2).idleUntil = s.idleUntil :=
  (does_pushEvent (m := 786434) (Eq.refl _) (Does.refl _ s)).frame .idleUntil rfl
@[simp] theorem State.pushEvent_log (s : State) (x1 : Nat) (x2 : Sys2Proof.Machine.EventRec) : (s.pushEvent x1 x2).log = s.log :=
  (does_pushEvent (m := 786434) (Eq.refl _) (Does.refl _ s)).frame .log rfl
@[simp] theorem State.pushEvent_logNext (s : State) (x1 : Nat) (x2 : Sys2Proof.Machine.EventRec) : (s.pushEvent x1 x2).logNext = s.logNext :=
  (does_pushEvent (m := 786434) (Eq.refl _) (Does.refl _ s)).frame .logNext rfl
@[simp] theorem State.pushEvent_out (s : State) (x1 : Nat) (x2 : Sys2Proof.Machine.EventRec) : (s.pushEvent x1 x2).out = s.out :=
  (does_pushEvent (m := 786434) (Eq.refl _) (Does.refl _ s)).frame .out rfl
@[simp] theorem State.pushEvent_tolvys (s : State) (x1 : Nat) (x2 : Sys2Proof.Machine.EventRec) : (s.pushEvent x1 x2).tolvys = s.tolvys :=
  (does_pushEvent (m := 786434) (Eq.refl _) (Does.refl _ s)).frame .tolvys rfl
@[simp] theorem State.pushEvent_stale (s : State) (x1 : Nat) (x2 : Sys2Proof.Machine.EventRec) : (s.pushEvent x1 x2).stale = s.stale :=
  (does_pushEvent (m := 786434) (Eq.refl _) (Does.refl _ s)).frame .stale rfl
@[simp] theorem State.pushEvent_windows (s : State) (x1 : Nat) (x2 : Sys2Proof.Machine.EventRec) : (s.pushEvent x1 x2).windows = s.windows :=
  (does_pushEvent (m := 786434) (Eq.refl _) (Does.refl _ s)).frame .windows rfl
@[simp] theorem State.pushEvent_wfOn (s : State) (x1 : Nat) (x2 : Sys2Proof.Machine.EventRec) : (s.pushEvent x1 x2).wfOn = s.wfOn :=
  (does_pushEvent (m := 786434) (Eq.refl _) (Does.refl _ s)).frame .wfOn rfl
@[simp] theorem State.pushEvent_rowSlots (s : State) (x1 : Nat) (x2 : Sys2Proof.Machine.EventRec) : (s.pushEvent x1 x2).rowSlots = s.rowSlots :=
  (does_pushEvent (m := 786434) (Eq.refl _) (Does.refl _ s)).frame .rowSlots rfl
@[simp] theorem State.pushEvent_bulk (s : State) (x1 : Nat) (x2 : Sys2Proof.Machine.EventRec) : (s.pushEvent x1 x2).bulk = s.bulk :=
  (does_pushEvent (m := 786434) (Eq.refl _) (Does.refl _ s)).frame .bulk rfl
@[simp] theorem State.pushEvent_repairs (s : State) (x1 : Nat) (x2 : Sys2Proof.Machine.EventRec) : (s.pushEvent x1 x2).repairs = s.repairs :=
  (does_pushEvent (m := 786434) (Eq.refl _) (Does.refl _ s)).frame .repairs rfl
@[simp] theorem State.pushEvent_igs (s : State) (x1 : Nat) (x2 : Sys2Proof.Machine.EventRec) : (s.pushEvent x1 x2).igs = s.igs :=
  (does_pushEvent (m := 786434) (Eq.refl _) (Does.refl _ s)).frame .igs rfl
@[simp] theorem State.pushEvent_csSets (s : State) (x1 : Nat) (x2 : Sys2Proof.Machine.EventRec) : (s.pushEvent x1 x2).csSets = s.csSets :=
  (does_pushEvent (m := 786434) (Eq.refl _) (Does.refl _ s)).frame .csSets rfl
@[simp] theorem State.pushEvent_screens (s : State) (x1 : Nat) (x2 : Sys2Proof.Machine.EventRec) : (s.pushEvent x1 x2).screens = s.screens :=
  (does_pushEvent (m := 786434) (Eq.refl _) (Does.refl _ s)).frame .screens rfl
@[simp] theorem State.pushEvent_mace (s : State) (x1 : Nat) (x2 : Sys2Proof.Machine.EventRec) : (s.pushEvent x1 x2).mace = s.mace :=
  (does_pushEvent (m := 786434) (Eq.refl _) (Does.refl _ s)).frame .mace rfl
@[simp] theorem State.pushEvent_digests (s : State) (x1 : Nat) (x2 : Sys2Proof.Machine.EventRec) : (s.pushEvent x1 x2).digests = s.digests :=
  (does_pushEvent (m := 786434) (Eq.refl _) (Does.refl _ s)).frame .digests rfl
@[simp] theorem State.pushEvent_mboxes (s : State) (x1 : Nat) (x2 : Sys2Proof.Machine.EventRec) : (s.pushEvent x1 x2).mboxes = s.mboxes :=
  (does_pushEvent (m := 786434) (Eq.refl _) (Does.refl _ s)).frame .mboxes rfl
@[simp] theorem State.pushEvent_retired (s : State) (x1 : Nat) (x2 : Sys2Proof.Machine.EventRec) : (s.pushEvent x1 x2).retired = s.retired :=
  (does_pushEvent (m := 786434) (Eq.refl _) (Does.refl _ s)).frame .retired rfl
@[simp] theorem State.pushEvent_suspect (s : State) (x1 : Nat) (x2 : Sys2Proof.Machine.EventRec) : (s.pushEvent x1 x2).suspect = s.suspect :=
  (does_pushEvent (m := 786434) (Eq.refl _) (Does.refl _ s)).frame .suspect rfl
@[simp] theorem State.pushEvent_tiles (s : State) (x1 : Nat) (x2 : Sys2Proof.Machine.EventRec) : (s.pushEvent x1 x2).tiles = s.tiles :=
  (does_pushEvent (m := 786434) (Eq.refl _) (Does.refl _ s)).frame .tiles rfl
@[simp] theorem State.pushEvent_arrFmt (s : State) (x1 : Nat) (x2 : Sys2Proof.Machine.EventRec) : (s.pushEvent x1 x2).arrFmt = s.arrFmt :=
  (does_pushEvent (m := 786434) (Eq.refl _) (Does.refl _ s)).frame .arrFmt rfl
@[simp] theorem State.pushEvent_tileTag (s : State) (x1 : Nat) (x2 : Sys2Proof.Machine.EventRec) : (s.pushEvent x1 x2).tileTag = s.tileTag :=
  (does_pushEvent (m := 786434) (Eq.refl _) (Does.refl _ s)).frame .tileTag rfl
@[simp] theorem State.pushEvent_engFail (s : State) (x1 : Nat) (x2 : Sys2Proof.Machine.EventRec) : (s.pushEvent x1 x2).engFail = s.engFail :=
  (does_pushEvent (m := 786434) (Eq.refl _) (Does.refl _ s)).frame .engFail rfl
@[simp] theorem State.pushEvent_clove (s : State) (x1 : Nat) (x2 : Sys2Proof.Machine.EventRec) : (s.pushEvent x1 x2).clove = s.clove :=
  (does_pushEvent (m := 786434) (Eq.refl _) (Does.refl _ s)).frame .clove rfl
@[simp] theorem State.pushEvent_chainCur (s : State) (x1 : Nat) (x2 : Sys2Proof.Machine.EventRec) : (s.pushEvent x1 x2).chainCur = s.chainCur :=
  (does_pushEvent (m := 786434) (Eq.refl _) (Does.refl _ s)).frame .chainCur rfl
@[simp] theorem State.pushEvent_profCur (s : State) (x1 : Nat) (x2 : Sys2Proof.Machine.EventRec) : (s.pushEvent x1 x2).profCur = s.profCur :=
  (does_pushEvent (m := 786434) (Eq.refl _) (Does.refl _ s)).frame .profCur rfl
@[simp] theorem State.pushEvent_qslots (s : State) (x1 : Nat) (x2 : Sys2Proof.Machine.EventRec) : (s.pushEvent x1 x2).qslots = s.qslots :=
  (does_pushEvent (m := 786434) (Eq.refl _) (Does.refl _ s)).frame .qslots rfl
@[simp] theorem State.pushEvent_attCfg (s : State) (x1 : Nat) (x2 : Sys2Proof.Machine.EventRec) : (s.pushEvent x1 x2).attCfg = s.attCfg :=
  (does_pushEvent (m := 786434) (Eq.refl _) (Does.refl _ s)).frame .attCfg rfl
@[simp] theorem State.pushEvent_attSeq (s : State) (x1 : Nat) (x2 : Sys2Proof.Machine.EventRec) : (s.pushEvent x1 x2).attSeq = s.attSeq :=
  (does_pushEvent (m := 786434) (Eq.refl _) (Does.refl _ s)).frame .attSeq rfl
@[simp] theorem State.pushEvent_xslots (s : State) (x1 : Nat) (x2 : Sys2Proof.Machine.EventRec) : (s.pushEvent x1 x2).xslots = s.xslots :=
  (does_pushEvent (m := 786434) (Eq.refl _) (Does.refl _ s)).frame .xslots rfl
@[simp] theorem State.pushEvent_links (s : State) (x1 : Nat) (x2 : Sys2Proof.Machine.EventRec) : (s.pushEvent x1 x2).links = s.links :=
  (does_pushEvent (m := 786434) (Eq.refl _) (Does.refl _ s)).frame .links rfl
@[simp] theorem State.pushEvent_ports (s : State) (x1 : Nat) (x2 : Sys2Proof.Machine.EventRec) : (s.pushEvent x1 x2).ports = s.ports :=
  (does_pushEvent (m := 786434) (Eq.refl _) (Does.refl _ s)).frame .ports rfl
@[simp] theorem State.pushEvent_nodeReqs (s : State) (x1 : Nat) (x2 : Sys2Proof.Machine.EventRec) : (s.pushEvent x1 x2).nodeReqs = s.nodeReqs :=
  (does_pushEvent (m := 786434) (Eq.refl _) (Does.refl _ s)).frame .nodeReqs rfl
@[simp] theorem State.pushEvent_nodeTag (s : State) (x1 : Nat) (x2 : Sys2Proof.Machine.EventRec) : (s.pushEvent x1 x2).nodeTag = s.nodeTag :=
  (does_pushEvent (m := 786434) (Eq.refl _) (Does.refl _ s)).frame .nodeTag rfl
@[simp] theorem State.pushEvent_fabric (s : State) (x1 : Nat) (x2 : Sys2Proof.Machine.EventRec) : (s.pushEvent x1 x2).fabric = s.fabric :=
  (does_pushEvent (m := 786434) (Eq.refl _) (Does.refl _ s)).frame .fabric rfl
@[simp] theorem State.pushEvent_reqs (s : State) (x1 : Nat) (x2 : Sys2Proof.Machine.EventRec) : (s.pushEvent x1 x2).reqs = s.reqs :=
  (does_pushEvent (m := 786434) (Eq.refl _) (Does.refl _ s)).frame .reqs rfl
@[simp] theorem State.pushEvent_submitted (s : State) (x1 : Nat) (x2 : Sys2Proof.Machine.EventRec) : (s.pushEvent x1 x2).submitted = s.submitted :=
  (does_pushEvent (m := 786434) (Eq.refl _) (Does.refl _ s)).frame .submitted rfl
@[simp] theorem State.pushEvent_commands (s : State) (x1 : Nat) (x2 : Sys2Proof.Machine.EventRec) : (s.pushEvent x1 x2).commands = s.commands :=
  (does_pushEvent (m := 786434) (Eq.refl _) (Does.refl _ s)).frame .commands rfl
@[simp] theorem State.pushEvent_svs (s : State) (x1 : Nat) (x2 : Sys2Proof.Machine.EventRec) : (s.pushEvent x1 x2).svs = s.svs :=
  (does_pushEvent (m := 786434) (Eq.refl _) (Does.refl _ s)).frame .svs rfl
@[simp] theorem State.pushEvent_peps (s : State) (x1 : Nat) (x2 : Sys2Proof.Machine.EventRec) : (s.pushEvent x1 x2).peps = s.peps :=
  (does_pushEvent (m := 786434) (Eq.refl _) (Does.refl _ s)).frame .peps rfl
@[simp] theorem State.pushEvent_pepCur (s : State) (x1 : Nat) (x2 : Sys2Proof.Machine.EventRec) : (s.pushEvent x1 x2).pepCur = s.pepCur :=
  (does_pushEvent (m := 786434) (Eq.refl _) (Does.refl _ s)).frame .pepCur rfl
@[simp] theorem State.pushEvent_pageSeen (s : State) (x1 : Nat) (x2 : Sys2Proof.Machine.EventRec) : (s.pushEvent x1 x2).pageSeen = s.pageSeen :=
  (does_pushEvent (m := 786434) (Eq.refl _) (Does.refl _ s)).frame .pageSeen rfl
@[simp] theorem State.pushEvent_seqBad (s : State) (x1 : Nat) (x2 : Sys2Proof.Machine.EventRec) : (s.pushEvent x1 x2).seqBad = s.seqBad :=
  (does_pushEvent (m := 786434) (Eq.refl _) (Does.refl _ s)).frame .seqBad rfl
@[simp] theorem State.pushEvent_done (s : State) (x1 : Nat) (x2 : Sys2Proof.Machine.EventRec) : (s.pushEvent x1 x2).done = s.done :=
  (does_pushEvent (m := 786434) (Eq.refl _) (Does.refl _ s)).frame .done rfl
@[simp] theorem State.pushEvent_rdata (s : State) (x1 : Nat) (x2 : Sys2Proof.Machine.EventRec) : (s.pushEvent x1 x2).rdata = s.rdata :=
  (does_pushEvent (m := 786434) (Eq.refl _) (Does.refl _ s)).frame .rdata rfl
@[simp] theorem State.pushEvent_free (s : State) (x1 : Nat) (x2 : Sys2Proof.Machine.EventRec) : (s.pushEvent x1 x2).free = s.free :=
  (does_pushEvent (m := 786434) (Eq.refl _) (Does.refl _ s)).frame .free rfl
@[simp] theorem State.pushEvent_pending (s : State) (x1 : Nat) (x2 : Sys2Proof.Machine.EventRec) : (s.pushEvent x1 x2).pending = s.pending :=
  (does_pushEvent (m := 786434) (Eq.refl _) (Does.refl _ s)).frame .pending rfl
@[simp] theorem State.logErr_clk (s : State) (x1 : Sys2Proof.Machine.ErrRec) (x2 : List Nat) : (s.logErr x1 x2).clk = s.clk :=
  (does_logErr (m := 18446744073712697408) (Eq.refl _) (Does.refl _ s)).frame .clk rfl
@[simp] theorem State.logErr_regs (s : State) (x1 : Sys2Proof.Machine.ErrRec) (x2 : List Nat) : (s.logErr x1 x2).regs = s.regs :=
  (does_logErr (m := 18446744073712697408) (Eq.refl _) (Does.refl _ s)).frame .regs rfl
@[simp] theorem State.logErr_staged (s : State) (x1 : Sys2Proof.Machine.ErrRec) (x2 : List Nat) : (s.logErr x1 x2).staged = s.staged :=
  (does_logErr (m := 18446744073712697408) (Eq.refl _) (Does.refl _ s)).frame .staged rfl
@[simp] theorem State.logErr_mem (s : State) (x1 : Sys2Proof.Machine.ErrRec) (x2 : List Nat) : (s.logErr x1 x2).mem = s.mem :=
  (does_logErr (m := 18446744073712697408) (Eq.refl _) (Does.refl _ s)).frame .mem rfl
@[simp] theorem State.logErr_timers (s : State) (x1 : Sys2Proof.Machine.ErrRec) (x2 : List Nat) : (s.logErr x1 x2).timers = s.timers :=
  (does_logErr (m := 18446744073712697408) (Eq.refl _) (Does.refl _ s)).frame .timers rfl
@[simp] theorem State.logErr_ident (s : State) (x1 : Sys2Proof.Machine.ErrRec) (x2 : List Nat) : (s.logErr x1 x2).ident = s.ident :=
  (does_logErr (m := 18446744073712697408) (Eq.refl _) (Does.refl _ s)).frame .ident rfl
@[simp] theorem State.logErr_power (s : State) (x1 : Sys2Proof.Machine.ErrRec) (x2 : List Nat) : (s.logErr x1 x2).power = s.power :=
  (does_logErr (m := 18446744073712697408) (Eq.refl _) (Does.refl _ s)).frame .power rfl
@[simp] theorem State.logErr_time (s : State) (x1 : Sys2Proof.Machine.ErrRec) (x2 : List Nat) : (s.logErr x1 x2).time = s.time :=
  (does_logErr (m := 18446744073712697408) (Eq.refl _) (Does.refl _ s)).frame .time rfl
@[simp] theorem State.logErr_slots (s : State) (x1 : Sys2Proof.Machine.ErrRec) (x2 : List Nat) : (s.logErr x1 x2).slots = s.slots :=
  (does_logErr (m := 18446744073712697408) (Eq.refl _) (Does.refl _ s)).frame .slots rfl
@[simp] theorem State.logErr_schedLo (s : State) (x1 : Sys2Proof.Machine.ErrRec) (x2 : List Nat) : (s.logErr x1 x2).schedLo = s.schedLo :=
  (does_logErr (m := 18446744073712697408) (Eq.refl _) (Does.refl _ s)).frame .schedLo rfl
@[simp] theorem State.logErr_schedHi (s : State) (x1 : Sys2Proof.Machine.ErrRec) (x2 : List Nat) : (s.logErr x1 x2).schedHi = s.schedHi :=
  (does_logErr (m := 18446744073712697408) (Eq.refl _) (Does.refl _ s)).frame .schedHi rfl
@[simp] theorem State.logErr_ctrs (s : State) (x1 : Sys2Proof.Machine.ErrRec) (x2 : List Nat) : (s.logErr x1 x2).ctrs = s.ctrs :=
  (does_logErr (m := 18446744073712697408) (Eq.refl _) (Does.refl _ s)).frame .ctrs rfl
@[simp] theorem State.logErr_parts (s : State) (x1 : Sys2Proof.Machine.ErrRec) (x2 : List Nat) : (s.logErr x1 x2).parts = s.parts :=
  (does_logErr (m := 18446744073712697408) (Eq.refl _) (Does.refl _ s)).frame .parts rfl
@[simp] theorem State.logErr_doms (s : State) (x1 : Sys2Proof.Machine.ErrRec) (x2 : List Nat) : (s.logErr x1 x2).doms = s.doms :=
  (does_logErr (m := 18446744073712697408) (Eq.refl _) (Does.refl _ s)).frame .doms rfl
@[simp] theorem State.logErr_seqs (s : State) (x1 : Sys2Proof.Machine.ErrRec) (x2 : List Nat) : (s.logErr x1 x2).seqs = s.seqs :=
  (does_logErr (m := 18446744073712697408) (Eq.refl _) (Does.refl _ s)).frame .seqs rfl
@[simp] theorem State.logErr_regions (s : State) (x1 : Sys2Proof.Machine.ErrRec) (x2 : List Nat) : (s.logErr x1 x2).regions = s.regions :=
  (does_logErr (m := 18446744073712697408) (Eq.refl _) (Does.refl _ s)).frame .regions rfl
@[simp] theorem State.logErr_idleUntil (s : State) (x1 : Sys2Proof.Machine.ErrRec) (x2 : List Nat) : (s.logErr x1 x2).idleUntil = s.idleUntil :=
  (does_logErr (m := 18446744073712697408) (Eq.refl _) (Does.refl _ s)).frame .idleUntil rfl
@[simp] theorem State.logErr_evq (s : State) (x1 : Sys2Proof.Machine.ErrRec) (x2 : List Nat) : (s.logErr x1 x2).evq = s.evq :=
  (does_logErr (m := 18446744073712697408) (Eq.refl _) (Does.refl _ s)).frame .evq rfl
@[simp] theorem State.logErr_evLost (s : State) (x1 : Sys2Proof.Machine.ErrRec) (x2 : List Nat) : (s.logErr x1 x2).evLost = s.evLost :=
  (does_logErr (m := 18446744073712697408) (Eq.refl _) (Does.refl _ s)).frame .evLost rfl
@[simp] theorem State.logErr_out (s : State) (x1 : Sys2Proof.Machine.ErrRec) (x2 : List Nat) : (s.logErr x1 x2).out = s.out :=
  (does_logErr (m := 18446744073712697408) (Eq.refl _) (Does.refl _ s)).frame .out rfl
@[simp] theorem State.logErr_tolvys (s : State) (x1 : Sys2Proof.Machine.ErrRec) (x2 : List Nat) : (s.logErr x1 x2).tolvys = s.tolvys :=
  (does_logErr (m := 18446744073712697408) (Eq.refl _) (Does.refl _ s)).frame .tolvys rfl
@[simp] theorem State.logErr_stale (s : State) (x1 : Sys2Proof.Machine.ErrRec) (x2 : List Nat) : (s.logErr x1 x2).stale = s.stale :=
  (does_logErr (m := 18446744073712697408) (Eq.refl _) (Does.refl _ s)).frame .stale rfl
@[simp] theorem State.logErr_windows (s : State) (x1 : Sys2Proof.Machine.ErrRec) (x2 : List Nat) : (s.logErr x1 x2).windows = s.windows :=
  (does_logErr (m := 18446744073712697408) (Eq.refl _) (Does.refl _ s)).frame .windows rfl
@[simp] theorem State.logErr_wfOn (s : State) (x1 : Sys2Proof.Machine.ErrRec) (x2 : List Nat) : (s.logErr x1 x2).wfOn = s.wfOn :=
  (does_logErr (m := 18446744073712697408) (Eq.refl _) (Does.refl _ s)).frame .wfOn rfl
@[simp] theorem State.logErr_rowSlots (s : State) (x1 : Sys2Proof.Machine.ErrRec) (x2 : List Nat) : (s.logErr x1 x2).rowSlots = s.rowSlots :=
  (does_logErr (m := 18446744073712697408) (Eq.refl _) (Does.refl _ s)).frame .rowSlots rfl
@[simp] theorem State.logErr_bulk (s : State) (x1 : Sys2Proof.Machine.ErrRec) (x2 : List Nat) : (s.logErr x1 x2).bulk = s.bulk :=
  (does_logErr (m := 18446744073712697408) (Eq.refl _) (Does.refl _ s)).frame .bulk rfl
@[simp] theorem State.logErr_repairs (s : State) (x1 : Sys2Proof.Machine.ErrRec) (x2 : List Nat) : (s.logErr x1 x2).repairs = s.repairs :=
  (does_logErr (m := 18446744073712697408) (Eq.refl _) (Does.refl _ s)).frame .repairs rfl
@[simp] theorem State.logErr_igs (s : State) (x1 : Sys2Proof.Machine.ErrRec) (x2 : List Nat) : (s.logErr x1 x2).igs = s.igs :=
  (does_logErr (m := 18446744073712697408) (Eq.refl _) (Does.refl _ s)).frame .igs rfl
@[simp] theorem State.logErr_csSets (s : State) (x1 : Sys2Proof.Machine.ErrRec) (x2 : List Nat) : (s.logErr x1 x2).csSets = s.csSets :=
  (does_logErr (m := 18446744073712697408) (Eq.refl _) (Does.refl _ s)).frame .csSets rfl
@[simp] theorem State.logErr_screens (s : State) (x1 : Sys2Proof.Machine.ErrRec) (x2 : List Nat) : (s.logErr x1 x2).screens = s.screens :=
  (does_logErr (m := 18446744073712697408) (Eq.refl _) (Does.refl _ s)).frame .screens rfl
@[simp] theorem State.logErr_mace (s : State) (x1 : Sys2Proof.Machine.ErrRec) (x2 : List Nat) : (s.logErr x1 x2).mace = s.mace :=
  (does_logErr (m := 18446744073712697408) (Eq.refl _) (Does.refl _ s)).frame .mace rfl
@[simp] theorem State.logErr_digests (s : State) (x1 : Sys2Proof.Machine.ErrRec) (x2 : List Nat) : (s.logErr x1 x2).digests = s.digests :=
  (does_logErr (m := 18446744073712697408) (Eq.refl _) (Does.refl _ s)).frame .digests rfl
@[simp] theorem State.logErr_mboxes (s : State) (x1 : Sys2Proof.Machine.ErrRec) (x2 : List Nat) : (s.logErr x1 x2).mboxes = s.mboxes :=
  (does_logErr (m := 18446744073712697408) (Eq.refl _) (Does.refl _ s)).frame .mboxes rfl
@[simp] theorem State.logErr_retired (s : State) (x1 : Sys2Proof.Machine.ErrRec) (x2 : List Nat) : (s.logErr x1 x2).retired = s.retired :=
  (does_logErr (m := 18446744073712697408) (Eq.refl _) (Does.refl _ s)).frame .retired rfl
@[simp] theorem State.logErr_suspect (s : State) (x1 : Sys2Proof.Machine.ErrRec) (x2 : List Nat) : (s.logErr x1 x2).suspect = s.suspect :=
  (does_logErr (m := 18446744073712697408) (Eq.refl _) (Does.refl _ s)).frame .suspect rfl
@[simp] theorem State.logErr_tiles (s : State) (x1 : Sys2Proof.Machine.ErrRec) (x2 : List Nat) : (s.logErr x1 x2).tiles = s.tiles :=
  (does_logErr (m := 18446744073712697408) (Eq.refl _) (Does.refl _ s)).frame .tiles rfl
@[simp] theorem State.logErr_arrFmt (s : State) (x1 : Sys2Proof.Machine.ErrRec) (x2 : List Nat) : (s.logErr x1 x2).arrFmt = s.arrFmt :=
  (does_logErr (m := 18446744073712697408) (Eq.refl _) (Does.refl _ s)).frame .arrFmt rfl
@[simp] theorem State.logErr_tileTag (s : State) (x1 : Sys2Proof.Machine.ErrRec) (x2 : List Nat) : (s.logErr x1 x2).tileTag = s.tileTag :=
  (does_logErr (m := 18446744073712697408) (Eq.refl _) (Does.refl _ s)).frame .tileTag rfl
@[simp] theorem State.logErr_engFail (s : State) (x1 : Sys2Proof.Machine.ErrRec) (x2 : List Nat) : (s.logErr x1 x2).engFail = s.engFail :=
  (does_logErr (m := 18446744073712697408) (Eq.refl _) (Does.refl _ s)).frame .engFail rfl
@[simp] theorem State.logErr_clove (s : State) (x1 : Sys2Proof.Machine.ErrRec) (x2 : List Nat) : (s.logErr x1 x2).clove = s.clove :=
  (does_logErr (m := 18446744073712697408) (Eq.refl _) (Does.refl _ s)).frame .clove rfl
@[simp] theorem State.logErr_chainCur (s : State) (x1 : Sys2Proof.Machine.ErrRec) (x2 : List Nat) : (s.logErr x1 x2).chainCur = s.chainCur :=
  (does_logErr (m := 18446744073712697408) (Eq.refl _) (Does.refl _ s)).frame .chainCur rfl
@[simp] theorem State.logErr_profCur (s : State) (x1 : Sys2Proof.Machine.ErrRec) (x2 : List Nat) : (s.logErr x1 x2).profCur = s.profCur :=
  (does_logErr (m := 18446744073712697408) (Eq.refl _) (Does.refl _ s)).frame .profCur rfl
@[simp] theorem State.logErr_qslots (s : State) (x1 : Sys2Proof.Machine.ErrRec) (x2 : List Nat) : (s.logErr x1 x2).qslots = s.qslots :=
  (does_logErr (m := 18446744073712697408) (Eq.refl _) (Does.refl _ s)).frame .qslots rfl
@[simp] theorem State.logErr_attCfg (s : State) (x1 : Sys2Proof.Machine.ErrRec) (x2 : List Nat) : (s.logErr x1 x2).attCfg = s.attCfg :=
  (does_logErr (m := 18446744073712697408) (Eq.refl _) (Does.refl _ s)).frame .attCfg rfl
@[simp] theorem State.logErr_attSeq (s : State) (x1 : Sys2Proof.Machine.ErrRec) (x2 : List Nat) : (s.logErr x1 x2).attSeq = s.attSeq :=
  (does_logErr (m := 18446744073712697408) (Eq.refl _) (Does.refl _ s)).frame .attSeq rfl
@[simp] theorem State.logErr_xslots (s : State) (x1 : Sys2Proof.Machine.ErrRec) (x2 : List Nat) : (s.logErr x1 x2).xslots = s.xslots :=
  (does_logErr (m := 18446744073712697408) (Eq.refl _) (Does.refl _ s)).frame .xslots rfl
@[simp] theorem State.logErr_links (s : State) (x1 : Sys2Proof.Machine.ErrRec) (x2 : List Nat) : (s.logErr x1 x2).links = s.links :=
  (does_logErr (m := 18446744073712697408) (Eq.refl _) (Does.refl _ s)).frame .links rfl
@[simp] theorem State.logErr_ports (s : State) (x1 : Sys2Proof.Machine.ErrRec) (x2 : List Nat) : (s.logErr x1 x2).ports = s.ports :=
  (does_logErr (m := 18446744073712697408) (Eq.refl _) (Does.refl _ s)).frame .ports rfl
@[simp] theorem State.logErr_nodeReqs (s : State) (x1 : Sys2Proof.Machine.ErrRec) (x2 : List Nat) : (s.logErr x1 x2).nodeReqs = s.nodeReqs :=
  (does_logErr (m := 18446744073712697408) (Eq.refl _) (Does.refl _ s)).frame .nodeReqs rfl
@[simp] theorem State.logErr_nodeTag (s : State) (x1 : Sys2Proof.Machine.ErrRec) (x2 : List Nat) : (s.logErr x1 x2).nodeTag = s.nodeTag :=
  (does_logErr (m := 18446744073712697408) (Eq.refl _) (Does.refl _ s)).frame .nodeTag rfl
@[simp] theorem State.logErr_fabric (s : State) (x1 : Sys2Proof.Machine.ErrRec) (x2 : List Nat) : (s.logErr x1 x2).fabric = s.fabric :=
  (does_logErr (m := 18446744073712697408) (Eq.refl _) (Does.refl _ s)).frame .fabric rfl
@[simp] theorem State.logErr_reqs (s : State) (x1 : Sys2Proof.Machine.ErrRec) (x2 : List Nat) : (s.logErr x1 x2).reqs = s.reqs :=
  (does_logErr (m := 18446744073712697408) (Eq.refl _) (Does.refl _ s)).frame .reqs rfl
@[simp] theorem State.logErr_submitted (s : State) (x1 : Sys2Proof.Machine.ErrRec) (x2 : List Nat) : (s.logErr x1 x2).submitted = s.submitted :=
  (does_logErr (m := 18446744073712697408) (Eq.refl _) (Does.refl _ s)).frame .submitted rfl
@[simp] theorem State.logErr_commands (s : State) (x1 : Sys2Proof.Machine.ErrRec) (x2 : List Nat) : (s.logErr x1 x2).commands = s.commands :=
  (does_logErr (m := 18446744073712697408) (Eq.refl _) (Does.refl _ s)).frame .commands rfl
@[simp] theorem State.logErr_svs (s : State) (x1 : Sys2Proof.Machine.ErrRec) (x2 : List Nat) : (s.logErr x1 x2).svs = s.svs :=
  (does_logErr (m := 18446744073712697408) (Eq.refl _) (Does.refl _ s)).frame .svs rfl
@[simp] theorem State.logErr_peps (s : State) (x1 : Sys2Proof.Machine.ErrRec) (x2 : List Nat) : (s.logErr x1 x2).peps = s.peps :=
  (does_logErr (m := 18446744073712697408) (Eq.refl _) (Does.refl _ s)).frame .peps rfl
@[simp] theorem State.logErr_pepCur (s : State) (x1 : Sys2Proof.Machine.ErrRec) (x2 : List Nat) : (s.logErr x1 x2).pepCur = s.pepCur :=
  (does_logErr (m := 18446744073712697408) (Eq.refl _) (Does.refl _ s)).frame .pepCur rfl
@[simp] theorem State.logErr_pageSeen (s : State) (x1 : Sys2Proof.Machine.ErrRec) (x2 : List Nat) : (s.logErr x1 x2).pageSeen = s.pageSeen :=
  (does_logErr (m := 18446744073712697408) (Eq.refl _) (Does.refl _ s)).frame .pageSeen rfl
@[simp] theorem State.logErr_seqBad (s : State) (x1 : Sys2Proof.Machine.ErrRec) (x2 : List Nat) : (s.logErr x1 x2).seqBad = s.seqBad :=
  (does_logErr (m := 18446744073712697408) (Eq.refl _) (Does.refl _ s)).frame .seqBad rfl
@[simp] theorem State.logErr_done (s : State) (x1 : Sys2Proof.Machine.ErrRec) (x2 : List Nat) : (s.logErr x1 x2).done = s.done :=
  (does_logErr (m := 18446744073712697408) (Eq.refl _) (Does.refl _ s)).frame .done rfl
@[simp] theorem State.logErr_rdata (s : State) (x1 : Sys2Proof.Machine.ErrRec) (x2 : List Nat) : (s.logErr x1 x2).rdata = s.rdata :=
  (does_logErr (m := 18446744073712697408) (Eq.refl _) (Does.refl _ s)).frame .rdata rfl
@[simp] theorem State.logErr_pending (s : State) (x1 : Sys2Proof.Machine.ErrRec) (x2 : List Nat) : (s.logErr x1 x2).pending = s.pending :=
  (does_logErr (m := 18446744073712697408) (Eq.refl _) (Does.refl _ s)).frame .pending rfl
@[simp] theorem State.raise_clk (s : State) (x1 : Nat) (x2 : Nat) (x3 : optParam Sys2Proof.Machine.Raise { }) : (s.raise x1 x2 x3).clk = s.clk :=
  (does_raise (m := 18446744073713483842) (Eq.refl _) (Does.refl _ s)).frame .clk rfl
@[simp] theorem State.raise_staged (s : State) (x1 : Nat) (x2 : Nat) (x3 : optParam Sys2Proof.Machine.Raise { }) : (s.raise x1 x2 x3).staged = s.staged :=
  (does_raise (m := 18446744073713483842) (Eq.refl _) (Does.refl _ s)).frame .staged rfl
@[simp] theorem State.raise_mem (s : State) (x1 : Nat) (x2 : Nat) (x3 : optParam Sys2Proof.Machine.Raise { }) : (s.raise x1 x2 x3).mem = s.mem :=
  (does_raise (m := 18446744073713483842) (Eq.refl _) (Does.refl _ s)).frame .mem rfl
@[simp] theorem State.raise_timers (s : State) (x1 : Nat) (x2 : Nat) (x3 : optParam Sys2Proof.Machine.Raise { }) : (s.raise x1 x2 x3).timers = s.timers :=
  (does_raise (m := 18446744073713483842) (Eq.refl _) (Does.refl _ s)).frame .timers rfl
@[simp] theorem State.raise_ident (s : State) (x1 : Nat) (x2 : Nat) (x3 : optParam Sys2Proof.Machine.Raise { }) : (s.raise x1 x2 x3).ident = s.ident :=
  (does_raise (m := 18446744073713483842) (Eq.refl _) (Does.refl _ s)).frame .ident rfl
@[simp] theorem State.raise_power (s : State) (x1 : Nat) (x2 : Nat) (x3 : optParam Sys2Proof.Machine.Raise { }) : (s.raise x1 x2 x3).power = s.power :=
  (does_raise (m := 18446744073713483842) (Eq.refl _) (Does.refl _ s)).frame .power rfl
@[simp] theorem State.raise_time (s : State) (x1 : Nat) (x2 : Nat) (x3 : optParam Sys2Proof.Machine.Raise { }) : (s.raise x1 x2 x3).time = s.time :=
  (does_raise (m := 18446744073713483842) (Eq.refl _) (Does.refl _ s)).frame .time rfl
@[simp] theorem State.raise_slots (s : State) (x1 : Nat) (x2 : Nat) (x3 : optParam Sys2Proof.Machine.Raise { }) : (s.raise x1 x2 x3).slots = s.slots :=
  (does_raise (m := 18446744073713483842) (Eq.refl _) (Does.refl _ s)).frame .slots rfl
@[simp] theorem State.raise_schedLo (s : State) (x1 : Nat) (x2 : Nat) (x3 : optParam Sys2Proof.Machine.Raise { }) : (s.raise x1 x2 x3).schedLo = s.schedLo :=
  (does_raise (m := 18446744073713483842) (Eq.refl _) (Does.refl _ s)).frame .schedLo rfl
@[simp] theorem State.raise_schedHi (s : State) (x1 : Nat) (x2 : Nat) (x3 : optParam Sys2Proof.Machine.Raise { }) : (s.raise x1 x2 x3).schedHi = s.schedHi :=
  (does_raise (m := 18446744073713483842) (Eq.refl _) (Does.refl _ s)).frame .schedHi rfl
@[simp] theorem State.raise_ctrs (s : State) (x1 : Nat) (x2 : Nat) (x3 : optParam Sys2Proof.Machine.Raise { }) : (s.raise x1 x2 x3).ctrs = s.ctrs :=
  (does_raise (m := 18446744073713483842) (Eq.refl _) (Does.refl _ s)).frame .ctrs rfl
@[simp] theorem State.raise_parts (s : State) (x1 : Nat) (x2 : Nat) (x3 : optParam Sys2Proof.Machine.Raise { }) : (s.raise x1 x2 x3).parts = s.parts :=
  (does_raise (m := 18446744073713483842) (Eq.refl _) (Does.refl _ s)).frame .parts rfl
@[simp] theorem State.raise_doms (s : State) (x1 : Nat) (x2 : Nat) (x3 : optParam Sys2Proof.Machine.Raise { }) : (s.raise x1 x2 x3).doms = s.doms :=
  (does_raise (m := 18446744073713483842) (Eq.refl _) (Does.refl _ s)).frame .doms rfl
@[simp] theorem State.raise_seqs (s : State) (x1 : Nat) (x2 : Nat) (x3 : optParam Sys2Proof.Machine.Raise { }) : (s.raise x1 x2 x3).seqs = s.seqs :=
  (does_raise (m := 18446744073713483842) (Eq.refl _) (Does.refl _ s)).frame .seqs rfl
@[simp] theorem State.raise_regions (s : State) (x1 : Nat) (x2 : Nat) (x3 : optParam Sys2Proof.Machine.Raise { }) : (s.raise x1 x2 x3).regions = s.regions :=
  (does_raise (m := 18446744073713483842) (Eq.refl _) (Does.refl _ s)).frame .regions rfl
@[simp] theorem State.raise_idleUntil (s : State) (x1 : Nat) (x2 : Nat) (x3 : optParam Sys2Proof.Machine.Raise { }) : (s.raise x1 x2 x3).idleUntil = s.idleUntil :=
  (does_raise (m := 18446744073713483842) (Eq.refl _) (Does.refl _ s)).frame .idleUntil rfl
@[simp] theorem State.raise_out (s : State) (x1 : Nat) (x2 : Nat) (x3 : optParam Sys2Proof.Machine.Raise { }) : (s.raise x1 x2 x3).out = s.out :=
  (does_raise (m := 18446744073713483842) (Eq.refl _) (Does.refl _ s)).frame .out rfl
@[simp] theorem State.raise_tolvys (s : State) (x1 : Nat) (x2 : Nat) (x3 : optParam Sys2Proof.Machine.Raise { }) : (s.raise x1 x2 x3).tolvys = s.tolvys :=
  (does_raise (m := 18446744073713483842) (Eq.refl _) (Does.refl _ s)).frame .tolvys rfl
@[simp] theorem State.raise_stale (s : State) (x1 : Nat) (x2 : Nat) (x3 : optParam Sys2Proof.Machine.Raise { }) : (s.raise x1 x2 x3).stale = s.stale :=
  (does_raise (m := 18446744073713483842) (Eq.refl _) (Does.refl _ s)).frame .stale rfl
@[simp] theorem State.raise_windows (s : State) (x1 : Nat) (x2 : Nat) (x3 : optParam Sys2Proof.Machine.Raise { }) : (s.raise x1 x2 x3).windows = s.windows :=
  (does_raise (m := 18446744073713483842) (Eq.refl _) (Does.refl _ s)).frame .windows rfl
@[simp] theorem State.raise_wfOn (s : State) (x1 : Nat) (x2 : Nat) (x3 : optParam Sys2Proof.Machine.Raise { }) : (s.raise x1 x2 x3).wfOn = s.wfOn :=
  (does_raise (m := 18446744073713483842) (Eq.refl _) (Does.refl _ s)).frame .wfOn rfl
@[simp] theorem State.raise_rowSlots (s : State) (x1 : Nat) (x2 : Nat) (x3 : optParam Sys2Proof.Machine.Raise { }) : (s.raise x1 x2 x3).rowSlots = s.rowSlots :=
  (does_raise (m := 18446744073713483842) (Eq.refl _) (Does.refl _ s)).frame .rowSlots rfl
@[simp] theorem State.raise_bulk (s : State) (x1 : Nat) (x2 : Nat) (x3 : optParam Sys2Proof.Machine.Raise { }) : (s.raise x1 x2 x3).bulk = s.bulk :=
  (does_raise (m := 18446744073713483842) (Eq.refl _) (Does.refl _ s)).frame .bulk rfl
@[simp] theorem State.raise_repairs (s : State) (x1 : Nat) (x2 : Nat) (x3 : optParam Sys2Proof.Machine.Raise { }) : (s.raise x1 x2 x3).repairs = s.repairs :=
  (does_raise (m := 18446744073713483842) (Eq.refl _) (Does.refl _ s)).frame .repairs rfl
@[simp] theorem State.raise_igs (s : State) (x1 : Nat) (x2 : Nat) (x3 : optParam Sys2Proof.Machine.Raise { }) : (s.raise x1 x2 x3).igs = s.igs :=
  (does_raise (m := 18446744073713483842) (Eq.refl _) (Does.refl _ s)).frame .igs rfl
@[simp] theorem State.raise_csSets (s : State) (x1 : Nat) (x2 : Nat) (x3 : optParam Sys2Proof.Machine.Raise { }) : (s.raise x1 x2 x3).csSets = s.csSets :=
  (does_raise (m := 18446744073713483842) (Eq.refl _) (Does.refl _ s)).frame .csSets rfl
@[simp] theorem State.raise_screens (s : State) (x1 : Nat) (x2 : Nat) (x3 : optParam Sys2Proof.Machine.Raise { }) : (s.raise x1 x2 x3).screens = s.screens :=
  (does_raise (m := 18446744073713483842) (Eq.refl _) (Does.refl _ s)).frame .screens rfl
@[simp] theorem State.raise_mace (s : State) (x1 : Nat) (x2 : Nat) (x3 : optParam Sys2Proof.Machine.Raise { }) : (s.raise x1 x2 x3).mace = s.mace :=
  (does_raise (m := 18446744073713483842) (Eq.refl _) (Does.refl _ s)).frame .mace rfl
@[simp] theorem State.raise_digests (s : State) (x1 : Nat) (x2 : Nat) (x3 : optParam Sys2Proof.Machine.Raise { }) : (s.raise x1 x2 x3).digests = s.digests :=
  (does_raise (m := 18446744073713483842) (Eq.refl _) (Does.refl _ s)).frame .digests rfl
@[simp] theorem State.raise_mboxes (s : State) (x1 : Nat) (x2 : Nat) (x3 : optParam Sys2Proof.Machine.Raise { }) : (s.raise x1 x2 x3).mboxes = s.mboxes :=
  (does_raise (m := 18446744073713483842) (Eq.refl _) (Does.refl _ s)).frame .mboxes rfl
@[simp] theorem State.raise_retired (s : State) (x1 : Nat) (x2 : Nat) (x3 : optParam Sys2Proof.Machine.Raise { }) : (s.raise x1 x2 x3).retired = s.retired :=
  (does_raise (m := 18446744073713483842) (Eq.refl _) (Does.refl _ s)).frame .retired rfl
@[simp] theorem State.raise_suspect (s : State) (x1 : Nat) (x2 : Nat) (x3 : optParam Sys2Proof.Machine.Raise { }) : (s.raise x1 x2 x3).suspect = s.suspect :=
  (does_raise (m := 18446744073713483842) (Eq.refl _) (Does.refl _ s)).frame .suspect rfl
@[simp] theorem State.raise_tiles (s : State) (x1 : Nat) (x2 : Nat) (x3 : optParam Sys2Proof.Machine.Raise { }) : (s.raise x1 x2 x3).tiles = s.tiles :=
  (does_raise (m := 18446744073713483842) (Eq.refl _) (Does.refl _ s)).frame .tiles rfl
@[simp] theorem State.raise_arrFmt (s : State) (x1 : Nat) (x2 : Nat) (x3 : optParam Sys2Proof.Machine.Raise { }) : (s.raise x1 x2 x3).arrFmt = s.arrFmt :=
  (does_raise (m := 18446744073713483842) (Eq.refl _) (Does.refl _ s)).frame .arrFmt rfl
@[simp] theorem State.raise_tileTag (s : State) (x1 : Nat) (x2 : Nat) (x3 : optParam Sys2Proof.Machine.Raise { }) : (s.raise x1 x2 x3).tileTag = s.tileTag :=
  (does_raise (m := 18446744073713483842) (Eq.refl _) (Does.refl _ s)).frame .tileTag rfl
@[simp] theorem State.raise_engFail (s : State) (x1 : Nat) (x2 : Nat) (x3 : optParam Sys2Proof.Machine.Raise { }) : (s.raise x1 x2 x3).engFail = s.engFail :=
  (does_raise (m := 18446744073713483842) (Eq.refl _) (Does.refl _ s)).frame .engFail rfl
@[simp] theorem State.raise_clove (s : State) (x1 : Nat) (x2 : Nat) (x3 : optParam Sys2Proof.Machine.Raise { }) : (s.raise x1 x2 x3).clove = s.clove :=
  (does_raise (m := 18446744073713483842) (Eq.refl _) (Does.refl _ s)).frame .clove rfl
@[simp] theorem State.raise_chainCur (s : State) (x1 : Nat) (x2 : Nat) (x3 : optParam Sys2Proof.Machine.Raise { }) : (s.raise x1 x2 x3).chainCur = s.chainCur :=
  (does_raise (m := 18446744073713483842) (Eq.refl _) (Does.refl _ s)).frame .chainCur rfl
@[simp] theorem State.raise_profCur (s : State) (x1 : Nat) (x2 : Nat) (x3 : optParam Sys2Proof.Machine.Raise { }) : (s.raise x1 x2 x3).profCur = s.profCur :=
  (does_raise (m := 18446744073713483842) (Eq.refl _) (Does.refl _ s)).frame .profCur rfl
@[simp] theorem State.raise_qslots (s : State) (x1 : Nat) (x2 : Nat) (x3 : optParam Sys2Proof.Machine.Raise { }) : (s.raise x1 x2 x3).qslots = s.qslots :=
  (does_raise (m := 18446744073713483842) (Eq.refl _) (Does.refl _ s)).frame .qslots rfl
@[simp] theorem State.raise_attCfg (s : State) (x1 : Nat) (x2 : Nat) (x3 : optParam Sys2Proof.Machine.Raise { }) : (s.raise x1 x2 x3).attCfg = s.attCfg :=
  (does_raise (m := 18446744073713483842) (Eq.refl _) (Does.refl _ s)).frame .attCfg rfl
@[simp] theorem State.raise_attSeq (s : State) (x1 : Nat) (x2 : Nat) (x3 : optParam Sys2Proof.Machine.Raise { }) : (s.raise x1 x2 x3).attSeq = s.attSeq :=
  (does_raise (m := 18446744073713483842) (Eq.refl _) (Does.refl _ s)).frame .attSeq rfl
@[simp] theorem State.raise_xslots (s : State) (x1 : Nat) (x2 : Nat) (x3 : optParam Sys2Proof.Machine.Raise { }) : (s.raise x1 x2 x3).xslots = s.xslots :=
  (does_raise (m := 18446744073713483842) (Eq.refl _) (Does.refl _ s)).frame .xslots rfl
@[simp] theorem State.raise_links (s : State) (x1 : Nat) (x2 : Nat) (x3 : optParam Sys2Proof.Machine.Raise { }) : (s.raise x1 x2 x3).links = s.links :=
  (does_raise (m := 18446744073713483842) (Eq.refl _) (Does.refl _ s)).frame .links rfl
@[simp] theorem State.raise_ports (s : State) (x1 : Nat) (x2 : Nat) (x3 : optParam Sys2Proof.Machine.Raise { }) : (s.raise x1 x2 x3).ports = s.ports :=
  (does_raise (m := 18446744073713483842) (Eq.refl _) (Does.refl _ s)).frame .ports rfl
@[simp] theorem State.raise_nodeReqs (s : State) (x1 : Nat) (x2 : Nat) (x3 : optParam Sys2Proof.Machine.Raise { }) : (s.raise x1 x2 x3).nodeReqs = s.nodeReqs :=
  (does_raise (m := 18446744073713483842) (Eq.refl _) (Does.refl _ s)).frame .nodeReqs rfl
@[simp] theorem State.raise_nodeTag (s : State) (x1 : Nat) (x2 : Nat) (x3 : optParam Sys2Proof.Machine.Raise { }) : (s.raise x1 x2 x3).nodeTag = s.nodeTag :=
  (does_raise (m := 18446744073713483842) (Eq.refl _) (Does.refl _ s)).frame .nodeTag rfl
@[simp] theorem State.raise_fabric (s : State) (x1 : Nat) (x2 : Nat) (x3 : optParam Sys2Proof.Machine.Raise { }) : (s.raise x1 x2 x3).fabric = s.fabric :=
  (does_raise (m := 18446744073713483842) (Eq.refl _) (Does.refl _ s)).frame .fabric rfl
@[simp] theorem State.raise_reqs (s : State) (x1 : Nat) (x2 : Nat) (x3 : optParam Sys2Proof.Machine.Raise { }) : (s.raise x1 x2 x3).reqs = s.reqs :=
  (does_raise (m := 18446744073713483842) (Eq.refl _) (Does.refl _ s)).frame .reqs rfl
@[simp] theorem State.raise_submitted (s : State) (x1 : Nat) (x2 : Nat) (x3 : optParam Sys2Proof.Machine.Raise { }) : (s.raise x1 x2 x3).submitted = s.submitted :=
  (does_raise (m := 18446744073713483842) (Eq.refl _) (Does.refl _ s)).frame .submitted rfl
@[simp] theorem State.raise_commands (s : State) (x1 : Nat) (x2 : Nat) (x3 : optParam Sys2Proof.Machine.Raise { }) : (s.raise x1 x2 x3).commands = s.commands :=
  (does_raise (m := 18446744073713483842) (Eq.refl _) (Does.refl _ s)).frame .commands rfl
@[simp] theorem State.raise_svs (s : State) (x1 : Nat) (x2 : Nat) (x3 : optParam Sys2Proof.Machine.Raise { }) : (s.raise x1 x2 x3).svs = s.svs :=
  (does_raise (m := 18446744073713483842) (Eq.refl _) (Does.refl _ s)).frame .svs rfl
@[simp] theorem State.raise_peps (s : State) (x1 : Nat) (x2 : Nat) (x3 : optParam Sys2Proof.Machine.Raise { }) : (s.raise x1 x2 x3).peps = s.peps :=
  (does_raise (m := 18446744073713483842) (Eq.refl _) (Does.refl _ s)).frame .peps rfl
@[simp] theorem State.raise_pepCur (s : State) (x1 : Nat) (x2 : Nat) (x3 : optParam Sys2Proof.Machine.Raise { }) : (s.raise x1 x2 x3).pepCur = s.pepCur :=
  (does_raise (m := 18446744073713483842) (Eq.refl _) (Does.refl _ s)).frame .pepCur rfl
@[simp] theorem State.raise_pageSeen (s : State) (x1 : Nat) (x2 : Nat) (x3 : optParam Sys2Proof.Machine.Raise { }) : (s.raise x1 x2 x3).pageSeen = s.pageSeen :=
  (does_raise (m := 18446744073713483842) (Eq.refl _) (Does.refl _ s)).frame .pageSeen rfl
@[simp] theorem State.raise_seqBad (s : State) (x1 : Nat) (x2 : Nat) (x3 : optParam Sys2Proof.Machine.Raise { }) : (s.raise x1 x2 x3).seqBad = s.seqBad :=
  (does_raise (m := 18446744073713483842) (Eq.refl _) (Does.refl _ s)).frame .seqBad rfl
@[simp] theorem State.raise_done (s : State) (x1 : Nat) (x2 : Nat) (x3 : optParam Sys2Proof.Machine.Raise { }) : (s.raise x1 x2 x3).done = s.done :=
  (does_raise (m := 18446744073713483842) (Eq.refl _) (Does.refl _ s)).frame .done rfl
@[simp] theorem State.raise_rdata (s : State) (x1 : Nat) (x2 : Nat) (x3 : optParam Sys2Proof.Machine.Raise { }) : (s.raise x1 x2 x3).rdata = s.rdata :=
  (does_raise (m := 18446744073713483842) (Eq.refl _) (Does.refl _ s)).frame .rdata rfl
@[simp] theorem State.raise_pending (s : State) (x1 : Nat) (x2 : Nat) (x3 : optParam Sys2Proof.Machine.Raise { }) : (s.raise x1 x2 x3).pending = s.pending :=
  (does_raise (m := 18446744073713483842) (Eq.refl _) (Does.refl _ s)).frame .pending rfl
@[simp] theorem State.raiseSlot_clk (s : State) (x1 : Nat) (x2 : Nat) (x3 : Nat) : (s.raiseSlot x1 x2 x3).clk = s.clk :=
  (does_raiseSlot (m := 786434) (Eq.refl _) (Does.refl _ s)).frame .clk rfl
@[simp] theorem State.raiseSlot_staged (s : State) (x1 : Nat) (x2 : Nat) (x3 : Nat) : (s.raiseSlot x1 x2 x3).staged = s.staged :=
  (does_raiseSlot (m := 786434) (Eq.refl _) (Does.refl _ s)).frame .staged rfl
@[simp] theorem State.raiseSlot_mem (s : State) (x1 : Nat) (x2 : Nat) (x3 : Nat) : (s.raiseSlot x1 x2 x3).mem = s.mem :=
  (does_raiseSlot (m := 786434) (Eq.refl _) (Does.refl _ s)).frame .mem rfl
@[simp] theorem State.raiseSlot_timers (s : State) (x1 : Nat) (x2 : Nat) (x3 : Nat) : (s.raiseSlot x1 x2 x3).timers = s.timers :=
  (does_raiseSlot (m := 786434) (Eq.refl _) (Does.refl _ s)).frame .timers rfl
@[simp] theorem State.raiseSlot_ident (s : State) (x1 : Nat) (x2 : Nat) (x3 : Nat) : (s.raiseSlot x1 x2 x3).ident = s.ident :=
  (does_raiseSlot (m := 786434) (Eq.refl _) (Does.refl _ s)).frame .ident rfl
@[simp] theorem State.raiseSlot_boot (s : State) (x1 : Nat) (x2 : Nat) (x3 : Nat) : (s.raiseSlot x1 x2 x3).boot = s.boot :=
  (does_raiseSlot (m := 786434) (Eq.refl _) (Does.refl _ s)).frame .boot rfl
@[simp] theorem State.raiseSlot_power (s : State) (x1 : Nat) (x2 : Nat) (x3 : Nat) : (s.raiseSlot x1 x2 x3).power = s.power :=
  (does_raiseSlot (m := 786434) (Eq.refl _) (Does.refl _ s)).frame .power rfl
@[simp] theorem State.raiseSlot_time (s : State) (x1 : Nat) (x2 : Nat) (x3 : Nat) : (s.raiseSlot x1 x2 x3).time = s.time :=
  (does_raiseSlot (m := 786434) (Eq.refl _) (Does.refl _ s)).frame .time rfl
@[simp] theorem State.raiseSlot_slots (s : State) (x1 : Nat) (x2 : Nat) (x3 : Nat) : (s.raiseSlot x1 x2 x3).slots = s.slots :=
  (does_raiseSlot (m := 786434) (Eq.refl _) (Does.refl _ s)).frame .slots rfl
@[simp] theorem State.raiseSlot_schedLo (s : State) (x1 : Nat) (x2 : Nat) (x3 : Nat) : (s.raiseSlot x1 x2 x3).schedLo = s.schedLo :=
  (does_raiseSlot (m := 786434) (Eq.refl _) (Does.refl _ s)).frame .schedLo rfl
@[simp] theorem State.raiseSlot_schedHi (s : State) (x1 : Nat) (x2 : Nat) (x3 : Nat) : (s.raiseSlot x1 x2 x3).schedHi = s.schedHi :=
  (does_raiseSlot (m := 786434) (Eq.refl _) (Does.refl _ s)).frame .schedHi rfl
@[simp] theorem State.raiseSlot_ctrs (s : State) (x1 : Nat) (x2 : Nat) (x3 : Nat) : (s.raiseSlot x1 x2 x3).ctrs = s.ctrs :=
  (does_raiseSlot (m := 786434) (Eq.refl _) (Does.refl _ s)).frame .ctrs rfl
@[simp] theorem State.raiseSlot_parts (s : State) (x1 : Nat) (x2 : Nat) (x3 : Nat) : (s.raiseSlot x1 x2 x3).parts = s.parts :=
  (does_raiseSlot (m := 786434) (Eq.refl _) (Does.refl _ s)).frame .parts rfl
@[simp] theorem State.raiseSlot_doms (s : State) (x1 : Nat) (x2 : Nat) (x3 : Nat) : (s.raiseSlot x1 x2 x3).doms = s.doms :=
  (does_raiseSlot (m := 786434) (Eq.refl _) (Does.refl _ s)).frame .doms rfl
@[simp] theorem State.raiseSlot_seqs (s : State) (x1 : Nat) (x2 : Nat) (x3 : Nat) : (s.raiseSlot x1 x2 x3).seqs = s.seqs :=
  (does_raiseSlot (m := 786434) (Eq.refl _) (Does.refl _ s)).frame .seqs rfl
@[simp] theorem State.raiseSlot_regions (s : State) (x1 : Nat) (x2 : Nat) (x3 : Nat) : (s.raiseSlot x1 x2 x3).regions = s.regions :=
  (does_raiseSlot (m := 786434) (Eq.refl _) (Does.refl _ s)).frame .regions rfl
@[simp] theorem State.raiseSlot_idleUntil (s : State) (x1 : Nat) (x2 : Nat) (x3 : Nat) : (s.raiseSlot x1 x2 x3).idleUntil = s.idleUntil :=
  (does_raiseSlot (m := 786434) (Eq.refl _) (Does.refl _ s)).frame .idleUntil rfl
@[simp] theorem State.raiseSlot_log (s : State) (x1 : Nat) (x2 : Nat) (x3 : Nat) : (s.raiseSlot x1 x2 x3).log = s.log :=
  (does_raiseSlot (m := 786434) (Eq.refl _) (Does.refl _ s)).frame .log rfl
@[simp] theorem State.raiseSlot_logNext (s : State) (x1 : Nat) (x2 : Nat) (x3 : Nat) : (s.raiseSlot x1 x2 x3).logNext = s.logNext :=
  (does_raiseSlot (m := 786434) (Eq.refl _) (Does.refl _ s)).frame .logNext rfl
@[simp] theorem State.raiseSlot_out (s : State) (x1 : Nat) (x2 : Nat) (x3 : Nat) : (s.raiseSlot x1 x2 x3).out = s.out :=
  (does_raiseSlot (m := 786434) (Eq.refl _) (Does.refl _ s)).frame .out rfl
@[simp] theorem State.raiseSlot_tolvys (s : State) (x1 : Nat) (x2 : Nat) (x3 : Nat) : (s.raiseSlot x1 x2 x3).tolvys = s.tolvys :=
  (does_raiseSlot (m := 786434) (Eq.refl _) (Does.refl _ s)).frame .tolvys rfl
@[simp] theorem State.raiseSlot_stale (s : State) (x1 : Nat) (x2 : Nat) (x3 : Nat) : (s.raiseSlot x1 x2 x3).stale = s.stale :=
  (does_raiseSlot (m := 786434) (Eq.refl _) (Does.refl _ s)).frame .stale rfl
@[simp] theorem State.raiseSlot_windows (s : State) (x1 : Nat) (x2 : Nat) (x3 : Nat) : (s.raiseSlot x1 x2 x3).windows = s.windows :=
  (does_raiseSlot (m := 786434) (Eq.refl _) (Does.refl _ s)).frame .windows rfl
@[simp] theorem State.raiseSlot_wfOn (s : State) (x1 : Nat) (x2 : Nat) (x3 : Nat) : (s.raiseSlot x1 x2 x3).wfOn = s.wfOn :=
  (does_raiseSlot (m := 786434) (Eq.refl _) (Does.refl _ s)).frame .wfOn rfl
@[simp] theorem State.raiseSlot_rowSlots (s : State) (x1 : Nat) (x2 : Nat) (x3 : Nat) : (s.raiseSlot x1 x2 x3).rowSlots = s.rowSlots :=
  (does_raiseSlot (m := 786434) (Eq.refl _) (Does.refl _ s)).frame .rowSlots rfl
@[simp] theorem State.raiseSlot_bulk (s : State) (x1 : Nat) (x2 : Nat) (x3 : Nat) : (s.raiseSlot x1 x2 x3).bulk = s.bulk :=
  (does_raiseSlot (m := 786434) (Eq.refl _) (Does.refl _ s)).frame .bulk rfl
@[simp] theorem State.raiseSlot_repairs (s : State) (x1 : Nat) (x2 : Nat) (x3 : Nat) : (s.raiseSlot x1 x2 x3).repairs = s.repairs :=
  (does_raiseSlot (m := 786434) (Eq.refl _) (Does.refl _ s)).frame .repairs rfl
@[simp] theorem State.raiseSlot_igs (s : State) (x1 : Nat) (x2 : Nat) (x3 : Nat) : (s.raiseSlot x1 x2 x3).igs = s.igs :=
  (does_raiseSlot (m := 786434) (Eq.refl _) (Does.refl _ s)).frame .igs rfl
@[simp] theorem State.raiseSlot_csSets (s : State) (x1 : Nat) (x2 : Nat) (x3 : Nat) : (s.raiseSlot x1 x2 x3).csSets = s.csSets :=
  (does_raiseSlot (m := 786434) (Eq.refl _) (Does.refl _ s)).frame .csSets rfl
@[simp] theorem State.raiseSlot_screens (s : State) (x1 : Nat) (x2 : Nat) (x3 : Nat) : (s.raiseSlot x1 x2 x3).screens = s.screens :=
  (does_raiseSlot (m := 786434) (Eq.refl _) (Does.refl _ s)).frame .screens rfl
@[simp] theorem State.raiseSlot_mace (s : State) (x1 : Nat) (x2 : Nat) (x3 : Nat) : (s.raiseSlot x1 x2 x3).mace = s.mace :=
  (does_raiseSlot (m := 786434) (Eq.refl _) (Does.refl _ s)).frame .mace rfl
@[simp] theorem State.raiseSlot_digests (s : State) (x1 : Nat) (x2 : Nat) (x3 : Nat) : (s.raiseSlot x1 x2 x3).digests = s.digests :=
  (does_raiseSlot (m := 786434) (Eq.refl _) (Does.refl _ s)).frame .digests rfl
@[simp] theorem State.raiseSlot_mboxes (s : State) (x1 : Nat) (x2 : Nat) (x3 : Nat) : (s.raiseSlot x1 x2 x3).mboxes = s.mboxes :=
  (does_raiseSlot (m := 786434) (Eq.refl _) (Does.refl _ s)).frame .mboxes rfl
@[simp] theorem State.raiseSlot_retired (s : State) (x1 : Nat) (x2 : Nat) (x3 : Nat) : (s.raiseSlot x1 x2 x3).retired = s.retired :=
  (does_raiseSlot (m := 786434) (Eq.refl _) (Does.refl _ s)).frame .retired rfl
@[simp] theorem State.raiseSlot_suspect (s : State) (x1 : Nat) (x2 : Nat) (x3 : Nat) : (s.raiseSlot x1 x2 x3).suspect = s.suspect :=
  (does_raiseSlot (m := 786434) (Eq.refl _) (Does.refl _ s)).frame .suspect rfl
@[simp] theorem State.raiseSlot_tiles (s : State) (x1 : Nat) (x2 : Nat) (x3 : Nat) : (s.raiseSlot x1 x2 x3).tiles = s.tiles :=
  (does_raiseSlot (m := 786434) (Eq.refl _) (Does.refl _ s)).frame .tiles rfl
@[simp] theorem State.raiseSlot_arrFmt (s : State) (x1 : Nat) (x2 : Nat) (x3 : Nat) : (s.raiseSlot x1 x2 x3).arrFmt = s.arrFmt :=
  (does_raiseSlot (m := 786434) (Eq.refl _) (Does.refl _ s)).frame .arrFmt rfl
@[simp] theorem State.raiseSlot_tileTag (s : State) (x1 : Nat) (x2 : Nat) (x3 : Nat) : (s.raiseSlot x1 x2 x3).tileTag = s.tileTag :=
  (does_raiseSlot (m := 786434) (Eq.refl _) (Does.refl _ s)).frame .tileTag rfl
@[simp] theorem State.raiseSlot_engFail (s : State) (x1 : Nat) (x2 : Nat) (x3 : Nat) : (s.raiseSlot x1 x2 x3).engFail = s.engFail :=
  (does_raiseSlot (m := 786434) (Eq.refl _) (Does.refl _ s)).frame .engFail rfl
@[simp] theorem State.raiseSlot_clove (s : State) (x1 : Nat) (x2 : Nat) (x3 : Nat) : (s.raiseSlot x1 x2 x3).clove = s.clove :=
  (does_raiseSlot (m := 786434) (Eq.refl _) (Does.refl _ s)).frame .clove rfl
@[simp] theorem State.raiseSlot_chainCur (s : State) (x1 : Nat) (x2 : Nat) (x3 : Nat) : (s.raiseSlot x1 x2 x3).chainCur = s.chainCur :=
  (does_raiseSlot (m := 786434) (Eq.refl _) (Does.refl _ s)).frame .chainCur rfl
@[simp] theorem State.raiseSlot_profCur (s : State) (x1 : Nat) (x2 : Nat) (x3 : Nat) : (s.raiseSlot x1 x2 x3).profCur = s.profCur :=
  (does_raiseSlot (m := 786434) (Eq.refl _) (Does.refl _ s)).frame .profCur rfl
@[simp] theorem State.raiseSlot_qslots (s : State) (x1 : Nat) (x2 : Nat) (x3 : Nat) : (s.raiseSlot x1 x2 x3).qslots = s.qslots :=
  (does_raiseSlot (m := 786434) (Eq.refl _) (Does.refl _ s)).frame .qslots rfl
@[simp] theorem State.raiseSlot_attCfg (s : State) (x1 : Nat) (x2 : Nat) (x3 : Nat) : (s.raiseSlot x1 x2 x3).attCfg = s.attCfg :=
  (does_raiseSlot (m := 786434) (Eq.refl _) (Does.refl _ s)).frame .attCfg rfl
@[simp] theorem State.raiseSlot_attSeq (s : State) (x1 : Nat) (x2 : Nat) (x3 : Nat) : (s.raiseSlot x1 x2 x3).attSeq = s.attSeq :=
  (does_raiseSlot (m := 786434) (Eq.refl _) (Does.refl _ s)).frame .attSeq rfl
@[simp] theorem State.raiseSlot_xslots (s : State) (x1 : Nat) (x2 : Nat) (x3 : Nat) : (s.raiseSlot x1 x2 x3).xslots = s.xslots :=
  (does_raiseSlot (m := 786434) (Eq.refl _) (Does.refl _ s)).frame .xslots rfl
@[simp] theorem State.raiseSlot_links (s : State) (x1 : Nat) (x2 : Nat) (x3 : Nat) : (s.raiseSlot x1 x2 x3).links = s.links :=
  (does_raiseSlot (m := 786434) (Eq.refl _) (Does.refl _ s)).frame .links rfl
@[simp] theorem State.raiseSlot_ports (s : State) (x1 : Nat) (x2 : Nat) (x3 : Nat) : (s.raiseSlot x1 x2 x3).ports = s.ports :=
  (does_raiseSlot (m := 786434) (Eq.refl _) (Does.refl _ s)).frame .ports rfl
@[simp] theorem State.raiseSlot_nodeReqs (s : State) (x1 : Nat) (x2 : Nat) (x3 : Nat) : (s.raiseSlot x1 x2 x3).nodeReqs = s.nodeReqs :=
  (does_raiseSlot (m := 786434) (Eq.refl _) (Does.refl _ s)).frame .nodeReqs rfl
@[simp] theorem State.raiseSlot_nodeTag (s : State) (x1 : Nat) (x2 : Nat) (x3 : Nat) : (s.raiseSlot x1 x2 x3).nodeTag = s.nodeTag :=
  (does_raiseSlot (m := 786434) (Eq.refl _) (Does.refl _ s)).frame .nodeTag rfl
@[simp] theorem State.raiseSlot_fabric (s : State) (x1 : Nat) (x2 : Nat) (x3 : Nat) : (s.raiseSlot x1 x2 x3).fabric = s.fabric :=
  (does_raiseSlot (m := 786434) (Eq.refl _) (Does.refl _ s)).frame .fabric rfl
@[simp] theorem State.raiseSlot_reqs (s : State) (x1 : Nat) (x2 : Nat) (x3 : Nat) : (s.raiseSlot x1 x2 x3).reqs = s.reqs :=
  (does_raiseSlot (m := 786434) (Eq.refl _) (Does.refl _ s)).frame .reqs rfl
@[simp] theorem State.raiseSlot_submitted (s : State) (x1 : Nat) (x2 : Nat) (x3 : Nat) : (s.raiseSlot x1 x2 x3).submitted = s.submitted :=
  (does_raiseSlot (m := 786434) (Eq.refl _) (Does.refl _ s)).frame .submitted rfl
@[simp] theorem State.raiseSlot_commands (s : State) (x1 : Nat) (x2 : Nat) (x3 : Nat) : (s.raiseSlot x1 x2 x3).commands = s.commands :=
  (does_raiseSlot (m := 786434) (Eq.refl _) (Does.refl _ s)).frame .commands rfl
@[simp] theorem State.raiseSlot_svs (s : State) (x1 : Nat) (x2 : Nat) (x3 : Nat) : (s.raiseSlot x1 x2 x3).svs = s.svs :=
  (does_raiseSlot (m := 786434) (Eq.refl _) (Does.refl _ s)).frame .svs rfl
@[simp] theorem State.raiseSlot_peps (s : State) (x1 : Nat) (x2 : Nat) (x3 : Nat) : (s.raiseSlot x1 x2 x3).peps = s.peps :=
  (does_raiseSlot (m := 786434) (Eq.refl _) (Does.refl _ s)).frame .peps rfl
@[simp] theorem State.raiseSlot_pepCur (s : State) (x1 : Nat) (x2 : Nat) (x3 : Nat) : (s.raiseSlot x1 x2 x3).pepCur = s.pepCur :=
  (does_raiseSlot (m := 786434) (Eq.refl _) (Does.refl _ s)).frame .pepCur rfl
@[simp] theorem State.raiseSlot_pageSeen (s : State) (x1 : Nat) (x2 : Nat) (x3 : Nat) : (s.raiseSlot x1 x2 x3).pageSeen = s.pageSeen :=
  (does_raiseSlot (m := 786434) (Eq.refl _) (Does.refl _ s)).frame .pageSeen rfl
@[simp] theorem State.raiseSlot_seqBad (s : State) (x1 : Nat) (x2 : Nat) (x3 : Nat) : (s.raiseSlot x1 x2 x3).seqBad = s.seqBad :=
  (does_raiseSlot (m := 786434) (Eq.refl _) (Does.refl _ s)).frame .seqBad rfl
@[simp] theorem State.raiseSlot_done (s : State) (x1 : Nat) (x2 : Nat) (x3 : Nat) : (s.raiseSlot x1 x2 x3).done = s.done :=
  (does_raiseSlot (m := 786434) (Eq.refl _) (Does.refl _ s)).frame .done rfl
@[simp] theorem State.raiseSlot_rdata (s : State) (x1 : Nat) (x2 : Nat) (x3 : Nat) : (s.raiseSlot x1 x2 x3).rdata = s.rdata :=
  (does_raiseSlot (m := 786434) (Eq.refl _) (Does.refl _ s)).frame .rdata rfl
@[simp] theorem State.raiseSlot_free (s : State) (x1 : Nat) (x2 : Nat) (x3 : Nat) : (s.raiseSlot x1 x2 x3).free = s.free :=
  (does_raiseSlot (m := 786434) (Eq.refl _) (Does.refl _ s)).frame .free rfl
@[simp] theorem State.raiseSlot_pending (s : State) (x1 : Nat) (x2 : Nat) (x3 : Nat) : (s.raiseSlot x1 x2 x3).pending = s.pending :=
  (does_raiseSlot (m := 786434) (Eq.refl _) (Does.refl _ s)).frame .pending rfl
@[simp] theorem State.signal_clk (s : State) (x1 : Nat) (x2 : Nat) (x3 : Nat) : (s.signal x1 x2 x3).clk = s.clk :=
  (does_signal (m := 790530) (Eq.refl _) (Does.refl _ s)).frame .clk rfl
@[simp] theorem State.signal_staged (s : State) (x1 : Nat) (x2 : Nat) (x3 : Nat) : (s.signal x1 x2 x3).staged = s.staged :=
  (does_signal (m := 790530) (Eq.refl _) (Does.refl _ s)).frame .staged rfl
@[simp] theorem State.signal_mem (s : State) (x1 : Nat) (x2 : Nat) (x3 : Nat) : (s.signal x1 x2 x3).mem = s.mem :=
  (does_signal (m := 790530) (Eq.refl _) (Does.refl _ s)).frame .mem rfl
@[simp] theorem State.signal_timers (s : State) (x1 : Nat) (x2 : Nat) (x3 : Nat) : (s.signal x1 x2 x3).timers = s.timers :=
  (does_signal (m := 790530) (Eq.refl _) (Does.refl _ s)).frame .timers rfl
@[simp] theorem State.signal_ident (s : State) (x1 : Nat) (x2 : Nat) (x3 : Nat) : (s.signal x1 x2 x3).ident = s.ident :=
  (does_signal (m := 790530) (Eq.refl _) (Does.refl _ s)).frame .ident rfl
@[simp] theorem State.signal_boot (s : State) (x1 : Nat) (x2 : Nat) (x3 : Nat) : (s.signal x1 x2 x3).boot = s.boot :=
  (does_signal (m := 790530) (Eq.refl _) (Does.refl _ s)).frame .boot rfl
@[simp] theorem State.signal_power (s : State) (x1 : Nat) (x2 : Nat) (x3 : Nat) : (s.signal x1 x2 x3).power = s.power :=
  (does_signal (m := 790530) (Eq.refl _) (Does.refl _ s)).frame .power rfl
@[simp] theorem State.signal_time (s : State) (x1 : Nat) (x2 : Nat) (x3 : Nat) : (s.signal x1 x2 x3).time = s.time :=
  (does_signal (m := 790530) (Eq.refl _) (Does.refl _ s)).frame .time rfl
@[simp] theorem State.signal_slots (s : State) (x1 : Nat) (x2 : Nat) (x3 : Nat) : (s.signal x1 x2 x3).slots = s.slots :=
  (does_signal (m := 790530) (Eq.refl _) (Does.refl _ s)).frame .slots rfl
@[simp] theorem State.signal_schedLo (s : State) (x1 : Nat) (x2 : Nat) (x3 : Nat) : (s.signal x1 x2 x3).schedLo = s.schedLo :=
  (does_signal (m := 790530) (Eq.refl _) (Does.refl _ s)).frame .schedLo rfl
@[simp] theorem State.signal_schedHi (s : State) (x1 : Nat) (x2 : Nat) (x3 : Nat) : (s.signal x1 x2 x3).schedHi = s.schedHi :=
  (does_signal (m := 790530) (Eq.refl _) (Does.refl _ s)).frame .schedHi rfl
@[simp] theorem State.signal_parts (s : State) (x1 : Nat) (x2 : Nat) (x3 : Nat) : (s.signal x1 x2 x3).parts = s.parts :=
  (does_signal (m := 790530) (Eq.refl _) (Does.refl _ s)).frame .parts rfl
@[simp] theorem State.signal_doms (s : State) (x1 : Nat) (x2 : Nat) (x3 : Nat) : (s.signal x1 x2 x3).doms = s.doms :=
  (does_signal (m := 790530) (Eq.refl _) (Does.refl _ s)).frame .doms rfl
@[simp] theorem State.signal_seqs (s : State) (x1 : Nat) (x2 : Nat) (x3 : Nat) : (s.signal x1 x2 x3).seqs = s.seqs :=
  (does_signal (m := 790530) (Eq.refl _) (Does.refl _ s)).frame .seqs rfl
@[simp] theorem State.signal_regions (s : State) (x1 : Nat) (x2 : Nat) (x3 : Nat) : (s.signal x1 x2 x3).regions = s.regions :=
  (does_signal (m := 790530) (Eq.refl _) (Does.refl _ s)).frame .regions rfl
@[simp] theorem State.signal_idleUntil (s : State) (x1 : Nat) (x2 : Nat) (x3 : Nat) : (s.signal x1 x2 x3).idleUntil = s.idleUntil :=
  (does_signal (m := 790530) (Eq.refl _) (Does.refl _ s)).frame .idleUntil rfl
@[simp] theorem State.signal_log (s : State) (x1 : Nat) (x2 : Nat) (x3 : Nat) : (s.signal x1 x2 x3).log = s.log :=
  (does_signal (m := 790530) (Eq.refl _) (Does.refl _ s)).frame .log rfl
@[simp] theorem State.signal_logNext (s : State) (x1 : Nat) (x2 : Nat) (x3 : Nat) : (s.signal x1 x2 x3).logNext = s.logNext :=
  (does_signal (m := 790530) (Eq.refl _) (Does.refl _ s)).frame .logNext rfl
@[simp] theorem State.signal_out (s : State) (x1 : Nat) (x2 : Nat) (x3 : Nat) : (s.signal x1 x2 x3).out = s.out :=
  (does_signal (m := 790530) (Eq.refl _) (Does.refl _ s)).frame .out rfl
@[simp] theorem State.signal_tolvys (s : State) (x1 : Nat) (x2 : Nat) (x3 : Nat) : (s.signal x1 x2 x3).tolvys = s.tolvys :=
  (does_signal (m := 790530) (Eq.refl _) (Does.refl _ s)).frame .tolvys rfl
@[simp] theorem State.signal_stale (s : State) (x1 : Nat) (x2 : Nat) (x3 : Nat) : (s.signal x1 x2 x3).stale = s.stale :=
  (does_signal (m := 790530) (Eq.refl _) (Does.refl _ s)).frame .stale rfl
@[simp] theorem State.signal_windows (s : State) (x1 : Nat) (x2 : Nat) (x3 : Nat) : (s.signal x1 x2 x3).windows = s.windows :=
  (does_signal (m := 790530) (Eq.refl _) (Does.refl _ s)).frame .windows rfl
@[simp] theorem State.signal_wfOn (s : State) (x1 : Nat) (x2 : Nat) (x3 : Nat) : (s.signal x1 x2 x3).wfOn = s.wfOn :=
  (does_signal (m := 790530) (Eq.refl _) (Does.refl _ s)).frame .wfOn rfl
@[simp] theorem State.signal_rowSlots (s : State) (x1 : Nat) (x2 : Nat) (x3 : Nat) : (s.signal x1 x2 x3).rowSlots = s.rowSlots :=
  (does_signal (m := 790530) (Eq.refl _) (Does.refl _ s)).frame .rowSlots rfl
@[simp] theorem State.signal_bulk (s : State) (x1 : Nat) (x2 : Nat) (x3 : Nat) : (s.signal x1 x2 x3).bulk = s.bulk :=
  (does_signal (m := 790530) (Eq.refl _) (Does.refl _ s)).frame .bulk rfl
@[simp] theorem State.signal_repairs (s : State) (x1 : Nat) (x2 : Nat) (x3 : Nat) : (s.signal x1 x2 x3).repairs = s.repairs :=
  (does_signal (m := 790530) (Eq.refl _) (Does.refl _ s)).frame .repairs rfl
@[simp] theorem State.signal_igs (s : State) (x1 : Nat) (x2 : Nat) (x3 : Nat) : (s.signal x1 x2 x3).igs = s.igs :=
  (does_signal (m := 790530) (Eq.refl _) (Does.refl _ s)).frame .igs rfl
@[simp] theorem State.signal_csSets (s : State) (x1 : Nat) (x2 : Nat) (x3 : Nat) : (s.signal x1 x2 x3).csSets = s.csSets :=
  (does_signal (m := 790530) (Eq.refl _) (Does.refl _ s)).frame .csSets rfl
@[simp] theorem State.signal_screens (s : State) (x1 : Nat) (x2 : Nat) (x3 : Nat) : (s.signal x1 x2 x3).screens = s.screens :=
  (does_signal (m := 790530) (Eq.refl _) (Does.refl _ s)).frame .screens rfl
@[simp] theorem State.signal_mace (s : State) (x1 : Nat) (x2 : Nat) (x3 : Nat) : (s.signal x1 x2 x3).mace = s.mace :=
  (does_signal (m := 790530) (Eq.refl _) (Does.refl _ s)).frame .mace rfl
@[simp] theorem State.signal_digests (s : State) (x1 : Nat) (x2 : Nat) (x3 : Nat) : (s.signal x1 x2 x3).digests = s.digests :=
  (does_signal (m := 790530) (Eq.refl _) (Does.refl _ s)).frame .digests rfl
@[simp] theorem State.signal_mboxes (s : State) (x1 : Nat) (x2 : Nat) (x3 : Nat) : (s.signal x1 x2 x3).mboxes = s.mboxes :=
  (does_signal (m := 790530) (Eq.refl _) (Does.refl _ s)).frame .mboxes rfl
@[simp] theorem State.signal_retired (s : State) (x1 : Nat) (x2 : Nat) (x3 : Nat) : (s.signal x1 x2 x3).retired = s.retired :=
  (does_signal (m := 790530) (Eq.refl _) (Does.refl _ s)).frame .retired rfl
@[simp] theorem State.signal_suspect (s : State) (x1 : Nat) (x2 : Nat) (x3 : Nat) : (s.signal x1 x2 x3).suspect = s.suspect :=
  (does_signal (m := 790530) (Eq.refl _) (Does.refl _ s)).frame .suspect rfl
@[simp] theorem State.signal_tiles (s : State) (x1 : Nat) (x2 : Nat) (x3 : Nat) : (s.signal x1 x2 x3).tiles = s.tiles :=
  (does_signal (m := 790530) (Eq.refl _) (Does.refl _ s)).frame .tiles rfl
@[simp] theorem State.signal_arrFmt (s : State) (x1 : Nat) (x2 : Nat) (x3 : Nat) : (s.signal x1 x2 x3).arrFmt = s.arrFmt :=
  (does_signal (m := 790530) (Eq.refl _) (Does.refl _ s)).frame .arrFmt rfl
@[simp] theorem State.signal_tileTag (s : State) (x1 : Nat) (x2 : Nat) (x3 : Nat) : (s.signal x1 x2 x3).tileTag = s.tileTag :=
  (does_signal (m := 790530) (Eq.refl _) (Does.refl _ s)).frame .tileTag rfl
@[simp] theorem State.signal_engFail (s : State) (x1 : Nat) (x2 : Nat) (x3 : Nat) : (s.signal x1 x2 x3).engFail = s.engFail :=
  (does_signal (m := 790530) (Eq.refl _) (Does.refl _ s)).frame .engFail rfl
@[simp] theorem State.signal_clove (s : State) (x1 : Nat) (x2 : Nat) (x3 : Nat) : (s.signal x1 x2 x3).clove = s.clove :=
  (does_signal (m := 790530) (Eq.refl _) (Does.refl _ s)).frame .clove rfl
@[simp] theorem State.signal_chainCur (s : State) (x1 : Nat) (x2 : Nat) (x3 : Nat) : (s.signal x1 x2 x3).chainCur = s.chainCur :=
  (does_signal (m := 790530) (Eq.refl _) (Does.refl _ s)).frame .chainCur rfl
@[simp] theorem State.signal_profCur (s : State) (x1 : Nat) (x2 : Nat) (x3 : Nat) : (s.signal x1 x2 x3).profCur = s.profCur :=
  (does_signal (m := 790530) (Eq.refl _) (Does.refl _ s)).frame .profCur rfl
@[simp] theorem State.signal_qslots (s : State) (x1 : Nat) (x2 : Nat) (x3 : Nat) : (s.signal x1 x2 x3).qslots = s.qslots :=
  (does_signal (m := 790530) (Eq.refl _) (Does.refl _ s)).frame .qslots rfl
@[simp] theorem State.signal_attCfg (s : State) (x1 : Nat) (x2 : Nat) (x3 : Nat) : (s.signal x1 x2 x3).attCfg = s.attCfg :=
  (does_signal (m := 790530) (Eq.refl _) (Does.refl _ s)).frame .attCfg rfl
@[simp] theorem State.signal_attSeq (s : State) (x1 : Nat) (x2 : Nat) (x3 : Nat) : (s.signal x1 x2 x3).attSeq = s.attSeq :=
  (does_signal (m := 790530) (Eq.refl _) (Does.refl _ s)).frame .attSeq rfl
@[simp] theorem State.signal_xslots (s : State) (x1 : Nat) (x2 : Nat) (x3 : Nat) : (s.signal x1 x2 x3).xslots = s.xslots :=
  (does_signal (m := 790530) (Eq.refl _) (Does.refl _ s)).frame .xslots rfl
@[simp] theorem State.signal_links (s : State) (x1 : Nat) (x2 : Nat) (x3 : Nat) : (s.signal x1 x2 x3).links = s.links :=
  (does_signal (m := 790530) (Eq.refl _) (Does.refl _ s)).frame .links rfl
@[simp] theorem State.signal_ports (s : State) (x1 : Nat) (x2 : Nat) (x3 : Nat) : (s.signal x1 x2 x3).ports = s.ports :=
  (does_signal (m := 790530) (Eq.refl _) (Does.refl _ s)).frame .ports rfl
@[simp] theorem State.signal_nodeReqs (s : State) (x1 : Nat) (x2 : Nat) (x3 : Nat) : (s.signal x1 x2 x3).nodeReqs = s.nodeReqs :=
  (does_signal (m := 790530) (Eq.refl _) (Does.refl _ s)).frame .nodeReqs rfl
@[simp] theorem State.signal_nodeTag (s : State) (x1 : Nat) (x2 : Nat) (x3 : Nat) : (s.signal x1 x2 x3).nodeTag = s.nodeTag :=
  (does_signal (m := 790530) (Eq.refl _) (Does.refl _ s)).frame .nodeTag rfl
@[simp] theorem State.signal_fabric (s : State) (x1 : Nat) (x2 : Nat) (x3 : Nat) : (s.signal x1 x2 x3).fabric = s.fabric :=
  (does_signal (m := 790530) (Eq.refl _) (Does.refl _ s)).frame .fabric rfl
@[simp] theorem State.signal_reqs (s : State) (x1 : Nat) (x2 : Nat) (x3 : Nat) : (s.signal x1 x2 x3).reqs = s.reqs :=
  (does_signal (m := 790530) (Eq.refl _) (Does.refl _ s)).frame .reqs rfl
@[simp] theorem State.signal_submitted (s : State) (x1 : Nat) (x2 : Nat) (x3 : Nat) : (s.signal x1 x2 x3).submitted = s.submitted :=
  (does_signal (m := 790530) (Eq.refl _) (Does.refl _ s)).frame .submitted rfl
@[simp] theorem State.signal_commands (s : State) (x1 : Nat) (x2 : Nat) (x3 : Nat) : (s.signal x1 x2 x3).commands = s.commands :=
  (does_signal (m := 790530) (Eq.refl _) (Does.refl _ s)).frame .commands rfl
@[simp] theorem State.signal_svs (s : State) (x1 : Nat) (x2 : Nat) (x3 : Nat) : (s.signal x1 x2 x3).svs = s.svs :=
  (does_signal (m := 790530) (Eq.refl _) (Does.refl _ s)).frame .svs rfl
@[simp] theorem State.signal_peps (s : State) (x1 : Nat) (x2 : Nat) (x3 : Nat) : (s.signal x1 x2 x3).peps = s.peps :=
  (does_signal (m := 790530) (Eq.refl _) (Does.refl _ s)).frame .peps rfl
@[simp] theorem State.signal_pepCur (s : State) (x1 : Nat) (x2 : Nat) (x3 : Nat) : (s.signal x1 x2 x3).pepCur = s.pepCur :=
  (does_signal (m := 790530) (Eq.refl _) (Does.refl _ s)).frame .pepCur rfl
@[simp] theorem State.signal_pageSeen (s : State) (x1 : Nat) (x2 : Nat) (x3 : Nat) : (s.signal x1 x2 x3).pageSeen = s.pageSeen :=
  (does_signal (m := 790530) (Eq.refl _) (Does.refl _ s)).frame .pageSeen rfl
@[simp] theorem State.signal_seqBad (s : State) (x1 : Nat) (x2 : Nat) (x3 : Nat) : (s.signal x1 x2 x3).seqBad = s.seqBad :=
  (does_signal (m := 790530) (Eq.refl _) (Does.refl _ s)).frame .seqBad rfl
@[simp] theorem State.signal_done (s : State) (x1 : Nat) (x2 : Nat) (x3 : Nat) : (s.signal x1 x2 x3).done = s.done :=
  (does_signal (m := 790530) (Eq.refl _) (Does.refl _ s)).frame .done rfl
@[simp] theorem State.signal_rdata (s : State) (x1 : Nat) (x2 : Nat) (x3 : Nat) : (s.signal x1 x2 x3).rdata = s.rdata :=
  (does_signal (m := 790530) (Eq.refl _) (Does.refl _ s)).frame .rdata rfl
@[simp] theorem State.signal_free (s : State) (x1 : Nat) (x2 : Nat) (x3 : Nat) : (s.signal x1 x2 x3).free = s.free :=
  (does_signal (m := 790530) (Eq.refl _) (Does.refl _ s)).frame .free rfl
@[simp] theorem State.signal_pending (s : State) (x1 : Nat) (x2 : Nat) (x3 : Nat) : (s.signal x1 x2 x3).pending = s.pending :=
  (does_signal (m := 790530) (Eq.refl _) (Does.refl _ s)).frame .pending rfl
@[simp] theorem State.bump_clk (s : State) (x1 : Nat) (x2 : Nat) : (s.bump x1 x2).clk = s.clk :=
  (does_bump (m := 2) (Eq.refl _) (Does.refl _ s)).frame .clk rfl
@[simp] theorem State.bump_staged (s : State) (x1 : Nat) (x2 : Nat) : (s.bump x1 x2).staged = s.staged :=
  (does_bump (m := 2) (Eq.refl _) (Does.refl _ s)).frame .staged rfl
@[simp] theorem State.bump_mem (s : State) (x1 : Nat) (x2 : Nat) : (s.bump x1 x2).mem = s.mem :=
  (does_bump (m := 2) (Eq.refl _) (Does.refl _ s)).frame .mem rfl
@[simp] theorem State.bump_timers (s : State) (x1 : Nat) (x2 : Nat) : (s.bump x1 x2).timers = s.timers :=
  (does_bump (m := 2) (Eq.refl _) (Does.refl _ s)).frame .timers rfl
@[simp] theorem State.bump_ident (s : State) (x1 : Nat) (x2 : Nat) : (s.bump x1 x2).ident = s.ident :=
  (does_bump (m := 2) (Eq.refl _) (Does.refl _ s)).frame .ident rfl
@[simp] theorem State.bump_boot (s : State) (x1 : Nat) (x2 : Nat) : (s.bump x1 x2).boot = s.boot :=
  (does_bump (m := 2) (Eq.refl _) (Does.refl _ s)).frame .boot rfl
@[simp] theorem State.bump_power (s : State) (x1 : Nat) (x2 : Nat) : (s.bump x1 x2).power = s.power :=
  (does_bump (m := 2) (Eq.refl _) (Does.refl _ s)).frame .power rfl
@[simp] theorem State.bump_time (s : State) (x1 : Nat) (x2 : Nat) : (s.bump x1 x2).time = s.time :=
  (does_bump (m := 2) (Eq.refl _) (Does.refl _ s)).frame .time rfl
@[simp] theorem State.bump_slots (s : State) (x1 : Nat) (x2 : Nat) : (s.bump x1 x2).slots = s.slots :=
  (does_bump (m := 2) (Eq.refl _) (Does.refl _ s)).frame .slots rfl
@[simp] theorem State.bump_schedLo (s : State) (x1 : Nat) (x2 : Nat) : (s.bump x1 x2).schedLo = s.schedLo :=
  (does_bump (m := 2) (Eq.refl _) (Does.refl _ s)).frame .schedLo rfl
@[simp] theorem State.bump_schedHi (s : State) (x1 : Nat) (x2 : Nat) : (s.bump x1 x2).schedHi = s.schedHi :=
  (does_bump (m := 2) (Eq.refl _) (Does.refl _ s)).frame .schedHi rfl
@[simp] theorem State.bump_ctrs (s : State) (x1 : Nat) (x2 : Nat) : (s.bump x1 x2).ctrs = s.ctrs :=
  (does_bump (m := 2) (Eq.refl _) (Does.refl _ s)).frame .ctrs rfl
@[simp] theorem State.bump_parts (s : State) (x1 : Nat) (x2 : Nat) : (s.bump x1 x2).parts = s.parts :=
  (does_bump (m := 2) (Eq.refl _) (Does.refl _ s)).frame .parts rfl
@[simp] theorem State.bump_doms (s : State) (x1 : Nat) (x2 : Nat) : (s.bump x1 x2).doms = s.doms :=
  (does_bump (m := 2) (Eq.refl _) (Does.refl _ s)).frame .doms rfl
@[simp] theorem State.bump_seqs (s : State) (x1 : Nat) (x2 : Nat) : (s.bump x1 x2).seqs = s.seqs :=
  (does_bump (m := 2) (Eq.refl _) (Does.refl _ s)).frame .seqs rfl
@[simp] theorem State.bump_regions (s : State) (x1 : Nat) (x2 : Nat) : (s.bump x1 x2).regions = s.regions :=
  (does_bump (m := 2) (Eq.refl _) (Does.refl _ s)).frame .regions rfl
@[simp] theorem State.bump_idleUntil (s : State) (x1 : Nat) (x2 : Nat) : (s.bump x1 x2).idleUntil = s.idleUntil :=
  (does_bump (m := 2) (Eq.refl _) (Does.refl _ s)).frame .idleUntil rfl
@[simp] theorem State.bump_evq (s : State) (x1 : Nat) (x2 : Nat) : (s.bump x1 x2).evq = s.evq :=
  (does_bump (m := 2) (Eq.refl _) (Does.refl _ s)).frame .evq rfl
@[simp] theorem State.bump_evLost (s : State) (x1 : Nat) (x2 : Nat) : (s.bump x1 x2).evLost = s.evLost :=
  (does_bump (m := 2) (Eq.refl _) (Does.refl _ s)).frame .evLost rfl
@[simp] theorem State.bump_log (s : State) (x1 : Nat) (x2 : Nat) : (s.bump x1 x2).log = s.log :=
  (does_bump (m := 2) (Eq.refl _) (Does.refl _ s)).frame .log rfl
@[simp] theorem State.bump_logNext (s : State) (x1 : Nat) (x2 : Nat) : (s.bump x1 x2).logNext = s.logNext :=
  (does_bump (m := 2) (Eq.refl _) (Does.refl _ s)).frame .logNext rfl
@[simp] theorem State.bump_out (s : State) (x1 : Nat) (x2 : Nat) : (s.bump x1 x2).out = s.out :=
  (does_bump (m := 2) (Eq.refl _) (Does.refl _ s)).frame .out rfl
@[simp] theorem State.bump_tolvys (s : State) (x1 : Nat) (x2 : Nat) : (s.bump x1 x2).tolvys = s.tolvys :=
  (does_bump (m := 2) (Eq.refl _) (Does.refl _ s)).frame .tolvys rfl
@[simp] theorem State.bump_stale (s : State) (x1 : Nat) (x2 : Nat) : (s.bump x1 x2).stale = s.stale :=
  (does_bump (m := 2) (Eq.refl _) (Does.refl _ s)).frame .stale rfl
@[simp] theorem State.bump_windows (s : State) (x1 : Nat) (x2 : Nat) : (s.bump x1 x2).windows = s.windows :=
  (does_bump (m := 2) (Eq.refl _) (Does.refl _ s)).frame .windows rfl
@[simp] theorem State.bump_wfOn (s : State) (x1 : Nat) (x2 : Nat) : (s.bump x1 x2).wfOn = s.wfOn :=
  (does_bump (m := 2) (Eq.refl _) (Does.refl _ s)).frame .wfOn rfl
@[simp] theorem State.bump_rowSlots (s : State) (x1 : Nat) (x2 : Nat) : (s.bump x1 x2).rowSlots = s.rowSlots :=
  (does_bump (m := 2) (Eq.refl _) (Does.refl _ s)).frame .rowSlots rfl
@[simp] theorem State.bump_bulk (s : State) (x1 : Nat) (x2 : Nat) : (s.bump x1 x2).bulk = s.bulk :=
  (does_bump (m := 2) (Eq.refl _) (Does.refl _ s)).frame .bulk rfl
@[simp] theorem State.bump_repairs (s : State) (x1 : Nat) (x2 : Nat) : (s.bump x1 x2).repairs = s.repairs :=
  (does_bump (m := 2) (Eq.refl _) (Does.refl _ s)).frame .repairs rfl
@[simp] theorem State.bump_igs (s : State) (x1 : Nat) (x2 : Nat) : (s.bump x1 x2).igs = s.igs :=
  (does_bump (m := 2) (Eq.refl _) (Does.refl _ s)).frame .igs rfl
@[simp] theorem State.bump_csSets (s : State) (x1 : Nat) (x2 : Nat) : (s.bump x1 x2).csSets = s.csSets :=
  (does_bump (m := 2) (Eq.refl _) (Does.refl _ s)).frame .csSets rfl
@[simp] theorem State.bump_screens (s : State) (x1 : Nat) (x2 : Nat) : (s.bump x1 x2).screens = s.screens :=
  (does_bump (m := 2) (Eq.refl _) (Does.refl _ s)).frame .screens rfl
@[simp] theorem State.bump_mace (s : State) (x1 : Nat) (x2 : Nat) : (s.bump x1 x2).mace = s.mace :=
  (does_bump (m := 2) (Eq.refl _) (Does.refl _ s)).frame .mace rfl
@[simp] theorem State.bump_digests (s : State) (x1 : Nat) (x2 : Nat) : (s.bump x1 x2).digests = s.digests :=
  (does_bump (m := 2) (Eq.refl _) (Does.refl _ s)).frame .digests rfl
@[simp] theorem State.bump_mboxes (s : State) (x1 : Nat) (x2 : Nat) : (s.bump x1 x2).mboxes = s.mboxes :=
  (does_bump (m := 2) (Eq.refl _) (Does.refl _ s)).frame .mboxes rfl
@[simp] theorem State.bump_retired (s : State) (x1 : Nat) (x2 : Nat) : (s.bump x1 x2).retired = s.retired :=
  (does_bump (m := 2) (Eq.refl _) (Does.refl _ s)).frame .retired rfl
@[simp] theorem State.bump_suspect (s : State) (x1 : Nat) (x2 : Nat) : (s.bump x1 x2).suspect = s.suspect :=
  (does_bump (m := 2) (Eq.refl _) (Does.refl _ s)).frame .suspect rfl
@[simp] theorem State.bump_tiles (s : State) (x1 : Nat) (x2 : Nat) : (s.bump x1 x2).tiles = s.tiles :=
  (does_bump (m := 2) (Eq.refl _) (Does.refl _ s)).frame .tiles rfl
@[simp] theorem State.bump_arrFmt (s : State) (x1 : Nat) (x2 : Nat) : (s.bump x1 x2).arrFmt = s.arrFmt :=
  (does_bump (m := 2) (Eq.refl _) (Does.refl _ s)).frame .arrFmt rfl
@[simp] theorem State.bump_tileTag (s : State) (x1 : Nat) (x2 : Nat) : (s.bump x1 x2).tileTag = s.tileTag :=
  (does_bump (m := 2) (Eq.refl _) (Does.refl _ s)).frame .tileTag rfl
@[simp] theorem State.bump_engFail (s : State) (x1 : Nat) (x2 : Nat) : (s.bump x1 x2).engFail = s.engFail :=
  (does_bump (m := 2) (Eq.refl _) (Does.refl _ s)).frame .engFail rfl
@[simp] theorem State.bump_clove (s : State) (x1 : Nat) (x2 : Nat) : (s.bump x1 x2).clove = s.clove :=
  (does_bump (m := 2) (Eq.refl _) (Does.refl _ s)).frame .clove rfl
@[simp] theorem State.bump_chainCur (s : State) (x1 : Nat) (x2 : Nat) : (s.bump x1 x2).chainCur = s.chainCur :=
  (does_bump (m := 2) (Eq.refl _) (Does.refl _ s)).frame .chainCur rfl
@[simp] theorem State.bump_profCur (s : State) (x1 : Nat) (x2 : Nat) : (s.bump x1 x2).profCur = s.profCur :=
  (does_bump (m := 2) (Eq.refl _) (Does.refl _ s)).frame .profCur rfl
@[simp] theorem State.bump_qslots (s : State) (x1 : Nat) (x2 : Nat) : (s.bump x1 x2).qslots = s.qslots :=
  (does_bump (m := 2) (Eq.refl _) (Does.refl _ s)).frame .qslots rfl
@[simp] theorem State.bump_attCfg (s : State) (x1 : Nat) (x2 : Nat) : (s.bump x1 x2).attCfg = s.attCfg :=
  (does_bump (m := 2) (Eq.refl _) (Does.refl _ s)).frame .attCfg rfl
@[simp] theorem State.bump_attSeq (s : State) (x1 : Nat) (x2 : Nat) : (s.bump x1 x2).attSeq = s.attSeq :=
  (does_bump (m := 2) (Eq.refl _) (Does.refl _ s)).frame .attSeq rfl
@[simp] theorem State.bump_xslots (s : State) (x1 : Nat) (x2 : Nat) : (s.bump x1 x2).xslots = s.xslots :=
  (does_bump (m := 2) (Eq.refl _) (Does.refl _ s)).frame .xslots rfl
@[simp] theorem State.bump_links (s : State) (x1 : Nat) (x2 : Nat) : (s.bump x1 x2).links = s.links :=
  (does_bump (m := 2) (Eq.refl _) (Does.refl _ s)).frame .links rfl
@[simp] theorem State.bump_ports (s : State) (x1 : Nat) (x2 : Nat) : (s.bump x1 x2).ports = s.ports :=
  (does_bump (m := 2) (Eq.refl _) (Does.refl _ s)).frame .ports rfl
@[simp] theorem State.bump_nodeReqs (s : State) (x1 : Nat) (x2 : Nat) : (s.bump x1 x2).nodeReqs = s.nodeReqs :=
  (does_bump (m := 2) (Eq.refl _) (Does.refl _ s)).frame .nodeReqs rfl
@[simp] theorem State.bump_nodeTag (s : State) (x1 : Nat) (x2 : Nat) : (s.bump x1 x2).nodeTag = s.nodeTag :=
  (does_bump (m := 2) (Eq.refl _) (Does.refl _ s)).frame .nodeTag rfl
@[simp] theorem State.bump_fabric (s : State) (x1 : Nat) (x2 : Nat) : (s.bump x1 x2).fabric = s.fabric :=
  (does_bump (m := 2) (Eq.refl _) (Does.refl _ s)).frame .fabric rfl
@[simp] theorem State.bump_reqs (s : State) (x1 : Nat) (x2 : Nat) : (s.bump x1 x2).reqs = s.reqs :=
  (does_bump (m := 2) (Eq.refl _) (Does.refl _ s)).frame .reqs rfl
@[simp] theorem State.bump_submitted (s : State) (x1 : Nat) (x2 : Nat) : (s.bump x1 x2).submitted = s.submitted :=
  (does_bump (m := 2) (Eq.refl _) (Does.refl _ s)).frame .submitted rfl
@[simp] theorem State.bump_commands (s : State) (x1 : Nat) (x2 : Nat) : (s.bump x1 x2).commands = s.commands :=
  (does_bump (m := 2) (Eq.refl _) (Does.refl _ s)).frame .commands rfl
@[simp] theorem State.bump_svs (s : State) (x1 : Nat) (x2 : Nat) : (s.bump x1 x2).svs = s.svs :=
  (does_bump (m := 2) (Eq.refl _) (Does.refl _ s)).frame .svs rfl
@[simp] theorem State.bump_peps (s : State) (x1 : Nat) (x2 : Nat) : (s.bump x1 x2).peps = s.peps :=
  (does_bump (m := 2) (Eq.refl _) (Does.refl _ s)).frame .peps rfl
@[simp] theorem State.bump_pepCur (s : State) (x1 : Nat) (x2 : Nat) : (s.bump x1 x2).pepCur = s.pepCur :=
  (does_bump (m := 2) (Eq.refl _) (Does.refl _ s)).frame .pepCur rfl
@[simp] theorem State.bump_pageSeen (s : State) (x1 : Nat) (x2 : Nat) : (s.bump x1 x2).pageSeen = s.pageSeen :=
  (does_bump (m := 2) (Eq.refl _) (Does.refl _ s)).frame .pageSeen rfl
@[simp] theorem State.bump_seqBad (s : State) (x1 : Nat) (x2 : Nat) : (s.bump x1 x2).seqBad = s.seqBad :=
  (does_bump (m := 2) (Eq.refl _) (Does.refl _ s)).frame .seqBad rfl
@[simp] theorem State.bump_done (s : State) (x1 : Nat) (x2 : Nat) : (s.bump x1 x2).done = s.done :=
  (does_bump (m := 2) (Eq.refl _) (Does.refl _ s)).frame .done rfl
@[simp] theorem State.bump_rdata (s : State) (x1 : Nat) (x2 : Nat) : (s.bump x1 x2).rdata = s.rdata :=
  (does_bump (m := 2) (Eq.refl _) (Does.refl _ s)).frame .rdata rfl
@[simp] theorem State.bump_free (s : State) (x1 : Nat) (x2 : Nat) : (s.bump x1 x2).free = s.free :=
  (does_bump (m := 2) (Eq.refl _) (Does.refl _ s)).frame .free rfl
@[simp] theorem State.bump_pending (s : State) (x1 : Nat) (x2 : Nat) : (s.bump x1 x2).pending = s.pending :=
  (does_bump (m := 2) (Eq.refl _) (Does.refl _ s)).frame .pending rfl
@[simp] theorem State.advance_regs (s : State) (x1 : Nat) : (s.advance x1).regs = s.regs :=
  (does_advance (m := 257) (Eq.refl _) (Does.refl _ s)).frame .regs rfl
@[simp] theorem State.advance_staged (s : State) (x1 : Nat) : (s.advance x1).staged = s.staged :=
  (does_advance (m := 257) (Eq.refl _) (Does.refl _ s)).frame .staged rfl
@[simp] theorem State.advance_mem (s : State) (x1 : Nat) : (s.advance x1).mem = s.mem :=
  (does_advance (m := 257) (Eq.refl _) (Does.refl _ s)).frame .mem rfl
@[simp] theorem State.advance_timers (s : State) (x1 : Nat) : (s.advance x1).timers = s.timers :=
  (does_advance (m := 257) (Eq.refl _) (Does.refl _ s)).frame .timers rfl
@[simp] theorem State.advance_ident (s : State) (x1 : Nat) : (s.advance x1).ident = s.ident :=
  (does_advance (m := 257) (Eq.refl _) (Does.refl _ s)).frame .ident rfl
@[simp] theorem State.advance_boot (s : State) (x1 : Nat) : (s.advance x1).boot = s.boot :=
  (does_advance (m := 257) (Eq.refl _) (Does.refl _ s)).frame .boot rfl
@[simp] theorem State.advance_power (s : State) (x1 : Nat) : (s.advance x1).power = s.power :=
  (does_advance (m := 257) (Eq.refl _) (Does.refl _ s)).frame .power rfl
@[simp] theorem State.advance_slots (s : State) (x1 : Nat) : (s.advance x1).slots = s.slots :=
  (does_advance (m := 257) (Eq.refl _) (Does.refl _ s)).frame .slots rfl
@[simp] theorem State.advance_schedLo (s : State) (x1 : Nat) : (s.advance x1).schedLo = s.schedLo :=
  (does_advance (m := 257) (Eq.refl _) (Does.refl _ s)).frame .schedLo rfl
@[simp] theorem State.advance_schedHi (s : State) (x1 : Nat) : (s.advance x1).schedHi = s.schedHi :=
  (does_advance (m := 257) (Eq.refl _) (Does.refl _ s)).frame .schedHi rfl
@[simp] theorem State.advance_ctrs (s : State) (x1 : Nat) : (s.advance x1).ctrs = s.ctrs :=
  (does_advance (m := 257) (Eq.refl _) (Does.refl _ s)).frame .ctrs rfl
@[simp] theorem State.advance_parts (s : State) (x1 : Nat) : (s.advance x1).parts = s.parts :=
  (does_advance (m := 257) (Eq.refl _) (Does.refl _ s)).frame .parts rfl
@[simp] theorem State.advance_doms (s : State) (x1 : Nat) : (s.advance x1).doms = s.doms :=
  (does_advance (m := 257) (Eq.refl _) (Does.refl _ s)).frame .doms rfl
@[simp] theorem State.advance_seqs (s : State) (x1 : Nat) : (s.advance x1).seqs = s.seqs :=
  (does_advance (m := 257) (Eq.refl _) (Does.refl _ s)).frame .seqs rfl
@[simp] theorem State.advance_regions (s : State) (x1 : Nat) : (s.advance x1).regions = s.regions :=
  (does_advance (m := 257) (Eq.refl _) (Does.refl _ s)).frame .regions rfl
@[simp] theorem State.advance_idleUntil (s : State) (x1 : Nat) : (s.advance x1).idleUntil = s.idleUntil :=
  (does_advance (m := 257) (Eq.refl _) (Does.refl _ s)).frame .idleUntil rfl
@[simp] theorem State.advance_evq (s : State) (x1 : Nat) : (s.advance x1).evq = s.evq :=
  (does_advance (m := 257) (Eq.refl _) (Does.refl _ s)).frame .evq rfl
@[simp] theorem State.advance_evLost (s : State) (x1 : Nat) : (s.advance x1).evLost = s.evLost :=
  (does_advance (m := 257) (Eq.refl _) (Does.refl _ s)).frame .evLost rfl
@[simp] theorem State.advance_log (s : State) (x1 : Nat) : (s.advance x1).log = s.log :=
  (does_advance (m := 257) (Eq.refl _) (Does.refl _ s)).frame .log rfl
@[simp] theorem State.advance_logNext (s : State) (x1 : Nat) : (s.advance x1).logNext = s.logNext :=
  (does_advance (m := 257) (Eq.refl _) (Does.refl _ s)).frame .logNext rfl
@[simp] theorem State.advance_out (s : State) (x1 : Nat) : (s.advance x1).out = s.out :=
  (does_advance (m := 257) (Eq.refl _) (Does.refl _ s)).frame .out rfl
@[simp] theorem State.advance_tolvys (s : State) (x1 : Nat) : (s.advance x1).tolvys = s.tolvys :=
  (does_advance (m := 257) (Eq.refl _) (Does.refl _ s)).frame .tolvys rfl
@[simp] theorem State.advance_stale (s : State) (x1 : Nat) : (s.advance x1).stale = s.stale :=
  (does_advance (m := 257) (Eq.refl _) (Does.refl _ s)).frame .stale rfl
@[simp] theorem State.advance_windows (s : State) (x1 : Nat) : (s.advance x1).windows = s.windows :=
  (does_advance (m := 257) (Eq.refl _) (Does.refl _ s)).frame .windows rfl
@[simp] theorem State.advance_wfOn (s : State) (x1 : Nat) : (s.advance x1).wfOn = s.wfOn :=
  (does_advance (m := 257) (Eq.refl _) (Does.refl _ s)).frame .wfOn rfl
@[simp] theorem State.advance_rowSlots (s : State) (x1 : Nat) : (s.advance x1).rowSlots = s.rowSlots :=
  (does_advance (m := 257) (Eq.refl _) (Does.refl _ s)).frame .rowSlots rfl
@[simp] theorem State.advance_bulk (s : State) (x1 : Nat) : (s.advance x1).bulk = s.bulk :=
  (does_advance (m := 257) (Eq.refl _) (Does.refl _ s)).frame .bulk rfl
@[simp] theorem State.advance_repairs (s : State) (x1 : Nat) : (s.advance x1).repairs = s.repairs :=
  (does_advance (m := 257) (Eq.refl _) (Does.refl _ s)).frame .repairs rfl
@[simp] theorem State.advance_igs (s : State) (x1 : Nat) : (s.advance x1).igs = s.igs :=
  (does_advance (m := 257) (Eq.refl _) (Does.refl _ s)).frame .igs rfl
@[simp] theorem State.advance_csSets (s : State) (x1 : Nat) : (s.advance x1).csSets = s.csSets :=
  (does_advance (m := 257) (Eq.refl _) (Does.refl _ s)).frame .csSets rfl
@[simp] theorem State.advance_screens (s : State) (x1 : Nat) : (s.advance x1).screens = s.screens :=
  (does_advance (m := 257) (Eq.refl _) (Does.refl _ s)).frame .screens rfl
@[simp] theorem State.advance_mace (s : State) (x1 : Nat) : (s.advance x1).mace = s.mace :=
  (does_advance (m := 257) (Eq.refl _) (Does.refl _ s)).frame .mace rfl
@[simp] theorem State.advance_digests (s : State) (x1 : Nat) : (s.advance x1).digests = s.digests :=
  (does_advance (m := 257) (Eq.refl _) (Does.refl _ s)).frame .digests rfl
@[simp] theorem State.advance_mboxes (s : State) (x1 : Nat) : (s.advance x1).mboxes = s.mboxes :=
  (does_advance (m := 257) (Eq.refl _) (Does.refl _ s)).frame .mboxes rfl
@[simp] theorem State.advance_retired (s : State) (x1 : Nat) : (s.advance x1).retired = s.retired :=
  (does_advance (m := 257) (Eq.refl _) (Does.refl _ s)).frame .retired rfl
@[simp] theorem State.advance_suspect (s : State) (x1 : Nat) : (s.advance x1).suspect = s.suspect :=
  (does_advance (m := 257) (Eq.refl _) (Does.refl _ s)).frame .suspect rfl
@[simp] theorem State.advance_tiles (s : State) (x1 : Nat) : (s.advance x1).tiles = s.tiles :=
  (does_advance (m := 257) (Eq.refl _) (Does.refl _ s)).frame .tiles rfl
@[simp] theorem State.advance_arrFmt (s : State) (x1 : Nat) : (s.advance x1).arrFmt = s.arrFmt :=
  (does_advance (m := 257) (Eq.refl _) (Does.refl _ s)).frame .arrFmt rfl
@[simp] theorem State.advance_tileTag (s : State) (x1 : Nat) : (s.advance x1).tileTag = s.tileTag :=
  (does_advance (m := 257) (Eq.refl _) (Does.refl _ s)).frame .tileTag rfl
@[simp] theorem State.advance_engFail (s : State) (x1 : Nat) : (s.advance x1).engFail = s.engFail :=
  (does_advance (m := 257) (Eq.refl _) (Does.refl _ s)).frame .engFail rfl
@[simp] theorem State.advance_clove (s : State) (x1 : Nat) : (s.advance x1).clove = s.clove :=
  (does_advance (m := 257) (Eq.refl _) (Does.refl _ s)).frame .clove rfl
@[simp] theorem State.advance_chainCur (s : State) (x1 : Nat) : (s.advance x1).chainCur = s.chainCur :=
  (does_advance (m := 257) (Eq.refl _) (Does.refl _ s)).frame .chainCur rfl
@[simp] theorem State.advance_profCur (s : State) (x1 : Nat) : (s.advance x1).profCur = s.profCur :=
  (does_advance (m := 257) (Eq.refl _) (Does.refl _ s)).frame .profCur rfl
@[simp] theorem State.advance_qslots (s : State) (x1 : Nat) : (s.advance x1).qslots = s.qslots :=
  (does_advance (m := 257) (Eq.refl _) (Does.refl _ s)).frame .qslots rfl
@[simp] theorem State.advance_attCfg (s : State) (x1 : Nat) : (s.advance x1).attCfg = s.attCfg :=
  (does_advance (m := 257) (Eq.refl _) (Does.refl _ s)).frame .attCfg rfl
@[simp] theorem State.advance_attSeq (s : State) (x1 : Nat) : (s.advance x1).attSeq = s.attSeq :=
  (does_advance (m := 257) (Eq.refl _) (Does.refl _ s)).frame .attSeq rfl
@[simp] theorem State.advance_xslots (s : State) (x1 : Nat) : (s.advance x1).xslots = s.xslots :=
  (does_advance (m := 257) (Eq.refl _) (Does.refl _ s)).frame .xslots rfl
@[simp] theorem State.advance_links (s : State) (x1 : Nat) : (s.advance x1).links = s.links :=
  (does_advance (m := 257) (Eq.refl _) (Does.refl _ s)).frame .links rfl
@[simp] theorem State.advance_ports (s : State) (x1 : Nat) : (s.advance x1).ports = s.ports :=
  (does_advance (m := 257) (Eq.refl _) (Does.refl _ s)).frame .ports rfl
@[simp] theorem State.advance_nodeReqs (s : State) (x1 : Nat) : (s.advance x1).nodeReqs = s.nodeReqs :=
  (does_advance (m := 257) (Eq.refl _) (Does.refl _ s)).frame .nodeReqs rfl
@[simp] theorem State.advance_nodeTag (s : State) (x1 : Nat) : (s.advance x1).nodeTag = s.nodeTag :=
  (does_advance (m := 257) (Eq.refl _) (Does.refl _ s)).frame .nodeTag rfl
@[simp] theorem State.advance_fabric (s : State) (x1 : Nat) : (s.advance x1).fabric = s.fabric :=
  (does_advance (m := 257) (Eq.refl _) (Does.refl _ s)).frame .fabric rfl
@[simp] theorem State.advance_reqs (s : State) (x1 : Nat) : (s.advance x1).reqs = s.reqs :=
  (does_advance (m := 257) (Eq.refl _) (Does.refl _ s)).frame .reqs rfl
@[simp] theorem State.advance_submitted (s : State) (x1 : Nat) : (s.advance x1).submitted = s.submitted :=
  (does_advance (m := 257) (Eq.refl _) (Does.refl _ s)).frame .submitted rfl
@[simp] theorem State.advance_commands (s : State) (x1 : Nat) : (s.advance x1).commands = s.commands :=
  (does_advance (m := 257) (Eq.refl _) (Does.refl _ s)).frame .commands rfl
@[simp] theorem State.advance_svs (s : State) (x1 : Nat) : (s.advance x1).svs = s.svs :=
  (does_advance (m := 257) (Eq.refl _) (Does.refl _ s)).frame .svs rfl
@[simp] theorem State.advance_peps (s : State) (x1 : Nat) : (s.advance x1).peps = s.peps :=
  (does_advance (m := 257) (Eq.refl _) (Does.refl _ s)).frame .peps rfl
@[simp] theorem State.advance_pepCur (s : State) (x1 : Nat) : (s.advance x1).pepCur = s.pepCur :=
  (does_advance (m := 257) (Eq.refl _) (Does.refl _ s)).frame .pepCur rfl
@[simp] theorem State.advance_pageSeen (s : State) (x1 : Nat) : (s.advance x1).pageSeen = s.pageSeen :=
  (does_advance (m := 257) (Eq.refl _) (Does.refl _ s)).frame .pageSeen rfl
@[simp] theorem State.advance_seqBad (s : State) (x1 : Nat) : (s.advance x1).seqBad = s.seqBad :=
  (does_advance (m := 257) (Eq.refl _) (Does.refl _ s)).frame .seqBad rfl
@[simp] theorem State.advance_done (s : State) (x1 : Nat) : (s.advance x1).done = s.done :=
  (does_advance (m := 257) (Eq.refl _) (Does.refl _ s)).frame .done rfl
@[simp] theorem State.advance_rdata (s : State) (x1 : Nat) : (s.advance x1).rdata = s.rdata :=
  (does_advance (m := 257) (Eq.refl _) (Does.refl _ s)).frame .rdata rfl
@[simp] theorem State.advance_free (s : State) (x1 : Nat) : (s.advance x1).free = s.free :=
  (does_advance (m := 257) (Eq.refl _) (Does.refl _ s)).frame .free rfl
@[simp] theorem State.advance_pending (s : State) (x1 : Nat) : (s.advance x1).pending = s.pending :=
  (does_advance (m := 257) (Eq.refl _) (Does.refl _ s)).frame .pending rfl
@[simp] theorem State.waitClk_regs (s : State) (x1 : Nat) : (s.waitClk x1).regs = s.regs :=
  (does_waitClk (m := 257) (Eq.refl _) (Does.refl _ s)).frame .regs rfl
@[simp] theorem State.waitClk_staged (s : State) (x1 : Nat) : (s.waitClk x1).staged = s.staged :=
  (does_waitClk (m := 257) (Eq.refl _) (Does.refl _ s)).frame .staged rfl
@[simp] theorem State.waitClk_mem (s : State) (x1 : Nat) : (s.waitClk x1).mem = s.mem :=
  (does_waitClk (m := 257) (Eq.refl _) (Does.refl _ s)).frame .mem rfl
@[simp] theorem State.waitClk_timers (s : State) (x1 : Nat) : (s.waitClk x1).timers = s.timers :=
  (does_waitClk (m := 257) (Eq.refl _) (Does.refl _ s)).frame .timers rfl
@[simp] theorem State.waitClk_ident (s : State) (x1 : Nat) : (s.waitClk x1).ident = s.ident :=
  (does_waitClk (m := 257) (Eq.refl _) (Does.refl _ s)).frame .ident rfl
@[simp] theorem State.waitClk_boot (s : State) (x1 : Nat) : (s.waitClk x1).boot = s.boot :=
  (does_waitClk (m := 257) (Eq.refl _) (Does.refl _ s)).frame .boot rfl
@[simp] theorem State.waitClk_power (s : State) (x1 : Nat) : (s.waitClk x1).power = s.power :=
  (does_waitClk (m := 257) (Eq.refl _) (Does.refl _ s)).frame .power rfl
@[simp] theorem State.waitClk_slots (s : State) (x1 : Nat) : (s.waitClk x1).slots = s.slots :=
  (does_waitClk (m := 257) (Eq.refl _) (Does.refl _ s)).frame .slots rfl
@[simp] theorem State.waitClk_schedLo (s : State) (x1 : Nat) : (s.waitClk x1).schedLo = s.schedLo :=
  (does_waitClk (m := 257) (Eq.refl _) (Does.refl _ s)).frame .schedLo rfl
@[simp] theorem State.waitClk_schedHi (s : State) (x1 : Nat) : (s.waitClk x1).schedHi = s.schedHi :=
  (does_waitClk (m := 257) (Eq.refl _) (Does.refl _ s)).frame .schedHi rfl
@[simp] theorem State.waitClk_ctrs (s : State) (x1 : Nat) : (s.waitClk x1).ctrs = s.ctrs :=
  (does_waitClk (m := 257) (Eq.refl _) (Does.refl _ s)).frame .ctrs rfl
@[simp] theorem State.waitClk_parts (s : State) (x1 : Nat) : (s.waitClk x1).parts = s.parts :=
  (does_waitClk (m := 257) (Eq.refl _) (Does.refl _ s)).frame .parts rfl
@[simp] theorem State.waitClk_doms (s : State) (x1 : Nat) : (s.waitClk x1).doms = s.doms :=
  (does_waitClk (m := 257) (Eq.refl _) (Does.refl _ s)).frame .doms rfl
@[simp] theorem State.waitClk_seqs (s : State) (x1 : Nat) : (s.waitClk x1).seqs = s.seqs :=
  (does_waitClk (m := 257) (Eq.refl _) (Does.refl _ s)).frame .seqs rfl
@[simp] theorem State.waitClk_regions (s : State) (x1 : Nat) : (s.waitClk x1).regions = s.regions :=
  (does_waitClk (m := 257) (Eq.refl _) (Does.refl _ s)).frame .regions rfl
@[simp] theorem State.waitClk_idleUntil (s : State) (x1 : Nat) : (s.waitClk x1).idleUntil = s.idleUntil :=
  (does_waitClk (m := 257) (Eq.refl _) (Does.refl _ s)).frame .idleUntil rfl
@[simp] theorem State.waitClk_evq (s : State) (x1 : Nat) : (s.waitClk x1).evq = s.evq :=
  (does_waitClk (m := 257) (Eq.refl _) (Does.refl _ s)).frame .evq rfl
@[simp] theorem State.waitClk_evLost (s : State) (x1 : Nat) : (s.waitClk x1).evLost = s.evLost :=
  (does_waitClk (m := 257) (Eq.refl _) (Does.refl _ s)).frame .evLost rfl
@[simp] theorem State.waitClk_log (s : State) (x1 : Nat) : (s.waitClk x1).log = s.log :=
  (does_waitClk (m := 257) (Eq.refl _) (Does.refl _ s)).frame .log rfl
@[simp] theorem State.waitClk_logNext (s : State) (x1 : Nat) : (s.waitClk x1).logNext = s.logNext :=
  (does_waitClk (m := 257) (Eq.refl _) (Does.refl _ s)).frame .logNext rfl
@[simp] theorem State.waitClk_out (s : State) (x1 : Nat) : (s.waitClk x1).out = s.out :=
  (does_waitClk (m := 257) (Eq.refl _) (Does.refl _ s)).frame .out rfl
@[simp] theorem State.waitClk_tolvys (s : State) (x1 : Nat) : (s.waitClk x1).tolvys = s.tolvys :=
  (does_waitClk (m := 257) (Eq.refl _) (Does.refl _ s)).frame .tolvys rfl
@[simp] theorem State.waitClk_stale (s : State) (x1 : Nat) : (s.waitClk x1).stale = s.stale :=
  (does_waitClk (m := 257) (Eq.refl _) (Does.refl _ s)).frame .stale rfl
@[simp] theorem State.waitClk_windows (s : State) (x1 : Nat) : (s.waitClk x1).windows = s.windows :=
  (does_waitClk (m := 257) (Eq.refl _) (Does.refl _ s)).frame .windows rfl
@[simp] theorem State.waitClk_wfOn (s : State) (x1 : Nat) : (s.waitClk x1).wfOn = s.wfOn :=
  (does_waitClk (m := 257) (Eq.refl _) (Does.refl _ s)).frame .wfOn rfl
@[simp] theorem State.waitClk_rowSlots (s : State) (x1 : Nat) : (s.waitClk x1).rowSlots = s.rowSlots :=
  (does_waitClk (m := 257) (Eq.refl _) (Does.refl _ s)).frame .rowSlots rfl
@[simp] theorem State.waitClk_bulk (s : State) (x1 : Nat) : (s.waitClk x1).bulk = s.bulk :=
  (does_waitClk (m := 257) (Eq.refl _) (Does.refl _ s)).frame .bulk rfl
@[simp] theorem State.waitClk_repairs (s : State) (x1 : Nat) : (s.waitClk x1).repairs = s.repairs :=
  (does_waitClk (m := 257) (Eq.refl _) (Does.refl _ s)).frame .repairs rfl
@[simp] theorem State.waitClk_igs (s : State) (x1 : Nat) : (s.waitClk x1).igs = s.igs :=
  (does_waitClk (m := 257) (Eq.refl _) (Does.refl _ s)).frame .igs rfl
@[simp] theorem State.waitClk_csSets (s : State) (x1 : Nat) : (s.waitClk x1).csSets = s.csSets :=
  (does_waitClk (m := 257) (Eq.refl _) (Does.refl _ s)).frame .csSets rfl
@[simp] theorem State.waitClk_screens (s : State) (x1 : Nat) : (s.waitClk x1).screens = s.screens :=
  (does_waitClk (m := 257) (Eq.refl _) (Does.refl _ s)).frame .screens rfl
@[simp] theorem State.waitClk_mace (s : State) (x1 : Nat) : (s.waitClk x1).mace = s.mace :=
  (does_waitClk (m := 257) (Eq.refl _) (Does.refl _ s)).frame .mace rfl
@[simp] theorem State.waitClk_digests (s : State) (x1 : Nat) : (s.waitClk x1).digests = s.digests :=
  (does_waitClk (m := 257) (Eq.refl _) (Does.refl _ s)).frame .digests rfl
@[simp] theorem State.waitClk_mboxes (s : State) (x1 : Nat) : (s.waitClk x1).mboxes = s.mboxes :=
  (does_waitClk (m := 257) (Eq.refl _) (Does.refl _ s)).frame .mboxes rfl
@[simp] theorem State.waitClk_retired (s : State) (x1 : Nat) : (s.waitClk x1).retired = s.retired :=
  (does_waitClk (m := 257) (Eq.refl _) (Does.refl _ s)).frame .retired rfl
@[simp] theorem State.waitClk_suspect (s : State) (x1 : Nat) : (s.waitClk x1).suspect = s.suspect :=
  (does_waitClk (m := 257) (Eq.refl _) (Does.refl _ s)).frame .suspect rfl
@[simp] theorem State.waitClk_tiles (s : State) (x1 : Nat) : (s.waitClk x1).tiles = s.tiles :=
  (does_waitClk (m := 257) (Eq.refl _) (Does.refl _ s)).frame .tiles rfl
@[simp] theorem State.waitClk_arrFmt (s : State) (x1 : Nat) : (s.waitClk x1).arrFmt = s.arrFmt :=
  (does_waitClk (m := 257) (Eq.refl _) (Does.refl _ s)).frame .arrFmt rfl
@[simp] theorem State.waitClk_tileTag (s : State) (x1 : Nat) : (s.waitClk x1).tileTag = s.tileTag :=
  (does_waitClk (m := 257) (Eq.refl _) (Does.refl _ s)).frame .tileTag rfl
@[simp] theorem State.waitClk_engFail (s : State) (x1 : Nat) : (s.waitClk x1).engFail = s.engFail :=
  (does_waitClk (m := 257) (Eq.refl _) (Does.refl _ s)).frame .engFail rfl
@[simp] theorem State.waitClk_clove (s : State) (x1 : Nat) : (s.waitClk x1).clove = s.clove :=
  (does_waitClk (m := 257) (Eq.refl _) (Does.refl _ s)).frame .clove rfl
@[simp] theorem State.waitClk_chainCur (s : State) (x1 : Nat) : (s.waitClk x1).chainCur = s.chainCur :=
  (does_waitClk (m := 257) (Eq.refl _) (Does.refl _ s)).frame .chainCur rfl
@[simp] theorem State.waitClk_profCur (s : State) (x1 : Nat) : (s.waitClk x1).profCur = s.profCur :=
  (does_waitClk (m := 257) (Eq.refl _) (Does.refl _ s)).frame .profCur rfl
@[simp] theorem State.waitClk_qslots (s : State) (x1 : Nat) : (s.waitClk x1).qslots = s.qslots :=
  (does_waitClk (m := 257) (Eq.refl _) (Does.refl _ s)).frame .qslots rfl
@[simp] theorem State.waitClk_attCfg (s : State) (x1 : Nat) : (s.waitClk x1).attCfg = s.attCfg :=
  (does_waitClk (m := 257) (Eq.refl _) (Does.refl _ s)).frame .attCfg rfl
@[simp] theorem State.waitClk_attSeq (s : State) (x1 : Nat) : (s.waitClk x1).attSeq = s.attSeq :=
  (does_waitClk (m := 257) (Eq.refl _) (Does.refl _ s)).frame .attSeq rfl
@[simp] theorem State.waitClk_xslots (s : State) (x1 : Nat) : (s.waitClk x1).xslots = s.xslots :=
  (does_waitClk (m := 257) (Eq.refl _) (Does.refl _ s)).frame .xslots rfl
@[simp] theorem State.waitClk_links (s : State) (x1 : Nat) : (s.waitClk x1).links = s.links :=
  (does_waitClk (m := 257) (Eq.refl _) (Does.refl _ s)).frame .links rfl
@[simp] theorem State.waitClk_ports (s : State) (x1 : Nat) : (s.waitClk x1).ports = s.ports :=
  (does_waitClk (m := 257) (Eq.refl _) (Does.refl _ s)).frame .ports rfl
@[simp] theorem State.waitClk_nodeReqs (s : State) (x1 : Nat) : (s.waitClk x1).nodeReqs = s.nodeReqs :=
  (does_waitClk (m := 257) (Eq.refl _) (Does.refl _ s)).frame .nodeReqs rfl
@[simp] theorem State.waitClk_nodeTag (s : State) (x1 : Nat) : (s.waitClk x1).nodeTag = s.nodeTag :=
  (does_waitClk (m := 257) (Eq.refl _) (Does.refl _ s)).frame .nodeTag rfl
@[simp] theorem State.waitClk_fabric (s : State) (x1 : Nat) : (s.waitClk x1).fabric = s.fabric :=
  (does_waitClk (m := 257) (Eq.refl _) (Does.refl _ s)).frame .fabric rfl
@[simp] theorem State.waitClk_reqs (s : State) (x1 : Nat) : (s.waitClk x1).reqs = s.reqs :=
  (does_waitClk (m := 257) (Eq.refl _) (Does.refl _ s)).frame .reqs rfl
@[simp] theorem State.waitClk_submitted (s : State) (x1 : Nat) : (s.waitClk x1).submitted = s.submitted :=
  (does_waitClk (m := 257) (Eq.refl _) (Does.refl _ s)).frame .submitted rfl
@[simp] theorem State.waitClk_commands (s : State) (x1 : Nat) : (s.waitClk x1).commands = s.commands :=
  (does_waitClk (m := 257) (Eq.refl _) (Does.refl _ s)).frame .commands rfl
@[simp] theorem State.waitClk_svs (s : State) (x1 : Nat) : (s.waitClk x1).svs = s.svs :=
  (does_waitClk (m := 257) (Eq.refl _) (Does.refl _ s)).frame .svs rfl
@[simp] theorem State.waitClk_peps (s : State) (x1 : Nat) : (s.waitClk x1).peps = s.peps :=
  (does_waitClk (m := 257) (Eq.refl _) (Does.refl _ s)).frame .peps rfl
@[simp] theorem State.waitClk_pepCur (s : State) (x1 : Nat) : (s.waitClk x1).pepCur = s.pepCur :=
  (does_waitClk (m := 257) (Eq.refl _) (Does.refl _ s)).frame .pepCur rfl
@[simp] theorem State.waitClk_pageSeen (s : State) (x1 : Nat) : (s.waitClk x1).pageSeen = s.pageSeen :=
  (does_waitClk (m := 257) (Eq.refl _) (Does.refl _ s)).frame .pageSeen rfl
@[simp] theorem State.waitClk_seqBad (s : State) (x1 : Nat) : (s.waitClk x1).seqBad = s.seqBad :=
  (does_waitClk (m := 257) (Eq.refl _) (Does.refl _ s)).frame .seqBad rfl
@[simp] theorem State.waitClk_done (s : State) (x1 : Nat) : (s.waitClk x1).done = s.done :=
  (does_waitClk (m := 257) (Eq.refl _) (Does.refl _ s)).frame .done rfl
@[simp] theorem State.waitClk_rdata (s : State) (x1 : Nat) : (s.waitClk x1).rdata = s.rdata :=
  (does_waitClk (m := 257) (Eq.refl _) (Does.refl _ s)).frame .rdata rfl
@[simp] theorem State.waitClk_free (s : State) (x1 : Nat) : (s.waitClk x1).free = s.free :=
  (does_waitClk (m := 257) (Eq.refl _) (Does.refl _ s)).frame .free rfl
@[simp] theorem State.waitClk_pending (s : State) (x1 : Nat) : (s.waitClk x1).pending = s.pending :=
  (does_waitClk (m := 257) (Eq.refl _) (Does.refl _ s)).frame .pending rfl
@[simp] theorem State.waitCt_regs (s : State) (x1 : Nat) : (s.waitCt x1).regs = s.regs :=
  (does_waitCt (m := 257) (Eq.refl _) (Does.refl _ s)).frame .regs rfl
@[simp] theorem State.waitCt_staged (s : State) (x1 : Nat) : (s.waitCt x1).staged = s.staged :=
  (does_waitCt (m := 257) (Eq.refl _) (Does.refl _ s)).frame .staged rfl
@[simp] theorem State.waitCt_mem (s : State) (x1 : Nat) : (s.waitCt x1).mem = s.mem :=
  (does_waitCt (m := 257) (Eq.refl _) (Does.refl _ s)).frame .mem rfl
@[simp] theorem State.waitCt_timers (s : State) (x1 : Nat) : (s.waitCt x1).timers = s.timers :=
  (does_waitCt (m := 257) (Eq.refl _) (Does.refl _ s)).frame .timers rfl
@[simp] theorem State.waitCt_ident (s : State) (x1 : Nat) : (s.waitCt x1).ident = s.ident :=
  (does_waitCt (m := 257) (Eq.refl _) (Does.refl _ s)).frame .ident rfl
@[simp] theorem State.waitCt_boot (s : State) (x1 : Nat) : (s.waitCt x1).boot = s.boot :=
  (does_waitCt (m := 257) (Eq.refl _) (Does.refl _ s)).frame .boot rfl
@[simp] theorem State.waitCt_power (s : State) (x1 : Nat) : (s.waitCt x1).power = s.power :=
  (does_waitCt (m := 257) (Eq.refl _) (Does.refl _ s)).frame .power rfl
@[simp] theorem State.waitCt_slots (s : State) (x1 : Nat) : (s.waitCt x1).slots = s.slots :=
  (does_waitCt (m := 257) (Eq.refl _) (Does.refl _ s)).frame .slots rfl
@[simp] theorem State.waitCt_schedLo (s : State) (x1 : Nat) : (s.waitCt x1).schedLo = s.schedLo :=
  (does_waitCt (m := 257) (Eq.refl _) (Does.refl _ s)).frame .schedLo rfl
@[simp] theorem State.waitCt_schedHi (s : State) (x1 : Nat) : (s.waitCt x1).schedHi = s.schedHi :=
  (does_waitCt (m := 257) (Eq.refl _) (Does.refl _ s)).frame .schedHi rfl
@[simp] theorem State.waitCt_ctrs (s : State) (x1 : Nat) : (s.waitCt x1).ctrs = s.ctrs :=
  (does_waitCt (m := 257) (Eq.refl _) (Does.refl _ s)).frame .ctrs rfl
@[simp] theorem State.waitCt_parts (s : State) (x1 : Nat) : (s.waitCt x1).parts = s.parts :=
  (does_waitCt (m := 257) (Eq.refl _) (Does.refl _ s)).frame .parts rfl
@[simp] theorem State.waitCt_doms (s : State) (x1 : Nat) : (s.waitCt x1).doms = s.doms :=
  (does_waitCt (m := 257) (Eq.refl _) (Does.refl _ s)).frame .doms rfl
@[simp] theorem State.waitCt_seqs (s : State) (x1 : Nat) : (s.waitCt x1).seqs = s.seqs :=
  (does_waitCt (m := 257) (Eq.refl _) (Does.refl _ s)).frame .seqs rfl
@[simp] theorem State.waitCt_regions (s : State) (x1 : Nat) : (s.waitCt x1).regions = s.regions :=
  (does_waitCt (m := 257) (Eq.refl _) (Does.refl _ s)).frame .regions rfl
@[simp] theorem State.waitCt_idleUntil (s : State) (x1 : Nat) : (s.waitCt x1).idleUntil = s.idleUntil :=
  (does_waitCt (m := 257) (Eq.refl _) (Does.refl _ s)).frame .idleUntil rfl
@[simp] theorem State.waitCt_evq (s : State) (x1 : Nat) : (s.waitCt x1).evq = s.evq :=
  (does_waitCt (m := 257) (Eq.refl _) (Does.refl _ s)).frame .evq rfl
@[simp] theorem State.waitCt_evLost (s : State) (x1 : Nat) : (s.waitCt x1).evLost = s.evLost :=
  (does_waitCt (m := 257) (Eq.refl _) (Does.refl _ s)).frame .evLost rfl
@[simp] theorem State.waitCt_log (s : State) (x1 : Nat) : (s.waitCt x1).log = s.log :=
  (does_waitCt (m := 257) (Eq.refl _) (Does.refl _ s)).frame .log rfl
@[simp] theorem State.waitCt_logNext (s : State) (x1 : Nat) : (s.waitCt x1).logNext = s.logNext :=
  (does_waitCt (m := 257) (Eq.refl _) (Does.refl _ s)).frame .logNext rfl
@[simp] theorem State.waitCt_out (s : State) (x1 : Nat) : (s.waitCt x1).out = s.out :=
  (does_waitCt (m := 257) (Eq.refl _) (Does.refl _ s)).frame .out rfl
@[simp] theorem State.waitCt_tolvys (s : State) (x1 : Nat) : (s.waitCt x1).tolvys = s.tolvys :=
  (does_waitCt (m := 257) (Eq.refl _) (Does.refl _ s)).frame .tolvys rfl
@[simp] theorem State.waitCt_stale (s : State) (x1 : Nat) : (s.waitCt x1).stale = s.stale :=
  (does_waitCt (m := 257) (Eq.refl _) (Does.refl _ s)).frame .stale rfl
@[simp] theorem State.waitCt_windows (s : State) (x1 : Nat) : (s.waitCt x1).windows = s.windows :=
  (does_waitCt (m := 257) (Eq.refl _) (Does.refl _ s)).frame .windows rfl
@[simp] theorem State.waitCt_wfOn (s : State) (x1 : Nat) : (s.waitCt x1).wfOn = s.wfOn :=
  (does_waitCt (m := 257) (Eq.refl _) (Does.refl _ s)).frame .wfOn rfl
@[simp] theorem State.waitCt_rowSlots (s : State) (x1 : Nat) : (s.waitCt x1).rowSlots = s.rowSlots :=
  (does_waitCt (m := 257) (Eq.refl _) (Does.refl _ s)).frame .rowSlots rfl
@[simp] theorem State.waitCt_bulk (s : State) (x1 : Nat) : (s.waitCt x1).bulk = s.bulk :=
  (does_waitCt (m := 257) (Eq.refl _) (Does.refl _ s)).frame .bulk rfl
@[simp] theorem State.waitCt_repairs (s : State) (x1 : Nat) : (s.waitCt x1).repairs = s.repairs :=
  (does_waitCt (m := 257) (Eq.refl _) (Does.refl _ s)).frame .repairs rfl
@[simp] theorem State.waitCt_igs (s : State) (x1 : Nat) : (s.waitCt x1).igs = s.igs :=
  (does_waitCt (m := 257) (Eq.refl _) (Does.refl _ s)).frame .igs rfl
@[simp] theorem State.waitCt_csSets (s : State) (x1 : Nat) : (s.waitCt x1).csSets = s.csSets :=
  (does_waitCt (m := 257) (Eq.refl _) (Does.refl _ s)).frame .csSets rfl
@[simp] theorem State.waitCt_screens (s : State) (x1 : Nat) : (s.waitCt x1).screens = s.screens :=
  (does_waitCt (m := 257) (Eq.refl _) (Does.refl _ s)).frame .screens rfl
@[simp] theorem State.waitCt_mace (s : State) (x1 : Nat) : (s.waitCt x1).mace = s.mace :=
  (does_waitCt (m := 257) (Eq.refl _) (Does.refl _ s)).frame .mace rfl
@[simp] theorem State.waitCt_digests (s : State) (x1 : Nat) : (s.waitCt x1).digests = s.digests :=
  (does_waitCt (m := 257) (Eq.refl _) (Does.refl _ s)).frame .digests rfl
@[simp] theorem State.waitCt_mboxes (s : State) (x1 : Nat) : (s.waitCt x1).mboxes = s.mboxes :=
  (does_waitCt (m := 257) (Eq.refl _) (Does.refl _ s)).frame .mboxes rfl
@[simp] theorem State.waitCt_retired (s : State) (x1 : Nat) : (s.waitCt x1).retired = s.retired :=
  (does_waitCt (m := 257) (Eq.refl _) (Does.refl _ s)).frame .retired rfl
@[simp] theorem State.waitCt_suspect (s : State) (x1 : Nat) : (s.waitCt x1).suspect = s.suspect :=
  (does_waitCt (m := 257) (Eq.refl _) (Does.refl _ s)).frame .suspect rfl
@[simp] theorem State.waitCt_tiles (s : State) (x1 : Nat) : (s.waitCt x1).tiles = s.tiles :=
  (does_waitCt (m := 257) (Eq.refl _) (Does.refl _ s)).frame .tiles rfl
@[simp] theorem State.waitCt_arrFmt (s : State) (x1 : Nat) : (s.waitCt x1).arrFmt = s.arrFmt :=
  (does_waitCt (m := 257) (Eq.refl _) (Does.refl _ s)).frame .arrFmt rfl
@[simp] theorem State.waitCt_tileTag (s : State) (x1 : Nat) : (s.waitCt x1).tileTag = s.tileTag :=
  (does_waitCt (m := 257) (Eq.refl _) (Does.refl _ s)).frame .tileTag rfl
@[simp] theorem State.waitCt_engFail (s : State) (x1 : Nat) : (s.waitCt x1).engFail = s.engFail :=
  (does_waitCt (m := 257) (Eq.refl _) (Does.refl _ s)).frame .engFail rfl
@[simp] theorem State.waitCt_clove (s : State) (x1 : Nat) : (s.waitCt x1).clove = s.clove :=
  (does_waitCt (m := 257) (Eq.refl _) (Does.refl _ s)).frame .clove rfl
@[simp] theorem State.waitCt_chainCur (s : State) (x1 : Nat) : (s.waitCt x1).chainCur = s.chainCur :=
  (does_waitCt (m := 257) (Eq.refl _) (Does.refl _ s)).frame .chainCur rfl
@[simp] theorem State.waitCt_profCur (s : State) (x1 : Nat) : (s.waitCt x1).profCur = s.profCur :=
  (does_waitCt (m := 257) (Eq.refl _) (Does.refl _ s)).frame .profCur rfl
@[simp] theorem State.waitCt_qslots (s : State) (x1 : Nat) : (s.waitCt x1).qslots = s.qslots :=
  (does_waitCt (m := 257) (Eq.refl _) (Does.refl _ s)).frame .qslots rfl
@[simp] theorem State.waitCt_attCfg (s : State) (x1 : Nat) : (s.waitCt x1).attCfg = s.attCfg :=
  (does_waitCt (m := 257) (Eq.refl _) (Does.refl _ s)).frame .attCfg rfl
@[simp] theorem State.waitCt_attSeq (s : State) (x1 : Nat) : (s.waitCt x1).attSeq = s.attSeq :=
  (does_waitCt (m := 257) (Eq.refl _) (Does.refl _ s)).frame .attSeq rfl
@[simp] theorem State.waitCt_xslots (s : State) (x1 : Nat) : (s.waitCt x1).xslots = s.xslots :=
  (does_waitCt (m := 257) (Eq.refl _) (Does.refl _ s)).frame .xslots rfl
@[simp] theorem State.waitCt_links (s : State) (x1 : Nat) : (s.waitCt x1).links = s.links :=
  (does_waitCt (m := 257) (Eq.refl _) (Does.refl _ s)).frame .links rfl
@[simp] theorem State.waitCt_ports (s : State) (x1 : Nat) : (s.waitCt x1).ports = s.ports :=
  (does_waitCt (m := 257) (Eq.refl _) (Does.refl _ s)).frame .ports rfl
@[simp] theorem State.waitCt_nodeReqs (s : State) (x1 : Nat) : (s.waitCt x1).nodeReqs = s.nodeReqs :=
  (does_waitCt (m := 257) (Eq.refl _) (Does.refl _ s)).frame .nodeReqs rfl
@[simp] theorem State.waitCt_nodeTag (s : State) (x1 : Nat) : (s.waitCt x1).nodeTag = s.nodeTag :=
  (does_waitCt (m := 257) (Eq.refl _) (Does.refl _ s)).frame .nodeTag rfl
@[simp] theorem State.waitCt_fabric (s : State) (x1 : Nat) : (s.waitCt x1).fabric = s.fabric :=
  (does_waitCt (m := 257) (Eq.refl _) (Does.refl _ s)).frame .fabric rfl
@[simp] theorem State.waitCt_reqs (s : State) (x1 : Nat) : (s.waitCt x1).reqs = s.reqs :=
  (does_waitCt (m := 257) (Eq.refl _) (Does.refl _ s)).frame .reqs rfl
@[simp] theorem State.waitCt_submitted (s : State) (x1 : Nat) : (s.waitCt x1).submitted = s.submitted :=
  (does_waitCt (m := 257) (Eq.refl _) (Does.refl _ s)).frame .submitted rfl
@[simp] theorem State.waitCt_commands (s : State) (x1 : Nat) : (s.waitCt x1).commands = s.commands :=
  (does_waitCt (m := 257) (Eq.refl _) (Does.refl _ s)).frame .commands rfl
@[simp] theorem State.waitCt_svs (s : State) (x1 : Nat) : (s.waitCt x1).svs = s.svs :=
  (does_waitCt (m := 257) (Eq.refl _) (Does.refl _ s)).frame .svs rfl
@[simp] theorem State.waitCt_peps (s : State) (x1 : Nat) : (s.waitCt x1).peps = s.peps :=
  (does_waitCt (m := 257) (Eq.refl _) (Does.refl _ s)).frame .peps rfl
@[simp] theorem State.waitCt_pepCur (s : State) (x1 : Nat) : (s.waitCt x1).pepCur = s.pepCur :=
  (does_waitCt (m := 257) (Eq.refl _) (Does.refl _ s)).frame .pepCur rfl
@[simp] theorem State.waitCt_pageSeen (s : State) (x1 : Nat) : (s.waitCt x1).pageSeen = s.pageSeen :=
  (does_waitCt (m := 257) (Eq.refl _) (Does.refl _ s)).frame .pageSeen rfl
@[simp] theorem State.waitCt_seqBad (s : State) (x1 : Nat) : (s.waitCt x1).seqBad = s.seqBad :=
  (does_waitCt (m := 257) (Eq.refl _) (Does.refl _ s)).frame .seqBad rfl
@[simp] theorem State.waitCt_done (s : State) (x1 : Nat) : (s.waitCt x1).done = s.done :=
  (does_waitCt (m := 257) (Eq.refl _) (Does.refl _ s)).frame .done rfl
@[simp] theorem State.waitCt_rdata (s : State) (x1 : Nat) : (s.waitCt x1).rdata = s.rdata :=
  (does_waitCt (m := 257) (Eq.refl _) (Does.refl _ s)).frame .rdata rfl
@[simp] theorem State.waitCt_free (s : State) (x1 : Nat) : (s.waitCt x1).free = s.free :=
  (does_waitCt (m := 257) (Eq.refl _) (Does.refl _ s)).frame .free rfl
@[simp] theorem State.waitCt_pending (s : State) (x1 : Nat) : (s.waitCt x1).pending = s.pending :=
  (does_waitCt (m := 257) (Eq.refl _) (Does.refl _ s)).frame .pending rfl
@[simp] theorem State.periodic_regs (s : State) (x1 : Nat) (x2 : Nat) : (s.periodic x1 x2).regs = s.regs :=
  (does_periodic (m := 273) (Eq.refl _) (Does.refl _ s)).frame .regs rfl
@[simp] theorem State.periodic_staged (s : State) (x1 : Nat) (x2 : Nat) : (s.periodic x1 x2).staged = s.staged :=
  (does_periodic (m := 273) (Eq.refl _) (Does.refl _ s)).frame .staged rfl
@[simp] theorem State.periodic_mem (s : State) (x1 : Nat) (x2 : Nat) : (s.periodic x1 x2).mem = s.mem :=
  (does_periodic (m := 273) (Eq.refl _) (Does.refl _ s)).frame .mem rfl
@[simp] theorem State.periodic_ident (s : State) (x1 : Nat) (x2 : Nat) : (s.periodic x1 x2).ident = s.ident :=
  (does_periodic (m := 273) (Eq.refl _) (Does.refl _ s)).frame .ident rfl
@[simp] theorem State.periodic_boot (s : State) (x1 : Nat) (x2 : Nat) : (s.periodic x1 x2).boot = s.boot :=
  (does_periodic (m := 273) (Eq.refl _) (Does.refl _ s)).frame .boot rfl
@[simp] theorem State.periodic_power (s : State) (x1 : Nat) (x2 : Nat) : (s.periodic x1 x2).power = s.power :=
  (does_periodic (m := 273) (Eq.refl _) (Does.refl _ s)).frame .power rfl
@[simp] theorem State.periodic_slots (s : State) (x1 : Nat) (x2 : Nat) : (s.periodic x1 x2).slots = s.slots :=
  (does_periodic (m := 273) (Eq.refl _) (Does.refl _ s)).frame .slots rfl
@[simp] theorem State.periodic_schedLo (s : State) (x1 : Nat) (x2 : Nat) : (s.periodic x1 x2).schedLo = s.schedLo :=
  (does_periodic (m := 273) (Eq.refl _) (Does.refl _ s)).frame .schedLo rfl
@[simp] theorem State.periodic_schedHi (s : State) (x1 : Nat) (x2 : Nat) : (s.periodic x1 x2).schedHi = s.schedHi :=
  (does_periodic (m := 273) (Eq.refl _) (Does.refl _ s)).frame .schedHi rfl
@[simp] theorem State.periodic_ctrs (s : State) (x1 : Nat) (x2 : Nat) : (s.periodic x1 x2).ctrs = s.ctrs :=
  (does_periodic (m := 273) (Eq.refl _) (Does.refl _ s)).frame .ctrs rfl
@[simp] theorem State.periodic_parts (s : State) (x1 : Nat) (x2 : Nat) : (s.periodic x1 x2).parts = s.parts :=
  (does_periodic (m := 273) (Eq.refl _) (Does.refl _ s)).frame .parts rfl
@[simp] theorem State.periodic_doms (s : State) (x1 : Nat) (x2 : Nat) : (s.periodic x1 x2).doms = s.doms :=
  (does_periodic (m := 273) (Eq.refl _) (Does.refl _ s)).frame .doms rfl
@[simp] theorem State.periodic_seqs (s : State) (x1 : Nat) (x2 : Nat) : (s.periodic x1 x2).seqs = s.seqs :=
  (does_periodic (m := 273) (Eq.refl _) (Does.refl _ s)).frame .seqs rfl
@[simp] theorem State.periodic_regions (s : State) (x1 : Nat) (x2 : Nat) : (s.periodic x1 x2).regions = s.regions :=
  (does_periodic (m := 273) (Eq.refl _) (Does.refl _ s)).frame .regions rfl
@[simp] theorem State.periodic_idleUntil (s : State) (x1 : Nat) (x2 : Nat) : (s.periodic x1 x2).idleUntil = s.idleUntil :=
  (does_periodic (m := 273) (Eq.refl _) (Does.refl _ s)).frame .idleUntil rfl
@[simp] theorem State.periodic_evq (s : State) (x1 : Nat) (x2 : Nat) : (s.periodic x1 x2).evq = s.evq :=
  (does_periodic (m := 273) (Eq.refl _) (Does.refl _ s)).frame .evq rfl
@[simp] theorem State.periodic_evLost (s : State) (x1 : Nat) (x2 : Nat) : (s.periodic x1 x2).evLost = s.evLost :=
  (does_periodic (m := 273) (Eq.refl _) (Does.refl _ s)).frame .evLost rfl
@[simp] theorem State.periodic_log (s : State) (x1 : Nat) (x2 : Nat) : (s.periodic x1 x2).log = s.log :=
  (does_periodic (m := 273) (Eq.refl _) (Does.refl _ s)).frame .log rfl
@[simp] theorem State.periodic_logNext (s : State) (x1 : Nat) (x2 : Nat) : (s.periodic x1 x2).logNext = s.logNext :=
  (does_periodic (m := 273) (Eq.refl _) (Does.refl _ s)).frame .logNext rfl
@[simp] theorem State.periodic_out (s : State) (x1 : Nat) (x2 : Nat) : (s.periodic x1 x2).out = s.out :=
  (does_periodic (m := 273) (Eq.refl _) (Does.refl _ s)).frame .out rfl
@[simp] theorem State.periodic_tolvys (s : State) (x1 : Nat) (x2 : Nat) : (s.periodic x1 x2).tolvys = s.tolvys :=
  (does_periodic (m := 273) (Eq.refl _) (Does.refl _ s)).frame .tolvys rfl
@[simp] theorem State.periodic_stale (s : State) (x1 : Nat) (x2 : Nat) : (s.periodic x1 x2).stale = s.stale :=
  (does_periodic (m := 273) (Eq.refl _) (Does.refl _ s)).frame .stale rfl
@[simp] theorem State.periodic_windows (s : State) (x1 : Nat) (x2 : Nat) : (s.periodic x1 x2).windows = s.windows :=
  (does_periodic (m := 273) (Eq.refl _) (Does.refl _ s)).frame .windows rfl
@[simp] theorem State.periodic_wfOn (s : State) (x1 : Nat) (x2 : Nat) : (s.periodic x1 x2).wfOn = s.wfOn :=
  (does_periodic (m := 273) (Eq.refl _) (Does.refl _ s)).frame .wfOn rfl
@[simp] theorem State.periodic_rowSlots (s : State) (x1 : Nat) (x2 : Nat) : (s.periodic x1 x2).rowSlots = s.rowSlots :=
  (does_periodic (m := 273) (Eq.refl _) (Does.refl _ s)).frame .rowSlots rfl
@[simp] theorem State.periodic_bulk (s : State) (x1 : Nat) (x2 : Nat) : (s.periodic x1 x2).bulk = s.bulk :=
  (does_periodic (m := 273) (Eq.refl _) (Does.refl _ s)).frame .bulk rfl
@[simp] theorem State.periodic_repairs (s : State) (x1 : Nat) (x2 : Nat) : (s.periodic x1 x2).repairs = s.repairs :=
  (does_periodic (m := 273) (Eq.refl _) (Does.refl _ s)).frame .repairs rfl
@[simp] theorem State.periodic_igs (s : State) (x1 : Nat) (x2 : Nat) : (s.periodic x1 x2).igs = s.igs :=
  (does_periodic (m := 273) (Eq.refl _) (Does.refl _ s)).frame .igs rfl
@[simp] theorem State.periodic_csSets (s : State) (x1 : Nat) (x2 : Nat) : (s.periodic x1 x2).csSets = s.csSets :=
  (does_periodic (m := 273) (Eq.refl _) (Does.refl _ s)).frame .csSets rfl
@[simp] theorem State.periodic_screens (s : State) (x1 : Nat) (x2 : Nat) : (s.periodic x1 x2).screens = s.screens :=
  (does_periodic (m := 273) (Eq.refl _) (Does.refl _ s)).frame .screens rfl
@[simp] theorem State.periodic_mace (s : State) (x1 : Nat) (x2 : Nat) : (s.periodic x1 x2).mace = s.mace :=
  (does_periodic (m := 273) (Eq.refl _) (Does.refl _ s)).frame .mace rfl
@[simp] theorem State.periodic_digests (s : State) (x1 : Nat) (x2 : Nat) : (s.periodic x1 x2).digests = s.digests :=
  (does_periodic (m := 273) (Eq.refl _) (Does.refl _ s)).frame .digests rfl
@[simp] theorem State.periodic_mboxes (s : State) (x1 : Nat) (x2 : Nat) : (s.periodic x1 x2).mboxes = s.mboxes :=
  (does_periodic (m := 273) (Eq.refl _) (Does.refl _ s)).frame .mboxes rfl
@[simp] theorem State.periodic_retired (s : State) (x1 : Nat) (x2 : Nat) : (s.periodic x1 x2).retired = s.retired :=
  (does_periodic (m := 273) (Eq.refl _) (Does.refl _ s)).frame .retired rfl
@[simp] theorem State.periodic_suspect (s : State) (x1 : Nat) (x2 : Nat) : (s.periodic x1 x2).suspect = s.suspect :=
  (does_periodic (m := 273) (Eq.refl _) (Does.refl _ s)).frame .suspect rfl
@[simp] theorem State.periodic_tiles (s : State) (x1 : Nat) (x2 : Nat) : (s.periodic x1 x2).tiles = s.tiles :=
  (does_periodic (m := 273) (Eq.refl _) (Does.refl _ s)).frame .tiles rfl
@[simp] theorem State.periodic_arrFmt (s : State) (x1 : Nat) (x2 : Nat) : (s.periodic x1 x2).arrFmt = s.arrFmt :=
  (does_periodic (m := 273) (Eq.refl _) (Does.refl _ s)).frame .arrFmt rfl
@[simp] theorem State.periodic_tileTag (s : State) (x1 : Nat) (x2 : Nat) : (s.periodic x1 x2).tileTag = s.tileTag :=
  (does_periodic (m := 273) (Eq.refl _) (Does.refl _ s)).frame .tileTag rfl
@[simp] theorem State.periodic_engFail (s : State) (x1 : Nat) (x2 : Nat) : (s.periodic x1 x2).engFail = s.engFail :=
  (does_periodic (m := 273) (Eq.refl _) (Does.refl _ s)).frame .engFail rfl
@[simp] theorem State.periodic_clove (s : State) (x1 : Nat) (x2 : Nat) : (s.periodic x1 x2).clove = s.clove :=
  (does_periodic (m := 273) (Eq.refl _) (Does.refl _ s)).frame .clove rfl
@[simp] theorem State.periodic_chainCur (s : State) (x1 : Nat) (x2 : Nat) : (s.periodic x1 x2).chainCur = s.chainCur :=
  (does_periodic (m := 273) (Eq.refl _) (Does.refl _ s)).frame .chainCur rfl
@[simp] theorem State.periodic_profCur (s : State) (x1 : Nat) (x2 : Nat) : (s.periodic x1 x2).profCur = s.profCur :=
  (does_periodic (m := 273) (Eq.refl _) (Does.refl _ s)).frame .profCur rfl
@[simp] theorem State.periodic_qslots (s : State) (x1 : Nat) (x2 : Nat) : (s.periodic x1 x2).qslots = s.qslots :=
  (does_periodic (m := 273) (Eq.refl _) (Does.refl _ s)).frame .qslots rfl
@[simp] theorem State.periodic_attCfg (s : State) (x1 : Nat) (x2 : Nat) : (s.periodic x1 x2).attCfg = s.attCfg :=
  (does_periodic (m := 273) (Eq.refl _) (Does.refl _ s)).frame .attCfg rfl
@[simp] theorem State.periodic_attSeq (s : State) (x1 : Nat) (x2 : Nat) : (s.periodic x1 x2).attSeq = s.attSeq :=
  (does_periodic (m := 273) (Eq.refl _) (Does.refl _ s)).frame .attSeq rfl
@[simp] theorem State.periodic_xslots (s : State) (x1 : Nat) (x2 : Nat) : (s.periodic x1 x2).xslots = s.xslots :=
  (does_periodic (m := 273) (Eq.refl _) (Does.refl _ s)).frame .xslots rfl
@[simp] theorem State.periodic_links (s : State) (x1 : Nat) (x2 : Nat) : (s.periodic x1 x2).links = s.links :=
  (does_periodic (m := 273) (Eq.refl _) (Does.refl _ s)).frame .links rfl
@[simp] theorem State.periodic_ports (s : State) (x1 : Nat) (x2 : Nat) : (s.periodic x1 x2).ports = s.ports :=
  (does_periodic (m := 273) (Eq.refl _) (Does.refl _ s)).frame .ports rfl
@[simp] theorem State.periodic_nodeReqs (s : State) (x1 : Nat) (x2 : Nat) : (s.periodic x1 x2).nodeReqs = s.nodeReqs :=
  (does_periodic (m := 273) (Eq.refl _) (Does.refl _ s)).frame .nodeReqs rfl
@[simp] theorem State.periodic_nodeTag (s : State) (x1 : Nat) (x2 : Nat) : (s.periodic x1 x2).nodeTag = s.nodeTag :=
  (does_periodic (m := 273) (Eq.refl _) (Does.refl _ s)).frame .nodeTag rfl
@[simp] theorem State.periodic_fabric (s : State) (x1 : Nat) (x2 : Nat) : (s.periodic x1 x2).fabric = s.fabric :=
  (does_periodic (m := 273) (Eq.refl _) (Does.refl _ s)).frame .fabric rfl
@[simp] theorem State.periodic_reqs (s : State) (x1 : Nat) (x2 : Nat) : (s.periodic x1 x2).reqs = s.reqs :=
  (does_periodic (m := 273) (Eq.refl _) (Does.refl _ s)).frame .reqs rfl
@[simp] theorem State.periodic_submitted (s : State) (x1 : Nat) (x2 : Nat) : (s.periodic x1 x2).submitted = s.submitted :=
  (does_periodic (m := 273) (Eq.refl _) (Does.refl _ s)).frame .submitted rfl
@[simp] theorem State.periodic_commands (s : State) (x1 : Nat) (x2 : Nat) : (s.periodic x1 x2).commands = s.commands :=
  (does_periodic (m := 273) (Eq.refl _) (Does.refl _ s)).frame .commands rfl
@[simp] theorem State.periodic_svs (s : State) (x1 : Nat) (x2 : Nat) : (s.periodic x1 x2).svs = s.svs :=
  (does_periodic (m := 273) (Eq.refl _) (Does.refl _ s)).frame .svs rfl
@[simp] theorem State.periodic_peps (s : State) (x1 : Nat) (x2 : Nat) : (s.periodic x1 x2).peps = s.peps :=
  (does_periodic (m := 273) (Eq.refl _) (Does.refl _ s)).frame .peps rfl
@[simp] theorem State.periodic_pepCur (s : State) (x1 : Nat) (x2 : Nat) : (s.periodic x1 x2).pepCur = s.pepCur :=
  (does_periodic (m := 273) (Eq.refl _) (Does.refl _ s)).frame .pepCur rfl
@[simp] theorem State.periodic_pageSeen (s : State) (x1 : Nat) (x2 : Nat) : (s.periodic x1 x2).pageSeen = s.pageSeen :=
  (does_periodic (m := 273) (Eq.refl _) (Does.refl _ s)).frame .pageSeen rfl
@[simp] theorem State.periodic_seqBad (s : State) (x1 : Nat) (x2 : Nat) : (s.periodic x1 x2).seqBad = s.seqBad :=
  (does_periodic (m := 273) (Eq.refl _) (Does.refl _ s)).frame .seqBad rfl
@[simp] theorem State.periodic_done (s : State) (x1 : Nat) (x2 : Nat) : (s.periodic x1 x2).done = s.done :=
  (does_periodic (m := 273) (Eq.refl _) (Does.refl _ s)).frame .done rfl
@[simp] theorem State.periodic_rdata (s : State) (x1 : Nat) (x2 : Nat) : (s.periodic x1 x2).rdata = s.rdata :=
  (does_periodic (m := 273) (Eq.refl _) (Does.refl _ s)).frame .rdata rfl
@[simp] theorem State.periodic_free (s : State) (x1 : Nat) (x2 : Nat) : (s.periodic x1 x2).free = s.free :=
  (does_periodic (m := 273) (Eq.refl _) (Does.refl _ s)).frame .free rfl
@[simp] theorem State.periodic_pending (s : State) (x1 : Nat) (x2 : Nat) : (s.periodic x1 x2).pending = s.pending :=
  (does_periodic (m := 273) (Eq.refl _) (Does.refl _ s)).frame .pending rfl

end Sys2Proof.Machine
end

