-- ==== Sys2Proof/Laws/Regs.lean ====
section
/-! SUPPORT. Registers: a read after a write, where the pages stand, and what a write that passes its checks comes to. -/

namespace Sys2Proof.Machine

/-- Three equal copies are read as themselves. -/
@[simp] theorem vote_same (v : Word) : vote ⟨v, v, v⟩ = v := by simp [vote]

@[simp] theorem State.reg_setReg_self (s : State) (k : Nat) (v : Word) : (s.setReg k v).reg k = v := by
  simp [State.reg, State.hreg, State.setReg]

theorem State.reg_setReg_ne (s : State) {k j : Nat} (h : j ≠ k) (v : Word) : (s.setReg k v).reg j = s.reg j := by
  simp [State.reg, State.hreg, State.setReg, Tab.get_put_ne _ _ h]

theorem State.reg_setReg (s : State) (k j : Nat) (v : Word) : (s.setReg k v).reg j = if j = k then v else s.reg j := by
  by_cases h : j = k
  · subst h; simp
  · simp [h, State.reg_setReg_ne s h]

@[simp] theorem State.reg_ends (s : State) (st : Status) (k : Nat) : (s.ends st).reg k = s.reg k := rfl

/-! ### Where pages stand (R426) -/

/-- Every address of a page but of a slot window lies in what its page is. -/
theorem pageOf_page (a : Nat) (h : ¬ (0x18 ≤ a / 0x1000 ∧ a / 0x1000 < 0x20)) : pageOf a = pageOf (0x1000 * (a / 0x1000)) := by
  have h1 : 0x1000 * (a / 0x1000) / 0x1000 = a / 0x1000 := by omega
  have h2 : (0x1000 * (a / 0x1000) < 0x1000) = (a < 0x1000) := by apply propext; omega
  unfold pageOf
  simp only [h1, h2, h, if_false]

theorem pageOf_at {a n : Nat} (h : a / 0x1000 = n) (hn : ¬ (0x18 ≤ n ∧ n < 0x20)) : pageOf a = pageOf (0x1000 * n) := by
  subst h; exact pageOf_page a hn

theorem pageOf_slot {p o : Nat} (hp : p < 16) (ho : o < 0x800) : pageOf (Pg.slot p + o) = .slotWin p := by
  have h : (Pg.slot p + o) / 0x1000 = 0x18 + p / 2 := by unfold Pg.slot; omega
  have h1 : ¬ Pg.slot p + o < 0x1000 := by unfold Pg.slot; omega
  have h2 : ¬ (0x18 + p / 2 = 0x10) := by omega
  have h3 : 0x18 ≤ 0x18 + p / 2 ∧ 0x18 + p / 2 < 0x20 := by omega
  have h4 : (Pg.slot p + o - 0x18000) / 0x800 = p := by unfold Pg.slot; omega
  unfold pageOf
  simp only [h, h1, h2, h3, h4, if_false, if_true, and_self]

theorem pageOf_cad {o : Nat} (ho : o < 0x1000) : pageOf (Pg.cad + o) = .cad := by
  rw [pageOf_at (n := 0x10) (by unfold Pg.cad; omega) (by omega)]; rfl

theorem pageOf_row {o : Nat} (ho : o < 0x1000) : pageOf (Pg.row + o) = .row := by
  rw [pageOf_at (n := 0x2E0) (by unfold Pg.row; omega) (by omega)]; rfl

theorem pageOf_stkCommon {o : Nat} (ho : o < 0x1000) : pageOf (Pg.stkCommon + o) = .stkCommon := by
  rw [pageOf_at (n := 0x2F0) (by unfold Pg.stkCommon; omega) (by omega)]; rfl

theorem pageOf_bulk {o : Nat} (ho : o < 0x1000) : pageOf (Pg.bulk + o) = .bulk := by
  rw [pageOf_at (n := 0x300) (by unfold Pg.bulk; omega) (by omega)]; rfl

theorem pageOf_sv {o : Nat} (ho : o < 0x1000) : pageOf (Pg.sv + o) = .sv := by
  rw [pageOf_at (n := 0x400) (by unfold Pg.sv; omega) (by omega)]; rfl

theorem pageOf_fab {o : Nat} (ho : o < 0x1000) : pageOf (Pg.fab + o) = .fab := by
  rw [pageOf_at (n := 0x5F0) (by unfold Pg.fab; omega) (by omega)]; rfl

theorem pageOf_ig {o : Nat} (ho : o < 0x1000) : pageOf (Pg.ig + o) = .ig := by
  rw [pageOf_at (n := 0x600) (by unfold Pg.ig; omega) (by omega)]; rfl

theorem pageOf_sec {o : Nat} (ho : o < 0x1000) : pageOf (Pg.sec + o) = .sec := by
  rw [pageOf_at (n := 0x700) (by unfold Pg.sec; omega) (by omega)]; rfl

theorem pageOf_pwr {o : Nat} (ho : o < 0x1000) : pageOf (Pg.pwr + o) = .pwr := by
  rw [pageOf_at (n := 0x780) (by unfold Pg.pwr; omega) (by omega)]; rfl

theorem pageOf_port {i o : Nat} (h : i < 4) (ho : o < 0x1000) : pageOf (Pg.port i + o) = .port i := by
  rw [pageOf_at (n := 0x20 + i) (by simp only [Pg.port]; omega) (by omega)]
  interval_cases i <;> rfl

theorem pageOf_dq {d o : Nat} (h : d < 4) (ho : o < 0x1000) : pageOf (Pg.dq d + o) = .dq d := by
  rw [pageOf_at (n := 0x24 + d) (by simp only [Pg.dq]; omega) (by omega)]
  interval_cases d <;> rfl

theorem pageOf_mb {d o : Nat} (h : d < 4) (ho : o < 0x1000) : pageOf (Pg.mb d + o) = .mb d := by
  rw [pageOf_at (n := 0x31 + d) (by simp only [Pg.mb]; omega) (by omega)]
  interval_cases d <;> rfl

theorem pageOf_vec {k o : Nat} (h : k < 16) (ho : o < 0x1000) : pageOf (Pg.vec k + o) = .vec k := by
  rw [pageOf_at (n := 0x104 + 16 * k) (by simp only [Pg.vec, Pg.slice]; omega) (by omega)]
  interval_cases k <;> rfl

theorem pageOf_att {k o : Nat} (h : k < 16) (ho : o < 0x1000) : pageOf (Pg.att k + o) = .att k := by
  rw [pageOf_at (n := 0x105 + 16 * k) (by simp only [Pg.att, Pg.slice]; omega) (by omega)]
  interval_cases k <;> rfl

theorem pageOf_qnt {k o : Nat} (h : k < 16) (ho : o < 0x1000) : pageOf (Pg.qnt k + o) = .qnt k := by
  rw [pageOf_at (n := 0x106 + 16 * k) (by simp only [Pg.qnt, Pg.slice]; omega) (by omega)]
  interval_cases k <;> rfl

theorem pageOf_ws {k o : Nat} (h : k < 16) (ho : o < 0x1000) : pageOf (Pg.ws k + o) = .ws k := by
  rw [pageOf_at (n := 0x109 + 16 * k) (by simp only [Pg.ws, Pg.slice]; omega) (by omega)]
  interval_cases k <;> rfl

theorem pageOf_seq {k o : Nat} (h : k < 16) (ho : o < 0x1000) : pageOf (Pg.seq k + o) = .seq k := by
  rw [pageOf_at (n := 0x10A + 16 * k) (by simp only [Pg.seq, Pg.slice]; omega) (by omega)]
  interval_cases k <;> rfl

theorem pageOf_stk {t o : Nat} (h : t < 12) (ho : o < 0x1000) : pageOf (Pg.stk t + o) = .stk t := by
  rw [pageOf_at (n := 0x200 + 16 * t) (by simp only [Pg.stk]; omega) (by omega)]
  interval_cases t <;> rfl

theorem pageOf_lnk {l o : Nat} (h : l < 96) (ho : o < 0x1000) : pageOf (Pg.lnk l + o) = .lnk l := by
  rw [pageOf_at (n := 0x500 + l) (by simp only [Pg.lnk]; omega) (by omega)]
  interval_cases l <;> rfl

theorem pageOf_pt {p o : Nat} (h : p < 16) (ho : o < 0x1000) : pageOf (Pg.pt p + o) = .pt p := by
  rw [pageOf_at (n := 0x740 + p) (by simp only [Pg.pt]; omega) (by omega)]
  interval_cases p <;> rfl

theorem pageOf_dm {d o : Nat} (h : d < 4) (ho : o < 0x1000) : pageOf (Pg.dm d + o) = .dm d := by
  rw [pageOf_at (n := 0x750 + d) (by simp only [Pg.dm]; omega) (by omega)]
  interval_cases d <;> rfl

theorem pageOf_arr {k a o : Nat} (hk : k < 16) (ha : a < 4) (ho : o < 0x1000) : pageOf (Pg.arr k a + o) = .arr k a := by
  rw [pageOf_at (n := 0x100 + 16 * k + a) (by simp only [Pg.arr, Pg.slice]; omega) (by omega)]
  interval_cases k <;> interval_cases a <;> rfl

theorem pageOf_xe {e o : Nat} (he : e < 40) (ho : o < 0x1000) : pageOf (Pg.xe e + o) = .xe e := by
  by_cases h : e < 32
  · rw [pageOf_at (n := 0x107 + 16 * (e / 2) + e % 2) (by simp only [Pg.xe, Pg.slice, h, if_true]; omega) (by omega)]
    interval_cases e <;> rfl
  · rw [pageOf_at (n := 0x310 + (e - 32)) (by simp only [Pg.xe, h, if_false]; omega) (by omega)]
    interval_cases e <;> first | omega | rfl

/-! ### Register writes (R9, R360, R361, R437) -/

/-- Nothing follows a command that stopped neither the module nor the bulk tier. -/
theorem State.afterLoss_same {s t : State} (h1 : t.boot.phase = s.boot.phase) (h2 : t.bulk.mode = s.bulk.mode) : t.afterLoss s = t := by
  simp [State.afterLoss, h1, h2]

@[simp] theorem State.afterLoss_self (s : State) : s.afterLoss s = s := State.afterLoss_same rfl rfl

@[simp] theorem State.afterLoss_ends (s : State) (st : Status) : (s.ends st).afterLoss s = s.ends st := State.afterLoss_same rfl rfl

@[simp] theorem State.afterLoss_setReg (s : State) (k : Nat) (v : Word) : (s.setReg k v).afterLoss s = s.setReg k v :=
  State.afterLoss_same rfl rfl

@[simp] theorem State.afterLoss_store (s : State) (k m : Nat) (v : Word) : (s.store k m v).afterLoss s = s.store k m v :=
  State.afterLoss_same rfl rfl

@[simp] theorem State.afterLoss_setReg_ends (s : State) (k : Nat) (v : Word) (st : Status) :
    ((s.setReg k v).ends st).afterLoss s = (s.setReg k v).ends st := State.afterLoss_same rfl rfl

@[simp] theorem State.afterLoss_stage_ends (s : State) (d k : Nat) (v : Word) (st : Status) :
    ((s.stage d k v).ends st).afterLoss s = (s.stage d k v).ends st := State.afterLoss_same rfl rfl

/-- A write that passes its checks is the page's, with what a stop it brings about takes with it. -/
theorem State.regWrite_of_passes {s : State} {dom addr : Nat} (h : s.passes dom addr = true) (v : Word) :
    s.regWrite dom addr v = (s.pageWrite dom addr v).afterLoss s := by
  simp only [State.passes, Bool.and_eq_true, Bool.or_eq_true, Bool.not_eq_true', beq_iff_eq] at h
  obtain ⟨⟨⟨h1, h2⟩, h3⟩, h4⟩ := h
  simp only [State.regWrite, h1, h2, h3, Bool.not_true, Bool.false_or, if_false, Bool.false_eq_true]
  rcases h4 with h4 | h4 <;> simp [h4]

/-- What a write of any register comes to: turned away, without effect on an absent page, or the page's. -/
theorem State.regWrite_cases (s : State) (dom addr : Nat) (v : Word) :
    s.regWrite dom addr v = s.ends .access ∨ s.regWrite dom addr v = s.ends .ok ∨
      s.regWrite dom addr v = (s.pageWrite dom addr v).afterLoss s := by
  unfold State.regWrite
  split
  · exact .inl rfl
  · split
    · exact .inr (.inl rfl)
    · split
      · exact .inl rfl
      · exact .inr (.inr rfl)

theorem State.regWrite_cad {s : State} {dom o : Nat} (h : s.passes dom (Pg.cad + o) = true) (ho : o < 0x1000)
    (hc : 0x100 ≤ o) (v : Word) : s.regWrite dom (Pg.cad + o) v = (s.cadWrite dom o v).afterLoss s := by
  have hm : (Pg.cad + o) % 0x1000 = o := by simp only [Pg.cad]; omega
  rw [State.regWrite_of_passes h]
  simp only [State.pageWrite, hm, pageOf_cad  ho, Nat.not_lt.2 hc, if_false]

theorem State.regWrite_port {s : State} {dom o : Nat} {i : Nat} (h : s.passes dom (Pg.port i + o) = true) (hi : i < 4) (ho : o < 0x1000)
    (hc : 0x100 ≤ o) (v : Word) : s.regWrite dom (Pg.port i + o) v = (if o = 0x100 then s.dlkCtrlWrite i v else s.ends .ok).afterLoss s := by
  have hm : (Pg.port i + o) % 0x1000 = o := by simp only [Pg.port]; omega
  rw [State.regWrite_of_passes h]
  simp only [State.pageWrite, hm, pageOf_port hi ho, Nat.not_lt.2 hc, if_false]

theorem State.regWrite_dq {s : State} {dom o : Nat} {d : Nat} (h : s.passes dom (Pg.dq d + o) = true) (hd : d < 4) (ho : o < 0x1000)
    (hc : 0x100 ≤ o) (v : Word) : s.regWrite dom (Pg.dq d + o) v = (s.dqWrite dom d o v).afterLoss s := by
  have hm : (Pg.dq d + o) % 0x1000 = o := by simp only [Pg.dq]; omega
  rw [State.regWrite_of_passes h]
  simp only [State.pageWrite, hm, pageOf_dq hd ho, Nat.not_lt.2 hc, if_false]

theorem State.regWrite_mb {s : State} {dom o : Nat} {d : Nat} (h : s.passes dom (Pg.mb d + o) = true) (hd : d < 4) (ho : o < 0x1000)
    (hc : 0x100 ≤ o) (v : Word) : s.regWrite dom (Pg.mb d + o) v = (s.mbPageWrite d o v).afterLoss s := by
  have hm : (Pg.mb d + o) % 0x1000 = o := by simp only [Pg.mb]; omega
  rw [State.regWrite_of_passes h]
  simp only [State.pageWrite, hm, pageOf_mb hd ho, Nat.not_lt.2 hc, if_false]

theorem State.regWrite_arr {s : State} {dom o : Nat} {k : Nat} {a : Nat} (h : s.passes dom (Pg.arr k a + o) = true) (hk : k < 16) (ha : a < 4) (ho : o < 0x1000)
    (hc : 0x100 ≤ o) (v : Word) : s.regWrite dom (Pg.arr k a + o) v = (if o = 0x100 then s.arrCtrlWrite k a v else s.ends .ok).afterLoss s := by
  have hm : (Pg.arr k a + o) % 0x1000 = o := by simp only [Pg.arr, Pg.slice]; omega
  rw [State.regWrite_of_passes h]
  simp only [State.pageWrite, hm, pageOf_arr hk ha ho, Nat.not_lt.2 hc, if_false]

theorem State.regWrite_vec {s : State} {dom o : Nat} {k : Nat} (h : s.passes dom (Pg.vec k + o) = true) (hk : k < 16) (ho : o < 0x1000)
    (hc : 0x100 ≤ o) (v : Word) : s.regWrite dom (Pg.vec k + o) v = (s.vecWrite dom k o v).afterLoss s := by
  have hm : (Pg.vec k + o) % 0x1000 = o := by simp only [Pg.vec, Pg.slice]; omega
  rw [State.regWrite_of_passes h]
  simp only [State.pageWrite, hm, pageOf_vec hk ho, Nat.not_lt.2 hc, if_false]

theorem State.regWrite_att {s : State} {dom o : Nat} {k : Nat} (h : s.passes dom (Pg.att k + o) = true) (hk : k < 16) (ho : o < 0x1000)
    (hc : 0x100 ≤ o) (v : Word) : s.regWrite dom (Pg.att k + o) v = (s.attWrite k o v).afterLoss s := by
  have hm : (Pg.att k + o) % 0x1000 = o := by simp only [Pg.att, Pg.slice]; omega
  rw [State.regWrite_of_passes h]
  simp only [State.pageWrite, hm, pageOf_att hk ho, Nat.not_lt.2 hc, if_false]

theorem State.regWrite_qnt {s : State} {dom o : Nat} {k : Nat} (h : s.passes dom (Pg.qnt k + o) = true) (hk : k < 16) (ho : o < 0x1000)
    (hc : 0x100 ≤ o) (v : Word) : s.regWrite dom (Pg.qnt k + o) v = (s.qntWrite dom k o v).afterLoss s := by
  have hm : (Pg.qnt k + o) % 0x1000 = o := by simp only [Pg.qnt, Pg.slice]; omega
  rw [State.regWrite_of_passes h]
  simp only [State.pageWrite, hm, pageOf_qnt hk ho, Nat.not_lt.2 hc, if_false]

theorem State.regWrite_xe {s : State} {dom o : Nat} {e : Nat} (h : s.passes dom (Pg.xe e + o) = true) (he : e < 40) (ho : o < 0x1000)
    (hc : 0x100 ≤ o) (v : Word) : s.regWrite dom (Pg.xe e + o) v = (s.xeWrite dom e o v).afterLoss s := by
  have hm : (Pg.xe e + o) % 0x1000 = o := by unfold Pg.xe Pg.slice; split <;> omega
  rw [State.regWrite_of_passes h]
  simp only [State.pageWrite, hm, pageOf_xe he ho, Nat.not_lt.2 hc, if_false]

theorem State.regWrite_ws {s : State} {dom o : Nat} {k : Nat} (h : s.passes dom (Pg.ws k + o) = true) (hk : k < 16) (ho : o < 0x1000)
    (hc : 0x100 ≤ o) (v : Word) : s.regWrite dom (Pg.ws k + o) v = (s.wsWrite k o v).afterLoss s := by
  have hm : (Pg.ws k + o) % 0x1000 = o := by simp only [Pg.ws, Pg.slice]; omega
  rw [State.regWrite_of_passes h]
  simp only [State.pageWrite, hm, pageOf_ws hk ho, Nat.not_lt.2 hc, if_false]

theorem State.regWrite_seq {s : State} {dom o : Nat} {k : Nat} (h : s.passes dom (Pg.seq k + o) = true) (hk : k < 16) (ho : o < 0x1000)
    (hc : 0x100 ≤ o) (v : Word) : s.regWrite dom (Pg.seq k + o) v = (s.seqWrite k o v).afterLoss s := by
  have hm : (Pg.seq k + o) % 0x1000 = o := by simp only [Pg.seq, Pg.slice]; omega
  rw [State.regWrite_of_passes h]
  simp only [State.pageWrite, hm, pageOf_seq hk ho, Nat.not_lt.2 hc, if_false]

theorem State.regWrite_stk {s : State} {dom o : Nat} {t : Nat} (h : s.passes dom (Pg.stk t + o) = true) (ht : t < 12) (ho : o < 0x1000)
    (hc : 0x100 ≤ o) (v : Word) : s.regWrite dom (Pg.stk t + o) v = (if o = 0x108 then s.store (Pg.stk t + o) 0x7F v else s.ends .ok).afterLoss s := by
  have hm : (Pg.stk t + o) % 0x1000 = o := by simp only [Pg.stk]; omega
  rw [State.regWrite_of_passes h]
  simp only [State.pageWrite, hm, pageOf_stk ht ho, Nat.not_lt.2 hc, if_false]

theorem State.regWrite_row {s : State} {dom o : Nat} (h : s.passes dom (Pg.row + o) = true) (ho : o < 0x1000)
    (hc : 0x100 ≤ o) (v : Word) : s.regWrite dom (Pg.row + o) v = (s.rowWrite o v).afterLoss s := by
  have hm : (Pg.row + o) % 0x1000 = o := by simp only [Pg.row]; omega
  rw [State.regWrite_of_passes h]
  simp only [State.pageWrite, hm, pageOf_row  ho, Nat.not_lt.2 hc, if_false]

theorem State.regWrite_stkCommon {s : State} {dom o : Nat} (h : s.passes dom (Pg.stkCommon + o) = true) (ho : o < 0x1000)
    (hc : 0x100 ≤ o) (v : Word) : s.regWrite dom (Pg.stkCommon + o) v = (s.stkCommonWrite dom o v).afterLoss s := by
  have hm : (Pg.stkCommon + o) % 0x1000 = o := by simp only [Pg.stkCommon]; omega
  rw [State.regWrite_of_passes h]
  simp only [State.pageWrite, hm, pageOf_stkCommon  ho, Nat.not_lt.2 hc, if_false]

theorem State.regWrite_bulk {s : State} {dom o : Nat} (h : s.passes dom (Pg.bulk + o) = true) (ho : o < 0x1000)
    (hc : 0x100 ≤ o) (v : Word) : s.regWrite dom (Pg.bulk + o) v = (s.bulkWrite dom o v).afterLoss s := by
  have hm : (Pg.bulk + o) % 0x1000 = o := by simp only [Pg.bulk]; omega
  rw [State.regWrite_of_passes h]
  simp only [State.pageWrite, hm, pageOf_bulk  ho, Nat.not_lt.2 hc, if_false]

theorem State.regWrite_sv {s : State} {dom o : Nat} (h : s.passes dom (Pg.sv + o) = true) (ho : o < 0x1000)
    (hc : 0x100 ≤ o) (v : Word) : s.regWrite dom (Pg.sv + o) v = (s.svWrite o v).afterLoss s := by
  have hm : (Pg.sv + o) % 0x1000 = o := by simp only [Pg.sv]; omega
  rw [State.regWrite_of_passes h]
  simp only [State.pageWrite, hm, pageOf_sv  ho, Nat.not_lt.2 hc, if_false]

theorem State.regWrite_lnk {s : State} {dom o : Nat} {l : Nat} (h : s.passes dom (Pg.lnk l + o) = true) (hl : l < 96) (ho : o < 0x1000)
    (hc : 0x100 ≤ o) (v : Word) : s.regWrite dom (Pg.lnk l + o) v = (if o = 0x100 then s.lnkCtrlWrite l v else s.ends .ok).afterLoss s := by
  have hm : (Pg.lnk l + o) % 0x1000 = o := by simp only [Pg.lnk]; omega
  rw [State.regWrite_of_passes h]
  simp only [State.pageWrite, hm, pageOf_lnk hl ho, Nat.not_lt.2 hc, if_false]

theorem State.regWrite_fab {s : State} {dom o : Nat} (h : s.passes dom (Pg.fab + o) = true) (ho : o < 0x1000)
    (hc : 0x100 ≤ o) (v : Word) : s.regWrite dom (Pg.fab + o) v = (s.fabWrite dom o v).afterLoss s := by
  have hm : (Pg.fab + o) % 0x1000 = o := by simp only [Pg.fab]; omega
  rw [State.regWrite_of_passes h]
  simp only [State.pageWrite, hm, pageOf_fab  ho, Nat.not_lt.2 hc, if_false]

theorem State.regWrite_ig {s : State} {dom o : Nat} (h : s.passes dom (Pg.ig + o) = true) (ho : o < 0x1000)
    (hc : 0x100 ≤ o) (v : Word) : s.regWrite dom (Pg.ig + o) v = (s.igWrite dom o v).afterLoss s := by
  have hm : (Pg.ig + o) % 0x1000 = o := by simp only [Pg.ig]; omega
  rw [State.regWrite_of_passes h]
  simp only [State.pageWrite, hm, pageOf_ig  ho, Nat.not_lt.2 hc, if_false]

theorem State.regWrite_sec {s : State} {dom o : Nat} (h : s.passes dom (Pg.sec + o) = true) (ho : o < 0x1000)
    (hc : 0x100 ≤ o) (v : Word) : s.regWrite dom (Pg.sec + o) v = (s.secWrite dom o v).afterLoss s := by
  have hm : (Pg.sec + o) % 0x1000 = o := by simp only [Pg.sec]; omega
  rw [State.regWrite_of_passes h]
  simp only [State.pageWrite, hm, pageOf_sec  ho, Nat.not_lt.2 hc, if_false]

theorem State.regWrite_pt {s : State} {dom o : Nat} {p : Nat} (h : s.passes dom (Pg.pt p + o) = true) (hp : p < 16) (ho : o < 0x1000)
    (hc : 0x100 ≤ o) (v : Word) : s.regWrite dom (Pg.pt p + o) v = (s.ptWrite dom p o v).afterLoss s := by
  have hm : (Pg.pt p + o) % 0x1000 = o := by simp only [Pg.pt]; omega
  rw [State.regWrite_of_passes h]
  simp only [State.pageWrite, hm, pageOf_pt hp ho, Nat.not_lt.2 hc, if_false]

theorem State.regWrite_dm {s : State} {dom o : Nat} {d : Nat} (h : s.passes dom (Pg.dm d + o) = true) (hd : d < 4) (ho : o < 0x1000)
    (hc : 0x100 ≤ o) (v : Word) : s.regWrite dom (Pg.dm d + o) v = (s.dmPageWrite dom d o v).afterLoss s := by
  have hm : (Pg.dm d + o) % 0x1000 = o := by simp only [Pg.dm]; omega
  rw [State.regWrite_of_passes h]
  simp only [State.pageWrite, hm, pageOf_dm hd ho, Nat.not_lt.2 hc, if_false]

theorem State.regWrite_pwr {s : State} {dom o : Nat} (h : s.passes dom (Pg.pwr + o) = true) (ho : o < 0x1000)
    (hc : 0x100 ≤ o) (v : Word) : s.regWrite dom (Pg.pwr + o) v = (s.pwrWrite o v).afterLoss s := by
  have hm : (Pg.pwr + o) % 0x1000 = o := by simp only [Pg.pwr]; omega
  rw [State.regWrite_of_passes h]
  simp only [State.pageWrite, hm, pageOf_pwr  ho, Nat.not_lt.2 hc, if_false]

theorem State.regWrite_slot {s : State} {dom p o : Nat} (h : s.passes dom (Pg.slot p + o) = true) (hp : p < 16) (ho : o < 0x800)
    (v : Word) : s.regWrite dom (Pg.slot p + o) v = (s.slotWrite dom p o v).afterLoss s := by
  rw [State.regWrite_of_passes h]
  simp only [State.pageWrite, pageOf_slot hp ho, Nat.add_sub_cancel_left]

end Sys2Proof.Machine
end

