-- ==== Sys2Proof/Laws/Events.lean ====
section
/-! SUPPORT. Which registers raising an event writes: its bit stands set afterwards, and no register but event registers changes. -/

namespace Sys2Proof.Machine

/-! ### Fields of words -/

theorem setBits_toNat (w : Word) (lo n v : Nat) :
    (setBits w lo n v).toNat = (w.toNat - bits w lo n * 2 ^ lo + v % 2 ^ n * 2 ^ lo) % 2 ^ 64 := by
  simp [setBits]

/-- A field replaced, in its place among the bits above and below it. -/
theorem setBits_split (w : Word) {lo n : Nat} (v : Nat) (h : lo + n ≤ 64) :
    (setBits w lo n v).toNat = (w.toNat / 2 ^ (lo + n) * 2 ^ n + v % 2 ^ n) * 2 ^ lo + w.toNat % 2 ^ lo := by
  have hw := w.isLt
  rw [setBits_toNat]
  have hA : 0 < 2 ^ lo := Nat.two_pow_pos lo
  have hB : 0 < 2 ^ n := Nat.two_pow_pos n
  have e1 : w.toNat = 2 ^ lo * (w.toNat / 2 ^ lo) + w.toNat % 2 ^ lo := (Nat.div_add_mod _ _).symm
  have e2 : w.toNat / 2 ^ lo = 2 ^ n * (w.toNat / 2 ^ lo / 2 ^ n) + w.toNat / 2 ^ lo % 2 ^ n := (Nat.div_add_mod _ _).symm
  have e3 : w.toNat / 2 ^ lo / 2 ^ n = w.toNat / 2 ^ (lo + n) := by rw [Nat.div_div_eq_div_mul, ← pow_add]
  have hr : w.toNat % 2 ^ lo < 2 ^ lo := Nat.mod_lt _ hA
  have hv : v % 2 ^ n < 2 ^ n := Nat.mod_lt _ hB
  have hH : w.toNat / 2 ^ (lo + n) < 2 ^ (64 - (lo + n)) := by
    rw [Nat.div_lt_iff_lt_mul (Nat.two_pow_pos _), ← pow_add]
    have : 64 - (lo + n) + (lo + n) = 64 := by omega
    rw [this]; exact hw
  rw [e3] at e2
  simp only [bits]
  generalize w.toNat / 2 ^ (lo + n) = H at *
  generalize w.toNat % 2 ^ lo = r at *
  generalize hM : w.toNat / 2 ^ lo % 2 ^ n = M at *
  generalize v % 2 ^ n = V at *
  have e4 : w.toNat = H * 2 ^ n * 2 ^ lo + M * 2 ^ lo + r := by rw [e1, e2]; ring
  have e5 : w.toNat - M * 2 ^ lo + V * 2 ^ lo = (H * 2 ^ n + V) * 2 ^ lo + r := by
    have : w.toNat - M * 2 ^ lo = H * 2 ^ n * 2 ^ lo + r := by omega
    rw [this]; ring
  rw [e5, Nat.mod_eq_of_lt]
  have h64 : (2 : Nat) ^ 64 = 2 ^ (64 - (lo + n)) * 2 ^ n * 2 ^ lo := by
    rw [← pow_add, ← pow_add]; congr 1; omega
  calc (H * 2 ^ n + V) * 2 ^ lo + r < (H * 2 ^ n + V + 1) * 2 ^ lo := by rw [Nat.add_mul (H * 2 ^ n + V) 1]; omega
    _ ≤ ((H + 1) * 2 ^ n) * 2 ^ lo := Nat.mul_le_mul_right _ (by rw [Nat.add_mul]; omega)
    _ ≤ 2 ^ 64 := by rw [h64]; exact Nat.mul_le_mul_right _ (Nat.mul_le_mul_right _ hH)

/-- A field just written reads its value. -/
theorem bits_setBits_self (w : Word) {lo n : Nat} (v : Nat) (h : lo + n ≤ 64) : bits (setBits w lo n v) lo n = v % 2 ^ n := by
  simp only [bits, setBits_split w v h]
  rw [Nat.mul_comm _ (2 ^ lo), Nat.mul_add_div (Nat.two_pow_pos lo), Nat.div_eq_of_lt (Nat.mod_lt _ (Nat.two_pow_pos lo)), Nat.add_zero,
    Nat.mul_comm _ (2 ^ n), Nat.mul_add_mod, Nat.mod_mod]

/-- A field outside the one written reads as before. -/
theorem bits_setBits_ne (w : Word) {lo n : Nat} (v : Nat) (h : lo + n ≤ 64) {a m : Nat} (ha : a + m ≤ lo ∨ lo + n ≤ a) :
    bits (setBits w lo n v) a m = bits w a m := by
  simp only [bits, setBits_split w v h]
  rcases ha with ha | ha
  · have hd : (2 : Nat) ^ lo = 2 ^ a * 2 ^ m * 2 ^ (lo - a - m) := by rw [← pow_add, ← pow_add]; congr 1; omega
    have key : ∀ x : Nat, x / 2 ^ a % 2 ^ m = x % 2 ^ lo % (2 ^ a * 2 ^ m) / 2 ^ a := by
      intro x
      rw [hd, Nat.mod_mul_right_mod, Nat.mod_mul_right_div_self]
    rw [key, key w.toNat, Nat.mul_comm _ (2 ^ lo), Nat.mul_add_mod, Nat.mod_mod]
  · have hd : (2 : Nat) ^ a = 2 ^ (lo + n) * 2 ^ (a - lo - n) := by rw [← pow_add]; congr 1; omega
    rw [hd, ← Nat.div_div_eq_div_mul, ← Nat.div_div_eq_div_mul]
    congr 2
    have hA : 0 < 2 ^ lo := Nat.two_pow_pos lo
    have hB : 0 < 2 ^ n := Nat.two_pow_pos n
    rw [pow_add, ← Nat.div_div_eq_div_mul, Nat.mul_comm _ (2 ^ lo), Nat.mul_add_div hA,
      Nat.div_eq_of_lt (Nat.mod_lt _ hA), Nat.add_zero, Nat.mul_comm _ (2 ^ n), Nat.mul_add_div hB, Nat.div_eq_of_lt (Nat.mod_lt _ hB),
      Nat.add_zero]

theorem bit_eq (w : Word) (b : Nat) : bit w b = (bits w b 1 == 1) := rfl

theorem bit_of_large (w : Word) {b : Nat} (h : 64 ≤ b) : bit w b = false := by
  have : w.toNat / 2 ^ b = 0 := Nat.div_eq_of_lt (lt_of_lt_of_le w.isLt (Nat.pow_le_pow_right (by omega) h))
  simp [bit, this]

/-- A bit just set reads set. -/
theorem bit_setBits_one (w : Word) {b : Nat} (h : b < 64) : bit (setBits w b 1 1) b = true := by
  simp [bit_eq, bits_setBits_self w 1 (show b + 1 ≤ 64 by omega)]

/-- A bit outside the field written reads as before. -/
theorem bit_setBits_ne (w : Word) {lo n : Nat} (v : Nat) (h : lo + n ≤ 64) {b : Nat} (hb : b < lo ∨ lo + n ≤ b) :
    bit (setBits w lo n v) b = bit w b := by
  simp only [bit_eq]; rw [bits_setBits_ne w v h]; omega

/-- A bit set stays set when a bit is set. -/
theorem bit_setBits_keep (w : Word) {a b : Nat} (ha : a < 64) (h : bit w b = true) : bit (setBits w a 1 1) b = true := by
  by_cases hab : b = a
  · subst hab; exact bit_setBits_one w ha
  · rw [bit_setBits_ne w 1 (by omega) (by omega)]; exact h

/-! ### Reading registers through the operations -/

theorem State.reg_setFld_ne (s : State) {k j : Nat} (h : j ≠ k) (lo n v : Nat) : (s.setFld k lo n v).reg j = s.reg j := by
  simp [State.setFld, State.reg_setReg_ne s h]

@[simp] theorem State.reg_setFld_self (s : State) (k lo n v : Nat) : (s.setFld k lo n v).reg k = setBits (s.reg k) lo n v := by
  simp [State.setFld]

theorem State.reg_bump_ne (s : State) {k j : Nat} (h : j ≠ k) (n : Nat) : (s.bump k n).reg j = s.reg j := by
  unfold State.bump; split
  · rfl
  · exact State.reg_setReg_ne s h _

/-- States with the same registers read the same. -/
theorem State.reg_congr {s t : State} (h : t.regs = s.regs) (k : Nat) : t.reg k = s.reg k := by
  simp [State.reg, State.hreg, h]

/-- Counting an event writes its page's event bits and the counter of the event. -/
theorem State.reg_countEvent_ne (s : State) {page b k : Nat} (h1 : k ≠ page + Off.evtStat) (h2 : k ≠ page + Off.evtCnt + 8 * (b / 4)) :
    (s.countEvent page b).reg k = s.reg k := by
  simp only [State.countEvent]
  rw [State.reg_setFld_ne _ h2, State.reg_setFld_ne _ h1]

/-- A page of the register map but the slot windows. -/
def isPage (page : Nat) : Prop := page % 0x1000 = 0 ∧ page < 0x800000 ∧ ¬ (0x18000 ≤ page ∧ page < 0x20000)

theorem eventReg_page {page o : Nat} (hp : isPage page) (ho : o = 0x20 ∨ (0x40 ≤ o ∧ o < 0xC0)) : eventReg (page + o) = true := by
  obtain ⟨h1, h2, h3⟩ := hp
  have e1 : (page + o) % 0x1000 = o := by omega
  have e2 : ¬ (0x18000 ≤ page + o ∧ page + o < 0x20000) := by omega
  have e3 : page + o < 0x800000 := by omega
  simp only [eventReg, e2, if_false, e1, e3, Off.evtStat, Off.evtCnt, Off.owner, decide_true, Bool.true_and, Bool.or_eq_true,
    Bool.and_eq_true, decide_eq_true_eq, beq_iff_eq]
  tauto

theorem eventReg_of_page {page b k : Nat} (hp : isPage page) (hb : b < 64) (hk : eventReg k = false) :
    k ≠ page + Off.evtStat ∧ k ≠ page + Off.evtCnt + 8 * (b / 4) := by
  constructor
  · rintro rfl
    rw [eventReg_page hp (by simp [Off.evtStat])] at hk; cases hk
  · rintro rfl
    rw [Nat.add_assoc, eventReg_page hp (by simp only [Off.evtCnt]; omega)] at hk; cases hk

theorem State.reg_countEvent (s : State) {page b k : Nat} (hp : isPage page) (hb : b < 64) (hk : eventReg k = false) :
    (s.countEvent page b).reg k = s.reg k :=
  State.reg_countEvent_ne s (eventReg_of_page hp hb hk).1 (eventReg_of_page hp hb hk).2

theorem isPage_dq {d : Nat} (h : d < 4) : isPage (Pg.dq d) := by simp only [isPage, Pg.dq]; omega

/-- A record pushed changes no register but event registers. -/
theorem State.reg_pushEvent (s : State) {d k : Nat} (r : EventRec) (hd : d < 4) (hk : eventReg k = false) :
    (s.pushEvent d r).reg k = s.reg k := by
  simp only [State.pushEvent]
  split
  · rfl
  · rw [State.reg_countEvent _ (isPage_dq hd) (by omega) hk, State.reg_bump_ne]
    · rfl
    · rintro rfl
      have : eventReg (Pg.dq d + 0x140) = true := by
        interval_cases d <;> rfl
      rw [this] at hk; cases hk

@[simp] theorem State.reg_logErr (s : State) (e : ErrRec) (ds : List Nat) (k : Nat) : (s.logErr e ds).reg k = s.reg k :=
  State.reg_congr (by simp) k

theorem State.reg_pushes (f : State → Nat → EventRec) {k : Nat} (hk : eventReg k = false) (ds : List Nat) (hd : ∀ d ∈ ds, d < 4) (s : State) :
    (ds.foldl (fun s d => s.pushEvent d (f s d)) s).reg k = s.reg k := by
  induction ds generalizing s with
  | nil => rfl
  | cons d ds ih =>
    rw [List.foldl_cons, ih (fun x hx => hd x (List.mem_cons_of_mem _ hx)), State.reg_pushEvent _ _ (hd d (by simp)) hk]

/-- Every partition's owner is one of four domains. -/
theorem State.ownerOf_lt (s : State) (p : Nat) : s.ownerOf p < 4 := by
  simp only [State.ownerOf, State.fld, bits]; omega

@[simp] theorem State.reg_useFree (s : State) (k : Nat) : s.useFree.reg k = s.reg k := rfl

/-- An event raised changes no register but event registers. -/
theorem State.reg_raise (s : State) {page b k : Nat} (r : Raise) (hp : isPage page) (hb : b < 64)
    (hr : ∀ t : State, ∀ d ∈ r.dests.getD [t.pageOwner page], d < 4) (hk : eventReg k = false) :
    (s.raise page b r).reg k = s.reg k := by
  simp only [State.raise]
  split
  · cases r.err <;> simp [State.reg_countEvent s hp hb hk]
  · rw [State.reg_pushes (fun s' _ => _) hk _ (fun d hd => hr _ d (by simpa using hd))]
    split <;> cases r.err <;> simp [State.reg_countEvent s hp hb hk]

/-! ### Event bits -/

/-- Counting an event leaves the event bits of every page set that were. -/
theorem State.flagged_countEvent_keep (s : State) {page b pg c : Nat} (hp : isPage page) (hg : isPage pg) (hc : c < 64)
    (h : s.flagged page b = true) : (s.countEvent pg c).flagged page b = true := by
  obtain ⟨h1, h2, h3⟩ := hp
  obtain ⟨g1, g2, g3⟩ := hg
  simp only [State.flagged, State.countEvent, Off.evtStat, Off.evtCnt] at *
  rw [State.reg_setFld_ne _ (by omega)]
  by_cases e : pg = page
  · subst e
    rw [State.reg_setFld_self]; exact bit_setBits_keep _ hc h
  · rw [State.reg_setFld_ne _ (by omega)]; exact h

theorem State.flagged_countEvent (s : State) (page : Nat) {b : Nat} (hb : b < 64) : (s.countEvent page b).flagged page b = true := by
  simp only [State.flagged, State.countEvent, Off.evtStat, Off.evtCnt]
  rw [State.reg_setFld_ne _ (by omega), State.reg_setFld_self]; exact bit_setBits_one _ hb

theorem State.flagged_congr {s t : State} (h : t.regs = s.regs) (page b : Nat) : t.flagged page b = s.flagged page b := by
  simp [State.flagged, State.reg_congr h]

theorem State.flagged_pushEvent (s : State) {page b d : Nat} (r : EventRec) (hp : isPage page) (hd : d < 4)
    (h : s.flagged page b = true) : (s.pushEvent d r).flagged page b = true := by
  simp only [State.pushEvent]
  split
  · exact h
  · refine State.flagged_countEvent_keep _ hp (isPage_dq hd) (by omega) ?_
    simp only [State.flagged] at *
    rw [State.reg_bump_ne]
    · exact h
    · obtain ⟨h1, h2, h3⟩ := hp
      simp only [Pg.dq, Off.evtStat]; omega

theorem State.flagged_pushes (f : State → Nat → EventRec) {page b : Nat} (hp : isPage page) (ds : List Nat) (hd : ∀ d ∈ ds, d < 4)
    (s : State) (h : s.flagged page b = true) : (ds.foldl (fun s d => s.pushEvent d (f s d)) s).flagged page b = true := by
  induction ds generalizing s with
  | nil => exact h
  | cons d ds ih =>
    exact ih (fun x hx => hd x (List.mem_cons_of_mem _ hx)) _ (State.flagged_pushEvent s _ hp (hd d (by simp)) h)

/-- An event raised leaves its bit set. -/
theorem State.flagged_raise (s : State) {page b : Nat} (r : Raise) (hp : isPage page) (hb : b < 64)
    (hr : ∀ t : State, ∀ d ∈ r.dests.getD [t.pageOwner page], d < 4) : (s.raise page b r).flagged page b = true := by
  have h0 := State.flagged_countEvent s page hb
  simp only [State.raise]
  split
  · cases r.err
    · exact h0
    · exact (State.flagged_congr (by simp) _ _).trans h0
  · refine State.flagged_pushes (fun s' _ => _) hp _ (fun d hd => hr _ d (by simpa using hd)) _ ?_
    split <;> cases r.err <;> exact h0

/-- An event raised leaves the event bits set that were. -/
theorem State.flagged_raise_keep (s : State) {page b pg c : Nat} (r : Raise) (hp : isPage page) (hg : isPage pg) (hc : c < 64)
    (hr : ∀ t : State, ∀ d ∈ r.dests.getD [t.pageOwner pg], d < 4) (h : s.flagged page b = true) :
    (s.raise pg c r).flagged page b = true := by
  have h0 := State.flagged_countEvent_keep s hp hg hc h
  simp only [State.raise]
  split
  · cases r.err
    · exact h0
    · exact (State.flagged_congr (by simp) _ _).trans h0
  · refine State.flagged_pushes (fun s' _ => _) hp _ (fun d hd => hr _ d (by simpa using hd)) _ ?_
    split <;> cases r.err <;> exact h0

/-- The domain pages are four. -/
theorem pageOf_dm_lt {a d : Nat} (hd : pageOf a = .dm d) : d < 4 := by
  simp only [pageOf] at hd
  repeat
    first
      | exact PageKind.noConfusion hd
      | (rcases ite_eq_iff.1 hd with ⟨h, hd⟩ | ⟨-, hd⟩
         · first
             | exact PageKind.noConfusion hd
             | (injection hd with hd; clear * - h hd; omega)
             | (clear * - hd; split at hd <;> exact PageKind.noConfusion hd))

/-- The mailbox pages are four. -/
theorem pageOf_mb_lt {a d : Nat} (hd : pageOf a = .mb d) : d < 4 := by
  simp only [pageOf] at hd
  repeat
    first
      | exact PageKind.noConfusion hd
      | (rcases ite_eq_iff.1 hd with ⟨h, hd⟩ | ⟨-, hd⟩
         · first
             | exact PageKind.noConfusion hd
             | (injection hd with hd; clear * - h hd; omega)
             | (clear * - hd; split at hd <;> exact PageKind.noConfusion hd))

/-- The owner a page's records go to is one of four domains. -/
theorem State.pageOwner_lt (s : State) (page : Nat) : s.pageOwner page < 4 := by
  simp only [State.pageOwner]
  split
  · exact pageOf_dm_lt (by assumption)
  · exact pageOf_mb_lt (by assumption)
  · split
    · exact s.ownerOf_lt _
    · decide

/-! ### Slot events -/

/-- A slot event leaves its bit of PS_EVT set (R73). -/
theorem State.slotFlagged_raiseSlot (s : State) {p b : Nat} (arg : Nat) (hb : b < 64) :
    (s.raiseSlot p b arg).slotFlagged p b = true := by
  simp only [State.raiseSlot, State.slotFlagged, State.pushEvent]
  have h1 : ∀ t : State, (t.setFld (Pg.slot p + 0x078) b 1 1).reg (Pg.slot p + 0x078) = setBits (t.reg (Pg.slot p + 0x078)) b 1 1 := by
    intro t; simp
  have e1 : ∀ t : State, ∀ x v, (t.setFld (Pg.slot p + 0x080 + 8 * (b / 4)) x 16 v).reg (Pg.slot p + 0x078) = t.reg (Pg.slot p + 0x078) := by
    intro t x v; exact State.reg_setFld_ne _ (by omega) _ _ _
  have e2 : ∀ t : State, ∀ q l, State.reg { t with evq := q, evLost := l } (Pg.slot p + 0x078) = t.reg (Pg.slot p + 0x078) :=
    fun _ _ _ => rfl
  have e3 : ∀ t : State, ∀ l, State.reg { t with evLost := l } (Pg.slot p + 0x078) = t.reg (Pg.slot p + 0x078) := fun _ _ => rfl
  split
  · rw [e2, e1, h1]; exact bit_setBits_one _ hb
  · have hd := s.ownerOf_lt p
    rw [State.reg_countEvent_ne _ (by simp only [Pg.dq, Pg.slot, Off.evtStat]; omega) (by simp only [Pg.dq, Pg.slot, Off.evtCnt]; omega),
      State.reg_bump_ne _ (by simp only [Pg.dq, Pg.slot]; omega), e3, e1, h1]
    exact bit_setBits_one _ hb

/-- A slot event changes no register but event registers. -/
theorem State.reg_raiseSlot (s : State) {p b k : Nat} (arg : Nat) (hp : p < 16) (hb : b < 32) (hk : eventReg k = false) :
    (s.raiseSlot p b arg).reg k = s.reg k := by
  have e : ∀ o, o = 0x78 ∨ (0x80 ≤ o ∧ o < 0xC0) → k ≠ Pg.slot p + o := by
    rintro o ho rfl
    have e1 : (Pg.slot p + o) % 0x800 = o := by simp only [Pg.slot]; omega
    have e2 : 0x18000 ≤ Pg.slot p + o ∧ Pg.slot p + o < 0x20000 := by simp only [Pg.slot]; omega
    simp only [eventReg, e2, and_self, if_true, e1, Bool.or_eq_false_iff, Bool.and_eq_false_iff, decide_eq_false_iff_not,
      beq_eq_false_iff_ne] at hk
    omega
  simp only [State.raiseSlot]
  rw [State.reg_pushEvent _ _ (State.ownerOf_lt _ p) hk, State.reg_setFld_ne _ (by rw [Nat.add_assoc]; exact e _ (by omega)),
    State.reg_setFld_ne _ (e _ (by omega))]

end Sys2Proof.Machine
end

