-- ==== Sys2Proof/Laws/FrameLinks.lean ====
section
/-! SUPPORT. What the operations of Links change: the mask of the kinds of state each may touch. -/

namespace Sys2Proof.Machine

theorem does_modFabric {m : Nat} {s t : State} {x1 : Fabric → Fabric} (hm : 9007199254740992 ||| m = m) (h : Does m s t) :
    Does m s (State.modFabric t x1) := by
  refine h.after (c := 9007199254740992) ?_ hm
  unfold State.modFabric
  repeat' first
    | exact (Eq.refl _ : (_ : Nat) = _)
    | with_reducible exact Does.refl _ _
    | with_reducible refine does_set_fabric ?_ ?_

theorem does_routeLink {m : Nat} {s t : State} {x1 : Nat} {x2 : optParam (Option Nat) none} (hm : 18455751272968224834 ||| m = m) (h : Does m s t) :
    Does m s (State.routeLink t x1 x2).1 := by
  refine h.after (c := 18455751272968224834) ?_ hm
  unfold State.routeLink
  repeat' first
    | exact (Eq.refl _ : (_ : Nat) = _)
    | with_reducible exact Does.refl _ _
    | with_reducible refine does_modFabric ?_ ?_
    | with_reducible refine does_raise ?_ ?_
    | with_reducible refine Does.ite_fst ?_ ?_
    | split

theorem does_modLink {m : Nat} {s t : State} {x1 : Nat} {x2 : Link → Link} (hm : 562949953421312 ||| m = m) (h : Does m s t) :
    Does m s (State.modLink t x1 x2) := by
  refine h.after (c := 562949953421312) ?_ hm
  unfold State.modLink
  repeat' first
    | exact (Eq.refl _ : (_ : Nat) = _)
    | with_reducible exact Does.refl _ _
    | with_reducible refine does_set_links ?_ ?_

theorem does_sendFrame {m : Nat} {s t : State} {x1 : Nat} {x2 : CType} {x3 : Nat} {x4 : Bool} {x5 : List Byte} (hm : 562949957615616 ||| m = m) (h : Does m s t) :
    Does m s (State.sendFrame t x1 x2 x3 x4 x5) := by
  refine h.after (c := 562949957615616) ?_ hm
  unfold State.sendFrame
  repeat' first
    | exact (Eq.refl _ : (_ : Nat) = _)
    | with_reducible exact Does.refl _ _
    | with_reducible refine does_emit ?_ ?_
    | with_reducible refine does_modLink ?_ ?_

theorem does_routeFrame {m : Nat} {s t : State} {x1 : CType} {x2 : Nat} {x3 : List Byte} {x4 : optParam (Option Nat) none} (hm : 18456314222925840450 ||| m = m) (h : Does m s t) :
    Does m s (State.routeFrame t x1 x2 x3 x4) := by
  refine h.after (c := 18456314222925840450) ?_ hm
  unfold State.routeFrame
  repeat' first
    | exact (Eq.refl _ : (_ : Nat) = _)
    | with_reducible exact Does.refl _ _
    | with_reducible refine does_routeLink ?_ ?_
    | with_reducible refine does_sendFrame ?_ ?_
    | with_reducible refine Does.of_fst (by assumption) ?_
    | split

theorem does_sendAcked {m : Nat} {s t : State} {x1 : Nat} {x2 : CType} {x3 : Nat} {x4 : Bool} {x5 : Nat} {x6 : Nat} {x7 : Nat} {x8 : List Byte} {x9 : optParam (List Nat) []} (hm : 9570149212356608 ||| m = m) (h : Does m s t) :
    Does m s (State.sendAcked t x1 x2 x3 x4 x5 x6 x7 x8 x9) := by
  refine h.after (c := 9570149212356608) ?_ hm
  unfold State.sendAcked
  repeat' first
    | exact (Eq.refl _ : (_ : Nat) = _)
    | with_reducible exact Does.refl _ _
    | with_reducible refine does_modFabric ?_ ?_
    | with_reducible refine does_sendFrame ?_ ?_

theorem does_floodAcked {m : Nat} {s t : State} {x1 : Option Nat} {x2 : CType} {x3 : Nat} {x4 : Nat} {x5 : Nat} {x6 : List Byte} (hm : 9570149212356608 ||| m = m) (h : Does m s t) :
    Does m s (State.floodAcked t x1 x2 x3 x4 x5 x6) := by
  refine h.after (c := 9570149212356608) ?_ hm
  unfold State.floodAcked
  repeat' first
    | exact (Eq.refl _ : (_ : Nat) = _)
    | with_reducible exact Does.refl _ _
    | with_reducible refine does_sendAcked ?_ ?_
    | with_reducible assumption
    | with_reducible refine Does.foldl (fun _ _ _ => ?_) ?_

theorem does_floodFrame {m : Nat} {s t : State} {x1 : Option Nat} {x2 : CType} {x3 : List Byte} (hm : 562949957615616 ||| m = m) (h : Does m s t) :
    Does m s (State.floodFrame t x1 x2 x3) := by
  refine h.after (c := 562949957615616) ?_ hm
  unfold State.floodFrame
  repeat' first
    | exact (Eq.refl _ : (_ : Nat) = _)
    | with_reducible exact Does.refl _ _
    | with_reducible refine does_sendFrame ?_ ?_
    | with_reducible assumption
    | with_reducible refine Does.foldl (fun _ _ _ => ?_) ?_

end Sys2Proof.Machine
end

