-- ==== Sys2Proof/Laws/FrameMsg.lean ====
section
/-! SUPPORT. What the operations of Msg change: the mask of the kinds of state each may touch. -/

namespace Sys2Proof.Machine

theorem does_sendOn {m : Nat} {s t : State} {x1 : Nat} {x2 : QMsg} (hm : 562949957615618 ||| m = m) (h : Does m s t) :
    Does m s (State.sendOn t x1 x2) := by
  refine h.after (c := 562949957615618) ?_ hm
  unfold State.sendOn
  dsimp only
  repeat' first
    | exact (Eq.refl _ : (_ : Nat) = _)
    | with_reducible exact Does.refl _ _
    | with_reducible refine does_bump ?_ ?_
    | with_reducible refine does_emit ?_ ?_
    | with_reducible refine does_modLink ?_ ?_

theorem does_drainLink {m : Nat} {s t : State} {x1 : Nat} {x2 : Nat} (hm : 562949957615618 ||| m = m) (h : Does m s t) :
    Does m s (State.drainLink t x1 x2) := by
  refine h.after (c := 562949957615618) ?_ hm
  clear h
  induction x2 generalizing t x1 with
  | zero =>
    unfold State.drainLink
    repeat' first
      | exact (Eq.refl _ : (_ : Nat) = _)
      | with_reducible exact Does.refl _ _
      | with_reducible refine does_sendOn ?_ ?_
      | with_reducible refine Does.ite ?_ ?_
      | split
  | succ n ih =>
    unfold State.drainLink
    try dsimp only
    repeat' first
      | with_reducible refine Does.after (c := 562949957615618) ?_ ih ?_
      | exact (Eq.refl _ : (_ : Nat) = _)
      | with_reducible exact Does.refl _ _
      | with_reducible refine does_sendOn ?_ ?_
      | with_reducible refine Does.ite ?_ ?_
      | split

theorem does_queueOn {m : Nat} {s t : State} {x1 : Nat} {x2 : QMsg} (hm : 562949957615618 ||| m = m) (h : Does m s t) :
    Does m s (State.queueOn t x1 x2) := by
  refine h.after (c := 562949957615618) ?_ hm
  unfold State.queueOn
  dsimp only
  repeat' first
    | exact (Eq.refl _ : (_ : Nat) = _)
    | with_reducible exact Does.refl _ _
    | with_reducible refine does_drainLink ?_ ?_
    | with_reducible refine does_modLink ?_ ?_

theorem does_sendMsg {m : Nat} {s t : State} {x1 : Msg} {x2 : optParam Bool false} (hm : 18456314222925840450 ||| m = m) (h : Does m s t) :
    Does m s (State.sendMsg t x1 x2).1 := by
  refine h.after (c := 18456314222925840450) ?_ hm
  unfold State.sendMsg
  dsimp only
  repeat' first
    | exact (Eq.refl _ : (_ : Nat) = _)
    | with_reducible exact Does.refl _ _
    | with_reducible refine does_queueOn ?_ ?_
    | with_reducible refine does_routeLink ?_ ?_
    | with_reducible refine Does.of_fst (by assumption) ?_
    | with_reducible refine Does.ite_fst ?_ ?_
    | split

theorem does_originate {m : Nat} {s t : State} {x1 : Nat} {x2 : Nat} {x3 : Nat} {x4 : Nat} {x5 : List Byte} {x6 : Nat} {x7 : Nat} {x8 : ReqUse} (hm : 18456314222925840450 ||| m = m) (h : Does m s t) :
    Does m s (State.originate t x1 x2 x3 x4 x5 x6 x7 x8).1 := by
  refine h.after (c := 18456314222925840450) ?_ hm
  unfold State.originate
  dsimp only
  repeat' first
    | exact (Eq.refl _ : (_ : Nat) = _)
    | with_reducible exact Does.refl _ _
    | with_reducible refine does_modFabric ?_ ?_
    | with_reducible refine does_sendMsg ?_ ?_
    | with_reducible refine Does.of_fst (by assumption) ?_
    | split

theorem does_noteAnswer {m : Nat} {s t : State} {x1 : Nat} {x2 : Nat} {x3 : Nat} (hm : 9007199254740992 ||| m = m) (h : Does m s t) :
    Does m s (State.noteAnswer t x1 x2 x3) := by
  refine h.after (c := 9007199254740992) ?_ hm
  unfold State.noteAnswer
  dsimp only
  repeat' first
    | exact (Eq.refl _ : (_ : Nat) = _)
    | with_reducible exact Does.refl _ _
    | with_reducible refine does_modFabric ?_ ?_

theorem does_respond {m : Nat} {s t : State} {x1 : Msg} {x2 : Status} {x3 : optParam (List Byte) []} (hm : 18456314222925840450 ||| m = m) (h : Does m s t) :
    Does m s (State.respond t x1 x2 x3) := by
  refine h.after (c := 18456314222925840450) ?_ hm
  unfold State.respond
  repeat' first
    | exact (Eq.refl _ : (_ : Nat) = _)
    | with_reducible exact Does.refl _ _
    | with_reducible refine does_sendMsg ?_ ?_

theorem does_dropReq {m : Nat} {s t : State} {x1 : Nat} (hm : 9007199254740992 ||| m = m) (h : Does m s t) :
    Does m s (State.dropReq t x1) := by
  refine h.after (c := 9007199254740992) ?_ hm
  unfold State.dropReq
  repeat' first
    | exact (Eq.refl _ : (_ : Nat) = _)
    | with_reducible exact Does.refl _ _
    | with_reducible refine does_modFabric ?_ ?_

end Sys2Proof.Machine
end

