-- ==== Sys2Proof/Laws/FramePorts.lean ====
section
/-! SUPPORT. What the operations of Ports change: the mask of the kinds of state each may touch. -/

namespace Sys2Proof.Machine

theorem does_modPort {m : Nat} {s t : State} {x1 : Nat} {x2 : Port → Port} (hm : 1125899906842624 ||| m = m) (h : Does m s t) :
    Does m s (State.modPort t x1 x2) := by
  refine h.after (c := 1125899906842624) ?_ hm
  unfold State.modPort
  repeat' first
    | exact (Eq.refl _ : (_ : Nat) = _)
    | with_reducible exact Does.refl _ _
    | with_reducible refine does_set_ports ?_ ?_

theorem does_portIdent {m : Nat} {s t : State} {x1 : Nat} (hm : 4194304 ||| m = m) (h : Does m s t) :
    Does m s (State.portIdent t x1) := by
  refine h.after (c := 4194304) ?_ hm
  unfold State.portIdent
  repeat' first
    | exact (Eq.refl _ : (_ : Nat) = _)
    | with_reducible exact Does.refl _ _
    | with_reducible refine does_emit ?_ ?_

theorem does_portTrain {m : Nat} {s t : State} {x1 : Nat} (hm : 1125899911036928 ||| m = m) (h : Does m s t) :
    Does m s (State.portTrain t x1) := by
  refine h.after (c := 1125899911036928) ?_ hm
  unfold State.portTrain
  repeat' first
    | exact (Eq.refl _ : (_ : Nat) = _)
    | with_reducible exact Does.refl _ _
    | with_reducible refine does_modPort ?_ ?_
    | with_reducible refine does_portIdent ?_ ?_

theorem does_sendFrames {m : Nat} {s t : State} {x1 : Nat} {x2 : PMsg} (hm : 1125899911036928 ||| m = m) (h : Does m s t) :
    Does m s (State.sendFrames t x1 x2) := by
  refine h.after (c := 1125899911036928) ?_ hm
  unfold State.sendFrames
  dsimp only
  repeat' first
    | exact (Eq.refl _ : (_ : Nat) = _)
    | with_reducible exact Does.refl _ _
    | with_reducible refine does_emit ?_ ?_
    | with_reducible refine does_modPort ?_ ?_

theorem does_drainPort {m : Nat} {s t : State} {x1 : Nat} {x2 : Nat} (hm : 1125899911036928 ||| m = m) (h : Does m s t) :
    Does m s (State.drainPort t x1 x2) := by
  refine h.after (c := 1125899911036928) ?_ hm
  clear h
  induction x2 generalizing t x1 with
  | zero =>
    unfold State.drainPort
    repeat' first
      | exact (Eq.refl _ : (_ : Nat) = _)
      | with_reducible exact Does.refl _ _
      | with_reducible refine does_sendFrames ?_ ?_
      | with_reducible refine Does.ite ?_ ?_
      | split
  | succ n ih =>
    unfold State.drainPort
    try dsimp only
    repeat' first
      | with_reducible refine Does.after (c := 1125899911036928) ?_ ih ?_
      | exact (Eq.refl _ : (_ : Nat) = _)
      | with_reducible exact Does.refl _ _
      | with_reducible refine does_sendFrames ?_ ?_
      | with_reducible refine Does.ite ?_ ?_
      | split

theorem does_portSend {m : Nat} {s t : State} {x1 : Nat} {x2 : PMsg} (hm : 1125899911036928 ||| m = m) (h : Does m s t) :
    Does m s (State.portSend t x1 x2) := by
  refine h.after (c := 1125899911036928) ?_ hm
  unfold State.portSend
  dsimp only
  repeat' first
    | exact (Eq.refl _ : (_ : Nat) = _)
    | with_reducible exact Does.refl _ _
    | with_reducible refine does_drainPort ?_ ?_
    | with_reducible refine does_modPort ?_ ?_

theorem does_sendRelay {m : Nat} {s t : State} {x1 : Nat} {x2 : Nat} {x3 : Nat} {x4 : Nat} {x5 : List Byte} {x6 : ReqUse} (hm : 18456314222925840450 ||| m = m) (h : Does m s t) :
    Does m s (State.sendRelay t x1 x2 x3 x4 x5 x6).1 := by
  refine h.after (c := 18456314222925840450) ?_ hm
  unfold State.sendRelay
  dsimp only
  repeat' first
    | exact (Eq.refl _ : (_ : Nat) = _)
    | with_reducible exact Does.refl _ _
    | with_reducible refine does_modFabric ?_ ?_
    | with_reducible refine does_originate ?_ ?_
    | with_reducible refine Does.of_fst (by assumption) ?_
    | split

theorem does_nodeWrite {m : Nat} {s t : State} {x1 : Nat} {x2 : Nat} {x3 : List Byte} {x4 : ReqUse} (hm : 18457440122832683074 ||| m = m) (h : Does m s t) :
    Does m s (State.nodeWrite t x1 x2 x3 x4).1 := by
  refine h.after (c := 18457440122832683074) ?_ hm
  unfold State.nodeWrite
  repeat' first
    | exact (Eq.refl _ : (_ : Nat) = _)
    | with_reducible exact Does.refl _ _
    | with_reducible refine does_portSend ?_ ?_
    | with_reducible refine does_sendRelay ?_ ?_
    | with_reducible refine Does.of_fst (by assumption) ?_
    | split

theorem does_sendRsp {m : Nat} {s t : State} {x1 : Nat} {x2 : Nat} {x3 : Status} {x4 : optParam (List Byte) []} (hm : 1125899911036928 ||| m = m) (h : Does m s t) :
    Does m s (State.sendRsp t x1 x2 x3 x4) := by
  refine h.after (c := 1125899911036928) ?_ hm
  unfold State.sendRsp
  repeat' first
    | exact (Eq.refl _ : (_ : Nat) = _)
    | with_reducible exact Does.refl _ _
    | with_reducible refine does_portSend ?_ ?_

theorem does_nodeRead {m : Nat} {s t : State} {x1 : Nat} {x2 : Nat} {x3 : Nat} {x4 : ReqUse} (hm : 18464195522273738818 ||| m = m) (h : Does m s t) :
    Does m s (State.nodeRead t x1 x2 x3 x4).1 := by
  refine h.after (c := 18464195522273738818) ?_ hm
  unfold State.nodeRead
  dsimp only
  repeat' first
    | exact (Eq.refl _ : (_ : Nat) = _)
    | with_reducible exact Does.refl _ _
    | with_reducible refine does_portSend ?_ ?_
    | with_reducible refine does_sendRelay ?_ ?_
    | with_reducible refine Does.of_fst (by assumption) ?_
    | split
    | with_reducible refine does_set_nodeReqs_nodeTag ?_ ?_

end Sys2Proof.Machine
end

