-- ==== Sys2Proof/Laws/FrameReset.lean ====
section
/-! SUPPORT. What the operations of Reset change: the mask of the kinds of state each may touch. -/

namespace Sys2Proof.Machine

theorem does_linksOff {m : Nat} {s t : State}  (hm : 562949953421312 ||| m = m) (h : Does m s t) :
    Does m s (State.linksOff t) := by
  refine h.after (c := 562949953421312) ?_ hm
  unfold State.linksOff
  repeat' first
    | exact (Eq.refl _ : (_ : Nat) = _)
    | with_reducible exact Does.refl _ _
    | with_reducible refine does_modLink ?_ ?_
    | with_reducible assumption
    | with_reducible refine Does.foldl (fun _ _ _ => ?_) ?_
    | with_reducible refine Does.foldl_pair (fun _ _ _ => ?_) ?_
    | with_reducible refine Does.ite ?_ ?_

theorem does_fwFault {m : Nat} {s t : State} {x1 : Status} (hm : 562949953421376 ||| m = m) (h : Does m s t) :
    Does m s (State.fwFault t x1) := by
  refine h.after (c := 562949953421376) ?_ hm
  unfold State.fwFault
  repeat' first
    | exact (Eq.refl _ : (_ : Nat) = _)
    | with_reducible exact Does.refl _ _
    | with_reducible refine does_linksOff ?_ ?_
    | with_reducible refine does_modBoot ?_ ?_
    | with_reducible refine Does.ite ?_ ?_

theorem does_fatal {m : Nat} {s t : State}  (hm : 562949953421376 ||| m = m) (h : Does m s t) :
    Does m s (State.fatal t) := by
  refine h.after (c := 562949953421376) ?_ hm
  unfold State.fatal
  repeat' first
    | exact (Eq.refl _ : (_ : Nat) = _)
    | with_reducible exact Does.refl _ _
    | with_reducible refine does_fwFault ?_ ?_
    | with_reducible refine does_modBoot ?_ ?_

theorem does_moduleReset {m : Nat} {s t : State} {x1 : Nat} {x2 : Nat} (hm : 36893488147419103231 ||| m = m) (h : Does m s t) :
    Does m s (State.moduleReset t x1 x2) := by
  refine h.after (c := 36893488147419103231) ?_ hm
  refine ⟨fun k hk => ?_, ⟨rfl, fun x => Mem.filter_wf _ _ x, List.prefix_rfl, le_refl _⟩⟩
  cases k <;> first | rfl | exact absurd hk (by decide)

theorem does_inputFault {m : Nat} {s t : State}  (hm : 36893488147419103231 ||| m = m) (h : Does m s t) :
    Does m s (State.inputFault t) := by
  refine h.after (c := 36893488147419103231) ?_ hm
  unfold State.inputFault
  dsimp only
  repeat' first
    | exact (Eq.refl _ : (_ : Nat) = _)
    | with_reducible exact Does.refl _ _
    | with_reducible refine does_modBoot ?_ ?_
    | with_reducible refine does_moduleReset ?_ ?_

theorem does_powerUp {m : Nat} {s t : State}  (hm : 36893488147419103231 ||| m = m) (h : Does m s t) :
    Does m s (State.powerUp t) := by
  refine h.after (c := 36893488147419103231) ?_ hm
  unfold State.powerUp
  repeat' first
    | exact (Eq.refl _ : (_ : Nat) = _)
    | with_reducible exact Does.refl _ _
    | with_reducible refine does_modBoot ?_ ?_
    | with_reducible refine does_moduleReset ?_ ?_
    | with_reducible refine Does.ite ?_ ?_

theorem does_resetPin {m : Nat} {s t : State}  (hm : 36893488147419103231 ||| m = m) (h : Does m s t) :
    Does m s (State.resetPin t) := by
  refine h.after (c := 36893488147419103231) ?_ hm
  unfold State.resetPin
  repeat' first
    | exact (Eq.refl _ : (_ : Nat) = _)
    | with_reducible exact Does.refl _ _
    | with_reducible refine does_advance ?_ ?_
    | with_reducible refine does_modBoot ?_ ?_
    | with_reducible refine does_moduleReset ?_ ?_
    | with_reducible refine Does.ite ?_ ?_

theorem does_romFault {m : Nat} {s t : State} {x1 : Status} (hm : 1125899911036992 ||| m = m) (h : Does m s t) :
    Does m s (State.romFault t x1) := by
  refine h.after (c := 1125899911036992) ?_ hm
  unfold State.romFault
  dsimp only
  repeat' first
    | exact (Eq.refl _ : (_ : Nat) = _)
    | with_reducible exact Does.refl _ _
    | with_reducible refine does_modPort ?_ ?_
    | with_reducible refine does_portTrain ?_ ?_
    | with_reducible refine does_set_boot ?_ ?_

theorem does_romBoot {m : Nat} {s t : State}  (hm : 1125908500971618 ||| m = m) (h : Does m s t) :
    Does m s (State.romBoot t) := by
  refine h.after (c := 1125908500971618) ?_ hm
  unfold State.romBoot
  dsimp only
  repeat' first
    | exact (Eq.refl _ : (_ : Nat) = _)
    | with_reducible exact Does.refl _ _
    | with_reducible refine does_modBoot ?_ ?_
    | with_reducible refine does_portTrain ?_ ?_
    | with_reducible refine does_romFault ?_ ?_
    | with_reducible refine does_setFld ?_ ?_
    | with_reducible refine Does.ite ?_ ?_
    | split
    | with_reducible refine does_set_ident ?_ ?_
    | with_reducible refine does_set_ident_mace ?_ ?_

theorem does_resetRelease {m : Nat} {s t : State} {x1 : Nat} {x2 : Bool} (hm : 18456877181465264483 ||| m = m) (h : Does m s t) :
    Does m s (State.resetRelease t x1 x2) := by
  refine h.after (c := 18456877181465264483) ?_ hm
  unfold State.resetRelease
  dsimp only
  repeat' first
    | exact (Eq.refl _ : (_ : Nat) = _)
    | with_reducible exact Does.refl _ _
    | with_reducible refine does_modFabric ?_ ?_
    | with_reducible refine does_romBoot ?_ ?_
    | with_reducible refine does_useFree ?_ ?_
    | with_reducible refine Does.ite ?_ ?_
    | split
    | with_reducible refine does_set_clk_boot_time ?_ ?_

theorem does_romTimeout {m : Nat} {s t : State}  (hm : 1125899911037249 ||| m = m) (h : Does m s t) :
    Does m s (State.romTimeout t) := by
  refine h.after (c := 1125899911037249) ?_ hm
  unfold State.romTimeout
  repeat' first
    | exact (Eq.refl _ : (_ : Nat) = _)
    | with_reducible exact Does.refl _ _
    | with_reducible refine does_romFault ?_ ?_
    | with_reducible refine does_waitClk ?_ ?_
    | with_reducible refine Does.ite ?_ ?_

theorem does_watchdog {m : Nat} {s t : State}  (hm : 36893488147419103231 ||| m = m) (h : Does m s t) :
    Does m s (State.watchdog t) := by
  refine h.after (c := 36893488147419103231) ?_ hm
  unfold State.watchdog
  dsimp only
  repeat' first
    | exact (Eq.refl _ : (_ : Nat) = _)
    | with_reducible exact Does.refl _ _
    | with_reducible refine does_moduleReset ?_ ?_
    | with_reducible refine does_waitClk ?_ ?_
    | with_reducible refine Does.ite ?_ ?_

end Sys2Proof.Machine
end

