-- ==== Sys2Proof/Laws/FrameDevMem.lean ====
section
/-! SUPPORT. What the operations of DevMem change: the mask of the kinds of state each may touch. -/

namespace Sys2Proof.Machine

theorem does_putBulk {m : Nat} {s t : State} {x1 : Nat} {x2 : List Byte} (hm : 8 ||| m = m) (h : Does m s t) :
    Does m s (State.putBulk t x1 x2) := by
  refine h.after (c := 8) ?_ hm
  unfold State.putBulk
  repeat' first
    | exact (Eq.refl _ : (_ : Nat) = _)
    | with_reducible exact Does.refl _ _
    | with_reducible refine does_clrMem ?_ ?_
    | with_reducible refine does_wrMem ?_ ?_

theorem does_bulkFix {m : Nat} {s t : State} {x1 : Nat} {x2 : List Byte} (hm : 18446744073713483850 ||| m = m) (h : Does m s t) :
    Does m s (State.bulkFix t x1 x2) := by
  refine h.after (c := 18446744073713483850) ?_ hm
  unfold State.bulkFix
  dsimp only
  repeat' first
    | exact (Eq.refl _ : (_ : Nat) = _)
    | with_reducible exact Does.refl _ _
    | with_reducible refine does_bump ?_ ?_
    | with_reducible refine does_putBulk ?_ ?_
    | with_reducible refine does_raise ?_ ?_

theorem does_bulkUe {m : Nat} {s t : State} {x1 : Nat} {x2 : Nat} {x3 : List Byte} {x4 : Nat} (hm : 18446744073713483842 ||| m = m) (h : Does m s t) :
    Does m s (State.bulkUe t x1 x2 x3 x4) := by
  refine h.after (c := 18446744073713483842) ?_ hm
  unfold State.bulkUe
  dsimp only
  repeat' first
    | exact (Eq.refl _ : (_ : Nat) = _)
    | with_reducible exact Does.refl _ _
    | with_reducible refine does_bump ?_ ?_
    | with_reducible refine does_raise ?_ ?_

theorem does_modBulk {m : Nat} {s t : State} {x1 : Bulk → Bulk} (hm : 268435456 ||| m = m) (h : Does m s t) :
    Does m s (State.modBulk t x1) := by
  refine h.after (c := 268435456) ?_ hm
  unfold State.modBulk
  repeat' first
    | exact (Eq.refl _ : (_ : Nat) = _)
    | with_reducible exact Does.refl _ _
    | with_reducible refine does_set_bulk ?_ ?_

theorem does_modPlaced {m : Nat} {s t : State} {x1 : Nat} {x2 : Placed → Placed} (hm : 268435456 ||| m = m) (h : Does m s t) :
    Does m s (State.modPlaced t x1 x2) := by
  refine h.after (c := 268435456) ?_ hm
  unfold State.modPlaced
  dsimp only
  repeat' first
    | exact (Eq.refl _ : (_ : Nat) = _)
    | with_reducible exact Does.refl _ _
    | with_reducible refine does_set_bulk ?_ ?_

theorem does_bulkFail {m : Nat} {s t : State} {x1 : Nat} {x2 : Nat} (hm : 18446744073981919298 ||| m = m) (h : Does m s t) :
    Does m s (State.bulkFail t x1 x2) := by
  refine h.after (c := 18446744073981919298) ?_ hm
  unfold State.bulkFail
  dsimp only
  repeat' first
    | exact (Eq.refl _ : (_ : Nat) = _)
    | with_reducible exact Does.refl _ _
    | with_reducible refine does_modBulk ?_ ?_
    | with_reducible refine does_modPlaced ?_ ?_
    | with_reducible refine does_raise ?_ ?_
    | with_reducible refine does_setFld ?_ ?_
    | with_reducible assumption
    | with_reducible refine Does.foldl (fun _ _ _ => ?_) ?_
    | with_reducible refine Does.foldl_pair (fun _ _ _ => ?_) ?_
    | with_reducible refine Does.ite ?_ ?_

theorem does_noteBulkUe {m : Nat} {s t : State} {x1 : Nat} {x2 : Bool} (hm : 18446744073981919298 ||| m = m) (h : Does m s t) :
    Does m s (State.noteBulkUe t x1 x2) := by
  refine h.after (c := 18446744073981919298) ?_ hm
  unfold State.noteBulkUe
  dsimp only
  repeat' first
    | exact (Eq.refl _ : (_ : Nat) = _)
    | with_reducible exact Does.refl _ _
    | with_reducible refine does_bulkFail ?_ ?_
    | with_reducible refine does_modBulk ?_ ?_
    | with_reducible refine Does.ite ?_ ?_

theorem does_readBulkFrom {m : Nat} {s t : State} {x1 : Nat} {x2 : Nat} {x3 : Nat} (hm : 18446744073981919306 ||| m = m) (h : Does m s t) :
    Does m s (State.readBulkFrom t x1 x2 x3).1 := by
  refine h.after (c := 18446744073981919306) ?_ hm
  unfold State.readBulkFrom
  dsimp only
  repeat' first
    | exact (Eq.refl _ : (_ : Nat) = _)
    | with_reducible exact Does.refl _ _
    | with_reducible refine does_bulkFix ?_ ?_
    | with_reducible refine does_bulkUe ?_ ?_
    | with_reducible refine does_bump ?_ ?_
    | with_reducible refine does_noteBulkUe ?_ ?_
    | with_reducible refine Does.ite_fst ?_ ?_
    | split

theorem does_readBulk {m : Nat} {s t : State} {x1 : Nat} {x2 : Nat} (hm : 18446744073981919306 ||| m = m) (h : Does m s t) :
    Does m s (State.readBulk t x1 x2).1 := by
  refine h.after (c := 18446744073981919306) ?_ hm
  unfold State.readBulk
  repeat' first
    | exact (Eq.refl _ : (_ : Nat) = _)
    | with_reducible exact Does.refl _ _
    | with_reducible refine does_readBulkFrom ?_ ?_

theorem does_modStack {m : Nat} {s t : State} {x1 : Nat} {x2 : Stack → Stack} (hm : 8388608 ||| m = m) (h : Does m s t) :
    Does m s (State.modStack t x1 x2) := by
  refine h.after (c := 8388608) ?_ hm
  unfold State.modStack
  repeat' first
    | exact (Eq.refl _ : (_ : Nat) = _)
    | with_reducible exact Does.refl _ _
    | with_reducible refine does_set_tolvys ?_ ?_

theorem does_stackFail {m : Nat} {s t : State} {x1 : Nat} {x2 : Nat} {x3 : Nat} {x4 : Nat} (hm : 18447307023675293762 ||| m = m) (h : Does m s t) :
    Does m s (State.stackFail t x1 x2 x3 x4) := by
  refine h.after (c := 18447307023675293762) ?_ hm
  unfold State.stackFail
  dsimp only
  repeat' first
    | exact (Eq.refl _ : (_ : Nat) = _)
    | with_reducible exact Does.refl _ _
    | with_reducible refine does_fatal ?_ ?_
    | with_reducible refine does_modStack ?_ ?_
    | with_reducible refine does_raise ?_ ?_
    | with_reducible refine does_setFld ?_ ?_

theorem does_noteLanes {m : Nat} {s t : State} {x1 : StackLoc} {x2 : List Nat} (hm : 18447307023675293762 ||| m = m) (h : Does m s t) :
    Does m s (State.noteLanes t x1 x2) := by
  refine h.after (c := 18447307023675293762) ?_ hm
  unfold State.noteLanes
  dsimp only
  repeat' first
    | exact (Eq.refl _ : (_ : Nat) = _)
    | with_reducible exact Does.refl _ _
    | with_reducible refine does_modStack ?_ ?_
    | with_reducible refine does_stackFail ?_ ?_
    | with_reducible assumption
    | with_reducible refine Does.foldl (fun _ _ _ => ?_) ?_
    | with_reducible refine Does.foldl_pair (fun _ _ _ => ?_) ?_
    | with_reducible refine Does.ite ?_ ?_

theorem does_noteUe {m : Nat} {s t : State} {x1 : StackLoc} {x2 : Bool} (hm : 18447307023675293762 ||| m = m) (h : Does m s t) :
    Does m s (State.noteUe t x1 x2) := by
  refine h.after (c := 18447307023675293762) ?_ hm
  unfold State.noteUe
  dsimp only
  repeat' first
    | exact (Eq.refl _ : (_ : Nat) = _)
    | with_reducible exact Does.refl _ _
    | with_reducible refine does_modStack ?_ ?_
    | with_reducible refine does_stackFail ?_ ?_
    | with_reducible refine Does.ite ?_ ?_

theorem does_rowEvent {m : Nat} {s t : State} {x1 : Nat} {x2 : Nat} {x3 : Status} (hm : 18446744073713483842 ||| m = m) (h : Does m s t) :
    Does m s (State.rowEvent t x1 x2 x3) := by
  refine h.after (c := 18446744073713483842) ?_ hm
  unfold State.rowEvent
  dsimp only
  repeat' first
    | exact (Eq.refl _ : (_ : Nat) = _)
    | with_reducible exact Does.refl _ _
    | with_reducible refine does_pushEvent ?_ ?_
    | with_reducible refine does_raise ?_ ?_
    | with_reducible refine does_useFree ?_ ?_
    | with_reducible assumption
    | with_reducible refine Does.foldl (fun _ _ _ => ?_) ?_
    | with_reducible refine Does.foldl_pair (fun _ _ _ => ?_) ?_
    | with_reducible refine Does.ite ?_ ?_
    | split

theorem does_stackFix {m : Nat} {s t : State} {x1 : StackLoc} {x2 : List Byte} (hm : 18446744073713483850 ||| m = m) (h : Does m s t) :
    Does m s (State.stackFix t x1 x2) := by
  refine h.after (c := 18446744073713483850) ?_ hm
  unfold State.stackFix
  dsimp only
  repeat' first
    | exact (Eq.refl _ : (_ : Nat) = _)
    | with_reducible exact Does.refl _ _
    | with_reducible refine does_bump ?_ ?_
    | with_reducible refine does_clrMem ?_ ?_
    | with_reducible refine does_raise ?_ ?_
    | with_reducible refine does_wrMem ?_ ?_

theorem does_stackUe {m : Nat} {s t : State} {x1 : StackLoc} {x2 : Nat} {x3 : List Byte} {x4 : Nat} (hm : 18446744073713483842 ||| m = m) (h : Does m s t) :
    Does m s (State.stackUe t x1 x2 x3 x4) := by
  refine h.after (c := 18446744073713483842) ?_ hm
  unfold State.stackUe
  dsimp only
  repeat' first
    | exact (Eq.refl _ : (_ : Nat) = _)
    | with_reducible exact Does.refl _ _
    | with_reducible refine does_bump ?_ ?_
    | with_reducible refine does_raise ?_ ?_

theorem does_readStack {m : Nat} {s t : State} {x1 : StackLoc} {x2 : Nat} (hm : 18447307023675293770 ||| m = m) (h : Does m s t) :
    Does m s (State.readStack t x1 x2).1 := by
  refine h.after (c := 18447307023675293770) ?_ hm
  unfold State.readStack
  dsimp only
  repeat' first
    | exact (Eq.refl _ : (_ : Nat) = _)
    | with_reducible exact Does.refl _ _
    | with_reducible refine does_bump ?_ ?_
    | with_reducible refine does_noteLanes ?_ ?_
    | with_reducible refine does_noteUe ?_ ?_
    | with_reducible refine does_rowEvent ?_ ?_
    | with_reducible refine does_stackFix ?_ ?_
    | with_reducible refine does_stackUe ?_ ?_
    | with_reducible refine Does.ite_fst ?_ ?_
    | split

theorem does_readSector {m : Nat} {s t : State} {x1 : Nat} (hm : 18447307023943729226 ||| m = m) (h : Does m s t) :
    Does m s (State.readSector t x1).1 := by
  refine h.after (c := 18447307023943729226) ?_ hm
  unfold State.readSector
  repeat' first
    | exact (Eq.refl _ : (_ : Nat) = _)
    | with_reducible exact Does.refl _ _
    | with_reducible refine does_readBulk ?_ ?_
    | with_reducible refine does_readStack ?_ ?_
    | with_reducible refine Does.of_fst (by assumption) ?_
    | with_reducible refine Does.ite_fst ?_ ?_
    | split

theorem does_writeSector {m : Nat} {s t : State} {x1 : Nat} {x2 : List Byte} (hm : 10 ||| m = m) (h : Does m s t) :
    Does m s (State.writeSector t x1 x2).1 := by
  refine h.after (c := 10) ?_ hm
  unfold State.writeSector
  repeat' first
    | exact (Eq.refl _ : (_ : Nat) = _)
    | with_reducible exact Does.refl _ _
    | with_reducible refine does_bump ?_ ?_
    | with_reducible refine does_clrMem ?_ ?_
    | with_reducible refine does_putBulk ?_ ?_
    | with_reducible refine does_wrMem ?_ ?_
    | with_reducible refine Does.ite_fst ?_ ?_
    | split

theorem does_mergeSector {m : Nat} {s t : State} {x1 : Nat} {x2 : Nat} {x3 : List Byte} (hm : 18447307023943729226 ||| m = m) (h : Does m s t) :
    Does m s (State.mergeSector t x1 x2 x3).1 := by
  refine h.after (c := 18447307023943729226) ?_ hm
  unfold State.mergeSector
  dsimp only
  repeat' first
    | exact (Eq.refl _ : (_ : Nat) = _)
    | with_reducible exact Does.refl _ _
    | with_reducible refine does_readSector ?_ ?_
    | with_reducible refine does_writeSector ?_ ?_
    | with_reducible refine Does.ite_fst ?_ ?_

theorem does_devWrite {m : Nat} {s t : State} {x1 : Nat} {x2 : List Byte} (hm : 18447307023943729226 ||| m = m) (h : Does m s t) :
    Does m s (State.devWrite t x1 x2).1 := by
  refine h.after (c := 18447307023943729226) ?_ hm
  unfold State.devWrite
  dsimp only
  repeat' first
    | exact (Eq.refl _ : (_ : Nat) = _)
    | with_reducible exact Does.refl _ _
    | with_reducible refine does_mergeSector ?_ ?_
    | with_reducible assumption
    | with_reducible refine Does.foldl (fun _ _ _ => ?_) ?_
    | with_reducible refine Does.foldl_pair (fun _ _ _ => ?_) ?_

theorem does_devPut {m : Nat} {s t : State} {x1 : Nat} {x2 : List Byte} (hm : 18447307023943729226 ||| m = m) (h : Does m s t) :
    Does m s (State.devPut t x1 x2) := by
  refine h.after (c := 18447307023943729226) ?_ hm
  unfold State.devPut
  repeat' first
    | exact (Eq.refl _ : (_ : Nat) = _)
    | with_reducible exact Does.refl _ _
    | with_reducible refine does_devWrite ?_ ?_

theorem does_translate {m : Nat} {s t : State}  (hm : 18446744073709551618 ||| m = m) (h : Does m s t) :
    Does m s (State.translate t) := by
  refine h.after (c := 18446744073709551618) ?_ hm
  unfold State.translate
  repeat' first
    | exact (Eq.refl _ : (_ : Nat) = _)
    | with_reducible exact Does.refl _ _
    | with_reducible refine does_bump ?_ ?_
    | with_reducible refine does_useFree ?_ ?_
    | with_reducible refine Does.ite ?_ ?_

theorem does_countAccess {m : Nat} {s t : State} {x1 : Nat} (hm : 18446744073977987074 ||| m = m) (h : Does m s t) :
    Does m s (State.countAccess t x1) := by
  refine h.after (c := 18446744073977987074) ?_ hm
  unfold State.countAccess
  repeat' first
    | exact (Eq.refl _ : (_ : Nat) = _)
    | with_reducible exact Does.refl _ _
    | with_reducible refine does_modPlaced ?_ ?_
    | with_reducible refine does_translate ?_ ?_

theorem does_devRead {m : Nat} {s t : State} {x1 : Nat} {x2 : Nat} (hm : 18447307023943729226 ||| m = m) (h : Does m s t) :
    Does m s (State.devRead t x1 x2).1 := by
  refine h.after (c := 18447307023943729226) ?_ hm
  unfold State.devRead
  dsimp only
  repeat' first
    | exact (Eq.refl _ : (_ : Nat) = _)
    | with_reducible exact Does.refl _ _
    | with_reducible refine does_readSector ?_ ?_
    | with_reducible assumption
    | with_reducible refine Does.foldl (fun _ _ _ => ?_) ?_
    | with_reducible refine Does.foldl_pair (fun _ _ _ => ?_) ?_

theorem does_seal {m : Nat} {s t : State} {x1 : StackLoc} (hm : 16777216 ||| m = m) (h : Does m s t) :
    Does m s (State.seal t x1) := by
  refine h.after (c := 16777216) ?_ hm
  unfold State.seal
  dsimp only
  repeat' first
    | exact (Eq.refl _ : (_ : Nat) = _)
    | with_reducible exact Does.refl _ _
    | with_reducible refine Does.ite ?_ ?_
    | split
    | with_reducible refine does_set_stale ?_ ?_

theorem does_zeroUnit {m : Nat} {s t : State} {x1 : Nat} (hm : 16777224 ||| m = m) (h : Does m s t) :
    Does m s (State.zeroUnit t x1) := by
  refine h.after (c := 16777224) ?_ hm
  unfold State.zeroUnit
  dsimp only
  repeat' first
    | exact (Eq.refl _ : (_ : Nat) = _)
    | with_reducible exact Does.refl _ _
    | with_reducible refine does_clrMem ?_ ?_
    | with_reducible refine does_putBulk ?_ ?_
    | with_reducible refine does_seal ?_ ?_
    | with_reducible assumption
    | with_reducible refine Does.foldl (fun _ _ _ => ?_) ?_
    | with_reducible refine Does.foldl_pair (fun _ _ _ => ?_) ?_
    | split

theorem does_makeStale {m : Nat} {s t : State} {x1 : StackLoc} {u : State} (hm : 16777216 ||| m = m) (he : State.makeStale t x1 = some u) (h : Does m s t) :
    Does m s u := by
  unfold State.makeStale at he
  dsimp only at he
  split at he <;> split at he <;> first | (cases he; exact does_set_stale hm h) | cases he

end Sys2Proof.Machine
end

