-- ==== Sys2Proof/Laws/FrameEng.lean ====
section
/-! SUPPORT. What the operations of Eng change: the mask of the kinds of state each may touch. -/

namespace Sys2Proof.Machine

theorem does_eaPut {m : Nat} {s t : State} {x1 : EA} {x2 : List Byte} (hm : 274877906952 ||| m = m) (h : Does m s t) :
    Does m s (State.eaPut t x1 x2) := by
  refine h.after (c := 274877906952) ?_ hm
  unfold State.eaPut
  dsimp only
  repeat' first
    | exact (Eq.refl _ : (_ : Nat) = _)
    | with_reducible exact Does.refl _ _
    | with_reducible refine does_wrMem ?_ ?_
    | with_reducible assumption
    | with_reducible refine Does.foldl (fun _ _ _ => ?_) ?_
    | with_reducible refine Does.foldl_pair (fun _ _ _ => ?_) ?_
    | with_reducible refine Does.ite ?_ ?_
    | split
    | with_reducible refine does_set_tiles ?_ ?_

theorem does_eaPutBoth {m : Nat} {s t : State} {x1 : EA} {x2 : List Byte} (hm : 274877906952 ||| m = m) (h : Does m s t) :
    Does m s (State.eaPutBoth t x1 x2) := by
  refine h.after (c := 274877906952) ?_ hm
  unfold State.eaPutBoth
  dsimp only
  repeat' first
    | exact (Eq.refl _ : (_ : Nat) = _)
    | with_reducible exact Does.refl _ _
    | with_reducible refine does_eaPut ?_ ?_
    | split

theorem does_freeBytes {m : Nat} {s t : State} {x1 : Nat} (hm : 18446744073709551616 ||| m = m) (h : Does m s t) :
    Does m s (State.freeBytes t x1).1 := by
  refine h.after (c := 18446744073709551616) ?_ hm
  refine ⟨fun k hk => ?_, ⟨rfl, id, List.prefix_rfl, Nat.le_add_right _ _⟩⟩
  cases k <;> first | rfl | exact absurd hk (by decide)

theorem does_modIg {m : Nat} {s t : State} {x1 : Nat} {x2 : IgPart → IgPart} (hm : 1073741824 ||| m = m) (h : Does m s t) :
    Does m s (State.modIg t x1 x2) := by
  refine h.after (c := 1073741824) ?_ hm
  unfold State.modIg
  repeat' first
    | exact (Eq.refl _ : (_ : Nat) = _)
    | with_reducible exact Does.refl _ _
    | with_reducible refine does_set_igs ?_ ?_

theorem does_noteOut {m : Nat} {s t : State} {x1 : Nat} {x2 : List Byte} (hm : 32768 ||| m = m) (h : Does m s t) :
    Does m s (State.noteOut t x1 x2) := by
  refine h.after (c := 32768) ?_ hm
  unfold State.noteOut
  repeat' first
    | exact (Eq.refl _ : (_ : Nat) = _)
    | with_reducible exact Does.refl _ _
    | with_reducible refine does_modSeq ?_ ?_
    | with_reducible refine Does.ite ?_ ?_

theorem does_eaWrite {m : Nat} {s t : State} {x1 : Nat} {x2 : EA} {x3 : List Byte} (hm : 274877939720 ||| m = m) (h : Does m s t) :
    Does m s (State.eaWrite t x1 x2 x3) := by
  refine h.after (c := 274877939720) ?_ hm
  unfold State.eaWrite
  repeat' first
    | exact (Eq.refl _ : (_ : Nat) = _)
    | with_reducible exact Does.refl _ _
    | with_reducible refine does_eaPut ?_ ?_
    | with_reducible refine does_eaPutBoth ?_ ?_
    | with_reducible refine does_noteOut ?_ ?_
    | with_reducible refine Does.ite ?_ ?_

theorem does_engEvent {m : Nat} {s t : State} {x1 : Nat} {x2 : Nat} {x3 : Nat} {x4 : Status} {x5 : optParam Bool false} (hm : 18446744073713483842 ||| m = m) (h : Does m s t) :
    Does m s (State.engEvent t x1 x2 x3 x4 x5) := by
  refine h.after (c := 18446744073713483842) ?_ hm
  unfold State.engEvent
  repeat' first
    | exact (Eq.refl _ : (_ : Nat) = _)
    | with_reducible exact Does.refl _ _
    | with_reducible refine does_raise ?_ ?_

theorem does_modXslot {m : Nat} {s t : State} {x1 : Nat} {x2 : Nat} {x3 : XSlot → XSlot} (hm : 281474976710656 ||| m = m) (h : Does m s t) :
    Does m s (State.modXslot t x1 x2 x3) := by
  refine h.after (c := 281474976710656) ?_ hm
  unfold State.modXslot
  repeat' first
    | exact (Eq.refl _ : (_ : Nat) = _)
    | with_reducible exact Does.refl _ _
    | with_reducible refine does_set_xslots ?_ ?_

theorem does_digestAdd {m : Nat} {s t : State} {x1 : Nat} {x2 : Nat} {x3 : List Byte} {x4 : List Byte} (hm : 1073741824 ||| m = m) (h : Does m s t) :
    Does m s (State.digestAdd t x1 x2 x3 x4) := by
  refine h.after (c := 1073741824) ?_ hm
  unfold State.digestAdd
  repeat' first
    | exact (Eq.refl _ : (_ : Nat) = _)
    | with_reducible exact Does.refl _ _
    | with_reducible refine does_modIg ?_ ?_

theorem does_digestOut {m : Nat} {s t : State} {x1 : Nat} {x2 : Nat} {x3 : Nat} {x4 : List Byte} (hm : 1073774592 ||| m = m) (h : Does m s t) :
    Does m s (State.digestOut t x1 x2 x3 x4) := by
  refine h.after (c := 1073774592) ?_ hm
  unfold State.digestOut
  dsimp only
  repeat' first
    | exact (Eq.refl _ : (_ : Nat) = _)
    | with_reducible exact Does.refl _ _
    | with_reducible refine does_digestAdd ?_ ?_
    | with_reducible refine does_noteOut ?_ ?_
    | with_reducible refine Does.ite ?_ ?_
    | split

theorem does_vecCount {m : Nat} {s t : State} {x1 : Nat} {x2 : LaneAcc} (hm : 18446744073713483842 ||| m = m) (h : Does m s t) :
    Does m s (State.vecCount t x1 x2) := by
  refine h.after (c := 18446744073713483842) ?_ hm
  unfold State.vecCount
  dsimp only
  repeat' first
    | exact (Eq.refl _ : (_ : Nat) = _)
    | with_reducible exact Does.refl _ _
    | with_reducible refine does_bump ?_ ?_
    | with_reducible refine does_engEvent ?_ ?_
    | with_reducible refine Does.ite ?_ ?_

theorem does_noteFail {m : Nat} {s t : State} {x1 : Nat} {x2 : Nat} {x3 : Nat} {x4 : Status} (hm : 2199023255552 ||| m = m) (h : Does m s t) :
    Does m s (State.noteFail t x1 x2 x3 x4) := by
  refine h.after (c := 2199023255552) ?_ hm
  unfold State.noteFail
  repeat' first
    | exact (Eq.refl _ : (_ : Nat) = _)
    | with_reducible exact Does.refl _ _
    | with_reducible refine does_set_engFail ?_ ?_

theorem does_modTile {m : Nat} {s t : State} {x1 : Nat} {x2 : Nat} {x3 : TileStat → TileStat} (hm : 274877906944 ||| m = m) (h : Does m s t) :
    Does m s (State.modTile t x1 x2 x3) := by
  refine h.after (c := 274877906944) ?_ hm
  unfold State.modTile
  repeat' first
    | exact (Eq.refl _ : (_ : Nat) = _)
    | with_reducible exact Does.refl _ _
    | with_reducible refine does_set_tiles ?_ ?_

theorem does_seqFault {m : Nat} {s t : State} {x1 : Nat} {x2 : Nat} (hm : 18446744073713516610 ||| m = m) (h : Does m s t) :
    Does m s (State.seqFault t x1 x2) := by
  refine h.after (c := 18446744073713516610) ?_ hm
  unfold State.seqFault
  dsimp only
  repeat' first
    | exact (Eq.refl _ : (_ : Nat) = _)
    | with_reducible exact Does.refl _ _
    | with_reducible refine does_modSeq ?_ ?_
    | with_reducible refine does_raise ?_ ?_

theorem does_releaseTiles {m : Nat} {s t : State} {x1 : Nat} {x2 : Nat} {x3 : Nat} (hm : 18446744073713582146 ||| m = m) (h : Does m s t) :
    Does m s (State.releaseTiles t x1 x2 x3) := by
  refine h.after (c := 18446744073713582146) ?_ hm
  unfold State.releaseTiles
  dsimp only
  repeat' first
    | exact (Eq.refl _ : (_ : Nat) = _)
    | with_reducible exact Does.refl _ _
    | with_reducible refine does_modRegion ?_ ?_
    | with_reducible refine does_seqFault ?_ ?_
    | with_reducible refine Does.ite ?_ ?_

end Sys2Proof.Machine
end

