-- ==== Sys2Proof/Laws/FrameAttn.lean ====
section
/-! SUPPORT. What the operations of Attn change: the mask of the kinds of state each may touch. -/

namespace Sys2Proof.Machine

theorem does_noteSeqBad {m : Nat} {s t : State} {x1 : Nat} {x2 : SeqEnt} {x3 : Status} (hm : 2305843009213693952 ||| m = m) (h : Does m s t) :
    Does m s (State.noteSeqBad t x1 x2 x3) := by
  refine h.after (c := 2305843009213693952) ?_ hm
  unfold State.noteSeqBad
  repeat' first
    | exact (Eq.refl _ : (_ : Nat) = _)
    | with_reducible exact Does.refl _ _
    | with_reducible refine does_set_seqBad ?_ ?_

theorem does_putRstat {m : Nat} {s t : State} {x1 : Nat} {x2 : EA} {x3 : Nat} {x4 : Status} (hm : 274877939720 ||| m = m) (h : Does m s t) :
    Does m s (State.putRstat t x1 x2 x3 x4) := by
  refine h.after (c := 274877939720) ?_ hm
  unfold State.putRstat
  repeat' first
    | exact (Eq.refl _ : (_ : Nat) = _)
    | with_reducible exact Does.refl _ _
    | with_reducible refine does_eaWrite ?_ ?_

theorem does_seqLevelFault {m : Nat} {s t : State} {x1 : Nat} {x2 : Nat} {x3 : SeqEnt} {x4 : Nat} {x5 : Status} (hm : 18446884811201839170 ||| m = m) (h : Does m s t) :
    Does m s (State.seqLevelFault t x1 x2 x3 x4 x5) := by
  refine h.after (c := 18446884811201839170) ?_ hm
  unfold State.seqLevelFault
  dsimp only
  repeat' first
    | exact (Eq.refl _ : (_ : Nat) = _)
    | with_reducible exact Does.refl _ _
    | with_reducible refine does_bump ?_ ?_
    | with_reducible refine does_raise ?_ ?_
    | with_reducible refine does_set_attSeq ?_ ?_

theorem does_putHeadRow {m : Nat} {s t : State} {x1 : Nat} {x2 : EA} {x3 : Nat} {x4 : Nat} {x5 : Nat} {x6 : Nat} {x7 : Nat} {x8 : List Nat} (hm : 274877939720 ||| m = m) (h : Does m s t) :
    Does m s (State.putHeadRow t x1 x2 x3 x4 x5 x6 x7 x8) := by
  refine h.after (c := 274877939720) ?_ hm
  unfold State.putHeadRow
  repeat' first
    | exact (Eq.refl _ : (_ : Nat) = _)
    | with_reducible exact Does.refl _ _
    | with_reducible refine does_eaWrite ?_ ?_
    | with_reducible assumption
    | with_reducible refine Does.foldl (fun _ _ _ => ?_) ?_

theorem does_zeroSeq {m : Nat} {s t : State} {x1 : Nat} {x2 : AttCfg} {x3 : Batch} {x4 : SeqEnt} (hm : 274877939720 ||| m = m) (h : Does m s t) :
    Does m s (State.zeroSeq t x1 x2 x3 x4) := by
  refine h.after (c := 274877939720) ?_ hm
  unfold State.zeroSeq
  dsimp only
  repeat' first
    | exact (Eq.refl _ : (_ : Nat) = _)
    | with_reducible exact Does.refl _ _
    | with_reducible refine does_eaWrite ?_ ?_
    | with_reducible refine does_putHeadRow ?_ ?_
    | with_reducible assumption
    | with_reducible refine Does.foldl (fun _ _ _ => ?_) ?_
    | with_reducible refine Does.foldl_pair (fun _ _ _ => ?_) ?_
    | with_reducible refine Does.ite ?_ ?_
    | split

theorem does_adecFail {m : Nat} {s t : State} {x1 : Nat} {x2 : AttCfg} {x3 : Batch} {x4 : EA} {x5 : Nat} {x6 : SeqEnt} {x7 : Nat} {x8 : Status} (hm : 20752728095293472842 ||| m = m) (h : Does m s t) :
    Does m s (State.adecFail t x1 x2 x3 x4 x5 x6 x7 x8) := by
  refine h.after (c := 20752728095293472842) ?_ hm
  unfold State.adecFail
  repeat' first
    | exact (Eq.refl _ : (_ : Nat) = _)
    | with_reducible exact Does.refl _ _
    | with_reducible refine does_noteSeqBad ?_ ?_
    | with_reducible refine does_putRstat ?_ ?_
    | with_reducible refine does_seqLevelFault ?_ ?_
    | with_reducible refine does_zeroSeq ?_ ?_

theorem does_attEvent {m : Nat} {s t : State} {x1 : Nat} {x2 : Nat} {x3 : Status} (hm : 18446744073713483842 ||| m = m) (h : Does m s t) :
    Does m s (State.attEvent t x1 x2 x3) := by
  refine h.after (c := 18446744073713483842) ?_ hm
  unfold State.attEvent
  repeat' first
    | exact (Eq.refl _ : (_ : Nat) = _)
    | with_reducible exact Does.refl _ _
    | with_reducible refine does_engEvent ?_ ?_

theorem does_attCount {m : Nat} {s t : State} {x1 : Nat} {x2 : Nat} {x3 : Nat} (hm : 18446744073713483842 ||| m = m) (h : Does m s t) :
    Does m s (State.attCount t x1 x2 x3) := by
  refine h.after (c := 18446744073713483842) ?_ hm
  unfold State.attCount
  dsimp only
  repeat' first
    | exact (Eq.refl _ : (_ : Nat) = _)
    | with_reducible exact Does.refl _ _
    | with_reducible refine does_attEvent ?_ ?_
    | with_reducible refine does_bump ?_ ?_
    | with_reducible refine Does.ite ?_ ?_

theorem does_adecSeq {m : Nat} {s t : State} {x1 : Nat} {x2 : AttCfg} {x3 : Batch} {x4 : EA} {x5 : Nat} {x6 : SeqEnt} {x7 : WalkRun} (hm : 18446744348591423562 ||| m = m) (h : Does m s t) :
    Does m s (State.adecSeq t x1 x2 x3 x4 x5 x6 x7) := by
  refine h.after (c := 18446744348591423562) ?_ hm
  unfold State.adecSeq
  dsimp only
  repeat' first
    | exact (Eq.refl _ : (_ : Nat) = _)
    | with_reducible exact Does.refl _ _
    | with_reducible refine does_attCount ?_ ?_
    | with_reducible refine does_attEvent ?_ ?_
    | with_reducible refine does_bump ?_ ?_
    | with_reducible refine does_eaWrite ?_ ?_
    | with_reducible refine does_putHeadRow ?_ ?_
    | with_reducible refine does_putRstat ?_ ?_
    | with_reducible assumption
    | with_reducible refine Does.foldl (fun _ _ _ => ?_) ?_
    | with_reducible refine Does.foldl_pair (fun _ _ _ => ?_) ?_
    | with_reducible refine Does.ite ?_ ?_
    | split

theorem does_endWalk {m : Nat} {s t : State} {x1 : Nat} {x2 : QEntry} (hm : 281474976710656 ||| m = m) (h : Does m s t) :
    Does m s (State.endWalk t x1 x2) := by
  refine h.after (c := 281474976710656) ?_ hm
  unfold State.endWalk
  repeat' first
    | exact (Eq.refl _ : (_ : Nat) = _)
    | with_reducible exact Does.refl _ _
    | with_reducible refine does_modXslot ?_ ?_
    | split

theorem does_appendWrite {m : Nat} {s t : State} {x1 : Nat} {x2 : Nat} {x3 : List Byte} (hm : 18447307023943729226 ||| m = m) (h : Does m s t) :
    Does m s (State.appendWrite t x1 x2 x3).1 := by
  refine h.after (c := 18447307023943729226) ?_ hm
  unfold State.appendWrite
  repeat' first
    | exact (Eq.refl _ : (_ : Nat) = _)
    | with_reducible exact Does.refl _ _
    | with_reducible refine does_bump ?_ ?_
    | with_reducible refine does_countAccess ?_ ?_
    | with_reducible refine does_devWrite ?_ ?_
    | with_reducible refine Does.ite_fst ?_ ?_

theorem does_attRead {m : Nat} {s t : State} {x1 : Nat} {x2 : Nat} {x3 : Nat} (hm : 18447307023943729226 ||| m = m) (h : Does m s t) :
    Does m s (State.attRead t x1 x2 x3).1 := by
  refine h.after (c := 18447307023943729226) ?_ hm
  unfold State.attRead
  dsimp only
  repeat' first
    | exact (Eq.refl _ : (_ : Nat) = _)
    | with_reducible exact Does.refl _ _
    | with_reducible refine does_countAccess ?_ ?_
    | with_reducible refine does_devRead ?_ ?_
    | with_reducible refine Does.ite_fst ?_ ?_

theorem does_globals {m : Nat} {s t : State} {x1 : Nat} {x2 : SeqEnt} (hm : 18447307023943729226 ||| m = m) (h : Does m s t) :
    Does m s (State.globals t x1 x2).1 := by
  refine h.after (c := 18447307023943729226) ?_ hm
  unfold State.globals
  dsimp only
  repeat' first
    | exact (Eq.refl _ : (_ : Nat) = _)
    | with_reducible exact Does.refl _ _
    | with_reducible refine does_attRead ?_ ?_
    | with_reducible refine Does.ite_fst ?_ ?_

theorem does_pageAddr {m : Nat} {s t : State} {x1 : Nat} {x2 : AttCfg} {x3 : SeqEnt} {x4 : Place} (hm : 18447307023943729226 ||| m = m) (h : Does m s t) :
    Does m s (State.pageAddr t x1 x2 x3 x4).1 := by
  refine h.after (c := 18447307023943729226) ?_ hm
  unfold State.pageAddr
  dsimp only
  repeat' first
    | exact (Eq.refl _ : (_ : Nat) = _)
    | with_reducible exact Does.refl _ _
    | with_reducible refine does_attRead ?_ ?_
    | with_reducible refine Does.ite_fst ?_ ?_

theorem does_targetAddr {m : Nat} {s t : State} {x1 : Nat} {x2 : AttCfg} {x3 : SeqEnt} {x4 : Place} (hm : 18447307023943729226 ||| m = m) (h : Does m s t) :
    Does m s (State.targetAddr t x1 x2 x3 x4).1 := by
  refine h.after (c := 18447307023943729226) ?_ hm
  unfold State.targetAddr
  dsimp only
  repeat' first
    | exact (Eq.refl _ : (_ : Nat) = _)
    | with_reducible exact Does.refl _ _
    | with_reducible refine does_pageAddr ?_ ?_

theorem does_appendSeq {m : Nat} {s t : State} {x1 : Nat} {x2 : Nat} {x3 : AttCfg} {x4 : Batch} {x5 : EA} {x6 : Nat} {x7 : SeqEnt} (hm : 20753291046597460042 ||| m = m) (h : Does m s t) :
    Does m s (State.appendSeq t x1 x2 x3 x4 x5 x6 x7) := by
  refine h.after (c := 20753291046597460042) ?_ hm
  unfold State.appendSeq
  dsimp only
  repeat' first
    | exact (Eq.refl _ : (_ : Nat) = _)
    | with_reducible exact Does.refl _ _
    | with_reducible refine does_appendWrite ?_ ?_
    | with_reducible refine does_attCount ?_ ?_
    | with_reducible refine does_digestOut ?_ ?_
    | with_reducible refine does_eaWrite ?_ ?_
    | with_reducible refine does_globals ?_ ?_
    | with_reducible refine does_noteSeqBad ?_ ?_
    | with_reducible refine does_putRstat ?_ ?_
    | with_reducible refine does_seqLevelFault ?_ ?_
    | with_reducible refine does_targetAddr ?_ ?_
    | with_reducible assumption
    | with_reducible refine Does.foldl (fun _ _ _ => ?_) ?_
    | with_reducible refine Does.foldl_pair (fun _ _ _ => ?_) ?_
    | with_reducible refine Does.of_fst (by assumption) ?_
    | with_reducible refine Does.ite ?_ ?_
    | split

theorem does_attFail {m : Nat} {s t : State} {x1 : Nat} {x2 : QEntry} {x3 : Nat} {x4 : Status} (hm : 18446746272736739394 ||| m = m) (h : Does m s t) :
    Does m s (State.attFail t x1 x2 x3 x4).1 := by
  refine h.after (c := 18446746272736739394) ?_ hm
  unfold State.attFail
  repeat' first
    | exact (Eq.refl _ : (_ : Nat) = _)
    | with_reducible exact Does.refl _ _
    | with_reducible refine does_attEvent ?_ ?_
    | with_reducible refine does_noteFail ?_ ?_

theorem does_patWrite {m : Nat} {s t : State} {x1 : Nat} {x2 : Word} (hm : 4611686018427387906 ||| m = m) (h : Does m s t) :
    Does m s (State.patWrite t x1 x2) := by
  refine h.after (c := 4611686018427387906) ?_ hm
  unfold State.patWrite
  repeat' first
    | exact (Eq.refl _ : (_ : Nat) = _)
    | with_reducible exact Does.refl _ _
    | with_reducible refine does_ends ?_ ?_
    | with_reducible refine does_setReg ?_ ?_
    | with_reducible refine Does.ite ?_ ?_

theorem does_startAconfig {m : Nat} {s t : State} {x1 : Nat} {x2 : QEntry} {x3 : SInstr} (hm : 18446816641480917058 ||| m = m) (h : Does m s t) :
    Does m s (State.startAconfig t x1 x2 x3).1 := by
  refine h.after (c := 18446816641480917058) ?_ hm
  unfold State.startAconfig
  dsimp only
  repeat' first
    | exact (Eq.refl _ : (_ : Nat) = _)
    | with_reducible exact Does.refl _ _
    | with_reducible refine does_attFail ?_ ?_
    | with_reducible assumption
    | with_reducible refine Does.foldl (fun _ _ _ => ?_) ?_
    | with_reducible refine Does.foldl_pair (fun _ _ _ => ?_) ?_
    | with_reducible refine Does.of_fst (by assumption) ?_
    | with_reducible refine Does.ite_fst ?_ ?_
    | split
    | with_reducible refine does_set_attCfg ?_ ?_

theorem does_takeWalk {m : Nat} {s t : State} {x1 : Nat} {x2 : Nat} {x3 : Nat} {x4 : QEntry} (hm : 281474976710656 ||| m = m) (h : Does m s t) :
    Does m s (State.takeWalk t x1 x2 x3 x4).1 := by
  refine h.after (c := 281474976710656) ?_ hm
  unfold State.takeWalk
  repeat' first
    | exact (Eq.refl _ : (_ : Nat) = _)
    | with_reducible exact Does.refl _ _
    | with_reducible refine does_modXslot ?_ ?_

theorem does_gatherSeq {m : Nat} {s t : State} {x1 : Nat} {x2 : AttCfg} {x3 : Gather} {x4 : EA} {x5 : SeqEnt} {x6 : WalkRun} (hm : 18446744348591423562 ||| m = m) (h : Does m s t) :
    Does m s (State.gatherSeq t x1 x2 x3 x4 x5 x6) := by
  refine h.after (c := 18446744348591423562) ?_ hm
  unfold State.gatherSeq
  dsimp only
  repeat' first
    | exact (Eq.refl _ : (_ : Nat) = _)
    | with_reducible exact Does.refl _ _
    | with_reducible refine does_attCount ?_ ?_
    | with_reducible refine does_bump ?_ ?_
    | with_reducible refine does_eaWrite ?_ ?_
    | with_reducible refine does_putRstat ?_ ?_
    | with_reducible refine Does.ite ?_ ?_
    | split

theorem does_walkFault {m : Nat} {s t : State} {x1 : Nat} {x2 : WalkEnv} {x3 : WalkRun} {x4 : SeqEnt} {x5 : Nat} {x6 : Status} (hm : 20752728095293472842 ||| m = m) (h : Does m s t) :
    Does m s (State.walkFault t x1 x2 x3 x4 x5 x6).1 := by
  refine h.after (c := 20752728095293472842) ?_ hm
  unfold State.walkFault
  dsimp only
  repeat' first
    | exact (Eq.refl _ : (_ : Nat) = _)
    | with_reducible exact Does.refl _ _
    | with_reducible refine does_adecFail ?_ ?_
    | with_reducible refine does_putRstat ?_ ?_
    | with_reducible refine does_seqLevelFault ?_ ?_
    | split

theorem does_walkBegin {m : Nat} {s t : State} {x1 : Nat} {x2 : WalkEnv} {x3 : WalkRun} (hm : 20753291045523718218 ||| m = m) (h : Does m s t) :
    Does m s (State.walkBegin t x1 x2 x3).1 := by
  refine h.after (c := 20753291045523718218) ?_ hm
  unfold State.walkBegin
  dsimp only
  repeat' first
    | exact (Eq.refl _ : (_ : Nat) = _)
    | with_reducible exact Does.refl _ _
    | with_reducible refine does_globals ?_ ?_
    | with_reducible refine does_walkFault ?_ ?_
    | with_reducible refine Does.of_fst (by assumption) ?_
    | with_reducible refine Does.ite_fst ?_ ?_

theorem does_putTile {m : Nat} {s t : State} {x1 : Nat} {x2 : List Byte} {x3 : Nat × Nat × Nat} {x4 : Nat} (hm : 274877972488 ||| m = m) (h : Does m s t) :
    Does m s (State.putTile t x1 x2 x3 x4) := by
  refine h.after (c := 274877972488) ?_ hm
  unfold State.putTile
  dsimp only
  repeat' first
    | exact (Eq.refl _ : (_ : Nat) = _)
    | with_reducible exact Does.refl _ _
    | with_reducible refine does_eaPut ?_ ?_
    | with_reducible refine does_modRegion ?_ ?_

theorem does_takeTile {m : Nat} {s t : State} {x1 : Nat} {x2 : Nat} {x3 : Nat} (hm : 65536 ||| m = m) (h : Does m s t) :
    Does m s (State.takeTile t x1 x2 x3).1 := by
  refine h.after (c := 65536) ?_ hm
  unfold State.takeTile
  dsimp only
  repeat' first
    | exact (Eq.refl _ : (_ : Nat) = _)
    | with_reducible exact Does.refl _ _
    | with_reducible refine does_modRegion ?_ ?_

theorem does_walkTile {m : Nat} {s t : State} {x1 : Nat} {x2 : Nat} {x3 : Nat} {x4 : Nat} {x5 : Nat} {x6 : Nat} {x7 : Nat} {x8 : Nat} (hm : 18447307298821701706 ||| m = m) (h : Does m s t) :
    Does m s (State.walkTile t x1 x2 x3 x4 x5 x6 x7 x8).1 := by
  refine h.after (c := 18447307298821701706) ?_ hm
  unfold State.walkTile
  dsimp only
  repeat' first
    | exact (Eq.refl _ : (_ : Nat) = _)
    | with_reducible exact Does.refl _ _
    | with_reducible refine does_bump ?_ ?_
    | with_reducible refine does_countAccess ?_ ?_
    | with_reducible refine does_devRead ?_ ?_
    | with_reducible refine does_putTile ?_ ?_
    | with_reducible refine does_takeTile ?_ ?_
    | with_reducible assumption
    | with_reducible refine Does.foldl (fun _ _ _ => ?_) ?_
    | with_reducible refine Does.foldl_pair (fun _ _ _ => ?_) ?_
    | with_reducible refine Does.ite_fst ?_ ?_
    | split

theorem does_walkPiece {m : Nat} {s t : State} {x1 : Nat} {x2 : WalkEnv} {x3 : WalkRun} (hm : 21906212550130630730 ||| m = m) (h : Does m s t) :
    Does m s (State.walkPiece t x1 x2 x3).1 := by
  refine h.after (c := 21906212550130630730) ?_ hm
  unfold State.walkPiece
  dsimp only
  repeat' first
    | exact (Eq.refl _ : (_ : Nat) = _)
    | with_reducible exact Does.refl _ _
    | with_reducible refine does_adecSeq ?_ ?_
    | with_reducible refine does_bump ?_ ?_
    | with_reducible refine does_gatherSeq ?_ ?_
    | with_reducible refine does_pageAddr ?_ ?_
    | with_reducible refine does_walkBegin ?_ ?_
    | with_reducible refine does_walkFault ?_ ?_
    | with_reducible refine does_walkTile ?_ ?_
    | with_reducible refine Does.of_fst (by assumption) ?_
    | with_reducible refine Does.ite_fst ?_ ?_
    | split
    | with_reducible refine does_set_pageSeen ?_ ?_

theorem does_walkLoop {m : Nat} {s t : State} {x1 : Nat} {x2 : Nat} {x3 : WalkEnv} {x4 : QEntry} {x5 : Nat} {x6 : WalkRun} {x7 : Bool} (hm : 21906214749153886282 ||| m = m) (h : Does m s t) :
    Does m s (State.walkLoop t x1 x2 x3 x4 x5 x6 x7).1 := by
  refine h.after (c := 21906214749153886282) ?_ hm
  clear h
  induction x5 generalizing t x1 x2 x3 x4 x6 x7 with
  | zero =>
    unfold State.walkLoop
    repeat' first
      | exact (Eq.refl _ : (_ : Nat) = _)
      | with_reducible exact Does.refl _ _
      | with_reducible refine does_attFail ?_ ?_
      | with_reducible refine does_raise ?_ ?_
      | with_reducible refine does_walkPiece ?_ ?_
      | with_reducible refine Does.of_fst (by assumption) ?_
      | with_reducible refine Does.ite_fst ?_ ?_
      | split
  | succ n ih =>
    unfold State.walkLoop
    try dsimp only
    repeat' first
      | with_reducible refine Does.after (c := 21906214749153886282) ?_ ih ?_
      | exact (Eq.refl _ : (_ : Nat) = _)
      | with_reducible exact Does.refl _ _
      | with_reducible refine does_attFail ?_ ?_
      | with_reducible refine does_raise ?_ ?_
      | with_reducible refine does_walkPiece ?_ ?_
      | with_reducible refine Does.of_fst (by assumption) ?_
      | with_reducible refine Does.ite_fst ?_ ?_
      | split

theorem does_startWalk {m : Nat} {s t : State} {x1 : Nat} {x2 : Nat} {x3 : Bool} {x4 : QEntry} {x5 : WalkRun} (hm : 21906496224130596938 ||| m = m) (h : Does m s t) :
    Does m s (State.startWalk t x1 x2 x3 x4 x5).1 := by
  refine h.after (c := 21906496224130596938) ?_ hm
  unfold State.startWalk
  dsimp only
  repeat' first
    | exact (Eq.refl _ : (_ : Nat) = _)
    | with_reducible exact Does.refl _ _
    | with_reducible refine does_attFail ?_ ?_
    | with_reducible refine does_takeWalk ?_ ?_
    | with_reducible refine does_walkLoop ?_ ?_
    | with_reducible refine Does.of_fst (by assumption) ?_
    | split

theorem does_startAgather {m : Nat} {s t : State} {x1 : Nat} {x2 : QEntry} {x3 : SInstr} (hm : 21906496224130596938 ||| m = m) (h : Does m s t) :
    Does m s (State.startAgather t x1 x2 x3).1 := by
  refine h.after (c := 21906496224130596938) ?_ hm
  unfold State.startAgather
  dsimp only
  repeat' first
    | exact (Eq.refl _ : (_ : Nat) = _)
    | with_reducible exact Does.refl _ _
    | with_reducible refine does_attFail ?_ ?_
    | with_reducible refine does_startWalk ?_ ?_
    | with_reducible refine Does.of_fst (by assumption) ?_
    | with_reducible refine Does.ite_fst ?_ ?_
    | split

theorem does_startAmerge {m : Nat} {s t : State} {x1 : Nat} {x2 : QEntry} {x3 : SInstr} (hm : 18446746547614679114 ||| m = m) (h : Does m s t) :
    Does m s (State.startAmerge t x1 x2 x3).1 := by
  refine h.after (c := 18446746547614679114) ?_ hm
  unfold State.startAmerge
  dsimp only
  repeat' first
    | exact (Eq.refl _ : (_ : Nat) = _)
    | with_reducible exact Does.refl _ _
    | with_reducible refine does_attCount ?_ ?_
    | with_reducible refine does_attFail ?_ ?_
    | with_reducible refine does_eaWrite ?_ ?_
    | with_reducible assumption
    | with_reducible refine Does.foldl (fun _ _ _ => ?_) ?_
    | with_reducible refine Does.foldl_pair (fun _ _ _ => ?_) ?_
    | with_reducible refine Does.of_fst (by assumption) ?_
    | with_reducible refine Does.ite_fst ?_ ?_
    | split

theorem does_startBatch {m : Nat} {s t : State} {x1 : Nat} {x2 : QEntry} {x3 : SInstr} {x4 : Bool} (hm : 21906496225204338762 ||| m = m) (h : Does m s t) :
    Does m s (State.startBatch t x1 x2 x3 x4).1 := by
  refine h.after (c := 21906496225204338762) ?_ hm
  unfold State.startBatch
  dsimp only
  repeat' first
    | exact (Eq.refl _ : (_ : Nat) = _)
    | with_reducible exact Does.refl _ _
    | with_reducible refine does_appendSeq ?_ ?_
    | with_reducible refine does_attFail ?_ ?_
    | with_reducible refine does_startWalk ?_ ?_
    | with_reducible refine does_takeWalk ?_ ?_
    | with_reducible assumption
    | with_reducible refine Does.foldl (fun _ _ _ => ?_) ?_
    | with_reducible refine Does.foldl_pair (fun _ _ _ => ?_) ?_
    | with_reducible refine Does.of_fst (by assumption) ?_
    | with_reducible refine Does.ite_fst ?_ ?_
    | split

theorem does_startXload {m : Nat} {s t : State} {x1 : Nat} {x2 : QEntry} {x3 : SInstr} (hm : 18446746272736739402 ||| m = m) (h : Does m s t) :
    Does m s (State.startXload t x1 x2 x3).1 := by
  refine h.after (c := 18446746272736739402) ?_ hm
  unfold State.startXload
  dsimp only
  repeat' first
    | exact (Eq.refl _ : (_ : Nat) = _)
    | with_reducible exact Does.refl _ _
    | with_reducible refine does_attFail ?_ ?_
    | with_reducible refine does_wrMem ?_ ?_
    | with_reducible refine Does.of_fst (by assumption) ?_
    | with_reducible refine Does.ite_fst ?_ ?_
    | split

theorem does_resumeWalk {m : Nat} {s t : State} {x1 : Nat} {x2 : Bool} {x3 : QEntry} (hm : 21906214749153886282 ||| m = m) (h : Does m s t) :
    Does m s (State.resumeWalk t x1 x2 x3).1 := by
  refine h.after (c := 21906214749153886282) ?_ hm
  unfold State.resumeWalk
  dsimp only
  repeat' first
    | exact (Eq.refl _ : (_ : Nat) = _)
    | with_reducible exact Does.refl _ _
    | with_reducible refine does_bump ?_ ?_
    | with_reducible refine does_walkLoop ?_ ?_
    | with_reducible refine Does.of_fst (by assumption) ?_
    | with_reducible refine Does.ite_fst ?_ ?_
    | split

end Sys2Proof.Machine
end

