-- ==== Sys2Proof/Laws/FrameBulk.lean ====
section
/-! SUPPORT. What the operations of Bulk change: the mask of the kinds of state each may touch. -/

namespace Sys2Proof.Machine

theorem does_boundWrite {m : Nat} {s t : State} {x1 : Word} (hm : 4611686018695823490 ||| m = m) (h : Does m s t) :
    Does m s (State.boundWrite t x1) := by
  refine h.after (c := 4611686018695823490) ?_ hm
  unfold State.boundWrite
  dsimp only
  repeat' first
    | exact (Eq.refl _ : (_ : Nat) = _)
    | with_reducible exact Does.refl _ _
    | with_reducible refine does_ends ?_ ?_
    | with_reducible refine does_modBulk ?_ ?_
    | with_reducible refine does_modPower ?_ ?_
    | with_reducible refine does_setReg ?_ ?_
    | with_reducible refine Does.ite ?_ ?_

theorem does_flipBulk {m : Nat} {s t : State} {x1 : Nat} {x2 : List (Nat × Byte)} (hm : 8 ||| m = m) (h : Does m s t) :
    Does m s (State.flipBulk t x1 x2) := by
  refine h.after (c := 8) ?_ hm
  unfold State.flipBulk
  dsimp only
  repeat' first
    | exact (Eq.refl _ : (_ : Nat) = _)
    | with_reducible exact Does.refl _ _
    | with_reducible refine does_wrMem ?_ ?_

theorem does_bulkReadDone {m : Nat} {s t : State} {x1 : Nat} {x2 : List (Nat × Byte)} {x3 : Option Nat} (hm : 23058430092409307210 ||| m = m) (h : Does m s t) :
    Does m s (State.bulkReadDone t x1 x2 x3) := by
  refine h.after (c := 23058430092409307210) ?_ hm
  unfold State.bulkReadDone
  dsimp only
  repeat' first
    | exact (Eq.refl _ : (_ : Nat) = _)
    | with_reducible exact Does.refl _ _
    | with_reducible refine does_ends ?_ ?_
    | with_reducible refine does_flipBulk ?_ ?_
    | with_reducible refine does_readBulkFrom ?_ ?_
    | with_reducible refine Does.of_fst (by assumption) ?_
    | with_reducible refine Does.ite ?_ ?_
    | split

theorem does_bulkScrub {m : Nat} {s t : State}  (hm : 18446744073981919579 ||| m = m) (h : Does m s t) :
    Does m s (State.bulkScrub t) := by
  refine h.after (c := 18446744073981919579) ?_ hm
  unfold State.bulkScrub
  dsimp only
  repeat' first
    | exact (Eq.refl _ : (_ : Nat) = _)
    | with_reducible exact Does.refl _ _
    | with_reducible refine does_bulkFix ?_ ?_
    | with_reducible refine does_bulkUe ?_ ?_
    | with_reducible refine does_modBulk ?_ ?_
    | with_reducible refine does_noteBulkUe ?_ ?_
    | with_reducible refine does_periodic ?_ ?_
    | with_reducible refine Does.ite ?_ ?_
    | split

theorem does_bulkTrainingLost {m : Nat} {s t : State} {x1 : Nat} (hm : 18446744073981919298 ||| m = m) (h : Does m s t) :
    Does m s (State.bulkTrainingLost t x1) := by
  refine h.after (c := 18446744073981919298) ?_ hm
  unfold State.bulkTrainingLost
  repeat' first
    | exact (Eq.refl _ : (_ : Nat) = _)
    | with_reducible exact Does.refl _ _
    | with_reducible refine does_bulkFail ?_ ?_
    | with_reducible refine Does.ite ?_ ?_

theorem does_queuePin {m : Nat} {s t : State} {x1 : Nat} {x2 : Nat} (hm : 268435456 ||| m = m) (h : Does m s t) :
    Does m s (State.queuePin t x1 x2) := by
  refine h.after (c := 268435456) ?_ hm
  unfold State.queuePin
  dsimp only
  repeat' first
    | exact (Eq.refl _ : (_ : Nat) = _)
    | with_reducible exact Does.refl _ _
    | with_reducible refine does_modBulk ?_ ?_

theorem does_pinWrite {m : Nat} {s t : State} {x1 : Nat} {x2 : Nat} {x3 : Word} (hm : 4611686018695823360 ||| m = m) (h : Does m s t) :
    Does m s (State.pinWrite t x1 x2 x3) := by
  refine h.after (c := 4611686018695823360) ?_ hm
  unfold State.pinWrite
  dsimp only
  repeat' first
    | exact (Eq.refl _ : (_ : Nat) = _)
    | with_reducible exact Does.refl _ _
    | with_reducible refine does_ends ?_ ?_
    | with_reducible refine does_modPlaced ?_ ?_
    | with_reducible refine does_queuePin ?_ ?_
    | with_reducible refine Does.ite ?_ ?_
    | split

theorem does_demoteOver {m : Nat} {s t : State} {x1 : Nat} (hm : 268435456 ||| m = m) (h : Does m s t) :
    Does m s (State.demoteOver t x1) := by
  refine h.after (c := 268435456) ?_ hm
  clear h
  induction x1 generalizing t with
  | zero =>
    unfold State.demoteOver
    repeat' first
      | exact (Eq.refl _ : (_ : Nat) = _)
      | with_reducible exact Does.refl _ _
      | with_reducible refine does_modBulk ?_ ?_
      | with_reducible refine Does.ite ?_ ?_
      | split
  | succ n ih =>
    unfold State.demoteOver
    try dsimp only
    repeat' first
      | with_reducible refine Does.after (c := 268435456) ?_ ih ?_
      | exact (Eq.refl _ : (_ : Nat) = _)
      | with_reducible exact Does.refl _ _
      | with_reducible refine does_modBulk ?_ ?_
      | with_reducible refine Does.ite ?_ ?_
      | split

theorem does_dropSwap {m : Nat} {s t : State}  (hm : 268435456 ||| m = m) (h : Does m s t) :
    Does m s (State.dropSwap t) := by
  refine h.after (c := 268435456) ?_ hm
  unfold State.dropSwap
  repeat' first
    | exact (Eq.refl _ : (_ : Nat) = _)
    | with_reducible exact Does.refl _ _
    | with_reducible refine does_modBulk ?_ ?_

theorem does_mr4Poll {m : Nat} {s t : State} {x1 : Nat} {x2 : Option (Nat × Bool)} (hm : 18446744073981919571 ||| m = m) (h : Does m s t) :
    Does m s (State.mr4Poll t x1 x2) := by
  refine h.after (c := 18446744073981919571) ?_ hm
  unfold State.mr4Poll
  dsimp only
  repeat' first
    | exact (Eq.refl _ : (_ : Nat) = _)
    | with_reducible exact Does.refl _ _
    | with_reducible refine does_bulkFail ?_ ?_
    | with_reducible refine does_modBulk ?_ ?_
    | with_reducible refine does_periodic ?_ ?_
    | with_reducible refine does_raise ?_ ?_
    | with_reducible refine Does.ite ?_ ?_
    | split

theorem does_piecePut {m : Nat} {s t : State} {x1 : Nat} {x2 : List (List Byte × Status)} (hm : 10 ||| m = m) (h : Does m s t) :
    Does m s (State.piecePut t x1 x2) := by
  refine h.after (c := 10) ?_ hm
  unfold State.piecePut
  dsimp only
  repeat' first
    | exact (Eq.refl _ : (_ : Nat) = _)
    | with_reducible exact Does.refl _ _
    | with_reducible refine does_wrMem ?_ ?_
    | with_reducible refine does_writeSector ?_ ?_
    | with_reducible assumption
    | with_reducible refine Does.foldl (fun _ _ _ => ?_) ?_
    | with_reducible refine Does.foldl_pair (fun _ _ _ => ?_) ?_
    | with_reducible refine Does.of_fst (by assumption) ?_
    | with_reducible refine Does.ite ?_ ?_
    | split

theorem does_pieceRead {m : Nat} {s t : State} {x1 : Nat} (hm : 18447307023943729226 ||| m = m) (h : Does m s t) :
    Does m s (State.pieceRead t x1).1 := by
  refine h.after (c := 18447307023943729226) ?_ hm
  unfold State.pieceRead
  dsimp only
  repeat' first
    | exact (Eq.refl _ : (_ : Nat) = _)
    | with_reducible exact Does.refl _ _
    | with_reducible refine does_readSector ?_ ?_
    | with_reducible assumption
    | with_reducible refine Does.foldl (fun _ _ _ => ?_) ?_
    | with_reducible refine Does.foldl_pair (fun _ _ _ => ?_) ?_

theorem does_setCursor {m : Nat} {s t : State} {x1 : Nat} (hm : 268435456 ||| m = m) (h : Does m s t) :
    Does m s (State.setCursor t x1) := by
  refine h.after (c := 268435456) ?_ hm
  unfold State.setCursor
  repeat' first
    | exact (Eq.refl _ : (_ : Nat) = _)
    | with_reducible exact Does.refl _ _
    | with_reducible refine does_modBulk ?_ ?_

theorem does_pieceBack {m : Nat} {s t : State} {x1 : Swap} {x2 : Nat} (hm : 18447307023943729226 ||| m = m) (h : Does m s t) :
    Does m s (State.pieceBack t x1 x2) := by
  refine h.after (c := 18447307023943729226) ?_ hm
  unfold State.pieceBack
  dsimp only
  repeat' first
    | exact (Eq.refl _ : (_ : Nat) = _)
    | with_reducible exact Does.refl _ _
    | with_reducible refine does_piecePut ?_ ?_
    | with_reducible refine does_pieceRead ?_ ?_
    | with_reducible refine does_setCursor ?_ ?_

theorem does_promote {m : Nat} {s t : State} {x1 : Nat} (hm : 268435456 ||| m = m) (h : Does m s t) :
    Does m s (State.promote t x1) := by
  refine h.after (c := 268435456) ?_ hm
  clear h
  induction x1 generalizing t with
  | zero =>
    unfold State.promote
    repeat' first
      | exact (Eq.refl _ : (_ : Nat) = _)
      | with_reducible exact Does.refl _ _
      | with_reducible refine does_modBulk ?_ ?_
      | with_reducible refine Does.ite ?_ ?_
      | split
  | succ n ih =>
    unfold State.promote
    try dsimp only
    repeat' first
      | with_reducible refine Does.after (c := 268435456) ?_ ih ?_
      | exact (Eq.refl _ : (_ : Nat) = _)
      | with_reducible exact Does.refl _ _
      | with_reducible refine does_modBulk ?_ ?_
      | with_reducible refine Does.ite ?_ ?_
      | split

theorem does_placementEpoch {m : Nat} {s t : State}  (hm : 268435729 ||| m = m) (h : Does m s t) :
    Does m s (State.placementEpoch t) := by
  refine h.after (c := 268435729) ?_ hm
  unfold State.placementEpoch
  dsimp only
  repeat' first
    | exact (Eq.refl _ : (_ : Nat) = _)
    | with_reducible exact Does.refl _ _
    | with_reducible refine does_demoteOver ?_ ?_
    | with_reducible refine does_modBulk ?_ ?_
    | with_reducible refine does_periodic ?_ ?_
    | with_reducible refine does_promote ?_ ?_
    | with_reducible refine Does.ite ?_ ?_

theorem does_swapBack {m : Nat} {s t : State} {x1 : Swap} {x2 : Nat} (hm : 18447307023943729226 ||| m = m) (h : Does m s t) :
    Does m s (State.swapBack t x1 x2) := by
  refine h.after (c := 18447307023943729226) ?_ hm
  unfold State.swapBack
  repeat' first
    | exact (Eq.refl _ : (_ : Nat) = _)
    | with_reducible exact Does.refl _ _
    | with_reducible refine does_pieceBack ?_ ?_
    | with_reducible assumption
    | with_reducible refine Does.foldl (fun _ _ _ => ?_) ?_
    | with_reducible refine Does.foldl_pair (fun _ _ _ => ?_) ?_

theorem does_swapPiece {m : Nat} {s t : State}  (hm : 18447307023943729226 ||| m = m) (h : Does m s t) :
    Does m s (State.swapPiece t) := by
  refine h.after (c := 18447307023943729226) ?_ hm
  unfold State.swapPiece
  dsimp only
  repeat' first
    | exact (Eq.refl _ : (_ : Nat) = _)
    | with_reducible exact Does.refl _ _
    | with_reducible refine does_bump ?_ ?_
    | with_reducible refine does_devPut ?_ ?_
    | with_reducible refine does_devRead ?_ ?_
    | with_reducible refine does_dropSwap ?_ ?_
    | with_reducible refine does_modPlaced ?_ ?_
    | with_reducible refine does_raise ?_ ?_
    | with_reducible refine does_setCursor ?_ ?_
    | with_reducible refine does_swapBack ?_ ?_
    | with_reducible refine Does.of_fst (by assumption) ?_
    | with_reducible refine Does.ite ?_ ?_
    | split

end Sys2Proof.Machine
end

