-- ==== Sys2Proof/Laws/FrameCadOps.lean ====
section
/-! SUPPORT. What the operations of CadOps change: the mask of the kinds of state each may touch. -/

namespace Sys2Proof.Machine

theorem does_maceAbort {m : Nat} {s t : State} {x1 : Nat} (hm : 4294967296 ||| m = m) (h : Does m s t) :
    Does m s (State.maceAbort t x1) := by
  refine h.after (c := 4294967296) ?_ hm
  unfold State.maceAbort
  dsimp only
  repeat' first
    | exact (Eq.refl _ : (_ : Nat) = _)
    | with_reducible exact Does.refl _ _
    | with_reducible refine does_set_screens ?_ ?_

theorem does_closeIdle {m : Nat} {s t : State} {x1 : Nat} (hm : 4294967808 ||| m = m) (h : Does m s t) :
    Does m s (State.closeIdle t x1) := by
  refine h.after (c := 4294967808) ?_ hm
  unfold State.closeIdle
  dsimp only
  repeat' first
    | exact (Eq.refl _ : (_ : Nat) = _)
    | with_reducible exact Does.refl _ _
    | with_reducible refine does_maceAbort ?_ ?_
    | with_reducible refine does_modSlot ?_ ?_
    | with_reducible assumption
    | with_reducible refine Does.foldl (fun _ _ _ => ?_) ?_
    | with_reducible refine Does.foldl_pair (fun _ _ _ => ?_) ?_
    | with_reducible refine Does.ite ?_ ?_

theorem does_slotEvent {m : Nat} {s t : State} {x1 : Nat} {x2 : Nat} (hm : 786434 ||| m = m) (h : Does m s t) :
    Does m s (State.slotEvent t x1 x2) := by
  refine h.after (c := 786434) ?_ hm
  unfold State.slotEvent
  repeat' first
    | exact (Eq.refl _ : (_ : Nat) = _)
    | with_reducible exact Does.refl _ _
    | with_reducible refine does_raiseSlot ?_ ?_

theorem does_entryReached {m : Nat} {s t : State} {x1 : Nat} {x2 : Nat} {x3 : Mark} {x4 : Word × Word} {x5 : Nat} (hm : 786946 ||| m = m) (h : Does m s t) :
    Does m s (State.entryReached t x1 x2 x3 x4 x5) := by
  refine h.after (c := 786946) ?_ hm
  unfold State.entryReached
  dsimp only
  repeat' first
    | exact (Eq.refl _ : (_ : Nat) = _)
    | with_reducible exact Does.refl _ _
    | with_reducible refine does_modSlot ?_ ?_
    | with_reducible refine does_slotEvent ?_ ?_
    | with_reducible refine Does.ite ?_ ?_

theorem does_passNops {m : Nat} {s t : State} {x1 : Nat} {x2 : Nat} (hm : 786946 ||| m = m) (h : Does m s t) :
    Does m s (State.passNops t x1 x2) := by
  refine h.after (c := 786946) ?_ hm
  clear h
  induction x2 generalizing t x1 with
  | zero =>
    unfold State.passNops
    repeat' first
      | exact (Eq.refl _ : (_ : Nat) = _)
      | with_reducible exact Does.refl _ _
      | with_reducible refine does_entryReached ?_ ?_
      | with_reducible refine does_modSlot ?_ ?_
      | with_reducible refine Does.ite ?_ ?_
      | split
  | succ n ih =>
    unfold State.passNops
    try dsimp only
    repeat' first
      | with_reducible refine Does.after (c := 786946) ?_ ih ?_
      | exact (Eq.refl _ : (_ : Nat) = _)
      | with_reducible exact Does.refl _ _
      | with_reducible refine does_entryReached ?_ ?_
      | with_reducible refine does_modSlot ?_ ?_
      | with_reducible refine Does.ite ?_ ?_
      | split

theorem does_haltSlot {m : Nat} {s t : State} {x1 : Nat} {x2 : Nat} (hm : 4295754242 ||| m = m) (h : Does m s t) :
    Does m s (State.haltSlot t x1 x2) := by
  refine h.after (c := 4295754242) ?_ hm
  unfold State.haltSlot
  repeat' first
    | exact (Eq.refl _ : (_ : Nat) = _)
    | with_reducible exact Does.refl _ _
    | with_reducible refine does_closeIdle ?_ ?_
    | with_reducible refine does_modSlot ?_ ?_
    | with_reducible refine does_passNops ?_ ?_
    | with_reducible refine does_slotEvent ?_ ?_
    | with_reducible refine Does.ite ?_ ?_

theorem does_placeMark {m : Nat} {s t : State} {x1 : Nat} {x2 : Mark} (hm : 4295754242 ||| m = m) (h : Does m s t) :
    Does m s (State.placeMark t x1 x2) := by
  refine h.after (c := 4295754242) ?_ hm
  unfold State.placeMark
  dsimp only
  repeat' first
    | exact (Eq.refl _ : (_ : Nat) = _)
    | with_reducible exact Does.refl _ _
    | with_reducible refine does_closeIdle ?_ ?_
    | with_reducible refine does_modSlot ?_ ?_
    | with_reducible refine does_slotEvent ?_ ?_
    | with_reducible refine Does.ite ?_ ?_

theorem does_acceptMark {m : Nat} {s t : State} {x1 : Nat} {x2 : Mark} (hm : 4295754242 ||| m = m) (h : Does m s t) :
    Does m s (State.acceptMark t x1 x2) := by
  refine h.after (c := 4295754242) ?_ hm
  unfold State.acceptMark
  repeat' first
    | exact (Eq.refl _ : (_ : Nat) = _)
    | with_reducible exact Does.refl _ _
    | with_reducible refine does_haltSlot ?_ ?_
    | with_reducible refine does_placeMark ?_ ?_
    | with_reducible refine does_slotEvent ?_ ?_
    | with_reducible refine Does.ite ?_ ?_
    | split

theorem does_ackFrame {m : Nat} {s t : State} {x1 : Nat} {x2 : CType} {x3 : Nat} {x4 : Nat} {x5 : Nat} (hm : 562949957615616 ||| m = m) (h : Does m s t) :
    Does m s (State.ackFrame t x1 x2 x3 x4 x5) := by
  refine h.after (c := 562949957615616) ?_ hm
  unfold State.ackFrame
  repeat' first
    | exact (Eq.refl _ : (_ : Nat) = _)
    | with_reducible exact Does.refl _ _
    | with_reducible refine does_sendFrame ?_ ?_

theorem does_ackReceive {m : Nat} {s t : State} {x1 : Nat} {x2 : List Byte} (hm : 9007199254740992 ||| m = m) (h : Does m s t) :
    Does m s (State.ackReceive t x1 x2) := by
  refine h.after (c := 9007199254740992) ?_ hm
  unfold State.ackReceive
  repeat' first
    | exact (Eq.refl _ : (_ : Nat) = _)
    | with_reducible exact Does.refl _ _
    | with_reducible refine does_modFabric ?_ ?_
    | with_reducible refine Does.ite ?_ ?_

theorem does_issueMark {m : Nat} {s t : State} {x1 : Nat} {x2 : Mark} (hm : 9570153508110850 ||| m = m) (h : Does m s t) :
    Does m s (State.issueMark t x1 x2) := by
  refine h.after (c := 9570153508110850) ?_ hm
  unfold State.issueMark
  dsimp only
  repeat' first
    | exact (Eq.refl _ : (_ : Nat) = _)
    | with_reducible exact Does.refl _ _
    | with_reducible refine does_acceptMark ?_ ?_
    | with_reducible refine does_floodAcked ?_ ?_
    | with_reducible refine does_modFabric ?_ ?_
    | with_reducible refine does_modSlot ?_ ?_
    | with_reducible refine Does.ite ?_ ?_

theorem does_elasticIssue {m : Nat} {s t : State} {x1 : Nat} (hm : 9570153508110850 ||| m = m) (h : Does m s t) :
    Does m s (State.elasticIssue t x1) := by
  refine h.after (c := 9570153508110850) ?_ hm
  unfold State.elasticIssue
  dsimp only
  repeat' first
    | exact (Eq.refl _ : (_ : Nat) = _)
    | with_reducible exact Does.refl _ _
    | with_reducible refine does_issueMark ?_ ?_
    | with_reducible refine Does.ite ?_ ?_

theorem does_takeReport {m : Nat} {s t : State} {x1 : Nat} {x2 : Nat} {x3 : Nat} {x4 : Bool} (hm : 9570153508110850 ||| m = m) (h : Does m s t) :
    Does m s (State.takeReport t x1 x2 x3 x4) := by
  refine h.after (c := 9570153508110850) ?_ hm
  unfold State.takeReport
  dsimp only
  repeat' first
    | exact (Eq.refl _ : (_ : Nat) = _)
    | with_reducible exact Does.refl _ _
    | with_reducible refine does_elasticIssue ?_ ?_
    | with_reducible refine does_modSlot ?_ ?_

theorem does_sendReport {m : Nat} {s t : State} {x1 : Nat} {x2 : Nat} {x3 : Nat} {x4 : Bool} (hm : 18456314227220808258 ||| m = m) (h : Does m s t) :
    Does m s (State.sendReport t x1 x2 x3 x4) := by
  refine h.after (c := 18456314227220808258) ?_ hm
  unfold State.sendReport
  dsimp only
  repeat' first
    | exact (Eq.refl _ : (_ : Nat) = _)
    | with_reducible exact Does.refl _ _
    | with_reducible refine does_floodAcked ?_ ?_
    | with_reducible refine does_routeLink ?_ ?_
    | with_reducible refine does_sendAcked ?_ ?_
    | with_reducible refine does_takeReport ?_ ?_
    | with_reducible refine Does.of_fst (by assumption) ?_
    | with_reducible refine Does.ite ?_ ?_
    | split

theorem does_slotCfgWrite {m : Nat} {s t : State} {x1 : Nat} {x2 : Word} (hm : 23068000245648196162 ||| m = m) (h : Does m s t) :
    Does m s (State.slotCfgWrite t x1 x2) := by
  refine h.after (c := 23068000245648196162) ?_ hm
  unfold State.slotCfgWrite
  dsimp only
  repeat' first
    | exact (Eq.refl _ : (_ : Nat) = _)
    | with_reducible exact Does.refl _ _
    | with_reducible refine does_closeIdle ?_ ?_
    | with_reducible refine does_ends ?_ ?_
    | with_reducible refine does_modSlot ?_ ?_
    | with_reducible refine does_passNops ?_ ?_
    | with_reducible refine does_sendReport ?_ ?_
    | with_reducible refine does_setReg ?_ ?_
    | with_reducible refine Does.ite ?_ ?_

theorem does_markSeen {m : Nat} {s t : State} {x1 : CType} {x2 : Nat} {x3 : Nat} {x4 : Nat} {x5 : List Byte} (hm : 9007199254740992 ||| m = m) (h : Does m s t) :
    Does m s (State.markSeen t x1 x2 x3 x4 x5) := by
  refine h.after (c := 9007199254740992) ?_ hm
  unfold State.markSeen
  repeat' first
    | exact (Eq.refl _ : (_ : Nat) = _)
    | with_reducible exact Does.refl _ _
    | with_reducible refine does_modFabric ?_ ?_

theorem does_doneReceive {m : Nat} {s t : State} {x1 : Nat} {x2 : Nat} {x3 : Bool} {x4 : List Byte} (hm : 18456314227220808258 ||| m = m) (h : Does m s t) :
    Does m s (State.doneReceive t x1 x2 x3 x4) := by
  refine h.after (c := 18456314227220808258) ?_ hm
  unfold State.doneReceive
  dsimp only
  repeat' first
    | exact (Eq.refl _ : (_ : Nat) = _)
    | with_reducible exact Does.refl _ _
    | with_reducible refine does_ackFrame ?_ ?_
    | with_reducible refine does_floodAcked ?_ ?_
    | with_reducible refine does_markSeen ?_ ?_
    | with_reducible refine does_modLink ?_ ?_
    | with_reducible refine does_routeLink ?_ ?_
    | with_reducible refine does_sendAcked ?_ ?_
    | with_reducible refine does_takeReport ?_ ?_
    | with_reducible assumption
    | with_reducible refine Does.foldl (fun _ _ _ => ?_) ?_
    | with_reducible refine Does.foldl_pair (fun _ _ _ => ?_) ?_
    | with_reducible refine Does.of_fst (by assumption) ?_
    | with_reducible refine Does.ite ?_ ?_
    | split

theorem does_frameResend {m : Nat} {s t : State}  (hm : 9570149212356865 ||| m = m) (h : Does m s t) :
    Does m s (State.frameResend t) := by
  refine h.after (c := 9570149212356865) ?_ hm
  unfold State.frameResend
  dsimp only
  repeat' first
    | exact (Eq.refl _ : (_ : Nat) = _)
    | with_reducible exact Does.refl _ _
    | with_reducible refine does_modFabric ?_ ?_
    | with_reducible refine does_sendAcked ?_ ?_
    | with_reducible refine does_sendFrame ?_ ?_
    | with_reducible refine does_waitClk ?_ ?_
    | with_reducible refine Does.ite ?_ ?_
    | split

theorem does_leaderHalt {m : Nat} {s t : State} {x1 : Nat} {x2 : Nat} (hm : 9570153508110850 ||| m = m) (h : Does m s t) :
    Does m s (State.leaderHalt t x1 x2) := by
  refine h.after (c := 9570153508110850) ?_ hm
  unfold State.leaderHalt
  repeat' first
    | exact (Eq.refl _ : (_ : Nat) = _)
    | with_reducible exact Does.refl _ _
    | with_reducible refine does_haltSlot ?_ ?_
    | with_reducible refine does_issueMark ?_ ?_

theorem does_markEffect {m : Nat} {s t : State} {x1 : Nat} (hm : 769 ||| m = m) (h : Does m s t) :
    Does m s (State.markEffect t x1) := by
  refine h.after (c := 769) ?_ hm
  unfold State.markEffect
  dsimp only
  repeat' first
    | exact (Eq.refl _ : (_ : Nat) = _)
    | with_reducible exact Does.refl _ _
    | with_reducible refine does_modSlot ?_ ?_
    | with_reducible refine does_waitCt ?_ ?_
    | split

theorem does_markReceive {m : Nat} {s t : State} {x1 : Nat} {x2 : List Byte} (hm : 9570153508110850 ||| m = m) (h : Does m s t) :
    Does m s (State.markReceive t x1 x2) := by
  refine h.after (c := 9570153508110850) ?_ hm
  unfold State.markReceive
  dsimp only
  repeat' first
    | exact (Eq.refl _ : (_ : Nat) = _)
    | with_reducible exact Does.refl _ _
    | with_reducible refine does_acceptMark ?_ ?_
    | with_reducible refine does_ackFrame ?_ ?_
    | with_reducible refine does_floodAcked ?_ ?_
    | with_reducible refine does_markSeen ?_ ?_
    | with_reducible refine does_modLink ?_ ?_
    | with_reducible assumption
    | with_reducible refine Does.foldl (fun _ _ _ => ?_) ?_
    | with_reducible refine Does.foldl_pair (fun _ _ _ => ?_) ?_
    | with_reducible refine Does.ite ?_ ?_

theorem does_markTimeout {m : Nat} {s t : State} {x1 : Nat} (hm : 787203 ||| m = m) (h : Does m s t) :
    Does m s (State.markTimeout t x1) := by
  refine h.after (c := 787203) ?_ hm
  unfold State.markTimeout
  dsimp only
  repeat' first
    | exact (Eq.refl _ : (_ : Nat) = _)
    | with_reducible exact Does.refl _ _
    | with_reducible refine does_modSlot ?_ ?_
    | with_reducible refine does_slotEvent ?_ ?_
    | with_reducible refine does_waitCt ?_ ?_
    | with_reducible refine Does.ite ?_ ?_
    | split

theorem does_stepLimit {m : Nat} {s t : State} {x1 : Nat} (hm : 787203 ||| m = m) (h : Does m s t) :
    Does m s (State.stepLimit t x1) := by
  refine h.after (c := 787203) ?_ hm
  unfold State.stepLimit
  dsimp only
  repeat' first
    | exact (Eq.refl _ : (_ : Nat) = _)
    | with_reducible exact Does.refl _ _
    | with_reducible refine does_modSlot ?_ ?_
    | with_reducible refine does_slotEvent ?_ ?_
    | with_reducible refine does_waitCt ?_ ?_
    | with_reducible refine Does.ite ?_ ?_

end Sys2Proof.Machine
end

