-- ==== Sys2Proof/Laws/FrameServing.lean ====
section
/-! SUPPORT. What the operations of Serving change: the mask of the kinds of state each may touch. -/

namespace Sys2Proof.Machine

theorem does_modPep {m : Nat} {s t : State} {x1 : Nat} {x2 : PepPart → PepPart} (hm : 288230376151711744 ||| m = m) (h : Does m s t) :
    Does m s (State.modPep t x1 x2) := by
  refine h.after (c := 288230376151711744) ?_ hm
  unfold State.modPep
  repeat' first
    | exact (Eq.refl _ : (_ : Nat) = _)
    | with_reducible exact Does.refl _ _
    | with_reducible refine does_set_peps ?_ ?_

theorem does_modSv {m : Nat} {s t : State} {x1 : Nat} {x2 : SvPart → SvPart} (hm : 144115188075855872 ||| m = m) (h : Does m s t) :
    Does m s (State.modSv t x1 x2) := by
  refine h.after (c := 144115188075855872) ?_ hm
  unfold State.modSv
  repeat' first
    | exact (Eq.refl _ : (_ : Nat) = _)
    | with_reducible exact Does.refl _ _
    | with_reducible refine does_set_svs ?_ ?_

theorem does_modReq {m : Nat} {s t : State} {x1 : Nat} {x2 : ReqEntry → ReqEntry} (hm : 18014398509481984 ||| m = m) (h : Does m s t) :
    Does m s (State.modReq t x1 x2) := by
  refine h.after (c := 18014398509481984) ?_ hm
  unfold State.modReq
  repeat' first
    | exact (Eq.refl _ : (_ : Nat) = _)
    | with_reducible exact Does.refl _ _
    | with_reducible refine does_set_reqs ?_ ?_

theorem does_pepEvent {m : Nat} {s t : State} {x1 : Nat} {x2 : Nat} {x3 : optParam Status Status.ok} (hm : 18446744073710338050 ||| m = m) (h : Does m s t) :
    Does m s (State.pepEvent t x1 x2 x3) := by
  refine h.after (c := 18446744073710338050) ?_ hm
  unfold State.pepEvent
  dsimp only
  repeat' first
    | exact (Eq.refl _ : (_ : Nat) = _)
    | with_reducible exact Does.refl _ _
    | with_reducible refine does_pushEvent ?_ ?_
    | with_reducible refine does_setFld ?_ ?_
    | with_reducible refine does_useFree ?_ ?_
    | with_reducible refine Does.ite ?_ ?_

theorem does_writeCounts {m : Nat} {s t : State} {x1 : Nat} (hm : 18447307023943729226 ||| m = m) (h : Does m s t) :
    Does m s (State.writeCounts t x1) := by
  refine h.after (c := 18447307023943729226) ?_ hm
  unfold State.writeCounts
  dsimp only
  repeat' first
    | exact (Eq.refl _ : (_ : Nat) = _)
    | with_reducible exact Does.refl _ _
    | with_reducible refine does_devPut ?_ ?_
    | with_reducible refine does_freeBytes ?_ ?_

theorem does_countToks {m : Nat} {s t : State} {x1 : Nat} {x2 : Nat} {x3 : List Nat} (hm : 18465321422453211210 ||| m = m) (h : Does m s t) :
    Does m s (State.countToks t x1 x2 x3) := by
  refine h.after (c := 18465321422453211210) ?_ hm
  unfold State.countToks
  dsimp only
  repeat' first
    | exact (Eq.refl _ : (_ : Nat) = _)
    | with_reducible exact Does.refl _ _
    | with_reducible refine does_devPut ?_ ?_
    | with_reducible refine does_modReq ?_ ?_
    | with_reducible refine does_pepEvent ?_ ?_
    | with_reducible refine does_writeCounts ?_ ?_
    | with_reducible assumption
    | with_reducible refine Does.foldl (fun _ _ _ => ?_) ?_
    | with_reducible refine Does.foldl_pair (fun _ _ _ => ?_) ?_
    | with_reducible refine Does.ite ?_ ?_

theorem does_svEvent {m : Nat} {s t : State} {x1 : Nat} {x2 : Nat} {x3 : optParam Status Status.ok} (hm : 18446744073713483842 ||| m = m) (h : Does m s t) :
    Does m s (State.svEvent t x1 x2 x3) := by
  refine h.after (c := 18446744073713483842) ?_ hm
  unfold State.svEvent
  repeat' first
    | exact (Eq.refl _ : (_ : Nat) = _)
    | with_reducible exact Does.refl _ _
    | with_reducible refine does_raise ?_ ?_

theorem does_dropPage {m : Nat} {s t : State} {x1 : Nat} {x2 : Nat} (hm : 144115188075855872 ||| m = m) (h : Does m s t) :
    Does m s (State.dropPage t x1 x2) := by
  refine h.after (c := 144115188075855872) ?_ hm
  unfold State.dropPage
  repeat' first
    | exact (Eq.refl _ : (_ : Nat) = _)
    | with_reducible exact Does.refl _ _
    | with_reducible refine does_modSv ?_ ?_

theorem does_dropPages {m : Nat} {s t : State} {x1 : Nat} {x2 : Nat} (hm : 162129586853773312 ||| m = m) (h : Does m s t) :
    Does m s (State.dropPages t x1 x2) := by
  refine h.after (c := 162129586853773312) ?_ hm
  unfold State.dropPages
  dsimp only
  repeat' first
    | exact (Eq.refl _ : (_ : Nat) = _)
    | with_reducible exact Does.refl _ _
    | with_reducible refine does_dropPage ?_ ?_
    | with_reducible refine does_modBulk ?_ ?_
    | with_reducible refine does_modReq ?_ ?_
    | with_reducible assumption
    | with_reducible refine Does.foldl (fun _ _ _ => ?_) ?_

theorem does_freeHusk {m : Nat} {s t : State} {x1 : Nat} {x2 : Nat} (hm : 18591422212019585098 ||| m = m) (h : Does m s t) :
    Does m s (State.freeHusk t x1 x2) := by
  refine h.after (c := 18591422212019585098) ?_ hm
  unfold State.freeHusk
  repeat' first
    | exact (Eq.refl _ : (_ : Nat) = _)
    | with_reducible exact Does.refl _ _
    | with_reducible refine does_devPut ?_ ?_
    | with_reducible refine does_modSv ?_ ?_

theorem does_dropHoldings {m : Nat} {s t : State} {x1 : Nat} {x2 : Nat} (hm : 18609436610529067082 ||| m = m) (h : Does m s t) :
    Does m s (State.dropHoldings t x1 x2) := by
  refine h.after (c := 18609436610529067082) ?_ hm
  unfold State.dropHoldings
  dsimp only
  repeat' first
    | exact (Eq.refl _ : (_ : Nat) = _)
    | with_reducible exact Does.refl _ _
    | with_reducible refine does_dropPages ?_ ?_
    | with_reducible refine does_freeHusk ?_ ?_
    | with_reducible refine does_modReq ?_ ?_
    | split

theorem does_closeReq {m : Nat} {s t : State} {x1 : Nat} {x2 : Nat} {x3 : ReqMode} {x4 : Status} (hm : 18609436610529067082 ||| m = m) (h : Does m s t) :
    Does m s (State.closeReq t x1 x2 x3 x4) := by
  refine h.after (c := 18609436610529067082) ?_ hm
  unfold State.closeReq
  repeat' first
    | exact (Eq.refl _ : (_ : Nat) = _)
    | with_reducible exact Does.refl _ _
    | with_reducible refine does_dropHoldings ?_ ?_
    | with_reducible refine does_modReq ?_ ?_

theorem does_putRecord {m : Nat} {s t : State} {x1 : Nat} {x2 : List Byte} (hm : 18590859261789339714 ||| m = m) (h : Does m s t) :
    Does m s (State.putRecord t x1 x2) := by
  refine h.after (c := 18590859261789339714) ?_ hm
  unfold State.putRecord
  dsimp only
  repeat' first
    | exact (Eq.refl _ : (_ : Nat) = _)
    | with_reducible exact Does.refl _ _
    | with_reducible refine does_modSv ?_ ?_
    | with_reducible refine does_raise ?_ ?_
    | with_reducible refine Does.ite ?_ ?_

theorem does_endRecord {m : Nat} {s t : State} {x1 : Nat} {x2 : Nat} {x3 : Status} (hm : 18590859261789339714 ||| m = m) (h : Does m s t) :
    Does m s (State.endRecord t x1 x2 x3) := by
  refine h.after (c := 18590859261789339714) ?_ hm
  unfold State.endRecord
  repeat' first
    | exact (Eq.refl _ : (_ : Nat) = _)
    | with_reducible exact Does.refl _ _
    | with_reducible refine does_putRecord ?_ ?_

theorem does_endReq {m : Nat} {s t : State} {x1 : Nat} {x2 : Nat} {x3 : ReqMode} {x4 : Status} (hm : 18609436610529067082 ||| m = m) (h : Does m s t) :
    Does m s (State.endReq t x1 x2 x3 x4) := by
  refine h.after (c := 18609436610529067082) ?_ hm
  unfold State.endReq
  repeat' first
    | exact (Eq.refl _ : (_ : Nat) = _)
    | with_reducible exact Does.refl _ _
    | with_reducible refine does_closeReq ?_ ?_
    | with_reducible refine does_endRecord ?_ ?_

theorem does_writePageEnt {m : Nat} {s t : State} {x1 : Nat} {x2 : Nat} {x3 : Nat} (hm : 18465321422453211210 ||| m = m) (h : Does m s t) :
    Does m s (State.writePageEnt t x1 x2 x3).1 := by
  refine h.after (c := 18465321422453211210) ?_ hm
  unfold State.writePageEnt
  dsimp only
  repeat' first
    | exact (Eq.refl _ : (_ : Nat) = _)
    | with_reducible exact Does.refl _ _
    | with_reducible refine does_devWrite ?_ ?_
    | with_reducible refine does_modReq ?_ ?_

theorem does_takeHit {m : Nat} {s t : State} {x1 : Nat} {x2 : Nat} {x3 : Nat} (hm : 18609436610529067082 ||| m = m) (h : Does m s t) :
    Does m s (State.takeHit t x1 x2 x3) := by
  refine h.after (c := 18609436610529067082) ?_ hm
  unfold State.takeHit
  dsimp only
  repeat' first
    | exact (Eq.refl _ : (_ : Nat) = _)
    | with_reducible exact Does.refl _ _
    | with_reducible refine does_endReq ?_ ?_
    | with_reducible refine does_modReq ?_ ?_
    | with_reducible refine does_modSv ?_ ?_
    | with_reducible refine does_writePageEnt ?_ ?_
    | with_reducible refine Does.ite ?_ ?_

theorem does_freeReqEntry {m : Nat} {s t : State} {x1 : Nat} {x2 : Nat} (hm : 18609436610529067082 ||| m = m) (h : Does m s t) :
    Does m s (State.freeReqEntry t x1 x2) := by
  refine h.after (c := 18609436610529067082) ?_ hm
  unfold State.freeReqEntry
  repeat' first
    | exact (Eq.refl _ : (_ : Nat) = _)
    | with_reducible exact Does.refl _ _
    | with_reducible refine does_dropHoldings ?_ ?_
    | with_reducible refine does_modReq ?_ ?_

theorem does_takePage {m : Nat} {s t : State} {x1 : Nat} {u : State × Nat} (hm : 144115188075855872 ||| m = m) (he : State.takePage t x1 = some u) (h : Does m s t) :
    Does m s u.1 := by
  unfold State.takePage at he
  rw [Option.map_eq_some_iff] at he
  obtain ⟨n, -, rfl⟩ := he
  exact Does.mk_fst (does_modSv hm h)

theorem does_pfxInsert {m : Nat} {s t : State} {x1 : Nat} {x2 : Nat} {x3 : Nat} {x4 : Nat} (hm : 144115188075855872 ||| m = m) (h : Does m s t) :
    Does m s (State.pfxInsert t x1 x2 x3 x4) := by
  refine h.after (c := 144115188075855872) ?_ hm
  unfold State.pfxInsert
  dsimp only
  repeat' first
    | exact (Eq.refl _ : (_ : Nat) = _)
    | with_reducible exact Does.refl _ _
    | with_reducible refine does_modSv ?_ ?_
    | with_reducible assumption
    | with_reducible refine Does.foldl (fun _ _ _ => ?_) ?_
    | with_reducible refine Does.foldl_pair (fun _ _ _ => ?_) ?_
    | with_reducible refine Does.ite ?_ ?_

theorem does_release {m : Nat} {s t : State} {x1 : Nat} {x2 : Nat} (hm : 18609436610529067082 ||| m = m) (h : Does m s t) :
    Does m s (State.release t x1 x2).1 := by
  refine h.after (c := 18609436610529067082) ?_ hm
  unfold State.release
  dsimp only
  repeat' first
    | exact (Eq.refl _ : (_ : Nat) = _)
    | with_reducible exact Does.refl _ _
    | with_reducible refine does_freeReqEntry ?_ ?_
    | with_reducible refine does_modReq ?_ ?_
    | with_reducible refine Does.ite_fst ?_ ?_

theorem does_cancel {m : Nat} {s t : State} {x1 : Nat} {x2 : Nat} (hm : 18609436610529067082 ||| m = m) (h : Does m s t) :
    Does m s (State.cancel t x1 x2).1 := by
  refine h.after (c := 18609436610529067082) ?_ hm
  unfold State.cancel
  dsimp only
  repeat' first
    | exact (Eq.refl _ : (_ : Nat) = _)
    | with_reducible exact Does.refl _ _
    | with_reducible refine does_endReq ?_ ?_
    | with_reducible refine does_modReq ?_ ?_
    | with_reducible refine does_release ?_ ?_
    | with_reducible refine Does.of_fst (by assumption) ?_
    | with_reducible refine Does.ite_fst ?_ ?_
    | split

theorem does_cmdDone {m : Nat} {s t : State} {x1 : Nat} {x2 : Option Nat} {x3 : Nat} {x4 : Nat} {x5 : Nat} {x6 : Status} (hm : 786434 ||| m = m) (h : Does m s t) :
    Does m s (State.cmdDone t x1 x2 x3 x4 x5 x6) := by
  refine h.after (c := 786434) ?_ hm
  unfold State.cmdDone
  repeat' first
    | exact (Eq.refl _ : (_ : Nat) = _)
    | with_reducible exact Does.refl _ _
    | with_reducible refine does_pushEvent ?_ ?_

theorem does_pfxCreate {m : Nat} {s t : State} {x1 : Nat} {x2 : Nat} {x3 : List Byte} (hm : 144115188075855872 ||| m = m) (h : Does m s t) :
    Does m s (State.pfxCreate t x1 x2 x3).1 := by
  refine h.after (c := 144115188075855872) ?_ hm
  unfold State.pfxCreate
  dsimp only
  repeat' first
    | exact (Eq.refl _ : (_ : Nat) = _)
    | with_reducible exact Does.refl _ _
    | with_reducible refine does_modSv ?_ ?_
    | with_reducible assumption
    | with_reducible refine Does.foldl (fun _ _ _ => ?_) ?_
    | with_reducible refine Does.foldl_pair (fun _ _ _ => ?_) ?_
    | with_reducible refine Does.ite_fst ?_ ?_

theorem does_pfxDrop {m : Nat} {s t : State} {x1 : Nat} {x2 : List Byte} (hm : 144115188075855872 ||| m = m) (h : Does m s t) :
    Does m s (State.pfxDrop t x1 x2).1 := by
  refine h.after (c := 144115188075855872) ?_ hm
  unfold State.pfxDrop
  dsimp only
  repeat' first
    | exact (Eq.refl _ : (_ : Nat) = _)
    | with_reducible exact Does.refl _ _
    | with_reducible refine does_dropPage ?_ ?_
    | with_reducible refine does_modSv ?_ ?_
    | with_reducible assumption
    | with_reducible refine Does.foldl (fun _ _ _ => ?_) ?_
    | with_reducible refine Does.foldl_pair (fun _ _ _ => ?_) ?_
    | with_reducible refine Does.ite_fst ?_ ?_

theorem does_initSamp {m : Nat} {s t : State} {x1 : Nat} {x2 : Bool} (hm : 18447307023943729226 ||| m = m) (h : Does m s t) :
    Does m s (State.initSamp t x1 x2) := by
  refine h.after (c := 18447307023943729226) ?_ hm
  unfold State.initSamp
  dsimp only
  repeat' first
    | exact (Eq.refl _ : (_ : Nat) = _)
    | with_reducible exact Does.refl _ _
    | with_reducible refine does_devPut ?_ ?_
    | with_reducible refine does_writeCounts ?_ ?_
    | with_reducible refine Does.ite ?_ ?_

theorem does_resumeHusk {m : Nat} {s t : State} {x1 : Nat} {x2 : Nat} {x3 : Nat} {x4 : Nat} (hm : 18609436610529067082 ||| m = m) (h : Does m s t) :
    Does m s (State.resumeHusk t x1 x2 x3 x4) := by
  refine h.after (c := 18609436610529067082) ?_ hm
  unfold State.resumeHusk
  dsimp only
  repeat' first
    | exact (Eq.refl _ : (_ : Nat) = _)
    | with_reducible exact Does.refl _ _
    | with_reducible refine does_devRead ?_ ?_
    | with_reducible refine does_endReq ?_ ?_
    | with_reducible refine does_modReq ?_ ?_
    | with_reducible refine Does.ite ?_ ?_

theorem does_resume {m : Nat} {s t : State} {x1 : Nat} {x2 : Nat} {x3 : List Byte} (hm : 18609436610529067082 ||| m = m) (h : Does m s t) :
    Does m s (State.resume t x1 x2 x3).1 := by
  refine h.after (c := 18609436610529067082) ?_ hm
  unfold State.resume
  dsimp only
  repeat' first
    | exact (Eq.refl _ : (_ : Nat) = _)
    | with_reducible exact Does.refl _ _
    | with_reducible refine does_countToks ?_ ?_
    | with_reducible refine does_initSamp ?_ ?_
    | with_reducible refine does_modReq ?_ ?_
    | with_reducible refine does_resumeHusk ?_ ?_
    | with_reducible refine Does.ite_fst ?_ ?_
    | split

theorem does_useHandle {m : Nat} {s t : State} {x1 : Nat} {x2 : Nat} (hm : 18609436610529067082 ||| m = m) (h : Does m s t) :
    Does m s (State.useHandle t x1 x2) := by
  refine h.after (c := 18609436610529067082) ?_ hm
  unfold State.useHandle
  dsimp only
  repeat' first
    | exact (Eq.refl _ : (_ : Nat) = _)
    | with_reducible exact Does.refl _ _
    | with_reducible refine does_devWrite ?_ ?_
    | with_reducible refine does_endReq ?_ ?_
    | with_reducible refine does_modReq ?_ ?_
    | with_reducible refine does_modSv ?_ ?_
    | with_reducible refine does_svEvent ?_ ?_
    | with_reducible assumption
    | with_reducible refine Does.foldl (fun _ _ _ => ?_) ?_
    | with_reducible refine Does.foldl_pair (fun _ _ _ => ?_) ?_
    | with_reducible refine Does.ite ?_ ?_

theorem does_submit {m : Nat} {s t : State} {x1 : Nat} {x2 : Nat} {x3 : List Byte} (hm : 18645465407548031050 ||| m = m) (h : Does m s t) :
    Does m s (State.submit t x1 x2 x3).1 := by
  refine h.after (c := 18645465407548031050) ?_ hm
  unfold State.submit
  dsimp only
  repeat' first
    | exact (Eq.refl _ : (_ : Nat) = _)
    | with_reducible exact Does.refl _ _
    | with_reducible refine does_initSamp ?_ ?_
    | with_reducible refine does_modReq ?_ ?_
    | with_reducible refine does_useHandle ?_ ?_
    | with_reducible refine Does.ite_fst ?_ ?_
    | split
    | with_reducible refine does_set_submitted ?_ ?_

theorem does_command {m : Nat} {s t : State} {x1 : Nat} {x2 : List Byte} (hm : 23329209020013346890 ||| m = m) (h : Does m s t) :
    Does m s (State.command t x1 x2) := by
  refine h.after (c := 23329209020013346890) ?_ hm
  unfold State.command
  dsimp only
  repeat' first
    | exact (Eq.refl _ : (_ : Nat) = _)
    | with_reducible exact Does.refl _ _
    | with_reducible refine does_cancel ?_ ?_
    | with_reducible refine does_cmdDone ?_ ?_
    | with_reducible refine does_ends ?_ ?_
    | with_reducible refine does_pfxCreate ?_ ?_
    | with_reducible refine does_pfxDrop ?_ ?_
    | with_reducible refine does_release ?_ ?_
    | with_reducible refine does_resume ?_ ?_
    | with_reducible refine does_submit ?_ ?_
    | with_reducible refine Does.of_fst (by assumption) ?_
    | with_reducible refine Does.ite ?_ ?_
    | split
    | with_reducible refine does_set_commands ?_ ?_

theorem does_commandOf {m : Nat} {s t : State} {x1 : Nat} {x2 : Nat} {x3 : List Byte} (hm : 23329209020013346890 ||| m = m) (h : Does m s t) :
    Does m s (State.commandOf t x1 x2 x3) := by
  refine h.after (c := 23329209020013346890) ?_ hm
  unfold State.commandOf
  repeat' first
    | exact (Eq.refl _ : (_ : Nat) = _)
    | with_reducible exact Does.refl _ _
    | with_reducible refine does_command ?_ ?_
    | with_reducible refine Does.ite ?_ ?_

theorem does_retainHusk {m : Nat} {s t : State} {x1 : Nat} {x2 : Status} (hm : 18014398509481984 ||| m = m) (h : Does m s t) :
    Does m s (State.retainHusk t x1 x2) := by
  refine h.after (c := 18014398509481984) ?_ hm
  unfold State.retainHusk
  repeat' first
    | exact (Eq.refl _ : (_ : Nat) = _)
    | with_reducible exact Does.refl _ _
    | with_reducible refine does_modReq ?_ ?_

theorem does_retainEvent {m : Nat} {s t : State} {x1 : Nat} {x2 : Nat} (hm : 18446744073713483842 ||| m = m) (h : Does m s t) :
    Does m s (State.retainEvent t x1 x2) := by
  refine h.after (c := 18446744073713483842) ?_ hm
  unfold State.retainEvent
  repeat' first
    | exact (Eq.refl _ : (_ : Nat) = _)
    | with_reducible exact Does.refl _ _
    | with_reducible refine does_raise ?_ ?_

theorem does_evictRetained {m : Nat} {s t : State} {x1 x2 : Nat} {u : State} (hm : 18609436610529067082 ||| m = m) (he : State.evictRetained t x1 x2 = some u) (h : Does m s t) :
    Does m s u := by
  unfold State.evictRetained at he
  rw [Option.map_eq_some_iff] at he
  obtain ⟨q, -, rfl⟩ := he
  refine h.after (c := 18609436610529067082) ?_ hm
  repeat' first
    | exact (Eq.refl _ : (_ : Nat) = _)
    | with_reducible exact Does.refl _ _
    | with_reducible refine does_retainEvent ?_ ?_
    | with_reducible refine does_modReq ?_ ?_
    | with_reducible refine does_freeReqEntry ?_ ?_

theorem does_takeBulk {m : Nat} {s t : State} {x1 : Nat} {u : State × Nat} (hm : 144115188075855872 ||| m = m) (he : State.takeBulk t x1 = some u) (h : Does m s t) :
    Does m s u.1 := by
  unfold State.takeBulk at he
  split at he
  · cases he
  · rw [Option.map_eq_some_iff] at he
    obtain ⟨n, -, rfl⟩ := he
    exact Does.mk_fst (does_modSv hm h)

theorem does_startSpill {m : Nat} {s t : State} {x1 x2 x3 : Nat} {x4 : Option Nat} {u : State} (hm : 144115188344291328 ||| m = m) (he : State.startSpill t x1 x2 x3 x4 = some u) (h : Does m s t) :
    Does m s u := by
  unfold State.startSpill at he
  rw [Option.map_eq_some_iff] at he
  obtain ⟨⟨a, n⟩, ha, rfl⟩ := he
  exact does_modBulk (lor_trans (Eq.refl _ : _ ||| 144115188344291328 = _) hm) (does_takeBulk (lor_trans (Eq.refl _ : _ ||| 144115188344291328 = _) hm) ha h)

theorem does_spillRoom {m : Nat} {s t : State} {x1 : Nat} {x2 : Nat} {x3 : Nat} {x4 : Nat} (hm : 18609436610529067082 ||| m = m) (h : Does m s t) :
    Does m s (State.spillRoom t x1 x2 x3 x4).1 := by
  refine h.after (c := 18609436610529067082) ?_ hm
  clear h
  induction x4 generalizing t x1 x2 x3 with
  | zero =>
    unfold State.spillRoom
    repeat' first
      | exact (Eq.refl _ : (_ : Nat) = _)
      | with_reducible exact Does.refl _ _
      | with_reducible refine Does.of_some (by assumption) (fun _ he => does_evictRetained ?_ he ?_)
      | with_reducible refine Does.of_some (by assumption) (fun _ he => does_startSpill ?_ he ?_)
      | with_reducible refine Does.of_fst (by assumption) ?_
      | split
  | succ n ih =>
    unfold State.spillRoom
    try dsimp only
    repeat' first
      | with_reducible refine Does.after (c := 18609436610529067082) ?_ ih ?_
      | exact (Eq.refl _ : (_ : Nat) = _)
      | with_reducible exact Does.refl _ _
      | with_reducible refine Does.of_some (by assumption) (fun _ he => does_evictRetained ?_ he ?_)
      | with_reducible refine Does.of_some (by assumption) (fun _ he => does_startSpill ?_ he ?_)
      | with_reducible refine Does.of_fst (by assumption) ?_
      | split

theorem does_warmSpill {m : Nat} {s t : State} {x1 : Nat} {x2 : Nat} {x3 : List Nat} (hm : 18609436610529067082 ||| m = m) (h : Does m s t) :
    Does m s (State.warmSpill t x1 x2 x3).1 := by
  refine h.after (c := 18609436610529067082) ?_ hm
  clear h
  induction x3 generalizing t x1 x2 with
  | nil =>
    unfold State.warmSpill
    repeat' first
      | exact (Eq.refl _ : (_ : Nat) = _)
      | with_reducible exact Does.refl _ _
      | with_reducible refine does_spillRoom ?_ ?_
      | with_reducible refine Does.of_fst (by assumption) ?_
      | with_reducible refine Does.ite_fst ?_ ?_
      | split
  | cons r rs ih =>
    unfold State.warmSpill
    try dsimp only
    repeat' first
      | with_reducible refine Does.after (c := 18609436610529067082) ?_ ih ?_
      | exact (Eq.refl _ : (_ : Nat) = _)
      | with_reducible exact Does.refl _ _
      | with_reducible refine does_spillRoom ?_ ?_
      | with_reducible refine Does.of_fst (by assumption) ?_
      | with_reducible refine Does.ite_fst ?_ ?_
      | split

theorem does_retainWarm {m : Nat} {s t : State} {x1 : Nat} {x2 : Nat} {x3 : Status} (hm : 18609436610529067082 ||| m = m) (h : Does m s t) :
    Does m s (State.retainWarm t x1 x2 x3) := by
  refine h.after (c := 18609436610529067082) ?_ hm
  unfold State.retainWarm
  dsimp only
  repeat' first
    | exact (Eq.refl _ : (_ : Nat) = _)
    | with_reducible exact Does.refl _ _
    | with_reducible refine does_freeReqEntry ?_ ?_
    | with_reducible refine does_modReq ?_ ?_
    | with_reducible refine does_retainEvent ?_ ?_
    | with_reducible refine does_warmSpill ?_ ?_
    | with_reducible refine Does.ite ?_ ?_

theorem does_copyDone {m : Nat} {s t : State}  (hm : 18447307023943729226 ||| m = m) (h : Does m s t) :
    Does m s (State.copyDone t) := by
  refine h.after (c := 18447307023943729226) ?_ hm
  unfold State.copyDone
  dsimp only
  repeat' first
    | exact (Eq.refl _ : (_ : Nat) = _)
    | with_reducible exact Does.refl _ _
    | with_reducible refine does_devPut ?_ ?_
    | with_reducible refine does_devRead ?_ ?_
    | with_reducible refine does_modBulk ?_ ?_
    | with_reducible refine Does.of_fst (by assumption) ?_
    | with_reducible refine Does.ite ?_ ?_
    | split

theorem does_recordWritten {m : Nat} {s t : State} {x1 : Nat} {x2 : List Byte} (hm : 18609436610529067082 ||| m = m) (h : Does m s t) :
    Does m s (State.recordWritten t x1 x2) := by
  refine h.after (c := 18609436610529067082) ?_ hm
  unfold State.recordWritten
  dsimp only
  repeat' first
    | exact (Eq.refl _ : (_ : Nat) = _)
    | with_reducible exact Does.refl _ _
    | with_reducible refine does_freeReqEntry ?_ ?_
    | with_reducible refine Does.ite ?_ ?_

theorem does_retentionSweep {m : Nat} {s t : State}  (hm : 18609436610529067355 ||| m = m) (h : Does m s t) :
    Does m s (State.retentionSweep t) := by
  refine h.after (c := 18609436610529067355) ?_ hm
  unfold State.retentionSweep
  dsimp only
  repeat' first
    | exact (Eq.refl _ : (_ : Nat) = _)
    | with_reducible exact Does.refl _ _
    | with_reducible refine does_freeReqEntry ?_ ?_
    | with_reducible refine does_modReq ?_ ?_
    | with_reducible refine does_periodic ?_ ?_
    | with_reducible assumption
    | with_reducible refine Does.foldl (fun _ _ _ => ?_) ?_
    | with_reducible refine Does.foldl_pair (fun _ _ _ => ?_) ?_
    | split

end Sys2Proof.Machine
end

