-- ==== Sys2Proof/Laws/FrameGate.lean ====
section
/-! SUPPORT. What the operations of Gate change: the mask of the kinds of state each may touch. -/

namespace Sys2Proof.Machine

theorem does_addSuspect {m : Nat} {s t : State} {x1 : Nat} {x2 : Nat} (hm : 1073741824 ||| m = m) (h : Does m s t) :
    Does m s (State.addSuspect t x1 x2) := by
  refine h.after (c := 1073741824) ?_ hm
  unfold State.addSuspect
  repeat' first
    | exact (Eq.refl _ : (_ : Nat) = _)
    | with_reducible exact Does.refl _ _
    | with_reducible refine does_modIg ?_ ?_

theorem does_beginQuiesce {m : Nat} {s t : State} {x1 : Nat} {x2 : Nat} (hm : 23068000245648204354 ||| m = m) (h : Does m s t) :
    Does m s (State.beginQuiesce t x1 x2) := by
  refine h.after (c := 23068000245648204354) ?_ hm
  unfold State.beginQuiesce
  dsimp only
  repeat' first
    | exact (Eq.refl _ : (_ : Nat) = _)
    | with_reducible exact Does.refl _ _
    | with_reducible refine does_ends ?_ ?_
    | with_reducible refine does_modPart ?_ ?_
    | with_reducible refine does_slotCfgWrite ?_ ?_
    | with_reducible refine Does.ite ?_ ?_

theorem does_igCount {m : Nat} {s t : State} {x1 : Nat} {x2 : Nat} (hm : 1073741824 ||| m = m) (h : Does m s t) :
    Does m s (State.igCount t x1 x2) := by
  refine h.after (c := 1073741824) ?_ hm
  unfold State.igCount
  repeat' first
    | exact (Eq.refl _ : (_ : Nat) = _)
    | with_reducible exact Does.refl _ _
    | with_reducible refine does_modIg ?_ ?_

theorem does_igEvent {m : Nat} {s t : State} {x1 : Nat} {x2 : Nat} {x3 : optParam (Option ErrRec) none} {x4 : optParam Status Status.ok} (hm : 18446744074787225666 ||| m = m) (h : Does m s t) :
    Does m s (State.igEvent t x1 x2 x3 x4) := by
  refine h.after (c := 18446744074787225666) ?_ hm
  unfold State.igEvent
  dsimp only
  repeat' first
    | exact (Eq.refl _ : (_ : Nat) = _)
    | with_reducible exact Does.refl _ _
    | with_reducible refine does_igCount ?_ ?_
    | with_reducible refine does_raise ?_ ?_

theorem does_suspectSlice {m : Nat} {s t : State} {x1 : Nat} {x2 : Nat} (hm : 141733920768 ||| m = m) (h : Does m s t) :
    Does m s (State.suspectSlice t x1 x2) := by
  refine h.after (c := 141733920768) ?_ hm
  unfold State.suspectSlice
  dsimp only
  repeat' first
    | exact (Eq.refl _ : (_ : Nat) = _)
    | with_reducible exact Does.refl _ _
    | with_reducible refine Does.ite ?_ ?_
    | split
    | with_reducible refine does_set_screens_suspect ?_ ?_

theorem does_dropBatch {m : Nat} {s t : State} {x1 : Nat} (hm : 18609436610529067082 ||| m = m) (h : Does m s t) :
    Does m s (State.dropBatch t x1) := by
  refine h.after (c := 18609436610529067082) ?_ hm
  unfold State.dropBatch
  dsimp only
  repeat' first
    | exact (Eq.refl _ : (_ : Nat) = _)
    | with_reducible exact Does.refl _ _
    | with_reducible refine does_endReq ?_ ?_
    | with_reducible refine does_modSv ?_ ?_
    | with_reducible assumption
    | with_reducible refine Does.foldl (fun _ _ _ => ?_) ?_
    | with_reducible refine Does.foldl_pair (fun _ _ _ => ?_) ?_
    | with_reducible refine Does.ite ?_ ?_
    | split

theorem does_withholdRun {m : Nat} {s t : State} {x1 : Nat} (hm : 23230129833584108106 ||| m = m) (h : Does m s t) :
    Does m s (State.withholdRun t x1) := by
  refine h.after (c := 23230129833584108106) ?_ hm
  unfold State.withholdRun
  dsimp only
  repeat' first
    | exact (Eq.refl _ : (_ : Nat) = _)
    | with_reducible exact Does.refl _ _
    | with_reducible refine does_beginQuiesce ?_ ?_
    | with_reducible refine does_bump ?_ ?_
    | with_reducible refine does_dropBatch ?_ ?_
    | with_reducible refine does_igEvent ?_ ?_
    | with_reducible refine does_modIg ?_ ?_
    | with_reducible refine does_modPart ?_ ?_
    | with_reducible refine Does.ite ?_ ?_

theorem does_twinCheck {m : Nat} {s t : State} {x1 : Nat} (hm : 18446744074787225666 ||| m = m) (h : Does m s t) :
    Does m s (State.twinCheck t x1) := by
  refine h.after (c := 18446744074787225666) ?_ hm
  unfold State.twinCheck
  dsimp only
  repeat' first
    | exact (Eq.refl _ : (_ : Nat) = _)
    | with_reducible exact Does.refl _ _
    | with_reducible refine does_addSuspect ?_ ?_
    | with_reducible refine does_igEvent ?_ ?_
    | with_reducible assumption
    | with_reducible refine Does.foldl (fun _ _ _ => ?_) ?_
    | with_reducible refine Does.foldl_pair (fun _ _ _ => ?_) ?_
    | with_reducible refine Does.ite ?_ ?_

end Sys2Proof.Machine
end

