-- ==== Sys2Proof/Laws/FrameLane.lean ====
section
/-! SUPPORT. What the operations of Lane change: the mask of the kinds of state each may touch. -/

namespace Sys2Proof.Machine

theorem does_applyChain {m : Nat} {s t : State} {x1 : Nat} {x2 : Nat} {x3 : Nat} {x4 : Bool} {x5 : List (List Nat)} (hm : 18446752869806506050 ||| m = m) (h : Does m s t) :
    Does m s (State.applyChain t x1 x2 x3 x4 x5).1 := by
  refine h.after (c := 18446752869806506050) ?_ hm
  unfold State.applyChain
  dsimp only
  repeat' first
    | exact (Eq.refl _ : (_ : Nat) = _)
    | with_reducible exact Does.refl _ _
    | with_reducible refine does_vecCount ?_ ?_
    | with_reducible assumption
    | with_reducible refine Does.foldl (fun _ _ _ => ?_) ?_
    | with_reducible refine Does.foldl_pair (fun _ _ _ => ?_) ?_
    | with_reducible refine Does.ite_fst ?_ ?_
    | split
    | with_reducible refine does_set_chainCur ?_ ?_

theorem does_commitChain {m : Nat} {s t : State} {x1 : Nat} {x2 : Nat} {x3 : List Word} (hm : 8796093022210 ||| m = m) (h : Does m s t) :
    Does m s (State.commitChain t x1 x2 x3) := by
  refine h.after (c := 8796093022210) ?_ hm
  unfold State.commitChain
  dsimp only
  repeat' first
    | exact (Eq.refl _ : (_ : Nat) = _)
    | with_reducible exact Does.refl _ _
    | with_reducible refine does_setReg ?_ ?_
    | with_reducible assumption
    | with_reducible refine Does.foldl (fun _ _ _ => ?_) ?_
    | with_reducible refine Does.foldl_pair (fun _ _ _ => ?_) ?_
    | with_reducible refine does_set_chainCur ?_ ?_

end Sys2Proof.Machine
end

