-- ==== Sys2Proof/Laws/FrameMatrix.lean ====
section
/-! SUPPORT. What the operations of Matrix change: the mask of the kinds of state each may touch. -/

namespace Sys2Proof.Machine

theorem does_closeAll {m : Nat} {s t : State} {x1 : Nat} {x2 : Nat} (hm : 274877906944 ||| m = m) (h : Does m s t) :
    Does m s (State.closeAll t x1 x2) := by
  refine h.after (c := 274877906944) ?_ hm
  unfold State.closeAll
  dsimp only
  repeat' first
    | exact (Eq.refl _ : (_ : Nat) = _)
    | with_reducible exact Does.refl _ _
    | with_reducible refine Does.ite ?_ ?_
    | split
    | with_reducible refine does_set_tiles ?_ ?_

theorem does_arrFail {m : Nat} {s t : State} {x1 : Nat} {x2 : Nat} {x3 : QEntry} {x4 : Status} (hm : 18446744073713483842 ||| m = m) (h : Does m s t) :
    Does m s (State.arrFail t x1 x2 x3 x4).1 := by
  refine h.after (c := 18446744073713483842) ?_ hm
  unfold State.arrFail
  repeat' first
    | exact (Eq.refl _ : (_ : Nat) = _)
    | with_reducible exact Does.refl _ _
    | with_reducible refine does_engEvent ?_ ?_

theorem does_startConfig {m : Nat} {s t : State} {x1 : Nat} {x2 : Nat} {x3 : QEntry} {x4 : SInstr} (hm : 18446744623469297730 ||| m = m) (h : Does m s t) :
    Does m s (State.startConfig t x1 x2 x3 x4).1 := by
  refine h.after (c := 18446744623469297730) ?_ hm
  unfold State.startConfig
  dsimp only
  repeat' first
    | exact (Eq.refl _ : (_ : Nat) = _)
    | with_reducible exact Does.refl _ _
    | with_reducible refine does_arrFail ?_ ?_
    | with_reducible refine Does.ite_fst ?_ ?_
    | split
    | with_reducible refine does_set_arrFmt ?_ ?_

theorem does_putTileElems {m : Nat} {s t : State} {x1 : Nat} {x2 : Nat} {x3 : List Nat} (hm : 8 ||| m = m) (h : Does m s t) :
    Does m s (State.putTileElems t x1 x2 x3) := by
  refine h.after (c := 8) ?_ hm
  unfold State.putTileElems
  repeat' first
    | exact (Eq.refl _ : (_ : Nat) = _)
    | with_reducible exact Does.refl _ _
    | with_reducible refine does_wrMem ?_ ?_

theorem does_dattnStore {m : Nat} {s t : State} {x1 : Nat} {x2 : Nat} {x3 : DattnOp} {x4 : List AttRow} (hm : 274877906952 ||| m = m) (h : Does m s t) :
    Does m s (State.dattnStore t x1 x2 x3 x4) := by
  refine h.after (c := 274877906952) ?_ hm
  unfold State.dattnStore
  dsimp only
  repeat' first
    | exact (Eq.refl _ : (_ : Nat) = _)
    | with_reducible exact Does.refl _ _
    | with_reducible refine does_clrMem ?_ ?_
    | with_reducible refine does_modTile ?_ ?_
    | with_reducible refine does_putTileElems ?_ ?_
    | with_reducible assumption
    | with_reducible refine Does.foldl (fun _ _ _ => ?_) ?_
    | with_reducible refine Does.foldl_pair (fun _ _ _ => ?_) ?_
    | with_reducible refine Does.ite ?_ ?_

theorem does_startDattn {m : Nat} {s t : State} {x1 : Nat} {x2 : Nat} {x3 : QEntry} {x4 : SInstr} (hm : 18446744348591390794 ||| m = m) (h : Does m s t) :
    Does m s (State.startDattn t x1 x2 x3 x4).1 := by
  refine h.after (c := 18446744348591390794) ?_ hm
  unfold State.startDattn
  dsimp only
  repeat' first
    | exact (Eq.refl _ : (_ : Nat) = _)
    | with_reducible exact Does.refl _ _
    | with_reducible refine does_arrFail ?_ ?_
    | with_reducible refine does_bump ?_ ?_
    | with_reducible refine does_dattnStore ?_ ?_
    | with_reducible refine does_engEvent ?_ ?_
    | with_reducible assumption
    | with_reducible refine Does.foldl (fun _ _ _ => ?_) ?_
    | with_reducible refine Does.foldl_pair (fun _ _ _ => ?_) ?_
    | with_reducible refine Does.of_fst (by assumption) ?_
    | with_reducible refine Does.ite_fst ?_ ?_
    | split

theorem does_startLoad {m : Nat} {s t : State} {x1 : Nat} {x2 : Nat} {x3 : QEntry} {x4 : SInstr} (hm : 18446744348591390794 ||| m = m) (h : Does m s t) :
    Does m s (State.startLoad t x1 x2 x3 x4).1 := by
  refine h.after (c := 18446744348591390794) ?_ hm
  unfold State.startLoad
  dsimp only
  repeat' first
    | exact (Eq.refl _ : (_ : Nat) = _)
    | with_reducible exact Does.refl _ _
    | with_reducible refine does_arrFail ?_ ?_
    | with_reducible refine does_clrMem ?_ ?_
    | with_reducible refine does_modTile ?_ ?_
    | with_reducible refine does_putTileElems ?_ ?_
    | with_reducible refine Does.of_fst (by assumption) ?_
    | with_reducible refine Does.ite_fst ?_ ?_
    | split

theorem does_promoteTile {m : Nat} {s t : State} {x1 : Nat} {x2 : Nat} {x3 : Nat} {x4 : Bool} {x5 : List Nat} {x6 : List (Option FV)} {x7 : Bool} (hm : 274877906954 ||| m = m) (h : Does m s t) :
    Does m s (State.promoteTile t x1 x2 x3 x4 x5 x6 x7) := by
  refine h.after (c := 274877906954) ?_ hm
  unfold State.promoteTile
  dsimp only
  repeat' first
    | exact (Eq.refl _ : (_ : Nat) = _)
    | with_reducible exact Does.refl _ _
    | with_reducible refine does_bump ?_ ?_
    | with_reducible refine does_modTile ?_ ?_
    | with_reducible refine does_putTileElems ?_ ?_
    | with_reducible refine Does.ite ?_ ?_
    | split

theorem does_mmaElem {m : Nat} {s t : State} {x1 : Nat} {x2 : ArrFmt} {x3 : MmaOp} {x4 : EA} {x5 : MmaRun} (hm : 18446744348591489098 ||| m = m) (h : Does m s t) :
    Does m s (State.mmaElem t x1 x2 x3 x4 x5).1 := by
  refine h.after (c := 18446744348591489098) ?_ hm
  unfold State.mmaElem
  dsimp only
  repeat' first
    | exact (Eq.refl _ : (_ : Nat) = _)
    | with_reducible exact Does.refl _ _
    | with_reducible refine does_modTile ?_ ?_
    | with_reducible refine does_promoteTile ?_ ?_
    | with_reducible refine does_releaseTiles ?_ ?_
    | with_reducible refine Does.ite_fst ?_ ?_
    | split

theorem does_mmaRun {m : Nat} {s t : State} {x1 : Nat} {x2 : Nat} {x3 : QEntry} {x4 : MmaOp} {x5 : MmaRun} (hm : 18446744348591489098 ||| m = m) (h : Does m s t) :
    Does m s (State.mmaRun t x1 x2 x3 x4 x5).1 := by
  refine h.after (c := 18446744348591489098) ?_ hm
  unfold State.mmaRun
  dsimp only
  repeat' first
    | exact (Eq.refl _ : (_ : Nat) = _)
    | with_reducible exact Does.refl _ _
    | with_reducible refine does_arrFail ?_ ?_
    | with_reducible refine does_bump ?_ ?_
    | with_reducible refine does_mmaElem ?_ ?_
    | with_reducible assumption
    | with_reducible refine Does.foldl (fun _ _ _ => ?_) ?_
    | with_reducible refine Does.foldl_pair (fun _ _ _ => ?_) ?_
    | with_reducible refine Does.of_fst (by assumption) ?_
    | with_reducible refine Does.ite_fst ?_ ?_
    | split

theorem does_startMma {m : Nat} {s t : State} {x1 : Nat} {x2 : Nat} {x3 : QEntry} {x4 : SInstr} (hm : 18446744348591489098 ||| m = m) (h : Does m s t) :
    Does m s (State.startMma t x1 x2 x3 x4).1 := by
  refine h.after (c := 18446744348591489098) ?_ hm
  unfold State.startMma
  dsimp only
  repeat' first
    | exact (Eq.refl _ : (_ : Nat) = _)
    | with_reducible exact Does.refl _ _
    | with_reducible refine does_arrFail ?_ ?_
    | with_reducible refine does_clrMem ?_ ?_
    | with_reducible refine does_mmaRun ?_ ?_
    | with_reducible refine does_modTile ?_ ?_
    | with_reducible refine Does.ite_fst ?_ ?_
    | split

theorem does_resumeMma {m : Nat} {s t : State} {x1 : Nat} {x2 : Nat} {x3 : QEntry} {x4 : SInstr} (hm : 18446744348591489098 ||| m = m) (h : Does m s t) :
    Does m s (State.resumeMma t x1 x2 x3 x4).1 := by
  refine h.after (c := 18446744348591489098) ?_ hm
  unfold State.resumeMma
  repeat' first
    | exact (Eq.refl _ : (_ : Nat) = _)
    | with_reducible exact Does.refl _ _
    | with_reducible refine does_bump ?_ ?_
    | with_reducible refine does_mmaRun ?_ ?_
    | with_reducible refine Does.of_fst (by assumption) ?_
    | with_reducible refine Does.ite_fst ?_ ?_
    | split

end Sys2Proof.Machine
end

