-- ==== Sys2Proof/Laws/FramePepper.lean ====
section
/-! SUPPORT. What the operations of Pepper change: the mask of the kinds of state each may touch. -/

namespace Sys2Proof.Machine

theorem does_pepRow {m : Nat} {s t : State} {x1 : Nat} {x2 : Nat} {x3 : Nat} {x4 : Nat} {x5 : List Byte} {x6 : List Nat} (hm : 18734974449862049794 ||| m = m) (h : Does m s t) :
    Does m s (State.pepRow t x1 x2 x3 x4 x5 x6) := by
  refine h.after (c := 18734974449862049794) ?_ hm
  unfold State.pepRow
  dsimp only
  repeat' first
    | exact (Eq.refl _ : (_ : Nat) = _)
    | with_reducible exact Does.refl _ _
    | with_reducible refine does_modPep ?_ ?_
    | with_reducible refine does_pepEvent ?_ ?_
    | with_reducible assumption
    | with_reducible refine Does.foldl (fun _ _ _ => ?_) ?_
    | with_reducible refine Does.foldl_pair (fun _ _ _ => ?_) ?_
    | with_reducible refine Does.ite ?_ ?_

theorem does_pepDrain {m : Nat} {s t : State} {x1 : Nat} {x2 : Nat} {x3 : Nat} {x4 : List (List Nat)} (hm : 19311435202165473282 ||| m = m) (h : Does m s t) :
    Does m s (State.pepDrain t x1 x2 x3 x4) := by
  refine h.after (c := 19311435202165473282) ?_ hm
  unfold State.pepDrain
  dsimp only
  repeat' first
    | exact (Eq.refl _ : (_ : Nat) = _)
    | with_reducible exact Does.refl _ _
    | with_reducible refine does_pepRow ?_ ?_
    | with_reducible assumption
    | with_reducible refine Does.foldl (fun _ _ _ => ?_) ?_
    | with_reducible refine Does.foldl_pair (fun _ _ _ => ?_) ?_
    | split
    | with_reducible refine does_set_pepCur ?_ ?_

theorem does_pepStart {m : Nat} {s t : State} {x1 : Nat} (hm : 864691128455135232 ||| m = m) (h : Does m s t) :
    Does m s (State.pepStart t x1) := by
  refine h.after (c := 864691128455135232) ?_ hm
  unfold State.pepStart
  dsimp only
  repeat' first
    | exact (Eq.refl _ : (_ : Nat) = _)
    | with_reducible exact Does.refl _ _
    | with_reducible refine does_modPep ?_ ?_
    | with_reducible refine does_set_pepCur ?_ ?_

theorem does_pepperMerge {m : Nat} {s t : State} {x1 : Nat} (hm : 18734974725813702666 ||| m = m) (h : Does m s t) :
    Does m s (State.pepperMerge t x1) := by
  refine h.after (c := 18734974725813702666) ?_ hm
  unfold State.pepperMerge
  dsimp only
  repeat' first
    | exact (Eq.refl _ : (_ : Nat) = _)
    | with_reducible exact Does.refl _ _
    | with_reducible refine does_bump ?_ ?_
    | with_reducible refine does_digestAdd ?_ ?_
    | with_reducible refine does_eaPutBoth ?_ ?_
    | with_reducible refine does_modPep ?_ ?_
    | with_reducible refine does_pepEvent ?_ ?_
    | with_reducible refine does_signal ?_ ?_
    | with_reducible assumption
    | with_reducible refine Does.foldl (fun _ _ _ => ?_) ?_
    | with_reducible refine Does.foldl_pair (fun _ _ _ => ?_) ?_
    | with_reducible refine Does.ite ?_ ?_
    | split

end Sys2Proof.Machine
end

