-- ==== Sys2Proof/Laws/FrameQuant.lean ====
section
/-! SUPPORT. What the operations of Quant change: the mask of the kinds of state each may touch. -/

namespace Sys2Proof.Machine

theorem does_modQslot {m : Nat} {s t : State} {x1 : Nat} {x2 : Nat} {x3 : QSlot → QSlot} (hm : 35184372088832 ||| m = m) (h : Does m s t) :
    Does m s (State.modQslot t x1 x2 x3) := by
  refine h.after (c := 35184372088832) ?_ hm
  unfold State.modQslot
  repeat' first
    | exact (Eq.refl _ : (_ : Nat) = _)
    | with_reducible exact Does.refl _ _
    | with_reducible refine does_set_qslots ?_ ?_

theorem does_slotAdvance {m : Nat} {s t : State} {x1 : Nat} {x2 : Nat} {x3 : Option Nat} (hm : 35459250028552 ||| m = m) (h : Does m s t) :
    Does m s (State.slotAdvance t x1 x2 x3) := by
  refine h.after (c := 35459250028552) ?_ hm
  unfold State.slotAdvance
  dsimp only
  repeat' first
    | exact (Eq.refl _ : (_ : Nat) = _)
    | with_reducible exact Does.refl _ _
    | with_reducible refine does_eaWrite ?_ ?_
    | with_reducible refine does_modQslot ?_ ?_
    | with_reducible refine Does.ite ?_ ?_
    | split

theorem does_advanceSlots {m : Nat} {s t : State} {x1 : Nat} (hm : 35459250028552 ||| m = m) (h : Does m s t) :
    Does m s (State.advanceSlots t x1) := by
  refine h.after (c := 35459250028552) ?_ hm
  unfold State.advanceSlots
  repeat' first
    | exact (Eq.refl _ : (_ : Nat) = _)
    | with_reducible exact Does.refl _ _
    | with_reducible refine does_slotAdvance ?_ ?_
    | with_reducible assumption
    | with_reducible refine Does.foldl (fun _ _ _ => ?_) ?_
    | with_reducible refine Does.foldl_pair (fun _ _ _ => ?_) ?_
    | with_reducible refine Does.ite ?_ ?_

theorem does_qntEvent {m : Nat} {s t : State} {x1 : Nat} {x2 : Nat} {x3 : Status} (hm : 18446744073713483842 ||| m = m) (h : Does m s t) :
    Does m s (State.qntEvent t x1 x2 x3) := by
  refine h.after (c := 18446744073713483842) ?_ hm
  unfold State.qntEvent
  repeat' first
    | exact (Eq.refl _ : (_ : Nat) = _)
    | with_reducible exact Does.refl _ _
    | with_reducible refine does_engEvent ?_ ?_

theorem does_qntCount {m : Nat} {s t : State} {x1 : Nat} {x2 : Nat} {x3 : Nat} {x4 : Nat} {x5 : Nat} (hm : 2 ||| m = m) (h : Does m s t) :
    Does m s (State.qntCount t x1 x2 x3 x4 x5) := by
  refine h.after (c := 2) ?_ hm
  unfold State.qntCount
  repeat' first
    | exact (Eq.refl _ : (_ : Nat) = _)
    | with_reducible exact Does.refl _ _
    | with_reducible refine does_bump ?_ ?_

theorem does_foldSlot {m : Nat} {s t : State} {x1 : Nat} {x2 : Prof} {x3 : Nat} (hm : 35184372088832 ||| m = m) (h : Does m s t) :
    Does m s (State.foldSlot t x1 x2 x3) := by
  refine h.after (c := 35184372088832) ?_ hm
  unfold State.foldSlot
  repeat' first
    | exact (Eq.refl _ : (_ : Nat) = _)
    | with_reducible exact Does.refl _ _
    | with_reducible refine does_modQslot ?_ ?_
    | with_reducible refine Does.ite ?_ ?_

theorem does_histCheck {m : Nat} {s t : State} {x1 : Nat} {x2 : Prof} (hm : 18446779258085572674 ||| m = m) (h : Does m s t) :
    Does m s (State.histCheck t x1 x2) := by
  refine h.after (c := 18446779258085572674) ?_ hm
  unfold State.histCheck
  repeat' first
    | exact (Eq.refl _ : (_ : Nat) = _)
    | with_reducible exact Does.refl _ _
    | with_reducible refine does_modQslot ?_ ?_
    | with_reducible refine does_qntEvent ?_ ?_
    | with_reducible refine Does.ite ?_ ?_

theorem does_qntFail {m : Nat} {s t : State} {x1 : Nat} {x2 : QEntry} {x3 : Nat} {x4 : Status} (hm : 18446746272736739394 ||| m = m) (h : Does m s t) :
    Does m s (State.qntFail t x1 x2 x3 x4).1 := by
  refine h.after (c := 18446746272736739394) ?_ hm
  unfold State.qntFail
  repeat' first
    | exact (Eq.refl _ : (_ : Nat) = _)
    | with_reducible exact Does.refl _ _
    | with_reducible refine does_noteFail ?_ ?_
    | with_reducible refine does_qntEvent ?_ ?_

theorem does_qntDone {m : Nat} {s t : State} {x1 : QEntry} (hm : 0 ||| m = m) (h : Does m s t) :
    Does m s (qntDone t x1).1 := by
  refine h.after (c := 0) ?_ hm
  unfold qntDone
  repeat' first
    | exact (Eq.refl _ : (_ : Nat) = _)
    | with_reducible exact Does.refl _ _

theorem does_startQhad {m : Nat} {s t : State} {x1 : Nat} {x2 : QEntry} {x3 : SInstr} (hm : 18446746547614679114 ||| m = m) (h : Does m s t) :
    Does m s (State.startQhad t x1 x2 x3).1 := by
  refine h.after (c := 18446746547614679114) ?_ hm
  unfold State.startQhad
  dsimp only
  repeat' first
    | exact (Eq.refl _ : (_ : Nat) = _)
    | with_reducible exact Does.refl _ _
    | with_reducible refine does_eaWrite ?_ ?_
    | with_reducible refine does_freeBytes ?_ ?_
    | with_reducible refine does_qntCount ?_ ?_
    | with_reducible refine does_qntFail ?_ ?_
    | with_reducible refine does_qntDone ?_ ?_
    | with_reducible refine Does.of_fst (by assumption) ?_
    | with_reducible refine Does.ite_fst ?_ ?_
    | split

theorem does_commitProf {m : Nat} {s t : State} {x1 : Nat} {x2 : Nat} {x3 : List Word} (hm : 17592186044418 ||| m = m) (h : Does m s t) :
    Does m s (State.commitProf t x1 x2 x3) := by
  refine h.after (c := 17592186044418) ?_ hm
  unfold State.commitProf
  dsimp only
  repeat' first
    | exact (Eq.refl _ : (_ : Nat) = _)
    | with_reducible exact Does.refl _ _
    | with_reducible refine does_setReg ?_ ?_
    | with_reducible assumption
    | with_reducible refine Does.foldl (fun _ _ _ => ?_) ?_
    | with_reducible refine Does.foldl_pair (fun _ _ _ => ?_) ?_
    | with_reducible refine does_set_profCur ?_ ?_

theorem does_startQload {m : Nat} {s t : State} {x1 : Nat} {x2 : QEntry} {x3 : SInstr} (hm : 18446763864922783810 ||| m = m) (h : Does m s t) :
    Does m s (State.startQload t x1 x2 x3).1 := by
  refine h.after (c := 18446763864922783810) ?_ hm
  unfold State.startQload
  dsimp only
  repeat' first
    | exact (Eq.refl _ : (_ : Nat) = _)
    | with_reducible exact Does.refl _ _
    | with_reducible refine does_commitProf ?_ ?_
    | with_reducible refine does_qntFail ?_ ?_
    | with_reducible refine does_qntDone ?_ ?_
    | with_reducible assumption
    | with_reducible refine Does.foldl (fun _ _ _ => ?_) ?_
    | with_reducible refine Does.foldl_pair (fun _ _ _ => ?_) ?_
    | with_reducible refine Does.of_fst (by assumption) ?_
    | with_reducible refine Does.ite_fst ?_ ?_
    | split

theorem does_qrunPanel {m : Nat} {s t : State} {x1 : Nat} {x2 : Prof} {x3 : Nat} {x4 : Nat} {x5 : List (List RVal)} (hm : 18446744073713483842 ||| m = m) (h : Does m s t) :
    Does m s (State.qrunPanel t x1 x2 x3 x4 x5).1 := by
  refine h.after (c := 18446744073713483842) ?_ hm
  unfold State.qrunPanel
  dsimp only
  repeat' first
    | exact (Eq.refl _ : (_ : Nat) = _)
    | with_reducible exact Does.refl _ _
    | with_reducible refine does_qntCount ?_ ?_
    | with_reducible refine does_qntEvent ?_ ?_
    | with_reducible refine Does.ite_fst ?_ ?_
    | split

theorem does_startQrun {m : Nat} {s t : State} {x1 : Nat} {x2 : QEntry} {x3 : SInstr} (hm : 18446746547614679114 ||| m = m) (h : Does m s t) :
    Does m s (State.startQrun t x1 x2 x3).1 := by
  refine h.after (c := 18446746547614679114) ?_ hm
  unfold State.startQrun
  dsimp only
  repeat' first
    | exact (Eq.refl _ : (_ : Nat) = _)
    | with_reducible exact Does.refl _ _
    | with_reducible refine does_eaWrite ?_ ?_
    | with_reducible refine does_qntCount ?_ ?_
    | with_reducible refine does_qntFail ?_ ?_
    | with_reducible refine does_qrunPanel ?_ ?_
    | with_reducible refine does_qntDone ?_ ?_
    | with_reducible assumption
    | with_reducible refine Does.foldl (fun _ _ _ => ?_) ?_
    | with_reducible refine Does.foldl_pair (fun _ _ _ => ?_) ?_
    | with_reducible refine Does.of_fst (by assumption) ?_
    | with_reducible refine Does.ite_fst ?_ ?_
    | split

theorem does_startQstep {m : Nat} {s t : State} {x1 : Nat} {x2 : QEntry} {x3 : SInstr} (hm : 18446781731986767946 ||| m = m) (h : Does m s t) :
    Does m s (State.startQstep t x1 x2 x3).1 := by
  refine h.after (c := 18446781731986767946) ?_ hm
  unfold State.startQstep
  dsimp only
  repeat' first
    | exact (Eq.refl _ : (_ : Nat) = _)
    | with_reducible exact Does.refl _ _
    | with_reducible refine does_qntFail ?_ ?_
    | with_reducible refine does_slotAdvance ?_ ?_
    | with_reducible refine does_qntDone ?_ ?_
    | with_reducible refine Does.of_fst (by assumption) ?_
    | with_reducible refine Does.ite_fst ?_ ?_
    | split

theorem does_profWrite {m : Nat} {s t : State} {x1 : Nat} {x2 : Nat} {x3 : Word} (hm : 4611703610613432322 ||| m = m) (h : Does m s t) :
    Does m s (State.profWrite t x1 x2 x3) := by
  refine h.after (c := 4611703610613432322) ?_ hm
  unfold State.profWrite
  dsimp only
  repeat' first
    | exact (Eq.refl _ : (_ : Nat) = _)
    | with_reducible exact Does.refl _ _
    | with_reducible refine does_commitProf ?_ ?_
    | with_reducible refine does_ends ?_ ?_
    | with_reducible refine Does.ite ?_ ?_

theorem does_slotCfgWr {m : Nat} {s t : State} {x1 : Nat} {x2 : Word} (hm : 4611721202799476738 ||| m = m) (h : Does m s t) :
    Does m s (State.slotCfgWr t x1 x2) := by
  refine h.after (c := 4611721202799476738) ?_ hm
  unfold State.slotCfgWr
  dsimp only
  repeat' first
    | exact (Eq.refl _ : (_ : Nat) = _)
    | with_reducible exact Does.refl _ _
    | with_reducible refine does_ends ?_ ?_
    | with_reducible refine does_modQslot ?_ ?_
    | with_reducible refine does_setReg ?_ ?_
    | with_reducible refine Does.ite ?_ ?_

theorem does_slotHistWr {m : Nat} {s t : State} {x1 : Nat} {x2 : Word} (hm : 4611721202799476736 ||| m = m) (h : Does m s t) :
    Does m s (State.slotHistWr t x1 x2) := by
  refine h.after (c := 4611721202799476736) ?_ hm
  unfold State.slotHistWr
  dsimp only
  repeat' first
    | exact (Eq.refl _ : (_ : Nat) = _)
    | with_reducible exact Does.refl _ _
    | with_reducible refine does_ends ?_ ?_
    | with_reducible refine does_modQslot ?_ ?_
    | with_reducible refine Does.ite ?_ ?_

theorem does_slotOutWr {m : Nat} {s t : State} {x1 : Nat} {x2 : Word} (hm : 4611686018427387906 ||| m = m) (h : Does m s t) :
    Does m s (State.slotOutWr t x1 x2) := by
  refine h.after (c := 4611686018427387906) ?_ hm
  unfold State.slotOutWr
  dsimp only
  repeat' first
    | exact (Eq.refl _ : (_ : Nat) = _)
    | with_reducible exact Does.refl _ _
    | with_reducible refine does_ends ?_ ?_
    | with_reducible refine does_setReg ?_ ?_
    | with_reducible refine Does.ite ?_ ?_

end Sys2Proof.Machine
end

