-- ==== Sys2Proof/Laws/FrameDrain.lean ====
section
/-! SUPPORT. What the operations of Drain change: the mask of the kinds of state each may touch. -/

namespace Sys2Proof.Machine

theorem does_drainFail {m : Nat} {s t : State} {x1 : Nat} {x2 : Nat} {x3 : QEntry} {x4 : DrainOp} (hm : 18446744073713483842 ||| m = m) (h : Does m s t) :
    Does m s (State.drainFail t x1 x2 x3 x4).1 := by
  refine h.after (c := 18446744073713483842) ?_ hm
  unfold State.drainFail
  dsimp only
  repeat' first
    | exact (Eq.refl _ : (_ : Nat) = _)
    | with_reducible exact Does.refl _ _
    | with_reducible refine does_arrFail ?_ ?_
    | with_reducible refine does_engEvent ?_ ?_
    | with_reducible refine does_pepEvent ?_ ?_
    | with_reducible refine does_qntEvent ?_ ?_
    | with_reducible refine Does.of_fst (by assumption) ?_
    | with_reducible refine Does.ite_fst ?_ ?_
    | split

theorem does_drainEvents {m : Nat} {s t : State} {x1 : Nat} {x2 : Nat} {x3 : Nat} {x4 : Bool} {x5 : QMode} (hm : 18446744073713483842 ||| m = m) (h : Does m s t) :
    Does m s (State.drainEvents t x1 x2 x3 x4 x5) := by
  refine h.after (c := 18446744073713483842) ?_ hm
  unfold State.drainEvents
  dsimp only
  repeat' first
    | exact (Eq.refl _ : (_ : Nat) = _)
    | with_reducible exact Does.refl _ _
    | with_reducible refine does_qntCount ?_ ?_
    | with_reducible refine does_qntEvent ?_ ?_
    | with_reducible refine Does.ite ?_ ?_
    | split

theorem does_drainStore {m : Nat} {s t : State} {x1 : Nat} {x2 : Nat} {x3 : QEntry} {x4 : DrainOp} {x5 : Nat} {x6 : Nat} {x7 : List Byte} {x8 : List Byte} {x9 : List (List Nat)} (hm : 19311435478117154826 ||| m = m) (h : Does m s t) :
    Does m s (State.drainStore t x1 x2 x3 x4 x5 x6 x7 x8 x9) := by
  refine h.after (c := 19311435478117154826) ?_ hm
  unfold State.drainStore
  dsimp only
  repeat' first
    | exact (Eq.refl _ : (_ : Nat) = _)
    | with_reducible exact Does.refl _ _
    | with_reducible refine does_digestOut ?_ ?_
    | with_reducible refine does_eaWrite ?_ ?_
    | with_reducible refine does_pepDrain ?_ ?_
    | with_reducible refine Does.ite ?_ ?_
    | split

theorem does_drainFinish {m : Nat} {s t : State} {x1 : Nat} {x2 : Nat} {x3 : QEntry} {x4 : DrainOp} {x5 : DrainRun} {x6 : QMode} (hm : 19311435478120300618 ||| m = m) (h : Does m s t) :
    Does m s (State.drainFinish t x1 x2 x3 x4 x5 x6).1 := by
  refine h.after (c := 19311435478120300618) ?_ hm
  unfold State.drainFinish
  dsimp only
  repeat' first
    | exact (Eq.refl _ : (_ : Nat) = _)
    | with_reducible exact Does.refl _ _
    | with_reducible refine does_arrFail ?_ ?_
    | with_reducible refine does_drainEvents ?_ ?_
    | with_reducible refine does_drainStore ?_ ?_
    | with_reducible refine Does.of_fst (by assumption) ?_
    | with_reducible refine Does.ite_fst ?_ ?_

theorem does_plausFail {m : Nat} {s t : State} {x1 : Nat} {x2 : Nat} {x3 : Nat} {x4 : DrainOp} {x5 : Nat} {x6 : Nat} {x7 : Nat} {x8 : Nat} (hm : 18446744216521146434 ||| m = m) (h : Does m s t) :
    Does m s (State.plausFail t x1 x2 x3 x4 x5 x6 x7 x8) := by
  refine h.after (c := 18446744216521146434) ?_ hm
  unfold State.plausFail
  dsimp only
  repeat' first
    | exact (Eq.refl _ : (_ : Nat) = _)
    | with_reducible exact Does.refl _ _
    | with_reducible refine does_addSuspect ?_ ?_
    | with_reducible refine does_igEvent ?_ ?_
    | with_reducible refine does_suspectSlice ?_ ?_

theorem does_rangeCheck {m : Nat} {s t : State} {x1 : Nat} {x2 : Nat} {x3 : Nat} {x4 : DrainOp} {x5 : Nat} {x6 : Bool} {x7 : List (List Nat)} (hm : 18446744216521146434 ||| m = m) (h : Does m s t) :
    Does m s (State.rangeCheck t x1 x2 x3 x4 x5 x6 x7) := by
  refine h.after (c := 18446744216521146434) ?_ hm
  unfold State.rangeCheck
  dsimp only
  repeat' first
    | exact (Eq.refl _ : (_ : Nat) = _)
    | with_reducible exact Does.refl _ _
    | with_reducible refine does_plausFail ?_ ?_
    | with_reducible refine Does.ite ?_ ?_

theorem does_csUnchecked {m : Nat} {s t : State} {x1 : Nat} (hm : 2147483650 ||| m = m) (h : Does m s t) :
    Does m s (State.csUnchecked t x1) := by
  refine h.after (c := 2147483650) ?_ hm
  unfold State.csUnchecked
  repeat' first
    | exact (Eq.refl _ : (_ : Nat) = _)
    | with_reducible exact Does.refl _ _
    | with_reducible refine does_bump ?_ ?_
    | with_reducible refine does_set_csSets ?_ ?_

theorem does_csTile {m : Nat} {s t : State} {x1 : Nat} {x2 : Nat} {x3 : Nat} {x4 : DrainOp} {x5 : Nat} {x6 : TileStat} {x7 : List (List Nat)} (hm : 18446744218668630082 ||| m = m) (h : Does m s t) :
    Does m s (State.csTile t x1 x2 x3 x4 x5 x6 x7) := by
  refine h.after (c := 18446744218668630082) ?_ hm
  unfold State.csTile
  dsimp only
  repeat' first
    | exact (Eq.refl _ : (_ : Nat) = _)
    | with_reducible exact Does.refl _ _
    | with_reducible refine does_csUnchecked ?_ ?_
    | with_reducible refine does_plausFail ?_ ?_
    | with_reducible assumption
    | with_reducible refine Does.foldl (fun _ _ _ => ?_) ?_
    | with_reducible refine Does.foldl_pair (fun _ _ _ => ?_) ?_
    | with_reducible refine Does.ite ?_ ?_
    | split
    | with_reducible refine does_set_csSets ?_ ?_

theorem does_tileChecks {m : Nat} {s t : State} {x1 : Nat} {x2 : Nat} {x3 : Nat} {x4 : DrainOp} {x5 : Nat} {x6 : TileStat} {x7 : List (List Nat)} (hm : 18446744218668630082 ||| m = m) (h : Does m s t) :
    Does m s (State.tileChecks t x1 x2 x3 x4 x5 x6 x7) := by
  refine h.after (c := 18446744218668630082) ?_ hm
  unfold State.tileChecks
  dsimp only
  repeat' first
    | exact (Eq.refl _ : (_ : Nat) = _)
    | with_reducible exact Does.refl _ _
    | with_reducible refine does_bump ?_ ?_
    | with_reducible refine does_csTile ?_ ?_
    | with_reducible refine does_plausFail ?_ ?_
    | with_reducible refine Does.ite ?_ ?_

theorem does_drainGo {m : Nat} {s t : State} {x1 : Nat} {x2 : Nat} {x3 : QEntry} {x4 : DrainOp} (hm : 19311497194652860490 ||| m = m) (h : Does m s t) :
    Does m s (State.drainGo t x1 x2 x3 x4).1 := by
  refine h.after (c := 19311497194652860490) ?_ hm
  unfold State.drainGo
  dsimp only
  repeat' first
    | exact (Eq.refl _ : (_ : Nat) = _)
    | with_reducible exact Does.refl _ _
    | with_reducible refine does_applyChain ?_ ?_
    | with_reducible refine does_drainFail ?_ ?_
    | with_reducible refine does_drainFinish ?_ ?_
    | with_reducible refine does_eaWrite ?_ ?_
    | with_reducible refine does_foldSlot ?_ ?_
    | with_reducible refine does_histCheck ?_ ?_
    | with_reducible refine does_qntCount ?_ ?_
    | with_reducible refine does_qntEvent ?_ ?_
    | with_reducible refine does_rangeCheck ?_ ?_
    | with_reducible refine does_tileChecks ?_ ?_
    | with_reducible refine Does.of_fst (by assumption) ?_
    | with_reducible refine Does.ite_fst ?_ ?_
    | split
    | with_reducible refine does_set_profCur ?_ ?_

theorem does_setEntry {m : Nat} {s t : State} {x1 : Nat} {x2 : Nat} {x3 : Nat} {x4 : QEntry} (hm : 32768 ||| m = m) (h : Does m s t) :
    Does m s (State.setEntry t x1 x2 x3 x4) := by
  refine h.after (c := 32768) ?_ hm
  unfold State.setEntry
  repeat' first
    | exact (Eq.refl _ : (_ : Nat) = _)
    | with_reducible exact Does.refl _ _
    | with_reducible refine does_modSeq ?_ ?_

theorem does_drainBuffered {m : Nat} {s t : State} {x1 : Nat} {x2 : Nat} (hm : 19311497194652860490 ||| m = m) (h : Does m s t) :
    Does m s (State.drainBuffered t x1 x2) := by
  refine h.after (c := 19311497194652860490) ?_ hm
  unfold State.drainBuffered
  dsimp only
  repeat' first
    | exact (Eq.refl _ : (_ : Nat) = _)
    | with_reducible exact Does.refl _ _
    | with_reducible refine does_drainGo ?_ ?_
    | with_reducible refine does_setEntry ?_ ?_
    | with_reducible assumption
    | with_reducible refine Does.foldl (fun _ _ _ => ?_) ?_
    | with_reducible refine Does.foldl_pair (fun _ _ _ => ?_) ?_
    | with_reducible refine Does.of_fst (by assumption) ?_
    | with_reducible refine Does.ite ?_ ?_
    | split

theorem does_trapResolve {m : Nat} {s t : State} {x1 : Nat} {x2 : Nat} {x3 : TrapAct} (hm : 19311497194652860490 ||| m = m) (h : Does m s t) :
    Does m s (State.trapResolve t x1 x2 x3) := by
  refine h.after (c := 19311497194652860490) ?_ hm
  unfold State.trapResolve
  dsimp only
  repeat' first
    | exact (Eq.refl _ : (_ : Nat) = _)
    | with_reducible exact Does.refl _ _
    | with_reducible refine does_drainBuffered ?_ ?_
    | with_reducible refine does_drainFinish ?_ ?_
    | with_reducible refine does_setEntry ?_ ?_
    | with_reducible refine Does.of_fst (by assumption) ?_
    | split

theorem does_startDrain {m : Nat} {s t : State} {x1 : Nat} {x2 : Nat} {x3 : List QEntry} {x4 : QEntry} {x5 : SInstr} (hm : 19311497194652860490 ||| m = m) (h : Does m s t) :
    Does m s (State.startDrain t x1 x2 x3 x4 x5).1 := by
  refine h.after (c := 19311497194652860490) ?_ hm
  unfold State.startDrain
  dsimp only
  repeat' first
    | exact (Eq.refl _ : (_ : Nat) = _)
    | with_reducible exact Does.refl _ _
    | with_reducible refine does_arrFail ?_ ?_
    | with_reducible refine does_drainFail ?_ ?_
    | with_reducible refine does_drainGo ?_ ?_
    | with_reducible refine does_modTile ?_ ?_
    | with_reducible refine Does.of_fst (by assumption) ?_
    | with_reducible refine Does.ite_fst ?_ ?_

theorem does_csCloseAll {m : Nat} {s t : State} {x1 : List Nat} (hm : 2147483650 ||| m = m) (h : Does m s t) :
    Does m s (State.csCloseAll t x1) := by
  refine h.after (c := 2147483650) ?_ hm
  unfold State.csCloseAll
  repeat' first
    | exact (Eq.refl _ : (_ : Nat) = _)
    | with_reducible exact Does.refl _ _
    | with_reducible refine does_csUnchecked ?_ ?_
    | with_reducible assumption
    | with_reducible refine Does.foldl (fun _ _ _ => ?_) ?_

theorem does_trapWrite {m : Nat} {s t : State} {x1 : Nat} {x2 : Word} (hm : 23923183213080248394 ||| m = m) (h : Does m s t) :
    Does m s (State.trapWrite t x1 x2) := by
  refine h.after (c := 23923183213080248394) ?_ hm
  unfold State.trapWrite
  dsimp only
  repeat' first
    | exact (Eq.refl _ : (_ : Nat) = _)
    | with_reducible exact Does.refl _ _
    | with_reducible refine does_ends ?_ ?_
    | with_reducible refine does_setReg ?_ ?_
    | with_reducible refine does_trapResolve ?_ ?_
    | with_reducible refine Does.ite ?_ ?_
    | split

end Sys2Proof.Machine
end

