-- ==== Sys2Proof/Laws/FrameVector.lean ====
section
/-! SUPPORT. What the operations of Vector change: the mask of the kinds of state each may touch. -/

namespace Sys2Proof.Machine

theorem does_blendWrite {m : Nat} {s t : State} {x1 : Nat} {x2 : Nat} {x3 : Word} (hm : 4611694814520410114 ||| m = m) (h : Does m s t) :
    Does m s (State.blendWrite t x1 x2 x3) := by
  refine h.after (c := 4611694814520410114) ?_ hm
  unfold State.blendWrite
  dsimp only
  repeat' first
    | exact (Eq.refl _ : (_ : Nat) = _)
    | with_reducible exact Does.refl _ _
    | with_reducible refine does_commitChain ?_ ?_
    | with_reducible refine does_ends ?_ ?_
    | with_reducible refine Does.ite ?_ ?_

theorem does_vecDone {m : Nat} {s t : State} {x1 : Nat} {x2 : QEntry} {x3 : Nat} {x4 : LaneAcc} {x5 : optParam (Option (Nat × Nat)) none} (hm : 18446744073713483842 ||| m = m) (h : Does m s t) :
    Does m s (State.vecDone t x1 x2 x3 x4 x5).1 := by
  refine h.after (c := 18446744073713483842) ?_ hm
  unfold State.vecDone
  repeat' first
    | exact (Eq.refl _ : (_ : Nat) = _)
    | with_reducible exact Does.refl _ _
    | with_reducible refine does_bump ?_ ?_
    | with_reducible refine does_vecCount ?_ ?_

theorem does_vecFail {m : Nat} {s t : State} {x1 : Nat} {x2 : QEntry} {x3 : Nat} {x4 : Status} (hm : 18446746272736739394 ||| m = m) (h : Does m s t) :
    Does m s (State.vecFail t x1 x2 x3 x4).1 := by
  refine h.after (c := 18446746272736739394) ?_ hm
  unfold State.vecFail
  repeat' first
    | exact (Eq.refl _ : (_ : Nat) = _)
    | with_reducible exact Does.refl _ _
    | with_reducible refine does_engEvent ?_ ?_
    | with_reducible refine does_noteFail ?_ ?_

theorem does_startBset {m : Nat} {s t : State} {x1 : Nat} {x2 : QEntry} {x3 : SInstr} (hm : 18446755068829761602 ||| m = m) (h : Does m s t) :
    Does m s (State.startBset t x1 x2 x3).1 := by
  refine h.after (c := 18446755068829761602) ?_ hm
  unfold State.startBset
  dsimp only
  repeat' first
    | exact (Eq.refl _ : (_ : Nat) = _)
    | with_reducible exact Does.refl _ _
    | with_reducible refine does_commitChain ?_ ?_
    | with_reducible refine does_vecDone ?_ ?_
    | with_reducible refine does_vecFail ?_ ?_
    | with_reducible refine Does.of_fst (by assumption) ?_
    | with_reducible refine Does.ite_fst ?_ ?_
    | split

theorem does_cloveStore {m : Nat} {s t : State} {x1 : State} {x2 : Nat} {x3 : CloveDesc} {x4 : Nat} {x5 : Nat → Nat → Nat × Bool} (hm : 18446745448099119112 ||| m = m) (h : Does m s t) :
    Does m s (State.cloveStore x1 t x2 x3 x4 x5) := by
  refine h.after (c := 18446745448099119112) ?_ hm
  unfold State.cloveStore
  dsimp only
  repeat' first
    | exact (Eq.refl _ : (_ : Nat) = _)
    | with_reducible exact Does.refl _ _
    | with_reducible refine does_eaWrite ?_ ?_
    | with_reducible refine does_freeBytes ?_ ?_
    | with_reducible refine does_wrMem ?_ ?_
    | with_reducible assumption
    | with_reducible refine Does.foldl (fun _ _ _ => ?_) ?_
    | with_reducible refine Does.foldl_pair (fun _ _ _ => ?_) ?_
    | with_reducible refine Does.of_fst (by assumption) ?_
    | with_reducible refine Does.ite ?_ ?_
    | split
    | with_reducible refine does_set_tileTag ?_ ?_

theorem does_runClove {m : Nat} {s t : State} {x1 : Nat} {x2 : QEntry} {x3 : CloveDesc} {x4 : Nat} {x5 : Nat} (hm : 18446745448103051338 ||| m = m) (h : Does m s t) :
    Does m s (State.runClove t x1 x2 x3 x4 x5).1 := by
  refine h.after (c := 18446745448103051338) ?_ hm
  unfold State.runClove
  dsimp only
  repeat' first
    | exact (Eq.refl _ : (_ : Nat) = _)
    | with_reducible exact Does.refl _ _
    | with_reducible refine does_cloveStore ?_ ?_
    | with_reducible refine does_vecDone ?_ ?_

theorem does_startClove {m : Nat} {s t : State} {x1 : Nat} {x2 : QEntry} {x3 : SInstr} (hm : 18446747647126306890 ||| m = m) (h : Does m s t) :
    Does m s (State.startClove t x1 x2 x3).1 := by
  refine h.after (c := 18446747647126306890) ?_ hm
  unfold State.startClove
  dsimp only
  repeat' first
    | exact (Eq.refl _ : (_ : Nat) = _)
    | with_reducible exact Does.refl _ _
    | with_reducible refine does_runClove ?_ ?_
    | with_reducible refine does_vecDone ?_ ?_
    | with_reducible refine does_vecFail ?_ ?_
    | with_reducible refine Does.of_fst (by assumption) ?_
    | with_reducible refine Does.ite_fst ?_ ?_
    | split

theorem does_withDesc {m : Nat} {s t : State} {x1 : Nat} {x2 : QEntry} {x3 x4 : Nat} {x5 : VecDesc → Bool} {x6 : VecDesc → State × QEntry} (hm : 18446746272736739394 ||| m = m)
    (hg : ∀ d, Does m s (x6 d).1) (h : Does m s t) :
    Does m s (State.withDesc t x1 x2 x3 x4 x5 x6).1 := by
  unfold State.withDesc
  dsimp only
  repeat' first
    | exact lor_trans (Eq.refl _ : _ ||| 18446746272736739394 = _) hm
    | with_reducible exact h
    | with_reducible refine does_vecFail ?_ ?_
    | with_reducible refine does_vecDone ?_ ?_
    | with_reducible refine does_useFree ?_ ?_
    | apply hg
    | split

theorem does_startCombine {m : Nat} {s t : State} {x1 : Nat} {x2 : QEntry} {x3 : SInstr} (hm : 18446746547614679114 ||| m = m) (h : Does m s t) :
    Does m s (State.startCombine t x1 x2 x3).1 := by
  refine h.after (c := 18446746547614679114) ?_ hm
  unfold State.startCombine
  dsimp only
  repeat' first
    | exact (Eq.refl _ : (_ : Nat) = _)
    | with_reducible exact Does.refl _ _
    | with_reducible refine does_eaWrite ?_ ?_
    | with_reducible refine does_modTile ?_ ?_
    | with_reducible refine does_vecDone ?_ ?_
    | with_reducible refine does_vecFail ?_ ?_
    | with_reducible refine does_withDesc ?_ (fun _ => ?_) ?_
    | with_reducible assumption
    | with_reducible assumption
    | with_reducible refine Does.foldl (fun _ _ _ => ?_) ?_
    | with_reducible refine Does.foldl_pair (fun _ _ _ => ?_) ?_
    | with_reducible refine Does.of_fst (by assumption) ?_
    | with_reducible refine Does.ite_fst ?_ ?_
    | split

theorem does_putBlockRow {m : Nat} {s t : State} {x1 : Nat} {x2 : EA} {x3 : Nat} {x4 : Nat} {x5 : Nat} {x6 : Nat} {x7 : List (List Byte)} (hm : 274877939720 ||| m = m) (h : Does m s t) :
    Does m s (State.putBlockRow t x1 x2 x3 x4 x5 x6 x7) := by
  refine h.after (c := 274877939720) ?_ hm
  unfold State.putBlockRow
  repeat' first
    | exact (Eq.refl _ : (_ : Nat) = _)
    | with_reducible exact Does.refl _ _
    | with_reducible refine does_eaWrite ?_ ?_
    | with_reducible assumption
    | with_reducible refine Does.foldl (fun _ _ _ => ?_) ?_

theorem does_startCompress {m : Nat} {s t : State} {x1 : Nat} {x2 : QEntry} {x3 : SInstr} (hm : 18446746547614679114 ||| m = m) (h : Does m s t) :
    Does m s (State.startCompress t x1 x2 x3).1 := by
  refine h.after (c := 18446746547614679114) ?_ hm
  unfold State.startCompress
  dsimp only
  repeat' first
    | exact (Eq.refl _ : (_ : Nat) = _)
    | with_reducible exact Does.refl _ _
    | with_reducible refine does_eaWrite ?_ ?_
    | with_reducible refine does_putBlockRow ?_ ?_
    | with_reducible refine does_vecDone ?_ ?_
    | with_reducible refine does_vecFail ?_ ?_
    | with_reducible refine does_withDesc ?_ (fun _ => ?_) ?_
    | with_reducible assumption
    | with_reducible assumption
    | with_reducible refine Does.foldl (fun _ _ _ => ?_) ?_
    | with_reducible refine Does.foldl_pair (fun _ _ _ => ?_) ?_
    | with_reducible refine Does.of_fst (by assumption) ?_
    | with_reducible refine Does.ite_fst ?_ ?_
    | split

theorem does_expandRow {m : Nat} {s t : State} {x1 : State} {x2 : Nat} {x3 : VecDesc} {x4 : EA} {x5 : EA} {x6 : Nat} {x7 : Nat} {x8 : Nat} {x9 : Nat} (hm : 274877939720 ||| m = m) (h : Does m s t) :
    Does m s (State.expandRow x1 t x2 x3 x4 x5 x6 x7 x8 x9).1 := by
  refine h.after (c := 274877939720) ?_ hm
  unfold State.expandRow
  dsimp only
  repeat' first
    | exact (Eq.refl _ : (_ : Nat) = _)
    | with_reducible exact Does.refl _ _
    | with_reducible refine does_putBlockRow ?_ ?_
    | with_reducible assumption
    | with_reducible refine Does.foldl (fun _ _ _ => ?_) ?_
    | with_reducible refine Does.foldl_pair (fun _ _ _ => ?_) ?_
    | with_reducible refine Does.ite_fst ?_ ?_

theorem does_startExpand {m : Nat} {s t : State} {x1 : Nat} {x2 : QEntry} {x3 : SInstr} (hm : 18446746547614679114 ||| m = m) (h : Does m s t) :
    Does m s (State.startExpand t x1 x2 x3).1 := by
  refine h.after (c := 18446746547614679114) ?_ hm
  unfold State.startExpand
  dsimp only
  repeat' first
    | exact (Eq.refl _ : (_ : Nat) = _)
    | with_reducible exact Does.refl _ _
    | with_reducible refine does_expandRow ?_ ?_
    | with_reducible refine does_putBlockRow ?_ ?_
    | with_reducible refine does_vecDone ?_ ?_
    | with_reducible refine does_vecFail ?_ ?_
    | with_reducible refine does_withDesc ?_ (fun _ => ?_) ?_
    | with_reducible assumption
    | with_reducible assumption
    | with_reducible refine Does.foldl (fun _ _ _ => ?_) ?_
    | with_reducible refine Does.foldl_pair (fun _ _ _ => ?_) ?_
    | with_reducible refine Does.of_fst (by assumption) ?_
    | with_reducible refine Does.ite_fst ?_ ?_
    | split

theorem does_startPload {m : Nat} {s t : State} {x1 : Nat} {x2 : QEntry} {x3 : SInstr} (hm : 18446750670783250498 ||| m = m) (h : Does m s t) :
    Does m s (State.startPload t x1 x2 x3).1 := by
  refine h.after (c := 18446750670783250498) ?_ hm
  unfold State.startPload
  dsimp only
  repeat' first
    | exact (Eq.refl _ : (_ : Nat) = _)
    | with_reducible exact Does.refl _ _
    | with_reducible refine does_vecDone ?_ ?_
    | with_reducible refine does_vecFail ?_ ?_
    | with_reducible assumption
    | with_reducible refine Does.foldl (fun _ _ _ => ?_) ?_
    | with_reducible refine Does.foldl_pair (fun _ _ _ => ?_) ?_
    | with_reducible refine Does.of_fst (by assumption) ?_
    | with_reducible refine Does.ite_fst ?_ ?_
    | split
    | with_reducible refine does_set_clove ?_ ?_

theorem does_startReduce {m : Nat} {s t : State} {x1 : Nat} {x2 : QEntry} {x3 : SInstr} (hm : 18446746547614679114 ||| m = m) (h : Does m s t) :
    Does m s (State.startReduce t x1 x2 x3).1 := by
  refine h.after (c := 18446746547614679114) ?_ hm
  unfold State.startReduce
  dsimp only
  repeat' first
    | exact (Eq.refl _ : (_ : Nat) = _)
    | with_reducible exact Does.refl _ _
    | with_reducible refine does_eaWrite ?_ ?_
    | with_reducible refine does_vecDone ?_ ?_
    | with_reducible refine does_vecFail ?_ ?_
    | with_reducible refine does_withDesc ?_ (fun _ => ?_) ?_
    | with_reducible assumption
    | with_reducible assumption
    | with_reducible refine Does.foldl (fun _ _ _ => ?_) ?_
    | with_reducible refine Does.foldl_pair (fun _ _ _ => ?_) ?_
    | with_reducible refine Does.of_fst (by assumption) ?_
    | with_reducible refine Does.ite_fst ?_ ?_
    | split

theorem does_startTopk {m : Nat} {s t : State} {x1 : Nat} {x2 : QEntry} {x3 : SInstr} (hm : 18446746547614679114 ||| m = m) (h : Does m s t) :
    Does m s (State.startTopk t x1 x2 x3).1 := by
  refine h.after (c := 18446746547614679114) ?_ hm
  unfold State.startTopk
  dsimp only
  repeat' first
    | exact (Eq.refl _ : (_ : Nat) = _)
    | with_reducible exact Does.refl _ _
    | with_reducible refine does_eaWrite ?_ ?_
    | with_reducible refine does_vecDone ?_ ?_
    | with_reducible refine does_vecFail ?_ ?_
    | with_reducible refine does_withDesc ?_ (fun _ => ?_) ?_
    | with_reducible assumption
    | with_reducible refine Does.of_fst (by assumption) ?_
    | with_reducible refine Does.ite_fst ?_ ?_
    | split

theorem does_putReg {m : Nat} {s t : State} {x1 : Nat} {x2 : Nat} {x3 : List (List Nat)} {x4 : Bool} (hm : 1099511627784 ||| m = m) (h : Does m s t) :
    Does m s (State.putReg t x1 x2 x3 x4) := by
  refine h.after (c := 1099511627784) ?_ hm
  unfold State.putReg
  dsimp only
  repeat' first
    | exact (Eq.refl _ : (_ : Nat) = _)
    | with_reducible exact Does.refl _ _
    | with_reducible refine does_clrMem ?_ ?_
    | with_reducible refine does_wrMem ?_ ?_
    | with_reducible refine does_set_tileTag ?_ ?_

theorem does_startVload {m : Nat} {s t : State} {x1 : Nat} {x2 : QEntry} {x3 : SInstr} (hm : 18446747372248367178 ||| m = m) (h : Does m s t) :
    Does m s (State.startVload t x1 x2 x3).1 := by
  refine h.after (c := 18446747372248367178) ?_ hm
  unfold State.startVload
  dsimp only
  repeat' first
    | exact (Eq.refl _ : (_ : Nat) = _)
    | with_reducible exact Does.refl _ _
    | with_reducible refine does_putReg ?_ ?_
    | with_reducible refine does_vecDone ?_ ?_
    | with_reducible refine does_vecFail ?_ ?_
    | with_reducible assumption
    | with_reducible refine Does.foldl (fun _ _ _ => ?_) ?_
    | with_reducible refine Does.foldl_pair (fun _ _ _ => ?_) ?_
    | with_reducible refine Does.of_fst (by assumption) ?_
    | with_reducible refine Does.ite_fst ?_ ?_
    | split

theorem does_startVstore {m : Nat} {s t : State} {x1 : Nat} {x2 : QEntry} {x3 : SInstr} (hm : 18446746547614679114 ||| m = m) (h : Does m s t) :
    Does m s (State.startVstore t x1 x2 x3).1 := by
  refine h.after (c := 18446746547614679114) ?_ hm
  unfold State.startVstore
  dsimp only
  repeat' first
    | exact (Eq.refl _ : (_ : Nat) = _)
    | with_reducible exact Does.refl _ _
    | with_reducible refine does_eaWrite ?_ ?_
    | with_reducible refine does_vecDone ?_ ?_
    | with_reducible refine does_vecFail ?_ ?_
    | with_reducible refine Does.of_fst (by assumption) ?_
    | with_reducible refine Does.ite_fst ?_ ?_
    | split

end Sys2Proof.Machine
end

