-- ==== Sys2Proof/Laws/FrameXfer.lean ====
section
/-! SUPPORT. What the operations of Xfer change: the mask of the kinds of state each may touch. -/

namespace Sys2Proof.Machine

theorem does_xFail {m : Nat} {s t : State} {x1 : Nat} {x2 : Nat} {x3 : Nat} {x4 : Status} {x5 : Nat} (hm : 281474976710656 ||| m = m) (h : Does m s t) :
    Does m s (State.xFail t x1 x2 x3 x4 x5) := by
  refine h.after (c := 281474976710656) ?_ hm
  unfold State.xFail
  repeat' first
    | exact (Eq.refl _ : (_ : Nat) = _)
    | with_reducible exact Does.refl _ _
    | with_reducible refine does_modXslot ?_ ?_

theorem does_xBlockDone {m : Nat} {s t : State} {x1 : Nat} {x2 : Nat} {x3 : Gen} {x4 : Xfer} (hm : 281474977501186 ||| m = m) (h : Does m s t) :
    Does m s (State.xBlockDone t x1 x2 x3 x4) := by
  refine h.after (c := 281474977501186) ?_ hm
  unfold State.xBlockDone
  dsimp only
  repeat' first
    | exact (Eq.refl _ : (_ : Nat) = _)
    | with_reducible exact Does.refl _ _
    | with_reducible refine does_modXslot ?_ ?_
    | with_reducible refine does_signal ?_ ?_
    | with_reducible refine Does.ite ?_ ?_

theorem does_xEnd {m : Nat} {s t : State} {x1 : Nat} {x2 : Nat} {x3 : Gen} {x4 : Status} (hm : 18447588773798350922 ||| m = m) (h : Does m s t) :
    Does m s (State.xEnd t x1 x2 x3 x4) := by
  refine h.after (c := 18447588773798350922) ?_ hm
  unfold State.xEnd
  dsimp only
  repeat' first
    | exact (Eq.refl _ : (_ : Nat) = _)
    | with_reducible exact Does.refl _ _
    | with_reducible refine does_devPut ?_ ?_
    | with_reducible refine does_eaPutBoth ?_ ?_
    | with_reducible refine does_modXslot ?_ ?_
    | with_reducible refine does_signal ?_ ?_
    | with_reducible refine Does.ite ?_ ?_
    | split

theorem does_xFailEvent {m : Nat} {s t : State} {x1 : Nat} {x2 : Nat} {x3 : Gen} {x4 : Status} {x5 : Nat} (hm : 18446744073713483842 ||| m = m) (h : Does m s t) :
    Does m s (State.xFailEvent t x1 x2 x3 x4 x5) := by
  refine h.after (c := 18446744073713483842) ?_ hm
  unfold State.xFailEvent
  dsimp only
  repeat' first
    | exact (Eq.refl _ : (_ : Nat) = _)
    | with_reducible exact Does.refl _ _
    | with_reducible refine does_raise ?_ ?_
    | with_reducible refine does_setReg ?_ ?_

theorem does_xReturn {m : Nat} {s t : State} {x1 : Nat} {x2 : Gen} (hm : 65536 ||| m = m) (h : Does m s t) :
    Does m s (State.xReturn t x1 x2) := by
  refine h.after (c := 65536) ?_ hm
  unfold State.xReturn
  dsimp only
  repeat' first
    | exact (Eq.refl _ : (_ : Nat) = _)
    | with_reducible exact Does.refl _ _
    | with_reducible refine does_modRegion ?_ ?_
    | with_reducible assumption
    | with_reducible refine Does.foldl (fun _ _ _ => ?_) ?_
    | with_reducible refine Does.foldl_pair (fun _ _ _ => ?_) ?_
    | with_reducible refine Does.ite ?_ ?_

theorem does_xFailEnd {m : Nat} {s t : State} {x1 : Nat} {x2 : Nat} {x3 : Gen} {x4 : List Gen} {x5 : Status} {x6 : Nat} (hm : 18447588773798416458 ||| m = m) (h : Does m s t) :
    Does m s (State.xFailEnd t x1 x2 x3 x4 x5 x6) := by
  refine h.after (c := 18447588773798416458) ?_ hm
  unfold State.xFailEnd
  dsimp only
  repeat' first
    | exact (Eq.refl _ : (_ : Nat) = _)
    | with_reducible exact Does.refl _ _
    | with_reducible refine does_modXslot ?_ ?_
    | with_reducible refine does_xEnd ?_ ?_
    | with_reducible refine does_xFailEvent ?_ ?_
    | with_reducible refine does_xReturn ?_ ?_
    | with_reducible assumption
    | with_reducible refine Does.foldl (fun _ _ _ => ?_) ?_

theorem does_xLand {m : Nat} {s t : State} {x1 : Nat} {x2 : Nat} {x3 : Gen} {x4 : Xfer} (hm : 18447025548690264130 ||| m = m) (h : Does m s t) :
    Does m s (State.xLand t x1 x2 x3 x4) := by
  refine h.after (c := 18447025548690264130) ?_ hm
  unfold State.xLand
  dsimp only
  repeat' first
    | exact (Eq.refl _ : (_ : Nat) = _)
    | with_reducible exact Does.refl _ _
    | with_reducible refine does_bump ?_ ?_
    | with_reducible refine does_modRegion ?_ ?_
    | with_reducible refine does_modXslot ?_ ?_
    | with_reducible refine does_raise ?_ ?_
    | with_reducible refine does_signal ?_ ?_
    | with_reducible assumption
    | with_reducible refine Does.foldl (fun _ _ _ => ?_) ?_
    | with_reducible refine Does.foldl_pair (fun _ _ _ => ?_) ?_
    | with_reducible refine Does.ite ?_ ?_

theorem does_xSettle {m : Nat} {s t : State} {x1 : Nat} {x2 : Nat} {x3 : Nat} (hm : 18447588773798416458 ||| m = m) (h : Does m s t) :
    Does m s (State.xSettle t x1 x2 x3) := by
  refine h.after (c := 18447588773798416458) ?_ hm
  clear h
  induction x3 generalizing t x1 x2 with
  | zero =>
    unfold State.xSettle
    repeat' first
      | exact (Eq.refl _ : (_ : Nat) = _)
      | with_reducible exact Does.refl _ _
      | with_reducible refine does_modXslot ?_ ?_
      | with_reducible refine does_xBlockDone ?_ ?_
      | with_reducible refine does_xEnd ?_ ?_
      | with_reducible refine does_xFailEnd ?_ ?_
      | with_reducible refine does_xLand ?_ ?_
      | with_reducible refine Does.ite ?_ ?_
      | split
  | succ n ih =>
    unfold State.xSettle
    try dsimp only
    repeat' first
      | with_reducible refine Does.after (c := 18447588773798416458) ?_ ih ?_
      | exact (Eq.refl _ : (_ : Nat) = _)
      | with_reducible exact Does.refl _ _
      | with_reducible refine does_modXslot ?_ ?_
      | with_reducible refine does_xBlockDone ?_ ?_
      | with_reducible refine does_xEnd ?_ ?_
      | with_reducible refine does_xFailEnd ?_ ?_
      | with_reducible refine does_xLand ?_ ?_
      | with_reducible refine Does.ite ?_ ?_
      | split

theorem does_xSettled {m : Nat} {s t : State} {x1 : Nat} {x2 : Nat} (hm : 18447588773798416458 ||| m = m) (h : Does m s t) :
    Does m s (State.xSettled t x1 x2) := by
  refine h.after (c := 18447588773798416458) ?_ hm
  unfold State.xSettled
  dsimp only
  repeat' first
    | exact (Eq.refl _ : (_ : Nat) = _)
    | with_reducible exact Does.refl _ _
    | with_reducible refine does_xSettle ?_ ?_

theorem does_xStop {m : Nat} {s t : State} {x1 : Nat} {x2 : Nat} (hm : 18447588773798416458 ||| m = m) (h : Does m s t) :
    Does m s (State.xStop t x1 x2).1 := by
  refine h.after (c := 18447588773798416458) ?_ hm
  unfold State.xStop
  repeat' first
    | exact (Eq.refl _ : (_ : Nat) = _)
    | with_reducible exact Does.refl _ _
    | with_reducible refine does_modXslot ?_ ?_
    | with_reducible refine does_xSettled ?_ ?_
    | with_reducible refine Does.ite_fst ?_ ?_

theorem does_xStopPart {m : Nat} {s t : State} {x1 : Nat} (hm : 18447588773798416458 ||| m = m) (h : Does m s t) :
    Does m s (State.xStopPart t x1) := by
  refine h.after (c := 18447588773798416458) ?_ hm
  unfold State.xStopPart
  repeat' first
    | exact (Eq.refl _ : (_ : Nat) = _)
    | with_reducible exact Does.refl _ _
    | with_reducible refine does_xStop ?_ ?_
    | with_reducible assumption
    | with_reducible refine Does.foldl (fun _ _ _ => ?_) ?_

theorem does_xArm {m : Nat} {s t : State} {x1 : Nat} {x2 : Nat} {x3 : Nat} {x4 : List Byte} (hm : 18447588773798416458 ||| m = m) (h : Does m s t) :
    Does m s (State.xArm t x1 x2 x3 x4).1 := by
  refine h.after (c := 18447588773798416458) ?_ hm
  unfold State.xArm
  dsimp only
  repeat' first
    | exact (Eq.refl _ : (_ : Nat) = _)
    | with_reducible exact Does.refl _ _
    | with_reducible refine does_modXslot ?_ ?_
    | with_reducible refine does_xSettled ?_ ?_
    | with_reducible refine Does.ite_fst ?_ ?_

theorem does_xferDone {m : Nat} {s t : State} {x1 : Nat} {x2 : Nat} {x3 : Nat} {x4 : QEntry} {x5 : Status} (hm : 2199023255552 ||| m = m) (h : Does m s t) :
    Does m s (State.xferDone t x1 x2 x3 x4 x5).1 := by
  refine h.after (c := 2199023255552) ?_ hm
  unfold State.xferDone
  repeat' first
    | exact (Eq.refl _ : (_ : Nat) = _)
    | with_reducible exact Does.refl _ _
    | with_reducible refine does_noteFail ?_ ?_
    | with_reducible refine Does.ite_fst ?_ ?_
    | split

theorem does_startArm {m : Nat} {s t : State} {x1 : Nat} {x2 : QEntry} {x3 : SInstr} (hm : 18447590972821672010 ||| m = m) (h : Does m s t) :
    Does m s (State.startArm t x1 x2 x3).1 := by
  refine h.after (c := 18447590972821672010) ?_ hm
  unfold State.startArm
  dsimp only
  repeat' first
    | exact (Eq.refl _ : (_ : Nat) = _)
    | with_reducible exact Does.refl _ _
    | with_reducible refine does_xArm ?_ ?_
    | with_reducible refine does_xferDone ?_ ?_
    | with_reducible refine Does.of_fst (by assumption) ?_
    | with_reducible refine Does.ite_fst ?_ ?_
    | split

theorem does_xReadDesc {m : Nat} {s t : State} {x1 : Nat} {x2 : Nat} {x3 : Nat} (hm : 18447307023943729226 ||| m = m) (h : Does m s t) :
    Does m s (State.xReadDesc t x1 x2 x3).1 := by
  refine h.after (c := 18447307023943729226) ?_ hm
  unfold State.xReadDesc
  dsimp only
  repeat' first
    | exact (Eq.refl _ : (_ : Nat) = _)
    | with_reducible exact Does.refl _ _
    | with_reducible refine does_countAccess ?_ ?_
    | with_reducible refine does_devRead ?_ ?_
    | with_reducible refine Does.ite_fst ?_ ?_

theorem does_xArmDev {m : Nat} {s t : State} {x1 : Nat} {x2 : Nat} {x3 : Nat} {x4 : Nat} (hm : 18447588773798416458 ||| m = m) (h : Does m s t) :
    Does m s (State.xArmDev t x1 x2 x3 x4).1 := by
  refine h.after (c := 18447588773798416458) ?_ hm
  unfold State.xArmDev
  repeat' first
    | exact (Eq.refl _ : (_ : Nat) = _)
    | with_reducible exact Does.refl _ _
    | with_reducible refine does_xArm ?_ ?_
    | with_reducible refine does_xReadDesc ?_ ?_
    | with_reducible refine Does.of_fst (by assumption) ?_
    | with_reducible refine Does.ite_fst ?_ ?_
    | split

theorem does_startArmd {m : Nat} {s t : State} {x1 : Nat} {x2 : QEntry} {x3 : SInstr} (hm : 18447590972821672010 ||| m = m) (h : Does m s t) :
    Does m s (State.startArmd t x1 x2 x3).1 := by
  refine h.after (c := 18447590972821672010) ?_ hm
  unfold State.startArmd
  dsimp only
  repeat' first
    | exact (Eq.refl _ : (_ : Nat) = _)
    | with_reducible exact Does.refl _ _
    | with_reducible refine does_xArmDev ?_ ?_
    | with_reducible refine does_xferDone ?_ ?_
    | with_reducible refine Does.of_fst (by assumption) ?_
    | split

theorem does_startStop {m : Nat} {s t : State} {x1 : Nat} {x2 : QEntry} {x3 : SInstr} (hm : 18447590972821672010 ||| m = m) (h : Does m s t) :
    Does m s (State.startStop t x1 x2 x3).1 := by
  refine h.after (c := 18447590972821672010) ?_ hm
  unfold State.startStop
  dsimp only
  repeat' first
    | exact (Eq.refl _ : (_ : Nat) = _)
    | with_reducible exact Does.refl _ _
    | with_reducible refine does_xStop ?_ ?_
    | with_reducible refine does_xferDone ?_ ?_
    | with_reducible refine Does.of_fst (by assumption) ?_
    | with_reducible refine Does.ite_fst ?_ ?_

theorem does_xArmFail {m : Nat} {s t : State} {x1 : Nat} {x2 : Nat} {x3 : Nat} {x4 : Status} (hm : 18446744073713483842 ||| m = m) (h : Does m s t) :
    Does m s (State.xArmFail t x1 x2 x3 x4) := by
  refine h.after (c := 18446744073713483842) ?_ hm
  unfold State.xArmFail
  repeat' first
    | exact (Eq.refl _ : (_ : Nat) = _)
    | with_reducible exact Does.refl _ _
    | with_reducible refine does_raise ?_ ?_

theorem does_modXfer {m : Nat} {s t : State} {x1 : Nat} {x2 : Nat} {x3 : Nat} {x4 : Nat} {x5 : Nat} {x6 : Xfer → Xfer} (hm : 281474976710656 ||| m = m) (h : Does m s t) :
    Does m s (State.modXfer t x1 x2 x3 x4 x5 x6) := by
  refine h.after (c := 281474976710656) ?_ hm
  unfold State.modXfer
  repeat' first
    | exact (Eq.refl _ : (_ : Nat) = _)
    | with_reducible exact Does.refl _ _
    | with_reducible refine does_modXslot ?_ ?_

theorem does_xDone {m : Nat} {s t : State} {x1 : Nat} {x2 : Nat} {x3 : Nat} {x4 : Nat} {x5 : Nat} {x6 : Status} (hm : 18447588773798416458 ||| m = m) (h : Does m s t) :
    Does m s (State.xDone t x1 x2 x3 x4 x5 x6) := by
  refine h.after (c := 18447588773798416458) ?_ hm
  unfold State.xDone
  dsimp only
  repeat' first
    | exact (Eq.refl _ : (_ : Nat) = _)
    | with_reducible exact Does.refl _ _
    | with_reducible refine does_modXfer ?_ ?_
    | with_reducible refine does_xFail ?_ ?_
    | with_reducible refine does_xSettled ?_ ?_
    | with_reducible refine Does.ite ?_ ?_

theorem does_underMaps {α : Type} {m : Nat} {s t : State} {x1 : Tab Window} {x2 : State → State × α} (hm : 0 ||| m = m)
    (hg : ∀ u, Does m u (x2 u).1) (h : Does m s t) : Does m s (State.underMaps t x1 x2).1 := by
  have _ := hm
  have hf := hg { t with windows := x1 }
  refine ⟨fun k hk => ?_, State.grows_trans h.grows ?_⟩
  · have a := h.frame k hk
    have b := hf.frame k hk
    cases k <;> first | exact Kind.agree_trans a b | exact a
  · exact ⟨hf.grows.queue, hf.grows.memory, hf.grows.sent, hf.grows.free⟩

theorem does_xStore {m : Nat} {s t : State} {x1 : Nat} {x2 : Nat} {x3 : Nat} {x4 : Desc} {x5 : Blk} {x6 : Xfer} {x7 : List Byte} (hm : 18447307298821636170 ||| m = m) (h : Does m s t) :
    Does m s (State.xStore t x1 x2 x3 x4 x5 x6 x7).1 := by
  refine h.after (c := 18447307298821636170) ?_ hm
  unfold State.xStore
  dsimp only
  repeat' first
    | exact (Eq.refl _ : (_ : Nat) = _)
    | with_reducible exact Does.refl _ _
    | with_reducible refine does_countAccess ?_ ?_
    | with_reducible refine does_devWrite ?_ ?_
    | with_reducible refine does_eaPut ?_ ?_
    | with_reducible refine does_eaPutBoth ?_ ?_
    | with_reducible refine does_translate ?_ ?_
    | with_reducible refine does_underMaps ?_ (fun _ => ?_) ?_
    | with_reducible assumption
    | with_reducible assumption
    | with_reducible refine Does.foldl (fun _ _ _ => ?_) ?_
    | with_reducible refine Does.foldl_pair (fun _ _ _ => ?_) ?_
    | with_reducible refine Does.of_fst (by assumption) ?_
    | with_reducible refine Does.ite_fst ?_ ?_
    | split

theorem does_xDeliver {m : Nat} {s t : State} {x1 : Nat} {x2 : Nat} {x3 : Gen} {x4 : Xfer} {x5 : List Byte} (hm : 18447588773798416458 ||| m = m) (h : Does m s t) :
    Does m s (State.xDeliver t x1 x2 x3 x4 x5) := by
  refine h.after (c := 18447588773798416458) ?_ hm
  unfold State.xDeliver
  dsimp only
  repeat' first
    | exact (Eq.refl _ : (_ : Nat) = _)
    | with_reducible exact Does.refl _ _
    | with_reducible refine does_xDone ?_ ?_
    | with_reducible refine does_xStore ?_ ?_
    | with_reducible refine Does.ite ?_ ?_

theorem does_xAsk {m : Nat} {s t : State} {x1 : Nat} {x2 : Gen} {x3 : Xfer} {x4 : ReqUse} (hm : 18464195522273738818 ||| m = m) (h : Does m s t) :
    Does m s (State.xAsk t x1 x2 x3 x4).1 := by
  refine h.after (c := 18464195522273738818) ?_ hm
  unfold State.xAsk
  dsimp only
  repeat' first
    | exact (Eq.refl _ : (_ : Nat) = _)
    | with_reducible exact Does.refl _ _
    | with_reducible refine does_nodeRead ?_ ?_
    | with_reducible refine does_originate ?_ ?_
    | with_reducible refine Does.of_fst (by assumption) ?_
    | with_reducible refine Does.ite_fst ?_ ?_
    | split

theorem does_xSource {m : Nat} {s t : State} {x1 : Tab Window} {x2 : Nat} {x3 : Nat} {x4 : Nat} {x5 : Blk} {x6 : Nat} {x7 : Nat} (hm : 18447307023943729226 ||| m = m) (h : Does m s t) :
    Does m s (State.xSource t x1 x2 x3 x4 x5 x6 x7).1 := by
  refine h.after (c := 18447307023943729226) ?_ hm
  unfold State.xSource
  dsimp only
  repeat' first
    | exact (Eq.refl _ : (_ : Nat) = _)
    | with_reducible exact Does.refl _ _
    | with_reducible refine does_countAccess ?_ ?_
    | with_reducible refine does_devRead ?_ ?_
    | with_reducible refine does_translate ?_ ?_
    | with_reducible refine does_underMaps ?_ (fun _ => ?_) ?_
    | with_reducible assumption
    | with_reducible assumption
    | with_reducible refine Does.foldl (fun _ _ _ => ?_) ?_
    | with_reducible refine Does.foldl_pair (fun _ _ _ => ?_) ?_
    | with_reducible refine Does.of_fst (by assumption) ?_
    | with_reducible refine Does.ite_fst ?_ ?_
    | split

theorem does_xTell {m : Nat} {s t : State} {x1 : Nat} {x2 : Gen} {x3 : Xfer} {x4 : ReqUse} {x5 : List Byte} (hm : 18457440122832683074 ||| m = m) (h : Does m s t) :
    Does m s (State.xTell t x1 x2 x3 x4 x5).1 := by
  refine h.after (c := 18457440122832683074) ?_ hm
  unfold State.xTell
  dsimp only
  repeat' first
    | exact (Eq.refl _ : (_ : Nat) = _)
    | with_reducible exact Does.refl _ _
    | with_reducible refine does_nodeWrite ?_ ?_
    | with_reducible refine does_originate ?_ ?_
    | with_reducible refine Does.of_fst (by assumption) ?_
    | with_reducible refine Does.ite_fst ?_ ?_

theorem does_xRemote {m : Nat} {s t : State} {x1 : Nat} {x2 : Nat} {x3 : Gen} {x4 : Xfer} (hm : 18464477272405250122 ||| m = m) (h : Does m s t) :
    Does m s (State.xRemote t x1 x2 x3 x4) := by
  refine h.after (c := 18464477272405250122) ?_ hm
  unfold State.xRemote
  dsimp only
  repeat' first
    | exact (Eq.refl _ : (_ : Nat) = _)
    | with_reducible exact Does.refl _ _
    | with_reducible refine does_modXfer ?_ ?_
    | with_reducible refine does_xAsk ?_ ?_
    | with_reducible refine does_xDone ?_ ?_
    | with_reducible refine does_xSource ?_ ?_
    | with_reducible refine does_xTell ?_ ?_
    | with_reducible refine Does.of_fst (by assumption) ?_
    | with_reducible refine Does.ite ?_ ?_
    | split

theorem does_xAnswer {m : Nat} {s t : State} {x1 : Nat} {x2 : Nat} {x3 : Nat} {x4 : Nat} {x5 : Nat} {x6 : Status} {x7 : List Byte} (hm : 18464477272405250122 ||| m = m) (h : Does m s t) :
    Does m s (State.xAnswer t x1 x2 x3 x4 x5 x6 x7) := by
  refine h.after (c := 18464477272405250122) ?_ hm
  unfold State.xAnswer
  dsimp only
  repeat' first
    | exact (Eq.refl _ : (_ : Nat) = _)
    | with_reducible exact Does.refl _ _
    | with_reducible refine does_modXfer ?_ ?_
    | with_reducible refine does_xDeliver ?_ ?_
    | with_reducible refine does_xDone ?_ ?_
    | with_reducible refine does_xRemote ?_ ?_
    | with_reducible refine Does.ite ?_ ?_
    | split

theorem does_listRead {m : Nat} {s t : State} {x1 : XPlace} {x2 : Bool} (hm : 18446744073977987074 ||| m = m) (h : Does m s t) :
    Does m s (State.listRead t x1 x2) := by
  refine h.after (c := 18446744073977987074) ?_ hm
  unfold State.listRead
  repeat' first
    | exact (Eq.refl _ : (_ : Nat) = _)
    | with_reducible exact Does.refl _ _
    | with_reducible refine does_countAccess ?_ ?_
    | with_reducible refine Does.ite ?_ ?_
    | split

theorem does_noteDamage {m : Nat} {s t : State} {x1 : FailedSlot} {x2 : Nat} (hm : 1610612736 ||| m = m) (h : Does m s t) :
    Does m s (State.noteDamage t x1 x2) := by
  refine h.after (c := 1610612736) ?_ hm
  unfold State.noteDamage
  dsimp only
  repeat' first
    | exact (Eq.refl _ : (_ : Nat) = _)
    | with_reducible exact Does.refl _ _
    | with_reducible refine does_modIg ?_ ?_
    | with_reducible refine Does.ite ?_ ?_
    | split
    | with_reducible refine does_set_repairs ?_ ?_

theorem does_transferComplete {m : Nat} {s t : State} {x1 : Nat} {x2 : Nat} {x3 : Nat} (hm : 18447588775409029194 ||| m = m) (h : Does m s t) :
    Does m s (State.transferComplete t x1 x2 x3) := by
  refine h.after (c := 18447588775409029194) ?_ hm
  unfold State.transferComplete
  dsimp only
  repeat' first
    | exact (Eq.refl _ : (_ : Nat) = _)
    | with_reducible exact Does.refl _ _
    | with_reducible refine does_noteDamage ?_ ?_
    | with_reducible refine does_xDeliver ?_ ?_
    | with_reducible refine does_xDone ?_ ?_
    | with_reducible refine does_xSource ?_ ?_
    | with_reducible assumption
    | with_reducible refine Does.foldl (fun _ _ _ => ?_) ?_
    | with_reducible refine Does.foldl_pair (fun _ _ _ => ?_) ?_
    | with_reducible refine Does.of_fst (by assumption) ?_
    | with_reducible refine Does.ite ?_ ?_
    | split

theorem does_modGen {m : Nat} {s t : State} {x1 : Nat} {x2 : Nat} {x3 : Nat} {x4 : Gen → Gen} (hm : 281474976710656 ||| m = m) (h : Does m s t) :
    Does m s (State.modGen t x1 x2 x3 x4) := by
  refine h.after (c := 281474976710656) ?_ hm
  unfold State.modGen
  repeat' first
    | exact (Eq.refl _ : (_ : Nat) = _)
    | with_reducible exact Does.refl _ _
    | with_reducible refine does_modXslot ?_ ?_

theorem does_xPlaceRead {m : Nat} {s t : State} {x1 : XPlace} {x2 : Nat} (hm : 18447307023943729226 ||| m = m) (h : Does m s t) :
    Does m s (State.xPlaceRead t x1 x2).1 := by
  refine h.after (c := 18447307023943729226) ?_ hm
  unfold State.xPlaceRead
  repeat' first
    | exact (Eq.refl _ : (_ : Nat) = _)
    | with_reducible exact Does.refl _ _
    | with_reducible refine does_devRead ?_ ?_
    | with_reducible refine Does.of_fst (by assumption) ?_
    | split

theorem does_xEntry {m : Nat} {s t : State} {x1 : Nat} {x2 : Gen} (hm : 18447307023943729226 ||| m = m) (h : Does m s t) :
    Does m s (State.xEntry t x1 x2).1 := by
  refine h.after (c := 18447307023943729226) ?_ hm
  unfold State.xEntry
  dsimp only
  repeat' first
    | exact (Eq.refl _ : (_ : Nat) = _)
    | with_reducible exact Does.refl _ _
    | with_reducible refine does_listRead ?_ ?_
    | with_reducible refine does_xPlaceRead ?_ ?_
    | with_reducible refine Does.of_fst (by assumption) ?_
    | with_reducible refine Does.ite_fst ?_ ?_
    | split

theorem does_xChainHold {m : Nat} {s t : State} {x1 : Nat} {x2 : Nat} {x3 : Nat} {x4 : Nat} {x5 : Nat} (hm : 18447588498920439882 ||| m = m) (h : Does m s t) :
    Does m s (State.xChainHold t x1 x2 x3 x4 x5) := by
  refine h.after (c := 18447588498920439882) ?_ hm
  unfold State.xChainHold
  dsimp only
  repeat' first
    | exact (Eq.refl _ : (_ : Nat) = _)
    | with_reducible exact Does.refl _ _
    | with_reducible refine does_listRead ?_ ?_
    | with_reducible refine does_modXslot ?_ ?_
    | with_reducible refine does_xArmFail ?_ ?_
    | with_reducible refine does_xPlaceRead ?_ ?_
    | with_reducible refine does_xReadDesc ?_ ?_
    | with_reducible refine Does.of_fst (by assumption) ?_
    | with_reducible refine Does.ite ?_ ?_
    | split

theorem does_xChainRead {m : Nat} {s t : State} {x1 : Nat} {x2 : Nat} {x3 : Gen} (hm : 18447588498920439882 ||| m = m) (h : Does m s t) :
    Does m s (State.xChainRead t x1 x2 x3) := by
  refine h.after (c := 18447588498920439882) ?_ hm
  unfold State.xChainRead
  dsimp only
  repeat' first
    | exact (Eq.refl _ : (_ : Nat) = _)
    | with_reducible exact Does.refl _ _
    | with_reducible refine does_modXslot ?_ ?_
    | with_reducible refine does_xChainHold ?_ ?_
    | with_reducible refine Does.ite ?_ ?_

theorem does_xChain {m : Nat} {s t : State} {x1 : Nat} {x2 : Nat} {x3 : Gen} (hm : 18447588498920439882 ||| m = m) (h : Does m s t) :
    Does m s (State.xChain t x1 x2 x3) := by
  refine h.after (c := 18447588498920439882) ?_ hm
  unfold State.xChain
  dsimp only
  repeat' first
    | exact (Eq.refl _ : (_ : Nat) = _)
    | with_reducible exact Does.refl _ _
    | with_reducible refine does_modXslot ?_ ?_
    | with_reducible refine does_xChainRead ?_ ?_
    | with_reducible refine Does.ite ?_ ?_
    | split

theorem does_xPush {m : Nat} {s t : State} {x1 : Nat} {x2 : Nat} {x3 : Gen} {x4 : List Byte} {x5 : Xfer} (hm : 18447588498920439882 ||| m = m) (h : Does m s t) :
    Does m s (State.xPush t x1 x2 x3 x4 x5) := by
  refine h.after (c := 18447588498920439882) ?_ hm
  unfold State.xPush
  dsimp only
  repeat' first
    | exact (Eq.refl _ : (_ : Nat) = _)
    | with_reducible exact Does.refl _ _
    | with_reducible refine does_modGen ?_ ?_
    | with_reducible refine does_modXslot ?_ ?_
    | with_reducible refine does_xChain ?_ ?_
    | with_reducible refine Does.ite ?_ ?_

theorem does_transferIssue {m : Nat} {s t : State} {x1 : Nat} {x2 : Nat} (hm : 18464477272405250122 ||| m = m) (h : Does m s t) :
    Does m s (State.transferIssue t x1 x2) := by
  refine h.after (c := 18464477272405250122) ?_ hm
  unfold State.transferIssue
  dsimp only
  repeat' first
    | exact (Eq.refl _ : (_ : Nat) = _)
    | with_reducible exact Does.refl _ _
    | with_reducible refine does_modGen ?_ ?_
    | with_reducible refine does_modRegion ?_ ?_
    | with_reducible refine does_xEntry ?_ ?_
    | with_reducible refine does_xFail ?_ ?_
    | with_reducible refine does_xPush ?_ ?_
    | with_reducible refine does_xRemote ?_ ?_
    | with_reducible refine does_xSettled ?_ ?_
    | with_reducible assumption
    | with_reducible refine Does.foldl (fun _ _ _ => ?_) ?_
    | with_reducible refine Does.foldl_pair (fun _ _ _ => ?_) ?_
    | with_reducible refine Does.of_fst (by assumption) ?_
    | with_reducible refine Does.ite ?_ ?_
    | split

theorem does_xRunOut {m : Nat} {s t : State} {x1 : Nat} {x2 : Nat} {x3 : Nat} (hm : 18464477274015862858 ||| m = m) (h : Does m s t) :
    Does m s (State.xRunOut t x1 x2 x3) := by
  refine h.after (c := 18464477274015862858) ?_ hm
  clear h
  induction x3 generalizing t x1 x2 with
  | zero =>
    unfold State.xRunOut
    repeat' first
      | exact (Eq.refl _ : (_ : Nat) = _)
      | with_reducible exact Does.refl _ _
      | with_reducible refine does_transferComplete ?_ ?_
      | with_reducible refine does_transferIssue ?_ ?_
      | with_reducible refine Does.ite ?_ ?_
      | split
  | succ n ih =>
    unfold State.xRunOut
    try dsimp only
    repeat' first
      | with_reducible refine Does.after (c := 18464477274015862858) ?_ ih ?_
      | exact (Eq.refl _ : (_ : Nat) = _)
      | with_reducible exact Does.refl _ _
      | with_reducible refine does_transferComplete ?_ ?_
      | with_reducible refine does_transferIssue ?_ ?_
      | with_reducible refine Does.ite ?_ ?_
      | split

theorem does_xResetPart {m : Nat} {s t : State} {x1 : Nat} (hm : 18464477274015862858 ||| m = m) (h : Does m s t) :
    Does m s (State.xResetPart t x1) := by
  refine h.after (c := 18464477274015862858) ?_ hm
  unfold State.xResetPart
  dsimp only
  repeat' first
    | exact (Eq.refl _ : (_ : Nat) = _)
    | with_reducible exact Does.refl _ _
    | with_reducible refine does_modXslot ?_ ?_
    | with_reducible refine does_xEnd ?_ ?_
    | with_reducible refine does_xRunOut ?_ ?_
    | with_reducible refine does_xStop ?_ ?_
    | with_reducible assumption
    | with_reducible refine Does.foldl (fun _ _ _ => ?_) ?_
    | with_reducible refine Does.foldl_pair (fun _ _ _ => ?_) ?_
    | with_reducible refine Does.ite ?_ ?_

theorem does_xeArmWrite {m : Nat} {s t : State} {x1 : Nat} {x2 : Word} (hm : 23059274792225804362 ||| m = m) (h : Does m s t) :
    Does m s (State.xeArmWrite t x1 x2) := by
  refine h.after (c := 23059274792225804362) ?_ hm
  unfold State.xeArmWrite
  repeat' first
    | exact (Eq.refl _ : (_ : Nat) = _)
    | with_reducible exact Does.refl _ _
    | with_reducible refine does_ends ?_ ?_
    | with_reducible refine does_xArmDev ?_ ?_
    | with_reducible refine does_xStop ?_ ?_
    | with_reducible refine Does.of_fst (by assumption) ?_
    | with_reducible refine Does.ite ?_ ?_
    | split

theorem does_xqCfgWrite {m : Nat} {s t : State} {x1 : Nat} {x2 : Nat} {x3 : Word} (hm : 4611686018427387906 ||| m = m) (h : Does m s t) :
    Does m s (State.xqCfgWrite t x1 x2 x3) := by
  refine h.after (c := 4611686018427387906) ?_ hm
  unfold State.xqCfgWrite
  dsimp only
  repeat' first
    | exact (Eq.refl _ : (_ : Nat) = _)
    | with_reducible exact Does.refl _ _
    | with_reducible refine does_ends ?_ ?_
    | with_reducible refine does_setReg ?_ ?_
    | with_reducible refine Does.ite ?_ ?_
    | split

end Sys2Proof.Machine
end

