-- ==== Sys2Proof/Laws/FrameRun.lean ====
section
/-! SUPPORT. What the operations of Run change: the mask of the kinds of state each may touch. -/

namespace Sys2Proof.Machine

theorem does_haltQueue {m : Nat} {s t : State} {x1 : Nat} {x2 : Nat} {x3 : QEntry} {x4 : Status} (hm : 18446744073713516610 ||| m = m) (h : Does m s t) :
    Does m s (State.haltQueue t x1 x2 x3 x4) := by
  refine h.after (c := 18446744073713516610) ?_ hm
  unfold State.haltQueue
  dsimp only
  repeat' first
    | exact (Eq.refl _ : (_ : Nat) = _)
    | with_reducible exact Does.refl _ _
    | with_reducible refine does_modSeq ?_ ?_
    | with_reducible refine does_raise ?_ ?_

theorem does_setQueue {m : Nat} {s t : State} {x1 : Nat} {x2 : Nat} {x3 : List QEntry} (hm : 32768 ||| m = m) (h : Does m s t) :
    Does m s (State.setQueue t x1 x2 x3) := by
  refine h.after (c := 32768) ?_ hm
  unfold State.setQueue
  repeat' first
    | exact (Eq.refl _ : (_ : Nat) = _)
    | with_reducible exact Does.refl _ _
    | with_reducible refine does_modSeq ?_ ?_

theorem does_passScoped {m : Nat} {s t : State} {x1 : Nat} {x2 : Nat} {x3 : Nat} {x4 : SInstr} (hm : 36864 ||| m = m) (h : Does m s t) :
    Does m s (State.passScoped t x1 x2 x3 x4) := by
  refine h.after (c := 36864) ?_ hm
  unfold State.passScoped
  dsimp only
  repeat' first
    | exact (Eq.refl _ : (_ : Nat) = _)
    | with_reducible exact Does.refl _ _
    | with_reducible refine does_setQueue ?_ ?_
    | with_reducible refine does_takeCtr ?_ ?_
    | with_reducible refine Does.ite ?_ ?_
    | split

theorem does_passWait {m : Nat} {s t : State} {x1 : Nat × Option Nat} (hm : 36864 ||| m = m) (h : Does m s t) :
    Does m s (State.passWait t x1) := by
  refine h.after (c := 36864) ?_ hm
  unfold State.passWait
  repeat' first
    | exact (Eq.refl _ : (_ : Nat) = _)
    | with_reducible exact Does.refl _ _
    | with_reducible refine does_modSeq ?_ ?_
    | with_reducible refine does_setQueue ?_ ?_
    | with_reducible refine does_takeCtr ?_ ?_
    | with_reducible refine Does.ite ?_ ?_
    | split

theorem does_settleWaits {m : Nat} {s t : State} {x1 : Nat} (hm : 36864 ||| m = m) (h : Does m s t) :
    Does m s (State.settleWaits t x1) := by
  refine h.after (c := 36864) ?_ hm
  unfold State.settleWaits
  repeat' first
    | exact (Eq.refl _ : (_ : Nat) = _)
    | with_reducible exact Does.refl _ _
    | with_reducible refine does_passWait ?_ ?_
    | with_reducible assumption
    | with_reducible refine Does.foldl (fun _ _ _ => ?_) ?_

theorem does_passFresh {m : Nat} {s t : State} {x1 : Nat} {x2 : Nat} {x3 : Nat} {x4 : SInstr} (hm : 36864 ||| m = m) (h : Does m s t) :
    Does m s (State.passFresh t x1 x2 x3 x4) := by
  refine h.after (c := 36864) ?_ hm
  unfold State.passFresh
  dsimp only
  repeat' first
    | exact (Eq.refl _ : (_ : Nat) = _)
    | with_reducible exact Does.refl _ _
    | with_reducible refine does_passScoped ?_ ?_
    | with_reducible refine does_setQueue ?_ ?_
    | with_reducible refine does_settleWaits ?_ ?_
    | with_reducible refine Does.ite ?_ ?_
    | split

theorem does_startOp {m : Nat} {s t : State} {x1 : Nat} {x2 : Nat} {x3 : List QEntry} {x4 : QEntry} {x5 : SInstr} (hm : 22771325486250168394 ||| m = m) (h : Does m s t) :
    Does m s (State.startOp t x1 x2 x3 x4 x5).1 := by
  refine h.after (c := 22771325486250168394) ?_ hm
  unfold State.startOp
  repeat' first
    | exact (Eq.refl _ : (_ : Nat) = _)
    | with_reducible exact Does.refl _ _
    | with_reducible refine does_startAconfig ?_ ?_
    | with_reducible refine does_startAgather ?_ ?_
    | with_reducible refine does_startAmerge ?_ ?_
    | with_reducible refine does_startArm ?_ ?_
    | with_reducible refine does_startArmd ?_ ?_
    | with_reducible refine does_startBatch ?_ ?_
    | with_reducible refine does_startBset ?_ ?_
    | with_reducible refine does_startClove ?_ ?_
    | with_reducible refine does_startCombine ?_ ?_
    | with_reducible refine does_startCompress ?_ ?_
    | with_reducible refine does_startConfig ?_ ?_
    | with_reducible refine does_startDattn ?_ ?_
    | with_reducible refine does_startDrain ?_ ?_
    | with_reducible refine does_startExpand ?_ ?_
    | with_reducible refine does_startLoad ?_ ?_
    | with_reducible refine does_startMma ?_ ?_
    | with_reducible refine does_startPload ?_ ?_
    | with_reducible refine does_startQhad ?_ ?_
    | with_reducible refine does_startQload ?_ ?_
    | with_reducible refine does_startQrun ?_ ?_
    | with_reducible refine does_startQstep ?_ ?_
    | with_reducible refine does_startReduce ?_ ?_
    | with_reducible refine does_startStop ?_ ?_
    | with_reducible refine does_startTopk ?_ ?_
    | with_reducible refine does_startVload ?_ ?_
    | with_reducible refine does_startVstore ?_ ?_
    | with_reducible refine does_startXload ?_ ?_
    | with_reducible refine Does.of_fst (by assumption) ?_
    | with_reducible refine Does.ite_fst ?_ ?_
    | split

theorem does_takeOut {m : Nat} {s t : State} {x1 : Nat} {x2 : QEntry} (hm : 32768 ||| m = m) (h : Does m s t) :
    Does m s (State.takeOut t x1 x2).1 := by
  refine h.after (c := 32768) ?_ hm
  unfold State.takeOut
  repeat' first
    | exact (Eq.refl _ : (_ : Nat) = _)
    | with_reducible exact Does.refl _ _
    | with_reducible refine does_modSeq ?_ ?_
    | split

theorem does_walkOn {m : Nat} {s t : State} {x1 : Nat} (hm : 21906214749153886282 ||| m = m) (h : Does m s t) :
    Does m s (State.walkOn t x1).1 := by
  refine h.after (c := 21906214749153886282) ?_ hm
  unfold State.walkOn
  dsimp only
  repeat' first
    | exact (Eq.refl _ : (_ : Nat) = _)
    | with_reducible exact Does.refl _ _
    | with_reducible refine does_modSeq ?_ ?_
    | with_reducible refine does_resumeWalk ?_ ?_
    | with_reducible refine does_setEntry ?_ ?_
    | with_reducible refine does_takeOut ?_ ?_
    | with_reducible refine Does.of_fst (by assumption) ?_
    | split

theorem does_walkRounds {m : Nat} {s t : State} {x1 : Nat} (hm : 21906214749153886282 ||| m = m) (h : Does m s t) :
    Does m s (State.walkRounds x1 t) := by
  refine h.after (c := 21906214749153886282) ?_ hm
  clear h
  induction x1 generalizing t with
  | zero =>
    unfold State.walkRounds
    repeat' first
      | exact (Eq.refl _ : (_ : Nat) = _)
      | with_reducible exact Does.refl _ _
      | with_reducible refine does_walkOn ?_ ?_
      | with_reducible assumption
      | with_reducible refine Does.foldl (fun _ _ _ => ?_) ?_
      | with_reducible refine Does.foldl_pair (fun _ _ _ => ?_) ?_
      | with_reducible refine Does.of_fst (by assumption) ?_
      | with_reducible refine Does.ite ?_ ?_
      | split
  | succ n ih =>
    unfold State.walkRounds
    try dsimp only
    repeat' first
      | with_reducible refine Does.after (c := 21906214749153886282) ?_ ih ?_
      | exact (Eq.refl _ : (_ : Nat) = _)
      | with_reducible exact Does.refl _ _
      | with_reducible refine does_walkOn ?_ ?_
      | with_reducible assumption
      | with_reducible refine Does.foldl (fun _ _ _ => ?_) ?_
      | with_reducible refine Does.foldl_pair (fun _ _ _ => ?_) ?_
      | with_reducible refine Does.of_fst (by assumption) ?_
      | with_reducible refine Does.ite ?_ ?_
      | split

theorem does_walkSettle {m : Nat} {s t : State}  (hm : 21906214749153886282 ||| m = m) (h : Does m s t) :
    Does m s (State.walkSettle t) := by
  refine h.after (c := 21906214749153886282) ?_ hm
  unfold State.walkSettle
  repeat' first
    | exact (Eq.refl _ : (_ : Nat) = _)
    | with_reducible exact Does.refl _ _
    | with_reducible refine does_walkRounds ?_ ?_
    | with_reducible refine Does.ite ?_ ?_

theorem does_runEntry {m : Nat} {s t : State} {x1 : Nat} {x2 : Nat} {x3 : Nat} (hm : 22771325486250168394 ||| m = m) (h : Does m s t) :
    Does m s (State.runEntry t x1 x2 x3) := by
  refine h.after (c := 22771325486250168394) ?_ hm
  unfold State.runEntry
  dsimp only
  repeat' first
    | exact (Eq.refl _ : (_ : Nat) = _)
    | with_reducible exact Does.refl _ _
    | with_reducible refine does_setEntry ?_ ?_
    | with_reducible refine does_startOp ?_ ?_
    | with_reducible refine does_takeOut ?_ ?_
    | with_reducible refine does_walkSettle ?_ ?_
    | with_reducible refine Does.of_fst (by assumption) ?_
    | split

theorem does_kickOne {m : Nat} {s t : State} {x1 : Nat} {x2 : Nat} (hm : 22771325486250168394 ||| m = m) (h : Does m s t) :
    Does m s (State.kickOne t x1 x2) := by
  refine h.after (c := 22771325486250168394) ?_ hm
  unfold State.kickOne
  dsimp only
  repeat' first
    | exact (Eq.refl _ : (_ : Nat) = _)
    | with_reducible exact Does.refl _ _
    | with_reducible refine does_passFresh ?_ ?_
    | with_reducible refine does_runEntry ?_ ?_
    | with_reducible refine does_setEntry ?_ ?_
    | with_reducible refine Does.ite ?_ ?_
    | split

theorem does_kick {m : Nat} {s t : State} {x1 : Nat} {x2 : Nat} (hm : 22771325486250168394 ||| m = m) (h : Does m s t) :
    Does m s (State.kick t x1 x2) := by
  refine h.after (c := 22771325486250168394) ?_ hm
  unfold State.kick
  repeat' first
    | exact (Eq.refl _ : (_ : Nat) = _)
    | with_reducible exact Does.refl _ _
    | with_reducible refine does_kickOne ?_ ?_
    | with_reducible assumption
    | with_reducible refine Does.foldl (fun _ _ _ => ?_) ?_

theorem does_bufferResume {m : Nat} {s t : State} {x1 : Nat} {x2 : Nat} (hm : 22771325486250168394 ||| m = m) (h : Does m s t) :
    Does m s (State.bufferResume t x1 x2) := by
  refine h.after (c := 22771325486250168394) ?_ hm
  unfold State.bufferResume
  repeat' first
    | exact (Eq.refl _ : (_ : Nat) = _)
    | with_reducible exact Does.refl _ _
    | with_reducible refine does_kick ?_ ?_
    | with_reducible refine does_runEntry ?_ ?_
    | with_reducible refine Does.ite ?_ ?_
    | split

theorem does_drainsRead {m : Nat} {s t : State} {x1 : Nat} (hm : 32768 ||| m = m) (h : Does m s t) :
    Does m s (State.drainsRead t x1) := by
  refine h.after (c := 32768) ?_ hm
  unfold State.drainsRead
  repeat' first
    | exact (Eq.refl _ : (_ : Nat) = _)
    | with_reducible exact Does.refl _ _
    | with_reducible refine does_setQueue ?_ ?_
    | with_reducible assumption
    | with_reducible refine Does.foldl (fun _ _ _ => ?_) ?_

theorem does_fillResume {m : Nat} {s t : State} {x1 : Nat} {x2 : Nat} (hm : 22771325486250168394 ||| m = m) (h : Does m s t) :
    Does m s (State.fillResume t x1 x2) := by
  refine h.after (c := 22771325486250168394) ?_ hm
  unfold State.fillResume
  dsimp only
  repeat' first
    | exact (Eq.refl _ : (_ : Nat) = _)
    | with_reducible exact Does.refl _ _
    | with_reducible refine does_kick ?_ ?_
    | with_reducible refine does_resumeMma ?_ ?_
    | with_reducible refine does_setEntry ?_ ?_
    | with_reducible refine does_walkSettle ?_ ?_
    | with_reducible refine Does.of_fst (by assumption) ?_
    | split

theorem does_opSignal {m : Nat} {s t : State} {x1 : Nat} {x2 : SInstr} (hm : 790530 ||| m = m) (h : Does m s t) :
    Does m s (State.opSignal t x1 x2) := by
  refine h.after (c := 790530) ?_ hm
  unfold State.opSignal
  repeat' first
    | exact (Eq.refl _ : (_ : Nat) = _)
    | with_reducible exact Does.refl _ _
    | with_reducible refine does_signal ?_ ?_
    | with_reducible refine Does.ite ?_ ?_
    | split

theorem does_pairCompare {m : Nat} {s t : State} {x1 : Nat} {x2 : Nat} {x3 : Nat} {x4 : Nat} (hm : 18446744216521179202 ||| m = m) (h : Does m s t) :
    Does m s (State.pairCompare t x1 x2 x3 x4) := by
  refine h.after (c := 18446744216521179202) ?_ hm
  unfold State.pairCompare
  dsimp only
  repeat' first
    | exact (Eq.refl _ : (_ : Nat) = _)
    | with_reducible exact Does.refl _ _
    | with_reducible refine does_addSuspect ?_ ?_
    | with_reducible refine does_igEvent ?_ ?_
    | with_reducible refine does_modSeq ?_ ?_
    | with_reducible refine does_suspectSlice ?_ ?_
    | with_reducible refine Does.ite ?_ ?_
    | split

theorem does_opComplete {m : Nat} {s t : State} {x1 : Nat} {x2 : Nat} (hm : 22771325486250168394 ||| m = m) (h : Does m s t) :
    Does m s (State.opComplete t x1 x2) := by
  refine h.after (c := 22771325486250168394) ?_ hm
  unfold State.opComplete
  dsimp only
  repeat' first
    | exact (Eq.refl _ : (_ : Nat) = _)
    | with_reducible exact Does.refl _ _
    | with_reducible refine does_endWalk ?_ ?_
    | with_reducible refine does_haltQueue ?_ ?_
    | with_reducible refine does_kick ?_ ?_
    | with_reducible refine does_modSeq ?_ ?_
    | with_reducible refine does_opSignal ?_ ?_
    | with_reducible refine does_pairCompare ?_ ?_
    | with_reducible refine does_setQueue ?_ ?_
    | with_reducible refine Does.ite ?_ ?_
    | split

theorem does_openResume {m : Nat} {s t : State} {x1 : Nat} {x2 : Nat} (hm : 22771325486250168394 ||| m = m) (h : Does m s t) :
    Does m s (State.openResume t x1 x2) := by
  refine h.after (c := 22771325486250168394) ?_ hm
  unfold State.openResume
  repeat' first
    | exact (Eq.refl _ : (_ : Nat) = _)
    | with_reducible exact Does.refl _ _
    | with_reducible refine does_drainsRead ?_ ?_
    | with_reducible refine does_kick ?_ ?_
    | with_reducible refine does_runEntry ?_ ?_
    | with_reducible refine Does.ite ?_ ?_
    | split

theorem does_passBefore {m : Nat} {s t : State} {x1 : Nat} {x2 : Option Nat} (hm : 36864 ||| m = m) (h : Does m s t) :
    Does m s (State.passBefore t x1 x2) := by
  refine h.after (c := 36864) ?_ hm
  unfold State.passBefore
  repeat' first
    | exact (Eq.refl _ : (_ : Nat) = _)
    | with_reducible exact Does.refl _ _
    | with_reducible refine does_passWait ?_ ?_
    | with_reducible assumption
    | with_reducible refine Does.foldl (fun _ _ _ => ?_) ?_
    | with_reducible refine Does.foldl_pair (fun _ _ _ => ?_) ?_
    | split

theorem does_scopedResume {m : Nat} {s t : State} {x1 : Nat} {x2 : Nat} (hm : 22771325486250168394 ||| m = m) (h : Does m s t) :
    Does m s (State.scopedResume t x1 x2) := by
  refine h.after (c := 22771325486250168394) ?_ hm
  unfold State.scopedResume
  dsimp only
  repeat' first
    | exact (Eq.refl _ : (_ : Nat) = _)
    | with_reducible exact Does.refl _ _
    | with_reducible refine does_kick ?_ ?_
    | with_reducible refine does_passBefore ?_ ?_
    | with_reducible refine does_passScoped ?_ ?_
    | with_reducible refine Does.ite ?_ ?_
    | split

theorem does_starveLong {m : Nat} {s t : State} {x1 : Nat} {x2 : Nat} (hm : 18446744073713516867 ||| m = m) (h : Does m s t) :
    Does m s (State.starveLong t x1 x2) := by
  refine h.after (c := 18446744073713516867) ?_ hm
  unfold State.starveLong
  dsimp only
  repeat' first
    | exact (Eq.refl _ : (_ : Nat) = _)
    | with_reducible exact Does.refl _ _
    | with_reducible refine does_engEvent ?_ ?_
    | with_reducible refine does_setEntry ?_ ?_
    | with_reducible refine does_waitClk ?_ ?_
    | with_reducible refine Does.ite ?_ ?_
    | split

end Sys2Proof.Machine
end

