-- ==== Sys2Proof/Laws/FrameColl.lean ====
section
/-! SUPPORT. What the operations of Coll change: the mask of the kinds of state each may touch. -/

namespace Sys2Proof.Machine

theorem does_blurBuffers {m : Nat} {s t : State} {x1 : Nat} {x2 : CollEnt} (hm : 18446744348587458568 ||| m = m) (h : Does m s t) :
    Does m s (State.blurBuffers t x1 x2) := by
  refine h.after (c := 18446744348587458568) ?_ hm
  unfold State.blurBuffers
  dsimp only
  repeat' first
    | exact (Eq.refl _ : (_ : Nat) = _)
    | with_reducible exact Does.refl _ _
    | with_reducible refine does_eaPutBoth ?_ ?_
    | with_reducible refine does_freeBytes ?_ ?_
    | with_reducible assumption
    | with_reducible refine Does.foldl (fun _ _ _ => ?_) ?_
    | with_reducible refine Does.foldl_pair (fun _ _ _ => ?_) ?_
    | with_reducible refine Does.of_fst (by assumption) ?_
    | with_reducible refine Does.ite ?_ ?_
    | split

theorem does_modCollQ {m : Nat} {s t : State} {x1 : Nat} {x2 : CollQ → CollQ} (hm : 9007199254740992 ||| m = m) (h : Does m s t) :
    Does m s (State.modCollQ t x1 x2) := by
  refine h.after (c := 9007199254740992) ?_ hm
  unfold State.modCollQ
  repeat' first
    | exact (Eq.refl _ : (_ : Nat) = _)
    | with_reducible exact Does.refl _ _
    | with_reducible refine does_modFabric ?_ ?_

theorem does_modEnt {m : Nat} {s t : State} {x1 : Nat} {x2 : Nat} {x3 : CollEnt → CollEnt} (hm : 9007199254740992 ||| m = m) (h : Does m s t) :
    Does m s (State.modEnt t x1 x2 x3) := by
  refine h.after (c := 9007199254740992) ?_ hm
  unfold State.modEnt
  repeat' first
    | exact (Eq.refl _ : (_ : Nat) = _)
    | with_reducible exact Does.refl _ _
    | with_reducible refine does_modCollQ ?_ ?_
    | with_reducible refine Does.ite ?_ ?_
    | split

theorem does_rankFrame {m : Nat} {s t : State} {x1 : RankGroup} {x2 : Nat} {x3 : CType} {x4 : List Byte} (hm : 18456314222925840450 ||| m = m) (h : Does m s t) :
    Does m s (State.rankFrame t x1 x2 x3 x4) := by
  refine h.after (c := 18456314222925840450) ?_ hm
  unfold State.rankFrame
  repeat' first
    | exact (Eq.refl _ : (_ : Nat) = _)
    | with_reducible exact Does.refl _ _
    | with_reducible refine does_routeFrame ?_ ?_

theorem does_collFail {m : Nat} {s t : State} {x1 : Nat} {x2 : CollEnt} {x3 : Status} {x4 : Bool} {x5 : optParam Bool true} (hm : 18456314497803747402 ||| m = m) (h : Does m s t) :
    Does m s (State.collFail t x1 x2 x3 x4 x5) := by
  refine h.after (c := 18456314497803747402) ?_ hm
  unfold State.collFail
  dsimp only
  repeat' first
    | exact (Eq.refl _ : (_ : Nat) = _)
    | with_reducible exact Does.refl _ _
    | with_reducible refine does_blurBuffers ?_ ?_
    | with_reducible refine does_modCollQ ?_ ?_
    | with_reducible refine does_modEnt ?_ ?_
    | with_reducible refine does_modFabric ?_ ?_
    | with_reducible refine does_raise ?_ ?_
    | with_reducible refine does_rankFrame ?_ ?_
    | with_reducible assumption
    | with_reducible refine Does.foldl (fun _ _ _ => ?_) ?_
    | with_reducible refine Does.foldl_pair (fun _ _ _ => ?_) ?_
    | with_reducible refine Does.ite ?_ ?_
    | split

theorem does_abortReceive {m : Nat} {s t : State} {x1 : Nat} {x2 : Nat} {x3 : List Byte} (hm : 18456314497803747402 ||| m = m) (h : Does m s t) :
    Does m s (State.abortReceive t x1 x2 x3) := by
  refine h.after (c := 18456314497803747402) ?_ hm
  unfold State.abortReceive
  dsimp only
  repeat' first
    | exact (Eq.refl _ : (_ : Nat) = _)
    | with_reducible exact Does.refl _ _
    | with_reducible refine does_collFail ?_ ?_
    | with_reducible refine does_modLink ?_ ?_
    | with_reducible refine does_raise ?_ ?_
    | with_reducible refine does_routeFrame ?_ ?_
    | with_reducible assumption
    | with_reducible refine Does.foldl (fun _ _ _ => ?_) ?_
    | with_reducible refine Does.foldl_pair (fun _ _ _ => ?_) ?_
    | with_reducible refine Does.ite ?_ ?_
    | split

theorem does_collEnd {m : Nat} {s t : State} {x1 : Nat} {x2 : Status} (hm : 18456314497803747402 ||| m = m) (h : Does m s t) :
    Does m s (State.collEnd t x1 x2) := by
  refine h.after (c := 18456314497803747402) ?_ hm
  unfold State.collEnd
  repeat' first
    | exact (Eq.refl _ : (_ : Nat) = _)
    | with_reducible exact Does.refl _ _
    | with_reducible refine does_collFail ?_ ?_
    | with_reducible assumption
    | with_reducible refine Does.foldl (fun _ _ _ => ?_) ?_
    | with_reducible refine Does.foldl_pair (fun _ _ _ => ?_) ?_
    | with_reducible refine Does.ite ?_ ?_
    | split

theorem does_placeContrib {m : Nat} {s t : State} {x1 : Nat} {x2 : CollEnt} {x3 : Nat} {x4 : Nat} {x5 : Nat} {x6 : Nat} {x7 : List Byte} (hm : 18456314497803747402 ||| m = m) (h : Does m s t) :
    Does m s (State.placeContrib t x1 x2 x3 x4 x5 x6 x7) := by
  refine h.after (c := 18456314497803747402) ?_ hm
  unfold State.placeContrib
  dsimp only
  repeat' first
    | exact (Eq.refl _ : (_ : Nat) = _)
    | with_reducible exact Does.refl _ _
    | with_reducible refine does_collFail ?_ ?_
    | with_reducible refine does_eaPutBoth ?_ ?_
    | with_reducible refine does_modEnt ?_ ?_
    | with_reducible refine Does.ite ?_ ?_
    | split

theorem does_sendContrib {m : Nat} {s t : State} {x1 : Nat} {x2 : CollEnt} {x3 : Nat} {x4 : Nat} {x5 : Nat} {x6 : Nat} {x7 : List Byte} {x8 : Nat} (hm : 18456314497803747402 ||| m = m) (h : Does m s t) :
    Does m s (State.sendContrib t x1 x2 x3 x4 x5 x6 x7 x8) := by
  refine h.after (c := 18456314497803747402) ?_ hm
  unfold State.sendContrib
  dsimp only
  repeat' first
    | exact (Eq.refl _ : (_ : Nat) = _)
    | with_reducible exact Does.refl _ _
    | with_reducible refine does_collFail ?_ ?_
    | with_reducible refine does_modEnt ?_ ?_
    | with_reducible refine does_originate ?_ ?_
    | with_reducible refine Does.of_fst (by assumption) ?_
    | split

theorem does_collMismatch {m : Nat} {s t : State} {x1 : Nat} {x2 : CollEnt} (hm : 18456314497803747402 ||| m = m) (h : Does m s t) :
    Does m s (State.collMismatch t x1 x2) := by
  refine h.after (c := 18456314497803747402) ?_ hm
  unfold State.collMismatch
  repeat' first
    | exact (Eq.refl _ : (_ : Nat) = _)
    | with_reducible exact Does.refl _ _
    | with_reducible refine does_collFail ?_ ?_
    | with_reducible refine does_raise ?_ ?_

theorem does_handOver {m : Nat} {s t : State} {x1 : Nat} {x2 : CollEnt} {x3 : Nat} {x4 : Nat} {x5 : EA} {x6 : Nat} (hm : 18456314497803747402 ||| m = m) (h : Does m s t) :
    Does m s (State.handOver t x1 x2 x3 x4 x5 x6) := by
  refine h.after (c := 18456314497803747402) ?_ hm
  unfold State.handOver
  dsimp only
  repeat' first
    | exact (Eq.refl _ : (_ : Nat) = _)
    | with_reducible exact Does.refl _ _
    | with_reducible refine does_modEnt ?_ ?_
    | with_reducible refine does_placeContrib ?_ ?_
    | with_reducible refine does_collMismatch ?_ ?_
    | with_reducible refine does_sendContrib ?_ ?_
    | with_reducible assumption
    | with_reducible refine Does.foldl (fun _ _ _ => ?_) ?_
    | with_reducible refine Does.foldl_pair (fun _ _ _ => ?_) ?_
    | with_reducible refine Does.ite ?_ ?_
    | split

theorem does_collPush {m : Nat} {s t : State} {x1 : Nat} {x2 : Nat} (hm : 18456314497803747402 ||| m = m) (h : Does m s t) :
    Does m s (State.collPush t x1 x2) := by
  refine h.after (c := 18456314497803747402) ?_ hm
  unfold State.collPush
  dsimp only
  repeat' first
    | exact (Eq.refl _ : (_ : Nat) = _)
    | with_reducible exact Does.refl _ _
    | with_reducible refine does_handOver ?_ ?_
    | with_reducible assumption
    | with_reducible refine Does.foldl (fun _ _ _ => ?_) ?_
    | with_reducible refine Does.foldl_pair (fun _ _ _ => ?_) ?_
    | with_reducible refine Does.ite ?_ ?_
    | split

theorem does_takeReady {m : Nat} {s t : State} {x1 : Nat} {x2 : CollEnt} {x3 : ReadyRec} (hm : 18456314497803747402 ||| m = m) (h : Does m s t) :
    Does m s (State.takeReady t x1 x2 x3) := by
  refine h.after (c := 18456314497803747402) ?_ hm
  unfold State.takeReady
  dsimp only
  repeat' first
    | exact (Eq.refl _ : (_ : Nat) = _)
    | with_reducible exact Does.refl _ _
    | with_reducible refine does_collMismatch ?_ ?_
    | with_reducible refine does_collPush ?_ ?_
    | with_reducible refine does_modEnt ?_ ?_
    | with_reducible refine Does.ite ?_ ?_
    | split

theorem does_announce {m : Nat} {s t : State} {x1 : Nat} {x2 : CollEnt} (hm : 18456314497803747402 ||| m = m) (h : Does m s t) :
    Does m s (State.announce t x1 x2) := by
  refine h.after (c := 18456314497803747402) ?_ hm
  unfold State.announce
  dsimp only
  repeat' first
    | exact (Eq.refl _ : (_ : Nat) = _)
    | with_reducible exact Does.refl _ _
    | with_reducible refine does_collPush ?_ ?_
    | with_reducible refine does_rankFrame ?_ ?_
    | with_reducible refine does_takeReady ?_ ?_
    | with_reducible assumption
    | with_reducible refine Does.foldl (fun _ _ _ => ?_) ?_
    | with_reducible refine Does.foldl_pair (fun _ _ _ => ?_) ?_
    | with_reducible refine Does.ite ?_ ?_
    | split

theorem does_collAnswer {m : Nat} {s t : State} {x1 : Nat} {x2 : Nat} {x3 : Nat} {x4 : Nat} {x5 : Nat} {x6 : Nat} {x7 : Status} (hm : 18456314497803747402 ||| m = m) (h : Does m s t) :
    Does m s (State.collAnswer t x1 x2 x3 x4 x5 x6 x7) := by
  refine h.after (c := 18456314497803747402) ?_ hm
  unfold State.collAnswer
  dsimp only
  repeat' first
    | exact (Eq.refl _ : (_ : Nat) = _)
    | with_reducible exact Does.refl _ _
    | with_reducible refine does_collFail ?_ ?_
    | with_reducible refine does_modEnt ?_ ?_
    | with_reducible refine does_sendContrib ?_ ?_
    | with_reducible refine Does.ite ?_ ?_
    | split

theorem does_collCombine {m : Nat} {s t : State} {x1 : Nat} (hm : 18456314497803747402 ||| m = m) (h : Does m s t) :
    Does m s (State.collCombine t x1) := by
  refine h.after (c := 18456314497803747402) ?_ hm
  unfold State.collCombine
  dsimp only
  repeat' first
    | exact (Eq.refl _ : (_ : Nat) = _)
    | with_reducible exact Does.refl _ _
    | with_reducible refine does_bump ?_ ?_
    | with_reducible refine does_collFail ?_ ?_
    | with_reducible refine does_collPush ?_ ?_
    | with_reducible refine does_eaPutBoth ?_ ?_
    | with_reducible refine does_modEnt ?_ ?_
    | with_reducible refine does_vecCount ?_ ?_
    | with_reducible assumption
    | with_reducible refine Does.foldl (fun _ _ _ => ?_) ?_
    | with_reducible refine Does.foldl_pair (fun _ _ _ => ?_) ?_
    | with_reducible refine Does.ite ?_ ?_
    | split

theorem does_collRetire {m : Nat} {s t : State} {x1 : Nat} {x2 : List CollEnt} (hm : 9007199255531522 ||| m = m) (h : Does m s t) :
    Does m s (State.collRetire t x1 x2) := by
  refine h.after (c := 9007199255531522) ?_ hm
  clear h
  induction x2 generalizing t x1 with
  | nil =>
    unfold State.collRetire
    repeat' first
      | exact (Eq.refl _ : (_ : Nat) = _)
      | with_reducible exact Does.refl _ _
      | with_reducible refine does_modCollQ ?_ ?_
      | with_reducible refine does_signal ?_ ?_
      | with_reducible refine Does.ite ?_ ?_
      | split
  | cons r rs ih =>
    unfold State.collRetire
    try dsimp only
    repeat' first
      | with_reducible refine Does.after (c := 9007199255531522) ?_ ih ?_
      | exact (Eq.refl _ : (_ : Nat) = _)
      | with_reducible exact Does.refl _ _
      | with_reducible refine does_modCollQ ?_ ?_
      | with_reducible refine does_signal ?_ ?_
      | with_reducible refine Does.ite ?_ ?_
      | split

theorem does_collComplete {m : Nat} {s t : State} {x1 : Nat} (hm : 9007199255531522 ||| m = m) (h : Does m s t) :
    Does m s (State.collComplete t x1) := by
  refine h.after (c := 9007199255531522) ?_ hm
  unfold State.collComplete
  dsimp only
  repeat' first
    | exact (Eq.refl _ : (_ : Nat) = _)
    | with_reducible exact Does.refl _ _
    | with_reducible refine does_collRetire ?_ ?_
    | with_reducible refine does_modCollQ ?_ ?_
    | with_reducible refine does_modEnt ?_ ?_
    | with_reducible refine does_modFabric ?_ ?_
    | split

theorem does_collPeerLost {m : Nat} {s t : State} {x1 : Nat} (hm : 18456314497803747402 ||| m = m) (h : Does m s t) :
    Does m s (State.collPeerLost t x1) := by
  refine h.after (c := 18456314497803747402) ?_ hm
  unfold State.collPeerLost
  repeat' first
    | exact (Eq.refl _ : (_ : Nat) = _)
    | with_reducible exact Does.refl _ _
    | with_reducible refine does_collFail ?_ ?_
    | with_reducible assumption
    | with_reducible refine Does.foldl (fun _ _ _ => ?_) ?_
    | with_reducible refine Does.foldl_pair (fun _ _ _ => ?_) ?_
    | with_reducible refine Does.ite ?_ ?_
    | split

theorem does_rsignal {m : Nat} {s t : State} {x1 : Nat} {x2 : CollEnt} (hm : 18456314497803751498 ||| m = m) (h : Does m s t) :
    Does m s (State.rsignal t x1 x2) := by
  refine h.after (c := 18456314497803751498) ?_ hm
  unfold State.rsignal
  dsimp only
  repeat' first
    | exact (Eq.refl _ : (_ : Nat) = _)
    | with_reducible exact Does.refl _ _
    | with_reducible refine does_collFail ?_ ?_
    | with_reducible refine does_modEnt ?_ ?_
    | with_reducible refine does_originate ?_ ?_
    | with_reducible refine does_signal ?_ ?_
    | with_reducible refine Does.of_fst (by assumption) ?_
    | with_reducible refine Does.ite ?_ ?_
    | split

theorem does_modGroup {m : Nat} {s t : State} {x1 : Nat} {x2 : RankGroup → RankGroup} (hm : 9007199254740992 ||| m = m) (h : Does m s t) :
    Does m s (State.modGroup t x1 x2) := by
  refine h.after (c := 9007199254740992) ?_ hm
  unfold State.modGroup
  repeat' first
    | exact (Eq.refl _ : (_ : Nat) = _)
    | with_reducible exact Does.refl _ _
    | with_reducible refine does_modFabric ?_ ?_

theorem does_takeSeq {m : Nat} {s t : State} {x1 : Nat} {x2 : Nat} {x3 : Nat} (hm : 9007199254740992 ||| m = m) (h : Does m s t) :
    Does m s (State.takeSeq t x1 x2 x3).1 := by
  refine h.after (c := 9007199254740992) ?_ hm
  unfold State.takeSeq
  dsimp only
  repeat' first
    | exact (Eq.refl _ : (_ : Nat) = _)
    | with_reducible exact Does.refl _ _
    | with_reducible refine does_modGroup ?_ ?_
    | with_reducible refine Does.ite_fst ?_ ?_
    | split

theorem does_collStart {m : Nat} {s t : State} {x1 : Nat} {x2 : Nat} (hm : 18456314497803784266 ||| m = m) (h : Does m s t) :
    Does m s (State.collStart t x1 x2) := by
  refine h.after (c := 18456314497803784266) ?_ hm
  unfold State.collStart
  dsimp only
  repeat' first
    | exact (Eq.refl _ : (_ : Nat) = _)
    | with_reducible exact Does.refl _ _
    | with_reducible refine does_announce ?_ ?_
    | with_reducible refine does_collFail ?_ ?_
    | with_reducible refine does_modCollQ ?_ ?_
    | with_reducible refine does_rsignal ?_ ?_
    | with_reducible refine does_settleWaits ?_ ?_
    | with_reducible refine does_takeCtr ?_ ?_
    | with_reducible refine does_takeSeq ?_ ?_
    | with_reducible refine Does.of_fst (by assumption) ?_
    | with_reducible refine Does.ite ?_ ?_
    | split

theorem does_collStep {m : Nat} {s t : State} {x1 : Nat} (hm : 9007199254740992 ||| m = m) (h : Does m s t) :
    Does m s (State.collStep t x1) := by
  refine h.after (c := 9007199254740992) ?_ hm
  unfold State.collStep
  repeat' first
    | exact (Eq.refl _ : (_ : Nat) = _)
    | with_reducible exact Does.refl _ _
    | with_reducible refine does_modCollQ ?_ ?_
    | with_reducible assumption
    | with_reducible refine Does.foldl (fun _ _ _ => ?_) ?_
    | with_reducible refine Does.foldl_pair (fun _ _ _ => ?_) ?_
    | with_reducible refine Does.ite ?_ ?_
    | split

theorem does_contribBad {m : Nat} {s t : State} {x1 : Nat} {x2 : CollEnt} {x3 : Msg} {x4 : Nat} {x5 : Nat} (hm : 18456314497803747402 ||| m = m) (h : Does m s t) :
    Does m s (State.contribBad t x1 x2 x3 x4 x5) := by
  refine h.after (c := 18456314497803747402) ?_ hm
  unfold State.contribBad
  dsimp only
  repeat' first
    | exact (Eq.refl _ : (_ : Nat) = _)
    | with_reducible exact Does.refl _ _
    | with_reducible refine does_collFail ?_ ?_
    | with_reducible refine does_modEnt ?_ ?_
    | with_reducible refine does_noteAnswer ?_ ?_
    | with_reducible refine does_raise ?_ ?_
    | with_reducible refine does_respond ?_ ?_
    | with_reducible refine Does.ite ?_ ?_
    | split

theorem does_contribTake {m : Nat} {s t : State} {x1 : Msg} (hm : 18456314497803747402 ||| m = m) (h : Does m s t) :
    Does m s (State.contribTake t x1) := by
  refine h.after (c := 18456314497803747402) ?_ hm
  unfold State.contribTake
  dsimp only
  repeat' first
    | exact (Eq.refl _ : (_ : Nat) = _)
    | with_reducible exact Does.refl _ _
    | with_reducible refine does_collMismatch ?_ ?_
    | with_reducible refine does_collPush ?_ ?_
    | with_reducible refine does_contribBad ?_ ?_
    | with_reducible refine does_noteAnswer ?_ ?_
    | with_reducible refine does_placeContrib ?_ ?_
    | with_reducible refine does_respond ?_ ?_
    | with_reducible refine Does.ite ?_ ?_
    | split

theorem does_cqArm {m : Nat} {s t : State} {x1 : Nat} {x2 : Word} (hm : 23068000241625858122 ||| m = m) (h : Does m s t) :
    Does m s (State.cqArm t x1 x2) := by
  refine h.after (c := 23068000241625858122) ?_ hm
  unfold State.cqArm
  dsimp only
  repeat' first
    | exact (Eq.refl _ : (_ : Nat) = _)
    | with_reducible exact Does.refl _ _
    | with_reducible refine does_devRead ?_ ?_
    | with_reducible refine does_ends ?_ ?_
    | with_reducible refine does_modCollQ ?_ ?_
    | with_reducible refine does_setReg ?_ ?_
    | with_reducible refine Does.ite ?_ ?_
    | split

theorem does_cqReset {m : Nat} {s t : State} {x1 : Nat} (hm : 4620693217682128896 ||| m = m) (h : Does m s t) :
    Does m s (State.cqReset t x1) := by
  refine h.after (c := 4620693217682128896) ?_ hm
  unfold State.cqReset
  dsimp only
  repeat' first
    | exact (Eq.refl _ : (_ : Nat) = _)
    | with_reducible exact Does.refl _ _
    | with_reducible refine does_ends ?_ ?_
    | with_reducible refine does_modCollQ ?_ ?_
    | with_reducible refine Does.ite ?_ ?_
    | split

theorem does_groupWrite {m : Nat} {s t : State} {x1 : Nat} {x2 : Word} (hm : 4620693217682128898 ||| m = m) (h : Does m s t) :
    Does m s (State.groupWrite t x1 x2) := by
  refine h.after (c := 4620693217682128898) ?_ hm
  unfold State.groupWrite
  dsimp only
  repeat' first
    | exact (Eq.refl _ : (_ : Nat) = _)
    | with_reducible exact Does.refl _ _
    | with_reducible refine does_ends ?_ ?_
    | with_reducible refine does_modGroup ?_ ?_
    | with_reducible refine does_setReg ?_ ?_
    | with_reducible assumption
    | with_reducible refine Does.foldl (fun _ _ _ => ?_) ?_
    | with_reducible refine Does.foldl_pair (fun _ _ _ => ?_) ?_
    | with_reducible refine Does.ite ?_ ?_
    | split

theorem does_readyReceive {m : Nat} {s t : State} {x1 : Nat} {x2 : Nat} {x3 : List Byte} (hm : 18456314497803747402 ||| m = m) (h : Does m s t) :
    Does m s (State.readyReceive t x1 x2 x3) := by
  refine h.after (c := 18456314497803747402) ?_ hm
  unfold State.readyReceive
  dsimp only
  repeat' first
    | exact (Eq.refl _ : (_ : Nat) = _)
    | with_reducible exact Does.refl _ _
    | with_reducible refine does_modFabric ?_ ?_
    | with_reducible refine does_modLink ?_ ?_
    | with_reducible refine does_routeFrame ?_ ?_
    | with_reducible refine does_takeReady ?_ ?_
    | with_reducible assumption
    | with_reducible refine Does.foldl (fun _ _ _ => ?_) ?_
    | with_reducible refine Does.foldl_pair (fun _ _ _ => ?_) ?_
    | with_reducible refine Does.ite ?_ ?_
    | split

end Sys2Proof.Machine
end

