-- ==== Sys2Proof/Laws/FrameRowOps.lean ====
section
/-! SUPPORT. What the operations of RowOps change: the mask of the kinds of state each may touch. -/

namespace Sys2Proof.Machine

theorem does_modRowSlot {m : Nat} {s t : State} {x1 : Nat} {x2 : Nat} {x3 : RowSlot → RowSlot} (hm : 134217728 ||| m = m) (h : Does m s t) :
    Does m s (State.modRowSlot t x1 x2 x3) := by
  refine h.after (c := 134217728) ?_ hm
  unfold State.modRowSlot
  repeat' first
    | exact (Eq.refl _ : (_ : Nat) = _)
    | with_reducible exact Does.refl _ _
    | with_reducible refine does_set_rowSlots ?_ ?_

theorem does_rowFinishFail {m : Nat} {s t : State} {x1 : Nat} {x2 : Nat} (hm : 18446744073847701570 ||| m = m) (h : Does m s t) :
    Does m s (State.rowFinishFail t x1 x2) := by
  refine h.after (c := 18446744073847701570) ?_ hm
  unfold State.rowFinishFail
  dsimp only
  repeat' first
    | exact (Eq.refl _ : (_ : Nat) = _)
    | with_reducible exact Does.refl _ _
    | with_reducible refine does_modRowSlot ?_ ?_
    | with_reducible refine does_raise ?_ ?_
    | with_reducible refine Does.ite ?_ ?_
    | split

theorem does_rowFail {m : Nat} {s t : State} {x1 : Nat} {x2 : Nat} {x3 : Status} {x4 : Nat} {x5 : Nat} (hm : 18446744073847701570 ||| m = m) (h : Does m s t) :
    Does m s (State.rowFail t x1 x2 x3 x4 x5) := by
  refine h.after (c := 18446744073847701570) ?_ hm
  unfold State.rowFail
  repeat' first
    | exact (Eq.refl _ : (_ : Nat) = _)
    | with_reducible exact Does.refl _ _
    | with_reducible refine does_modRowSlot ?_ ?_
    | with_reducible refine does_rowFinishFail ?_ ?_

theorem does_rowAbort {m : Nat} {s t : State} {x1 : Nat} {x2 : Nat} (hm : 23058430092275089474 ||| m = m) (h : Does m s t) :
    Does m s (State.rowAbort t x1 x2) := by
  refine h.after (c := 23058430092275089474) ?_ hm
  unfold State.rowAbort
  repeat' first
    | exact (Eq.refl _ : (_ : Nat) = _)
    | with_reducible exact Does.refl _ _
    | with_reducible refine does_ends ?_ ?_
    | with_reducible refine does_modRowSlot ?_ ?_
    | with_reducible refine does_rowFinishFail ?_ ?_
    | with_reducible refine Does.ite ?_ ?_

theorem does_rowAdvance {m : Nat} {s t : State} {x1 : Nat} {x2 : Nat} {x3 : Nat} (hm : 18447307024077951050 ||| m = m) (h : Does m s t) :
    Does m s (State.rowAdvance t x1 x2 x3) := by
  refine h.after (c := 18447307024077951050) ?_ hm
  clear h
  induction x3 generalizing t x1 x2 with
  | zero =>
    unfold State.rowAdvance
    repeat' first
      | exact (Eq.refl _ : (_ : Nat) = _)
      | with_reducible exact Does.refl _ _
      | with_reducible refine does_devRead ?_ ?_
      | with_reducible refine does_modRowSlot ?_ ?_
      | with_reducible refine does_rowFail ?_ ?_
      | with_reducible refine does_signal ?_ ?_
      | with_reducible refine Does.of_fst (by assumption) ?_
      | with_reducible refine Does.ite ?_ ?_
      | split
  | succ n ih =>
    unfold State.rowAdvance
    try dsimp only
    repeat' first
      | with_reducible refine Does.after (c := 18447307024077951050) ?_ ih ?_
      | exact (Eq.refl _ : (_ : Nat) = _)
      | with_reducible exact Does.refl _ _
      | with_reducible refine does_devRead ?_ ?_
      | with_reducible refine does_modRowSlot ?_ ?_
      | with_reducible refine does_rowFail ?_ ?_
      | with_reducible refine does_signal ?_ ?_
      | with_reducible refine Does.of_fst (by assumption) ?_
      | with_reducible refine Does.ite ?_ ?_
      | split

theorem does_rowGo {m : Nat} {s t : State} {x1 : Nat} {x2 : Nat} {x3 : Word} (hm : 23058993042505338954 ||| m = m) (h : Does m s t) :
    Does m s (State.rowGo t x1 x2 x3) := by
  refine h.after (c := 23058993042505338954) ?_ hm
  unfold State.rowGo
  dsimp only
  repeat' first
    | exact (Eq.refl _ : (_ : Nat) = _)
    | with_reducible exact Does.refl _ _
    | with_reducible refine does_ends ?_ ?_
    | with_reducible refine does_modRowSlot ?_ ?_
    | with_reducible refine does_rowAdvance ?_ ?_
    | with_reducible refine does_setReg ?_ ?_
    | with_reducible refine Does.ite ?_ ?_

theorem does_putRow {m : Nat} {s t : State} {x1 : StackLoc} {x2 : List Byte} {x3 : List Byte} (hm : 8 ||| m = m) (h : Does m s t) :
    Does m s (State.putRow t x1 x2 x3) := by
  refine h.after (c := 8) ?_ hm
  unfold State.putRow
  dsimp only
  repeat' first
    | exact (Eq.refl _ : (_ : Nat) = _)
    | with_reducible exact Does.refl _ _
    | with_reducible refine does_wrMem ?_ ?_

theorem does_rowBreak {m : Nat} {s t : State} {x1 : StackLoc} {x2 : Nat} (hm : 8388610 ||| m = m) (h : Does m s t) :
    Does m s (State.rowBreak t x1 x2) := by
  refine h.after (c := 8388610) ?_ hm
  unfold State.rowBreak
  dsimp only
  repeat' first
    | exact (Eq.refl _ : (_ : Nat) = _)
    | with_reducible exact Does.refl _ _
    | with_reducible refine does_bump ?_ ?_
    | with_reducible refine does_modStack ?_ ?_
    | with_reducible refine Does.ite ?_ ?_

theorem does_srcFix {m : Nat} {s t : State} {x1 : Nat} {x2 : StackLoc} (hm : 18447307023943729226 ||| m = m) (h : Does m s t) :
    Does m s (State.srcFix t x1 x2).1 := by
  refine h.after (c := 18447307023943729226) ?_ hm
  unfold State.srcFix
  dsimp only
  repeat' first
    | exact (Eq.refl _ : (_ : Nat) = _)
    | with_reducible exact Does.refl _ _
    | with_reducible refine does_bump ?_ ?_
    | with_reducible refine does_devRead ?_ ?_
    | with_reducible refine does_rowEvent ?_ ?_
    | with_reducible refine Does.ite_fst ?_ ?_

theorem does_withSeal {m : Nat} {s t : State} {x1 : StackLoc} {x2 : Bool} {x3 x4 : Nat} {x5 : State → State} (hm : 18446744073730261058 ||| m = m)
    (hg : ∀ u, Does m s u → Does m s (x5 u)) (h : Does m s t) :
    Does m s (State.withSeal t x1 x2 x3 x4 x5).st := by
  unfold State.withSeal
  repeat' first
    | exact lor_trans (Eq.refl _ : _ ||| 18446744073730261058 = _) hm
    | with_reducible exact h
    | with_reducible refine does_raise ?_ ?_
    | with_reducible refine does_seal ?_ ?_
    | with_reducible refine Does.of_some (by assumption) (fun _ he => does_makeStale ?_ he ?_)
    | apply hg
    | split

theorem does_rowApply {m : Nat} {s t : State} {x1 : Nat} {x2 : Nat} {x3 : RowEntry} {x4 : RowKind} {x5 : Nat} (hm : 18447307023960506442 ||| m = m) (h : Does m s t) :
    Does m s (State.rowApply t x1 x2 x3 x4 x5).st := by
  refine h.after (c := 18447307023960506442) ?_ hm
  unfold State.rowApply
  dsimp only
  repeat' first
    | exact (Eq.refl _ : (_ : Nat) = _)
    | with_reducible exact Does.refl _ _
    | with_reducible refine does_clrMem ?_ ?_
    | with_reducible refine does_putRow ?_ ?_
    | with_reducible refine does_rowBreak ?_ ?_
    | with_reducible refine does_seal ?_ ?_
    | with_reducible refine does_srcFix ?_ ?_
    | with_reducible refine does_withSeal ?_ (fun _ _ => ?_) ?_
    | with_reducible refine does_wrMem ?_ ?_
    | with_reducible assumption
    | with_reducible refine Does.of_fst (by assumption) ?_
    | with_reducible refine Does.ite_fst ?_ ?_
    | split

theorem does_rowComplete {m : Nat} {s t : State} {x1 : Nat} {x2 : Nat} (hm : 18447307024077951050 ||| m = m) (h : Does m s t) :
    Does m s (State.rowComplete t x1 x2) := by
  refine h.after (c := 18447307024077951050) ?_ hm
  unfold State.rowComplete
  dsimp only
  repeat' first
    | exact (Eq.refl _ : (_ : Nat) = _)
    | with_reducible exact Does.refl _ _
    | with_reducible refine does_bump ?_ ?_
    | with_reducible refine does_modRowSlot ?_ ?_
    | with_reducible refine does_rowAdvance ?_ ?_
    | with_reducible refine does_rowFinishFail ?_ ?_
    | with_reducible refine Does.ite ?_ ?_
    | split

theorem does_rowDispatch {m : Nat} {s t : State} {x1 : Nat} {x2 : Nat} {x3 : RowKind} (hm : 18447307024094728266 ||| m = m) (h : Does m s t) :
    Does m s (State.rowDispatch t x1 x2 x3) := by
  refine h.after (c := 18447307024094728266) ?_ hm
  unfold State.rowDispatch
  dsimp only
  repeat' first
    | exact (Eq.refl _ : (_ : Nat) = _)
    | with_reducible exact Does.refl _ _
    | with_reducible refine does_modRowSlot ?_ ?_
    | with_reducible refine does_rowAdvance ?_ ?_
    | with_reducible refine does_rowApply ?_ ?_
    | with_reducible refine does_rowFail ?_ ?_
    | with_reducible refine does_translate ?_ ?_
    | with_reducible assumption
    | with_reducible refine Does.foldl (fun _ _ _ => ?_) ?_
    | with_reducible refine Does.foldl_pair (fun _ _ _ => ?_) ?_
    | with_reducible refine Does.of_fst (by assumption) ?_
    | with_reducible refine Does.ite ?_ ?_
    | split

end Sys2Proof.Machine
end

