-- ==== Sys2Proof/Laws/FrameSeq.lean ====
section
/-! SUPPORT. What the operations of Seq change: the mask of the kinds of state each may touch. -/

namespace Sys2Proof.Machine

theorem does_abortDone {m : Nat} {s t : State} {x1 : Nat} (hm : 32768 ||| m = m) (h : Does m s t) :
    Does m s (State.abortDone t x1) := by
  refine h.after (c := 32768) ?_ hm
  unfold State.abortDone
  repeat' first
    | exact (Eq.refl _ : (_ : Nat) = _)
    | with_reducible exact Does.refl _ _
    | with_reducible refine does_modSeq ?_ ?_
    | with_reducible refine Does.ite ?_ ?_

theorem does_arrCtrlWrite {m : Nat} {s t : State} {x1 : Nat} {x2 : Nat} {x3 : Word} (hm : 4611686293305294848 ||| m = m) (h : Does m s t) :
    Does m s (State.arrCtrlWrite t x1 x2 x3) := by
  refine h.after (c := 4611686293305294848) ?_ hm
  unfold State.arrCtrlWrite
  repeat' first
    | exact (Eq.refl _ : (_ : Nat) = _)
    | with_reducible exact Does.refl _ _
    | with_reducible refine does_closeAll ?_ ?_
    | with_reducible refine does_ends ?_ ?_
    | with_reducible refine Does.ite ?_ ?_

theorem does_countStall {m : Nat} {s t : State} {x1 : Nat} (hm : 2 ||| m = m) (h : Does m s t) :
    Does m s (State.countStall t x1) := by
  refine h.after (c := 2) ?_ hm
  unfold State.countStall
  repeat' first
    | exact (Eq.refl _ : (_ : Nat) = _)
    | with_reducible exact Does.refl _ _
    | with_reducible refine does_bump ?_ ?_
    | split

theorem does_seqAbort {m : Nat} {s t : State} {x1 : Nat} (hm : 19311497194652860490 ||| m = m) (h : Does m s t) :
    Does m s (State.seqAbort t x1) := by
  refine h.after (c := 19311497194652860490) ?_ hm
  unfold State.seqAbort
  dsimp only
  repeat' first
    | exact (Eq.refl _ : (_ : Nat) = _)
    | with_reducible exact Does.refl _ _
    | with_reducible refine does_countStall ?_ ?_
    | with_reducible refine does_modSeq ?_ ?_
    | with_reducible refine does_setQueue ?_ ?_
    | with_reducible refine does_trapResolve ?_ ?_
    | with_reducible assumption
    | with_reducible refine Does.foldl (fun _ _ _ => ?_) ?_

theorem does_issuedAt {m : Nat} {s t : State} {x1 : Nat} {x2 : Nat} (hm : 32768 ||| m = m) (h : Does m s t) :
    Does m s (State.issuedAt t x1 x2) := by
  refine h.after (c := 32768) ?_ hm
  unfold State.issuedAt
  repeat' first
    | exact (Eq.refl _ : (_ : Nat) = _)
    | with_reducible exact Does.refl _ _
    | with_reducible refine does_modSeq ?_ ?_

theorem does_issuedNext {m : Nat} {s t : State} {x1 : Nat} (hm : 32768 ||| m = m) (h : Does m s t) :
    Does m s (State.issuedNext t x1) := by
  refine h.after (c := 32768) ?_ hm
  unfold State.issuedNext
  repeat' first
    | exact (Eq.refl _ : (_ : Nat) = _)
    | with_reducible exact Does.refl _ _
    | with_reducible refine does_issuedAt ?_ ?_

theorem does_seqWait {m : Nat} {s t : State} {x1 : Nat} {x2 : SeqWait} (hm : 32768 ||| m = m) (h : Does m s t) :
    Does m s (State.seqWait t x1 x2) := by
  refine h.after (c := 32768) ?_ hm
  unfold State.seqWait
  repeat' first
    | exact (Eq.refl _ : (_ : Nat) = _)
    | with_reducible exact Does.refl _ _
    | with_reducible refine does_modSeq ?_ ?_

theorem does_enqueue {m : Nat} {s t : State} {x1 : Nat} {x2 : Nat} {x3 : SInstr} {x4 : Nat} (hm : 22771325486250168394 ||| m = m) (h : Does m s t) :
    Does m s (State.enqueue t x1 x2 x3 x4) := by
  refine h.after (c := 22771325486250168394) ?_ hm
  unfold State.enqueue
  dsimp only
  repeat' first
    | exact (Eq.refl _ : (_ : Nat) = _)
    | with_reducible exact Does.refl _ _
    | with_reducible refine does_issuedNext ?_ ?_
    | with_reducible refine does_kick ?_ ?_
    | with_reducible refine does_modSeq ?_ ?_
    | with_reducible refine does_seqWait ?_ ?_
    | with_reducible refine Does.ite ?_ ?_

theorem does_issueRelease {m : Nat} {s t : State} {x1 : Nat} {x2 : SInstr} (hm : 21906214749153886282 ||| m = m) (h : Does m s t) :
    Does m s (State.issueRelease t x1 x2) := by
  refine h.after (c := 21906214749153886282) ?_ hm
  unfold State.issueRelease
  dsimp only
  repeat' first
    | exact (Eq.refl _ : (_ : Nat) = _)
    | with_reducible exact Does.refl _ _
    | with_reducible refine does_issuedNext ?_ ?_
    | with_reducible refine does_releaseTiles ?_ ?_
    | with_reducible refine does_walkSettle ?_ ?_
    | with_reducible refine Does.ite ?_ ?_

theorem does_pushStart {m : Nat} {s t : State} {x1 : Nat} {x2 : Nat} {x3 : Nat} (hm : 32768 ||| m = m) (h : Does m s t) :
    Does m s (State.pushStart t x1 x2 x3) := by
  refine h.after (c := 32768) ?_ hm
  unfold State.pushStart
  repeat' first
    | exact (Eq.refl _ : (_ : Nat) = _)
    | with_reducible exact Does.refl _ _
    | with_reducible refine does_modSeq ?_ ?_
    | with_reducible assumption
    | with_reducible refine Does.foldl (fun _ _ _ => ?_) ?_

theorem does_issueStart {m : Nat} {s t : State} {x1 : Nat} {x2 : SInstr} (hm : 18446744073713516610 ||| m = m) (h : Does m s t) :
    Does m s (State.issueStart t x1 x2) := by
  refine h.after (c := 18446744073713516610) ?_ hm
  unfold State.issueStart
  repeat' first
    | exact (Eq.refl _ : (_ : Nat) = _)
    | with_reducible exact Does.refl _ _
    | with_reducible refine does_issuedNext ?_ ?_
    | with_reducible refine does_pushStart ?_ ?_
    | with_reducible refine does_seqFault ?_ ?_
    | with_reducible refine does_seqWait ?_ ?_
    | with_reducible refine Does.ite ?_ ?_
    | split

theorem does_issueWait {m : Nat} {s t : State} {x1 : Nat} {x2 : SInstr} {x3 : Bool} (hm : 18446744073713520706 ||| m = m) (h : Does m s t) :
    Does m s (State.issueWait t x1 x2 x3) := by
  refine h.after (c := 18446744073713520706) ?_ hm
  unfold State.issueWait
  dsimp only
  repeat' first
    | exact (Eq.refl _ : (_ : Nat) = _)
    | with_reducible exact Does.refl _ _
    | with_reducible refine does_issuedNext ?_ ?_
    | with_reducible refine does_seqFault ?_ ?_
    | with_reducible refine does_seqWait ?_ ?_
    | with_reducible refine does_settleWaits ?_ ?_
    | with_reducible refine does_takeCtr ?_ ?_
    | with_reducible refine Does.ite ?_ ?_
    | split

theorem does_setIx {m : Nat} {s t : State} {x1 : Nat} {x2 : Nat} {x3 : Nat} (hm : 32768 ||| m = m) (h : Does m s t) :
    Does m s (State.setIx t x1 x2 x3) := by
  refine h.after (c := 32768) ?_ hm
  unfold State.setIx
  repeat' first
    | exact (Eq.refl _ : (_ : Nat) = _)
    | with_reducible exact Does.refl _ _
    | with_reducible refine does_modSeq ?_ ?_

theorem does_carryOut {m : Nat} {s t : State} {x1 : Nat} {x2 : SInstr} {x3 : Nat} (hm : 22771325486250168394 ||| m = m) (h : Does m s t) :
    Does m s (State.carryOut t x1 x2 x3) := by
  refine h.after (c := 22771325486250168394) ?_ hm
  unfold State.carryOut
  dsimp only
  repeat' first
    | exact (Eq.refl _ : (_ : Nat) = _)
    | with_reducible exact Does.refl _ _
    | with_reducible refine does_enqueue ?_ ?_
    | with_reducible refine does_issueRelease ?_ ?_
    | with_reducible refine does_issueStart ?_ ?_
    | with_reducible refine does_issueWait ?_ ?_
    | with_reducible refine does_issuedAt ?_ ?_
    | with_reducible refine does_issuedNext ?_ ?_
    | with_reducible refine does_modSeq ?_ ?_
    | with_reducible refine does_seqWait ?_ ?_
    | with_reducible refine does_setCtr ?_ ?_
    | with_reducible refine does_setIx ?_ ?_
    | with_reducible refine does_signal ?_ ?_
    | with_reducible refine Does.ite ?_ ?_
    | split

theorem does_fenceResume {m : Nat} {s t : State} {x1 : Nat} (hm : 32768 ||| m = m) (h : Does m s t) :
    Does m s (State.fenceResume t x1) := by
  refine h.after (c := 32768) ?_ hm
  unfold State.fenceResume
  repeat' first
    | exact (Eq.refl _ : (_ : Nat) = _)
    | with_reducible exact Does.refl _ _
    | with_reducible refine does_issuedNext ?_ ?_
    | with_reducible refine Does.ite ?_ ?_
    | split

theorem does_seqEvent {m : Nat} {s t : State} {x1 : Nat} {x2 : Nat} (hm : 18446744073713483842 ||| m = m) (h : Does m s t) :
    Does m s (State.seqEvent t x1 x2) := by
  refine h.after (c := 18446744073713483842) ?_ hm
  unfold State.seqEvent
  repeat' first
    | exact (Eq.refl _ : (_ : Nat) = _)
    | with_reducible exact Does.refl _ _
    | with_reducible refine does_raise ?_ ?_

theorem does_issue {m : Nat} {s t : State} {x1 : Nat} {x2 : PmRead} {x3 : SOp} (hm : 22771325486250168394 ||| m = m) (h : Does m s t) :
    Does m s (State.issue t x1 x2 x3) := by
  refine h.after (c := 22771325486250168394) ?_ hm
  unfold State.issue
  dsimp only
  repeat' first
    | exact (Eq.refl _ : (_ : Nat) = _)
    | with_reducible exact Does.refl _ _
    | with_reducible refine does_carryOut ?_ ?_
    | with_reducible refine does_modSeq ?_ ?_
    | with_reducible refine does_seqEvent ?_ ?_
    | with_reducible refine does_seqFault ?_ ?_
    | with_reducible refine Does.ite ?_ ?_
    | split

theorem does_issueResume {m : Nat} {s t : State} {x1 : Nat} (hm : 22771325486250168394 ||| m = m) (h : Does m s t) :
    Does m s (State.issueResume t x1) := by
  refine h.after (c := 22771325486250168394) ?_ hm
  unfold State.issueResume
  dsimp only
  repeat' first
    | exact (Eq.refl _ : (_ : Nat) = _)
    | with_reducible exact Does.refl _ _
    | with_reducible refine does_countStall ?_ ?_
    | with_reducible refine does_enqueue ?_ ?_
    | with_reducible refine Does.ite ?_ ?_
    | split

theorem does_pmAddrWrite {m : Nat} {s t : State} {x1 : Nat} {x2 : Word} (hm : 4611686018427387906 ||| m = m) (h : Does m s t) :
    Does m s (State.pmAddrWrite t x1 x2) := by
  refine h.after (c := 4611686018427387906) ?_ hm
  unfold State.pmAddrWrite
  repeat' first
    | exact (Eq.refl _ : (_ : Nat) = _)
    | with_reducible exact Does.refl _ _
    | with_reducible refine does_ends ?_ ?_
    | with_reducible refine does_setReg ?_ ?_
    | with_reducible refine Does.ite ?_ ?_

theorem does_pmStatus {m : Nat} {s t : State} {x1 : Nat} {x2 : Status} (hm : 2 ||| m = m) (h : Does m s t) :
    Does m s (State.pmStatus t x1 x2) := by
  refine h.after (c := 2) ?_ hm
  unfold State.pmStatus
  repeat' first
    | exact (Eq.refl _ : (_ : Nat) = _)
    | with_reducible exact Does.refl _ _
    | with_reducible refine does_setFld ?_ ?_

theorem does_pmCtrlWrite {m : Nat} {s t : State} {x1 : Nat} {x2 : Word} (hm : 4611686018427420674 ||| m = m) (h : Does m s t) :
    Does m s (State.pmCtrlWrite t x1 x2) := by
  refine h.after (c := 4611686018427420674) ?_ hm
  unfold State.pmCtrlWrite
  dsimp only
  repeat' first
    | exact (Eq.refl _ : (_ : Nat) = _)
    | with_reducible exact Does.refl _ _
    | with_reducible refine does_ends ?_ ?_
    | with_reducible refine does_modSeq ?_ ?_
    | with_reducible refine does_pmStatus ?_ ?_
    | with_reducible refine does_setFld ?_ ?_
    | with_reducible refine does_setReg ?_ ?_
    | with_reducible refine Does.ite ?_ ?_

theorem does_seqCtrlWrite {m : Nat} {s t : State} {x1 : Nat} {x2 : Word} (hm : 23923183213080248394 ||| m = m) (h : Does m s t) :
    Does m s (State.seqCtrlWrite t x1 x2) := by
  refine h.after (c := 23923183213080248394) ?_ hm
  unfold State.seqCtrlWrite
  dsimp only
  repeat' first
    | exact (Eq.refl _ : (_ : Nat) = _)
    | with_reducible exact Does.refl _ _
    | with_reducible refine does_ends ?_ ?_
    | with_reducible refine does_modSeq ?_ ?_
    | with_reducible refine does_seqAbort ?_ ?_
    | with_reducible refine does_setReg ?_ ?_
    | with_reducible refine Does.ite ?_ ?_

theorem does_seqStartWrite {m : Nat} {s t : State} {x1 : Nat} {x2 : Word} (hm : 4611686018427420672 ||| m = m) (h : Does m s t) :
    Does m s (State.seqStartWrite t x1 x2) := by
  refine h.after (c := 4611686018427420672) ?_ hm
  unfold State.seqStartWrite
  repeat' first
    | exact (Eq.refl _ : (_ : Nat) = _)
    | with_reducible exact Does.refl _ _
    | with_reducible refine does_ends ?_ ?_
    | with_reducible refine does_pushStart ?_ ?_
    | with_reducible refine Does.ite ?_ ?_

theorem does_sbCfgWrite {m : Nat} {s t : State} {x1 : Nat} {x2 : Word} (hm : 4611686018427453442 ||| m = m) (h : Does m s t) :
    Does m s (State.sbCfgWrite t x1 x2) := by
  refine h.after (c := 4611686018427453442) ?_ hm
  unfold State.sbCfgWrite
  dsimp only
  repeat' first
    | exact (Eq.refl _ : (_ : Nat) = _)
    | with_reducible exact Does.refl _ _
    | with_reducible refine does_ends ?_ ?_
    | with_reducible refine does_modRegion ?_ ?_
    | with_reducible refine does_setReg ?_ ?_
    | with_reducible refine Does.ite ?_ ?_

theorem does_pmLoadDone {m : Nat} {s t : State} {x1 : Nat} (hm : 18447307023943761994 ||| m = m) (h : Does m s t) :
    Does m s (State.pmLoadDone t x1) := by
  refine h.after (c := 18447307023943761994) ?_ hm
  unfold State.pmLoadDone
  dsimp only
  repeat' first
    | exact (Eq.refl _ : (_ : Nat) = _)
    | with_reducible exact Does.refl _ _
    | with_reducible refine does_devRead ?_ ?_
    | with_reducible refine does_modSeq ?_ ?_
    | with_reducible refine does_pmStatus ?_ ?_
    | with_reducible assumption
    | with_reducible refine Does.foldl (fun _ _ _ => ?_) ?_
    | with_reducible refine Does.foldl_pair (fun _ _ _ => ?_) ?_
    | with_reducible refine Does.of_fst (by assumption) ?_
    | with_reducible refine Does.ite ?_ ?_
    | split

theorem does_pmLoadStart {m : Nat} {s t : State} {x1 : Nat} (hm : 32768 ||| m = m) (h : Does m s t) :
    Does m s (State.pmLoadStart t x1) := by
  refine h.after (c := 32768) ?_ hm
  unfold State.pmLoadStart
  dsimp only
  repeat' first
    | exact (Eq.refl _ : (_ : Nat) = _)
    | with_reducible exact Does.refl _ _
    | with_reducible refine does_modSeq ?_ ?_
    | with_reducible refine Does.ite ?_ ?_
    | split

theorem does_programStart {m : Nat} {s t : State} {x1 : Nat} (hm : 4295000064 ||| m = m) (h : Does m s t) :
    Does m s (State.programStart t x1) := by
  refine h.after (c := 4295000064) ?_ hm
  unfold State.programStart
  dsimp only
  repeat' first
    | exact (Eq.refl _ : (_ : Nat) = _)
    | with_reducible exact Does.refl _ _
    | with_reducible refine does_modSeq ?_ ?_
    | with_reducible refine Does.ite ?_ ?_
    | split
    | with_reducible refine does_set_screens ?_ ?_

theorem does_startRelease {m : Nat} {s t : State} {x1 : Nat} (hm : 32768 ||| m = m) (h : Does m s t) :
    Does m s (State.startRelease t x1) := by
  refine h.after (c := 32768) ?_ hm
  unfold State.startRelease
  repeat' first
    | exact (Eq.refl _ : (_ : Nat) = _)
    | with_reducible exact Does.refl _ _
    | with_reducible refine does_issuedNext ?_ ?_
    | with_reducible refine does_pushStart ?_ ?_
    | with_reducible refine Does.ite ?_ ?_
    | split

theorem does_startStall {m : Nat} {s t : State} {x1 : Nat} (hm : 18446744073713516867 ||| m = m) (h : Does m s t) :
    Does m s (State.startStall t x1) := by
  refine h.after (c := 18446744073713516867) ?_ hm
  unfold State.startStall
  dsimp only
  repeat' first
    | exact (Eq.refl _ : (_ : Nat) = _)
    | with_reducible exact Does.refl _ _
    | with_reducible refine does_modSeq ?_ ?_
    | with_reducible refine does_seqEvent ?_ ?_
    | with_reducible refine does_waitClk ?_ ?_
    | split

theorem does_trapTimeout {m : Nat} {s t : State} {x1 : Nat} {x2 : Nat} (hm : 19311497194652860747 ||| m = m) (h : Does m s t) :
    Does m s (State.trapTimeout t x1 x2) := by
  refine h.after (c := 19311497194652860747) ?_ hm
  unfold State.trapTimeout
  dsimp only
  repeat' first
    | exact (Eq.refl _ : (_ : Nat) = _)
    | with_reducible exact Does.refl _ _
    | with_reducible refine does_qntEvent ?_ ?_
    | with_reducible refine does_trapResolve ?_ ?_
    | with_reducible refine does_waitClk ?_ ?_
    | with_reducible refine Does.ite ?_ ?_
    | split

theorem does_waitResume {m : Nat} {s t : State} {x1 : Nat} (hm : 36864 ||| m = m) (h : Does m s t) :
    Does m s (State.waitResume t x1) := by
  refine h.after (c := 36864) ?_ hm
  unfold State.waitResume
  repeat' first
    | exact (Eq.refl _ : (_ : Nat) = _)
    | with_reducible exact Does.refl _ _
    | with_reducible refine does_passBefore ?_ ?_
    | with_reducible refine does_passWait ?_ ?_

end Sys2Proof.Machine
end

