-- ==== Sys2Proof/Laws/FrameDomains.lean ====
section
/-! SUPPORT. What the operations of Domains change: the mask of the kinds of state each may touch. -/

namespace Sys2Proof.Machine

theorem does_alignPairs {m : Nat} {s t : State} {x1 : Nat} (hm : 32768 ||| m = m) (h : Does m s t) :
    Does m s (State.alignPairs t x1) := by
  refine h.after (c := 32768) ?_ hm
  unfold State.alignPairs
  repeat' first
    | exact (Eq.refl _ : (_ : Nat) = _)
    | with_reducible exact Does.refl _ _
    | with_reducible refine does_modSeq ?_ ?_
    | with_reducible assumption
    | with_reducible refine Does.foldl (fun _ _ _ => ?_) ?_
    | with_reducible refine Does.foldl_pair (fun _ _ _ => ?_) ?_

theorem does_quiesceStop {m : Nat} {s t : State} {x1 : Nat} (hm : 23924027638421499978 ||| m = m) (h : Does m s t) :
    Does m s (State.quiesceStop t x1) := by
  refine h.after (c := 23924027638421499978) ?_ hm
  unfold State.quiesceStop
  dsimp only
  repeat' first
    | exact (Eq.refl _ : (_ : Nat) = _)
    | with_reducible exact Does.refl _ _
    | with_reducible refine does_ends ?_ ?_
    | with_reducible refine does_modPart ?_ ?_
    | with_reducible refine does_rowAbort ?_ ?_
    | with_reducible refine does_seqAbort ?_ ?_
    | with_reducible refine does_xStopPart ?_ ?_
    | with_reducible assumption
    | with_reducible refine Does.foldl (fun _ _ _ => ?_) ?_
    | with_reducible refine Does.foldl_pair (fun _ _ _ => ?_) ?_

theorem does_quiesceGo {m : Nat} {s t : State} {x1 : Nat} (hm : 23924027638421499978 ||| m = m) (h : Does m s t) :
    Does m s (State.quiesceGo t x1) := by
  refine h.after (c := 23924027638421499978) ?_ hm
  unfold State.quiesceGo
  repeat' first
    | exact (Eq.refl _ : (_ : Nat) = _)
    | with_reducible exact Does.refl _ _
    | with_reducible refine does_quiesceStop ?_ ?_
    | with_reducible refine Does.ite ?_ ?_
    | split

theorem does_ptOwnerWrite {m : Nat} {s t : State} {x1 : Nat} {x2 : Nat} {x3 : Word} (hm : 4611686018427387906 ||| m = m) (h : Does m s t) :
    Does m s (State.ptOwnerWrite t x1 x2 x3) := by
  refine h.after (c := 4611686018427387906) ?_ hm
  unfold State.ptOwnerWrite
  repeat' first
    | exact (Eq.refl _ : (_ : Nat) = _)
    | with_reducible exact Does.refl _ _
    | with_reducible refine does_ends ?_ ?_
    | with_reducible refine does_setReg ?_ ?_
    | with_reducible refine Does.ite ?_ ?_
    | split

theorem does_ptEvent {m : Nat} {s t : State} {x1 : Nat} {x2 : Nat} {x3 : optParam (Option Nat) none} {x4 : optParam Status Status.ok} (hm : 18446744073713483842 ||| m = m) (h : Does m s t) :
    Does m s (State.ptEvent t x1 x2 x3 x4) := by
  refine h.after (c := 18446744073713483842) ?_ hm
  unfold State.ptEvent
  repeat' first
    | exact (Eq.refl _ : (_ : Nat) = _)
    | with_reducible exact Does.refl _ _
    | with_reducible refine does_raise ?_ ?_

theorem does_dmCfgWrite {m : Nat} {s t : State} {x1 : Nat} {x2 : Nat} {x3 : Word} (hm : 4611686018428174338 ||| m = m) (h : Does m s t) :
    Does m s (State.dmCfgWrite t x1 x2 x3) := by
  refine h.after (c := 4611686018428174338) ?_ hm
  unfold State.dmCfgWrite
  dsimp only
  repeat' first
    | exact (Eq.refl _ : (_ : Nat) = _)
    | with_reducible exact Does.refl _ _
    | with_reducible refine does_clearRegs ?_ ?_
    | with_reducible refine does_ends ?_ ?_
    | with_reducible refine does_setFld ?_ ?_
    | with_reducible refine does_setReg ?_ ?_
    | with_reducible refine Does.ite ?_ ?_
    | split
    | with_reducible refine does_set_evq_evLost ?_ ?_

theorem does_enterPart {m : Nat} {s t : State} {x1 : Nat} {x2 : PartMode} {x3 : Nat} (hm : 8192 ||| m = m) (h : Does m s t) :
    Does m s (State.enterPart t x1 x2 x3) := by
  refine h.after (c := 8192) ?_ hm
  unfold State.enterPart
  repeat' first
    | exact (Eq.refl _ : (_ : Nat) = _)
    | with_reducible exact Does.refl _ _
    | with_reducible refine does_modPart ?_ ?_

theorem does_resetSlice {m : Nat} {s t : State} {x1 : Nat} (hm : 2882584963763634190 ||| m = m) (h : Does m s t) :
    Does m s (State.resetSlice t x1) := by
  refine h.after (c := 2882584963763634190) ?_ hm
  unfold State.resetSlice
  dsimp only
  repeat' first
    | exact (Eq.refl _ : (_ : Nat) = _)
    | with_reducible exact Does.refl _ _
    | with_reducible refine does_clearRegs ?_ ?_
    | with_reducible refine does_clrMem ?_ ?_
    | with_reducible refine does_set_staged_seqs_regions_idleUntil_csSets_tiles_arrFmt_tileTag_engFail_clove_chainCur_profCur_qslots_attCfg_attSeq_pepCur_seqBad ?_ ?_

theorem does_joinSlices {m : Nat} {s t : State} {x1 : Nat} (hm : 8192 ||| m = m) (h : Does m s t) :
    Does m s (State.joinSlices t x1) := by
  refine h.after (c := 8192) ?_ hm
  unfold State.joinSlices
  repeat' first
    | exact (Eq.refl _ : (_ : Nat) = _)
    | with_reducible exact Does.refl _ _
    | with_reducible refine does_modPart ?_ ?_
    | with_reducible refine Does.ite ?_ ?_
    | split

theorem does_ptActivate {m : Nat} {s t : State} {x1 : Nat} {x2 : Nat} (hm : 4611686018427428864 ||| m = m) (h : Does m s t) :
    Does m s (State.ptActivate t x1 x2) := by
  refine h.after (c := 4611686018427428864) ?_ hm
  unfold State.ptActivate
  repeat' first
    | exact (Eq.refl _ : (_ : Nat) = _)
    | with_reducible exact Does.refl _ _
    | with_reducible refine does_alignPairs ?_ ?_
    | with_reducible refine does_ends ?_ ?_
    | with_reducible refine does_enterPart ?_ ?_
    | with_reducible refine does_modPart ?_ ?_
    | with_reducible refine Does.ite ?_ ?_
    | split

theorem does_ptConfig {m : Nat} {s t : State} {x1 : Nat} {x2 : Nat} (hm : 4611686018427396096 ||| m = m) (h : Does m s t) :
    Does m s (State.ptConfig t x1 x2) := by
  refine h.after (c := 4611686018427396096) ?_ hm
  unfold State.ptConfig
  repeat' first
    | exact (Eq.refl _ : (_ : Nat) = _)
    | with_reducible exact Does.refl _ _
    | with_reducible refine does_ends ?_ ?_
    | with_reducible refine does_enterPart ?_ ?_
    | with_reducible refine Does.ite ?_ ?_
    | split

theorem does_ptQuiesce {m : Nat} {s t : State} {x1 : Nat} {x2 : Nat} (hm : 23933034837680435786 ||| m = m) (h : Does m s t) :
    Does m s (State.ptQuiesce t x1 x2) := by
  refine h.after (c := 23933034837680435786) ?_ hm
  unfold State.ptQuiesce
  repeat' first
    | exact (Eq.refl _ : (_ : Nat) = _)
    | with_reducible exact Does.refl _ _
    | with_reducible refine does_beginQuiesce ?_ ?_
    | with_reducible refine does_ends ?_ ?_
    | with_reducible refine does_quiesceGo ?_ ?_
    | with_reducible refine Does.ite ?_ ?_
    | split

theorem does_releaseColl {m : Nat} {s t : State} {x1 : Nat} (hm : 18456314497803747402 ||| m = m) (h : Does m s t) :
    Does m s (State.releaseColl t x1) := by
  refine h.after (c := 18456314497803747402) ?_ hm
  unfold State.releaseColl
  dsimp only
  repeat' first
    | exact (Eq.refl _ : (_ : Nat) = _)
    | with_reducible exact Does.refl _ _
    | with_reducible refine does_clearRegs ?_ ?_
    | with_reducible refine does_collEnd ?_ ?_
    | with_reducible assumption
    | with_reducible refine Does.foldl (fun _ _ _ => ?_) ?_
    | with_reducible refine Does.foldl_pair (fun _ _ _ => ?_) ?_
    | with_reducible refine does_set_fabric ?_ ?_

theorem does_releaseEvents {m : Nat} {s t : State} {x1 : Nat} (hm : 2 ||| m = m) (h : Does m s t) :
    Does m s (State.releaseEvents t x1) := by
  refine h.after (c := 2) ?_ hm
  unfold State.releaseEvents
  repeat' first
    | exact (Eq.refl _ : (_ : Nat) = _)
    | with_reducible exact Does.refl _ _
    | with_reducible refine does_clearRegs ?_ ?_

theorem does_releaseRegions {m : Nat} {s t : State} {x1 : Nat} (hm : 2 ||| m = m) (h : Does m s t) :
    Does m s (State.releaseRegions t x1) := by
  refine h.after (c := 2) ?_ hm
  unfold State.releaseRegions
  dsimp only
  repeat' first
    | exact (Eq.refl _ : (_ : Nat) = _)
    | with_reducible exact Does.refl _ _
    | with_reducible refine does_setFld ?_ ?_
    | with_reducible refine does_setReg ?_ ?_
    | with_reducible assumption
    | with_reducible refine Does.foldl (fun _ _ _ => ?_) ?_
    | with_reducible refine Does.foldl_pair (fun _ _ _ => ?_) ?_
    | with_reducible refine Does.ite ?_ ?_
    | split

theorem does_unpin {m : Nat} {s t : State} {x1 : List Nat} (hm : 268435456 ||| m = m) (h : Does m s t) :
    Does m s (State.unpin t x1) := by
  refine h.after (c := 268435456) ?_ hm
  unfold State.unpin
  repeat' first
    | exact (Eq.refl _ : (_ : Nat) = _)
    | with_reducible exact Does.refl _ _
    | with_reducible refine does_modPlaced ?_ ?_
    | with_reducible assumption
    | with_reducible refine Does.foldl (fun _ _ _ => ?_) ?_
    | with_reducible refine Does.foldl_pair (fun _ _ _ => ?_) ?_

theorem does_ptRelease {m : Nat} {s t : State} {x1 : Nat} {x2 : Nat} (hm : 26409107944200191054 ||| m = m) (h : Does m s t) :
    Does m s (State.ptRelease t x1 x2) := by
  refine h.after (c := 26409107944200191054) ?_ hm
  unfold State.ptRelease
  dsimp only
  repeat' first
    | exact (Eq.refl _ : (_ : Nat) = _)
    | with_reducible exact Does.refl _ _
    | with_reducible refine does_clearRegs ?_ ?_
    | with_reducible refine does_ends ?_ ?_
    | with_reducible refine does_enterPart ?_ ?_
    | with_reducible refine does_freeReqEntry ?_ ?_
    | with_reducible refine does_modPart ?_ ?_
    | with_reducible refine does_modReq ?_ ?_
    | with_reducible refine does_releaseColl ?_ ?_
    | with_reducible refine does_releaseEvents ?_ ?_
    | with_reducible refine does_releaseRegions ?_ ?_
    | with_reducible refine does_resetSlice ?_ ?_
    | with_reducible refine does_rowAbort ?_ ?_
    | with_reducible refine does_unpin ?_ ?_
    | with_reducible refine does_xResetPart ?_ ?_
    | with_reducible assumption
    | with_reducible refine Does.foldl (fun _ _ _ => ?_) ?_
    | with_reducible refine Does.foldl_pair (fun _ _ _ => ?_) ?_
    | with_reducible refine Does.ite ?_ ?_
    | split
    | with_reducible refine does_set_schedLo_schedHi_ctrs_igs_svs_peps ?_ ?_

theorem does_slotEnable {m : Nat} {s t : State} {x1 : Nat} {x2 : Word} (hm : 23230129832510366282 ||| m = m) (h : Does m s t) :
    Does m s (State.slotEnable t x1 x2) := by
  refine h.after (c := 23230129832510366282) ?_ hm
  unfold State.slotEnable
  dsimp only
  repeat' first
    | exact (Eq.refl _ : (_ : Nat) = _)
    | with_reducible exact Does.refl _ _
    | with_reducible refine does_dropBatch ?_ ?_
    | with_reducible refine does_modPart ?_ ?_
    | with_reducible refine does_modSv ?_ ?_
    | with_reducible refine does_slotCfgWrite ?_ ?_
    | with_reducible refine Does.ite ?_ ?_
    | split

theorem does_ptResume {m : Nat} {s t : State} {x1 : Nat} {x2 : Nat} (hm : 23230129832510399050 ||| m = m) (h : Does m s t) :
    Does m s (State.ptResume t x1 x2) := by
  refine h.after (c := 23230129832510399050) ?_ hm
  unfold State.ptResume
  dsimp only
  repeat' first
    | exact (Eq.refl _ : (_ : Nat) = _)
    | with_reducible exact Does.refl _ _
    | with_reducible refine does_alignPairs ?_ ?_
    | with_reducible refine does_ends ?_ ?_
    | with_reducible refine does_enterPart ?_ ?_
    | with_reducible refine does_modPart ?_ ?_
    | with_reducible refine does_slotEnable ?_ ?_
    | with_reducible refine Does.ite ?_ ?_
    | split

theorem does_ptCtrlWrite {m : Nat} {s t : State} {x1 : Nat} {x2 : Nat} {x3 : Word} (hm : 26409108085934112334 ||| m = m) (h : Does m s t) :
    Does m s (State.ptCtrlWrite t x1 x2 x3) := by
  refine h.after (c := 26409108085934112334) ?_ hm
  unfold State.ptCtrlWrite
  repeat' first
    | exact (Eq.refl _ : (_ : Nat) = _)
    | with_reducible exact Does.refl _ _
    | with_reducible refine does_ends ?_ ?_
    | with_reducible refine does_ptActivate ?_ ?_
    | with_reducible refine does_ptConfig ?_ ?_
    | with_reducible refine does_ptQuiesce ?_ ?_
    | with_reducible refine does_ptRelease ?_ ?_
    | with_reducible refine does_ptResume ?_ ?_
    | split

theorem does_ptLinkWrite {m : Nat} {s t : State} {x1 : Nat} {x2 : Nat} {x3 : Word} (hm : 4611686018427387906 ||| m = m) (h : Does m s t) :
    Does m s (State.ptLinkWrite t x1 x2 x3) := by
  refine h.after (c := 4611686018427387906) ?_ hm
  unfold State.ptLinkWrite
  repeat' first
    | exact (Eq.refl _ : (_ : Nat) = _)
    | with_reducible exact Does.refl _ _
    | with_reducible refine does_ends ?_ ?_
    | with_reducible refine does_setReg ?_ ?_
    | with_reducible refine Does.ite ?_ ?_
    | split

theorem does_ptSlicesWrite {m : Nat} {s t : State} {x1 : Nat} {x2 : Nat} {x3 : Word} (hm : 7494270982191030286 ||| m = m) (h : Does m s t) :
    Does m s (State.ptSlicesWrite t x1 x2 x3) := by
  refine h.after (c := 7494270982191030286) ?_ hm
  unfold State.ptSlicesWrite
  dsimp only
  repeat' first
    | exact (Eq.refl _ : (_ : Nat) = _)
    | with_reducible exact Does.refl _ _
    | with_reducible refine does_ends ?_ ?_
    | with_reducible refine does_modPart ?_ ?_
    | with_reducible refine does_resetSlice ?_ ?_
    | with_reducible refine does_setReg ?_ ?_
    | with_reducible assumption
    | with_reducible refine Does.foldl (fun _ _ _ => ?_) ?_
    | with_reducible refine Does.foldl_pair (fun _ _ _ => ?_) ?_
    | with_reducible refine Does.ite ?_ ?_
    | split

theorem does_regionCommit {m : Nat} {s t : State} {x1 : Nat} {x2 : Nat} {x3 : Word} (hm : 4611686018712608778 ||| m = m) (h : Does m s t) :
    Does m s (State.regionCommit t x1 x2 x3) := by
  refine h.after (c := 4611686018712608778) ?_ hm
  unfold State.regionCommit
  dsimp only
  repeat' first
    | exact (Eq.refl _ : (_ : Nat) = _)
    | with_reducible exact Does.refl _ _
    | with_reducible refine does_ends ?_ ?_
    | with_reducible refine does_modPart ?_ ?_
    | with_reducible refine does_setReg ?_ ?_
    | with_reducible refine does_unpin ?_ ?_
    | with_reducible refine does_zeroUnit ?_ ?_
    | with_reducible assumption
    | with_reducible refine Does.foldl (fun _ _ _ => ?_) ?_
    | with_reducible refine Does.foldl_pair (fun _ _ _ => ?_) ?_
    | with_reducible refine Does.ite ?_ ?_
    | split

theorem does_quiesceComplete {m : Nat} {s t : State} {x1 : Nat} (hm : 23924027638421499978 ||| m = m) (h : Does m s t) :
    Does m s (State.quiesceComplete t x1) := by
  refine h.after (c := 23924027638421499978) ?_ hm
  unfold State.quiesceComplete
  dsimp only
  repeat' first
    | exact (Eq.refl _ : (_ : Nat) = _)
    | with_reducible exact Does.refl _ _
    | with_reducible refine does_enterPart ?_ ?_
    | with_reducible refine does_modPart ?_ ?_
    | with_reducible refine does_ptEvent ?_ ?_
    | with_reducible refine does_quiesceGo ?_ ?_
    | with_reducible refine Does.ite ?_ ?_
    | split

theorem does_quiesceTimeout {m : Nat} {s t : State} {x1 : Nat} (hm : 24095164424265773899 ||| m = m) (h : Does m s t) :
    Does m s (State.quiesceTimeout t x1) := by
  refine h.after (c := 24095164424265773899) ?_ hm
  unfold State.quiesceTimeout
  dsimp only
  repeat' first
    | exact (Eq.refl _ : (_ : Nat) = _)
    | with_reducible exact Does.refl _ _
    | with_reducible refine does_closeIdle ?_ ?_
    | with_reducible refine does_collEnd ?_ ?_
    | with_reducible refine does_dropBatch ?_ ?_
    | with_reducible refine does_modPart ?_ ?_
    | with_reducible refine does_modSlot ?_ ?_
    | with_reducible refine does_modSv ?_ ?_
    | with_reducible refine does_quiesceStop ?_ ?_
    | with_reducible refine does_waitClk ?_ ?_
    | with_reducible refine Does.ite ?_ ?_
    | split

theorem does_scrubDone {m : Nat} {s t : State} {x1 : Nat} (hm : 18446744073730269258 ||| m = m) (h : Does m s t) :
    Does m s (State.scrubDone t x1) := by
  refine h.after (c := 18446744073730269258) ?_ hm
  unfold State.scrubDone
  dsimp only
  repeat' first
    | exact (Eq.refl _ : (_ : Nat) = _)
    | with_reducible exact Does.refl _ _
    | with_reducible refine does_enterPart ?_ ?_
    | with_reducible refine does_modPart ?_ ?_
    | with_reducible refine does_ptEvent ?_ ?_
    | with_reducible refine does_zeroUnit ?_ ?_
    | with_reducible assumption
    | with_reducible refine Does.foldl (fun _ _ _ => ?_) ?_
    | with_reducible refine Does.foldl_pair (fun _ _ _ => ?_) ?_
    | with_reducible refine Does.ite ?_ ?_
    | split

theorem does_wedgeTimeout {m : Nat} {s t : State} {x1 : Nat} (hm : 18446744073713500483 ||| m = m) (h : Does m s t) :
    Does m s (State.wedgeTimeout t x1) := by
  refine h.after (c := 18446744073713500483) ?_ hm
  unfold State.wedgeTimeout
  dsimp only
  repeat' first
    | exact (Eq.refl _ : (_ : Nat) = _)
    | with_reducible exact Does.refl _ _
    | with_reducible refine does_raise ?_ ?_
    | with_reducible refine does_waitClk ?_ ?_
    | with_reducible refine Does.ite ?_ ?_
    | split
    | with_reducible refine does_set_doms ?_ ?_

end Sys2Proof.Machine
end

