-- ==== Sys2Proof/Laws/FramePower.lean ====
section
/-! SUPPORT. What the operations of Power change: the mask of the kinds of state each may touch. -/

namespace Sys2Proof.Machine

theorem does_raisePower {m : Nat} {s t : State} {x1 : Nat} (hm : 18446744073713483842 ||| m = m) (h : Does m s t) :
    Does m s (State.raisePower t x1) := by
  refine h.after (c := 18446744073713483842) ?_ hm
  unfold State.raisePower
  repeat' first
    | exact (Eq.refl _ : (_ : Nat) = _)
    | with_reducible exact Does.refl _ _
    | with_reducible refine does_raise ?_ ?_

theorem does_settle {m : Nat} {s t : State}  (hm : 18446744073713483970 ||| m = m) (h : Does m s t) :
    Does m s (State.settle t) := by
  refine h.after (c := 18446744073713483970) ?_ hm
  unfold State.settle
  dsimp only
  repeat' first
    | exact (Eq.refl _ : (_ : Nat) = _)
    | with_reducible exact Does.refl _ _
    | with_reducible refine does_modPower ?_ ?_
    | with_reducible refine does_raisePower ?_ ?_
    | with_reducible refine Does.ite ?_ ?_

theorem does_capEvent {m : Nat} {s t : State} {x1 : Bool} (hm : 18446744073713483842 ||| m = m) (h : Does m s t) :
    Does m s (State.capEvent t x1) := by
  refine h.after (c := 18446744073713483842) ?_ hm
  unfold State.capEvent
  repeat' first
    | exact (Eq.refl _ : (_ : Nat) = _)
    | with_reducible exact Does.refl _ _
    | with_reducible refine does_raisePower ?_ ?_
    | with_reducible refine Does.ite ?_ ?_

theorem does_capLoop {m : Nat} {s t : State}  (hm : 18446744073713483970 ||| m = m) (h : Does m s t) :
    Does m s (State.capLoop t) := by
  refine h.after (c := 18446744073713483970) ?_ hm
  unfold State.capLoop
  dsimp only
  repeat' first
    | exact (Eq.refl _ : (_ : Nat) = _)
    | with_reducible exact Does.refl _ _
    | with_reducible refine does_capEvent ?_ ?_
    | with_reducible refine does_modPower ?_ ?_
    | with_reducible refine Does.ite ?_ ?_
    | split

theorem does_clkCtrlWrite {m : Nat} {s t : State} {x1 : Word} (hm : 23058430092140871874 ||| m = m) (h : Does m s t) :
    Does m s (State.clkCtrlWrite t x1) := by
  refine h.after (c := 23058430092140871874) ?_ hm
  unfold State.clkCtrlWrite
  dsimp only
  repeat' first
    | exact (Eq.refl _ : (_ : Nat) = _)
    | with_reducible exact Does.refl _ _
    | with_reducible refine does_ends ?_ ?_
    | with_reducible refine does_modPower ?_ ?_
    | with_reducible refine does_setReg ?_ ?_
    | with_reducible refine does_settle ?_ ?_
    | with_reducible refine Does.ite ?_ ?_

theorem does_clockChange {m : Nat} {s t : State}  (hm : 385 ||| m = m) (h : Does m s t) :
    Does m s (State.clockChange t) := by
  refine h.after (c := 385) ?_ hm
  unfold State.clockChange
  dsimp only
  repeat' first
    | exact (Eq.refl _ : (_ : Nat) = _)
    | with_reducible exact Does.refl _ _
    | with_reducible refine does_advance ?_ ?_
    | with_reducible refine does_modPower ?_ ?_
    | with_reducible refine Does.ite ?_ ?_

theorem does_dieFatal {m : Nat} {s t : State}  (hm : 18447307023666905154 ||| m = m) (h : Does m s t) :
    Does m s (State.dieFatal t) := by
  refine h.after (c := 18447307023666905154) ?_ hm
  unfold State.dieFatal
  repeat' first
    | exact (Eq.refl _ : (_ : Nat) = _)
    | with_reducible exact Does.refl _ _
    | with_reducible refine does_fatal ?_ ?_
    | with_reducible refine does_raisePower ?_ ?_

theorem does_dieLoop {m : Nat} {s t : State}  (hm : 18446744073713483970 ||| m = m) (h : Does m s t) :
    Does m s (State.dieLoop t) := by
  refine h.after (c := 18446744073713483970) ?_ hm
  unfold State.dieLoop
  dsimp only
  repeat' first
    | exact (Eq.refl _ : (_ : Nat) = _)
    | with_reducible exact Does.refl _ _
    | with_reducible refine does_modPower ?_ ?_
    | with_reducible refine does_raisePower ?_ ?_
    | with_reducible refine Does.ite ?_ ?_
    | split

theorem does_dieMiss {m : Nat} {s t : State} {x1 : Nat} (hm : 18447307023666905282 ||| m = m) (h : Does m s t) :
    Does m s (State.dieMiss t x1) := by
  refine h.after (c := 18447307023666905282) ?_ hm
  unfold State.dieMiss
  dsimp only
  repeat' first
    | exact (Eq.refl _ : (_ : Nat) = _)
    | with_reducible exact Does.refl _ _
    | with_reducible refine does_dieFatal ?_ ?_
    | with_reducible refine does_modPower ?_ ?_
    | with_reducible refine Does.ite ?_ ?_

theorem does_dieReport {m : Nat} {s t : State} {x1 : Nat} {x2 : Int} (hm : 18447307023666905282 ||| m = m) (h : Does m s t) :
    Does m s (State.dieReport t x1 x2) := by
  refine h.after (c := 18447307023666905282) ?_ hm
  unfold State.dieReport
  dsimp only
  repeat' first
    | exact (Eq.refl _ : (_ : Nat) = _)
    | with_reducible exact Does.refl _ _
    | with_reducible refine does_dieFatal ?_ ?_
    | with_reducible refine does_modPower ?_ ?_
    | with_reducible refine does_raisePower ?_ ?_
    | with_reducible refine does_settle ?_ ?_
    | with_reducible refine Does.ite ?_ ?_

theorem does_emergEnd {m : Nat} {s t : State}  (hm : 385 ||| m = m) (h : Does m s t) :
    Does m s (State.emergEnd t) := by
  refine h.after (c := 385) ?_ hm
  unfold State.emergEnd
  repeat' first
    | exact (Eq.refl _ : (_ : Nat) = _)
    | with_reducible exact Does.refl _ _
    | with_reducible refine does_modPower ?_ ?_
    | with_reducible refine does_waitClk ?_ ?_
    | split

theorem does_loopEvaluate {m : Nat} {s t : State}  (hm : 18446744073713484227 ||| m = m) (h : Does m s t) :
    Does m s (State.loopEvaluate t) := by
  refine h.after (c := 18446744073713484227) ?_ hm
  unfold State.loopEvaluate
  dsimp only
  repeat' first
    | exact (Eq.refl _ : (_ : Nat) = _)
    | with_reducible exact Does.refl _ _
    | with_reducible refine does_capLoop ?_ ?_
    | with_reducible refine does_dieLoop ?_ ?_
    | with_reducible refine does_modPower ?_ ?_
    | with_reducible refine does_settle ?_ ?_
    | with_reducible refine does_waitCt ?_ ?_
    | with_reducible refine Does.ite ?_ ?_

theorem does_powerSample {m : Nat} {s t : State} {x1 : Nat} {x2 : Nat} (hm : 18446744073713484243 ||| m = m) (h : Does m s t) :
    Does m s (State.powerSample t x1 x2) := by
  refine h.after (c := 18446744073713484243) ?_ hm
  unfold State.powerSample
  dsimp only
  repeat' first
    | exact (Eq.refl _ : (_ : Nat) = _)
    | with_reducible exact Does.refl _ _
    | with_reducible refine does_bump ?_ ?_
    | with_reducible refine does_capEvent ?_ ?_
    | with_reducible refine does_modPower ?_ ?_
    | with_reducible refine does_periodic ?_ ?_
    | with_reducible refine does_raisePower ?_ ?_
    | with_reducible refine does_settle ?_ ?_
    | with_reducible refine Does.ite ?_ ?_

theorem does_refclkLoss {m : Nat} {s t : State}  (hm : 18448432923572961600 ||| m = m) (h : Does m s t) :
    Does m s (State.refclkLoss t) := by
  refine h.after (c := 18448432923572961600) ?_ hm
  unfold State.refclkLoss
  dsimp only
  repeat' first
    | exact (Eq.refl _ : (_ : Nat) = _)
    | with_reducible exact Does.refl _ _
    | with_reducible refine does_fatal ?_ ?_
    | with_reducible refine does_logErr ?_ ?_
    | with_reducible refine does_modTime ?_ ?_
    | with_reducible refine Does.ite ?_ ?_
    | split
    | with_reducible refine does_set_ports ?_ ?_

end Sys2Proof.Machine
end

