-- ==== Sys2Proof/Laws/FrameRings.lean ====
section
/-! SUPPORT. What the operations of Rings change: the mask of the kinds of state each may touch. -/

namespace Sys2Proof.Machine

theorem does_dqEvent {m : Nat} {s t : State} {x1 : Nat} {x2 : Nat} (hm : 18446744073713483842 ||| m = m) (h : Does m s t) :
    Does m s (State.dqEvent t x1 x2) := by
  refine h.after (c := 18446744073713483842) ?_ hm
  unfold State.dqEvent
  repeat' first
    | exact (Eq.refl _ : (_ : Nat) = _)
    | with_reducible exact Does.refl _ _
    | with_reducible refine does_raise ?_ ?_

theorem does_eqWrite {m : Nat} {s t : State} {x1 : Nat} {x2 : Bool} {x3 : Word} (hm : 4611686018427387906 ||| m = m) (h : Does m s t) :
    Does m s (State.eqWrite t x1 x2 x3) := by
  refine h.after (c := 4611686018427387906) ?_ hm
  unfold State.eqWrite
  dsimp only
  repeat' first
    | exact (Eq.refl _ : (_ : Nat) = _)
    | with_reducible exact Does.refl _ _
    | with_reducible refine does_ends ?_ ?_
    | with_reducible refine does_setReg ?_ ?_
    | with_reducible refine Does.ite ?_ ?_

theorem does_sqBaseWrite {m : Nat} {s t : State} {x1 : Nat} {x2 : Word} (hm : 4611686018427387906 ||| m = m) (h : Does m s t) :
    Does m s (State.sqBaseWrite t x1 x2) := by
  refine h.after (c := 4611686018427387906) ?_ hm
  unfold State.sqBaseWrite
  repeat' first
    | exact (Eq.refl _ : (_ : Nat) = _)
    | with_reducible exact Does.refl _ _
    | with_reducible refine does_ends ?_ ?_
    | with_reducible refine does_setReg ?_ ?_
    | with_reducible refine Does.ite ?_ ?_

theorem does_sqEntry {m : Nat} {s t : State} {x1 : Nat} (hm : 23329209020013346890 ||| m = m) (h : Does m s t) :
    Does m s (State.sqEntry t x1) := by
  refine h.after (c := 23329209020013346890) ?_ hm
  unfold State.sqEntry
  dsimp only
  repeat' first
    | exact (Eq.refl _ : (_ : Nat) = _)
    | with_reducible exact Does.refl _ _
    | with_reducible refine does_command ?_ ?_
    | with_reducible refine does_devRead ?_ ?_
    | with_reducible refine does_pushEvent ?_ ?_
    | with_reducible refine does_setReg ?_ ?_
    | with_reducible refine does_useFree ?_ ?_
    | with_reducible refine Does.ite ?_ ?_
    | split
    | with_reducible refine does_set_commands ?_ ?_

theorem does_sqRead {m : Nat} {s t : State} {x1 : Nat} (hm : 23329209020013346890 ||| m = m) (h : Does m s t) :
    Does m s (State.sqRead t x1) := by
  refine h.after (c := 23329209020013346890) ?_ hm
  unfold State.sqRead
  dsimp only
  repeat' first
    | exact (Eq.refl _ : (_ : Nat) = _)
    | with_reducible exact Does.refl _ _
    | with_reducible refine does_devRead ?_ ?_
    | with_reducible refine does_dqEvent ?_ ?_
    | with_reducible refine does_setFld ?_ ?_
    | with_reducible refine does_sqEntry ?_ ?_
    | with_reducible assumption
    | with_reducible refine Does.foldl (fun _ _ _ => ?_) ?_
    | with_reducible refine Does.foldl_pair (fun _ _ _ => ?_) ?_
    | with_reducible refine Does.ite ?_ ?_

theorem does_sqCtrlWrite {m : Nat} {s t : State} {x1 : Nat} {x2 : Word} (hm : 23329209020013346890 ||| m = m) (h : Does m s t) :
    Does m s (State.sqCtrlWrite t x1 x2) := by
  refine h.after (c := 23329209020013346890) ?_ hm
  unfold State.sqCtrlWrite
  dsimp only
  repeat' first
    | exact (Eq.refl _ : (_ : Nat) = _)
    | with_reducible exact Does.refl _ _
    | with_reducible refine does_ends ?_ ?_
    | with_reducible refine does_setReg ?_ ?_
    | with_reducible refine does_sqRead ?_ ?_
    | with_reducible refine Does.ite ?_ ?_

theorem does_eventWrite {m : Nat} {s t : State} {x1 : Nat} (hm : 18457440122832683074 ||| m = m) (h : Does m s t) :
    Does m s (State.eventWrite t x1) := by
  refine h.after (c := 18457440122832683074) ?_ hm
  unfold State.eventWrite
  dsimp only
  repeat' first
    | exact (Eq.refl _ : (_ : Nat) = _)
    | with_reducible exact Does.refl _ _
    | with_reducible refine does_dqEvent ?_ ?_
    | with_reducible refine does_nodeWrite ?_ ?_
    | with_reducible refine does_setReg ?_ ?_
    | with_reducible refine Does.of_fst (by assumption) ?_
    | with_reducible refine Does.ite ?_ ?_
    | split
    | with_reducible refine does_set_evq ?_ ?_

theorem does_sqPollTimer {m : Nat} {s t : State} {x1 : Nat} (hm : 23329209020013347163 ||| m = m) (h : Does m s t) :
    Does m s (State.sqPollTimer t x1) := by
  refine h.after (c := 23329209020013347163) ?_ hm
  unfold State.sqPollTimer
  repeat' first
    | exact (Eq.refl _ : (_ : Nat) = _)
    | with_reducible exact Does.refl _ _
    | with_reducible refine does_periodic ?_ ?_
    | with_reducible refine does_sqRead ?_ ?_
    | with_reducible refine Does.ite ?_ ?_

end Sys2Proof.Machine
end

