-- ==== Sys2Proof/Laws/FrameCadence.lean ====
section
/-! SUPPORT. What the operations of Cadence change: the mask of the kinds of state each may touch. -/

namespace Sys2Proof.Machine

theorem does_applyBound {m : Nat} {s t : State} {x1 : Nat} (hm : 18446744073990308034 ||| m = m) (h : Does m s t) :
    Does m s (State.applyBound t x1) := by
  refine h.after (c := 18446744073990308034) ?_ hm
  unfold State.applyBound
  dsimp only
  repeat' first
    | exact (Eq.refl _ : (_ : Nat) = _)
    | with_reducible exact Does.refl _ _
    | with_reducible refine does_modBulk ?_ ?_
    | with_reducible refine does_modPower ?_ ?_
    | with_reducible refine does_modStack ?_ ?_
    | with_reducible refine does_settle ?_ ?_
    | with_reducible refine Does.ite ?_ ?_
    | split

theorem does_applyBounds {m : Nat} {s t : State}  (hm : 18446744073990308034 ||| m = m) (h : Does m s t) :
    Does m s (State.applyBounds t) := by
  refine h.after (c := 18446744073990308034) ?_ hm
  unfold State.applyBounds
  repeat' first
    | exact (Eq.refl _ : (_ : Nat) = _)
    | with_reducible exact Does.refl _ _
    | with_reducible refine does_applyBound ?_ ?_
    | with_reducible assumption
    | with_reducible refine Does.foldl (fun _ _ _ => ?_) ?_
    | with_reducible refine Does.foldl_pair (fun _ _ _ => ?_) ?_

theorem does_boundTimeout {m : Nat} {s t : State}  (hm : 18446744073990308291 ||| m = m) (h : Does m s t) :
    Does m s (State.boundTimeout t) := by
  refine h.after (c := 18446744073990308291) ?_ hm
  unfold State.boundTimeout
  dsimp only
  repeat' first
    | exact (Eq.refl _ : (_ : Nat) = _)
    | with_reducible exact Does.refl _ _
    | with_reducible refine does_applyBound ?_ ?_
    | with_reducible refine does_waitClk ?_ ?_
    | with_reducible assumption
    | with_reducible refine Does.foldl (fun _ _ _ => ?_) ?_
    | with_reducible refine Does.foldl_pair (fun _ _ _ => ?_) ?_
    | with_reducible refine Does.ite ?_ ?_
    | split

theorem does_counterSet {m : Nat} {s t : State} {x1 : Nat} {x2 : Word} (hm : 4611686018427392000 ||| m = m) (h : Does m s t) :
    Does m s (State.counterSet t x1 x2) := by
  refine h.after (c := 4611686018427392000) ?_ hm
  unfold State.counterSet
  repeat' first
    | exact (Eq.refl _ : (_ : Nat) = _)
    | with_reducible exact Does.refl _ _
    | with_reducible refine does_ends ?_ ?_
    | with_reducible refine does_setCtr ?_ ?_
    | split

theorem does_putEntry {m : Nat} {s t : State} {x1 : Nat} {x2 : Nat} {x3 : Word × Word} (hm : 3072 ||| m = m) (h : Does m s t) :
    Does m s (State.putEntry t x1 x2 x3) := by
  refine h.after (c := 3072) ?_ hm
  unfold State.putEntry
  dsimp only
  repeat' first
    | exact (Eq.refl _ : (_ : Nat) = _)
    | with_reducible exact Does.refl _ _
    | with_reducible refine does_set_schedLo_schedHi ?_ ?_

theorem does_schedCommit {m : Nat} {s t : State} {x1 : Nat} {x2 : Nat} {x3 : Word} (hm : 4611686018427390976 ||| m = m) (h : Does m s t) :
    Does m s (State.schedCommit t x1 x2 x3) := by
  refine h.after (c := 4611686018427390976) ?_ hm
  unfold State.schedCommit
  dsimp only
  repeat' first
    | exact (Eq.refl _ : (_ : Nat) = _)
    | with_reducible exact Does.refl _ _
    | with_reducible refine does_ends ?_ ?_
    | with_reducible refine does_putEntry ?_ ?_
    | with_reducible refine Does.ite ?_ ?_
    | split

theorem does_schedLoad {m : Nat} {s t : State} {x1 : Nat} {x2 : Word} (hm : 23058993042371120202 ||| m = m) (h : Does m s t) :
    Does m s (State.schedLoad t x1 x2) := by
  refine h.after (c := 23058993042371120202) ?_ hm
  unfold State.schedLoad
  dsimp only
  repeat' first
    | exact (Eq.refl _ : (_ : Nat) = _)
    | with_reducible exact Does.refl _ _
    | with_reducible refine does_devRead ?_ ?_
    | with_reducible refine does_ends ?_ ?_
    | with_reducible refine does_putEntry ?_ ?_
    | with_reducible refine does_setReg ?_ ?_
    | with_reducible assumption
    | with_reducible refine Does.foldl (fun _ _ _ => ?_) ?_
    | with_reducible refine Does.foldl_pair (fun _ _ _ => ?_) ?_
    | with_reducible refine Does.of_fst (by assumption) ?_
    | with_reducible refine Does.ite ?_ ?_
    | split

theorem does_postStarts {m : Nat} {s t : State} {x1 : List Nat} {x2 : Nat} {x3 : Nat} (hm : 32768 ||| m = m) (h : Does m s t) :
    Does m s (State.postStarts t x1 x2 x3).1 := by
  refine h.after (c := 32768) ?_ hm
  unfold State.postStarts
  repeat' first
    | exact (Eq.refl _ : (_ : Nat) = _)
    | with_reducible exact Does.refl _ _
    | with_reducible refine does_pushStart ?_ ?_
    | with_reducible assumption
    | with_reducible refine Does.foldl (fun _ _ _ => ?_) ?_
    | with_reducible refine Does.foldl_pair (fun _ _ _ => ?_) ?_
    | with_reducible refine Does.ite_fst ?_ ?_
    | split

theorem does_cursorResume {m : Nat} {s t : State} {x1 : Nat} (hm : 33280 ||| m = m) (h : Does m s t) :
    Does m s (State.cursorResume t x1) := by
  refine h.after (c := 33280) ?_ hm
  unfold State.cursorResume
  dsimp only
  repeat' first
    | exact (Eq.refl _ : (_ : Nat) = _)
    | with_reducible exact Does.refl _ _
    | with_reducible refine does_modSlot ?_ ?_
    | with_reducible refine does_postStarts ?_ ?_
    | with_reducible refine Does.of_fst (by assumption) ?_
    | with_reducible refine Does.ite ?_ ?_
    | split

theorem does_entryAct {m : Nat} {s t : State} {x1 : Nat} {x2 : Word × Word} (hm : 23329490769868198474 ||| m = m) (h : Does m s t) :
    Does m s (State.entryAct t x1 x2).1 := by
  refine h.after (c := 23329490769868198474) ?_ hm
  unfold State.entryAct
  dsimp only
  repeat' first
    | exact (Eq.refl _ : (_ : Nat) = _)
    | with_reducible exact Does.refl _ _
    | with_reducible refine does_modSlot ?_ ?_
    | with_reducible refine does_postStarts ?_ ?_
    | with_reducible refine does_signal ?_ ?_
    | with_reducible refine does_slotEvent ?_ ?_
    | with_reducible refine does_sqRead ?_ ?_
    | with_reducible refine does_xArmDev ?_ ?_
    | with_reducible refine does_xArmFail ?_ ?_
    | with_reducible assumption
    | with_reducible refine Does.foldl (fun _ _ _ => ?_) ?_
    | with_reducible refine Does.foldl_pair (fun _ _ _ => ?_) ?_
    | with_reducible refine Does.of_fst (by assumption) ?_
    | with_reducible refine Does.ite_fst ?_ ?_
    | split
    | with_reducible refine does_set_idleUntil ?_ ?_

theorem does_entryFire {m : Nat} {s t : State} {x1 : Nat} {x2 : Nat} {x3 : Mark} {x4 : Word × Word} {x5 : Nat} (hm : 23329490769868198474 ||| m = m) (h : Does m s t) :
    Does m s (State.entryFire t x1 x2 x3 x4 x5) := by
  refine h.after (c := 23329490769868198474) ?_ hm
  unfold State.entryFire
  dsimp only
  repeat' first
    | exact (Eq.refl _ : (_ : Nat) = _)
    | with_reducible exact Does.refl _ _
    | with_reducible refine does_entryAct ?_ ?_
    | with_reducible refine does_entryReached ?_ ?_
    | with_reducible refine does_modSlot ?_ ?_
    | with_reducible refine does_slotEvent ?_ ?_
    | with_reducible refine Does.ite ?_ ?_
    | split

theorem does_fireNext {m : Nat} {s t : State} {x1 : Nat} {x2 : Nat} (hm : 23329490769868198731 ||| m = m) (h : Does m s t) :
    Does m s (State.fireNext t x1 x2) := by
  refine h.after (c := 23329490769868198731) ?_ hm
  clear h
  induction x2 generalizing t with
  | zero => exact Does.refl _ _
  | succ n ih =>
    rw [State.fireNext]
    split
    · rename_i k i e _ _
      have hu : Does 23329490769868198731 t ((t.waitCt ((t.slot x1).fireCt k e)).entryFire x1 i k e (t.waitCt ((t.slot x1).fireCt k e)).ct) :=
        does_entryFire (Eq.refl _ : (_ : Nat) = _) (does_waitCt (Eq.refl _ : (_ : Nat) = _) (Does.refl _ _))
      exact Does.ite (Does.after hu ih (Eq.refl _ : (_ : Nat) = _)) hu
    · exact Does.refl _ _

theorem does_idleClose {m : Nat} {s t : State} {x1 : Nat} (hm : 4294968065 ||| m = m) (h : Does m s t) :
    Does m s (State.idleClose t x1) := by
  refine h.after (c := 4294968065) ?_ hm
  unfold State.idleClose
  repeat' first
    | exact (Eq.refl _ : (_ : Nat) = _)
    | with_reducible exact Does.refl _ _
    | with_reducible refine does_closeIdle ?_ ?_
    | with_reducible refine does_waitCt ?_ ?_
    | split

theorem does_leftovers {m : Nat} {s t : State} {x1 : Nat} {x2 : Nat} (hm : 23329490769868198731 ||| m = m) (h : Does m s t) :
    Does m s (State.leftovers t x1 x2) := by
  refine h.after (c := 23329490769868198731) ?_ hm
  clear h
  induction x2 generalizing t with
  | zero => exact Does.refl _ _
  | succ n ih =>
    rw [State.leftovers]
    dsimp only
    split
    · rename_i k i e _ _
      have hu : ∀ w, Does 23329490769868198731 t ((t.waitCt w).entryFire x1 i k e (t.waitCt w).ct) := fun w =>
        does_entryFire (Eq.refl _ : (_ : Nat) = _) (does_waitCt (Eq.refl _ : (_ : Nat) = _) (Does.refl _ _))
      exact Does.ite (Does.refl _ _) (Does.after (hu _) ih (Eq.refl _ : (_ : Nat) = _))
    · exact Does.refl _ _

theorem does_psSchedWrite {m : Nat} {s t : State} {x1 : Nat} {x2 : Nat} {x3 : Word} (hm : 4611686018427388418 ||| m = m) (h : Does m s t) :
    Does m s (State.psSchedWrite t x1 x2 x3) := by
  refine h.after (c := 4611686018427388418) ?_ hm
  unfold State.psSchedWrite
  dsimp only
  repeat' first
    | exact (Eq.refl _ : (_ : Nat) = _)
    | with_reducible exact Does.refl _ _
    | with_reducible refine does_ends ?_ ?_
    | with_reducible refine does_modSlot ?_ ?_
    | with_reducible refine does_setReg ?_ ?_
    | with_reducible refine Does.ite ?_ ?_
    | split

theorem does_markSend {m : Nat} {s t : State} {x1 : Nat} (hm : 18456314227497632587 ||| m = m) (h : Does m s t) :
    Does m s (State.markSend t x1) := by
  refine h.after (c := 18456314227497632587) ?_ hm
  unfold State.markSend
  dsimp only
  repeat' first
    | exact (Eq.refl _ : (_ : Nat) = _)
    | with_reducible exact Does.refl _ _
    | with_reducible refine does_devRead ?_ ?_
    | with_reducible refine does_issueMark ?_ ?_
    | with_reducible refine does_leaderHalt ?_ ?_
    | with_reducible refine does_modSlot ?_ ?_
    | with_reducible refine does_slotEvent ?_ ?_
    | with_reducible refine does_waitCt ?_ ?_
    | with_reducible refine Does.of_fst (by assumption) ?_
    | with_reducible refine Does.ite ?_ ?_
    | split

theorem does_planEmpty {m : Nat} {s t : State} {x1 : Nat} (hm : 787203 ||| m = m) (h : Does m s t) :
    Does m s (State.planEmpty t x1) := by
  refine h.after (c := 787203) ?_ hm
  unfold State.planEmpty
  dsimp only
  repeat' first
    | exact (Eq.refl _ : (_ : Nat) = _)
    | with_reducible exact Does.refl _ _
    | with_reducible refine does_modSlot ?_ ?_
    | with_reducible refine does_slotEvent ?_ ?_
    | with_reducible refine does_waitCt ?_ ?_
    | with_reducible refine Does.ite ?_ ?_
    | split

theorem does_restoreSlots {m : Nat} {s t : State} {x1 : Nat} (hm : 35184372088834 ||| m = m) (h : Does m s t) :
    Does m s (State.restoreSlots t x1) := by
  refine h.after (c := 35184372088834) ?_ hm
  unfold State.restoreSlots
  dsimp only
  repeat' first
    | exact (Eq.refl _ : (_ : Nat) = _)
    | with_reducible exact Does.refl _ _
    | with_reducible refine does_setReg ?_ ?_
    | with_reducible assumption
    | with_reducible refine Does.foldl (fun _ _ _ => ?_) ?_
    | with_reducible refine Does.foldl_pair (fun _ _ _ => ?_) ?_
    | with_reducible refine does_set_qslots ?_ ?_

theorem does_schedFire {m : Nat} {s t : State} {x1 : Nat} {x2 : Nat} (hm : 23329490769868198731 ||| m = m) (h : Does m s t) :
    Does m s (State.schedFire t x1 x2) := by
  refine h.after (c := 23329490769868198731) ?_ hm
  unfold State.schedFire
  repeat' first
    | exact (Eq.refl _ : (_ : Nat) = _)
    | with_reducible exact Does.refl _ _
    | with_reducible refine does_fireNext ?_ ?_
    | with_reducible refine does_passNops ?_ ?_
    | with_reducible refine Does.ite ?_ ?_
    | split

theorem does_snapSlots {m : Nat} {s t : State} {x1 : Nat} (hm : 1073741824 ||| m = m) (h : Does m s t) :
    Does m s (State.snapSlots t x1) := by
  refine h.after (c := 1073741824) ?_ hm
  unfold State.snapSlots
  dsimp only
  repeat' first
    | exact (Eq.refl _ : (_ : Nat) = _)
    | with_reducible exact Does.refl _ _
    | with_reducible refine does_modIg ?_ ?_
    | with_reducible assumption
    | with_reducible refine Does.foldl (fun _ _ _ => ?_) ?_
    | with_reducible refine Does.foldl_pair (fun _ _ _ => ?_) ?_

theorem does_startUnits {m : Nat} {s t : State} {x1 : Nat} (hm : 19320477862023962826 ||| m = m) (h : Does m s t) :
    Does m s (State.startUnits t x1) := by
  refine h.after (c := 19320477862023962826) ?_ hm
  unfold State.startUnits
  dsimp only
  repeat' first
    | exact (Eq.refl _ : (_ : Nat) = _)
    | with_reducible exact Does.refl _ _
    | with_reducible refine does_advanceSlots ?_ ?_
    | with_reducible refine does_applyBounds ?_ ?_
    | with_reducible refine does_collStep ?_ ?_
    | with_reducible refine does_joinSlices ?_ ?_
    | with_reducible refine does_modIg ?_ ?_
    | with_reducible refine does_pepStart ?_ ?_
    | with_reducible refine does_restoreSlots ?_ ?_
    | with_reducible refine does_snapSlots ?_ ?_
    | with_reducible refine does_twinCheck ?_ ?_
    | with_reducible assumption
    | with_reducible refine Does.foldl (fun _ _ _ => ?_) ?_
    | with_reducible refine Does.foldl_pair (fun _ _ _ => ?_) ?_
    | with_reducible refine Does.ite ?_ ?_
    | split

theorem does_stepDone {m : Nat} {s t : State} {x1 : Nat} (hm : 18600429415296700994 ||| m = m) (h : Does m s t) :
    Does m s (State.stepDone t x1) := by
  refine h.after (c := 18600429415296700994) ?_ hm
  unfold State.stepDone
  dsimp only
  repeat' first
    | exact (Eq.refl _ : (_ : Nat) = _)
    | with_reducible exact Does.refl _ _
    | with_reducible refine does_modSlot ?_ ?_
    | with_reducible refine does_modSv ?_ ?_
    | with_reducible refine does_passNops ?_ ?_
    | with_reducible refine does_raiseSlot ?_ ?_
    | with_reducible refine does_sendReport ?_ ?_
    | with_reducible refine does_settleWaits ?_ ?_
    | with_reducible refine does_takeCtr ?_ ?_
    | with_reducible refine Does.ite ?_ ?_
    | split

theorem does_stepStart {m : Nat} {s t : State} {x1 : Nat} (hm : 24203224287318881227 ||| m = m) (h : Does m s t) :
    Does m s (State.stepStart t x1) := by
  refine h.after (c := 24203224287318881227) ?_ hm
  unfold State.stepStart
  dsimp only
  repeat' first
    | exact (Eq.refl _ : (_ : Nat) = _)
    | with_reducible exact Does.refl _ _
    | with_reducible refine does_closeIdle ?_ ?_
    | with_reducible refine does_leftovers ?_ ?_
    | with_reducible refine does_modSlot ?_ ?_
    | with_reducible refine does_passNops ?_ ?_
    | with_reducible refine does_startUnits ?_ ?_
    | with_reducible refine Does.ite ?_ ?_
    | split

end Sys2Proof.Machine
end

