-- ==== Sys2Proof/Laws/FrameCommit.lean ====
section
/-! SUPPORT. What the operations of Commit change: the mask of the kinds of state each may touch. -/

namespace Sys2Proof.Machine

theorem does_adaptCorr {m : Nat} {s t : State} {x1 : Nat} {x2 : Int} (hm : 144115188075855872 ||| m = m) (h : Does m s t) :
    Does m s (State.adaptCorr t x1 x2) := by
  refine h.after (c := 144115188075855872) ?_ hm
  unfold State.adaptCorr
  dsimp only
  repeat' first
    | exact (Eq.refl _ : (_ : Nat) = _)
    | with_reducible exact Does.refl _ _
    | with_reducible refine does_modSv ?_ ?_
    | with_reducible refine Does.ite ?_ ?_
    | split

theorem does_applyTokens {m : Nat} {s t : State} {x1 : Nat} {x2 : BItem} {x3 : List Nat} {x4 : PepRes} (hm : 18609436610529067082 ||| m = m) (h : Does m s t) :
    Does m s (State.applyTokens t x1 x2 x3 x4).1 := by
  refine h.after (c := 18609436610529067082) ?_ hm
  unfold State.applyTokens
  dsimp only
  repeat' first
    | exact (Eq.refl _ : (_ : Nat) = _)
    | with_reducible exact Does.refl _ _
    | with_reducible refine does_countToks ?_ ?_
    | with_reducible refine does_devPut ?_ ?_
    | with_reducible refine does_devWrite ?_ ?_
    | with_reducible refine does_modReq ?_ ?_
    | with_reducible refine does_pfxInsert ?_ ?_
    | with_reducible refine Does.ite_fst ?_ ?_
    | split

theorem does_emitTokens {m : Nat} {s t : State} {x1 : Nat} {x2 : Nat} {x3 : Nat} {x4 : ItemEnd} {x5 : Bool} {x6 : PepRes} (hm : 18590859261789339714 ||| m = m) (h : Does m s t) :
    Does m s (State.emitTokens t x1 x2 x3 x4 x5 x6) := by
  refine h.after (c := 18590859261789339714) ?_ hm
  unfold State.emitTokens
  dsimp only
  repeat' first
    | exact (Eq.refl _ : (_ : Nat) = _)
    | with_reducible exact Does.refl _ _
    | with_reducible refine does_putRecord ?_ ?_
    | with_reducible assumption
    | with_reducible refine Does.foldl (fun _ _ _ => ?_) ?_
    | with_reducible refine Does.foldl_pair (fun _ _ _ => ?_) ?_
    | with_reducible refine Does.ite ?_ ?_
    | split

theorem does_finishReq {m : Nat} {s t : State} {x1 : Nat} {x2 : Nat} {x3 : Status} (hm : 18609436610529067082 ||| m = m) (h : Does m s t) :
    Does m s (State.finishReq t x1 x2 x3) := by
  refine h.after (c := 18609436610529067082) ?_ hm
  unfold State.finishReq
  dsimp only
  repeat' first
    | exact (Eq.refl _ : (_ : Nat) = _)
    | with_reducible exact Does.refl _ _
    | with_reducible refine does_closeReq ?_ ?_
    | with_reducible refine does_retainHusk ?_ ?_
    | with_reducible refine does_retainWarm ?_ ?_
    | split

theorem does_parkPoison {m : Nat} {s t : State} {x1 : Nat} {x2 : Nat} (hm : 18609436610529067082 ||| m = m) (h : Does m s t) :
    Does m s (State.parkPoison t x1 x2) := by
  refine h.after (c := 18609436610529067082) ?_ hm
  unfold State.parkPoison
  repeat' first
    | exact (Eq.refl _ : (_ : Nat) = _)
    | with_reducible exact Does.refl _ _
    | with_reducible refine does_dropPages ?_ ?_
    | with_reducible refine does_endReq ?_ ?_
    | with_reducible refine does_modReq ?_ ?_
    | with_reducible refine Does.ite ?_ ?_
    | split

theorem does_restored {m : Nat} {s t : State} {x1 : Nat} {x2 : Nat} (hm : 18609436610529067082 ||| m = m) (h : Does m s t) :
    Does m s (State.restored t x1 x2) := by
  refine h.after (c := 18609436610529067082) ?_ hm
  unfold State.restored
  repeat' first
    | exact (Eq.refl _ : (_ : Nat) = _)
    | with_reducible exact Does.refl _ _
    | with_reducible refine does_freeHusk ?_ ?_
    | with_reducible refine does_modReq ?_ ?_
    | with_reducible refine Does.ite ?_ ?_
    | split

theorem does_commitItem {m : Nat} {s t : State} {x1 : Nat} {x2 : Nat} {x3 : BItem} {x4 : StepBatch} (hm : 18609436610529067082 ||| m = m) (h : Does m s t) :
    Does m s (State.commitItem t x1 x2 x3 x4) := by
  refine h.after (c := 18609436610529067082) ?_ hm
  unfold State.commitItem
  dsimp only
  repeat' first
    | exact (Eq.refl _ : (_ : Nat) = _)
    | with_reducible exact Does.refl _ _
    | with_reducible refine does_applyTokens ?_ ?_
    | with_reducible refine does_emitTokens ?_ ?_
    | with_reducible refine does_endReq ?_ ?_
    | with_reducible refine does_finishReq ?_ ?_
    | with_reducible refine does_modReq ?_ ?_
    | with_reducible refine does_parkPoison ?_ ?_
    | with_reducible refine does_restored ?_ ?_
    | with_reducible refine Does.of_fst (by assumption) ?_
    | with_reducible refine Does.ite ?_ ?_
    | split

theorem does_stage9Done {m : Nat} {s t : State} {x1 : Nat} (hm : 144115188076654594 ||| m = m) (h : Does m s t) :
    Does m s (State.stage9Done t x1) := by
  refine h.after (c := 144115188076654594) ?_ hm
  unfold State.stage9Done
  dsimp only
  repeat' first
    | exact (Eq.refl _ : (_ : Nat) = _)
    | with_reducible exact Does.refl _ _
    | with_reducible refine does_modPart ?_ ?_
    | with_reducible refine does_modSv ?_ ?_
    | with_reducible refine does_signal ?_ ?_

theorem does_commitGo {m : Nat} {s t : State} {x1 : Nat} {x2 : Nat} (hm : 18609436610529079370 ||| m = m) (h : Does m s t) :
    Does m s (State.commitGo t x1 x2) := by
  refine h.after (c := 18609436610529079370) ?_ hm
  clear h
  induction x2 generalizing t x1 with
  | zero =>
    unfold State.commitGo
    repeat' first
      | exact (Eq.refl _ : (_ : Nat) = _)
      | with_reducible exact Does.refl _ _
      | with_reducible refine does_commitItem ?_ ?_
      | with_reducible refine does_modSv ?_ ?_
      | with_reducible refine does_stage9Done ?_ ?_
      | with_reducible refine Does.ite ?_ ?_
      | split
  | succ n ih =>
    unfold State.commitGo
    try dsimp only
    repeat' first
      | with_reducible refine Does.after (c := 18609436610529079370) ?_ ih ?_
      | exact (Eq.refl _ : (_ : Nat) = _)
      | with_reducible exact Does.refl _ _
      | with_reducible refine does_commitItem ?_ ?_
      | with_reducible refine does_modSv ?_ ?_
      | with_reducible refine does_stage9Done ?_ ?_
      | with_reducible refine Does.ite ?_ ?_
      | split

theorem does_replayDiffers {m : Nat} {s t : State} {x1 : Nat} (hm : 18446744216521146434 ||| m = m) (h : Does m s t) :
    Does m s (State.replayDiffers t x1) := by
  refine h.after (c := 18446744216521146434) ?_ hm
  unfold State.replayDiffers
  dsimp only
  repeat' first
    | exact (Eq.refl _ : (_ : Nat) = _)
    | with_reducible exact Does.refl _ _
    | with_reducible refine does_igEvent ?_ ?_
    | with_reducible refine does_suspectSlice ?_ ?_
    | with_reducible assumption
    | with_reducible refine Does.foldl (fun _ _ _ => ?_) ?_
    | with_reducible refine Does.foldl_pair (fun _ _ _ => ?_) ?_
    | split

theorem does_commit {m : Nat} {s t : State} {x1 : Nat} (hm : 23230129971023065674 ||| m = m) (h : Does m s t) :
    Does m s (State.commit t x1) := by
  refine h.after (c := 23230129971023065674) ?_ hm
  unfold State.commit
  dsimp only
  repeat' first
    | exact (Eq.refl _ : (_ : Nat) = _)
    | with_reducible exact Does.refl _ _
    | with_reducible refine does_adaptCorr ?_ ?_
    | with_reducible refine does_bump ?_ ?_
    | with_reducible refine does_commitGo ?_ ?_
    | with_reducible refine does_igEvent ?_ ?_
    | with_reducible refine does_modSv ?_ ?_
    | with_reducible refine does_replayDiffers ?_ ?_
    | with_reducible refine does_stage9Done ?_ ?_
    | with_reducible refine does_withholdRun ?_ ?_
    | with_reducible refine Does.ite ?_ ?_
    | split

theorem does_refill {m : Nat} {s t : State} {x1 : Nat} (hm : 144115188075855872 ||| m = m) (h : Does m s t) :
    Does m s (State.refill t x1) := by
  refine h.after (c := 144115188075855872) ?_ hm
  unfold State.refill
  dsimp only
  repeat' first
    | exact (Eq.refl _ : (_ : Nat) = _)
    | with_reducible exact Does.refl _ _
    | with_reducible refine does_modSv ?_ ?_

theorem does_tokenWrite {m : Nat} {s t : State} {x1 : Nat} (hm : 18619569709694857290 ||| m = m) (h : Does m s t) :
    Does m s (State.tokenWrite t x1) := by
  refine h.after (c := 18619569709694857290) ?_ hm
  unfold State.tokenWrite
  dsimp only
  repeat' first
    | exact (Eq.refl _ : (_ : Nat) = _)
    | with_reducible exact Does.refl _ _
    | with_reducible refine does_commitGo ?_ ?_
    | with_reducible refine does_modSv ?_ ?_
    | with_reducible refine does_nodeWrite ?_ ?_
    | with_reducible refine does_raise ?_ ?_
    | with_reducible refine does_recordWritten ?_ ?_
    | with_reducible refine does_refill ?_ ?_
    | with_reducible refine Does.of_fst (by assumption) ?_
    | with_reducible refine Does.ite ?_ ?_
    | split

end Sys2Proof.Machine
end

