-- ==== Sys2Proof/Laws/FrameFabric.lean ====
section
/-! SUPPORT. What the operations of Fabric change: the mask of the kinds of state each may touch. -/

namespace Sys2Proof.Machine

theorem does_contribReceive {m : Nat} {s t : State} {x1 : Nat} {x2 : List Byte} (hm : 18456314497803747402 ||| m = m) (h : Does m s t) :
    Does m s (State.contribReceive t x1 x2) := by
  refine h.after (c := 18456314497803747402) ?_ hm
  unfold State.contribReceive
  dsimp only
  repeat' first
    | exact (Eq.refl _ : (_ : Nat) = _)
    | with_reducible exact Does.refl _ _
    | with_reducible refine does_contribTake ?_ ?_
    | with_reducible refine Does.ite ?_ ?_
    | split

theorem does_fabCfgWrite {m : Nat} {s t : State} {x1 : Word} (hm : 4611686018427387906 ||| m = m) (h : Does m s t) :
    Does m s (State.fabCfgWrite t x1) := by
  refine h.after (c := 4611686018427387906) ?_ hm
  unfold State.fabCfgWrite
  dsimp only
  repeat' first
    | exact (Eq.refl _ : (_ : Nat) = _)
    | with_reducible exact Does.refl _ _
    | with_reducible refine does_ends ?_ ?_
    | with_reducible refine does_setReg ?_ ?_
    | with_reducible refine Does.ite ?_ ?_
    | split

theorem does_linkFec {m : Nat} {s t : State} {x1 : Nat} {x2 : Nat} (hm : 18447307023666905154 ||| m = m) (h : Does m s t) :
    Does m s (State.linkFec t x1 x2) := by
  refine h.after (c := 18447307023666905154) ?_ hm
  unfold State.linkFec
  dsimp only
  repeat' first
    | exact (Eq.refl _ : (_ : Nat) = _)
    | with_reducible exact Does.refl _ _
    | with_reducible refine does_bump ?_ ?_
    | with_reducible refine does_modLink ?_ ?_
    | with_reducible refine does_raise ?_ ?_
    | with_reducible refine Does.ite ?_ ?_
    | split

theorem does_linkReplay {m : Nat} {s t : State} {x1 : Nat} (hm : 562949957615618 ||| m = m) (h : Does m s t) :
    Does m s (State.linkReplay t x1) := by
  refine h.after (c := 562949957615618) ?_ hm
  unfold State.linkReplay
  dsimp only
  repeat' first
    | exact (Eq.refl _ : (_ : Nat) = _)
    | with_reducible exact Does.refl _ _
    | with_reducible refine does_bump ?_ ?_
    | with_reducible refine does_emit ?_ ?_
    | with_reducible refine does_modLink ?_ ?_
    | with_reducible assumption
    | with_reducible refine Does.foldl (fun _ _ _ => ?_) ?_
    | with_reducible refine Does.foldl_pair (fun _ _ _ => ?_) ?_
    | with_reducible refine Does.ite ?_ ?_
    | split

theorem does_flitReceive {m : Nat} {s t : State} {x1 : Nat} {x2 : List Byte} {x3 : Bool} {x4 : Nat} (hm : 18447307023671099458 ||| m = m) (h : Does m s t) :
    Does m s (State.flitReceive t x1 x2 x3 x4) := by
  refine h.after (c := 18447307023671099458) ?_ hm
  unfold State.flitReceive
  dsimp only
  repeat' first
    | exact (Eq.refl _ : (_ : Nat) = _)
    | with_reducible exact Does.refl _ _
    | with_reducible refine does_bump ?_ ?_
    | with_reducible refine does_drainLink ?_ ?_
    | with_reducible refine does_emit ?_ ?_
    | with_reducible refine does_linkFec ?_ ?_
    | with_reducible refine does_linkReplay ?_ ?_
    | with_reducible refine does_modLink ?_ ?_
    | with_reducible refine Does.ite ?_ ?_
    | split

theorem does_freeReq {m : Nat} {s t : State} {x1 : Nat} {x2 : Nat} (hm : 1125899906842624 ||| m = m) (h : Does m s t) :
    Does m s (State.freeReq t x1 x2) := by
  refine h.after (c := 1125899906842624) ?_ hm
  unfold State.freeReq
  repeat' first
    | exact (Eq.refl _ : (_ : Nat) = _)
    | with_reducible exact Does.refl _ _
    | with_reducible refine does_modPort ?_ ?_

theorem does_haltForPeer {m : Nat} {s t : State} {x1 : Nat} (hm : 9570153508110850 ||| m = m) (h : Does m s t) :
    Does m s (State.haltForPeer t x1) := by
  refine h.after (c := 9570153508110850) ?_ hm
  unfold State.haltForPeer
  repeat' first
    | exact (Eq.refl _ : (_ : Nat) = _)
    | with_reducible exact Does.refl _ _
    | with_reducible refine does_haltSlot ?_ ?_
    | with_reducible refine does_leaderHalt ?_ ?_
    | with_reducible assumption
    | with_reducible refine Does.foldl (fun _ _ _ => ?_) ?_
    | with_reducible refine Does.foldl_pair (fun _ _ _ => ?_) ?_
    | with_reducible refine Does.ite ?_ ?_
    | split

theorem does_linkTrain {m : Nat} {s t : State} {x1 : Nat} (hm : 562949957615616 ||| m = m) (h : Does m s t) :
    Does m s (State.linkTrain t x1) := by
  refine h.after (c := 562949957615616) ?_ hm
  unfold State.linkTrain
  repeat' first
    | exact (Eq.refl _ : (_ : Nat) = _)
    | with_reducible exact Does.refl _ _
    | with_reducible refine does_modLink ?_ ?_
    | with_reducible refine does_sendFrame ?_ ?_

theorem does_linkAutoRetrain {m : Nat} {s t : State} {x1 : Nat} (hm : 562949957615873 ||| m = m) (h : Does m s t) :
    Does m s (State.linkAutoRetrain t x1) := by
  refine h.after (c := 562949957615873) ?_ hm
  unfold State.linkAutoRetrain
  dsimp only
  repeat' first
    | exact (Eq.refl _ : (_ : Nat) = _)
    | with_reducible exact Does.refl _ _
    | with_reducible refine does_linkTrain ?_ ?_
    | with_reducible refine does_waitClk ?_ ?_
    | with_reducible refine Does.ite ?_ ?_
    | split

theorem does_requeue {m : Nat} {s t : State} {x1 : Option Nat} {x2 : QMsg} {x3 : State → QMsg → State} (hm : 18456314222925840450 ||| m = m)
    (hg : ∀ u x, Does m s u → Does m s (x3 u x)) (h : Does m s t) :
    Does m s (State.requeue t x1 x2 x3) := by
  unfold State.requeue
  repeat' first
    | exact lor_trans (Eq.refl _ : _ ||| 18456314222925840450 = _) hm
    | with_reducible exact h
    | with_reducible refine does_queueOn ?_ ?_
    | with_reducible refine does_routeLink ?_ ?_
    | apply hg
    | with_reducible refine Does.of_fst (by assumption) ?_
    | split

theorem does_linkLeave {m : Nat} {s t : State} {x1 : Nat} {x2 : LinkMode} {x3 : Nat} {x4 : State → QMsg → State} (hm : 18456314222925840450 ||| m = m)
    (hg : ∀ u x, Does m s u → Does m s (x4 u x)) (h : Does m s t) :
    Does m s (State.linkLeave t x1 x2 x3 x4) := by
  unfold State.linkLeave
  dsimp only
  repeat' first
    | exact lor_trans (Eq.refl _ : _ ||| 18456314222925840450 = _) hm
    | with_reducible exact h
    | with_reducible assumption
    | with_reducible refine Does.foldl (fun _ _ _ => ?_) ?_
    | with_reducible refine does_requeue ?_ hg ?_
    | with_reducible refine does_modLink ?_ ?_

theorem does_relayIssue {m : Nat} {s t : State} {x1 : Nat} {x2 : List Byte} (hm : 18457440122832683074 ||| m = m) (h : Does m s t) :
    Does m s (State.relayIssue t x1 x2) := by
  refine h.after (c := 18457440122832683074) ?_ hm
  unfold State.relayIssue
  dsimp only
  repeat' first
    | exact (Eq.refl _ : (_ : Nat) = _)
    | with_reducible exact Does.refl _ _
    | with_reducible refine does_bump ?_ ?_
    | with_reducible refine does_freeReq ?_ ?_
    | with_reducible refine does_sendRelay ?_ ?_
    | with_reducible refine does_sendRsp ?_ ?_
    | with_reducible refine Does.of_fst (by assumption) ?_
    | with_reducible refine Does.ite ?_ ?_
    | split

theorem does_relayNext {m : Nat} {s t : State} {x1 : Nat} (hm : 18457440122832683074 ||| m = m) (h : Does m s t) :
    Does m s (State.relayNext t x1) := by
  refine h.after (c := 18457440122832683074) ?_ hm
  unfold State.relayNext
  repeat' first
    | exact (Eq.refl _ : (_ : Nat) = _)
    | with_reducible exact Does.refl _ _
    | with_reducible refine does_modFabric ?_ ?_
    | with_reducible refine does_relayIssue ?_ ?_
    | split

theorem does_useDone {m : Nat} {s t : State} {x1 : ReqUse} {x2 : Status} {x3 : List Byte} (hm : 18464477272405250122 ||| m = m) (h : Does m s t) :
    Does m s (State.useDone t x1 x2 x3) := by
  refine h.after (c := 18464477272405250122) ?_ hm
  unfold State.useDone
  dsimp only
  repeat' first
    | exact (Eq.refl _ : (_ : Nat) = _)
    | with_reducible exact Does.refl _ _
    | with_reducible refine does_collAnswer ?_ ?_
    | with_reducible refine does_freeReq ?_ ?_
    | with_reducible refine does_relayNext ?_ ?_
    | with_reducible refine does_respond ?_ ?_
    | with_reducible refine does_sendRsp ?_ ?_
    | with_reducible refine does_xAnswer ?_ ?_
    | with_reducible refine Does.ite ?_ ?_
    | split

theorem does_writeReject {m : Nat} {s t : State} {x1 : Nat} {x2 : Nat} {x3 : Status} (hm : 18446744073713483842 ||| m = m) (h : Does m s t) :
    Does m s (State.writeReject t x1 x2 x3) := by
  refine h.after (c := 18446744073713483842) ?_ hm
  unfold State.writeReject
  dsimp only
  repeat' first
    | exact (Eq.refl _ : (_ : Nat) = _)
    | with_reducible exact Does.refl _ _
    | with_reducible refine does_bump ?_ ?_
    | with_reducible refine does_raise ?_ ?_

theorem does_reqDone {m : Nat} {s t : State} {x1 : Req} {x2 : Status} {x3 : optParam (List Byte) []} (hm : 18464477272405250122 ||| m = m) (h : Does m s t) :
    Does m s (State.reqDone t x1 x2 x3) := by
  refine h.after (c := 18464477272405250122) ?_ hm
  unfold State.reqDone
  dsimp only
  repeat' first
    | exact (Eq.refl _ : (_ : Nat) = _)
    | with_reducible exact Does.refl _ _
    | with_reducible refine does_dropReq ?_ ?_
    | with_reducible refine does_freeReq ?_ ?_
    | with_reducible refine does_useDone ?_ ?_
    | with_reducible refine does_writeReject ?_ ?_
    | with_reducible refine Does.ite ?_ ?_
    | split

theorem does_msgLost {m : Nat} {s t : State} {x1 : QMsg} (hm : 18464477272405250122 ||| m = m) (h : Does m s t) :
    Does m s (State.msgLost t x1) := by
  refine h.after (c := 18464477272405250122) ?_ hm
  unfold State.msgLost
  dsimp only
  repeat' first
    | exact (Eq.refl _ : (_ : Nat) = _)
    | with_reducible exact Does.refl _ _
    | with_reducible refine does_reqDone ?_ ?_
    | with_reducible refine Does.ite ?_ ?_
    | split

theorem does_linkDisable {m : Nat} {s t : State} {x1 : Nat} (hm : 18464477272405250122 ||| m = m) (h : Does m s t) :
    Does m s (State.linkDisable t x1) := by
  refine h.after (c := 18464477272405250122) ?_ hm
  unfold State.linkDisable
  repeat' first
    | exact (Eq.refl _ : (_ : Nat) = _)
    | with_reducible exact Does.refl _ _
    | with_reducible refine does_linkLeave ?_ (fun _ _ _ => ?_) ?_
    | with_reducible refine does_msgLost ?_ ?_
    | with_reducible assumption

theorem does_linkDown {m : Nat} {s t : State} {x1 : Nat} (hm : 18464477272405250379 ||| m = m) (h : Does m s t) :
    Does m s (State.linkDown t x1) := by
  refine h.after (c := 18464477272405250379) ?_ hm
  unfold State.linkDown
  dsimp only
  repeat' first
    | exact (Eq.refl _ : (_ : Nat) = _)
    | with_reducible exact Does.refl _ _
    | with_reducible refine does_bump ?_ ?_
    | with_reducible refine does_linkLeave ?_ (fun _ _ _ => ?_) ?_
    | with_reducible refine does_msgLost ?_ ?_
    | with_reducible refine does_raise ?_ ?_
    | with_reducible refine does_waitClk ?_ ?_
    | with_reducible assumption
    | with_reducible refine Does.ite ?_ ?_
    | split

theorem does_linkEnable {m : Nat} {s t : State} {x1 : Nat} (hm : 562949957615616 ||| m = m) (h : Does m s t) :
    Does m s (State.linkEnable t x1) := by
  refine h.after (c := 562949957615616) ?_ hm
  unfold State.linkEnable
  repeat' first
    | exact (Eq.refl _ : (_ : Nat) = _)
    | with_reducible exact Does.refl _ _
    | with_reducible refine does_linkTrain ?_ ?_

theorem does_trainFrame {m : Nat} {s t : State} {x1 : Nat} {x2 : CType} {x3 : List Byte} (hm : 562949957615616 ||| m = m) (h : Does m s t) :
    Does m s (State.trainFrame t x1 x2 x3) := by
  refine h.after (c := 562949957615616) ?_ hm
  unfold State.trainFrame
  repeat' first
    | exact (Eq.refl _ : (_ : Nat) = _)
    | with_reducible exact Does.refl _ _
    | with_reducible refine does_sendFrame ?_ ?_

theorem does_linkPing {m : Nat} {s t : State} {x1 : Nat} (hm : 562949957615616 ||| m = m) (h : Does m s t) :
    Does m s (State.linkPing t x1) := by
  refine h.after (c := 562949957615616) ?_ hm
  unfold State.linkPing
  repeat' first
    | exact (Eq.refl _ : (_ : Nat) = _)
    | with_reducible exact Does.refl _ _
    | with_reducible refine does_modLink ?_ ?_
    | with_reducible refine does_trainFrame ?_ ?_

theorem does_linkIdent {m : Nat} {s t : State} {x1 : Nat} {x2 : List Byte} (hm : 18447307023671099458 ||| m = m) (h : Does m s t) :
    Does m s (State.linkIdent t x1 x2) := by
  refine h.after (c := 18447307023671099458) ?_ hm
  unfold State.linkIdent
  dsimp only
  repeat' first
    | exact (Eq.refl _ : (_ : Nat) = _)
    | with_reducible exact Does.refl _ _
    | with_reducible refine does_linkPing ?_ ?_
    | with_reducible refine does_modLink ?_ ?_
    | with_reducible refine does_raise ?_ ?_
    | with_reducible refine Does.ite ?_ ?_
    | split

theorem does_linkPinged {m : Nat} {s t : State} {x1 : Nat} {x2 : List Byte} (hm : 562949957615616 ||| m = m) (h : Does m s t) :
    Does m s (State.linkPinged t x1 x2) := by
  refine h.after (c := 562949957615616) ?_ hm
  unfold State.linkPinged
  dsimp only
  repeat' first
    | exact (Eq.refl _ : (_ : Nat) = _)
    | with_reducible exact Does.refl _ _
    | with_reducible refine does_trainFrame ?_ ?_
    | with_reducible refine Does.ite ?_ ?_
    | split

theorem does_linkPonged {m : Nat} {s t : State} {x1 : Nat} {x2 : List Byte} (hm : 562949957615616 ||| m = m) (h : Does m s t) :
    Does m s (State.linkPonged t x1 x2) := by
  refine h.after (c := 562949957615616) ?_ hm
  unfold State.linkPonged
  dsimp only
  repeat' first
    | exact (Eq.refl _ : (_ : Nat) = _)
    | with_reducible exact Does.refl _ _
    | with_reducible refine does_linkPing ?_ ?_
    | with_reducible refine does_modLink ?_ ?_
    | with_reducible refine Does.ite ?_ ?_
    | split

theorem does_linkRetrain {m : Nat} {s t : State} {x1 : Nat} (hm : 18464477272405250122 ||| m = m) (h : Does m s t) :
    Does m s (State.linkRetrain t x1) := by
  refine h.after (c := 18464477272405250122) ?_ hm
  unfold State.linkRetrain
  repeat' first
    | exact (Eq.refl _ : (_ : Nat) = _)
    | with_reducible exact Does.refl _ _
    | with_reducible refine does_linkLeave ?_ (fun _ _ _ => ?_) ?_
    | with_reducible refine does_linkTrain ?_ ?_
    | with_reducible refine does_msgLost ?_ ?_
    | with_reducible assumption

theorem does_linkTrainDone {m : Nat} {s t : State} {x1 : Nat} (hm : 18447307023666905154 ||| m = m) (h : Does m s t) :
    Does m s (State.linkTrainDone t x1) := by
  refine h.after (c := 18447307023666905154) ?_ hm
  unfold State.linkTrainDone
  dsimp only
  repeat' first
    | exact (Eq.refl _ : (_ : Nat) = _)
    | with_reducible exact Does.refl _ _
    | with_reducible refine does_modLink ?_ ?_
    | with_reducible refine does_raise ?_ ?_
    | with_reducible refine Does.ite ?_ ?_
    | split

theorem does_linkTrainFail {m : Nat} {s t : State} {x1 : Nat} (hm : 18447307023666905411 ||| m = m) (h : Does m s t) :
    Does m s (State.linkTrainFail t x1) := by
  refine h.after (c := 18447307023666905411) ?_ hm
  unfold State.linkTrainFail
  dsimp only
  repeat' first
    | exact (Eq.refl _ : (_ : Nat) = _)
    | with_reducible exact Does.refl _ _
    | with_reducible refine does_modLink ?_ ?_
    | with_reducible refine does_raise ?_ ?_
    | with_reducible refine does_waitClk ?_ ?_
    | with_reducible refine Does.ite ?_ ?_
    | split

theorem does_losePeer {m : Nat} {s t : State} {x1 : Nat} (hm : 18464477276700217930 ||| m = m) (h : Does m s t) :
    Does m s (State.losePeer t x1) := by
  refine h.after (c := 18464477276700217930) ?_ hm
  unfold State.losePeer
  dsimp only
  repeat' first
    | exact (Eq.refl _ : (_ : Nat) = _)
    | with_reducible exact Does.refl _ _
    | with_reducible refine does_collPeerLost ?_ ?_
    | with_reducible refine does_haltForPeer ?_ ?_
    | with_reducible refine does_modFabric ?_ ?_
    | with_reducible refine does_raise ?_ ?_
    | with_reducible refine does_reqDone ?_ ?_
    | with_reducible assumption
    | with_reducible refine Does.foldl (fun _ _ _ => ?_) ?_
    | with_reducible refine Does.foldl_pair (fun _ _ _ => ?_) ?_

theorem does_liveReceive {m : Nat} {s t : State} {x1 : Nat} {x2 : List Byte} (hm : 18464477276700217930 ||| m = m) (h : Does m s t) :
    Does m s (State.liveReceive t x1 x2) := by
  refine h.after (c := 18464477276700217930) ?_ hm
  unfold State.liveReceive
  dsimp only
  repeat' first
    | exact (Eq.refl _ : (_ : Nat) = _)
    | with_reducible exact Does.refl _ _
    | with_reducible refine does_floodFrame ?_ ?_
    | with_reducible refine does_losePeer ?_ ?_
    | with_reducible refine does_modFabric ?_ ?_
    | with_reducible refine does_modLink ?_ ?_
    | with_reducible refine does_raise ?_ ?_
    | with_reducible refine Does.ite ?_ ?_
    | split

theorem does_liveSend {m : Nat} {s t : State}  (hm : 9570149212356881 ||| m = m) (h : Does m s t) :
    Does m s (State.liveSend t) := by
  refine h.after (c := 9570149212356881) ?_ hm
  unfold State.liveSend
  dsimp only
  repeat' first
    | exact (Eq.refl _ : (_ : Nat) = _)
    | with_reducible exact Does.refl _ _
    | with_reducible refine does_floodFrame ?_ ?_
    | with_reducible refine does_modFabric ?_ ?_
    | with_reducible refine does_periodic ?_ ?_
    | with_reducible refine Does.ite ?_ ?_
    | split

theorem does_lnkCtrlWrite {m : Nat} {s t : State} {x1 : Nat} {x2 : Word} (hm : 23076163290832638026 ||| m = m) (h : Does m s t) :
    Does m s (State.lnkCtrlWrite t x1 x2) := by
  refine h.after (c := 23076163290832638026) ?_ hm
  unfold State.lnkCtrlWrite
  dsimp only
  repeat' first
    | exact (Eq.refl _ : (_ : Nat) = _)
    | with_reducible exact Does.refl _ _
    | with_reducible refine does_ends ?_ ?_
    | with_reducible refine does_linkDisable ?_ ?_
    | with_reducible refine does_linkEnable ?_ ?_
    | with_reducible refine does_linkRetrain ?_ ?_
    | with_reducible refine does_setReg ?_ ?_
    | with_reducible refine Does.ite ?_ ?_
    | split

theorem does_messageForward {m : Nat} {s t : State} {x1 : Nat} {x2 : Nat} {x3 : List Byte} (hm : 18456314222925840450 ||| m = m) (h : Does m s t) :
    Does m s (State.messageForward t x1 x2 x3) := by
  refine h.after (c := 18456314222925840450) ?_ hm
  unfold State.messageForward
  dsimp only
  repeat' first
    | exact (Eq.refl _ : (_ : Nat) = _)
    | with_reducible exact Does.refl _ _
    | with_reducible refine does_queueOn ?_ ?_
    | with_reducible refine does_routeLink ?_ ?_
    | with_reducible refine Does.of_fst (by assumption) ?_
    | with_reducible refine Does.ite ?_ ?_
    | split

theorem does_messageResend {m : Nat} {s t : State}  (hm : 18456314222925840707 ||| m = m) (h : Does m s t) :
    Does m s (State.messageResend t) := by
  refine h.after (c := 18456314222925840707) ?_ hm
  unfold State.messageResend
  dsimp only
  repeat' first
    | exact (Eq.refl _ : (_ : Nat) = _)
    | with_reducible exact Does.refl _ _
    | with_reducible refine does_modFabric ?_ ?_
    | with_reducible refine does_sendMsg ?_ ?_
    | with_reducible refine does_waitClk ?_ ?_
    | with_reducible refine Does.of_fst (by assumption) ?_
    | with_reducible refine Does.ite ?_ ?_
    | split

theorem does_relayRequest {m : Nat} {s t : State} {x1 : Nat} {x2 : List Byte} (hm : 18457440122832683074 ||| m = m) (h : Does m s t) :
    Does m s (State.relayRequest t x1 x2) := by
  refine h.after (c := 18457440122832683074) ?_ hm
  unfold State.relayRequest
  repeat' first
    | exact (Eq.refl _ : (_ : Nat) = _)
    | with_reducible exact Does.refl _ _
    | with_reducible refine does_modFabric ?_ ?_
    | with_reducible refine does_relayIssue ?_ ?_
    | with_reducible refine Does.ite ?_ ?_
    | split

theorem does_peerTimeout {m : Nat} {s t : State} {x1 : Nat} (hm : 18464477276700218187 ||| m = m) (h : Does m s t) :
    Does m s (State.peerTimeout t x1) := by
  refine h.after (c := 18464477276700218187) ?_ hm
  unfold State.peerTimeout
  dsimp only
  repeat' first
    | exact (Eq.refl _ : (_ : Nat) = _)
    | with_reducible exact Does.refl _ _
    | with_reducible refine does_losePeer ?_ ?_
    | with_reducible refine does_waitClk ?_ ?_
    | with_reducible refine Does.ite ?_ ?_
    | split

theorem does_relayResp {m : Nat} {s t : State} {x1 : Nat} {x2 : List Byte} (hm : 18464477272405250122 ||| m = m) (h : Does m s t) :
    Does m s (State.relayResp t x1 x2) := by
  refine h.after (c := 18464477272405250122) ?_ hm
  unfold State.relayResp
  dsimp only
  repeat' first
    | exact (Eq.refl _ : (_ : Nat) = _)
    | with_reducible exact Does.refl _ _
    | with_reducible refine does_reqDone ?_ ?_
    | with_reducible refine Does.ite ?_ ?_
    | split

theorem does_remoteRead {m : Nat} {s t : State} {x1 : Nat} {x2 : List Byte} (hm : 18456314223202664522 ||| m = m) (h : Does m s t) :
    Does m s (State.remoteRead t x1 x2) := by
  refine h.after (c := 18456314223202664522) ?_ hm
  unfold State.remoteRead
  dsimp only
  repeat' first
    | exact (Eq.refl _ : (_ : Nat) = _)
    | with_reducible exact Does.refl _ _
    | with_reducible refine does_devRead ?_ ?_
    | with_reducible refine does_respond ?_ ?_
    | with_reducible refine Does.of_fst (by assumption) ?_
    | with_reducible refine Does.ite ?_ ?_
    | split

theorem does_remoteResp {m : Nat} {s t : State} {x1 : Nat} {x2 : List Byte} (hm : 18464477272405250122 ||| m = m) (h : Does m s t) :
    Does m s (State.remoteResp t x1 x2) := by
  refine h.after (c := 18464477272405250122) ?_ hm
  unfold State.remoteResp
  dsimp only
  repeat' first
    | exact (Eq.refl _ : (_ : Nat) = _)
    | with_reducible exact Does.refl _ _
    | with_reducible refine does_reqDone ?_ ?_
    | with_reducible refine Does.ite ?_ ?_
    | split

theorem does_remoteSignal {m : Nat} {s t : State} {x1 : Nat} {x2 : List Byte} (hm : 18456314222925844546 ||| m = m) (h : Does m s t) :
    Does m s (State.remoteSignal t x1 x2) := by
  refine h.after (c := 18456314222925844546) ?_ hm
  unfold State.remoteSignal
  dsimp only
  repeat' first
    | exact (Eq.refl _ : (_ : Nat) = _)
    | with_reducible exact Does.refl _ _
    | with_reducible refine does_noteAnswer ?_ ?_
    | with_reducible refine does_respond ?_ ?_
    | with_reducible refine does_signal ?_ ?_
    | with_reducible refine Does.ite ?_ ?_
    | split

theorem does_remoteWrite {m : Nat} {s t : State} {x1 : Nat} {x2 : List Byte} (hm : 18456314223202664522 ||| m = m) (h : Does m s t) :
    Does m s (State.remoteWrite t x1 x2) := by
  refine h.after (c := 18456314223202664522) ?_ hm
  unfold State.remoteWrite
  dsimp only
  repeat' first
    | exact (Eq.refl _ : (_ : Nat) = _)
    | with_reducible exact Does.refl _ _
    | with_reducible refine does_devWrite ?_ ?_
    | with_reducible refine does_noteAnswer ?_ ?_
    | with_reducible refine does_respond ?_ ?_
    | with_reducible refine Does.of_fst (by assumption) ?_
    | with_reducible refine Does.ite ?_ ?_
    | split

theorem does_transactionTimeout {m : Nat} {s t : State}  (hm : 18464477272405250379 ||| m = m) (h : Does m s t) :
    Does m s (State.transactionTimeout t) := by
  refine h.after (c := 18464477272405250379) ?_ hm
  unfold State.transactionTimeout
  dsimp only
  repeat' first
    | exact (Eq.refl _ : (_ : Nat) = _)
    | with_reducible exact Does.refl _ _
    | with_reducible refine does_reqDone ?_ ?_
    | with_reducible refine does_useDone ?_ ?_
    | with_reducible refine does_waitClk ?_ ?_
    | split
    | with_reducible refine does_set_nodeReqs ?_ ?_

end Sys2Proof.Machine
end

