-- ==== Sys2Proof/Laws/FrameDlk.lean ====
section
/-! SUPPORT. What the operations of Dlk change: the mask of the kinds of state each may touch. -/

namespace Sys2Proof.Machine

theorem does_portLeave {m : Nat} {s t : State} {x1 : Nat} {x2 : PortMode} {x3 : Nat} (hm : 10133099165777920 ||| m = m) (h : Does m s t) :
    Does m s (State.portLeave t x1 x2 x3) := by
  refine h.after (c := 10133099165777920) ?_ hm
  unfold State.portLeave
  dsimp only
  repeat' first
    | exact (Eq.refl _ : (_ : Nat) = _)
    | with_reducible exact Does.refl _ _
    | with_reducible refine does_modFabric ?_ ?_
    | with_reducible refine does_modPort ?_ ?_
    | with_reducible refine does_portSend ?_ ?_
    | with_reducible assumption
    | with_reducible refine Does.foldl (fun _ _ _ => ?_) ?_
    | with_reducible refine Does.foldl_pair (fun _ _ _ => ?_) ?_
    | split

theorem does_portDisable {m : Nat} {s t : State} {x1 : Nat} (hm : 10133099165777920 ||| m = m) (h : Does m s t) :
    Does m s (State.portDisable t x1) := by
  refine h.after (c := 10133099165777920) ?_ hm
  unfold State.portDisable
  repeat' first
    | exact (Eq.refl _ : (_ : Nat) = _)
    | with_reducible exact Does.refl _ _
    | with_reducible refine does_portLeave ?_ ?_

theorem does_portEnable {m : Nat} {s t : State} {x1 : Nat} (hm : 1125899911036928 ||| m = m) (h : Does m s t) :
    Does m s (State.portEnable t x1) := by
  refine h.after (c := 1125899911036928) ?_ hm
  unfold State.portEnable
  repeat' first
    | exact (Eq.refl _ : (_ : Nat) = _)
    | with_reducible exact Does.refl _ _
    | with_reducible refine does_portTrain ?_ ?_

theorem does_portRetrain {m : Nat} {s t : State} {x1 : Nat} (hm : 10133099165777920 ||| m = m) (h : Does m s t) :
    Does m s (State.portRetrain t x1) := by
  refine h.after (c := 10133099165777920) ?_ hm
  unfold State.portRetrain
  repeat' first
    | exact (Eq.refl _ : (_ : Nat) = _)
    | with_reducible exact Does.refl _ _
    | with_reducible refine does_portLeave ?_ ?_
    | with_reducible refine does_portTrain ?_ ?_

theorem does_dlkCtrlWrite {m : Nat} {s t : State} {x1 : Nat} {x2 : Word} (hm : 4621819117593165826 ||| m = m) (h : Does m s t) :
    Does m s (State.dlkCtrlWrite t x1 x2) := by
  refine h.after (c := 4621819117593165826) ?_ hm
  unfold State.dlkCtrlWrite
  dsimp only
  repeat' first
    | exact (Eq.refl _ : (_ : Nat) = _)
    | with_reducible exact Does.refl _ _
    | with_reducible refine does_ends ?_ ?_
    | with_reducible refine does_portDisable ?_ ?_
    | with_reducible refine does_portEnable ?_ ?_
    | with_reducible refine does_portRetrain ?_ ?_
    | with_reducible refine does_setReg ?_ ?_
    | with_reducible refine Does.ite ?_ ?_
    | split

theorem does_portReplay {m : Nat} {s t : State} {x1 : Nat} (hm : 1125899911036930 ||| m = m) (h : Does m s t) :
    Does m s (State.portReplay t x1) := by
  refine h.after (c := 1125899911036930) ?_ hm
  unfold State.portReplay
  dsimp only
  repeat' first
    | exact (Eq.refl _ : (_ : Nat) = _)
    | with_reducible exact Does.refl _ _
    | with_reducible refine does_bump ?_ ?_
    | with_reducible refine does_emit ?_ ?_
    | with_reducible refine does_modPort ?_ ?_
    | with_reducible assumption
    | with_reducible refine Does.foldl (fun _ _ _ => ?_) ?_
    | with_reducible refine Does.foldl_pair (fun _ _ _ => ?_) ?_
    | with_reducible refine Does.ite ?_ ?_
    | split

theorem does_frameReceive {m : Nat} {s t : State} {x1 : Nat} {x2 : List Byte} {x3 : Bool} {x4 : Nat} (hm : 1125899911036930 ||| m = m) (h : Does m s t) :
    Does m s (State.frameReceive t x1 x2 x3 x4) := by
  refine h.after (c := 1125899911036930) ?_ hm
  unfold State.frameReceive
  dsimp only
  repeat' first
    | exact (Eq.refl _ : (_ : Nat) = _)
    | with_reducible exact Does.refl _ _
    | with_reducible refine does_bump ?_ ?_
    | with_reducible refine does_drainPort ?_ ?_
    | with_reducible refine does_emit ?_ ?_
    | with_reducible refine does_modPort ?_ ?_
    | with_reducible refine does_portReplay ?_ ?_
    | with_reducible refine Does.ite ?_ ?_
    | split

theorem does_memRead {m : Nat} {s t : State} {x1 : Nat} {x2 : Trans} (hm : 18447307023943729226 ||| m = m) (h : Does m s t) :
    Does m s (State.memRead t x1 x2).1 := by
  refine h.after (c := 18447307023943729226) ?_ hm
  unfold State.memRead
  dsimp only
  repeat' first
    | exact (Eq.refl _ : (_ : Nat) = _)
    | with_reducible exact Does.refl _ _
    | with_reducible refine does_devRead ?_ ?_
    | with_reducible refine Does.ite_fst ?_ ?_
    | split

theorem does_memWrite {m : Nat} {s t : State} {x1 : Nat} {x2 : Trans} (hm : 18447307023943729226 ||| m = m) (h : Does m s t) :
    Does m s (State.memWrite t x1 x2).1 := by
  refine h.after (c := 18447307023943729226) ?_ hm
  unfold State.memWrite
  dsimp only
  repeat' first
    | exact (Eq.refl _ : (_ : Nat) = _)
    | with_reducible exact Does.refl _ _
    | with_reducible refine does_devWrite ?_ ?_
    | with_reducible refine Does.ite_fst ?_ ?_
    | split

theorem does_planWrite {m : Nat} {s t : State} {x1 : Nat} {x2 : Trans} (hm : 18447307023943729226 ||| m = m) (h : Does m s t) :
    Does m s (State.planWrite t x1 x2).1 := by
  refine h.after (c := 18447307023943729226) ?_ hm
  unfold State.planWrite
  dsimp only
  repeat' first
    | exact (Eq.refl _ : (_ : Nat) = _)
    | with_reducible exact Does.refl _ _
    | with_reducible refine does_devPut ?_ ?_
    | with_reducible refine does_devRead ?_ ?_
    | with_reducible refine does_devWrite ?_ ?_
    | with_reducible assumption
    | with_reducible refine Does.foldl (fun _ _ _ => ?_) ?_
    | with_reducible refine Does.foldl_pair (fun _ _ _ => ?_) ?_
    | with_reducible refine Does.ite_fst ?_ ?_
    | split

theorem does_portRequest {m : Nat} {s t : State} {x1 : Nat} {x2 : Nat} {x3 : List Byte} {x4 : State → Nat → Trans → State × Status × List Byte} (hm : 23069126141260070978 ||| m = m)
    (hg : ∀ u d x, Does m s u → Does m s (x4 u d x).1) (h : Does m s t) :
    Does m s (State.portRequest t x1 x2 x3 x4) := by
  unfold State.portRequest
  dsimp only
  repeat' first
    | exact lor_trans (Eq.refl _ : _ ||| 23069126141260070978 = _) hm
    | with_reducible exact h
    | with_reducible refine does_freeReq ?_ ?_
    | with_reducible refine does_ends ?_ ?_
    | with_reducible refine does_sendRsp ?_ ?_
    | with_reducible refine does_writeReject ?_ ?_
    | with_reducible refine does_relayRequest ?_ ?_
    | apply hg
    | split

theorem does_portAutoRetrain {m : Nat} {s t : State} {x1 : Nat} (hm : 1125899911037185 ||| m = m) (h : Does m s t) :
    Does m s (State.portAutoRetrain t x1) := by
  refine h.after (c := 1125899911037185) ?_ hm
  unfold State.portAutoRetrain
  dsimp only
  repeat' first
    | exact (Eq.refl _ : (_ : Nat) = _)
    | with_reducible exact Does.refl _ _
    | with_reducible refine does_portTrain ?_ ?_
    | with_reducible refine does_waitClk ?_ ?_
    | with_reducible refine Does.ite ?_ ?_
    | split

theorem does_portEvent {m : Nat} {s t : State} {x1 : Nat} {x2 : Nat} (hm : 18446744073713483842 ||| m = m) (h : Does m s t) :
    Does m s (State.portEvent t x1 x2) := by
  refine h.after (c := 18446744073713483842) ?_ hm
  unfold State.portEvent
  repeat' first
    | exact (Eq.refl _ : (_ : Nat) = _)
    | with_reducible exact Does.refl _ _
    | with_reducible refine does_raise ?_ ?_

theorem does_portDown {m : Nat} {s t : State} {x1 : Nat} {x2 : Bool} (hm : 18456877172879262019 ||| m = m) (h : Does m s t) :
    Does m s (State.portDown t x1 x2) := by
  refine h.after (c := 18456877172879262019) ?_ hm
  unfold State.portDown
  dsimp only
  repeat' first
    | exact (Eq.refl _ : (_ : Nat) = _)
    | with_reducible exact Does.refl _ _
    | with_reducible refine does_portEvent ?_ ?_
    | with_reducible refine does_portLeave ?_ ?_
    | with_reducible refine does_waitClk ?_ ?_
    | with_reducible refine Does.ite ?_ ?_
    | split

theorem does_portPing {m : Nat} {s t : State} {x1 : Nat} (hm : 1125899911036928 ||| m = m) (h : Does m s t) :
    Does m s (State.portPing t x1) := by
  refine h.after (c := 1125899911036928) ?_ hm
  unfold State.portPing
  repeat' first
    | exact (Eq.refl _ : (_ : Nat) = _)
    | with_reducible exact Does.refl _ _
    | with_reducible refine does_emit ?_ ?_
    | with_reducible refine does_modPort ?_ ?_

theorem does_portIdentIn {m : Nat} {s t : State} {x1 : Nat} {x2 : List Byte} (hm : 1125899911036928 ||| m = m) (h : Does m s t) :
    Does m s (State.portIdentIn t x1 x2) := by
  refine h.after (c := 1125899911036928) ?_ hm
  unfold State.portIdentIn
  dsimp only
  repeat' first
    | exact (Eq.refl _ : (_ : Nat) = _)
    | with_reducible exact Does.refl _ _
    | with_reducible refine does_modPort ?_ ?_
    | with_reducible refine does_portPing ?_ ?_
    | with_reducible refine Does.ite ?_ ?_
    | split

theorem does_portPingSend {m : Nat} {s t : State} {x1 : Nat} (hm : 1125899911037185 ||| m = m) (h : Does m s t) :
    Does m s (State.portPingSend t x1) := by
  refine h.after (c := 1125899911037185) ?_ hm
  unfold State.portPingSend
  repeat' first
    | exact (Eq.refl _ : (_ : Nat) = _)
    | with_reducible exact Does.refl _ _
    | with_reducible refine does_portPing ?_ ?_
    | with_reducible refine does_waitClk ?_ ?_
    | with_reducible refine Does.ite ?_ ?_
    | split

theorem does_portPinged {m : Nat} {s t : State} {x1 : Nat} {x2 : List Byte} (hm : 4194304 ||| m = m) (h : Does m s t) :
    Does m s (State.portPinged t x1 x2) := by
  refine h.after (c := 4194304) ?_ hm
  unfold State.portPinged
  dsimp only
  repeat' first
    | exact (Eq.refl _ : (_ : Nat) = _)
    | with_reducible exact Does.refl _ _
    | with_reducible refine does_emit ?_ ?_
    | with_reducible refine Does.ite ?_ ?_
    | split

theorem does_portPonged {m : Nat} {s t : State} {x1 : Nat} {x2 : List Byte} (hm : 1125899911036928 ||| m = m) (h : Does m s t) :
    Does m s (State.portPonged t x1 x2) := by
  refine h.after (c := 1125899911036928) ?_ hm
  unfold State.portPonged
  dsimp only
  repeat' first
    | exact (Eq.refl _ : (_ : Nat) = _)
    | with_reducible exact Does.refl _ _
    | with_reducible refine does_modPort ?_ ?_
    | with_reducible refine does_portPing ?_ ?_
    | with_reducible assumption
    | with_reducible refine Does.foldl (fun _ _ _ => ?_) ?_
    | with_reducible refine Does.foldl_pair (fun _ _ _ => ?_) ?_
    | with_reducible refine Does.ite ?_ ?_
    | split

theorem does_portTrainDone {m : Nat} {s t : State} {x1 : Nat} (hm : 18447869973624520770 ||| m = m) (h : Does m s t) :
    Does m s (State.portTrainDone t x1) := by
  refine h.after (c := 18447869973624520770) ?_ hm
  unfold State.portTrainDone
  dsimp only
  repeat' first
    | exact (Eq.refl _ : (_ : Nat) = _)
    | with_reducible exact Does.refl _ _
    | with_reducible refine does_drainPort ?_ ?_
    | with_reducible refine does_modPort ?_ ?_
    | with_reducible refine does_portEvent ?_ ?_
    | with_reducible refine does_portSend ?_ ?_
    | with_reducible assumption
    | with_reducible refine Does.foldl (fun _ _ _ => ?_) ?_
    | with_reducible refine Does.foldl_pair (fun _ _ _ => ?_) ?_
    | with_reducible refine Does.ite ?_ ?_
    | split

theorem does_portTrainFail {m : Nat} {s t : State} {x1 : Nat} (hm : 18447869973620326723 ||| m = m) (h : Does m s t) :
    Does m s (State.portTrainFail t x1) := by
  refine h.after (c := 18447869973620326723) ?_ hm
  unfold State.portTrainFail
  dsimp only
  repeat' first
    | exact (Eq.refl _ : (_ : Nat) = _)
    | with_reducible exact Does.refl _ _
    | with_reducible refine does_modPort ?_ ?_
    | with_reducible refine does_portEvent ?_ ?_
    | with_reducible refine does_waitClk ?_ ?_
    | with_reducible refine Does.ite ?_ ?_
    | split

theorem does_rspReceive {m : Nat} {s t : State} {x1 : Nat} {x2 : List Byte} (hm : 18464477272405250122 ||| m = m) (h : Does m s t) :
    Does m s (State.rspReceive t x1 x2) := by
  refine h.after (c := 18464477272405250122) ?_ hm
  unfold State.rspReceive
  dsimp only
  repeat' first
    | exact (Eq.refl _ : (_ : Nat) = _)
    | with_reducible exact Does.refl _ _
    | with_reducible refine does_modPort ?_ ?_
    | with_reducible refine does_useDone ?_ ?_
    | with_reducible refine Does.ite ?_ ?_
    | split
    | with_reducible refine does_set_nodeReqs ?_ ?_

end Sys2Proof.Machine
end

