-- ==== Sys2Proof/Laws/FrameForm.lean ====
section
/-! SUPPORT. What the operations of Form change: the mask of the kinds of state each may touch. -/

namespace Sys2Proof.Machine

theorem does_admitReq {m : Nat} {s t : State} {x1 : Nat} {x2 : Nat} {x3 : List Nat × Bool} (hm : 18609436610529067082 ||| m = m) (h : Does m s t) :
    Does m s (State.admitReq t x1 x2 x3) := by
  refine h.after (c := 18609436610529067082) ?_ hm
  unfold State.admitReq
  dsimp only
  repeat' first
    | exact (Eq.refl _ : (_ : Nat) = _)
    | with_reducible exact Does.refl _ _
    | with_reducible refine does_countToks ?_ ?_
    | with_reducible refine does_modReq ?_ ?_
    | with_reducible refine does_svEvent ?_ ?_
    | with_reducible refine does_takeHit ?_ ?_
    | with_reducible assumption
    | with_reducible refine Does.foldl (fun _ _ _ => ?_) ?_
    | with_reducible refine Does.foldl_pair (fun _ _ _ => ?_) ?_
    | with_reducible refine Does.ite ?_ ?_
    | split

theorem does_admitTest {m : Nat} {s t : State} {x1 : Nat} {x2 : Nat} {x3 : Form} {x4 : Nat} (hm : 18609436610529067082 ||| m = m) (h : Does m s t) :
    Does m s (State.admitTest t x1 x2 x3 x4).1 := by
  refine h.after (c := 18609436610529067082) ?_ hm
  unfold State.admitTest
  dsimp only
  repeat' first
    | exact (Eq.refl _ : (_ : Nat) = _)
    | with_reducible exact Does.refl _ _
    | with_reducible refine does_endReq ?_ ?_
    | with_reducible refine does_modReq ?_ ?_
    | with_reducible refine does_svEvent ?_ ?_
    | with_reducible refine Does.ite_fst ?_ ?_
    | split

theorem does_allocPages {m : Nat} {s t : State} {x1 : Nat} {x2 : Nat} {x3 : Nat} (hm : 18609436610529067082 ||| m = m) (h : Does m s t) :
    Does m s (State.allocPages t x1 x2 x3) := by
  refine h.after (c := 18609436610529067082) ?_ hm
  clear h
  induction x3 generalizing t x1 x2 with
  | zero =>
    unfold State.allocPages
    repeat' first
      | exact (Eq.refl _ : (_ : Nat) = _)
      | with_reducible exact Does.refl _ _
      | with_reducible refine does_endReq ?_ ?_
      | with_reducible refine Does.of_some_fst (by assumption) (fun _ he => does_takePage ?_ he ?_)
      | with_reducible refine does_writePageEnt ?_ ?_
      | with_reducible refine Does.of_fst (by assumption) ?_
      | with_reducible refine Does.ite ?_ ?_
      | split
  | succ n ih =>
    unfold State.allocPages
    try dsimp only
    repeat' first
      | with_reducible refine Does.after (c := 18609436610529067082) ?_ ih ?_
      | exact (Eq.refl _ : (_ : Nat) = _)
      | with_reducible exact Does.refl _ _
      | with_reducible refine does_endReq ?_ ?_
      | with_reducible refine Does.of_some_fst (by assumption) (fun _ he => does_takePage ?_ he ?_)
      | with_reducible refine does_writePageEnt ?_ ?_
      | with_reducible refine Does.of_fst (by assumption) ?_
      | with_reducible refine Does.ite ?_ ?_
      | split

theorem does_areaPut {m : Nat} {s t : State} {x1 : Nat} {x2 : Nat} {x3 : List Byte} (hm : 274877906952 ||| m = m) (h : Does m s t) :
    Does m s (State.areaPut t x1 x2 x3) := by
  refine h.after (c := 274877906952) ?_ hm
  unfold State.areaPut
  repeat' first
    | exact (Eq.refl _ : (_ : Nat) = _)
    | with_reducible exact Does.refl _ _
    | with_reducible refine does_eaPutBoth ?_ ?_
    | with_reducible assumption
    | with_reducible refine Does.foldl (fun _ _ _ => ?_) ?_
    | with_reducible refine Does.foldl_pair (fun _ _ _ => ?_) ?_

theorem does_growTo {m : Nat} {s t : State} {x1 : Nat} {x2 : Nat} {x3 : Form} {x4 : BItem} {x5 : Nat} (hm : 18609436610529067082 ||| m = m) (h : Does m s t) :
    Does m s (State.growTo t x1 x2 x3 x4 x5).1 := by
  refine h.after (c := 18609436610529067082) ?_ hm
  unfold State.growTo
  dsimp only
  repeat' first
    | exact (Eq.refl _ : (_ : Nat) = _)
    | with_reducible exact Does.refl _ _
    | with_reducible refine does_allocPages ?_ ?_
    | with_reducible refine Does.ite_fst ?_ ?_
    | split

theorem does_grow {m : Nat} {s t : State} {x1 : Nat} {x2 : Form} {x3 : Nat} {x4 : Nat} {x5 : Nat} (hm : 18609436610529067082 ||| m = m) (h : Does m s t) :
    Does m s (State.grow t x1 x2 x3 x4 x5).1 := by
  refine h.after (c := 18609436610529067082) ?_ hm
  unfold State.grow
  dsimp only
  repeat' first
    | exact (Eq.refl _ : (_ : Nat) = _)
    | with_reducible exact Does.refl _ _
    | with_reducible refine does_admitReq ?_ ?_
    | with_reducible refine does_admitTest ?_ ?_
    | with_reducible refine does_growTo ?_ ?_
    | with_reducible refine Does.of_fst (by assumption) ?_
    | with_reducible refine Does.ite_fst ?_ ?_
    | split

theorem does_classTurn {m : Nat} {s t : State} {x1 : Nat} {x2 : Nat} {x3 : List Nat} {x4 : Form} {x5 : Nat} {x6 : Nat} (hm : 18609436610529067082 ||| m = m) (h : Does m s t) :
    Does m s (State.classTurn t x1 x2 x3 x4 x5 x6).1 := by
  refine h.after (c := 18609436610529067082) ?_ hm
  clear h
  induction x3 generalizing t x1 x2 x4 x5 x6 with
  | nil =>
    unfold State.classTurn
    repeat' first
      | exact (Eq.refl _ : (_ : Nat) = _)
      | with_reducible exact Does.refl _ _
      | with_reducible refine does_grow ?_ ?_
      | with_reducible refine does_modSv ?_ ?_
      | with_reducible refine Does.of_fst (by assumption) ?_
      | with_reducible refine Does.ite_fst ?_ ?_
      | split
  | cons r rs ih =>
    unfold State.classTurn
    try dsimp only
    repeat' first
      | with_reducible refine Does.after (c := 18609436610529067082) ?_ ih ?_
      | exact (Eq.refl _ : (_ : Nat) = _)
      | with_reducible exact Does.refl _ _
      | with_reducible refine does_grow ?_ ?_
      | with_reducible refine does_modSv ?_ ?_
      | with_reducible refine Does.of_fst (by assumption) ?_
      | with_reducible refine Does.ite_fst ?_ ?_
      | split

theorem does_chunkRound {m : Nat} {s t : State} {x1 : Nat} {x2 : Nat → List Nat} {x3 : Form} {x4 : Nat} (hm : 18609436610529067082 ||| m = m) (h : Does m s t) :
    Does m s (State.chunkRound t x1 x2 x3 x4).1 := by
  refine h.after (c := 18609436610529067082) ?_ hm
  unfold State.chunkRound
  dsimp only
  repeat' first
    | exact (Eq.refl _ : (_ : Nat) = _)
    | with_reducible exact Does.refl _ _
    | with_reducible refine does_classTurn ?_ ?_
    | with_reducible refine does_modSv ?_ ?_
    | with_reducible assumption
    | with_reducible refine Does.foldl (fun _ _ _ => ?_) ?_
    | with_reducible refine Does.foldl_pair (fun _ _ _ => ?_) ?_
    | with_reducible refine Does.ite_fst ?_ ?_
    | split

theorem does_chunkRounds {m : Nat} {s t : State} {x1 : Nat} {x2 : Nat → List Nat} {x3 : Nat} {x4 : Form} {x5 : Nat} (hm : 18609436610529067082 ||| m = m) (h : Does m s t) :
    Does m s (State.chunkRounds t x1 x2 x3 x4 x5).1 := by
  refine h.after (c := 18609436610529067082) ?_ hm
  clear h
  induction x3 generalizing t x1 x2 x4 x5 with
  | zero =>
    unfold State.chunkRounds
    repeat' first
      | exact (Eq.refl _ : (_ : Nat) = _)
      | with_reducible exact Does.refl _ _
      | with_reducible refine does_chunkRound ?_ ?_
      | with_reducible refine Does.of_fst (by assumption) ?_
      | with_reducible refine Does.ite_fst ?_ ?_
      | split
  | succ n ih =>
    unfold State.chunkRounds
    try dsimp only
    repeat' first
      | with_reducible refine Does.after (c := 18609436610529067082) ?_ ih ?_
      | exact (Eq.refl _ : (_ : Nat) = _)
      | with_reducible exact Does.refl _ _
      | with_reducible refine does_chunkRound ?_ ?_
      | with_reducible refine Does.of_fst (by assumption) ?_
      | with_reducible refine Does.ite_fst ?_ ?_
      | split

theorem does_claimPage {m : Nat} {s t : State} {x1 : Nat} {x2 : Nat} {x3 : Option Nat} (hm : 18609436610529067082 ||| m = m) (h : Does m s t) :
    Does m s (State.claimPage t x1 x2 x3) := by
  refine h.after (c := 18609436610529067082) ?_ hm
  unfold State.claimPage
  dsimp only
  repeat' first
    | exact (Eq.refl _ : (_ : Nat) = _)
    | with_reducible exact Does.refl _ _
    | with_reducible refine does_endReq ?_ ?_
    | with_reducible refine does_modSv ?_ ?_
    | with_reducible refine does_writePageEnt ?_ ?_
    | with_reducible refine Does.of_fst (by assumption) ?_
    | with_reducible refine Does.ite ?_ ?_
    | split

theorem does_corrBounds {m : Nat} {s t : State} {x1 : Nat} (hm : 144115188075855872 ||| m = m) (h : Does m s t) :
    Does m s (State.corrBounds t x1) := by
  refine h.after (c := 144115188075855872) ?_ hm
  unfold State.corrBounds
  repeat' first
    | exact (Eq.refl _ : (_ : Nat) = _)
    | with_reducible exact Does.refl _ _
    | with_reducible refine does_modSv ?_ ?_
    | with_reducible refine Does.ite ?_ ?_
    | split

theorem does_preempt {m : Nat} {s t : State} {x1 : Nat} {x2 : Nat} (hm : 18609436610529067082 ||| m = m) (h : Does m s t) :
    Does m s (State.preempt t x1 x2) := by
  refine h.after (c := 18609436610529067082) ?_ hm
  unfold State.preempt
  dsimp only
  repeat' first
    | exact (Eq.refl _ : (_ : Nat) = _)
    | with_reducible exact Does.refl _ _
    | with_reducible refine does_dropPages ?_ ?_
    | with_reducible refine does_endReq ?_ ?_
    | with_reducible refine does_modReq ?_ ?_
    | with_reducible refine does_svEvent ?_ ?_
    | with_reducible refine Does.ite ?_ ?_
    | split

theorem does_preemptAll {m : Nat} {s t : State} {x1 : Nat} {x2 : Nat} {x3 : Form} {x4 : Nat} (hm : 18609436610529067082 ||| m = m) (h : Does m s t) :
    Does m s (State.preemptAll t x1 x2 x3 x4).1 := by
  refine h.after (c := 18609436610529067082) ?_ hm
  clear h
  induction x4 generalizing t x1 x2 x3 with
  | zero =>
    unfold State.preemptAll
    repeat' first
      | exact (Eq.refl _ : (_ : Nat) = _)
      | with_reducible exact Does.refl _ _
      | with_reducible refine does_preempt ?_ ?_
      | with_reducible refine Does.ite_fst ?_ ?_
      | split
  | succ n ih =>
    unfold State.preemptAll
    try dsimp only
    repeat' first
      | with_reducible refine Does.after (c := 18609436610529067082) ?_ ih ?_
      | exact (Eq.refl _ : (_ : Nat) = _)
      | with_reducible exact Does.refl _ _
      | with_reducible refine does_preempt ?_ ?_
      | with_reducible refine Does.ite_fst ?_ ?_
      | split

theorem does_stallReq {m : Nat} {s t : State} {x1 : Nat} {x2 : Nat} {x3 : Nat} (hm : 18464758472222965826 ||| m = m) (h : Does m s t) :
    Does m s (State.stallReq t x1 x2 x3) := by
  refine h.after (c := 18464758472222965826) ?_ hm
  unfold State.stallReq
  dsimp only
  repeat' first
    | exact (Eq.refl _ : (_ : Nat) = _)
    | with_reducible exact Does.refl _ _
    | with_reducible refine does_modReq ?_ ?_
    | with_reducible refine does_svEvent ?_ ?_
    | with_reducible refine Does.ite ?_ ?_
    | split

theorem does_exhaust {m : Nat} {s t : State} {x1 : Nat} {x2 : Nat} {x3 : Form} (hm : 18609436610529067082 ||| m = m) (h : Does m s t) :
    Does m s (State.exhaust t x1 x2 x3).1 := by
  refine h.after (c := 18609436610529067082) ?_ hm
  unfold State.exhaust
  dsimp only
  repeat' first
    | (rename_i he; rw [Option.bind_eq_some_iff] at he; obtain ⟨_, _, hb⟩ := he; refine does_startSpill ?_ hb ?_)
    | exact (Eq.refl _ : (_ : Nat) = _)
    | with_reducible exact Does.refl _ _
    | with_reducible refine does_preemptAll ?_ ?_
    | with_reducible refine does_stallReq ?_ ?_
    | with_reducible refine Does.of_some (by assumption) (fun _ he => does_startSpill ?_ he ?_)
    | with_reducible refine Does.of_fst (by assumption) ?_
    | with_reducible refine Does.ite_fst ?_ ?_
    | split

theorem does_decodePages {m : Nat} {s t : State} {x1 : Nat} {x2 : Nat} {x3 : Form} {x4 : Nat} (hm : 18609436610529067082 ||| m = m) (h : Does m s t) :
    Does m s (State.decodePages t x1 x2 x3 x4).1 := by
  refine h.after (c := 18609436610529067082) ?_ hm
  unfold State.decodePages
  dsimp only
  repeat' first
    | exact (Eq.refl _ : (_ : Nat) = _)
    | with_reducible exact Does.refl _ _
    | with_reducible refine does_allocPages ?_ ?_
    | with_reducible refine does_exhaust ?_ ?_
    | with_reducible refine Does.ite_fst ?_ ?_
    | split

theorem does_modelDrafts {m : Nat} {s t : State} {x1 : Nat} {x2 : Nat} (hm : 18447307023943729226 ||| m = m) (h : Does m s t) :
    Does m s (State.modelDrafts t x1 x2).1 := by
  refine h.after (c := 18447307023943729226) ?_ hm
  unfold State.modelDrafts
  dsimp only
  repeat' first
    | exact (Eq.refl _ : (_ : Nat) = _)
    | with_reducible exact Does.refl _ _
    | with_reducible refine does_devRead ?_ ?_
    | with_reducible refine does_pepEvent ?_ ?_
    | with_reducible refine Does.ite_fst ?_ ?_
    | split

theorem does_clampDcur {m : Nat} {s t : State} {x1 : Nat} (hm : 18447307023943729226 ||| m = m) (h : Does m s t) :
    Does m s (State.clampDcur t x1) := by
  refine h.after (c := 18447307023943729226) ?_ hm
  unfold State.clampDcur
  dsimp only
  repeat' first
    | exact (Eq.refl _ : (_ : Nat) = _)
    | with_reducible exact Does.refl _ _
    | with_reducible refine does_devPut ?_ ?_
    | with_reducible refine Does.ite ?_ ?_

theorem does_draftsOf {m : Nat} {s t : State} {x1 : Nat} {x2 : Nat} (hm : 18447307023943729226 ||| m = m) (h : Does m s t) :
    Does m s (State.draftsOf t x1 x2).1 := by
  refine h.after (c := 18447307023943729226) ?_ hm
  unfold State.draftsOf
  dsimp only
  repeat' first
    | exact (Eq.refl _ : (_ : Nat) = _)
    | with_reducible exact Does.refl _ _
    | with_reducible refine does_devPut ?_ ?_
    | with_reducible refine does_modelDrafts ?_ ?_
    | with_reducible refine Does.of_fst (by assumption) ?_
    | with_reducible refine Does.ite_fst ?_ ?_
    | split

theorem does_serveDecode {m : Nat} {s t : State} {x1 : Nat} {x2 : Form} {x3 : Nat} (hm : 18609436610529067082 ||| m = m) (h : Does m s t) :
    Does m s (State.serveDecode t x1 x2 x3).1 := by
  refine h.after (c := 18609436610529067082) ?_ hm
  unfold State.serveDecode
  dsimp only
  repeat' first
    | exact (Eq.refl _ : (_ : Nat) = _)
    | with_reducible exact Does.refl _ _
    | with_reducible refine does_admitTest ?_ ?_
    | with_reducible refine does_decodePages ?_ ?_
    | with_reducible refine does_draftsOf ?_ ?_
    | with_reducible refine does_modReq ?_ ?_
    | with_reducible refine does_svEvent ?_ ?_
    | with_reducible refine Does.ite_fst ?_ ?_
    | split

theorem does_formBatch {m : Nat} {s t : State} {x1 : Nat} (hm : 18609436610529067082 ||| m = m) (h : Does m s t) :
    Does m s (State.formBatch t x1).1 := by
  refine h.after (c := 18609436610529067082) ?_ hm
  unfold State.formBatch
  dsimp only
  repeat' first
    | exact (Eq.refl _ : (_ : Nat) = _)
    | with_reducible exact Does.refl _ _
    | with_reducible refine does_chunkRounds ?_ ?_
    | with_reducible refine does_modSv ?_ ?_
    | with_reducible refine does_serveDecode ?_ ?_
    | with_reducible assumption
    | with_reducible refine Does.foldl (fun _ _ _ => ?_) ?_
    | with_reducible refine Does.foldl_pair (fun _ _ _ => ?_) ?_

theorem does_huskApply {m : Nat} {s t : State} {x1 : Nat} {x2 : HuskJob} (hm : 18609436610529067082 ||| m = m) (h : Does m s t) :
    Does m s (State.huskApply t x1 x2) := by
  refine h.after (c := 18609436610529067082) ?_ hm
  unfold State.huskApply
  dsimp only
  repeat' first
    | exact (Eq.refl _ : (_ : Nat) = _)
    | with_reducible exact Does.refl _ _
    | with_reducible refine does_devPut ?_ ?_
    | with_reducible refine does_dropPages ?_ ?_
    | with_reducible refine does_freeReqEntry ?_ ?_
    | with_reducible refine does_modReq ?_ ?_
    | with_reducible refine does_retainEvent ?_ ?_
    | with_reducible refine Does.ite ?_ ?_
    | split

theorem does_huskApplyAll {m : Nat} {s t : State} {x1 : Nat} (hm : 18609436610529067082 ||| m = m) (h : Does m s t) :
    Does m s (State.huskApplyAll t x1) := by
  refine h.after (c := 18609436610529067082) ?_ hm
  unfold State.huskApplyAll
  dsimp only
  repeat' first
    | exact (Eq.refl _ : (_ : Nat) = _)
    | with_reducible exact Does.refl _ _
    | with_reducible refine does_huskApply ?_ ?_
    | with_reducible refine does_modSv ?_ ?_
    | with_reducible assumption
    | with_reducible refine Does.foldl (fun _ _ _ => ?_) ?_
    | with_reducible refine Does.foldl_pair (fun _ _ _ => ?_) ?_

theorem does_huskRoom {m : Nat} {s t : State} {x1 : Nat} {x2 : Nat} {x3 : Nat} (hm : 18609436610529067082 ||| m = m) (h : Does m s t) :
    Does m s (State.huskRoom t x1 x2 x3).1 := by
  refine h.after (c := 18609436610529067082) ?_ hm
  clear h
  induction x3 generalizing t x1 x2 with
  | zero =>
    unfold State.huskRoom
    repeat' first
      | exact (Eq.refl _ : (_ : Nat) = _)
      | with_reducible exact Does.refl _ _
      | with_reducible refine Does.of_some (by assumption) (fun _ he => does_evictRetained ?_ he ?_)
      | with_reducible refine Does.of_fst (by assumption) ?_
      | split
  | succ n ih =>
    unfold State.huskRoom
    try dsimp only
    repeat' first
      | with_reducible refine Does.after (c := 18609436610529067082) ?_ ih ?_
      | exact (Eq.refl _ : (_ : Nat) = _)
      | with_reducible exact Does.refl _ _
      | with_reducible refine Does.of_some (by assumption) (fun _ he => does_evictRetained ?_ he ?_)
      | with_reducible refine Does.of_fst (by assumption) ?_
      | split

theorem does_huskSlot {m : Nat} {s t : State} {x1 : Nat} {x2 : Nat} (hm : 18609436610529067082 ||| m = m) (h : Does m s t) :
    Does m s (State.huskSlot t x1 x2) := by
  refine h.after (c := 18609436610529067082) ?_ hm
  unfold State.huskSlot
  dsimp only
  repeat' first
    | exact (Eq.refl _ : (_ : Nat) = _)
    | with_reducible exact Does.refl _ _
    | with_reducible refine does_freeReqEntry ?_ ?_
    | with_reducible refine does_huskRoom ?_ ?_
    | with_reducible refine does_modReq ?_ ?_
    | with_reducible refine does_modSv ?_ ?_
    | with_reducible refine does_retainEvent ?_ ?_
    | with_reducible refine Does.of_fst (by assumption) ?_
    | with_reducible refine Does.ite ?_ ?_
    | split

theorem does_lateWaiting {m : Nat} {s t : State} {x1 : Nat} {x2 : Nat} (hm : 18609436610529067082 ||| m = m) (h : Does m s t) :
    Does m s (State.lateWaiting t x1 x2) := by
  refine h.after (c := 18609436610529067082) ?_ hm
  unfold State.lateWaiting
  dsimp only
  repeat' first
    | exact (Eq.refl _ : (_ : Nat) = _)
    | with_reducible exact Does.refl _ _
    | with_reducible refine does_endReq ?_ ?_
    | with_reducible refine does_modReq ?_ ?_
    | with_reducible refine does_svEvent ?_ ?_
    | with_reducible refine Does.ite ?_ ?_
    | split

theorem does_startReturns {m : Nat} {s t : State} {x1 : Nat} (hm : 144115188344291328 ||| m = m) (h : Does m s t) :
    Does m s (State.startReturns t x1) := by
  refine h.after (c := 144115188344291328) ?_ hm
  unfold State.startReturns
  dsimp only
  repeat' first
    | exact (Eq.refl _ : (_ : Nat) = _)
    | with_reducible exact Does.refl _ _
    | with_reducible refine does_modBulk ?_ ?_
    | with_reducible refine Does.of_some_fst (by assumption) (fun _ he => does_takePage ?_ he ?_)
    | with_reducible assumption
    | with_reducible refine Does.foldl (fun _ _ _ => ?_) ?_
    | with_reducible refine Does.foldl_pair (fun _ _ _ => ?_) ?_
    | with_reducible refine Does.of_fst (by assumption) ?_
    | with_reducible refine Does.ite ?_ ?_
    | split

theorem does_switchCopy {m : Nat} {s t : State} {x1 : Nat} {x2 : PageCopy} (hm : 18609436610529067082 ||| m = m) (h : Does m s t) :
    Does m s (State.switchCopy t x1 x2) := by
  refine h.after (c := 18609436610529067082) ?_ hm
  unfold State.switchCopy
  dsimp only
  repeat' first
    | exact (Eq.refl _ : (_ : Nat) = _)
    | with_reducible exact Does.refl _ _
    | with_reducible refine does_bump ?_ ?_
    | with_reducible refine does_claimPage ?_ ?_
    | with_reducible refine does_dropPage ?_ ?_
    | with_reducible refine does_endReq ?_ ?_
    | with_reducible refine does_writePageEnt ?_ ?_
    | with_reducible refine Does.ite ?_ ?_
    | split

theorem does_switchCopies {m : Nat} {s t : State} {x1 : Nat} (hm : 18609436610529067082 ||| m = m) (h : Does m s t) :
    Does m s (State.switchCopies t x1) := by
  refine h.after (c := 18609436610529067082) ?_ hm
  unfold State.switchCopies
  dsimp only
  repeat' first
    | exact (Eq.refl _ : (_ : Nat) = _)
    | with_reducible exact Does.refl _ _
    | with_reducible refine does_modBulk ?_ ?_
    | with_reducible refine does_switchCopy ?_ ?_
    | with_reducible assumption
    | with_reducible refine Does.foldl (fun _ _ _ => ?_) ?_
    | with_reducible refine Does.foldl_pair (fun _ _ _ => ?_) ?_

theorem does_writeArea {m : Nat} {s t : State} {x1 : Nat} {x2 : StepBatch} (hm : 18446744348591394890 ||| m = m) (h : Does m s t) :
    Does m s (State.writeArea t x1 x2) := by
  refine h.after (c := 18446744348591394890) ?_ hm
  unfold State.writeArea
  dsimp only
  repeat' first
    | exact (Eq.refl _ : (_ : Nat) = _)
    | with_reducible exact Does.refl _ _
    | with_reducible refine does_areaPut ?_ ?_
    | with_reducible refine does_signal ?_ ?_
    | with_reducible refine does_svEvent ?_ ?_
    | with_reducible assumption
    | with_reducible refine Does.foldl (fun _ _ _ => ?_) ?_
    | with_reducible refine Does.foldl_pair (fun _ _ _ => ?_) ?_
    | with_reducible refine Does.ite ?_ ?_
    | split

theorem does_freshStage0 {m : Nat} {s t : State} {x1 : Nat} (hm : 18609436885406986314 ||| m = m) (h : Does m s t) :
    Does m s (State.freshStage0 t x1) := by
  refine h.after (c := 18609436885406986314) ?_ hm
  unfold State.freshStage0
  dsimp only
  repeat' first
    | exact (Eq.refl _ : (_ : Nat) = _)
    | with_reducible exact Does.refl _ _
    | with_reducible refine does_clampDcur ?_ ?_
    | with_reducible refine does_formBatch ?_ ?_
    | with_reducible refine does_huskApplyAll ?_ ?_
    | with_reducible refine does_huskSlot ?_ ?_
    | with_reducible refine does_lateWaiting ?_ ?_
    | with_reducible refine does_modPart ?_ ?_
    | with_reducible refine does_modSv ?_ ?_
    | with_reducible refine does_startReturns ?_ ?_
    | with_reducible refine does_switchCopies ?_ ?_
    | with_reducible refine does_writeArea ?_ ?_
    | with_reducible assumption
    | with_reducible refine Does.foldl (fun _ _ _ => ?_) ?_
    | with_reducible refine Does.foldl_pair (fun _ _ _ => ?_) ?_

theorem does_replayStage0 {m : Nat} {s t : State} {x1 : Nat} (hm : 23230130108462019146 ||| m = m) (h : Does m s t) :
    Does m s (State.replayStage0 t x1) := by
  refine h.after (c := 23230130108462019146) ?_ hm
  unfold State.replayStage0
  dsimp only
  repeat' first
    | exact (Eq.refl _ : (_ : Nat) = _)
    | with_reducible exact Does.refl _ _
    | with_reducible refine does_modPart ?_ ?_
    | with_reducible refine does_withholdRun ?_ ?_
    | with_reducible refine does_writeArea ?_ ?_
    | with_reducible refine Does.ite ?_ ?_
    | split

theorem does_stage0 {m : Nat} {s t : State} {x1 : Nat} (hm : 25824203493827424842 ||| m = m) (h : Does m s t) :
    Does m s (State.stage0 t x1) := by
  refine h.after (c := 25824203493827424842) ?_ hm
  unfold State.stage0
  dsimp only
  repeat' first
    | exact (Eq.refl _ : (_ : Nat) = _)
    | with_reducible exact Does.refl _ _
    | with_reducible refine does_corrBounds ?_ ?_
    | with_reducible refine does_freshStage0 ?_ ?_
    | with_reducible refine does_modSv ?_ ?_
    | with_reducible refine does_replayStage0 ?_ ?_
    | with_reducible refine Does.ite ?_ ?_
    | split
    | with_reducible refine does_modPart ?_ ?_
    | with_reducible refine does_modPep ?_ ?_
    | with_reducible refine does_set_seqBad ?_ ?_

end Sys2Proof.Machine
end

