-- ==== Sys2Proof/Laws/FrameInteg.lean ====
section
/-! SUPPORT. What the operations of Integ change: the mask of the kinds of state each may touch. -/

namespace Sys2Proof.Machine

theorem does_retireSlice {m : Nat} {s t : State} {x1 : Nat} (hm : 23933034906399912522 ||| m = m) (h : Does m s t) :
    Does m s (State.retireSlice t x1) := by
  refine h.after (c := 23933034906399912522) ?_ hm
  unfold State.retireSlice
  dsimp only
  repeat' first
    | exact (Eq.refl _ : (_ : Nat) = _)
    | with_reducible exact Does.refl _ _
    | with_reducible refine does_beginQuiesce ?_ ?_
    | with_reducible refine does_igCount ?_ ?_
    | with_reducible refine does_quiesceGo ?_ ?_
    | with_reducible refine does_raise ?_ ?_
    | split
    | with_reducible refine does_set_retired_suspect ?_ ?_

theorem does_classify {m : Nat} {s t : State} {x1 : Nat} {x2 : Bool} (hm : 23933034906399912522 ||| m = m) (h : Does m s t) :
    Does m s (State.classify t x1 x2) := by
  refine h.after (c := 23933034906399912522) ?_ hm
  unfold State.classify
  dsimp only
  repeat' first
    | exact (Eq.refl _ : (_ : Nat) = _)
    | with_reducible exact Does.refl _ _
    | with_reducible refine does_logErr ?_ ?_
    | with_reducible refine does_retireSlice ?_ ?_
    | with_reducible refine Does.ite ?_ ?_
    | split
    | with_reducible refine does_set_screens ?_ ?_
    | with_reducible refine does_set_screens_suspect ?_ ?_

theorem does_repairRecord {m : Nat} {s t : State} {x1 : Nat} {x2 : Nat} {x3 : Nat} {x4 : Nat} (hm : 18446744073712697408 ||| m = m) (h : Does m s t) :
    Does m s (State.repairRecord t x1 x2 x3 x4) := by
  refine h.after (c := 18446744073712697408) ?_ hm
  unfold State.repairRecord
  dsimp only
  repeat' first
    | exact (Eq.refl _ : (_ : Nat) = _)
    | with_reducible exact Does.refl _ _
    | with_reducible refine does_logErr ?_ ?_
    | with_reducible refine Does.ite ?_ ?_
    | split

theorem does_tellMappers {m : Nat} {s t : State} {x1 : Nat} {x2 : Nat} {x3 : Nat} (hm : 18446744073713483842 ||| m = m) (h : Does m s t) :
    Does m s (State.tellMappers t x1 x2 x3) := by
  refine h.after (c := 18446744073713483842) ?_ hm
  unfold State.tellMappers
  repeat' first
    | exact (Eq.refl _ : (_ : Nat) = _)
    | with_reducible exact Does.refl _ _
    | with_reducible refine does_ptEvent ?_ ?_
    | with_reducible assumption
    | with_reducible refine Does.foldl (fun _ _ _ => ?_) ?_
    | with_reducible refine Does.foldl_pair (fun _ _ _ => ?_) ?_

theorem does_regionLost {m : Nat} {s t : State} {x1 : Nat} {x2 : Nat} (hm : 23933034837680435786 ||| m = m) (h : Does m s t) :
    Does m s (State.regionLost t x1 x2) := by
  refine h.after (c := 23933034837680435786) ?_ hm
  unfold State.regionLost
  dsimp only
  repeat' first
    | exact (Eq.refl _ : (_ : Nat) = _)
    | with_reducible exact Does.refl _ _
    | with_reducible refine does_beginQuiesce ?_ ?_
    | with_reducible refine does_quiesceGo ?_ ?_
    | with_reducible refine does_raise ?_ ?_
    | with_reducible refine does_repairRecord ?_ ?_
    | with_reducible refine does_setFld ?_ ?_
    | with_reducible refine does_tellMappers ?_ ?_
    | with_reducible assumption
    | with_reducible refine Does.foldl (fun _ _ _ => ?_) ?_
    | with_reducible refine Does.foldl_pair (fun _ _ _ => ?_) ?_
    | with_reducible refine Does.ite ?_ ?_
    | split

theorem does_digestDone {m : Nat} {s t : State} {x1 : Nat} (hm : 23933034855397176155 ||| m = m) (h : Does m s t) :
    Does m s (State.digestDone t x1) := by
  refine h.after (c := 23933034855397176155) ?_ hm
  unfold State.digestDone
  dsimp only
  repeat' first
    | exact (Eq.refl _ : (_ : Nat) = _)
    | with_reducible exact Does.refl _ _
    | with_reducible refine does_devPut ?_ ?_
    | with_reducible refine does_devRead ?_ ?_
    | with_reducible refine does_periodic ?_ ?_
    | with_reducible refine does_raise ?_ ?_
    | with_reducible refine does_regionLost ?_ ?_
    | with_reducible refine Does.of_fst (by assumption) ?_
    | with_reducible refine Does.ite ?_ ?_
    | split
    | with_reducible refine does_set_repairs_digests ?_ ?_
    | with_reducible refine does_set_digests ?_ ?_

theorem does_sourceRead {m : Nat} {s t : State} {x1 : Nat} {x2 : Nat} {x3 : Nat} {x4 : Nat} {x5 : List (Option (List Byte))} (hm : 18447307023943729226 ||| m = m) (h : Does m s t) :
    Does m s (State.sourceRead t x1 x2 x3 x4 x5).1 := by
  refine h.after (c := 18447307023943729226) ?_ hm
  unfold State.sourceRead
  dsimp only
  repeat' first
    | exact (Eq.refl _ : (_ : Nat) = _)
    | with_reducible exact Does.refl _ _
    | with_reducible refine does_devRead ?_ ?_
    | with_reducible refine Does.of_fst (by assumption) ?_
    | with_reducible refine Does.ite_fst ?_ ?_
    | split

theorem does_firstSource {m : Nat} {s t : State} {x1 : Nat} {x2 : Nat} {x3 : Nat} {x4 : List (Option (List Byte))} (hm : 18447307023943729226 ||| m = m) (h : Does m s t) :
    Does m s (State.firstSource t x1 x2 x3 x4).1 := by
  refine h.after (c := 18447307023943729226) ?_ hm
  unfold State.firstSource
  dsimp only
  repeat' first
    | exact (Eq.refl _ : (_ : Nat) = _)
    | with_reducible exact Does.refl _ _
    | with_reducible refine does_sourceRead ?_ ?_
    | with_reducible assumption
    | with_reducible refine Does.foldl (fun _ _ _ => ?_) ?_
    | with_reducible refine Does.foldl_pair (fun _ _ _ => ?_) ?_
    | with_reducible refine Does.of_fst (by assumption) ?_
    | split

theorem does_maceLoad {m : Nat} {s t : State} {x1 : Nat} {x2 : Word} (hm : 23058993050961051722 ||| m = m) (h : Does m s t) :
    Does m s (State.maceLoad t x1 x2) := by
  refine h.after (c := 23058993050961051722) ?_ hm
  unfold State.maceLoad
  dsimp only
  repeat' first
    | exact (Eq.refl _ : (_ : Nat) = _)
    | with_reducible exact Does.refl _ _
    | with_reducible refine does_devRead ?_ ?_
    | with_reducible refine does_ends ?_ ?_
    | with_reducible refine does_raise ?_ ?_
    | with_reducible refine does_setFld ?_ ?_
    | with_reducible refine Does.of_fst (by assumption) ?_
    | with_reducible refine Does.ite ?_ ?_
    | split
    | with_reducible refine does_set_mace ?_ ?_

theorem does_maceDone {m : Nat} {s t : State} {x1 : Nat} {x2 : List Byte} {x3 : List Byte} {x4 : Bool} (hm : 23933034906399912779 ||| m = m) (h : Does m s t) :
    Does m s (State.maceDone t x1 x2 x3 x4) := by
  refine h.after (c := 23933034906399912779) ?_ hm
  unfold State.maceDone
  dsimp only
  repeat' first
    | exact (Eq.refl _ : (_ : Nat) = _)
    | with_reducible exact Does.refl _ _
    | with_reducible refine does_classify ?_ ?_
    | with_reducible refine does_raise ?_ ?_
    | with_reducible refine does_suspectSlice ?_ ?_
    | with_reducible refine does_waitClk ?_ ?_
    | with_reducible refine Does.ite ?_ ?_
    | split
    | with_reducible refine does_set_screens ?_ ?_

theorem does_maceStart {m : Nat} {s t : State} {x1 : Nat} {x2 : Nat} {x3 : Nat} (hm : 4294967296 ||| m = m) (h : Does m s t) :
    Does m s (State.maceStart t x1 x2 x3) := by
  refine h.after (c := 4294967296) ?_ hm
  unfold State.maceStart
  dsimp only
  repeat' first
    | exact (Eq.refl _ : (_ : Nat) = _)
    | with_reducible exact Does.refl _ _
    | with_reducible refine Does.ite ?_ ?_
    | split
    | with_reducible refine does_set_screens ?_ ?_

theorem does_rearm {m : Nat} {s t : State} {x1 : FailedSlot} (hm : 18447588773798416458 ||| m = m) (h : Does m s t) :
    Does m s (State.rearm t x1) := by
  refine h.after (c := 18447588773798416458) ?_ hm
  unfold State.rearm
  dsimp only
  repeat' first
    | exact (Eq.refl _ : (_ : Nat) = _)
    | with_reducible exact Does.refl _ _
    | with_reducible refine does_modXslot ?_ ?_
    | with_reducible refine does_xSettled ?_ ?_
    | with_reducible refine Does.ite ?_ ?_
    | split

theorem does_writePiece {m : Nat} {s t : State} {x1 : Nat} {x2 : List Byte} (hm : 18447307023960506442 ||| m = m) (h : Does m s t) :
    Does m s (State.writePiece t x1 x2) := by
  refine h.after (c := 18447307023960506442) ?_ hm
  unfold State.writePiece
  dsimp only
  repeat' first
    | exact (Eq.refl _ : (_ : Nat) = _)
    | with_reducible exact Does.refl _ _
    | with_reducible refine does_devPut ?_ ?_
    | with_reducible refine does_seal ?_ ?_
    | with_reducible assumption
    | with_reducible refine Does.foldl (fun _ _ _ => ?_) ?_
    | with_reducible refine Does.foldl_pair (fun _ _ _ => ?_) ?_
    | split

theorem does_repairDone {m : Nat} {s t : State} {x1 : Nat} {x2 : List (Option (List Byte))} (hm : 23933034838234083914 ||| m = m) (h : Does m s t) :
    Does m s (State.repairDone t x1 x2) := by
  refine h.after (c := 23933034838234083914) ?_ hm
  unfold State.repairDone
  dsimp only
  repeat' first
    | exact (Eq.refl _ : (_ : Nat) = _)
    | with_reducible exact Does.refl _ _
    | with_reducible refine does_bump ?_ ?_
    | with_reducible refine does_firstSource ?_ ?_
    | with_reducible refine does_rearm ?_ ?_
    | with_reducible refine does_regionLost ?_ ?_
    | with_reducible refine does_repairRecord ?_ ?_
    | with_reducible refine does_tellMappers ?_ ?_
    | with_reducible refine does_writePiece ?_ ?_
    | with_reducible assumption
    | with_reducible refine Does.foldl (fun _ _ _ => ?_) ?_
    | with_reducible refine Does.foldl_pair (fun _ _ _ => ?_) ?_
    | with_reducible refine Does.of_fst (by assumption) ?_
    | with_reducible refine Does.ite ?_ ?_
    | split
    | with_reducible refine does_set_repairs ?_ ?_

theorem does_repairWait {m : Nat} {s t : State} {x1 : Nat} (hm : 18446744074250355011 ||| m = m) (h : Does m s t) :
    Does m s (State.repairWait t x1) := by
  refine h.after (c := 18446744074250355011) ?_ hm
  unfold State.repairWait
  dsimp only
  repeat' first
    | exact (Eq.refl _ : (_ : Nat) = _)
    | with_reducible exact Does.refl _ _
    | with_reducible refine does_raise ?_ ?_
    | with_reducible refine does_repairRecord ?_ ?_
    | with_reducible refine does_tellMappers ?_ ?_
    | with_reducible refine does_waitClk ?_ ?_
    | with_reducible refine Does.ite ?_ ?_
    | split
    | with_reducible refine does_set_repairs ?_ ?_

theorem does_repairsFound {m : Nat} {s t : State}  (hm : 23933034838217306698 ||| m = m) (h : Does m s t) :
    Does m s (State.repairsFound t) := by
  refine h.after (c := 23933034838217306698) ?_ hm
  unfold State.repairsFound
  repeat' first
    | exact (Eq.refl _ : (_ : Nat) = _)
    | with_reducible exact Does.refl _ _
    | with_reducible refine does_regionLost ?_ ?_
    | with_reducible assumption
    | with_reducible refine Does.foldl (fun _ _ _ => ?_) ?_
    | with_reducible refine Does.foldl_pair (fun _ _ _ => ?_) ?_
    | with_reducible refine does_set_repairs ?_ ?_

theorem does_verdictWrite {m : Nat} {s t : State} {x1 : Nat} (hm : 278099955722 ||| m = m) (h : Does m s t) :
    Does m s (State.verdictWrite t x1) := by
  refine h.after (c := 278099955722) ?_ hm
  unfold State.verdictWrite
  dsimp only
  repeat' first
    | exact (Eq.refl _ : (_ : Nat) = _)
    | with_reducible exact Does.refl _ _
    | with_reducible refine does_csCloseAll ?_ ?_
    | with_reducible refine does_eaPutBoth ?_ ?_
    | with_reducible refine does_modIg ?_ ?_
    | with_reducible refine does_settleWaits ?_ ?_
    | with_reducible refine does_signal ?_ ?_
    | with_reducible refine does_takeCtr ?_ ?_
    | with_reducible refine Does.ite ?_ ?_
    | split

end Sys2Proof.Machine
end

