-- ==== Sys2Proof/Laws/FrameMailbox.lean ====
section
/-! SUPPORT. What the operations of Mailbox change: the mask of the kinds of state each may touch. -/

namespace Sys2Proof.Machine

theorem does_dropCopies {m : Nat} {s t : State}  (hm : 144115188344291328 ||| m = m) (h : Does m s t) :
    Does m s (State.dropCopies t) := by
  refine h.after (c := 144115188344291328) ?_ hm
  unfold State.dropCopies
  dsimp only
  repeat' first
    | exact (Eq.refl _ : (_ : Nat) = _)
    | with_reducible exact Does.refl _ _
    | with_reducible refine does_dropPage ?_ ?_
    | with_reducible refine does_modBulk ?_ ?_
    | with_reducible assumption
    | with_reducible refine Does.foldl (fun _ _ _ => ?_) ?_
    | with_reducible refine Does.foldl_pair (fun _ _ _ => ?_) ?_
    | with_reducible refine Does.ite ?_ ?_
    | split

theorem does_bulkExpire {m : Nat} {s t : State}  (hm : 18609436610529067082 ||| m = m) (h : Does m s t) :
    Does m s (State.bulkExpire t) := by
  refine h.after (c := 18609436610529067082) ?_ hm
  unfold State.bulkExpire
  dsimp only
  repeat' first
    | exact (Eq.refl _ : (_ : Nat) = _)
    | with_reducible exact Does.refl _ _
    | with_reducible refine does_dropCopies ?_ ?_
    | with_reducible refine does_freeReqEntry ?_ ?_
    | with_reducible refine does_modReq ?_ ?_
    | with_reducible assumption
    | with_reducible refine Does.foldl (fun _ _ _ => ?_) ?_
    | with_reducible refine Does.foldl_pair (fun _ _ _ => ?_) ?_
    | split

theorem does_fatalQueue {m : Nat} {s t : State} {x1 : Nat} {x2 : Nat} (hm : 18447025548690227266 ||| m = m) (h : Does m s t) :
    Does m s (State.fatalQueue t x1 x2) := by
  refine h.after (c := 18447025548690227266) ?_ hm
  unfold State.fatalQueue
  dsimp only
  repeat' first
    | exact (Eq.refl _ : (_ : Nat) = _)
    | with_reducible exact Does.refl _ _
    | with_reducible refine does_endWalk ?_ ?_
    | with_reducible refine does_haltQueue ?_ ?_
    | with_reducible refine does_setQueue ?_ ?_
    | with_reducible assumption
    | with_reducible refine Does.foldl (fun _ _ _ => ?_) ?_
    | with_reducible refine Does.foldl_pair (fun _ _ _ => ?_) ?_
    | with_reducible refine Does.ite ?_ ?_
    | split

theorem does_fatalSlot {m : Nat} {s t : State} {x1 : Nat} {x2 : Nat} (hm : 18447588773798416458 ||| m = m) (h : Does m s t) :
    Does m s (State.fatalSlot t x1 x2) := by
  refine h.after (c := 18447588773798416458) ?_ hm
  unfold State.fatalSlot
  dsimp only
  repeat' first
    | exact (Eq.refl _ : (_ : Nat) = _)
    | with_reducible exact Does.refl _ _
    | with_reducible refine does_modXslot ?_ ?_
    | with_reducible refine does_xFail ?_ ?_
    | with_reducible refine does_xSettled ?_ ?_
    | with_reducible assumption
    | with_reducible refine Does.foldl (fun _ _ _ => ?_) ?_
    | with_reducible refine Does.foldl_pair (fun _ _ _ => ?_) ?_

theorem does_fatalEnd {m : Nat} {s t : State}  (hm : 18456595973191602250 ||| m = m) (h : Does m s t) :
    Does m s (State.fatalEnd t) := by
  refine h.after (c := 18456595973191602250) ?_ hm
  unfold State.fatalEnd
  dsimp only
  repeat' first
    | exact (Eq.refl _ : (_ : Nat) = _)
    | with_reducible exact Does.refl _ _
    | with_reducible refine does_collEnd ?_ ?_
    | with_reducible refine does_fatalQueue ?_ ?_
    | with_reducible refine does_fatalSlot ?_ ?_
    | with_reducible refine does_rowFail ?_ ?_
    | with_reducible assumption
    | with_reducible refine Does.foldl (fun _ _ _ => ?_) ?_
    | with_reducible refine Does.foldl_pair (fun _ _ _ => ?_) ?_

theorem does_afterLoss {m : Nat} {s t : State} {x1 : State} (hm : 18618725559776940106 ||| m = m) (h : Does m s t) :
    Does m s (State.afterLoss t x1) := by
  refine h.after (c := 18618725559776940106) ?_ hm
  unfold State.afterLoss
  dsimp only
  repeat' first
    | exact (Eq.refl _ : (_ : Nat) = _)
    | with_reducible exact Does.refl _ _
    | with_reducible refine does_bulkExpire ?_ ?_
    | with_reducible refine does_fatalEnd ?_ ?_
    | with_reducible refine Does.ite ?_ ?_
    | split

theorem does_allStacks {m : Nat} {s t : State} {x1 : TierMode} (hm : 8388608 ||| m = m) (h : Does m s t) :
    Does m s (State.allStacks t x1) := by
  refine h.after (c := 8388608) ?_ hm
  unfold State.allStacks
  repeat' first
    | exact (Eq.refl _ : (_ : Nat) = _)
    | with_reducible exact Does.refl _ _
    | with_reducible refine does_modStack ?_ ?_
    | with_reducible assumption
    | with_reducible refine Does.foldl (fun _ _ _ => ?_) ?_
    | with_reducible refine Does.foldl_pair (fun _ _ _ => ?_) ?_

theorem does_bootFail {m : Nat} {s t : State} {x1 : Nat} {x2 : Nat} {x3 : Nat} (hm : 18447307023666118720 ||| m = m) (h : Does m s t) :
    Does m s (State.bootFail t x1 x2 x3) := by
  refine h.after (c := 18447307023666118720) ?_ hm
  unfold State.bootFail
  repeat' first
    | exact (Eq.refl _ : (_ : Nat) = _)
    | with_reducible exact Does.refl _ _
    | with_reducible refine does_fwFault ?_ ?_
    | with_reducible refine does_logErr ?_ ?_

theorem does_bootReady {m : Nat} {s t : State}  (hm : 1125899911036994 ||| m = m) (h : Does m s t) :
    Does m s (State.bootReady t) := by
  refine h.after (c := 1125899911036994) ?_ hm
  unfold State.bootReady
  dsimp only
  repeat' first
    | exact (Eq.refl _ : (_ : Nat) = _)
    | with_reducible exact Does.refl _ _
    | with_reducible refine does_modBoot ?_ ?_
    | with_reducible refine does_portTrain ?_ ?_
    | with_reducible refine does_setFld ?_ ?_
    | with_reducible assumption
    | with_reducible refine Does.foldl (fun _ _ _ => ?_) ?_
    | with_reducible refine Does.foldl_pair (fun _ _ _ => ?_) ?_

theorem does_bootScreen {m : Nat} {s t : State} {x1 : Nat} (hm : 23933034906399912522 ||| m = m) (h : Does m s t) :
    Does m s (State.bootScreen t x1) := by
  refine h.after (c := 23933034906399912522) ?_ hm
  unfold State.bootScreen
  dsimp only
  repeat' first
    | exact (Eq.refl _ : (_ : Nat) = _)
    | with_reducible exact Does.refl _ _
    | with_reducible refine does_retireSlice ?_ ?_
    | with_reducible assumption
    | with_reducible refine Does.foldl (fun _ _ _ => ?_) ?_
    | with_reducible refine Does.foldl_pair (fun _ _ _ => ?_) ?_
    | with_reducible refine Does.ite ?_ ?_
    | split
    | with_reducible refine does_set_screens ?_ ?_

theorem does_trainStacks {m : Nat} {s t : State} {x1 : List (Nat × Nat × List Nat)} (hm : 18447307023674507330 ||| m = m) (h : Does m s t) :
    Does m s (State.trainStacks t x1) := by
  refine h.after (c := 18447307023674507330) ?_ hm
  unfold State.trainStacks
  dsimp only
  repeat' first
    | exact (Eq.refl _ : (_ : Nat) = _)
    | with_reducible exact Does.refl _ _
    | with_reducible refine does_bootFail ?_ ?_
    | with_reducible refine does_modStack ?_ ?_
    | with_reducible refine does_setFld ?_ ?_
    | with_reducible assumption
    | with_reducible refine Does.foldl (fun _ _ _ => ?_) ?_
    | with_reducible refine Does.foldl_pair (fun _ _ _ => ?_) ?_
    | with_reducible refine Does.ite ?_ ?_
    | split

theorem does_bootStep {m : Nat} {s t : State} {x1 : BootReport} (hm : 23934160806424195658 ||| m = m) (h : Does m s t) :
    Does m s (State.bootStep t x1) := by
  refine h.after (c := 23934160806424195658) ?_ hm
  unfold State.bootStep
  dsimp only
  repeat' first
    | exact (Eq.refl _ : (_ : Nat) = _)
    | with_reducible exact Does.refl _ _
    | with_reducible refine does_allStacks ?_ ?_
    | with_reducible refine does_bootFail ?_ ?_
    | with_reducible refine does_bootReady ?_ ?_
    | with_reducible refine does_bootScreen ?_ ?_
    | with_reducible refine does_clrMem ?_ ?_
    | with_reducible refine does_modBoot ?_ ?_
    | with_reducible refine does_modBulk ?_ ?_
    | with_reducible refine does_setFld ?_ ?_
    | with_reducible refine does_setReg ?_ ?_
    | with_reducible refine does_trainStacks ?_ ?_
    | with_reducible refine Does.ite ?_ ?_
    | split
    | with_reducible refine does_set_stale ?_ ?_
    | with_reducible refine does_set_windows_wfOn ?_ ?_

theorem does_bootTimeout {m : Nat} {s t : State}  (hm : 18447307023666118977 ||| m = m) (h : Does m s t) :
    Does m s (State.bootTimeout t) := by
  refine h.after (c := 18447307023666118977) ?_ hm
  unfold State.bootTimeout
  repeat' first
    | exact (Eq.refl _ : (_ : Nat) = _)
    | with_reducible exact Does.refl _ _
    | with_reducible refine does_bootFail ?_ ?_
    | with_reducible refine does_waitClk ?_ ?_
    | with_reducible refine Does.ite ?_ ?_
    | split

theorem does_writeDir {m : Nat} {s t : State} {x1 : Bool} (hm : 8 ||| m = m) (h : Does m s t) :
    Does m s (State.writeDir t x1) := by
  refine h.after (c := 8) ?_ hm
  unfold State.writeDir
  dsimp only
  repeat' first
    | exact (Eq.refl _ : (_ : Nat) = _)
    | with_reducible exact Does.refl _ _
    | with_reducible refine does_wrMem ?_ ?_
    | with_reducible refine Does.ite ?_ ?_
    | split

theorem does_cancelActivation {m : Nat} {s t : State}  (hm : 40 ||| m = m) (h : Does m s t) :
    Does m s (State.cancelActivation t) := by
  refine h.after (c := 40) ?_ hm
  unfold State.cancelActivation
  dsimp only
  repeat' first
    | exact (Eq.refl _ : (_ : Nat) = _)
    | with_reducible exact Does.refl _ _
    | with_reducible refine does_writeDir ?_ ?_
    | with_reducible refine Does.ite ?_ ?_
    | split
    | with_reducible refine does_set_ident ?_ ?_

theorem does_mbSettle {m : Nat} {s t : State} {x1 : Nat} (hm : 34359738370 ||| m = m) (h : Does m s t) :
    Does m s (State.mbSettle t x1) := by
  refine h.after (c := 34359738370) ?_ hm
  unfold State.mbSettle
  repeat' first
    | exact (Eq.refl _ : (_ : Nat) = _)
    | with_reducible exact Does.refl _ _
    | with_reducible refine does_clearRegs ?_ ?_
    | with_reducible refine Does.ite ?_ ?_
    | split
    | with_reducible refine does_set_mboxes ?_ ?_

theorem does_modMbox {m : Nat} {s t : State} {x1 : Nat} {x2 : Mbox → Mbox} (hm : 34359738368 ||| m = m) (h : Does m s t) :
    Does m s (State.modMbox t x1 x2) := by
  refine h.after (c := 34359738368) ?_ hm
  unfold State.modMbox
  repeat' first
    | exact (Eq.refl _ : (_ : Nat) = _)
    | with_reducible exact Does.refl _ _
    | with_reducible refine does_set_mboxes ?_ ?_

theorem does_mbDetach {m : Nat} {s t : State} {x1 : Nat} (hm : 34359738370 ||| m = m) (h : Does m s t) :
    Does m s (State.mbDetach t x1) := by
  refine h.after (c := 34359738370) ?_ hm
  unfold State.mbDetach
  repeat' first
    | exact (Eq.refl _ : (_ : Nat) = _)
    | with_reducible exact Does.refl _ _
    | with_reducible refine does_mbSettle ?_ ?_
    | with_reducible refine does_modMbox ?_ ?_
    | with_reducible refine Does.ite ?_ ?_
    | split

theorem does_mbEnd {m : Nat} {s t : State} {x1 : Nat} {x2 : Status} {x3 : Nat} {x4 : Nat} (hm : 34359738368 ||| m = m) (h : Does m s t) :
    Does m s (State.mbEnd t x1 x2 x3 x4) := by
  refine h.after (c := 34359738368) ?_ hm
  unfold State.mbEnd
  repeat' first
    | exact (Eq.refl _ : (_ : Nat) = _)
    | with_reducible exact Does.refl _ _
    | with_reducible refine does_modMbox ?_ ?_

theorem does_mbDoneFree {m : Nat} {s t : State} {x1 : Nat} (hm : 18446744108069289984 ||| m = m) (h : Does m s t) :
    Does m s (State.mbDoneFree t x1) := by
  refine h.after (c := 18446744108069289984) ?_ hm
  unfold State.mbDoneFree
  repeat' first
    | exact (Eq.refl _ : (_ : Nat) = _)
    | with_reducible exact Does.refl _ _
    | with_reducible refine does_mbEnd ?_ ?_
    | with_reducible refine does_useFree ?_ ?_

theorem does_mbPut {m : Nat} {s t : State} {x1 : Nat} {x2 : List Byte} {x3 : State → State} (hm : 18447307058303467594 ||| m = m)
    (hg : ∀ u, Does m s u → Does m s (x3 u)) (h : Does m s t) :
    Does m s (State.mbPut t x1 x2 x3) := by
  unfold State.mbPut
  dsimp only
  repeat' first
    | exact lor_trans (Eq.refl _ : _ ||| 18447307058303467594 = _) hm
    | with_reducible exact h
    | with_reducible refine does_mbEnd ?_ ?_
    | with_reducible refine does_modMbox ?_ ?_
    | with_reducible refine does_devWrite ?_ ?_
    | apply hg
    | split

theorem does_mbAttest {m : Nat} {s t : State} {x1 : Nat} (hm : 18447307058303467594 ||| m = m) (h : Does m s t) :
    Does m s (State.mbAttest t x1) := by
  refine h.after (c := 18447307058303467594) ?_ hm
  unfold State.mbAttest
  dsimp only
  repeat' first
    | exact (Eq.refl _ : (_ : Nat) = _)
    | with_reducible exact Does.refl _ _
    | with_reducible refine does_devRead ?_ ?_
    | with_reducible refine does_mbDoneFree ?_ ?_
    | with_reducible refine does_mbEnd ?_ ?_
    | with_reducible refine does_mbPut ?_ (fun _ _ => ?_) ?_
    | with_reducible assumption
    | with_reducible refine Does.ite ?_ ?_
    | split

theorem does_mbCertRead {m : Nat} {s t : State} {x1 : Nat} (hm : 18447307058303467594 ||| m = m) (h : Does m s t) :
    Does m s (State.mbCertRead t x1) := by
  refine h.after (c := 18447307058303467594) ?_ hm
  unfold State.mbCertRead
  dsimp only
  repeat' first
    | exact (Eq.refl _ : (_ : Nat) = _)
    | with_reducible exact Does.refl _ _
    | with_reducible refine does_mbEnd ?_ ?_
    | with_reducible refine does_mbPut ?_ (fun _ _ => ?_) ?_
    | with_reducible assumption
    | with_reducible refine Does.ite ?_ ?_
    | split

theorem does_secEvent {m : Nat} {s t : State} {x1 : Nat} (hm : 18446744073713483842 ||| m = m) (h : Does m s t) :
    Does m s (State.secEvent t x1) := by
  refine h.after (c := 18446744073713483842) ?_ hm
  unfold State.secEvent
  repeat' first
    | exact (Eq.refl _ : (_ : Nat) = _)
    | with_reducible exact Does.refl _ _
    | with_reducible refine does_raise ?_ ?_

theorem does_mbFwActivate {m : Nat} {s t : State} {x1 : Nat} (hm : 18446744108073222250 ||| m = m) (h : Does m s t) :
    Does m s (State.mbFwActivate t x1) := by
  refine h.after (c := 18446744108073222250) ?_ hm
  unfold State.mbFwActivate
  dsimp only
  repeat' first
    | exact (Eq.refl _ : (_ : Nat) = _)
    | with_reducible exact Does.refl _ _
    | with_reducible refine does_mbDoneFree ?_ ?_
    | with_reducible refine does_mbEnd ?_ ?_
    | with_reducible refine does_secEvent ?_ ?_
    | with_reducible refine does_writeDir ?_ ?_
    | with_reducible refine Does.ite ?_ ?_
    | split
    | with_reducible refine does_set_ident ?_ ?_

theorem does_mbFwStage {m : Nat} {s t : State} {x1 : Nat} (hm : 18447307058303467626 ||| m = m) (h : Does m s t) :
    Does m s (State.mbFwStage t x1) := by
  refine h.after (c := 18447307058303467626) ?_ hm
  unfold State.mbFwStage
  dsimp only
  repeat' first
    | exact (Eq.refl _ : (_ : Nat) = _)
    | with_reducible exact Does.refl _ _
    | with_reducible refine does_cancelActivation ?_ ?_
    | with_reducible refine does_clrMem ?_ ?_
    | with_reducible refine does_devRead ?_ ?_
    | with_reducible refine does_mbDoneFree ?_ ?_
    | with_reducible refine does_mbEnd ?_ ?_
    | with_reducible refine does_wrMem ?_ ?_
    | with_reducible refine Does.ite ?_ ?_
    | split

theorem does_mbLogRead {m : Nat} {s t : State} {x1 : Nat} (hm : 18447307058303467594 ||| m = m) (h : Does m s t) :
    Does m s (State.mbLogRead t x1) := by
  refine h.after (c := 18447307058303467594) ?_ hm
  unfold State.mbLogRead
  dsimp only
  repeat' first
    | exact (Eq.refl _ : (_ : Nat) = _)
    | with_reducible exact Does.refl _ _
    | with_reducible refine does_mbEnd ?_ ?_
    | with_reducible refine does_mbPut ?_ (fun _ _ => ?_) ?_
    | with_reducible assumption
    | split

theorem does_mbRecordStage {m : Nat} {s t : State} {x1 : Nat} (hm : 18447307058303467626 ||| m = m) (h : Does m s t) :
    Does m s (State.mbRecordStage t x1) := by
  refine h.after (c := 18447307058303467626) ?_ hm
  unfold State.mbRecordStage
  dsimp only
  repeat' first
    | exact (Eq.refl _ : (_ : Nat) = _)
    | with_reducible exact Does.refl _ _
    | with_reducible refine does_cancelActivation ?_ ?_
    | with_reducible refine does_devRead ?_ ?_
    | with_reducible refine does_mbDoneFree ?_ ?_
    | with_reducible refine does_mbEnd ?_ ?_
    | with_reducible refine does_secEvent ?_ ?_
    | with_reducible refine does_wrMem ?_ ?_
    | with_reducible refine Does.ite ?_ ?_
    | split

theorem does_mbGo {m : Nat} {s t : State} {x1 : Nat} {x2 : Word} (hm : 36893488147419103231 ||| m = m) (h : Does m s t) :
    Does m s (State.mbGo t x1 x2) := by
  refine h.after (c := 36893488147419103231) ?_ hm
  unfold State.mbGo
  dsimp only
  repeat' first
    | exact (Eq.refl _ : (_ : Nat) = _)
    | with_reducible exact Does.refl _ _
    | with_reducible refine does_ends ?_ ?_
    | with_reducible refine does_mbAttest ?_ ?_
    | with_reducible refine does_mbCertRead ?_ ?_
    | with_reducible refine does_mbFwActivate ?_ ?_
    | with_reducible refine does_mbFwStage ?_ ?_
    | with_reducible refine does_mbLogRead ?_ ?_
    | with_reducible refine does_mbRecordStage ?_ ?_
    | with_reducible refine does_modMbox ?_ ?_
    | with_reducible refine does_moduleReset ?_ ?_
    | with_reducible refine Does.ite ?_ ?_
    | split

theorem does_mbWrite {m : Nat} {s t : State} {x1 : Nat} {x2 : Nat} {x3 : Word} (hm : 4611686018427387906 ||| m = m) (h : Does m s t) :
    Does m s (State.mbWrite t x1 x2 x3) := by
  refine h.after (c := 4611686018427387906) ?_ hm
  unfold State.mbWrite
  dsimp only
  repeat' first
    | exact (Eq.refl _ : (_ : Nat) = _)
    | with_reducible exact Does.refl _ _
    | with_reducible refine does_ends ?_ ?_
    | with_reducible refine does_setReg ?_ ?_
    | with_reducible refine Does.ite ?_ ?_
    | split

theorem does_mbDone {m : Nat} {s t : State} {x1 : Nat} (hm : 18446744108073222210 ||| m = m) (h : Does m s t) :
    Does m s (State.mbDone t x1) := by
  refine h.after (c := 18446744108073222210) ?_ hm
  unfold State.mbDone
  dsimp only
  repeat' first
    | exact (Eq.refl _ : (_ : Nat) = _)
    | with_reducible exact Does.refl _ _
    | with_reducible refine does_mbSettle ?_ ?_
    | with_reducible refine does_modMbox ?_ ?_
    | with_reducible refine does_raise ?_ ?_
    | with_reducible refine Does.ite ?_ ?_
    | split

theorem does_mbTimeout {m : Nat} {s t : State} {x1 : Nat} (hm : 18447307058303467851 ||| m = m) (h : Does m s t) :
    Does m s (State.mbTimeout t x1) := by
  refine h.after (c := 18447307058303467851) ?_ hm
  unfold State.mbTimeout
  dsimp only
  repeat' first
    | exact (Eq.refl _ : (_ : Nat) = _)
    | with_reducible exact Does.refl _ _
    | with_reducible refine does_devPut ?_ ?_
    | with_reducible refine does_freeBytes ?_ ?_
    | with_reducible refine does_mbSettle ?_ ?_
    | with_reducible refine does_modMbox ?_ ?_
    | with_reducible refine does_raise ?_ ?_
    | with_reducible refine does_waitClk ?_ ?_
    | with_reducible refine Does.of_fst (by assumption) ?_
    | with_reducible refine Does.ite ?_ ?_
    | split

end Sys2Proof.Machine
end

