-- ==== Sys2Proof/Laws/FrameStack.lean ====
section
/-! SUPPORT. What the operations of Stack change: the mask of the kinds of state each may touch. -/

namespace Sys2Proof.Machine

theorem does_flipStack {m : Nat} {s t : State} {x1 : StackLoc} {x2 : List (Nat × Byte)} (hm : 8 ||| m = m) (h : Does m s t) :
    Does m s (State.flipStack t x1 x2) := by
  refine h.after (c := 8) ?_ hm
  unfold State.flipStack
  dsimp only
  repeat' first
    | exact (Eq.refl _ : (_ : Nat) = _)
    | with_reducible exact Does.refl _ _
    | with_reducible refine does_wrMem ?_ ?_

theorem does_sprCfgWrite {m : Nat} {s t : State} {x1 : Word} (hm : 4611686018460942338 ||| m = m) (h : Does m s t) :
    Does m s (State.sprCfgWrite t x1) := by
  refine h.after (c := 4611686018460942338) ?_ hm
  unfold State.sprCfgWrite
  dsimp only
  repeat' first
    | exact (Eq.refl _ : (_ : Nat) = _)
    | with_reducible exact Does.refl _ _
    | with_reducible refine does_ends ?_ ?_
    | with_reducible refine does_setReg ?_ ?_
    | with_reducible refine Does.ite ?_ ?_
    | split
    | with_reducible refine does_set_windows ?_ ?_

theorem does_thermWrite {m : Nat} {s t : State} {x1 : Word} (hm : 4611686018427388034 ||| m = m) (h : Does m s t) :
    Does m s (State.thermWrite t x1) := by
  refine h.after (c := 4611686018427388034) ?_ hm
  unfold State.thermWrite
  dsimp only
  repeat' first
    | exact (Eq.refl _ : (_ : Nat) = _)
    | with_reducible exact Does.refl _ _
    | with_reducible refine does_ends ?_ ?_
    | with_reducible refine does_modPower ?_ ?_
    | with_reducible refine does_setReg ?_ ?_
    | with_reducible assumption
    | with_reducible refine Does.foldl (fun _ _ _ => ?_) ?_
    | with_reducible refine Does.foldl_pair (fun _ _ _ => ?_) ?_
    | with_reducible refine Does.ite ?_ ?_

theorem does_parityAlert {m : Nat} {s t : State} {x1 : Nat} {x2 : Nat} (hm : 18447307023675293762 ||| m = m) (h : Does m s t) :
    Does m s (State.parityAlert t x1 x2) := by
  refine h.after (c := 18447307023675293762) ?_ hm
  unfold State.parityAlert
  dsimp only
  repeat' first
    | exact (Eq.refl _ : (_ : Nat) = _)
    | with_reducible exact Does.refl _ _
    | with_reducible refine does_bump ?_ ?_
    | with_reducible refine does_modStack ?_ ?_
    | with_reducible refine does_raise ?_ ?_
    | with_reducible refine does_stackFail ?_ ?_
    | with_reducible refine Does.ite ?_ ?_

theorem does_refreshDue {m : Nat} {s t : State} {x1 : Nat} {x2 : Nat} {x3 : Nat} {x4 : Nat} (hm : 8388867 ||| m = m) (h : Does m s t) :
    Does m s (State.refreshDue t x1 x2 x3 x4) := by
  refine h.after (c := 8388867) ?_ hm
  unfold State.refreshDue
  dsimp only
  repeat' first
    | exact (Eq.refl _ : (_ : Nat) = _)
    | with_reducible exact Does.refl _ _
    | with_reducible refine does_bump ?_ ?_
    | with_reducible refine does_modStack ?_ ?_
    | with_reducible refine does_waitClk ?_ ?_
    | with_reducible refine Does.ite ?_ ?_

theorem does_scrubRead {m : Nat} {s t : State} {x1 : Nat} {x2 : Nat} (hm : 18447307023675294043 ||| m = m) (h : Does m s t) :
    Does m s (State.scrubRead t x1 x2) := by
  refine h.after (c := 18447307023675294043) ?_ hm
  unfold State.scrubRead
  dsimp only
  repeat' first
    | exact (Eq.refl _ : (_ : Nat) = _)
    | with_reducible exact Does.refl _ _
    | with_reducible refine does_bump ?_ ?_
    | with_reducible refine does_modStack ?_ ?_
    | with_reducible refine does_noteLanes ?_ ?_
    | with_reducible refine does_noteUe ?_ ?_
    | with_reducible refine does_periodic ?_ ?_
    | with_reducible refine does_stackFix ?_ ?_
    | with_reducible refine does_stackUe ?_ ?_
    | with_reducible refine Does.ite ?_ ?_
    | split

theorem does_stackReadDone {m : Nat} {s t : State} {x1 : Nat} {x2 : List (Nat × Byte)} (hm : 23058993042102681674 ||| m = m) (h : Does m s t) :
    Does m s (State.stackReadDone t x1 x2) := by
  refine h.after (c := 23058993042102681674) ?_ hm
  unfold State.stackReadDone
  dsimp only
  repeat' first
    | exact (Eq.refl _ : (_ : Nat) = _)
    | with_reducible exact Does.refl _ _
    | with_reducible refine does_ends ?_ ?_
    | with_reducible refine does_flipStack ?_ ?_
    | with_reducible refine does_noteLanes ?_ ?_
    | with_reducible refine does_readStack ?_ ?_
    | with_reducible refine Does.of_fst (by assumption) ?_
    | with_reducible refine Does.ite ?_ ?_
    | split

theorem does_thermalAct {m : Nat} {s t : State} {x1 : Nat} {x2 : Int} {x3 : Nat} (hm : 18447307023675293762 ||| m = m) (h : Does m s t) :
    Does m s (State.thermalAct t x1 x2 x3) := by
  refine h.after (c := 18447307023675293762) ?_ hm
  unfold State.thermalAct
  dsimp only
  repeat' first
    | exact (Eq.refl _ : (_ : Nat) = _)
    | with_reducible exact Does.refl _ _
    | with_reducible refine does_modStack ?_ ?_
    | with_reducible refine does_raise ?_ ?_
    | with_reducible refine does_stackFail ?_ ?_
    | with_reducible refine Does.ite ?_ ?_

theorem does_thermalMiss {m : Nat} {s t : State} {x1 : Nat} (hm : 18447307023675293762 ||| m = m) (h : Does m s t) :
    Does m s (State.thermalMiss t x1) := by
  refine h.after (c := 18447307023675293762) ?_ hm
  unfold State.thermalMiss
  dsimp only
  repeat' first
    | exact (Eq.refl _ : (_ : Nat) = _)
    | with_reducible exact Does.refl _ _
    | with_reducible refine does_modStack ?_ ?_
    | with_reducible refine does_thermalAct ?_ ?_
    | with_reducible refine Does.ite ?_ ?_

theorem does_thermalReport {m : Nat} {s t : State} {x1 : Nat} {x2 : Int} {x3 : Nat} (hm : 18447307023675294035 ||| m = m) (h : Does m s t) :
    Does m s (State.thermalReport t x1 x2 x3) := by
  refine h.after (c := 18447307023675294035) ?_ hm
  unfold State.thermalReport
  dsimp only
  repeat' first
    | exact (Eq.refl _ : (_ : Nat) = _)
    | with_reducible exact Does.refl _ _
    | with_reducible refine does_bump ?_ ?_
    | with_reducible refine does_modStack ?_ ?_
    | with_reducible refine does_periodic ?_ ?_
    | with_reducible refine does_thermalAct ?_ ?_
    | with_reducible refine Does.ite ?_ ?_

end Sys2Proof.Machine
end

