-- ==== Sys2Proof/Laws/FrameTime.lean ====
section
/-! SUPPORT. What the operations of Time change: the mask of the kinds of state each may touch. -/

namespace Sys2Proof.Machine

theorem does_raiseTime {m : Nat} {s t : State} {x1 : Nat} (hm : 18446744073713483842 ||| m = m) (h : Does m s t) :
    Does m s (State.raiseTime t x1) := by
  refine h.after (c := 18446744073713483842) ?_ hm
  unfold State.raiseTime
  repeat' first
    | exact (Eq.refl _ : (_ : Nat) = _)
    | with_reducible exact Does.refl _ _
    | with_reducible refine does_raise ?_ ?_

theorem does_enterTime {m : Nat} {s t : State} {x1 : TimeMode} (hm : 18446744073713484098 ||| m = m) (h : Does m s t) :
    Does m s (State.enterTime t x1) := by
  refine h.after (c := 18446744073713484098) ?_ hm
  unfold State.enterTime
  dsimp only
  repeat' first
    | exact (Eq.refl _ : (_ : Nat) = _)
    | with_reducible exact Does.refl _ _
    | with_reducible refine does_modTime ?_ ?_
    | with_reducible refine does_raiseTime ?_ ?_
    | with_reducible refine Does.ite ?_ ?_
    | split

theorem does_beaconMiss {m : Nat} {s t : State}  (hm : 18446744073713484099 ||| m = m) (h : Does m s t) :
    Does m s (State.beaconMiss t) := by
  refine h.after (c := 18446744073713484099) ?_ hm
  unfold State.beaconMiss
  dsimp only
  repeat' first
    | exact (Eq.refl _ : (_ : Nat) = _)
    | with_reducible exact Does.refl _ _
    | with_reducible refine does_enterTime ?_ ?_
    | with_reducible refine does_modTime ?_ ?_
    | with_reducible refine does_waitClk ?_ ?_
    | with_reducible refine Does.ite ?_ ?_
    | split

theorem does_beaconState {m : Nat} {s t : State} {x1 : Int} {x2 : Nat} (hm : 18446744073713484098 ||| m = m) (h : Does m s t) :
    Does m s (State.beaconState t x1 x2) := by
  refine h.after (c := 18446744073713484098) ?_ hm
  unfold State.beaconState
  repeat' first
    | exact (Eq.refl _ : (_ : Nat) = _)
    | with_reducible exact Does.refl _ _
    | with_reducible refine does_enterTime ?_ ?_
    | with_reducible refine does_modTime ?_ ?_
    | with_reducible refine Does.ite ?_ ?_
    | split

theorem does_correctCt {m : Nat} {s t : State} {x1 : Int} (hm : 18446744073713484098 ||| m = m) (h : Does m s t) :
    Does m s (State.correctCt t x1) := by
  refine h.after (c := 18446744073713484098) ?_ hm
  unfold State.correctCt
  repeat' first
    | exact (Eq.refl _ : (_ : Nat) = _)
    | with_reducible exact Does.refl _ _
    | with_reducible refine does_modTime ?_ ?_
    | with_reducible refine does_raiseTime ?_ ?_
    | with_reducible refine Does.ite ?_ ?_

theorem does_forwardBeacon {m : Nat} {s t : State} {x1 : Option Nat} (hm : 562949957615616 ||| m = m) (h : Does m s t) :
    Does m s (State.forwardBeacon t x1) := by
  refine h.after (c := 562949957615616) ?_ hm
  unfold State.forwardBeacon
  repeat' first
    | exact (Eq.refl _ : (_ : Nat) = _)
    | with_reducible exact Does.refl _ _
    | with_reducible refine does_sendFrame ?_ ?_
    | with_reducible assumption
    | with_reducible refine Does.foldl (fun _ _ _ => ?_) ?_

theorem does_beaconReceive {m : Nat} {s t : State} {x1 : Source} {x2 : List Byte} (hm : 18447307023671099714 ||| m = m) (h : Does m s t) :
    Does m s (State.beaconReceive t x1 x2) := by
  refine h.after (c := 18447307023671099714) ?_ hm
  unfold State.beaconReceive
  dsimp only
  repeat' first
    | exact (Eq.refl _ : (_ : Nat) = _)
    | with_reducible exact Does.refl _ _
    | with_reducible refine does_beaconState ?_ ?_
    | with_reducible refine does_bump ?_ ?_
    | with_reducible refine does_correctCt ?_ ?_
    | with_reducible refine does_forwardBeacon ?_ ?_
    | with_reducible refine does_modTime ?_ ?_
    | with_reducible refine Does.ite ?_ ?_
    | split

theorem does_timeoutLowered {m : Nat} {s t : State}  (hm : 18446744073713484098 ||| m = m) (h : Does m s t) :
    Does m s (State.timeoutLowered t) := by
  refine h.after (c := 18446744073713484098) ?_ hm
  unfold State.timeoutLowered
  repeat' first
    | exact (Eq.refl _ : (_ : Nat) = _)
    | with_reducible exact Does.refl _ _
    | with_reducible refine does_enterTime ?_ ?_
    | with_reducible refine Does.ite ?_ ?_

theorem does_timeCtrlWrite {m : Nat} {s t : State} {x1 : Word} (hm : 23058430092140872002 ||| m = m) (h : Does m s t) :
    Does m s (State.timeCtrlWrite t x1) := by
  refine h.after (c := 23058430092140872002) ?_ hm
  unfold State.timeCtrlWrite
  dsimp only
  repeat' first
    | exact (Eq.refl _ : (_ : Nat) = _)
    | with_reducible exact Does.refl _ _
    | with_reducible refine does_ends ?_ ?_
    | with_reducible refine does_modTime ?_ ?_
    | with_reducible refine does_raiseTime ?_ ?_
    | with_reducible refine does_setReg ?_ ?_
    | with_reducible refine does_timeoutLowered ?_ ?_
    | with_reducible refine Does.ite ?_ ?_

theorem does_holdoverExpire {m : Nat} {s t : State}  (hm : 18446744073713484099 ||| m = m) (h : Does m s t) :
    Does m s (State.holdoverExpire t) := by
  refine h.after (c := 18446744073713484099) ?_ hm
  unfold State.holdoverExpire
  repeat' first
    | exact (Eq.refl _ : (_ : Nat) = _)
    | with_reducible exact Does.refl _ _
    | with_reducible refine does_enterTime ?_ ?_
    | with_reducible refine does_waitClk ?_ ?_
    | with_reducible refine Does.ite ?_ ?_

theorem does_upstreamChange {m : Nat} {s t : State} {x1 : Nat} (hm : 18446744073713484098 ||| m = m) (h : Does m s t) :
    Does m s (State.upstreamChange t x1) := by
  refine h.after (c := 18446744073713484098) ?_ hm
  unfold State.upstreamChange
  repeat' first
    | exact (Eq.refl _ : (_ : Nat) = _)
    | with_reducible exact Does.refl _ _
    | with_reducible refine does_modTime ?_ ?_
    | with_reducible refine does_raiseTime ?_ ?_
    | with_reducible refine Does.ite ?_ ?_
    | split

end Sys2Proof.Machine
end

