-- ==== Sys2Proof/Laws/FrameRegWrite.lean ====
section
/-! SUPPORT. What the operations of RegWrite change: the mask of the kinds of state each may touch. -/

namespace Sys2Proof.Machine

theorem does_store {m : Nat} {s t : State} {x1 : Nat} {x2 : Nat} {x3 : Word} (hm : 4611686018427387906 ||| m = m) (h : Does m s t) :
    Does m s (State.store t x1 x2 x3) := by
  refine h.after (c := 4611686018427387906) ?_ hm
  unfold State.store
  repeat' first
    | exact (Eq.refl _ : (_ : Nat) = _)
    | with_reducible exact Does.refl _ _
    | with_reducible refine does_ends ?_ ?_
    | with_reducible refine does_setReg ?_ ?_

theorem does_attWrite {m : Nat} {s t : State} {x1 : Nat} {x2 : Nat} {x3 : Word} (hm : 4611686018427387906 ||| m = m) (h : Does m s t) :
    Does m s (State.attWrite t x1 x2 x3) := by
  refine h.after (c := 4611686018427387906) ?_ hm
  unfold State.attWrite
  repeat' first
    | exact (Eq.refl _ : (_ : Nat) = _)
    | with_reducible exact Does.refl _ _
    | with_reducible refine does_ends ?_ ?_
    | with_reducible refine does_patWrite ?_ ?_
    | with_reducible refine does_store ?_ ?_
    | with_reducible refine Does.ite ?_ ?_
    | split

theorem does_huskWrite {m : Nat} {s t : State} {x1 : Word} (hm : 4611686018427387906 ||| m = m) (h : Does m s t) :
    Does m s (State.huskWrite t x1) := by
  refine h.after (c := 4611686018427387906) ?_ hm
  unfold State.huskWrite
  dsimp only
  repeat' first
    | exact (Eq.refl _ : (_ : Nat) = _)
    | with_reducible exact Does.refl _ _
    | with_reducible refine does_ends ?_ ?_
    | with_reducible refine does_store ?_ ?_
    | with_reducible refine Does.ite ?_ ?_
    | split

theorem does_bulkWrite {m : Nat} {s t : State} {x1 : Nat} {x2 : Nat} {x3 : Word} (hm : 4611686018695823490 ||| m = m) (h : Does m s t) :
    Does m s (State.bulkWrite t x1 x2 x3) := by
  refine h.after (c := 4611686018695823490) ?_ hm
  unfold State.bulkWrite
  dsimp only
  repeat' first
    | exact (Eq.refl _ : (_ : Nat) = _)
    | with_reducible exact Does.refl _ _
    | with_reducible refine does_boundWrite ?_ ?_
    | with_reducible refine does_ends ?_ ?_
    | with_reducible refine does_huskWrite ?_ ?_
    | with_reducible refine does_pinWrite ?_ ?_
    | with_reducible refine does_store ?_ ?_
    | with_reducible refine Does.ite ?_ ?_
    | split

theorem does_cadWrite {m : Nat} {s t : State} {x1 : Nat} {x2 : Nat} {x3 : Word} (hm : 23058993042371124558 ||| m = m) (h : Does m s t) :
    Does m s (State.cadWrite t x1 x2 x3) := by
  refine h.after (c := 23058993042371124558) ?_ hm
  unfold State.cadWrite
  dsimp only
  repeat' first
    | exact (Eq.refl _ : (_ : Nat) = _)
    | with_reducible exact Does.refl _ _
    | with_reducible refine does_counterSet ?_ ?_
    | with_reducible refine does_ends ?_ ?_
    | with_reducible refine does_schedCommit ?_ ?_
    | with_reducible refine does_schedLoad ?_ ?_
    | with_reducible refine does_stage ?_ ?_
    | with_reducible refine does_store ?_ ?_
    | with_reducible refine does_timeCtrlWrite ?_ ?_
    | with_reducible refine Does.ite ?_ ?_
    | split

theorem does_checkWrite {m : Nat} {s t : State} {x1 : Nat} {x2 : Nat} {x3 : Word} (hm : 4611686020574871554 ||| m = m) (h : Does m s t) :
    Does m s (State.checkWrite t x1 x2 x3) := by
  refine h.after (c := 4611686020574871554) ?_ hm
  unfold State.checkWrite
  dsimp only
  repeat' first
    | exact (Eq.refl _ : (_ : Nat) = _)
    | with_reducible exact Does.refl _ _
    | with_reducible refine does_ends ?_ ?_
    | with_reducible refine does_setReg ?_ ?_
    | with_reducible refine Does.ite ?_ ?_
    | split
    | with_reducible refine does_set_csSets ?_ ?_

theorem does_clearBits {m : Nat} {s t : State} {x1 : Nat} {x2 : Word} (hm : 4611686018427387906 ||| m = m) (h : Does m s t) :
    Does m s (State.clearBits t x1 x2) := by
  refine h.after (c := 4611686018427387906) ?_ hm
  unfold State.clearBits
  repeat' first
    | exact (Eq.refl _ : (_ : Nat) = _)
    | with_reducible exact Does.refl _ _
    | with_reducible refine does_ends ?_ ?_
    | with_reducible refine does_setReg ?_ ?_

theorem does_countersClear {m : Nat} {s t : State} {x1 : Nat} {x2 : Word} (hm : 4611686018427387906 ||| m = m) (h : Does m s t) :
    Does m s (State.countersClear t x1 x2) := by
  refine h.after (c := 4611686018427387906) ?_ hm
  unfold State.countersClear
  repeat' first
    | exact (Eq.refl _ : (_ : Nat) = _)
    | with_reducible exact Does.refl _ _
    | with_reducible refine does_ends ?_ ?_
    | with_reducible refine does_setFld ?_ ?_
    | with_reducible assumption
    | with_reducible refine Does.foldl (fun _ _ _ => ?_) ?_
    | with_reducible refine Does.foldl_pair (fun _ _ _ => ?_) ?_

theorem does_commonWrite {m : Nat} {s t : State} {x1 : Nat} {x2 : Nat} {x3 : Nat} {x4 : Word} (hm : 4611686018427387906 ||| m = m) (h : Does m s t) :
    Does m s (State.commonWrite t x1 x2 x3 x4) := by
  refine h.after (c := 4611686018427387906) ?_ hm
  unfold State.commonWrite
  dsimp only
  repeat' first
    | exact (Eq.refl _ : (_ : Nat) = _)
    | with_reducible exact Does.refl _ _
    | with_reducible refine does_clearBits ?_ ?_
    | with_reducible refine does_countersClear ?_ ?_
    | with_reducible refine does_ends ?_ ?_
    | with_reducible refine does_ptOwnerWrite ?_ ?_
    | with_reducible refine does_store ?_ ?_
    | with_reducible refine Does.ite ?_ ?_
    | split

theorem does_dmPageWrite {m : Nat} {s t : State} {x1 : Nat} {x2 : Nat} {x3 : Nat} {x4 : Word} (hm : 4611686052787912706 ||| m = m) (h : Does m s t) :
    Does m s (State.dmPageWrite t x1 x2 x3 x4) := by
  refine h.after (c := 4611686052787912706) ?_ hm
  unfold State.dmPageWrite
  dsimp only
  repeat' first
    | exact (Eq.refl _ : (_ : Nat) = _)
    | with_reducible exact Does.refl _ _
    | with_reducible refine does_dmCfgWrite ?_ ?_
    | with_reducible refine does_ends ?_ ?_
    | with_reducible refine does_mbDetach ?_ ?_
    | with_reducible refine does_store ?_ ?_
    | with_reducible refine Does.ite ?_ ?_
    | split

theorem does_dqWrite {m : Nat} {s t : State} {x1 : Nat} {x2 : Nat} {x3 : Nat} {x4 : Word} (hm : 23329209020013346890 ||| m = m) (h : Does m s t) :
    Does m s (State.dqWrite t x1 x2 x3 x4) := by
  refine h.after (c := 23329209020013346890) ?_ hm
  unfold State.dqWrite
  repeat' first
    | exact (Eq.refl _ : (_ : Nat) = _)
    | with_reducible exact Does.refl _ _
    | with_reducible refine does_ends ?_ ?_
    | with_reducible refine does_eqWrite ?_ ?_
    | with_reducible refine does_sqBaseWrite ?_ ?_
    | with_reducible refine does_sqCtrlWrite ?_ ?_
    | with_reducible refine does_store ?_ ?_
    | with_reducible refine Does.ite ?_ ?_
    | split

theorem does_stageAt {m : Nat} {s t : State} {x1 : Nat} {x2 : Nat} {x3 : Nat} {x4 : Word} (hm : 4611686018427387908 ||| m = m) (h : Does m s t) :
    Does m s (State.stageAt t x1 x2 x3 x4) := by
  refine h.after (c := 4611686018427387908) ?_ hm
  unfold State.stageAt
  repeat' first
    | exact (Eq.refl _ : (_ : Nat) = _)
    | with_reducible exact Does.refl _ _
    | with_reducible refine does_ends ?_ ?_
    | with_reducible refine does_stage ?_ ?_

theorem does_fabWrite {m : Nat} {s t : State} {x1 : Nat} {x2 : Nat} {x3 : Word} (hm : 23068000241625858126 ||| m = m) (h : Does m s t) :
    Does m s (State.fabWrite t x1 x2 x3) := by
  refine h.after (c := 23068000241625858126) ?_ hm
  unfold State.fabWrite
  dsimp only
  repeat' first
    | exact (Eq.refl _ : (_ : Nat) = _)
    | with_reducible exact Does.refl _ _
    | with_reducible refine does_cqArm ?_ ?_
    | with_reducible refine does_cqReset ?_ ?_
    | with_reducible refine does_ends ?_ ?_
    | with_reducible refine does_fabCfgWrite ?_ ?_
    | with_reducible refine does_groupWrite ?_ ?_
    | with_reducible refine does_stageAt ?_ ?_
    | with_reducible refine does_store ?_ ?_
    | with_reducible refine Does.ite ?_ ?_
    | split

theorem does_twinWrite {m : Nat} {s t : State} {x1 : Nat} {x2 : Word} (hm : 7494270982191022094 ||| m = m) (h : Does m s t) :
    Does m s (State.twinWrite t x1 x2) := by
  refine h.after (c := 7494270982191022094) ?_ hm
  unfold State.twinWrite
  dsimp only
  repeat' first
    | exact (Eq.refl _ : (_ : Nat) = _)
    | with_reducible exact Does.refl _ _
    | with_reducible refine does_ends ?_ ?_
    | with_reducible refine does_resetSlice ?_ ?_
    | with_reducible refine does_setReg ?_ ?_
    | with_reducible assumption
    | with_reducible refine Does.foldl (fun _ _ _ => ?_) ?_
    | with_reducible refine Does.foldl_pair (fun _ _ _ => ?_) ?_
    | with_reducible refine Does.ite ?_ ?_
    | split

theorem does_igBlockWrite {m : Nat} {s t : State} {x1 : Nat} {x2 : Nat} {x3 : Nat} {x4 : Word} (hm : 7494270982191022094 ||| m = m) (h : Does m s t) :
    Does m s (State.igBlockWrite t x1 x2 x3 x4) := by
  refine h.after (c := 7494270982191022094) ?_ hm
  unfold State.igBlockWrite
  dsimp only
  repeat' first
    | exact (Eq.refl _ : (_ : Nat) = _)
    | with_reducible exact Does.refl _ _
    | with_reducible refine does_ends ?_ ?_
    | with_reducible refine does_setReg ?_ ?_
    | with_reducible refine does_store ?_ ?_
    | with_reducible refine does_twinWrite ?_ ?_
    | with_reducible refine Does.ite ?_ ?_
    | split

theorem does_igWrite {m : Nat} {s t : State} {x1 : Nat} {x2 : Nat} {x3 : Word} (hm : 25941578014724685902 ||| m = m) (h : Does m s t) :
    Does m s (State.igWrite t x1 x2 x3) := by
  refine h.after (c := 25941578014724685902) ?_ hm
  unfold State.igWrite
  dsimp only
  repeat' first
    | exact (Eq.refl _ : (_ : Nat) = _)
    | with_reducible exact Does.refl _ _
    | with_reducible refine does_checkWrite ?_ ?_
    | with_reducible refine does_ends ?_ ?_
    | with_reducible refine does_igBlockWrite ?_ ?_
    | with_reducible refine does_maceLoad ?_ ?_
    | with_reducible refine does_store ?_ ?_
    | with_reducible refine Does.ite ?_ ?_
    | split

theorem does_mbPageWrite {m : Nat} {s t : State} {x1 : Nat} {x2 : Nat} {x3 : Word} (hm : 36893488147419103231 ||| m = m) (h : Does m s t) :
    Does m s (State.mbPageWrite t x1 x2 x3) := by
  refine h.after (c := 36893488147419103231) ?_ hm
  unfold State.mbPageWrite
  repeat' first
    | exact (Eq.refl _ : (_ : Nat) = _)
    | with_reducible exact Does.refl _ _
    | with_reducible refine does_ends ?_ ?_
    | with_reducible refine does_mbGo ?_ ?_
    | with_reducible refine does_mbWrite ?_ ?_
    | with_reducible refine Does.ite ?_ ?_
    | split

theorem does_ptWrite {m : Nat} {s t : State} {x1 : Nat} {x2 : Nat} {x3 : Nat} {x4 : Word} (hm : 26409108085934112334 ||| m = m) (h : Does m s t) :
    Does m s (State.ptWrite t x1 x2 x3 x4) := by
  refine h.after (c := 26409108085934112334) ?_ hm
  unfold State.ptWrite
  repeat' first
    | exact (Eq.refl _ : (_ : Nat) = _)
    | with_reducible exact Does.refl _ _
    | with_reducible refine does_ends ?_ ?_
    | with_reducible refine does_ptCtrlWrite ?_ ?_
    | with_reducible refine does_ptLinkWrite ?_ ?_
    | with_reducible refine does_ptSlicesWrite ?_ ?_
    | with_reducible refine Does.ite ?_ ?_
    | split

theorem does_pwrWrite {m : Nat} {s t : State} {x1 : Nat} {x2 : Word} (hm : 23058430092140871874 ||| m = m) (h : Does m s t) :
    Does m s (State.pwrWrite t x1 x2) := by
  refine h.after (c := 23058430092140871874) ?_ hm
  unfold State.pwrWrite
  repeat' first
    | exact (Eq.refl _ : (_ : Nat) = _)
    | with_reducible exact Does.refl _ _
    | with_reducible refine does_clkCtrlWrite ?_ ?_
    | with_reducible refine does_ends ?_ ?_
    | with_reducible refine does_store ?_ ?_
    | with_reducible refine Does.ite ?_ ?_
    | split

theorem does_qntWrite {m : Nat} {s t : State} {x1 : Nat} {x2 : Nat} {x3 : Nat} {x4 : Word} (hm : 23923183213080248398 ||| m = m) (h : Does m s t) :
    Does m s (State.qntWrite t x1 x2 x3 x4) := by
  refine h.after (c := 23923183213080248398) ?_ hm
  unfold State.qntWrite
  repeat' first
    | exact (Eq.refl _ : (_ : Nat) = _)
    | with_reducible exact Does.refl _ _
    | with_reducible refine does_ends ?_ ?_
    | with_reducible refine does_profWrite ?_ ?_
    | with_reducible refine does_slotCfgWr ?_ ?_
    | with_reducible refine does_slotHistWr ?_ ?_
    | with_reducible refine does_slotOutWr ?_ ?_
    | with_reducible refine does_stageAt ?_ ?_
    | with_reducible refine does_store ?_ ?_
    | with_reducible refine does_trapWrite ?_ ?_
    | with_reducible refine Does.ite ?_ ?_
    | split

theorem does_rowWrite {m : Nat} {s t : State} {x1 : Nat} {x2 : Word} (hm : 23058993042505338954 ||| m = m) (h : Does m s t) :
    Does m s (State.rowWrite t x1 x2) := by
  refine h.after (c := 23058993042505338954) ?_ hm
  unfold State.rowWrite
  dsimp only
  repeat' first
    | exact (Eq.refl _ : (_ : Nat) = _)
    | with_reducible exact Does.refl _ _
    | with_reducible refine does_ends ?_ ?_
    | with_reducible refine does_rowAbort ?_ ?_
    | with_reducible refine does_rowGo ?_ ?_
    | with_reducible refine does_store ?_ ?_
    | with_reducible refine Does.ite ?_ ?_
    | split

theorem does_secWrite {m : Nat} {s t : State} {x1 : Nat} {x2 : Nat} {x3 : Word} (hm : 4611686018712608782 ||| m = m) (h : Does m s t) :
    Does m s (State.secWrite t x1 x2 x3) := by
  refine h.after (c := 4611686018712608782) ?_ hm
  unfold State.secWrite
  repeat' first
    | exact (Eq.refl _ : (_ : Nat) = _)
    | with_reducible exact Does.refl _ _
    | with_reducible refine does_ends ?_ ?_
    | with_reducible refine does_regionCommit ?_ ?_
    | with_reducible refine does_stageAt ?_ ?_
    | with_reducible refine does_store ?_ ?_
    | with_reducible refine Does.ite ?_ ?_
    | split

theorem does_seqWrite {m : Nat} {s t : State} {x1 : Nat} {x2 : Nat} {x3 : Word} (hm : 23923183213080248394 ||| m = m) (h : Does m s t) :
    Does m s (State.seqWrite t x1 x2 x3) := by
  refine h.after (c := 23923183213080248394) ?_ hm
  unfold State.seqWrite
  repeat' first
    | exact (Eq.refl _ : (_ : Nat) = _)
    | with_reducible exact Does.refl _ _
    | with_reducible refine does_ends ?_ ?_
    | with_reducible refine does_pmAddrWrite ?_ ?_
    | with_reducible refine does_pmCtrlWrite ?_ ?_
    | with_reducible refine does_seqCtrlWrite ?_ ?_
    | with_reducible refine does_seqStartWrite ?_ ?_
    | with_reducible refine Does.ite ?_ ?_
    | split

theorem does_slotWrite {m : Nat} {s t : State} {x1 : Nat} {x2 : Nat} {x3 : Nat} {x4 : Word} (hm : 23230129832510366282 ||| m = m) (h : Does m s t) :
    Does m s (State.slotWrite t x1 x2 x3 x4) := by
  refine h.after (c := 23230129832510366282) ?_ hm
  unfold State.slotWrite
  dsimp only
  repeat' first
    | exact (Eq.refl _ : (_ : Nat) = _)
    | with_reducible exact Does.refl _ _
    | with_reducible refine does_clearBits ?_ ?_
    | with_reducible refine does_ends ?_ ?_
    | with_reducible refine does_modSlot ?_ ?_
    | with_reducible refine does_passNops ?_ ?_
    | with_reducible refine does_psSchedWrite ?_ ?_
    | with_reducible refine does_setReg ?_ ?_
    | with_reducible refine does_slotEnable ?_ ?_
    | with_reducible refine does_store ?_ ?_
    | with_reducible refine Does.ite ?_ ?_
    | split

theorem does_stkCommonWrite {m : Nat} {s t : State} {x1 : Nat} {x2 : Nat} {x3 : Word} (hm : 4611686018460942470 ||| m = m) (h : Does m s t) :
    Does m s (State.stkCommonWrite t x1 x2 x3) := by
  refine h.after (c := 4611686018460942470) ?_ hm
  unfold State.stkCommonWrite
  repeat' first
    | exact (Eq.refl _ : (_ : Nat) = _)
    | with_reducible exact Does.refl _ _
    | with_reducible refine does_ends ?_ ?_
    | with_reducible refine does_sprCfgWrite ?_ ?_
    | with_reducible refine does_stageAt ?_ ?_
    | with_reducible refine does_store ?_ ?_
    | with_reducible refine does_thermWrite ?_ ?_
    | with_reducible refine Does.ite ?_ ?_
    | split

theorem does_mcfgWrite {m : Nat} {s t : State} {x1 : Word} (hm : 4611686018427387906 ||| m = m) (h : Does m s t) :
    Does m s (State.mcfgWrite t x1) := by
  refine h.after (c := 4611686018427387906) ?_ hm
  unfold State.mcfgWrite
  dsimp only
  repeat' first
    | exact (Eq.refl _ : (_ : Nat) = _)
    | with_reducible exact Does.refl _ _
    | with_reducible refine does_ends ?_ ?_
    | with_reducible refine does_store ?_ ?_
    | with_reducible refine Does.ite ?_ ?_
    | split

theorem does_pepWrite {m : Nat} {s t : State} {x1 : Nat} {x2 : Nat} {x3 : Word} (hm : 4611686018427387906 ||| m = m) (h : Does m s t) :
    Does m s (State.pepWrite t x1 x2 x3) := by
  refine h.after (c := 4611686018427387906) ?_ hm
  unfold State.pepWrite
  dsimp only
  repeat' first
    | exact (Eq.refl _ : (_ : Nat) = _)
    | with_reducible exact Does.refl _ _
    | with_reducible refine does_clearBits ?_ ?_
    | with_reducible refine does_ends ?_ ?_
    | with_reducible refine does_store ?_ ?_
    | with_reducible refine Does.ite ?_ ?_
    | split

theorem does_poolWrite {m : Nat} {s t : State} {x1 : Nat} {x2 : Nat} {x3 : Word} (hm : 4611686018427387906 ||| m = m) (h : Does m s t) :
    Does m s (State.poolWrite t x1 x2 x3) := by
  refine h.after (c := 4611686018427387906) ?_ hm
  unfold State.poolWrite
  dsimp only
  repeat' first
    | exact (Eq.refl _ : (_ : Nat) = _)
    | with_reducible exact Does.refl _ _
    | with_reducible refine does_ends ?_ ?_
    | with_reducible refine does_store ?_ ?_
    | with_reducible refine Does.ite ?_ ?_
    | split

theorem does_svBlockWrite {m : Nat} {s t : State} {x1 : Nat} {x2 : Nat} {x3 : Word} (hm : 4755801206503243778 ||| m = m) (h : Does m s t) :
    Does m s (State.svBlockWrite t x1 x2 x3) := by
  refine h.after (c := 4755801206503243778) ?_ hm
  unfold State.svBlockWrite
  dsimp only
  repeat' first
    | exact (Eq.refl _ : (_ : Nat) = _)
    | with_reducible exact Does.refl _ _
    | with_reducible refine does_ends ?_ ?_
    | with_reducible refine does_modSv ?_ ?_
    | with_reducible refine does_poolWrite ?_ ?_
    | with_reducible refine does_setReg ?_ ?_
    | with_reducible refine does_store ?_ ?_
    | with_reducible refine Does.ite ?_ ?_
    | split

theorem does_svWrite {m : Nat} {s t : State} {x1 : Nat} {x2 : Word} (hm : 4755801206503243778 ||| m = m) (h : Does m s t) :
    Does m s (State.svWrite t x1 x2) := by
  refine h.after (c := 4755801206503243778) ?_ hm
  unfold State.svWrite
  dsimp only
  repeat' first
    | exact (Eq.refl _ : (_ : Nat) = _)
    | with_reducible exact Does.refl _ _
    | with_reducible refine does_ends ?_ ?_
    | with_reducible refine does_mcfgWrite ?_ ?_
    | with_reducible refine does_pepWrite ?_ ?_
    | with_reducible refine does_setReg ?_ ?_
    | with_reducible refine does_store ?_ ?_
    | with_reducible refine does_svBlockWrite ?_ ?_
    | with_reducible refine Does.ite ?_ ?_
    | split

theorem does_vecWrite {m : Nat} {s t : State} {x1 : Nat} {x2 : Nat} {x3 : Nat} {x4 : Word} (hm : 4611694814520410118 ||| m = m) (h : Does m s t) :
    Does m s (State.vecWrite t x1 x2 x3 x4) := by
  refine h.after (c := 4611694814520410118) ?_ hm
  unfold State.vecWrite
  repeat' first
    | exact (Eq.refl _ : (_ : Nat) = _)
    | with_reducible exact Does.refl _ _
    | with_reducible refine does_blendWrite ?_ ?_
    | with_reducible refine does_ends ?_ ?_
    | with_reducible refine does_stageAt ?_ ?_
    | with_reducible refine does_store ?_ ?_
    | with_reducible refine Does.ite ?_ ?_
    | split

theorem does_wsWrite {m : Nat} {s t : State} {x1 : Nat} {x2 : Nat} {x3 : Word} (hm : 4611686018427453442 ||| m = m) (h : Does m s t) :
    Does m s (State.wsWrite t x1 x2 x3) := by
  refine h.after (c := 4611686018427453442) ?_ hm
  unfold State.wsWrite
  repeat' first
    | exact (Eq.refl _ : (_ : Nat) = _)
    | with_reducible exact Does.refl _ _
    | with_reducible refine does_ends ?_ ?_
    | with_reducible refine does_sbCfgWrite ?_ ?_
    | with_reducible refine does_store ?_ ?_
    | with_reducible refine Does.ite ?_ ?_
    | split

theorem does_xeWrite {m : Nat} {s t : State} {x1 : Nat} {x2 : Nat} {x3 : Nat} {x4 : Word} (hm : 23059274792225804362 ||| m = m) (h : Does m s t) :
    Does m s (State.xeWrite t x1 x2 x3 x4) := by
  refine h.after (c := 23059274792225804362) ?_ hm
  unfold State.xeWrite
  repeat' first
    | exact (Eq.refl _ : (_ : Nat) = _)
    | with_reducible exact Does.refl _ _
    | with_reducible refine does_ends ?_ ?_
    | with_reducible refine does_store ?_ ?_
    | with_reducible refine does_xeArmWrite ?_ ?_
    | with_reducible refine does_xqCfgWrite ?_ ?_
    | with_reducible refine Does.ite ?_ ?_
    | split

end Sys2Proof.Machine
end

