-- ==== Sys2Proof/Laws/FrameView.lean ====
section
/-! SUPPORT. What the operations of View change: the mask of the kinds of state each may touch. -/

namespace Sys2Proof.Machine

theorem does_hardenNote {m : Nat} {s t : State} {x1 : Nat} {x2 : Bool} (hm : 2 ||| m = m) (h : Does m s t) :
    Does m s (State.hardenNote t x1 x2) := by
  refine h.after (c := 2) ?_ hm
  unfold State.hardenNote
  dsimp only
  repeat' first
    | exact (Eq.refl _ : (_ : Nat) = _)
    | with_reducible exact Does.refl _ _
    | with_reducible refine does_setReg ?_ ?_

theorem does_hardenVote {m : Nat} {s t : State} {x1 : Nat} (hm : 18447307023666118722 ||| m = m) (h : Does m s t) :
    Does m s (State.hardenVote t x1) := by
  refine h.after (c := 18447307023666118722) ?_ hm
  unfold State.hardenVote
  dsimp only
  repeat' first
    | exact (Eq.refl _ : (_ : Nat) = _)
    | with_reducible exact Does.refl _ _
    | with_reducible refine does_bump ?_ ?_
    | with_reducible refine does_fwFault ?_ ?_
    | with_reducible refine does_hardenNote ?_ ?_
    | with_reducible refine does_logErr ?_ ?_
    | with_reducible refine does_setReg ?_ ?_
    | with_reducible refine Does.ite ?_ ?_

theorem does_upset {m : Nat} {s t : State} {x1 : Nat} {x2 : Nat} {x3 : Word} (hm : 2 ||| m = m) (h : Does m s t) :
    Does m s (State.upset t x1 x2 x3) := by
  refine h.after (c := 2) ?_ hm
  unfold State.upset
  dsimp only
  repeat' first
    | exact (Eq.refl _ : (_ : Nat) = _)
    | with_reducible exact Does.refl _ _
    | split
    | with_reducible refine does_set_regs ?_ ?_

theorem does_hardenScrub {m : Nat} {s t : State} {x1 : List (Nat × Nat × Word)} (hm : 18447307023666118995 ||| m = m) (h : Does m s t) :
    Does m s (State.hardenScrub t x1) := by
  refine h.after (c := 18447307023666118995) ?_ hm
  unfold State.hardenScrub
  dsimp only
  repeat' first
    | exact (Eq.refl _ : (_ : Nat) = _)
    | with_reducible exact Does.refl _ _
    | with_reducible refine does_hardenVote ?_ ?_
    | with_reducible refine does_periodic ?_ ?_
    | with_reducible refine does_upset ?_ ?_
    | with_reducible assumption
    | with_reducible refine Does.foldl (fun _ _ _ => ?_) ?_

end Sys2Proof.Machine
end

