-- ==== Sys2Proof/Laws/FrameRegMap.lean ====
section
/-! SUPPORT. What the operations of RegMap change: the mask of the kinds of state each may touch. -/

namespace Sys2Proof.Machine

theorem does_pageWrite {m : Nat} {s t : State} {x1 : Nat} {x2 : Nat} {x3 : Word} (hm : 36893488147419103231 ||| m = m) (h : Does m s t) :
    Does m s (State.pageWrite t x1 x2 x3) := by
  refine h.after (c := 36893488147419103231) ?_ hm
  unfold State.pageWrite
  dsimp only
  repeat' first
    | exact (Eq.refl _ : (_ : Nat) = _)
    | with_reducible exact Does.refl _ _
    | with_reducible refine does_arrCtrlWrite ?_ ?_
    | with_reducible refine does_attWrite ?_ ?_
    | with_reducible refine does_bulkWrite ?_ ?_
    | with_reducible refine does_cadWrite ?_ ?_
    | with_reducible refine does_commonWrite ?_ ?_
    | with_reducible refine does_dlkCtrlWrite ?_ ?_
    | with_reducible refine does_dmPageWrite ?_ ?_
    | with_reducible refine does_dqWrite ?_ ?_
    | with_reducible refine does_ends ?_ ?_
    | with_reducible refine does_fabWrite ?_ ?_
    | with_reducible refine does_igWrite ?_ ?_
    | with_reducible refine does_lnkCtrlWrite ?_ ?_
    | with_reducible refine does_mbPageWrite ?_ ?_
    | with_reducible refine does_ptWrite ?_ ?_
    | with_reducible refine does_pwrWrite ?_ ?_
    | with_reducible refine does_qntWrite ?_ ?_
    | with_reducible refine does_rowWrite ?_ ?_
    | with_reducible refine does_secWrite ?_ ?_
    | with_reducible refine does_seqWrite ?_ ?_
    | with_reducible refine does_slotWrite ?_ ?_
    | with_reducible refine does_stkCommonWrite ?_ ?_
    | with_reducible refine does_store ?_ ?_
    | with_reducible refine does_svWrite ?_ ?_
    | with_reducible refine does_vecWrite ?_ ?_
    | with_reducible refine does_wsWrite ?_ ?_
    | with_reducible refine does_xeWrite ?_ ?_
    | with_reducible refine Does.ite ?_ ?_
    | split

theorem does_regWrite {m : Nat} {s t : State} {x1 : Nat} {x2 : Nat} {x3 : Word} (hm : 36893488147419103231 ||| m = m) (h : Does m s t) :
    Does m s (State.regWrite t x1 x2 x3) := by
  refine h.after (c := 36893488147419103231) ?_ hm
  unfold State.regWrite
  repeat' first
    | exact (Eq.refl _ : (_ : Nat) = _)
    | with_reducible exact Does.refl _ _
    | with_reducible refine does_afterLoss ?_ ?_
    | with_reducible refine does_ends ?_ ?_
    | with_reducible refine does_pageWrite ?_ ?_
    | with_reducible refine Does.ite ?_ ?_
    | split

theorem does_nodeMem {m : Nat} {s t : State} {x1 : Nat} {x2 : Trans} (hm : 18618725559776940106 ||| m = m) (h : Does m s t) :
    Does m s (State.nodeMem t x1 x2).1 := by
  refine h.after (c := 18618725559776940106) ?_ hm
  unfold State.nodeMem
  dsimp only
  repeat' first
    | exact (Eq.refl _ : (_ : Nat) = _)
    | with_reducible exact Does.refl _ _
    | with_reducible refine does_afterLoss ?_ ?_
    | with_reducible refine does_memRead ?_ ?_
    | with_reducible refine does_memWrite ?_ ?_
    | with_reducible refine does_planWrite ?_ ?_
    | with_reducible refine Does.ite_fst ?_ ?_
    | split

theorem does_regRead {m : Nat} {s t : State} {x1 : Nat} {x2 : Nat} (hm : 32282365078948282434 ||| m = m) (h : Does m s t) :
    Does m s (State.regRead t x1 x2) := by
  refine h.after (c := 32282365078948282434) ?_ hm
  unfold State.regRead
  dsimp only
  repeat' first
    | exact (Eq.refl _ : (_ : Nat) = _)
    | with_reducible exact Does.refl _ _
    | with_reducible refine does_hardenVote ?_ ?_
    | with_reducible refine Does.ite ?_ ?_
    | split
    | with_reducible refine does_set_done_rdata ?_ ?_

theorem does_nodeRegRead {m : Nat} {s t : State} {x1 : Nat} {x2 : Trans} (hm : 32453783615059103818 ||| m = m) (h : Does m s t) :
    Does m s (State.nodeRegRead t x1 x2).1 := by
  refine h.after (c := 32453783615059103818) ?_ hm
  unfold State.nodeRegRead
  dsimp only
  repeat' first
    | exact (Eq.refl _ : (_ : Nat) = _)
    | with_reducible exact Does.refl _ _
    | with_reducible refine does_afterLoss ?_ ?_
    | with_reducible refine does_regRead ?_ ?_
    | with_reducible refine Does.ite_fst ?_ ?_
    | split

theorem does_nodeRegWrite {m : Nat} {s t : State} {x1 : Nat} {x2 : Trans} (hm : 36893488147419103231 ||| m = m) (h : Does m s t) :
    Does m s (State.nodeRegWrite t x1 x2).1 := by
  refine h.after (c := 36893488147419103231) ?_ hm
  unfold State.nodeRegWrite
  dsimp only
  repeat' first
    | exact (Eq.refl _ : (_ : Nat) = _)
    | with_reducible exact Does.refl _ _
    | with_reducible refine does_regWrite ?_ ?_
    | with_reducible refine Does.ite_fst ?_ ?_
    | split

theorem does_nodeApply {m : Nat} {s t : State} {x1 : Nat} {x2 : Trans} (hm : 36893488147419103231 ||| m = m) (h : Does m s t) :
    Does m s (State.nodeApply t x1 x2).1 := by
  refine h.after (c := 36893488147419103231) ?_ hm
  unfold State.nodeApply
  repeat' first
    | exact (Eq.refl _ : (_ : Nat) = _)
    | with_reducible exact Does.refl _ _
    | with_reducible refine does_nodeMem ?_ ?_
    | with_reducible refine does_nodeRegRead ?_ ?_
    | with_reducible refine does_nodeRegWrite ?_ ?_
    | with_reducible refine Does.of_fst (by assumption) ?_
    | split

theorem does_nodeRequest {m : Nat} {s t : State} {x1 : Nat} {x2 : Nat} {x3 : List Byte} (hm : 36893488147419103231 ||| m = m) (h : Does m s t) :
    Does m s (State.nodeRequest t x1 x2 x3) := by
  refine h.after (c := 36893488147419103231) ?_ hm
  unfold State.nodeRequest
  repeat' first
    | exact (Eq.refl _ : (_ : Nat) = _)
    | with_reducible exact Does.refl _ _
    | with_reducible refine does_nodeApply ?_ ?_
    | with_reducible refine does_portRequest ?_ (fun _ _ _ _ => ?_) ?_
    | with_reducible assumption

theorem does_relayApply {m : Nat} {s t : State} {x1 : Msg} (hm : 36893488147419103231 ||| m = m) (h : Does m s t) :
    Does m s (State.relayApply t x1) := by
  refine h.after (c := 36893488147419103231) ?_ hm
  unfold State.relayApply
  dsimp only
  repeat' first
    | exact (Eq.refl _ : (_ : Nat) = _)
    | with_reducible exact Does.refl _ _
    | with_reducible refine does_nodeApply ?_ ?_
    | with_reducible refine does_nodeRead ?_ ?_
    | with_reducible refine does_nodeWrite ?_ ?_
    | with_reducible refine does_noteAnswer ?_ ?_
    | with_reducible refine does_respond ?_ ?_
    | with_reducible refine Does.of_fst (by assumption) ?_
    | with_reducible refine Does.ite ?_ ?_
    | split

theorem does_relayNextIn {m : Nat} {s t : State} {x1 : Nat} {x2 : Nat} (hm : 36893488147419103231 ||| m = m) (h : Does m s t) :
    Does m s (State.relayNextIn t x1 x2) := by
  refine h.after (c := 36893488147419103231) ?_ hm
  clear h
  induction x2 generalizing t x1 with
  | zero =>
    unfold State.relayNextIn
    repeat' first
      | exact (Eq.refl _ : (_ : Nat) = _)
      | with_reducible exact Does.refl _ _
      | with_reducible refine does_modFabric ?_ ?_
      | with_reducible refine does_relayApply ?_ ?_
      | split
  | succ n ih =>
    unfold State.relayNextIn
    try dsimp only
    repeat' first
      | with_reducible refine Does.after (c := 36893488147419103231) ?_ ih ?_
      | exact (Eq.refl _ : (_ : Nat) = _)
      | with_reducible exact Does.refl _ _
      | with_reducible refine does_modFabric ?_ ?_
      | with_reducible refine does_relayApply ?_ ?_
      | split

theorem does_relayReceive {m : Nat} {s t : State} {x1 : Nat} {x2 : List Byte} (hm : 36893488147419103231 ||| m = m) (h : Does m s t) :
    Does m s (State.relayReceive t x1 x2) := by
  refine h.after (c := 36893488147419103231) ?_ hm
  unfold State.relayReceive
  dsimp only
  repeat' first
    | exact (Eq.refl _ : (_ : Nat) = _)
    | with_reducible exact Does.refl _ _
    | with_reducible refine does_modFabric ?_ ?_
    | with_reducible refine does_relayApply ?_ ?_
    | with_reducible refine does_relayNextIn ?_ ?_
    | with_reducible refine does_respond ?_ ?_
    | with_reducible refine Does.ite ?_ ?_
    | split

end Sys2Proof.Machine
end

