-- ==== Sys2Proof/Laws/FrameOperands.lean ====
section
/-! SUPPORT. What the operations of Operands change: the mask of the kinds of state each may touch. -/

namespace Sys2Proof.Machine

theorem does_mailboxGo {m : Nat} {s t : State} {x1 : Nat} {x2 : MbOp} (hm : 36893488147419103231 ||| m = m) (h : Does m s t) :
    Does m s (State.mailboxGo t x1 x2) := by
  refine h.after (c := 36893488147419103231) ?_ hm
  unfold State.mailboxGo
  repeat' first
    | exact (Eq.refl _ : (_ : Nat) = _)
    | with_reducible exact Does.refl _ _
    | with_reducible refine does_regWrite ?_ ?_
    | with_reducible refine Does.ite ?_ ?_
    | split

end Sys2Proof.Machine
end

