-- ==== Sys2Proof/Laws/FrameSmbus.lean ====
section
/-! SUPPORT. What the operations of Smbus change: the mask of the kinds of state each may touch. -/

namespace Sys2Proof.Machine

theorem does_smbNack {m : Nat} {s t : State}  (hm : 4194304 ||| m = m) (h : Does m s t) :
    Does m s (State.smbNack t) := by
  refine h.after (c := 4194304) ?_ hm
  unfold State.smbNack
  repeat' first
    | exact (Eq.refl _ : (_ : Nat) = _)
    | with_reducible exact Does.refl _ _
    | with_reducible refine does_emit ?_ ?_

theorem does_flashAddrWrite {m : Nat} {s t : State} {x1 : Bool} {x2 : Nat} (hm : 4194368 ||| m = m) (h : Does m s t) :
    Does m s (State.flashAddrWrite t x1 x2) := by
  refine h.after (c := 4194368) ?_ hm
  unfold State.flashAddrWrite
  repeat' first
    | exact (Eq.refl _ : (_ : Nat) = _)
    | with_reducible exact Does.refl _ _
    | with_reducible refine does_emit ?_ ?_
    | with_reducible refine does_modBoot ?_ ?_
    | with_reducible refine does_smbNack ?_ ?_
    | with_reducible refine Does.ite ?_ ?_

theorem does_flashDone {m : Nat} {s t : State} {x1 : Bool} (hm : 72 ||| m = m) (h : Does m s t) :
    Does m s (State.flashDone t x1) := by
  refine h.after (c := 72) ?_ hm
  unfold State.flashDone
  dsimp only
  repeat' first
    | exact (Eq.refl _ : (_ : Nat) = _)
    | with_reducible exact Does.refl _ _
    | with_reducible refine does_clrMem ?_ ?_
    | with_reducible refine does_modBoot ?_ ?_
    | with_reducible refine does_wrMem ?_ ?_
    | with_reducible refine Does.ite ?_ ?_
    | split

theorem does_flashErase {m : Nat} {s t : State} {x1 : Bool} {x2 : Byte} (hm : 4194368 ||| m = m) (h : Does m s t) :
    Does m s (State.flashErase t x1 x2) := by
  refine h.after (c := 4194368) ?_ hm
  unfold State.flashErase
  dsimp only
  repeat' first
    | exact (Eq.refl _ : (_ : Nat) = _)
    | with_reducible exact Does.refl _ _
    | with_reducible refine does_emit ?_ ?_
    | with_reducible refine does_modBoot ?_ ?_
    | with_reducible refine does_smbNack ?_ ?_
    | with_reducible refine Does.ite ?_ ?_

theorem does_flashRead {m : Nat} {s t : State} {x1 : Bool} (hm : 4194368 ||| m = m) (h : Does m s t) :
    Does m s (State.flashRead t x1) := by
  refine h.after (c := 4194368) ?_ hm
  unfold State.flashRead
  dsimp only
  repeat' first
    | exact (Eq.refl _ : (_ : Nat) = _)
    | with_reducible exact Does.refl _ _
    | with_reducible refine does_emit ?_ ?_
    | with_reducible refine does_modBoot ?_ ?_
    | with_reducible refine does_smbNack ?_ ?_
    | with_reducible refine Does.ite ?_ ?_

theorem does_flashStat {m : Nat} {s t : State} {x1 : Bool} (hm : 4194304 ||| m = m) (h : Does m s t) :
    Does m s (State.flashStat t x1) := by
  refine h.after (c := 4194304) ?_ hm
  unfold State.flashStat
  repeat' first
    | exact (Eq.refl _ : (_ : Nat) = _)
    | with_reducible exact Does.refl _ _
    | with_reducible refine does_emit ?_ ?_
    | with_reducible refine does_smbNack ?_ ?_
    | with_reducible refine Does.ite ?_ ?_

theorem does_flashWrite {m : Nat} {s t : State} {x1 : Bool} {x2 : List Byte} (hm : 4194368 ||| m = m) (h : Does m s t) :
    Does m s (State.flashWrite t x1 x2) := by
  refine h.after (c := 4194368) ?_ hm
  unfold State.flashWrite
  dsimp only
  repeat' first
    | exact (Eq.refl _ : (_ : Nat) = _)
    | with_reducible exact Does.refl _ _
    | with_reducible refine does_emit ?_ ?_
    | with_reducible refine does_modBoot ?_ ?_
    | with_reducible refine does_smbNack ?_ ?_
    | with_reducible refine Does.ite ?_ ?_

theorem does_smbAnswer {m : Nat} {s t : State} {x1 : Bool} {x2 : List Byte} (hm : 4194304 ||| m = m) (h : Does m s t) :
    Does m s (State.smbAnswer t x1 x2) := by
  refine h.after (c := 4194304) ?_ hm
  unfold State.smbAnswer
  repeat' first
    | exact (Eq.refl _ : (_ : Nat) = _)
    | with_reducible exact Does.refl _ _
    | with_reducible refine does_emit ?_ ?_
    | with_reducible refine Does.ite ?_ ?_

theorem does_inputP {m : Nat} {s t : State} {x1 : Bool} (hm : 4194304 ||| m = m) (h : Does m s t) :
    Does m s (State.inputP t x1) := by
  refine h.after (c := 4194304) ?_ hm
  unfold State.inputP
  repeat' first
    | exact (Eq.refl _ : (_ : Nat) = _)
    | with_reducible exact Does.refl _ _
    | with_reducible refine does_smbAnswer ?_ ?_

theorem does_inputV {m : Nat} {s t : State} {x1 : Bool} (hm : 4194304 ||| m = m) (h : Does m s t) :
    Does m s (State.inputV t x1) := by
  refine h.after (c := 4194304) ?_ hm
  unfold State.inputV
  repeat' first
    | exact (Eq.refl _ : (_ : Nat) = _)
    | with_reducible exact Does.refl _ _
    | with_reducible refine does_smbAnswer ?_ ?_

theorem does_modSerial {m : Nat} {s t : State} {x1 : Bool} (hm : 4194304 ||| m = m) (h : Does m s t) :
    Does m s (State.modSerial t x1) := by
  refine h.after (c := 4194304) ?_ hm
  unfold State.modSerial
  repeat' first
    | exact (Eq.refl _ : (_ : Nat) = _)
    | with_reducible exact Does.refl _ _
    | with_reducible refine does_smbAnswer ?_ ?_

theorem does_modState {m : Nat} {s t : State} {x1 : Bool} (hm : 4194304 ||| m = m) (h : Does m s t) :
    Does m s (State.modState t x1) := by
  refine h.after (c := 4194304) ?_ hm
  unfold State.modState
  repeat' first
    | exact (Eq.refl _ : (_ : Nat) = _)
    | with_reducible exact Does.refl _ _
    | with_reducible refine does_smbAnswer ?_ ?_

theorem does_smbSlot {m : Nat} {s t : State} {x1 : Bool} (hm : 4194304 ||| m = m) (h : Does m s t) :
    Does m s (State.smbSlot t x1) := by
  refine h.after (c := 4194304) ?_ hm
  unfold State.smbSlot
  repeat' first
    | exact (Eq.refl _ : (_ : Nat) = _)
    | with_reducible exact Does.refl _ _
    | with_reducible refine does_smbAnswer ?_ ?_

theorem does_tempCool {m : Nat} {s t : State} {x1 : Bool} {x2 : Option Int} (hm : 4194432 ||| m = m) (h : Does m s t) :
    Does m s (State.tempCool t x1 x2) := by
  refine h.after (c := 4194432) ?_ hm
  unfold State.tempCool
  dsimp only
  repeat' first
    | exact (Eq.refl _ : (_ : Nat) = _)
    | with_reducible exact Does.refl _ _
    | with_reducible refine does_modPower ?_ ?_
    | with_reducible refine does_smbAnswer ?_ ?_
    | split

theorem does_tempDie {m : Nat} {s t : State} {x1 : Bool} (hm : 4194304 ||| m = m) (h : Does m s t) :
    Does m s (State.tempDie t x1) := by
  refine h.after (c := 4194304) ?_ hm
  unfold State.tempDie
  repeat' first
    | exact (Eq.refl _ : (_ : Nat) = _)
    | with_reducible exact Does.refl _ _
    | with_reducible refine does_smbAnswer ?_ ?_

end Sys2Proof.Machine
end

