-- ==== Sys2Proof/Tests/Slice0.lean ====
section
/-! SUPPORT. Tests: what the checks of well-formed operands refuse, small steps checked against the spec, and for each statement a state and
operands that meet its hypotheses. -/

set_option Elab.async false

namespace Sys2Proof.Machine

/-- A module in READY with every unit fitted and every domain attached. -/
def readyModule : State :=
  { State.reset with
    boot := { State.reset.boot with phase := .ready }
    ident := { State.reset.ident with tolvys := 0xFFF, links := 96, bulk := true }
    regs := ((State.reset.regs.put (Pg.dm 1 + 0x100) ⟨1, 1, 1⟩).put (Pg.dm 2 + 0x100) ⟨1, 1, 1⟩).put (Pg.dm 3 + 0x100) ⟨1, 1, 1⟩ }

/-- A state with registers set. -/
def State.withRegs (s : State) (l : List (Nat × Word)) : State := { s with regs := l.foldl (fun t e => t.put e.1 ⟨e.2, e.2, e.2⟩) s.regs }

/-- Partition 0 of D0 is ACTIVE: slices 0 and 1, counters 0 to 63, schedule entries 0 to 15, slot 0 enabled in group 1, and region 0, its own,
over the first 16 migration units. Time is LOCKED, the stacks are READY. -/
def servingModule : State :=
  { readyModule.withRegs [(Pg.pt 0 + 0x110, 3), (Pg.slot 0, 0x0101), (Pg.slot 0 + 0x030, 0x400000), (Pg.slot 0 + 0x028, 0x100000)
                        , (keyAt (Pg.sec + 0x808) 0, 0x1000000000), (keyAt (Pg.sec + 0x810) 0, 1)] with
    parts := readyModule.parts.put 0 { mode := .active }
    slots := readyModule.slots.put 0 { mode := .running, busy := true, step := 1, cur := some ⟨1, 1, false, false, false, 0, 8000000, 0⟩
                                       lastMark := some ⟨1, 1, false, false, false, 0, 8000000, 0⟩, prevStep := some 1 }
    time := { running := true, mode := .locked, ct := 1000 }
    wfOn := true
    windows := readyModule.windows.put 0 { en := true, hash := true, z := 40960 * 12 }
    tolvys := (List.range 12).foldl (fun t i => t.put i { mode := .ready }) readyModule.tolvys }

/-- Bytes with the CRC-64 over them. -/
def sealed (b : List Byte) : List Byte := b ++ toLe 8 (crc64 b).toNat

/-- Slice 0 runs a program of one instruction, which stands at PC. -/
def seqModule (i : SInstr) : State :=
  { servingModule with seqs := servingModule.seqs.put 0 { mode := .running, pm := (({} : Tab Nat).put 0 i.encode) } }

/-- Slice 0 runs one instruction, over working store that holds these bytes. -/
def opModule (i : SInstr) (l : List (Nat × List Byte)) : State := l.foldl (fun s x => s.wrMem .ws x.1 x.2) (seqModule i)

/-- Region 15 of slice 0 holds `n` filled tiles. -/
def mmaModule (i : SInstr) (n : Nat) : State :=
  { seqModule i with regions := servingModule.regions.put 15 { en := true, tiles := 4, filled := n } }

/-- The bulk tier is READY, and a swap stands at its last piece. -/
def bulkModule : State := servingModule.modBulk fun b => { b with mode := .ready, swaps := [{ hot := 1, cold := 2, cursor := 31 }] }

/-- The parameters of a request of one prompt token, with its sampler block at 8192. -/
def someParams : List Byte :=
  zeros 4 ++ toLe 4 2 ++ toLe 4 1 ++ zeros 4 ++ zeros 8 ++ toLe 8 4096 ++ toLe 4 1 ++ zeros 20 ++ toLe 4 0xFFFF ++ zeros 4 ++ toLe 8 8192 ++ zeros 8
/-- Partition 0 has one request entry and a model. -/
def requestModule : State :=
  (servingModule.withRegs [(Pg.sv + 0x800, 0x4000000000), (keyAt (Pg.sv + 0x120) 0, 0x10)]).devPut 8192
    (zeros 16 ++ toLe 4 0x3F800000 ++ zeros 4 ++ toLe 4 0x3F800000 ++ zeros 36)

/-- Rank group 0 of the module alone, of partition 0; the fabric has four modules. -/
def collModule (f : CollQ → CollQ) : State :=
  ((servingModule.withRegs [(Pg.fab + 0x100, 0x4C)]).modGroup 0 fun _ => { en := true, part := 0, members := [0] }).modCollQ 0 f

/-- Four bytes of a number read back as the number. -/
theorem leNat_toLe_four {n : Nat} (h : n < 2 ^ 32) : leNat (toLe 4 n) = n := by
  simp only [toLe, leNat, BitVec.toNat_ofNat]; omega
/-- Bytes with their CRC-32C after them. -/
theorem crc_after (b : List Byte) (n : Nat) (h : b.length = n) :
    (b ++ toLe 4 (crc32c b).toNat).take n = b ∧ field (b ++ toLe 4 (crc32c b).toNat) n 4 = (crc32c b).toNat := by
  subst h
  refine ⟨by simp, ?_⟩
  have : (toLe 4 (crc32c b).toNat).take 4 = toLe 4 (crc32c b).toNat := by simp [toLe]
  simp only [field, List.drop_left, this]
  exact leNat_toLe_four (crc32c b).isLt
/-- A field of the bytes before the CRC. -/
theorem field_before (b c : List Byte) {o n : Nat} (h : o + n ≤ b.length) : field (b ++ c) o n = field b o n := by
  simp only [field]
  rw [List.drop_append_of_le_length (by omega), List.take_append_of_le_length (by simp; omega)]

/-! ### Operands no sender can form -/

theorem test_wf_frame : (Instr.markReceive 0 (List.replicate 31 0)).wf = false ∧ (Instr.markReceive 0 (List.replicate 32 0)).wf = true := by decide
theorem test_wf_body : (Instr.pingReceive (.port 0) (List.replicate 485 0)).wf = false ∧ (Instr.pingReceive (.port 0) []).wf = true := by
  decide +kernel
theorem test_wf_source : (Instr.beaconReceive (.link 3) []).wf = false := by decide
theorem test_wf_message : (Instr.remoteWrite 0 (List.replicate 15 0)).wf = false ∧ (Instr.remoteWrite 0 (List.replicate 16 0)).wf = true := by decide
theorem test_wf_message_long : (Instr.remoteWrite 0 (List.replicate 4145 0)).wf = false := by decide +kernel
theorem test_wf_flit : (Instr.flitReceive 0 (List.replicate 255 0) true 0).wf = false := by decide +kernel
theorem test_wf_port_frame : (Instr.portFrameReceive 0 (List.replicate 256 0) true 0).wf = false := by decide +kernel
theorem test_wf_request : (Instr.regRd 0 (List.replicate 15 0)).wf = false ∧ (Instr.regRd 0 (List.replicate 16 0)).wf = true := by decide
theorem test_wf_command : (Instr.submit 0 (List.replicate 127 0)).wf = false ∧ (Instr.submit 0 (List.replicate 128 0)).wf = true := by decide +kernel
theorem test_wf_page : (Instr.evtStatClear 0 0x100 0).wf = false ∧ (Instr.evtStatClear 0 0x18000 0).wf = false
    ∧ (Instr.evtStatClear 0 0x800000 0).wf = false ∧ (Instr.evtStatClear 0 0x7FF000 0).wf = true := by decide
theorem test_wf_flips : (Instr.stackReadDone 0 [(72, 1)]).wf = false ∧ (Instr.stackReadDone 0 [(71, 1)]).wf = true := by decide
theorem test_wf_flash : (Instr.flashDataWrite true []).wf = false := by decide
theorem test_wf_answers : (Instr.repairDone 0 [none, some [0]]).wf = false ∧ (Instr.repairDone 0 [none]).wf = true := by decide

/-! ### Witnesses of StepTakesFront -/

theorem test_step_front : ({ State.reset with pending := [.powerUp] }).pending = .powerUp :: [] := rfl

/-! ### Witnesses of IdleStepTicks -/

theorem test_idle_waits : State.reset.pending = [] := rfl
theorem test_idle_slews : ({ State.reset with clk := 255, time := { running := true, slew := 3 } }).time.slew = 3
    ∧ (255 + 1) % 256 = 0 := by decide

/-! ### Witnesses of CommandsComplete -/

theorem test_complete_formed : Instr.powerUp.wf = true ∧ (Instr.flashDataWrite true []).wf = false := by decide

/-! ### Witnesses of StepsKeepMemoryCanonical -/

theorem test_canonical_reset : State.reset.canonical = true := by decide

/-! ### Witnesses of StepsOnlyGrow -/

theorem test_grows_step : ∃ t, step State.reset = .next t := ⟨_, rfl⟩

/-! ### Witnesses of MemoryReadAfterWrite -/

theorem test_memory_top : State.reset.canonical = true ∧ (2 ^ 60 - 2) + ([1, 2] : List Byte).length ≤ 2 ^ 60 := by decide

/-! ### Witnesses of SequencerWordsRoundTrip -/

theorem test_encoding_wf : ({ op := .signal, args := [0x7FFF, 0xFFFF] : SInstr }).wf = true
    ∧ ({ op := .mma, queue := 3, sigEn := 1, sigCtr := 0x7FFF, ix := 7, ixEn := 1
         args := [0xFFFFFFFF, 511, 0xFFFFF, 31, 3, 1, 1, 15, 8191, 63] : SInstr }).wf = true := by decide

/-! ### Witnesses of RegisterWriteEffects -/

theorem test_regs_refused : State.reset.accessOk 0 (Pg.ws 3 + 0x100) true = false := by decide +kernel
theorem test_regs_absent : ({ readyModule with ident := State.reset.ident }).accessOk 0 (Pg.stk 11 + 0x108) true = true
    ∧ ({ readyModule with ident := State.reset.ident }).pageFitted (pageOf (Pg.stk 11 + 0x108)) = false := by decide +kernel
theorem test_regs_view : readyModule.accessOk 1 (Pg.dm 2 + 0x110) true = true ∧ readyModule.pageFitted (pageOf (Pg.dm 2 + 0x110)) = true
    ∧ readyModule.reaches 1 (Pg.dm 2 + 0x110) = false := by decide +kernel
theorem test_regs_steward : readyModule.accessOk 1 (Pg.dm 1 + 0x110) true = true ∧ readyModule.pageFitted (pageOf (Pg.dm 1 + 0x110)) = true
    ∧ stewardOnly (Pg.dm 1 + 0x110) = true := by decide +kernel
theorem test_regs_plain : ∀ a ∈ [Pg.ws 15 + 0x100, Pg.vec 0 + 0x128, Pg.qnt 0 + 0x108, Pg.qnt 0 + 0x148, Pg.qnt 15 + 0x178, Pg.xe 39 + 0x108,
    Pg.stkCommon + 0x100, Pg.bulk + 0x158, Pg.sv + 0x118, Pg.fab + 0x200, Pg.ig + 0x180, Pg.ig + 0x800, Pg.sec + 0x800, Pg.dm 3 + 0x110,
    Pg.sec + 0x808], readyModule.passes 0 a = true := by decide +kernel

/-! ### Witnesses of EventClearsAndScrub -/

theorem test_evt_clear : wfPage 0x7FF000 = true ∧ wfPage 0x18000 = false
    ∧ readyModule.passes 0 (Pg.pwr + Off.evtStat) = true ∧ readyModule.passes 3 (Pg.dm 3 + Off.evtCntClr) = true := by decide +kernel
theorem test_scrub_agree : ∀ k, (State.reset.hreg k).a = (State.reset.hreg k).b ∧ (State.reset.hreg k).b = (State.reset.hreg k).c :=
  fun _ => ⟨rfl, rfl⟩
theorem test_scrub_hardened : hardened (Pg.pwr + 0x110) = true ∧ hardened (Pg.pwr + 0x118) = false ∧ Pg.pwr + 0x110 < 0x800000 := by decide +kernel

/-! ### Witnesses of BlockControlIgnored -/

theorem test_blkctrl_reaches : wfPage Pg.pwr = true ∧ wfPage (Pg.lnk 95) = true
    ∧ readyModule.passes 0 (Pg.pwr + Off.blkCtrl) = true ∧ readyModule.passes 0 (Pg.lnk 95 + Off.blkCtrl) = true := by decide +kernel

/-! ### Witnesses of TimeStateEffects -/

theorem test_time_witness :
    (readyModule.modTime fun t => { t with mode := .locked, missed := 7 }).time.mode ≠ .free
    ∧ (readyModule.modTime fun t => { t with mode := .locked, missed := 7 }).beaconTimeout = 8
    ∧ (readyModule.modTime fun t => { t with mode := .holdover }).time.mode = .holdover
    ∧ readyModule.time.mode = .free
    ∧ readyModule.passes 0 timeCtrl = true ∧ readyModule.role = 0 ∧ bits 1 0 2 ≠ 3 ∧ bits 3 0 2 = 3 := by decide +kernel
theorem test_time_upstream :
    let s := { readyModule.withRegs [(timeCtrl, 0x12), (Pg.fab + 0x100, 0x44A)] with links := (({} : Tab Link).put 0 { mode := .up }).put 90 { mode := .up } }
    s.role = 2 ∧ bit (s.reg timeCtrl) 4 = true ∧ ((s.towards 1).flatMap s.upLinks).min? = some 0 ∧ 0 ≠ s.time.upstream
      ∧ { s with time := { s.time with upstream := 0 } }.time.upstream = 0 := by decide +kernel

/-! ### Witnesses of BeaconEffect -/

theorem test_beacon_dropped : wfSource (.link 0) (List.replicate 32 0) = true ∧ beaconBody (.link 0) (List.replicate 32 1) = none := by
  decide +kernel
theorem test_beacon_first :
    let s := { readyModule.withRegs [(timeCtrl, 0x11), (Pg.port 0 + 0x100, 0x41)] with
               ports := readyModule.ports.put 0 { mode := .up, delay := 20 }, time := { running := true, mode := .acquire } }
    let f := toLe 8 5000 ++ [2, 0]
    wfSource (.port 0) f = true ∧ beaconBody (.port 0) f = some (5000, 2, 0) ∧ s.beaconSource (.port 0) = true ∧ s.time.mode ≠ .free
      ∧ s.beaconSource (.port 1) = false := by decide +kernel
theorem test_beacon_relayed :
    let s := { readyModule.withRegs [(timeCtrl, 0x202)] with
               links := readyModule.links.put 2 { mode := .up }, time := { running := true, mode := .locked, ct := 90000, upstream := 2 } }
    let f := sealed (toLe 8 5000 ++ [3, 1] ++ List.replicate 14 0)
    wfSource (.link 2) f = true ∧ beaconBody (.link 2) f = some (5000, 3, 1) ∧ s.beaconSource (.link 2) = true
      ∧ 4096 < (s.beaconOffset (.link 2) 5000).natAbs := by decide +kernel

/-! ### Witnesses of MarkEffects -/

theorem test_marks_enable :
    readyModule.passes 0 (Pg.slot 15) = true ∧ bit (readyModule.reg (Pg.slot 15)) 0 = false ∧ readyModule.time.mode ≠ .locked
    ∧ (let s := { readyModule with time := { running := true, mode := .locked } }
       s.passes 0 (Pg.slot 0) = true ∧ bit (s.reg (Pg.slot 0)) 0 = false ∧ s.time.mode = .locked ∧ (s.slot 0).busy = false
         ∧ (s.sv 0).batch = none ∧ bit 0x0101#64 2 = false) := by decide +kernel
theorem test_marks_disable : servingModule.passes 0 (Pg.slot 0) = true ∧ bit (servingModule.reg (Pg.slot 0)) 0 = true
    ∧ bits 0x0100#64 1 2 = bits (servingModule.reg (Pg.slot 0)) 1 2 ∧ bits 0x0100#64 8 8 = bits (servingModule.reg (Pg.slot 0)) 8 8
    ∧ (servingModule.slot 0).busy = true ∧ (servingModule.slot 0).mode ≠ .halted := by decide +kernel
theorem test_marks_receive :
    let s := { servingModule with links := servingModule.links.put 95 { mode := .up } }
    let f := sealed (toLe 6 2 ++ [1, 0] ++ toLe 8 500 ++ toLe 4 8000000 ++ [3, 0, 0, 0])
    let g := sealed (toLe 6 7 ++ [1, 0] ++ toLe 8 500 ++ toLe 4 8000000 ++ [3, 0, 0, 0])
    wfFrame f = true ∧ (s.link 0).mode ≠ .up ∧ (s.link 95).mode = .up ∧ frameSound f = true ∧ frameSound (List.replicate 32 1) = false
      ∧ s.frameSeen .mark 1 2 3 f = false ∧ s.slotEnabled 0 = true ∧ s.slotGroup 0 = (Mark.ofFrame f).group
      ∧ (Mark.ofFrame f).step = (1 + 1) % 2 ^ 48 ∧ (s.slot 0).prevStep = some 1 ∧ (Mark.ofFrame f).markCt < s.ct
      ∧ (Mark.ofFrame g).step ≠ (1 + 1) % 2 ^ 48 ∧ (s.slot 0).mode ≠ .halted := by decide +kernel
theorem test_marks_seen :
    let s := { servingModule with fabric := { servingModule.fabric with seen := [(CType.mark.code, 1, 2, 3, zeros 24)] } }
    s.frameSeen .mark 1 2 3 (zeros 32) = true := by decide +kernel
theorem test_marks_halt : (Mark.ofFrame (toLe 6 2 ++ [1, 4] ++ List.replicate 24 0)).halt = true := by decide +kernel
theorem test_marks_resend :
    let s := { servingModule with fabric := { servingModule.fabric with unacked := [⟨3, 1, 0, true, 1, 2, 3, List.replicate 24 0, 0, 7, []⟩] } }
    ∃ u, s.fabric.unacked = u :: [] ∧ u.resends < 8 := ⟨_, rfl, by decide⟩
theorem test_marks_effect :
    let s := servingModule.modSlot 0 fun sl => { sl with marks := [(⟨2, 1, false, false, false, 9000, 8000000, 0⟩, false)] }
    (s.slot 0).marks = [] ++ (⟨2, 1, false, false, false, 9000, 8000000, 0⟩, false) :: [] := by decide +kernel
theorem test_marks_timeout : (servingModule.slot 0).lastMark = some ⟨1, 1, false, false, false, 0, 8000000, 0⟩
    ∧ servingModule.slotEnabled 0 = true ∧ (servingModule.slot 0).markTimedOut = false := by decide +kernel
theorem test_marks_limit : (servingModule.slot 0).busy = true
    ∧ (servingModule.withRegs [(Pg.slot 0 + 0x020, 5)]).fld (Pg.slot 0 + 0x020) 0 32 ≠ 0 ∧ (servingModule.slot 0).stepLimited = false := by
  decide +kernel
theorem test_marks_done :
    let s := { servingModule.withRegs [(Pg.slot 0, 0x0103)] with links := servingModule.links.put 4 { mode := .up } }
    let f := sealed (toLe 6 1 ++ [1, 9] ++ List.replicate 16 0)
    wfFrame f = true ∧ (s.link 4).mode = .up ∧ frameSound f = true ∧ s.frameSeen .done (field f 6 1) (field f 0 6) (field f 7 1 % 64) f = false
      ∧ s.slotLeader 0 = true ∧ s.slotGroup 0 = field f 6 1 ∧ s.boot.slotId = 0 := by decide +kernel

/-! ### Witnesses of StepEffects -/

theorem test_steps_start :
    let s := servingModule.modSlot 0 fun sl => { sl with busy := false, mode := .idle
                                                         marks := [(⟨2, 1, false, false, false, 900, 8000000, 0⟩, true)] }
    (s.slot 0).marks = (⟨2, 1, false, false, false, 900, 8000000, 0⟩, true) :: [] ∧ (s.slot 0).busy = false ∧ (s.slot 0).mode ≠ .halted
      ∧ (s.slot 0).mode ≠ .disabled ∧ s.enginesRun = true
      ∧ (((s.passNops 0 (s.schedCount 0 + 1)).leftovers 0 (s.schedCount 0 + 1)).slot 0).held = none := by decide +kernel
theorem test_steps_done :
    let s := servingModule.setCtr 0 1
    (s.slot 0).busy = true ∧ (s.slot 0).cur.isSome = true ∧ s.absCtr 0 (s.fld (Pg.slot 0 + 0x018) 0 15) = some 0
      ∧ max 1 (s.fld (Pg.slot 0 + 0x018) 32 16) ≤ (s.settleWaits 0).ctr 0 ∧ s.slotLeader 0 = false := by decide +kernel
theorem test_steps_bounds :
    let s := readyModule.modPower fun p => { p with boundClk := p.boundClk.put 1 77 }
    s.power.boundClk.items.map (fun e => e.2) = 77 :: [] ∧ ∀ p < 16, s.slotEnabled p = false := by decide +kernel
theorem test_steps_window :
    let s := servingModule.modSlot 0 fun sl => { sl with idleOpen := true }
    (s.slot 0).idleOpen = true ∧ (s.slot 0).lastMark.isSome = true ∧ s.slicesOf 0 = [0, 1] := by decide +kernel
theorem test_steps_plan :
    let s := (servingModule.withRegs [(Pg.slot 0, 0x0103), (Pg.slot 0 + 0x040, 0x0040000000000020)]).modSlot 0 fun sl =>
      { sl with sentMark := sl.lastMark }
    (s.slot 0).sentMark.isSome = true ∧ s.planRuns 0 = true ∧ s.planAhead 0 = 0 ∧ (s.slot 0).planEmptyAt = none := by decide +kernel
theorem test_steps_mark :
    let s := servingModule.withRegs [(Pg.slot 0, 0x0103), (Pg.slot 0 + 0x040, 0x0040000000000040)]
    let s := (s.devWrite 56 (toLe 4 1)).1
    s.planRuns 0 = true ∧ s.planReadable 0 = true ∧ s.planAhead 0 = 1 ∧ (s.planRing 0).2 = 16 ∧ (s.devRead 64 32).2.2 = .ok ∧ (s.slot 0).planLast = none := by
  decide +kernel

/-! ### Witnesses of ScheduleEffects -/

/-- Partition 0 in step 1 with one schedule entry, enabled, of an action with an argument. -/
def schedModule (a : Nat) (arg : Word) : State :=
  { servingModule with schedLo := servingModule.schedLo.put 0 (word (2 ^ 63 + 2 ^ 16 * a)), schedHi := servingModule.schedHi.put 0 arg }
theorem test_sched_due : (List.range' 1 5).all (fun a =>
    let s := schedModule a 1
    match s.cursorEntry 0 with
    | some (i, e) => i == 0 && entAction e.1 == a && s.cursorAction 0 == some a && s.cursorRuns 0
    | none => false) = true := by decide +kernel
theorem test_sched_ok :
    (schedModule 1 3).entryOk 0 (0, 3) = true ∧ (schedModule 1 3).entryOk 0 (word (2 ^ 16), 4) = false
    ∧ (schedModule 3 1).entryOk 0 (word (3 * 2 ^ 16), 0x1003F) = true ∧ (schedModule 3 1).absCtr 0 63 = some 63
    ∧ bits 0x1003F#64 32 16 = 0 ∧ bits 0x10000003F#64 32 16 ≠ 0 := by decide +kernel
theorem test_sched_posts : (servingModule.postStarts [0, 1] 5 0).2 = [] ∧
    ({ servingModule with seqs := servingModule.seqs.put 1 { starts := List.replicate 8 (0, 0) } }.postStarts [0, 1] 5 0).2 = [1] := by
  decide +kernel
theorem test_sched_resume :
    ((servingModule.modSlot 0 fun sl => { sl with held := some ([1], 5, 0) }).slot 0).held = some ([1], 5, 0) := by decide +kernel
theorem test_sched_commit : servingModule.passes 0 (domReg 0 0x10) = true ∧ servingModule.entryPart 0 0 = some 0
    ∧ servingModule.entryPart 0 15 = some 0 ∧ servingModule.entryPart 0 16 = none ∧ servingModule.entryPart 1 0 = none
    ∧ servingModule.entryOk 0 (servingModule.stagedOf 0 (domReg 0 8), 0) = true := by decide +kernel
theorem test_sched_load :
    let s := servingModule.withRegs [(domReg 0 0x28, 0x1000)]
    let v := word (2 ^ 63 + 2 * 2 ^ 16 + 14)
    s.passes 0 (domReg 0 0x30) = true ∧ s.entryPart 0 (bits v 0 14) = some 0 ∧ aligned (s.fld (domReg 0 0x28) 0 64) 16 = true
      ∧ bits v 0 14 + bits v 16 15 ≤ s.schedBase 0 + s.schedCount 0 ∧ s.devCheck (.dom 0) 0x1000 32 false = .ok
      ∧ (s.devRead 0x1000 32).2.2 = .ok ∧ s.entryOk 0 (0, 0) = true := by decide +kernel
theorem test_sched_swap : servingModule.passes 0 (Pg.slot 0 + 0x028) = true ∧ bits 0x300100000#64 0 14 = servingModule.schedBase 0
    ∧ bits 0x300100000#64 16 15 = servingModule.schedCount 0 := by decide +kernel
theorem test_sched_counter : servingModule.passes 0 (domReg 0 0x20) = true ∧ servingModule.domCtr 0 = some 0
    ∧ servingModule.domCtr 1 = none := by decide +kernel

/-! ### Witnesses of SlotConfigLocked -/

theorem test_slotcfg_on : ({ readyModule with regs := readyModule.regs.put (Pg.slot 15) ⟨0xFF01, 0xFF01, 0xFF01⟩ }).passes 0 (Pg.slot 15) = true
    ∧ bit (({ readyModule with regs := readyModule.regs.put (Pg.slot 15) ⟨0xFF01, 0xFF01, 0xFF01⟩ }).reg (Pg.slot 15)) 0 = true
    ∧ bits 0xFF03#64 1 2 ≠ bits (({ readyModule with regs := readyModule.regs.put (Pg.slot 15) ⟨0xFF01, 0xFF01, 0xFF01⟩ }).reg (Pg.slot 15)) 1 2 := by
  decide +kernel
theorem test_slotcfg_off : readyModule.passes 0 (Pg.slot 0) = true ∧ bit (readyModule.reg (Pg.slot 0)) 0 = false
    ∧ bit 0x0306#64 0 = false := by decide +kernel

/-! ### Witnesses of PartitionEffects -/

/-- Partition 3 in a mode. -/
def partModule (m : PartMode) (f : Part → Part := id) : State :=
  { servingModule with parts := servingModule.parts.put 3 (f { mode := m }) }
theorem test_part_config : (partModule .free).passes 0 (Pg.pt 3 + 0x100) = true ∧ ((partModule .free).part 3).mode = .free
    ∧ ((partModule .active).part 3).mode ≠ .free := by decide +kernel
theorem test_part_refused : servingModule.passes 0 (Pg.pt 0 + 0x100) = true
    ∧ (servingModule.withRegs [(Pg.pt 0 + Off.owner, 1)]).passes 1 (Pg.pt 0 + 0x100) = true
    ∧ (partModule .active).ownsPart 1 3 = false := by decide +kernel
theorem test_part_checks : (partModule .config).activateCheck 3 = some 2
    ∧ ((partModule .config).withRegs [(Pg.pt 3 + 0x110, 0x8000)]).activateCheck 3 = some 6
    ∧ ((partModule .config).withRegs [(Pg.pt 3 + 0x110, 0x8000), (keyAt (Pg.sec + 0x808) 1, 0x100000010), (keyAt (Pg.sec + 0x810) 1, 0x31)]).activateCheck
        3 = none := by decide +kernel
theorem test_part_quiesce : (partModule .active).ownsPart 0 3 = true ∧ ((partModule .active).part 3).mode = .active := by decide +kernel
theorem test_part_resume : ((partModule .quiesced).part 3).mode = .quiesced ∧ (partModule .quiesced).igMode 3 = 0
    ∧ ((partModule .quiesced).part 3).slotOn = false ∧ ((partModule .config).part 3).mode = .config := by decide +kernel
theorem test_part_complete :
    let s := partModule .quiescing fun q => { q with stopped := true }
    (s.part 3).mode = .quiescing ∧ (s.part 3).stopped = true ∧ s.workDone 3 = true ∧ s.recordsOwed 3 = false
      ∧ ({ s with evq := s.evq.put 0 [{ part := some 3 }] }).recordsOwed 3 = true ∧ s.wedged (s.ownerOf 3) = false := by decide +kernel
theorem test_part_timeout :
    let s := { partModule .quiescing with slots := servingModule.slots.put 3 { busy := true, mode := .running } }
    (s.part 3).mode = .quiescing ∧ (s.part 3).stopped = false ∧ s.stepPending 3 = true ∧ (s.sv 3).commit = none := by decide +kernel
theorem test_part_releasing : ((partModule .releasing).part 3).mode = .releasing ∧ (partModule .releasing).xLingers 3 = false
    ∧ (partModule .releasing).rowSlotsOf 3 = [] := by decide +kernel
theorem test_part_slices :
    let s := (partModule .active).withRegs [(Pg.pt 3 + 0x110, 0x4000)]
    s.passes 0 (Pg.pt 3 + 0x110) = true ∧ (s.part 3).mode = .active ∧ s.igMode 3 = 0 ∧ s.writtenSlices 3 = 0x4000
      ∧ 0xC000 &&& 0x4000 = 0x4000 ∧ (0xC000 - (0xC000 &&& 0x4000)) &&& (s.heldSlices 3 ||| s.retired ||| s.twinMask 3) = 0
      ∧ 0x8000 &&& 0x4000 ≠ 0x4000 := by decide +kernel

/-! ### Witnesses of RegionAndDomainEffects -/

theorem test_region_commit :
    let s := (readyModule.withRegs [(Pg.sec + 0x800, 63)]).stage 0 (keyAt (Pg.sec + 0x808) 63) 0x200000010
    s.passes 0 (Pg.sec + 0x810) = true ∧ s.fld (Pg.sec + 0x800) 0 6 = 63 ∧ s.stagedOf 0 (keyAt (Pg.sec + 0x808) 63) = 0x200000010
      ∧ (∀ i < 64, i ≠ 63 → (s.memRegion i).mode = 0) ∧ 16 + 2 ≤ s.stackUnits - s.fwFrames ∧ (∀ p < 16, (s.part p).scrub = [])
      ∧ s.regionChange (s.memRegion 63) { base := 16, count := 2, mode := 1, part := 0, share := 0, poison := false } = true
      ∧ 16 + 2 ≤ s.units := by decide +kernel
theorem test_region_beyond : readyModule.stackUnits ≤ readyModule.units - 1 ∧ readyModule.units < readyModule.units - 1 + 2
    ∧ readyModule.regionChange { base := 0, count := 0, mode := 0, part := 0, share := 0, poison := false }
        { base := readyModule.units - 1, count := 2, mode := 2, part := 0, share := 0, poison := false } = true := by decide +kernel
theorem test_region_none :
    let s := servingModule.modPart 0 fun q => { q with mode := .quiesced }
    s.regionChange (s.memRegion 0) { (s.memRegion 0) with mode := 0 } = true ∧ (s.memRegion 0).mode = 1 ∧ (s.memRegion 0).count = 16
      ∧ servingModule.regionChange (servingModule.memRegion 0) { (servingModule.memRegion 0) with mode := 0 } = false := by decide +kernel
theorem test_domain_attach : readyModule.passes 0 (Pg.dm 3 + 0x100) = true ∧ readyModule.attached 3 = true
    ∧ (readyModule.withRegs [(Pg.dm 3 + 0x100, 0)]).passes 0 (Pg.dm 3 + 0x100) = true
    ∧ (readyModule.withRegs [(Pg.dm 3 + 0x100, 0)]).attached 3 = false := by decide +kernel
theorem test_domain_detach : (∀ p < 16, (readyModule.part p).mode = .free) ∧ readyModule.wedged 3 = false
    ∧ ({ servingModule with doms := servingModule.doms.put 3 { wedged := true } }).wedged 3 = true := by decide +kernel

/-! ### Witnesses of SequencerControl -/

theorem test_seq_control : ∀ i ∈ ([{ op := .nop }, { op := .fin }, { op := .jump, args := [16383] }, { op := .branch, args := [5, 2, 7, 9] }
    , { op := .loop, args := [0, 7] }, { op := .setix, args := [7, 2 ^ 64 - 1] }, { op := .addix, args := [0, 1] }
    , { op := .movs, args := [1, 15] }] : List SInstr), (seqModule i).issuable 0 .clean i := by unfold State.issuable; decide +kernel
theorem test_seq_fault :
    let s := seqModule { op := .nop }
    (s.seq 0).mode = .running ∧ s.enginesRun = true ∧ s.twinMay 0 = true ∧ (s.seq 0).fetch .double = .inl 5
      ∧ ((s.modSeq 0 fun q => { q with pm := q.pm.put 0 0x1F }).seq 0).fetch .clean = .inl 1 ∧ (s.seq 1).mode ≠ .running := by decide +kernel

/-! ### Witnesses of SequencerWaits -/

theorem test_wait_ops : ∀ i ∈ ([{ op := .wait, args := [63, 0, 0, 1] }, { op := .waitTake, args := [0, 0, 0, 2 ^ 32 - 1] }
    , { op := .wait, args := [0, 1, 8, 1] }, { op := .signal, args := [63, 65535] }, { op := .setctr, args := [0, 5] }
    , { op := .start, args := [1, 16383, 7] }, { op := .release, args := [15, 1] }, { op := .fence, args := [511] }] : List SInstr),
    (seqModule i).issuable 0 .clean i ∧ (seqModule i).pairedPrimary 0 = none ∧ (seqModule i).partOfSlice 0 = some 0 := by
  unfold State.issuable; decide +kernel
theorem test_wait_places :
    let s := seqModule { op := .nop }
    s.absCtr 0 63 = some 63 ∧ s.absCtr 0 64 = none ∧ (s.queue 0 8).length < queueDepth 8 ∧ s.ctr 0 = 0
      ∧ (s.peersOf 0 0)[1]? = some 1 ∧ s.startRoom 1 = true ∧ (s.startSlices 1).Nodup
      ∧ ({ s with seqs := s.seqs.put 1 { starts := List.replicate 8 (0, 0) } }).startRoom 1 = false
      ∧ ((s.modSeq 0 fun q => { q with halts := [(8, .access)] }).halted 0 8) = true := by decide +kernel
theorem test_wait_release :
    let s := { seqModule { op := .release, args := [15, 1] } with regions := servingModule.regions.put 15 { en := true, tiles := 4, filled := 1 } }
    (s.region 0 15).released + 1 ≤ (s.region 0 15).filled ∧ (s.region 1 15).filled < (s.region 1 15).released + 1 := by decide +kernel
theorem test_wait_resume :
    let s := (servingModule.modSeq 0 fun q => { q with mode := .waiting, wait := some (.counter 63 5 true) }).setCtr 63 5
    (s.seq 0).wait = some (.counter 63 5 true) ∧ s.pairedPrimary 0 = none ∧ 5 ≤ (s.passBefore 0 none).ctr 63 := by decide +kernel
theorem test_wait_scoped :
    let i : SInstr := { op := .waitTake, args := [63, 1, 8, 4] }
    let s := (servingModule.modSeq 0 fun q => { q with queues := q.queues.put 8 [{ op := i.encode, phase := .waiting }] }).setCtr 63 4
    s.queue 0 8 = [{ op := i.encode, phase := .waiting }] ∧ fieldsOf i.encode = some i ∧ s.pairedPrimary 0 = none
      ∧ s.partOfSlice 0 = some 0 ∧ s.absCtr 0 63 = some 63 ∧ s.halted 0 8 = false ∧ 4 ≤ (s.passBefore 0 (some 8)).ctr 63 := by decide +kernel
theorem test_wait_holds :
    let s := servingModule.modSeq 0 fun q => { q with mode := .waiting, wait := some (.startFull 1 5 6 0 false) }
    (s.seq 0).wait = some (.startFull 1 5 6 0 false) ∧ s.startRoom 1 = true ∧ (s.startSlices 1).Nodup := by decide +kernel
theorem test_wait_fence :
    let s := servingModule.modSeq 0 fun q => { q with mode := .waiting, wait := some (.fence 511) }
    (s.seq 0).wait = some (.fence 511) ∧ s.queuesEmpty 0 511 = true := by decide +kernel
theorem test_wait_queue :
    let i : SInstr := { op := .qhad, queue := 6, args := [0] }
    let s := (seqModule i).modSeq 0 fun q => { q with mode := .waiting, wait := some (.queueFull 6 0), halts := [(6, .access)]
                                                      queues := q.queues.put 6 (List.replicate 15 { op := i.encode }) }
    (s.seq 0).wait = some (.queueFull 6 0) ∧ (s.queue 0 6).length < queueDepth 6
      ∧ SInstr.decode ((s.seq 0).word (s.seq 0).pc) = some i ∧ s.halted 0 6 = true := by decide +kernel

/-! ### Witnesses of SequencerPrograms -/

theorem test_prog_start :
    let s := servingModule.modSeq 0 fun q => { q with starts := [(16383, 7)] }
    (s.seq 0).starts = (16383, 7) :: [] ∧ (s.seq 0).mode = .idle ∧ (s.seq 0).hold = false ∧ (s.seq 0).load = none ∧ s.enginesRun = true := by
  decide +kernel
theorem test_prog_writes : servingModule.passes 0 (Pg.seq 0 + 0x110) = true ∧ servingModule.partOfSlice 0 ≠ none
    ∧ servingModule.partOfSlice 15 = none ∧ servingModule.passes 0 (Pg.seq 15 + 0x110) = true ∧ servingModule.startRoom 0 = true
    ∧ servingModule.passes 0 (pmCtrl 0) = true ∧ (servingModule.seq 0).load = none
    ∧ bits (word (2 ^ 16 * 16384)) 0 14 + bits (word (2 ^ 16 * 16384)) 16 15 ≤ 16384
    ∧ 16384 < bits (word (1 + 2 ^ 16 * 16384)) 0 14 + bits (word (1 + 2 ^ 16 * 16384)) 16 15
    ∧ servingModule.passes 0 (Pg.seq 0 + 0x100) = true ∧ servingModule.passes 0 (Pg.ws 0 + 0x108) = true := by decide +kernel
theorem test_prog_load :
    let s := servingModule.modSeq 0 fun q => { q with mode := .loading, load := some { addr := 0x1000, first := 16382, count := 2, started := true } }
    let u := servingModule.modSeq 0 fun q => { q with mode := .faulted, load := some { addr := 0x1000, first := 16382, count := 2 } }
    s.partOfSlice 0 = some 0 ∧ aligned 0x1000 16 = true ∧ s.devCheck (.part 0 false) 0x1000 32 false = .ok
      ∧ (s.devRead 0x1000 32).2.2 = .ok ∧ (s.seq 0).mode = .loading ∧ (∀ q < 9, s.queue 0 q = []) ∧ (u.seq 0).mode = .faulted := by
  decide +kernel
theorem test_prog_abort :
    let s := servingModule.modSeq 0 fun q => { q with mode := .aborting }
    (s.seq 0).mode = .aborting ∧ s.queuesEmpty 0 511 = true := by decide +kernel
theorem test_prog_complete :
    let i : SInstr := { op := .qhad, queue := 6, sigEn := 1, sigCtr := 63, args := [0] }
    let s := servingModule.modSeq 0 fun q => { q with 
      queues := (q.queues.put 6 [{ op := i.encode, phase := .running .ok, sum := some (15, 4) }]).put 5 [({ op := i.encode, phase := .running .access } : QEntry)] }
    fieldsOf i.encode = some i ∧ s.pairedPrimary 0 = none ∧ s.partOfSlice 0 = some 0 ∧ s.absCtr 0 i.sigCtr = some 63
      ∧ s.queue 0 6 = [{ op := i.encode, phase := .running .ok, sum := some (15, 4) }]
      ∧ s.queue 0 5 = [{ op := i.encode, phase := .running .access }] := by decide +kernel
theorem test_prog_region :
    let w := 0x100FFF001#64
    bit (servingModule.reg (sbCfg 0 0)) 0 = false ∧ bit w 0 = true ∧ bits w 32 14 = 1 ∧ bits w 1 2 ≠ 3
      ∧ (∀ j < 16, j ≠ 0 → (servingModule.region 0 j).en = false) ∧ bits w 12 12 * 4096 + bits w 32 14 * 2048 ≤ 2 ^ 24
      ∧ bits 0x7#64 1 2 = 3 ∧ bit ((servingModule.withRegs [(sbCfg 0 0, w)]).reg (sbCfg 0 0)) 0 = true
      ∧ w ≠ setBits w 0 1 0 := by decide +kernel
theorem test_prog_region_edges :
    let s := servingModule.modRegion 0 1 fun _ => { en := true, base := 0xFFF, tiles := 2 }
    let u := servingModule.withRegs [(sbCfg 0 0, 0x100FFF001#64)]
    (s.region 0 1).en = true ∧ ({ en := true, base := 0xFFF, tiles := 1 } : Region).overlaps (s.region 0 1) = true
      ∧ 2 ^ 24 < 0xFFF * 4096 + 3 * 2048 ∧ 0x100FFF000#64 = setBits (u.reg (sbCfg 0 0)) 0 1 0 ∧ u.regionUsed 0 0 = false := by
  decide +kernel
theorem test_prog_abort_started :
    let s := servingModule.modSeq 0 fun q => { q with queues := q.queues.put 6 [{ op := 0, phase := .running .ok }] }
    ∃ q < 9, ∃ e ∈ s.queue 0 q, e.started = true := ⟨6, by decide, _, List.mem_singleton.2 rfl, rfl⟩

/-! ### Witnesses of EngineIssue -/

theorem test_issue_free :
    let i : SInstr := { op := .qhad, queue := 6, sigEn := 1, sigCtr := 63, ix := 7, ixEn := 1, args := [64] }
    (seqModule i).engineFree 0 .clean i ∧ i.op.cls ≠ 0 := by unfold State.engineFree State.issuable; decide +kernel
theorem test_issue_busy :
    let i : SInstr := { op := .qhad, queue := 6, args := [64] }
    let s := (seqModule i).modSeq 0 fun q => { q with queues := q.queues.put 6 (List.replicate 15 { op := i.encode, phase := .running .ok }) }
    let f := (seqModule i).modSeq 0 fun q => { q with queues := q.queues.put 6 (List.replicate 16 { op := i.encode, phase := .running .ok }) }
    s.issuable 0 .clean i ∧ (s.queue 0 6).length < queueDepth 6 ∧ s.queue 0 6 ≠ []
      ∧ (∀ e ∈ s.queue 0 6, e.phase ≠ .queued ∧ e.phase ≠ .waiting) ∧ f.issuable 0 .clean i ∧ queueDepth 6 ≤ (f.queue 0 6).length := by
  unfold State.issuable; decide +kernel

/-! ### Witnesses of ArrayOperations -/

theorem test_arr_config :
    let i : SInstr := { op := .config, queue := 3, args := [0, 10, 10, 0, 0] }
    (seqModule i).engineFree 0 .clean i ∧ (seqModule i).canonical = true := by unfold State.engineFree State.issuable; decide +kernel
theorem test_arr_load :
    let i : SInstr := { op := .load, queue := 3, ix := 7, ixEn := 1, args := [2 ^ 24 - 128, 511, 0] }
    let u := (seqModule i).accepted 0 .clean i
    (seqModule i).engineFree 0 .clean i ∧ u.ea 0 (2 ^ 24 - 128) = some ⟨false, 0, 2 ^ 24 - 128⟩ ∧ (u.tileOf 0 511).isOpen = false
      ∧ EA.fits ⟨false, 0, 2 ^ 24 - 128⟩ 128 = true ∧ u.tileBeingRead 0 511 = false := by unfold State.engineFree State.issuable; decide +kernel
theorem test_arr_mma : ∀ z ∈ [0, 1], ∀ a ∈ [0, 1],
    let i : SInstr := { op := .mma, queue := 0, args := [0, 511, 1, 0, 0, 1, a, 15, 0, 0] }
    let s := { mmaModule i z with arrFmt := servingModule.arrFmt.put 0 { afmt := 0, wfmt := 0, sk := 0, sreg := 0 } }
    let u := s.accepted 0 .clean i
    let o := (i.indexedBy (s.seq 0)).mma
    s.engineFree 0 .clean i ∧ s.canonical = true ∧ u.mmaCheck 0 0 o = .ok ∧ u.tileBeingRead 0 o.acc = false
      ∧ (u.arrState 0 0).sk = 0 ∧ u.mmaCovered 0 (u.arrState 0 0) o {} 0 = (z == 1) := by
  unfold State.engineFree State.issuable; decide +kernel
theorem test_arr_dattn :
    let i : SInstr := { op := .dattn, queue := 1, args := [0] }
    let s := opModule i [(0, zeros 16 ++ [0#8, 1#8])]
    let u := s.accepted 0 .clean i
    s.engineFree 0 .clean i ∧ s.canonical = true ∧ u.ea 0 0 = some ⟨false, 0, 0⟩
      ∧ (DattnOp.ofBytes (u.eaRead ⟨false, 0, 0⟩ 64)).nk = 256 ∧ u.dattnCheck 0 1 (DattnOp.ofBytes (u.eaRead ⟨false, 0, 0⟩ 64)) = .ok := by
  unfold State.engineFree State.issuable; decide +kernel
theorem test_arr_starved : ∀ n ∈ [0, 1],
    let i : SInstr := { op := .mma, queue := 0, args := [0, 511, 1, 0, 0, 1, 0, 15, 0, 0] }
    let c : MmaRun := { wBase := 0, sBase := 0 }
    let s := (mmaModule i n).modSeq 0 fun q => { q with queues := q.queues.put 0 [{ op := i.encode, phase := .starved 0, mma := some c }] }
    s.queue 0 0 = [{ op := i.encode, phase := .starved 0, mma := some c }] ∧ fieldsOf i.encode = some i ∧ s.canonical = true
      ∧ (s.ea 0 i.mma.addr).isSome = true ∧ c.k < i.mma.kk ∧ i.mma.arel = false ∧ c.long = false
      ∧ s.mmaCovered 0 (s.arrState 0 0) i.mma c c.k = (n == 1) := by decide +kernel
theorem test_arr_open_wait :
    let i : SInstr := { op := .load, queue := 0, args := [0, 511, 31] }
    let d : SInstr := { op := .drain, queue := 0, args := [0, 511, 0, 0, 0, 0, 0] }
    let s := servingModule.modSeq 0 fun q => { q with queues := q.queues.put 0 [{ op := d.encode, phase := .running .ok }, { op := i.encode, phase := .openWait }] }
    s.canonical = true ∧ s.halted 0 0 = false ∧ fieldsOf i.encode = some i ∧ s.ea 0 (i.arg 0) = some ⟨false, 0, 0⟩ ∧ (s.tileOf 0 511).isOpen = false
      ∧ s.tileBeingRead 0 511 = true ∧ (s.drainsRead 0).tileBeingRead 0 511 = false := by decide +kernel
theorem test_arr_close :
    let s := { servingModule with tiles := servingModule.tiles.put 0 { isOpen := true, owner := 2 } }
    s.passes 0 (Pg.arr 0 2 + 0x100) = true ∧ s.arrMode 0 2 = 0 ∧ (s.tileOf 0 0).isOpen = true ∧ s.canonical = true
      ∧ (s.modSeq 0 fun q => { q with queues := q.queues.put 2 [{ op := 0, phase := .running .ok }] }).arrMode 0 2 ≠ 0 := by decide +kernel

/-! ### Witnesses of DrainsAndTraps -/

theorem test_drain : ∀ x ∈ [true, false],
    let i : SInstr := { op := .drain, queue := 2, args := [0, 511, 31, 0, 0, 0, 0] }
    let s := (({ seqModule i with tiles := servingModule.tiles.put 511 { isOpen := x, owner := 2 } }).withRegs [(profKey 0 0 0, 9)])
    let u := s.accepted 0 .clean i
    let o := (i.indexedBy (s.seq 0)).drainOp
    s.engineFree 0 .clean i ∧ s.canonical = true ∧ (u.tileOf 0 o.acc).isOpen = x ∧ (x = true → (u.tileOf 0 o.acc).owner = 2)
      ∧ u.drainCheck 0 2 o = .ok ∧ (u.drainProf 0 o).gran = 0 ∧ (u.drainProf 0 o).rrowEn = false ∧ (u.drainProf 0 o).hadEn = false
      ∧ (u.drainProf 0 o).soutEn = false
      ∧ u.ea32 0 o.addr = some ⟨false, 0, 0⟩ ∧ u.pairedPrimary 0 = none := by unfold State.engineFree State.issuable; decide +kernel
theorem test_drain_buffer :
    let i : SInstr := { op := .drain, queue := 0, args := [0, 0, 0, 0, 0, 0, 0] }
    let s := ({ servingModule with tiles := servingModule.tiles.put 0 { isOpen := true } } : State).modSeq 0 fun q =>
      { q with queues := q.queues.put 0 [{ op := i.encode, phase := .running .ok }, { op := i.encode, phase := .bufferWait }] }
    s.canonical = true ∧ fieldsOf i.encode = some i ∧ (s.tileOf 0 i.drainOp.acc).isOpen = true ∧ (s.tileOf 0 i.drainOp.acc).owner = 0
      ∧ s.drainCheck 0 0 i.drainOp = .ok ∧ (s.drainProf 0 i.drainOp).policy ≠ 2 ∧ (s.drainProf 0 i.drainOp).soutEn = false
      ∧ s.halted 0 0 = false := by decide +kernel
/-- A drain at its trap. -/
def trapEntry : QEntry :=
  { op := ({ op := .drain, queue := 0, args := [0, 0, 0, 0, 0, 0, 0] } : SInstr).encode, phase := .trapped 0
    drain := some { prof := [0, 0, 0, 0, 0, 0] } }
theorem test_trap : ∀ n ∈ [0, 65535],
    let s := (servingModule.withRegs [(Pg.qnt 0 + 0x178, BitVec.ofNat 64 n)]).modSeq 0 fun q => { q with queues := q.queues.put 0 [trapEntry] }
    s.canonical = true ∧ s.queue 0 0 = [trapEntry] ∧ (SInstr.decode trapEntry.op).isSome = true
      ∧ s.passes 0 (trapKey 0) = true ∧ s.fld (Pg.qnt 0 + 0x178) 0 16 = n := by decide +kernel
theorem test_trap_side : (Prof.ofWords [0, 0, 0, 0, 0, 0]).soutEn = false := by decide +kernel
theorem test_trap_sigma : (Prof.ofWords [0, 0, 0, 0, 0, 0]).sigmaOk 0x3F800000 = true
    ∧ (Prof.ofWords [0, 0, 0, 0, 0, 0]).sigmaOk 0xFF800000 = false := by decide +kernel
theorem test_trap_none : servingModule.trapAt 0 3 = none ∧ servingModule.passes 0 (trapKey 0) = true := by decide +kernel

/-! ### Witnesses of QuantOperations -/

theorem test_qnt_qrun : ∀ d ∈ [0, 1], ∀ np ∈ [0, 1],
    let i : SInstr := { op := .qrun, queue := 6, args := [0, 4096, 0, 0, np, d, if d = 0 then 9 else 0] }
    let s := (seqModule i).withRegs [(profKey 0 0 0, 9)]
    let u := s.accepted 0 .clean i
    let p := Prof.ofWords (u.profWords 0 0)
    s.engineFree 0 .clean i ∧ s.canonical = true ∧ u.ea32 0 0 = some ⟨false, 0, 0⟩ ∧ u.ea32 0 4096 = some ⟨false, 0, 4096⟩ ∧ p.ofmt = 9
      ∧ pitchOk 9 1 = true ∧ u.eaWritable ⟨false, 0, 4096⟩ 128 = true ∧ u.profCheck 0 { p with step := false } 0 0 1 false = .ok
      ∧ p.gran = 0 ∧ p.soutEn = false ∧ EA.fits ⟨false, 0, 4096⟩ 128 = true := by unfold State.engineFree State.issuable; decide +kernel
theorem test_qnt_qhad : ∀ kk ∈ [5#8, 4#8],
    let i : SInstr := { op := .qhad, queue := 6, args := [0] }
    let s := opModule i [(0, toLe 4 128 ++ toLe 4 4096 ++ zeros 4 ++ [0#8, 1#8, 0#8, kk, 0x99#8])]
    let u := s.accepted 0 .clean i
    let b := u.eaRead ⟨false, 0, 0⟩ 32
    s.engineFree 0 .clean i ∧ s.canonical = true ∧ u.ea32 0 0 = some ⟨false, 0, 0⟩ ∧ u.ea32 0 (field b 0 4) = some ⟨false, 0, 128⟩
      ∧ u.ea32 0 (field b 4 4) = some ⟨false, 0, 4096⟩ ∧ field b 13 2 = 1 ∧ field b 15 1 = kk.toNat ∧ field b 16 1 = 0x99
      ∧ field b 17 15 = 0 ∧ u.eaWritable ⟨false, 0, 4096⟩ 128 = true := by unfold State.engineFree State.issuable; decide +kernel
theorem test_qnt_qstep : ∀ x ∈ [0x7F7FFFFF, 0x7F800000], ∀ how ∈ [0, 1],
    let i : SInstr := { op := .qstep, queue := 6, args := [0, 15, how] }
    let s := (opModule i [(0, toLe 4 x)]).withRegs [(slotCfgKey 0 15, 0x41)]
    let u := s.accepted 0 .clean i
    s.engineFree 0 .clean i ∧ s.canonical = true ∧ bit (u.reg (slotCfgKey 0 15)) 6 = true ∧ bit (u.reg (slotCfgKey 0 14)) 6 = false
      ∧ u.ea32 0 0 = some ⟨false, 0, 0⟩ ∧ u.eaNat ⟨false, 0, 0⟩ 4 = x := by unfold State.engineFree State.issuable; decide +kernel
theorem test_qnt_qload : ∀ x ∈ [0, 1],
    let i : SInstr := { op := .qload, queue := 6, args := [0, 31, 1] }
    let s := opModule i [(0, toLe 4 9), (48, toLe 4 x)]
    let u := s.accepted 0 .clean i
    s.engineFree 0 .clean i ∧ s.canonical = true ∧ u.ea32 0 0 = some ⟨false, 0, 0⟩ ∧ u.eaNat ⟨false, 0, 48⟩ 16 = x
      ∧ u.profOk 0 ((List.range 6).map fun w => word (u.eaNat ⟨false, 0, 8 * w⟩ 8)) = true := by
  unfold State.engineFree State.issuable; decide +kernel
theorem test_qnt_commit :
    servingModule.passes 0 (Pg.qnt 0 + 0x110) = true
      ∧ servingModule.profOk 0 (9 :: (List.range 5).map fun n => servingModule.stagedOf 0 (profKey 0 0 (n + 1))) = true
      ∧ servingModule.profOk 0 (0xF :: (List.range 5).map fun n => servingModule.stagedOf 0 (profKey 0 0 (n + 1))) = false := by decide +kernel
theorem test_qnt_hist : ∀ n ∈ [0, 1, 2],
    let s := ({ servingModule with qslots := servingModule.qslots.put 0 { hist := [5] } }).withRegs
      [(slotCfgKey 0 0, 0x42), (Pg.qnt 0 + 0x148, BitVec.ofNat 64 (256 * n))]
    s.passes 0 (Pg.qnt 0 + 0x160) = true ∧ s.fld (Pg.qnt 0 + 0x148) 0 4 = 0 ∧ s.fld (Pg.qnt 0 + 0x148) 8 4 = n
      ∧ (s.qslot 0 0).hist.length = 1 ∧ s.fld (slotCfgKey 0 0) 0 5 = 2 := by decide +kernel

/-! ### Witnesses of MmaElementValues -/

theorem test_mma_elements :
    let i : SInstr := { op := .mma, queue := 3, args := [0, 511, 1, 0, 0, 1, 0, 15, 0, 0] }
    let s := { mmaModule i 1 with arrFmt := servingModule.arrFmt.put 3 { afmt := 0, wfmt := 0, sk := 0, sreg := 0 } }
    let u := s.accepted 0 .clean i
    let o := (i.indexedBy (s.seq 0)).mma
    s.engineFree 0 .clean i ∧ s.canonical = true ∧ u.ea 0 o.addr = some ⟨false, 0, 0⟩ ∧ u.mmaCheck 0 3 o = .ok
      ∧ u.tileBeingRead 0 o.acc = false ∧ (∀ n < o.kk, u.mmaCovered 0 (u.arrState 0 3) o {} n = true) ∧ (u.arrState 0 3).sk = 0 := by
  unfold State.engineFree State.issuable; decide +kernel

/-! ### Witnesses of VectorOperations -/

theorem test_vec_moves : ∀ op ∈ [SOp.vload, .vstore], ∀ f ∈ [9, 10],
    let i : SInstr := { op := op, queue := 4, args := [4096, 31, 0, 31, f] }
    let s := seqModule i
    let u := s.accepted 0 .clean i
    s.engineFree 0 .clean i ∧ s.canonical = true ∧ u.ea32 0 4096 = some ⟨false, 0, 4096⟩ ∧ fmtOk f = true ∧ pitchOk f 32 = true
      ∧ fmtOk 15 = false ∧ u.eaWritable ⟨false, 0, 4096⟩ 4096 = true ∧ EA.fits ⟨false, 0, 4096⟩ 4096 = true ∧ u.pairedPrimary 0 = none := by
  unfold State.engineFree State.issuable; decide +kernel
theorem test_vec_clove : ∀ np ∈ [0#8, 1#8],
    let i : SInstr := { op := .clove, queue := 4, args := [0, 2047, 0] }
    let s := opModule i [(76, [0#8, 0#8, np])]
    let u := s.accepted 0 .clean i
    let d := CloveDesc.ofBytes (u.eaRead ⟨false, 0, 0⟩ 128)
    s.engineFree 0 .clean i ∧ s.canonical = true ∧ u.ea32 0 0 = some ⟨false, 0, 0⟩ ∧ d.np = np.toNat ∧ u.cloveCheck 0 d 2047 1 = .ok
      ∧ u.cloveCheck 0 d 2047 2 ≠ .ok := by unfold State.engineFree State.issuable; decide +kernel
theorem test_vec_reduce : ∀ n ∈ [0#8, 1#8],
    let i : SInstr := { op := .reduce, queue := 4, args := [0] }
    let s := opModule i [(0, toLe 4 128 ++ toLe 4 4096), (20, [n]), (25, [9#8])]
    let u := s.accepted 0 .clean i
    let d := VecDesc.ofBytes (u.eaRead ⟨false, 0, 0⟩ 64)
    s.engineFree 0 .clean i ∧ s.canonical = true ∧ u.ea32 0 0 = some ⟨false, 0, 0⟩ ∧ d.n = n.toNat ∧ u.reduceCheck 0 d = .ok
      ∧ u.reduceCheck 0 { d with op := 8 } ≠ .ok ∧ u.ea32 0 d.src = some ⟨false, 0, 128⟩ ∧ u.ea32 0 d.dst = some ⟨false, 0, 4096⟩ := by
  unfold State.engineFree State.issuable; decide +kernel
theorem test_vec_tables :
    (let i : SInstr := { op := .pload, queue := 4, args := [0, 2047, 1] }
     (seqModule i).engineFree 0 .clean i ∧ ((seqModule i).accepted 0 .clean i).ea32 0 0 = some ⟨false, 0, 0⟩)
    ∧ (let i : SInstr := { op := .bset, queue := 4, args := [0, 15] }
       let u := (seqModule i).accepted 0 .clean i
       (seqModule i).engineFree 0 .clean i ∧ u.ea32 0 0 = some ⟨false, 0, 0⟩
        ∧ u.chainRecordOk 0 ((List.range 9).map fun n => word (u.eaNat ⟨false, 0, 8 * n⟩ 8)) = true
        ∧ u.chainRecordOk 0 ((List.range 9).map fun _ => BitVec.allOnes 64) = false) := by
  unfold State.engineFree State.issuable; decide +kernel
theorem test_vec_commit : servingModule.passes 0 (Pg.vec 0 + 0x130) = true
    ∧ servingModule.chainRecordOk 0 (0 :: (List.range 8).map fun n => servingModule.stagedOf 0 (chainKey 0 0 (n + 1))) = true
    ∧ servingModule.chainRecordOk 0 (BitVec.allOnes 64 :: (List.range 8).map fun n => servingModule.stagedOf 0 (chainKey 0 0 (n + 1))) = false := by
  decide +kernel

/-! ### Witnesses of VectorDescriptorOperations -/

/-- Slice 0 runs an operation on a descriptor at 0: places 0x1000, 0x2000 and 0x3000 on, a count, a format, an operation and a parameter. -/
def vecModule (op : SOp) (a1 a2 n fmt : Nat) (dfmt code param cap : Nat) : State × SInstr :=
  let i : SInstr := { op := op, queue := 4, args := [0] }
  (opModule i [(0, toLe 4 0x1000 ++ toLe 4 0x2000 ++ toLe 4 (if op = .combine then 0 else 0x3000) ++ toLe 4 a1 ++ toLe 4 a2 ++ toLe 3 n ++ zeros 2
      ++ toLe 1 (fmt + 16 * dfmt) ++ toLe 1 code ++ zeros 1 ++ toLe 4 param ++ zeros 4 ++ toLe 4 cap)], i)
theorem test_vec_topk : ∀ n ∈ [0, 1],
    let x := vecModule .topk 0 0 n 9 0 0 16 0
    let u := x.1.accepted 0 .clean x.2
    let d := VecDesc.ofBytes (u.eaRead ⟨false, 0, 0⟩ 64)
    x.1.engineFree 0 .clean x.2 ∧ x.1.canonical = true ∧ u.ea32 0 0 = some ⟨false, 0, 0⟩ ∧ d.n = n ∧ d.param = 16
      ∧ (n = 1 → u.topkCheck 0 d = .ok) ∧ u.topkCheck 0 { d with param := 17 } ≠ .ok ∧ u.ea32 0 d.aux0 = some ⟨false, 0, 0x3000⟩
      ∧ d.flags = 0 ∧ EA.meets ⟨false, 0, 0x2000⟩ 128 ⟨false, 0, 0x3000⟩ 64 = false := by
  unfold State.engineFree State.issuable; decide +kernel
theorem test_vec_compress :
    let x := vecModule .compress 0x4000 0x5000 1 9 9 0 1 4
    let u := x.1.accepted 0 .clean x.2
    let d := VecDesc.ofBytes (u.eaRead ⟨false, 0, 0⟩ 64)
    let runs := compressRuns ((List.range 1).map fun n => (u.eaNat ⟨false, 0, 0x3000 + 4 * n⟩ 4 % 65536, 0)) 1 d.m false
    x.1.engineFree 0 .clean x.2 ∧ d.n = 1 ∧ d.clean = true ∧ d.op = 0 ∧ d.flags = 0 ∧ d.fmt = 9 ∧ d.dfmt = 9 ∧ d.param = 1
      ∧ u.ea32 0 d.aux1 = some ⟨false, 0, 0x4000⟩ ∧ u.ea32 0 d.aux2 = some ⟨false, 0, 0x5000⟩ ∧ runs.2.length ≤ d.cap
      ∧ (∀ n < runs.2.length, u.eaWritable ⟨false, 0, 0x2000⟩ (rowEnd d.m 1 128 n) = true) := by
  unfold State.engineFree State.issuable; decide +kernel
theorem test_vec_expand :
    let x := vecModule .expand 0x4000 0 1 9 9 0 4095 0
    let u := x.1.accepted 0 .clean x.2
    let d := VecDesc.ofBytes (u.eaRead ⟨false, 0, 0⟩ 64)
    x.1.engineFree 0 .clean x.2 ∧ d.n = 1 ∧ d.clean = true ∧ d.param = 4095 ∧ d.cap = 0 ∧ d.aux2 = 0 ∧ d.fmt = 9 ∧ d.dfmt = 9
      ∧ u.eaNat ⟨false, 0, 0x3000⟩ 4 ≠ 0xFFFFFFFF ∧ EA.fits ⟨false, 0, 0x2000⟩ (rowEnd d.m 4095 128 0) = true := by
  unfold State.engineFree State.issuable; decide +kernel
theorem test_vec_combine : ∀ op ∈ [1, 2, 3],
    let x := vecModule .combine 0 0 1 10 0 op 128 0
    let u := x.1.accepted 0 .clean x.2
    let d := VecDesc.ofBytes (u.eaRead ⟨false, 0, 0⟩ 64)
    x.1.engineFree 0 .clean x.2 ∧ d.n = 1 ∧ d.clean = true ∧ d.op = op ∧ d.flags = 0 ∧ d.fmt = 10 ∧ d.aux0 = 0 ∧ aligned d.param 32 = true
      ∧ (∀ q < 2 ^ op, u.eaWritable ⟨false, 0, 0x1000 + 128 * q⟩ 128 = true) := by unfold State.engineFree State.issuable; decide +kernel

/-! ### Witnesses of AttentionOperations -/

/-- A configuration record: BF16, two groups a token, one head of 32 elements. -/
def attRecord : List Byte := [8, 2, 1, 1, 32, 0, 0, 0, 0, 0, 1, 0x77, 1] ++ zeros 31 ++ toLe 4 0x3F800000 ++ zeros 80
theorem test_att_xload :
    let i : SInstr := { op := .xload, queue := 5, args := [0, 524256, 32] }
    let s := seqModule i
    s.engineFree 0 .clean i ∧ s.canonical = true ∧ (s.accepted 0 .clean i).ea32 0 0 = some ⟨false, 0, 0⟩
      ∧ 524256 + 32 ≤ 524288 ∧ 524288 < 524256 + 64 := by unfold State.engineFree State.issuable; decide +kernel
theorem test_att_aconfig : ∀ x ∈ [(attRecord, true), (zeros 128, false)],
    let i : SInstr := { op := .aconfig, queue := 5, args := [0, 7, 1] }
    let s := opModule i [(0, x.1)]
    let u := s.accepted 0 .clean i
    s.engineFree 0 .clean i ∧ u.ea32 0 0 = some ⟨false, 0, 0⟩ ∧ s.canonical = true
      ∧ (AttCfg.ofBytes (u.eaRead ⟨false, 0, 0⟩ 128)).ok = x.2 := by unfold State.engineFree State.issuable; decide +kernel
theorem test_att_amerge :
    let i : SInstr := { op := .amerge, queue := 5, args := [0] }
    let s := opModule i [(0, toLe 4 0x1000 ++ toLe 4 0x2000 ++ toLe 4 128 ++ toLe 4 0x3000 ++ [8, 1, 32, 0, 9])]
    let u := s.accepted 0 .clean i
    let b := u.eaRead ⟨false, 0, 0⟩ 64
    s.engineFree 0 .clean i ∧ s.canonical = true ∧ u.ea32 0 0 = some ⟨false, 0, 0⟩ ∧ u.ea32 0 (field b 0 4) = some ⟨false, 0, 0x1000⟩
      ∧ u.ea32 0 (field b 4 4) = some ⟨false, 0, 0x2000⟩ ∧ u.ea32 0 (field b 12 4) = some ⟨false, 0, 0x3000⟩ ∧ field b 16 1 = 8
      ∧ field b 18 2 = 32 ∧ field b 22 42 = 0 ∧ aligned (field b 8 4) 32 = true ∧ u.eaWritable ⟨false, 0, 0x3000⟩ 128 = true := by
  unfold State.engineFree State.issuable; decide +kernel
/-- Slice 0 of a module without a bulk tier runs a batch of `n` sequences at position 0, with a configuration in slot 7, region 15 and
slot 15. -/
def attModule (op : SOp) (n : Nat) (follow : Bool) : State × SInstr :=
  let i : SInstr := { op := op, queue := 5, args := [0] }
  let s := opModule i [(0, toLe 4 0x1000 ++ toLe 2 n ++ [7, 15, 15, 0, 0x99, 0, 1]), (0x1000 + 8, [1]), (0x1000 + 16, [1])
                      , (0x1000 + 32, toLe 4 0x2000 ++ toLe 4 0x3000 ++ toLe 4 0x4000 ++ toLe 4 0x5000 ++ toLe 4 0x6000)]
  (({ s with attCfg := s.attCfg.put 7 attRecord, regions := s.regions.put 15 { en := true, producer := 1, tiles := 4 },
                 ident := { s.ident with bulk := false } }).withRegs
    [(xqCfg 1 15, if follow then 0x10000 else 0)], i)
theorem test_att_batch : ∀ op ∈ [SOp.append, .adec], ∀ n ∈ [0, 1], ∀ f ∈ [true, false],
    let x := attModule op n f
    let u := x.1.accepted 0 .clean x.2
    let b := Batch.ofBytes (u.eaRead ⟨false, 0, 0⟩ 64)
    let q := SeqEnt.ofBytes (u.eaRead ⟨false, 0, 0x1000⟩ 64)
    x.1.engineFree 0 .clean x.2 ∧ x.1.canonical = true ∧ u.ea32 0 0 = some ⟨false, 0, 0⟩ ∧ b.nseq = n ∧ u.ea32 0 b.seqt = some ⟨false, 0, 0x1000⟩
      ∧ (n = 1 → u.batchCheck 0 (u.attCfgOf 0 b.cfg) b (op == .adec) ⟨false, 0, 0x1000⟩ = .ok) ∧ u.walkFollows 0 b.xslot = f
      ∧ u.pairedPrimary 0 = none ∧ u.pairedTwin 0 = none ∧ q.lenOk = true ∧ (u.attCfgOf 0 b.cfg).ringOk b q = true ∧ q.globEn = false
      ∧ q.len = 0 ∧ q.nq = 1 ∧ q.ring = false ∧ (u.region 0 b.kreg).tags = []
      ∧ (u.targetAddr 0 (u.attCfgOf 0 b.cfg) q { anchor := false, entry := 0, slot := 0 }).2.2 = .ok ∧ u.ea32 0 q.taddr = some ⟨false, 0, 0x6000⟩ := by
  unfold State.engineFree State.issuable; decide +kernel
theorem test_att_batch_fails :
    let x := attModule .append 1 false
    let u := { x.1.accepted 0 .clean x.2 with attCfg := {} }
    let b := Batch.ofBytes (u.eaRead ⟨false, 0, 0⟩ 64)
    u.batchCheck 0 (u.attCfgOf 0 b.cfg) b false ⟨false, 0, 0x1000⟩ = .access
      ∧ { SeqEnt.ofBytes (zeros 64) with nq := 10 }.lenOk = false := by decide +kernel
theorem test_att_gather : ∀ x ∈ [(15#8, Status.ok), (14#8, .access)],
    let i : SInstr := { op := .agather, queue := 5, args := [0] }
    let m := (attModule .append 1 false).1
    let s := (opModule i [(0, toLe 4 0x1000 ++ toLe 4 0x2000 ++ toLe 4 0x3000 ++ [7, 0, 7, x.1, 15]), (24, [32]), (0x1000 + 16, [1])])
    let s := { s with attCfg := m.attCfg, regions := m.regions }
    let u := s.accepted 0 .clean i
    let g := Gather.ofBytes (u.eaRead ⟨false, 0, 0⟩ 64)
    let q := SeqEnt.ofBytes (u.eaRead ⟨false, 0, 0x1000⟩ 64)
    s.engineFree 0 .clean i ∧ s.canonical = true ∧ u.ea32 0 g.seq = some ⟨false, 0, 0x1000⟩ ∧ u.gatherCheck 0 (u.attCfgOf 0 g.cfg) g ⟨false, 0, 0x1000⟩ = x.2
      ∧ u.walkFollows 0 g.xslot = false ∧ u.eaWritable ⟨false, 0, 0x1000⟩ 64 = true ∧ q.globEn = false ∧ q.len ≤ g.klo := by
  unfold State.engineFree State.issuable; decide +kernel
theorem test_att_walk : ∀ f ∈ [true, false],
    let x := attModule .adec 1 f
    let s := (x.1.wrMem .ws 0x100C [1]).modRegion 0 15 fun g => { g with taken := 4, filled := 4, released := 0, tags := [(1, 0, 0)] }
    let w := (x.1.wrMem .ws 0x100C [1])
    let u := s.accepted 0 .clean x.2
    let b := Batch.ofBytes (u.eaRead ⟨false, 0, 0⟩ 64)
    let q := SeqEnt.ofBytes (u.eaRead ⟨false, 0, 0x1000⟩ 64)
    let c := u.attCfgOf 0 b.cfg
    s.engineFree 0 .clean x.2 ∧ s.canonical = true ∧ u.batchCheck 0 c b true ⟨false, 0, 0x1000⟩ = .ok ∧ q.lenOk = true
      ∧ pagesOf ((c.needed b q []).map (c.place q c.maxSink [])) = [(false, 0)]
      ∧ (u.pageAddr 0 c q { anchor := false, entry := 0, slot := 0 }).2.2.2 = .ok ∧ u.walkFollows 0 b.xslot = f
      ∧ (f = false → 0 ∈ u.walkTargets 0 b.xslot) ∧ (u.region 0 b.kreg).credits = 0
      ∧ ((u.region 0 b.kreg).tagPlace (u.region 0 b.kreg).released).bind ((u.region 0 b.kreg).tags[·]?) ≠ some (0, 0, 0)
      ∧ ((w.accepted 0 .clean x.2).region 0 b.kreg).filled ≤ ((w.accepted 0 .clean x.2).region 0 b.kreg).released := by
  unfold State.engineFree State.issuable; decide +kernel

/-! ### Witnesses of TransferEngines -/

theorem test_xfer_arm : ∀ x ∈ [(SOp.arm, 0, [0, 0]), (.arm, 63, [0, 63]), (.armd, 0, [0, 0, 0]), (.stop, 0, [0, 0])],
    let i : SInstr := { op := x.1, queue := 8, args := x.2.2 }
    let s : State := { opModule i [(4, [15])] with ident := { servingModule.ident with bulk := false } }
    let u := s.accepted 0 .clean i
    s.engineFree 0 .clean i ∧ s.pairedPrimary 0 = none ∧ s.partOfSlice 0 = some 0 ∧ (x.2.1 < xCount 1 ↔ x.2.1 = 0)
      ∧ u.ea 0 0 = some ⟨false, 0, 0⟩ ∧ (u.xslot 1 0).mode = .idle ∧ (u.xslot 1 0).gens = [] ∧ (u.xslot 1 0).xfers = [] ∧ (u.xslot 1 0).released = false
      ∧ u.armCheck 1 0 0 (Desc.ofBytes (u.eaRead ⟨false, 0, 0⟩ 64)) (u.xslot 1 0).gen = .ok
      ∧ u.armCheck 1 0 0 { Desc.ofBytes (u.eaRead ⟨false, 0, 0⟩ 64) with cls := 255 } 0 ≠ .ok
      ∧ u.devCheck (.part 0 false) 0 64 false = .ok ∧ ((u.countAccess 0).devRead 0 64).2.2 = .ok := by
  unfold State.engineFree State.issuable; decide +kernel
theorem test_xfer_stop :
    let g : Gen := { gen := 1, part := 0, desc := zeros 64 }
    let s := servingModule.modXslot 1 0 fun x => { x with mode := .active, gen := 1, gens := [g] }
    s.passes 0 (Pg.xe 1 + 0x110) = true ∧ s.xSelected 1 = some 0 ∧ s.xPart 1 0 = some 0 ∧ (s.xslot 1 0).mode = .active
      ∧ (s.xslot 1 0).gens = [g] ∧ (s.xslot 1 0).xfers = [] ∧ (s.xslot 1 0).released = false ∧ servingModule.devCheck (xWho 1 0) 0 64 false = .ok
      ∧ (servingModule.xslot 1 0).mode = .idle := by decide +kernel
theorem test_xfer_issue :
    let g : Gen := { gen := 1, part := 0, desc := zeros 16 ++ toLe 4 1 ++ zeros 44, ent := some (zeros 16 ++ toLe 4 32 ++ zeros 12) }
    let s := servingModule.modXslot 1 0 fun x => { x with mode := .active, gen := 1, gens := [g] }
    (s.xslot 1 0).gens = [g] ∧ g.issued = false ∧ s.enginesRun = true ∧ (Blk.ofBytes (zeros 16 ++ toLe 4 32 ++ zeros 12)).len = 32
      ∧ (Blk.ofBytes (zeros 16 ++ toLe 4 32 ++ zeros 12)).sremote = false ∧ (s.xslot 1 0).xfers = [] := by decide +kernel
theorem test_xfer_complete :
    let b := toLe 8 0 ++ toLe 8 4096 ++ toLe 4 64 ++ toLe 2 1 ++ toLe 2 5 ++ zeros 8
    let g : Gen := { gen := 1, part := 0, desc := zeros 64, ent := some b, off := 64 }
    let w : Xfer := { gen := 1, blk := 0, ent := b, off := 0, len := 64 }
    let s := servingModule.modXslot 1 0 fun x => { x with mode := .active, gen := 1, gens := [g], xfers := [w] }
    s.canonical = true ∧ s.repairs = [] ∧ (Desc.ofBytes g.desc).crecEn = false ∧ (Blk.ofBytes b).ssp = 1 ∧ (Blk.ofBytes b).dsp = 1
      ∧ (Blk.ofBytes b).rows = 1 ∧ (Blk.ofBytes b).len = 64 ∧ s.xEa 1 0 0 = some ⟨false, 0, 0⟩ ∧ s.xEa 1 0 4096 = some ⟨false, 0, 4096⟩
      ∧ s.pairedTwin 0 = none ∧ s.eaWritable ⟨false, 0, 4096⟩ 64 = true := by decide +kernel

/-! ### Witnesses of StackTier -/

/-- The place of sector 0. -/
def sectorZero : StackLoc := match servingModule.locate 0 with | .stack l => l | _ => ⟨0, 0, false⟩
theorem test_stack_read :
    servingModule.locate 0 = .stack sectorZero ∧ sectorZero.off < 2 ^ 60 ∧ wfFlips [] = true ∧ servingModule.canonical = true
      ∧ servingModule.boot.memStop = false ∧ servingModule.isStale sectorZero = false
      ∧ rsDecode servingModule.tc ((servingModule.flipStack sectorZero []).rdMem .stackChk (sectorZero.off / 8) 8) = some [] := by decide +kernel
theorem test_stack_corrects :
    let u := servingModule.flipStack sectorZero [(0, 1#8)]
    wfFlips [(0, 1#8)] = true ∧ (match rsDecode servingModule.tc (u.rdMem .stackChk (sectorZero.off / 8) 8) with | some (_ :: _) => true | _ => false) = true := by
  decide +kernel
theorem test_stack_duties : (servingModule.stack 11).mode = .ready ∧ (servingModule.stack 11).alertClk.items = []
    ∧ servingModule.stackFitted 11 = true ∧ servingModule.boot.phase = .ready ∧ (servingModule.stack 11).missed + 1 < 8
    ∧ ((servingModule.modStack 11 fun t => { t with missed := 7 }).stack 11).missed = 7 := by decide +kernel
theorem test_stack_window :
    let s := readyModule.withRegs [(Pg.stkCommon + 0x100, 1)]
    s.passes 0 (Pg.stkCommon + 0x110) = true ∧ s.fld (Pg.stkCommon + 0x100) 0 4 = 1 ∧ s.selectedWindow.en = false
      ∧ ({ s with windows := s.windows.put 1 { en := true } }).selectedWindow.en = true := by decide +kernel

/-! ### Witnesses of RowOperations -/

/-- An entry of one row: of bank 0 of one channel. -/
def rowEntry (op : Nat) : List Byte :=
  toLe 1 op ++ zeros 1 ++ toLe 2 1 ++ toLe 4 0 ++ toLe 8 0x8000 ++ toLe 8 (if op = 2 then 0x8000 else 0) ++ toLe 8 0
/-- Slot 0 of D0's row sequencer runs a list of one entry, which has been read. -/
def rowModule (op : Nat) : State :=
  servingModule.modRowSlot 0 0 fun r => { r with mode := .running, list := 0x100000, count := 1, entry := rowEntry op }
theorem test_row_entry : ∀ op ∈ [(1, RowKind.init), (2, .copy), (3, .and), (4, .or), (5, .xor), (6, .not), (7, .reseal)],
    let s := rowModule op.1
    let sl := s.rowSlot 0 0
    let e := RowEntry.ofBytes sl.entry
    s.canonical = true ∧ sl.mode = .running ∧ sl.entry ≠ [] ∧ sl.row + 1 = e.count ∧ sl.ent + 1 = sl.count ∧ s.enginesRun = true
      ∧ sl.free = true ∧ s.rowHeld (s.rowChan sl.entry sl.row) < 8 ∧ rowKind (e.op % 16) = some op.2
      ∧ (match s.rowLoc (e.rowAddr e.dst 0), s.rowLoc (e.rowAddr e.srcA 0) with
        | some c, some a => decide (c.off < 2 ^ 60) && !s.isStale a && !s.rowDirty a && (s.makeStale c).isSome
        | _, _ => false) = true := by decide +kernel
theorem test_row_go : servingModule.passes 0 (rowqCtrl 0 0) = true ∧ (servingModule.rowSlot 0 0).mode = .idle
    ∧ (let s := servingModule.devPut 0x100000 (rowEntry 1)
       let x := s.devRead 0x100000 32
       x.2.2 = .ok ∧ 0x100000 + 32 ≤ s.devEnd ∧ (RowEntry.ofBytes x.2.1).count = 1 ∧ rowKind ((RowEntry.ofBytes x.2.1).op % 16) = some .init
        ∧ x.1.rowCheck 0 (RowEntry.ofBytes x.2.1) .init = (.ok, 0)) := by decide +kernel
theorem test_row_complete : ∀ m ∈ [RowMode.running, .stopping],
    let o : RowOp := { ent := 0, row := 0, chan := 0, bytes := rowEntry 1 }
    let s := servingModule.modRowSlot 0 0 fun r => { r with mode := m, inflight := [o], failing := if m = .stopping then some (.poison, 0) else none }
    (s.rowSlot 0 0).inflight = [o] ∧ (s.rowSlot 0 0).mode = m ∧ (s.rowSlot 0 0).count ≤ (s.rowSlot 0 0).ent := by decide +kernel

/-! ### Witnesses of BulkTier -/

/-- The first address of the bulk tier. -/
def bulkFirst : Nat := unitBytes * bulkModule.stackUnits
theorem test_bulk_ready : bulkModule.bulk.mode = .ready ∧ bulkModule.canonical = true ∧ bulkModule.boot.memStop = false
    ∧ bulkModule.bulk.missed.get 0 15 + 1 < 8 ∧ (servingModule.bulk.mode ≠ .ready) := by decide +kernel
theorem test_bulk_read : bulkModule.locate bulkFirst = .bulk 0 ∧ bulkFirst / 64 * 64 = bulkFirst ∧ wfFlips [] = true
    ∧ rsDecode 2 ((bulkModule.flipBulk 0 []).rdMem .bulkChk (bulkCheck 0) 8) = some []
    ∧ (rsDecode 2 (xorBytes ((bulkModule.flipBulk 64 []).rdMem .bulkChk (bulkCheck 64) 8) (xorBytes (bulkFold 64) (bulkFold 0)))).isNone
        = false := by decide +kernel
theorem test_bulk_read_bad :
    (match rsDecode 2 ((bulkModule.flipBulk 0 [(0, 1#8)]).rdMem .bulkChk (bulkCheck 0) 8) with | some (_ :: _) => true | _ => false) = true
      ∧ wfFlips [(0, 1#8), (1, 2#8), (2, 4#8)] = true
      ∧ rsDecode 2 ((bulkModule.flipBulk 0 [(0, 1#8), (1, 2#8), (2, 4#8)]).rdMem .bulkChk (bulkCheck 0) 8) = none := by decide +kernel
/-- A sector that a swap back leaves lost decodes under neither of the two decoders (R254, R287, R296). -/
theorem test_lost_is_lost : rsDecode 4 lostChk = none ∧ rsDecode 2 lostChk = none := by decide +kernel

/-! ### Witnesses of RingCommands -/

/-- A ring command. -/
def ringCmd (op incarn r : Nat) (rest : List Byte) : List Byte :=
  toLe 8 (op + 2 ^ 16 * r + 2 ^ 32 * incarn) ++ rest ++ zeros (120 - rest.length)
theorem test_ring_names : ∀ op ∈ [1, 2, 3, 4, 5, 6, 7],
    let cmd := ringCmd op 0 0 []
    wfCommand cmd = true ∧ field cmd 0 1 = op ∧ cmdReq cmd = 0 ∧ (servingModule.withRegs [(Pg.sv + 0x800, 0x40000000000)]).partOfReq 0 = some 0 := by decide +kernel
theorem test_ring_modes : ∀ m ∈ [ReqMode.free, .done, .failed, .retained, .decode],
    let s := (servingModule.withRegs [(Pg.sv + 0x800, 0x40000000000)]).modReq 15 fun e => { e with mode := m }
    s.partOfReq 15 = some 0 ∧ s.partOfReq 16 = none ∧ s.ownerOf 0 = 0 ∧ (s.req 15).mode = m ∧ (s.req 15).incarn = 0 ∧ (s.req 15).huskPend = false
      ∧ s.closedPart 0 = false ∧ s.inBatch 0 15 = false ∧ (s.sv 0).owed = [] ∧ (s.sv 0).buf = [] := by decide +kernel
theorem test_ring_submit :
    let n : ReqEntry := { params := ((ringCmd 1 0 0 (zeros 40 ++ someParams)).drop 48).take 80 }
    n.params.length = 80 ∧ requestModule.submitCheck 0 n = .ok ∧ n.pfxh = 0xFFFF ∧ (requestModule.req 0).mode = .free
      ∧ requestModule.submitCheck 0 { n with params := zeros 80 } ≠ .ok := by decide +kernel
theorem test_ring_resume :
    let n : ReqEntry := { mode := .retained, params := someParams, expiry := 2 ^ 40, ntok := 0 }
    n.maxlen = 2 ∧ requestModule.ct < n.expiry ∧ sameHome n n = true ∧ requestModule.resumeCheck 0 n = .ok ∧ n.husk = none
      ∧ field (ringCmd 3 0 0 (toLe 4 1 ++ toLe 4 1)) 8 4 = 1 ∧ field (ringCmd 3 0 0 (toLe 4 1 ++ toLe 4 1)) 12 1 % 2 = 1 := by decide +kernel
theorem test_ring_prefix :
    let s := ((servingModule.withRegs [(Pg.sv + 0x800, 0x4000000000), (Pg.sv + 0x858, 0x100000000)]).modReq 0 fun e =>
      { e with mode := .decode, len := 16, pages := [7] })
    let g := (s.modSv 0 fun v => { v with handles := v.handles.put 0 { pages := [7], chain := [] } })
    s.svFld 0 0x58 32 13 = 1 ∧ ((s.sv 0).handles.get { pages := [], chain := [] } 0).pages = [] ∧ 1 ≤ (s.req 0).len / s.svP 0
      ∧ ((s.req 0).pages.take 1).any inBulkPool = false
      ∧ ((g.sv 0).handles.get { pages := [], chain := [] } 0).pages = [7] := by decide +kernel

/-! ### Witnesses of DomainRings -/

theorem test_ring_poll :
    let s := servingModule.withRegs [(sqCtrl 1, 0x9)]
    s.domRuns 1 = false ∧ bit (s.reg (sqCtrl 1)) 0 = true ∧ bit (s.reg (sqCtrl 1)) 8 = false ∧ s.enginesRun = true ∧ s.wedged 1 = false
      ∧ s.domRuns 0 = true := by
  decide +kernel
theorem test_ring_enable : ∀ n ∈ [4, 14],
    let s := servingModule.withRegs [(sqBase 0, 4096)]
    s.passes 0 (sqCtrl 0) = true ∧ s.fld (sqBase 0) 0 52 = 4096 ∧ bit (s.reg (sqCtrl 0)) 0 = false
      ∧ s.ownExclusive 0 4088 (8 + 128 * 2 ^ n) = true := by decide +kernel
/-- A module whose port `i` can send. -/
def portModule (s : State) : State := s.modPort 0 fun p => { p with mode := .up, reqCred := 2 }
theorem test_ring_event :
    let s := portModule { servingModule.withRegs [(Pg.dq 0 + 0x120, 9)] with evq := servingModule.evq.put 0 [{ part := some 3 }] }
    s.evq.get [] 0 = [{ part := some 3 }] ∧ s.eqRoom 0 = true ∧ s.portFor 0 = some 0 ∧ (s.port 0).mode = .up ∧ (s.port 0).queue = []
      ∧ 2 ≤ (s.port 0).reqCred ∧ servingModule.portFor 0 = none ∧ servingModule.relayOf 0 = none := by decide +kernel
theorem test_ring_token :
    let s := (portModule (servingModule.withRegs [(Pg.sv + 0x218, 0x8040000000000000)])).modSv 0 fun v => { v with buf := [zeros 32] }
    (s.sv 0).buf = [zeros 32] ∧ bit (s.reg (Pg.sv + 0x218)) 63 = true
      ∧ (2 ^ 32 + (s.sv 0).tprod - s.fld (Pg.sv + 0x220) 0 32) % 2 ^ 32 < 2 ^ bits (s.reg (Pg.sv + 0x218)) 52 5 ∧ (s.sv 0).commit = none
      ∧ (s.sv 0).owed = [] ∧ (zeros 32).length = 32 := by decide +kernel

/-! ### Witnesses of ServingSteps -/

theorem test_step_stage0 : ∀ x ∈ [true, false],
    let s := (servingModule.modPart 0 fun q => { q with replay := x }).modSv 0 fun v => { v with stage0 := true, batch := some {} }
    (s.sv 0).stage0 = true ∧ s.slotEnabled 0 = true ∧ (s.slot 0).mode ≠ .halted ∧ (s.part 0).mode = .active ∧ (s.part 0).replay = x
      ∧ (s.sv 0).batch = some {} ∧ s.replayRefused 0 = false := by decide +kernel
theorem test_step_merge :
    let s := servingModule.modSv 0 fun v => { v with batch := some {} }
    (s.sv 0).batch = some {} ∧ (s.pep 0).merged = false ∧ (s.sv 0).stage9 = false ∧ (s.slot 0).busy = true ∧ (s.pep 0).faulty = [] ∧ s.pepComplete 0 = true := by
  decide +kernel
theorem test_step_verdict :
    let s := (servingModule.withRegs [(igBlk 0 0x10, 0x1)]).setCtr 1 1
    s.absCtr 0 (s.fld (igBlk 0 0x10) 0 15) = some 1 ∧ 0 < s.ctr 1 ∧ s.enginesRun = true ∧ s.canonical = true
      ∧ s.absCtr 0 (s.fld (igBlk 0 0x10) 16 15) ≠ some 1 := by decide +kernel
theorem test_step_commit : ∀ n ∈ [0, 7],
    let s := (servingModule.modSv 0 fun v => { v with stage9 := true, batch := some {} }).modIg 0 fun g => { g with suspects := n }
    (s.part 0).mode = .active ∧ (s.sv 0).stage9 = true ∧ (s.sv 0).commit = none ∧ (s.sv 0).owed = []
      ∧ gateCommits (s.igMode 0 == 1) (s.part 0).run (s.verdict 0).1 (s.verdict 0).2 = true := by decide +kernel
/-- The verdict area of partition 0 holds one suspect; its run is `r`. -/
def suspectModule (r : Nat) : State :=
  ((servingModule.wrMem .ws 0 [1#8]).modSv 0 fun v => { v with stage9 := true, batch := some {} }).modPart 0 fun q => { q with run := r }
theorem test_step_withheld :
    gateCommits ((suspectModule 0).igMode 0 == 1) 0 ((suspectModule 0).verdict 0).1 ((suspectModule 0).verdict 0).2 = false
      ∧ (suspectModule 0).runMax 0 = 3 ∧ ((suspectModule 2).part 0).run = 2 ∧ ((suspectModule 2).part 0).mode = .active := by decide +kernel
/-- Entry 0 decodes; the batch at its commit holds it, with the result of its row. -/
def tokenModule (res : PepRes) : State :=
  let it : BItem := { req := 0, chunk := false, first := 1, n := 1, sample := true }
  ((requestModule.modReq 0 fun e => { e with mode := .decode, ntok := 1, len := 1, pages := [0], params := (someParams.set 4 9#8) }).modSv 0
    fun v => { v with stage9 := true, batch := some { items := [it] } }).modPep 0 fun q => { q with merged := true, results := [res] }
theorem test_step_token :
    let it : BItem := { req := 0, chunk := false, first := 1, n := 1, sample := true }
    let s := tokenModule { toks := [7] }
    let e := s.req 0
    e.mode = .decode ∧ (s.pep 0).results = [({ toks := [7] } : PepRes)] ∧ e.stops = none ∧ e.ntok + 1 < e.maxlen ∧ e.passed s.ct = false
      ∧ s.itemFail 0 0 it { items := [it] } { toks := [7] } = none ∧ (s.devWrite (e.hist + 4) (toLe 4 7)).2 = .ok
      ∧ s.itemFail 0 0 it { items := [it] } { status := 1 } = some .fault
      ∧ { s with seqBad := [(0, 0, .poison)] }.itemFail 0 0 it { items := [it] } { toks := [7] } = some .poison := by decide +kernel

/-! ### Witnesses of BulkTierAndPlacement -/

theorem test_epoch_free : bit (bulkModule.reg (Pg.bulk + 0x130)) 48 = false
    ∧ bit ((bulkModule.withRegs [(Pg.bulk + 0x130, 0x1000000000000)]).reg (Pg.bulk + 0x130)) 48 = true := by decide +kernel
theorem test_swap_at_last : bulkModule.bulk.swaps = [{ hot := 1, cold := 2, cursor := 31 }] ∧ bulkModule.boot.memStop = false
    ∧ bulkModule.rowNamed 1 = false ∧ bulkModule.rowNamed 2 = false ∧ servingModule.bulk.swaps = [] := by decide +kernel
theorem test_pin_free : bulkModule.passes 0 (Pg.bulk + 0x808) = true ∧ bulkModule.fld (Pg.bulk + 0x800) 0 21 = 0 ∧ 0 < bulkModule.units
    ∧ (match bulkModule.unitPart 0 with | some p => bulkModule.ownerOf p == 0 | none => false) = true
    ∧ bulkModule.unitReserved 0 = false ∧ bulkModule.unitMoving 0 = false ∧ (bulkModule.placed 0).bulk = false := by decide +kernel
theorem test_pin_moves :
    let s := bulkModule.modPlaced 3 fun p => { p with bulk := true }
    (s.withRegs [(Pg.bulk + 0x800, 3)]).fld (Pg.bulk + 0x800) 0 21 = 3 ∧ (s.placed 3).bulk = true ∧ s.unitReserved 3 = false
      ∧ s.unitMoving 3 = false ∧ s.unitPart 3 = s.unitPart 0 ∧ bits (0x800000 : Word) 22 2 = 2 ∧ bits (0xC00000 : Word) 22 2 = 3
      ∧ bulkModule.unitMoving 1 = true := by decide +kernel

/-! ### Witnesses of SpillsAndRetention -/

/-- A page copy from the stack pool to the bulk pool. -/
def someCopy : PageCopy := { part := 0, req := 0, index := 0, back := false, src := 0, dst := 0 }
theorem test_copy_under_way :
    let s := bulkModule.modBulk fun b => { b with copies := [someCopy] }
    s.bulk.copies = [someCopy] ∧ someCopy.finished = false ∧ s.boot.memStop = false ∧ (s.devRead (s.stackPage 0 0) (s.svFrame 0)).2.2 = .ok
      ∧ bulkModule.bulk.copies.all (fun c => c.finished) = true := by decide +kernel
/-- Entry 0 of partition 0 is retained until CT 0. -/
def keptModule : State :=
  (bulkModule.withRegs [(Pg.sv + 0x800, 0x4000000000)]).modReq 0 fun e => { e with mode := .retained, expiry := 0 }
theorem test_retention : keptModule.reqs.items = [(0, keptModule.req 0)] ∧ keptModule.partOfReq 0 = some 0
    ∧ (keptModule.req 0).mode = .retained ∧ (keptModule.req 0).huskPend = false
    ∧ (keptModule.req 0).expiry ≤ (keptModule.periodic 5 (1000 * usTicks)).ct := by decide +kernel

/-! ### Witnesses of LinkEffects -/

theorem test_link_regs : ∀ x ∈ [0, 1],
    let s := readyModule.withRegs [(Pg.lnk 95 + 0x100, BitVec.ofNat 64 x)]
    s.passes 0 (Pg.lnk 95 + 0x100) = true ∧ bit (s.reg (Pg.lnk 95 + 0x100)) 0 = (x == 1) ∧ (s.link 95).queue = [] := by decide +kernel
theorem test_link_modes : ∀ m ∈ [LinkMode.training, .up, .down],
    let s := (readyModule.withRegs [(Pg.lnk 95 + 0x100, 3)]).modLink 95 fun k => { k with mode := m, peerValid := true, pings := 16 }
    (s.link 95).mode = m ∧ (s.link 95).peerValid = true ∧ 16 ≤ (s.link 95).pings ∧ (s.link 95).queue = []
      ∧ bit (s.reg (Pg.lnk 95 + 0x100)) 0 = true ∧ bit (s.reg (Pg.lnk 95 + 0x100)) 1 = true := by decide +kernel
theorem test_link_flit :
    let f := zeros 252 ++ toLe 4 (crc32c (zeros 252)).toNat
    wfFlit f = true ∧ ({ mode := .up } : Link).takes f true = true ∧ ({ mode := .up } : Link).takes f false = false ∧ field f 1 1 % 2 = 0 := by
  have hl : (zeros 252).length = 252 := List.length_replicate
  have h := crc_after (zeros 252) 252 hl
  have h2 := field_before (zeros 252) (toLe 4 (crc32c (zeros 252)).toNat) (o := 248) (n := 2) (by omega)
  have h3 := field_before (zeros 252) (toLe 4 (crc32c (zeros 252)).toNat) (o := 1) (n := 1) (by omega)
  have e2 : field (zeros 252) 248 2 = 0 := by decide +kernel
  have e3 : field (zeros 252) 1 1 = 0 := by decide +kernel
  refine ⟨?_, ?_, rfl, ?_⟩
  · simp only [wfFlit, List.length_append, hl, toLe]; rfl
  · simp only [Link.takes]
    rw [h.1, h.2, h2, e2]
    generalize (crc32c (zeros 252)).toNat = c
    simp
  · show field _ 1 1 % 2 = 0
    rw [h3, e3]

/-! ### Witnesses of LinkExchanges -/

theorem test_exchange_link :
    let f := zeros 24 ++ toLe 8 (crc64 (zeros 24)).toNat
    let s := { readyModule with links := readyModule.links.put 0 { mode := .training } }
    wfFrame f = true ∧ frameSound f = true ∧ (s.link 0).mode = .training ∧ (s.link 0).pings < 16
      ∧ frameSound (zeros 24 ++ [1] ++ zeros 7) = false := by decide +kernel
theorem test_exchange_port : ∀ m ∈ [PortMode.training, .up],
    let s := readyModule.modPort 3 fun p => { p with mode := m }
    (s.port 3).mode = m ∧ wfBody (zeros 24) = true ∧ field [0, 0, 1] 2 1 = 1 := by decide +kernel

/-! ### Witnesses of FabricTraffic -/

theorem test_fabric_live : (readyModule.withRegs [(Pg.fab + 0x100, 0)]).joined = false
    ∧ (let s := (readyModule.withRegs [(Pg.fab + 0x100, 0x4C)]).modLink 0 fun k => { k with mode := .up }
       let b := [1] ++ zeros 23
       let f := b ++ toLe 8 (crc64 b).toNat
       s.joined = true ∧ wfFrame f = true ∧ frameSound f = true ∧ (s.link 0).mode = .up ∧ field f 0 1 % 64 ≠ s.boot.slotId
        ∧ (s.fabric.peers.get {} 1).lost = false ∧ (s.fabric.peers.get {} 1).epoch = none) := by decide +kernel
theorem test_fabric_lost :
    let s := readyModule.modFabric fun f => { f with peers := f.peers.put 63 { live := true } }
    (s.fabric.peers.get {} 63).live = true ∧ (s.fabric.peers.get {} 63).lost = false ∧ s.fabric.reqs = [] ∧ s.fabric.colls.items = []
      ∧ (∀ q < 16, s.slotEnabled q = false) := by decide +kernel
theorem test_fabric_message : ∀ k ∈ [MKind.write, MKind.read, MKind.signal, MKind.resp, MKind.relay, MKind.relayResp],
    let s := (servingModule.withRegs [(Pg.slot 0 + 0x030, 0x4000400000)]).modLink 95 fun l => { l with mode := .up }
    let b := [0, 1] ++ toLe 1 k ++ [1, 0, 0, 32, 0] ++ toLe 8 (if k = MKind.signal then 2 ^ 32 else 0) ++ zeros 32
    let m := Msg.ofBytes b
    wfMessage b = true ∧ s.comesHere 95 m k = true ∧ s.answeredAs m.src m.tag = none ∧ s.groupPart m.group = some 0 ∧ s.groupPart 0 = none
      ∧ m.len = 32 ∧ (k ≠ MKind.signal → s.devCheck (.part 0 false) (m.arg % 2 ^ 52) 32 true = .ok) ∧ (s.absCtr 0 0) = some 0 ∧ s.reqOf m = none
      ∧ 0 < s.fld (Pg.slot 0 + 0x030) 32 16 := by decide +kernel
theorem test_fabric_replica :
    let m : Msg := { dst := 0, src := 1, kind := MKind.read, group := 9, tag := 0, len := 32, arg := 0, data := [] }
    let s := servingModule.setReg (keyAt (Pg.ig + 0x188) 0) 0x1000000000000000
    s.groupPart m.group = none ∧ s.replicaHolds 0 32 = true ∧ servingModule.replicaHolds 0 32 = false
      ∧ s.comesHere 95 m MKind.read = false
      ∧ (s.modLink 95 fun l => { l with mode := .up }).comesHere 95 m MKind.read = true := by decide +kernel
theorem test_fabric_requests :
    let r : Req := { tag := 7, dst := 1, kind := 1, group := 1, arg := 0, data := [], len := 0, sentClk := 0, use := .record 0 }
    let s := readyModule.modFabric fun f => { f with reqs := [r] }
    s.fabric.reqs = [r] ∧ r.resent = false ∧ r.use = .record 0 ∧ s.nodeReqs = [] := by decide +kernel
theorem test_fabric_none : readyModule.fabric.reqs = [] ∧ readyModule.nodeReqs = [] := by decide +kernel

/-! ### Witnesses of CollectiveStarts -/

theorem test_coll_group :
    let s := (List.range 8).foldl (fun s w => s.stage 0 (gmemKey 0 w) (if w = 0 then 0xFFFFFFFFFFFFFF00 else BitVec.allOnes 64))
      (servingModule.withRegs [(Pg.fab + 0x100, 0x4C)])
    let mem := (List.range 8).flatMap fun w => toLe 8 (s.stagedOf 0 (gmemKey 0 w)).toNat
    s.passes 0 (Pg.fab + 0x208) = true ∧ s.fld (Pg.fab + 0x200) 0 6 = 0
      ∧ (mem.take 1).map BitVec.toNat = [0] ∧ 0 < s.clusterSize ∧ s.boot.slotId = 0 ∧ (∀ i < 4, (s.collQ i).mode = .idle) := by decide +kernel
theorem test_coll_arm : servingModule.passes 0 (Pg.fab + 0x808) = true ∧ (servingModule.collQ 0).mode = .idle
    ∧ servingModule.fld (Pg.fab + 0x800) 0 52 = 0 ∧ servingModule.devCheck (.part 0 false) 0 64 false = .ok
    ∧ (servingModule.devRead 0 64).2.2 = .ok ∧ (servingModule.collQ 0).inflight = [] := by decide +kernel
theorem test_coll_start : ∀ op ∈ [0, 1, 2, 5, 6, 7],
    let b := toLe 1 op ++ [if op ≤ 1 then 9 else 0] ++ zeros 32 ++ [1] ++ zeros 29
    let s := collModule fun c => { c with mode := .running, ents := [b] }
    (s.collQ 0).ents[(s.collQ 0).next]? = some b ∧ cOp b = op ∧ s.enginesRun = true ∧ (s.collQ 0).inflight = [] ∧ s.collCheck 0 b = .ok
      ∧ cGo b = false ∧ (∀ m ∈ (s.group (cRg b)).members, s.peerIsLost m = false) ∧ s.fabric.readys = [] ∧ cPeer b = (s.group (cRg b)).rank
      ∧ s.fabric.colls.items.length = 1 := by
  decide +kernel
/-- ALL_TO_ALL, and an entry that waits for its counter. -/
theorem test_coll_table :
    let b := [3, 0] ++ zeros 23 ++ [1] ++ zeros 2 ++ [1] ++ zeros 35
    let s := collModule fun c => { c with mode := .running, ents := [b] }
    cOp b = 3 ∧ cGo b = true ∧ s.absCtr 0 (field b 26 2) = some 0 ∧ field b 28 2 = 1 ∧ (s.settleWaits 0).ctr 0 = 0
      ∧ (s.settleWaits 0).collCheck 0 b = .ok ∧ ((s.setCtr 0 5).settleWaits 0).ctr 0 = 5
      ∧ (s.settleWaits 0).collCheck 0 (b.set 1 9#8) = .access := by decide +kernel
/-- SEND to itself, a lost member, and a signal to another rank over a link. -/
theorem test_coll_peers :
    let b := [6, 0] ++ zeros 22 ++ [1] ++ zeros 9 ++ [1] ++ zeros 29
    let s := ((collModule fun c => { c with mode := .running, ents := [b] }).modGroup 0 fun g => { g with members := [0, 1] }).modLink 0
      fun k => { k with mode := .up }
    cOp b = 6 ∧ cPeer b = 1 ∧ s.collCheck 0 b = .ok ∧ (s.group 0).members.getD 1 0 = 1 ∧ s.routeLink 1 = (s, some 0)
      ∧ s.collCheck 0 ([4, 0] ++ zeros 62) = .ok
      ∧ (s.modFabric fun f => { f with peers := f.peers.put 1 { lost := true } }).peerIsLost 1 = true := by decide +kernel

/-! ### Witnesses of CollectiveWork -/

theorem test_coll_ready :
    let b := zeros 24
    let f := b ++ toLe 8 (crc64 b).toNat
    let s := collModule id |>.modLink 0 fun k => { k with mode := .up }
    let r := ReadyRec.ofBody f
    wfFrame f = true ∧ frameSound f = true ∧ (s.link 0).mode = .up ∧ s.boot.slotId = 0
      ∧ s.matching r.group r.ptp r.rank r.seq (if r.ptp then 4 else r.op) = [] := by decide +kernel
theorem test_coll_complete :
    let e : CollEnt := { ix := 0, ent := [7, 9] ++ zeros 62, op := 7 }
    let s := collModule fun c => { c with mode := .running, inflight := [e], next := 1 }
    (s.collQ 0).inflight = [e] ∧ s.entDone e = true ∧ s.matching 0 false 0 0 0 = [(0, e)] ∧ cDone e.ent = false := by decide +kernel
theorem test_coll_combine :
    let e : CollEnt := { ix := 0, op := 1, ent := [1, 9, 0, 0] ++ toLe 4 0 ++ toLe 4 0x1000 ++ toLe 4 0x2000 ++ toLe 4 64 ++ zeros 44
                         got := [((1, 0), 32, [(0, 32)]), ((1, 1), 32, [(0, 32)])], sent := [(1, 0), (1, 1)] }
    let s := (collModule fun c => { c with mode := .running, inflight := [e], next := 1 }).modGroup 0 fun g => { g with members := [0, 1] }
    s.cEa 0 e.ent 12 = some ⟨false, 0, 0x2000⟩ ∧ s.cEa 0 e.ent 8 = some ⟨false, 0, 0x1000⟩ ∧ s.absSlice 0 0 = some 0 ∧ cLen e.ent = 64
      ∧ s.canonical = true ∧ e.fin.isNone = true ∧ nbits s.retired 0 1 = 0 ∧ s.pairedTwin 0 = none
      ∧ s.eaWritable ⟨false, 0, 0x1000⟩ 32 = true := by decide +kernel

/-! ### Witnesses of PortEffects -/

theorem test_port_regs : ∀ x ∈ [0, 1],
    let s := readyModule.withRegs [(Pg.port 3 + 0x100, BitVec.ofNat 64 x)]
    s.passes 0 (Pg.port 3 + 0x100) = true ∧ bit (s.reg (Pg.port 3 + 0x100)) 0 = (x == 1) ∧ (s.port 3).owes = []
      ∧ (∀ j < 4, (s.port j).queue = []) := by decide +kernel
theorem test_port_modes : ∀ m ∈ [PortMode.training, .up, .down],
    let s := (readyModule.withRegs [(Pg.port 3 + 0x100, 3)]).modPort 3 fun p => { p with mode := m, identOk := true, delays := List.replicate 16 5 }
    (s.port 3).mode = m ∧ (s.port 3).identOk = true ∧ 16 ≤ (s.port 3).delays.length ∧ (∀ j < 4, (s.port j).queue = [])
      ∧ (s.port 3).owes = [] ∧ bit (s.reg (Pg.port 3 + 0x100)) 1 = true := by decide +kernel
theorem test_port_frame :
    let f := zeros 508 ++ toLe 4 (crc32c (zeros 508)).toNat
    wfPortFrame f = true ∧ ({ mode := .up } : Port).takes f true = true ∧ ({ mode := .up } : Port).takes f false = false
      ∧ field f 0 1 / 4 % 2 = 0 := by
  have hl : (zeros 508).length = 508 := List.length_replicate
  have h := crc_after (zeros 508) 508 hl
  have h2 := field_before (zeros 508) (toLe 4 (crc32c (zeros 508)).toNat) (o := 6) (n := 2) (by omega)
  have h3 := field_before (zeros 508) (toLe 4 (crc32c (zeros 508)).toNat) (o := 0) (n := 1) (by omega)
  have e2 : field (zeros 508) 6 2 = 0 := by decide +kernel
  have e3 : field (zeros 508) 0 1 = 0 := by decide +kernel
  refine ⟨?_, ?_, rfl, ?_⟩
  · simp only [wfPortFrame, List.length_append, hl, toLe]; rfl
  · simp only [Port.takes]
    rw [h.1, h.2, h2, e2]
    generalize (crc32c (zeros 508)).toNat = c
    simp
  · show field _ 0 1 / 4 % 2 = 0
    rw [h3, e3]

/-! ### Witnesses of NodeRequests -/

theorem test_node : ∀ op ∈ [1, 2, 3, 4, 5, 6],
    let b := toLe 1 op ++ zeros 3 ++ toLe 2 (if op = 2 then 8 else if op = 1 ∨ op = 6 then 0 else 32) ++ zeros 10 ++ zeros (if op = 2 then 8 else if op = 4 then 32 else 0)
    let s := (servingModule.withRegs [(Pg.port 0 + 0x100, 0x41)]).modPort 0 fun p => { p with mode := .up }
    let t := Trans.ofBytes b
    wfRequest b = true ∧ (s.port 0).mode = .up ∧ t.op = op ∧ s.portDomain 0 = some 0 ∧ s.wedged 0 = false ∧ s.attached 0 = true
      ∧ t.dst % 64 = s.boot.slotId ∧ (op < 5 → t.clean = true) ∧ t.addr = 0 ∧ s.boot.phase = .ready ∧ s.nodeReqs = []
      ∧ (op = 3 ∨ op = 4 → s.memCheck 0 t (op == 4) = .ok ∧ t.len ≠ 0) := by decide +kernel
theorem test_node_stops : (readyModule.port 0).mode ≠ .up ∧ readyModule.portDomain 1 = none
    ∧ (let s := (servingModule.withRegs [(Pg.port 0 + 0x100, 0xC1), (Pg.fab + 0x100, 0x4C)]).modPort 0 fun p => { p with mode := .up }
       bit (s.reg (Pg.port 0 + 0x100)) 7 = true ∧ s.joined = true ∧ 3 < s.clusterSize) := by decide +kernel

/-! ### Witnesses of MailboxCommands -/

/-- A module whose mailbox of D0 holds a command, its buffer at 0x10000 with `n` bytes. -/
def mailModule (op n : Nat) : State := servingModule.withRegs [(Pg.mb 0 + 0x100, BitVec.ofNat 64 op), (Pg.mb 0 + 0x108, 0x10000), (Pg.mb 0 + 0x110, BitVec.ofNat 64 n)]
theorem test_mail : ∀ x ∈ [(0x01, MbOp.logRead), (0x02, .attest), (0x03, .certRead), (0x10, .fwStage), (0x11, .fwActivate), (0x20, .reset)],
    let s := mailModule x.1 512
    s.mbOp 0 = some x.2 ∧ s.passes 0 (Pg.mb 0 + 0x118) = true ∧ (s.mbox 0).mode ≠ .busy ∧ s.coresRun = true ∧ s.isReady = true
      ∧ s.mbBufOk 0 = true ∧ s.ident.pending = false ∧ s.canonical = true ∧ (s.devRead 0x10000 64).2.2 = .ok
      ∧ s.logOf 0 = [] ∧ (s.devWrite 0x10000 []).2 = .ok := by decide +kernel
theorem test_mail_record : (servingModule.withRegs [(Pg.mb 0 + 0x100, 0x8000000000000010)]).mbOp 0 = some .recordStage
    ∧ servingModule.ident.recCopy < 2 ∧ (mailModule 0x99 512).mbOp 0 = none := by decide +kernel
theorem test_mail_busy : ∀ x ∈ [true, false],
    let s := readyModule.modMbox 3 fun m => { m with mode := .busy, closing := x }
    (s.mbox 3).mode = .busy ∧ (readyModule.mbox 3).mode ≠ .busy ∧ (s.mbox 3).closing = x := by decide +kernel

/-! ### Witnesses of IntegrityWork -/

theorem test_ig_image : readyModule.passes 0 (Pg.ig + 0x158) = true ∧ aligned (readyModule.fld (Pg.ig + 0x150) 0 52) 64 = true
    ∧ field (readyModule.devPeek 0 256) 0 2 ≠ 1 := by decide +kernel
theorem test_ig_start :
    let s := servingModule.withRegs [(Pg.ig + 0x108, 0x1000000)]
    bit (s.reg (Pg.ig + 0x108)) 24 = true ∧ s.enginesRun = true ∧ nbits s.retired 15 1 = 0 ∧ (s.screens.get {} 15).testing = none
      ∧ (s.seq 15).mode = .idle ∧ (s.seq 15).starts = [] ∧ s.queuesEmpty 15 511 = true ∧ (s.screens.get {} 15).passes = 0
      ∧ s.idleEnd 15 = some (s.clk + dayTicks) ∧ s.cycTicks 65536 ≤ dayTicks := by decide +kernel
theorem test_ig_test : ∀ n ∈ [0, 1],
    let s := { readyModule with screens := readyModule.screens.put 15 { testing := some (5, 100), passes := n } }
    (s.screens.get {} 15).testing = some (5, 100) ∧ (s.screens.get {} 15).passes = n ∧ (s.screens.get {} 15).transients = []
      ∧ s.partOfSlice 15 = none ∧ shake256 [] 16 ≠ zeros 16 := by decide +kernel
theorem test_ig_repair :
    let s := { readyModule with repairs := [{ addr := 0, clk := 0, region := 0 }] }
    wfAnswers [] = true ∧ (s.repairs.take 16)[0]? = some { addr := 0, clk := 0, region := 0 } ∧ (s.repairs.take 16)[1]? = none
      ∧ s.unitMoving 0 = false ∧ s.hasSource 0 = false := by decide +kernel
theorem test_ig_digest :
    let s := servingModule.withRegs [(keyAt (Pg.ig + 0x1A0) 0, 1)]
    bit (s.reg (keyAt (Pg.ig + 0x1A0) 0)) 0 = true ∧ (s.memRegion 0).mode = 1 ∧ (s.memRegion 0).count = 16 ∧ s.enginesRun = true
      ∧ s.digests.recheck = [] := by decide +kernel

/-! ### Witnesses of IntegrityModeWrites -/

theorem test_igmode_free : readyModule.passes 0 (igBlk 15 0) = true ∧ (readyModule.part 15).mode = .free ∧ bits 2#64 0 2 < 3 := by
  decide +kernel
theorem test_igmode_active :
    ({ readyModule with parts := readyModule.parts.put 0 { mode := .active } }).passes 0 (igBlk 0 0) = true
    ∧ (({ readyModule with parts := readyModule.parts.put 0 { mode := .active } }).part 0).mode ≠ .free
    ∧ (({ readyModule with parts := readyModule.parts.put 0 { mode := .active } }).part 0).mode ≠ .config := by decide +kernel

/-! ### Witnesses of BootEffects -/

theorem test_boot : State.reset.boot.phase = .held ∧ State.reset.boot.pwrGood = true
    ∧ (State.reset.modBoot fun b => { b with phase := .unpowered, pwrGood := false }).boot.phase = .unpowered
    ∧ (State.reset.modBoot fun b => { b with armed := true }).boot.armed = true
    ∧ (∀ f ∈ [BootPhase.rom, .cores, .powered, .stkTrained, .stkReady, .bulkTrained, .maceDone, .bulkZeroed, .ready, .fwFault],
      (State.reset.modBoot fun b => { b with phase := f }).boot.phase = f
        ∧ (State.reset.modBoot fun b => { b with phase := f }).loopsRun = true) := by decide +kernel
theorem test_boot_lanes : readyModule.stackFitted 11 = true ∧ 2 < [1, 18, 3, 3].eraseDups.length ∧ State.reset.loopsRun = false
    ∧ readyModule.ident.bulk = true ∧ State.reset.ident.bulk = false := by decide +kernel

/-! ### Witnesses of PowerLoops -/

theorem test_power : readyModule.loopsRun = true ∧ State.reset.loopsRun = false ∧ (servingModule.time.running = true)
    ∧ readyModule.power.emergUntil = none ∧ (readyModule.modPower fun p => { p with emergUntil := some 5 }).power.emergUntil = some 5
    ∧ readyModule.power.step = readyModule.power.target
    ∧ (readyModule.modPower fun p => { p with step := 15 }).power.step < 16 ∧ readyModule.boundPending 0 = false
    ∧ (readyModule.modPower fun p => { p with temps := p.temps.put 23 (105 * 16) }).power.hottest = some (105 * 16, 23)
    ∧ (readyModule.modPower fun p => { p with missed := p.missed.put 23 7 }).power.missed.get 0 23 + 1 = 8 ∧ readyModule.boot.phase ≠ .romFault := by
  decide +kernel

/-! ### Witnesses of BoardManagement -/

theorem test_smb :
    let s := readyModule.modBoot fun b => { b with resetLow := true, flashAddr := 0x30FFFE0 }
    s.boot.pwrGood = true ∧ s.boot.resetLow = true ∧ s.boot.flashBusy = false ∧ s.boot.flashAddr < 0x3100000 ∧ s.power.vin = none
      ∧ s.power.samples = [] ∧ s.power.coolant = none ∧ s.canonical = true
      ∧ ((s.modBoot fun b => { b with flashOp := some (0x30F0000, []) }).boot.flashOp = some (0x30F0000, [])) := by decide +kernel

/-! ### Witnesses of TimeAndCadenceFrames -/

theorem test_frames_130 : ∀ c ∈ ([.ackReceive 0 (zeros 32), .schedCursorResume 0, .markEffect 0, .frameResend] : List Instr),
    (match exec c readyModule with | .next _ => true | _ => false) = true := by decide +kernel

/-! ### Witnesses of SequencerFrames -/

theorem test_frames_131 : ∀ c ∈ ([.startHoldRelease 0, .fenceResume 0, .pmLoadStart 0, .abortComplete 0, .programStart 0, .pmLoadDone 0, .startStall 0] : List Instr),
    (match exec c readyModule with | .next _ => true | _ => false) = true := by decide +kernel

/-! ### Witnesses of EngineFrames -/

theorem test_frames_132 : ∀ c ∈ ([.starveLong 0 0, .trapTimeout 0 0] : List Instr),
    (match exec c readyModule with | .next _ => true | _ => false) = true := by decide +kernel

/-! ### Witnesses of TransferAndMemoryFrames -/

theorem test_frames_133 : ∀ c ∈ ([.refreshDue 0 0 0 16, .placementEpoch, .swapPieceDone, .spillCopyDone, .rowOpComplete 0 0] : List Instr),
    (match exec c readyModule with | .next _ => true | _ => false) = true := by decide +kernel

/-! ### Witnesses of ServingAndPartitionFrames -/

theorem test_frames_134 : ∀ c ∈ ([.verdictWrite 0, .pepperMerge 0, .wedgeTimeout 0, .releaseScrubDone 0] : List Instr),
    (match exec c readyModule with | .next _ => true | _ => false) = true := by decide +kernel

/-! ### Witnesses of FabricAndNodeFrames -/

theorem test_frames_135 : ∀ c ∈ ([.pingReceive (.link 0) (zeros 32), .autoRetrain 0, .pongReceive (.link 0) (zeros 32), .portFrameReceive 0 (zeros 512) false 0] : List Instr),
    (match exec c readyModule with | .next _ => true | _ => false) = true := by decide +kernel

/-! ### Witnesses of ModuleFrames -/

theorem test_frames_136 : ∀ c ∈ ([.maceTestStart 0 0 0, .modState true, .inputV true, .tempCool true none, .powerUp, .dieSensorMiss 0] : List Instr),
    (match exec c readyModule with | .next _ => true | _ => false) = true := by decide +kernel

end Sys2Proof.Machine
end

section
/-! PROOFS. Register writes: the writes turned away by the checks before the page's own, and the registers that store or stage the bits
they define (R9, R10, R361, R426, R438). -/

namespace Sys2Proof.Machine

/-! ### What a register's key is -/

/-- `PL_SEL` is no register of a selected object. -/
theorem State.regKey_bulkSelect (s : State) : s.regKey (Pg.bulk + 0x158) = Pg.bulk + 0x158 := rfl

/-- `IG_SEL` is no register of a selected object. -/
theorem State.regKey_igSelect (s : State) : s.regKey (Pg.ig + 0x180) = Pg.ig + 0x180 := rfl

/-- The select register of the check entries is no register of a selected object. -/
theorem State.regKey_checkSelect (s : State) : s.regKey (Pg.ig + 0x800) = Pg.ig + 0x800 := rfl

/-- The range of a region is the selected region's. -/
theorem State.regKey_regionRange (s : State) :
    s.regKey (Pg.sec + 0x808) = keyAt (Pg.sec + 0x808) (s.fld (Pg.sec + 0x800) 0 6) := rfl

/-! ### Writes the checks turn away -/

/-- A write that fails the checks of every access ends with ACCESS (R9, R426). -/
theorem State.regWrite_refused {s : State} {dom addr : Nat} (h : s.accessOk dom addr true = false) (v : Word) :
    s.regWrite dom addr v = s.ends .access := by
  simp [State.regWrite, h]

/-- A write to an absent unit's page has no effect (R5). -/
theorem State.regWrite_absent {s : State} {dom addr : Nat} (h : s.accessOk dom addr true = true)
    (hf : s.pageFitted (pageOf addr) = false) (v : Word) : s.regWrite dom addr v = s.ends .ok := by
  simp [State.regWrite, h, hf]

/-- A write to a register outside the sender's view, or to the steward's alone, ends with ACCESS (R361). -/
theorem State.regWrite_unseen {s : State} {dom addr : Nat} (h : s.accessOk dom addr true = true)
    (hf : s.pageFitted (pageOf addr) = true) (hv : s.reaches dom addr = false ∨ (dom ≠ 0 ∧ stewardOnly addr = true))
    (v : Word) : s.regWrite dom addr v = s.ends .access := by
  rcases hv with hv | ⟨hd, hs⟩
  · simp [State.regWrite, h, hf, hv]
  · simp [State.regWrite, h, hf, hd, hs]

/-! ### Writes that store or stage -/

/-- The registers with no check of their own, each with its defined bits: the select registers of every page, the domain's shared limit and
the trap limit. -/
def plainRegs (k : Fin 16) (e : Fin 40) (d : Fin 4) : List (Nat × Nat) :=
  [(Pg.ws k + 0x100, 0xF), (Pg.vec k + 0x128, 0xF), (Pg.qnt k + 0x108, 0x1F), (Pg.qnt k + 0x148, 0xF0F),
   (Pg.qnt k + 0x178, 0xFFFF), (Pg.xe e + 0x108, 0x3F), (Pg.stkCommon + 0x100, 0xF), (Pg.bulk + 0x158, 0xF),
   (Pg.sv + 0x118, 0x3F), (Pg.fab + 0x200, 0x3F), (Pg.ig + 0x180, 0x3F), (Pg.ig + 0x800, 0x1FF),
   (Pg.sec + 0x800, 0x3F), (Pg.dm d + 0x110, 0xFFFF)]

/-- Such a register stores the bits it defines (R10). -/
theorem State.regWrite_plain {s : State} {dom : Nat} {k : Fin 16} {e : Fin 40} {d : Fin 4} {r : Nat × Nat}
    (hr : r ∈ plainRegs k e d) (h : s.passes dom r.1 = true) (v : Word) : s.regWrite dom r.1 v = s.store r.1 r.2 v := by
  simp only [plainRegs, List.mem_cons, List.not_mem_nil, or_false] at hr
  rcases hr with rfl | rfl | rfl | rfl | rfl | rfl | rfl | rfl | rfl | rfl | rfl | rfl | rfl | rfl
  · simp [State.regWrite_ws h k.isLt, State.wsWrite]
  · simp [State.regWrite_vec h k.isLt, State.vecWrite]
  · simp [State.regWrite_qnt h k.isLt, State.qntWrite]
  · simp [State.regWrite_qnt h k.isLt, State.qntWrite]
  · simp [State.regWrite_qnt h k.isLt, State.qntWrite]
  · simp [State.regWrite_xe h e.isLt, State.xeWrite]
  · simp [State.regWrite_stkCommon h, State.stkCommonWrite]
  · simp [State.regWrite_bulk h, State.bulkWrite, State.regKey_bulkSelect]
  · simp [State.regWrite_sv h, State.svWrite]
  · simp [State.regWrite_fab h, State.fabWrite]
  · simp [State.regWrite_ig h, State.igWrite, State.regKey_igSelect]
  · simp [State.regWrite_ig h, State.igWrite, State.regKey_checkSelect]
  · simp [State.regWrite_sec h, State.secWrite]
  · simp [State.regWrite_dm h d.isLt, State.dmPageWrite]

/-- The range of the selected region is staged for the domain that writes it (R438). -/
theorem State.regWrite_regionRange {s : State} {dom : Nat} (h : s.passes dom (Pg.sec + 0x808) = true) (v : Word) :
    s.regWrite dom (Pg.sec + 0x808) v
      = (s.stage dom (keyAt (Pg.sec + 0x808) (s.fld (Pg.sec + 0x800) 0 6)) (v &&& word (fmask 0 21 + fmask 32 21))).ends .ok := by
  simp [State.regWrite_sec h, State.secWrite, State.stageAt, State.regKey_regionRange]

/-- REG_WRITE is the register write (R437). -/
theorem exec_regWrite (dom : Fin 4) (addr : Nat) (v : Word) (s : State) :
    exec (.regWrite dom addr v) s = .next (s.regWrite dom addr v) := rfl

/-- Settles O10: the checks before the page's own turn a write away, and past them a plain register stores its defined bits and a region's
range is staged. -/
theorem registerWriteEffects : Obligations.RegisterWriteEffects := by
  intro s dom v
  simp only [exec_regWrite, Host.Outcome.next.injEq]
  refine ⟨fun addr h => ?_, fun addr h hf => ?_, fun addr h hf hv => ?_, fun k e d r hr h => ?_, fun h => ?_⟩
  · exact State.regWrite_refused h v
  · exact State.regWrite_absent h hf v
  · exact State.regWrite_unseen h hf hv v
  · exact State.regWrite_plain hr h v
  · exact State.regWrite_regionRange h v

end Sys2Proof.Machine
end

section
/-! PROOFS. Power, reset and boot: what a module reset keeps, what the mask ROM can come to, each boot step, and the ways into the two FAULT
states (R4, R466-R468, R475-R477, R499, R501-R504). -/

namespace Sys2Proof.Machine

/-! ### Reads after the updates boot makes -/

theorem lookupD_map {α β : Type} (f : α → β) (d : α) (k : Nat) (l : List (Nat × α)) :
    lookupD (f d) k (l.map fun e => (e.1, f e.2)) = f (lookupD d k l) := by
  induction l with
  | nil => rfl
  | cons e l ih =>
    simp only [List.map_cons, lookupD, ih]
    split <;> rfl

/-- An entry of a table whose entries have all been changed alike, where the default stays the default. -/
theorem Tab.get_mapVals {α β : Type} (t : Tab α) (f : α → β) (d : α) (k : Nat) : (t.mapVals f).get (f d) k = f (t.get d k) :=
  lookupD_map f d k t.items

@[simp] theorem State.clk_waitClk (s : State) (due : Nat) : (s.waitClk due).clk = max s.clk due := by
  simp only [State.waitClk, State.advance]
  omega

theorem State.link_modLink (s : State) (l j : Nat) (f : Link → Link) :
    (s.modLink l f).link j = if j = l then f (s.link l) else s.link j := Tab.get_put ..

theorem State.port_modPort (s : State) (i j : Nat) (f : Port → Port) :
    (s.modPort i f).port j = if j = i then f (s.port i) else s.port j := Tab.get_put ..

/-- A port that starts training, and every other as it was (R406, R409). -/
theorem State.port_portTrain (s : State) (i j : Nat) :
    (s.portTrain i).port j = if j = i then (s.port i).trains s.clk else s.port j :=
  State.port_modPort s i j fun p => p.trains s.clk

theorem State.stack_modStack (s : State) (i j : Nat) (f : Stack → Stack) :
    (s.modStack i f).stack j = if j = i then f (s.stack i) else s.stack j := Tab.get_put ..

/-- A record in the error log touches FAULT_N alone of the boot state (R503). -/
theorem State.logErr_boot (s : State) (e : ErrRec) (ds : List Nat) :
    (s.logErr e ds).boot = if e.sev = 4 then { s.boot with faultN := true } else s.boot := rfl

theorem State.logErr_phase (s : State) (e : ErrRec) (ds : List Nat) : (s.logErr e ds).boot.phase = s.boot.phase := by
  rw [State.logErr_boot]; split <;> rfl

/-- A command that leaves the module out of firmware FAULT and the bulk tier unfailed takes nothing more with it. -/
theorem State.afterLoss_of_no_loss {s t : State} (hp : t.boot.phase ≠ .fwFault) (hb : t.bulk.mode = .failed → s.bulk.mode = .failed) :
    t.afterLoss s = t := by
  simp only [State.afterLoss, hp, false_and, if_false]
  exact if_neg fun h => h.2 (hb h.1)

/-! ### Firmware FAULT (R477) -/

/-- A link put OFF. -/
def State.linkOff (s : State) (l : Nat) : State := if (s.link l).mode = .off then s else s.modLink l fun k => { k with mode := .off }

theorem State.linkOff_mode (s : State) (l j : Nat) : ((s.linkOff l).link j).mode = if j = l then .off else (s.link j).mode := by
  by_cases h : (s.link l).mode = .off
  · simp only [State.linkOff, h, if_true]
    split
    · next hj => rw [hj, h]
    · rfl
  · simp only [State.linkOff, h, if_false, State.link_modLink]
    split <;> rfl

theorem State.foldl_linkOff_mode (ls : List Nat) (j : Nat) :
    ∀ s : State, ((ls.foldl State.linkOff s).link j).mode = if j ∈ ls then .off else (s.link j).mode := by
  induction ls with
  | nil => simp
  | cons l ls ih =>
    intro s
    rw [List.foldl_cons, ih, State.linkOff_mode]
    by_cases h1 : j ∈ ls <;> by_cases h2 : j = l <;> simp [h1, h2]

/-- Every link is OFF after `linksOff`. -/
theorem State.linksOff_mode (s : State) {l : Nat} (hl : l < 96) : (s.linksOff.link l).mode = .off := by
  have h : s.linksOff = (List.range 96).foldl State.linkOff s := rfl
  rw [h, State.foldl_linkOff_mode, if_pos (List.mem_range.2 hl)]

@[simp] theorem State.linksOff_boot (s : State) : s.linksOff.boot = s.boot :=
  (does_linksOff (m := 562949953421312) rfl (.refl _ s)).frame .boot rfl

/-- What firmware FAULT is: FAULT_N asserted, every peer link OFF (R477). -/
structure State.inFwFault (t : State) : Prop where
  phase : t.boot.phase = .fwFault
  fault : t.boot.fault = .fault
  faultN : t.boot.faultN = true
  links : ∀ l < 96, (t.link l).mode = .off

/-- A module in neither FAULT state goes into firmware FAULT. -/
theorem State.fwFault_inFwFault {s : State} (h1 : s.boot.phase ≠ .fwFault) (h2 : s.boot.phase ≠ .romFault) :
    (s.fwFault .fault).inFwFault := by
  simp only [State.fwFault, h1, h2, or_self, if_false]
  exact ⟨by simp [State.modBoot], by simp [State.modBoot], by simp [State.modBoot], fun l hl => State.linksOff_mode _ hl⟩

/-- Firmware FAULT does not restart stopped memory traffic. -/
theorem State.fwFault_memStop (s : State) (st : Status) : (s.fwFault st).boot.memStop = s.boot.memStop := by
  unfold State.fwFault
  split <;> simp [State.modBoot]

/-- Entering firmware FAULT touches the boot state and the links alone. -/
theorem State.fwFault_frame (s : State) (st : Status) : s.onlyChanges [.boot, .links] (s.fwFault st) :=
  onlyChanges_of (does_fwFault (m := 562949953421376) rfl (.refl _ s)) (by decide)

/-- A unit that fails bring-up brings the module into firmware FAULT. -/
theorem State.bootFail_inFwFault {s : State} (h1 : s.boot.phase ≠ .fwFault) (h2 : s.boot.phase ≠ .romFault) (cls inst chan : Nat) :
    (s.bootFail cls inst chan).inFwFault :=
  State.fwFault_inFwFault (by rwa [State.logErr_phase]) (by rwa [State.logErr_phase])

theorem State.bootFail_frame (s : State) (cls inst chan : Nat) :
    s.onlyChanges [.boot, .links, .log, .logNext, .free] (s.bootFail cls inst chan) :=
  onlyChanges_of (does_bootFail (m := 18447307023666118720) rfl (.refl _ s)) (by decide)

/-! ### Module resets (R466, R468, R499, R501) -/

/-- A full reset of the module: cause and WCOUNT latched, the flash and the sender's record kept, all else at its reset value (R466, R468). -/
def State.resetTo (s t : State) (cause wcount : Nat) : Prop :=
  t.boot.cause = cause ∧ t.boot.wcount = wcount ∧ t.clk = 0 ∧ t.regs = State.reset.regs ∧ t.parts = {} ∧ t.links = {} ∧ t.reqs = {}
    ∧ t.seqs = {} ∧ t.log = [] ∧ t.out = s.out ∧ t.free = s.free ∧ t.pending = s.pending
    ∧ t.mem = s.mem.filter fun c => decide (8 * 2 ^ 60 ≤ c.1)

/-- A module reset is one, from every state with the same flash and record. -/
theorem State.moduleReset_resetTo {s u : State} (hm : u.mem = s.mem) (ho : u.out = s.out) (hf : u.free = s.free)
    (hp : u.pending = s.pending) (cause wcount : Nat) : s.resetTo (u.moduleReset cause wcount) cause wcount := by
  refine ⟨rfl, rfl, rfl, rfl, rfl, rfl, rfl, rfl, rfl, ho, hf, hp, ?_⟩
  rw [← hm]; rfl

theorem State.powerUp_unpowered {s : State} (h : s.boot.phase = .unpowered) :
    s.powerUp.boot.phase = .held ∧ s.powerUp.boot.pwrGood = true ∧ s.resetTo s.powerUp 0 0 := by
  simp only [State.powerUp, h, if_true]
  exact ⟨rfl, rfl, State.moduleReset_resetTo rfl rfl rfl rfl 0 0⟩

theorem State.inputFault_resets (s : State) :
    s.inputFault.boot.phase = .unpowered ∧ s.inputFault.boot.pwrGood = false ∧ s.inputFault.boot.flashBusy = false
      ∧ s.resetTo s.inputFault 0 0 :=
  ⟨rfl, rfl, rfl, State.moduleReset_resetTo (u := s.modBoot fun b => { b with pwrGood := false }) rfl rfl rfl rfl 0 0⟩

theorem State.resetPin_running {s : State} (hg : s.boot.pwrGood = true) (h : s.boot.phase ≠ .held) :
    s.resetPin.boot.phase = .held ∧ s.resetPin.boot.resetLow = true ∧ s.resetTo s.resetPin 1 s.boot.wcount := by
  simp only [State.resetPin, hg, h, ne_eq, not_false_eq_true, and_self, if_true]
  exact ⟨rfl, rfl, State.moduleReset_resetTo rfl rfl rfl rfl 1 _⟩

theorem State.resetPin_idle {s : State} (h : s.boot.pwrGood = false ∨ s.boot.phase = .held) :
    s.resetPin = s.modBoot fun b => { b with resetLow := true } := by
  rcases h with h | h <;> simp [State.resetPin, h]

theorem State.watchdog_armed {s : State} (h : s.boot.armed = true) :
    s.watchdog.boot.phase = .held ∧ s.resetTo s.watchdog 3 (min 3 (s.boot.wcount + 1)) := by
  simp only [State.watchdog, h, if_true, State.waitClk_boot]
  exact ⟨rfl, State.moduleReset_resetTo (by simp) (by simp) (by simp) (by simp) 3 _⟩

/-! ### The mask ROM (R467, R475, R477) -/

/-- ROM FAULT: port 0 is UP and FAULT_N asserted (R477). -/
theorem State.romFault_enters (s : State) :
    (s.romFault .fault).boot.phase = .romFault ∧ (s.romFault .fault).boot.fault = .fault ∧ (s.romFault .fault).boot.faultN = true
      ∧ ((s.romFault .fault).port 0).mode = .up :=
  ⟨rfl, rfl, rfl, by simp [State.romFault, State.port_modPort]⟩

/-- Cores not started within 200 ms of the release end the boot in ROM FAULT (R467). -/
theorem State.romTimeout_rom {s : State} (h : s.boot.phase = .rom) :
    s.romTimeout.clk = max s.clk (200000 * usTicks) ∧ s.romTimeout.boot.phase = .romFault ∧ s.romTimeout.boot.faultN = true
      ∧ (s.romTimeout.port 0).mode = .up := by
  rw [State.romTimeout, if_pos h]
  obtain ⟨hphase, -, hpin, hport⟩ := (s.waitClk (200000 * usTicks)).romFault_enters
  exact ⟨s.clk_waitClk _, hphase, hpin, hport⟩

/-- The cores of a verified image started: the watchdog is armed and port 0 trains (R475). -/
def State.startCores (s : State) : State :=
  ((s.modBoot fun b => { b with phase := .cores, armed := true, beatClk := s.clk, cores := 0xFF }).setFld (Pg.port 0 + 0x100) 0 1 1).portTrain 0

/-- What the ROM can come to: ROM FAULT, or with fewer than three watchdog resets the cores started. -/
def State.romEnds (s t : State) : Prop :=
  (∃ i, t = { s with ident := i }.romFault .fault) ∨ (s.boot.wcount < 3 ∧ ∃ i m, t = { s with ident := i, mace := m }.startCores)

theorem State.romBoot_ends (s : State) : s.romEnds s.romBoot := by
  unfold State.romBoot
  dsimp only
  split
  · split
    · exact .inl ⟨_, rfl⟩
    · refine iteInduction (motive := s.romEnds) (fun _ => .inl ⟨_, rfl⟩) fun _ => ?_
      refine iteInduction (motive := s.romEnds) (fun _ => .inl ⟨_, rfl⟩) fun hw => ?_
      refine iteInduction (motive := s.romEnds) (fun _ => .inl ⟨_, rfl⟩) fun _ => ?_
      exact .inr ⟨Nat.lt_of_not_le hw, _, _, rfl⟩
  · exact .inl ⟨_, rfl⟩

/-- Without sound keys the ROM ends in ROM FAULT (R475). -/
theorem State.romBoot_unkeyed {s : State}
    (h : Config.chainKeys (s.flash 0x3120000 0x10000) = none ∨ Config.devicePub (s.flash 0x3130000 0x10000) = none) :
    ∃ i, s.romBoot = { s with ident := i }.romFault .fault := by
  unfold State.romBoot
  dsimp only
  split
  · next hk hd =>
    rcases h with h | h
    · exact absurd (hk.symm.trans h) (by simp)
    · exact absurd (hd.symm.trans h) (by simp)
  · exact ⟨_, rfl⟩

/-- The module at the release of its reset, before the ROM runs (R475, R501, R502). -/
def State.released (s : State) (straps : Nat) : State :=
  { s with
    clk := 0
    boot := { s.boot with phase := .rom, resetLow := false, slotId := straps, faultN := false }
    time := { running := true }
    fabric := { s.fabric with epoch := s.freeVal.toNat % 2 ^ 32 }
    free := s.free + 1 }

theorem State.resetRelease_held {s : State} (h : s.boot.phase = .held) (hg : s.boot.pwrGood = true) (straps : Nat) (hangs : Bool) :
    s.resetRelease straps hangs = if hangs then s.released straps else (s.released straps).romBoot := by
  unfold State.resetRelease
  rw [if_pos ⟨h, hg⟩]
  rfl

theorem State.resetRelease_idle {s : State} (h : s.boot.phase ≠ .held ∨ s.boot.pwrGood = false) (straps : Nat) (hangs : Bool) :
    s.resetRelease straps hangs = s := by
  rcases h with h | h <;> simp [State.resetRelease, h]

/-- What every release leaves, however the ROM ends: CT from 0, the straps sampled, one free value used, memory kept. -/
structure State.releasedAs (s t : State) (straps : Nat) : Prop where
  slotId : t.boot.slotId = straps
  clk : t.clk = 0
  resetLow : t.boot.resetLow = false
  time : t.time = { running := true }
  free : t.free = s.free + 1
  mem : t.mem = s.mem

theorem State.resetRelease_releasedAs {s : State} (h : s.boot.phase = .held) (hg : s.boot.pwrGood = true) (straps : Nat) (hangs : Bool) :
    s.releasedAs (s.resetRelease straps hangs) straps := by
  rw [State.resetRelease_held h hg]
  cases hangs
  · simp only [Bool.false_eq_true, if_false]
    rcases (s.released straps).romBoot_ends with ⟨i, e⟩ | ⟨-, i, m, e⟩ <;> rw [e] <;> exact ⟨rfl, rfl, rfl, rfl, rfl, rfl⟩
  · exact ⟨rfl, rfl, rfl, rfl, rfl, rfl⟩

/-- A release whose ROM does not hang ends in ROM FAULT, or with the cores started, the watchdog armed and port 0 in training. -/
theorem State.resetRelease_runs {s : State} (h : s.boot.phase = .held) (hg : s.boot.pwrGood = true) (straps : Nat) :
    (s.resetRelease straps false).boot.phase = .romFault
      ∨ ((s.resetRelease straps false).boot.phase = .cores ∧ (s.resetRelease straps false).boot.armed = true
        ∧ ((s.resetRelease straps false).port 0).mode = .training ∧ s.boot.wcount < 3) := by
  rw [State.resetRelease_held h hg]
  simp only [Bool.false_eq_true, if_false]
  rcases (s.released straps).romBoot_ends with ⟨i, e⟩ | ⟨hw, i, m, e⟩ <;> rw [e]
  · exact .inl rfl
  · exact .inr ⟨rfl, rfl, by rw [State.startCores, State.port_portTrain]; rfl, hw⟩

/-- A release without sound keys ends in ROM FAULT. -/
theorem State.resetRelease_unkeyed {s : State} (h : s.boot.phase = .held) (hg : s.boot.pwrGood = true) (straps : Nat)
    (hk : Config.chainKeys (s.flash 0x3120000 0x10000) = none ∨ Config.devicePub (s.flash 0x3130000 0x10000) = none) :
    ∃ u : State, s.resetRelease straps false = u.romFault .fault := by
  obtain ⟨i, e⟩ := State.romBoot_unkeyed (s := s.released straps) hk
  exact ⟨_, by rw [State.resetRelease_held h hg, if_neg (by decide), e]⟩

/-! ### The boot steps (R265, R306, R476) -/

/-- The module at a boot phase. -/
def State.atPhase (s : State) (p : BootPhase) : State := s.modBoot fun b => { b with phase := p }

theorem State.mem_fitted {s : State} {i : Nat} (h : s.stackFitted i = true) (hi : i < 12) : i ∈ s.fitted := by
  simpa [State.fitted, maskList, State.stackFitted, nbits, hi] using h

theorem State.foldl_modStack_mode (m : TierMode) (ts : List Nat) (i : Nat) :
    ∀ s : State, ((ts.foldl (fun s t => s.modStack t fun st => { st with mode := m }) s).stack i).mode
      = if i ∈ ts then m else (s.stack i).mode := by
  induction ts with
  | nil => simp
  | cons t ts ih =>
    intro s
    rw [List.foldl_cons, ih, State.stack_modStack]
    by_cases h1 : i ∈ ts <;> by_cases h2 : i = t <;> simp [h1, h2]

/-- Every fitted stack is in the mode given to all. -/
theorem State.allStacks_mode {s : State} {i : Nat} (h : s.stackFitted i = true) (hi : i < 12) (m : TierMode) :
    ((s.allStacks m).stack i).mode = m := by
  rw [State.allStacks, State.foldl_modStack_mode, if_pos (State.mem_fitted h hi)]

theorem State.allStacks_frame (s : State) (m : TierMode) : s.onlyChanges [.tolvys] (s.allStacks m) :=
  onlyChanges_of (does_allStacks (m := 8388608) rfl (.refl _ s)) (by decide)

/-- CORES to POWERED: every fitted tier starts training. -/
theorem State.bootStep_cores {s : State} (h : s.boot.phase = .cores) (r : BootReport) :
    (s.bootStep r).boot = { s.boot with phase := .powered } ∧ s.onlyChanges [.boot, .tolvys, .bulk] (s.bootStep r)
      ∧ (∀ i, s.stackFitted i = true → i < 12 → ((s.bootStep r).stack i).mode = .training)
      ∧ ((s.bootStep r).bulk.mode = .failed → s.bulk.mode = .failed) := by
  have hs : s.bootStep r = if s.ident.bulk then ((s.atPhase .powered).allStacks .training).modBulk fun b => { b with mode := .training }
      else (s.atPhase .powered).allStacks .training := by
    have hi : ((s.atPhase .powered).allStacks .training).ident = s.ident := (s.atPhase .powered).allStacks_frame .training .ident (by decide)
    unfold State.bootStep
    simp only [h, ← hi]
    rfl
  have hf := (s.atPhase .powered).allStacks_frame .training
  have hd : Does 276824128 s ((s.atPhase .powered).allStacks .training) := does_allStacks rfl (does_modBoot rfl (.refl _ s))
  have hm : ∀ i, s.stackFitted i = true → i < 12 → (((s.atPhase .powered).allStacks .training).stack i).mode = .training :=
    fun i hi hl => State.allStacks_mode (s := s.atPhase .powered) hi hl .training
  rw [hs]
  split
  · exact ⟨hf .boot (by decide), onlyChanges_of (does_modBulk rfl hd) (by decide), hm, nofun⟩
  · exact ⟨hf .boot (by decide), onlyChanges_of hd (by decide), hm, fun hb => by rwa [hf .bulk (by decide)] at hb⟩

/-- POWERED to STACKS TRAINED, where no lane fails. -/
theorem State.bootStep_powered {s : State} (h : s.boot.phase = .powered) {r : BootReport} (hr : r.lanes = []) :
    s.bootStep r = s.atPhase .stkTrained := by
  unfold State.bootStep
  simp only [h, hr, State.trainStacks, List.foldl_nil, if_true]
  rfl

/-- A stack marked FAILED for a channel (R265). -/
def State.failStack (s : State) (i ch : Nat) : State :=
  (s.modStack i fun st => { st with mode := .failed, failChan := ch, failCause := 1 }).setFld (Pg.stk i + Off.blkStat) 0 2 3

/-- The bulk tier marked FAILED for a channel (R306). -/
def State.failBulk (s : State) (ch : Nat) : State :=
  (s.modBulk fun b => { b with mode := .failed, failChan := ch, failCause := 1 }).setFld (Pg.bulk + Off.blkStat) 0 2 3

@[simp] theorem State.failStack_boot (s : State) (i ch : Nat) : (s.failStack i ch).boot = s.boot := rfl
@[simp] theorem State.failBulk_boot (s : State) (ch : Nat) : (s.failBulk ch).boot = s.boot := rfl

/-- A channel of a fitted stack with more than two failing lanes fails the stack's bring-up. -/
theorem State.trainStacks_fails {s : State} {i : Nat} {l : List Nat} (hi : s.stackFitted i = true) (hl : 2 < l.eraseDups.length) (ch : Nat) :
    s.trainStacks [(i, ch, l)] = (s.failStack i ch).bootFail 0x0020 i ch := by
  have he : l.eraseDups ≠ [] := List.ne_nil_of_length_pos (by omega)
  simp [State.trainStacks, State.failStack, hi, hl, he]

/-- Such a channel stops the boot in firmware FAULT. -/
theorem State.bootStep_laneFails {s : State} (h : s.boot.phase = .powered) {r : BootReport} {i ch : Nat} {l : List Nat}
    (hr : r.lanes = [(i, ch, l)]) (hi : s.stackFitted i = true) (hl : 2 < l.eraseDups.length) :
    (s.bootStep r).boot.phase = .fwFault ∧ ((s.bootStep r).stack i).mode = .failed ∧ ((s.bootStep r).stack i).failChan = ch
      ∧ ((s.bootStep r).stack i).failCause = 1 := by
  have hf : ((s.failStack i ch).bootFail 0x0020 i ch).boot.phase = .fwFault :=
    (State.bootFail_inFwFault (by simp [h]) (by simp [h]) 0x0020 i ch).phase
  have hs : s.bootStep r = (s.failStack i ch).bootFail 0x0020 i ch := by
    unfold State.bootStep
    simp only [h, hr, State.trainStacks_fails hi hl]
    exact if_neg (by rw [hf]; decide)
  have hk : ((s.failStack i ch).bootFail 0x0020 i ch).tolvys = (s.failStack i ch).tolvys :=
    State.bootFail_frame _ 0x0020 i ch .tolvys (by decide)
  have ht : (s.bootStep r).stack i = { s.stack i with mode := .failed, failChan := ch, failCause := 1 } := by
    rw [hs, State.stack, hk]
    exact Tab.get_put_self ..
  exact ⟨hs ▸ hf, by rw [ht], by rw [ht], by rw [ht]⟩

/-- STACKS TRAINED to STACKS READY: window 0 placed, the tier zeroed. -/
theorem State.bootStep_stkTrained {s : State} (h : s.boot.phase = .stkTrained) (r : BootReport) :
    (s.bootStep r).boot = { s.boot with phase := .stkReady } ∧ (s.bootStep r).wfOn = true ∧ (s.bootStep r).bulk = s.bulk
      ∧ ∀ i, s.stackFitted i = true → i < 12 → ((s.bootStep r).stack i).mode = .ready := by
  obtain ⟨u, hs, hb, hw, hk, hi⟩ : ∃ u : State, s.bootStep r = (u.allStacks .ready).atPhase .stkReady ∧ u.boot = s.boot ∧ u.wfOn = true
      ∧ u.bulk = s.bulk ∧ u.ident = s.ident := by
    unfold State.bootStep
    simp only [h]
    exact ⟨_, rfl, rfl, rfl, rfl, rfl⟩
  have hf := u.allStacks_frame .ready
  have hb' : (u.allStacks .ready).boot = s.boot := (hf .boot (by decide)).trans hb
  rw [hs]
  refine ⟨by simp [State.atPhase, State.modBoot, hb'], (hf .wfOn (by decide)).trans hw, (hf .bulk (by decide)).trans hk, fun i hfit hl => ?_⟩
  exact State.allStacks_mode (s := u) (by rwa [State.stackFitted, hi]) hl .ready

/-- STACKS READY to BULK TRAINED. -/
theorem State.bootStep_stkReady {s : State} (h : s.boot.phase = .stkReady) (hk : s.ident.bulk = true) {r : BootReport}
    (hr : r.bulkBad = none) : s.bootStep r = s.atPhase .bulkTrained := by
  unfold State.bootStep
  simp only [h, hk, hr, if_true]
  rfl

/-- A bulk channel that does not train stops the boot in firmware FAULT. -/
theorem State.bootStep_bulkFails {s : State} (h : s.boot.phase = .stkReady) (hk : s.ident.bulk = true) {r : BootReport} {ch : Nat}
    (hr : r.bulkBad = some ch) :
    (s.bootStep r).boot.phase = .fwFault ∧ (s.bootStep r).bulk.mode = .failed ∧ (s.bootStep r).bulk.failChan = ch
      ∧ (s.bootStep r).bulk.failCause = 1 := by
  have hs : s.bootStep r = (s.failBulk ch).bootFail 0x0023 0 ch := by
    unfold State.bootStep
    simp only [h, hk, hr, if_true]
    rfl
  have hb : ((s.failBulk ch).bootFail 0x0023 0 ch).bulk = (s.failBulk ch).bulk := State.bootFail_frame _ 0x0023 0 ch .bulk (by decide)
  rw [hs, hb]
  exact ⟨(State.bootFail_inFwFault (by simp [h]) (by simp [h]) 0x0023 0 ch).phase, rfl, rfl, rfl⟩

/-- The Mace pass of a slice that is sound. -/
def State.passScreen (s : State) (k : Nat) : State :=
  { s with screens := s.screens.put k { s.screens.get {} k with lastPass := s.ct, version := s.mace.version } }

theorem State.bootScreen_sound (s : State) : s.bootScreen 0 = (List.range 16).foldl State.passScreen s := by
  simp only [State.bootScreen, nbits, Nat.zero_div, Nat.zero_mod, Nat.zero_ne_one, if_false]
  rfl

theorem State.foldl_passScreen_frame (ks : List Nat) (s : State) : s.onlyChanges [.screens] (ks.foldl State.passScreen s) :=
  onlyChanges_of (m := 4294967296) (.foldl (fun _ _ h => does_set_screens rfl h) (.refl _ s)) (by decide)

theorem State.foldl_passScreen_lastPass (ks : List Nat) (j : Nat) :
    ∀ s : State, ((ks.foldl State.passScreen s).screens.get {} j).lastPass = if j ∈ ks then s.ct else (s.screens.get {} j).lastPass := by
  induction ks with
  | nil => simp
  | cons k ks ih =>
    intro s
    have hc : (s.passScreen k).ct = s.ct := rfl
    rw [List.foldl_cons, ih, hc]
    by_cases h1 : j ∈ ks <;> by_cases h2 : j = k <;> simp [h1, h2, State.passScreen, Tab.get_put]

/-- To MACE DONE, where every slice passes. -/
theorem State.bootStep_screens {s : State} (h : s.boot.phase = .bulkTrained ∨ (s.boot.phase = .stkReady ∧ s.ident.bulk = false))
    {r : BootReport} (hr : r.slices = 0) :
    (s.bootStep r).boot = { s.boot with phase := .maceDone } ∧ s.onlyChanges [.boot, .screens] (s.bootStep r)
      ∧ ∀ j : Fin 16, ((s.bootStep r).screens.get {} j).lastPass = s.ct := by
  have hs : s.bootStep r = ((List.range 16).foldl State.passScreen s).atPhase .maceDone := by
    rw [← State.bootScreen_sound]
    unfold State.bootStep
    rcases h with h | ⟨h, hk⟩
    · simp only [h, hr]; rfl
    · simp only [h, hk, hr]; rfl
  have hf := State.foldl_passScreen_frame (List.range 16) s
  have hb : ((List.range 16).foldl State.passScreen s).boot = s.boot := hf .boot (by decide)
  rw [hs]
  refine ⟨by simp only [State.atPhase, State.modBoot, hb], ?_, fun j => ?_⟩
  · exact onlyChanges_of (m := 4294967360) (does_modBoot rfl (.foldl (fun _ _ h => does_set_screens rfl h) (.refl _ s))) (by decide)
  · exact (State.foldl_passScreen_lastPass (List.range 16) j s).trans (if_pos (List.mem_range.2 j.isLt))

/-- MACE DONE to BULK ZEROED. -/
theorem State.bootStep_maceDone {s : State} (h : s.boot.phase = .maceDone) (hk : s.ident.bulk = true) (r : BootReport) :
    (s.bootStep r).boot = { s.boot with phase := .bulkZeroed } ∧ (s.bootStep r).bulk = { s.bulk with mode := .ready } := by
  unfold State.bootStep
  simp only [h, hk, if_true]
  exact ⟨rfl, rfl⟩

/-- A port enabled and in training. -/
def State.enablePort (s : State) (i : Nat) : State := (s.setFld (Pg.port i + 0x100) 0 1 1).portTrain i

theorem State.enablePort_mode (s : State) (i j : Nat) :
    ((s.enablePort i).port j).mode = if j = i then .training else (s.port j).mode := by
  rw [State.enablePort, State.port_portTrain]
  split <;> rfl

theorem State.enablePort_enabled (s : State) (i j : Nat) :
    bit ((s.enablePort i).reg (Pg.port j + 0x100)) 0 = (decide (j = i) || bit (s.reg (Pg.port j + 0x100)) 0) := by
  have hr : (s.enablePort i).reg (Pg.port j + 0x100) = (s.setFld (Pg.port i + 0x100) 0 1 1).reg (Pg.port j + 0x100) := rfl
  rw [hr]
  by_cases h : j = i
  · subst h
    simp [bit_setBits_one _ (show 0 < 64 by decide)]
  · have hk : Pg.port j + 0x100 ≠ Pg.port i + 0x100 := by simp only [Pg.port]; omega
    simp [h, State.reg_setFld_ne s hk]

/-- READY: ports 1 to 3 enabled and in training, the boot time set, WCOUNT cleared. -/
theorem State.bootReady_enters (s : State) :
    s.bootReady.boot = { s.boot with phase := .ready, bootUs := s.clk / usTicks, wcount := 0 } ∧ s.bootReady.bulk = s.bulk
      ∧ ∀ i, 1 ≤ i → i ≤ 3 → (s.bootReady.port i).mode = .training ∧ bit (s.bootReady.reg (Pg.port i + 0x100)) 0 = true := by
  refine ⟨rfl, rfl, fun i h1 h3 => ?_⟩
  have hp : s.bootReady.port i = (((s.enablePort 1).enablePort 2).enablePort 3).port i := rfl
  have hr : ∀ k, s.bootReady.reg k = (((s.enablePort 1).enablePort 2).enablePort 3).reg k := fun _ => rfl
  rw [hp, hr]
  simp only [State.enablePort_mode, State.enablePort_enabled]
  interval_cases i <;> simp

/-- The last step leads to READY. -/
theorem State.bootStep_last {s : State} (h : s.boot.phase = .bulkZeroed ∨ (s.boot.phase = .maceDone ∧ s.ident.bulk = false))
    (r : BootReport) : s.bootStep r = s.bootReady := by
  unfold State.bootStep
  rcases h with h | ⟨h, hk⟩
  · simp only [h]
  · simp [h, hk]

/-- A module that is not between boot steps takes none. -/
theorem State.bootStep_none {s : State}
    (h : [BootPhase.unpowered, .held, .rom, .romFault, .ready, .fwFault].contains s.boot.phase = true) (r : BootReport) :
    s.bootStep r = s := by
  unfold State.bootStep
  cases hp : s.boot.phase
  case unpowered | held | rom | romFault | ready | fwFault => rfl
  all_goals rw [hp] at h; exact absurd h (by decide)

/-! ### Steps past their limit, and the reference clock (R476, R504) -/

/-- A boot step past its limit fails bring-up, at the limit where the step has one. -/
theorem State.bootTimeout_fails {s : State}
    (h : [BootPhase.cores, .powered, .stkTrained, .stkReady, .bulkTrained, .maceDone, .bulkZeroed].contains s.boot.phase = true) :
    ∃ (u : State) (cls : Nat), s.bootTimeout = u.bootFail cls 0 0 ∧ u.boot = s.boot
      ∧ u.clk = if s.boot.phase = .powered then max s.clk (100000 * usTicks)
          else if s.boot.phase = .stkReady ∧ s.ident.bulk = true then max s.clk (150000 * usTicks) else s.clk := by
  unfold State.bootTimeout
  cases hp : s.boot.phase <;> simp only [hp, List.contains_eq_mem] at h ⊢
  case powered => exact ⟨_, _, rfl, by simp, by simp⟩
  case stkReady =>
    split
    · next hk => exact ⟨_, _, rfl, by simp, by simp [hk]⟩
    · next hk => exact ⟨s, _, rfl, rfl, by simp [hk]⟩
  case cores | stkTrained | bulkTrained | maceDone | bulkZeroed => exact ⟨s, _, rfl, rfl, by simp⟩
  all_goals exact absurd h (by decide)

/-- Such a step stops the boot in firmware FAULT. -/
theorem State.bootTimeout_stops {s : State}
    (h : [BootPhase.cores, .powered, .stkTrained, .stkReady, .bulkTrained, .maceDone, .bulkZeroed].contains s.boot.phase = true) :
    s.bootTimeout.inFwFault
      ∧ s.bootTimeout.clk = if s.boot.phase = .powered then max s.clk (100000 * usTicks)
          else if s.boot.phase = .stkReady ∧ s.ident.bulk = true then max s.clk (150000 * usTicks) else s.clk := by
  obtain ⟨u, cls, hs, hboot, hclk⟩ := State.bootTimeout_fails h
  have h1 : u.boot.phase ≠ .fwFault := fun hf => by simp [← hboot, hf] at h
  have h2 : u.boot.phase ≠ .romFault := fun hf => by simp [← hboot, hf] at h
  rw [hs]
  exact ⟨State.bootFail_inFwFault h1 h2 cls 0 0, (u.bootFail_frame cls 0 0 .clk (by decide)).trans hclk⟩

theorem State.bootTimeout_none {s : State}
    (h : [BootPhase.unpowered, .held, .rom, .romFault, .ready, .fwFault].contains s.boot.phase = true) : s.bootTimeout = s := by
  unfold State.bootTimeout
  cases hp : s.boot.phase
  case unpowered | held | rom | romFault | ready | fwFault => rfl
  all_goals rw [hp] at h; exact absurd h (by decide)

/-- A port that trained or was UP goes DOWN where the reference clock is lost (R504). -/
def Port.unclocked (clk : Nat) (q : Port) : Port :=
  if q.mode = .training ∨ q.mode = .up then { q with mode := .down, downClk := clk } else q

/-- The module that has lost its reference clock, before firmware FAULT: the loss recorded, its ports DOWN, CT and memory traffic stopped
(R504). -/
def State.unclocked (s : State) : State :=
  let u := s.logErr { type := 0x0100, cls := 0x0060, sev := 4, status := statusCode .fault } []
  ({ u with ports := u.ports.mapVals (Port.unclocked u.clk) }.modTime fun t => { t with running := false }).modBoot
    fun b => { b with memStop := true }

theorem State.refclkLoss_running {s : State} (h : s.loopsRun = true) : s.refclkLoss = s.unclocked.fwFault .fault := by
  simp only [State.refclkLoss, h, Bool.not_true, Bool.false_eq_true, if_false]
  rfl

theorem State.unclocked_phase (s : State) : s.unclocked.boot.phase = s.boot.phase := rfl

/-- A port that trained or was UP is DOWN without the reference clock, every other as it was. -/
theorem State.unclocked_port_mode (s : State) (i : Nat) :
    (s.unclocked.port i).mode = if (s.port i).mode = .training ∨ (s.port i).mode = .up then .down else (s.port i).mode := by
  have hp : s.unclocked.port i = (s.port i).unclocked s.clk := Tab.get_mapVals s.ports (Port.unclocked s.clk) {} i
  rw [hp, Port.unclocked]
  split <;> rfl

/-- Loss of the reference clock stops memory traffic, CT and the ports, and is firmware FAULT where the module stands in no FAULT state. -/
theorem State.refclkLoss_stops {s : State} (h : s.loopsRun = true) :
    s.refclkLoss.boot.memStop = true ∧ s.refclkLoss.time.running = false
      ∧ (∀ i, (s.refclkLoss.port i).mode
          = if (s.port i).mode = .training ∨ (s.port i).mode = .up then .down else (s.port i).mode)
      ∧ (s.boot.phase ≠ .fwFault → s.boot.phase ≠ .romFault → s.refclkLoss.inFwFault) := by
  have hf := s.unclocked.fwFault_frame .fault
  have ht : (s.unclocked.fwFault .fault).time = s.unclocked.time := hf .time (by decide)
  have hp : (s.unclocked.fwFault .fault).ports = s.unclocked.ports := hf .ports (by decide)
  rw [State.refclkLoss_running h]
  refine ⟨State.fwFault_memStop .., by rw [ht]; rfl, fun i => ?_, fun h1 h2 => State.fwFault_inFwFault h1 h2⟩
  rw [State.port, hp]
  exact s.unclocked_port_mode i

/-! ### The commands -/

theorem exec_powerUp (s : State) : exec .powerUp s = .next s.powerUp := rfl
theorem exec_inputFault (s : State) : exec .inputFault s = .next s.inputFault := rfl
theorem exec_resetNLow (s : State) : exec .resetNLow s = .next s.resetPin := rfl
theorem exec_watchdogExpire (s : State) : exec .watchdogExpire s = .next s.watchdog := rfl
theorem exec_resetRelease (straps : Fin 64) (hangs : Bool) (s : State) :
    exec (.resetRelease straps hangs) s = .next (s.resetRelease straps hangs) := rfl
theorem exec_romBootTimeout (s : State) : exec .romBootTimeout s = .next s.romTimeout := rfl
theorem exec_bootStepTimeout (s : State) : exec .bootStepTimeout s = .next s.bootTimeout := rfl
theorem exec_refclkLoss (s : State) : exec .refclkLoss s = .next (s.refclkLoss.afterLoss s) := rfl

/-- What BOOT_STEP_DONE reports, as the step reads it. -/
def bootReport (lanes : List (Fin 12 × Fin 128 × List Nat)) (bad : Option Nat) (k : BitVec 16) : BootReport :=
  { lanes := lanes.map fun x => (x.1.val, x.2.1.val, x.2.2), bulkBad := bad, slices := k.toNat }

theorem exec_bootStepDone (lanes : List (Fin 12 × Fin 128 × List Nat)) (bad : Option Nat) (k : BitVec 16) (s : State) :
    exec (.bootStepDone lanes bad k) s = .next ((s.bootStep (bootReport lanes bad k)).afterLoss s) := rfl

/-- A boot step that loses nothing is its command's whole effect. -/
theorem exec_bootStepDone_of_no_loss {s t : State} {lanes : List (Fin 12 × Fin 128 × List Nat)} {bad : Option Nat} {k : BitVec 16}
    (ht : s.bootStep (bootReport lanes bad k) = t) (hp : t.boot.phase ≠ .fwFault) (hb : t.bulk.mode = .failed → s.bulk.mode = .failed) :
    exec (.bootStepDone lanes bad k) s = .next t := by
  rw [exec_bootStepDone, ht, State.afterLoss_of_no_loss hp hb]

/-- Settles O51: what a reset keeps, what the ROM comes to, each boot step, and the ways into the two FAULT states. -/
theorem bootEffects : Obligations.BootEffects := by
  intro s b held
  refine ⟨fun h => ?_, fun h => ?_, ?_, fun hg h => ?_, fun h => ?_, fun h => ?_, fun h => ?_, fun straps hangs => ⟨fun h => ?_, fun h hg => ?_⟩,
    fun h => ?_, fun h => ?_, fun lanes bad k => ?_, fun h => ?_, fun h => ?_, fun h => ?_, fun h => ?_⟩
  · exact ⟨_, exec_powerUp s, State.powerUp_unpowered h⟩
  · rw [exec_powerUp, State.powerUp, if_neg h]
  · exact ⟨_, exec_inputFault s, State.inputFault_resets s⟩
  · exact ⟨_, exec_resetNLow s, State.resetPin_running hg h⟩
  · rw [exec_resetNLow, State.resetPin_idle h]
  · exact ⟨_, exec_watchdogExpire s, State.watchdog_armed h⟩
  · rw [exec_watchdogExpire, State.watchdog, if_neg (by simp [show s.boot.armed = false from h])]
  · rw [exec_resetRelease, State.resetRelease_idle h]
  · obtain ⟨hslot, hclk, hlow, htime, hfree, hmem⟩ := State.resetRelease_releasedAs h hg straps hangs
    refine ⟨_, exec_resetRelease straps hangs s, hslot, hclk, hlow, htime, hfree, hmem, ?_⟩
    cases hangs
    · have hr := State.resetRelease_runs h hg straps
      refine ⟨?_, nofun, fun _ => ?_, fun _ hk => ?_, fun hc => ?_⟩
      · exact .inr (hr.imp_right And.left)
      · rcases hr with hr | ⟨hr, -⟩ <;> rw [hr] <;> decide
      · obtain ⟨u, hu⟩ := State.resetRelease_unkeyed h hg straps hk
        rw [hu]
        exact u.romFault_enters
      · rcases hr with hr | ⟨-, hr⟩
        · exact absurd (hr.symm.trans hc) (by decide)
        · exact hr
    · have hr : (s.resetRelease straps true).boot.phase = .rom := by rw [State.resetRelease_held h hg, if_pos rfl]; rfl
      exact ⟨.inl hr, fun _ => hr, nofun, nofun, fun hc => absurd (hr.symm.trans hc) (by decide)⟩
  · exact ⟨_, exec_romBootTimeout s, State.romTimeout_rom h⟩
  · rw [exec_romBootTimeout, State.romTimeout, if_neg h]
  · refine ⟨fun h => ?_, fun h hl => ?_, fun i ch l h hl hi hn => ?_, fun h => ?_, fun h hk hb => ?_, fun ch h hk hb => ?_, fun h hz => ?_,
      fun h hk => ?_, fun h => ?_, fun h => ?_⟩
    · obtain ⟨hboot, hframe, hmode, hbulk⟩ := State.bootStep_cores h (bootReport lanes bad k)
      exact ⟨_, exec_bootStepDone_of_no_loss rfl (by rw [hboot]; nofun) hbulk, hboot, hframe, hmode⟩
    · exact exec_bootStepDone_of_no_loss (State.bootStep_powered h (by simp [bootReport, hl])) nofun id
    · exact ⟨_, exec_bootStepDone .., State.bootStep_laneFails h (by simp [bootReport, hl]) hi hn⟩
    · obtain ⟨hboot, hwf, hbulk, hmode⟩ := State.bootStep_stkTrained h (bootReport lanes bad k)
      exact ⟨_, exec_bootStepDone_of_no_loss rfl (by rw [hboot]; nofun) (by rw [hbulk]; exact id), hboot, hwf, hmode⟩
    · exact exec_bootStepDone_of_no_loss (State.bootStep_stkReady h hk hb) nofun id
    · exact ⟨_, exec_bootStepDone .., State.bootStep_bulkFails h hk hb⟩
    · obtain ⟨hboot, hframe, hpass⟩ := State.bootStep_screens h (r := bootReport lanes bad k) (by simp [bootReport, hz])
      have hbulk : (s.bootStep (bootReport lanes bad k)).bulk = s.bulk := hframe .bulk (by decide)
      exact ⟨_, exec_bootStepDone_of_no_loss rfl (by rw [hboot]; nofun) (by rw [hbulk]; exact id), hboot, hframe, hpass⟩
    · obtain ⟨hboot, hbulk⟩ := State.bootStep_maceDone h hk (bootReport lanes bad k)
      exact ⟨_, exec_bootStepDone_of_no_loss rfl (by rw [hboot]; nofun) (by rw [hbulk]; nofun), hboot, hbulk⟩
    · obtain ⟨hboot, hbulk, hports⟩ := s.bootReady_enters
      exact ⟨_, exec_bootStepDone_of_no_loss (State.bootStep_last h _) (by rw [hboot]; nofun) (by rw [hbulk]; exact id), hboot, hports⟩
    · rw [exec_bootStepDone, State.bootStep_none h, State.afterLoss_self]
  · obtain ⟨⟨hphase, hfault, hpin, hlinks⟩, hclk⟩ := State.bootTimeout_stops h
    exact ⟨_, exec_bootStepTimeout s, hphase, hfault, hpin, hlinks, hclk⟩
  · rw [exec_bootStepTimeout, State.bootTimeout_none h]
  · obtain ⟨hmem, htime, hports, hfw⟩ := State.refclkLoss_stops h
    refine ⟨_, exec_refclkLoss s, hmem, htime, hports, fun h1 h2 => ?_⟩
    obtain ⟨hphase, -, hpin, hlinks⟩ := hfw h1 h2
    exact ⟨hphase, hpin, hlinks⟩
  · rw [exec_refclkLoss, State.refclkLoss, h]
    exact congrArg _ s.afterLoss_self

end Sys2Proof.Machine
end

section
/-! PROOFS. The fabric's state under what completions, halts and losses do: the records of peers and of relayed transactions stay as they are, and
a message sent changes no more than the mark of a way round (R385, R391-R394). -/

namespace Sys2Proof.Machine

/-! ### What stays of the fabric's state: peers and relayed transactions -/

/-- The peers known and the relayed transactions held are as before (R391, R394). -/
structure State.keepsNet (s t : State) : Prop where
  peers : t.fabric.peers = s.fabric.peers
  relayIn : t.fabric.relayIn = s.fabric.relayIn

namespace State.keepsNet

variable {s t u : State}

theorem refl (s : State) : s.keepsNet s := ⟨rfl, rfl⟩

theorem trans (h : s.keepsNet t) (g : t.keepsNet u) : s.keepsNet u := ⟨g.peers.trans h.peers, g.relayIn.trans h.relayIn⟩

/-- The state of a pair that an operation answered. -/
theorem of_fst {β : Type} {p : State × β} {b : β} (he : p = (t, b)) (h : s.keepsNet p.1) : s.keepsNet t := by
  rwa [he] at h

theorem ite {c : Prop} [Decidable c] (ht : s.keepsNet t) (hu : s.keepsNet u) : s.keepsNet (if c then t else u) := by
  split <;> assumption

theorem foldl {α : Type} {f : State → α → State} {l : List α} (hf : ∀ t x, s.keepsNet t → s.keepsNet (f t x)) (h : s.keepsNet t) :
    s.keepsNet (l.foldl f t) := by
  induction l generalizing t with
  | nil => exact h
  | cons x l ih => exact ih (hf t x h)

/-- A change of the fabric's state elsewhere. -/
theorem modFabric {f : Fabric → Fabric} (h : s.keepsNet t) (hp : (f t.fabric).peers = t.fabric.peers := by rfl)
    (hr : (f t.fabric).relayIn = t.fabric.relayIn := by rfl) : s.keepsNet (t.modFabric f) := h.trans ⟨hp, hr⟩

end State.keepsNet

/-- The mask of every kind of state but the fabric's. -/
def butFabric : Nat := 2 ^ 66 - 1 - 2 ^ 53

theorem Does.fabric {s t : State} (h : Does butFabric s t) : t.fabric = s.fabric := h.frame .fabric (by decide)

/-- An operation whose mask leaves the fabric's state out. -/
theorem State.keepsNet.and {s t u : State} (h : s.keepsNet t) (g : Does butFabric t u) : s.keepsNet u :=
  h.trans ⟨by rw [g.fabric], by rw [g.fabric]⟩

@[simp] theorem State.fabric_modFabric (s : State) (f : Fabric → Fabric) : (s.modFabric f).fabric = f s.fabric := rfl

/-- Of the fabric's state only the mark of a way round may differ (R385). -/
def State.sameButDegraded (s t : State) : Prop := ∃ b, t.fabric = { s.fabric with degraded := b }

theorem State.sameButDegraded.keepsNet {s t : State} (h : s.sameButDegraded t) : s.keepsNet t := by
  obtain ⟨b, h⟩ := h
  exact ⟨by rw [h], by rw [h]⟩

theorem State.routeLink_sameButDegraded (s : State) (dst : Nat) (came : Option Nat) :
    s.sameButDegraded (s.routeLink dst came).1 := by
  have hs : s.sameButDegraded s := ⟨s.fabric.degraded, rfl⟩
  unfold State.routeLink
  split
  · exact hs
  · split
    · exact hs
    · split
      · split
        · exact hs
        · exact ⟨true, by simp⟩
      · exact hs

theorem State.sendMsg_sameButDegraded (s : State) (m : Msg) (relay : Bool) : s.sameButDegraded (s.sendMsg m relay).1 := by
  have h := s.routeLink_sameButDegraded m.dst none
  unfold State.sendMsg
  split
  · next he =>
    rw [he] at h
    obtain ⟨b, h⟩ := h
    exact ⟨b, (does_queueOn rfl (.refl _ _)).fabric.trans h⟩
  · next he => rwa [he] at h

theorem State.respond_sameButDegraded (s : State) (m : Msg) (st : Status) (data : List Byte) :
    s.sameButDegraded (s.respond m st data) := s.sendMsg_sameButDegraded ..

namespace State.keepsNet

variable {s t : State}

/-! ### Requests of this module -/

theorem originate {dst kind group arg : Nat} {data : List Byte} {len part : Nat} {use : ReqUse} (h : s.keepsNet t) :
    s.keepsNet (t.originate dst kind group arg data len part use).1 := by
  have hm {m : Msg} {r : Bool} := h.trans (t.sendMsg_sameButDegraded m r).keepsNet
  unfold State.originate
  dsimp only
  split
  · next he => exact (of_fst he hm).trans ⟨rfl, rfl⟩
  · next he => exact of_fst he hm

theorem sendRelay {dst group op addr : Nat} {data : List Byte} {use : ReqUse} (h : s.keepsNet t) :
    s.keepsNet (t.sendRelay dst group op addr data use).1 := by
  unfold State.sendRelay
  dsimp only
  split
  · next he => exact (of_fst he h.originate).trans ⟨rfl, rfl⟩
  · next he => exact of_fst he h.originate

theorem nodeWrite {d addr : Nat} {data : List Byte} {use : ReqUse} (h : s.keepsNet t) : s.keepsNet (t.nodeWrite d addr data use).1 := by
  unfold State.nodeWrite
  split
  · exact h.and (does_portSend rfl (.refl _ t))
  · split
    · exact h.sendRelay
    · exact h

theorem nodeRead {d addr len : Nat} {use : ReqUse} (h : s.keepsNet t) : s.keepsNet (t.nodeRead d addr len use).1 := by
  unfold State.nodeRead
  split
  · exact h.and (does_portSend rfl (does_set_nodeReqs_nodeTag rfl (.refl _ t)))
  · split
    · exact h.sendRelay
    · exact h

theorem relayIssue {i : Nat} {b : List Byte} (h : s.keepsNet t) : s.keepsNet (t.relayIssue i b) := by
  have hb := h.and (does_bump (x1 := Pg.port i + 0x138) (x2 := 1) rfl (.refl _ t))
  unfold State.relayIssue
  dsimp only
  split
  · next he => exact of_fst he hb.sendRelay
  · next he => exact (of_fst he hb.sendRelay).and (does_freeReq rfl (.ite (does_sendRsp rfl (.refl _ _)) (.refl _ _)))

theorem relayNext {i : Nat} (h : s.keepsNet t) : s.keepsNet (t.relayNext i) := by
  unfold State.relayNext
  split
  · exact h.modFabric.relayIssue
  · exact h

/-! ### Transfers of transfer engines -/

theorem xDone {e q gen blk off : Nat} {st : Status} (h : s.keepsNet t) : s.keepsNet (t.xDone e q gen blk off st) :=
  h.and (does_xDone rfl (.refl _ t))

theorem modXfer {e q gen blk off : Nat} {f : Xfer → Xfer} (h : s.keepsNet t) : s.keepsNet (t.modXfer e q gen blk off f) :=
  h.and (does_modXfer rfl (.refl _ t))

theorem xAsk {e : Nat} {g : Gen} {x : Xfer} {use : ReqUse} (h : s.keepsNet t) : s.keepsNet (t.xAsk e g x use).1 := by
  unfold State.xAsk
  dsimp only
  split
  · exact h
  · split
    · exact h.nodeRead
    · split
      · exact h
      · exact h.originate

theorem xTell {e : Nat} {g : Gen} {x : Xfer} {use : ReqUse} {data : List Byte} (h : s.keepsNet t) :
    s.keepsNet (t.xTell e g x use data).1 := by
  unfold State.xTell
  dsimp only
  split
  · exact h.nodeWrite
  · split
    · exact h
    · exact h.originate

theorem xRemote {e q : Nat} {g : Gen} {x : Xfer} (h : s.keepsNet t) : s.keepsNet (t.xRemote e q g x) := by
  unfold State.xRemote
  extract_lets b use held
  split
  · split
    · next he => exact (of_fst he h.xAsk).modXfer
    · next he => exact (of_fst he h.xAsk).xDone
  · split
    · have hx : s.keepsNet held.1 := by
        unfold held
        split
        · exact h
        · exact h.and (does_xSource rfl (.refl _ t))
      split
      · exact hx.xDone
      · split
        · next he => exact (of_fst he hx.xTell).modXfer
        · next he => exact (of_fst he hx.xTell).xDone
    · exact h

theorem xAnswer {e q gen blk off : Nat} {st : Status} {data : List Byte} (h : s.keepsNet t) :
    s.keepsNet (t.xAnswer e q gen blk off st data) := by
  unfold State.xAnswer
  dsimp only
  split
  · split
    · exact h.xDone
    · split
      · split
        · exact h.modXfer.xDone
        · split
          · exact h.modXfer.xRemote
          · exact h.modXfer.and (does_xDeliver rfl (.refl _ _))
      · exact h.xDone
  · exact h

/-! ### Collectives -/

theorem modEnt {q ix : Nat} {f : CollEnt → CollEnt} (h : s.keepsNet t) : s.keepsNet (t.modEnt q ix f) := h.trans ⟨rfl, rfl⟩

theorem rankFrame {g : RankGroup} {rank : Nat} {ty : CType} {body : List Byte} (h : s.keepsNet t) :
    s.keepsNet (t.rankFrame g rank ty body) := by
  have hr := h.trans (t.routeLink_sameButDegraded (g.members.getD rank 0) none).keepsNet
  unfold State.rankFrame State.routeFrame
  split
  · next he => exact (of_fst he hr).and (does_sendFrame rfl (.refl _ _))
  · next he => exact of_fst he hr

theorem collFail {q : Nat} {e : CollEnt} {st : Status} {abort began : Bool} (h : s.keepsNet t) :
    s.keepsNet (t.collFail q e st abort began) := by
  have hb : s.keepsNet (if began && cLen e.ent != 0 then t.blurBuffers q e else t) := .ite (h.and (does_blurBuffers rfl (.refl _ t))) h
  unfold State.collFail
  extract_lets s1 g s2 s3 s4 p
  have h2 : s.keepsNet s2 := .ite (.foldl (fun _ _ hu => hu.rankFrame) hb) hb
  have h4 : s.keepsNet s4 := h2.modEnt.modFabric.modFabric
  exact h4.and (does_raise rfl (.refl _ _))

theorem sendContrib {q : Nat} {e : CollEnt} {rank phase off total : Nat} {data : List Byte} {tries : Nat} (h : s.keepsNet t) :
    s.keepsNet (t.sendContrib q e rank phase off total data tries) := by
  unfold State.sendContrib
  dsimp only
  split
  · next he => exact (of_fst he h.originate).modEnt
  · next he => exact (of_fst he h.originate).collFail

theorem collAnswer {q ix rank phase off tries : Nat} {st : Status} (h : s.keepsNet t) :
    s.keepsNet (t.collAnswer q ix rank phase off tries st) := by
  unfold State.collAnswer
  dsimp only
  split
  · exact h
  · split
    · exact h.modEnt
    · split
      · split
        · exact h.modEnt.collFail
        · split
          · exact h.modEnt.sendContrib
          · exact h.modEnt
      · exact h.modEnt.collFail

theorem collPeerLost {id : Nat} (h : s.keepsNet t) : s.keepsNet (t.collPeerLost id) :=
  .foldl (fun _ _ hu => .foldl (fun _ _ hv => .ite hv.collFail hv) hu) h

theorem collEnd {p : Nat} {st : Status} (h : s.keepsNet t) : s.keepsNet (t.collEnd p st) :=
  .foldl (fun _ _ hu => .foldl (fun _ _ hv => .ite hv.collFail hv) hu) h

/-! ### Completions, halts and losses -/

theorem useDone {use : ReqUse} {st : Status} {data : List Byte} (h : s.keepsNet t) : s.keepsNet (t.useDone use st data) := by
  cases use with
  | xfer => exact h.xAnswer
  | coll => exact h.collAnswer
  | relay => exact (h.and (.ite (does_sendRsp rfl (.refl _ t)) (.refl _ t))).relayNext
  | record => exact h
  | carry => exact h.trans (t.respond_sameButDegraded ..).keepsNet

theorem reqDone {r : Req} {st : Status} {data : List Byte} (h : s.keepsNet t) : s.keepsNet (t.reqDone r st data) := by
  unfold State.reqDone
  extract_lets s1
  have h1 : s.keepsNet s1 := by
    unfold s1
    split
    · exact h.and (does_freeReq rfl (.ite (.refl _ t) (does_writeReject rfl (.refl _ t))))
    · exact h
  exact State.keepsNet.useDone h1.modFabric

theorem floodAcked {fromLink : Option Nat} {ty : CType} {group step origin : Nat} {body : List Byte} (h : s.keepsNet t) :
    s.keepsNet (t.floodAcked fromLink ty group step origin body) :=
  .foldl (fun _ _ hu => (hu.and (does_sendFrame rfl (.refl _ _))).modFabric) h

theorem issueMark {p : Nat} {m : Mark} (h : s.keepsNet t) : s.keepsNet (t.issueMark p m) := by
  unfold State.issueMark
  extract_lets s1 s2 s3
  have h2 : s.keepsNet s2 := h.modFabric.floodAcked
  have h3 : s.keepsNet s3 := .ite h2 (h2.and (does_modSlot rfl (.refl _ _)))
  exact .ite h3 (h3.and (does_acceptMark rfl (.refl _ _)))

theorem haltSlot {p cause : Nat} (h : s.keepsNet t) : s.keepsNet (t.haltSlot p cause) := h.and (does_haltSlot rfl (.refl _ t))

theorem haltForPeer {id : Nat} (h : s.keepsNet t) : s.keepsNet (t.haltForPeer id) := by
  refine .foldl (fun _ _ hu => .ite hu (.ite (.ite hu.issueMark.haltSlot hu) ?_)) h
  split
  · exact .ite hu.haltSlot hu
  · exact hu

theorem fatalEnd (h : s.keepsNet t) : s.keepsNet t.fatalEnd := by
  unfold State.fatalEnd
  dsimp only
  refine .foldl (fun _ _ hu => hu.and (does_rowFail rfl (.refl _ _))) ?_
  refine .foldl (fun _ _ hu => hu.collEnd) ?_
  refine .foldl (fun _ _ hu => hu.and (does_fatalQueue rfl (.refl _ _))) ?_
  exact .foldl (fun _ _ hu => hu.and (does_fatalSlot rfl (.refl _ _))) h

theorem afterLoss {was : State} (h : s.keepsNet t) : s.keepsNet (t.afterLoss was) := by
  unfold State.afterLoss
  extract_lets s1
  have h1 : s.keepsNet s1 := .ite h.fatalEnd h
  exact .ite (h1.and (does_bulkExpire rfl (.refl _ _))) h1

end State.keepsNet

end Sys2Proof.Machine
end

section
/-! PROOFS. Liveness: the LIVE frames of a module and of its peers, and the loss of a peer (R391). -/

namespace Sys2Proof.Machine

/-! ### The commands as the operations they carry out -/

theorem formed_of_true {ok : Bool} (h : ok = true) (why : String) (t : State) : formed ok why t = .next t := by
  rw [formed, if_pos h]

theorem exec_liveSend (s : State) : exec .liveSend s = .next s.liveSend := rfl
theorem exec_liveReceive {f : List Byte} (h : wfFrame f = true) (l : Fin 96) (s : State) :
    exec (.liveReceive l f) s = .next ((s.liveReceive l f).afterLoss s) := formed_of_true h ..
theorem exec_peerLost (id : Fin 64) (s : State) : exec (.peerLost id) s = .next ((s.peerTimeout id).afterLoss s) := rfl
theorem exec_messageResend (s : State) : exec .messageResend s = .next s.messageResend := rfl
theorem exec_transactionTimeout (s : State) : exec .transactionTimeout s = .next (s.transactionTimeout.afterLoss s) := rfl

section
variable {b : List Byte} (h : wfMessage b = true) (l : Fin 96) (s : State)
include h

theorem exec_messageForward (sub : Fin 2) : exec (.messageForward l sub b) s = .next (s.messageForward l sub b) := formed_of_true h ..
theorem exec_remoteWrite : exec (.remoteWrite l b) s = .next ((s.remoteWrite l b).afterLoss s) := formed_of_true h ..
theorem exec_remoteRead : exec (.remoteRead l b) s = .next ((s.remoteRead l b).afterLoss s) := formed_of_true h ..
theorem exec_remoteSignal : exec (.remoteSignal l b) s = .next (s.remoteSignal l b) := formed_of_true h ..
theorem exec_remoteResp : exec (.remoteResp l b) s = .next ((s.remoteResp l b).afterLoss s) := formed_of_true h ..
theorem exec_relayReceive : exec (.relayReceive l b) s = .next (s.relayReceive l b) := formed_of_true h ..
theorem exec_relayRespReceive : exec (.relayRespReceive l b) s = .next ((s.relayResp l b).afterLoss s) := formed_of_true h ..
end

/-! ### Flooded frames -/

theorem State.foldl_sendFrame_out (t : CType) (body : List Byte) (ls : List Nat) (s : State) :
    (ls.foldl (fun s l => s.sendFrame l t 0 true body) s).out = s.out ++ ls.map fun l => floodOut l t body := by
  induction ls generalizing s with
  | nil => simp
  | cons l ls ih =>
    have hl : (s.sendFrame l t 0 true body).out = s.out ++ [floodOut l t body] := rfl
    rw [List.foldl_cons, ih, hl, List.append_assoc]
    rfl

/-- A flooded frame leaves on one link of every bundle that it does not come from (R389). -/
theorem State.floodFrame_out (s : State) (came : Option Nat) (t : CType) (body : List Byte) :
    (s.floodFrame came t body).out = s.out ++ (s.floodLinks came).map fun l => floodOut l t body :=
  State.foldl_sendFrame_out ..

theorem State.floodFrame_frame (s : State) (came : Option Nat) (t : CType) (body : List Byte) :
    s.onlyChanges [.links, .out] (s.floodFrame came t body) :=
  onlyChanges_of (does_floodFrame (m := 562949957615616) rfl (.refl _ s)) (by decide)

/-- The links a flooded frame takes depend on the registers, the links fitted and their states alone. -/
theorem State.floodLinks_congr {s t : State} (hr : t.regs = s.regs) (hi : t.ident = s.ident) (hl : t.links = s.links) (came : Option Nat) :
    t.floodLinks came = s.floodLinks came := by
  have hreg (k : Nat) : t.reg k = s.reg k := State.reg_congr hr k
  have hn : t.nBundles = s.nBundles := by rw [State.nBundles, hreg, State.nBundles]
  have hw : t.bundleW = s.bundleW := by rw [State.bundleW, hn, hi, State.bundleW]
  have hd : t.bundleDim = s.bundleDim := by funext b; simp only [State.bundleDim, State.dims, State.fld, hreg]
  have ho : t.bundleOf = s.bundleOf := by funext l; rw [State.bundleOf, hn, hw, State.bundleOf]
  have hk : t.link = s.link := by funext l; rw [State.link, hl, State.link]
  have hp (b : Nat) : t.pickLink b = s.pickLink b := by rw [State.pickLink, State.upLinks, hw, hk, State.pickLink, State.upLinks]
  simp only [State.floodLinks, hn, hd, ho, hp]

/-! ### LIVE frames (R391) -/

theorem State.liveSend_alone {s : State} (h : s.joined = false) : s.liveSend = s := by
  simp [State.liveSend, h]

/-- The module as it floods its LIVE frame: its period has run, and the frame's number is used. -/
def State.liveDue (s : State) : State :=
  (s.periodic liveTimer (10 * usTicks)).modFabric fun f => { f with liveSeq := (f.liveSeq + 1) % 65536 }

theorem State.liveSend_joined {s : State} (h : s.joined = true) :
    s.liveSend = s.liveDue.floodFrame none .live
      (toLe 1 s.boot.slotId ++ zeros 1 ++ toLe 2 s.fabric.liveSeq ++ toLe 4 s.fabric.epoch ++ toLe 8 s.liveDue.ct ++ zeros 8) := by
  simp only [State.liveSend, h, Bool.not_true, Bool.false_eq_true, if_false]
  rfl

/-- A joined module floods its LIVE frame when 10 us have passed since the last. -/
theorem State.liveSend_floods {s : State} (h : s.joined = true) :
    s.liveSend.clk = max s.clk (s.timers.get 0 liveTimer + 10 * usTicks)
      ∧ s.liveSend.fabric.liveSeq = (s.fabric.liveSeq + 1) % 65536
      ∧ s.onlyChanges [.clk, .time, .timers, .links, .fabric, .out] s.liveSend
      ∧ s.liveSend.out = s.out ++ (s.floodLinks none).map fun l =>
          floodOut l .live (toLe 1 s.boot.slotId ++ zeros 1 ++ toLe 2 s.fabric.liveSeq ++ toLe 4 s.fabric.epoch ++ toLe 8 s.liveSend.ct
            ++ zeros 8) := by
  have hsend := State.liveSend_joined h
  have hflood : s.liveDue.onlyChanges [.links, .out] s.liveSend := by rw [hsend]; exact State.floodFrame_frame _ _ _ _
  have hclk : s.liveSend.clk = s.liveDue.clk := hflood .clk (by decide)
  have htime : s.liveSend.time = s.liveDue.time := hflood .time (by decide)
  have hfab : s.liveSend.fabric = s.liveDue.fabric := hflood .fabric (by decide)
  have hlinks : s.liveDue.floodLinks none = s.floodLinks none := State.floodLinks_congr (by simp [State.liveDue])
    (by simp [State.liveDue]) (by simp [State.liveDue]) none
  refine ⟨?_, ?_, onlyChanges_of (does_liveSend (m := 9570149212356881) rfl (.refl _ s)) (by decide), ?_⟩
  · rw [hclk]
    exact s.clk_waitClk _
  · rw [hfab, State.liveDue, State.fabric_modFabric, State.periodic_fabric]
  · have hout : s.liveDue.out = s.out := by simp [State.liveDue]
    have hct : s.liveSend.ct = s.liveDue.ct := by rw [State.ct, htime, State.ct]
    rw [hct, hsend, State.floodFrame_out, hlinks, hout]

/-- A LIVE frame is no newer than the last heard of its peer: of the same boot, and at most 32,767 behind. -/
def Peer.isOld (p : Peer) (epoch seq : Nat) : Bool :=
  p.epoch == some epoch && (match p.seq with | some n => decide ((65536 + n - seq) % 65536 < 32768) | none => false)

theorem Peer.isOld_of_behind {p : Peer} {epoch seq n : Nat} (he : p.epoch = some epoch) (hs : p.seq = some n)
    (hn : (65536 + n - seq) % 65536 < 32768) : p.isOld epoch seq = true := by
  simp [Peer.isOld, he, hs, hn]

theorem Peer.not_isOld_of_epoch {p : Peer} {epoch : Nat} (h : p.epoch ≠ some epoch) (seq : Nat) : p.isOld epoch seq = false := by
  simp [Peer.isOld, h]

theorem Peer.not_isOld_of_seq {p : Peer} {seq : Nat} (h : ∀ n, p.seq = some n → 32768 ≤ (65536 + n - seq) % 65536) (epoch : Nat) :
    p.isOld epoch seq = false := by
  cases hs : p.seq with
  | none => simp [Peer.isOld, hs]
  | some n => simp [Peer.isOld, hs, h n hs]

/-- A peer's record changed. -/
def State.modPeer (s : State) (id : Nat) (g : Peer → Peer) : State :=
  s.modFabric fun f => { f with peers := f.peers.put id (g (f.peers.get {} id)) }

@[simp] theorem State.peer_modPeer (s : State) (id : Nat) (g : Peer → Peer) :
    (s.modPeer id g).fabric.peers.get {} id = g (s.fabric.peers.get {} id) := by
  simp [State.modPeer]

/-- What a LIVE frame says of its peer. -/
def Peer.heard (p : Peer) (f : List Byte) (clk : Nat) : Peer :=
  { p with epoch := some (field f 4 4), seq := some (field f 2 2), lastClk := clk }

/-- The module that has flooded a peer's LIVE frame on and noted what it says. -/
def State.hears (s : State) (l : Nat) (f : List Byte) : State :=
  let s := s.floodFrame (some l) .live (f.take 24)
  s.modPeer (field f 0 1 % 64) fun p => p.heard f s.clk

theorem State.peer_hears (s : State) (l : Nat) (f : List Byte) :
    (s.hears l f).fabric.peers.get {} (field f 0 1 % 64) = (s.fabric.peers.get {} (field f 0 1 % 64)).heard f s.clk := by
  have hframe := s.floodFrame_frame (some l) .live (f.take 24)
  have hfab : (s.floodFrame (some l) .live (f.take 24)).fabric = s.fabric := hframe .fabric (by decide)
  have hclk : (s.floodFrame (some l) .live (f.take 24)).clk = s.clk := hframe .clk (by decide)
  rw [State.hears, State.peer_modPeer, hfab, hclk]

theorem State.hears_out (s : State) (l : Nat) (f : List Byte) :
    (s.hears l f).out = s.out ++ (s.floodLinks (some l)).map fun k => floodOut k .live (f.take 24) := s.floodFrame_out ..

/-- What a new LIVE frame makes of its peer: lost with another epoch, back where it was lost, else live (R391). -/
def State.liveNew (s : State) (l : Nat) (f : List Byte) : State :=
  let id := field f 0 1 % 64
  let p := s.fabric.peers.get {} id
  if p.epoch.isSome && !(p.epoch == some (field f 4 4)) && !p.lost then (s.hears l f).losePeer id
  else if p.lost then
    let s := (s.hears l f).modPeer id fun p => { p with live := true, lost := false }
    s.raise Pg.fab 1 { dests := some (0 :: s.peerDoms id) }
  else (s.hears l f).modPeer id fun p => { p with live := true }

theorem State.liveReceive_down {s : State} {l : Nat} (h : (s.link l).mode ≠ .up) (f : List Byte) : s.liveReceive l f = s := by
  simp [State.liveReceive, h]

theorem State.liveReceive_damaged {s : State} {l : Nat} (h : (s.link l).mode = .up) {f : List Byte} (hf : frameSound f = false) :
    s.liveReceive l f = s.modLink l fun k => { k with frameErrs := k.frameErrs + 1 } := by
  simp [State.liveReceive, h, hf]

/-- A sound LIVE frame on a link that is UP acts where it is another module's and newer than the last heard of it. -/
theorem State.liveReceive_sound {s : State} {l : Nat} (h : (s.link l).mode = .up) {f : List Byte} (hf : frameSound f = true) :
    s.liveReceive l f =
      if field f 0 1 % 64 = s.boot.slotId ∨ (s.fabric.peers.get {} (field f 0 1 % 64)).isOld (field f 4 4) (field f 2 2) = true then s
      else s.liveNew l f := by
  rw [State.liveReceive, h, hf]
  rfl

/-! ### Peers lost (R391) -/

theorem State.peerDoms_lt (s : State) (id : Nat) {d : Nat} (h : d ∈ s.peerDoms id) : d < 4 := by
  simp only [State.peerDoms, List.mem_eraseDups, List.mem_append, List.mem_map] at h
  rcases h with ⟨p, -, rfl⟩ | ⟨g, -, rfl⟩ <;> exact s.ownerOf_lt _

/-- An event about a peer goes to the steward and to the domains that have to do with the peer. -/
theorem State.peerDests_lt (s : State) (id : Nat) {d : Nat} (h : d ∈ 0 :: s.peerDoms id) : d < 4 := by
  rcases List.mem_cons.1 h with rfl | h
  · decide
  · exact s.peerDoms_lt id h

theorem isPage_fab : isPage Pg.fab := ⟨rfl, by decide, by decide⟩

/-- A peer marked lost, with the event that tells of it. -/
def State.peerDown (s : State) (id : Nat) : State :=
  let s := s.modPeer id fun p => { p with live := false, lost := true }
  s.raise Pg.fab 0 { dests := some (0 :: s.peerDoms id), status := .peerLost }

theorem State.peerDown_fabric (s : State) (id : Nat) :
    (s.peerDown id).fabric = (s.modPeer id fun p => { p with live := false, lost := true }).fabric := State.raise_fabric _ _ _ _

theorem State.peer_peerDown (s : State) (id : Nat) :
    (s.peerDown id).fabric.peers.get {} id = { s.fabric.peers.get {} id with live := false, lost := true } := by
  rw [State.peerDown_fabric, State.peer_modPeer]

theorem State.peerDown_flagged (s : State) (id : Nat) : (s.peerDown id).flagged Pg.fab 0 = true :=
  State.flagged_raise _ _ isPage_fab (by decide) fun _ _ hd => State.peerDests_lt _ _ hd

theorem State.losePeer_eq (s : State) (id : Nat) :
    s.losePeer id = State.haltForPeer (State.collPeerLost
      (((s.peerDown id).fabric.reqs.filter fun r => r.dst == id).foldl (fun s r => s.reqDone r .peerLost) (s.peerDown id)) id) id := rfl

/-- Whatever a loss takes with it, the peer stays marked lost. -/
theorem State.peer_losePeer (s : State) (id : Nat) :
    (s.losePeer id).fabric.peers.get {} id = { s.fabric.peers.get {} id with live := false, lost := true } := by
  have hreqs (rs : List Req) := State.keepsNet.foldl (l := rs) (f := fun s r => s.reqDone r .peerLost) (fun _ _ hu => hu.reqDone)
    (.refl (s.peerDown id))
  rw [State.losePeer_eq, (hreqs _).collPeerLost.haltForPeer.peers, State.peer_peerDown]

theorem State.haltForPeer_disabled {s : State} (h : ∀ p < 16, s.slotEnabled p = false) (id : Nat) : s.haltForPeer id = s := by
  have hl : ∀ ps : List Nat, (∀ p ∈ ps, p < 16) → ps.foldl (fun s p =>
      if !s.slotEnabled p then s
      else if s.slotLeader p then (if (s.members p).contains id then s.leaderHalt p 2 else s)
      else match (s.slot p).lastMark with
        | some m => if m.leader = id then s.haltSlot p 2 else s
        | none => s) s = s := by
    intro ps hps
    induction ps with
    | nil => rfl
    | cons p ps ih =>
      rw [List.foldl_cons, h p (hps p (by simp))]
      exact ih fun q hq => hps q (by simp [hq])
  exact hl _ fun p hp => List.mem_range.1 hp

/-- The enable bits of the cadence slots stand in no event register. -/
theorem State.slotEnabled_peerDown (s : State) (id : Nat) {p : Nat} (hp : p < 16) : (s.peerDown id).slotEnabled p = s.slotEnabled p := by
  have hk : eventReg (Pg.slot p) = false := by
    interval_cases p <;> rfl
  have hr : (s.peerDown id).reg (Pg.slot p) = s.reg (Pg.slot p) :=
    State.reg_raise _ _ isPage_fab (by decide) (fun _ _ hd => State.peerDests_lt _ _ hd) hk
  rw [State.slotEnabled, hr, State.slotEnabled]

/-- With nothing under way and no cadence slot enabled, a lost peer is marked and told of, and nothing else. -/
theorem State.losePeer_idle {s : State} (hr : s.fabric.reqs = []) (hc : s.fabric.colls.items = []) (he : ∀ p, s.slotEnabled p = false)
    (id : Nat) : s.losePeer id = s.peerDown id := by
  have hreqs : (s.peerDown id).fabric.reqs = [] := by rw [State.peerDown_fabric]; exact hr
  have hcolls : (s.peerDown id).fabric.colls.items = [] := by rw [State.peerDown_fabric]; exact hc
  have hcoll : (s.peerDown id).collPeerLost id = s.peerDown id := by rw [State.collPeerLost, hcolls]; rfl
  have hhalt : (s.peerDown id).haltForPeer id = s.peerDown id :=
    State.haltForPeer_disabled (fun p hp => (s.slotEnabled_peerDown id hp).trans (he p)) id
  rw [State.losePeer_eq, hreqs]
  exact (congrArg (State.haltForPeer · id) hcoll).trans hhalt

/-! ### What a new LIVE frame does (R391) -/

section
variable {s : State} {l : Nat} {f : List Byte}

/-- A frame of the boot known, or the first of its peer, refreshes the peer. -/
theorem State.liveNew_refreshes (hl : (s.fabric.peers.get {} (field f 0 1 % 64)).lost = false)
    (he : (s.fabric.peers.get {} (field f 0 1 % 64)).epoch = none ∨ (s.fabric.peers.get {} (field f 0 1 % 64)).epoch = some (field f 4 4)) :
    s.onlyChanges [.links, .fabric, .out] (s.liveNew l f)
      ∧ (s.liveNew l f).fabric.peers.get {} (field f 0 1 % 64)
          = { (s.fabric.peers.get {} (field f 0 1 % 64)).heard f s.clk with live := true }
      ∧ (s.liveNew l f).out = s.out ++ (s.floodLinks (some l)).map fun k => floodOut k .live (f.take 24) := by
  have hnew : s.liveNew l f = (s.hears l f).modPeer (field f 0 1 % 64) fun p => { p with live := true } := by
    rcases he with he | he <;> simp [State.liveNew, hl, he]
  rw [hnew, State.peer_modPeer, State.peer_hears]
  exact ⟨onlyChanges_of (m := 9570149212356608) (does_modFabric rfl (does_modFabric rfl (does_floodFrame rfl (.refl _ s)))) (by decide),
    rfl, s.hears_out l f⟩

/-- A frame of a lost peer brings it back, with the event that tells of it. -/
theorem State.liveNew_revives (hl : (s.fabric.peers.get {} (field f 0 1 % 64)).lost = true) :
    (s.liveNew l f).flagged Pg.fab 1 = true
      ∧ (s.liveNew l f).fabric.peers.get {} (field f 0 1 % 64)
          = { (s.fabric.peers.get {} (field f 0 1 % 64)).heard f s.clk with live := true, lost := false } := by
  have hnew : s.liveNew l f =
      let t := (s.hears l f).modPeer (field f 0 1 % 64) fun p => { p with live := true, lost := false }
      t.raise Pg.fab 1 { dests := some (0 :: t.peerDoms (field f 0 1 % 64)) } := by
    simp [State.liveNew, hl]
  rw [hnew]
  refine ⟨State.flagged_raise _ _ isPage_fab (by decide) fun _ _ hd => State.peerDests_lt _ _ hd, ?_⟩
  rw [State.raise_fabric _ _ _ _, State.peer_modPeer, State.peer_hears]

/-- A frame of another boot of a live peer loses the peer. -/
theorem State.liveNew_loses (hl : (s.fabric.peers.get {} (field f 0 1 % 64)).lost = false)
    (hn : (s.fabric.peers.get {} (field f 0 1 % 64)).epoch ≠ none)
    (he : (s.fabric.peers.get {} (field f 0 1 % 64)).epoch ≠ some (field f 4 4)) :
    ((s.liveNew l f).fabric.peers.get {} (field f 0 1 % 64)).live = false
      ∧ ((s.liveNew l f).fabric.peers.get {} (field f 0 1 % 64)).lost = true := by
  have hnew : s.liveNew l f = (s.hears l f).losePeer (field f 0 1 % 64) := by
    simp [State.liveNew, hl, he, Option.isSome_iff_ne_none.2 hn]
  rw [hnew, State.peer_losePeer]
  exact ⟨rfl, rfl⟩
end

/-! ### Peers not heard (R391) -/

theorem State.peerTimeout_idle {s : State} {id : Nat} (h : (s.fabric.peers.get {} id).live = false ∨ (s.fabric.peers.get {} id).lost = true) :
    s.peerTimeout id = s := by
  rcases h with h | h <;> simp [State.peerTimeout, h]

theorem State.peerTimeout_live {s : State} {id : Nat} (h1 : (s.fabric.peers.get {} id).live = true)
    (h2 : (s.fabric.peers.get {} id).lost = false) (hr : s.fabric.reqs = []) (hc : s.fabric.colls.items = [])
    (he : ∀ p, s.slotEnabled p = false) :
    s.peerTimeout id = (s.waitClk ((s.fabric.peers.get {} id).lastClk + 50 * usTicks)).peerDown id := by
  have hslots (p : Nat) : (s.waitClk ((s.fabric.peers.get {} id).lastClk + 50 * usTicks)).slotEnabled p = false := he p
  rw [← State.losePeer_idle (by simpa using hr) (by simpa using hc) hslots]
  simp [State.peerTimeout, h1, h2]

/-- With nothing under way, the loss of a peer not heard for 50 us marks it, tells of it, and changes nothing else. -/
theorem State.peerTimeout_marks {s : State} {id : Nat} (h1 : (s.fabric.peers.get {} id).live = true)
    (h2 : (s.fabric.peers.get {} id).lost = false) (hr : s.fabric.reqs = []) (hc : s.fabric.colls.items = [])
    (he : ∀ p, s.slotEnabled p = false) :
    (s.peerTimeout id).clk = max s.clk ((s.fabric.peers.get {} id).lastClk + 50 * usTicks)
      ∧ (s.peerTimeout id).fabric.peers.get {} id = { s.fabric.peers.get {} id with live := false, lost := true }
      ∧ (s.peerTimeout id).flagged Pg.fab 0 = true
      ∧ s.onlyChanges (.clk :: .time :: .fabric :: Kind.events) (s.peerTimeout id) := by
  have hclk (u : State) : (u.peerDown id).clk = u.clk := State.raise_clk _ _ _ _
  rw [State.peerTimeout_live h1 h2 hr hc he, hclk, State.clk_waitClk, State.peer_peerDown, State.waitClk_fabric]
  refine ⟨rfl, rfl, State.peerDown_flagged _ _, ?_⟩
  exact onlyChanges_of (m := 18455751272968225091) (does_raise rfl (does_modFabric rfl (does_waitClk rfl (.refl _ s)))) (by decide)

end Sys2Proof.Machine
end

section
/-! PROOFS. Messages between modules: forwarding, remote accesses and their answers, responses, repeats and time limits, relayed writes (R33, R71,
R385, R392-R394, R422). -/

namespace Sys2Proof.Machine

/-! ### Answers to messages (R392, R393) -/

/-- A message answered for the first time: its status is remembered and sent to its source. -/
abbrev State.firstAnswer (s : State) (m : Msg) (st : Status) (data : List Byte := []) : State :=
  (s.noteAnswer m.src m.tag (statusCode st)).respond m st data

@[simp] theorem State.answeredAs_noteAnswer (s : State) (src tag st : Nat) : (s.noteAnswer src tag st).answeredAs src tag = some st := by
  simp [State.answeredAs, State.noteAnswer]

theorem State.sameButDegraded.answeredAs {s t : State} (h : s.sameButDegraded t) (src tag : Nat) :
    t.answeredAs src tag = s.answeredAs src tag := by
  obtain ⟨b, h⟩ := h
  rw [State.answeredAs, h, State.answeredAs]

theorem State.answeredAs_firstAnswer (s : State) (m : Msg) (st : Status) (data : List Byte) :
    (s.firstAnswer m st data).answeredAs m.src m.tag = some (statusCode st) :=
  ((State.respond_sameButDegraded _ m st data).answeredAs ..).trans (s.answeredAs_noteAnswer ..)

theorem State.firstAnswer_frame (s : State) (m : Msg) (st : Status) (data : List Byte) :
    s.onlyChanges (.links :: .fabric :: .out :: Kind.events) (s.firstAnswer m st data) :=
  onlyChanges_of (does_respond (m := 18456314222925840450) rfl (does_noteAnswer rfl (.refl _ s))) (by decide)

theorem State.firstAnswer_keepsNet (s : State) (m : Msg) (st : Status) (data : List Byte) : s.keepsNet (s.firstAnswer m st data) :=
  State.keepsNet.trans (t := s.noteAnswer m.src m.tag (statusCode st)) ⟨rfl, rfl⟩ (State.respond_sameButDegraded ..).keepsNet

/-- A counter signalled holds the sum, or its limit where the sum exceeds it (R67). -/
theorem State.ctr_signal {s : State} {p i c : Nat} (h : s.absCtr p i = some c) (n : Nat) :
    (s.signal p i n).ctr c = min (s.ctr c + n) 0xFFFFFFFF := by
  have hc : (s.setCtr c (min (s.ctr c + n) 0xFFFFFFFF)).ctr c = min (s.ctr c + n) 0xFFFFFFFF := by simp [State.ctr, State.setCtr]
  simp only [State.signal, h]
  split
  · rwa [State.ctr, State.raiseSlot_ctrs]
  · exact hc

/-! ### Messages for other modules and for this one (R71, R385, R392) -/

section
variable {s : State} {l : Nat} {b : List Byte} {m : Msg} (hm : Msg.ofBytes b = m)
include hm

theorem State.messageForward_stays (h : (s.link l).mode ≠ .up ∨ m.dst = s.boot.slotId) (sub : Nat) : s.messageForward l sub b = s := by
  subst hm
  rcases h with h | h <;> simp [State.messageForward, h]

theorem State.messageForward_routed {k : Nat} (hl : (s.link l).mode = .up) (hd : m.dst ≠ s.boot.slotId)
    (hr : s.routeLink m.dst (s.bundleOf l) = (s, some k)) (sub : Nat) :
    s.messageForward l sub b = s.queueOn k
      { vc := kindVc m.kind, sub := s.subLane ((s.bundleOf k).getD 0) ((s.bundleOf l).map fun c => (c, sub))
        fwd := true, relay := m.kind == MKind.relay, bytes := b } := by
  subst hm
  simp [State.messageForward, hl, hd, hr]

/-- A message on a link that is not UP, for another module or of another kind does nothing. -/
theorem State.messages_elsewhere :
    (s.comesHere l m MKind.write = false → s.remoteWrite l b = s) ∧ (s.comesHere l m MKind.read = false → s.remoteRead l b = s)
      ∧ (s.comesHere l m MKind.signal = false → s.remoteSignal l b = s) ∧ (s.comesHere l m MKind.resp = false → s.remoteResp l b = s)
      ∧ (s.comesHere l m MKind.relay = false → s.relayReceive l b = s)
      ∧ (s.comesHere l m MKind.relayResp = false → s.relayResp l b = s) := by
  subst hm
  refine ⟨fun h => ?_, fun h => ?_, fun h => ?_, fun h => ?_, fun h => ?_, fun h => ?_⟩
  · simp [State.remoteWrite, h]
  · simp [State.remoteRead, h]
  · simp [State.remoteSignal, h]
  · simp [State.remoteResp, h]
  · simp [State.relayReceive, h]
  · simp [State.relayResp, h]

theorem State.remoteWrite_again (h : s.comesHere l m MKind.write = true) {st : Nat} (ha : s.answeredAs m.src m.tag = some st) :
    s.remoteWrite l b = s.respond m (statusOfCode st) := by
  subst hm
  simp [State.remoteWrite, h, ha]

theorem State.remoteWrite_noSlot (h : s.comesHere l m MKind.write = true) (ha : s.answeredAs m.src m.tag = none)
    (hg : s.groupPart m.group = none) : s.remoteWrite l b = s.firstAnswer m .access := by
  subst hm
  simp [State.remoteWrite, h, ha, hg]

theorem State.remoteWrite_outside (h : s.comesHere l m MKind.write = true) (ha : s.answeredAs m.src m.tag = none) {p : Nat}
    (hg : s.groupPart m.group = some p) (hc : s.devCheck (.part p false) (m.arg % 2 ^ 52) m.len true ≠ .ok) :
    s.remoteWrite l b = s.firstAnswer m .access := by
  subst hm
  simp [-Nat.reducePow, State.remoteWrite, h, ha, hg, hc]

/-- A WRITE within its partition is applied, and remembered with the status it ended with. -/
theorem State.remoteWrite_applied (h : s.comesHere l m MKind.write = true) (ha : s.answeredAs m.src m.tag = none) {p : Nat}
    (hg : s.groupPart m.group = some p) (hc : s.devCheck (.part p false) (m.arg % 2 ^ 52) m.len true = .ok) :
    (s.remoteWrite l b).mem = (s.devWrite (m.arg % 2 ^ 52) (m.data.take m.len)).1.mem
      ∧ (s.remoteWrite l b).answeredAs m.src m.tag = some (statusCode (s.devWrite (m.arg % 2 ^ 52) (m.data.take m.len)).2) := by
  have hw : s.remoteWrite l b = (s.devWrite (m.arg % 2 ^ 52) (m.data.take m.len)).1.firstAnswer m
      (s.devWrite (m.arg % 2 ^ 52) (m.data.take m.len)).2 := by
    subst hm
    simp [-Nat.reducePow, State.remoteWrite, h, ha, hg, hc]
  rw [hw]
  exact ⟨State.firstAnswer_frame _ _ _ _ .mem (by decide), State.answeredAs_firstAnswer ..⟩

/-- A READ served: the bytes, or the status of the read alone. -/
theorem State.remoteRead_served (h : s.comesHere l m MKind.read = true)
    (hg : (s.groupPart m.group = none ∧ s.replicaHolds (m.arg % 2 ^ 52) m.len = true)
      ∨ ∃ p, s.groupPart m.group = some p ∧ s.devCheck (.part p false) (m.arg % 2 ^ 52) m.len false = .ok) :
    let r := s.devRead (m.arg % 2 ^ 52) m.len
    s.remoteRead l b = r.1.respond m r.2.2 (if r.2.2 = .ok then r.2.1 else []) := by
  subst hm
  rcases hg with ⟨hg, hr⟩ | ⟨p, hg, hc⟩
  · simp [-Nat.reducePow, State.remoteRead, h, hg, hr]
  · simp [-Nat.reducePow, State.remoteRead, h, hg, hc]

theorem State.remoteRead_refused (h : s.comesHere l m MKind.read = true)
    (hg : (s.groupPart m.group = none ∧ s.replicaHolds (m.arg % 2 ^ 52) m.len = false)
      ∨ ∃ p, s.groupPart m.group = some p ∧ s.devCheck (.part p false) (m.arg % 2 ^ 52) m.len false ≠ .ok) :
    s.remoteRead l b = s.respond m .access := by
  subst hm
  rcases hg with ⟨hg, hr⟩ | ⟨p, hg, hc⟩
  · simp [-Nat.reducePow, State.remoteRead, h, hg, hr]
  · simp [-Nat.reducePow, State.remoteRead, h, hg, hc]

/-- A SIGNAL within its partition's bounds is applied to the counter, and remembered as done. -/
theorem State.remoteSignal_applied (h : s.comesHere l m MKind.signal = true) (ha : s.answeredAs m.src m.tag = none) {p c : Nat}
    (hg : s.groupPart m.group = some p) (hi : m.arg % 2 ^ 15 < s.fld (Pg.slot p + 0x030) 32 16)
    (hc : s.absCtr p (m.arg % 2 ^ 15) = some c) :
    (s.remoteSignal l b).ctr c = min (s.ctr c + m.arg / 2 ^ 32 % 2 ^ 16) 0xFFFFFFFF
      ∧ (s.remoteSignal l b).answeredAs m.src m.tag = some (statusCode .ok) ∧ (s.remoteSignal l b).mem = s.mem := by
  have hw : s.remoteSignal l b = (s.signal p (m.arg % 2 ^ 15) (m.arg / 2 ^ 32 % 2 ^ 16)).firstAnswer m .ok := by
    subst hm
    simp [-Nat.reducePow, State.remoteSignal, h, ha, hg, hi, hc]
  have hframe := (s.signal p (m.arg % 2 ^ 15) (m.arg / 2 ^ 32 % 2 ^ 16)).firstAnswer_frame m .ok []
  have hctrs := hframe .ctrs (by decide)
  rw [hw]
  refine ⟨?_, State.answeredAs_firstAnswer .., (hframe .mem (by decide)).trans (State.signal_mem ..)⟩
  rw [State.ctr, hctrs]
  exact State.ctr_signal hc _

theorem State.remoteSignal_refused (h : s.comesHere l m MKind.signal = true) (ha : s.answeredAs m.src m.tag = none)
    (hg : s.groupPart m.group = none ∨ ∃ p, s.groupPart m.group = some p
      ∧ (s.fld (Pg.slot p + 0x030) 32 16 ≤ m.arg % 2 ^ 15 ∨ s.absCtr p (m.arg % 2 ^ 15) = none)) :
    s.remoteSignal l b = s.firstAnswer m .access := by
  subst hm
  rcases hg with hg | ⟨p, hg, hi | hc⟩
  · simp [State.remoteSignal, h, ha, hg]
  · simp [-Nat.reducePow, State.remoteSignal, h, ha, hg, Nat.not_lt.2 hi]
  · simp [-Nat.reducePow, State.remoteSignal, h, ha, hg, hc]

/-! ### Responses (R393, R422) -/

/-- A response completes the request it answers, and one that answers none does nothing. -/
theorem State.responses_complete (r : Option Req) (hr : s.reqOf m = r) :
    let t := match r with | some r => s.reqDone r (statusOfCode (m.arg % 256)) (m.data.take m.len) | none => s
    (s.comesHere l m MKind.resp = true → s.remoteResp l b = t) ∧ (s.comesHere l m MKind.relayResp = true → s.relayResp l b = t) := by
  subst hm
  constructor
  · intro h
    cases r <;> simp [State.remoteResp, h, hr]
  · intro h
    cases r <;> simp [State.relayResp, h, hr]

end

/-- Nothing waits on a record sent to a domain's relay module. -/
theorem State.reqDone_record (s : State) {r : Req} {d : Nat} (h : r.use = .record d) (st : Status) (data : List Byte) :
    s.reqDone r st data = s.dropReq r.tag := by
  simp [State.reqDone, State.useDone, h]

/-! ### Requests of this module that wait (R33, R393) -/

theorem State.messageResend_none {s : State} (h : ∀ r ∈ s.fabric.reqs, r.resent = true) : s.messageResend = s := by
  have hf : s.fabric.reqs.find? (fun r => !r.resent) = none := by simpa using h
  rw [State.messageResend, hf]

/-- The oldest request not sent again is sent again 20 us after it was sent, and marked. -/
theorem State.messageResend_oldest {s : State} {r : Req} {rs : List Req} (h : s.fabric.reqs = r :: rs) (hr : r.resent = false) :
    s.messageResend.clk = max s.clk (r.sentClk + 20 * usTicks)
      ∧ s.messageResend.fabric.reqs = (r :: rs).map fun x => if x.tag = r.tag then { x with resent := true } else x := by
  have hf : s.fabric.reqs.find? (fun r => !r.resent) = some r := by simp [h, hr]
  let u := (s.waitClk (r.sentClk + 20 * usTicks)).modFabric fun f =>
    { f with reqs := f.reqs.map fun x => if x.tag = r.tag then { x with resent := true } else x }
  obtain ⟨m, relay, hs⟩ : ∃ m relay, s.messageResend = (u.sendMsg m relay).1 := by
    rw [State.messageResend, hf]
    exact ⟨_, _, rfl⟩
  rw [hs]
  constructor
  · have hclk : (u.sendMsg m relay).1.clk = u.clk := (does_sendMsg (m := 18456314222925840450) rfl (.refl _ u)).frame .clk rfl
    rw [hclk]
    exact s.clk_waitClk _
  · obtain ⟨b, hb⟩ := u.sendMsg_sameButDegraded m relay
    simp [hb, u, h]

theorem State.transactionTimeout_request {s : State} {r : Req} {rs : List Req} (h : s.fabric.reqs = r :: rs) :
    s.transactionTimeout = (s.waitClk (r.sentClk + 100 * usTicks)).reqDone r .peerLost := by
  simp [State.transactionTimeout, h]

theorem State.transactionTimeout_nodeRead {s : State} (h : s.fabric.reqs = []) {n : NodeReq} {ns : List NodeReq} (hn : s.nodeReqs = n :: ns) :
    s.transactionTimeout = ({ s.waitClk (n.sentClk + 100 * usTicks) with nodeReqs := ns }).useDone n.use .peerLost [] := by
  simp [State.transactionTimeout, h, hn]

theorem State.transactionTimeout_none {s : State} (h : s.fabric.reqs = []) (hn : s.nodeReqs = []) : s.transactionTimeout = s := by
  simp [State.transactionTimeout, h, hn]

/-- A record's request that is the oldest is dropped after 100 us, and nothing else follows. -/
theorem State.transactionTimeout_record {s : State} {r : Req} {rs : List Req} (h : s.fabric.reqs = r :: rs) {d : Nat}
    (hu : r.use = .record d) :
    s.transactionTimeout.afterLoss s = s.transactionTimeout
      ∧ s.transactionTimeout.clk = max s.clk (r.sentClk + 100 * usTicks)
      ∧ s.transactionTimeout.fabric.reqs = rs.filter (fun x => x.tag != r.tag)
      ∧ s.onlyChanges [.clk, .time, .fabric] s.transactionTimeout := by
  rw [State.transactionTimeout_request h, State.reqDone_record _ hu]
  refine ⟨State.afterLoss_same rfl rfl, s.clk_waitClk _, by simp [State.dropReq, h], ?_⟩
  exact onlyChanges_of (m := 9007199254741249) (does_dropReq rfl (does_waitClk rfl (.refl _ s))) (by decide)

/-! ### Relayed transactions (R394) -/

/-- The relayed transactions of an origin and domain noted. -/
def State.setRelayIn (s : State) (key : Nat) (q : RelayIn) : State :=
  s.modFabric fun f => { f with relayIn := f.relayIn.put key q }

theorem State.relayNextIn_idle {s : State} {key : Nat} (h : (s.fabric.relayIn.get {} key).held = []) (fuel : Nat) :
    s.relayNextIn key fuel = s := by
  cases fuel with
  | zero => rfl
  | succ n => simp [State.relayNextIn, h]

theorem State.relayNextIn_next {s : State} {key n : Nat} {b : List Byte}
    (h : s.fabric.relayIn.get {} key = { next := n, held := [(n, b)] }) (fuel : Nat) :
    s.relayNextIn key (fuel + 1)
      = ((s.setRelayIn key { next := (n + 1) % 256, held := [] }).relayApply (Msg.ofBytes b)).relayNextIn key fuel := by
  simp [State.relayNextIn, h, State.setRelayIn]

/-- A relayed write of a domain attached here and not wedged is applied as its own write, and answered. -/
theorem State.relayApply_write {s : State} {m : Msg} (hr : s.isReady = true) (hg : m.group < 4) (ha : s.attached m.group = true)
    (hw : s.wedged m.group = false) (ho : (m.trans s.boot.slotId).op = 4) :
    s.relayApply m = ((s.memWrite m.group (m.trans s.boot.slotId)).1.afterLoss s).firstAnswer m
      (s.memWrite m.group (m.trans s.boot.slotId)).2 := by
  have hd : m.group % 4 = m.group := Nat.mod_eq_of_lt hg
  have hn : m.group / 4 % 2 ≠ 1 := by omega
  simp [State.relayApply, hd, hn, ha, hw, State.nodeApply, State.nodeMem, ho, hr]

/-- A relayed write that is the next in sequence, with none held: taken at once, the sequence going on. -/
theorem State.relayReceive_write {s : State} {l : Nat} {b : List Byte} {m : Msg} (hm : Msg.ofBytes b = m)
    (h : s.comesHere l m MKind.relay = true) (ha : s.answeredAs m.src m.tag = none) (hg : m.group < 4) (hat : s.attached m.group = true)
    (hw : s.wedged m.group = false) (hr : s.isReady = true) {q : RelayIn} (hq : s.fabric.relayIn.get {} (m.src * 8 + m.group % 8) = q)
    (hn : m.arg / 2 ^ 56 % 256 = q.next) (hh : q.held = []) (ho : (m.trans s.boot.slotId).op = 4) :
    let key := m.src * 8 + m.group % 8
    let u := (s.setRelayIn key { q with held := [(q.next, b)] }).setRelayIn key { next := (q.next + 1) % 256, held := [] }
    let w := u.memWrite m.group (m.trans s.boot.slotId)
    s.relayReceive l b = (w.1.afterLoss u).firstAnswer m w.2 := by
  intro key u w
  have hrec : s.relayReceive l b = (s.setRelayIn key { q with held := [(q.next, b)] }).relayNextIn key 65 := by
    subst hm
    simp [-Nat.reducePow, State.relayReceive, h, ha, hq, hn, hh, key, State.setRelayIn]
  have happly : u.relayApply m = (w.1.afterLoss u).firstAnswer m w.2 := State.relayApply_write hr hg hat hw ho
  have hnext : (s.setRelayIn key { q with held := [(q.next, b)] }).relayNextIn key 65 = (u.relayApply m).relayNextIn key 64 := by
    subst hm
    exact State.relayNextIn_next (by simp [State.setRelayIn]) 64
  have hkeep : u.keepsNet (u.relayApply m) := by
    rw [happly]
    have hwrite : u.keepsNet w.1 := .and (.refl u) (does_memWrite rfl (.refl _ u))
    exact hwrite.afterLoss.trans (State.firstAnswer_keepsNet ..)
  rw [hrec, hnext, State.relayNextIn_idle _ 64, happly]
  rw [hkeep.relayIn]
  simp [u, State.setRelayIn]

/-! ### The statement -/

/-- A sound LIVE frame of another module that is not old acts as a new one. -/
theorem exec_liveReceive_new {s : State} {l : Fin 96} {f : List Byte} (hf : wfFrame f = true) (hl : (s.link l).mode = .up)
    (hs : frameSound f = true) (hid : field f 0 1 % 64 ≠ s.boot.slotId)
    (hold : (s.fabric.peers.get {} (field f 0 1 % 64)).isOld (field f 4 4) (field f 2 2) = false) :
    exec (.liveReceive l f) s = .next ((s.liveNew l f).afterLoss s) := by
  rw [exec_liveReceive hf, State.liveReceive_sound hl hs, if_neg]
  simp [hid, hold]

/-- The commands of messages for this module, by the kind each takes. -/
def messageCommands (l : Fin 96) (b : List Byte) : List (Nat × Instr) :=
  [(MKind.write, .remoteWrite l b), (MKind.read, .remoteRead l b), (MKind.signal, .remoteSignal l b), (MKind.resp, .remoteResp l b),
    (MKind.relay, .relayReceive l b), (MKind.relayResp, .relayRespReceive l b)]

theorem exec_message_elsewhere {b : List Byte} (hb : wfMessage b = true) {s : State} {l : Fin 96} {kind : Nat} {c : Instr}
    (hk : (messageCommands l b).contains (kind, c) = true) (hc : s.comesHere l (Msg.ofBytes b) kind = false) : exec c s = .next s := by
  obtain ⟨hwrite, hread, hsignal, hresp, hrelay, hrelayResp⟩ := State.messages_elsewhere (s := s) (l := l) (b := b) rfl
  simp only [messageCommands, List.contains_iff_mem, List.mem_cons, List.not_mem_nil, or_false, Prod.mk.injEq] at hk
  rcases hk with ⟨rfl, rfl⟩ | ⟨rfl, rfl⟩ | ⟨rfl, rfl⟩ | ⟨rfl, rfl⟩ | ⟨rfl, rfl⟩ | ⟨rfl, rfl⟩
  · rw [exec_remoteWrite hb, hwrite hc, State.afterLoss_self]
  · rw [exec_remoteRead hb, hread hc, State.afterLoss_self]
  · rw [exec_remoteSignal hb, hsignal hc]
  · rw [exec_remoteResp hb, hresp hc, State.afterLoss_self]
  · rw [exec_relayReceive hb, hrelay hc]
  · rw [exec_relayRespReceive hb, hrelayResp hc, State.afterLoss_self]

/-- REMOTE_RESP and RELAY_RESP_RECEIVE. -/
theorem exec_response {b : List Byte} (hb : wfMessage b = true) {m : Msg} (hm : Msg.ofBytes b = m) {s : State} {l : Fin 96} {kind : Nat}
    {c : Instr} (hk : (kind = MKind.resp ∧ c = .remoteResp l b) ∨ (kind = MKind.relayResp ∧ c = .relayRespReceive l b))
    (h : s.comesHere l m kind = true) :
    (s.reqOf m = none → exec c s = .next s)
      ∧ ∀ r, s.reqOf m = some r →
          exec c s = .next ((s.reqDone r (statusOfCode (m.arg % 256)) (m.data.take m.len)).afterLoss s) := by
  refine ⟨fun hr => ?_, fun r hr => ?_⟩
  · obtain ⟨hresp, hrelayResp⟩ := State.responses_complete (l := l) hm none hr
    rcases hk with ⟨rfl, rfl⟩ | ⟨rfl, rfl⟩
    · rw [exec_remoteResp hb, hresp h, State.afterLoss_self]
    · rw [exec_relayRespReceive hb, hrelayResp h, State.afterLoss_self]
  · obtain ⟨hresp, hrelayResp⟩ := State.responses_complete (l := l) hm (some r) hr
    rcases hk with ⟨rfl, rfl⟩ | ⟨rfl, rfl⟩
    · rw [exec_remoteResp hb, hresp h]
    · rw [exec_relayRespReceive hb, hrelayResp h]

/-- Settles O43, command by command: each case is what the command's operation does under the case's conditions. A new boot of a peer leaves it
lost, and a relayed write leaves its sequence taken, because no completion, halt or loss that follows touches the records of peers and of
relayed transactions (`State.keepsNet`). -/
theorem fabricTraffic : Obligations.FabricTraffic := by
  unfold Obligations.FabricTraffic
  intro s
  refine ⟨fun hj => ?_, fun hj => ⟨_, exec_liveSend s, State.liveSend_floods hj⟩, fun l f hf => ?_, fun id => ?_, fun l b hb => ?_,
    fun r rs hr => ?_, fun r rs hr hn => ?_, fun hr => ?_, fun hr hn => ?_⟩
  · rw [exec_liveSend, State.liveSend_alone hj]
  · refine ⟨fun hl => ?_, fun hl hd => ?_, fun hl hs hid => ?_, fun n hl hs he hq hn => ?_, fun hl hs hid => ⟨fun hlost hc => ?_,
      fun hlost hc => ?_, fun hlost hn he => ?_⟩⟩
    · rw [exec_liveReceive hf, State.liveReceive_down hl, State.afterLoss_self]
    · rw [exec_liveReceive hf, State.liveReceive_damaged hl hd]
      exact congrArg _ (State.afterLoss_same rfl rfl)
    · rw [exec_liveReceive hf, State.liveReceive_sound hl hs, if_pos (.inl hid), State.afterLoss_self]
    · rw [exec_liveReceive hf, State.liveReceive_sound hl hs, if_pos (.inr (Peer.isOld_of_behind he hq hn)), State.afterLoss_self]
    · rcases hc with he | ⟨he, hq⟩
      · exact ⟨_, exec_liveReceive_new hf hl hs hid (Peer.not_isOld_of_epoch (by simp [he]) _), State.liveNew_refreshes hlost (.inl he)⟩
      · exact ⟨_, exec_liveReceive_new hf hl hs hid (Peer.not_isOld_of_seq hq _), State.liveNew_refreshes hlost (.inr he)⟩
    · refine ⟨_, exec_liveReceive_new hf hl hs hid ?_, State.liveNew_revives hlost⟩
      exact hc.elim (Peer.not_isOld_of_epoch · _) (Peer.not_isOld_of_seq · _)
    · exact ⟨_, exec_liveReceive_new hf hl hs hid (Peer.not_isOld_of_epoch he _), State.liveNew_loses hlost hn he⟩
  · refine ⟨fun h => ?_, fun hlive hlost hr hc he => ⟨_, exec_peerLost id s, State.peerTimeout_marks hlive hlost hr hc he⟩⟩
    rw [exec_peerLost, State.peerTimeout_idle h, State.afterLoss_self]
  · refine ⟨fun sub => ⟨fun h => ?_, fun k hl hd hr => ?_⟩, fun kind c hk hc => exec_message_elsewhere hb hk hc,
      fun h => ⟨fun st ha => ?_, fun ha hg => ?_, fun p ha hg => ⟨fun hc => ?_, fun hc => ?_⟩⟩,
      fun h => ⟨fun hg hr => ?_, fun hg hr => ?_, fun p hg => ⟨fun hc => ?_, fun hc => ?_⟩⟩,
      fun h ha => ⟨fun p c hg hi hc => ?_, fun hg => ?_⟩, fun kind c hk h => ?_, fun h ha hg hat hw hr => ?_⟩
    · rw [exec_messageForward hb, State.messageForward_stays rfl h]
    · rw [exec_messageForward hb, State.messageForward_routed rfl hl hd hr]
    · rw [exec_remoteWrite hb, State.remoteWrite_again rfl h ha]
    · rw [exec_remoteWrite hb, State.remoteWrite_noSlot rfl h ha hg]
    · rw [exec_remoteWrite hb, State.remoteWrite_outside rfl h ha hg hc]
    · exact ⟨_, exec_remoteWrite hb l s, State.remoteWrite_applied rfl h ha hg hc⟩
    · rw [exec_remoteRead hb, State.remoteRead_refused rfl h (.inl ⟨hg, hr⟩)]
    · rw [exec_remoteRead hb, State.remoteRead_served rfl h (.inl ⟨hg, hr⟩)]
    · rw [exec_remoteRead hb, State.remoteRead_refused rfl h (.inr ⟨p, hg, hc⟩)]
    · rw [exec_remoteRead hb, State.remoteRead_served rfl h (.inr ⟨p, hg, hc⟩)]
    · exact ⟨_, exec_remoteSignal hb l s, State.remoteSignal_applied rfl h ha hg hi hc⟩
    · rw [exec_remoteSignal hb, State.remoteSignal_refused rfl h ha hg]
    · obtain ⟨hnone, hsome⟩ := exec_response hb rfl hk h
      refine ⟨hnone, fun r hr => ⟨hsome r hr, fun d hu => ?_⟩⟩
      rw [hsome r hr, State.reqDone_record s hu]
      exact congrArg _ (State.afterLoss_same rfl rfl)
    · intro key q o hn hh ho
      rw [exec_relayReceive hb]
      exact congrArg _ (State.relayReceive_write rfl h ha hg hat hw hr rfl hn hh ho)
  · refine ⟨fun hsent => ⟨_, exec_messageResend s, State.messageResend_oldest hr hsent⟩, ?_, fun d hu => ?_⟩
    · rw [exec_transactionTimeout, State.transactionTimeout_request hr]
    · obtain ⟨hloss, hdrop⟩ := State.transactionTimeout_record hr hu
      exact ⟨_, by rw [exec_transactionTimeout, hloss], hdrop⟩
  · rw [exec_transactionTimeout, State.transactionTimeout_nodeRead hr hn]
  · rw [exec_messageResend, State.messageResend_none hr]
  · rw [exec_transactionTimeout, State.transactionTimeout_none hr hn, State.afterLoss_self]

end Sys2Proof.Machine
end

section
/-! PROOFS. Frames of the scrub, time and cadence commands, and the idle step (R35, R40, R43, R44, R52, R56, R290). -/

namespace Sys2Proof.Machine

/-! ### Frames of commands -/

/-- The mask of a list of kinds of state. -/
def Kind.mask (ks : List Kind) : Nat := ks.foldl (fun m k => m ||| 2 ^ k.ix) 0

/-- The kinds of a list are all that its mask allows to differ: checked for each list by computation. -/
def Kind.maskFits (ks : List Kind) : Bool := Kind.list.all fun k => ks.contains k || !(Kind.mask ks).testBit k.ix

section
variable {c : Instr} {f : State → State} {ks : List Kind}

/-- A command whose effect is an operation of these kinds. -/
theorem changesOnly_of_does (hx : ∀ s, exec c s = .next (f s)) (hf : ∀ s, Does (Kind.mask ks) s (f s))
    (hk : Kind.maskFits ks = true) : changesOnly c ks := by
  intro s t h
  rw [hx] at h
  cases h
  exact onlyChanges_of (hf s) hk

/-- A command on operands that a sender may not form, whose effect is an operation of these kinds. -/
theorem changesOnly_of_formed {ok : Bool} {why : String} (hx : ∀ s, exec c s = formed ok why (f s))
    (hf : ∀ s, Does (Kind.mask ks) s (f s)) (hk : Kind.maskFits ks = true) : changesOnly c ks := by
  cases ok with
  | true => exact changesOnly_of_does hx hf hk
  | false => exact fun s t h => by rw [hx] at h; cases h

/-- A command that is an operation of these kinds and what a stop that it found takes with it. -/
theorem lossesOnly_of_does (hx : ∀ s, exec c s = .next ((f s).afterLoss s)) (hf : ∀ s, Does (Kind.mask ks) s (f s))
    (hk : Kind.maskFits ks = true) : lossesOnly c ks := by
  intro s t h
  rw [hx] at h
  cases h
  exact ⟨f s, rfl, onlyChanges_of (hf s) hk⟩

end

/-- Settles O54, command by command, from the kinds of state that each command's operation touches. -/
theorem timeAndCadenceFrames : Obligations.TimeAndCadenceFrames := by
  refine ⟨fun l f => ?_, fun p => ?_, fun p => ?_, fun p => ?_, ?_, fun p => ?_, fun p => ?_, fun head => ?_, fun l f => ?_, ?_, fun u => ?_,
    fun src f => ?_, ?_, fun l dst flood f => ?_, fun p => ?_, fun p => ?_, fun p => ?_, fun p => ?_⟩
  · exact changesOnly_of_formed (fun _ => rfl) (fun s => does_ackReceive (by decide) (.refl _ s)) (by decide)
  · exact changesOnly_of_does (fun _ => rfl) (fun s => does_cursorResume (by decide) (.refl _ s)) (by decide)
  · exact changesOnly_of_does (fun _ => rfl) (fun s => does_markEffect (by decide) (.refl _ s)) (by decide)
  · exact changesOnly_of_does (fun _ => rfl) (fun s => does_idleClose (by decide) (.refl _ s)) (by decide)
  · exact changesOnly_of_does (fun _ => rfl) (fun s => does_frameResend (by decide) (.refl _ s)) (by decide)
  · simp only [List.forall_mem_cons, List.not_mem_nil, false_implies, implies_true, and_true]
    exact ⟨changesOnly_of_does (fun _ => rfl) (fun s => does_markTimeout (by decide) (.refl _ s)) (by decide),
      changesOnly_of_does (fun _ => rfl) (fun s => does_stepLimit (by decide) (.refl _ s)) (by decide)⟩
  · exact lossesOnly_of_does (fun _ => rfl) (fun s => does_planEmpty (by decide) (.refl _ s)) (by decide)
  · exact changesOnly_of_does (fun _ => rfl) (fun s => does_upstreamChange (by decide) (.refl _ s)) (by decide)
  · exact changesOnly_of_formed (fun _ => rfl) (fun s => does_markReceive (by decide) (.refl _ s)) (by decide)
  · simp only [List.forall_mem_cons, List.not_mem_nil, false_implies, implies_true, and_true]
    exact ⟨changesOnly_of_does (fun _ => rfl) (fun s => does_beaconMiss (by decide) (.refl _ s)) (by decide),
      changesOnly_of_does (fun _ => rfl) (fun s => does_holdoverExpire (by decide) (.refl _ s)) (by decide)⟩
  · exact lossesOnly_of_does (fun _ => rfl) (fun s => does_hardenScrub (by decide) (.refl _ s)) (by decide)
  · exact changesOnly_of_formed (fun _ => rfl) (fun s => does_beaconReceive (by decide) (.refl _ s)) (by decide)
  · exact changesOnly_of_does (fun _ => rfl) (fun s => does_boundTimeout (by decide) (.refl _ s)) (by decide)
  · exact changesOnly_of_formed (fun _ => rfl) (fun s => does_doneReceive (by decide) (.refl _ s)) (by decide)
  · exact changesOnly_of_does (fun _ => rfl) (fun s => does_stepDone (by decide) (.refl _ s)) (by decide)
  · exact lossesOnly_of_does (fun _ => rfl) (fun s => does_markSend (by decide) (.refl _ s)) (by decide)
  · intro c hc
    simp only [List.mem_cons, List.not_mem_nil, or_false] at hc
    rcases hc with rfl | rfl | rfl | rfl | rfl
    all_goals exact lossesOnly_of_does (fun _ => rfl) (fun s => does_schedFire (by decide) (.refl _ s)) (by decide)
  · exact lossesOnly_of_does (fun _ => rfl) (fun s => does_stepStart (by decide) (.refl _ s)) (by decide)

/-! ### The idle step -/

/-- Of 256 ticks one completes a block. -/
theorem blocks_in_tick (clk : Nat) : (clk + 1) / 256 - clk / 256 = if (clk + 1) % 256 = 0 then 1 else 0 := by
  split <;> omega

theorem slewAdvance_standing {t : TimeState} (h : t.running = false) (clk n : Nat) : slewAdvance clk n t = t := by
  simp [slewAdvance, h]

/-- A tick that slews nothing out: CT counts it (R40). -/
theorem slewAdvance_counts {clk : Nat} {t : TimeState} (h : t.running = true) (hs : t.slew = 0 ∨ (clk + 1) % 256 ≠ 0) :
    slewAdvance clk 1 t = { t with ct := t.ct + 1 } := by
  have hk : min ((clk + 1) / 256 - clk / 256) t.slew.natAbs = 0 := by
    rw [blocks_in_tick]
    rcases hs with hs | hs <;> simp [hs]
  simp [slewAdvance, h, hk]

/-- The tick that completes a block is skipped while CT is ahead (R44). -/
theorem slewAdvance_skips {clk : Nat} {t : TimeState} (h : t.running = true) (hs : 0 < t.slew) (hb : (clk + 1) % 256 = 0) :
    slewAdvance clk 1 t = { t with slew := t.slew - 1 } := by
  have hk : min ((clk + 1) / 256 - clk / 256) t.slew.natAbs = 1 := by
    rw [blocks_in_tick, if_pos hb]; omega
  simp [slewAdvance, h, hk, hs.le]

/-- The tick that completes a block is doubled while CT is behind (R44). -/
theorem slewAdvance_doubles {clk : Nat} {t : TimeState} (h : t.running = true) (hs : t.slew < 0) (hb : (clk + 1) % 256 = 0) :
    slewAdvance clk 1 t = { t with ct := t.ct + 2, slew := t.slew + 1 } := by
  have hk : min ((clk + 1) / 256 - clk / 256) t.slew.natAbs = 1 := by
    rw [blocks_in_tick, if_pos hb]; omega
  simp [slewAdvance, h, hk, not_le.2 hs]

/-- Settles O2: the idle step is one tick, and CT is where the tick takes it. -/
theorem idleStepTicks : Obligations.IdleStepTicks := by
  intro s h
  refine ⟨s.advance 1, by simp [step, h], rfl, onlyChanges_of (does_advance (m := 257) rfl (.refl _ s)) (by decide),
    fun hr => slewAdvance_standing hr _ _, fun hr hs => slewAdvance_counts hr hs, fun hr hs hb => slewAdvance_skips hr hs hb,
    fun hr hs hb => slewAdvance_doubles hr hs hb⟩

end Sys2Proof.Machine
end

section
/-! PROOFS. What reset leaves of the module's units (R40, R100, R146, R405, R502). -/

namespace Sys2Proof.Machine

/-- A register at reset reads its reset value. -/
theorem State.reg_reset (k : Nat) : State.reset.reg k = resetVal k := vote_same _

/-- A byte of any memory but the flash reads zero at reset. -/
theorem State.rdMem_reset {sp : Space} {o : Nat} (h : sp.key o < 8 * 2 ^ 60) : State.reset.rdMem sp o 1 = [0] := by
  simp only [State.rdMem, Mem.getN, List.range_one, List.map_cons, List.map_nil, Nat.add_zero, List.cons.injEq, and_true]
  exact if_neg (Nat.not_le.2 h)

/-- Settles O9: the units' tables are empty, the registers at their reset values. -/
theorem resetUnitState : Obligations.ResetUnitState := by
  refine ⟨rfl, rfl, rfl, rfl, rfl, fun k => ⟨rfl, rfl, fun i => ⟨rfl, rfl, rfl⟩⟩, fun k hk r hr => ?_, by decide, rfl, fun k hk o ho => ?_,
    fun l => rfl, fun g => ⟨rfl, rfl⟩, fun q => rfl, ?_, fun l hl => ?_, by decide +kernel⟩
  · rw [State.reg_reset]
    have h : ∀ k < 16, ∀ r < 16, resetVal (keyAt (Pg.ws k + 0x108) r) = 0 := by decide +kernel
    exact h k hk r hr
  · exact State.rdMem_reset (by simp only [Space.key, Space.base]; omega)
  · rw [State.reg_reset]
    decide +kernel
  · simp only [State.reg_reset]
    have h : ∀ l < 96, resetVal (Pg.lnk l + 0x100) = pack [(1, 1), (50, 16), (1000, 32)]
        ∧ ∀ o ∈ [0x110, 0x118, 0x120, 0x128, 0x130, 0x138, 0x148], resetVal (Pg.lnk l + o) = 0 := by decide +kernel
    exact h l hl

end Sys2Proof.Machine
end

section
/-! PROOFS. A slot's configuration: what PS_CFG refuses and what it stores (R72). -/

namespace Sys2Proof.Machine

/-- A field that a mask leaves whole. -/
theorem bits_and {v m : Word} {lo n : Nat} (h : bits m lo n = 2 ^ n - 1) : bits (v &&& m) lo n = bits v lo n := by
  have hm : ∀ a b : Nat, (a &&& b) / 2 ^ lo % 2 ^ n = (a / 2 ^ lo % 2 ^ n) &&& (b / 2 ^ lo % 2 ^ n) := fun a b => by
    rw [Nat.and_div_two_pow, Nat.and_mod_two_pow]
  have h' : m.toNat / 2 ^ lo % 2 ^ n = 2 ^ n - 1 := h
  simp only [bits, BitVec.toNat_and, hm, h', Nat.and_two_pow_sub_one_eq_mod, Nat.mod_mod]

/-- A bit that a mask leaves. -/
theorem bit_and {v m : Word} {i : Nat} (h : bit m i = true) : bit (v &&& m) i = bit v i := by
  rw [bit_eq, bit_eq, bits_and]
  simpa [bit_eq] using h

/-! ### PS_CFG (R72) -/

theorem State.slotWrite_cfg (s : State) (dom p : Nat) (v : Word) : s.slotWrite dom p 0 v = s.slotEnable p v := rfl

/-- A write of PS_CFG that passes its checks. -/
theorem State.regWrite_slotCfg {s : State} {dom p : Nat} (h : s.passes dom (Pg.slot p) = true) (hp : p < 16) (v : Word) :
    s.regWrite dom (Pg.slot p) v = (s.slotEnable p v).afterLoss s :=
  State.regWrite_slot (o := 0) h hp (by decide) v

/-- Writing the slot's configuration is all of it where the slot was enabled, or is not afterwards. -/
theorem State.slotEnable_eq {s : State} {p : Nat} {v : Word} (h : s.slotEnabled p = true ∨ (s.slotCfgWrite p v).slotEnabled p = false) :
    s.slotEnable p v = s.slotCfgWrite p v := by
  unfold State.slotEnable
  rcases h with h | h <;> simp [h]

/-- An enabled slot keeps LEADER, MODE and GROUP (R72). -/
theorem State.slotCfgWrite_locked {s : State} {p : Nat} {v : Word} (hon : bit (s.reg (Pg.slot p)) 0 = true)
    (hv : bits v 1 2 ≠ bits (s.reg (Pg.slot p)) 1 2 ∨ bits v 8 8 ≠ bits (s.reg (Pg.slot p)) 8 8) :
    s.slotCfgWrite p v = s.ends .access := by
  have h1 : bits (v &&& 0xFF07#64) 1 2 = bits v 1 2 := bits_and (by decide)
  have h2 : bits (v &&& 0xFF07#64) 8 8 = bits v 8 8 := bits_and (by decide)
  have hc : (bits (s.reg (Pg.slot p)) 1 2 != bits v 1 2 || bits (s.reg (Pg.slot p)) 8 8 != bits v 8 8) = true := by
    simpa [bne_iff_ne, ne_comm] using hv
  simp only [State.slotCfgWrite, h1, h2, hon, hc, Bool.and_self, if_true]

/-- A disabled slot that stays so stores the word's defined bits. -/
theorem State.slotCfgWrite_stored {s : State} {p : Nat} {v : Word} (hoff : bit (s.reg (Pg.slot p)) 0 = false) (hv : bit v 0 = false) :
    s.slotCfgWrite p v = (s.setReg (Pg.slot p) (v &&& 0xFF07#64)).ends .ok := by
  have h0 : bit (v &&& 0xFF07#64) 0 = false := (bit_and (by decide)).trans hv
  simp [State.slotCfgWrite, hoff, h0]

/-- Settles O18: PS_CFG refuses the write of an enabled slot, and stores that of a disabled one. -/
theorem slotConfigLocked : Obligations.SlotConfigLocked := by
  intro s dom p v hp old
  simp only [exec_regWrite, State.regWrite_slotCfg hp p.isLt]
  refine ⟨fun hon hv => ?_, fun hoff hv => ?_⟩
  · rw [State.slotEnable_eq (.inl hon), State.slotCfgWrite_locked hon hv, State.afterLoss_ends]
  · have hw := State.slotCfgWrite_stored hoff hv
    have h0 : bit (v &&& 0xFF07#64) 0 = false := (bit_and (by decide)).trans hv
    have hs : (s.slotCfgWrite p v).slotEnabled p = false := by rw [hw]; simpa [State.slotEnabled] using h0
    rw [State.slotEnable_eq (.inr hs), hw, State.afterLoss_setReg_ends]
    refine ⟨_, rfl, rfl, onlyChanges_of (does_ends (m := 2 ^ 1 + 2 ^ 62) rfl (does_setReg rfl (.refl _ s))) (by decide), fun k _ hk => ?_, ?_, ?_, ?_⟩
    · exact State.reg_setReg_ne s (by simpa using hk) _
    · simpa using bits_and (by decide)
    · simpa using bits_and (by decide)
    · simpa using h0

end Sys2Proof.Machine
end

section
/-! PROOFS. Waits of the sequencers: a running sequencer whose record still holds a wait (R67, R68, R88). -/

namespace Sys2Proof.Machine

/-- Slice 0 runs a WAIT_TAKE of counter 0, while its sequencer still holds a WAIT of the same counter that has passed. -/
def heldRunner : State :=
  (seqModule { op := .waitTake, args := [0, 0, 0, 0] }).modSeq 0 fun q => { q with wait := some (.counter 0 0 false) }

/-- The held WAIT passes first and moves PC past the WAIT_TAKE, which then moves it once more. -/
theorem heldRunner_pc : (match exec (.waitTake 0 .clean) heldRunner with | .next t => (t.seq 0).pc | _ => 0) = 2 := by decide +kernel

theorem heldRunner_issues : heldRunner.issuable 0 .clean { op := .waitTake, args := [0, 0, 0, 0] } := by
  unfold State.issuable; decide +kernel

/-- Refutes O22: a running sequencer whose record still names a passed WAIT on the counter steps over two instructions at a WAIT_TAKE. -/
theorem not_sequencerWaits : ¬ Obligations.SequencerWaits := by
  intro h
  obtain ⟨hissue, -⟩ := h heldRunner 0
  obtain ⟨-, htake, -⟩ := hissue .clean { op := .waitTake, args := [0, 0, 0, 0] } 0 heldRunner_issues (by decide +kernel) (by decide +kernel)
  obtain ⟨t, ht, -, -, -, -, -, hpass⟩ := htake rfl rfl 0 (by decide +kernel)
  obtain ⟨-, hseq⟩ := hpass (Nat.zero_le _)
  have hpc : (t.seq 0).pc = 1 := congrArg Seq.pc hseq
  have htwo := heldRunner_pc
  rw [ht] at htwo
  exact absurd (hpc.symm.trans htwo) (by decide)

end Sys2Proof.Machine
end

section
/-! PROOFS. Cluster time: what the time events leave, how a time state is entered, and what misses, holdover, role writes, the choice of the
upstream link and beacons do (R41-R45, R512, R513). -/

namespace Sys2Proof.Machine

/-! ### Registers kept -/

theorem State.regsKept_refl (s : State) (ks : List Nat) : s.regsKept ks s := fun _ _ _ => rfl

theorem State.regsKept.trans {s t u : State} {ks : List Nat} (h : s.regsKept ks t) (g : t.regsKept ks u) : s.regsKept ks u :=
  fun k hk hn => (g k hk hn).trans (h k hk hn)

/-- An operation that leaves the registers alone. -/
theorem State.regsKept_of_regs {s t : State} (h : t.regs = s.regs) (ks : List Nat) : s.regsKept ks t :=
  fun k _ _ => State.reg_congr h k

theorem State.regsKept.mono {s t : State} {ks : List Nat} (h : s.regsKept [] t) : s.regsKept ks t :=
  fun k hk _ => h k hk List.not_mem_nil

/-! ### Raising an event stops nothing -/

theorem State.pushes_boot (f : State → Nat → EventRec) (ds : List Nat) (s : State) :
    (ds.foldl (fun s d => s.pushEvent d (f s d)) s).boot = s.boot := by
  induction ds generalizing s with
  | nil => rfl
  | cons d ds ih => rw [List.foldl_cons, ih]; simp

theorem State.raise_phase (s : State) (page b : Nat) (r : Raise) : (s.raise page b r).boot.phase = s.boot.phase := by
  simp only [State.raise]
  split
  · cases r.err <;> simp [State.logErr_phase]
  · rw [State.pushes_boot (fun s' _ => _)]
    split <;> cases r.err <;> simp [State.logErr_phase]

/-! ### Time events -/

theorem isPage_cad : isPage Pg.cad := ⟨rfl, by decide, by decide⟩

/-- Time events go to domains there are. -/
theorem State.timeDoms_lt (s : State) {d : Nat} (h : d ∈ s.timeDoms) : d < 4 := by
  simp only [State.timeDoms, List.mem_cons, List.mem_map] at h
  rcases h with rfl | ⟨p, -, rfl⟩
  · decide
  · exact s.ownerOf_lt p

section
variable (s : State) {b c : Nat}

theorem State.regsKept_raiseTime (hb : b < 64) : s.regsKept [] (s.raiseTime b) :=
  fun _ hk _ => s.reg_raise _ isPage_cad hb (fun _ _ hd => s.timeDoms_lt hd) hk

theorem State.flagged_raiseTime (hb : b < 64) : (s.raiseTime b).flagged Pg.cad b = true :=
  s.flagged_raise _ isPage_cad hb fun _ _ hd => s.timeDoms_lt hd

theorem State.flagged_raiseTime_keep (hc : c < 64) (h : s.flagged Pg.cad b = true) : (s.raiseTime c).flagged Pg.cad b = true :=
  s.flagged_raise_keep _ isPage_cad isPage_cad hc (fun _ _ hd => s.timeDoms_lt hd) h

@[simp] theorem State.raiseTime_time : (s.raiseTime b).time = s.time := by simp [State.raiseTime]
@[simp] theorem State.raiseTime_clk : (s.raiseTime b).clk = s.clk := by simp [State.raiseTime]
@[simp] theorem State.raiseTime_done : (s.raiseTime b).done = s.done := by simp [State.raiseTime]
@[simp] theorem State.raiseTime_bulk : (s.raiseTime b).bulk = s.bulk := by simp [State.raiseTime]
@[simp] theorem State.raiseTime_phase : (s.raiseTime b).boot.phase = s.boot.phase := State.raise_phase ..

end

/-! ### Entering a time state (R43) -/

/-- The event that tells of a time state. -/
def TimeMode.event : TimeMode → Option Nat
  | .locked => some 0
  | .holdover => some 1
  | .unlocked => some 2
  | _ => none

/-- The record of a time state as it is entered at a tick. -/
def TimeState.entered (t : TimeState) (m : TimeMode) (clk : Nat) : TimeState :=
  { t with mode := m, run := 0, everLocked := t.everLocked || m == .locked, holdClk := if m = .holdover then clk else t.holdClk }

section
variable (s : State) (m : TimeMode)

theorem State.enterTime_eq :
    s.enterTime m = match m.event with
      | some b => (s.modTime fun t => t.entered m s.clk).raiseTime b
      | none => s.modTime fun t => t.entered m s.clk := by
  cases m <;> rfl

theorem TimeMode.event_lt {m : TimeMode} {b : Nat} (h : m.event = some b) : b < 64 := by
  cases m <;> simp [TimeMode.event] at h <;> omega

@[simp] theorem State.enterTime_time : (s.enterTime m).time = s.time.entered m s.clk := by
  rw [State.enterTime_eq]; split <;> simp [State.modTime]

@[simp] theorem State.enterTime_clk : (s.enterTime m).clk = s.clk := by
  rw [State.enterTime_eq]; split <;> simp

@[simp] theorem State.enterTime_done : (s.enterTime m).done = s.done := by
  rw [State.enterTime_eq]; split <;> simp

@[simp] theorem State.enterTime_bulk : (s.enterTime m).bulk = s.bulk := by
  rw [State.enterTime_eq]; split <;> simp

@[simp] theorem State.enterTime_phase : (s.enterTime m).boot.phase = s.boot.phase := by
  rw [State.enterTime_eq]; split <;> simp

theorem State.regsKept_enterTime : s.regsKept [] (s.enterTime m) := by
  rw [State.enterTime_eq]
  split
  · next h => exact (State.regsKept_of_regs (by simp) _).trans (State.regsKept_raiseTime _ (TimeMode.event_lt h))
  · exact State.regsKept_of_regs (by simp) _

/-- Entering a time state leaves its event raised. -/
theorem State.flagged_enterTime {b : Nat} (h : m.event = some b) : (s.enterTime m).flagged Pg.cad b = true := by
  rw [State.enterTime_eq, h]
  exact State.flagged_raiseTime _ (TimeMode.event_lt h)

theorem State.flagged_enterTime_keep {b : Nat} (h : s.flagged Pg.cad b = true) : (s.enterTime m).flagged Pg.cad b = true := by
  rw [State.enterTime_eq]
  split
  · next he => exact State.flagged_raiseTime_keep _ (TimeMode.event_lt he) h
  · exact h

end

/-! ### Misses and holdover (R43, R512) -/

theorem exec_beaconMiss (s : State) : exec .beaconMiss s = .next s.beaconMiss := rfl
theorem exec_holdoverExpire (s : State) : exec .holdoverExpire s = .next s.holdoverExpire := rfl

/-- The state in which a miss has been counted, at its due tick. -/
def State.missCounted (s : State) : State :=
  (s.waitClk s.time.missDue).modTime fun t => { t with missed := sat 65535 (t.missed + 1) }

section
variable {s : State}

/-- Time passing moves CT and what is left to slew, no more of the time state. -/
theorem State.time_waitClk (due : Nat) : ∃ ct slew, (s.waitClk due).time = { s.time with ct := ct, slew := slew } := by
  simp only [State.waitClk, State.advance, slewAdvance]
  split
  · exact ⟨_, _, rfl⟩
  · split <;> exact ⟨_, _, rfl⟩

theorem State.missCounted_time :
    ∃ ct slew, s.missCounted.time = { s.time with ct := ct, slew := slew, missed := sat 65535 (s.time.missed + 1) } := by
  obtain ⟨ct, slew, h⟩ := s.time_waitClk s.time.missDue
  refine ⟨ct, slew, ?_⟩
  simp only [State.missCounted, State.modTime]
  rw [h]

@[simp] theorem State.missCounted_regs : s.missCounted.regs = s.regs := by simp [State.missCounted]
@[simp] theorem State.missCounted_clk : s.missCounted.clk = max s.clk s.time.missDue := by simp [State.missCounted]

theorem State.beaconTimeout_congr {t : State} (h : t.regs = s.regs) : t.beaconTimeout = s.beaconTimeout := by
  simp only [State.beaconTimeout, State.fld, State.reg_congr h]

theorem State.beaconMiss_counts (h : s.time.mode ≠ .free) :
    s.beaconMiss = match s.time.mode with
      | .locked => if s.beaconTimeout ≤ sat 65535 (s.time.missed + 1) then s.missCounted.enterTime .holdover else s.missCounted
      | .acquire | .unlocked => s.missCounted.modTime fun t => { t with run := 0 }
      | _ => s.missCounted := by
  obtain ⟨ct, slew, ht⟩ := s.missCounted_time
  have hb : s.missCounted.beaconTimeout = s.beaconTimeout := State.beaconTimeout_congr (by simp)
  have hm : s.missCounted.time.mode = s.time.mode := by rw [ht]
  have hn : s.missCounted.time.missed = sat 65535 (s.time.missed + 1) := by rw [ht]
  rw [← hb, ← hn, ← hm, State.beaconMiss, if_neg h]
  rfl

/-- What a miss leaves, in each time state. -/
theorem State.beaconMiss_missed (h : s.time.mode ≠ .free) :
    s.onlyChanges (.clk :: .time :: Kind.events) s.beaconMiss ∧ s.regsKept [] s.beaconMiss
      ∧ s.beaconMiss.clk = max s.clk s.time.missDue ∧ s.beaconMiss.time.missed = sat 65535 (s.time.missed + 1)
      ∧ (s.time.mode = .locked → s.beaconTimeout ≤ s.beaconMiss.time.missed →
          s.beaconMiss.time.mode = .holdover ∧ s.beaconMiss.time.holdClk = s.beaconMiss.clk ∧ s.beaconMiss.flagged Pg.cad 1 = true)
      ∧ (s.time.mode = .locked → s.beaconMiss.time.missed < s.beaconTimeout → s.beaconMiss.time.mode = .locked ∧ s.beaconMiss.regs = s.regs)
      ∧ (s.time.mode = .acquire ∨ s.time.mode = .unlocked →
          s.beaconMiss.time.mode = s.time.mode ∧ s.beaconMiss.time.run = 0 ∧ s.beaconMiss.regs = s.regs)
      ∧ (s.time.mode = .holdover → s.beaconMiss.time.mode = .holdover ∧ s.beaconMiss.regs = s.regs) := by
  obtain ⟨ct, slew, ht⟩ := s.missCounted_time
  have hkept : s.regsKept [] s.missCounted := State.regsKept_of_regs (by simp) _
  refine ⟨onlyChanges_of (does_beaconMiss (m := Kind.mask (.clk :: .time :: Kind.events)) (by decide) (.refl _ s)) (by decide), ?_⟩
  rw [State.beaconMiss_counts h]
  cases hm : s.time.mode with
  | free => exact absurd hm h
  | acquire | unlocked =>
    have hkept' := hkept.trans (State.regsKept_of_regs (t := s.missCounted.modTime fun t => { t with run := 0 }) (by simp) [])
    exact ⟨hkept', by simp, by simp [State.modTime, ht], nofun, nofun, fun _ => ⟨by simp [State.modTime, ht, hm], rfl, by simp⟩, nofun⟩
  | holdover => exact ⟨hkept, by simp, by rw [ht], nofun, nofun, nofun, fun _ => ⟨by rw [ht]; exact hm, by simp⟩⟩
  | locked =>
    by_cases hb : s.beaconTimeout ≤ sat 65535 (s.time.missed + 1)
    · simp only [if_pos hb]
      have hmissed : (s.missCounted.enterTime .holdover).time.missed = sat 65535 (s.time.missed + 1) := by
        simp [TimeState.entered, ht]
      exact ⟨hkept.trans (State.regsKept_enterTime _ _), by simp, hmissed,
        fun _ _ => ⟨by simp [TimeState.entered], by simp [TimeState.entered], State.flagged_enterTime _ _ rfl⟩,
        fun _ hn => absurd (hmissed ▸ hn) (Nat.not_lt.2 hb), nofun, nofun⟩
    · simp only [if_neg hb]
      have hmissed : s.missCounted.time.missed = sat 65535 (s.time.missed + 1) := by rw [ht]
      exact ⟨hkept, by simp, hmissed, fun _ hn => absurd (hmissed ▸ hn) hb, fun _ _ => ⟨by rw [ht]; exact hm, by simp⟩, nofun, nofun⟩

theorem State.holdoverExpire_expires (h : s.time.mode = .holdover) :
    s.holdoverExpire = (s.waitClk (s.time.holdClk + s.holdoverTicks)).enterTime .unlocked := if_pos h

end

/-! ### The time role (R41, R513) -/

theorem exec_cadTimeCtrlWrite {s : State} {dom : Fin 4} (h : s.passes dom timeCtrl = true) (v : Word) :
    exec (.cadTimeCtrlWrite dom v) s = .next ((s.timeCtrlWrite v).afterLoss s) :=
  congrArg Host.Outcome.next (State.regWrite_cad (o := 0x108) h (by decide) (by decide) v)

/-- The time role stored, with the word's defined bits. -/
def State.roleStored (s : State) (v : Word) : State := (s.setReg timeCtrl (v &&& 0x000000FFFFFF7F1F#64)).ends .ok

section
variable {s : State} {v : Word}

/-- A write of a role there is stores the word, then moves the time state by the old and the new role. -/
theorem State.timeCtrlWrite_stores (h : bits v 0 2 ≠ 3) :
    s.timeCtrlWrite v =
      if bits v 0 2 = s.role then (s.roleStored v).timeoutLowered
      else if bits v 0 2 = 0 then
        (s.roleStored v).modTime fun t => { t with mode := .free, run := 0, missed := 0, slew := 0, upstream := 127 }
      else if s.role = 0 then
        (s.roleStored v).modTime fun t => { t with mode := .acquire, run := 0, missed := 0, beaconClk := s.clk, gotFirst := false, upstream := 127 }
      else ((s.roleStored v).modTime fun t => { t with upstream := 127 }).raiseTime 4 := if_neg h

/-- The time-out in force after the write is the one written. -/
theorem State.roleStored_beaconTimeout : (s.roleStored v).beaconTimeout = max 2 (bits v 32 8) := by
  have h : bits (v &&& 0x000000FFFFFF7F1F#64) 32 8 = bits v 32 8 := bits_and (by decide)
  simp [State.beaconTimeout, State.fld, State.roleStored, h]

/-- What a step of the time state and its event leave: registers but event registers, the status, and what a stop would show in. -/
structure State.stepsTime (s t : State) : Prop where
  regs : s.regsKept [] t
  done : t.done = s.done
  phase : t.boot.phase = s.boot.phase
  bulk : t.bulk = s.bulk

theorem State.stepsTime_modTime (s : State) (f : TimeState → TimeState) : s.stepsTime (s.modTime f) :=
  ⟨State.regsKept_of_regs rfl _, rfl, rfl, rfl⟩

theorem State.stepsTime_raiseTime (s : State) {b : Nat} (hb : b < 64) : s.stepsTime (s.raiseTime b) :=
  ⟨s.regsKept_raiseTime hb, by simp, by simp, by simp⟩

theorem State.stepsTime_enterTime (s : State) (m : TimeMode) : s.stepsTime (s.enterTime m) :=
  ⟨s.regsKept_enterTime m, by simp, by simp, by simp⟩

theorem State.stepsTime.trans {s t u : State} (h : s.stepsTime t) (g : t.stepsTime u) : s.stepsTime u :=
  ⟨h.regs.trans g.regs, g.done.trans h.done, g.phase.trans h.phase, g.bulk.trans h.bulk⟩

theorem State.stepsTime_timeoutLowered (s : State) : s.stepsTime s.timeoutLowered := by
  unfold State.timeoutLowered
  split
  · exact s.stepsTime_enterTime _
  · exact ⟨s.regsKept_refl _, rfl, rfl, rfl⟩

theorem State.timeCtrlWrite_stepsTime (h : bits v 0 2 ≠ 3) : (s.roleStored v).stepsTime (s.timeCtrlWrite v) := by
  rw [State.timeCtrlWrite_stores h]
  split
  · exact State.stepsTime_timeoutLowered _
  · split
    · exact State.stepsTime_modTime ..
    · split
      · exact State.stepsTime_modTime ..
      · exact (State.stepsTime_modTime ..).trans (State.stepsTime_raiseTime _ (by decide))

/-- The register of the role after the write, and every other register (R513). -/
theorem State.timeCtrlWrite_stored (h : bits v 0 2 ≠ 3) :
    (s.timeCtrlWrite v).afterLoss s = s.timeCtrlWrite v ∧ s.onlyChanges (.time :: .done :: Kind.events) (s.timeCtrlWrite v)
      ∧ s.regsKept [timeCtrl] (s.timeCtrlWrite v) ∧ (s.timeCtrlWrite v).reg timeCtrl = v &&& 0x000000FFFFFF7F1F#64
      ∧ (s.timeCtrlWrite v).done = .ok := by
  obtain ⟨hregs, hdone, hphase, hbulk⟩ := State.timeCtrlWrite_stepsTime (s := s) h
  have hstored : s.regsKept [timeCtrl] (s.roleStored v) := fun k _ hk => State.reg_setReg_ne s (by simpa using hk) _
  refine ⟨State.afterLoss_same hphase (by rw [hbulk]; rfl), ?_, hstored.trans hregs.mono, ?_, hdone⟩
  · exact onlyChanges_of (does_timeCtrlWrite (m := Kind.mask (.time :: .done :: Kind.events)) (by decide) (.refl _ s)) (by decide)
  · rw [hregs timeCtrl (by decide) List.not_mem_nil]
    exact State.reg_setReg_self ..

end

/-! ### The upstream link (R41) -/

theorem exec_upstreamChange (head : Fin 64) (s : State) : exec (.upstreamChange head) s = .next (s.upstreamChange head) := rfl

/-- A follower that chooses its upstream link takes the lowest UP link on a shortest path. -/
theorem State.upstreamChange_takes {s : State} {head l : Nat} (hr : s.role = 2) (ha : bit (s.reg timeCtrl) 4 = true)
    (hl : ((s.towards head).flatMap s.upLinks).min? = some l) :
    s.upstreamChange head = if l = s.time.upstream then s else (s.modTime fun t => { t with upstream := l }).raiseTime 4 := by
  simp only [State.upstreamChange, hr, ha, and_self, if_true, hl]

/-- Settles O13: a miss, the holdover limit, a role written, and an upstream link chosen. -/
theorem timeStateEffects : Obligations.TimeStateEffects := by
  intro s
  refine ⟨fun h => ?_, fun h => ⟨_, exec_beaconMiss s, State.beaconMiss_missed h⟩, fun h => ?_, fun h => ?_, fun dom v hp => ?_,
    fun head l hr ha hl => ?_⟩
  · rw [exec_beaconMiss, State.beaconMiss, if_pos h]
  · refine ⟨_, exec_holdoverExpire s,
      onlyChanges_of (does_holdoverExpire (m := Kind.mask (.clk :: .time :: Kind.events)) (by decide) (.refl _ s)) (by decide), ?_⟩
    rw [State.holdoverExpire_expires h]
    exact ⟨(State.regsKept_of_regs (by simp) _).trans (State.regsKept_enterTime _ _), by simp, by simp [TimeState.entered],
      State.flagged_enterTime _ _ rfl⟩
  · rw [exec_holdoverExpire, State.holdoverExpire, if_neg h]
  · rw [exec_cadTimeCtrlWrite hp]
    refine ⟨fun h => by rw [State.timeCtrlWrite, if_pos h, State.afterLoss_ends], fun h => ?_⟩
    obtain ⟨hloss, hframe, hkept, hreg, hdone⟩ := State.timeCtrlWrite_stored (s := s) h
    refine ⟨s.timeCtrlWrite v, by rw [hloss], hframe, hkept, hreg, hdone, ?_⟩
    rw [State.timeCtrlWrite_stores h]
    refine ⟨fun hn h0 => ?_, fun hn h0 hz => ?_, fun hn h0 hz => ?_, fun hn => ?_⟩
    · rw [if_neg hn, if_pos h0]; rfl
    · rw [if_neg hn, if_neg h0, if_pos hz]; exact ⟨rfl, rfl, rfl, rfl⟩
    · rw [if_neg hn, if_neg h0, if_neg hz]
      exact ⟨by simp [State.modTime, State.roleStored], by simp [State.modTime], State.flagged_raiseTime _ (by decide)⟩
    · rw [if_pos hn, State.timeoutLowered, State.roleStored_beaconTimeout]
      split
      · next hlow => simp only [State.enterTime_time, TimeState.entered]; exact (if_pos hlow).symm
      · next hlow => exact (if_neg hlow).symm
  · rw [exec_upstreamChange, State.upstreamChange_takes hr ha hl]
    refine ⟨fun h => by rw [if_pos h], fun h => ?_⟩
    rw [if_neg h]
    exact ⟨_, rfl, onlyChanges_of (does_raiseTime (m := Kind.mask (.time :: Kind.events)) (by decide) (does_modTime (by decide) (.refl _ s))) (by decide),
      (State.stepsTime_modTime ..).regs.trans (State.regsKept_raiseTime _ (by decide)), by simp [State.modTime],
      State.flagged_raiseTime _ (by decide)⟩

/-! ### Beacons (R42-R45, R512) -/

theorem exec_beaconReceive {src : Source} {f : List Byte} (h : wfSource src f = true) (s : State) :
    exec (.beaconReceive src f) s = .next (s.beaconReceive src f) := formed_of_true h ..

/-- The first beacon of a module that has never been LOCKED: it sets CT outright (R44). -/
abbrev TimeState.firstBeacon (t : TimeState) : Prop := t.mode = .acquire ∧ t.everLocked = false ∧ t.gotFirst = false

/-- The state a beacon takes a time state to, by its offset and the state its source reports (R43, R45). -/
def TimeState.beaconMode (t : TimeState) (off : Int) (st : Nat) : TimeMode :=
  match t.mode with
  | .free => .free
  | .acquire | .unlocked => if st = 2 ∧ off.natAbs ≤ 16 ∧ t.run + 1 = 16 then .locked else t.mode
  | .locked | .holdover => if st = 2 then .locked else if st = 3 then .holdover else .unlocked

/-- The state in which a beacon has been noted: no misses, its tick, its offset and its hops (R42). -/
def State.beaconNoted (s : State) (off : Int) (hops : Nat) : State :=
  s.modTime fun t => { t with missed := 0, beaconClk := s.clk, offset := clampInt (-32767) 32767 off, hops := (hops + 1) % 128 }

/-- The state in which a beacon has corrected CT and moved the time state. -/
def State.beaconTaken (s : State) (off : Int) (st hops : Nat) : State :=
  (((s.beaconNoted off hops).correctCt off).modTime fun t => { t with gotFirst := true }).beaconState off st

/-- The link a beacon came by, on which it is not forwarded. -/
def cameBy : Source → Option Nat
  | .link l => some l.val
  | .port _ => none

/-- A sound beacon that is not accepted: a port counts it (R512). -/
def State.beaconDropped (s : State) : Source → State
  | .port i => s.bump (Pg.port i.val + 0x140) 1
  | .link _ => s

section
variable {s : State} {src : Source} {f : List Byte} {ct st hops : Nat}

theorem State.beaconReceive_damaged (h : beaconBody src f = none) : s.beaconReceive src f = s := by
  simp only [State.beaconReceive, h]

/-- A beacon not from the source in force, or in FREE, is not accepted. -/
theorem State.beaconReceive_dropped (h : beaconBody src f = some (ct, st, hops))
    (hd : s.beaconSource src = false ∨ s.time.mode = .free) :
    s.beaconReceive src f = s.beaconDropped src := by
  have hc : (!s.beaconSource src || s.time.mode == .free) = true := by
    rcases hd with hd | hd <;> simp [hd]
  simp only [State.beaconReceive, h, hc, if_true]
  cases src <;> rfl

theorem State.beaconReceive_accepted (h : beaconBody src f = some (ct, st, hops)) (hs : s.beaconSource src = true)
    (hm : s.time.mode ≠ .free) :
    s.beaconReceive src f = (s.beaconTaken (s.beaconOffset src ct) st hops).forwardBeacon (cameBy src) := by
  have hc : (!s.beaconSource src || s.time.mode == .free) = false := by simp [hs, hm]
  simp only [State.beaconReceive, h, hc, Bool.false_eq_true, if_false]
  cases src <;> rfl

/-- Forwarding a beacon touches links and what is sent alone. -/
theorem State.forwardBeacon_frame (s : State) (skip : Option Nat) : s.onlyChanges [.links, .out] (s.forwardBeacon skip) :=
  onlyChanges_of (does_forwardBeacon (m := Kind.mask [.links, .out]) (by decide) (.refl _ s)) (by decide)

end

section
variable (s : State) (off : Int) (st : Nat)

/-- CT after the correction, and what is left to slew (R44). -/
theorem State.correctCt_time :
    (s.correctCt off).time =
      if s.time.firstBeacon ∨ off < -4096 then { s.time with ct := ((s.time.ct : Int) - off).toNat, slew := 0 }
      else { s.time with slew := off } := by
  unfold State.correctCt TimeState.firstBeacon
  by_cases hf : s.time.mode = .acquire ∧ s.time.everLocked = false ∧ s.time.gotFirst = false
  · simp [hf, State.modTime]
  · by_cases ho : off < -4096 <;> simp [hf, ho, State.modTime]

/-- A module that steps CT forward raises TIME_STEP. -/
theorem State.correctCt_steps (h : ¬ s.time.firstBeacon) (ho : off < -4096) : (s.correctCt off).flagged Pg.cad 3 = true := by
  have hf : ¬ (s.time.mode = .acquire ∧ (!s.time.everLocked) = true ∧ (!s.time.gotFirst) = true) := by simpa using h
  rw [State.correctCt, if_neg hf, if_pos ho]
  exact State.flagged_raiseTime _ (by decide)

theorem State.stepsTime_correctCt : s.stepsTime (s.correctCt off) := by
  unfold State.correctCt
  split
  · exact State.stepsTime_modTime ..
  · split
    · exact (State.stepsTime_modTime ..).trans (State.stepsTime_raiseTime _ (by decide))
    · exact State.stepsTime_modTime ..

/-- A beacon leaves the time state and counts it towards LOCKED, or enters another (R43, R45). -/
theorem State.beaconState_cases :
    (s.time.beaconMode off st = s.time.mode ∧ ∃ r, s.beaconState off st = s.modTime fun t => { t with run := r })
      ∨ (s.time.beaconMode off st ≠ s.time.mode ∧ s.beaconState off st = s.enterTime (s.time.beaconMode off st)) := by
  have hstay : ∃ r, s = s.modTime fun t => { t with run := r } := ⟨s.time.run, rfl⟩
  unfold State.beaconState TimeState.beaconMode
  cases hm : s.time.mode with
  | free => exact .inl ⟨rfl, hstay⟩
  | acquire | unlocked =>
    by_cases hg : st = 2 ∧ off.natAbs ≤ 16
    · by_cases hr : s.time.run + 1 = 16
      · exact .inr (by simp [hg, hr])
      · exact .inl ⟨by simp [hr], s.time.run + 1, by simp [hg, hr, State.modTime]⟩
    · exact .inl ⟨if_neg fun h => hg ⟨h.1, h.2.1⟩, 0, by simp [hg]⟩
  | locked =>
    by_cases h2 : st = 2
    · exact .inl ⟨if_pos h2, by simpa [h2] using hstay⟩
    · by_cases h3 : st = 3 <;> exact .inr (by simp [h2, h3])
  | holdover =>
    by_cases h2 : st = 2
    · exact .inr (by simp [h2])
    · by_cases h3 : st = 3
      · exact .inl ⟨by simp [h3], by simpa [h3] using hstay⟩
      · exact .inr (by simp [h2, h3])

/-- Of the time state a beacon moves the mode, the count towards LOCKED, and the marks of LOCKED and HOLDOVER (R43, R45). -/
theorem State.beaconState_time :
    ∃ r e c, (s.beaconState off st).time
      = { s.time with mode := s.time.beaconMode off st, run := r, everLocked := e, holdClk := c } := by
  rcases s.beaconState_cases off st with ⟨hm, r, h⟩ | ⟨-, h⟩
  · exact ⟨r, s.time.everLocked, s.time.holdClk, by rw [h, hm]; rfl⟩
  · exact ⟨0, _, _, by rw [h, State.enterTime_time]; rfl⟩

theorem State.stepsTime_beaconState : s.stepsTime (s.beaconState off st) := by
  rcases s.beaconState_cases off st with ⟨-, r, h⟩ | ⟨-, h⟩ <;> rw [h]
  · exact s.stepsTime_modTime _
  · exact s.stepsTime_enterTime _

theorem State.flagged_beaconState_keep {b : Nat} (h : s.flagged Pg.cad b = true) : (s.beaconState off st).flagged Pg.cad b = true := by
  rcases s.beaconState_cases off st with ⟨-, r, he⟩ | ⟨-, he⟩ <;> rw [he]
  · exact h
  · exact s.flagged_enterTime_keep _ h

/-- A time state entered by a beacon leaves its event raised. -/
theorem State.flagged_beaconState {m : TimeMode} {b : Nat} (hb : m.event = some b) (hm : s.time.beaconMode off st = m)
    (hn : s.time.mode ≠ m) : (s.beaconState off st).flagged Pg.cad b = true := by
  rcases s.beaconState_cases off st with ⟨h, -⟩ | ⟨-, he⟩
  · exact absurd (h.symm.trans hm) hn
  · rw [he, hm]
    exact s.flagged_enterTime _ hb

end

section
variable (s : State) (off : Int) (st hops : Nat)

/-- The time state in which CT has been corrected and the beacon counts as accepted. -/
def State.beaconCorrected : State := ((s.beaconNoted off hops).correctCt off).modTime fun t => { t with gotFirst := true }

theorem State.beaconCorrected_time :
    (s.beaconCorrected off hops).time =
      { s.time with
        missed := 0, beaconClk := s.clk, offset := clampInt (-32767) 32767 off, hops := (hops + 1) % 128, gotFirst := true
        ct := if s.time.firstBeacon ∨ off < -4096 then ((s.time.ct : Int) - off).toNat else s.time.ct
        slew := if s.time.firstBeacon ∨ off < -4096 then 0 else off } := by
  have h := (s.beaconNoted off hops).correctCt_time off
  simp only [State.beaconCorrected, State.modTime, h]
  by_cases hc : s.time.firstBeacon ∨ off < -4096
  · rw [if_pos (show (s.beaconNoted off hops).time.firstBeacon ∨ off < -4096 from hc), if_pos hc, if_pos hc]; rfl
  · rw [if_neg (show ¬ ((s.beaconNoted off hops).time.firstBeacon ∨ off < -4096) from hc), if_neg hc, if_neg hc]; rfl

/-- The time state an accepted beacon leaves (R42-R45). -/
theorem State.beaconTaken_time :
    ∃ r e c, (s.beaconTaken off st hops).time =
      { (s.beaconCorrected off hops).time with mode := s.time.beaconMode off st, run := r, everLocked := e, holdClk := c } := by
  obtain ⟨r, e, c, h⟩ := (s.beaconCorrected off hops).beaconState_time off st
  have hm : (s.beaconCorrected off hops).time.beaconMode off st = s.time.beaconMode off st := by
    rw [State.beaconCorrected_time]; rfl
  exact ⟨r, e, c, hm ▸ h⟩

theorem State.stepsTime_beaconTaken : s.stepsTime (s.beaconTaken off st hops) :=
  (((s.stepsTime_modTime _).trans (State.stepsTime_correctCt _ off)).trans (State.stepsTime_modTime ..)).trans
    (State.stepsTime_beaconState _ off st)

theorem State.flagged_beaconTaken_step (h : ¬ s.time.firstBeacon) (ho : off < -4096) :
    (s.beaconTaken off st hops).flagged Pg.cad 3 = true :=
  State.flagged_beaconState_keep _ off st ((s.beaconNoted off hops).correctCt_steps off h ho)

theorem State.flagged_beaconTaken {m : TimeMode} {b : Nat} (hb : m.event = some b) (hm : s.time.beaconMode off st = m)
    (hn : s.time.mode ≠ m) : (s.beaconTaken off st hops).flagged Pg.cad b = true := by
  refine State.flagged_beaconState (s.beaconCorrected off hops) off st hb ?_ ?_ <;> rw [State.beaconCorrected_time] <;> assumption

end

/-- CT less the offset of a beacon is the source's CT, later by the way to here (R42). -/
theorem State.ct_sub_beaconOffset (s : State) (src : Source) (ct : Nat) :
    ((s.time.ct : Int) - s.beaconOffset src ct).toNat = ct + s.sourceDelay src := by
  simp only [State.beaconOffset, State.ct]
  omega

/-- Settles O14: a damaged beacon, one dropped or counted, and an accepted one. -/
theorem beaconEffect : Obligations.BeaconEffect := by
  intro s src f hf
  rw [exec_beaconReceive hf]
  refine ⟨fun h => by rw [State.beaconReceive_damaged h], fun ct st hops h => ⟨fun hd => ?_, fun hs hm => ?_⟩⟩
  · rw [State.beaconReceive_dropped h hd]
    cases src <;> rfl
  have hframe : s.onlyChanges (.time :: .links :: .out :: Kind.events) (s.beaconReceive src f) :=
    onlyChanges_of (does_beaconReceive (m := Kind.mask (.time :: .links :: .out :: Kind.events)) (by decide) (.refl _ s)) (by decide)
  refine ⟨_, rfl, hframe, ?_⟩
  rw [State.beaconReceive_accepted h hs hm]
  generalize hoff : s.beaconOffset src ct = off
  have hforward := (s.beaconTaken off st hops).forwardBeacon_frame (cameBy src)
  have htime : ((s.beaconTaken off st hops).forwardBeacon (cameBy src)).time = (s.beaconTaken off st hops).time := hforward .time (by decide)
  have hregs : ((s.beaconTaken off st hops).forwardBeacon (cameBy src)).regs = (s.beaconTaken off st hops).regs := hforward .regs (by decide)
  simp only [htime, State.flagged_congr hregs]
  obtain ⟨r, e, c, ht⟩ := s.beaconTaken_time off st hops
  have hmode : (s.beaconTaken off st hops).time.mode = s.time.beaconMode off st := by rw [ht]
  have hct : (s.beaconTaken off st hops).time.ct
      = if s.time.firstBeacon ∨ off < -4096 then ct + s.sourceDelay src else s.time.ct := by
    rw [ht, State.beaconCorrected_time, ← s.ct_sub_beaconOffset src ct, hoff]
  have hslew : (s.beaconTaken off st hops).time.slew = if s.time.firstBeacon ∨ off < -4096 then 0 else off := by
    rw [ht, State.beaconCorrected_time]
  refine ⟨(s.stepsTime_beaconTaken off st hops).regs.trans (State.regsKept_of_regs hregs _), ?_, ?_, ?_, ?_, ?_, ?_,
    fun hn ho => s.flagged_beaconTaken_step off st hops hn ho, ?_, fun hl hn => ?_, fun hl hn => ?_, fun hl hn => ?_⟩
  · rw [ht, State.beaconCorrected_time]
  · rw [ht, State.beaconCorrected_time]
  · rw [ht, State.beaconCorrected_time]
  · rw [ht, State.beaconCorrected_time]
  · rw [ht, State.beaconCorrected_time]
  · split
    · next hc => exact ⟨hct.trans (if_pos hc), hslew.trans (if_pos hc)⟩
    · next hc => exact ⟨hct.trans (if_neg hc), hslew.trans (if_neg hc)⟩
  · rw [hmode]; rfl
  · exact s.flagged_beaconTaken off st hops rfl (hmode.symm.trans hl) hn
  · exact s.flagged_beaconTaken off st hops rfl (hmode.symm.trans hl) hn
  · exact s.flagged_beaconTaken off st hops rfl (hmode.symm.trans hl) hn

end Sys2Proof.Machine
end

section
/-! PROOFS. The Saffron schedule: the entry at the cursor fires, a held start goes on, and the writes of entries, banks and counters (R56-R62,
R65, R71, R416). -/

namespace Sys2Proof.Machine

/-- Nothing follows an operation that leaves the boot state and the bulk tier alone. -/
theorem State.afterLoss_of_does {m : Nat} {s t : State} (h : Does m s t) (hb : m.testBit 6 = false) (hk : m.testBit 28 = false) :
    t.afterLoss s = t :=
  State.afterLoss_same (by rw [show t.boot = s.boot from h.frame .boot hb]) (by rw [show t.bulk = s.bulk from h.frame .bulk hk])

@[simp] theorem State.slot_modSlot (s : State) (p : Nat) (f : Slot → Slot) : (s.modSlot p f).slot p = f (s.slot p) := Tab.get_put_self ..

/-! ### The entry at the cursor (R56-R58, R64) -/

/-- The commands of the entry actions, each with its action. -/
def actionCommands (p : Fin 16) : List (Nat × Instr) :=
  [(1, .startProg p), (2, .startStream p), (3, .schedSignal p), (4, .pollRing p), (5, .idleWindow p)]

theorem exec_action {p : Fin 16} {a : Nat} {c : Instr} (h : (a, c) ∈ actionCommands p) (s : State) :
    exec c s = .next ((s.schedFire p a).afterLoss s) := by
  simp only [actionCommands, List.mem_cons, Prod.mk.injEq, List.not_mem_nil, or_false] at h
  rcases h with ⟨rfl, rfl⟩ | ⟨rfl, rfl⟩ | ⟨rfl, rfl⟩ | ⟨rfl, rfl⟩ | ⟨rfl, rfl⟩ <;> rfl

theorem actionCommands_ne_nop {p : Fin 16} {a : Nat} {c : Instr} (h : (a, c) ∈ actionCommands p) : a ≠ 0 := by
  simp only [actionCommands, List.mem_cons, Prod.mk.injEq, List.not_mem_nil, or_false] at h
  omega

/-- The kinds of state that the cursor touches as it comes to an entry. -/
def cursorKinds : List Kind := [.clk, .time, .regs, .slots, .evq, .evLost]

section
variable {s : State} {p a i : Nat} {m : Mark} {e : Word × Word}

theorem State.entryState_does {n : Nat} (hn : Kind.mask cursorKinds ||| n = n) : Does n s (s.entryState p m i e) :=
  (Does.refl n s).after (c := Kind.mask cursorKinds) (does_entryReached (by decide) (does_waitCt (by decide) (.refl _ s))) hn

theorem does_cursorPast {n : Nat} {s t : State} {p i : Nat} (hn : 512 ||| n = n) (h : Does n s t) : Does n s (t.cursorPast p i) :=
  does_modSlot hn h

/-- A due entry whose check fails is passed with its event. -/
theorem State.schedFire_refused (h : s.entryDue p a m i e) (ha : a ≠ 0) (hok : (s.entryState p m i e).entryOk p e = false) :
    s.schedFire p a = ((s.entryState p m i e).slotEvent p 9).cursorPast p i := by
  obtain ⟨hcur, hentry, haction, hnext, hruns⟩ := h
  have hne : entAction e.1 ≠ 0 := haction ▸ ha
  have hc : (!(s.entryState p m i e).entryOk p e) = true := by rw [hok]; rfl
  simp only [State.schedFire, hruns, hnext, and_self, if_true, State.fireNext, hcur, hentry, hne, if_false, State.entryFire]
  exact if_pos hc

/-- A due entry that passes its check takes its action, and the cursor moves past it unless a start is held. -/
theorem State.schedFire_acts (h : s.entryDue p a m i e) (ha : a ≠ 0) (hok : (s.entryState p m i e).entryOk p e = true) :
    s.schedFire p a = if ((s.entryState p m i e).entryAct p e).2 = true then ((s.entryState p m i e).entryAct p e).1
      else ((s.entryState p m i e).entryAct p e).1.cursorPast p i := by
  obtain ⟨hcur, hentry, haction, hnext, hruns⟩ := h
  have hne : entAction e.1 ≠ 0 := haction ▸ ha
  have hc : ¬ (!(s.entryState p m i e).entryOk p e) = true := by rw [hok]; nofun
  simp only [State.schedFire, hruns, hnext, and_self, if_true, State.fireNext, hcur, hentry, hne, if_false, State.entryFire]
  exact if_neg hc

/-- A slot event leaves the slots alone. -/
@[simp] theorem State.slotEvent_slots (s : State) (p b : Nat) : (s.slotEvent p b).slots = s.slots := by simp [State.slotEvent]

/-- The mark of the step is as it was at an entry reached. -/
theorem State.entryState_cur : ((s.entryState p m i e).slot p).cur = (s.slot p).cur := by
  simp only [State.entryState, State.entryReached, State.slot_modSlot]
  split <;> simp [State.slot]

end

/-! ### What an entry does (R57, R60, R65, R71, R416) -/

section
variable {w : State} {p : Nat} {e : Word × Word}

theorem State.entryAct_posts (ha : entAction e.1 = 1)
    (h : (w.postStarts ((maskList 16 (bits e.2 0 16)).map fun k => w.placedSlice p k) (bits e.2 16 14) (bits e.2 32 32)).2 = []) :
    w.entryAct p e
      = ((w.postStarts ((maskList 16 (bits e.2 0 16)).map fun k => w.placedSlice p k) (bits e.2 16 14) (bits e.2 32 32)).1, false) := by
  simp [State.entryAct, ha, h]

theorem State.entryAct_holds (ha : entAction e.1 = 1)
    (h : (w.postStarts ((maskList 16 (bits e.2 0 16)).map fun k => w.placedSlice p k) (bits e.2 16 14) (bits e.2 32 32)).2 ≠ []) :
    w.entryAct p e
      = (((w.postStarts ((maskList 16 (bits e.2 0 16)).map fun k => w.placedSlice p k) (bits e.2 16 14) (bits e.2 32 32)).1.modSlot p
          fun sl => { sl with held := some ((w.postStarts ((maskList 16 (bits e.2 0 16)).map fun k => w.placedSlice p k) (bits e.2 16 14)
            (bits e.2 32 32)).2, bits e.2 16 14, bits e.2 32 32) }).slotEvent p 10, true) := by
  simp [State.entryAct, ha, h]

theorem State.entryAct_arms (ha : entAction e.1 = 2) :
    w.entryAct p e =
      (if (w.xArmDev (w.placedEngine p (bits e.2 0 6)) (bits e.2 8 6) p (bits e.2 16 48 * 64)).2 = .ok then
          (w.xArmDev (w.placedEngine p (bits e.2 0 6)) (bits e.2 8 6) p (bits e.2 16 48 * 64)).1
        else (w.xArmDev (w.placedEngine p (bits e.2 0 6)) (bits e.2 8 6) p (bits e.2 16 48 * 64)).1.xArmFail
          (w.placedEngine p (bits e.2 0 6)) (bits e.2 8 6) p
          (w.xArmDev (w.placedEngine p (bits e.2 0 6)) (bits e.2 8 6) p (bits e.2 16 48 * 64)).2, false) := by
  simp [State.entryAct, ha]

theorem State.entryAct_signals (ha : entAction e.1 = 3) (hn : bits e.2 32 16 ≠ 0) :
    w.entryAct p e = (w.signal p (bits e.2 0 15) (bits e.2 32 16), false) := by
  simp [State.entryAct, ha, hn]

theorem State.entryAct_polls (ha : entAction e.1 = 4) : w.entryAct p e = (w.sqRead (w.ownerOf p), false) := by
  simp [State.entryAct, ha]

/-- An idle window opened on slices of a run, to a tick (R65). -/
def State.openWindows (w : State) (p len : Nat) (ks : List Nat) : State :=
  ks.foldl (fun s k => { s with idleUntil := s.idleUntil.put (s.placedSlice p k) (s.clk + len) }) w

theorem State.entryAct_opens {m : Mark} (ha : entAction e.1 = 5) (hm : (w.slot p).cur = some m) :
    w.entryAct p e = (w.openWindows p (ceilDiv (bits e.2 16 16 * m.span) 65536) (maskList 16 (bits e.2 0 16)), false) := by
  simp only [State.entryAct, ha, hm]
  rfl

/-- One value written at several entries of a table. -/
theorem foldl_put_get {α : Type} (f : Nat → Nat) (v d : α) (ks : List Nat) (t : Tab α) (n : Nat) :
    (ks.foldl (fun t k => t.put (f k) v) t).get d n = if ∃ k ∈ ks, f k = n then v else t.get d n := by
  induction ks generalizing t with
  | nil => simp
  | cons k ks ih =>
    rw [List.foldl_cons, ih, Tab.get_put]
    by_cases h1 : ∃ j ∈ ks, f j = n
    · obtain ⟨j, hj, rfl⟩ := h1
      rw [if_pos ⟨j, hj, rfl⟩, if_pos ⟨j, List.mem_cons_of_mem _ hj, rfl⟩]
    · simp only [h1, if_false, List.mem_cons, exists_eq_or_imp, or_false, eq_comm (a := n)]

theorem State.openWindows_eq (w : State) (p len : Nat) (ks : List Nat) :
    w.openWindows p len ks = { w with idleUntil := ks.foldl (fun t k => t.put (w.placedSlice p k) (w.clk + len)) w.idleUntil } := by
  induction ks generalizing w with
  | nil => rfl
  | cons k ks ih => exact ih { w with idleUntil := w.idleUntil.put (w.placedSlice p k) (w.clk + len) }

/-- A window stands on every slice named. -/
theorem State.openWindows_until (w : State) (p len : Nat) {ks : List Nat} {k : Nat} (h : k ∈ ks) :
    (w.openWindows p len ks).idleUntil.get 0 (w.placedSlice p k) = w.clk + len := by
  rw [State.openWindows_eq]
  exact (foldl_put_get _ _ _ _ _ _).trans (if_pos ⟨k, h, rfl⟩)

/-- A counter signalled changes alone (R67). -/
theorem State.ctr_signal_ne {s : State} {p i c j : Nat} (h : s.absCtr p i = some c) (hj : j ≠ c) (n : Nat) :
    (s.signal p i n).ctr j = s.ctr j := by
  have hc : (s.setCtr c (min (s.ctr c + n) 0xFFFFFFFF)).ctr j = s.ctr j := Tab.get_put_ne _ _ hj _
  simp only [State.signal, h]
  split
  · rwa [State.ctr, State.raiseSlot_ctrs]
  · exact hc

/-- A signal past a counter's limit raises CTR_OVERFLOW (R67, R69). -/
theorem State.slotFlagged_signal {s : State} {p i c n : Nat} (h : s.absCtr p i = some c) (hn : 0xFFFFFFFF < s.ctr c + n) :
    (s.signal p i n).slotFlagged p 11 = true := by
  simp only [State.signal, h, if_pos hn]
  exact State.slotFlagged_raiseSlot _ _ (by decide)

end

/-! ### The actions of due entries -/

section
variable {s : State} {p : Fin 16} {m : Mark} {i : Nat} {e : Word × Word}

theorem exec_action_refused {a : Nat} {c : Instr} (hc : (a, c) ∈ actionCommands p) (h : s.entryDue p a m i e)
    (hok : (s.entryState p m i e).entryOk p e = false) :
    exec c s = .next (((s.entryState p m i e).slotEvent p 9).cursorPast p i) := by
  rw [exec_action hc, State.schedFire_refused h (actionCommands_ne_nop hc) hok]
  refine congrArg _ (State.afterLoss_of_does (m := Kind.mask cursorKinds) ?_ (by decide) (by decide))
  exact does_modSlot (by decide) (does_slotEvent (by decide) (State.entryState_does (by decide)))

/-- A due entry that passes its check and does not hold the cursor. -/
theorem exec_action_passes {a : Nat} {c : Instr} (hc : (a, c) ∈ actionCommands p) (h : s.entryDue p a m i e)
    (hok : (s.entryState p m i e).entryOk p e = true) {t : State} (ht : (s.entryState p m i e).entryAct p e = (t, false)) :
    exec c s = .next ((t.cursorPast p i).afterLoss s) := by
  rw [exec_action hc, State.schedFire_acts h (actionCommands_ne_nop hc) hok, ht]
  rfl

/-- A due entry that passes its check and holds the cursor. -/
theorem exec_action_holds {a : Nat} {c : Instr} (hc : (a, c) ∈ actionCommands p) (h : s.entryDue p a m i e)
    (hok : (s.entryState p m i e).entryOk p e = true) {t : State} (ht : (s.entryState p m i e).entryAct p e = (t, true)) :
    exec c s = .next (t.afterLoss s) := by
  rw [exec_action hc, State.schedFire_acts h (actionCommands_ne_nop hc) hok, ht]
  rfl

variable (hok : (s.entryState p m i e).entryOk p e = true)
include hok

/-- The starts a due entry posts (R57). -/
def State.entryPosts (w : State) (p : Nat) (e : Word × Word) : State × List Nat :=
  w.postStarts ((maskList 16 (bits e.2 0 16)).map fun k => w.placedSlice p k) (bits e.2 16 14) (bits e.2 32 32)

theorem exec_startProg_posts (h : s.entryDue p 1 m i e) (hall : ((s.entryState p m i e).entryPosts p e).2 = []) :
    exec (.startProg p) s = .next (((s.entryState p m i e).entryPosts p e).1.cursorPast p i) := by
  rw [exec_action_passes (.head _) h hok (State.entryAct_posts h.2.2.1 hall)]
  refine congrArg _ (State.afterLoss_of_does (m := Kind.mask (.seqs :: cursorKinds)) ?_ (by decide) (by decide))
  exact does_modSlot (by decide) (does_postStarts (by decide) (State.entryState_does (by decide)))

theorem exec_startProg_holds (h : s.entryDue p 1 m i e) (hall : ((s.entryState p m i e).entryPosts p e).2 ≠ []) :
    exec (.startProg p) s = .next ((((s.entryState p m i e).entryPosts p e).1.modSlot p fun sl =>
      { sl with held := some (((s.entryState p m i e).entryPosts p e).2, bits e.2 16 14, bits e.2 32 32) }).slotEvent p 10) := by
  rw [exec_action_holds (.head _) h hok (State.entryAct_holds h.2.2.1 hall)]
  refine congrArg _ (State.afterLoss_of_does (m := Kind.mask (.seqs :: cursorKinds)) ?_ (by decide) (by decide))
  exact does_slotEvent (by decide) (does_modSlot (by decide) (does_postStarts (by decide) (State.entryState_does (by decide))))

/-- A signal fired raises its counter alone, saturating with CTR_OVERFLOW (R57, R67, R69). -/
theorem exec_schedSignal_signals (h : s.entryDue p 3 m i e) (hn : bits e.2 32 16 ≠ 0) {c : Nat}
    (hc : (s.entryState p m i e).absCtr p (bits e.2 0 15) = some c) :
    ∃ t, exec (.schedSignal p) s = .next t ∧ t.ctr c = min (s.ctr c + bits e.2 32 16) 0xFFFFFFFF
      ∧ (∀ j, j ≠ c → t.ctr j = s.ctr j) ∧ (t.slot p).cursor = i + 1
      ∧ (0xFFFFFFFF < s.ctr c + bits e.2 32 16 → t.slotFlagged p 11 = true) := by
  have hctrs : (s.entryState p m i e).ctrs = s.ctrs := (State.entryState_does (n := Kind.mask cursorKinds) (by decide)).frame .ctrs (by decide)
  have hctr : ∀ j, (s.entryState p m i e).ctr j = s.ctr j := fun j => by simp only [State.ctr, hctrs]
  rw [exec_action_passes (.tail _ (.tail _ (.head _))) h hok (State.entryAct_signals h.2.2.1 hn),
    State.afterLoss_of_does (m := Kind.mask (.ctrs :: cursorKinds))
      (does_cursorPast (by decide) (does_signal (by decide) (State.entryState_does (by decide)))) (by decide) (by decide)]
  refine ⟨_, rfl, ?_, fun j hj => ?_, by simp [State.cursorPast], fun hv => ?_⟩
  · rw [← hctr c]; exact State.ctr_signal hc _
  · rw [← hctr j]; exact State.ctr_signal_ne hc hj _
  · rw [← hctr c] at hv; exact State.slotFlagged_signal hc hv

/-- An idle window fired stands on the slices named (R57, R65). -/
theorem exec_idleWindow_opens (h : s.entryDue p 5 m i e) :
    ∃ t, exec (.idleWindow p) s = .next t ∧ (t.slot p).cursor = i + 1
      ∧ (∀ k ∈ maskList 16 (bits e.2 0 16), t.idleUntil.get 0 ((s.entryState p m i e).placedSlice p k)
          = (s.entryState p m i e).clk + ceilDiv (bits e.2 16 16 * m.span) 65536)
      ∧ s.onlyChanges [.clk, .time, .regs, .slots, .evq, .evLost, .idleUntil] t := by
  have hm : ((s.entryState p m i e).slot p).cur = some m := State.entryState_cur.trans h.1
  have hdoes : Does (Kind.mask [.clk, .time, .regs, .slots, .evq, .evLost, .idleUntil]) s
      (((s.entryState p m i e).openWindows p (ceilDiv (bits e.2 16 16 * m.span) 65536) (maskList 16 (bits e.2 0 16))).cursorPast p i) := by
    rw [State.openWindows_eq]
    exact does_modSlot (by decide) (does_set_idleUntil (by decide) (State.entryState_does (by decide)))
  rw [exec_action_passes (.tail _ (.tail _ (.tail _ (.tail _ (.head _))))) h hok (State.entryAct_opens h.2.2.1 hm),
    State.afterLoss_of_does hdoes (by decide) (by decide)]
  exact ⟨_, rfl, by simp [State.cursorPast], fun k hk => State.openWindows_until _ _ _ hk, onlyChanges_of hdoes (by decide)⟩

end

/-! ### A held start (R60) -/

theorem exec_schedCursorResume (p : Fin 16) (s : State) : exec (.schedCursorResume p) s = .next (s.cursorResume p) := rfl

section
variable {s : State} {p : Nat} {ks : List Nat} {idx arg : Nat} (h : (s.slot p).held = some (ks, idx, arg))
include h

theorem State.cursorResume_goes (hall : (s.postStarts ks idx arg).2 = []) :
    s.cursorResume p = (s.postStarts ks idx arg).1.modSlot p fun sl => { sl with held := none, cursor := sl.cursor + 1 } := by
  simp [State.cursorResume, h, hall]

theorem State.cursorResume_holds (hall : (s.postStarts ks idx arg).2 ≠ []) :
    s.cursorResume p = (s.postStarts ks idx arg).1.modSlot p fun sl => { sl with held := some ((s.postStarts ks idx arg).2, idx, arg) } := by
  simp [State.cursorResume, h, hall]

end

/-- Starts posted leave the slots alone. -/
theorem State.slot_postStarts (s : State) (ks : List Nat) (idx arg p : Nat) : (s.postStarts ks idx arg).1.slot p = s.slot p := by
  have h : (s.postStarts ks idx arg).1.slots = s.slots := (does_postStarts (m := Kind.mask [.seqs]) (by decide) (.refl _ s)).frame .slots (by decide)
  simp only [State.slot, h]

/-! ### A domain's registers of the schedule (R62, R71) -/

section
variable {s : State} {dom d o : Nat}

/-- A write of a domain's set that passes its checks. -/
theorem State.regWrite_domReg (h : s.passes dom (domReg d o) = true) (hd : d < 4) (ho : o < 0x40) (v : Word) :
    s.regWrite dom (domReg d o) v = (s.cadWrite dom (0x200 + 0x40 * d + o) v).afterLoss s := by
  have he : domReg d o = Pg.cad + (0x200 + 0x40 * d + o) := by simp only [domReg, Nat.add_assoc]
  rw [he] at h ⊢
  exact State.regWrite_cad h (by omega) (by omega) v

theorem State.cadWrite_commit (hd : d < 4) (v : Word) : s.cadWrite dom (0x200 + 0x40 * d + 0x10) v = s.schedCommit dom d v := by
  interval_cases d <;> rfl

theorem State.cadWrite_counter (hd : d < 4) (v : Word) : s.cadWrite dom (0x200 + 0x40 * d + 0x20) v = s.counterSet d v := by
  interval_cases d <;> rfl

theorem State.cadWrite_load (hd : d < 4) (v : Word) : s.cadWrite dom (0x200 + 0x40 * d + 0x30) v = s.schedLoad d v := by
  interval_cases d <;> rfl

end

theorem exec_schedEntryCommit {s : State} {dom d : Fin 4} (h : s.passes dom (domReg d 0x10) = true) (v : Word) :
    exec (.schedEntryCommit dom d v) s = .next ((s.schedCommit dom d v).afterLoss s) := by
  rw [← State.cadWrite_commit d.isLt, ← State.regWrite_domReg h d.isLt (by decide)]
  rfl

theorem exec_counterSet {s : State} {dom d : Fin 4} (h : s.passes dom (domReg d 0x20) = true) (v : Word) :
    exec (.counterSet dom d v) s = .next ((s.counterSet d v).afterLoss s) := by
  rw [← State.cadWrite_counter (dom := dom) d.isLt, ← State.regWrite_domReg h d.isLt (by decide)]
  rfl

theorem exec_schedLoad {s : State} {dom d : Fin 4} (h : s.passes dom (domReg d 0x30) = true) (v : Word) :
    exec (.schedLoad dom d v) s = .next ((s.schedLoad d (setBits v 63 1 1)).afterLoss s) := by
  rw [← State.cadWrite_load (dom := dom) d.isLt, ← State.regWrite_domReg h d.isLt (by decide)]
  rfl

theorem State.slotWrite_sched (s : State) (dom p : Nat) (v : Word) : s.slotWrite dom p 0x028 v = s.psSchedWrite dom p v := by
  simp [State.slotWrite]

theorem exec_schedSwapWrite {s : State} {dom : Fin 4} {p : Fin 16} (h : s.passes dom (Pg.slot p + 0x028) = true) (v : Word) :
    exec (.schedSwapWrite dom p v) s = .next ((s.psSchedWrite dom p (setBits v 33 1 1)).afterLoss s) := by
  rw [← State.slotWrite_sched (dom := dom), ← State.regWrite_slot h p.isLt (by decide)]
  rfl

/-! ### Entries and banks (R61, R62) -/

/-- An entry written is the one its bank holds, every other as it was. -/
theorem State.entryAt_putEntry (s : State) (p i : Nat) (e : Word × Word) (b : Bool) (j : Nat) :
    (s.putEntry p i e).entryAt b j
      = if b2n b * 16384 + j = b2n (!(s.slot p).bank) * 16384 + i then (entMask e.1, e.2) else s.entryAt b j := by
  simp only [State.entryAt, State.putEntry, Tab.get_put]
  split <;> rfl

/-- The places of two banks differ. -/
theorem bank_place {b c : Bool} {i j : Nat} (hi : i < 16384) (hj : j < 16384) (h : b2n b * 16384 + j = b2n c * 16384 + i) : (b, j) = (c, i) := by
  cases b <;> cases c <;> simp [b2n] at h ⊢ <;> omega

/-- Entries written from a place of the inactive bank on, in order. -/
def State.putEntries (s : State) (p first : Nat) (l : List ((Word × Word) × Nat)) : State :=
  l.foldl (fun s ei => s.putEntry p (first + ei.2) ei.1) s

theorem State.putEntries_zipIdx (s : State) (p first n : Nat) (l : List (Word × Word)) (j : Nat) :
    (s.putEntries p first (l.zipIdx n)).entryAt (!(s.slot p).bank) (first + j)
      = match (if n ≤ j then l[j - n]? else none) with
        | some e => (entMask e.1, e.2)
        | none => s.entryAt (!(s.slot p).bank) (first + j) := by
  induction l generalizing s n with
  | nil => simp [State.putEntries]
  | cons e l ih =>
    have hslot : (s.putEntry p (first + n) e).slot p = s.slot p := rfl
    have h := ih (s.putEntry p (first + n) e) (n + 1)
    rw [hslot] at h
    rw [List.zipIdx_cons, State.putEntries, List.foldl_cons]
    refine h.trans ?_
    rw [State.entryAt_putEntry]
    rcases Nat.lt_trichotomy j n with hj | rfl | hj
    · rw [if_neg (by omega), if_neg (by omega), if_neg (by omega)]
    · simp
    · obtain ⟨k, rfl⟩ : ∃ k, j = n + 1 + k := ⟨j - n - 1, by omega⟩
      simp [show n + 1 + k - n = k + 1 by omega, show n ≤ n + 1 + k by omega, show n + 1 + k ≠ n by omega]

/-- Each entry of a list stands in its place of the inactive bank. -/
theorem State.entryAt_putEntries (s : State) (p first : Nat) (l : List (Word × Word)) {j : Nat} {e : Word × Word} (h : l[j]? = some e) :
    (s.putEntries p first l.zipIdx).entryAt (!(s.slot p).bank) (first + j) = (entMask e.1, e.2) := by
  rw [State.putEntries_zipIdx]
  simp [h]

theorem State.putEntries_does {m : Nat} {s t : State} {p first : Nat} {l : List ((Word × Word) × Nat)} (hm : 3072 ||| m = m) (h : Does m s t) :
    Does m s (t.putEntries p first l) :=
  Does.foldl (fun _ _ hu => does_putEntry hm hu) h

section
variable {s : State} {dom d p : Nat} {v : Word}

theorem State.schedCommit_outside (h : s.entryPart d (s.fld (domReg d 0) 0 14) = none) : s.schedCommit dom d v = s.ends .access := by
  simp only [State.schedCommit, h]

theorem State.schedCommit_checked (h : s.entryPart d (s.fld (domReg d 0) 0 14) = some p) :
    s.schedCommit dom d v = if s.entryOk p (s.stagedOf dom (domReg d 8), v) = true
      then (s.putEntry p (s.fld (domReg d 0) 0 14) (s.stagedOf dom (domReg d 8), v)).ends .ok else s.ends .access := by
  simp only [State.schedCommit, h]

/-- An entry that passes its check is written to the inactive bank alone (R61, R62). -/
theorem State.schedCommit_writes (h : s.entryPart d (s.fld (domReg d 0) 0 14) = some p)
    (hok : s.entryOk p (s.stagedOf dom (domReg d 8), v) = true) :
    (s.schedCommit dom d v).afterLoss s = s.schedCommit dom d v ∧ s.onlyChanges [.schedLo, .schedHi, .done] (s.schedCommit dom d v)
      ∧ (s.schedCommit dom d v).done = .ok
      ∧ (s.schedCommit dom d v).entryAt (!(s.slot p).bank) (s.fld (domReg d 0) 0 14) = (entMask (s.stagedOf dom (domReg d 8)), v)
      ∧ ∀ b j, j < 16384 → (b, j) ≠ (!(s.slot p).bank, s.fld (domReg d 0) 0 14) →
          (s.schedCommit dom d v).entryAt b j = s.entryAt b j := by
  have hdoes : Does (Kind.mask [.schedLo, .schedHi, .done]) s (s.schedCommit dom d v) := does_schedCommit (by decide) (.refl _ s)
  have hi : s.fld (domReg d 0) 0 14 < 16384 := Nat.mod_lt _ (by decide)
  refine ⟨State.afterLoss_of_does hdoes (by decide) (by decide), onlyChanges_of hdoes (by decide), ?_⟩
  rw [State.schedCommit_checked h, if_pos hok]
  refine ⟨rfl, (State.entryAt_putEntry ..).trans (if_pos rfl), fun b j hj hne => (State.entryAt_putEntry ..).trans (if_neg fun hk => ?_)⟩
  exact hne (bank_place hi hj hk)

theorem State.counterSet_outside (h : s.domCtr d = none) : s.counterSet d v = s.ends .access := by simp only [State.counterSet, h]

theorem State.counterSet_sets {i : Nat} (h : s.domCtr d = some i) : s.counterSet d v = (s.setCtr i (bits v 0 32)).ends .ok := by
  simp only [State.counterSet, h]

/-- A write of PS_SCHED that leaves the range as it is asks for a swap of the banks (R61). -/
theorem State.psSchedWrite_swaps (h1 : bits v 0 14 = s.schedBase p) (h2 : bits v 16 15 = s.schedCount p) :
    s.psSchedWrite dom p (setBits v 33 1 1)
      = ((s.setReg (Pg.slot p + 0x028) (pack [(bits v 0 14, 0), (bits v 16 15, 16)])).modSlot p fun sl => { sl with swap := true }).ends .ok := by
  have e1 : bits (setBits v 33 1 1) 0 14 = bits v 0 14 := bits_setBits_ne v 1 (by decide) (by decide)
  have e2 : bits (setBits v 33 1 1) 16 15 = bits v 16 15 := bits_setBits_ne v 1 (by decide) (by decide)
  have e3 : bit (setBits v 33 1 1) 33 = true := bit_setBits_one v (by decide)
  simp [State.psSchedWrite, e1, e2, e3, h1, h2]

end

/-! ### Loads of entries (R62) -/

/-- The entries that the bytes of a load hold. -/
def loadEntries (n : Nat) (bs : List Byte) : List (Word × Word) :=
  (List.range n).map fun i => (word (field bs (16 * i) 8), word (field bs (16 * i + 8) 8))

/-- A load ends: what it loaded, where it failed and its status stand in the register (R62). -/
def State.loadEnds (s : State) (d first n : Nat) (st : Status) (fail : Nat) : State :=
  (s.setReg (domReg d 0x30) (pack [(first, 0), (n, 16), (fail, 32), (statusCode st, 48)])).ends .ok

/-- A load whose range and source pass their checks and whose bytes could be read writes every entry, or, where one fails its check, none. -/
theorem State.schedLoad_reads {s : State} {d p : Nat} {v : Word} {first n : Nat} (hf : bits v 0 14 = first) (hn : bits v 16 15 = n)
    (hp : s.entryPart d first = some p) (ha : aligned (s.fld (domReg d 0x28) 0 64) 16 = true)
    (hr : first + n ≤ s.schedBase p + s.schedCount p) (hz : n ≠ 0)
    (hc : s.devCheck (.dom d) (s.fld (domReg d 0x28) 0 64) (16 * n) false = .ok)
    {r : State × List Byte × Status} (hd : s.devRead (s.fld (domReg d 0x28) 0 64) (16 * n) = r) (hok : r.2.2 = .ok) :
    s.schedLoad d (setBits v 63 1 1) = match (loadEntries n r.2.1).findIdx? fun e => !r.1.entryOk p e with
      | some i => r.1.loadEnds d first n .access ((first + i) % 65536)
      | none => (r.1.putEntries p first (loadEntries n r.2.1).zipIdx).loadEnds d first n .ok 0 := by
  have e1 : bits (setBits v 63 1 1) 0 14 = first := (bits_setBits_ne v 1 (by decide) (by decide)).trans hf
  have e2 : bits (setBits v 63 1 1) 16 15 = n := (bits_setBits_ne v 1 (by decide) (by decide)).trans hn
  have e3 : bit (setBits v 63 1 1) 63 = true := bit_setBits_one v (by decide)
  simp only [State.schedLoad, e1, e2, e3, hp, ha, hc, hd, hok, hz, Nat.not_lt.2 hr, Bool.not_true, Bool.false_eq_true, if_false,
    ne_eq, not_true_eq_false]
  rfl

theorem State.loadEnds_reg (s : State) (d first n : Nat) (st : Status) (fail : Nat) :
    (s.loadEnds d first n st fail).reg (domReg d 0x30) = pack [(first, 0), (n, 16), (fail, 32), (statusCode st, 48)] :=
  s.reg_setReg_self ..

theorem toNat_pack (fs : List (Nat × Nat)) : (pack fs).toNat = fs.foldl (fun a f => a + f.1 * 2 ^ f.2) 0 % 2 ^ 64 := by
  rw [pack, BitVec.toNat_ofNat]

/-- The status of a load stands above the fields that say what it loaded and where it failed. -/
theorem bits_pack_status {first n fail st : Nat} (h1 : first < 65536) (h2 : n < 65536) (h3 : fail < 65536) (h4 : st < 256) :
    bits (pack [(first, 0), (n, 16), (fail, 32), (st, 48)]) 48 8 = st := by
  have hlow : 0 + first * 2 ^ 0 + n * 2 ^ 16 + fail * 2 ^ 32 < 2 ^ 48 := by omega
  have htop {low : Nat} (h : low < 2 ^ 48) : (low + st * 2 ^ 48) % 2 ^ 64 / 2 ^ 48 % 2 ^ 8 = st := by omega
  rw [bits, toNat_pack, List.foldl_cons, List.foldl_cons, List.foldl_cons, List.foldl_cons, List.foldl_nil]
  exact htop hlow

/-- What reading device memory leaves: the slots and the schedule. -/
theorem State.devRead_keeps (s : State) (a n : Nat) :
    (∀ p, (s.devRead a n).1.slot p = s.slot p) ∧ (s.devRead a n).1.schedLo = s.schedLo ∧ (s.devRead a n).1.schedHi = s.schedHi := by
  have h := does_devRead (m := 18447307023943729226) (x1 := a) (x2 := n) rfl (.refl _ s)
  have hslots : (s.devRead a n).1.slots = s.slots := h.frame .slots (by decide)
  exact ⟨fun p => by simp only [State.slot, hslots], h.frame .schedLo (by decide), h.frame .schedHi (by decide)⟩

section
variable {s : State} {dom d : Fin 4} {v : Word} {p : Nat} (hpass : s.passes dom (domReg d 0x30) = true)
  (hp : s.entryPart d (bits v 0 14) = some p) (ha : aligned (s.fld (domReg d 0x28) 0 64) 16 = true)
  (hr : bits v 0 14 + bits v 16 15 ≤ s.schedBase p + s.schedCount p) (hz : bits v 16 15 ≠ 0)
  (hc : s.devCheck (.dom d) (s.fld (domReg d 0x28) 0 64) (16 * bits v 16 15) false = .ok)
  (hok : (s.devRead (s.fld (domReg d 0x28) 0 64) (16 * bits v 16 15)).2.2 = .ok)
include hpass hp ha hr hz hc hok

/-- A load whose entries all pass their check writes every one (R62). -/
theorem exec_schedLoad_writes
    (hall : (loadEntries (bits v 16 15) (s.devRead (s.fld (domReg d 0x28) 0 64) (16 * bits v 16 15)).2.1).all
      (fun e => (s.devRead (s.fld (domReg d 0x28) 0 64) (16 * bits v 16 15)).1.entryOk p e) = true) :
    ∃ t : State, exec (.schedLoad dom d v) s = .next (t.afterLoss s) ∧ t.done = .ok
      ∧ t.reg (domReg d 0x30) = pack [(bits v 0 14, 0), (bits v 16 15, 16), (0, 32), (0, 48)]
      ∧ ∀ j < bits v 16 15, ∀ x,
          (loadEntries (bits v 16 15) (s.devRead (s.fld (domReg d 0x28) 0 64) (16 * bits v 16 15)).2.1)[j]? = some x →
          t.entryAt (!(s.slot p).bank) (bits v 0 14 + j) = (entMask x.1, x.2) := by
  obtain ⟨hslot, -, -⟩ := s.devRead_keeps (s.fld (domReg d 0x28) 0 64) (16 * bits v 16 15)
  have hload := State.schedLoad_reads rfl rfl hp ha hr hz hc rfl hok
  rw [List.findIdx?_eq_none_iff.2 fun e he => by simpa using List.all_eq_true.1 hall e he] at hload
  rw [exec_schedLoad hpass, hload]
  refine ⟨_, rfl, rfl, State.loadEnds_reg .., fun j _ x hx => ?_⟩
  rw [← hslot]
  exact State.entryAt_putEntries _ _ _ _ hx

/-- A load with an entry that fails its check writes none (R62). -/
theorem exec_schedLoad_refuses
    (hall : (loadEntries (bits v 16 15) (s.devRead (s.fld (domReg d 0x28) 0 64) (16 * bits v 16 15)).2.1).all
      (fun e => (s.devRead (s.fld (domReg d 0x28) 0 64) (16 * bits v 16 15)).1.entryOk p e) = false) :
    ∃ t : State, exec (.schedLoad dom d v) s = .next (t.afterLoss s) ∧ t.done = .ok ∧ t.schedLo = s.schedLo ∧ t.schedHi = s.schedHi
      ∧ t.fld (domReg d 0x30) 48 8 = statusCode .access := by
  obtain ⟨-, hlo, hhi⟩ := s.devRead_keeps (s.fld (domReg d 0x28) 0 64) (16 * bits v 16 15)
  have hload := State.schedLoad_reads rfl rfl hp ha hr hz hc rfl hok
  obtain ⟨e, he, hbad⟩ := List.all_eq_false.1 hall
  split at hload
  · rw [exec_schedLoad hpass, hload]
    refine ⟨_, rfl, rfl, hlo, hhi, ?_⟩
    rw [State.fld, State.loadEnds_reg]
    exact bits_pack_status ((Nat.mod_lt _ (by decide)).trans (by decide)) ((Nat.mod_lt _ (by decide)).trans (by decide))
      (Nat.mod_lt _ (by decide)) (by decide)
  · next hnone => exact absurd (List.findIdx?_eq_none_iff.1 hnone e he) (by simpa using hbad)

end

/-- Settles O17: the entry that is due, the held start, and each write of the schedule and the counters. -/
theorem scheduleEffects : Obligations.ScheduleEffects := by
  intro s
  refine ⟨fun p m i e => ⟨fun a c hc h hok => exec_action_refused hc h hok, fun hok => ⟨fun h => ?_, fun h => ?_, fun h hn c hc => ?_, fun h => ?_,
    fun h => exec_idleWindow_opens hok h⟩⟩, fun p ks idx arg h => ?_, fun dom d v hpass => ?_,
    fun dom d v p hpass hp => fun ha hr hz hc hok => ⟨fun hall => exec_schedLoad_writes hpass hp ha hr hz hc hok hall,
      fun hall => exec_schedLoad_refuses hpass hp ha hr hz hc hok hall⟩, fun dom p v hpass h1 h2 => ?_, fun dom d v hpass => ?_⟩
  · exact ⟨exec_startProg_posts hok h, exec_startProg_holds hok h⟩
  · have hexec := exec_action_passes (.tail _ (.head _)) h hok (State.entryAct_arms h.2.2.1)
    exact ⟨fun hr => by rw [hexec, if_pos hr], fun hr => by rw [hexec, if_neg hr]⟩
  · exact exec_schedSignal_signals hok h hn hc
  · exact exec_action_passes (.tail _ (.tail _ (.tail _ (.head _)))) h hok (State.entryAct_polls h.2.2.1)
  · rw [exec_schedCursorResume]
    refine ⟨fun hall => ?_, fun hall => ?_⟩
    · rw [State.cursorResume_goes h hall]
      exact ⟨_, rfl, onlyChanges_of (does_modSlot (m := Kind.mask [.slots, .seqs]) (by decide) (does_postStarts (by decide) (.refl _ s))) (by decide),
        by rw [State.slot_modSlot, State.slot_postStarts], rfl⟩
    · rw [State.cursorResume_holds h hall]
      exact ⟨_, rfl, by rw [State.slot_modSlot, State.slot_postStarts]⟩
  · rw [exec_schedEntryCommit hpass]
    refine ⟨fun h => by rw [State.schedCommit_outside h, State.afterLoss_ends], fun p h => ⟨fun hok => ?_, fun hok => ?_⟩⟩
    · rw [State.schedCommit_checked h, if_neg (by rw [hok]; nofun), State.afterLoss_ends]
    · obtain ⟨hloss, hwrites⟩ := State.schedCommit_writes h hok
      exact ⟨_, congrArg _ hloss, hwrites⟩
  · rw [exec_schedSwapWrite hpass, State.psSchedWrite_swaps h1 h2]
    exact congrArg _ (State.afterLoss_same rfl rfl)
  · rw [exec_counterSet hpass]
    refine ⟨fun h => by rw [State.counterSet_outside h, State.afterLoss_ends], fun i h => ?_⟩
    rw [State.counterSet_sets h]
    exact congrArg _ (State.afterLoss_same rfl rfl)

end Sys2Proof.Machine
end

section
/-! PROOFS. Attention walks and the queues: whatever a walk does, every queue holds the entries it held, and a fatal condition leaves no
begun entry behind (R35, R89, R226, R235). -/

namespace Sys2Proof.Machine

/-! ### Queues kept -/

/-- Every slice's queues and halts are as before. -/
def State.keepsQueues (s t : State) : Prop :=
  ∀ k, (t.seq k).queues = (s.seq k).queues ∧ (t.seq k).halts = (s.seq k).halts

/-- The mask of every kind of state but the sequencers'. -/
def butSeqs : Nat := 2 ^ 66 - 1 - 2 ^ 15

theorem Does.seqs {s t : State} (h : Does butSeqs s t) : t.seqs = s.seqs := h.frame .seqs (by decide)

/-- Of a sequencer changed, or another, the fields a change keeps. -/
theorem State.seq_modSeq (s : State) (k j : Nat) (f : Seq → Seq) : (s.modSeq k f).seq j = if j = k then f (s.seq k) else s.seq j :=
  Tab.get_put ..

@[simp] theorem State.queue_setEntry (s : State) (k q n : Nat) (e : QEntry) : (s.setEntry k q n e).queue k q = (s.queue k q).set n e := by
  simp [State.queue, State.setEntry, State.seq_modSeq]

theorem State.queue_setEntry_ne (s : State) {k q n j p : Nat} (e : QEntry) (h : j ≠ k ∨ p ≠ q) :
    (s.setEntry k q n e).queue j p = s.queue j p := by
  simp only [State.queue, State.setEntry, State.seq_modSeq]
  split
  · next hj =>
    subst hj
    exact Tab.get_put_ne _ _ (h.resolve_left (· rfl)) _
  · rfl

namespace State.keepsQueues

variable {s t u : State}

theorem refl (s : State) : s.keepsQueues s := fun _ => ⟨rfl, rfl⟩

theorem trans (h : s.keepsQueues t) (g : t.keepsQueues u) : s.keepsQueues u :=
  fun k => ⟨(g k).1.trans (h k).1, (g k).2.trans (h k).2⟩

theorem queue (h : s.keepsQueues t) (k q : Nat) : t.queue k q = s.queue k q := by
  simp only [State.queue, (h k).1]

theorem halted (h : s.keepsQueues t) (k q : Nat) : t.halted k q = s.halted k q := by
  simp only [State.halted, (h k).2]

theorem of_seqs (h : t.seqs = s.seqs) : s.keepsQueues t := fun k => by simp [State.seq, h]

/-- An operation whose mask leaves the sequencers out. -/
theorem and (h : s.keepsQueues t) (g : Does butSeqs t u) : s.keepsQueues u := h.trans (of_seqs g.seqs)

/-- A change of a sequencer that leaves its queues and halts. -/
theorem modSeq {k : Nat} {f : Seq → Seq} (h : s.keepsQueues t) (hq : (f (t.seq k)).queues = (t.seq k).queues)
    (hh : (f (t.seq k)).halts = (t.seq k).halts) : s.keepsQueues (t.modSeq k f) :=
  h.trans fun j => by rw [State.seq_modSeq]; split <;> simp_all

theorem foldl {α : Type} {f : State → α → State} {l : List α} (hf : ∀ t x, s.keepsQueues t → s.keepsQueues (f t x)) (h : s.keepsQueues t) :
    s.keepsQueues (l.foldl f t) := by
  induction l generalizing t with
  | nil => exact h
  | cons x l ih => exact ih (hf t x h)

/-! ### What an engine writes -/

theorem noteOut {k : Nat} {bs : List Byte} (h : s.keepsQueues t) : s.keepsQueues (t.noteOut k bs) := by
  unfold State.noteOut
  split
  · exact h.modSeq rfl rfl
  · exact h

theorem eaWrite {k : Nat} {e : EA} {bs : List Byte} (h : s.keepsQueues t) : s.keepsQueues (t.eaWrite k e bs) := by
  unfold State.eaWrite
  split
  · exact h.and (does_eaPut rfl (.refl _ _))
  · split
    · exact h.noteOut
    · exact h.noteOut.and (does_eaPutBoth rfl (.refl _ _))

theorem putRstat {k i : Nat} {tab : EA} {st : Status} (h : s.keepsQueues t) : s.keepsQueues (t.putRstat k tab i st) := h.eaWrite

theorem putHeadRow {k nq code hd w i : Nat} {o : EA} {vals : List Nat} (h : s.keepsQueues t) :
    s.keepsQueues (t.putHeadRow k o nq code hd w i vals) :=
  foldl (fun _ _ h => h.eaWrite) h

theorem zeroSeq {k : Nat} {c : AttCfg} {b : Batch} {q : SeqEnt} (h : s.keepsQueues t) : s.keepsQueues (t.zeroSeq k c b q) := by
  have hrows : ∀ (o : EA) (hs is : List Nat) (nq code w : Nat) (vals : List Nat), s.keepsQueues
      (hs.foldl (fun s h => is.foldl (fun s i => s.putHeadRow k o nq code h w i vals) s) t) :=
    fun _ _ _ _ _ _ _ => foldl (fun _ _ h => foldl (fun _ _ h => h.putHeadRow) h) h
  have hstats : ∀ {w : State}, s.keepsQueues w → ∀ (c : Prop) [Decidable c] (bs : List Byte), s.keepsQueues (if c then
      match w.ea32 k q.saddr with
      | some e => w.eaWrite k e bs
      | none => w
      else w) := by
    intro w h c _ bs
    split
    · split
      · exact h.eaWrite
      · exact h
    · exact h
  unfold State.zeroSeq
  cases t.attPlace k q.oaddr with
  | some o => exact hstats (hrows _ _ _ _ _ _ _) _ _
  | none => exact hstats h _ _

/-! ### A walk -/

theorem adecSeq {k ix : Nat} {c : AttCfg} {b : Batch} {tab : EA} {q : SeqEnt} {w : WalkRun} (h : s.keepsQueues t) :
    s.keepsQueues (t.adecSeq k c b tab ix q w) := by
  unfold State.adecSeq
  dsimp only
  refine putRstat (.and (foldl (fun _ _ h => h.and (does_attEvent rfl (.refl _ _))) (.and (foldl (fun v x h => ?_) h) (does_bump rfl (.refl _ _))))
    (does_bump rfl (.refl _ _)))
  refine .and ?_ (does_attCount rfl (.refl _ _))
  have hrow : ∀ {w : State}, s.keepsQueues w → s.keepsQueues (match t.ea32 k q.saddr with
      | some e => w.eaWrite k (e.plus (8 * (x.1.2 * (b.qheads c).length + (b.qheads c).idxOf x.1.1))) (toLe 4 x.2.m ++ toLe 4 x.2.l)
      | none => w) := fun h => by split; exacts [h.eaWrite, h]
  split
  · refine hrow ?_
    split
    · exact h.putHeadRow
    · exact h
  · split
    · exact h.putHeadRow
    · exact h

theorem gatherSeq {k : Nat} {c : AttCfg} {g : Gather} {tab : EA} {q : SeqEnt} {w : WalkRun} (h : s.keepsQueues t) :
    s.keepsQueues (t.gatherSeq k c g tab q w) := by
  unfold State.gatherSeq
  dsimp only
  split
  · exact putRstat (.and (.and h.eaWrite.eaWrite (does_attCount rfl (.refl _ _))) (does_bump rfl (.refl _ _)))
  · exact h

theorem walkFault {k entry : Nat} {v : WalkEnv} {w : WalkRun} {q : SeqEnt} {st : Status} (h : s.keepsQueues t) :
    s.keepsQueues (t.walkFault k v w q entry st).1 := by
  have hf := h.and (u := t.seqLevelFault k w.ix q entry st) (does_seqLevelFault rfl (.refl _ _))
  unfold State.walkFault
  dsimp only
  split
  · exact (zeroSeq (.and hf (does_noteSeqBad rfl (.refl _ _)))).putRstat
  · exact hf.putRstat

theorem walkBegin {k : Nat} {v : WalkEnv} {w : WalkRun} (h : s.keepsQueues t) : s.keepsQueues (t.walkBegin k v w).1 := by
  have hg : ∀ q, s.keepsQueues (t.globals k q).1 := fun q => h.and (does_globals rfl (.refl _ _))
  unfold State.walkBegin
  dsimp only
  split <;> split
  all_goals first
    | exact h.walkFault
    | split
      · exact (hg _).walkFault
      · exact hg _

theorem walkPiece {k : Nat} {v : WalkEnv} {w : WalkRun} (h : s.keepsQueues t) : s.keepsQueues (t.walkPiece k v w).1 := by
  unfold State.walkPiece
  split
  · exact h.walkBegin
  · dsimp only
    split
    · dsimp only
      split
      · exact h.adecSeq
      · exact h.gatherSeq
    · next anchor entry _ _ _ =>
      have hp : ∀ q, s.keepsQueues (t.pageAddr k v.c q { anchor := anchor, entry := entry, slot := 0 }).1 :=
        fun q => h.and (does_pageAddr rfl (.refl _ _))
      split
      · exact (hp _).walkFault
      · exact .and (.and (hp _) (does_bump rfl (.refl _ _))) (does_set_pageSeen rfl (.refl _ _))
    · next anchor entry rest addr _ _ =>
      have ht : s.keepsQueues (t.walkTile k v.slot v.kreg w.ix entry addr (w.buf.length / 2048) v.c.pageBytes).1 :=
        h.and (does_walkTile rfl (.refl _ _))
      split
      · next he => rw [he] at ht; exact ht
      · next he => rw [he] at ht; exact ht
      · next he => rw [he] at ht; exact ht.walkFault
      · next he => rw [he] at ht; split <;> exact ht

end State.keepsQueues

/-! ### The slot an entry holds -/

/-- A walk keeps the queues, and its entry the slot it holds and its ordinal. -/
theorem State.walkLoop_keeps (k func : Nat) (v : WalkEnv) (q : QEntry) (fuel : Nat) {s t : State} (w : WalkRun) (moved : Bool)
    (h : s.keepsQueues t) :
    s.keepsQueues (t.walkLoop k func v q fuel w moved).1 ∧ (t.walkLoop k func v q fuel w moved).2.1.walk = q.walk := by
  induction fuel generalizing t w moved with
  | zero => exact ⟨h, rfl⟩
  | succ n ih =>
    unfold State.walkLoop
    split
    · exact ⟨h, rfl⟩
    · have hp := h.walkPiece (k := k) (v := v) (w := w)
      split
      · next he => rw [he] at hp; exact ih _ _ hp
      · next he => rw [he] at hp; exact ⟨.and (.and hp (does_raise rfl (.refl _ _))) (does_attFail (x2 := { q with pages := none }) rfl (.refl _ _)), rfl⟩
      · next he => rw [he] at hp; exact ⟨hp, rfl⟩

theorem State.resumeWalk_keeps (s : State) (k : Nat) (adec : Bool) (e : QEntry) :
    s.keepsQueues (s.resumeWalk k adec e).1 ∧ (s.resumeWalk k adec e).2.1.walk = e.walk := by
  unfold State.resumeWalk
  split
  · split
    · exact ⟨.refl s, rfl⟩
    · exact State.walkLoop_keeps _ _ _ _ _ _ _ (.and (.refl s) (does_bump rfl (.refl _ _)))
  · exact ⟨.refl s, rfl⟩

theorem State.takeOut_keeps (s : State) (k : Nat) (e : QEntry) :
    s.keepsQueues (s.takeOut k e).1 ∧ (s.takeOut k e).2.walk = e.walk ∧ (s.takeOut k e).2.phase = e.phase ∧ (s.takeOut k e).2.op = e.op := by
  unfold State.takeOut
  split
  · exact ⟨(State.keepsQueues.refl s).modSeq rfl rfl, rfl, rfl, rfl⟩
  · exact ⟨.refl s, rfl, rfl, rfl⟩

/-- The slots that the entries of a slice's attention queue hold. -/
def State.walkSlots (s : State) (k : Nat) : List (Option Nat) := (s.queue k 5).map QEntry.walk

theorem State.keepsQueues.walkSlots {s t : State} (h : s.keepsQueues t) (k : Nat) : t.walkSlots k = s.walkSlots k := by
  simp only [State.walkSlots, h.queue]

theorem State.walkOn_slots (s : State) (k j : Nat) : (s.walkOn k).1.walkSlots j = s.walkSlots j := by
  unfold State.walkOn
  split
  · rfl
  · next e he =>
    split
    · rfl
    · next i _ =>
      dsimp only
      set m := s.modSeq k fun q => { q with outAcc := e.crc }
      have hm : s.keepsQueues m := (State.keepsQueues.refl s).modSeq rfl rfl
      have hr := m.resumeWalk_keeps k (i.op == .adec) { e with crc := none }
      set r := m.resumeWalk k (i.op == .adec) { e with crc := none }
      have ht := r.1.takeOut_keeps k r.2.1
      have hq := (hm.trans hr.1).trans ht.1
      have hw : (r.1.takeOut k r.2.1).2.walk = e.walk := ht.2.1.trans hr.2
      by_cases hj : j = k
      · subst hj
        obtain ⟨es, hes⟩ : ∃ es, s.queue j 5 = e :: es := by
          cases hs : s.queue j 5 <;> simp_all
        simp [State.walkSlots, hq.queue, hes, hw]
      · rw [State.walkSlots, State.queue_setEntry_ne _ _ (.inl hj), hq.queue]; rfl

theorem State.walkRounds_slots (fuel : Nat) (s : State) (j : Nat) : (State.walkRounds fuel s).walkSlots j = s.walkSlots j := by
  induction fuel generalizing s with
  | zero => rfl
  | succ n ih =>
    have hround : ∀ (l : List Nat) (a : State × Bool), (l.foldl (fun (acc : State × Bool) k =>
        let x := acc.1.walkOn k
        (x.1, acc.2 || x.2)) a).1.walkSlots j = a.1.walkSlots j := by
      intro l
      induction l with
      | nil => exact fun _ => rfl
      | cons k l ihl => exact fun a => (ihl _).trans (a.1.walkOn_slots k j)
    unfold State.walkRounds
    dsimp only
    split
    · exact (ih _).trans (hround _ _)
    · exact hround _ _

/-- Walks that look again leave every entry the slot it holds. -/
theorem State.walkSettle_slots (s : State) (j : Nat) : s.walkSettle.walkSlots j = s.walkSlots j := by
  unfold State.walkSettle
  split
  · exact s.walkRounds_slots walkFuel j
  · rfl

/-- Where no walk waits, none looks again. -/
theorem State.walkSettle_idle {s : State} (h : ∀ k < 16, s.walkWaits k = false) : s.walkSettle = s := by
  unfold State.walkSettle
  rw [if_neg]
  simp only [List.any_eq_true, List.mem_range, not_exists, not_and, Bool.not_eq_true]
  exact h

/-! ### A fatal condition -/

/-- What was begun in a queue ends with a fatal condition; no other queue is touched (R35). -/
theorem State.queue_fatalQueue (s : State) (k q : Nat) :
    (s.fatalQueue k q).queue k q = (s.queue k q).filter (fun e => !e.begun)
      ∧ ∀ j p, j ≠ k ∨ p ≠ q → (s.fatalQueue k q).queue j p = s.queue j p := by
  unfold State.fatalQueue
  split
  · next he =>
    refine ⟨(List.filter_eq_self.2 fun e h => ?_).symm, fun _ _ _ => rfl⟩
    simpa using List.filter_eq_nil_iff.1 he e h
  · next e es _ =>
    dsimp only
    set w := (e :: es).foldl (fun s x => s.endWalk k x) s
    have hw : w.seqs = s.seqs := Does.seqs (.foldl (fun _ _ h => does_endWalk rfl h) (.refl _ _))
    set t := w.setQueue k q ((w.queue k q).filter fun x => !x.begun)
    have ht : t.queue k q = (s.queue k q).filter (fun e => !e.begun) ∧ ∀ j p, j ≠ k ∨ p ≠ q → t.queue j p = s.queue j p := by
      have hwq : ∀ j p, w.queue j p = s.queue j p := (State.keepsQueues.of_seqs hw).queue
      refine ⟨?_, fun j p h => ?_⟩
      · rw [← hwq k q]
        simp [t, State.queue, State.setQueue, State.seq_modSeq]
      · rw [← hwq j p]
        simp only [t, State.queue, State.setQueue, State.seq_modSeq]
        split
        · next hj => subst hj; exact Tab.get_put_ne _ _ (h.resolve_left (· rfl)) _
        · rfl
    have hh : ∀ j p, (if t.halted k q then t else t.haltQueue k q e .fault).queue j p = t.queue j p := by
      intro j p
      split
      · rfl
      · refine congrArg (fun x => Tab.get x [] p) ?_
        have hr : (t.haltQueue k q e .fault).seqs = (t.modSeq k fun sq => { sq with halts := sq.halts ++ [(q, .fault)] }).seqs :=
          Does.seqs (does_raise rfl (.refl _ _))
        rw [State.seq, hr, ← State.seq, State.seq_modSeq]
        split
        · next hj => rw [hj]
        · rfl
    exact ⟨(hh k q).trans ht.1, fun j p h => (hh j p).trans (ht.2 j p h)⟩

/-- No begun entry stands in a queue once a fatal condition has ended what was outstanding (R35). -/
theorem State.fatalEnd_unbegun (s : State) {k q : Nat} (hk : k < 16) (hq : q < 9) {e : QEntry} (he : e ∈ s.fatalEnd.queue k q) :
    e.begun = false := by
  have hqueues : ∀ (l : List Nat) (t : State), 9 * k + q ∈ l ∨ (∀ e ∈ t.queue k q, e.begun = false) →
      ∀ e ∈ (l.foldl (fun s i => s.fatalQueue (i / 9) (i % 9)) t).queue k q, e.begun = false := by
    intro l
    induction l with
    | nil => exact fun t h => h.resolve_left (List.not_mem_nil)
    | cons i l ih =>
      intro t h
      refine ih _ ?_
      obtain ⟨hsame, hother⟩ := t.queue_fatalQueue (i / 9) (i % 9)
      by_cases hi : i = 9 * k + q
      · have h1 : i / 9 = k := by omega
        have h2 : i % 9 = q := by omega
        rw [h1, h2] at hsame
        exact .inr fun e he => by simp only [h1, h2, hsame] at he; simpa using (List.mem_filter.1 he).2
      · dsimp only
        rw [hother k q (by omega)]
        exact h.imp (fun hm => (List.mem_cons.1 hm).resolve_left (Ne.symm hi)) id
  unfold State.fatalEnd at he
  dsimp only at he
  rw [State.queue, State.seq, Does.seqs (.foldl (fun _ _ h => does_rowFail rfl h) (.foldl (fun _ _ h => does_collEnd rfl h) (.refl _ _)))] at he
  exact hqueues _ _ (.inl (List.mem_range.2 (by omega))) e he

/-- Where a command ends with one begun entry in an attention queue, whichever engine's work its end is the end of, that entry holds the slot
it held when the work was done. -/
theorem State.walk_of_settled {s v : State} {k : Nat} (hk : k < 16) {e z : QEntry}
    (hz : (((v.takeOut k e).1.setEntry k 5 0 (v.takeOut k e).2).walkSettle.afterLoss s).queue k 5 = [z]) (hb : z.begun = true) :
    z.walk = e.walk := by
  obtain ⟨-, hwalk, -, -⟩ := v.takeOut_keeps k e
  set y := (v.takeOut k e).1.setEntry k 5 0 (v.takeOut k e).2
  have hx : y.walkSettle.queue k 5 = [z] := by
    unfold State.afterLoss at hz
    dsimp only at hz
    have hlost : ∀ t : State, (if t.bulk.mode = .failed ∧ s.bulk.mode ≠ .failed then t.bulkExpire else t).queue k 5 = t.queue k 5 := by
      intro t
      split
      · rw [State.queue, State.seq, Does.seqs (does_bulkExpire rfl (.refl _ t))]; rfl
      · rfl
    rw [hlost] at hz
    split at hz
    · have := State.fatalEnd_unbegun y.walkSettle (k := k) (q := 5) hk (by decide) (e := z) (by simp [hz])
      simp [hb] at this
    · exact hz
  have hy : y.walkSlots k = [z.walk] := by rw [← y.walkSettle_slots, State.walkSlots, hx]; rfl
  rw [State.walkSlots, State.queue_setEntry] at hy
  cases hq : (v.takeOut k e).1.queue k 5 with
  | nil => simp [hq] at hy
  | cons a l => simp [hq, hwalk] at hy; exact hy.1.symm

end Sys2Proof.Machine
end

section
/-! PROOFS. What a walk of slice 0 keeps, over a sound bulk tier: units in place, the registers it does not count in, the queues, and every byte
but those of the working store that it writes (R89, R235, R286, R292). -/

namespace Sys2Proof.Machine

/-! ### Bytes read after bytes written -/

theorem State.rdMem_wrMem (s : State) (sp : Space) (o : Nat) (bs : List Byte) (h : s.canonical = true) :
    (s.wrMem sp o bs).rdMem sp o bs.length = bs := Mem.getN_putN _ bs _ h

/-- Bytes of one memory beside those written. -/
theorem State.get_wrMem_ne {s : State} {sp sp' : Space} {o x : Nat} {bs : List Byte} (h : s.canonical = true) (hx : x < 2 ^ 60)
    (ho : o + bs.length ≤ 2 ^ 60) (hn : sp' = sp → x < o ∨ o + bs.length ≤ x) :
    Mem.get (sp'.key x) (s.wrMem sp o bs).mem = Mem.get (sp'.key x) s.mem := by
  refine Mem.get_putN_ne bs _ h ?_
  by_cases e : sp' = sp
  · subst e; simp only [Space.key]; have := hn rfl; omega
  · cases sp <;> cases sp' <;> simp only [Space.key, Space.base] <;> first | omega | exact absurd rfl e

/-! ### What a walk keeps -/

/-- The registers a walk of slice 0 counts in (R217, R286, R292). -/
def walkRegs : List Nat :=
  [Pg.bulk + 0x118, Pg.bulk + 0x148, Pg.xe 1 + 0x138, Pg.att 0 + 0x108, Pg.att 0 + 0x110, Pg.att 0 + 0x120, Pg.att 0 + 0x128, Pg.att 0 + 0x130]

/-- The kinds of state a piece of a walk may touch. -/
def walkKinds : Nat := 21906212550130630730

/-- What a walk of slice 0 keeps that writes the bytes `W` of the working stores. -/
structure State.Walks (W : Nat → Prop) (s t : State) : Prop where
  does : Does walkKinds s t
  phase : t.boot.phase = s.boot.phase
  memStop : t.boot.memStop = s.boot.memStop
  mode : t.bulk.mode = s.bulk.mode
  swaps : t.bulk.swaps = s.bulk.swaps
  placed : ∀ n, (t.placed n).bulk = (s.placed n).bulk ∧ (t.placed n).frame = (s.placed n).frame ∧ (t.placed n).poison = (s.placed n).poison
  regs : s.regsKept walkRegs t
  queues : s.keepsQueues t
  mem : s.canonical = true → ∀ (sp : Space) (o : Nat), o < 2 ^ 60 → (sp = .ws → ¬ W o) → Mem.get (sp.key o) t.mem = Mem.get (sp.key o) s.mem

namespace State.Walks

variable {W V : Nat → Prop} {s t u : State}

theorem canonical (h : s.Walks W t) (hs : s.canonical = true) : t.canonical = true := h.does.grows.memory hs

theorem trans (h : s.Walks W t) (g : t.Walks W u) : s.Walks W u where
  does := h.does.after g.does (Nat.or_self _)
  phase := g.phase.trans h.phase
  memStop := g.memStop.trans h.memStop
  mode := g.mode.trans h.mode
  swaps := g.swaps.trans h.swaps
  placed n := by rw [(g.placed n).1, (g.placed n).2.1, (g.placed n).2.2]; exact h.placed n
  regs := h.regs.trans g.regs
  queues := h.queues.trans g.queues
  mem hs sp o ho hW := (g.mem (h.canonical hs) sp o ho hW).trans (h.mem hs sp o ho hW)

theorem mono (h : s.Walks W t) (hWV : ∀ x, W x → V x) : s.Walks V t :=
  { h with mem := fun hs sp o ho hV => h.mem hs sp o ho fun e hw => hV e (hWV o hw) }

theorem ident (h : s.Walks W t) : t.ident = s.ident := h.does.frame .ident (by decide)
theorem parts (h : s.Walks W t) : t.parts = s.parts := h.does.frame .parts (by decide)
theorem xslots (h : s.Walks W t) : t.xslots = s.xslots := h.does.frame .xslots (by decide)
theorem attCfg (h : s.Walks W t) : t.attCfg = s.attCfg := h.does.frame .attCfg (by decide)

/-- A register that a walk neither counts in nor raises events in. -/
theorem reg (h : s.Walks W t) {k : Nat} (hk : eventReg k = false ∧ k ∉ walkRegs) : t.reg k = s.reg k := h.regs k hk.1 hk.2

/-- Bytes that the walk does not write. -/
theorem rdMem (h : s.Walks W t) (hs : s.canonical = true) {sp : Space} {o n : Nat} (ho : o + n ≤ 2 ^ 60)
    (hW : sp = .ws → ∀ x, o ≤ x → x < o + n → ¬ W x) : t.rdMem sp o n = s.rdMem sp o n :=
  List.map_congr_left fun i hi => by
    have hi := List.mem_range.1 hi
    rw [show sp.key o + i = sp.key (o + i) from Nat.add_assoc ..]
    exact h.mem hs sp (o + i) (by omega) fun e => hW e _ (by omega) (by omega)

/-- An operation that leaves memory, the bulk tier, the boot state and the sequencers alone. -/
theorem of_does (hd : Does walkKinds s t) (hboot : t.boot = s.boot) (hbulk : t.bulk = s.bulk) (hmem : t.mem = s.mem) (hseqs : t.seqs = s.seqs)
    (hregs : s.regsKept walkRegs t) : s.Walks W t where
  does := hd
  phase := by rw [hboot]
  memStop := by rw [hboot]
  mode := by rw [hbulk]
  swaps := by rw [hbulk]
  placed n := by
    have hi : t.ident = s.ident := hd.frame .ident (by decide)
    have hu : t.stackUnits = s.stackUnits := by simp only [State.stackUnits, State.nStacks, hi]
    have hp : t.placed n = s.placed n := by simp only [State.placed, State.placeDefault, hu, hbulk]
    rw [hp]; exact ⟨rfl, rfl, rfl⟩
  regs := hregs
  queues := .of_seqs hseqs
  mem _ _ _ _ _ := by rw [hmem]

theorem refl (s : State) : s.Walks W s := of_does (.refl _ s) rfl rfl rfl rfl (State.regsKept_refl _ _)

theorem foldl {α : Type} {f : State → α → State} {l : List α} (hf : ∀ (t : State) x, t.Walks W (f t x)) (s : State) : s.Walks W (l.foldl f s) := by
  induction l generalizing s with
  | nil => exact refl s
  | cons x l ih => exact (hf s x).trans (ih _)

end State.Walks

/-! ### The parts of a walk's pieces -/

section
variable (s : State) {W : Nat → Prop}

theorem State.walks_bump {k : Nat} (hk : k ∈ walkRegs) (n : Nat) : s.Walks W (s.bump k n) := by
  refine .of_does (does_bump rfl (.refl _ s)) ?_ ?_ ?_ ?_ fun j _ hj => s.reg_bump_ne (by rintro rfl; exact hj hk) n
  all_goals unfold State.bump; split <;> rfl

/-- An event without an error record stops nothing. -/
theorem State.raise_boot {page b : Nat} {r : Raise} (hr : r.err = none) : (s.raise page b r).boot = s.boot := by
  simp only [State.raise, hr]
  split
  · simp
  · rw [State.pushes_boot (fun s' _ => _)]
    split <;> simp

theorem State.walks_attEvent {b : Nat} (hb : b < 64) (st : Status) : s.Walks W (s.attEvent 0 b st) := by
  have hd : Does 18446744073713483842 s (s.attEvent 0 b st) := does_attEvent rfl (.refl _ s)
  refine .of_does (does_attEvent rfl (.refl _ s)) (s.raise_boot rfl) (hd.frame .bulk (by decide)) (hd.frame .mem (by decide))
    (hd.frame .seqs (by decide)) (State.regsKept.mono fun k hk _ => ?_)
  refine s.reg_raise _ ⟨rfl, by decide, by decide⟩ hb (fun t d hd => ?_) hk
  rw [List.mem_singleton.1 hd]
  exact t.pageOwner_lt _

theorem State.walks_attCount (sat nan : Nat) : s.Walks W (s.attCount 0 sat nan) := by
  have hb := ((s.walks_bump (W := W) (k := Pg.att 0 + 0x120) (by decide) sat).trans
    (State.walks_bump _ (k := Pg.att 0 + 0x128) (by decide) nan))
  unfold State.attCount
  dsimp only
  split <;> split
  · exact (hb.trans (State.walks_attEvent _ (by decide) _)).trans (State.walks_attEvent _ (by decide) _)
  · exact hb.trans (State.walks_attEvent _ (by decide) _)
  · exact hb.trans (State.walks_attEvent _ (by decide) _)
  · exact hb

/-- A write into the working stores. -/
theorem State.walks_wrMem {o : Nat} {bs : List Byte} (ho : o + bs.length ≤ 2 ^ 60) (hW : ∀ x, o ≤ x → x < o + bs.length → W x) :
    s.Walks W (s.wrMem .ws o bs) where
  does := does_wrMem rfl (.refl _ s)
  phase := rfl
  memStop := rfl
  mode := rfl
  swaps := rfl
  placed _ := ⟨rfl, rfl, rfl⟩
  regs := State.regsKept_of_regs rfl _
  queues := .of_seqs rfl
  mem hs sp x hx hn := State.get_wrMem_ne hs hx ho fun e => by have := hn e; grind

/-- What slice 0 writes into its own working store. -/
theorem State.eaWrite_ws (x : Nat) (bs : List Byte) : s.eaWrite 0 ⟨false, 0, x⟩ bs = s.wrMem .ws x bs := by
  simp [State.eaWrite, State.eaPut, State.eaWritable, EA.space, EA.pos]

@[simp] theorem State.eaRead_ws (x n : Nat) : s.eaRead ⟨false, 0, x⟩ n = s.rdMem .ws x n := by
  simp [State.eaRead, EA.space, EA.pos]

theorem State.walks_modRegion (k r : Nat) (f : Region → Region) : s.Walks W (s.modRegion k r f) :=
  .of_does (does_modRegion rfl (.refl _ s)) rfl rfl rfl rfl (State.regsKept_of_regs rfl _)

theorem State.walks_pageSeen (v : Tab Nat) : s.Walks W { s with pageSeen := v } :=
  .of_does (does_set_pageSeen rfl (.refl _ s)) rfl rfl rfl rfl (State.regsKept_of_regs rfl _)

theorem State.walks_useFree : s.Walks W s.useFree :=
  .of_does (does_useFree rfl (.refl _ s)) rfl rfl rfl rfl (State.regsKept_of_regs rfl _)

/-- An access counted against its unit leaves the unit where it is (R292). -/
theorem State.walks_modPlaced (n : Nat) (f : Placed → Placed) (hf : ∀ p, (f p).bulk = p.bulk ∧ (f p).frame = p.frame ∧ (f p).poison = p.poison) :
    s.Walks W (s.modPlaced n f) where
  does := does_modPlaced rfl (.refl _ s)
  phase := rfl
  memStop := rfl
  mode := rfl
  swaps := rfl
  placed j := by
    have h : ∀ d, (s.bulk.table.put n (f (s.placed n))).get d j = if j = n then f (s.placed n) else s.bulk.table.get d j := fun d => Tab.get_put ..
    simp only [State.placed, State.modPlaced] at h ⊢
    rw [h]
    split
    · next e => subst e; exact hf _
    · exact ⟨rfl, rfl, rfl⟩
  regs := State.regsKept_of_regs rfl _
  queues := .of_seqs rfl
  mem _ _ _ _ _ := rfl

theorem State.walks_countAccess (addr : Nat) : s.Walks W (s.countAccess addr) := by
  unfold State.countAccess State.translate
  split
  · exact ((s.walks_bump (by decide) _).trans (State.walks_useFree _)).trans (State.walks_modPlaced _ _ _ fun _ => ⟨rfl, rfl, rfl⟩)
  · exact State.walks_modPlaced _ _ _ fun _ => ⟨rfl, rfl, rfl⟩

end

end Sys2Proof.Machine
end

section
/-! PROOFS. Slice 0 of the module's only partition, over a bulk tier of zeros that one region covers: what a read of device memory gives and
what a piece of a walk reads (R285, R286, R292, R366). -/

namespace Sys2Proof.Machine

/-- Slice 0 is all of partition 0, which reads a bulk tier of zeros behind an identity map; the configuration of transport slots 0 and 1
names no follower. -/
structure State.ZeroBulk (s : State) : Prop where
  canonical : s.canonical = true
  memStop : s.boot.memStop = false
  bulk : s.ident.bulk = true
  tolvys : s.ident.tolvys = 0
  mode : s.bulk.mode = .ready
  swaps : s.bulk.swaps = []
  placed : ∀ n, (s.placed n).bulk = true ∧ (s.placed n).frame = n ∧ (s.placed n).poison = false
  cells : ∀ sp, sp = .bulk ∨ sp = .bulkChk → ∀ o n, o + n ≤ 2 ^ 60 → s.rdMem sp o n = zeros n
  range : s.reg (keyAt (Pg.sec + 0x808) 0) = 0xE000000000000
  share : s.reg (keyAt (Pg.sec + 0x810) 0) = 1
  slices : s.reg (Pg.pt 0 + 0x110) = 1
  twins : s.reg (Pg.ig + 0x408) = 0
  slots : ∀ q < 2, s.reg (xqCfg 1 q) = 0x7E0000
  pats : ∀ i < 8, s.reg (Pg.att 0 + 0x140 + 8 * i) = 0
  part : s.part 0 = { mode := .active }

namespace State.ZeroBulk

variable {W : Nat → Prop} {s t : State}

theorem walks (h : s.ZeroBulk) (hw : s.Walks W t) : t.ZeroBulk where
  canonical := hw.canonical h.canonical
  memStop := hw.memStop.trans h.memStop
  bulk := by rw [hw.ident]; exact h.bulk
  tolvys := by rw [hw.ident]; exact h.tolvys
  mode := hw.mode.trans h.mode
  swaps := hw.swaps.trans h.swaps
  placed n := by
    obtain ⟨hb, hf, hp⟩ := hw.placed n
    rw [hb, hf, hp]; exact h.placed n
  cells sp hsp o n ho := (hw.rdMem h.canonical ho fun e => by subst e; simp at hsp).trans (h.cells sp hsp o n ho)
  range := (hw.reg (by decide)).trans h.range
  share := (hw.reg (by decide)).trans h.share
  slices := (hw.reg (by decide)).trans h.slices
  twins := (hw.reg (by decide)).trans h.twins
  slots q hq := (hw.reg (by interval_cases q <;> decide)).trans (h.slots q hq)
  pats i hi := (hw.reg (by interval_cases i <;> decide)).trans (h.pats i hi)
  part := by rw [State.part, hw.parts]; exact h.part

theorem slicesOf (h : s.ZeroBulk) : s.slicesOf 0 = [0] := by
  simp only [State.slicesOf, State.sliceMask, State.fld, h.slices, h.part]
  decide

theorem twinsOf (h : s.ZeroBulk) : s.twinsOf 0 = [] := by
  simp only [State.twinsOf, State.fld, Nat.mul_zero, Nat.add_zero, h.twins]
  decide

theorem partOfSlice (h : s.ZeroBulk) : s.partOfSlice 0 = some 0 := by
  rw [State.partOfSlice, List.range_succ_eq_map, List.find?_cons_of_pos]
  simp [h.part, h.slicesOf]

theorem peersOf (h : s.ZeroBulk) : s.peersOf 0 0 = [0] := by simp [State.peersOf, h.twinsOf, h.slicesOf]

/-- An address word below 2 to the 24th names a byte of the slice's own working store (R90). -/
theorem ea32 (h : s.ZeroBulk) {a : Nat} (ha : a < 2 ^ 24) (h32 : aligned a 32 = true) : s.ea32 0 a = some ⟨false, 0, a⟩ := by
  have hb : a / 2 ^ 28 = 0 ∧ a / 2 ^ 24 % 16 = 0 ∧ a % 2 ^ 24 = a := by omega
  obtain ⟨h1, h2, h3⟩ := hb
  simp only [State.ea32, State.ea, h.partOfSlice, h.peersOf, resolveEA, h1, h2, h3]
  simp [h32]

theorem attPats (h : s.ZeroBulk) : s.attPats 0 = List.replicate 8 0 := by
  rw [State.attPats, List.eq_replicate_iff]
  refine ⟨by simp, fun w hw => ?_⟩
  obtain ⟨i, hi, rfl⟩ := List.mem_map.1 hw
  exact h.pats i (List.mem_range.1 hi)

theorem walkFollows (h : s.ZeroBulk) {q : Nat} (hq : q < 2) : s.walkFollows 0 q = false := by
  simp only [State.walkFollows, Nat.mul_zero, Nat.zero_add, h.slots q hq]
  decide

theorem walkTargets (h : s.ZeroBulk) {q : Nat} (hq : q < 2) : s.walkTargets 0 q = [0] := by
  simp only [State.walkTargets, h.walkFollows hq, State.walkSlices, h.partOfSlice, h.peersOf, State.fld, Nat.mul_zero, Nat.zero_add, h.slots q hq]
  decide

theorem memRegion (h : s.ZeroBulk) : s.memRegion 0 = { base := 0, count := 917504, mode := 1, part := 0, share := 0, poison := false } := by
  simp only [State.memRegion, h.range, h.share]
  rfl

theorem regionOfUnit (h : s.ZeroBulk) {u : Nat} (hu : u < 917504) : s.regionOfUnit u = some (0, s.memRegion 0) := by
  rw [State.regionOfUnit, List.range_succ_eq_map, List.map_cons, List.find?_cons_of_pos]
  simp [h.memRegion, hu]

theorem devEnd (h : s.ZeroBulk) : s.devEnd = 917504 * 2 ^ 21 := by
  have hp : popcount 12 0 = 0 := by decide
  simp [State.devEnd, State.units, State.stackUnits, State.nStacks, State.bulkUnits, h.tolvys, h.bulk, hp, unitBytes]

/-- What a read of the whole tier is checked for. -/
theorem devCheck (h : s.ZeroBulk) {a n : Nat} (ha : a < 917504 * 2 ^ 21) (hn : a + n ≤ 917504 * 2 ^ 21) :
    s.devCheck (s.attWho 0) a n false = .ok := by
  have hu : a / unitBytes < 917504 := by unfold unitBytes; omega
  have hu' : ¬ unitBytes * 917504 < a + n := by unfold unitBytes; omega
  have hreads : s.regionReads (s.memRegion 0) (s.attWho 0) = true := by
    simp [h.memRegion, State.attWho, h.partOfSlice, State.regionReads, h.part]
  have hlen : ¬ (unitBytes * ((s.memRegion 0).base + (s.memRegion 0).count) < a + n ∨ s.devEnd < a + n) := by
    rw [h.memRegion, h.devEnd]
    rintro (h1 | h2)
    · exact hu' (by simpa using h1)
    · omega
  rw [State.devCheck, if_neg (by rw [h.devEnd]; omega), h.regionOfUnit hu]
  dsimp only
  rw [if_neg Bool.false_ne_true, hreads, if_neg hlen]
  rfl

theorem locate (h : s.ZeroBulk) (a : Nat) : s.locate a = .bulk a := by
  have hf : s.frameOf a = s.placed (a / unitBytes) := by simp [State.frameOf, h.swaps]
  obtain ⟨hb, hfr, -⟩ := h.placed (a / unitBytes)
  simp only [State.locate, hf, hb, hfr, if_true]
  rw [Nat.div_add_mod]

end State.ZeroBulk

theorem State.walks_noteBulkUe (s : State) {W : Nat → Prop} (b : Nat) : s.Walks W (s.noteBulkUe b false) := by
  have hn : s.noteBulkUe b false = s.modBulk fun k => { k with ueRun := k.ueRun.put (bulkChannel b) 0 } := by
    simp [State.noteBulkUe, State.modBulk]
  rw [hn]
  exact { does := does_modBulk rfl (.refl _ s), phase := rfl, memStop := rfl, mode := rfl, swaps := rfl, placed := fun _ => ⟨rfl, rfl, rfl⟩
          regs := State.regsKept_of_regs rfl _, queues := .of_seqs rfl, mem := fun _ _ _ _ _ => rfl }

/-- The raw offsets of a sector of the tier lie within it. -/
theorem bulkData_bound {b : Nat} (hb : b < 917504 * 2 ^ 21) : bulkData b + 64 ≤ 2 ^ 60 ∧ bulkCheck b + 8 ≤ 2 ^ 60 := by
  have hch : bulkChannel b < 128 := Nat.mod_lt _ (by decide)
  unfold bulkData bulkCheck bulkSector
  omega

namespace State.ZeroBulk

variable {s : State} (h : s.ZeroBulk)
include h

theorem readSector (W : Nat → Prop) {a : Nat} (ha : a < 917504 * 2 ^ 21) : ∃ t, s.readSector a = (t, zeros 64, .ok) ∧ s.Walks W t := by
  obtain ⟨hd, hc⟩ := bulkData_bound ha
  have hu : a / unitBytes < 917504 := by unfold unitBytes; omega
  have hdec : rsDecode 2 (zeros 8) = some [] := by decide +kernel
  refine ⟨(s.bump (Pg.bulk + 0x118) 64).noteBulkUe a false, ?_, (s.walks_bump (by decide) _).trans (State.walks_noteBulkUe _ _)⟩
  simp [State.readSector, h.memStop, h.placed, State.regionPoison, h.regionOfUnit hu, h.memRegion, h.locate, State.readBulk, State.readBulkFrom,
    h.mode, h.cells _ (.inl rfl) _ _ hd, h.cells _ (.inr rfl) _ _ hc, hdec]

/-- What device memory holds, sector by sector. -/
theorem devRead (W : Nat → Prop) {a n : Nat} (ha : a + n + 64 ≤ 917504 * 2 ^ 21) : ∃ t, s.devRead a n = (t, zeros n, .ok) ∧ s.Walks W t := by
  have hfold : ∀ m f, (f + m) * 64 ≤ 917504 * 2 ^ 21 → ∃ t, (List.range m).foldl
      (fun (acc : State × List Byte × Status) i =>
        let q := acc.1.readSector ((f + i) * 64)
        (q.1, acc.2.1 ++ q.2.1, firstFail acc.2.2 q.2.2)) (s, [], .ok) = (t, zeros (64 * m), .ok) ∧ s.Walks W t := by
    intro m f hm
    induction m with
    | zero => exact ⟨s, rfl, .refl s⟩
    | succ m ih =>
      obtain ⟨t, ht, hw⟩ := ih (by omega)
      obtain ⟨u, hu, hv⟩ := (h.walks hw).readSector W (a := (f + m) * 64) (by omega)
      refine ⟨u, ?_, hw.trans hv⟩
      rw [List.range_succ, List.foldl_append, ht]
      simp only [List.foldl_cons, List.foldl_nil, hu, firstFail, zeros, List.replicate_append_replicate, Nat.mul_add, if_true]
  obtain ⟨t, ht, hw⟩ := hfold ((a + n + 63) / 64 - a / 64) (a / 64) (by omega)
  refine ⟨t, ?_, hw⟩
  simp only [State.devRead, ht]
  simp only [zeros, List.drop_replicate, List.take_replicate]
  congr 3
  omega

theorem attRead (W : Nat → Prop) {a n : Nat} (ha : a + n + 64 ≤ 917504 * 2 ^ 21) : ∃ t, s.attRead 0 a n = (t, zeros n, .ok) ∧ s.Walks W t := by
  have hw := s.walks_countAccess (W := W) a
  obtain ⟨t, ht, hv⟩ := (h.walks hw).devRead W ha
  exact ⟨t, by simp [State.attRead, h.devCheck (a := a) (n := n) (by omega) (by omega), ht], hw.trans hv⟩

end State.ZeroBulk

/-! ### Pages and tiles -/

/-- The bytes of the one tile that region 0 holds. -/
def tileBytes (x : Nat) : Prop := 524288 ≤ x ∧ x < 526336

/-- The mask of every kind of state but the stream regions. -/
def butRegions : Nat := 2 ^ 66 - 1 - 2 ^ 16

theorem Does.regions {s t : State} (h : Does butRegions s t) : t.regions = s.regions := h.frame .regions (by decide)

/-- Region 0 of slice 0 is one tile, and all it was lent is back; region 1 stands open to a walk (R231, R235). -/
structure State.Window (s : State) : Prop where
  base : (s.region 0 0).base = 128
  tiles : (s.region 0 0).tiles = 1
  back : (s.region 0 0).taken ≤ (s.region 0 0).released
  next : (s.region 0 1).en = true ∧ (s.region 0 1).producer = 1

theorem State.Window.of_regions {s t : State} (h : s.Window) (e : t.regions = s.regions) : t.Window := by
  have he : ∀ r, t.region 0 r = s.region 0 r := fun r => by rw [State.region, e]; rfl
  exact ⟨by rw [he]; exact h.base, by rw [he]; exact h.tiles, by rw [he]; exact h.back, by rw [he]; exact h.next⟩

theorem State.Window.tileOff {s : State} (h : s.Window) (n : Nat) : (s.region 0 0).tileOff n = 524288 := by
  simp [Region.tileOff, h.base, h.tiles, Nat.mod_one]

theorem State.region_modRegion (s : State) (k r j p : Nat) (f : Region → Region) :
    (s.modRegion k r f).region j p = if 16 * j + p = 16 * k + r then f (s.region k r) else s.region j p := Tab.get_put ..

theorem State.length_takeTile (s : State) (k r n : Nat) : (s.takeTile k r n).2.length = 2048 := by
  unfold State.takeTile State.eaRead State.rdMem Mem.getN
  rw [List.length_map, List.length_range]

/-- Each tile a leader stages in its own region it takes out at once (R235). -/
theorem State.Window.putTile {s : State} (h : s.Window) {data : List Byte} (hd : data.length = 2048) (tag : Nat × Nat × Nat) (n : Nat) :
    ((s.putTile 0 data tag 0).takeTile 0 0 n).1.Window ∧ s.Walks tileBytes ((s.putTile 0 data tag 0).takeTile 0 0 n).1 := by
  have hput : s.putTile 0 data tag 0 = (s.wrMem .ws 524288 data).modRegion 0 0 fun g =>
      { g with taken := g.taken + 1, filled := g.filled + 1, tags := g.tags ++ [tag] } := by
    simp [State.putTile, State.eaPut, State.eaWritable, EA.space, EA.pos, h.tileOff]
  have hreg : ∀ r, (s.wrMem .ws 524288 data).region 0 r = s.region 0 r := fun _ => rfl
  rw [hput]
  have hmem : s.Walks tileBytes (s.wrMem .ws 524288 data) := s.walks_wrMem (by omega) fun x _ _ => ⟨by omega, by omega⟩
  have htake : ∀ u : State, u.Walks tileBytes (u.takeTile 0 0 n).1 := fun u => by
    unfold State.takeTile
    dsimp only
    exact u.walks_modRegion _ _ _
  refine ⟨⟨?_, ?_, ?_, ?_⟩, (hmem.trans (State.walks_modRegion _ _ _ _)).trans (htake _)⟩
  · simpa [State.takeTile, State.region_modRegion, hreg] using h.base
  · simpa [State.takeTile, State.region_modRegion, hreg] using h.tiles
  · simpa [State.takeTile, State.region_modRegion, hreg] using h.back
  · simpa [State.takeTile, State.region_modRegion, hreg] using h.next

namespace State.ZeroBulk

variable {s : State} (h : s.ZeroBulk)
include h

/-- A page list of zeros places every page at address 0 of the pool (R205). -/
theorem pageAddr (W : Nat → Prop) {c : AttCfg} {q : SeqEnt} {e : Nat} (hpool : c.pool = 0) (hf : c.frameBytes ≤ 2 ^ 40)
    (hp : c.pageBytes ≤ 2048) (hl : q.plist = 0) (he : e < q.npage) (hn : e < 2 ^ 24) :
    ∃ t, s.pageAddr 0 c q { anchor := false, entry := e, slot := 0 } = (t, 0, false, .ok) ∧ s.Walks W t ∧ t.regions = s.regions := by
  obtain ⟨t, ht, hw⟩ := h.attRead W (a := 4 * e) (n := 4) (by omega)
  have hz : leNat (zeros 4) = 0 := by decide
  have hend : ¬ 917504 * 2 ^ 21 < c.frameBytes := by omega
  have hpage : State.pageAddr s 0 c q { anchor := false, entry := e, slot := 0 } = (t, 0, false, .ok) := by
    simp [State.pageAddr, hl, ht, hz, hpool, h.devEnd, h.devCheck (a := 0) (n := c.pageBytes) (by omega) (by omega), Nat.not_le.2 he]
    omega
  refine ⟨t, hpage, hw, ?_⟩
  have hd := does_pageAddr (m := butRegions) (x1 := 0) (x2 := c) (x3 := q) (x4 := { anchor := false, entry := e, slot := 0 }) rfl (.refl _ s)
  have := hd.regions
  rw [hpage] at this
  exact this

/-- A tile of a frame, of which the first 1,024 bytes are the page's (R205, R235). -/
theorem walkTile {q : Nat} (hq : q < 2) (hw : s.Window) (ix e : Nat) {n : Nat} (hn : n < 2 ^ 29) :
    ∃ t data, s.walkTile 0 q 0 ix e 0 n 1024 = (t, .got data) ∧ data.length = 2048 ∧ s.Walks tileBytes t ∧ t.Window := by
  have hcred : (s.region 0 0).credits ≠ 0 := by
    have := hw.back
    rw [Region.credits, hw.tiles]
    omega
  set m := min 2048 (1024 - 2048 * n) with hm
  set v := if m = 0 then s else s.countAccess (0 + 2048 * n) with hv
  have hsv : s.Walks tileBytes v := by
    rw [hv]; split
    · exact .refl s
    · exact s.walks_countAccess _
  have hregv : v.regions = s.regions := by
    rw [hv]; split
    · rfl
    · exact (does_countAccess (m := butRegions) rfl (.refl _ s)).regions
  obtain ⟨t, ht, hvt⟩ := (h.walks hsv).devRead tileBytes (a := 0 + 2048 * n) (n := m) (by omega)
  have hregt : t.regions = v.regions := by
    have := (does_devRead (m := butRegions) (x1 := 0 + 2048 * n) (x2 := m) rfl (.refl _ v)).regions
    rw [ht] at this
    exact this
  set u := t.bump (Pg.xe (2 * 0 + 1) + 0x138) m with hu
  have htu : t.Walks tileBytes u := t.walks_bump (by decide) _
  have hregu : u.regions = t.regions := (does_bump (m := butRegions) rfl (.refl _ t)).regions
  have hwu : u.Window := hw.of_regions (hregu.trans (hregt.trans hregv))
  obtain ⟨hwin, hwalks⟩ := hwu.putTile (data := zeros m ++ zeros (2048 - m)) (by simp [zeros]; omega) (ix, e, n)
    (((u.putTile 0 (zeros m ++ zeros (2048 - m)) (ix, e, n) 0).region 0 0).taken - 1)
  refine ⟨_, ((u.putTile 0 (zeros m ++ zeros (2048 - m)) (ix, e, n) 0).takeTile 0 0
    (((u.putTile 0 (zeros m ++ zeros (2048 - m)) (ix, e, n) 0).region 0 0).taken - 1)).2, ?_, ?_, ((hsv.trans hvt).trans htu).trans hwalks, hwin⟩
  · simp only [State.walkTile, h.walkFollows hq, h.walkTargets hq, ← hm, ← hv, ht]
    have hany : (([0] : List Nat).any fun j => (s.region j 0).credits == 0) = false := by simpa using hcred
    rw [if_neg Bool.false_ne_true, hany, if_neg Bool.false_ne_true, if_neg (fun hne => hne rfl)]
    rfl
  · exact State.length_takeTile ..

end State.ZeroBulk

end Sys2Proof.Machine
end

section
/-! PROOFS. A batch whose walk is longer than the walk's bound: 16,384 sequences of 262,141 pages of 2^29 tiles each (R196, R205, R235). -/

namespace Sys2Proof.Machine

/-! ### The batch -/

/-- A configuration record that ACONFIG refuses for its frames of 2^29 tiles (R196). -/
def longRecord : List Byte := [0, 1, 3, 1, 32, 0, 0, 0, 0, 0, 0, 0, 0, 0, 0, 0x20] ++ zeros 112

def longCfg : AttCfg := AttCfg.ofBytes longRecord (List.replicate 8 0)

/-- The descriptor: 16,384 sequences, with the partial results of head 2 taken up (R198). -/
def longDesc : List Byte := toLe 4 0x100000 ++ toLe 2 16384 ++ [0, 0, 0, 4, 0, 2, 1, 0, 0, 0, 32, 0, 0, 0] ++ zeros 44

def longBatch : Batch := Batch.ofBytes longDesc

/-- Entry 1 and those behind it: 4,194,288 tokens on 262,144 pages. -/
def longEntry : List Byte :=
  zeros 8 ++ [0, 0, 4, 0] ++ toLe 3 4194288 ++ [0, 1] ++ zeros 15 ++ toLe 4 0x3000 ++ toLe 4 0x1000 ++ toLe 4 512 ++ zeros 4 ++ toLe 4 0x2000
    ++ zeros 12

def longSeq : SeqEnt := SeqEnt.ofBytes longEntry

theorem longCfg_facts : longCfg.latent = false ∧ longCfg.frameBytes = 2 ^ 40 ∧ longCfg.pool = 0 ∧ longCfg.pageBytes = 1024 ∧ longCfg.g = 1
    ∧ longCfg.p = 16 ∧ longCfg.d = 32 := by decide +kernel

theorem longBatch_facts : longBatch.nseq = 16384 ∧ longBatch.hfirst = 2 ∧ longBatch.hcount = 1 ∧ longBatch.raw = false
    ∧ longBatch.stats = false ∧ longBatch.ofmt = 0 ∧ longBatch.klo = 32 ∧ longBatch.khi = 0 := by decide +kernel

theorem longSeq_facts : longSeq.plist = 0 ∧ longSeq.npage = 262144 ∧ longSeq.len = 4194288 ∧ longSeq.nq = 1 ∧ longSeq.ring = false
    ∧ longSeq.globEn = false ∧ longSeq.lenOk = true ∧ longSeq.oaddr = 0x1000 := by decide +kernel

/-- With the pattern registers at zero every head sees all of its keys (R206). -/
theorem longCfg_headPat (h : Nat) : longCfg.headPat h = { win := 0, nsink := 0, localOff := false, glob := false } := by
  have hw : longCfg.words = List.replicate 8 0 := rfl
  have hz : ∀ n, (List.replicate 8 (0 : Word)).getD n 0 = 0 := fun n => by
    rw [List.getD_eq_getElem?_getD, List.getElem?_replicate]
    split <;> rfl
  rw [AttCfg.headPat, hw, hz]
  rfl

/-- The pages of a long sequence: entries of its page list, and at least 262,141 of them. -/
def longTodo : List (Bool × Nat) := pagesOf ((longCfg.needed longBatch longSeq []).map (longCfg.place longSeq longCfg.maxSink []))

theorem mem_longTodo (x : Bool × Nat) : x ∈ longTodo ↔ ∃ p, 32 ≤ p ∧ p < 4194288 ∧ x = (false, p / 16) := by
  obtain ⟨-, -, -, -, -, hp, -⟩ := longCfg_facts
  obtain ⟨-, -, -, -, -, -, hklo, hkhi⟩ := longBatch_facts
  obtain ⟨-, -, hlen, hnq, hring, -⟩ := longSeq_facts
  have hheads : longBatch.qheads longCfg = [2] := by decide +kernel
  have hplace : ∀ n p, longCfg.place longSeq n [] p = { anchor := false, entry := p / 16, slot := p % 16 } := fun n p => by
    simp [AttCfg.place, hring, hp]
  simp only [longTodo, pagesOf, List.mem_eraseDups, List.mem_map, AttCfg.needed, List.mem_filter, List.mem_range, hheads, hlen, hnq,
    hplace, longCfg_headPat, admitsKey, hklo, hkhi]
  constructor
  · rintro ⟨_, ⟨p, ⟨h1, h2⟩, rfl⟩, rfl⟩
    simp at h2
    exact ⟨p, by omega, h1, rfl⟩
  · rintro ⟨p, h1, h2, rfl⟩
    refine ⟨_, ⟨p, ⟨h2, ?_⟩, rfl⟩, rfl⟩
    simp
    omega

theorem longTodo_entries : ∀ x ∈ longTodo, x.1 = false ∧ x.2 < 262144 := by
  intro x hx
  obtain ⟨p, h1, h2, rfl⟩ := (mem_longTodo x).1 hx
  exact ⟨rfl, by dsimp only; omega⟩

theorem longTodo_length : 262141 ≤ longTodo.length := by
  have hsub : (List.range 262141).map (fun e => (false, e + 2)) ⊆ longTodo := by
    intro x hx
    obtain ⟨e, he, rfl⟩ := List.mem_map.1 hx
    have := List.mem_range.1 he
    exact (mem_longTodo _).2 ⟨16 * (e + 2), by omega, by omega, by congr 1; omega⟩
  have hnodup : ((List.range 262141).map (fun e => (false, e + 2))).Nodup :=
    List.nodup_range.map fun a b h => by simpa using h
  have := (hnodup.subperm hsub).length_le
  rwa [List.length_map, List.length_range] at this

end Sys2Proof.Machine
end

section
/-! PROOFS. The long batch's walk, piece by piece: where it stands after any number of them, and that no number below 2^60 ends it (R196, R205,
R213, R235). -/

namespace Sys2Proof.Machine

/-- The values of row 0 of head 2 of a sequence (R212, R213). -/
def State.longOut (s : State) (q : SeqEnt) (w : WalkRun) : List (Nat × Bool × Bool) :=
  s.adecOut 0 longCfg longBatch 2 ((s.adecHead 0 longCfg longBatch q w.globs [(2, 0)] 2 fun p =>
    if p < q.len then w.record longCfg (longCfg.place q longCfg.maxSink w.globs p) else s.tailRecord 0 longCfg q (p - q.len)).1.getD 0 {})

/-- Its bytes. -/
def State.longBytes (s : State) (q : SeqEnt) (w : WalkRun) : List Byte := packElems 0 (((s.longOut q w).map fun x => x.1).take 32)

theorem State.walks_putRstat (s : State) {W : Nat → Prop} {ix : Nat} (st : Status) (hix : ix < 16384) (hW : W (2 ^ 20 + 64 * ix + 62)) :
    s.Walks W (s.putRstat 0 ⟨false, 0, 2 ^ 20⟩ ix st) := by
  rw [State.putRstat, EA.plus, State.eaWrite_ws]
  have hl : (toLe 1 (statusCode st)).length = 1 := rfl
  refine s.walks_wrMem (by rw [hl]; dsimp only; omega) fun x h1 h2 => ?_
  rw [hl] at h2
  rwa [show x = 2 ^ 20 + 64 * ix + 62 by dsimp only at h1 h2; omega]

theorem State.ZeroBulk.adecSeq {s : State} (h : s.ZeroBulk) {W : Nat → Prop} {a ix : Nat} {q : SeqEnt} (w : WalkRun) (hq : q.nq = 1) (ho : q.oaddr = a)
    (ha : a < 2 ^ 23) (h32 : aligned a 32 = true) (hix : ix < 16384) (hW : W (2 ^ 20 + 64 * ix + 62)) :
    (s.wrMem .ws (a + 64) (s.longBytes q w)).Walks W (s.adecSeq 0 longCfg longBatch ⟨false, 0, 2 ^ 20⟩ ix q w) := by
  obtain ⟨hlat, -, -, -, hg, -, hd⟩ := longCfg_facts
  obtain ⟨-, hfirst, hcount, hraw, hstats, hfmt, -, -⟩ := longBatch_facts
  have hplace : s.attPlace 0 q.oaddr = some ⟨false, 0, a⟩ := by
    simp [State.attPlace, ho, h.ea32 (by omega) h32]
  have hrow : s.eaWrite 0 (EA.plus ⟨false, 0, a⟩ (2 * rowBytes 0)) (s.longBytes q w) = s.wrMem .ws (a + 64) (s.longBytes q w) := by
    rw [EA.plus, State.eaWrite_ws]; rfl
  unfold State.adecSeq
  simp only [hlat, hg, hq, hfirst, hcount, hraw, hstats, hplace, outWidth, Batch.ocode, hfmt, hd]
  simp only [Bool.or_self, Bool.false_eq_true, ↓reduceIte, State.putHeadRow, Bool.and_self, ne_eq, OfNat.ofNat_ne_zero, not_false_eq_true,
    mul_div_cancel_right₀, mul_one, Nat.ofNat_pos, Nat.div_self, List.range_one, List.foldl_cons, add_zero, mul_zero, List.drop_zero,
    List.foldl_nil, List.map_cons, List.map_nil, List.flatMap_cons, List.flatMap_nil, List.append_nil, List.length_cons, List.length_nil,
    zero_add, List.getD_cons_zero]
  rw [← hrow]
  exact ((((State.walks_attCount _ _ _).trans (State.walks_bump _ (by decide) _)).trans (.foldl (fun t _ => t.walks_attEvent (by decide) _) _)).trans
    (State.walks_bump _ (by decide) _)).trans (State.walks_putRstat _ _ hix hW)

theorem length_toLe (n v : Nat) : (toLe n v).length = n := by
  induction n generalizing v with
  | zero => rfl
  | succ n ih => rw [toLe, List.length_cons, ih]

theorem State.length_longBytes (s : State) (q : SeqEnt) (w : WalkRun) : (s.longBytes q w).length ≤ 32 := by
  have h8 : elemBits 0 = 8 := by decide
  simp only [State.longBytes, packElems, length_toLe, h8, List.length_take, List.length_map]
  omega

/-! ### The long walk -/

/-- What the walk works from (R197). -/
def longEnv : WalkEnv :=
  { c := longCfg, adec := some longBatch, gather := Gather.ofBytes longDesc, tab := ⟨false, 0, 2 ^ 20⟩, nseq := 16384, slot := 0, kreg := 0 }

/-- Where the sequence's entry passes, a piece finds the pages of its keys (R202, R206). -/
theorem State.walkPiece_begin (s : State) {w : WalkRun} {ent : List Byte} (hn : w.ent = none) (hread : s.rdMem .ws (2 ^ 20 + 64 * w.ix) 64 = ent)
    (hlen : (SeqEnt.ofBytes ent).lenOk = true) (hring : (SeqEnt.ofBytes ent).ring = false) (hglob : (SeqEnt.ofBytes ent).globEn = false) :
    s.walkPiece 0 longEnv w = (s, { w with
      ent := some ent, globs := []
      todo := pagesOf ((longCfg.needed longBatch (SeqEnt.ofBytes ent) []).map (longCfg.place (SeqEnt.ofBytes ent) longCfg.maxSink [])) }, true, false) := by
  have hread : s.eaRead (EA.plus ⟨false, 0, 2 ^ 20⟩ (64 * w.ix)) 64 = ent := by rw [EA.plus, State.eaRead_ws, hread]
  have hshort : (!(SeqEnt.ofBytes ent).lenOk || !longCfg.ringOk longBatch (SeqEnt.ofBytes ent)) = false := by simp [hlen, AttCfg.ringOk, hring]
  have hgl : s.globals 0 (SeqEnt.ofBytes ent) = (s, [], .ok) := by simp [State.globals, hglob]
  rw [State.walkPiece, hn]
  dsimp only
  rw [State.walkBegin]
  simp only [longEnv, hread]
  rw [hshort, hgl]
  rfl

/-- Where the sequence's pages are all read, a piece gives its rows (R213). -/
theorem State.walkPiece_done (s : State) {w : WalkRun} {ent : List Byte} (he : w.ent = some ent) (ht : w.todo = []) :
    s.walkPiece 0 longEnv w = (s.adecSeq 0 longCfg longBatch ⟨false, 0, 2 ^ 20⟩ w.ix (SeqEnt.ofBytes ent) w,
      { w with ix := w.ix + 1, ent := none, globs := [], pages := [] }, true, false) := by
  simp only [State.walkPiece, he, ht]
  rfl

theorem State.walkLoop_succ {s t : State} {k func : Nat} {v : WalkEnv} {w w' : WalkRun} {x : Bool} (q : QEntry) (n : Nat) (moved : Bool)
    (hix : w.ix < v.nseq) (hp : s.walkPiece k v w = (t, w', true, x)) :
    s.walkLoop k func v q (n + 1) w moved = t.walkLoop k func v q n w' true := by
  rw [State.walkLoop, if_neg (Nat.not_le.2 hix), hp]

/-- The bytes written by the time `n` sequences are done: the tile, the long sequences' outputs, and entries that are behind it. -/
def longWrites (n x : Nat) : Prop := tileBytes x ∨ (0x1040 ≤ x ∧ x < 0x1060) ∨ (2 ^ 20 ≤ x ∧ x < 2 ^ 20 + 64 * n)

theorem longWrites.mono {m n x : Nat} (hmn : m ≤ n) (h : longWrites m x) : longWrites n x :=
  h.imp id (Or.imp id fun ⟨h1, h2⟩ => ⟨h1, by omega⟩)

/-- Where the long walk stands, the state `b` being the one when entry 0 was done. -/
structure LongWalk (b s : State) (w : WalkRun) : Prop where
  walks : b.Walks (longWrites w.ix) s
  window : s.Window
  begun : 1 ≤ w.ix
  ent : w.ent = none ∨ w.ent = some longEntry ∧ w.ix < 16384
  todo : ∀ x ∈ w.todo, x.1 = false ∧ x.2 < 262144
  buf : w.addr = none ∧ w.buf = [] ∨ w.addr = some 0 ∧ w.ent ≠ none ∧ w.todo ≠ [] ∧ ∃ n < 2 ^ 29, w.buf.length = 2048 * n

/-- Pieces that are sure to come. -/
def piecesLeft (w : WalkRun) : Nat :=
  match w.ent with
  | none => (16384 - w.ix) * (262141 * 2 ^ 29)
  | some _ => (16384 - w.ix - 1) * (262141 * 2 ^ 29) + (w.todo.length * 2 ^ 29 - w.buf.length / 2048)

section
variable {b s : State} {w : WalkRun} (hb : b.ZeroBulk) (htab : ∀ i, 1 ≤ i → i < 16384 → b.rdMem .ws (2 ^ 20 + 64 * i) 64 = longEntry)
include hb

include htab in
/-- A sequence begins: its pages are those of its list (R202). -/
theorem LongWalk.begin (h : LongWalk b s w) (hn : w.ent = none) (hix : w.ix < 16384) :
    ∃ l : List (Bool × Nat), 262141 ≤ l.length ∧ s.walkPiece 0 longEnv w = (s, { w with ent := some longEntry, globs := [], todo := l }, true, false)
      ∧ LongWalk b s { w with ent := some longEntry, globs := [], todo := l } := by
  obtain ⟨-, -, -, -, hring, hglob, hlen, -⟩ := longSeq_facts
  have hread : s.rdMem .ws (2 ^ 20 + 64 * w.ix) 64 = longEntry := by
    rw [← htab w.ix h.begun hix]
    exact h.walks.rdMem hb.canonical (by omega) fun _ x h1 h2 hx => by unfold longWrites tileBytes at hx; omega
  have hpiece : s.walkPiece 0 longEnv w = (s, { w with ent := some longEntry, globs := [], todo := longTodo }, true, false) :=
    s.walkPiece_begin hn hread hlen hring hglob
  have hentries := longTodo_entries
  have hlong := longTodo_length
  generalize longTodo = l at *
  exact ⟨l, hlong, hpiece, h.walks, h.window, h.begun, .inr ⟨rfl, hix⟩, hentries, .inl (h.buf.resolve_right fun ⟨_, hne, _⟩ => hne hn)⟩

/-- A sequence whose pages are all read gives its rows (R213). -/
theorem LongWalk.done (h : LongWalk b s w) (he : w.ent = some longEntry) (hix : w.ix < 16384) (ht : w.todo = []) :
    ∃ t, s.walkPiece 0 longEnv w = (t, { w with ix := w.ix + 1, ent := none, globs := [], pages := [] }, true, false)
      ∧ LongWalk b t { w with ix := w.ix + 1, ent := none, globs := [], pages := [] } := by
  obtain ⟨-, -, -, hnq, -, -, -, ho⟩ := longSeq_facts
  have hz := hb.walks h.walks
  have hl := s.length_longBytes longSeq w
  have hput : s.Walks (longWrites (w.ix + 1)) (s.wrMem .ws (0x1000 + 64) (s.longBytes longSeq w)) :=
    s.walks_wrMem (by omega) fun x _ _ => .inr (.inl ⟨by omega, by omega⟩)
  have hseq := hz.adecSeq (W := longWrites (w.ix + 1)) w hnq ho (by decide) (by decide) hix (.inr (.inr ⟨by omega, by omega⟩))
  have hreg : (s.adecSeq 0 longCfg longBatch ⟨false, 0, 2 ^ 20⟩ w.ix longSeq w).regions = s.regions :=
    (does_adecSeq (m := butRegions) rfl (.refl _ s)).regions
  exact ⟨s.adecSeq 0 longCfg longBatch ⟨false, 0, 2 ^ 20⟩ w.ix longSeq w, s.walkPiece_done he ht,
    ((h.walks.mono fun x hx => hx.mono (Nat.le_succ _)).trans hput).trans hseq, h.window.of_regions hreg, Nat.le_succ_of_le h.begun, .inl rfl, h.todo,
    .inl (h.buf.resolve_right fun ⟨_, _, hne, _⟩ => hne ht)⟩

/-- The first piece of a page is its place (R205). -/
theorem LongWalk.page (h : LongWalk b s w) (he : w.ent = some longEntry) {e : Nat} {rest : List (Bool × Nat)}
    (ht : w.todo = (false, e) :: rest) (ha : w.addr = none) :
    ∃ t, s.walkPiece 0 longEnv w = (t, { w with addr := some 0, buf := [] }, true, false)
      ∧ LongWalk b t { w with addr := some 0, buf := [] } := by
  obtain ⟨-, hframe, hpool, hpage, -⟩ := longCfg_facts
  obtain ⟨hlist, hnpage, -⟩ := longSeq_facts
  obtain ⟨-, hen⟩ := h.todo (false, e) (by simp [ht])
  dsimp only at hen
  obtain ⟨t, hplace, hw, hreg⟩ := (hb.walks h.walks).pageAddr (longWrites w.ix) (c := longCfg) (q := longSeq) (e := e) hpool
    (by rw [hframe]) (by rw [hpage]; decide) hlist (by omega) (by omega)
  set u : State := t.bump (Pg.att 0 + 0x130) 0
  have hu : t.Walks (longWrites w.ix) u := t.walks_bump (by decide) _
  have hregu : u.regions = t.regions := (does_bump (m := butRegions) rfl (.refl _ t)).regions
  refine ⟨{ u with pageSeen := u.pageSeen.put (0 / 2048) u.clk }, ?_, ((h.walks.trans hw).trans hu).trans (u.walks_pageSeen _),
    h.window.of_regions (hregu.trans hreg), h.begun, h.ent, h.todo, .inr ⟨rfl, ?_, ?_, 0, by decide, rfl⟩⟩
  · simp only [State.walkPiece, he, ht, ha]
    rw [← longSeq]
    simp only [longEnv, hplace]
    rfl
  · rw [he]; nofun
  · rw [ht]; nofun

/-- Every other piece is a tile of the frame; the last of them ends the page (R205, R235). -/
theorem LongWalk.tile (h : LongWalk b s w) (he : w.ent = some longEntry) {e : Nat} {rest : List (Bool × Nat)}
    (ht : w.todo = (false, e) :: rest) {n : Nat} (ha : w.addr = some 0) (hn : n < 2 ^ 29) (hbuf : w.buf.length = 2048 * n) :
    ∃ t w', s.walkPiece 0 longEnv w = (t, w', true, false) ∧ LongWalk b t w' ∧ w'.ix = w.ix ∧ w'.ent = some longEntry
      ∧ (w'.todo = w.todo ∧ w'.buf.length = 2048 * (n + 1) ∨ n + 1 = 2 ^ 29 ∧ w'.todo = rest ∧ w'.buf = []) := by
  obtain ⟨-, hframe, -, hpage, -⟩ := longCfg_facts
  obtain ⟨t, data, htile, hdata, hw, hwin⟩ := (hb.walks h.walks).walkTile (q := 0) (by decide) h.window w.ix e hn
  have hdiv : w.buf.length / 2048 = n := by omega
  have hlen : (w.buf ++ data).length = 2048 * (n + 1) := by rw [List.length_append]; omega
  have hwt := h.walks.trans (hw.mono (V := longWrites w.ix) fun x hx => .inl hx)
  have hpiece : s.walkPiece 0 longEnv w = if (w.buf ++ data).length < longCfg.frameBytes then (t, { w with buf := w.buf ++ data }, true, false)
      else (t, { w with addr := none, buf := [], todo := rest, pages := w.pages ++ [(false, e, w.buf ++ data)] }, true, false) := by
    simp only [State.walkPiece, he, ht, ha]
    simp only [longEnv, hdiv, hpage, htile]
    rfl
  rw [hframe, hlen] at hpiece
  by_cases hlast : n + 1 < 2 ^ 29
  · rw [if_pos (by omega)] at hpiece
    exact ⟨t, _, hpiece, ⟨hwt, hwin, h.begun, h.ent, h.todo, .inr ⟨ha, by rw [he]; nofun, by rw [ht]; nofun, n + 1, hlast, hlen⟩⟩, rfl, he,
      .inl ⟨rfl, hlen⟩⟩
  · rw [if_neg (by omega)] at hpiece
    exact ⟨t, _, hpiece, ⟨hwt, hwin, h.begun, h.ent, fun x hx => h.todo x (by rw [ht]; exact .tail _ hx), .inl ⟨rfl, rfl⟩⟩, rfl, he,
      .inr ⟨by omega, rfl, rfl⟩⟩

include htab in
/-- No piece makes the end come nearer by more than one. -/
theorem LongWalk.piece (h : LongWalk b s w) (hix : w.ix < 16384) :
    ∃ t w', s.walkPiece 0 longEnv w = (t, w', true, false) ∧ LongWalk b t w' ∧ piecesLeft w ≤ piecesLeft w' + 1 := by
  rcases h.ent with hn | ⟨he, -⟩
  · obtain ⟨l, hl, hpiece, hnext⟩ := h.begin hb htab hn hix
    refine ⟨_, _, hpiece, hnext, ?_⟩
    have hbuf : w.buf = [] := (h.buf.resolve_right fun ⟨_, hne, _⟩ => hne hn).2
    simp only [piecesLeft, hn, hbuf, List.length_nil]
    omega
  · rcases htodo : w.todo with _ | ⟨⟨a, e⟩, rest⟩
    · obtain ⟨t, hpiece, hnext⟩ := h.done hb he hix htodo
      refine ⟨_, _, hpiece, hnext, ?_⟩
      simp only [piecesLeft, he, htodo, List.length_nil]
      omega
    · obtain rfl : a = false := (h.todo (a, e) (by simp [htodo])).1
      rcases h.buf with ⟨ha, hbuf⟩ | ⟨ha, -, -, n, hn, hbuf⟩
      · obtain ⟨t, hpiece, hnext⟩ := h.page hb he htodo ha
        refine ⟨_, _, hpiece, hnext, ?_⟩
        simp only [piecesLeft, he, hbuf]
        omega
      · obtain ⟨t, w', hpiece, hnext, hix', he', hw'⟩ := h.tile hb he htodo ha hn hbuf
        refine ⟨_, _, hpiece, hnext, ?_⟩
        simp only [piecesLeft, he, he', hix', hbuf]
        rcases hw' with ⟨ht', hbuf'⟩ | ⟨hlast, ht', hbuf'⟩
        · rw [ht', hbuf']
          omega
        · rw [ht', hbuf', htodo, List.length_cons, List.length_nil]
          omega

include htab in
/-- A bound below the number of pieces to come runs out in the middle of the walk. -/
theorem LongWalk.runs_out (q : QEntry) (fuel : Nat) (h : LongWalk b s w) (moved : Bool) (hf : fuel ≤ piecesLeft w) :
    ∃ t w' m, s.walkLoop 0 0 longEnv q fuel w moved = (t, { q with pages := some w' }, m) ∧ LongWalk b t w' := by
  induction fuel generalizing s w moved with
  | zero => exact ⟨s, w, moved, rfl, h⟩
  | succ n ih =>
    have hix : w.ix < 16384 := by
      rcases h.ent with hn | ⟨-, hix⟩
      · simp only [piecesLeft, hn] at hf
        omega
      · exact hix
    obtain ⟨t, w', hpiece, hnext, hleft⟩ := h.piece hb htab hix
    rw [State.walkLoop_succ q n moved (show w.ix < longEnv.nseq from hix) hpiece]
    exact ih hnext true (by omega)

end

end Sys2Proof.Machine
end

section
/-! PROOFS. The first sequence of the long batch: it takes up head 2's partial results, and its output is another descriptor (R198, R213). -/

namespace Sys2Proof.Machine

/-- Entry 0: no tokens, one query; its output begins at byte 0, so that head 2 is written over the descriptor. -/
def firstEntry : List Byte :=
  zeros 16 ++ [1] ++ zeros 15 ++ toLe 4 0x3000 ++ toLe 4 0 ++ toLe 4 512 ++ zeros 4 ++ toLe 4 0x2000 ++ zeros 12

def firstSeq : SeqEnt := SeqEnt.ofBytes firstEntry

/-- The descriptor it writes: one sequence, in region 1 and slot 1. -/
def nextDesc : List Byte := [0, 0, 1, 0, 1, 0, 0, 1, 1, 0, 0, 0, 1] ++ zeros 51

def nextBatch : Batch := Batch.ofBytes nextDesc

/-- The partial results of head 2: in FP32, what FP8 stores as the bytes of that descriptor. -/
def longRow : List Byte := (nextDesc.take 32).flatMap fun x => toLe 4 (if x = 1 then 0x3B000000 else 0)

/-- Its statistics: m = 0 and l = 1. -/
def longStats : List Byte := toLe 4 0 ++ toLe 4 0x3F800000

theorem firstSeq_facts : firstSeq.len = 0 ∧ firstSeq.nq = 1 ∧ firstSeq.ring = false ∧ firstSeq.globEn = false ∧ firstSeq.lenOk = true
    ∧ firstSeq.oaddr = 0 ∧ firstSeq.saddr = 512 := by decide +kernel

/-- A part of what a read gives. -/
theorem State.rdMem_part (s : State) (sp : Space) {o a n m : Nat} (h : a + n ≤ m) : s.rdMem sp (o + a) n = ((s.rdMem sp o m).drop a).take n := by
  refine List.ext_getElem (by simp [State.rdMem, Mem.getN]; omega) fun i h1 h2 => ?_
  simp [State.rdMem, Mem.getN, Space.key, Nat.add_assoc]

/-- The values of the row that is taken up. -/
theorem State.ZeroBulk.adecStart {s : State} (h : s.ZeroBulk) (hrow : s.rdMem .ws 256 128 = longRow) (hstats : s.rdMem .ws 512 8 = longStats) :
    s.adecStart 0 longCfg longBatch firstSeq 2 0 = { m := 0, l := 0x3F800000, o := (List.range 32).map (packedElem 9 longRow) } := by
  obtain ⟨hlat, -, -, -, -, -, hd⟩ := longCfg_facts
  obtain ⟨-, hnq, -, -, -, ho, hs⟩ := firstSeq_facts
  have hcont : longBatch.cont = true := by decide +kernel
  have hheads : longBatch.qheads longCfg = [2] := by decide +kernel
  have hplace : s.attPlace 0 0 = some ⟨false, 0, 0⟩ := by simp [State.attPlace, h.ea32 (a := 0) (by decide) (by decide)]
  have hm : s.rdMem .ws 512 4 = toLe 4 0 := by rw [s.rdMem_part .ws (o := 512) (a := 0) (n := 4) (m := 8) (by decide), hstats]; decide +kernel
  have hl : s.rdMem .ws 516 4 = toLe 4 0x3F800000 := by
    rw [s.rdMem_part .ws (o := 512) (a := 4) (n := 4) (m := 8) (by decide), hstats]; decide +kernel
  have helem : ∀ x < 32, s.kElem ⟨false, 0, 0⟩ 1 9 0 (2 * 32 + x) = packedElem 9 longRow x := fun x hx => by
    have h1 : (2 * 32 + x) / 32 = 2 := by omega
    have h2 : (2 * 32 + x) % 32 = x := by omega
    have h9 : rowBytes 9 = 128 := by decide
    rw [State.kElem, h1, h2, h9, EA.plus, State.eaRead_ws, ← hrow]
  have ho32 : ((List.range 32).map fun x => s.kElem ⟨false, 0, 0⟩ 1 9 0 (2 * 32 + x)) = (List.range 32).map (packedElem 9 longRow) :=
    List.map_congr_left fun x hx => helem x (List.mem_range.1 hx)
  simp only [State.adecStart, hlat, hcont, hheads, ho, hs, hplace, h.ea32 (a := 512) (by decide) (by decide), hnq, hd]
  have hn : leNat (toLe 4 0) = 0 ∧ leNat (toLe 4 0x3F800000) = 0x3F800000 := by decide
  simp [State.eaNat, EA.plus, hm, hl, ho32, hn]

/-- With every key below the batch's first, the row stays as it is taken up, and its bytes are the other descriptor's. -/
theorem State.ZeroBulk.longBytes {s : State} (h : s.ZeroBulk) (hrow : s.rdMem .ws 256 128 = longRow) (hstats : s.rdMem .ws 512 8 = longStats)
    {w : WalkRun} (hw : w.globs = []) : s.longBytes firstSeq w = nextDesc.take 32 := by
  obtain ⟨hlat, -, -, -, -, -, hd⟩ := longCfg_facts
  obtain ⟨-, -, -, hraw, -, hfmt, hklo, hkhi⟩ := longBatch_facts
  obtain ⟨hlen, hnq, -⟩ := firstSeq_facts
  have hnone : ∀ p, admitsKey 32 0 { win := 0, nsink := 0, localOff := false, glob := false } [] 0 p = false := fun p => by
    simp [admitsKey]; omega
  have hhead : (s.adecHead 0 longCfg longBatch firstSeq [] [(2, 0)] 2 fun p =>
      if p < firstSeq.len then w.record longCfg (longCfg.place firstSeq longCfg.maxSink [] p) else s.tailRecord 0 longCfg firstSeq (p - firstSeq.len)).1
        = [{ m := 0, l := 0x3F800000, o := (List.range 32).map (packedElem 9 longRow) }] := by
    simp only [State.adecHead, hlen, hnq, longCfg_headPat, hklo, hkhi, List.map_cons, List.map_nil, List.any_cons, List.any_nil,
      Nat.zero_add, hnone]
    simp [ceilDiv, h.adecStart hrow hstats]

  rw [State.longBytes, State.longOut, hw, hhead]
  simp only [State.adecOut, hraw, hlat, hfmt]
  rw [if_neg Bool.false_ne_true, if_neg Bool.false_ne_true]
  decide +kernel

end Sys2Proof.Machine
end

section
/-! PROOFS. The checks of a batch whose sequences' places are all found (R198, R202). -/

namespace Sys2Proof.Machine

/-- What a place of a sequence is checked for. -/
def PlaceOk (x : Option EA × Nat) : Prop := ∃ e, x.1 = some e ∧ e.fits x.2 = true

theorem placesStatus_ok {l : List (Option EA × Nat)} (h : ∀ x ∈ l, PlaceOk x) : placesStatus l = .ok := by
  unfold placesStatus
  rw [if_neg, if_neg]
  all_goals
    simp only [List.any_eq_true, not_exists, not_and]
    intro x hx
    obtain ⟨e, he, hf⟩ := h x hx
    simp [he, hf]

/-- Places in working stores can always be written. -/
theorem State.batchWritable_ws (s : State) (k : Nat) (c : AttCfg) {b : Batch} (q : SeqEnt) (hr : b.raw = false) (hs : b.stats = false) :
    s.batchWritable k c b true q = true := by
  have hp : ∀ a n, (match s.attPlace k a with | some e => s.eaWritable e n | none => true) = true := fun a n => by
    unfold State.attPlace
    rcases s.ea32 k a with _ | e
    · rfl
    · dsimp only
      cases he : e.acc
      · simp [State.eaWritable, he]
      · rfl
  unfold State.batchWritable
  split
  · rfl
  · simp only [hr, hs, Bool.or_self, Bool.false_eq_true, if_false, if_true, List.append_nil, List.map_cons, List.map_nil, List.cons_append,
      List.take_succ_cons, List.take_zero, List.all_cons, List.all_nil, Bool.and_true]
    exact hp _ _

/-- The checks of a batch in the slice's own working store, its sequences' places found (R198, R202). -/
theorem State.batchCheck_ok {s : State} {c : AttCfg} {b : Batch} {a : Nat} (hlat : c.latent = false) (hr : b.raw = false) (hs : b.stats = false)
    (hb : (b.clean && c.loaded && b.hcount != 0 && decide (b.hcount ≤ 64) && decide (b.hfirst + b.hcount ≤ c.hkv) && aligned b.klo 32
      && b.khi == 0 && aligned a 64 && b.ofmt == 0 && decide (a + 64 * b.nseq ≤ 2 ^ 24)) = true)
    (hreg : s.walkRegionOk 0 b.xslot b.kreg = true) (hslot : s.walkSlotOk 0 b.xslot = true)
    (hseqs : ∀ q ∈ s.batchSeqs ⟨false, 0, a⟩ b.nseq, q.clean = true ∧ (q.nqOk = true → c.g * q.nq ≤ 32 ∧ ∀ x ∈ s.adecPlaces 0 c b q, PlaceOk x)) :
    s.batchCheck 0 c b true ⟨false, 0, a⟩ = .ok := by
  have hplaces : placesStatus ((s.batchSeqs ⟨false, 0, a⟩ b.nseq).flatMap fun q => if !q.nqOk then [] else s.adecPlaces 0 c b q) = .ok := by
    refine placesStatus_ok fun x hx => ?_
    obtain ⟨q, hq, hx⟩ := List.mem_flatMap.1 hx
    obtain ⟨-, hn⟩ := hseqs q hq
    by_cases hok : q.nqOk = true
    · exact (hn hok).2 x (by simpa [hok] using hx)
    · simp [hok] at hx
  have hclean : ((s.batchSeqs ⟨false, 0, a⟩ b.nseq).any fun q => !q.clean || !s.batchWritable 0 c b true q) = false :=
    List.any_eq_false.2 fun q hq => by simp [(hseqs q hq).1, s.batchWritable_ws 0 c q hr hs]
  have hrows : ((s.batchSeqs ⟨false, 0, a⟩ b.nseq).any fun q => q.lenOk && decide (32 < c.g * q.nq)) = false :=
    List.any_eq_false.2 fun q hq => by
      by_cases hok : q.nqOk = true
      · have := ((hseqs q hq).2 hok).1
        simp [Nat.not_lt.2 this]
      · simp [SeqEnt.lenOk, hok]
  simp only [Bool.and_eq_true, bne_iff_ne, decide_eq_true_eq, beq_iff_eq] at hb
  obtain ⟨⟨⟨⟨⟨⟨⟨⟨⟨hcl, hld⟩, hn⟩, h64⟩, hkv⟩, hklo⟩, hkhi⟩, ha⟩, hf⟩, hfit⟩ := hb
  have h0 : aligned 0 32 = true := by decide
  simp only [State.batchCheck, if_true, hplaces, hclean, hrows]
  simp [hlat, hr, hcl, hld, hn, hklo, hkhi, h0, ha, hf, hreg, hslot, Nat.not_lt.2 h64, Nat.not_lt.2 hkv, EA.fits, State.eaWritable]
  omega

end Sys2Proof.Machine
end

section
/-! PROOFS. The long batch started: it passes its checks, and its walk outlasts the bound, with another descriptor in its place (R198, R235). -/

namespace Sys2Proof.Machine

/-- The instruction: its descriptor is at byte 64. -/
def longInstr : SInstr := { op := .adec, queue := 5, args := [64] }

/-- The long batch stands in slice 0's working store. -/
structure State.LongMem (s : State) : Prop where
  zero : s.ZeroBulk
  window : s.Window
  record : s.attRecord 0 0 = longRecord
  desc : s.rdMem .ws 64 64 = longDesc
  row : s.rdMem .ws 256 128 = longRow
  stats : s.rdMem .ws 512 8 = longStats
  other : s.rdMem .ws 65536 64 = zeros 64
  first : s.rdMem .ws (2 ^ 20) 64 = firstEntry
  rest : ∀ i, 1 ≤ i → i < 16384 → s.rdMem .ws (2 ^ 20 + 64 * i) 64 = longEntry

/-- And no slot of the slice's cache/activation engine is taken. -/
structure State.LongStart (s : State) : Prop where
  held : s.LongMem
  open0 : (s.region 0 0).en = true ∧ (s.region 0 0).producer = 1
  xslots : s.xslots = {}

/-- What the long batch leaves: the other descriptor in its place, and slot 0 taken. -/
structure State.LongRun (s : State) : Prop where
  zero : s.ZeroBulk
  window : s.Window
  xslots : s.xslots.items = [(64, { mode := .walk, kreg := 0 })]
  record : s.attRecord 0 0 = longRecord
  desc : s.rdMem .ws 64 64 = nextDesc
  other : s.rdMem .ws 65536 64 = zeros 64

/-- Two reads side by side. -/
theorem State.rdMem_append (s : State) (sp : Space) (o n m : Nat) : s.rdMem sp o (n + m) = s.rdMem sp o n ++ s.rdMem sp (o + n) m := by
  simp [State.rdMem, Mem.getN, List.range_add, Space.key, Nat.add_assoc]

theorem State.walkEnv_adec {s : State} {w : WalkRun} {b : Batch} {tab : EA} (hb : Batch.ofBytes w.desc = b) (htab : s.ea32 0 b.seqt = some tab) :
    s.walkEnv 0 true w = some { c := AttCfg.ofBytes w.cfg w.pats, adec := some b, gather := Gather.ofBytes w.desc, tab := tab, nseq := b.nseq
                                slot := b.xslot, kreg := b.kreg } := by
  subst hb
  simp [State.walkEnv, htab]

/-- A batch that passes its checks begins its walk in its slot (R198, R235). -/
theorem State.startBatch_walks {s : State} {i : SInstr} {de tab : EA} {bytes : List Byte} (e : QEntry) (hde : s.ea32 0 (i.arg 0) = some de)
    (ha : aligned de.off 64 = true) (hf : de.fits 64 = true) (hbytes : s.eaRead de 64 = bytes) (hn : (Batch.ofBytes bytes).nseq ≠ 0)
    (htab : s.ea32 0 (Batch.ofBytes bytes).seqt = some tab)
    (hc : s.batchCheck 0 (s.attCfgOf 0 (Batch.ofBytes bytes).cfg) (Batch.ofBytes bytes) true tab = .ok) :
    s.startBatch 0 e i true = s.startWalk 0 0 true e { desc := bytes, cfg := s.attRecord 0 (Batch.ofBytes bytes).cfg, pats := s.attPats 0 } := by
  simp [State.startBatch, hde, ha, hf, hbytes, hn, htab, hc]

theorem State.startWalk_of_env {s : State} {func : Nat} {w : WalkRun} {v : WalkEnv} (e : QEntry) (hv : s.walkEnv 0 true w = some v) :
    s.startWalk 0 func true e w =
      (((s.modXslot 1 v.slot fun x => { x with mode := .walk, kreg := v.kreg }).walkLoop 0 func v { e with walk := some v.slot } walkFuel w false).1,
        ((s.modXslot 1 v.slot fun x => { x with mode := .walk, kreg := v.kreg }).walkLoop 0 func v { e with walk := some v.slot } walkFuel w false).2.1) := by
  rw [State.startWalk, hv]
  rfl

theorem State.ZeroBulk.attPlace {s : State} (h : s.ZeroBulk) {a : Nat} (ha : a < 2 ^ 24) (h32 : aligned a 32 = true) :
    s.attPlace 0 a = some ⟨false, 0, a⟩ := by
  simp [State.attPlace, h.ea32 ha h32]

theorem State.ZeroBulk.modSeq {s : State} (h : s.ZeroBulk) (k : Nat) (f : Seq → Seq) : (s.modSeq k f).ZeroBulk := { h with }

theorem State.ZeroBulk.modXslot {s : State} (h : s.ZeroBulk) (e q : Nat) (f : XSlot → XSlot) : (s.modXslot e q f).ZeroBulk := { h with }

/-- Every place of either kind of sequence fits. -/
theorem State.ZeroBulk.longPlaces {s : State} (h : s.ZeroBulk) {q : SeqEnt} (hq : q = firstSeq ∨ q = longSeq) :
    ∀ x ∈ s.adecPlaces 0 longCfg longBatch q, PlaceOk x := by
  have hnums : q.qaddr = 0x3000 ∧ (q.oaddr = 0 ∨ q.oaddr = 0x1000) ∧ q.taddr = 0x2000 ∧ q.saddr = 512 ∧ q.nq = 1 := by
    rcases hq with rfl | rfl <;> decide +kernel
  obtain ⟨hqa, hoa, hta, hsa, hnq⟩ := hnums
  have ho : ∃ a, s.attPlace 0 q.oaddr = some ⟨false, 0, a⟩ ∧ a ≤ 0x1000 := by
    rcases hoa with e | e <;> rw [e]
    · exact ⟨_, h.attPlace (by decide) (by decide), by decide⟩
    · exact ⟨_, h.attPlace (by decide) (by decide), by decide⟩
  obtain ⟨a, ho, ha⟩ := ho
  have hst : (longBatch.stats || longBatch.cont || longBatch.raw) = true := by decide +kernel
  simp only [State.adecPlaces, hqa, ho, hta, hsa, hnq, hst, if_true, h.attPlace (a := 0x3000) (by decide) (by decide),
    h.ea32 (a := 0x2000) (by decide) (by decide), h.ea32 (a := 512) (by decide) (by decide), List.cons_append, List.nil_append,
    List.forall_mem_cons]
  refine ⟨⟨_, rfl, by decide +kernel⟩, ⟨_, rfl, ?_⟩, ⟨_, rfl, by decide +kernel⟩, ⟨_, rfl, by decide +kernel⟩, by simp⟩
  have hsize : max (((longBatch.qheads longCfg).getLastD 0 + 1) * outWidth longCfg longBatch / 32 * 1 * rowBytes longBatch.ocode)
      (if longBatch.cont then ((longBatch.qheads longCfg).getLastD 0 + 1) * (if longCfg.latent then longCfg.dl else longCfg.d) / 32 * 1 * rowBytes 9
        else 0) ≤ 4096 := by decide +kernel
  simp only [EA.fits, Bool.false_eq_true, if_false, decide_eq_true_eq]
  exact (Nat.add_le_add ha hsize).trans (by decide)

namespace State.LongMem

variable {s : State} (h : s.LongMem)
include h

theorem attCfgOf : s.attCfgOf 0 0 = longCfg := by rw [State.attCfgOf, h.record, h.zero.attPats]; rfl

/-- The first sequence is done in two pieces, and the descriptor it leaves is another. -/
theorem firstSequence (d c : List Byte) (p : List Word) (q : QEntry) (n : Nat) :
    ∃ t w, s.walkLoop 0 0 longEnv q (n + 1 + 1) { desc := d, cfg := c, pats := p } false = t.walkLoop 0 0 longEnv q n w true
      ∧ LongWalk t t w ∧ piecesLeft w = 16383 * (262141 * 2 ^ 29) ∧ s.Walks (fun x => 64 ≤ x ∧ x < 96 ∨ x = 2 ^ 20 + 62) t
      ∧ t.rdMem .ws 64 64 = nextDesc := by
  obtain ⟨hlen, hnq, hring, hglob, hlenok, ho, -⟩ := firstSeq_facts
  have hneed : longCfg.needed longBatch firstSeq [] = [] := by rw [AttCfg.needed, hlen]; rfl
  set w : WalkRun := { desc := d, cfg := c, pats := p, ent := some firstEntry } with hw
  set t := s.adecSeq 0 longCfg longBatch ⟨false, 0, 2 ^ 20⟩ 0 firstSeq w
  have hbegin : s.walkPiece 0 longEnv { desc := d, cfg := c, pats := p } = (s, w, true, false) := by
    have hread : s.rdMem .ws (2 ^ 20 + 64 * 0) 64 = firstEntry := by rw [Nat.mul_zero, Nat.add_zero, h.first]
    have hb := s.walkPiece_begin (w := { desc := d, cfg := c, pats := p }) rfl hread hlenok hring hglob
    rw [← firstSeq, hneed] at hb
    exact hb
  have hdone : s.walkPiece 0 longEnv w = (t, { desc := d, cfg := c, pats := p, ix := 1 }, true, false) := s.walkPiece_done rfl rfl
  have hbytes : s.longBytes firstSeq w = nextDesc.take 32 := h.zero.longBytes h.row h.stats rfl
  have h32 : (s.longBytes firstSeq w).length = 32 := by rw [hbytes]; decide
  have hput : s.Walks (fun x => 64 ≤ x ∧ x < 96 ∨ x = 2 ^ 20 + 62) (s.wrMem .ws 64 (s.longBytes firstSeq w)) :=
    s.walks_wrMem (by omega) fun x _ _ => .inl ⟨by omega, by omega⟩
  have hseq : (s.wrMem .ws 64 (s.longBytes firstSeq w)).Walks (fun x => x = 2 ^ 20 + 62) t :=
    h.zero.adecSeq w hnq ho (by decide) (by decide) (by decide) rfl
  have hwalks := hput.trans (hseq.mono fun x hx => .inr hx)
  have hreg : t.regions = s.regions := (does_adecSeq (m := butRegions) rfl (.refl _ s)).regions
  have hloop : s.walkLoop 0 0 longEnv q (n + 1 + 1) { desc := d, cfg := c, pats := p } false
      = t.walkLoop 0 0 longEnv q n { desc := d, cfg := c, pats := p, ix := 1 } true := by
    rw [State.walkLoop_succ q (n + 1) false (Nat.zero_lt_succ 16383) hbegin, State.walkLoop_succ q n true (Nat.zero_lt_succ 16383) hdone]
  refine ⟨t, _, hloop,
    ⟨.refl t, h.window.of_regions hreg, Nat.le_refl 1, .inl rfl, nofun, .inl ⟨rfl, rfl⟩⟩, rfl, hwalks, ?_⟩
  have hlow : t.rdMem .ws 64 32 = nextDesc.take 32 := by
    rw [hseq.rdMem (hput.canonical h.zero.canonical) (by decide) fun _ x _ _ hx => by omega, ← hbytes]
    have := State.rdMem_wrMem s .ws 64 (s.longBytes firstSeq w) h.zero.canonical
    rwa [h32] at this
  have hhigh : t.rdMem .ws (64 + 32) 32 = nextDesc.drop 32 := by
    rw [hwalks.rdMem h.zero.canonical (by decide) fun _ x _ _ hx => by omega, s.rdMem_part .ws (m := 64) (by decide), h.desc]
    decide
  rw [← nextDesc.take_append_drop 32, ← hlow, ← hhigh]
  exact t.rdMem_append .ws 64 32 32

end State.LongMem

namespace State.LongStart

variable {s : State} (h : s.LongStart)
include h

/-- A change of a sequencer leaves the batch where it is. -/
theorem modSeq (k : Nat) (f : Seq → Seq) : (s.modSeq k f).LongStart :=
  { h with held := { h.held with zero := h.held.zero.modSeq k f, window := h.held.window.of_regions rfl } }

theorem batchCheck : s.batchCheck 0 longCfg longBatch true ⟨false, 0, 2 ^ 20⟩ = .ok := by
  obtain ⟨hlat, -, -, -, hg, -⟩ := longCfg_facts
  obtain ⟨hn, -, -, hraw, hstats, -⟩ := longBatch_facts
  have hslot : longBatch.xslot = 0 ∧ longBatch.kreg = 0 := by decide +kernel
  refine State.batchCheck_ok hlat hraw hstats (by decide +kernel) ?_ ?_ fun q hq => ?_
  · rw [hslot.1, hslot.2]
    simp [State.walkRegionOk, h.open0, h.held.zero.walkTargets, State.xTaken, h.xslots]
  · rw [hslot.1]
    simp [State.walkSlotOk, State.xslot, h.xslots, Tab.get, lookupD]
  · have hq : q = firstSeq ∨ q = longSeq := by
      rw [hn] at hq
      obtain ⟨i, hi, rfl⟩ := List.mem_map.1 hq
      rw [EA.plus, State.eaRead_ws]
      dsimp only
      rcases Nat.eq_zero_or_pos i with rfl | hpos
      · exact .inl (by rw [Nat.mul_zero, Nat.add_zero, h.held.first]; rfl)
      · exact .inr (by rw [h.held.rest i hpos (List.mem_range.1 hi)]; rfl)
    refine ⟨?_, fun _ => ⟨?_, h.held.zero.longPlaces hq⟩⟩
    · rcases hq with rfl | rfl <;> decide +kernel
    · rcases hq with rfl | rfl <;> decide +kernel

/-- The bound runs out in the middle of the long batch's walk, and its entry stays queued (R235). -/
theorem startBatch (e : QEntry) : ∃ t w, s.startBatch 0 e longInstr true = (t, { e with walk := some 0, pages := some w })
    ∧ t.LongRun ∧ s.keepsQueues t ∧ t.boot.phase = s.boot.phase ∧ t.bulk.mode = s.bulk.mode := by
  obtain ⟨hn, -⟩ := longBatch_facts
  have hx : longBatch.cfg = 0 ∧ longBatch.seqt = 2 ^ 20 ∧ longBatch.xslot = 0 ∧ longBatch.kreg = 0 := by decide +kernel
  obtain ⟨hcfg, hseqt, hxslot, hkreg⟩ := hx
  have htab : s.ea32 0 longBatch.seqt = some ⟨false, 0, 2 ^ 20⟩ := by rw [hseqt]; exact h.held.zero.ea32 (by decide) (by decide)
  have hbatch : s.startBatch 0 e longInstr true = s.startWalk 0 0 true e { desc := longDesc, cfg := longRecord, pats := List.replicate 8 0 } := by
    rw [State.startBatch_walks e (de := ⟨false, 0, 64⟩) (h.held.zero.ea32 (by decide) (by decide)) (by decide) (by decide) (h.held.desc ▸ s.eaRead_ws 64 64)
      (hn.trans_ne (by decide)) htab (by rw [← longBatch, hcfg, h.held.attCfgOf]; exact h.batchCheck), ← longBatch, hcfg, h.held.record, h.held.zero.attPats]
  have henv : s.walkEnv 0 true { desc := longDesc, cfg := longRecord, pats := List.replicate 8 0 } = some longEnv := by
    rw [State.walkEnv_adec (b := longBatch) rfl htab, hn, hxslot, hkreg]
    rfl
  set m := s.modXslot 1 0 fun x => { x with mode := .walk, kreg := 0 } with hm
  have hheld : m.LongMem := { h.held with zero := h.held.zero.modXslot _ _ _, window := h.held.window.of_regions rfl }
  obtain ⟨b, w, hloop, hwalk, hleft, hb, hdesc⟩ := hheld.firstSequence longDesc longRecord (List.replicate 8 0) { e with walk := some 0 } (2 ^ 60 - 2)
  have hz := hheld.zero.walks hb
  have hrest : ∀ i, 1 ≤ i → i < 16384 → b.rdMem .ws (2 ^ 20 + 64 * i) 64 = longEntry := fun i h1 h2 =>
    (hb.rdMem hheld.zero.canonical (by omega) fun _ x _ _ hx => by omega).trans (hheld.rest i h1 h2)
  obtain ⟨t, w', moved, hrun, hlong⟩ := hwalk.runs_out hz hrest { e with walk := some 0 } (2 ^ 60 - 2) true (by rw [hleft]; decide)
  have hend : s.startBatch 0 e longInstr true = (t, { e with walk := some 0, pages := some w' }) := by
    have hfuel : walkFuel = 2 ^ 60 - 2 + 1 + 1 := by decide
    have hslot : longEnv.slot = 0 ∧ longEnv.kreg = 0 := ⟨rfl, rfl⟩
    rw [hbatch, State.startWalk_of_env e henv, hfuel, hslot.1, hslot.2, ← hm, hloop, hrun]
  have hother : t.rdMem .ws 65536 64 = zeros 64 := by
    rw [hlong.walks.rdMem hz.canonical (by decide) fun _ x _ _ hx => by unfold longWrites tileBytes at hx; omega,
      hb.rdMem hheld.zero.canonical (by decide) fun _ x _ _ hx => by omega, hheld.other]
  have hnext : t.rdMem .ws 64 64 = nextDesc := by
    rw [hlong.walks.rdMem hz.canonical (by decide) fun _ x _ _ hx => by unfold longWrites tileBytes at hx; omega, hdesc]
  refine ⟨t, w', hend, ⟨hz.walks hlong.walks, hlong.window, ?_, ?_, hnext, hother⟩, ?_, hlong.walks.phase.trans hb.phase, hlong.walks.mode.trans hb.mode⟩
  · rw [hlong.walks.xslots, hb.xslots, hm, State.modXslot, State.xslot, h.xslots]
    rfl
  · rw [State.attRecord, hlong.walks.attCfg, hb.attCfg]
    exact hheld.record
  · exact (State.keepsQueues.of_seqs (s := s) (t := m) rfl).trans (hb.queues.trans hlong.walks.queues)

end State.LongStart

end Sys2Proof.Machine
end

section
/-! PROOFS. The entry taken up again: the descriptor that stands there now names slot 1 (R198, R235). -/

namespace Sys2Proof.Machine

/-- The mask of every kind of state but the boot state and the bulk tier. -/
def butBoot : Nat := 2 ^ 66 - 1 - 2 ^ 6 - 2 ^ 28

theorem Does.boot {s t : State} (h : Does butBoot s t) : t.boot = s.boot := h.frame .boot (by decide)

/-- A sequence that fails stops neither the module nor the bulk tier (R214). -/
theorem State.adecFail_phase (s : State) (c : AttCfg) (b : Batch) (tab : EA) (ix : Nat) (q : SeqEnt) (en : Nat) (st : Status) :
    (s.adecFail 0 c b tab ix q en st).boot.phase = s.boot.phase ∧ (s.adecFail 0 c b tab ix q en st).bulk = s.bulk := by
  have hbulk : (s.adecFail 0 c b tab ix q en st).bulk = s.bulk :=
    (does_adecFail (m := 2 ^ 66 - 1 - 2 ^ 28) rfl (.refl _ s)).frame .bulk (by decide)
  have hboot : (s.adecFail 0 c b tab ix q en st).boot = (s.seqLevelFault 0 ix q en st).boot :=
    (does_putRstat (m := butBoot) rfl (does_zeroSeq rfl (does_noteSeqBad rfl (.refl _ _)))).boot
  refine ⟨?_, hbulk⟩
  rw [hboot, State.seqLevelFault, State.raise_phase]
  exact congrArg _ (does_bump (m := butBoot) rfl (.refl _ _)).boot

/-- A batch of one sequence of a bad length is done when that sequence is faulted (R214). -/
theorem State.walkLoop_short {s : State} {v : WalkEnv} {b : Batch} {w : WalkRun} (q : QEntry) (n : Nat) (hv : v.adec = some b) (hn : v.nseq = 1)
    (hw : w.ent = none) (hix : w.ix = 0) (hlen : (SeqEnt.ofBytes (s.eaRead (v.tab.plus 0) 64)).lenOk = false) :
    ∃ t, s.walkLoop 0 0 v q (n + 1 + 1) w false = (t, { q with phase := .running .ok, pages := none }, true)
      ∧ s.keepsQueues t ∧ t.boot.phase = s.boot.phase ∧ t.bulk = s.bulk := by
  set x := SeqEnt.ofBytes (s.eaRead (v.tab.plus 0) 64) with hx
  have hfault : s.walkPiece 0 v w = ((s.walkFault 0 v w x 0 .length).1, (s.walkFault 0 v w x 0 .length).2, true, false) := by
    have hbegin : s.walkBegin 0 v w = s.walkFault 0 v w x 0 .length := by
      simp [State.walkBegin, hv, hix, ← hx, hlen]
    rw [State.walkPiece, hw, ← hbegin]
  have hdone : ¬ v.nseq ≤ w.ix := by omega
  have hstate : (s.walkFault 0 v w x 0 .length).1 = s.adecFail 0 v.c b v.tab w.ix x 0 .length := by simp [State.walkFault, hv]
  have hnext : v.nseq ≤ (s.walkFault 0 v w x 0 .length).2.ix := by simp [State.walkFault, hn]
  obtain ⟨hphase, hbulk⟩ := s.adecFail_phase v.c b v.tab w.ix x 0 .length
  refine ⟨(s.walkFault 0 v w x 0 .length).1, ?_, (State.keepsQueues.refl s).walkFault, by rw [hstate, hphase], by rw [hstate, hbulk]⟩
  rw [State.walkLoop, if_neg hdone, hfault]
  dsimp only
  rw [State.walkLoop, if_pos hnext]

/-- What that walk works from. -/
def nextEnv : WalkEnv :=
  { c := longCfg, adec := some nextBatch, gather := Gather.ofBytes nextDesc, tab := ⟨false, 0, 0x10000⟩, nseq := 1, slot := 1, kreg := 1 }

namespace State.LongRun

variable {s : State} (h : s.LongRun)
include h

theorem batchCheck : s.batchCheck 0 longCfg nextBatch true ⟨false, 0, 0x10000⟩ = .ok := by
  obtain ⟨hlat, -⟩ := longCfg_facts
  have hx : nextBatch.xslot = 1 ∧ nextBatch.kreg = 1 ∧ nextBatch.raw = false ∧ nextBatch.stats = false ∧ nextBatch.nseq = 1 := by decide +kernel
  obtain ⟨hslot, hkreg, hraw, hstats, hn⟩ := hx
  refine State.batchCheck_ok hlat hraw hstats (by decide +kernel) ?_ ?_ fun q hq => ?_
  · have hmask : maskList 16 (bits (0x7E0000 : Word) 0 16) = [] := by decide
    have htargets : s.xTargeted 1 { mode := .walk, kreg := 0 } 0 = [(0, 0)] := by
      simp only [State.xTargeted, State.fld, h.zero.slots 0 (by decide), hmask, Nat.reduceDiv, h.zero.partOfSlice]
      rfl
    have htaken : s.xTaken 1 1 0 1 = false := by
      rw [State.xTaken, h.xslots, List.any_cons, List.any_nil]
      change (_ && (s.xTargeted 1 { mode := .walk, kreg := 0 } 0).contains (0, 1) || false) = false
      rw [htargets]
      rfl
    rw [hslot, hkreg]
    simp [State.walkRegionOk, h.window.next, h.zero.walkTargets, htaken]
  · rw [hslot]
    simp [State.walkSlotOk, State.xslot, Tab.get, h.xslots, lookupD]
  · rw [hn] at hq
    obtain rfl : q = SeqEnt.ofBytes (zeros 64) := by
      simpa [State.batchSeqs, EA.plus, h.other] using hq
    exact ⟨by decide +kernel, fun hok => absurd hok (by decide +kernel)⟩

/-- Its walk takes slot 1, and its one sequence is faulted for its length. -/
theorem startBatch (e : QEntry) : ∃ t, s.startBatch 0 e longInstr true = (t, { e with walk := some 1, phase := .running .ok, pages := none })
    ∧ s.keepsQueues t ∧ t.boot.phase = s.boot.phase ∧ t.bulk.mode = s.bulk.mode := by
  have hx : nextBatch.cfg = 0 ∧ nextBatch.seqt = 0x10000 ∧ nextBatch.xslot = 1 ∧ nextBatch.kreg = 1 ∧ nextBatch.nseq = 1 := by
    decide +kernel
  obtain ⟨hcfg, hseqt, hxslot, hkreg, hn⟩ := hx
  have htab : s.ea32 0 nextBatch.seqt = some ⟨false, 0, 0x10000⟩ := by rw [hseqt]; exact h.zero.ea32 (by decide) (by decide)
  have hc : s.attCfgOf 0 0 = longCfg := by rw [State.attCfgOf, h.record, h.zero.attPats]; rfl
  have hbatch : s.startBatch 0 e longInstr true = s.startWalk 0 0 true e { desc := nextDesc, cfg := longRecord, pats := List.replicate 8 0 } := by
    rw [State.startBatch_walks e (de := ⟨false, 0, 64⟩) (h.zero.ea32 (by decide) (by decide)) (by decide) (by decide) (h.desc ▸ s.eaRead_ws 64 64)
      (hn.trans_ne (by decide)) htab (by rw [← nextBatch, hcfg, hc]; exact h.batchCheck), ← nextBatch, hcfg, h.record, h.zero.attPats]
  have henv : s.walkEnv 0 true { desc := nextDesc, cfg := longRecord, pats := List.replicate 8 0 } = some nextEnv := by
    rw [State.walkEnv_adec (b := nextBatch) rfl htab, hn, hxslot, hkreg]
    rfl
  set m := s.modXslot 1 nextEnv.slot fun x => { x with mode := .walk, kreg := nextEnv.kreg }
  have hread : m.eaRead (nextEnv.tab.plus 0) 64 = zeros 64 := (State.eaRead_ws ..).trans h.other
  obtain ⟨t, hloop, hq, hphase, hbulk⟩ := m.walkLoop_short (v := nextEnv) (b := nextBatch)
    (w := { desc := nextDesc, cfg := longRecord, pats := List.replicate 8 0 }) { e with walk := some nextEnv.slot } (2 ^ 60 - 2) rfl rfl rfl rfl
    (by rw [hread]; decide +kernel)
  have hfuel : walkFuel = 2 ^ 60 - 2 + 1 + 1 := by decide
  refine ⟨t, ?_, (State.keepsQueues.of_seqs (s := s) (t := m) rfl).trans hq, hphase, congrArg _ hbulk⟩
  rw [hbatch, State.startWalk_of_env e henv, hfuel, hloop]
  rfl

end State.LongRun

end Sys2Proof.Machine
end

section
/-! PROOFS. A module that holds the long batch, and what its ADEC does (R89, R198, R235). -/

namespace Sys2Proof.Machine

/-! ### The module -/

/-- One slice in one partition over a bulk tier, an ADEC at PC 0, a configuration and two regions. -/
def longBare : State :=
  { State.reset.withRegs [(Pg.pt 0 + 0x110, 1), (keyAt (Pg.sec + 0x808) 0, 0xE000000000000), (keyAt (Pg.sec + 0x810) 0, 1)] with
    boot := { State.reset.boot with phase := .ready }
    ident := { State.reset.ident with bulk := true }
    bulk := { State.reset.bulk with mode := .ready }
    parts := State.reset.parts.put 0 { mode := .active }
    attCfg := State.reset.attCfg.put 0 longRecord
    regions := (State.reset.regions.put 0 { en := true, producer := 1, base := 128, tiles := 1 }).put 1
      { en := true, producer := 1, base := 256, tiles := 1 }
    seqs := State.reset.seqs.put 0 { mode := .running, pm := Tab.put {} 0 longInstr.encode } }

/-- The sequence table. -/
def longTable : List Byte := firstEntry ++ (List.replicate 16383 longEntry).flatten

def longModule : State :=
  (((longBare.wrMem .ws 64 longDesc).wrMem .ws 256 longRow).wrMem .ws 512 longStats).wrMem .ws (2 ^ 20) longTable

theorem longTable_length : longTable.length = 64 * 16384 := by
  have h1 : firstEntry.length = 64 ∧ longEntry.length = 64 := by decide +kernel
  rw [longTable, List.length_append, List.length_flatten, List.map_replicate, List.sum_replicate, h1.1, h1.2]
  rfl

theorem entry_of_flatten {α : Type} (l : List α) {n i : Nat} (hi : i < n) :
    ((List.replicate n l).flatten.drop (l.length * i)).take l.length = l := by
  induction i generalizing n with
  | zero =>
    obtain ⟨n, rfl⟩ := Nat.exists_eq_add_of_lt hi
    simp [List.replicate_succ]
  | succ i ih =>
    obtain ⟨n, rfl⟩ := Nat.exists_eq_succ_of_ne_zero (Nat.ne_of_gt (Nat.zero_lt_of_lt hi))
    rw [List.replicate_succ, List.flatten_cons, Nat.mul_succ, Nat.add_comm, ← List.drop_drop, List.drop_left]
    exact ih (Nat.lt_of_succ_lt_succ hi)

theorem longTable_rest {i : Nat} (h1 : 1 ≤ i) (h2 : i < 16384) : (longTable.drop (64 * i)).take 64 = longEntry := by
  have hlen : firstEntry.length = 64 ∧ longEntry.length = 64 := by decide +kernel
  have hsplit : 64 * i = firstEntry.length + longEntry.length * (i - 1) := by rw [hlen.1, hlen.2]; omega
  have htake := entry_of_flatten longEntry (n := 16383) (i := i - 1) (by omega)
  rw [longTable, hsplit, ← List.drop_drop, List.drop_left]
  rwa [hlen.2] at htake ⊢

theorem longBare_zeroBulk : longBare.ZeroBulk where
  canonical := by decide +kernel
  memStop := rfl
  bulk := rfl
  tolvys := rfl
  mode := rfl
  swaps := rfl
  placed n := by
    have hu : longBare.stackUnits = 0 := by decide +kernel
    have hp : longBare.placed n = { bulk := true, frame := n - 0 } := by
      simp only [State.placed, State.placeDefault, hu, Nat.not_lt_zero, if_false]
      rfl
    rw [hp]
    exact ⟨rfl, rfl, rfl⟩
  cells sp hsp o n ho := by
    refine List.eq_replicate_iff.2 ⟨by simp [State.rdMem, Mem.getN], fun b hb => ?_⟩
    obtain ⟨i, hi, rfl⟩ := List.mem_map.1 hb
    have hi := List.mem_range.1 hi
    have hk : ¬ 8 * 2 ^ 60 ≤ sp.key o + i := by rcases hsp with rfl | rfl <;> simp only [Space.key, Space.base] <;> omega
    exact if_neg hk
  range := by decide +kernel
  share := by decide +kernel
  slices := by decide +kernel
  twins := by decide +kernel
  slots q hq := by interval_cases q <;> decide +kernel
  pats i hi := by interval_cases i <;> decide +kernel
  part := by decide +kernel

theorem longBare_window : longBare.Window := ⟨by decide +kernel, by decide +kernel, by decide +kernel, by decide +kernel⟩

/-- The batch stands in the module's memory. -/
theorem longModule_start : longModule.LongStart := by
  have hlen : longDesc.length = 64 ∧ longRow.length = 128 ∧ longStats.length = 8 := by decide +kernel
  obtain ⟨hd, hr, hs⟩ := hlen
  have ht := longTable_length
  set m₁ := longBare.wrMem .ws 64 longDesc with hm₁
  set m₂ := m₁.wrMem .ws 256 longRow with hm₂
  set m₃ := m₂.wrMem .ws 512 longStats with hm₃
  have w₁ : longBare.Walks (fun x => 64 ≤ x ∧ x < 128) m₁ := longBare.walks_wrMem (by omega) fun x _ _ => ⟨by omega, by omega⟩
  have w₂ : m₁.Walks (fun x => 256 ≤ x ∧ x < 384) m₂ := m₁.walks_wrMem (by omega) fun x _ _ => ⟨by omega, by omega⟩
  have w₃ : m₂.Walks (fun x => 512 ≤ x ∧ x < 520) m₃ := m₂.walks_wrMem (by omega) fun x _ _ => ⟨by omega, by omega⟩
  have w₄ : m₃.Walks (fun x => 2 ^ 20 ≤ x) longModule := m₃.walks_wrMem (by omega) fun x _ _ => by omega
  have z₁ := longBare_zeroBulk.walks w₁
  have z₂ := z₁.walks w₂
  have z₃ := z₂.walks w₃
  have htable : longModule.rdMem .ws (2 ^ 20) (64 * 16384) = longTable := by
    have := State.rdMem_wrMem m₃ .ws (2 ^ 20) longTable z₃.canonical
    rwa [ht] at this
  refine ⟨⟨z₃.walks w₄, longBare_window.of_regions rfl, rfl, ?_, ?_, ?_, ?_, ?_, fun i h1 h2 => ?_⟩, by decide +kernel, rfl⟩
  · rw [w₄.rdMem z₃.canonical (by decide) fun _ x _ _ hx => by omega, w₃.rdMem z₂.canonical (by decide) fun _ x _ _ hx => by omega,
      w₂.rdMem z₁.canonical (by decide) fun _ x _ _ hx => by omega, ← hd]
    exact State.rdMem_wrMem _ _ _ _ longBare_zeroBulk.canonical
  · rw [w₄.rdMem z₃.canonical (by decide) fun _ x _ _ hx => by omega, w₃.rdMem z₂.canonical (by decide) fun _ x _ _ hx => by omega, ← hr]
    exact State.rdMem_wrMem _ _ _ _ z₁.canonical
  · rw [w₄.rdMem z₃.canonical (by decide) fun _ x _ _ hx => by omega, ← hs]
    exact State.rdMem_wrMem _ _ _ _ z₂.canonical
  · rw [w₄.rdMem z₃.canonical (by decide) fun _ x _ _ hx => by omega, w₃.rdMem z₂.canonical (by decide) fun _ x _ _ hx => by omega,
      w₂.rdMem z₁.canonical (by decide) fun _ x _ _ hx => by omega,
      w₁.rdMem longBare_zeroBulk.canonical (by decide) fun _ x _ _ hx => by omega]
    decide +kernel
  · have hpart := longModule.rdMem_part .ws (o := 2 ^ 20) (a := 0) (n := 64) (m := 64 * 16384) (by decide)
    have hf : firstEntry.length = 64 := by decide +kernel
    rw [Nat.add_zero, htable, List.drop_zero, longTable] at hpart
    rw [hpart, ← hf, List.take_left]
  · rw [longModule.rdMem_part .ws (o := 2 ^ 20) (m := 64 * 16384) (by omega), htable, longTable_rest h1 h2]

/-! ### The queue -/

/-- One entry stands in slice 0's attention queue, and none in another's. -/
structure State.OnlyEntry (s : State) (e : QEntry) : Prop where
  head : s.queue 0 5 = [e]
  others : ∀ k, k ≠ 0 → s.queue k 5 = []
  halted : s.halted 0 5 = false
  ready : s.boot.phase = .ready

theorem State.OnlyEntry.of_keeps {s t : State} {e : QEntry} (h : s.OnlyEntry e) (hq : s.keepsQueues t) (hp : t.boot.phase = s.boot.phase) :
    t.OnlyEntry e :=
  ⟨(hq.queue 0 5).trans h.head, fun k hk => (hq.queue k 5).trans (h.others k hk), (hq.halted 0 5).trans h.halted, hp.trans h.ready⟩

theorem State.OnlyEntry.setEntry {s : State} {e : QEntry} (h : s.OnlyEntry e) (z : QEntry) : (s.setEntry 0 5 0 z).OnlyEntry z where
  head := by rw [State.queue_setEntry, h.head]; rfl
  others k hk := (s.queue_setEntry_ne z (.inl hk)).trans (h.others k hk)
  halted := by
    rw [State.halted, State.setEntry, State.seq_modSeq]
    exact h.halted
  ready := h.ready

/-- A walk that is not starved leaves none to look again (R235). -/
theorem State.OnlyEntry.settled {s : State} {e : QEntry} (h : s.OnlyEntry e) (hp : ∀ c, e.phase ≠ .starved c) : s.walkSettle = s :=
  State.walkSettle_idle fun k _ => by
    by_cases hk : k = 0
    · subst hk
      cases hph : e.phase with
      | starved c => exact absurd hph (hp c)
      | _ => simp [State.walkWaits, h.head, hph]
    · simp [State.walkWaits, h.others k hk]

/-- An ADEC that is queued is started, and its entry put back. -/
theorem State.OnlyEntry.kickOne {s t : State} {e e' : QEntry} (h : s.OnlyEntry e) (hph : e.phase = .queued) (hop : fieldsOf e.op = some longInstr)
    (hs : s.startBatch 0 e longInstr true = (t, e')) (hq : s.keepsQueues t) (hp : t.boot.phase = s.boot.phase) (hst : ∀ c, e'.phase ≠ .starved c) :
    s.kickOne 0 5 = (t.takeOut 0 e').1.setEntry 0 5 0 (t.takeOut 0 e').2
      ∧ ((t.takeOut 0 e').1.setEntry 0 5 0 (t.takeOut 0 e').2).OnlyEntry (t.takeOut 0 e').2 := by
  obtain ⟨hkeep, -, hphase, -⟩ := t.takeOut_keeps 0 e'
  have hboot : (t.takeOut 0 e').1.boot.phase = t.boot.phase := by
    unfold State.takeOut; split <;> rfl
  have honly := ((h.of_keeps hq hp).of_keeps hkeep hboot).setEntry (t.takeOut 0 e').2
  refine ⟨?_, honly⟩
  have hrun : s.runEntry 0 5 0 = ((t.takeOut 0 e').1.setEntry 0 5 0 (t.takeOut 0 e').2).walkSettle := by
    simp only [State.runEntry, h.head, List.getElem?_cons_zero, hop]
    rw [show s.startOp 0 5 (List.take 0 [e]) e longInstr = s.startBatch 0 e longInstr true from rfl, hs]
  have hready : s.enginesRun = true := by simp [State.enginesRun, State.isReady, h.ready]
  have hnext : nextEntry 5 [e] = some 0 := by simp [nextEntry, hph]
  have hkick : s.kickOne 0 5 = s.runEntry 0 5 0 := by
    simp only [State.kickOne, h.halted, hready, h.head, hnext, List.getElem?_cons_zero, hop]
    rfl
  rw [hkick, hrun]
  exact honly.settled fun c hc => hst c (hphase ▸ hc)

/-! ### The instruction -/

theorem longModule_free : longModule.engineFree 0 .clean longInstr := by
  unfold State.engineFree State.issuable
  decide +kernel

/-- An ADEC's issue puts one entry into an empty queue and looks at the queue. -/
theorem State.issue_adec {s : State} (h : s.engineFree 0 .clean longInstr) (hother : ∀ k, k ≠ 0 → s.queue k 5 = []) :
    ∃ f g, s.issue 0 .clean .adec = ((s.modSeq 0 f).modSeq 0 g).kick 0 5 ∧ ((s.modSeq 0 f).modSeq 0 g).OnlyEntry (s.newEntry 0 longInstr) := by
  obtain ⟨⟨hmode, hrun, htwin, hfetch, -⟩, -, hqueue, hhalted⟩ := h
  have hqueue : s.queue 0 5 = [] := hqueue
  have hsame : longInstr.op = .adec := rfl
  have hroom : ¬ queueDepth 5 ≤ (s.queue 0 5).length := by rw [hqueue]; decide
  have hissue : s.issue 0 .clean .adec = s.enqueue 0 5 longInstr ((s.seq 0).word (s.seq 0).pc) := by
    simp only [State.issue, hmode, hrun, htwin, hfetch, hsame]
    rfl
  rw [State.enqueue, if_neg hroom] at hissue
  simp only [State.issuedNext, State.issuedAt] at hissue
  have hready : s.boot.phase = .ready := by simpa [State.enginesRun, State.isReady] using hrun
  refine ⟨_, _, hissue, ?_, fun k hk => ?_, ?_, hready⟩
  · rw [State.queue, State.seq_modSeq, if_pos rfl, State.seq_modSeq, if_pos rfl]
    dsimp only
    rw [Tab.get_put_self]
    exact congrArg (· ++ _) hqueue
  · rw [State.queue, State.seq_modSeq, if_neg hk, State.seq_modSeq, if_neg hk]
    exact hother k hk
  · rw [State.halted, State.seq_modSeq, if_pos rfl, State.seq_modSeq, if_pos rfl]
    exact hhalted

theorem longModule_others (k : Nat) (hk : k ≠ 0) : longModule.queue k 5 = [] :=
  congrArg (fun q : Seq => q.queues.get [] 5) ((Tab.get_put_ne _ _ hk _).trans rfl : longModule.seq k = {})

theorem State.takeOut_bulk (s : State) (k : Nat) (e : QEntry) : (s.takeOut k e).1.bulk = s.bulk := by
  unfold State.takeOut
  split <;> rfl

theorem State.LongRun.setEntry {s : State} (h : s.LongRun) (e z : QEntry) : ((s.takeOut 0 e).1.setEntry 0 5 0 z).LongRun := by
  have hmod : ∀ {t : State} (f : Seq → Seq), t.LongRun → (t.modSeq 0 f).LongRun := fun f h =>
    { h with zero := h.zero.modSeq 0 f, window := h.window.of_regions rfl }
  unfold State.takeOut
  split
  · dsimp only
    exact hmod _ (hmod _ h)
  · exact hmod _ h

/-- The entry is started twice, the second time into slot 1; nothing else of the module has ended (R89, R235). -/
theorem longModule_adec : ∃ t z, exec (.adec 0 .clean) longModule = .next t ∧ t.queue 0 5 = [z] ∧ z.walk = some 1 ∧ z.begun = true := by
  obtain ⟨f, g, hissue, honly⟩ := State.issue_adec longModule_free longModule_others
  set x := (longModule.modSeq 0 f).modSeq 0 g
  set e := longModule.newEntry 0 longInstr
  have hstart : x.LongStart := (longModule_start.modSeq 0 f).modSeq 0 g
  have hop : fieldsOf e.op = some longInstr := by decide +kernel
  obtain ⟨t₁, w, hrun₁, hlong, hq₁, hp₁, hb₁⟩ := hstart.startBatch e
  set e₁ : QEntry := { e with walk := some 0, pages := some w }
  obtain ⟨-, -, hphase₁, hop₁⟩ := t₁.takeOut_keeps 0 e₁
  obtain ⟨hkick₁, honly₁⟩ := honly.kickOne rfl hop hrun₁ hq₁ hp₁ nofun
  set y := (t₁.takeOut 0 e₁).1.setEntry 0 5 0 (t₁.takeOut 0 e₁).2
  obtain ⟨t₂, hrun₂, hq₂, hp₂, hb₂⟩ := (hlong.setEntry e₁ (t₁.takeOut 0 e₁).2).startBatch (t₁.takeOut 0 e₁).2
  set e₂ : QEntry := { (t₁.takeOut 0 e₁).2 with walk := some 1, phase := .running .ok, pages := none }
  obtain ⟨-, hwalk₂, hphase₂, -⟩ := t₂.takeOut_keeps 0 e₂
  obtain ⟨hkick₂, honly₂⟩ := honly₁.kickOne hphase₁ (hop₁ ▸ hop) hrun₂ hq₂ hp₂ nofun
  set z := (t₂.takeOut 0 e₂).1.setEntry 0 5 0 (t₂.takeOut 0 e₂).2
  have hkick : x.kick 0 5 = z := by
    rw [State.kick, honly.head]
    change (x.kickOne 0 5).kickOne 0 5 = z
    rw [hkick₁, hkick₂]
  have hmode : z.bulk.mode ≠ .failed := by
    have hz : z.bulk.mode = .ready := by
      calc z.bulk.mode = t₂.bulk.mode := congrArg _ (t₂.takeOut_bulk 0 e₂)
        _ = t₁.bulk.mode := hb₂.trans (congrArg _ (t₁.takeOut_bulk 0 e₁))
        _ = .ready := hb₁
    rw [hz]
    nofun
  have hloss : z.afterLoss longModule = z := by
    simp [State.afterLoss, honly₂.ready, hmode]
  refine ⟨z, (t₂.takeOut 0 e₂).2, ?_, honly₂.head, hwalk₂, by rw [QEntry.begun, hphase₂]; rfl⟩
  change Host.Outcome.next ((longModule.issue 0 .clean .adec).afterLoss longModule) = _
  rw [hissue, hkick, hloss]

/-- Refutes O31: a configuration that ACONFIG would refuse makes a batch's walk longer than the bound of the loop that runs it. The entry then
stays queued and is started once more, from the descriptor that its first sequence has put in its place, so that it holds slot 1 and not the slot 0
of the descriptor that was there at issue. -/
theorem not_attentionOperations : ¬ Obligations.AttentionOperations := by
  intro h
  have hstart : (longModule.accepted (0 : Fin 16) .clean longInstr).LongStart := longModule_start.modSeq 0 _
  have hx : longBatch.cfg = 0 ∧ longBatch.seqt = 2 ^ 20 ∧ longBatch.xslot = 0 ∧ longBatch.nseq ≠ 0 := by decide +kernel
  obtain ⟨hcfg, hseqt, hxslot, hn⟩ := hx
  set u := longModule.accepted (0 : Fin 16) .clean longInstr with hu
  obtain ⟨-, -, -, hadec, -⟩ := h longModule 0 .clean longInstr ⟨false, 0, 64⟩ longModule_start.held.zero.canonical longModule_free
    (hstart.held.zero.ea32 (a := 64) (by decide) (by decide))
  obtain ⟨-, hruns⟩ := hadec (.inr rfl) (by decide) (by decide)
  have hbatch : Batch.ofBytes (u.eaRead ⟨false, 0, 64⟩ 64) = longBatch := by rw [State.eaRead_ws, hstart.held.desc]; rfl
  rw [← hu, hbatch] at hruns
  obtain ⟨-, hok⟩ := hruns ⟨false, 0, 2 ^ 20⟩ hn (by rw [hseqt]; exact hstart.held.zero.ea32 (by decide) (by decide))
  obtain ⟨v, e', hdoes, hwalk, -⟩ := hok (by rw [hcfg]; exact hstart.held.attCfgOf ▸ hstart.batchCheck)
  obtain ⟨t, z, hexec, hqueue, hslot, hbegun⟩ := longModule_adec
  have hsame : t = (((v.takeOut 0 e').1.setEntry 0 5 0 (v.takeOut 0 e').2).walkSettle.afterLoss longModule) :=
    Host.Outcome.next.inj (hexec.symm.trans hdoes)
  have hheld := State.walk_of_settled (k := 0) (by decide) (hsame ▸ hqueue) hbegun
  rw [hwalk, hxslot, hslot] at hheld
  exact absurd hheld (by decide)

end Sys2Proof.Machine
end
